-- ==== Sys2Proof/Word.lean ====
section
/-!
DEFINITION. The word types of the Niric ISA and their plainest arithmetic (spec 00 R4, R5, 01 R25, 03 R66).
-/

namespace Sys2Proof

/-- One byte of memory (R5). -/
abbrev Byte := BitVec 8

/-- The 64-bit value of a k register, a tag file or a system register (R66). -/
abbrev Word := BitVec 64

/-- A 512-bit vector register, a queue line or a 64-byte line (R25, R35). -/
abbrev Line := BitVec 512

/-- A byte address of a capability or of global memory (R339). -/
abbrev Addr := BitVec 48

/-- A physical address (R216). -/
abbrev PAddr := BitVec 52

end Sys2Proof
end

