-- ==== Sys2Proof/Config.lean ====
section
/-!
DEFINITION. What the specification leaves to an implementation, or names without defining: constants with no body, so that
nothing can be proved of their values.
-/

namespace Sys2Proof

/-- How many 250 ps ticks pass in the n-th step (R2, R269) beyond one cycle of the fastest clock: the spec gives no instruction a length
in ticks. Log entry 7. -/
opaque Config.ticks : Nat → Nat

/-- How the edges of a tile's clock fall in the n-th step: each tile has an oscillator of its own (R27, R270). Log entry 7. -/
opaque Config.edges : Nat → Nat → Nat

/-- SHAKE256 with a 64-byte output over a byte sequence (R321, R378, R395 name FIPS 202). Log entry 8. -/
opaque Config.shake256 : List Byte → BitVec 512

/-- ML-DSA-65 verification of a signature over a digest by a key (R321, R394 name FIPS 204). Log entry 8. -/
opaque Config.mldsaVerify : Nat → BitVec 512 → List Byte → Bool

/-- The hash under which a key is fused (R394). Log entry 8. -/
opaque Config.keyHash : Nat → Nat

/-- The module's attestation signature over a digest, 3,309 bytes of it (R395). Log entry 8. -/
opaque Config.attest : BitVec 512 → Nat

/-- A tile's calibrated delay of the synchronisation wave, in ticks, and a link port's measured one-way delay (R270, R404).
Log entry 7. -/
opaque Config.waveDelay : Nat → Nat
opaque Config.linkDelay : Nat → Nat

/-- The TLM address of the tile monitor's return stub, for handlers and for team bodies (R51, R294): the system layer's
choice. Log entry 18. -/
opaque Config.stub : Bool → Nat

/-- The page-table root of a tile monitor's own tables (R217): the system layer's choice. Log entry 20. -/
opaque Config.monitorRoot : Nat → Nat

/-- CRC-32 of a flit's bytes 0 to 67 (R401 names no polynomial). Log entry 8. -/
opaque Config.crc32 : List Byte → BitVec 32

/-- The 64 bytes of a flit's body (R401 says what they carry and not how). Log entry 99. -/
opaque Config.flitBody : FlitBody → BitVec 512

/-- The ordered-class routes that the Delsis controller fixes at boot (R276), by node: each output's feeding inputs, the streams
it leads to, and the node and input it leads to, none for the local ejection. Log entry 25. -/
opaque Config.orderedRoutes : Nat → List (List Nat × List Nat × Option (Nat × Nat))

/-- The routes that the controller computes at a step around links that have failed (R393), in the same form. Log entry 25. -/
opaque Config.reroutes : Nat → Nat → List (List Nat × List Nat × Option (Nat × Nat))

/-- What the tile monitor's image puts into a tile at boot: TLM from address 0 on, the banks it marks executable, and the PCC that
context 0 begins with (R411 stage 0x06 loads it; the spec gives no firmware). Log entry 11. -/
opaque Config.monitorText : Nat → List Byte
opaque Config.monitorExec : Nat → BitVec 16
opaque Config.monitorPcc : Nat → BitVec 128

/-- A physical tile's engine demand for the epoch that begins at a step, in quanta (R410): a report the spec does not compute. Log
entry 30. -/
opaque Config.demand : Nat → Nat → Nat

/-- Whether a module's link port is one of those of the timing tree that lead away from the root (R404): chosen at pod formation. -/
opaque Config.treePort : Nat → Nat → Bool

/-- The n-th value that the spec does not state (log entry 26). -/
opaque Config.freeWord : Nat → Word

end Sys2Proof
end

