-- ==== Sys2Proof/Syntax.lean ====
section
/-!
DEFINITION. The instruction syntax: the operand fields of each word format (03 R69 to R77), the data that events carry,
and the one inductive Instr with a constructor for each row of spec/opcode_table.json.
-/

namespace Sys2Proof

/-- K3 fields (R69): fn is fixed by the constructor. -/
structure K3 where
  d : BitVec 6
  a : BitVec 6
  b : BitVec 6
  deriving DecidableEq, Repr

/-- KI fields (R69). -/
structure KI where
  d : BitVec 6
  a : BitVec 6
  imm : BitVec 12
  deriving DecidableEq, Repr

/-- KB branch fields (R69). -/
structure KB where
  a : BitVec 6
  b : BitVec 6
  off : BitVec 12
  deriving DecidableEq, Repr

/-- KB store fields (R69). -/
structure KS where
  value : BitVec 6
  base : BitVec 6
  imm : BitVec 12
  deriving DecidableEq, Repr

/-- KJ field (R69). -/
structure KJ where
  off : BitVec 24
  deriving DecidableEq, Repr

/-- KU fields (R69). -/
structure KU where
  d : BitVec 6
  imm : BitVec 18
  deriving DecidableEq, Repr

/-- KR fields of REP (R69): count and length are held minus one, as encoded. -/
structure KR where
  count1 : BitVec 6
  len1 : BitVec 4
  stride : BitVec 3
  deriving DecidableEq, Repr

/-- The fields of LI (R73). -/
structure LIW where
  d : BitVec 6
  imm : BitVec 48
  deriving DecidableEq, Repr

/-- V-class fields: word 0 of R72 and word 1 of R74. -/
structure VW where
  d : BitVec 6
  a : BitVec 6
  b : BitVec 6
  imm : BitVec 12
  la : BitVec 4
  sat : BitVec 1
  rm : BitVec 3
  mask : BitVec 3
  etype : BitVec 4
  vc : BitVec 5
  deriving DecidableEq, Repr

/-- G-class fields: word 0 of R72 and word 1 of R76. -/
structure GW where
  d : BitVec 6
  a : BitVec 6
  b : BitVec 6
  off : BitVec 13
  scope : BitVec 3
  order : BitVec 2
  la : BitVec 4
  tok : BitVec 1
  tag : BitVec 6
  async : BitVec 1
  size : BitVec 2
  deriving DecidableEq, Repr

/-- E-class fields: word 0 of R72 and word 1 of R77. -/
structure EW where
  d : BitVec 6
  a : BitVec 6
  b : BitVec 6
  imm : BitVec 15
  fmt : BitVec 4
  tok : BitVec 1
  tag : BitVec 6
  c : BitVec 6
  deriving DecidableEq, Repr

/-- Token kinds, in the code order of R36. -/
inductive TokKind where
  | data | null | round | eos | snap | bank | poison | sys
  deriving DecidableEq, Repr

/-- The code of a token kind (R36). -/
def TokKind.code : TokKind → BitVec 3
  | .data => 0 | .null => 1 | .round => 2 | .eos => 3 | .snap => 4 | .bank => 5 | .poison => 6 | .sys => 7

/-- The ordered header of an ordered message (R275). -/
structure OHdr where
  osn : Nat
  stamp : Word
  module : Nat
  tile : BitVec 22
  seq : Nat
  /-- the output that it was put on, to which its credits return (R274) -/
  port : Nat
  deriving DecidableEq, Repr

/-- A token with its header (R35): `seq` is the full count that SEQ is taken from modulo 256, `scale` the slot's
scale byte (R42), `ohdr` the ordered header where the token is an ordered message (R275). -/
structure Token where
  kind : TokKind
  line : Bool
  payload : Line
  round : BitVec 16
  resid : BitVec 12
  seq : Nat
  port : Nat
  scale : Byte
  ohdr : Option OHdr
  deriving DecidableEq, Repr

/-- An actor or a router operator of a tile, by its index (R43, R52). -/
inductive Node where
  | actor (i : Nat)
  | oper (i : Nat)
  deriving DecidableEq, Repr

/-- Who a translation walk serves: the task of a context, a DCOPY, or a stream (R298, R258, R263). -/
inductive Client where
  | ctx (c : Nat)
  | dcopy (c : Nat)
  | stream (n : Nat)
  deriving DecidableEq, Repr

namespace Machine

/-- What a global request does at its home (R241 to R243, R301, R307). -/
inductive GOp where
  | load | store | aadd | amin | amax | aand | aor | axor | aswp | acas | afadd
  | ldv | stv | vq
  /-- the retire-bit OR of RETIRE (R302) -/
  | retireOr
  /-- SWQ's read of header, REC0 and bitmap byte, and SWABT's check of the header (R307) -/
  | swq
  | swabt
  deriving DecidableEq, Repr

/-- A reply of a home (R220). -/
inductive Reply where
  | data (v : Word)
  | ack
  | poison
  | retry
  | passed
  | swq (header rec0 : Word) (byte : Byte)
  deriving DecidableEq, Repr

end Machine

/-- What a flit carries (R401). -/
inductive FlitBody where
  | none
  | tokens (ts : List Token)
  | ordered (t : Token) (eos : Bool)
  | beacon (w : Word)
  | timing (t : Word)
  | control (v : Word)
  /-- a credit of an ordered stream, for the sending port on a tile: the receiver's number in the entry (R274, R276) -/
  | credit (osn receiver : Nat) (tile : BitVec 22) (port : Nat)
  /-- bytes of a packed sequence of coded blocks (R112) -/
  | packed (bs : List Byte)
  /-- a request of another module to a memory actor of this one, under a number of that module's (R403) -/
  | request (id : Nat) (op : Machine.GOp) (pa : PAddr) (n : Nat) (data cmp : Word)
  /-- an actor's answer to such a request -/
  | reply (id : Nat) (r : Machine.Reply)
  deriving DecidableEq, Repr

/-- A received flit (R401, R402); `crcOk` is the outcome of its CRC-32 check. -/
structure Flit where
  typ : Nat
  vc : Nat
  stream : Nat
  seq : Nat
  body : FlitBody
  crcOk : Bool
  deriving DecidableEq, Repr

/-- A firmware image offered to the boot ROM (R394). -/
structure Firmware where
  digest : Nat
  key : Nat
  sig : Nat
  version : Nat
  deriving DecidableEq, Repr

/-- What a retirement names (R389): a physical tile with or without its router, or one link bit of R386. -/
inductive RetireTarget where
  | tile (phys : Nat) (router : Bool)
  | link (bit : Nat)
  deriving DecidableEq, Repr

/-- What the outside of the controller shows it during bring-up (R411): the Delsis, tile-monitor and dispatcher images offered; what
self-test finds, as pairs (i, c) of a physical tile and the least CODE at which it fails (R388; 0 is a failure at 0.8 GHz), routers,
and link bits of R386; the link ports that train, each with its peer's module and port; the module's number, whether it is the pod's
root, the pod's time, and the route words of the modules (R271, R403); and a stage that stops, with its failure code. -/
structure BootInput where
  images : List Firmware
  tileFail : List (Nat × Nat)
  routerFail : List Nat
  linkFail : List Nat
  portsUp : List (Nat × Nat × Nat)
  module : Nat
  root : Bool
  podTime : Word
  routes : List (Nat × Word)
  stopAt : Option (Nat × Nat)
  deriving DecidableEq, Repr

/-- The one inductive of the model: one constructor for each row of spec/opcode_table.json (03 R88 to R91 for the
238 instruction rows, 95_what_each_step_holds for the 108 rows that are steps of the part's other agents).
An instruction carries the operand fields of its word format; an event carries what names its occurrence. -/
inductive Instr where
  /-- NOP (R266). Does nothing. -/
  | nop (f : K3)
  /-- DONE (R294). Drains the vector queue, discards loop, REP and window state (window results are still written) and frees the helper. -/
  | doneI (f : K3)
  /-- RETIRE (R302). Ends a sweep team: waits for its operations, releases at wafer scope, ORs its retire bit at the scoreboard home and sends retire notices. -/
  | retireI (f : K3)
  /-- TRAP (R368). In a helper, raises SYSCALL, with the service number taken from k8; in context 0 it has no effect. -/
  | trapI (f : K3)
  /-- ERET (R369). In context 0, returns from its own trap, or resumes or aborts the pending helper named in k[a]. -/
  | eret (f : K3)
  /-- BRK (R368). In a helper, raises BREAK with the code; context 0 stops until the Delsis controller releases it. -/
  | brk (f : K3)
  /-- FENCE (R266). Stalls the context until every earlier access homed within the scope has performed. -/
  | fence (f : K3)
  /-- IFENCE (R267). Waits for earlier TLM stores of the context, then discards instruction words fetched ahead. -/
  | ifence (f : K3)
  /-- ADD (R133). Writes x + y. -/
  | add (f : K3)
  /-- SUB (R133). Writes x − y. -/
  | sub (f : K3)
  /-- MUL (R133). Writes the low 64 bits of x × y. -/
  | mul (f : K3)
  /-- MULH (R133). Writes the high 64 bits of the signed product. -/
  | mulh (f : K3)
  /-- MULHU (R133). Writes the high 64 bits of the unsigned product. -/
  | mulhu (f : K3)
  /-- DIV (R134). Writes the truncated signed quotient, with the corner cases of R106. -/
  | div (f : K3)
  /-- DIVU (R133). Writes the unsigned quotient, or all ones for a divisor of zero. -/
  | divu (f : K3)
  /-- REM (R134). Writes the signed remainder. -/
  | rem (f : K3)
  /-- REMU (R133). Writes the unsigned remainder, or the dividend for a divisor of zero. -/
  | remu (f : K3)
  /-- AND (R133). Writes x AND y. -/
  | andR (f : K3)
  /-- OR (R133). Writes x OR y. -/
  | orR (f : K3)
  /-- XOR (R133). Writes x XOR y. -/
  | xorR (f : K3)
  /-- ANDN (R133). Writes x AND NOT y. -/
  | andn (f : K3)
  /-- ORN (R133). Writes x OR NOT y. -/
  | orn (f : K3)
  /-- SHL (R133). Shifts x left by y[5:0]. -/
  | shl (f : K3)
  /-- SHR (R133). Shifts x logically right by y[5:0]. -/
  | shr (f : K3)
  /-- SRA (R133). Shifts x arithmetically right by y[5:0]. -/
  | sra (f : K3)
  /-- ROR (R133). Rotates x right by y[5:0]. -/
  | ror (f : K3)
  /-- MIN (R133). Writes the signed minimum. -/
  | minR (f : K3)
  /-- MAX (R133). Writes the signed maximum. -/
  | maxR (f : K3)
  /-- MINU (R133). Writes the unsigned minimum. -/
  | minu (f : K3)
  /-- MAXU (R133). Writes the unsigned maximum. -/
  | maxu (f : K3)
  /-- SLT (R133). Writes 1 when sx < sy, else 0. -/
  | slt (f : K3)
  /-- SLTU (R133). Writes 1 when x < y, else 0. -/
  | sltu (f : K3)
  /-- SEQ (R133). Writes 1 when x = y, else 0. -/
  | seq (f : K3)
  /-- SNE (R133). Writes 1 when x ≠ y, else 0. -/
  | sne (f : K3)
  /-- CLZ (R133). Counts the leading zero bits of x. -/
  | clz (f : K3)
  /-- CTZ (R133). Counts the trailing zero bits of x. -/
  | ctz (f : K3)
  /-- POPC (R133). Counts the one bits of x. -/
  | popc (f : K3)
  /-- ADDW (R133). Writes the sign-extended 32-bit sum. -/
  | addw (f : K3)
  /-- SUBW (R133). Writes the sign-extended 32-bit difference. -/
  | subw (f : K3)
  /-- MULW (R133). Writes the sign-extended 32-bit product. -/
  | mulw (f : K3)
  /-- SEXT (R133). Sign-extends x from the width that the width code gives. -/
  | sext (f : K3)
  /-- ZEXT (R133). Zero-extends x from the width that the width code gives. -/
  | zext (f : K3)
  /-- ADDI (R135). Writes x plus the sign-extended immediate. -/
  | addi (f : KI)
  /-- ANDI (R135). Writes x AND the sign-extended immediate. -/
  | andi (f : KI)
  /-- ORI (R135). Writes x OR the sign-extended immediate. -/
  | ori (f : KI)
  /-- XORI (R135). Writes x XOR the sign-extended immediate. -/
  | xori (f : KI)
  /-- SHLI (R136). Shifts x left by n. -/
  | shli (f : KI)
  /-- SHRI (R136). Shifts x logically right by n. -/
  | shri (f : KI)
  /-- SRAI (R136). Shifts x arithmetically right by n. -/
  | srai (f : KI)
  /-- RORI (R136). Rotates x right by n. -/
  | rori (f : KI)
  /-- SLTI (R135). Writes 1 when sx is less than the immediate, else 0. -/
  | slti (f : KI)
  /-- SLTUI (R135). Writes 1 when x is below the immediate read as unsigned, else 0. -/
  | sltui (f : KI)
  /-- MULI (R135). Writes the low 64 bits of x times the immediate. -/
  | muli (f : KI)
  /-- LIH (R137). Replaces the top 18 bits of k[d] with the immediate. -/
  | lih (f : KU)
  /-- LI (R137). Writes a sign-extended 48-bit immediate with the tag clear. -/
  | li (f : LIW)
  /-- BEQ (R138). Branches when x = y. -/
  | beq (f : KB)
  /-- BNE (R138). Branches when x ≠ y. -/
  | bne (f : KB)
  /-- BLT (R138). Branches when sx < sy. -/
  | blt (f : KB)
  /-- BGE (R138). Branches when sx ≥ sy. -/
  | bge (f : KB)
  /-- BLTU (R138). Branches when x < y. -/
  | bltu (f : KB)
  /-- BGEU (R138). Branches when x ≥ y. -/
  | bgeu (f : KB)
  /-- J (R139). Jumps by a 24-bit word offset. -/
  | jump (f : KJ)
  /-- JAL (R139). Writes the link capability into k1 and jumps. -/
  | jal (f : KJ)
  /-- JALR (R140). Checks the capability in k[a], transfers control through it and writes the link to k[d]. -/
  | jalr (f : KI)
  /-- LOOP (R142). Opens a hardware loop level over the next len instructions, or skips the body when the count is 0. -/
  | loopI (f : KI)
  /-- REP (R145). Replays the next len instructions count times, offsetting vector register numbers on each pass. -/
  | repI (f : KR)
  /-- LDB (R148). Loads a sign-extended byte from TLM. -/
  | ldb (f : KI)
  /-- LDBU (R148). Loads a zero-extended byte from TLM. -/
  | ldbu (f : KI)
  /-- LDH (R148). Loads a sign-extended halfword from TLM. -/
  | ldh (f : KI)
  /-- LDHU (R148). Loads a zero-extended halfword from TLM. -/
  | ldhu (f : KI)
  /-- LDW (R148). Loads a sign-extended word from TLM. -/
  | ldw (f : KI)
  /-- LDWU (R148). Loads a zero-extended word from TLM. -/
  | ldwu (f : KI)
  /-- LDD (R148). Loads a doubleword from TLM. -/
  | ldd (f : KI)
  /-- LDC (R148). Loads 128 bits and the granule tag from TLM. -/
  | ldc (f : KI)
  /-- STB (R149). Stores a byte to TLM. -/
  | stb (f : KS)
  /-- STH (R149). Stores a halfword to TLM. -/
  | sth (f : KS)
  /-- STW (R149). Stores a word to TLM. -/
  | stw (f : KS)
  /-- STD (R149). Stores a doubleword to TLM. -/
  | std (f : KS)
  /-- STC (R149). Stores 128 bits and the tag to a TLM granule. -/
  | stc (f : KS)
  /-- CINC (R356). Adds k[b] to the capability's address; the tag follows R341. -/
  | cinc (f : K3)
  /-- CSETB (R357). Derives rounded bounds of the given length at the address. -/
  | csetb (f : K3)
  /-- CSETBX (R357). Derives exact bounds, or traps CAP_BOUNDS. -/
  | csetbx (f : K3)
  /-- CANDP (R356). Masks the permission and type bits. -/
  | candp (f : K3)
  /-- CGETA (R356). Reads the address. -/
  | cgeta (f : K3)
  /-- CGETB (R356). Reads the decoded base. -/
  | cgetb (f : K3)
  /-- CGETT (R356). Reads the decoded top. -/
  | cgett (f : K3)
  /-- CGETP (R356). Reads bits 59:48. -/
  | cgetp (f : K3)
  /-- CGETTY (R356). Reads the object type. -/
  | cgetty (f : K3)
  /-- CTAG (R356). Reads the tag. -/
  | ctag (f : K3)
  /-- CCLR (R356). Copies k[a] with the tag cleared. -/
  | cclr (f : K3)
  /-- CSEAL (R358). Seals k[a] with the type that the sealer gives. -/
  | cseal (f : K3)
  /-- CUNSEAL (R358). Unseals k[a] with a matching sealer. -/
  | cunseal (f : K3)
  /-- CMOV (R356). Copies all 129 bits. -/
  | cmov (f : K3)
  /-- CSUB (R356). Writes the difference of the two addresses. -/
  | csub (f : K3)
  /-- CEQ (R356). Compares all 129 bits. -/
  | ceq (f : K3)
  /-- CINCI (R359). Adds a signed immediate to the capability's address. -/
  | cinci (f : KI)
  /-- CSETBI (R359). Sets exact bounds with an immediate length. -/
  | csetbi (f : KI)
  /-- PUT (R248). Puts a DATA word token on an output port. -/
  | put (f : K3)
  /-- PUTR (R248). Puts a DATA word token as a release at wafer scope. -/
  | putr (f : K3)
  /-- PUTL (R248). Puts a DATA line token read from TLM. -/
  | putl (f : K3)
  /-- TAKE (R247). Takes the next word token from an input, optionally with its header. -/
  | take (f : K3)
  /-- TAKEL (R247). Takes the next line token into TLM. -/
  | takel (f : K3)
  /-- PEEK (R247). Reads the token at head + i without taking it. -/
  | peek (f : K3)
  /-- MARK_NULL (R249). Puts a NULL token. -/
  | markNull (f : K3)
  /-- MARK_ROUND (R249). Puts a ROUND token; traps for a round-aligned actor. -/
  | markRound (f : K3)
  /-- MARK_EOS (R249). Puts EOS with a handler status and closes the output. -/
  | markEos (f : K3)
  /-- MARK_POISON (R249). Puts a POISON token. -/
  | markPoison (f : K3)
  /-- PUTN (R248). Puts a NULL token. -/
  | putn (f : K3)
  /-- ROOM (R250). Reads the channel room of an output. -/
  | room (f : K3)
  /-- CHST (R250). Reads a port's status word. -/
  | chst (f : K3)
  /-- WAITANY (R251). Waits until any selected tag is set, then returns the set tags. -/
  | waitany (f : K3)
  /-- WAITALL (R251). Waits until every selected tag is set. -/
  | waitall (f : K3)
  /-- FFR (R251). Returns the lowest set selected tag, or 64. -/
  | ffr (f : K3)
  /-- TAGCLR (R251). Clears the selected tags that no outstanding operation names. -/
  | tagclr (f : K3)
  /-- TAGRD (R251). Reads the 64 tags of the context. -/
  | tagrd (f : K3)
  /-- BARRIVE (R253). Releases at wafer scope, returns the phase and raises the tile's arrival for group g. -/
  | barrive (f : K3)
  /-- BARWAIT (R254). Waits until the named phase of g is released. -/
  | barwait (f : K3)
  /-- BARTEST (R254). Reports whether the named phase is released, without waiting. -/
  | bartest (f : K3)
  /-- BARLEAVE (R255). Sets the tile's mask bit for g for the rest of the residency. -/
  | barleave (f : K3)
  /-- MFS (R370). Reads a system register. -/
  | mfs (f : KI)
  /-- MTS (R370). Writes a system register under its access codes. -/
  | mts (f : KI)
  /-- START (R293). Starts an extra helper of the firing at the address in k[a], stalling until a helper is free. -/
  | startI (f : K3)
  /-- VADD (R162). Integer element add. -/
  | vadd (f : VW)
  /-- VSUB (R162). Integer element subtract. -/
  | vsub (f : VW)
  /-- VMUL (R162). Integer element multiply. -/
  | vmul (f : VW)
  /-- VMULH (R162). High half of the integer element product. -/
  | vmulh (f : VW)
  /-- VMIN (R162). Signed element minimum. -/
  | vmin (f : VW)
  /-- VMAX (R162). Signed element maximum. -/
  | vmax (f : VW)
  /-- VMINU (R162). Unsigned element minimum. -/
  | vminu (f : VW)
  /-- VMAXU (R162). Unsigned element maximum. -/
  | vmaxu (f : VW)
  /-- VAND (R162). Element AND. -/
  | vand (f : VW)
  /-- VOR (R162). Element OR. -/
  | vor (f : VW)
  /-- VXOR (R162). Element XOR. -/
  | vxor (f : VW)
  /-- VSHL (R162). Element shift left. -/
  | vshl (f : VW)
  /-- VSHR (R162). Element logical shift right. -/
  | vshr (f : VW)
  /-- VSRA (R162). Element arithmetic shift right. -/
  | vsra (f : VW)
  /-- VABS (R162). Element absolute value. -/
  | vabs (f : VW)
  /-- VNEG (R162). Element negation. -/
  | vneg (f : VW)
  /-- VADDS (R162). Element add, always clamped. -/
  | vadds (f : VW)
  /-- VSUBS (R162). Element subtract, always clamped. -/
  | vsubs (f : VW)
  /-- VFADD (R163). Floating-point element add. -/
  | vfadd (f : VW)
  /-- VFSUB (R163). Floating-point element subtract. -/
  | vfsub (f : VW)
  /-- VFMUL (R163). Floating-point element multiply. -/
  | vfmul (f : VW)
  /-- VFMA (R163). Fused x × y + z. -/
  | vfma (f : VW)
  /-- VFMS (R163). Fused x × y − z. -/
  | vfms (f : VW)
  /-- VFNMA (R163). Fused z − x × y. -/
  | vfnma (f : VW)
  /-- VFMIN (R164). Element minimumNumber. -/
  | vfmin (f : VW)
  /-- VFMAX (R164). Element maximumNumber. -/
  | vfmax (f : VW)
  /-- VFABS (R163). Clears the sign bit of each element. -/
  | vfabs (f : VW)
  /-- VFNEG (R163). Inverts the sign bit of each element. -/
  | vfneg (f : VW)
  /-- VFCPS (R163). Copies the sign of y onto x. -/
  | vfcps (f : VW)
  /-- VRSQRTE (R165). Reciprocal square-root seed. -/
  | vrsqrte (f : VW)
  /-- VRCPE (R165). Reciprocal seed. -/
  | vrcpe (f : VW)
  /-- VEXP2E (R165). Power-of-two seed. -/
  | vexp2e (f : VW)
  /-- VLOG2E (R165). Base-2 logarithm seed. -/
  | vlog2e (f : VW)
  /-- VCVT (R166). Converts elements between types. -/
  | vcvt (f : VW)
  /-- VCVTO (R167). Saturating conversion that counts overflows and may put an overflow or NULL token. -/
  | vcvto (f : VW)
  /-- VPACK (R168). Narrows integer elements of two sources by a factor of two. -/
  | vpack (f : VW)
  /-- VUNPACK (R168). Widens one half of the integer elements. -/
  | vunpack (f : VW)
  /-- VMXQ (R169). Quantises one MX block. -/
  | vmxq (f : VW)
  /-- VMXD (R170). Dequantises an MX block. -/
  | vmxd (f : VW)
  /-- VREDADD (R171). Integer sum of the active elements. -/
  | vredadd (f : VW)
  /-- VREDMAX (R171). Maximum of the active elements. -/
  | vredmax (f : VW)
  /-- VREDMIN (R171). Minimum of the active elements. -/
  | vredmin (f : VW)
  /-- VFREDADD (R172). Floating-point sum over a fixed binary tree. -/
  | vfredadd (f : VW)
  /-- VBCST (R171). Broadcasts a k register into the elements. -/
  | vbcst (f : VW)
  /-- VSHUF (R171). Shuffles elements of two sources by index. -/
  | vshuf (f : VW)
  /-- VSLIDE (R171). Slides the elements of two sources by an immediate. -/
  | vslide (f : VW)
  /-- VIOTA (R171). Writes s + i into element i. -/
  | viota (f : VW)
  /-- VLD (R173). Loads 64 B from TLM. -/
  | vld (f : VW)
  /-- VST (R173). Stores the active lanes to TLM. -/
  | vst (f : VW)
  /-- VLDS (R173). Strided element load. -/
  | vlds (f : VW)
  /-- VSTS (R173). Strided element store. -/
  | vsts (f : VW)
  /-- VLDX (R173). Indexed element load. -/
  | vldx (f : VW)
  /-- VSTX (R173). Indexed element store. -/
  | vstx (f : VW)
  /-- VLDB (R173). Loads one element and broadcasts it. -/
  | vldb (f : VW)
  /-- VCMPEQ (R175). Integer equal compare into a mask. -/
  | vcmpeq (f : VW)
  /-- VCMPNE (R175). Integer not-equal compare into a mask. -/
  | vcmpne (f : VW)
  /-- VCMPLT (R175). Integer less-than compare into a mask. -/
  | vcmplt (f : VW)
  /-- VCMPLE (R175). Integer less-or-equal compare into a mask. -/
  | vcmple (f : VW)
  /-- VFCMPEQ (R175). Floating-point equal compare into a mask. -/
  | vfcmpeq (f : VW)
  /-- VFCMPLT (R175). Floating-point less-than compare into a mask. -/
  | vfcmplt (f : VW)
  /-- VFCMPLE (R175). Floating-point less-or-equal compare into a mask. -/
  | vfcmple (f : VW)
  /-- VFCLASS (R176). Classifies floating-point elements. -/
  | vfclass (f : VW)
  /-- MAND (R176). Mask AND. -/
  | mand (f : VW)
  /-- MOR (R176). Mask OR. -/
  | mor (f : VW)
  /-- MXOR (R176). Mask XOR. -/
  | mxor (f : VW)
  /-- MNOT (R176). Mask NOT. -/
  | mnot (f : VW)
  /-- MPOPC (R176). Counts the ones of a mask into a k register. -/
  | mpopc (f : VW)
  /-- VSEL (R176). Selects elements by mask. -/
  | vsel (f : VW)
  /-- VMOVK (R176). Moves a k register into one element. -/
  | vmovk (f : VW)
  /-- VMOVX (R176). Moves one element into a k register. -/
  | vmovx (f : VW)
  /-- GLD (R241). Global load. -/
  | gld (f : GW)
  /-- GST (R241). Global store. -/
  | gst (f : GW)
  /-- GLDA (R241). Global acquire load. -/
  | glda (f : GW)
  /-- GSTR (R241). Global release store. -/
  | gstr (f : GW)
  /-- GAADD (R242). Atomic add at the home. -/
  | gaadd (f : GW)
  /-- GAMIN (R242). Atomic signed minimum. -/
  | gamin (f : GW)
  /-- GAMAX (R242). Atomic signed maximum. -/
  | gamax (f : GW)
  /-- GAAND (R242). Atomic AND. -/
  | gaand (f : GW)
  /-- GAOR (R242). Atomic OR. -/
  | gaor (f : GW)
  /-- GAXOR (R242). Atomic XOR. -/
  | gaxor (f : GW)
  /-- GASWP (R242). Atomic swap. -/
  | gaswp (f : GW)
  /-- GACAS (R242). Atomic compare and swap. -/
  | gacas (f : GW)
  /-- GAFADD (R242). Atomic FP32 add with RNE. -/
  | gafadd (f : GW)
  /-- GLDV (R244). Versioned acquire load; in a handler, token form only. -/
  | gldv (f : GW)
  /-- GSTV (R243). Stores data and writes the line's version as one store. -/
  | gstv (f : GW)
  /-- GVQ (R243). Reads a line's version. -/
  | gvq (f : GW)
  /-- MMA (R189). Adds the product of two TLM panels into an accumulator in chunk order, releasing when a count expires. -/
  | mma (f : EW)
  /-- MINIT (R190). Arms a counted release to a TLM ring. -/
  | minit (f : EW)
  /-- MINIT_PORT (R190). Arms a counted release to a release port. -/
  | minitPort (f : EW)
  /-- MREL (R193). Rounds the accumulator once, writes it to TLM and frees it. -/
  | mrel (f : EW)
  /-- MZERO (R194). Clears and claims an accumulator. -/
  | mzero (f : EW)
  /-- MSHAPE (R194). Sets the accumulator shape, clearing live data. -/
  | mshape (f : EW)
  /-- MRD (R195). Copies the accumulator contents or its control word to TLM. -/
  | mrd (f : EW)
  /-- DCOPY (R258). Copies 64-B lines between TLM, global memory and a remote tile. -/
  | dcopy (f : EW)
  /-- DSCFG (R261). Validates and installs a stream descriptor. -/
  | dscfg (f : EW)
  /-- DSGO (R262). Starts or continues a stream. -/
  | dsgo (f : EW)
  /-- DSSTOP (R262). Stops a stream at an element boundary. -/
  | dsstop (f : EW)
  /-- DBANK (R265). Hands a TLM bank to the consumer of a bank port with a BANK token. -/
  | dbank (f : EW)
  /-- LTAB (R209). Loads lookup tables from TLM. -/
  | ltab (f : EW)
  /-- LTAB_STREAM (R209). Loads lookup tables from a DIR 2 stream. -/
  | ltabStream (f : EW)
  /-- LWIRE (R210). Loads cell descriptors into a wiring context. -/
  | lwire (f : EW)
  /-- LSEL (R211). Selects the current wiring context. -/
  | lsel (f : EW)
  /-- LEVAL (R199). Evaluates the current context's cells in two phases. -/
  | leval (f : EW)
  /-- LSLICE (R212). Transposes 64 samples into planes. -/
  | lslice (f : EW)
  /-- LUNSLICE (R212). Transposes planes back into samples. -/
  | lunslice (f : EW)
  /-- LPLD (R213). Loads planes from TLM. -/
  | lpld (f : EW)
  /-- LPST (R213). Stores planes to TLM. -/
  | lpst (f : EW)
  /-- LPCNT (R214). Counts ones per sample over planes. -/
  | lpcnt (f : EW)
  /-- SWEEP (R301). Checks a sweep record and scoreboard and begins a launch. -/
  | sweep (f : EW)
  /-- SWQ (R307). Reads a scoreboard's state and a team's retire bit. -/
  | swq (f : EW)
  /-- SWABT (R307). Aborts the caller's running sweep of a scoreboard. -/
  | swabt (f : EW)
  /-- OSEND (R286). Stamps and injects one ordered message. -/
  | osend (f : EW)
  /-- OWM (R287). Reads ordered state; SEL 4 also sends a beacon. -/
  | owm (f : EW)
  /-- CSLOT (R335). Switches the tile's configuration slot, waiting or discarding. -/
  | cslot (f : EW)
  /-- RLOAD (R336). Loads a staged image's records for this tile into a slot. -/
  | rload (f : EW)
  /-- RQUERY (R337). Reads slot status, residency status or the last result word. -/
  | rquery (f : EW)
  /-- DISPATCH (R289). Every 4 cycles while a helper is free, the dispatcher makes one choice among stalled STARTs, resumed waiters and fireable actors or teams. -/
  | dispatch (tile helper : Nat)
  /-- FIRING_END (R45). When the last helper has executed DONE and all its operations are complete, the firing consumes untaken tokens, fills outputs with NULL, returns credits and counts itself. -/
  | firingEnd (tile actor : Nat)
  /-- NULL_PASS_FIRING (R46). The dispatcher performs an all-NULL firing itself without a helper. -/
  | nullPassFiring (tile actor : Nat)
  /-- ACTOR_END (R47). When every counted input is ended and no firing is live, removes the EOS tokens, sends EOS on the outputs and ends the actor. -/
  | actorEnd (tile : Nat) (node : Node)
  /-- LENGTH_MISMATCH (R48). A mismatched actor discards the remaining tokens, sends EOS with LENGTH_MISMATCH and counts the error. -/
  | lengthMismatch (tile : Nat) (node : Node)
  /-- ROUND_PASS (R49). When ROUND stands at every counted input, removes the ROUND tokens and sends one ROUND on each output. -/
  | roundPass (tile : Nat) (node : Node)
  /-- ROUND_MISMATCH (R49). A round-mismatched actor or operator discards tokens up to the ROUND and counts the error. -/
  | roundMismatch (tile : Nat) (node : Node)
  /-- TOKEN_ARRIVAL (R40). An arriving token is checked and placed in its queue slot by its extended SEQ. -/
  | tokenArrival (chan branch seq : Nat)
  /-- CREDIT_RETURN (R39). A returned credit raises the sender's room count for the branch. -/
  | creditReturn (chan branch : Nat)
  /-- FORK_FORWARD (R39). A token passes a multicast fork once every ready-mask bit is set. -/
  | forkForward (chan : Nat)
  /-- STEER (R52). The STEER operator fires, routing d to the output that c selects and NULL to the other. -/
  | steerOp (tile slot : Nat)
  /-- MERGE (R52). The MERGE operator fires, combining its two inputs into one output token. -/
  | mergeOp (tile slot : Nat)
  /-- CARRY (R52). The CARRY operator fires, forwarding its input, with optional NULL replacement. -/
  | carryOp (tile slot : Nat)
  /-- CONFIG_SLOT_SWITCH (R54). When the outgoing slot has drained, the tile switches to the next slot, passing carried ports. -/
  | configSlotSwitch (tile : Nat)
  /-- BANK_TRANSFER (R265). A BANK token at the head of a queue moves the bank into the receiver's grant and is removed. -/
  | bankTransfer (tile port : Nat)
  /-- LANE_GROUP_BIND (R296). On a lane group becoming free, the weighted deficit round-robin arbiter binds a queue head to it. -/
  | laneGroupBind (tile group : Nat)
  /-- VECTOR_COMPLETE (R159). A vector instruction completes in program order, writing results, flags, k destinations and any token. -/
  | vectorComplete (tile ctx : Nat)
  /-- WINDOW_CLOSE (R79). When an LA window's count runs out, the long-latency result is written over the shadow and any late trap is raised. -/
  | windowClose (tile ctx win : Nat)
  /-- MEMORY_REQUEST (R220). A memory actor performs a request at the home line and replies within 50 µs. -/
  | memoryRequest (tile id : Nat)
  /-- GLOBAL_REPLY (R237). A reply arriving at the tile writes d, sets the tag, sends any token and arms any POISON trap. -/
  | globalReply (tile id : Nat)
  /-- STORE_ACK (R220). A store acknowledgement lowers the unacknowledged count and sets any tag. -/
  | storeAck (tile id : Nat)
  /-- RETRY (R229). A RETRY reply to a versioned load makes the memory port re-send the request. -/
  | retryReply (tile id : Nat)
  /-- TRANSLATION_WALK (R351). A translation miss walks the page tables and ends translated, in a page wait, denied or in CAP_PERM. -/
  | translationWalk (tile : Nat) (client : Client) (va : Addr)
  /-- PAGER_MAP (R298). The pager maps the page and the waiting task enters dispatch class 2. -/
  | pagerMap (handle : Nat) (va : Addr) (entries : List (PAddr × Word))
  /-- PAGE_DENIED (R299). The pager refuses a mapping; the task traps and a fault token goes to the fault actor. -/
  | pageDenied (handle : Nat) (va : Addr)
  /-- TLB_INVALIDATE (R354). The Delsis controller's invalidation drops matching translation entries and completes once their accesses have performed. -/
  | tlbInvalidate (handle : Nat) (va : Addr) (level : Nat)
  /-- MX_COMMAND_COMPLETE (R187). A matrix-engine command completes, sets its tag and token, and the engine takes the next eligible head. -/
  | mxCommandComplete (tile ctx : Nat)
  /-- RELEASE_TOKEN_SEND (R190). A release to a port sends its next line token when channel room allows. -/
  | releaseTokenSend (tile acc : Nat)
  /-- LC_COMMAND_COMPLETE (R202). A fabric command completes, sets its tag and token, and the fabric takes the next head. -/
  | lcCommandComplete (tile ctx : Nat)
  /-- DCOPY_COMPLETE (R258). A DCOPY completes or stops after its lines have performed, and sets its tag. -/
  | dcopyComplete (tile ctx : Nat)
  /-- REMOTE_LINE_WRITE (R259). A remote DCOPY line arrives at the target tile and is written or refused. -/
  | remoteLineWrite (id : Nat)
  /-- DCOPY_REFUSAL (R259). A refusal report reaches the issuing tile and the context traps CAP_PERM. -/
  | dcopyRefusal (tile ctx : Nat)
  /-- STREAM_TOKEN_PUT (R262). A DIR 0 stream fills and puts its next token when room allows. -/
  | streamTokenPut (tile stream : Nat)
  /-- STREAM_TOKEN_TAKE (R262). A DIR 1 stream takes an arriving token and writes its elements, ending at EOS. -/
  | streamTokenTake (tile stream : Nat)
  /-- BARRIER_RELEASE (R309). When every member has arrived or is masked, the Catch tree raises REL(g) on every member tile. -/
  | barrierRelease (group : Nat)
  /-- SWEEP_LAUNCH (R301). The scoreboard header is read, checked and written atomically at its home, and launch tokens go to the placement tiles. -/
  | sweepLaunch (sweep : Nat)
  /-- SWEEP_LAUNCH_TOKEN (R301). A placement tile accepts a launch, takes a sweep slot, rebuilds predecessor counts and releases ready teams. -/
  | sweepLaunchToken (sweep tile : Nat)
  /-- RETIRE_NOTICE (R58). A retire notice lowers the successor's count and releases it at 0. -/
  | retireNotice (sweep team : Nat)
  /-- SWEEP_END (R303). When every team has retired, the launch tile writes STATE 2 and sets SWEEP's tag. -/
  | sweepEnd (sweep : Nat)
  /-- SWEEP_PARTITION (R306). A link failure that disconnects the placement halts the teams, writes STATE 4 and sets the tag for a trap. -/
  | sweepPartition (sweep : Nat)
  /-- SWEEP_ABORT_CONFIRM (R306). Once every placement tile has confirmed an SWABT, STATE 3 is written and the tag is set. -/
  | sweepAbortConfirm (sweep : Nat)
  /-- SYNC_WAVE_EMIT (R270). The module reference sends a synchronisation wave every 1,024 ticks. -/
  | syncWaveEmit
  /-- SYNC_WAVE (R270). A tile receiving a wave compares its count and slews the correction. -/
  | syncWave (tile : Nat)
  /-- UNSYNCHRONISED (R272). A tile that misses four consecutive waves becomes unsynchronised and reports it. -/
  | unsynchronised (tile : Nat)
  /-- ORDERED_MESSAGE_ARRIVAL (R278). An ordered message arriving at a router or link-port input updates W and may let messages be forwarded or ejected in key order. -/
  | orderedMessageArrival (node input : Nat)
  /-- BEACON (R277). An arriving beacon advances its input's watermark and may release held messages. -/
  | beacon (node input : Nat) (w : Word)
  /-- IDLE_BEACON (R277). An injection port that has sent nothing for 256 ns sends a beacon. -/
  | idleBeacon (tile : Nat)
  /-- BEACON_FORWARD (R277). A router output sends a beacon after its watermark advances, at most once every 16 ns. -/
  | beaconForward (node : Nat)
  /-- OWM_STALL (R282). A feeding watermark unchanged for OWMTIMEOUT raises a stall record and fault tokens. -/
  | owmStall (node input : Nat)
  /-- WATCHDOG (R311). The region's watchdog counter reaches its interval, records the queues and aborts the residency. -/
  | watchdog (handle : Nat)
  /-- REBALANCE_SAMPLE (R313). Every 1 µs a tile samples queue occupancy, and after 64 samples may nominate an actor. -/
  | rebalanceSample (tile : Nat)
  /-- MIGRATION (R233). The rebalancer moves an actor, its banks and queues to another tile of the region. -/
  | migration (tile actor target : Nat)
  /-- FORWARDING_ENTRY_REMOVAL (R234). The old router's forwarding entry is removed once every covered token has arrived. -/
  | forwardingEntryRemoval (tile : Nat)
  /-- TRAP_TAKEN (R365). A helper stops at a boundary with its frame and pending bit, and context 0 is entered if free. -/
  | trapTaken (tile ctx : Nat)
  /-- BRK_RELEASE (R368). The Delsis controller releases a context 0 stopped by BRK. -/
  | brkRelease (tile : Nat)
  /-- PREEMPT_TOKEN (R371). A SYS pre-emption token from the dispatcher starts the halt of the tile. -/
  | preemptToken (tile : Nat)
  /-- PREEMPT_REQUEST (R371). Context 0 writes PREEMPT.REQ = 1 to halt the tile. -/
  | preemptRequest (tile : Nat)
  /-- PREEMPT_RESUME (R372). Context 0 writes PREEMPT.REQ = 0, resuming halted helpers and dispatch. -/
  | preemptResume (tile : Nat)
  /-- HALTED (R371). When helpers, vector queues and engines have stopped, HALTED is set. -/
  | haltedSet (tile : Nat)
  /-- WDOG_WRITE (R312). An MTS from context 0 writes the region's watchdog setting, FIRED by W1C. -/
  | wdogWrite (tile : Nat) (v : Word)
  /-- SNAP (R374). A host snapshot request stops the sources and injects SNAP tokens. -/
  | snapCmd (handle : Nat)
  /-- SNAP_ARRIVAL (R375). A SNAP reaching an input is held in the marker cell; a first complete SNAP holds the node and forwards SNAP. -/
  | snapArrival (chan branch : Nat)
  /-- SNAPSHOT_TILE_COMPLETE (R374). A tile whose nodes, halt and replies are complete writes its records; the last makes the residency Held. -/
  | snapshotTileComplete (handle tile : Nat)
  /-- RESTORE (R379). Places a Held snapshot on a free region, rebasing names and resetting sequence counters. -/
  | restoreCmd (handle : Nat)
  /-- GO (R400). The host submits the image of a control block. -/
  | goCmd (handle : Nat)
  /-- ABORT (R400). The host aborts the residency. -/
  | abortCmd (handle : Nat)
  /-- COMMIT (R333). The host commits the idle parameter copy for the next replay. -/
  | commitParams (handle : Nat)
  /-- RESIDENCY_DISPATCH (R62). The dispatcher takes a Queued residency to Loading once a free region and its groups are free. -/
  | residencyDispatch (handle : Nat)
  /-- IMAGE_STAGING (R322). The loader runs admission checks 1–7 once on the image. -/
  | imageStaging (handle : Nat)
  /-- ARMING (R330). The loader runs check 8, sends RLOADs, writes groups and copies the parameter block. -/
  | arming (handle : Nat)
  /-- RESIDENCY_START (R62). Once every RLOAD has completed, the region is Armed and bound sources start. -/
  | residencyStart (handle : Nat)
  /-- RESIDENCY_END (R62). When every sink has seen EOS and the queues are empty, an end record is written and the region freed. -/
  | residencyEnd (handle : Nat)
  /-- RESIDENCY_ABORT (R62). An unrecovered fault or abort ends the residency with an abort record. -/
  | residencyAbort (handle : Nat)
  /-- REPLAY_REARM (R332). A persistent residency re-arms at drain, acting on COMMIT before sources inject. -/
  | replayRearm (handle : Nat)
  /-- FAULT_TOKEN (R384). A fault token is placed in the fault port's queue, buffered or dropped. -/
  | faultToken (handle : Nat)
  /-- FAULT_PORT_EOS (R384). The dispatcher places EOS on the fault port once its conditions hold. -/
  | faultPortEos (handle : Nat)
  /-- INLET_DATA (R397). A host write creates a DATA word token on an inlet channel, or is dropped. The number of a host channel is
`32 * port + n`, for channel n through a port of the module (R396); so in the five events after this one. -/
  | inletData (n : Nat) (v : Word)
  /-- INLET_EOS (R397). A host write creates EOS with a status. -/
  | inletEos (n : Nat) (v : Word)
  /-- INLET_ROUND (R397). A host write creates ROUND. -/
  | inletRound (n : Nat)
  /-- INLET_NULL (R397). A host write creates NULL. -/
  | inletNull (n : Nat)
  /-- INLET_LINE (R397). An aligned 64-B host write creates a DATA line token; `aligned` is false of any other write that the page drops. -/
  | inletLine (n : Nat) (v : Line) (aligned : Bool)
  /-- TAKEN (R398). A host write consumes k outlet tokens and returns their credits. -/
  | takenWrite (n k : Nat)
  /-- BAR4_ACCESS (R230). A host read or write through BAR4 performs at its global home. -/
  | bar4Access (port : Nat) (write : Bool) (offset size : Nat) (v : Word)
  /-- HOST_PORT_LINK_FAIL (R396). A host port's link fails, and the other port continues. -/
  | hostPortLinkFail (port : Nat)
  /-- ATTESTATION_REPORT (R395). A BAR0 request with a nonce produces a signed attestation report. -/
  | attestationReport (nonce : BitVec 256)
  /-- KEY_SLOT_FILL (R394). A BAR0 command signed by the owner key fills an image-signing key slot. -/
  | keySlotFill (slot : Nat) (key : Nat) (sig : Nat)
  /-- RECOVERY_IMAGE_LOAD (R394). In recovery mode, a BAR0 command loads another firmware image. -/
  | recoveryImageLoad (img : Firmware)
  /-- HOST_RETIRE (R389). A BAR0 command retires a tile or link. -/
  | hostRetire (target : RetireTarget)
  /-- FABRIC_ENABLE (R407). Setting EN validates the port fabric's elements, or leaves EN at 0 with the error bit. -/
  | fabricEnable (port : Nat) (en : Bool)
  /-- REGISTER_WRITE (R6). A write to any register with no behaviour of its own follows its access codes. The offset is
`2 ^ 27 * port + o`, for offset o in the 64 MiB of a port's BAR0 or of a register of no stated place behind them (R396). -/
  | registerWrite (offset : Nat) (v : Word)
  /-- FABRIC_ELEMENT_FIRE (R406). A port-fabric element fires when its inputs hold tokens and its outputs are free. -/
  | fabricElementFire (port elem : Nat)
  /-- FLIT_RECEIVE (R402). A received flit is accepted in SEQ order, or dropped with a NAK on CRC failure. -/
  | flitReceive (port : Nat) (flit : Flit)
  /-- ACK (R402). An ACK frees the covered flits from the replay buffer. -/
  | ackFlit (port seq : Nat)
  /-- NAK (R402). A NAK makes the sender resend from the named flit. -/
  | nakFlit (port seq : Nat)
  /-- RETRAIN (R402). Sixteen NAKs within 1 ms start a retrain. -/
  | retrain (port : Nat)
  /-- LINK_DEAD (R402). A third failed retrain declares the link dead, rerouting, poisoning replies and stopping its fabric. -/
  | linkDead (port : Nat)
  /-- TIMING_FLIT_SEND (R404). The pod root sends a TIMING flit on each spanning-tree link every 256 ns. -/
  | timingFlitSend
  /-- TIMING_FLIT (R404). A received TIMING flit slews the module reference and is forwarded downward. -/
  | timingFlit (port : Nat) (time : Word)
  /-- COX_EPOCH (R410). At each 1 µs epoch, the Cox grants core-rail quanta and tiles apply their grants. -/
  | coxEpoch
  /-- DROOP_STOP (R409). A droop below the 0.8 GHz level stops the tile's oscillator and is counted. -/
  | droopStop (phys : Nat)
  /-- DROOP_RECOVERY (R409). The supply recovers within 200 ns and the oscillator restarts. -/
  | droopRecovery (phys : Nat)
  /-- TILE_RETIREMENT (R393). At run time, the Delsis controller masks the tile in its groups, aborts residencies, retires it and closes its rectangle. -/
  | tileRetirement (target : RetireTarget)
  /-- POWER_ON (R411). The Delsis controller passes the bring-up stages to ready. -/
  | powerOn (obs : BootInput)
  /-- UNUSED_ENCODING (R87). A context issues a word that is not an instruction (unassigned major, function code beyond the list, nonzero reserved field, out-of-set field, RC major outside context 0) and traps ILLEGAL. -/
  | unusedEncoding (w0 : BitVec 32) (w1 : Option (BitVec 32))
  /-- FETCH_FAULT (R344). The fetch of an instruction word fails its PCC check or reads an uncorrectable word and traps before any instruction is decoded. -/
  | fetchFault (code : Nat) (p : Addr) (w0 : Option (BitVec 32))
  /-- RETRAIN_END (R402). A link-port retrain finishes, returning the link to service or counting a failed retrain short of the third. -/
  | retrainEnd (port : Nat) (ok : Bool)
  /-- LINK_STOPS_ANSWERING (R389). A mesh link stops answering handshakes and the Delsis controller retires it, blowing its retirement bit and raising GCOUNT. -/
  | linkStopsAnswering (link : Nat)
  /-- POWER_LOSS (R389). The module loses power, ending all activity, possibly between blowing a retirement bit and incrementing the grade counter. -/
  | powerLoss (between : Bool)
  deriving DecidableEq, Repr

end Sys2Proof
end

