-- ==== Sys2Proof/WellFormed.lean ====
section
/-!
DEFINITION. Well-formedness: the checks on an instruction's fields that R85 steps 5 and 6 make from the words alone
(reserved fields R71, register sets R66 to R68, class fields R74 to R77, lookahead R80, and each entry's own field
rules), and the index ranges of events.
-/

namespace Sys2Proof

/-- A v register field: values 32 to 63 are outside the set (R66, R68). -/
def vOk (x : BitVec 6) : Bool := decide (x.toNat < 32)

/-- An m register field: values 8 to 63 are outside the set (R66, R68). -/
def mOk (x : BitVec 6) : Bool := decide (x.toNat < 8)

/-- A port number field: values 32 to 63 are outside the set (R67, R87). -/
def portOk (x : BitVec 6) : Bool := decide (x.toNat < 32)

/-- SHI: imm[7:6] selects the shift and imm[11:8] is zero (R136). -/
def shSel (f : KI) (sel : Nat) : Bool := f.imm.toNat / 64 == sel

/-- Element width in bits of an etype or format code (R75, R155); the untyped code 0 counts as 32. -/
def etypeWidth (e : BitVec 4) : Nat :=
  match e.toNat with
  | 1 => 8 | 2 => 8 | 3 => 16 | 4 => 16 | 8 => 16 | 9 => 16 | 10 => 8 | 11 => 8 | 14 => 64 | 15 => 64 | _ => 32

/-- The signed integer etypes (R75). -/
def isSint (e : BitVec 4) : Bool := e == 1 || e == 3 || e == 5 || e == 14

/-- The unsigned integer etypes (R75). -/
def isZint (e : BitVec 4) : Bool := e == 2 || e == 4 || e == 6 || e == 15

/-- The set INT of R157. -/
def isInt (e : BitVec 4) : Bool := isSint e || isZint e

/-- The set FLT of R157. -/
def isFlt (e : BitVec 4) : Bool := e == 7 || e == 8 || e == 9

/-- The set ELEM of R157. -/
def isElem (e : BitVec 4) : Bool := isInt e || isFlt e || e == 10 || e == 11

def sintT (f : VW) : Bool := isSint f.etype
def zintT (f : VW) : Bool := isZint f.etype
def intT (f : VW) : Bool := isInt f.etype
def fltT (f : VW) : Bool := isFlt f.etype
def elemT (f : VW) : Bool := isElem f.etype

/-- 32- or 64-bit ELEM types, for VLDX and VSTX (R173). -/
def wideT (f : VW) : Bool := isElem f.etype && (etypeWidth f.etype == 32 || etypeWidth f.etype == 64)

def vda (f : VW) : Bool := vOk f.d && vOk f.a
def vdab (f : VW) : Bool := vOk f.d && vOk f.a && vOk f.b

/-- rm 0 to 5; 6 and 7 are outside the set (R74). -/
def rmOk (f : VW) : Bool := decide (f.rm.toNat < 6)

/-- SRC of the conversions, imm12[3:0] (R166). -/
def VW.src (f : VW) : BitVec 4 := f.imm.extractLsb' 0 4

/-- The part P of a conversion, imm12[6:4] (R166). -/
def VW.part (f : VW) : Nat := (f.imm.extractLsb' 4 3).toNat

/-- The width ratio of a conversion (R166). -/
def cvtRatio (ws wd : Nat) : Nat := max ws wd / min ws wd

/-- Both types in ELEM and the part below the width ratio (R166). -/
def cvtOk (f : VW) : Bool :=
  isElem f.src && isElem f.etype && decide (f.part < cvtRatio (etypeWidth f.src) (etypeWidth f.etype))

/-- VPACK: D of 8 to 32 bits, SRC an integer type of twice the width (R168). -/
def packOk (f : VW) : Bool :=
  isInt f.etype && decide (etypeWidth f.etype ≤ 32) && isInt f.src && etypeWidth f.src == 2 * etypeWidth f.etype

/-- VUNPACK: D of 16 to 64 bits, SRC an integer type of half the width (R168). -/
def unpackOk (f : VW) : Bool :=
  isInt f.etype && decide (16 ≤ etypeWidth f.etype) && isInt f.src && 2 * etypeWidth f.src == etypeWidth f.etype

/-- VMXQ: D .mxf8 or .mxf4, SRC in FLT, B 0 for .mxf8, b reserved for a 16-bit SRC (R169). -/
def mxqOk (f : VW) : Bool :=
  (f.etype == 13 || f.etype == 12) && isFlt f.src && (f.etype == 12 || !f.imm.getLsbD 5) && !f.imm.getLsbD 4
    && decide (f.imm.toNat < 64) && (f.src == 7 || f.b == 0)

/-- VMXD: D in FLT, SRC .mxf8 or .mxf4, B 0 for .mxf8, H 0 for a 16-bit D (R170). -/
def mxdOk (f : VW) : Bool :=
  isFlt f.etype && (f.src == 13 || f.src == 12) && (f.src == 12 || !f.imm.getLsbD 5)
    && (f.etype == 7 || !f.imm.getLsbD 4) && decide (f.imm.toNat < 64)

/-- A compare: an m destination, PART below 32 / w and 0 for w = 64, the other fields reserved (R175). -/
def cmpOk (f : VW) : Bool :=
  mOk f.d && vOk f.a && vOk f.b && f.vc == 0 && f.rm == 0 && f.sat == 0
    && decide (f.imm.toNat < max 1 (32 / etypeWidth f.etype))

/-- The element index of VMOVK and VMOVX lies in 0 to N − 1 (R176). -/
def idxOk (f : VW) : Bool := decide (f.imm.toNat < 512 / etypeWidth f.etype)

/-- G class: scope 0 to 4; LA 0 with async; tag reserved unless async or tok (R76, R80). -/
def gOk (f : GW) : Bool :=
  decide (f.scope.toNat < 5) && (f.async == 0 || f.la == 0) && (f.async == 1 || f.tok == 1 || f.tag == 0)

/-- The release formats .f32 and .bf16 (R188). -/
def relFmt (f : EW) : Bool := f.fmt == 7 || f.fmt == 9

/-- K of an MMA (R188). -/
def EW.mmaK (f : EW) : Nat := (f.imm.extractLsb' 0 13).toNat + 1

/-- MMA: a format of R177, a K that the format allows, XB only for FP8, imm15[14] reserved (R177, R188). -/
def mmaOk (f : EW) : Bool :=
  (f.fmt == 9 && !f.imm.getLsbD 13
    || (f.fmt == 10 || f.fmt == 11) && f.mmaK % 2 == 0
    || (f.fmt == 12 || f.fmt == 13) && f.mmaK % 32 == 0 && !f.imm.getLsbD 13) && !f.imm.getLsbD 14

/-- The sample width that an LSLICE or LUNSLICE fmt code gives (R212). -/
def sliceWidth (fmt : BitVec 4) : Nat := if fmt == 0 then 64 else etypeWidth fmt

/-- The static checks of R85 steps 5 and 6 on an instruction's own fields, and the ranges of an event's indices. -/
def Instr.wf (i : Instr) : Bool :=
  match i with
  | .nop f => f.d == 0 && f.a == 0 && f.b == 0
  | .doneI f => f.d == 0 && f.a == 0 && f.b == 0
  | .retireI f => f.d == 0 && f.a == 0 && f.b == 0
  | .trapI f => f.d == 0 && f.a == 0 && f.b == 0
  | .eret f => f.d == 0 && f.b == 0
  | .brk f => f.a == 0 && f.b == 0
  | .fence f => decide (f.d.toNat < 5) && f.a == 0 && f.b == 0
  | .ifence f => f.d == 0 && f.a == 0 && f.b == 0
  | .add _ => true
  | .sub _ => true
  | .mul _ => true
  | .mulh _ => true
  | .mulhu _ => true
  | .div _ => true
  | .divu _ => true
  | .rem _ => true
  | .remu _ => true
  | .andR _ => true
  | .orR _ => true
  | .xorR _ => true
  | .andn _ => true
  | .orn _ => true
  | .shl _ => true
  | .shr _ => true
  | .sra _ => true
  | .ror _ => true
  | .minR _ => true
  | .maxR _ => true
  | .minu _ => true
  | .maxu _ => true
  | .slt _ => true
  | .sltu _ => true
  | .seq _ => true
  | .sne _ => true
  | .clz f => f.b == 0
  | .ctz f => f.b == 0
  | .popc f => f.b == 0
  | .addw _ => true
  | .subw _ => true
  | .mulw _ => true
  | .sext f => decide (f.b.toNat < 3)
  | .zext f => decide (f.b.toNat < 3)
  | .addi _ => true
  | .andi _ => true
  | .ori _ => true
  | .xori _ => true
  | .shli f => shSel f 0
  | .shri f => shSel f 1
  | .srai f => shSel f 2
  | .rori f => shSel f 3
  | .slti _ => true
  | .sltui _ => true
  | .muli _ => true
  | .lih _ => true
  | .li _ => true
  | .beq _ => true
  | .bne _ => true
  | .blt _ => true
  | .bge _ => true
  | .bltu _ => true
  | .bgeu _ => true
  | .jump _ => true
  | .jal _ => true
  | .jalr _ => true
  | .loopI f => f.d == 0 && decide (0 < f.imm.toInt)
  | .repI f => f.stride != 0
  | .ldb _ => true
  | .ldbu _ => true
  | .ldh _ => true
  | .ldhu _ => true
  | .ldw _ => true
  | .ldwu _ => true
  | .ldd _ => true
  | .ldc _ => true
  | .stb _ => true
  | .sth _ => true
  | .stw _ => true
  | .std _ => true
  | .stc _ => true
  | .cinc _ => true
  | .csetb _ => true
  | .csetbx _ => true
  | .candp _ => true
  | .cgeta f => f.b == 0
  | .cgetb f => f.b == 0
  | .cgett f => f.b == 0
  | .cgetp f => f.b == 0
  | .cgetty f => f.b == 0
  | .ctag f => f.b == 0
  | .cclr f => f.b == 0
  | .cseal _ => true
  | .cunseal _ => true
  | .cmov f => f.b == 0
  | .csub _ => true
  | .ceq _ => true
  | .cinci _ => true
  | .csetbi _ => true
  | .put f => portOk f.b && f.d == 0
  | .putr f => portOk f.b && f.d == 0
  | .putl f => portOk f.b && f.d == 0
  | .take f => portOk f.b
  | .takel f => portOk f.b
  | .peek f => portOk f.b && decide (f.a.toNat < 15)
  | .markNull f => portOk f.b && f.d == 1
  | .markRound f => portOk f.b && f.d == 2
  | .markEos f => portOk f.b && f.d == 3
  | .markPoison f => portOk f.b && f.d == 6
  | .putn f => portOk f.b && f.d == 0 && f.a == 0
  | .room f => portOk f.b && f.a == 0
  | .chst f => portOk f.b && f.a == 0
  | .waitany f => f.b == 0
  | .waitall f => f.d == 0 && f.b == 0
  | .ffr f => f.b == 0
  | .tagclr f => f.d == 0 && f.b == 0
  | .tagrd f => f.a == 0 && f.b == 0
  | .barrive f => f.b == 0
  | .barwait f => f.d == 0
  | .bartest _ => true
  | .barleave f => f.d == 0 && f.b == 0
  | .mfs f => f.a == 0
  | .mts f => f.d == 0
  | .startI f => f.d == 0
  | .vadd f => intT f && vdab f && f.vc == 0 && f.rm == 0 && f.imm == 0
  | .vsub f => intT f && vdab f && f.vc == 0 && f.rm == 0 && f.imm == 0
  | .vmul f => intT f && vdab f && f.vc == 0 && f.rm == 0 && f.imm == 0
  | .vmulh f => intT f && vdab f && f.vc == 0 && f.rm == 0 && f.imm == 0 && f.sat == 0
  | .vmin f => sintT f && vdab f && f.vc == 0 && f.rm == 0 && f.imm == 0 && f.sat == 0
  | .vmax f => sintT f && vdab f && f.vc == 0 && f.rm == 0 && f.imm == 0 && f.sat == 0
  | .vminu f => zintT f && vdab f && f.vc == 0 && f.rm == 0 && f.imm == 0 && f.sat == 0
  | .vmaxu f => zintT f && vdab f && f.vc == 0 && f.rm == 0 && f.imm == 0 && f.sat == 0
  | .vand f => intT f && vdab f && f.vc == 0 && f.rm == 0 && f.imm == 0 && f.sat == 0
  | .vor f => intT f && vdab f && f.vc == 0 && f.rm == 0 && f.imm == 0 && f.sat == 0
  | .vxor f => intT f && vdab f && f.vc == 0 && f.rm == 0 && f.imm == 0 && f.sat == 0
  | .vshl f => intT f && vdab f && f.vc == 0 && f.rm == 0 && f.imm == 0 && f.sat == 0
  | .vshr f => intT f && vdab f && f.vc == 0 && f.rm == 0 && f.imm == 0 && f.sat == 0
  | .vsra f => intT f && vdab f && f.vc == 0 && f.rm == 0 && f.imm == 0 && f.sat == 0
  | .vabs f => sintT f && vda f && f.b == 0 && f.vc == 0 && f.rm == 0 && f.imm == 0
  | .vneg f => sintT f && vda f && f.b == 0 && f.vc == 0 && f.rm == 0 && f.imm == 0
  | .vadds f => intT f && vdab f && f.vc == 0 && f.rm == 0 && f.imm == 0 && f.sat == 0
  | .vsubs f => intT f && vdab f && f.vc == 0 && f.rm == 0 && f.imm == 0 && f.sat == 0
  | .vfadd f => fltT f && vdab f && rmOk f && f.vc == 0 && f.imm == 0
  | .vfsub f => fltT f && vdab f && rmOk f && f.vc == 0 && f.imm == 0
  | .vfmul f => fltT f && vdab f && rmOk f && f.vc == 0 && f.imm == 0
  | .vfma f => fltT f && vdab f && rmOk f && f.imm == 0
  | .vfms f => fltT f && vdab f && rmOk f && f.imm == 0
  | .vfnma f => fltT f && vdab f && rmOk f && f.imm == 0
  | .vfmin f => fltT f && vdab f && f.vc == 0 && f.rm == 0 && f.sat == 0 && f.imm == 0
  | .vfmax f => fltT f && vdab f && f.vc == 0 && f.rm == 0 && f.sat == 0 && f.imm == 0
  | .vfabs f => fltT f && vda f && f.b == 0 && f.vc == 0 && f.rm == 0 && f.sat == 0 && f.imm == 0
  | .vfneg f => fltT f && vda f && f.b == 0 && f.vc == 0 && f.rm == 0 && f.sat == 0 && f.imm == 0
  | .vfcps f => fltT f && vdab f && f.vc == 0 && f.rm == 0 && f.sat == 0 && f.imm == 0
  | .vrsqrte f => fltT f && vda f && f.b == 0 && f.vc == 0 && f.rm == 0 && f.sat == 0 && f.imm == 0
  | .vrcpe f => fltT f && vda f && f.b == 0 && f.vc == 0 && f.rm == 0 && f.sat == 0 && f.imm == 0
  | .vexp2e f => fltT f && vda f && f.b == 0 && f.vc == 0 && f.rm == 0 && f.sat == 0 && f.imm == 0
  | .vlog2e f => fltT f && vda f && f.b == 0 && f.vc == 0 && f.rm == 0 && f.sat == 0 && f.imm == 0
  | .vcvt f => cvtOk f && vda f && rmOk f && decide (f.imm.toNat < 128) && f.b == 0 && f.vc == 0
  | .vcvto f => cvtOk f && vda f && rmOk f && decide (f.imm.toNat < 256) && (f.imm.getLsbD 7 || f.vc == 0) && f.sat == 0
  | .vpack f => packOk f && vdab f && decide (f.imm.toNat < 16) && f.vc == 0 && f.rm == 0
  | .vunpack f => unpackOk f && vda f && decide (f.imm.toNat < 32) && f.b == 0 && f.vc == 0 && f.rm == 0 && f.sat == 0
  | .vmxq f => mxqOk f && vdab f && rmOk f && f.mask == 0 && f.sat == 0 && f.vc == 0
  | .vmxd f => mxdOk f && vda f && rmOk f && f.b == 0 && f.vc == 0
  | .vredadd f => intT f && vda f && f.b == 0 && f.vc == 0 && f.rm == 0 && f.imm == 0
  | .vredmax f => (intT f || fltT f) && vda f && f.b == 0 && f.vc == 0 && f.rm == 0 && f.imm == 0 && f.sat == 0
  | .vredmin f => (intT f || fltT f) && vda f && f.b == 0 && f.vc == 0 && f.rm == 0 && f.imm == 0 && f.sat == 0
  | .vfredadd f => fltT f && vda f && rmOk f && f.b == 0 && f.vc == 0 && f.imm == 0
  | .vbcst f => elemT f && vOk f.d && f.b == 0 && f.vc == 0 && f.rm == 0 && f.imm == 0 && f.sat == 0
  | .vshuf f => elemT f && vdab f && f.rm == 0 && f.imm == 0 && f.sat == 0
  | .vslide f => elemT f && vda f && f.b == 0 && f.rm == 0 && f.sat == 0
  | .viota f => intT f && vOk f.d && f.a == 0 && f.b == 0 && f.vc == 0 && f.rm == 0 && f.sat == 0
  | .vld f => vOk f.d && f.etype == 0 && f.b == 0 && f.vc == 0 && f.rm == 0 && f.sat == 0
  | .vst f => vOk f.d && f.etype == 0 && f.b == 0 && f.vc == 0 && f.rm == 0 && f.sat == 0 && f.la == 0
  | .vlds f => elemT f && vOk f.d && f.vc == 0 && f.rm == 0 && f.sat == 0
  | .vsts f => elemT f && vOk f.d && f.vc == 0 && f.rm == 0 && f.sat == 0 && f.la == 0
  | .vldx f => wideT f && vOk f.d && vOk f.b && f.vc == 0 && f.rm == 0 && f.sat == 0
  | .vstx f => wideT f && vOk f.d && vOk f.b && f.vc == 0 && f.rm == 0 && f.sat == 0 && f.la == 0
  | .vldb f => elemT f && vOk f.d && f.b == 0 && f.vc == 0 && f.rm == 0 && f.sat == 0
  | .vcmpeq f => intT f && cmpOk f
  | .vcmpne f => intT f && cmpOk f
  | .vcmplt f => intT f && cmpOk f
  | .vcmple f => intT f && cmpOk f
  | .vfcmpeq f => fltT f && cmpOk f
  | .vfcmplt f => fltT f && cmpOk f
  | .vfcmple f => fltT f && cmpOk f
  | .vfclass f => fltT f && vda f && f.b == 0 && f.vc == 0 && f.rm == 0 && f.sat == 0 && f.imm == 0
  | .mand f => mOk f.d && mOk f.a && mOk f.b && f.etype == 0 && f.vc == 0 && f.rm == 0 && f.sat == 0 && f.mask == 0 && f.imm == 0
  | .mor f => mOk f.d && mOk f.a && mOk f.b && f.etype == 0 && f.vc == 0 && f.rm == 0 && f.sat == 0 && f.mask == 0 && f.imm == 0
  | .mxor f => mOk f.d && mOk f.a && mOk f.b && f.etype == 0 && f.vc == 0 && f.rm == 0 && f.sat == 0 && f.mask == 0 && f.imm == 0
  | .mnot f => mOk f.d && mOk f.a && f.b == 0 && f.etype == 0 && f.vc == 0 && f.rm == 0 && f.sat == 0 && f.mask == 0 && f.imm == 0
  | .mpopc f => mOk f.a && f.b == 0 && f.etype == 0 && f.vc == 0 && f.rm == 0 && f.sat == 0 && f.mask == 0 && f.imm == 0
  | .vsel f => (elemT f || f.etype == 0) && vdab f && f.vc == 0 && f.rm == 0 && f.sat == 0 && f.imm == 0
  | .vmovk f => elemT f && vOk f.d && idxOk f && f.b == 0 && f.vc == 0 && f.rm == 0 && f.sat == 0 && f.mask == 0
  | .vmovx f => elemT f && vOk f.a && idxOk f && f.b == 0 && f.vc == 0 && f.rm == 0 && f.sat == 0 && f.mask == 0
  | .gld f => (f.order == 0 || f.order == 1) && gOk f && f.b == 0
  | .gst f => (f.order == 0 || f.order == 2) && gOk f && f.b == 0 && f.la == 0
  | .glda f => (f.order == 1 || f.order == 3) && gOk f && f.b == 0
  | .gstr f => (f.order == 2 || f.order == 3) && gOk f && f.b == 0 && f.la == 0
  | .gaadd f => (f.size == 2 || f.size == 3) && gOk f
  | .gamin f => (f.size == 2 || f.size == 3) && gOk f
  | .gamax f => (f.size == 2 || f.size == 3) && gOk f
  | .gaand f => (f.size == 2 || f.size == 3) && gOk f
  | .gaor f => (f.size == 2 || f.size == 3) && gOk f
  | .gaxor f => (f.size == 2 || f.size == 3) && gOk f
  | .gaswp f => (f.size == 2 || f.size == 3) && gOk f
  | .gacas f => (f.size == 2 || f.size == 3) && gOk f
  | .gafadd f => f.size == 2 && gOk f
  | .gldv f => (f.order == 1 || f.order == 3) && gOk f
  | .gstv f => gOk f && f.la == 0
  | .gvq f => (f.order == 0 || f.order == 1) && f.size == 3 && gOk f && f.b == 0
  | .mma f => mmaOk f && decide (f.c.toNat < 4) && f.d == 0
  | .minit f => relFmt f && decide (f.c.toNat < 4) && decide (f.imm.toNat < 2048) && f.d == 0 && f.b == 0
  | .minitPort f => relFmt f && decide (f.c.toNat < 4) && f.imm.getLsbD 11 && decide (f.imm.toNat < 4096) && portOk f.b && f.d == 0 && f.a == 0
  | .mrel f => relFmt f && decide (f.c.toNat < 4) && decide (f.imm.toNat < 2) && f.d == 0 && f.b == 0
  | .mzero f => decide (f.c.toNat < 4) && f.d == 0 && f.a == 0 && f.b == 0 && f.fmt == 0 && f.imm == 0
  | .mshape f => decide (f.c.toNat < 4) && decide (f.imm.toNat < 3) && f.d == 0 && f.a == 0 && f.b == 0 && f.fmt == 0
  | .mrd f => decide (f.c.toNat < 4) && decide (f.imm.toNat < 2) && f.d == 0 && f.b == 0 && f.fmt == 0
  | .dcopy f => f.c == 0 && f.fmt == 0
  | .dscfg f => decide (f.c.toNat < 8) && f.d == 0 && f.fmt == 0 && f.imm == 0
  | .dsgo f => decide (f.c.toNat < 8) && f.d == 0 && f.a == 0 && f.b == 0 && f.fmt == 0 && f.imm == 0
  | .dsstop f => decide (f.c.toNat < 8) && f.d == 0 && f.a == 0 && f.b == 0 && f.fmt == 0 && f.imm == 0
  | .dbank f => portOk f.c && decide (f.imm.toNat < 16) && f.d == 0 && f.a == 0 && f.b == 0 && f.fmt == 0
  | .ltab f => decide (f.imm.toNat < 1024) && f.d == 0 && f.c == 0 && f.fmt == 0
  | .ltabStream f => f.imm.getLsbD 10 && decide (f.imm.toNat < 2048) && decide (f.c.toNat < 8) && f.d == 0 && f.a == 0 && f.fmt == 0
  | .lwire f => decide (f.c.toNat < 4) && decide (f.imm.toNat < 512) && f.d == 0 && f.b == 0 && f.fmt == 0
  | .lsel f => decide (f.c.toNat < 4) && f.d == 0 && f.a == 0 && f.b == 0 && f.fmt == 0 && f.imm == 0
  | .leval f => f.d == 0 && f.a == 0 && f.b == 0 && f.c == 0 && f.fmt == 0 && f.imm == 0
  | .lslice f => decide (f.fmt.toNat < 12) && decide (2 ≤ f.imm.toNat) && decide (f.imm.toNat + sliceWidth f.fmt ≤ 2048) && f.d == 0 && f.b == 0 && f.c == 0
  | .lunslice f => decide (f.fmt.toNat < 12) && decide (f.imm.toNat + sliceWidth f.fmt ≤ 2048) && f.d == 0 && f.b == 0 && f.c == 0
  | .lpld f => decide (2 ≤ f.imm.toNat) && decide (f.imm.toNat < 2048) && f.d == 0 && f.c == 0 && f.fmt == 0
  | .lpst f => decide (f.imm.toNat < 2048) && f.d == 0 && f.c == 0 && f.fmt == 0
  | .lpcnt f => decide (f.imm.toNat < 2048) && f.fmt == 4 && f.d == 0 && f.c == 0
  | .sweep f => f.d == 0 && f.c == 0 && f.fmt == 0 && f.imm == 0
  | .swq f => f.c == 0 && f.fmt == 0 && f.imm == 0 && f.tag == 0 && f.tok == 0
  | .swabt f => f.d == 0 && f.b == 0 && f.c == 0 && f.fmt == 0 && f.imm == 0
  | .osend f => portOk f.c && decide (f.imm.toNat < 2) && f.b == 0 && f.fmt == 0
  | .owm f => portOk f.c && decide (f.imm.toNat < 5) && f.a == 0 && f.b == 0 && f.fmt == 0 && f.tag == 0 && f.tok == 0
  | .cslot f => decide (f.c.toNat < 4) && decide (f.imm.toNat < 2) && f.d == 0 && f.a == 0 && f.b == 0 && f.fmt == 0
  | .rload f => decide (f.c.toNat < 4) && f.d == 0 && f.fmt == 0 && f.imm == 0
  | .rquery f => decide (f.c.toNat < 4) && decide (f.imm.toNat < 3) && f.a == 0 && f.b == 0 && f.fmt == 0 && f.tag == 0 && f.tok == 0
  | .dispatch tile helper => decide (tile < 12096) && decide (1 ≤ helper) && decide (helper < 11)
  | .firingEnd tile actor => decide (tile < 12096) && decide (actor < 8)
  | .nullPassFiring tile actor => decide (tile < 12096) && decide (actor < 8)
  | .actorEnd tile _ => decide (tile < 12096)
  | .lengthMismatch tile _ => decide (tile < 12096)
  | .roundPass tile _ => decide (tile < 12096)
  | .roundMismatch tile _ => decide (tile < 12096)
  | .tokenArrival _ _ _ => true
  | .creditReturn _ _ => true
  | .forkForward _ => true
  | .steerOp tile slot => decide (tile < 12096) && decide (slot < 8)
  | .mergeOp tile slot => decide (tile < 12096) && decide (slot < 8)
  | .carryOp tile slot => decide (tile < 12096) && decide (slot < 8)
  | .configSlotSwitch tile => decide (tile < 12096)
  | .bankTransfer tile port => decide (tile < 12096) && decide (port < 32)
  | .laneGroupBind tile group => decide (tile < 12096) && decide (group < 4)
  | .vectorComplete tile ctx => decide (tile < 12096) && decide (ctx < 11)
  | .windowClose tile ctx win => decide (tile < 12096) && decide (ctx < 11) && decide (win < 4)
  | .memoryRequest tile _ => decide (tile < 12096)
  | .globalReply tile _ => decide (tile < 12096)
  | .storeAck tile _ => decide (tile < 12096)
  | .retryReply tile _ => decide (tile < 12096)
  | .translationWalk tile _ _ => decide (tile < 12096)
  | .pagerMap handle _ _ => decide (handle < 256)
  | .pageDenied handle _ => decide (handle < 256)
  | .tlbInvalidate handle _ level => decide (handle < 256) && decide (level < 4)
  | .mxCommandComplete tile ctx => decide (tile < 12096) && decide (ctx < 11)
  | .releaseTokenSend tile acc => decide (tile < 12096) && decide (acc < 4)
  | .lcCommandComplete tile ctx => decide (tile < 12096) && decide (ctx < 11)
  | .dcopyComplete tile ctx => decide (tile < 12096) && decide (ctx < 11)
  | .remoteLineWrite _ => true
  | .dcopyRefusal tile ctx => decide (tile < 12096) && decide (ctx < 11)
  | .streamTokenPut tile stream => decide (tile < 12096) && decide (stream < 8)
  | .streamTokenTake tile stream => decide (tile < 12096) && decide (stream < 8)
  | .barrierRelease group => decide (group < 256)
  | .sweepLaunch _ => true
  | .sweepLaunchToken _ tile => decide (tile < 12096)
  | .retireNotice _ _ => true
  | .sweepEnd _ => true
  | .sweepPartition _ => true
  | .sweepAbortConfirm _ => true
  | .syncWaveEmit => true
  | .syncWave tile => decide (tile < 12096)
  | .unsynchronised tile => decide (tile < 12096)
  | .orderedMessageArrival _ _ => true
  | .beacon _ _ _ => true
  | .idleBeacon tile => decide (tile < 12096)
  | .beaconForward _ => true
  | .owmStall _ _ => true
  | .watchdog handle => decide (handle < 256)
  | .rebalanceSample tile => decide (tile < 12096)
  | .migration tile actor target => decide (tile < 12096) && decide (actor < 8) && decide (target < 12096)
  | .forwardingEntryRemoval tile => decide (tile < 12096)
  | .trapTaken tile ctx => decide (tile < 12096) && decide (ctx < 11)
  | .brkRelease tile => decide (tile < 12096)
  | .preemptToken tile => decide (tile < 12096)
  | .preemptRequest tile => decide (tile < 12096)
  | .preemptResume tile => decide (tile < 12096)
  | .haltedSet tile => decide (tile < 12096)
  | .wdogWrite tile _ => decide (tile < 12096)
  | .snapCmd handle => decide (handle < 256)
  | .snapArrival _ _ => true
  | .snapshotTileComplete handle tile => decide (handle < 256) && decide (tile < 12096)
  | .restoreCmd handle => decide (handle < 256)
  | .goCmd handle => decide (handle < 256)
  | .abortCmd handle => decide (handle < 256)
  | .commitParams handle => decide (handle < 256)
  | .residencyDispatch handle => decide (handle < 256)
  | .imageStaging handle => decide (handle < 256)
  | .arming handle => decide (handle < 256)
  | .residencyStart handle => decide (handle < 256)
  | .residencyEnd handle => decide (handle < 256)
  | .residencyAbort handle => decide (handle < 256)
  | .replayRearm handle => decide (handle < 256)
  | .faultToken handle => decide (handle < 256)
  | .faultPortEos handle => decide (handle < 256)
  | .inletData n _ => decide (n < 64)
  | .inletEos n _ => decide (n < 64)
  | .inletRound n => decide (n < 64)
  | .inletNull n => decide (n < 64)
  | .inletLine n _ _ => decide (n < 64)
  | .takenWrite n _ => decide (n < 64)
  | .bar4Access port _ _ _ _ => decide (port < 2)
  | .hostPortLinkFail port => decide (port < 2)
  | .attestationReport _ => true
  | .keySlotFill slot _ _ => decide (slot < 16)
  | .recoveryImageLoad _ => true
  | .hostRetire _ => true
  | .fabricEnable port _ => decide (port < 36)
  | .registerWrite o _ => decide (o < 2 ^ 28)
  | .fabricElementFire port elem => decide (port < 36) && decide (elem < 64)
  | .flitReceive port _ => decide (port < 36)
  | .ackFlit port _ => decide (port < 36)
  | .nakFlit port _ => decide (port < 36)
  | .retrain port => decide (port < 36)
  | .linkDead port => decide (port < 36)
  | .timingFlitSend => true
  | .timingFlit port _ => decide (port < 36)
  | .coxEpoch => true
  | .droopStop phys => decide (phys < 13104)
  | .droopRecovery phys => decide (phys < 13104)
  | .tileRetirement _ => true
  | .powerOn _ => true
  | .unusedEncoding _ _ => true
  | .fetchFault _ _ _ => true
  | .retrainEnd port _ => decide (port < 36)
  | .linkStopsAnswering _ => true
  | .powerLoss _ => true

/-- A well-formed instruction (R85 step 6). -/
abbrev Instr.WellFormed (i : Instr) : Prop := i.wf = true

end Sys2Proof
end

