-- ==== Sys2Proof/Decode.lean ====
section
/-!
DEFINITION. The decoder, total on any bytes and rejecting by name, and the encoder (03 R64 to R91). A word whose fields
break R85 step 6 is rejected by the well-formedness test of the instruction its opcode names.
-/

namespace Sys2Proof

/-- Why a word is not an instruction (R85 steps 2 to 6, R87). -/
inductive DecodeError where
  /-- Length bits '10' or '11' (R64). -/
  | badLength
  /-- An unassigned major, or a function code beyond the major's list (R87). -/
  | unassigned
  /-- A reserved field that is not zero, or a field value outside its set (R71, R87). -/
  | badField
  /-- Fewer bytes than the instruction needs. -/
  | truncated
  deriving DecidableEq, Repr

def fnOf (w : BitVec 32) : Nat := (w.extractLsb' 26 6).toNat
def bfnOf (w : BitVec 32) : Nat := (w.extractLsb' 8 6).toNat

def k3Of (w : BitVec 32) : K3 := { d := w.extractLsb' 8 6, a := w.extractLsb' 14 6, b := w.extractLsb' 20 6 }
def kiOf (w : BitVec 32) : KI := { d := w.extractLsb' 8 6, a := w.extractLsb' 14 6, imm := w.extractLsb' 20 12 }
def kbOf (w : BitVec 32) : KB := { a := w.extractLsb' 8 6, b := w.extractLsb' 14 6, off := w.extractLsb' 20 12 }
def ksOf (w : BitVec 32) : KS := { value := w.extractLsb' 8 6, base := w.extractLsb' 14 6, imm := w.extractLsb' 20 12 }
def kjOf (w : BitVec 32) : KJ := { off := w.extractLsb' 8 24 }
def kuOf (w : BitVec 32) : KU := { d := w.extractLsb' 8 6, imm := w.extractLsb' 14 18 }
def krOf (w : BitVec 32) : KR :=
  { count1 := w.extractLsb' 8 6, len1 := w.extractLsb' 14 4, stride := w.extractLsb' 18 3 }

/-- LI: imm[43:32] in word 0 bits 31:20, imm[47:44] in bits 11:8, imm[31:0] in word 1 (R73). -/
def liOf (w0 w1 : BitVec 32) : LIW :=
  { d := w0.extractLsb' 14 6, imm := w0.extractLsb' 8 4 ++ w0.extractLsb' 20 12 ++ w1 }

/-- V-class fields (R72, R74). -/
def vwOf (w0 w1 : BitVec 32) : VW :=
  { d := w0.extractLsb' 14 6, a := w0.extractLsb' 20 6, b := w0.extractLsb' 26 6
    imm := w1.extractLsb' 20 12, la := w1.extractLsb' 16 4, sat := w1.extractLsb' 15 1, rm := w1.extractLsb' 12 3
    mask := w1.extractLsb' 9 3, etype := w1.extractLsb' 5 4, vc := w1.extractLsb' 0 5 }

/-- G-class fields (R72, R76). -/
def gwOf (w0 w1 : BitVec 32) : GW :=
  { d := w0.extractLsb' 14 6, a := w0.extractLsb' 20 6, b := w0.extractLsb' 26 6
    off := w1.extractLsb' 19 13, scope := w1.extractLsb' 16 3, order := w1.extractLsb' 14 2, la := w1.extractLsb' 10 4
    tok := w1.extractLsb' 9 1, tag := w1.extractLsb' 3 6, async := w1.extractLsb' 2 1, size := w1.extractLsb' 0 2 }

/-- E-class fields (R72, R77). -/
def ewOf (w0 w1 : BitVec 32) : EW :=
  { d := w0.extractLsb' 14 6, a := w0.extractLsb' 20 6, b := w0.extractLsb' 26 6
    imm := w1.extractLsb' 17 15, fmt := w1.extractLsb' 13 4, tok := w1.extractLsb' 12 1, tag := w1.extractLsb' 6 6
    c := w1.extractLsb' 0 6 }

/-- The function codes of space A major 0x00 (R89). -/
def sysList (fn : Nat) (f : K3) : Option Instr :=
  match fn with
  | 0 => some (.nop f)
  | 1 => some (.doneI f)
  | 2 => some (.retireI f)
  | 3 => some (.trapI f)
  | 4 => some (.eret f)
  | 5 => some (.brk f)
  | 6 => some (.fence f)
  | 7 => some (.ifence f)
  | _ => none

/-- The function codes of space A major 0x01 (R89). -/
def intList (fn : Nat) (f : K3) : Option Instr :=
  match fn with
  | 0 => some (.add f)
  | 1 => some (.sub f)
  | 2 => some (.mul f)
  | 3 => some (.mulh f)
  | 4 => some (.mulhu f)
  | 5 => some (.div f)
  | 6 => some (.divu f)
  | 7 => some (.rem f)
  | 8 => some (.remu f)
  | 9 => some (.andR f)
  | 10 => some (.orR f)
  | 11 => some (.xorR f)
  | 12 => some (.andn f)
  | 13 => some (.orn f)
  | 14 => some (.shl f)
  | 15 => some (.shr f)
  | 16 => some (.sra f)
  | 17 => some (.ror f)
  | 18 => some (.minR f)
  | 19 => some (.maxR f)
  | 20 => some (.minu f)
  | 21 => some (.maxu f)
  | 22 => some (.slt f)
  | 23 => some (.sltu f)
  | 24 => some (.seq f)
  | 25 => some (.sne f)
  | 26 => some (.clz f)
  | 27 => some (.ctz f)
  | 28 => some (.popc f)
  | 29 => some (.addw f)
  | 30 => some (.subw f)
  | 31 => some (.mulw f)
  | 32 => some (.sext f)
  | 33 => some (.zext f)
  | _ => none

/-- The function codes of space A major 0x30 (R89). -/
def capList (fn : Nat) (f : K3) : Option Instr :=
  match fn with
  | 0 => some (.cinc f)
  | 1 => some (.csetb f)
  | 2 => some (.csetbx f)
  | 3 => some (.candp f)
  | 4 => some (.cgeta f)
  | 5 => some (.cgetb f)
  | 6 => some (.cgett f)
  | 7 => some (.cgetp f)
  | 8 => some (.cgetty f)
  | 9 => some (.ctag f)
  | 10 => some (.cclr f)
  | 11 => some (.cseal f)
  | 12 => some (.cunseal f)
  | 13 => some (.cmov f)
  | 14 => some (.csub f)
  | 15 => some (.ceq f)
  | _ => none

/-- The function codes of space A major 0x39 (R89). -/
def tagList (fn : Nat) (f : K3) : Option Instr :=
  match fn with
  | 0 => some (.waitany f)
  | 1 => some (.waitall f)
  | 2 => some (.ffr f)
  | 3 => some (.tagclr f)
  | 4 => some (.tagrd f)
  | _ => none

/-- The function codes of space A major 0x3A (R89). -/
def barList (fn : Nat) (f : K3) : Option Instr :=
  match fn with
  | 0 => some (.barrive f)
  | 1 => some (.barwait f)
  | 2 => some (.bartest f)
  | 3 => some (.barleave f)
  | _ => none

/-- The function codes of space A major 0x3D (R89). -/
def startList (fn : Nat) (f : K3) : Option Instr :=
  match fn with
  | 0 => some (.startI f)
  | _ => none

/-- The function codes of CHAN, space A major 0x38 (R89); MARK is four rows, by the kind code in d (R249). -/
def chanList (fn : Nat) (f : K3) : Option Instr :=
  match fn with
  | 0 => some (.put f)
  | 1 => some (.putr f)
  | 2 => some (.putl f)
  | 3 => some (.take f)
  | 4 => some (.takel f)
  | 5 => some (.peek f)
  | 7 => some (.putn f)
  | 8 => some (.room f)
  | 9 => some (.chst f)
  | 6 =>
    match f.d.toNat with
    | 1 => some (.markNull f)
    | 2 => some (.markRound f)
    | 3 => some (.markEos f)
    | 6 => some (.markPoison f)
    | _ => none
  | _ => none

/-- SHI selects one of four shifts with imm[7:6]; imm[11:8] must be zero (R136). -/
def shiList (f : KI) : Option Instr :=
  match f.imm.toNat / 64 with
  | 0 => some (.shli f)
  | 1 => some (.shri f)
  | 2 => some (.srai f)
  | 3 => some (.rori f)
  | _ => none

/-- Space A (32-bit) by major opcode (R88). -/
def rawA (w : BitVec 32) : Option Instr :=
  match (w.extractLsb' 2 6).toNat with
  | 0x00 => sysList (fnOf w) (k3Of w)
  | 0x01 => intList (fnOf w) (k3Of w)
  | 0x02 => some (.addi (kiOf w))
  | 0x03 => some (.andi (kiOf w))
  | 0x04 => some (.ori (kiOf w))
  | 0x05 => some (.xori (kiOf w))
  | 0x06 => shiList (kiOf w)
  | 0x07 => some (.slti (kiOf w))
  | 0x08 => some (.sltui (kiOf w))
  | 0x09 => some (.muli (kiOf w))
  | 0x0A => some (.lih (kuOf w))
  | 0x10 => some (.beq (kbOf w))
  | 0x11 => some (.bne (kbOf w))
  | 0x12 => some (.blt (kbOf w))
  | 0x13 => some (.bge (kbOf w))
  | 0x14 => some (.bltu (kbOf w))
  | 0x15 => some (.bgeu (kbOf w))
  | 0x16 => some (.jump (kjOf w))
  | 0x17 => some (.jal (kjOf w))
  | 0x18 => some (.jalr (kiOf w))
  | 0x19 => some (.loopI (kiOf w))
  | 0x1A => if (w.extractLsb' 21 11) = 0 then some (.repI (krOf w)) else none
  | 0x20 => some (.ldb (kiOf w))
  | 0x21 => some (.ldbu (kiOf w))
  | 0x22 => some (.ldh (kiOf w))
  | 0x23 => some (.ldhu (kiOf w))
  | 0x24 => some (.ldw (kiOf w))
  | 0x25 => some (.ldwu (kiOf w))
  | 0x26 => some (.ldd (kiOf w))
  | 0x27 => some (.ldc (kiOf w))
  | 0x28 => some (.stb (ksOf w))
  | 0x29 => some (.sth (ksOf w))
  | 0x2A => some (.stw (ksOf w))
  | 0x2B => some (.std (ksOf w))
  | 0x2C => some (.stc (ksOf w))
  | 0x30 => capList (fnOf w) (k3Of w)
  | 0x31 => some (.cinci (kiOf w))
  | 0x32 => some (.csetbi (kiOf w))
  | 0x38 => chanList (fnOf w) (k3Of w)
  | 0x39 => tagList (fnOf w) (k3Of w)
  | 0x3A => barList (fnOf w) (k3Of w)
  | 0x3B => some (.mfs (kiOf w))
  | 0x3C => some (.mts (kiOf w))
  | 0x3D => startList (fnOf w) (k3Of w)
  | _ => none

/-- The function codes of space B major 0x01 (R91). -/
def viList (fn : Nat) (f : VW) : Option Instr :=
  match fn with
  | 0 => some (.vadd f)
  | 1 => some (.vsub f)
  | 2 => some (.vmul f)
  | 3 => some (.vmulh f)
  | 4 => some (.vmin f)
  | 5 => some (.vmax f)
  | 6 => some (.vminu f)
  | 7 => some (.vmaxu f)
  | 8 => some (.vand f)
  | 9 => some (.vor f)
  | 10 => some (.vxor f)
  | 11 => some (.vshl f)
  | 12 => some (.vshr f)
  | 13 => some (.vsra f)
  | 14 => some (.vabs f)
  | 15 => some (.vneg f)
  | 16 => some (.vadds f)
  | 17 => some (.vsubs f)
  | _ => none

/-- The function codes of space B major 0x02 (R91). -/
def vfList (fn : Nat) (f : VW) : Option Instr :=
  match fn with
  | 0 => some (.vfadd f)
  | 1 => some (.vfsub f)
  | 2 => some (.vfmul f)
  | 3 => some (.vfma f)
  | 4 => some (.vfms f)
  | 5 => some (.vfnma f)
  | 6 => some (.vfmin f)
  | 7 => some (.vfmax f)
  | 8 => some (.vfabs f)
  | 9 => some (.vfneg f)
  | 10 => some (.vfcps f)
  | _ => none

/-- The function codes of space B major 0x03 (R91). -/
def vsfList (fn : Nat) (f : VW) : Option Instr :=
  match fn with
  | 0 => some (.vrsqrte f)
  | 1 => some (.vrcpe f)
  | 2 => some (.vexp2e f)
  | 3 => some (.vlog2e f)
  | _ => none

/-- The function codes of space B major 0x04 (R91). -/
def vcvList (fn : Nat) (f : VW) : Option Instr :=
  match fn with
  | 0 => some (.vcvt f)
  | 1 => some (.vcvto f)
  | 2 => some (.vpack f)
  | 3 => some (.vunpack f)
  | 4 => some (.vmxq f)
  | 5 => some (.vmxd f)
  | _ => none

/-- The function codes of space B major 0x05 (R91). -/
def vrList (fn : Nat) (f : VW) : Option Instr :=
  match fn with
  | 0 => some (.vredadd f)
  | 1 => some (.vredmax f)
  | 2 => some (.vredmin f)
  | 3 => some (.vfredadd f)
  | 4 => some (.vbcst f)
  | 5 => some (.vshuf f)
  | 6 => some (.vslide f)
  | 7 => some (.viota f)
  | _ => none

/-- The function codes of space B major 0x06 (R91). -/
def vmList (fn : Nat) (f : VW) : Option Instr :=
  match fn with
  | 0 => some (.vld f)
  | 1 => some (.vst f)
  | 2 => some (.vlds f)
  | 3 => some (.vsts f)
  | 4 => some (.vldx f)
  | 5 => some (.vstx f)
  | 6 => some (.vldb f)
  | _ => none

/-- The function codes of space B major 0x07 (R91). -/
def vcList (fn : Nat) (f : VW) : Option Instr :=
  match fn with
  | 0 => some (.vcmpeq f)
  | 1 => some (.vcmpne f)
  | 2 => some (.vcmplt f)
  | 3 => some (.vcmple f)
  | 4 => some (.vfcmpeq f)
  | 5 => some (.vfcmplt f)
  | 6 => some (.vfcmple f)
  | 7 => some (.vfclass f)
  | 8 => some (.mand f)
  | 9 => some (.mor f)
  | 10 => some (.mxor f)
  | 11 => some (.mnot f)
  | 12 => some (.mpopc f)
  | 13 => some (.vsel f)
  | 14 => some (.vmovk f)
  | 15 => some (.vmovx f)
  | _ => none

/-- The function codes of space B major 0x10 (R91). -/
def gmList (fn : Nat) (f : GW) : Option Instr :=
  match fn with
  | 0 => some (.gld f)
  | 1 => some (.gst f)
  | 2 => some (.glda f)
  | 3 => some (.gstr f)
  | _ => none

/-- The function codes of space B major 0x11 (R91). -/
def gaList (fn : Nat) (f : GW) : Option Instr :=
  match fn with
  | 0 => some (.gaadd f)
  | 1 => some (.gamin f)
  | 2 => some (.gamax f)
  | 3 => some (.gaand f)
  | 4 => some (.gaor f)
  | 5 => some (.gaxor f)
  | 6 => some (.gaswp f)
  | 7 => some (.gacas f)
  | 8 => some (.gafadd f)
  | _ => none

/-- The function codes of space B major 0x12 (R91). -/
def gvList (fn : Nat) (f : GW) : Option Instr :=
  match fn with
  | 0 => some (.gldv f)
  | 1 => some (.gstv f)
  | 2 => some (.gvq f)
  | _ => none

/-- The function codes of space B major 0x18 (R91). -/
def mxList (fn : Nat) (f : EW) : Option Instr :=
  match fn with
  | 0 => some (.mma f)
  | 1 => some (if f.imm.getLsbD 11 then .minitPort f else .minit f)
  | 2 => some (.mrel f)
  | 3 => some (.mzero f)
  | 4 => some (.mshape f)
  | 5 => some (.mrd f)
  | _ => none

/-- The function codes of space B major 0x19 (R91). -/
def dmList (fn : Nat) (f : EW) : Option Instr :=
  match fn with
  | 0 => some (.dcopy f)
  | 1 => some (.dscfg f)
  | 2 => some (.dsgo f)
  | 3 => some (.dsstop f)
  | 4 => some (.dbank f)
  | _ => none

/-- The function codes of space B major 0x1A (R91). -/
def lcList (fn : Nat) (f : EW) : Option Instr :=
  match fn with
  | 0 => some (if f.imm.getLsbD 10 then .ltabStream f else .ltab f)
  | 1 => some (.lwire f)
  | 2 => some (.lsel f)
  | 3 => some (.leval f)
  | 4 => some (.lslice f)
  | 5 => some (.lunslice f)
  | 6 => some (.lpld f)
  | 7 => some (.lpst f)
  | 8 => some (.lpcnt f)
  | _ => none

/-- The function codes of space B major 0x20 (R91). -/
def swList (fn : Nat) (f : EW) : Option Instr :=
  match fn with
  | 0 => some (.sweep f)
  | 1 => some (.swq f)
  | 2 => some (.swabt f)
  | _ => none

/-- The function codes of space B major 0x21 (R91). -/
def ocList (fn : Nat) (f : EW) : Option Instr :=
  match fn with
  | 0 => some (.osend f)
  | 1 => some (.owm f)
  | _ => none

/-- The function codes of space B major 0x22 (R91). -/
def rcList (fn : Nat) (f : EW) : Option Instr :=
  match fn with
  | 0 => some (.cslot f)
  | 1 => some (.rload f)
  | 2 => some (.rquery f)
  | _ => none

/-- Space B (64-bit) by major opcode (R90). -/
def rawB (w0 w1 : BitVec 32) : Option Instr :=
  match (w0.extractLsb' 2 6).toNat with
  | 0x00 => if (w0.extractLsb' 12 2) = 0 then some (.li (liOf w0 w1)) else none
  | 0x01 => viList (bfnOf w0) (vwOf w0 w1)
  | 0x02 => vfList (bfnOf w0) (vwOf w0 w1)
  | 0x03 => vsfList (bfnOf w0) (vwOf w0 w1)
  | 0x04 => vcvList (bfnOf w0) (vwOf w0 w1)
  | 0x05 => vrList (bfnOf w0) (vwOf w0 w1)
  | 0x06 => vmList (bfnOf w0) (vwOf w0 w1)
  | 0x07 => vcList (bfnOf w0) (vwOf w0 w1)
  | 0x10 => gmList (bfnOf w0) (gwOf w0 w1)
  | 0x11 => gaList (bfnOf w0) (gwOf w0 w1)
  | 0x12 => gvList (bfnOf w0) (gwOf w0 w1)
  | 0x18 => mxList (bfnOf w0) (ewOf w0 w1)
  | 0x19 => dmList (bfnOf w0) (ewOf w0 w1)
  | 0x1A => lcList (bfnOf w0) (ewOf w0 w1)
  | 0x20 => swList (bfnOf w0) (ewOf w0 w1)
  | 0x21 => ocList (bfnOf w0) (ewOf w0 w1)
  | 0x22 => rcList (bfnOf w0) (ewOf w0 w1)
  | _ => none

/-- A candidate is the instruction when its fields pass R85 step 6. -/
def checked (o : Option Instr) : Except DecodeError Instr :=
  match o with
  | none => .error .unassigned
  | some i => if i.wf then .ok i else .error .badField

/-- Whether the first word opens a 64-bit instruction; `none` for length bits '10' and '11' (R64). -/
def isLong (w0 : BitVec 32) : Option Bool :=
  match (w0.extractLsb' 0 2).toNat with
  | 0 => some false
  | 1 => some true
  | _ => none

/-- Decoding of a 32-bit word of space A (R85 steps 4 to 6). -/
def decodeA (w : BitVec 32) : Except DecodeError Instr := checked (rawA w)

/-- Decoding of the two words of a space B instruction (R85 steps 4 to 6). -/
def decodeB (w0 w1 : BitVec 32) : Except DecodeError Instr := checked (rawB w0 w1)

/-- Decoding of the words of an instruction (R64, R85): the first word gives the length, and a 64-bit instruction takes
its second word from the next one. -/
def decodeWords (ws : List (BitVec 32)) : Except DecodeError Instr :=
  match ws with
  | [] => .error .truncated
  | w0 :: rest =>
    match isLong w0, rest with
    | none, _ => .error .badLength
    | some false, _ => decodeA w0
    | some true, w1 :: _ => decodeB w0 w1
    | some true, [] => .error .truncated

/-- A little-endian word from four bytes (R5). -/
def wordOfBytes (b0 b1 b2 b3 : Byte) : BitVec 32 := b3 ++ b2 ++ b1 ++ b0

/-- The bytes of a word in increasing address order (R5). -/
def bytesOfWord (w : BitVec 32) : List Byte :=
  [w.extractLsb' 0 8, w.extractLsb' 8 8, w.extractLsb' 16 8, w.extractLsb' 24 8]

/-- Decoding from bytes in address order: the instruction and the bytes after it. -/
def decodeBytes (bs : List Byte) : Except DecodeError (Instr × List Byte) :=
  match bs with
  | b0 :: b1 :: b2 :: b3 :: rest =>
    let w0 := wordOfBytes b0 b1 b2 b3
    match isLong w0, rest with
    | none, _ => .error .badLength
    | some false, _ => (decodeA w0).map (fun i => (i, rest))
    | some true, c0 :: c1 :: c2 :: c3 :: rest' => (decodeB w0 (wordOfBytes c0 c1 c2 c3)).map (fun i => (i, rest'))
    | some true, _ => .error .truncated
  | _ => .error .truncated

/-- The words of an instruction whose bits are `w`, numbered as spec/opcode_table.json numbers them, with every bit
from `nbits` up zero. -/
def tableWords (nbits w : Nat) : BitVec 32 × BitVec 32 :=
  (BitVec.ofNat 32 (w % 2 ^ nbits), BitVec.ofNat 32 (w % 2 ^ nbits / 2 ^ 32))

/-- The instruction that the decoder reads from the table's bits, laid out as bytes in address order (R5). -/
def decodeTableWord (nbits w : Nat) : Option Instr :=
  match decodeBytes (bytesOfWord (tableWords nbits w).1 ++ bytesOfWord (tableWords nbits w).2) with
  | .ok (i, _) => some i
  | .error _ => none

/-- The K3 word (R69). -/
def packK3 (fn major : BitVec 6) (f : K3) : BitVec 32 := fn ++ f.b ++ f.a ++ f.d ++ major ++ 0#2
/-- The KI word (R69). -/
def packKI (major : BitVec 6) (f : KI) : BitVec 32 := f.imm ++ f.a ++ f.d ++ major ++ 0#2
/-- The KB branch word (R69). -/
def packKB (major : BitVec 6) (f : KB) : BitVec 32 := f.off ++ f.b ++ f.a ++ major ++ 0#2
/-- The KB store word (R69). -/
def packKS (major : BitVec 6) (f : KS) : BitVec 32 := f.imm ++ f.base ++ f.value ++ major ++ 0#2
/-- The KJ word (R69). -/
def packKJ (major : BitVec 6) (f : KJ) : BitVec 32 := f.off ++ major ++ 0#2
/-- The KU word (R69). -/
def packKU (major : BitVec 6) (f : KU) : BitVec 32 := f.imm ++ f.d ++ major ++ 0#2
/-- The KR word (R69). -/
def packKR (f : KR) : BitVec 32 := 0#11 ++ f.stride ++ f.len1 ++ f.count1 ++ 26#6 ++ 0#2
/-- Word 0 of LI (R73). -/
def liWord0 (f : LIW) : BitVec 32 := f.imm.extractLsb' 32 12 ++ f.d ++ 0#2 ++ f.imm.extractLsb' 44 4 ++ 0#6 ++ 1#2
/-- Word 1 of LI (R73). -/
def liWord1 (f : LIW) : BitVec 32 := f.imm.extractLsb' 0 32
/-- Word 0 of every other space B instruction (R72). -/
def bWord0 (major fn d a b : BitVec 6) : BitVec 32 := b ++ a ++ d ++ fn ++ major ++ 1#2
/-- Word 1 of the V class (R74). -/
def vwWord1 (f : VW) : BitVec 32 := f.imm ++ f.la ++ f.sat ++ f.rm ++ f.mask ++ f.etype ++ f.vc
/-- Word 1 of the G class (R76). -/
def gwWord1 (f : GW) : BitVec 32 := f.off ++ f.scope ++ f.order ++ f.la ++ f.tok ++ f.tag ++ f.async ++ f.size
/-- Word 1 of the E class (R77). -/
def ewWord1 (f : EW) : BitVec 32 := f.imm ++ f.fmt ++ f.tok ++ f.tag ++ f.c

/-- The words of an instruction, from the encoding tables of R69 to R77 and R88 to R91; an event has none. -/
def encode (i : Instr) : List (BitVec 32) :=
  match i with
  | .nop f => [packK3 0#6 0#6 f]
  | .doneI f => [packK3 1#6 0#6 f]
  | .retireI f => [packK3 2#6 0#6 f]
  | .trapI f => [packK3 3#6 0#6 f]
  | .eret f => [packK3 4#6 0#6 f]
  | .brk f => [packK3 5#6 0#6 f]
  | .fence f => [packK3 6#6 0#6 f]
  | .ifence f => [packK3 7#6 0#6 f]
  | .add f => [packK3 0#6 1#6 f]
  | .sub f => [packK3 1#6 1#6 f]
  | .mul f => [packK3 2#6 1#6 f]
  | .mulh f => [packK3 3#6 1#6 f]
  | .mulhu f => [packK3 4#6 1#6 f]
  | .div f => [packK3 5#6 1#6 f]
  | .divu f => [packK3 6#6 1#6 f]
  | .rem f => [packK3 7#6 1#6 f]
  | .remu f => [packK3 8#6 1#6 f]
  | .andR f => [packK3 9#6 1#6 f]
  | .orR f => [packK3 10#6 1#6 f]
  | .xorR f => [packK3 11#6 1#6 f]
  | .andn f => [packK3 12#6 1#6 f]
  | .orn f => [packK3 13#6 1#6 f]
  | .shl f => [packK3 14#6 1#6 f]
  | .shr f => [packK3 15#6 1#6 f]
  | .sra f => [packK3 16#6 1#6 f]
  | .ror f => [packK3 17#6 1#6 f]
  | .minR f => [packK3 18#6 1#6 f]
  | .maxR f => [packK3 19#6 1#6 f]
  | .minu f => [packK3 20#6 1#6 f]
  | .maxu f => [packK3 21#6 1#6 f]
  | .slt f => [packK3 22#6 1#6 f]
  | .sltu f => [packK3 23#6 1#6 f]
  | .seq f => [packK3 24#6 1#6 f]
  | .sne f => [packK3 25#6 1#6 f]
  | .clz f => [packK3 26#6 1#6 f]
  | .ctz f => [packK3 27#6 1#6 f]
  | .popc f => [packK3 28#6 1#6 f]
  | .addw f => [packK3 29#6 1#6 f]
  | .subw f => [packK3 30#6 1#6 f]
  | .mulw f => [packK3 31#6 1#6 f]
  | .sext f => [packK3 32#6 1#6 f]
  | .zext f => [packK3 33#6 1#6 f]
  | .addi f => [packKI 2#6 f]
  | .andi f => [packKI 3#6 f]
  | .ori f => [packKI 4#6 f]
  | .xori f => [packKI 5#6 f]
  | .shli f => [packKI 6#6 f]
  | .shri f => [packKI 6#6 f]
  | .srai f => [packKI 6#6 f]
  | .rori f => [packKI 6#6 f]
  | .slti f => [packKI 7#6 f]
  | .sltui f => [packKI 8#6 f]
  | .muli f => [packKI 9#6 f]
  | .lih f => [packKU 10#6 f]
  | .li f => [liWord0 f, liWord1 f]
  | .beq f => [packKB 16#6 f]
  | .bne f => [packKB 17#6 f]
  | .blt f => [packKB 18#6 f]
  | .bge f => [packKB 19#6 f]
  | .bltu f => [packKB 20#6 f]
  | .bgeu f => [packKB 21#6 f]
  | .jump f => [packKJ 22#6 f]
  | .jal f => [packKJ 23#6 f]
  | .jalr f => [packKI 24#6 f]
  | .loopI f => [packKI 25#6 f]
  | .repI f => [packKR f]
  | .ldb f => [packKI 32#6 f]
  | .ldbu f => [packKI 33#6 f]
  | .ldh f => [packKI 34#6 f]
  | .ldhu f => [packKI 35#6 f]
  | .ldw f => [packKI 36#6 f]
  | .ldwu f => [packKI 37#6 f]
  | .ldd f => [packKI 38#6 f]
  | .ldc f => [packKI 39#6 f]
  | .stb f => [packKS 40#6 f]
  | .sth f => [packKS 41#6 f]
  | .stw f => [packKS 42#6 f]
  | .std f => [packKS 43#6 f]
  | .stc f => [packKS 44#6 f]
  | .cinc f => [packK3 0#6 48#6 f]
  | .csetb f => [packK3 1#6 48#6 f]
  | .csetbx f => [packK3 2#6 48#6 f]
  | .candp f => [packK3 3#6 48#6 f]
  | .cgeta f => [packK3 4#6 48#6 f]
  | .cgetb f => [packK3 5#6 48#6 f]
  | .cgett f => [packK3 6#6 48#6 f]
  | .cgetp f => [packK3 7#6 48#6 f]
  | .cgetty f => [packK3 8#6 48#6 f]
  | .ctag f => [packK3 9#6 48#6 f]
  | .cclr f => [packK3 10#6 48#6 f]
  | .cseal f => [packK3 11#6 48#6 f]
  | .cunseal f => [packK3 12#6 48#6 f]
  | .cmov f => [packK3 13#6 48#6 f]
  | .csub f => [packK3 14#6 48#6 f]
  | .ceq f => [packK3 15#6 48#6 f]
  | .cinci f => [packKI 49#6 f]
  | .csetbi f => [packKI 50#6 f]
  | .put f => [packK3 0#6 56#6 f]
  | .putr f => [packK3 1#6 56#6 f]
  | .putl f => [packK3 2#6 56#6 f]
  | .take f => [packK3 3#6 56#6 f]
  | .takel f => [packK3 4#6 56#6 f]
  | .peek f => [packK3 5#6 56#6 f]
  | .markNull f => [packK3 6#6 56#6 f]
  | .markRound f => [packK3 6#6 56#6 f]
  | .markEos f => [packK3 6#6 56#6 f]
  | .markPoison f => [packK3 6#6 56#6 f]
  | .putn f => [packK3 7#6 56#6 f]
  | .room f => [packK3 8#6 56#6 f]
  | .chst f => [packK3 9#6 56#6 f]
  | .waitany f => [packK3 0#6 57#6 f]
  | .waitall f => [packK3 1#6 57#6 f]
  | .ffr f => [packK3 2#6 57#6 f]
  | .tagclr f => [packK3 3#6 57#6 f]
  | .tagrd f => [packK3 4#6 57#6 f]
  | .barrive f => [packK3 0#6 58#6 f]
  | .barwait f => [packK3 1#6 58#6 f]
  | .bartest f => [packK3 2#6 58#6 f]
  | .barleave f => [packK3 3#6 58#6 f]
  | .mfs f => [packKI 59#6 f]
  | .mts f => [packKI 60#6 f]
  | .startI f => [packK3 0#6 61#6 f]
  | .vadd f => [bWord0 1#6 0#6 f.d f.a f.b, vwWord1 f]
  | .vsub f => [bWord0 1#6 1#6 f.d f.a f.b, vwWord1 f]
  | .vmul f => [bWord0 1#6 2#6 f.d f.a f.b, vwWord1 f]
  | .vmulh f => [bWord0 1#6 3#6 f.d f.a f.b, vwWord1 f]
  | .vmin f => [bWord0 1#6 4#6 f.d f.a f.b, vwWord1 f]
  | .vmax f => [bWord0 1#6 5#6 f.d f.a f.b, vwWord1 f]
  | .vminu f => [bWord0 1#6 6#6 f.d f.a f.b, vwWord1 f]
  | .vmaxu f => [bWord0 1#6 7#6 f.d f.a f.b, vwWord1 f]
  | .vand f => [bWord0 1#6 8#6 f.d f.a f.b, vwWord1 f]
  | .vor f => [bWord0 1#6 9#6 f.d f.a f.b, vwWord1 f]
  | .vxor f => [bWord0 1#6 10#6 f.d f.a f.b, vwWord1 f]
  | .vshl f => [bWord0 1#6 11#6 f.d f.a f.b, vwWord1 f]
  | .vshr f => [bWord0 1#6 12#6 f.d f.a f.b, vwWord1 f]
  | .vsra f => [bWord0 1#6 13#6 f.d f.a f.b, vwWord1 f]
  | .vabs f => [bWord0 1#6 14#6 f.d f.a f.b, vwWord1 f]
  | .vneg f => [bWord0 1#6 15#6 f.d f.a f.b, vwWord1 f]
  | .vadds f => [bWord0 1#6 16#6 f.d f.a f.b, vwWord1 f]
  | .vsubs f => [bWord0 1#6 17#6 f.d f.a f.b, vwWord1 f]
  | .vfadd f => [bWord0 2#6 0#6 f.d f.a f.b, vwWord1 f]
  | .vfsub f => [bWord0 2#6 1#6 f.d f.a f.b, vwWord1 f]
  | .vfmul f => [bWord0 2#6 2#6 f.d f.a f.b, vwWord1 f]
  | .vfma f => [bWord0 2#6 3#6 f.d f.a f.b, vwWord1 f]
  | .vfms f => [bWord0 2#6 4#6 f.d f.a f.b, vwWord1 f]
  | .vfnma f => [bWord0 2#6 5#6 f.d f.a f.b, vwWord1 f]
  | .vfmin f => [bWord0 2#6 6#6 f.d f.a f.b, vwWord1 f]
  | .vfmax f => [bWord0 2#6 7#6 f.d f.a f.b, vwWord1 f]
  | .vfabs f => [bWord0 2#6 8#6 f.d f.a f.b, vwWord1 f]
  | .vfneg f => [bWord0 2#6 9#6 f.d f.a f.b, vwWord1 f]
  | .vfcps f => [bWord0 2#6 10#6 f.d f.a f.b, vwWord1 f]
  | .vrsqrte f => [bWord0 3#6 0#6 f.d f.a f.b, vwWord1 f]
  | .vrcpe f => [bWord0 3#6 1#6 f.d f.a f.b, vwWord1 f]
  | .vexp2e f => [bWord0 3#6 2#6 f.d f.a f.b, vwWord1 f]
  | .vlog2e f => [bWord0 3#6 3#6 f.d f.a f.b, vwWord1 f]
  | .vcvt f => [bWord0 4#6 0#6 f.d f.a f.b, vwWord1 f]
  | .vcvto f => [bWord0 4#6 1#6 f.d f.a f.b, vwWord1 f]
  | .vpack f => [bWord0 4#6 2#6 f.d f.a f.b, vwWord1 f]
  | .vunpack f => [bWord0 4#6 3#6 f.d f.a f.b, vwWord1 f]
  | .vmxq f => [bWord0 4#6 4#6 f.d f.a f.b, vwWord1 f]
  | .vmxd f => [bWord0 4#6 5#6 f.d f.a f.b, vwWord1 f]
  | .vredadd f => [bWord0 5#6 0#6 f.d f.a f.b, vwWord1 f]
  | .vredmax f => [bWord0 5#6 1#6 f.d f.a f.b, vwWord1 f]
  | .vredmin f => [bWord0 5#6 2#6 f.d f.a f.b, vwWord1 f]
  | .vfredadd f => [bWord0 5#6 3#6 f.d f.a f.b, vwWord1 f]
  | .vbcst f => [bWord0 5#6 4#6 f.d f.a f.b, vwWord1 f]
  | .vshuf f => [bWord0 5#6 5#6 f.d f.a f.b, vwWord1 f]
  | .vslide f => [bWord0 5#6 6#6 f.d f.a f.b, vwWord1 f]
  | .viota f => [bWord0 5#6 7#6 f.d f.a f.b, vwWord1 f]
  | .vld f => [bWord0 6#6 0#6 f.d f.a f.b, vwWord1 f]
  | .vst f => [bWord0 6#6 1#6 f.d f.a f.b, vwWord1 f]
  | .vlds f => [bWord0 6#6 2#6 f.d f.a f.b, vwWord1 f]
  | .vsts f => [bWord0 6#6 3#6 f.d f.a f.b, vwWord1 f]
  | .vldx f => [bWord0 6#6 4#6 f.d f.a f.b, vwWord1 f]
  | .vstx f => [bWord0 6#6 5#6 f.d f.a f.b, vwWord1 f]
  | .vldb f => [bWord0 6#6 6#6 f.d f.a f.b, vwWord1 f]
  | .vcmpeq f => [bWord0 7#6 0#6 f.d f.a f.b, vwWord1 f]
  | .vcmpne f => [bWord0 7#6 1#6 f.d f.a f.b, vwWord1 f]
  | .vcmplt f => [bWord0 7#6 2#6 f.d f.a f.b, vwWord1 f]
  | .vcmple f => [bWord0 7#6 3#6 f.d f.a f.b, vwWord1 f]
  | .vfcmpeq f => [bWord0 7#6 4#6 f.d f.a f.b, vwWord1 f]
  | .vfcmplt f => [bWord0 7#6 5#6 f.d f.a f.b, vwWord1 f]
  | .vfcmple f => [bWord0 7#6 6#6 f.d f.a f.b, vwWord1 f]
  | .vfclass f => [bWord0 7#6 7#6 f.d f.a f.b, vwWord1 f]
  | .mand f => [bWord0 7#6 8#6 f.d f.a f.b, vwWord1 f]
  | .mor f => [bWord0 7#6 9#6 f.d f.a f.b, vwWord1 f]
  | .mxor f => [bWord0 7#6 10#6 f.d f.a f.b, vwWord1 f]
  | .mnot f => [bWord0 7#6 11#6 f.d f.a f.b, vwWord1 f]
  | .mpopc f => [bWord0 7#6 12#6 f.d f.a f.b, vwWord1 f]
  | .vsel f => [bWord0 7#6 13#6 f.d f.a f.b, vwWord1 f]
  | .vmovk f => [bWord0 7#6 14#6 f.d f.a f.b, vwWord1 f]
  | .vmovx f => [bWord0 7#6 15#6 f.d f.a f.b, vwWord1 f]
  | .gld f => [bWord0 16#6 0#6 f.d f.a f.b, gwWord1 f]
  | .gst f => [bWord0 16#6 1#6 f.d f.a f.b, gwWord1 f]
  | .glda f => [bWord0 16#6 2#6 f.d f.a f.b, gwWord1 f]
  | .gstr f => [bWord0 16#6 3#6 f.d f.a f.b, gwWord1 f]
  | .gaadd f => [bWord0 17#6 0#6 f.d f.a f.b, gwWord1 f]
  | .gamin f => [bWord0 17#6 1#6 f.d f.a f.b, gwWord1 f]
  | .gamax f => [bWord0 17#6 2#6 f.d f.a f.b, gwWord1 f]
  | .gaand f => [bWord0 17#6 3#6 f.d f.a f.b, gwWord1 f]
  | .gaor f => [bWord0 17#6 4#6 f.d f.a f.b, gwWord1 f]
  | .gaxor f => [bWord0 17#6 5#6 f.d f.a f.b, gwWord1 f]
  | .gaswp f => [bWord0 17#6 6#6 f.d f.a f.b, gwWord1 f]
  | .gacas f => [bWord0 17#6 7#6 f.d f.a f.b, gwWord1 f]
  | .gafadd f => [bWord0 17#6 8#6 f.d f.a f.b, gwWord1 f]
  | .gldv f => [bWord0 18#6 0#6 f.d f.a f.b, gwWord1 f]
  | .gstv f => [bWord0 18#6 1#6 f.d f.a f.b, gwWord1 f]
  | .gvq f => [bWord0 18#6 2#6 f.d f.a f.b, gwWord1 f]
  | .mma f => [bWord0 24#6 0#6 f.d f.a f.b, ewWord1 f]
  | .minit f => [bWord0 24#6 1#6 f.d f.a f.b, ewWord1 f]
  | .minitPort f => [bWord0 24#6 1#6 f.d f.a f.b, ewWord1 f]
  | .mrel f => [bWord0 24#6 2#6 f.d f.a f.b, ewWord1 f]
  | .mzero f => [bWord0 24#6 3#6 f.d f.a f.b, ewWord1 f]
  | .mshape f => [bWord0 24#6 4#6 f.d f.a f.b, ewWord1 f]
  | .mrd f => [bWord0 24#6 5#6 f.d f.a f.b, ewWord1 f]
  | .dcopy f => [bWord0 25#6 0#6 f.d f.a f.b, ewWord1 f]
  | .dscfg f => [bWord0 25#6 1#6 f.d f.a f.b, ewWord1 f]
  | .dsgo f => [bWord0 25#6 2#6 f.d f.a f.b, ewWord1 f]
  | .dsstop f => [bWord0 25#6 3#6 f.d f.a f.b, ewWord1 f]
  | .dbank f => [bWord0 25#6 4#6 f.d f.a f.b, ewWord1 f]
  | .ltab f => [bWord0 26#6 0#6 f.d f.a f.b, ewWord1 f]
  | .ltabStream f => [bWord0 26#6 0#6 f.d f.a f.b, ewWord1 f]
  | .lwire f => [bWord0 26#6 1#6 f.d f.a f.b, ewWord1 f]
  | .lsel f => [bWord0 26#6 2#6 f.d f.a f.b, ewWord1 f]
  | .leval f => [bWord0 26#6 3#6 f.d f.a f.b, ewWord1 f]
  | .lslice f => [bWord0 26#6 4#6 f.d f.a f.b, ewWord1 f]
  | .lunslice f => [bWord0 26#6 5#6 f.d f.a f.b, ewWord1 f]
  | .lpld f => [bWord0 26#6 6#6 f.d f.a f.b, ewWord1 f]
  | .lpst f => [bWord0 26#6 7#6 f.d f.a f.b, ewWord1 f]
  | .lpcnt f => [bWord0 26#6 8#6 f.d f.a f.b, ewWord1 f]
  | .sweep f => [bWord0 32#6 0#6 f.d f.a f.b, ewWord1 f]
  | .swq f => [bWord0 32#6 1#6 f.d f.a f.b, ewWord1 f]
  | .swabt f => [bWord0 32#6 2#6 f.d f.a f.b, ewWord1 f]
  | .osend f => [bWord0 33#6 0#6 f.d f.a f.b, ewWord1 f]
  | .owm f => [bWord0 33#6 1#6 f.d f.a f.b, ewWord1 f]
  | .cslot f => [bWord0 34#6 0#6 f.d f.a f.b, ewWord1 f]
  | .rload f => [bWord0 34#6 1#6 f.d f.a f.b, ewWord1 f]
  | .rquery f => [bWord0 34#6 2#6 f.d f.a f.b, ewWord1 f]
  | .dispatch .. => []
  | .firingEnd .. => []
  | .nullPassFiring .. => []
  | .actorEnd .. => []
  | .lengthMismatch .. => []
  | .roundPass .. => []
  | .roundMismatch .. => []
  | .tokenArrival .. => []
  | .creditReturn .. => []
  | .forkForward .. => []
  | .steerOp .. => []
  | .mergeOp .. => []
  | .carryOp .. => []
  | .configSlotSwitch .. => []
  | .bankTransfer .. => []
  | .laneGroupBind .. => []
  | .vectorComplete .. => []
  | .windowClose .. => []
  | .memoryRequest .. => []
  | .globalReply .. => []
  | .storeAck .. => []
  | .retryReply .. => []
  | .translationWalk .. => []
  | .pagerMap .. => []
  | .pageDenied .. => []
  | .tlbInvalidate .. => []
  | .mxCommandComplete .. => []
  | .releaseTokenSend .. => []
  | .lcCommandComplete .. => []
  | .dcopyComplete .. => []
  | .remoteLineWrite .. => []
  | .dcopyRefusal .. => []
  | .streamTokenPut .. => []
  | .streamTokenTake .. => []
  | .barrierRelease .. => []
  | .sweepLaunch .. => []
  | .sweepLaunchToken .. => []
  | .retireNotice .. => []
  | .sweepEnd .. => []
  | .sweepPartition .. => []
  | .sweepAbortConfirm .. => []
  | .syncWaveEmit .. => []
  | .syncWave .. => []
  | .unsynchronised .. => []
  | .orderedMessageArrival .. => []
  | .beacon .. => []
  | .idleBeacon .. => []
  | .beaconForward .. => []
  | .owmStall .. => []
  | .watchdog .. => []
  | .rebalanceSample .. => []
  | .migration .. => []
  | .forwardingEntryRemoval .. => []
  | .trapTaken .. => []
  | .brkRelease .. => []
  | .preemptToken .. => []
  | .preemptRequest .. => []
  | .preemptResume .. => []
  | .haltedSet .. => []
  | .wdogWrite .. => []
  | .snapCmd .. => []
  | .snapArrival .. => []
  | .snapshotTileComplete .. => []
  | .restoreCmd .. => []
  | .goCmd .. => []
  | .abortCmd .. => []
  | .commitParams .. => []
  | .residencyDispatch .. => []
  | .imageStaging .. => []
  | .arming .. => []
  | .residencyStart .. => []
  | .residencyEnd .. => []
  | .residencyAbort .. => []
  | .replayRearm .. => []
  | .faultToken .. => []
  | .faultPortEos .. => []
  | .inletData .. => []
  | .inletEos .. => []
  | .inletRound .. => []
  | .inletNull .. => []
  | .inletLine .. => []
  | .takenWrite .. => []
  | .bar4Access .. => []
  | .hostPortLinkFail .. => []
  | .attestationReport .. => []
  | .keySlotFill .. => []
  | .recoveryImageLoad .. => []
  | .hostRetire .. => []
  | .fabricEnable .. => []
  | .registerWrite .. => []
  | .fabricElementFire .. => []
  | .flitReceive .. => []
  | .ackFlit .. => []
  | .nakFlit .. => []
  | .retrain .. => []
  | .linkDead .. => []
  | .timingFlitSend .. => []
  | .timingFlit .. => []
  | .coxEpoch .. => []
  | .droopStop .. => []
  | .droopRecovery .. => []
  | .tileRetirement .. => []
  | .powerOn .. => []
  | .unusedEncoding .. => []
  | .fetchFault .. => []
  | .retrainEnd .. => []
  | .linkStopsAnswering .. => []
  | .powerLoss .. => []

/-- The bytes of an instruction in address order (R5). -/
def encodeBytes (i : Instr) : List Byte := (encode i).flatMap bytesOfWord

/-- Whether an instruction has words of its own: every row but the events. -/
def Instr.isEncoded (i : Instr) : Bool := (encode i).length != 0

/-- The length of an instruction in bytes: 4 or 8 (R65). -/
def Instr.len (i : Instr) : Nat := 4 * (encode i).length

/-- The vector register that a field holding n decodes to on pass `pass` of a REP: 8 to 31 are offset modulo 32 (R84). -/
def repV (pass stride : Nat) (x : BitVec 6) : BitVec 6 :=
  if decide (8 ≤ x.toNat) && decide (x.toNat < 32) then BitVec.ofNat 6 ((x.toNat + pass * stride) % 32) else x

/-- The instruction as pass `pass` of a REP of stride `stride` decodes it: only the fields that name vector registers are
offset (R84). -/
def Instr.repShift (pass stride : Nat) (i : Instr) : Instr :=
  match i with
  | .vadd f => .vadd { f with d := repV pass stride f.d, a := repV pass stride f.a, b := repV pass stride f.b }
  | .vsub f => .vsub { f with d := repV pass stride f.d, a := repV pass stride f.a, b := repV pass stride f.b }
  | .vmul f => .vmul { f with d := repV pass stride f.d, a := repV pass stride f.a, b := repV pass stride f.b }
  | .vmulh f => .vmulh { f with d := repV pass stride f.d, a := repV pass stride f.a, b := repV pass stride f.b }
  | .vmin f => .vmin { f with d := repV pass stride f.d, a := repV pass stride f.a, b := repV pass stride f.b }
  | .vmax f => .vmax { f with d := repV pass stride f.d, a := repV pass stride f.a, b := repV pass stride f.b }
  | .vminu f => .vminu { f with d := repV pass stride f.d, a := repV pass stride f.a, b := repV pass stride f.b }
  | .vmaxu f => .vmaxu { f with d := repV pass stride f.d, a := repV pass stride f.a, b := repV pass stride f.b }
  | .vand f => .vand { f with d := repV pass stride f.d, a := repV pass stride f.a, b := repV pass stride f.b }
  | .vor f => .vor { f with d := repV pass stride f.d, a := repV pass stride f.a, b := repV pass stride f.b }
  | .vxor f => .vxor { f with d := repV pass stride f.d, a := repV pass stride f.a, b := repV pass stride f.b }
  | .vshl f => .vshl { f with d := repV pass stride f.d, a := repV pass stride f.a, b := repV pass stride f.b }
  | .vshr f => .vshr { f with d := repV pass stride f.d, a := repV pass stride f.a, b := repV pass stride f.b }
  | .vsra f => .vsra { f with d := repV pass stride f.d, a := repV pass stride f.a, b := repV pass stride f.b }
  | .vabs f => .vabs { f with d := repV pass stride f.d, a := repV pass stride f.a }
  | .vneg f => .vneg { f with d := repV pass stride f.d, a := repV pass stride f.a }
  | .vadds f => .vadds { f with d := repV pass stride f.d, a := repV pass stride f.a, b := repV pass stride f.b }
  | .vsubs f => .vsubs { f with d := repV pass stride f.d, a := repV pass stride f.a, b := repV pass stride f.b }
  | .vfadd f => .vfadd { f with d := repV pass stride f.d, a := repV pass stride f.a, b := repV pass stride f.b }
  | .vfsub f => .vfsub { f with d := repV pass stride f.d, a := repV pass stride f.a, b := repV pass stride f.b }
  | .vfmul f => .vfmul { f with d := repV pass stride f.d, a := repV pass stride f.a, b := repV pass stride f.b }
  | .vfma f => .vfma { f with d := repV pass stride f.d, a := repV pass stride f.a, b := repV pass stride f.b, vc := (repV pass stride (f.vc.setWidth 6)).setWidth 5 }
  | .vfms f => .vfms { f with d := repV pass stride f.d, a := repV pass stride f.a, b := repV pass stride f.b, vc := (repV pass stride (f.vc.setWidth 6)).setWidth 5 }
  | .vfnma f => .vfnma { f with d := repV pass stride f.d, a := repV pass stride f.a, b := repV pass stride f.b, vc := (repV pass stride (f.vc.setWidth 6)).setWidth 5 }
  | .vfmin f => .vfmin { f with d := repV pass stride f.d, a := repV pass stride f.a, b := repV pass stride f.b }
  | .vfmax f => .vfmax { f with d := repV pass stride f.d, a := repV pass stride f.a, b := repV pass stride f.b }
  | .vfabs f => .vfabs { f with d := repV pass stride f.d, a := repV pass stride f.a }
  | .vfneg f => .vfneg { f with d := repV pass stride f.d, a := repV pass stride f.a }
  | .vfcps f => .vfcps { f with d := repV pass stride f.d, a := repV pass stride f.a, b := repV pass stride f.b }
  | .vrsqrte f => .vrsqrte { f with d := repV pass stride f.d, a := repV pass stride f.a }
  | .vrcpe f => .vrcpe { f with d := repV pass stride f.d, a := repV pass stride f.a }
  | .vexp2e f => .vexp2e { f with d := repV pass stride f.d, a := repV pass stride f.a }
  | .vlog2e f => .vlog2e { f with d := repV pass stride f.d, a := repV pass stride f.a }
  | .vcvt f => .vcvt { f with d := repV pass stride f.d, a := repV pass stride f.a }
  | .vcvto f => .vcvto { f with d := repV pass stride f.d, a := repV pass stride f.a }
  | .vpack f => .vpack { f with d := repV pass stride f.d, a := repV pass stride f.a, b := repV pass stride f.b }
  | .vunpack f => .vunpack { f with d := repV pass stride f.d, a := repV pass stride f.a }
  | .vmxq f => .vmxq { f with d := repV pass stride f.d, a := repV pass stride f.a, b := if f.src == 7 then repV pass stride f.b else f.b }
  | .vmxd f => .vmxd { f with d := repV pass stride f.d, a := repV pass stride f.a }
  | .vredadd f => .vredadd { f with d := repV pass stride f.d, a := repV pass stride f.a }
  | .vredmax f => .vredmax { f with d := repV pass stride f.d, a := repV pass stride f.a }
  | .vredmin f => .vredmin { f with d := repV pass stride f.d, a := repV pass stride f.a }
  | .vfredadd f => .vfredadd { f with d := repV pass stride f.d, a := repV pass stride f.a }
  | .vbcst f => .vbcst { f with d := repV pass stride f.d }
  | .vshuf f => .vshuf { f with d := repV pass stride f.d, a := repV pass stride f.a, b := repV pass stride f.b, vc := (repV pass stride (f.vc.setWidth 6)).setWidth 5 }
  | .vslide f => .vslide { f with d := repV pass stride f.d, a := repV pass stride f.a, vc := (repV pass stride (f.vc.setWidth 6)).setWidth 5 }
  | .viota f => .viota { f with d := repV pass stride f.d }
  | .vld f => .vld { f with d := repV pass stride f.d }
  | .vst f => .vst { f with d := repV pass stride f.d }
  | .vlds f => .vlds { f with d := repV pass stride f.d }
  | .vsts f => .vsts { f with d := repV pass stride f.d }
  | .vldx f => .vldx { f with d := repV pass stride f.d, b := repV pass stride f.b }
  | .vstx f => .vstx { f with d := repV pass stride f.d, b := repV pass stride f.b }
  | .vldb f => .vldb { f with d := repV pass stride f.d }
  | .vcmpeq f => .vcmpeq { f with a := repV pass stride f.a, b := repV pass stride f.b }
  | .vcmpne f => .vcmpne { f with a := repV pass stride f.a, b := repV pass stride f.b }
  | .vcmplt f => .vcmplt { f with a := repV pass stride f.a, b := repV pass stride f.b }
  | .vcmple f => .vcmple { f with a := repV pass stride f.a, b := repV pass stride f.b }
  | .vfcmpeq f => .vfcmpeq { f with a := repV pass stride f.a, b := repV pass stride f.b }
  | .vfcmplt f => .vfcmplt { f with a := repV pass stride f.a, b := repV pass stride f.b }
  | .vfcmple f => .vfcmple { f with a := repV pass stride f.a, b := repV pass stride f.b }
  | .vfclass f => .vfclass { f with d := repV pass stride f.d, a := repV pass stride f.a }
  | .vsel f => .vsel { f with d := repV pass stride f.d, a := repV pass stride f.a, b := repV pass stride f.b }
  | .vmovk f => .vmovk { f with d := repV pass stride f.d }
  | .vmovx f => .vmovx { f with a := repV pass stride f.a }
  | i => i

end Sys2Proof
end

