-- ==== Sys2Proof/Machine/Data.lean ====
section
/-!
DEFINITION. The plain data the state is built from: sparse maps, sets of numbers, byte memories, byte-order helpers.
-/

namespace Sys2Proof.Machine

/-- A sparse map by number, in rising key order; an absent key reads as the default its reader names. -/
abbrev AMap (α : Type) := List (Nat × α)

def AMap.get? {α : Type} : AMap α → Nat → Option α
  | [], _ => none
  | (k', v) :: m, k => if k' = k then some v else AMap.get? m k

def AMap.getD {α : Type} (m : AMap α) (k : Nat) (d : α) : α := (AMap.get? m k).getD d

def AMap.set {α : Type} : AMap α → Nat → α → AMap α
  | [], k, v => [(k, v)]
  | (k', v') :: m, k, v =>
    if k' < k then (k', v') :: AMap.set m k v
    else if k' = k then (k, v) :: m
    else (k, v) :: (k', v') :: m

def AMap.erase {α : Type} : AMap α → Nat → AMap α
  | [], _ => []
  | (k', v') :: m, k => if k' = k then AMap.erase m k else (k', v') :: AMap.erase m k

def AMap.keys {α : Type} (m : AMap α) : List Nat := m.map (·.1)
def AMap.vals {α : Type} (m : AMap α) : List α := m.map (·.2)

/-- Applies a function to every value. -/
def AMap.mapVals {α β : Type} (m : AMap α) (f : Nat → α → β) : AMap β := m.map fun p => (p.1, f p.1 p.2)

/-- A set of numbers as a rising list. -/
abbrev NSet := List Nat

def NSet.mem (s : NSet) (n : Nat) : Bool := s.any (· == n)

def NSet.insert : NSet → Nat → NSet
  | [], n => [n]
  | k :: s, n => if k < n then k :: NSet.insert s n else if k = n then k :: s else n :: k :: s

def NSet.erase (s : NSet) (n : Nat) : NSet := s.filter (fun k => !(k == n))

/-- The set with the numbers n, n + 1, …, n + count − 1 added. -/
def NSet.insertRange (s : NSet) (n : Nat) : Nat → NSet
  | 0 => s
  | count + 1 => NSet.insertRange (NSet.insert s (n + count)) n count

/-- The set without the numbers lo ≤ x < hi. -/
def NSet.eraseRange (s : NSet) (lo hi : Nat) : NSet := s.filter fun k => !(decide (lo ≤ k) && decide (k < hi))

/-- Whether some number lo ≤ x < hi is in the set. -/
def NSet.meets (s : NSet) (lo hi : Nat) : Bool := s.any fun k => decide (lo ≤ k) && decide (k < hi)

/-- A byte memory: the bytes that differ from zero, by rising address. An unlisted byte reads zero. -/
abbrev Memory := List Host.Cell

/-- What a byte that nothing has written reads as. DESIGN CHOICE, log entry 3: unsafe. -/
def Memory.blank : Byte := 0

def Memory.read (m : Memory) (a : Nat) : Byte := AMap.getD m a Memory.blank

/-- Writing a byte keeps the canonical form: the blank byte is not listed. -/
def Memory.write (m : Memory) (a : Nat) (b : Byte) : Memory :=
  if b = Memory.blank then AMap.erase m a else AMap.set m a b

/-- The canonical form: addresses strictly rising and no blank byte listed. -/
def Memory.wf : Memory → Bool
  | [] => true
  | [(_, b)] => b != Memory.blank
  | (a, b) :: (a', b') :: m => decide (a < a') && (b != Memory.blank) && Memory.wf ((a', b') :: m)

/-- The n bytes at a, the lowest address first. -/
def Memory.readBytes (m : Memory) (a : Nat) : Nat → List Byte
  | 0 => []
  | n + 1 => Memory.read m a :: Memory.readBytes m (a + 1) n

def Memory.writeBytes (m : Memory) (a : Nat) : List Byte → Memory
  | [] => m
  | b :: bs => Memory.writeBytes (Memory.write m a b) (a + 1) bs

/-- The number whose little-endian bytes these are (R5). -/
def leNat : List Byte → Nat
  | [] => 0
  | b :: bs => b.toNat + 256 * leNat bs

/-- The n little-endian bytes of a number (R5). -/
def leBytes : Nat → Nat → List Byte
  | 0, _ => []
  | n + 1, x => BitVec.ofNat 8 x :: leBytes n (x / 256)

/-- The n bytes at a as one little-endian number. -/
def Memory.readN (m : Memory) (a n : Nat) : Nat := leNat (Memory.readBytes m a n)

def Memory.writeN (m : Memory) (a n x : Nat) : Memory := Memory.writeBytes m a (leBytes n x)

/-- Replaces the i-th element of a list; a list that is too short is unchanged. -/
def setAt {α : Type} : List α → Nat → α → List α
  | [], _, _ => []
  | _ :: xs, 0, v => v :: xs
  | x :: xs, n + 1, v => x :: setAt xs n v

/-- The i-th element, or a default. -/
def nthD {α : Type} : List α → Nat → α → α
  | [], _, d => d
  | x :: _, 0, _ => x
  | _ :: xs, n + 1, d => nthD xs n d

/-- The numbers 0 to n − 1 in rising order. -/
def upto (n : Nat) : List Nat := List.range n

/-- ⌈a / b⌉. -/
def ceilDiv (a b : Nat) : Nat := (a + b - 1) / b

/-- A saturating 32-bit count (R348, R383). -/
def sat32 (n : Nat) : Nat := if n < 2 ^ 32 then n else 2 ^ 32 - 1

/-- The first element that a function accepts. -/
def firstSome {α β : Type} (f : α → Option β) : List α → Option β
  | [] => none
  | x :: xs => match f x with
    | some y => some y
    | none => firstSome f xs

end Sys2Proof.Machine
end

