-- ==== Sys2Proof/Machine/State.lean ====
section
/-!
DEFINITION. The state of one Niric module: everything spec/ gives the machine, as plain data, the reasons a step can stop,
and the state right after reset.
-/

namespace Sys2Proof.Machine

/-- A k register or PCC: the tag and the 128 bits of R339. -/
structure KReg where
  tag : Bool
  bits : BitVec 128
  deriving DecidableEq, Repr

def KReg.zero : KReg := ⟨false, 0⟩

/-- One hardware-loop level (R142, R153). -/
structure LoopLevel where
  active : Bool
  s : Addr
  e : Addr
  lc : Word
  deriving DecidableEq, Repr

def LoopLevel.blank : LoopLevel := ⟨false, 0, 0, 0⟩

/-- The repetition buffer (R145, R146, R153): `words` are the body words fetched on pass 0. -/
structure RepBuf where
  active : Bool
  s : Addr
  e : Addr
  count1 : BitVec 6
  stride : BitVec 3
  pass : BitVec 6
  idx : BitVec 4
  words : AMap (BitVec 32)
  deriving DecidableEq, Repr

def RepBuf.blank : RepBuf := ⟨false, 0, 0, 0, 0, 0, 0, []⟩

/-- The register file a lookahead window or an interlock is about (R367 CLASS); `none` is code 3, which names no file (log entry 86). -/
inductive RegClass where
  | k | v | m | none
  deriving DecidableEq, Repr

/-- An open lookahead window (R79 to R82). The shadow value is what the register itself holds (log entry 5). -/
structure Win where
  cls : RegClass
  dest : BitVec 6
  left : BitVec 4
  arrived : Bool
  result : Line
  resultTag : Bool
  fail : Byte
  failVal : Word
  pc : Addr
  /-- the operation whose result it waits for -/
  op : Nat
  /-- the order of opening -/
  age : Nat
  /-- its window number in a frame, 0 to 3 (R367) -/
  slot : Nat
  deriving DecidableEq, Repr

/-- A trap known after issue: due at once, or at the observation of `tag`, or at the next instruction that names `vd`, and
in every case at the drain of DONE (R81, R174, R240, R258, R301). -/
structure LateTrap where
  code : Byte
  val : Word
  pc : Addr
  tag : Option (BitVec 6)
  vd : Option (BitVec 6)
  late : Bool
  /-- whether the drain before DONE takes it too (R240, R301; a DCOPY's stop waits for its tag alone, R258) -/
  atDone : Bool
  deriving DecidableEq, Repr

/-- An entry of the vector queue (R158): the instruction with its REP offsets applied, the k operands it read and the mode
it captured. -/
structure VqEntry where
  op : Nat
  instr : Instr
  pc : Addr
  ka : KReg
  kb : KReg
  rm : BitVec 3
  ftz : Bool
  daz : Bool
  /-- a lane group of the tile it is bound to (R296) -/
  group : Option Nat
  /-- the SEQ a VCVTO with TOK reserved on its port (R167) -/
  seq : Option Nat
  /-- whether it opened a lookahead window -/
  win : Bool
  /-- a VM instruction in execution: accesses performed, element values read so far, and the word whose error its observer gets (R174) -/
  done : Nat
  got : AMap Nat
  bad : Option Nat
  deriving DecidableEq, Repr

/-- An engine command waiting or in execution (R181, R202, R256). -/
structure EngCmd where
  op : Nat
  task : Nat
  instr : Instr
  pc : Addr
  ka : KReg
  kb : KReg
  kd : KReg
  /-- steps done: chunks of an MMA, tables of a stream LTAB, lines of a DCOPY -/
  done : Nat
  /-- whether the engine has taken it; the reads and the writes made of the step in execution, and what the reads returned: bytes by
  operand and address, and the bad words among them (R152, R186, R203) -/
  started : Bool
  rd : Nat
  wr : Nat
  got : Memory
  gbad : NSet
  /-- an MMA: what its chunks so far have met: a NaN, an infinity, a bad word (R126, R192) -/
  events : BitVec 3
  /-- whether a page wait holds it (R258) -/
  waiting : Option Addr
  /-- a DCOPY whose last lines are on their way to another tile (R259) -/
  draining : Bool
  /-- why it stopped early: trap code and value its observer takes (R258, R259) -/
  stopped : Option (Byte × Word)
  actor : Nat
  /-- the descriptor that DSCFG read at issue (R260); DBANK's reserved SEQ (R265) -/
  data : List Word
  deriving DecidableEq, Repr

/-- What a context is (R25, R293, R301): the tile monitor, or a helper's role in a firing or sweep. -/
inductive Role where
  | monitor | primary | started | team
  deriving DecidableEq, Repr

/-- Where a context stands (R289, R298, R365, R371). -/
inductive CtxMode where
  /-- a helper that runs nothing -/
  | free
  /-- issues instructions -/
  | running
  /-- holds a trap frame waiting for ERET -/
  | trapped
  /-- has executed DONE or RETIRE, or is stopped by BRK in context 0 -/
  | stopped
  deriving DecidableEq, Repr

/-- A hardware context: registers (R66) and control state (R153), with its trap words (R364). -/
structure Ctx where
  mode : CtxMode
  role : Role
  /-- the number of the task it runs; replies name it, wherever the task stands (R298) -/
  task : Nat
  actor : Nat
  sweepSlot : Nat
  team : Nat
  regs : Nat
  k : AMap KReg
  v : AMap Line
  m : AMap (BitVec 16)
  tags : Word
  fpc : Word
  vqw : BitVec 4
  pcc : KReg
  loop0 : LoopLevel
  loop1 : LoopLevel
  rep : RepBuf
  wins : List Win
  /-- what context 0 has written to the frame words of windows that are not open, by word from 0x1D3 on (R6, R367) -/
  winWords : AMap Word
  /-- takes or puts made in the firing, by port (R250, R367 DONEC) -/
  donec : AMap Nat
  starts : Nat
  /-- k1 to k7 at fire (R51, R293) -/
  fireK : List KReg
  /-- a START stalled in class 1 (R289): its issue order and the values of k[a] and k[b] -/
  startAt : Option (Nat × KReg × KReg)
  cause : Word
  trappc : Word
  trapval : Word
  lates : List LateTrap
  vq : List VqEntry
  mxq : List EngCmd
  dmq : List EngCmd
  lcq : List EngCmd
  /-- words the context fetches in place of TLM until its IFENCE (R267, R347; log entry 14) -/
  stale : AMap (BitVec 32)
  /-- whether its last issue attempt stalled: no meaning of its own, the scheduler reads it -/
  stalled : Bool
  /-- halted by pre-emption (R371, R372 HELD) -/
  halted : Bool
  deriving DecidableEq, Repr

/-- The registers at their reset values (R66; FPC R117, VQW R295; log entry 4). -/
def Ctx.init : Ctx :=
  { mode := .free, role := .primary, task := 0, actor := 0, sweepSlot := 0, team := 0, regs := 64, k := [], v := [], m := []
    tags := 0, fpc := 0x20, vqw := 1, pcc := KReg.zero, loop0 := LoopLevel.blank, loop1 := LoopLevel.blank
    rep := RepBuf.blank, wins := [], winWords := [], donec := [], starts := 0, fireK := [], startAt := none, cause := 0, trappc := 0
    trapval := 0, lates := [], vq := [], mxq := [], dmq := [], lcq := [], stale := [], stalled := false, halted := false }

/-- A global request outstanding at a tile (R220, R237): `after` are the operations of the tile that must have performed
before it (R222); `performed` and `reply` say how far it is. -/
structure GReq where
  op : GOp
  task : Nat
  ctxNo : Nat
  actor : Nat
  va : Addr
  pa : PAddr
  n : Nat
  data : Word
  cmp : Word
  dest : Option (BitVec 6)
  async : Bool
  tok : Bool
  tag : Option (BitVec 6)
  order : BitVec 2
  scope : BitVec 3
  pc : Addr
  after : List Nat
  performed : Bool
  reply : Option Reply
  /-- whether a lookahead window holds its destination -/
  win : Bool
  /-- the SEQ reserved on the completion port by a token-form GLDV (R244) -/
  seq : Option Nat
  /-- whether a RETRY has answered it and nothing else moved (R229) -/
  onlyRetry : Bool
  resid : BitVec 12
  deriving DecidableEq, Repr

/-- A line of a remote DCOPY on its way to the target tile (R259). -/
structure RLine where
  src : Nat
  task : Nat
  ctxNo : Nat
  op : Nat
  dst : Nat
  addr : Nat
  data : Line
  poisoned : Bool
  resid : BitVec 12
  tag : BitVec 6
  pc : Addr
  deriving DecidableEq, Repr

/-- A refusal report of a remote DCOPY (R259). -/
structure Refusal259 where
  task : Nat
  op : Nat
  addr : Word
  pc : Addr
  deriving DecidableEq, Repr

/-- An entry of the L1 translation cache or of a stream (R352, R353): `level` 2, 3 or 4 gives the page size. -/
structure TlbEntry where
  resid : BitVec 12
  level : Nat
  vpn : Nat
  pa : PAddr
  r : Bool
  w : Bool
  ver : Bool
  deriving DecidableEq, Repr

/-- A queue slot of an input port (R35, R42): its payload lies in TLM at the slot's address. -/
structure QSlot where
  kind : TokKind
  line : Bool
  round : BitVec 16
  resid : BitVec 12
  seq : Nat
  port : Nat
  scale : Byte
  ohdr : Option OHdr
  deriving DecidableEq, Repr

/-- What the hardware discards on an input (R48, R49). -/
inductive Drain where
  | no | toEos | toRound
  deriving DecidableEq, Repr

/-- A port-table entry of a configuration slot with its queue (R38 to R42, R317). -/
structure Port where
  declared : Bool
  output : Bool
  line : Bool
  fmt : BitVec 4
  scale : Byte
  depth : Nat
  count : Nat
  actor : Nat
  carried : Bool
  compl : Bool
  bankp : Bool
  ordered : Bool
  osn : Nat
  qaddr : Nat
  /-- bound to this stream of the slot -/
  stream : Option Nat
  /-- the channel it sources or ends, with the branch number -/
  chan : Option Nat
  branch : Nat
  /-- input: full count of tokens consumed (R40) -/
  h : Nat
  q : AMap QSlot
  drain : Drain
  /-- input: a SNAP in the marker cell: its SEQ and payload (R375) -/
  marker : Option (Nat × Nat)
  /-- output: closed by MARK of EOS (R249) -/
  closed : Bool
  /-- the release binding word (R320) -/
  relb : Option Word
  /-- ordered output: credits held per receiver (R274); last stamp sent (R287) -/
  credits : List Nat
  lastStamp : Word
  /-- ordered input: EOS messages held, by sender (R280); next SEQ -/
  eosHeld : List OHdr
  eosStatus : List (BitVec 16)
  oseq : Nat
  /-- ordered output: puts that keep their places, by number, each with its token once it is known (R167, R244, R286) -/
  booked : List (Nat × Option (TokKind × Line × BitVec 16))
  deriving DecidableEq, Repr

def Port.blank : Port :=
  { declared := false, output := false, line := false, fmt := 0, scale := 0, depth := 1, count := 0, actor := 0
    carried := false, compl := false, bankp := false, ordered := false, osn := 0, qaddr := 0, stream := Option.none
    chan := Option.none, branch := 0, h := 0, q := [], drain := .no, marker := Option.none, closed := false
    relb := Option.none, credits := [], lastStamp := 0, eosHeld := [], eosStatus := [], oseq := 0, booked := [] }

/-- The steps of R47 to R49. -/
inductive Punct where
  | eos | round | lenMis | rndMis
  deriving DecidableEq, Repr

/-- Which handler a firing runs (R45 to R49). -/
inductive FireKind where
  | fire | eos | round | mismatch
  deriving DecidableEq, Repr

/-- A live firing (R45): tasks of it still to end, and the index it was given. -/
structure Firing where
  kind : FireKind
  index : Nat
  primary : Nat
  tasks : List Nat
  starts : Nat
  /-- puts made by port, kept after the primary helper is gone -/
  donec : AMap Nat
  deriving DecidableEq, Repr

/-- An actor-table entry (R43, R318) with its running state. -/
structure Actor where
  declared : Bool
  prio : Nat
  roundA : Bool
  nullP : Bool
  hold : Nat
  regs : Nat
  help : Nat
  entry : Addr
  eosH : Option Addr
  rndH : Option Addr
  misH : Option Addr
  stOff : Nat
  stLen : Nat
  scOff : Nat
  scLen : Nat
  grant : BitVec 16
  groups : List Nat
  /-- banks in force (R147, R265) -/
  inForce : BitVec 16
  firings : Nat
  live : Option Firing
  ended : Bool
  /-- the step whose handler has been fired and whose hardware part is still to come (R47 to R49) -/
  pend : Option Punct
  /-- it has fired since its slot became active: a source with no outputs fires once (R44) -/
  fired : Bool
  migrating : Bool
  /-- held by a snapshot (R375), and the tags whose completion tokens fell due while it was, which are put after the restore (log entry
  92) -/
  held : Bool
  owed : List (BitVec 6)
  /-- occupancy sum and sample count of the rebalancer (R313), last move time -/
  occ : AMap Nat
  lastMove : Nat
  deriving DecidableEq, Repr

def Actor.blank : Actor :=
  { declared := false, prio := 0, roundA := false, nullP := false, hold := 0, regs := 1, help := 0, entry := 0
    eosH := Option.none, rndH := Option.none, misH := Option.none, stOff := 0, stLen := 0, scOff := 0, scLen := 0
    grant := 0, groups := [], inForce := 0, firings := 0, live := Option.none, ended := false, pend := Option.none
    fired := false, migrating := false, held := false, owed := [], occ := [], lastMove := 0 }

/-- Router operators (R52). -/
inductive OperKind where
  | steer | merge | carry
  deriving DecidableEq, Repr

/-- An operator slot (R53, R320): one input register per input, with each input's H count and marker. -/
structure Oper where
  kind : OperKind
  nullRep : Bool
  init : Word
  emitted : Bool
  in0 : Option Token
  in1 : Option Token
  h0 : Nat
  h1 : Nat
  marker0 : Option (Nat × Nat)
  marker1 : Option (Nat × Nat)
  drain0 : Drain
  drain1 : Drain
  /-- the channel of each endpoint (R319) -/
  chans : AMap Nat
  errs : Nat
  ended : Bool
  held : Bool
  deriving DecidableEq, Repr

/-- A stream st0 to st7 of a slot (R260 to R264). -/
structure Stream where
  configured : Bool
  desc : List Word
  lo : Addr
  hi : Addr
  claim : Option Nat
  run : Bool
  denied : Bool
  stopped : Bool
  eosin : Bool
  pos : Nat
  tlb : Option TlbEntry
  /-- the page a wait holds it on -/
  waiting : Option Addr
  /-- the DSGO in force: task, tag, token, actor; and its operation number -/
  go : Option (Nat × BitVec 6 × Bool × Nat)
  goOp : Nat
  /-- the EOS status that a DIR 0 stream still has to send (R260, R263) -/
  eosDue : Option (BitVec 16)
  /-- whose page tables it translates through: context 0's own, or the residency's -/
  mon : Bool
  /-- bytes read, each with its poison: DIR 2, those that LTAB has not taken; DIR 0, those of the token being filled (R205, R209, R262) -/
  held : List (Byte × Bool)
  marker : Bool
  /-- how many bytes of a packed XE8 sequence it has moved (R112, R262) -/
  bytes : Nat
  deriving DecidableEq, Repr

def Stream.blank : Stream :=
  { configured := false, desc := [], lo := 0, hi := 0, claim := Option.none, run := false, denied := false
    stopped := false, eosin := false, pos := 0, tlb := Option.none, waiting := Option.none, go := Option.none, goOp := 0
    eosDue := Option.none, mon := false, held := [], marker := false, bytes := 0 }

/-- RQUERY's slot states (R337). -/
inductive SlotState where
  | empty | loading | loaded | active | switching
  deriving DecidableEq, Repr

/-- A configuration slot (R54): port table, actor table, operators, streams. -/
structure Slot where
  state : SlotState
  resid : BitVec 12
  handle : Nat
  words : Nat
  ports : AMap Port
  actors : AMap Actor
  opers : AMap Oper
  streams : AMap Stream
  deriving DecidableEq, Repr

def Slot.blank : Slot :=
  { state := .empty, resid := 0, handle := 0, words := 0, ports := [], actors := [], opers := [], streams := [] }

/-- An accumulator (R178, R182, R190) and the copy of its claim, shape and count state that the issue stage keeps (R180). -/
structure Acc where
  live : Bool
  shape : BitVec 2
  owner : Option Nat
  counted : Bool
  kind : Bool
  sat : Bool
  rfmt : BitVec 4
  port : Nat
  count : Nat
  count0 : Nat
  curoff : Nat
  ringBase : Nat
  ringLen : Nat
  prog : Nat
  psn : Bool
  data : AMap Word
  /-- the release buffer, one line per entry, whether it is poisoned, and the bytes of a row; the lines that have left it -/
  buf : List Line
  bufPsn : Bool
  bufRow : Nat
  sent : Nat
  /-- who armed it: the context of the MINIT (R187 reason 4) -/
  armer : Nat
  /-- RSH, NAN, INF, ROF, RUF, RNX, PART of R183 -/
  rsh : Bool
  nan : Bool
  inf : Bool
  rof : Bool
  ruf : Bool
  rnx : Bool
  part : Bool
  iOwner : Option Nat
  iShape : BitVec 2
  iCounted : Bool
  /-- the MMA whose tag waits for the release to drain: task, actor, tag, tok (R189) -/
  waiter : Option (Nat × Nat × BitVec 6 × Bool)
  deriving DecidableEq, Repr

def Acc.init : Acc :=
  { live := false, shape := 0, owner := none, counted := false, kind := false, sat := false, rfmt := 0, port := 0, count := 0
    count0 := 0, curoff := 0, ringBase := 0, ringLen := 0, prog := 0, psn := false, data := [], buf := [], bufPsn := false
    bufRow := 0, sent := 0, armer := 0, rsh := false, nan := false, inf := false, rof := false, ruf := false
    rnx := false, part := false, iOwner := none, iShape := 0, iCounted := false, waiter := none }

/-- A wiring context of the fabric (R196). -/
structure Wiring where
  n : Nat
  cells : AMap (BitVec 128)
  deriving DecidableEq, Repr

/-- The lookup-cell fabric (R196, R200, R201); poison marks by index (R205). -/
structure Fabric where
  planes : AMap Word
  tables : AMap Word
  wiring : AMap Wiring
  cur : BitVec 2
  pPlanes : NSet
  pTables : NSet
  pCells : NSet
  owner : Option Nat
  iOwner : Option Nat
  deriving DecidableEq, Repr

def Fabric.init : Fabric := ⟨[], [], [], 0, [], [], [], none, none⟩

/-- A membership slot of a tile (R253, R308). -/
structure Member where
  group : Nat
  mask : Bool
  arr : BitVec 32
  rel : BitVec 32
  deriving DecidableEq, Repr

/-- A sweep slot of a tile (R58, R290, R301). -/
structure SweepSlot where
  sweep : Nat
  counts : AMap Nat
  released : List Nat
  running : List Nat
  left : Nat
  deriving DecidableEq, Repr

/-- A task waiting on the pager's future (R298), or resumed and waiting for a helper. -/
structure Waiter where
  ctx : Ctx
  va : Addr
  /-- none: still waiting; some k: ready, with k its place in the order of completion -/
  ready : Option Nat
  /-- the mapping was refused (R299) -/
  denied : Bool
  deriving DecidableEq, Repr

/-- A router forwarding entry of a moved actor (R233, R234). -/
structure FwdEntry where
  actor : Nat
  ports : List Nat
  target : Nat
  /-- the sender's count of step 5, by port: tokens below it may still come by the old tile -/
  due : AMap Nat
  deriving DecidableEq, Repr

/-- An OSEND whose message has not left the tile's router: the message's sequence, and who waits (R286). -/
structure InjectDue where
  seq : Nat
  actor : Nat
  task : Nat
  tag : BitVec 6
  tok : Bool
  deriving DecidableEq, Repr

/-- A logical tile (R25). -/
structure Tile where
  /-- the tile processor runs; false after a monitor double fault (R366) -/
  alive : Bool
  tlm : Memory
  /-- granules whose tag is set (R150) -/
  gtags : NSet
  /-- 64-bit words marked poisoned; words holding a double-bit, or a single-bit, error (R381) -/
  poison : NSet
  err2 : NSet
  err1 : NSet
  /-- banks marked executable; banks the image places, with the handle's residency (R347, R259) -/
  exec : BitVec 16
  placed : BitVec 16
  /-- banks that the tile monitor's own image marks executable, beside those of a residency's image (R342, R411) -/
  monExec : BitVec 16
  ctxs : AMap Ctx
  lastCtx : Nat
  fsel : Nat
  nest : Bool
  pend : BitVec 11
  trapvec : BitVec 20
  preReq : Bool
  preHalted : Bool
  preElapsed : Nat
  preAt : Nat
  owmTimeout : Word
  slots : AMap Slot
  active : Nat
  /-- how far the tile is in the image's role sequence (R54) -/
  role : Nat
  /-- CSLOT waiting for the switch: slot, tag, tok (R335), or a role step due -/
  switchTo : Option (Nat × Option (BitVec 6))
  accs : AMap Acc
  mxLast : Nat
  fabric : Fabric
  lcLast : Nat
  dmLast : Nat
  reqs : AMap GReq
  nextOp : Nat
  nextTask : Nat
  waiters : List Waiter
  nextReady : Nat
  nextStart : Nat
  tlb : List TlbEntry
  ring : Nat
  /-- pass counts of the twelve candidate slots: a candidate keeps its count when it is one no longer (R290) -/
  passes : AMap Nat
  sweepSlots : AMap SweepSlot
  members : List Member
  vptr : Nat
  deficit : AMap Nat
  credited : BitVec 11
  groups : AMap (Nat × Nat)
  streamSel : BitVec 3
  fwd : List FwdEntry
  /-- unacknowledged remote-TLM stores by task (R220, R259) -/
  unack : AMap Nat
  refusals : List Refusal259
  dropped : Nat
  dropHdr : Option (BitVec 48)
  lastResult : Word
  /-- Stroke time (R269 to R272): the count with its 16-bit fraction, the period estimate and the correction still to be slewed, all in
  2⁻¹⁶ ticks, the time of the last clock edge, missed and good waves in a row, last wave seen -/
  count : Nat
  period : Nat
  timeErr : Int
  edgeAt : Nat
  missed : Nat
  goodWaves : Nat
  synced : Bool
  lastWave : Nat
  lastStamp : Word
  tileSeq : BitVec 32
  /-- ordered messages waiting at the injection port (R277) with the time it last sent -/
  inject : List Token
  injectDue : List InjectDue
  lastSent : Nat
  /-- the rebalancer's samples of this window, those in which helpers ran, those of the last window, and the time of the last
  sample (R313) -/
  samples : Nat
  busySamples : Nat
  busyLast : Nat
  sampledAt : Nat
  corrected : Nat
  uncorrected : Nat
  /-- stopped by a droop (R409) -/
  drooped : Bool
  /-- BRK stop of context 0 (R368) -/
  brk : Bool
  snapDone : Bool
  /-- reports waiting for the tile monitor: code, value, and the least waiting stamp of OWM_STALL (R272, R282) -/
  reports : List (Byte × Word × Word)
  deriving DecidableEq, Repr

def Tile.init : Tile :=
  { alive := true, tlm := [], gtags := [], poison := [], err2 := [], err1 := [], exec := 0, placed := 0, monExec := 0, ctxs := [(0, { Ctx.init with role := .monitor })]
    lastCtx := 0, fsel := 0, nest := false, pend := 0, trapvec := 0, preReq := false, preHalted := false, preElapsed := 0
    preAt := 0, owmTimeout := 0x13880, slots := [], active := 0, role := 0, switchTo := none, accs := [], mxLast := 0
    fabric := Fabric.init, lcLast := 0, dmLast := 0, reqs := [], nextOp := 0, nextTask := 1, waiters := [], nextReady := 0
    nextStart := 0, tlb := [], ring := 11, passes := [], sweepSlots := [], members := [], vptr := 0, deficit := [], credited := 0
    groups := [], streamSel := 0, fwd := [], unack := [], refusals := [], dropped := 0, dropHdr := none, lastResult := 0
    count := 0, period := 0, timeErr := 0, edgeAt := 0, missed := 0, goodWaves := 0, synced := true, lastWave := 0, lastStamp := 0, tileSeq := 0, inject := []
    injectDue := [], lastSent := 0, samples := 0, busySamples := 0, busyLast := 0, sampledAt := 0, corrected := 0, uncorrected := 0, drooped := false
    brk := false, snapDone := false, reports := [] }

/-- An end of a channel (R319). -/
inductive End where
  | port (tile p : Nat)
  | oper (tile slot endp : Nat)
  | stream (tile p : Nat)
  | inlet (n : Nat)
  | outlet (n : Nat)
  | fabric (lport stream : Nat)
  deriving DecidableEq, Repr

/-- A token under way on a branch, with the operations that must have performed before it may arrive (R222 for PUTR). -/
structure Flight where
  tok : Token
  after : List (Nat × Nat)
  /-- 64-bit groups of its handshakes that a mesh link will find with a correctable error; whether one cannot be corrected (R381; log
  entry 93) -/
  corr : Nat := 0
  bad : Bool := false
  deriving DecidableEq, Repr

/-- A branch of a channel (R38, R39). -/
structure Branch where
  dst : End
  depth : Nat
  room : Nat
  flights : List Flight
  /-- slots freed whose credit has not returned -/
  back : Nat
  /-- what a slot switch adds to SEQ at a carried input (R54) -/
  base : Nat
  /-- a SNAP held where the branch leaves the tiles, at a port fabric's ingress point: its SEQ and payload (R376) -/
  snap : Option (Nat × Nat) := none
  deriving DecidableEq, Repr

/-- A channel of an armed residency (R38). -/
structure Chan where
  src : End
  resid : BitVec 12
  handle : Nat
  slot : Nat
  num : Nat
  line : Bool
  fmt : BitVec 4
  seq : Nat
  rounds : Nat
  closed : Bool
  forkQ : List Flight
  /-- slots reserved by token-form GLDV or VCVTO and not yet filled, by SEQ, each with the ROUND tokens put before it (R35, R167,
  R244) -/
  reserved : AMap Nat
  branches : List Branch
  deriving DecidableEq, Repr

/-- The states of a residency, in the code order of R337 (R62). -/
inductive RState where
  | queued | loading | armed | running | ended | held | aborted
  deriving DecidableEq, Repr

/-- A region: rectangle, origin in it, and shape (R62). -/
structure Region where
  rect : Nat
  row : Nat
  col : Nat
  rows : Nat
  cols : Nat
  deriving DecidableEq, Repr

/-- A record of the global snapshot area (R378), as data. -/
structure SnapRec where
  typ : Nat
  row : Nat
  col : Nat
  arg : Nat
  words : List Word
  deriving DecidableEq, Repr

/-- The error record of a residency (R383) and its fault buffer (R384). -/
structure ErrRec where
  w0 : Word
  w1 : Word
  w2 : Word
  lenmis : Nat
  rndmis : Nat
  operr : Nat
  verpass : Nat
  dropped : Nat
  drophdr : BitVec 48
  corr : Nat
  uncorr : Nat
  flags : BitVec 5
  dump : BitVec 48
  faultdrop : Nat
  deriving DecidableEq, Repr

def ErrRec.init : ErrRec := ⟨0, 0, 0, 0, 0, 0, 0, 0, 0, 0, 0, 0, 0, 0⟩

/-- An ordered message held at a router when its receiver's residency is cut (R283, R376). -/
structure HeldMsg where
  tile : Nat
  input : Nat
  msg : Token
  deriving DecidableEq, Repr

/-- Where a sweep stands (R301, R303, R306). -/
inductive SweepPhase where
  | launching | accepting | running | aborting
  deriving DecidableEq, Repr

/-- A launched sweep (R300, R301). -/
structure Sweep where
  phase : SweepPhase
  tile : Nat
  task : Nat
  op : Nat
  actor : Nat
  tag : BitVec 6
  tok : Bool
  pc : Addr
  resid : BitVec 12
  record : List Word
  param : KReg
  k2 : KReg
  k7 : KReg
  regs : Nat
  prio : Nat
  grant : BitVec 16
  /-- the scoreboard: its virtual address, and the physical base of each 64 KiB of it, translated at issue -/
  sbva : Addr
  pages : List PAddr
  tiles : List Nat
  accepted : List Nat
  /-- SWABTs waiting for STATE 3: tile and request -/
  aborts : List (Nat × Nat)
  /-- retire notices under way, by successor (R302) -/
  notices : List Nat
  /-- requests of the launching tile that perform first (R225) -/
  after : List Nat
  deriving DecidableEq, Repr

/-- A completed snapshot (R377, R378): the saved tiles, channels, sweeps and held ordered messages of the region, the length of
what was written to the snapshot area, and the digest that the Delsis controller keeps. -/
structure Snapshot where
  region : Region
  tiles : List (Nat × Tile)
  chans : AMap Chan
  sweeps : AMap Sweep
  msgs : List HeldMsg
  gen : Nat
  commit : Bool
  err : ErrRec
  len : Nat
  digest : BitVec 512
  deriving DecidableEq, Repr

/-- A residency of a control block (R62, R330, R333). -/
structure Res where
  state : RState
  used : Bool
  resid : BitVec 12
  region : Option Region
  /-- the staged image: its words, once steps 1 to 7 have passed (R322) -/
  image : Option (List Word)
  stageDue : Bool
  result : Word
  gen : Nat
  commit : Bool
  replay : Nat
  /-- copy of PARAM waiting on a page, and whether the pager refused it (R330) -/
  armWait : Option Addr
  armRefused : Bool
  /-- steps 3 and 4 of R330 are done: the slots are loaded and the groups written -/
  loaded : Bool
  armed : Bool
  err : ErrRec
  faultQ : List Word
  faultEos : Bool
  faultHold : Bool
  wdEn : Bool
  wdFired : Bool
  wdTicks : BitVec 32
  wdLast : Nat
  /-- a snapshot in progress; the last complete one; its digest -/
  snapping : Bool
  /-- a snapshot asked for while a move was in flight, which completes first (R374) -/
  snapDue : Bool
  snap : Option Snapshot
  restoring : Bool
  abortAsked : Bool
  /-- the abort is that of a tile's death in the rectangle (R393) -/
  tileLost : Bool
  moving : Option (Nat × Nat × Nat)
  /-- where an ordered output stands that a move or a restore has taken from a tile, by 32 × tile + port (R283) -/
  senders : AMap Nat
  deriving DecidableEq, Repr

def Res.init : Res :=
  { state := .ended, used := false, resid := 0, region := none, image := none, stageDue := false, result := 0, gen := 0
    commit := false, replay := 0, armWait := none, armRefused := false, loaded := false, armed := false, err := ErrRec.init, faultQ := [], faultEos := false
    faultHold := false, wdEn := true, wdFired := false, wdTicks := 0x61A80, wdLast := 0, snapping := false, snapDue := false
    snap := none, restoring := false, abortAsked := false, tileLost := false, moving := none, senders := [] }

/-- The writable words of a control block (R400). -/
structure Block where
  image : BitVec 52
  root : BitVec 52
  paramva : BitVec 48
  snappa : BitVec 52
  onum : Nat
  ofirst : Nat
  inum : Nat
  ifirst : Nat
  deriving DecidableEq, Repr

def Block.init : Block := ⟨0, 0, 0, 0, 0, 0, 0, 0⟩

/-- A host inlet channel (R397). -/
structure Inlet where
  chan : Option Nat
  drops : Nat
  created : Nat
  deriving DecidableEq, Repr

/-- A host outlet channel (R398): its queue by full count. -/
structure Outlet where
  chan : Option Nat
  branch : Nat
  h : Nat
  q : AMap Token
  next : Nat
  /-- the ports whose MSI-X vector was signalled when AVAIL last rose from 0 -/
  msix : BitVec 2
  deriving DecidableEq, Repr

def Outlet.init : Outlet := ⟨none, 0, 0, [], 0, 0⟩

/-- An element of a port fabric (R406, R407): its word and its two input registers and two output registers; an output
holds the readers that have not taken it. -/
structure FabElem where
  word : Word
  a : Option Token
  b : Option Token
  main : Option (Token × List Nat)
  aux : Option (Token × List Nat)
  deriving DecidableEq, Repr

def FabElem.init : FabElem := ⟨0, none, none, none, none⟩

/-- A link port (R401 to R408). -/
structure LinkPort where
  table : Word
  peerTime : Nat
  txSeq : BitVec 12
  replay : List Flit
  /-- flits sent again after a NAK; flits that wait for room in the replay buffer; the last ACK or NAK sent -/
  resend : List Flit
  pendTx : List Flit
  ctl : Option Flit
  rxSeq : BitVec 12
  /-- times of the NAKs of the last millisecond; retrains that failed in a row -/
  naks : List Nat
  fails : Nat
  /-- sixteen of them have come within a millisecond (R402) -/
  retrainDue : Bool
  retraining : Bool
  /-- residencies that have sent ordered messages across the link -/
  oSenders : NSet
  fabEn : Bool
  fabErr : Bool
  fabErrs : Nat
  elems : AMap FabElem
  /-- tokens of the link receive streams, the mesh ingress streams, and those that wait for room at an egress stream -/
  rx : AMap (List Token)
  ingress : AMap (List Token)
  egress : AMap (List Token)
  /-- the bytes of a receive stream's packed sequence of coded blocks that make no whole block yet (R112) -/
  packed : AMap (List Byte)
  /-- the readers that have taken the head of a stream, by the stream's source code -/
  taken : AMap (List Nat)
  /-- the residency of ingress stream n, and of egress stream n at 16 + n -/
  streamResid : AMap Nat
  deriving DecidableEq, Repr

def LinkPort.init : LinkPort :=
  { table := 0, peerTime := 0, txSeq := 0, replay := [], resend := [], pendTx := [], ctl := none, rxSeq := 0, naks := [], fails := 0, retrainDue := false
    retraining := false, oSenders := [], fabEn := false, fabErr := false, fabErrs := 0, elems := [], rx := [], ingress := []
    egress := [], packed := [], taken := [], streamResid := [] }

/-- An input of an ordered-class node: its watermark (R277). -/
structure OInput where
  w : Word
  /-- time W last changed, and whether its stall has been reported (R282) -/
  since : Nat
  reported : Bool
  deriving DecidableEq, Repr

def OInput.init : OInput := ⟨0, 0, false⟩

/-- An output of an ordered-class node: the inputs that the route table feeds to it, the streams it leads to, where it leads
(none is the local ejection), and the messages queued for it with the input each came by (R276 to R278). -/
structure OOutput where
  feeds : List Nat
  osns : List Nat
  next : Option (Nat × Nat)
  q : List (Nat × Token)
  lastW : Word
  lastBeacon : Nat
  deriving DecidableEq, Repr

/-- A router or link port that carries ordered traffic (R276 to R278). -/
structure ONode where
  inputs : AMap OInput
  outputs : List OOutput
  deriving DecidableEq, Repr

/-- A message or beacon under way between ordered nodes. -/
structure OFlight where
  node : Nat
  input : Nat
  msg : Option Token
  w : Word
  deriving DecidableEq, Repr

/-- A retirement done or due (R389), and the record of the defect fuses (R385 to R388, R390, R394). -/
structure Fuses where
  tileDefect : NSet
  linkDefect : NSet
  tileRetired : NSet
  linkRetired : NSet
  /-- steps lowered, by physical tile -/
  lowered : AMap Nat
  gcount : Nat
  secVersion : Nat
  rootKey : Nat
  /-- the hash of the owner key, once the module has been taken into use (R394) -/
  ownerKey : Option Nat
  deriving DecidableEq, Repr

/-- An invalidation in progress (R354). -/
structure Inval where
  handle : Nat
  va : Addr
  level : Nat
  deriving DecidableEq, Repr

/-- A choice of the environment: which tile's context issues next, or which event happens (log entry 1). -/
inductive Turn where
  | issue (tile ctx : Nat)
  | event (i : Instr)
  deriving DecidableEq, Repr

/-- Which context the step is about. -/
structure Cur where
  tile : Nat
  ctx : Nat
  deriving DecidableEq, Repr

/-- The state of the module and what lies about it. -/
structure State where
  /-- inputs and choices not yet taken, first first (log entry 1): the model's own field -/
  agenda : List Turn
  /-- whether the next free step tries an event before an instruction: the model's own field -/
  phase : Bool
  /-- steps taken: the argument of the free tick count and of free values: the model's own field -/
  steps : Nat
  cur : Cur
  powered : Bool
  /-- ticks since power-on; the module reference less those ticks, the correction being slewed and since when (R269, R271) -/
  now : Nat
  refOff : Int
  refErr : Int
  refFrom : Nat
  lastWave : Nat
  lastTiming : Nat
  lastEpoch : Nat
  module : Nat
  podRoot : Bool
  tiles : AMap Tile
  /-- global and host memory by physical address (R216) -/
  gmem : Memory
  gpoison : NSet
  /-- 64-bit words of HBM with an error that its ECC corrects, and with one that it cannot (R382; log entry 93) -/
  gerr1 : NSet
  gerr2 : NSet
  /-- versions by line number (R228) -/
  vers : AMap (BitVec 16)
  /-- the pages with the V attribute that have been mapped for the residency of a control block: their versions began at 0 (R228) -/
  vpages : AMap NSet
  chans : AMap Chan
  res : AMap Res
  blocks : AMap Block
  /-- end records that wait for room in the system outlet (R399) -/
  sysWait : List Line
  nextResid : Nat
  inlets : AMap Inlet
  outlets : AMap Outlet
  msien : AMap Word
  wbase : AMap (BitVec 52)
  hostUp : BitVec 2
  groupTab : AMap (Word × Word)
  sweeps : AMap Sweep
  nextSweep : Nat
  rlines : AMap RLine
  nextRLine : Nat
  otable : AMap (List Word)
  onodes : AMap ONode
  oflights : List OFlight
  links : AMap LinkPort
  routes : AMap Word
  fuses : Fuses
  /-- physical tile of each logical position that is live (R15), and the rectangles (R21) -/
  phys : AMap Nat
  rects : List (Nat × Nat × Nat × Nat)
  closedRects : NSet
  letter : BitVec 2
  live : Nat
  bootStage : Nat
  bootFail : Nat
  delsisImg : Firmware
  monitorImg : Firmware
  dispatchImg : Firmware
  keySlots : AMap Nat
  grants : AMap Nat
  droops : AMap Nat
  regulators : AMap Nat
  reports : List (List Byte)
  invals : List Inval
  deadLinks : NSet
  retireDue : List RetireTarget
  /-- tokens still under way of a residency whose region is freed, each with the tile it goes to (R348) -/
  strays : List (Nat × Token)
  deriving DecidableEq, Repr

/-- Why the machine stops. -/
inductive Fault where
  /-- A request, event or instruction needs a device the spec names but does not describe: raised by an access to host
  memory addresses or management offsets whose content the spec does not give. Safe: the hardware goes on. -/
  | undescribedDevice
  deriving DecidableEq, Repr

/-- Why the model has no next state for an instruction. -/
inductive Refusal where
  /-- Raised by exec's arm of an instruction that has no meaning yet. Safe. -/
  | notModelled (mnemonic : String)
  deriving DecidableEq, Repr

def Fuses.init : Fuses := ⟨[], [], [], [], [], 0, 0, 0, none⟩

def Firmware.blank : Firmware := ⟨0, 0, 0, 0⟩

/-- The module right at power-on: the stage before 0x01 of R411, TIME 0 (R269). -/
def State.reset : State :=
  { agenda := [], phase := false, steps := 0, cur := ⟨0, 0⟩, powered := true, now := 0, refOff := 0, refErr := 0, refFrom := 0, lastWave := 0
    lastTiming := 0, lastEpoch := 0, module := 0, podRoot := false, tiles := [], gmem := [], gpoison := [], gerr1 := [], gerr2 := [], vers := [], vpages := []
    chans := [], res := [], blocks := [], sysWait := [], nextResid := 1, inlets := [], outlets := [], msien := []
    wbase := [], hostUp := 0, groupTab := [], sweeps := [], nextSweep := 0, rlines := [], nextRLine := 0, otable := []
    onodes := [], oflights := [], links := [], routes := [], fuses := Fuses.init, phys := [], rects := [], closedRects := []
    letter := 3, live := 0, bootStage := 0, bootFail := 0, delsisImg := Firmware.blank, monitorImg := Firmware.blank
    dispatchImg := Firmware.blank, keySlots := [], grants := [], droops := [], regulators := []
    reports := [], invals := [], deadLinks := [], retireDue := [], strays := [] }

end Sys2Proof.Machine
end

