-- ==== Sys2Proof/Machine/Regs.lean ====
section
/-!
DEFINITION. Reading and writing the registers of a context, the fields of a capability, and finding the tile and context a
step is about (R66, R68, R339, R340, R341).
-/

namespace Sys2Proof.Machine

/-! The tile and the context of the step. -/

def State.tile (s : State) (n : Nat) : Tile := AMap.getD s.tiles n Tile.init

def State.setTile (s : State) (n : Nat) (t : Tile) : State := { s with tiles := AMap.set s.tiles n t }

def Tile.ctx (t : Tile) (n : Nat) : Ctx := AMap.getD t.ctxs n Ctx.init

def Tile.setCtx (t : Tile) (n : Nat) (c : Ctx) : Tile := { t with ctxs := AMap.set t.ctxs n c }

def State.here (s : State) : Tile := s.tile s.cur.tile

def State.setHere (s : State) (t : Tile) : State := s.setTile s.cur.tile t

def State.me (s : State) : Ctx := s.here.ctx s.cur.ctx

def State.setMe (s : State) (c : Ctx) : State := s.setHere (s.here.setCtx s.cur.ctx c)

/-- Contexts 0 to 10 by number; 11 and above name the tasks that wait on the pager, in order (log entry 10). -/
def Tile.slotCtx (t : Tile) (n : Nat) : Ctx :=
  if n < 11 then t.ctx n
  else match t.waiters[n - 11]? with
    | some w => w.ctx
    | none => Ctx.init

def Tile.setSlotCtx (t : Tile) (n : Nat) (c : Ctx) : Tile :=
  if n < 11 then t.setCtx n c
  else match t.waiters[n - 11]? with
    | some w => { t with waiters := setAt t.waiters (n - 11) { w with ctx := c } }
    | none => t

/-- All contexts of a tile with their numbers, waiting tasks included. -/
def Tile.allCtxs (t : Tile) : List (Nat × Ctx) :=
  (upto 11).map (fun n => (n, t.ctx n)) ++ (List.range t.waiters.length).map (fun i => (11 + i, t.slotCtx (11 + i)))

/-- Applies a function to the context that runs a task, wherever it stands (R298, R365). -/
def Tile.updTask (t : Tile) (task : Nat) (f : Ctx → Ctx) : Tile :=
  { t with
    ctxs := AMap.mapVals t.ctxs fun _ c => if c.task = task ∧ c.mode ≠ .free then f c else c
    waiters := t.waiters.map fun w => if w.ctx.task = task then { w with ctx := f w.ctx } else w }

/-- The context that runs a task. -/
def Tile.taskCtx (t : Tile) (task : Nat) : Option Ctx :=
  match (AMap.vals t.ctxs).find? (fun c => c.task = task && decide (c.mode ≠ .free)) with
  | some c => some c
  | none => (t.waiters.find? (fun w => w.ctx.task = task)).map (·.ctx)

/-- The active configuration slot (R54). -/
def Tile.slot (t : Tile) : Slot := AMap.getD t.slots t.active Slot.blank

def Tile.setSlot (t : Tile) (x : Slot) : Tile := { t with slots := AMap.set t.slots t.active x }

def Tile.port (t : Tile) (p : Nat) : Port := AMap.getD t.slot.ports p Port.blank

def Tile.setPort (t : Tile) (p : Nat) (x : Port) : Tile :=
  t.setSlot { t.slot with ports := AMap.set t.slot.ports p x }

def Tile.actor (t : Tile) (a : Nat) : Actor := AMap.getD t.slot.actors a Actor.blank

def Tile.setActor (t : Tile) (a : Nat) (x : Actor) : Tile :=
  t.setSlot { t.slot with actors := AMap.set t.slot.actors a x }

def Tile.stream (t : Tile) (n : Nat) : Stream := AMap.getD t.slot.streams n Stream.blank

def Tile.setStream (t : Tile) (n : Nat) (x : Stream) : Tile :=
  t.setSlot { t.slot with streams := AMap.set t.slot.streams n x }

def Tile.acc (t : Tile) (n : Nat) : Acc := AMap.getD t.accs n Acc.init

def Tile.setAcc (t : Tile) (n : Nat) (x : Acc) : Tile := { t with accs := AMap.set t.accs n x }

/-! Capability fields (R339, R340). -/

def KReg.word (c : KReg) : Word := c.bits.extractLsb' 0 64
def KReg.addr (c : KReg) : Addr := c.bits.extractLsb' 0 48
def KReg.perms (c : KReg) : BitVec 12 := c.bits.extractLsb' 48 12
def KReg.typ (c : KReg) : BitVec 4 := c.bits.extractLsb' 60 4
def KReg.tm (c : KReg) : BitVec 29 := c.bits.extractLsb' 64 29
def KReg.bm (c : KReg) : BitVec 29 := c.bits.extractLsb' 93 29
def KReg.exp (c : KReg) : BitVec 6 := c.bits.extractLsb' 122 6

/-- Sealed(c) (R339). -/
def KReg.isSealed (c : KReg) : Bool := c.typ != 0

/-- Permission bits by their place in bits 59:48 (R339). -/
inductive Perm where
  | r | w | x | ldc | stc | seal | global | tlm
  deriving DecidableEq, Repr

def Perm.bit : Perm → Nat
  | .r => 0 | .w => 1 | .x => 2 | .ldc => 3 | .stc => 4 | .seal => 5 | .global => 6 | .tlm => 7

def KReg.has (c : KReg) (p : Perm) : Bool := c.bits.getLsbD (48 + p.bit)

/-- Base of Decode (R340); below 0 only for an untagged value. -/
def KReg.base (c : KReg) : Int :=
  if 20 < c.exp.toNat then 0
  else
    let am := c.addr.toNat / 2 ^ c.exp.toNat % 2 ^ 29
    let ah := c.addr.toNat / 2 ^ (c.exp.toNat + 29)
    let bh : Int := (ah : Int) - (if am < c.bm.toNat then 1 else 0)
    (bh * 2 ^ 29 + c.bm.toNat) * 2 ^ c.exp.toNat

/-- Top of Decode (R340). -/
def KReg.top (c : KReg) : Int :=
  if 20 < c.exp.toNat then 0 else c.base + c.tm.toNat * 2 ^ c.exp.toNat

/-- Whether an exact address lies in the representable window (R340). -/
def KReg.inWindow (c : KReg) (a : Int) : Bool :=
  decide (c.exp.toNat ≤ 20) && decide (c.base ≤ a) && decide (a < c.base + 2 ^ (c.exp.toNat + 29)) && decide (a < 2 ^ 48)

/-- The value with its address field replaced, the tag kept. -/
def KReg.withAddr (c : KReg) (a : Addr) : KReg :=
  { c with bits := c.bits.extractLsb' 48 80 ++ a }

/-- The value with bits 63:60 replaced (R358). -/
def KReg.withTyp (c : KReg) (t : BitVec 4) : KReg :=
  { c with bits := c.bits.extractLsb' 64 64 ++ t ++ c.bits.extractLsb' 0 60 }

/-- Adding to the address: the tag is kept when the source was tagged and unsealed and the exact new address lies in the
window (R341). -/
def KReg.addAddr (c : KReg) (x : Int) : KReg :=
  let exact := (c.addr.toNat : Int) + x
  { KReg.withAddr c (BitVec.ofInt 48 exact) with tag := c.tag && !c.isSealed && c.inWindow exact }

/-- The least exponent from e on, of n more, whose span fits 29 bits (R357). -/
def leastExp (lo hi : Nat) : Nat → Nat → Nat
  | 0, e => e
  | n + 1, e => if ceilDiv hi (2 ^ e) - lo / 2 ^ e ≤ 2 ^ 29 - 1 then e else leastExp lo hi n (e + 1)

/-- A capability to [base, base + len) at an address, its bounds chosen as CSETB chooses them (R342, R357). -/
def KReg.make (base len : Nat) (perms : List Perm) (a : Addr) : KReg :=
  let p : BitVec 12 := perms.foldl (fun x q => x ||| (1#12 <<< q.bit)) 0
  let e := leastExp base (base + len) 20 0
  { tag := true
    bits := BitVec.ofNat 6 e ++ BitVec.ofNat 29 (base / 2 ^ e) ++ BitVec.ofNat 29 (ceilDiv (base + len) (2 ^ e) - base / 2 ^ e) ++ 0#4 ++ p ++ a }

/-! Registers of a context (R66). -/

/-- k0 reads untagged zero. -/
def Ctx.readK (c : Ctx) (r : BitVec 6) : KReg := if r = 0 then KReg.zero else AMap.getD c.k r.toNat KReg.zero

/-- The 64-bit value of a k operand (R131). -/
def Ctx.readW (c : Ctx) (r : BitVec 6) : Word := (c.readK r).word

/-- A write to k0 is discarded (R66). -/
def Ctx.writeK (c : Ctx) (r : BitVec 6) (x : KReg) : Ctx := if r = 0 then c else { c with k := AMap.set c.k r.toNat x }

/-- WriteInt (R131): bits 63:0, bits 127:64 zero, tag clear. -/
def Ctx.writeInt (c : Ctx) (r : BitVec 6) (v : Word) : Ctx := c.writeK r ⟨false, v.setWidth 128⟩

def Ctx.readV (c : Ctx) (r : Nat) : Line := AMap.getD c.v r 0
def Ctx.writeV (c : Ctx) (r : Nat) (x : Line) : Ctx := { c with v := AMap.set c.v r x }

/-- m0 reads all ones; a write to it is discarded (R66). -/
def Ctx.readM (c : Ctx) (r : Nat) : BitVec 16 := if r = 0 then 0xFFFF else AMap.getD c.m r 0
def Ctx.writeM (c : Ctx) (r : Nat) (x : BitVec 16) : Ctx := if r = 0 then c else { c with m := AMap.set c.m r x }

def Ctx.tagSet (c : Ctx) (t : BitVec 6) : Ctx := { c with tags := c.tags ||| (1#64 <<< t.toNat) }
def Ctx.tagClear (c : Ctx) (t : BitVec 6) : Ctx := { c with tags := c.tags &&& ~~~(1#64 <<< t.toNat) }

def Ctx.pc (c : Ctx) : Addr := c.pcc.addr
def Ctx.setPc (c : Ctx) (a : Addr) : Ctx := { c with pcc := c.pcc.withAddr a }

/-- Whether a k field is below the declared register count; k0 always counts (R68). -/
def Ctx.kOk (c : Ctx) (r : BitVec 6) : Bool := decide (r = 0) || decide (r.toNat < c.regs)

end Sys2Proof.Machine
end

