-- ==== Sys2Proof/Machine/Mem.lean ====
section
/-!
DEFINITION. Tile-local memory: bytes, granule tags, error marks, the check of R147, and global memory with its homes and
side bits (01 R26, 05 R147 to R152, 09 R216 to R219, R228, 15 R381, R382).
-/

namespace Sys2Proof.Machine

/-! Words a range of bytes touches. -/

/-- The addresses of the 64-bit words that [a, a + n) touches. -/
def wordsOf (a n : Nat) : List Nat := if n = 0 then [] else (upto ((a + n - 1) / 8 - a / 8 + 1)).map fun i => (a / 8 + i) * 8

/-- The first word of [a, a + n) that is uncorrectable or poisoned (R152). -/
def Tile.badWord (t : Tile) (a n : Nat) : Option Nat :=
  (wordsOf a n).find? fun w => NSet.mem t.poison w || NSet.mem t.err2 w

/-- What reading [a, a + n) does to the check bits: single-bit errors are corrected, written back and counted; a word with
a double-bit error is marked poisoned and counted (R381). -/
def Tile.touchRead (t : Tile) (a n : Nat) : Tile :=
  let ws := wordsOf a n
  let c := (ws.filter (NSet.mem t.err1)).length
  let u := (ws.filter (NSet.mem t.err2)).length
  if c = 0 && u = 0 then t
  else
    { t with
      err1 := ws.foldl NSet.erase t.err1
      err2 := ws.foldl NSet.erase t.err2
      poison := (ws.filter (NSet.mem t.err2)).foldl NSet.insert t.poison
      corrected := t.corrected + c, uncorrected := t.uncorrected + u }

def Tile.readTlm (t : Tile) (a n : Nat) : Nat := Memory.readN t.tlm a n

/-- The tag bit of the granule at a (R150). -/
def Tile.gtag (t : Tile) (a : Nat) : Bool := NSet.mem t.gtags (a / 16)

/-- Whether the bank of an address is marked executable, by a residency's image or the tile monitor's (R342, R347). -/
def Tile.isExec (t : Tile) (a : Nat) : Bool := (t.exec ||| t.monExec).getLsbD (a / 2 ^ 18 % 16)

/-- Before a store to code: every context keeps fetching the old word until its IFENCE (R267, R347; log entry 14). -/
def Tile.keepStale (t : Tile) (a n : Nat) : Tile :=
  if (wordsOf a n).any t.isExec then
    let ws := (wordsOf a n).flatMap fun w => [w, w + 4]
    { t with ctxs := AMap.mapVals t.ctxs fun _ c =>
        if c.mode = .free then c
        else { c with stale := ws.foldl (fun m w => match AMap.get? m w with
          | some _ => m
          | none => AMap.set m w (BitVec.ofNat 32 (t.readTlm w 4))) c.stale } }
  else t

/-- Writes bytes at a: the touched granules' tags clear, and words written whole get fresh check bits (R150, R152). -/
def Tile.writeTlm (t : Tile) (a : Nat) (bs : List Byte) : Tile :=
  let n := bs.length
  let lo := ceilDiv a 8 * 8
  let hi := (a + n) / 8 * 8
  let t := t.keepStale a n
  { t with
    tlm := Memory.writeBytes t.tlm a bs
    gtags := if n = 0 then t.gtags else NSet.eraseRange t.gtags (a / 16) ((a + n - 1) / 16 + 1)
    poison := NSet.eraseRange t.poison lo hi
    err1 := NSet.eraseRange t.err1 lo hi
    err2 := NSet.eraseRange t.err2 lo hi }

/-- Marks the words of [a, a + n) poisoned (R152). -/
def Tile.poisonTlm (t : Tile) (a n : Nat) : Tile := { t with poison := (wordsOf a n).foldl NSet.insert t.poison }

/-- The 64 bytes at a as a line. -/
def Tile.readLine (t : Tile) (a : Nat) : Line := BitVec.ofNat 512 (t.readTlm a 64)

def lineBytes (x : Line) : List Byte := leBytes 64 x.toNat

def bytesLine (bs : List Byte) : Line := BitVec.ofNat 512 (leNat bs)

def Tile.writeLine (t : Tile) (a : Nat) (x : Line) (poisoned : Bool) : Tile :=
  let t := t.writeTlm a (lineBytes x)
  if poisoned then t.poisonTlm a 64 else t

/-! The check of a TLM access (R147). -/

/-- Whether every bank of [a, a + n) is in a bank set. -/
def inBanks (banks : BitVec 16) (a n : Nat) : Bool :=
  n == 0 || (upto ((a + n - 1) / 2 ^ 18 - a / 2 ^ 18 + 1)).all fun i => banks.getLsbD (a / 2 ^ 18 + i)

/-- A trap code with the value it reports, where a check fails. -/
abbrev Failure := Byte × Word

def codeIllegal : Byte := 0x01
def codeRegRange : Byte := 0x02
def codeCapTag : Byte := 0x03
def codeCapBounds : Byte := 0x04
def codeCapPerm : Byte := 0x05
def codeCapSeal : Byte := 0x06
def codeAlign : Byte := 0x07
def codePageWait : Byte := 0x08
def codePageDenied : Byte := 0x09
def codePortMisuse : Byte := 0x0A
def codeWaitForbidden : Byte := 0x0B
def codePoison : Byte := 0x0C
def codeEcc : Byte := 0x0D
def codeSweepCycle : Byte := 0x10
def codeSweepPartition : Byte := 0x11
def codeOwmStall : Byte := 0x12
def codeWatchdog : Byte := 0x13
def codeNameRange : Byte := 0x14
def codeVersionPassed : Byte := 0x15
def codeBarrierMember : Byte := 0x16
def codeEngineFault : Byte := 0x17
def codePreempt : Byte := 0x18
def codeLengthMismatch : Byte := 0x19
def codeSyscall : Byte := 0x1A
def codeBreak : Byte := 0x1B

/-- The checks of R147 in their order, at address addr over n bytes aligned to `align`; `banks` is GrantInForce, none in
context 0. An access that leaves the 22-bit space fails as a bounds check (R345). -/
def tlmCheck (banks : Option (BitVec 16)) (c : KReg) (addr : Nat) (n align : Nat) (need : List Perm) : Option Failure :=
  let v : Word := BitVec.ofNat 64 addr
  if !c.tag then some (codeCapTag, v)
  else if c.isSealed then some (codeCapSeal, v)
  else if !(c.has .tlm && need.all c.has) then some (codeCapPerm, v)
  else if decide ((addr : Int) < c.base) || decide (c.top < (addr : Int) + n) || decide (2 ^ 22 < addr + n) then
    some (codeCapBounds, v)
  else if (match banks with
    | some b => !inBanks b addr n
    | none => false) then some (codeCapBounds, v)
  else if addr % align != 0 then some (codeAlign, v)
  else none

/-- GrantInForce of the context (R147, R305): none for context 0. A team off its launcher's tile has the launcher's
declared grant less what actors here hold. -/
def grantOf (s : State) (tile : Nat) (c : Ctx) : Option (BitVec 16) :=
  match c.role with
  | .monitor => none
  | .primary | .started => some ((s.tile tile).actor c.actor).inForce
  | .team =>
    let t := s.tile tile
    let sw := AMap.get? s.sweeps ((AMap.get? t.sweepSlots c.sweepSlot).elim 0 (·.sweep))
    match sw with
    | none => some 0
    | some w =>
      if w.tile = tile then some (t.actor c.actor).inForce
      else some (w.grant &&& ~~~((AMap.vals t.slot.actors).foldl (fun b a => b ||| a.inForce) 0))

def addrAdd (c : KReg) (x : Int) : Nat := (((c.addr.toNat : Int) + x) % 2 ^ 48).toNat

/-! Global memory (R216 to R219, R228, R382). -/

/-- Home(L) of an OFFSET (R219). -/
def homeOf (offset : Nat) : Nat :=
  let l := offset / 64
  let g := l / 48
  let r := l % 48
  let w := (g % 64) ^^^ (g / 2 ^ 6 % 64) ^^^ (g / 2 ^ 12 % 64) ^^^ (g / 2 ^ 18 % 64) ^^^ (g / 2 ^ 24 % 32)
  (r + w % 48) % 48

def paModule (pa : PAddr) : Nat := pa.toNat / 2 ^ 46
def paKind (pa : PAddr) : Nat := pa.toNat / 2 ^ 44 % 4
def paOffset (pa : PAddr) : Nat := pa.toNat % 2 ^ 44

/-- The line number of a physical address. -/
def paLine (pa : Nat) : Nat := pa / 64

/-- The words of the lines that [a, a + n) touches. -/
def lineWords (a n : Nat) : List Nat := if n = 0 then [] else wordsOf (a / 64 * 64) ((a + n - 1) / 64 * 64 + 64 - a / 64 * 64)

/-- Whether a read of [a, a + n) of global memory returns POISON: a line of it holds a poisoned word, or an error that ECC does not
correct (R382). -/
def State.gBad (s : State) (a n : Nat) : Bool := (lineWords a n).any fun w => NSet.mem s.gpoison w || NSet.mem s.gerr2 w

def State.gRead (s : State) (a n : Nat) : Nat := Memory.readN s.gmem a n

/-- A store at its home: whole aligned words clear their poison, and get fresh check bits; a narrower store to a poisoned word leaves it
poisoned (R382). -/
def State.gWrite (s : State) (a : Nat) (bs : List Byte) : State :=
  { s with
    gmem := Memory.writeBytes s.gmem a bs
    gpoison := NSet.eraseRange s.gpoison (ceilDiv a 8 * 8) ((a + bs.length) / 8 * 8)
    gerr1 := NSet.eraseRange s.gerr1 (ceilDiv a 8 * 8) ((a + bs.length) / 8 * 8)
    gerr2 := NSet.eraseRange s.gerr2 (ceilDiv a 8 * 8) ((a + bs.length) / 8 * 8) }

def State.gPoison (s : State) (a n : Nat) : State := { s with gpoison := (wordsOf a n).foldl NSet.insert s.gpoison }

def State.gReadLine (s : State) (a : Nat) : Line := BitVec.ofNat 512 (s.gRead a 64)

def State.gWriteLine (s : State) (a : Nat) (x : Line) (poisoned : Bool) : State :=
  let s := s.gWrite a (lineBytes x)
  if poisoned then s.gPoison a 64 else s

/-- The version of a line (R228). -/
def State.version (s : State) (line : Nat) : BitVec 16 := AMap.getD s.vers line 0

end Sys2Proof.Machine
end

