-- ==== Sys2Proof/Machine/Stroke.lean ====
section
/-!
DEFINITION. Tile-name words, and Stroke time: the module reference, a tile's count and its clock edges (01 R21 to R23, 11 R269 to R271).
-/

namespace Sys2Proof.Machine

/-- Whether rectangle r = (row0, col0, height, width) holds the logical position of a tile (R22). -/
def rectHas (r : Nat × Nat × Nat × Nat) (tile : Nat) : Bool :=
  decide (r.1 ≤ tile / 144) && decide (tile / 144 < r.1 + r.2.2.1) && decide (r.2.1 ≤ tile % 144)
    && decide (tile % 144 < r.2.1 + r.2.2.2)

/-- The tile-name word of a logical position; 0 for an unnamed one (R23). -/
def State.tileWord (s : State) (tile : Nat) : Word :=
  match (List.range s.rects.length).find? (fun i => rectHas (nthD s.rects i (0, 0, 0, 0)) tile) with
  | none => 0
  | some i =>
    let r := nthD s.rects i (0, 0, 0, 0)
    BitVec.ofNat 64 (i * 2 ^ 16 + (tile / 144 - r.1) * 2 ^ 8 + (tile % 144 - r.2.1))

/-- The tile at a region-relative row and column. -/
def State.regionTile (s : State) (g : Region) (row col : Nat) : Nat :=
  let r := nthD s.rects g.rect (0, 0, 0, 0)
  (r.1 + g.row + row) * 144 + (r.2.1 + g.col + col)

/-- The part of a correction that slewing at 1/16 has made since a time (R270, R404). -/
def slewed (err : Int) (ticks : Nat) : Int :=
  if 0 ≤ err then min err (ticks / 16 : Nat) else -(min (-err) (ticks / 16 : Nat))

/-- The module reference (R271). -/
def State.refTime (s : State) : Nat := ((s.now : Int) + s.refOff + slewed s.refErr (s.now - s.refFrom)).toNat

/-- The Stroke time of a tile: the integer part of its count (R269, R270). -/
def State.timeOf (s : State) (tile : Nat) : Nat := (s.tile tile).count / 2 ^ 16

/-- n edges of a tile's clock, the last of them now: the period estimate is that of the oscillator since its last edge, and each edge
adds it, raised or lowered by at most 1/16 of it until the error is removed (R270; log entry 7). -/
def Tile.clock (t : Tile) (now n : Nat) : Tile :=
  let p := (now - t.edgeAt) * 2 ^ 16 / n
  let c := slewed t.timeErr (n * p)
  { t with
    count := if n = 0 then t.count else ((t.count + n * p : Nat) + c).toNat
    period := if n = 0 then t.period else p
    timeErr := if n = 0 then t.timeErr else t.timeErr - c
    edgeAt := if n = 0 then t.edgeAt else now }

/-- The edge on which a tile acts, where a cycle has passed since its last one. -/
def Tile.edge (t : Tile) (now : Nat) : Tile := t.clock now (if t.edgeAt + 2 ≤ now then 1 else 0)

/-- How many edges a tile's clock makes up to a time: none while a droop holds it, and else at most one in two ticks, 2.0 GHz (R27;
log entry 7). -/
def Tile.edgesTo (t : Tile) (now free : Nat) : Nat := if t.drooped then 0 else free % ((now - t.edgeAt) / 2 + 1)

end Sys2Proof.Machine
end

