-- ==== Sys2Proof/Machine/ChanOps.lean ====
section
/-!
DEFINITION. Channels: room, putting a token, reserving and filling a slot, credits, and the residency's error counters
(02 R35 to R40, 10 R244, 15 R383).
-/

namespace Sys2Proof.Machine

def State.chan? (s : State) (n : Nat) : Option Chan := AMap.get? s.chans n

/-- A line that the spec does not state. -/
def State.freeLine (s : State) : Line :=
  BitVec.ofNat 512 ((upto 8).foldl (fun n i => n * 2 ^ 64 + (Config.freeWord (8 * s.steps + i)).toNat) 0)

def State.setChan (s : State) (n : Nat) (c : Chan) : State := { s with chans := AMap.set s.chans n c }

def State.resOf (s : State) (h : Nat) : Res := AMap.getD s.res h Res.init

def State.setRes (s : State) (h : Nat) (r : Res) : State := { s with res := AMap.set s.res h r }

def State.updRes (s : State) (h : Nat) (f : Res → Res) : State := s.setRes h (f (s.resOf h))

def State.updErr (s : State) (h : Nat) (f : ErrRec → ErrRec) : State :=
  s.updRes h fun r => { r with err := f r.err }

/-- Something of a residency's region moves (R311). -/
def State.moved (s : State) (h : Nat) : State :=
  match AMap.get? s.res h with
  | none => s
  | some r => s.setRes h { r with wdLast := s.now }

/-- Counts an operator or XE8 error of a residency (R52, R114, R383). -/
def State.countOpErr (s : State) (h : Nat) : State := s.updErr h fun e => { e with operr := sat32 (e.operr + 1) }

/-- Errors corrected, and not, of a residency (R381 to R383). -/
def State.countEcc (s : State) (h corr uncorr : Nat) : State :=
  if corr = 0 ∧ uncorr = 0 then s
  else s.updErr h fun e => { e with corr := sat32 (e.corr + corr), uncorr := sat32 (e.uncorr + uncorr) }

/-- A memory actor reads [a, a + n) for a residency: what its ECC corrects it corrects and counts; a line with an error that it cannot
correct it marks poisoned throughout, and counts (R382). -/
def State.hbmRead (s : State) (h a n : Nat) : State :=
  let ws := lineWords a n
  let c := (ws.filter (NSet.mem s.gerr1)).length
  let u := ((ws.filter (NSet.mem s.gerr2)).map paLine).eraseDups
  if c = 0 ∧ u = [] then s
  else
    ({ s with
        gerr1 := ws.foldl NSet.erase s.gerr1, gerr2 := ws.foldl NSet.erase s.gerr2
        gpoison := (u.flatMap fun l => wordsOf (64 * l) 64).foldl NSet.insert s.gpoison }).countEcc h c u.length

def State.updTile (s : State) (n : Nat) (f : Tile → Tile) : State := s.setTile n (f (s.tile n))

/-- The least of a list of counts; 256 for none. -/
def minRoom (l : List Nat) : Nat := l.foldl min 256

/-- The channel's room: the minimum of its branch counts (R39). -/
def Chan.room (c : Chan) : Nat := minRoom (c.branches.map (·.room))

/-- Channel room of an output port; an ordered output's is the least of its receivers' credits (R39, R274). -/
def State.portRoom (s : State) (tile p : Nat) : Nat :=
  let q := (s.tile tile).port p
  if q.ordered then minRoom q.credits
  else match q.chan.bind s.chan? with
    | some c => c.room
    | none => 256

/-- The ROUND field of a token (R35). -/
def roundField (c : Chan) (k : TokKind) (status : BitVec 16) : BitVec 16 :=
  match k with
  | .data => BitVec.ofNat 16 c.rounds
  | .eos => status
  | _ => 0

/-- An EOS token's payload is its status (R248). -/
def tokenPayload (k : TokKind) (payload : Line) (status : BitVec 16) : Line :=
  if k = .eos then status.setWidth 512 else payload

/-- The token a channel's next put forms (R35). It has the channel's size, an overflow token on a line channel too (R124; DESIGN CHOICE, log
entry 102: the spec checks no size there). -/
def Chan.token (c : Chan) (k : TokKind) (payload : Line) (status : BitVec 16) (seq : Nat) : Token :=
  { kind := k, line := c.line, payload := tokenPayload k payload status, round := roundField c k status, resid := c.resid, seq := seq, port := 0
    scale := 0, ohdr := none }

/-- A token enters the channel: at the fork when there are several branches, else on its branch (R39). -/
def Chan.enter (c : Chan) (f : Flight) : Chan :=
  match c.branches with
  | [b] => { c with branches := [{ b with flights := b.flights ++ [f] }] }
  | _ => { c with forkQ := c.forkQ ++ [f] }

def Chan.takeRoom (c : Chan) : Chan := { c with branches := c.branches.map fun b => { b with room := b.room - 1 } }

/-- Putting one token (R35, R39, R248): it takes the next SEQ and lowers every branch's room by one. -/
def Chan.put (c : Chan) (k : TokKind) (payload : Line) (status : BitVec 16) (after : List (Nat × Nat)) : Chan :=
  let c1 := (c.takeRoom).enter { tok := c.token k payload status c.seq, after := after }
  { c1 with
    seq := c.seq + 1
    rounds := if k = .round then c.rounds + 1 else c.rounds
    closed := c.closed || decide (k = .eos) }

/-- Reserving the next SEQ for a token to be filled in later (R167, R244): its ROUND is fixed by the tokens before it (R35). -/
def Chan.reserve (c : Chan) : Chan := { c.takeRoom with seq := c.seq + 1, reserved := AMap.set c.reserved c.seq c.rounds }

/-- Filling a reserved slot (R167, R244). -/
def Chan.fill (c : Chan) (seq : Nat) (k : TokKind) (payload : Line) : Chan :=
  let at_ := { c with rounds := AMap.getD c.reserved seq c.rounds }
  let c1 := c.enter { tok := at_.token k payload 0 seq, after := [] }
  { c1 with reserved := AMap.erase c.reserved seq }

/-! Ordered outputs (R274, R275, R286). -/

/-- The stamp an ordered message injected now takes (R275, R286). -/
def nextStamp (s : State) (tile : Nat) : Word :=
  let t : Word := BitVec.ofNat 64 (s.timeOf tile)
  if t.toNat ≤ (s.tile tile).lastStamp.toNat then (s.tile tile).lastStamp else t

/-- An ordered message enters the tile's injection port (R275, R277, R286). -/
def injectOrdered (s : State) (tile port : Nat) (k : TokKind) (payload : Line) (status : BitVec 16) : State :=
  let t := s.tile tile
  let p := t.port port
  let st := nextStamp s tile
  let m : Token :=
    { kind := k, line := p.line, payload := tokenPayload k payload status, round := status, resid := t.slot.resid, seq := 0, port := port, scale := 0
      ohdr := some { osn := p.osn, stamp := st, module := s.module, tile := (s.tileWord tile).setWidth 22, seq := t.tileSeq.toNat, port := port } }
  let p1 := { p with lastStamp := st, credits := if k = .eos then p.credits else p.credits.map (· - 1) }
  let t1 := t.setPort port p1
  s.setTile tile { t1 with lastStamp := st, tileSeq := t.tileSeq + 1, inject := t1.inject ++ [m] }

/-- A put on an ordered output takes the next place, with its token or for one still to come (R167, R244, R286). -/
def State.book (s : State) (tile p : Nat) (x : Option (TokKind × Line × BitVec 16)) : State :=
  s.updTile tile fun t =>
    let q := t.port p
    t.setPort p { q with booked := q.booked ++ [(q.oseq, x)], oseq := q.oseq + 1 }

/-- What stands first among the places of an ordered output, with its token known, is injected. -/
def State.injectBooked (tile p : Nat) : Nat → State → State
  | 0, s => s
  | n + 1, s => match ((s.tile tile).port p).booked with
    | (_, some (k, payload, status)) :: rest =>
      State.injectBooked tile p n
        (injectOrdered (s.updTile tile fun t => t.setPort p { t.port p with booked := rest }) tile p k payload status)
    | _ => s

/-- Every place that has become known, up to the first that has not. -/
def State.sendBooked (s : State) (tile p : Nat) : State := State.injectBooked tile p ((s.tile tile).port p).booked.length s

/-- The token of a place. -/
def State.fillBooked (s : State) (tile p seq : Nat) (k : TokKind) (payload : Line) : State :=
  (s.updTile tile fun t =>
    let q := t.port p
    t.setPort p { q with booked := q.booked.map fun b => if b.1 = seq then (seq, some (k, payload, 0)) else b }).sendBooked tile p

/-- A put on an output port of a tile: a token of its channel, or a message of its ordered stream. A put on a port that sources neither
goes nowhere. -/
def State.putPort (s : State) (tile p : Nat) (k : TokKind) (payload : Line) (status : BitVec 16)
    (after : List (Nat × Nat)) : State :=
  let q := (s.tile tile).port p
  let s1 := if k = .eos then s.updTile tile fun t => t.setPort p { q with closed := true } else s
  if q.ordered then (s1.book tile p (some (k, payload, status))).sendBooked tile p
  else match q.chan with
    | none => s1
    | some n => match s1.chan? n with
      | none => s1
      | some c => s1.setChan n (c.put k payload status after)

/-- The next place on an output, for a token to come, and its number (R167, R244). -/
def State.reservePort (s : State) (tile p : Nat) : State × Option Nat :=
  let q := (s.tile tile).port p
  if q.ordered then (s.book tile p none, some q.oseq)
  else match q.chan with
    | none => (s, none)
    | some n => match s.chan? n with
      | none => (s, none)
      | some c => (s.setChan n c.reserve, some c.seq)

/-- The token of a reserved place (R167, R244). -/
def State.fillPort (s : State) (tile p seq : Nat) (k : TokKind) (payload : Line) : State :=
  let q := (s.tile tile).port p
  if q.ordered then s.fillBooked tile p seq k payload
  else match q.chan with
    | none => s
    | some n => match s.chan? n with
      | none => s
      | some c => s.setChan n (c.fill seq k payload)

/-- The completion port of an actor (R78). -/
def Tile.complPort (t : Tile) (actor : Nat) : Option Nat :=
  (t.slot.ports.find? fun p => p.2.declared && p.2.output && p.2.compl && p.2.actor == actor).map (·.1)

/-- A completion token: DATA with the tag number (R78). One that falls due while a snapshot holds the actor is put after the restore: no
token put after the cut exists (R374; log entry 92). -/
def State.sendCompletion (s : State) (tile actor : Nat) (tag : BitVec 6) : State :=
  match (s.tile tile).complPort actor with
  | none => s
  | some p =>
    let a := (s.tile tile).actor actor
    if a.held then s.updTile tile fun t => t.setActor actor { a with owed := a.owed ++ [tag] }
    else s.putPort tile p .data (tag.setWidth 512) 0 []

/-- n freed slots of a branch, whose credits are to return (R39, R45). -/
def State.freeSlots (s : State) (chan branch n : Nat) : State :=
  match s.chan? chan with
  | none => s
  | some c => match c.branches[branch]? with
    | none => s
    | some b => s.setChan chan { c with branches := setAt c.branches branch { b with back := b.back + n } }

/-- The free slots of a residency's fault port, while the dispatcher may place tokens there (R376, R384). -/
def faultFree (s : State) (h : Nat) (f : Word) : Nat :=
  let r := s.resOf h
  match (if r.state = .running ∧ !r.faultHold then r.region else none) with
  | none => 0
  | some g =>
    let x := (s.tile (s.regionTile g (f.extractLsb' 16 8).toNat (f.extractLsb' 8 8).toNat)).port (f.extractLsb' 24 5).toNat
    x.depth - x.q.length

/-- A fault token of a residency: placed behind the others, up to 64 beyond what the queue has room for, or counted as dropped; after the
fault port's EOS none is sent (R384). -/
def State.faultToken (s : State) (h : Nat) (w : Word) : State :=
  let r := s.resOf h
  let f := (r.image.map fun ws => nthD ws 3 0).getD 0
  if f.getLsbD 3 && !r.faultEos && decide (r.faultQ.length < 64 + faultFree s h f) then s.updRes h fun r => { r with faultQ := r.faultQ ++ [w] }
  else s.updErr h fun e => { e with faultdrop := sat32 (e.faultdrop + 1) }

end Sys2Proof.Machine
end

