-- ==== Sys2Proof/Machine/Float.lean ====
section
/-!
DEFINITION. The arithmetic promise: formats, exact values, the one rounding, overflow, conversions, seeds, XE8 and W48
(04 R105 to R130).
-/

namespace Sys2Proof.Machine

/-- Rounding modes (R74, R118). -/
inductive RMode where
  | rne | rtz | rup | rdn | rna
  deriving DecidableEq, Repr

/-- The mode of an rm or RM code 1 to 5. -/
def RMode.ofCode (c : Nat) : RMode :=
  match c with
  | 2 => .rtz
  | 3 => .rup
  | 4 => .rdn
  | 5 => .rna
  | _ => .rne

/-- How a format uses its all-ones exponent (R107). -/
inductive FKind where
  | ieee | e4m3 | e2m1
  deriving DecidableEq, Repr

/-- A floating-point format: exponent bits, fraction bits, bias (R107, R116). -/
structure Fmt where
  kind : FKind
  eb : Nat
  fb : Nat
  bias : Nat
  deriving DecidableEq, Repr

def Fmt.f32 : Fmt := ⟨.ieee, 8, 23, 127⟩
def Fmt.f16 : Fmt := ⟨.ieee, 5, 10, 15⟩
def Fmt.bf16 : Fmt := ⟨.ieee, 8, 7, 127⟩
def Fmt.e4m3 : Fmt := ⟨.e4m3, 4, 3, 7⟩
def Fmt.e5m2 : Fmt := ⟨.ieee, 5, 2, 15⟩
def Fmt.e2m1 : Fmt := ⟨.e2m1, 2, 1, 1⟩
/-- W48 without its five reserved container bits (R116). -/
def Fmt.w48 : Fmt := ⟨.ieee, 11, 47, 1023⟩

def Fmt.width (f : Fmt) : Nat := 1 + f.eb + f.fb

/-- The canonical NaN (R107); E2M1 has none and reads 0. -/
def Fmt.nan (f : Fmt) : Nat :=
  match f.kind with
  | .ieee => (2 ^ f.eb - 1) * 2 ^ f.fb + 2 ^ (f.fb - 1)
  | .e4m3 => 0x7F
  | .e2m1 => 0

def Fmt.infBits (f : Fmt) : Nat := (2 ^ f.eb - 1) * 2 ^ f.fb

/-- The bits of the largest finite magnitude. -/
def Fmt.maxBits (f : Fmt) : Nat :=
  match f.kind with
  | .ieee => (2 ^ f.eb - 1) * 2 ^ f.fb - 1
  | .e4m3 => 0x7E
  | .e2m1 => 7

def Fmt.signBit (f : Fmt) : Nat := 2 ^ (f.eb + f.fb)

/-- An exact value: fin s m e is (−1)^s × m × 2^e (R108). -/
inductive FVal where
  | nan (signalling : Bool)
  | inf (neg : Bool)
  | fin (neg : Bool) (mag : Nat) (e : Int)
  deriving DecidableEq, Repr

/-- The value an element's bits denote (R108); with daz a subnormal reads as zero of its sign (R120). -/
def Fmt.decode (f : Fmt) (daz : Bool) (bits : Nat) : FVal :=
  let s := decide (f.signBit ≤ bits)
  let ex := bits / 2 ^ f.fb % 2 ^ f.eb
  let fr := bits % 2 ^ f.fb
  let top := 2 ^ f.eb - 1
  if f.kind = .ieee && ex == top then
    if fr = 0 then .inf s else .nan (decide (fr < 2 ^ (f.fb - 1)))
  else if f.kind = .e4m3 && ex == top && fr == 7 then .nan false
  else if ex = 0 then .fin s (if daz then 0 else fr) (1 - (f.bias : Int) - f.fb)
  else .fin s (fr + 2 ^ f.fb) ((ex : Int) - f.bias - f.fb)

/-- FPC flags NV, DZ, OF, UF, NX in bits 4 to 0 (R117). -/
abbrev Flags := BitVec 5
def Flags.nv : Flags := 16
def Flags.dz : Flags := 8
def Flags.ovf : Flags := 4
def Flags.uf : Flags := 2
def Flags.nx : Flags := 1

/-- mag × 2^e rounded to an integer multiple of 2^u: the multiple, and whether it is inexact (R118). -/
def roundQ (mode : RMode) (neg : Bool) (mag : Nat) (e u : Int) : Nat × Bool :=
  if u ≤ e then (mag * 2 ^ (e - u).toNat, false)
  else
    let d := (u - e).toNat
    let q := mag / 2 ^ d
    let r := mag % 2 ^ d
    let half := 2 ^ (d - 1)
    let up := match mode with
      | .rne => decide (half < r) || (r == half && q % 2 == 1)
      | .rna => decide (half ≤ r)
      | .rtz => false
      | .rup => !neg && r != 0
      | .rdn => neg && r != 0
    (if up then q + 1 else q, r != 0)

/-- Whether m1 × 2^e1 < m2 × 2^e2. -/
def dyLt (m1 : Nat) (e1 : Int) (m2 : Nat) (e2 : Int) : Bool :=
  if e1 ≤ e2 then decide (m1 < m2 * 2 ^ (e2 - e1).toNat) else decide (m1 * 2 ^ (e1 - e2).toNat < m2)

/-- What a rounding delivers: bits, flags, and whether a row of R123 replaced the result. -/
structure Rounded where
  bits : Nat
  flags : Flags
  ovr : Bool
  deriving DecidableEq, Repr

def Fmt.withSign (f : Fmt) (neg : Bool) (b : Nat) : Nat := if neg then f.signBit + b else b

/-- R123 for a finite exact result beyond the largest finite magnitude. -/
def Fmt.overflow (f : Fmt) (mode : RMode) (sat neg : Bool) : Nat :=
  match f.kind with
  | .e2m1 => f.withSign neg f.maxBits
  | .e4m3 => if sat then f.withSign neg f.maxBits else f.nan
  | .ieee =>
    let toInf := match mode with
      | .rne | .rna => true
      | .rtz => false
      | .rup => !neg
      | .rdn => neg
    f.withSign neg (if !sat && toInf then f.infBits else f.maxBits)

/-- Round(x, F, mode) of R118 with the overflow row of R123 and FTZ of R120. -/
def Fmt.round (f : Fmt) (mode : RMode) (sat ftz : Bool) (x : FVal) : Rounded :=
  match x with
  | .nan _ => ⟨f.nan, 0, false⟩
  | .inf neg =>
    match f.kind with
    | .ieee => if sat then ⟨f.withSign neg f.maxBits, Flags.nx, true⟩ else ⟨f.withSign neg f.infBits, 0, false⟩
    | .e4m3 => ⟨if sat then f.withSign neg f.maxBits else f.nan, Flags.nx, true⟩
    | .e2m1 => ⟨f.withSign neg f.maxBits, Flags.nx, true⟩
  | .fin neg mag e =>
    if mag = 0 then ⟨f.withSign neg 0, 0, false⟩
    else
      let top : Int := (Nat.log2 mag : Int) + e
      let (q, inex) := roundQ mode neg mag e (top - f.fb)
      let top' : Int := if q = 2 ^ (f.fb + 1) then top + 1 else top
      let emin : Int := 1 - (f.bias : Int)
      if top' < emin then
        if ftz then ⟨f.withSign neg 0, Flags.uf ||| Flags.nx, false⟩
        else
          let (q', inex') := roundQ mode neg mag e (emin - f.fb)
          ⟨f.withSign neg q', if inex' then Flags.uf ||| Flags.nx else 0, false⟩
      else
        let frac := if q = 2 ^ (f.fb + 1) then 2 ^ f.fb else q
        let bits := ((top' + f.bias - 1).toNat) * 2 ^ f.fb + frac
        if f.maxBits < bits then ⟨f.overflow mode sat neg, Flags.ovf ||| Flags.nx, true⟩
        else ⟨f.withSign neg bits, if inex then Flags.nx else 0, false⟩

/-! Exact arithmetic on values. -/

def FVal.neg : FVal → FVal
  | .nan s => .nan s
  | .inf n => .inf (!n)
  | .fin n m e => .fin (!n) m e

def FVal.isNan : FVal → Bool
  | .nan _ => true
  | _ => false

def FVal.isSnan : FVal → Bool
  | .nan s => s
  | _ => false

/-- The signed mantissa at exponent e' ≤ e. -/
def dyInt (neg : Bool) (m : Nat) (e e' : Int) : Int :=
  let v : Int := (m : Int) * 2 ^ (e - e').toNat
  if neg then -v else v

/-- The exact sum of two values that are not NaN, and whether it is ∞ − ∞; a zero sum of opposite signs is +0, or −0 under
RDN (R118). -/
def FVal.add (mode : RMode) (x y : FVal) : FVal × Bool :=
  match x, y with
  | .nan s, _ => (.nan s, false)
  | _, .nan s => (.nan s, false)
  | .inf a, .inf b => if a = b then (.inf a, false) else (.nan false, true)
  | .inf a, _ => (.inf a, false)
  | _, .inf b => (.inf b, false)
  | .fin a m e, .fin b n g =>
    let lo := if e ≤ g then e else g
    let v := dyInt a m e lo + dyInt b n g lo
    if v = 0 then
      (.fin (if a = b then a else decide (mode = .rdn)) 0 lo, false)
    else (.fin (decide (v < 0)) v.natAbs lo, false)

/-- The exact product of two values, and whether it is 0 × ∞. -/
def FVal.mul (x y : FVal) : FVal × Bool :=
  match x, y with
  | .nan s, _ => (.nan s, false)
  | _, .nan s => (.nan s, false)
  | .inf a, .inf b => (.inf (a != b), false)
  | .inf a, .fin b n _ => if n = 0 then (.nan false, true) else (.inf (a != b), false)
  | .fin a m _, .inf b => if m = 0 then (.nan false, true) else (.inf (a != b), false)
  | .fin a m e, .fin b n g => (.fin (a != b) (m * n) (e + g), false)

def FVal.scale (x : FVal) (k : Int) : FVal :=
  match x with
  | .fin n m e => .fin n m (e + k)
  | y => y

/-- Round of an exact result with the NV of an invalid operation (R120, R121). -/
def finish (f : Fmt) (mode : RMode) (sat ftz invalid : Bool) (x : FVal) : Nat × Flags :=
  if invalid then (f.nan, Flags.nv)
  else
    let r := f.round mode sat ftz x
    (r.bits, r.flags)

/-- x + y rounded once (R163, R164). -/
def fAdd (f : Fmt) (mode : RMode) (sat ftz daz : Bool) (a b : Nat) : Nat × Flags :=
  let x := f.decode daz a
  let y := f.decode daz b
  if x.isSnan || y.isSnan then (f.nan, Flags.nv)
  else if x.isNan || y.isNan then (f.nan, 0)
  else
    let (z, bad) := FVal.add mode x y
    finish f mode sat ftz bad z

def fNegBits (f : Fmt) (a : Nat) : Nat := if f.signBit ≤ a then a - f.signBit else a + f.signBit

/-- x − y is x + (−y). -/
def fSub (f : Fmt) (mode : RMode) (sat ftz daz : Bool) (a b : Nat) : Nat × Flags :=
  fAdd f mode sat ftz daz a (fNegBits f b)

def fMul (f : Fmt) (mode : RMode) (sat ftz daz : Bool) (a b : Nat) : Nat × Flags :=
  let x := f.decode daz a
  let y := f.decode daz b
  if x.isSnan || y.isSnan then (f.nan, Flags.nv)
  else if x.isNan || y.isNan then (f.nan, 0)
  else
    let (z, bad) := FVal.mul x y
    finish f mode sat ftz bad z

/-- ±(x × y) ± z with one rounding: np negates the product, nz the addend (R163, R164). -/
def fFma (f : Fmt) (mode : RMode) (sat ftz daz np nz : Bool) (a b c : Nat) : Nat × Flags :=
  let x := f.decode daz a
  let y := f.decode daz b
  let z0 := f.decode daz c
  let z := if nz then z0.neg else z0
  if x.isSnan || y.isSnan || z.isSnan then (f.nan, Flags.nv)
  else
    let (p0, bad) := FVal.mul x y
    if bad then (f.nan, Flags.nv)
    else if p0.isNan || z.isNan then (f.nan, 0)
    else
      let (r, bad') := FVal.add mode (if np then p0.neg else p0) z
      finish f mode sat ftz bad' r

/-- Whether x < y as numbers, with −0 below +0 when `zeros` (R121). -/
def FVal.lt (zeros : Bool) (x y : FVal) : Bool :=
  match x, y with
  | .nan _, _ => false
  | _, .nan _ => false
  | .inf a, .inf b => a && !b
  | .inf a, .fin .. => a
  | .fin .., .inf b => !b
  | .fin a m e, .fin b n g =>
    if m = 0 && n = 0 then zeros && a && !b
    else
      let lo := if e ≤ g then e else g
      decide (dyInt a m e lo < dyInt b n g lo)

/-- The bits an operand is read as: under daz a subnormal is a zero of its sign (R164). -/
def Fmt.asRead (f : Fmt) (daz : Bool) (a : Nat) : Nat :=
  if daz && (a / 2 ^ f.fb % 2 ^ f.eb == 0) then (if f.signBit ≤ a then f.signBit else 0) else a

/-- minimumNumber, or maximumNumber when mx (R121, R164). -/
def fMinMax (f : Fmt) (daz mx : Bool) (a b : Nat) : Nat × Flags :=
  let x := f.decode daz a
  let y := f.decode daz b
  if x.isSnan || y.isSnan then (f.nan, Flags.nv)
  else if x.isNan && y.isNan then (f.nan, 0)
  else if x.isNan then (f.asRead daz b, 0)
  else if y.isNan then (f.asRead daz a, 0)
  else
    let pickB := if mx then FVal.lt true x y else FVal.lt true y x
    (f.asRead daz (if pickB then b else a), 0)

/-! Element types (R75, R157). -/

inductive ElemTy where
  | int (signed : Bool) (w : Nat)
  | flt (f : Fmt)
  deriving DecidableEq, Repr

/-- The types of ELEM by code (R75, R157). -/
def elemTy (c : BitVec 4) : Option ElemTy :=
  match c.toNat with
  | 1 => some (.int true 8)
  | 2 => some (.int false 8)
  | 3 => some (.int true 16)
  | 4 => some (.int false 16)
  | 5 => some (.int true 32)
  | 6 => some (.int false 32)
  | 7 => some (.flt .f32)
  | 8 => some (.flt .f16)
  | 9 => some (.flt .bf16)
  | 10 => some (.flt .e4m3)
  | 11 => some (.flt .e5m2)
  | 14 => some (.int true 64)
  | 15 => some (.int false 64)
  | _ => none

def ElemTy.width : ElemTy → Nat
  | .int _ w => w
  | .flt f => f.width

/-- The width an etype code gives; the untyped code counts as 32 bits (R155). -/
def widthOf (c : BitVec 4) : Nat := match elemTy c with
  | some t => t.width
  | none => 32

def isSigned (c : BitVec 4) : Bool := match elemTy c with
  | some (.int s _) => s
  | _ => false

def fmtOf (c : BitVec 4) : Fmt := match elemTy c with
  | some (.flt f) => f
  | _ => .f32

/-- The integer that w bits denote. -/
def intVal (signed : Bool) (w : Nat) (x : Nat) : Int :=
  if signed && decide (2 ^ (w - 1) ≤ x) then (x : Int) - 2 ^ w else x

/-- The w bits of an integer, modulo 2^w (R105). -/
def wrapInt (w : Nat) (v : Int) : Nat := (v % 2 ^ w).toNat

def intMin (signed : Bool) (w : Nat) : Int := if signed then -(2 ^ (w - 1)) else 0
def intMax (signed : Bool) (w : Nat) : Int := if signed then 2 ^ (w - 1) - 1 else 2 ^ w - 1

/-- The integer clamped to the range of the type, and whether that changed it (R105). -/
def clampInt (signed : Bool) (w : Nat) (v : Int) : Int × Bool :=
  if v < intMin signed w then (intMin signed w, true)
  else if intMax signed w < v then (intMax signed w, true)
  else (v, false)

/-- Convert of R166: bits, flags, overflowed. Whether a value lies outside an integer's range is judged of the rounded value (DESIGN
CHOICE, log entry 96). -/
def convert (mode : RMode) (sat ftz daz : Bool) (src dst : ElemTy) (x : Nat) : Rounded :=
  match src, dst with
  | .flt f, .flt g =>
    let v := f.decode daz x
    if v.isSnan then ⟨g.nan, Flags.nv, false⟩ else g.round mode sat ftz v
  | .flt f, .int s w =>
    match f.decode daz x with
    | .nan _ => ⟨0, Flags.nv, false⟩
    | .inf neg => ⟨wrapInt w (if neg then intMin s w else intMax s w), Flags.nv, true⟩
    | .fin neg m e =>
      let (q, inex) := roundQ mode neg m e 0
      let v : Int := if neg then -(q : Int) else q
      let (v', out) := clampInt s w v
      ⟨wrapInt w v', if out then Flags.nv else if inex then Flags.nx else 0, out⟩
  | .int s w, .flt g =>
    let v := intVal s w x
    g.round mode sat ftz (.fin (decide (v < 0)) v.natAbs 0)
  | .int s w, .int s' w' =>
    let v := intVal s w x
    if sat then
      let (v', out) := clampInt s' w' v
      ⟨wrapInt w' v', 0, out⟩
    else ⟨wrapInt w' v, 0, false⟩

/-! Seed functions (R128 to R130). -/

/-- The integer square root: bit k − 1 down to bit 0 of a root below 2^k. -/
def isqrtBits (n : Nat) : Nat → Nat → Nat
  | 0, r => r
  | k + 1, r => if (r + 2 ^ k) * (r + 2 ^ k) ≤ n then isqrtBits n k (r + 2 ^ k) else isqrtBits n k r

/-- Round20Sig(1 / √(n / 128)) × 2^20, for n from 128 to 512. -/
def rsqrt20 (n : Nat) : Nat :=
  let q := isqrtBits (2 ^ 47 / n) 22 0
  if (2 * q + 1) * (2 * q + 1) * n < 2 ^ 49 then q + 1 else q

/-- Round20Sig(256 / n) × 2^20, for n from 256 to 512. -/
def rcp20 (n : Nat) : Nat := (2 ^ 29 / n + 1) / 2

/-- The greatest r below 2^k more than r0 with r^256 ≤ n. -/
def root256 (n : Nat) : Nat → Nat → Nat
  | 0, r => r
  | k + 1, r => if (r + 2 ^ k) ^ 256 ≤ n then root256 n k (r + 2 ^ k) else root256 n k r

/-- Round20Sig(2^(j / 256)) × 2^19, for j from 0 to 256. -/
def exp20 (j : Nat) : Nat :=
  let q := root256 (2 ^ (j + 4864)) 21 0
  if (2 * q + 1) ^ 256 < 2 ^ (j + 5120) then q + 1 else q

/-- The next `k` bits after the point of log2 of x × 2^−160, x × 2^−160 in [1, 2), appended to `acc`. -/
def log2Bits : Nat → Nat → Nat → Nat
  | 0, _, acc => acc
  | k + 1, x, acc =>
    let y := x * x / 2 ^ 160
    if 2 ^ 161 ≤ y then log2Bits k (y / 2) (2 * acc + 1) else log2Bits k y (2 * acc)

/-- Round20Sig(Log2(n / 256)) as a multiple of 2^−61, for n from 256 to 512. -/
def log20 (n : Nat) : Nat :=
  if n = 256 then 0
  else if n = 512 then 2 ^ 61
  else
    let v := 2 * log2Bits 60 (n * 2 ^ 152) 0 + 1
    let u := Nat.log2 v - 19
    (roundQ .rne false v 0 u).1 * 2 ^ u

/-- RoundSig(m × 2^e, 17, RNE). -/
def roundSig17 (m : Nat) (e : Int) : Nat × Int :=
  let u : Int := (Nat.log2 m : Int) + e - 16
  ((roundQ .rne false m e u).1, u)

/-- y0 + (y1 − y0) × t / 4096, scaled by 4096. -/
def interp (y0 y1 t : Nat) : Nat := ((y0 : Int) * 4096 + ((y1 : Int) - y0) * t).toNat

/-- Decompose: E and the 23-bit F of a magnitude m × 2^e ≠ 0 of at most 24 bits (R128). -/
def decompose (m : Nat) (e : Int) : Int × Nat :=
  let l := Nat.log2 m
  ((l : Int) + e, m * 2 ^ (23 - l) - 2 ^ 23)

inductive SeedFn where
  | rsqrt | rcp | exp2 | log2
  deriving DecidableEq, Repr

def seedRsqrt (m : Nat) (e : Int) : FVal :=
  let (E, F) := decompose m e
  let p := (E % 2).toNat
  let j := F / 2 ^ 16
  let t := F / 16 % 4096
  let n := 2 ^ p * (128 + j)
  let (y, u) := roundSig17 (interp (rsqrt20 n) (rsqrt20 (n + 2 ^ p)) t) (-32)
  .fin false y (u - (E - p) / 2)

def seedRcp (neg : Bool) (m : Nat) (e : Int) : FVal :=
  let (E, F) := decompose m e
  let j := F / 2 ^ 15
  let t := F / 8 % 4096
  let (y, u) := roundSig17 (interp (rcp20 (256 + j)) (rcp20 (257 + j)) t) (-32)
  .fin neg y (u - E)

/-- Floor and remainder of ±m × 2^e at 20 fraction bits: the floor, and Floor of the fraction × 2^20. -/
def floorFrac (neg : Bool) (m : Nat) (e : Int) : Int × Nat :=
  let v : Int := if neg then -(m : Int) else m
  let k := (-e).toNat
  if 0 ≤ e then (v * 2 ^ e.toNat, 0)
  else
    let n := v / 2 ^ k
    (n, ((v - n * 2 ^ k) * 2 ^ 20 / 2 ^ k).toNat)

def seedExp2 (neg : Bool) (m : Nat) (e : Int) : FVal :=
  let (n, q) := floorFrac neg m e
  let j := q / 4096
  let t := q % 4096
  let (y, u) := roundSig17 (interp (exp20 j) (exp20 (j + 1)) t) (-31)
  .fin false y (u + n)

def seedLog2 (m : Nat) (e : Int) : FVal :=
  let (E, F) := decompose m e
  let j := F / 2 ^ 15
  let t := F / 8 % 4096
  let z := (roundQ .rne false (interp (log20 (256 + j)) (log20 (257 + j)) t) (-73) (-16)).1
  let v : Int := E * 2 ^ 16 + z
  .fin (decide (v < 0)) v.natAbs (-16)

/-- The FP32 seed of a value with the flags of R130; the finite results are rounded with RNE, and NX is never set. -/
def seed32 (fn : SeedFn) (ftz : Bool) (x : FVal) : Nat × Flags :=
  let out := fun (y : FVal) =>
    let r := Fmt.f32.round .rne false ftz y
    (r.bits, r.flags &&& (Flags.ovf ||| Flags.uf))
  match x with
  | .nan s => (Fmt.f32.nan, if s then Flags.nv else 0)
  | .inf neg =>
    match fn with
    | .rsqrt => if neg then (Fmt.f32.nan, Flags.nv) else (0, 0)
    | .rcp => (Fmt.f32.withSign neg 0, 0)
    | .exp2 => if neg then (0, 0) else (Fmt.f32.infBits, 0)
    | .log2 => if neg then (Fmt.f32.nan, Flags.nv) else (Fmt.f32.infBits, 0)
  | .fin neg m e =>
    if m = 0 then
      match fn with
      | .rsqrt => (Fmt.f32.withSign neg Fmt.f32.infBits, Flags.dz)
      | .rcp => (Fmt.f32.withSign neg Fmt.f32.infBits, Flags.dz)
      | .exp2 => (0x3F800000, 0)
      | .log2 => (Fmt.f32.withSign true Fmt.f32.infBits, Flags.dz)
    else
      match fn with
      | .rsqrt => if neg then (Fmt.f32.nan, Flags.nv) else out (seedRsqrt m e)
      | .rcp => out (seedRcp neg m e)
      | .exp2 =>
        if !neg && !dyLt m e 1 7 then (Fmt.f32.infBits, Flags.ovf)
        else if neg && dyLt 150 0 m e then (0, Flags.uf)
        else out (seedExp2 neg m e)
      | .log2 => if neg then (Fmt.f32.nan, Flags.nv) else out (seedLog2 m e)

/-- A seed of an element of FLT (R128, R165). -/
def seed (fn : SeedFn) (f : Fmt) (ftz daz : Bool) (a : Nat) : Nat × Flags :=
  let (b, fl) := seed32 fn ftz (f.decode daz a)
  if f = .f32 then (b, fl)
  else
    let r := f.round .rne false ftz (Fmt.f32.decode false b)
    (r.bits, fl ||| (r.flags &&& (Flags.ovf ||| Flags.uf)))

/-! XE8 (R112 to R115). -/

/-- Stream bit k of a byte string (R112). -/
def xe8Bit (bs : List Byte) (k : Nat) : Bool := (nthD bs (k / 8) 0).getLsbD (7 - k % 8)

/-- n stream bits from k, most significant first. -/
def xe8Bits (bs : List Byte) (k : Nat) : Nat → Nat
  | 0 => 0
  | n + 1 => 2 * xe8Bits bs k n + (if xe8Bit bs (k + n) then 1 else 0)

/-- One exponent code at stream bit k with base b: the exponent and the bits it takes (R113). -/
def xe8Code (bs : List Byte) (k : Nat) (b : Int) : Int × Nat :=
  if !xe8Bit bs k then (b, 1)
  else if !xe8Bit bs (k + 1) then (if xe8Bit bs (k + 2) then b + 1 else b - 1, 3)
  else if !xe8Bit bs (k + 2) then (if xe8Bit bs (k + 3) then b + 2 else b - 2, 4)
  else if !xe8Bit bs (k + 3) then (if xe8Bit bs (k + 4) then b + 3 else b - 3, 5)
  else if !xe8Bit bs (k + 4) then (if xe8Bit bs (k + 5) then b + 4 else b - 4, 6)
  else ((xe8Bits bs (k + 5) 4 : Int), 9)

def xe8Codes (bs : List Byte) (b : Int) : Nat → Nat → List Int → List Int × Nat
  | 0, k, acc => (acc.reverse, k)
  | n + 1, k, acc =>
    let (e, l) := xe8Code bs k b
    xe8Codes bs b n (k + l) (e :: acc)

/-- A decoded XE8 block: scale, 32 E4M3 elements, the block's length in bytes, and whether every exponent is 0 to 15. -/
structure Xe8 where
  scale : Byte
  elems : List Nat
  len : Nat
  ok : Bool
  deriving DecidableEq, Repr

def xe8Decode (bs : List Byte) : Xe8 :=
  let b := xe8Bits bs 8 4
  let (es, k) := xe8Codes bs b 32 12 []
  let groups := (upto 32).map fun i => xe8Bits bs (k + 4 * i) 4
  { scale := nthD bs 0 0
    elems := (es.zip groups).map fun p => (p.2 / 8) * 128 + (p.1 % 16).toNat * 8 + p.2 % 8
    len := ceilDiv (k + 128) 8
    ok := es.all fun e => decide (0 ≤ e) && decide (e < 16) }

/-- n bits of x, most significant first. -/
def bitsMsb (x : Nat) : Nat → List Bool
  | 0 => []
  | n + 1 => x.testBit n :: bitsMsb x n

/-- The code of exponent e against base b (R113, R115). -/
def xe8Enc (b e : Nat) : List Bool :=
  if e = b then [false]
  else if e + 1 = b then [true, false, false]
  else if e = b + 1 then [true, false, true]
  else if e + 2 = b then [true, true, false, false]
  else if e = b + 2 then [true, true, false, true]
  else if e + 3 = b then [true, true, true, false, false]
  else if e = b + 3 then [true, true, true, false, true]
  else if e + 4 = b then [true, true, true, true, false, false]
  else if e = b + 4 then [true, true, true, true, false, true]
  else [true, true, true, true, true] ++ bitsMsb e 4

/-- The most frequent exponent field, ties to the smaller (R115). -/
def xe8Base (es : List Nat) : Nat :=
  (upto 16).foldl (fun best v =>
    if decide ((es.filter (· == best)).length < (es.filter (· == v)).length) then v else best) 0

/-- Bytes of a bit string, stream bit 0 in bit 7 of byte 0 (R112). -/
def packBits : Nat → List Bool → List Byte
  | 0, _ => []
  | n + 1, bs =>
    let b := bs.take 8 ++ List.replicate (8 - (bs.take 8).length) false
    BitVec.ofNat 8 (b.foldl (fun x y => 2 * x + (if y then 1 else 0)) 0) :: packBits n (bs.drop 8)

/-- The device's encoder of a block of 32 E4M3 elements (R115). -/
def xe8Encode (scale : Byte) (elems : List Nat) : List Byte :=
  let es := elems.map fun x => x / 8 % 16
  let b := xe8Base es
  let bits := bitsMsb scale.toNat 8 ++ bitsMsb b 4 ++ (es.flatMap (xe8Enc b)) ++
    (elems.flatMap fun x => bitsMsb (x / 128 * 8 + x % 8) 4)
  packBits (ceilDiv bits.length 8) bits

/-! W48 (R116): the container is the 59-bit encoding above five reserved zero bits. -/

def w48Decode (c : Word) : FVal := Fmt.w48.decode false (c.toNat / 32)

/-- RoundW48 with RNE: the container, and whether a finite sum left the range. -/
def w48Round (x : FVal) : Word × Bool :=
  let r := Fmt.w48.round .rne false false x
  (BitVec.ofNat 64 (r.bits * 32), r.ovr)

end Sys2Proof.Machine
end

