-- ==== Sys2Proof/Machine/VecAlu.lean ====
section
/-!
DEFINITION. What each vector instruction computes at its completion, as a function of its queue entry and its context's
registers (06 R155 to R176).
-/

namespace Sys2Proof.Machine

/-- Element i of width w (R155). -/
def elem (x : Line) (w i : Nat) : Nat := x.toNat / 2 ^ (w * i) % 2 ^ w

/-- The line whose elements of width w these are (R155). -/
def ofElems (w : Nat) : List Nat → Nat
  | [] => 0
  | x :: xs => x % 2 ^ w + 2 ^ w * ofElems w xs

def lineOf (w : Nat) (xs : List Nat) : Line := BitVec.ofNat 512 (ofElems w xs)

def elems (x : Line) (w : Nat) : List Nat := (upto (512 / w)).map (elem x w)

/-- Active(i) under a mask register's bits (R156). -/
def isActive (m : BitVec 16) (w i : Nat) : Bool := if w = 64 then m.getLsbD i else m.getLsbD (i * w / 32)

/-- What a completion writes: a v, an m and a k register, flags, and the overflow bits of VCVTO (R159, R160, R167). -/
structure VOut where
  v : Option (BitVec 6 × Line) := none
  m : Option (BitVec 6 × BitVec 16) := none
  k : Option (BitVec 6 × Word) := none
  flags : Flags := 0
  ovr : Nat := 0
  deriving DecidableEq, Repr

/-- The element operation of R157: inactive elements keep their value and raise no flag (R156). -/
def vmap (m : BitVec 16) (w : Nat) (d : Line) (op : Nat → Nat × Flags) : Line × Flags :=
  let rs := (upto (512 / w)).map fun i => if isActive m w i then op i else (elem d w i, 0)
  (lineOf w (rs.map (·.1)), rs.foldl (fun fl r => fl ||| r.2) 0)

def Ctx.mask (c : Ctx) (f : VW) : BitVec 16 := c.readM f.mask.toNat

/-- A VI instruction: op on the exact operands as the etype reads them, then clamped or wrapped (R162). -/
def viOut (c : Ctx) (f : VW) (clamp : Bool) (op : Int → Int → Int) : VOut :=
  let w := widthOf f.etype
  let sg := isSigned f.etype
  let a := c.readV f.a.toNat
  let b := c.readV f.b.toNat
  let r := vmap (c.mask f) w (c.readV f.d.toNat) fun i =>
    let v := op (intVal sg w (elem a w i)) (intVal sg w (elem b w i))
    (wrapInt w (if clamp then (clampInt sg w v).1 else v), 0)
  { v := some (f.d, r.1) }

/-- A VI instruction on the bits of its operands (R162). -/
def viBits (c : Ctx) (f : VW) (op : Nat → Nat → Nat → Int) : VOut :=
  let w := widthOf f.etype
  let a := c.readV f.a.toNat
  let b := c.readV f.b.toNat
  let r := vmap (c.mask f) w (c.readV f.d.toNat) fun i => (wrapInt w (op w (elem a w i) (elem b w i)), 0)
  { v := some (f.d, r.1) }

def satBit (f : VW) : Bool := f.sat == 1

/-- A VF or VSF instruction on the bits of its operands in the element format (R163, R165). -/
def vfOut (c : Ctx) (f : VW) (op : Fmt → Nat → Nat → Nat → Nat × Flags) : VOut :=
  let w := widthOf f.etype
  let a := c.readV f.a.toNat
  let b := c.readV f.b.toNat
  let z := c.readV f.vc.toNat
  let r := vmap (c.mask f) w (c.readV f.d.toNat) fun i => op (fmtOf f.etype) (elem a w i) (elem b w i) (elem z w i)
  { v := some (f.d, r.1), flags := r.2 }

/-- SRC, P and TOK of the conversions (R166). -/
def cvSrc (f : VW) : BitVec 4 := f.imm.extractLsb' 0 4
def cvPart (f : VW) : Nat := (f.imm.extractLsb' 4 3).toNat
def cvTok (f : VW) : Bool := f.imm.getLsbD 7

/-- VCVT and VCVTO (R166): the line, the flags and the overflow bits by destination element. -/
def cvtOut (c : Ctx) (e : VqEntry) (f : VW) (sat : Bool) : Line × Flags × Nat :=
  let ws := widthOf (cvSrc f)
  let wd := widthOf f.etype
  let n := 512 / max ws wd
  let p := cvPart f
  let a := c.readV f.a.toNat
  let d := c.readV f.d.toNat
  let rs := (upto (512 / wd)).map fun di =>
    let i := if wd < ws then di - p * n else di
    let inPart := if wd < ws then decide (p * n ≤ di) && decide (di < p * n + n) else decide (di < n)
    if inPart && isActive (c.mask f) wd di then
      let si := if ws < wd then p * n + i else i
      match elemTy (cvSrc f), elemTy f.etype with
      | some s, some t => convert (RMode.ofCode e.rm.toNat) sat e.ftz e.daz s t (elem a ws si)
      | _, _ => ⟨elem d wd di, 0, false⟩
    else ⟨elem d wd di, 0, false⟩
  (lineOf wd (rs.map (·.bits)), rs.foldl (fun fl r => fl ||| r.flags) 0,
    ofElems 1 (rs.map fun r => if r.ovr then 1 else 0))

/-- The number of one bits below 2^n. -/
def popc : Nat → Nat → Nat
  | 0, _ => 0
  | n + 1, x => x % 2 + popc n (x / 2)

/-- VPACK (R168). -/
def packOut (c : Ctx) (f : VW) : VOut :=
  let wd := widthOf f.etype
  let n := 512 / wd
  let a := c.readV f.a.toNat
  let b := c.readV f.b.toNat
  let r := vmap (c.mask f) wd (c.readV f.d.toNat) fun i =>
    let x := if i < n / 2 then elem a (2 * wd) i else elem b (2 * wd) (i - n / 2)
    let v := intVal (isSigned (cvSrc f)) (2 * wd) x
    (wrapInt wd (if satBit f then (clampInt (isSigned f.etype) wd v).1 else v), 0)
  { v := some (f.d, r.1) }

/-- VUNPACK (R168). -/
def unpackOut (c : Ctx) (f : VW) : VOut :=
  let wd := widthOf f.etype
  let n := 512 / wd
  let h := if f.imm.getLsbD 4 then 1 else 0
  let a := c.readV f.a.toNat
  let r := vmap (c.mask f) wd (c.readV f.d.toNat) fun i =>
    (wrapInt wd (intVal (isSigned (cvSrc f)) (wd / 2) (elem a (wd / 2) (h * n + i))), 0)
  { v := some (f.d, r.1) }

/-- The 32 elements of a block for VMXQ, as values through DAZ (R169). -/
def mxqElems (c : Ctx) (e : VqEntry) (f : VW) : List FVal :=
  let g := fmtOf (cvSrc f)
  let xs := if widthOf (cvSrc f) = 32 then elems (c.readV f.a.toNat) 32 ++ elems (c.readV f.b.toNat) 32
    else elems (c.readV f.a.toNat) 16
  xs.map (g.decode e.daz)

/-- Floor(Log2) of the greatest magnitude, where some element is not zero (R169). -/
def maxLog (xs : List FVal) : Option Int :=
  xs.foldl (fun best x => match x with
    | .fin _ m e =>
      if m = 0 then best
      else
        let l := (Nat.log2 m : Int) + e
        match best with
        | some b => some (if b < l then l else b)
        | none => some l
    | _ => best) none

/-- VMXQ (R169). -/
def mxqOut (c : Ctx) (e : VqEntry) (f : VW) : VOut :=
  let fp4 := f.etype == 0xC
  let g : Fmt := if fp4 then .e2m1 else .e4m3
  let emax : Int := if fp4 then 2 else 8
  let xs := mxqElems c e f
  let special := xs.any fun x => match x with
    | .fin .. => false
    | _ => true
  let nv := xs.any fun x => match x with
    | .nan s => s
    | .inf _ => true
    | .fin .. => false
  let scale : Int := match maxLog xs with
    | none => 127
    | some l => max 0 (min 254 (l - emax + 127))
  let rs : List Rounded := xs.map fun x =>
    if special then ⟨0, 0, false⟩
    else g.round (RMode.ofCode e.rm.toNat) true (e.ftz && !fp4) (x.scale (127 - scale))
  let flags : Flags := if special then (if nv then Flags.nv else 0)
    else rs.foldl (fun fl r => fl ||| (if r.ovr then Flags.nx else r.flags)) 0
  let x : Nat := if special then 255 else scale.toNat
  let old := lineBytes (c.readV f.d.toNat)
  let bytes : List Byte :=
    if fp4 then
      let b := if f.imm.getLsbD 5 then 1 else 0
      let qs : List Byte := (upto 16).map fun i =>
        BitVec.ofNat 8 (nthD (rs.map (·.bits)) (2 * i) 0 + 16 * nthD (rs.map (·.bits)) (2 * i + 1) 0)
      let els := if b = 0 then qs ++ (old.drop 16).take 16 else old.take 16 ++ qs
      let sc := if b = 0 then [BitVec.ofNat 8 x, nthD old 33 0] else [nthD old 32 0, BitVec.ofNat 8 x]
      els ++ sc ++ List.replicate 30 0
    else rs.map (fun r => BitVec.ofNat 8 r.bits) ++ [BitVec.ofNat 8 x] ++ List.replicate 31 0
  { v := some (f.d, bytesLine bytes), flags := flags }

/-- VMXD (R170). -/
def mxdOut (c : Ctx) (e : VqEntry) (f : VW) : VOut :=
  let fp4 := cvSrc f == 0xC
  let g : Fmt := if fp4 then .e2m1 else .e4m3
  let d := fmtOf f.etype
  let w := widthOf f.etype
  let h := if f.imm.getLsbD 4 then 1 else 0
  let b := if f.imm.getLsbD 5 then 1 else 0
  let a := c.readV f.a.toNat
  let x := elem a 8 (32 + b)
  let r := vmap (c.mask f) w (c.readV f.d.toNat) fun i =>
    let k := if w = 32 then 16 * h + i else i
    let q := if fp4 then elem a 4 (32 * b + k) else elem a 8 k
    match g.decode false q with
    | .nan _ => (d.nan, 0)
    | v =>
      if x = 255 then (d.nan, 0)
      else
        let r := d.round (RMode.ofCode e.rm.toNat) (satBit f) e.ftz (v.scale ((x : Int) - 127))
        (r.bits, r.flags)
  { v := some (f.d, r.1), flags := r.2 }

/-- The active elements of A (R171). -/
def activeElems (c : Ctx) (f : VW) : List Nat :=
  let w := widthOf f.etype
  let a := c.readV f.a.toNat
  ((upto (512 / w)).filter (isActive (c.mask f) w)).map (elem a w)

/-- VREDADD (R171). -/
def redAddOut (c : Ctx) (f : VW) : VOut :=
  let w := widthOf f.etype
  let sg := isSigned f.etype
  let v := ((activeElems c f).map (intVal sg w)).foldl (· + ·) 0
  { v := some (f.d, lineOf w [wrapInt w (if satBit f then (clampInt sg w v).1 else v)]) }

/-- VREDMAX (mx) and VREDMIN (R171). -/
def redMaxOut (c : Ctx) (e : VqEntry) (f : VW) (mx : Bool) : VOut :=
  let w := widthOf f.etype
  let xs := activeElems c f
  match elemTy f.etype with
  | some (.flt g) =>
    let nv := xs.any fun x => (g.decode e.daz x).isSnan
    let ok := xs.filter fun x => !(g.decode e.daz x).isNan
    let r := match ok with
      | [] => if xs.isEmpty then g.withSign mx g.infBits else g.nan
      | y :: ys => g.asRead e.daz (ys.foldl (fun b x =>
          let lt := if mx then FVal.lt true (g.decode e.daz b) (g.decode e.daz x)
            else FVal.lt true (g.decode e.daz x) (g.decode e.daz b)
          if lt then x else b) y)
    { v := some (f.d, lineOf w [r]), flags := if nv then Flags.nv else 0 }
  | _ =>
    let sg := isSigned f.etype
    let start := if mx then intMin sg w else intMax sg w
    let v := xs.foldl (fun b x => let y := intVal sg w x
      if mx then max b y else min b y) start
    { v := some (f.d, lineOf w [wrapInt w v]) }

/-- One level of the tree of R172. -/
def treeLevel (e : VqEntry) (sat : Bool) : List (Option Nat) → List (Option Nat) × Flags
  | p :: q :: rest =>
    let (ys, fl) := treeLevel e sat rest
    match p, q with
    | none, y => (y :: ys, fl)
    | x, none => (x :: ys, fl)
    | some x, some y =>
      let (z, fl') := fAdd .f32 (RMode.ofCode e.rm.toNat) sat e.ftz false x y
      (some z :: ys, fl ||| fl')
  | xs => (xs, 0)

def treeSum (e : VqEntry) (sat : Bool) : Nat → List (Option Nat) → Option Nat × Flags
  | 0, xs => (match xs with
    | x :: _ => x
    | [] => none, 0)
  | n + 1, xs =>
    let (ys, fl) := treeLevel e sat xs
    let (r, fl') := treeSum e sat n ys
    (r, fl ||| fl')

/-- The FP32 bits of an element widened exactly (R172). -/
def widen32 (g : Fmt) (daz : Bool) (x : Nat) : Nat :=
  let v := g.decode daz x
  if v.isSnan then 0x7F800001 else (Fmt.f32.round .rne false false v).bits

/-- VFREDADD (R172). -/
def redTreeOut (c : Ctx) (e : VqEntry) (f : VW) : VOut :=
  let w := widthOf f.etype
  let g := fmtOf f.etype
  let a := c.readV f.a.toNat
  let leaves := (upto (512 / w)).map fun i =>
    if isActive (c.mask f) w i then some (widen32 g e.daz (elem a w i)) else none
  let (r, fl) := treeSum e (satBit f) (if w = 32 then 4 else 5) leaves
  let x := Fmt.f32.decode false (r.getD 0)
  let (b, fl') : Nat × Flags := if x.isSnan then (g.nan, Flags.nv)
    else
      let z := g.round (RMode.ofCode e.rm.toNat) (satBit f) e.ftz x
      (z.bits, z.flags)
  { v := some (f.d, lineOf w [b]), flags := fl ||| fl' }

/-- A permutation: element i of the result by its index (R171). -/
def permOut (c : Ctx) (f : VW) (op : Nat → Nat) : VOut :=
  let w := widthOf f.etype
  { v := some (f.d, (vmap (c.mask f) w (c.readV f.d.toNat) fun i => (op i, 0)).1) }

/-- The compares (R175). -/
def cmpOut (c : Ctx) (f : VW) (op : Nat → Nat → Bool × Flags) : VOut :=
  let w := widthOf f.etype
  let part := (f.imm.extractLsb' 0 2).toNat
  let a := c.readV f.a.toNat
  let b := c.readV f.b.toNat
  let old := c.readM f.d.toNat
  let rs := (upto 16).map fun j =>
    if w = 64 && decide (8 ≤ j) then (false, (0 : Flags))
    else
      let i := if w = 64 then j else j * (32 / w) + part
      if isActive (c.mask f) w i then op (elem a w i) (elem b w i) else (old.getLsbD j, 0)
  { m := some (f.d, BitVec.ofNat 16 (ofElems 1 (rs.map fun r => if r.1 then 1 else 0)))
    flags := rs.foldl (fun fl r => fl ||| r.2) 0 }

def icmp (f : VW) (op : Int → Int → Bool) (x y : Nat) : Bool × Flags :=
  (op (intVal (isSigned f.etype) (widthOf f.etype) x) (intVal (isSigned f.etype) (widthOf f.etype) y), 0)

/-- Floating compare through DAZ: NV for a signalling NaN, or for any NaN when `any` (R175). -/
def fcmp (e : VqEntry) (f : VW) (anyNan : Bool) (op : FVal → FVal → Bool) (a b : Nat) : Bool × Flags :=
  let x := (fmtOf f.etype).decode e.daz a
  let y := (fmtOf f.etype).decode e.daz b
  if x.isNan || y.isNan then (false, if x.isSnan || y.isSnan || anyNan then Flags.nv else 0)
  else (op x y, 0)

/-- The class bit of VFCLASS (R176). -/
def classBit (f : Fmt) (a : Nat) : Nat :=
  match f.decode false a with
  | .nan s => if s then 2 ^ 8 else 2 ^ 9
  | .inf neg => if neg then 1 else 2 ^ 7
  | .fin neg m _ =>
    let sub := a / 2 ^ f.fb % 2 ^ f.eb == 0
    if m = 0 then (if neg then 2 ^ 3 else 2 ^ 4)
    else if sub then (if neg then 2 ^ 2 else 2 ^ 5)
    else if neg then 2 else 2 ^ 6

def maskOp (c : Ctx) (f : VW) (op : BitVec 16 → BitVec 16 → BitVec 16) : VOut :=
  { m := some (f.d, op (c.readM f.a.toNat) (c.readM f.b.toNat)) }

def simm (f : VW) : Int := f.imm.toInt

/-- What a vector instruction that accesses no memory writes when it completes. -/
def vecOut (e : VqEntry) (c : Ctx) : VOut :=
  let md := RMode.ofCode e.rm.toNat
  match e.instr with
  | .vadd f => viOut c f (satBit f) (· + ·)
  | .vsub f => viOut c f (satBit f) (· - ·)
  | .vmul f => viOut c f (satBit f) (· * ·)
  | .vmulh f => viOut c f false fun x y => x * y / 2 ^ widthOf f.etype
  | .vmin f => viOut c f false min
  | .vmax f => viOut c f false max
  | .vminu f => viOut c f false min
  | .vmaxu f => viOut c f false max
  | .vand f => viBits c f fun _ x y => (x &&& y : Nat)
  | .vor f => viBits c f fun _ x y => (x ||| y : Nat)
  | .vxor f => viBits c f fun _ x y => (x ^^^ y : Nat)
  | .vshl f => viBits c f fun w x y => (x * 2 ^ (y % w) : Nat)
  | .vshr f => viBits c f fun w x y => (x / 2 ^ (y % w) : Nat)
  | .vsra f => viBits c f fun w x y => intVal true w x / 2 ^ (y % w)
  | .vabs f => viOut c f (satBit f) fun x _ => x.natAbs
  | .vneg f => viOut c f (satBit f) fun x _ => -x
  | .vadds f => viOut c f true (· + ·)
  | .vsubs f => viOut c f true (· - ·)
  | .vfadd f => vfOut c f fun g x y _ => fAdd g md (satBit f) e.ftz e.daz x y
  | .vfsub f => vfOut c f fun g x y _ => fSub g md (satBit f) e.ftz e.daz x y
  | .vfmul f => vfOut c f fun g x y _ => fMul g md (satBit f) e.ftz e.daz x y
  | .vfma f => vfOut c f fun g x y z => fFma g md (satBit f) e.ftz e.daz false false x y z
  | .vfms f => vfOut c f fun g x y z => fFma g md (satBit f) e.ftz e.daz false true x y z
  | .vfnma f => vfOut c f fun g x y z => fFma g md (satBit f) e.ftz e.daz true false x y z
  | .vfmin f => vfOut c f fun g x y _ => fMinMax g e.daz false x y
  | .vfmax f => vfOut c f fun g x y _ => fMinMax g e.daz true x y
  | .vfabs f => vfOut c f fun g x _ _ => (x % g.signBit, 0)
  | .vfneg f => vfOut c f fun g x _ _ => (fNegBits g x, 0)
  | .vfcps f => vfOut c f fun g x y _ => (g.withSign (decide (g.signBit ≤ y)) (x % g.signBit), 0)
  | .vrsqrte f => vfOut c f fun g x _ _ => seed .rsqrt g e.ftz e.daz x
  | .vrcpe f => vfOut c f fun g x _ _ => seed .rcp g e.ftz e.daz x
  | .vexp2e f => vfOut c f fun g x _ _ => seed .exp2 g e.ftz e.daz x
  | .vlog2e f => vfOut c f fun g x _ _ => seed .log2 g e.ftz e.daz x
  | .vcvt f => let r := cvtOut c e f (satBit f)
    { v := some (f.d, r.1), flags := r.2.1 }
  | .vcvto f => let r := cvtOut c e f true
    { v := some (f.d, r.1), flags := r.2.1, k := some (f.b, BitVec.ofNat 64 (popc 64 r.2.2)), ovr := r.2.2 }
  | .vpack f => packOut c f
  | .vunpack f => unpackOut c f
  | .vmxq f => mxqOut c e f
  | .vmxd f => mxdOut c e f
  | .vredadd f => redAddOut c f
  | .vredmax f => redMaxOut c e f true
  | .vredmin f => redMaxOut c e f false
  | .vfredadd f => redTreeOut c e f
  | .vbcst f => permOut c f fun _ => e.ka.word.toNat
  | .vshuf f =>
    let w := widthOf f.etype
    let n := 512 / w
    let a := c.readV f.a.toNat
    let b := c.readV f.b.toNat
    let z := c.readV f.vc.toNat
    permOut c f fun i => let j := elem b w i % (2 * n)
      if j < n then elem a w j else elem z w (j - n)
  | .vslide f =>
    let w := widthOf f.etype
    let n := 512 / w
    let a := c.readV f.a.toNat
    let z := c.readV f.vc.toNat
    permOut c f fun i =>
      let j : Int := i + simm f
      if 0 ≤ j ∧ j < n then elem a w j.toNat
      else if n ≤ j ∧ j < 2 * n then elem z w (j.toNat - n)
      else 0
  | .viota f => permOut c f fun i => wrapInt (widthOf f.etype) (simm f + i)
  | .vcmpeq f => cmpOut c f (icmp f fun x y => x == y)
  | .vcmpne f => cmpOut c f (icmp f fun x y => x != y)
  | .vcmplt f => cmpOut c f (icmp f fun x y => decide (x < y))
  | .vcmple f => cmpOut c f (icmp f fun x y => decide (x ≤ y))
  | .vfcmpeq f => cmpOut c f (fcmp e f false fun x y => !FVal.lt false x y && !FVal.lt false y x)
  | .vfcmplt f => cmpOut c f (fcmp e f true fun x y => FVal.lt false x y)
  | .vfcmple f => cmpOut c f (fcmp e f true fun x y => !FVal.lt false y x)
  | .vfclass f => vfOut c f fun g x _ _ => (classBit g x, 0)
  | .mand f => maskOp c f (· &&& ·)
  | .mor f => maskOp c f (· ||| ·)
  | .mxor f => maskOp c f (· ^^^ ·)
  | .mnot f => maskOp c f fun x _ => ~~~x
  | .mpopc f => { k := some (f.d, BitVec.ofNat 64 (popc 16 (c.readM f.a.toNat).toNat)) }
  | .vsel f =>
    let w := widthOf f.etype
    let a := c.readV f.a.toNat
    let b := c.readV f.b.toNat
    { v := some (f.d, lineOf w ((upto (512 / w)).map fun i => if isActive (c.mask f) w i then elem a w i else elem b w i)) }
  | .vmovk f =>
    let w := widthOf f.etype
    { v := some (f.d, lineOf w (setAt (elems (c.readV f.d.toNat) w) f.imm.toNat (e.ka.word.toNat % 2 ^ w))) }
  | .vmovx f =>
    let w := widthOf f.etype
    let x := elem (c.readV f.a.toNat) w f.imm.toNat
    { k := some (f.d, BitVec.ofInt 64 (intVal (isSigned f.etype) w x)) }
  | _ => {}

/-! Vector memory (R173, R174). -/

/-- The accesses that the issue checks test: address and size, in element order (R173). -/
def vmChecks (c : Ctx) (e : VqEntry) : List (Nat × Nat) :=
  let act := fun (f : VW) (addr : Nat → Int) =>
    let w := widthOf f.etype
    ((upto (512 / w)).filter (isActive (c.mask f) w)).map fun i => (addrAdd e.ka (addr i), w / 8)
  match e.instr with
  | .vld f => [(addrAdd e.ka (64 * simm f), 64)]
  | .vst f => [(addrAdd e.ka (64 * simm f), 64)]
  | .vlds f => act f fun i => simm f + i * e.kb.word.toInt
  | .vsts f => act f fun i => simm f + i * e.kb.word.toInt
  | .vldx f => act f fun i => simm f + (elem (c.readV f.b.toNat) 32 i * (widthOf f.etype / 8) : Nat)
  | .vstx f => act f fun i => simm f + (elem (c.readV f.b.toNat) 32 i * (widthOf f.etype / 8) : Nat)
  | .vldb f =>
    let w := widthOf f.etype
    if (upto (512 / w)).any (isActive (c.mask f) w) then [(addrAdd e.ka (simm f), w / 8)] else []
  | _ => []

/-- The accesses performed: element index, address, size; a VLD or VST lane counts as 4 bytes (R174). -/
def vmAccesses (c : Ctx) (e : VqEntry) : List (Nat × Nat × Nat) :=
  let lanes := fun (f : VW) =>
    ((upto 16).filter (isActive (c.mask f) 32)).map fun i => (i, addrAdd e.ka (64 * simm f) + 4 * i, 4)
  let act := fun (f : VW) =>
    let w := widthOf f.etype
    (((upto (512 / w)).filter (isActive (c.mask f) w)).zip (vmChecks c e)).map fun p => (p.1, p.2.1, p.2.2)
  match e.instr with
  | .vld f => lanes f
  | .vst f => lanes f
  | .vlds f => act f
  | .vsts f => act f
  | .vldx f => act f
  | .vstx f => act f
  | .vldb _ => (vmChecks c e).map fun p => (0, p.1, p.2)
  | _ => []

/-- The register and width a VM instruction names, and whether it stores. -/
def vmShape (i : Instr) : Option (VW × Nat × Bool) :=
  match i with
  | .vld f => some (f, 32, false)
  | .vst f => some (f, 32, true)
  | .vlds f => some (f, widthOf f.etype, false)
  | .vsts f => some (f, widthOf f.etype, true)
  | .vldx f => some (f, widthOf f.etype, false)
  | .vstx f => some (f, widthOf f.etype, true)
  | .vldb f => some (f, widthOf f.etype, false)
  | _ => none

/-- The words that some active access touches but the active accesses together do not cover (R174). -/
def partialWords (acc : List (Nat × Nat × Nat)) : List Nat :=
  let bytes := acc.foldl (fun s p => NSet.insertRange s p.2.1 p.2.2) ([] : NSet)
  let words := acc.foldl (fun s p => NSet.insert s (p.2.1 / 8)) ([] : NSet)
  (words.filter fun w => !(upto 8).all fun i => NSet.mem bytes (w * 8 + i)).map (· * 8)

/-- One access of a vector load: the value read, and the lowest bad word so far (R174). -/
def vmLoadOne (t : Tile) (e : VqEntry) (p : Nat × Nat × Nat) : Tile × VqEntry :=
  let bad := match e.bad, t.badWord p.2.1 p.2.2 with
    | some x, some y => some (min x y)
    | x, y => x.orElse fun _ => y
  (t.touchRead p.2.1 p.2.2, { e with done := e.done + 1, got := AMap.set e.got p.1 (t.readTlm p.2.1 p.2.2), bad := bad })

/-- One access of a vector store (R174). A word that the active accesses do not cover is merged: read, a single-bit error in it
corrected and counted, and left unwritten when it is bad. A covered word's marks go with its last access. -/
def vmStoreOne (t : Tile) (c : Ctx) (e : VqEntry) (f : VW) (w : Nat) (p : Nat × Nat × Nat) : Tile × VqEntry :=
  let acc := vmAccesses c e
  let a := p.2.1 / 8 * 8
  let bs := leBytes p.2.2 (elem (c.readV f.d.toNat) w p.1)
  let e1 := { e with done := e.done + 1 }
  if (partialWords acc).contains a then
    if NSet.mem t.poison a || NSet.mem t.err2 a then (t.touchRead a 8, { e1 with bad := e.bad.orElse fun _ => some a })
    else ((t.touchRead a 8).writeTlm p.2.1 bs, e1)
  else
    let t1 := t.writeTlm p.2.1 bs
    if (acc.drop (e.done + 1)).any fun q => q.2.1 / 8 * 8 == a then (t1, e1)
    else ({ t1 with poison := NSet.erase t1.poison a, err1 := NSet.erase t1.err1 a, err2 := NSet.erase t1.err2 a }, e1)

/-- The next access of the VM instruction at the head of a context's vector queue (R174). -/
def Tile.vmStep (t : Tile) (n : Nat) : Tile :=
  let c := t.slotCtx n
  match c.vq with
  | [] => t
  | e :: rest => match vmShape e.instr, (vmAccesses c e)[e.done]? with
    | some (f, w, store), some p =>
      let r := if store then vmStoreOne t c e f w p else vmLoadOne t e p
      r.1.setSlotCtx n { r.1.slotCtx n with vq := r.2 :: rest }
    | _, _ => t

/-- The next k accesses. -/
def Tile.vmSteps (t : Tile) (n : Nat) : Nat → Tile
  | 0 => t
  | k + 1 => (t.vmStep n).vmSteps n k

/-- How many accesses of the head of a context's vector queue are still to be performed. -/
def Ctx.vmLeft (c : Ctx) : Nat :=
  match c.vq with
  | [] => 0
  | e :: _ => (vmAccesses c e).length - e.done

/-- The line that a vector load has read (R173). -/
def vmLine (c : Ctx) (e : VqEntry) (f : VW) (w : Nat) : Line :=
  let d := c.readV f.d.toNat
  match e.instr with
  | .vldb _ => (vmap (c.mask f) w d fun _ => (AMap.getD e.got 0 0, 0)).1
  | _ => lineOf w ((upto (512 / w)).map fun i => AMap.getD e.got i (elem d w i))

end Sys2Proof.Machine
end

