-- ==== Sys2Proof/Machine/VecFields.lean ====
section
/-!
DEFINITION. Which register file each field of a vector instruction names (06 R157, R162 to R176; 03 R68, R84).
-/

namespace Sys2Proof.Machine

/-- What a field names. -/
inductive FieldKind where
  | none | v | k | m
  deriving DecidableEq, Repr

/-- A vector instruction with what its fields name: d, a, b, and whether vc names a v register. -/
structure VShape where
  f : VW
  d : FieldKind
  a : FieldKind
  b : FieldKind
  c : Bool
  deriving DecidableEq, Repr

/-- The shape of a vector instruction; none for every other instruction. -/
def vShape (i : Instr) : Option VShape :=
  match i with
  | .vadd f => some ⟨f, .v, .v, .v, false⟩
  | .vsub f => some ⟨f, .v, .v, .v, false⟩
  | .vmul f => some ⟨f, .v, .v, .v, false⟩
  | .vmulh f => some ⟨f, .v, .v, .v, false⟩
  | .vmin f => some ⟨f, .v, .v, .v, false⟩
  | .vmax f => some ⟨f, .v, .v, .v, false⟩
  | .vminu f => some ⟨f, .v, .v, .v, false⟩
  | .vmaxu f => some ⟨f, .v, .v, .v, false⟩
  | .vand f => some ⟨f, .v, .v, .v, false⟩
  | .vor f => some ⟨f, .v, .v, .v, false⟩
  | .vxor f => some ⟨f, .v, .v, .v, false⟩
  | .vshl f => some ⟨f, .v, .v, .v, false⟩
  | .vshr f => some ⟨f, .v, .v, .v, false⟩
  | .vsra f => some ⟨f, .v, .v, .v, false⟩
  | .vabs f => some ⟨f, .v, .v, .none, false⟩
  | .vneg f => some ⟨f, .v, .v, .none, false⟩
  | .vadds f => some ⟨f, .v, .v, .v, false⟩
  | .vsubs f => some ⟨f, .v, .v, .v, false⟩
  | .vfadd f => some ⟨f, .v, .v, .v, false⟩
  | .vfsub f => some ⟨f, .v, .v, .v, false⟩
  | .vfmul f => some ⟨f, .v, .v, .v, false⟩
  | .vfma f => some ⟨f, .v, .v, .v, true⟩
  | .vfms f => some ⟨f, .v, .v, .v, true⟩
  | .vfnma f => some ⟨f, .v, .v, .v, true⟩
  | .vfmin f => some ⟨f, .v, .v, .v, false⟩
  | .vfmax f => some ⟨f, .v, .v, .v, false⟩
  | .vfabs f => some ⟨f, .v, .v, .none, false⟩
  | .vfneg f => some ⟨f, .v, .v, .none, false⟩
  | .vfcps f => some ⟨f, .v, .v, .v, false⟩
  | .vrsqrte f => some ⟨f, .v, .v, .none, false⟩
  | .vrcpe f => some ⟨f, .v, .v, .none, false⟩
  | .vexp2e f => some ⟨f, .v, .v, .none, false⟩
  | .vlog2e f => some ⟨f, .v, .v, .none, false⟩
  | .vcvt f => some ⟨f, .v, .v, .none, false⟩
  | .vcvto f => some ⟨f, .v, .v, .k, false⟩
  | .vpack f => some ⟨f, .v, .v, .v, false⟩
  | .vunpack f => some ⟨f, .v, .v, .none, false⟩
  | .vmxq f => some ⟨f, .v, .v, if f.src == 7 then .v else .none, false⟩
  | .vmxd f => some ⟨f, .v, .v, .none, false⟩
  | .vredadd f => some ⟨f, .v, .v, .none, false⟩
  | .vredmax f => some ⟨f, .v, .v, .none, false⟩
  | .vredmin f => some ⟨f, .v, .v, .none, false⟩
  | .vfredadd f => some ⟨f, .v, .v, .none, false⟩
  | .vbcst f => some ⟨f, .v, .k, .none, false⟩
  | .vshuf f => some ⟨f, .v, .v, .v, true⟩
  | .vslide f => some ⟨f, .v, .v, .none, true⟩
  | .viota f => some ⟨f, .v, .none, .none, false⟩
  | .vld f => some ⟨f, .v, .k, .none, false⟩
  | .vst f => some ⟨f, .v, .k, .none, false⟩
  | .vlds f => some ⟨f, .v, .k, .k, false⟩
  | .vsts f => some ⟨f, .v, .k, .k, false⟩
  | .vldx f => some ⟨f, .v, .k, .v, false⟩
  | .vstx f => some ⟨f, .v, .k, .v, false⟩
  | .vldb f => some ⟨f, .v, .k, .none, false⟩
  | .vcmpeq f => some ⟨f, .m, .v, .v, false⟩
  | .vcmpne f => some ⟨f, .m, .v, .v, false⟩
  | .vcmplt f => some ⟨f, .m, .v, .v, false⟩
  | .vcmple f => some ⟨f, .m, .v, .v, false⟩
  | .vfcmpeq f => some ⟨f, .m, .v, .v, false⟩
  | .vfcmplt f => some ⟨f, .m, .v, .v, false⟩
  | .vfcmple f => some ⟨f, .m, .v, .v, false⟩
  | .vfclass f => some ⟨f, .v, .v, .none, false⟩
  | .mand f => some ⟨f, .m, .m, .m, false⟩
  | .mor f => some ⟨f, .m, .m, .m, false⟩
  | .mxor f => some ⟨f, .m, .m, .m, false⟩
  | .mnot f => some ⟨f, .m, .m, .none, false⟩
  | .mpopc f => some ⟨f, .k, .m, .none, false⟩
  | .vsel f => some ⟨f, .v, .v, .v, false⟩
  | .vmovk f => some ⟨f, .v, .k, .none, false⟩
  | .vmovx f => some ⟨f, .k, .v, .none, false⟩
  | _ => none

/-- The fields of one kind. -/
def VShape.pick (x : VShape) (kind : FieldKind) : List (BitVec 6) :=
  (if x.d = kind then [x.f.d] else []) ++ (if x.a = kind then [x.f.a] else []) ++ (if x.b = kind then [x.f.b] else [])

/-- The v registers that an instruction names. -/
def vFields (i : Instr) : List (BitVec 6) :=
  match vShape i with
  | none => []
  | some x => x.pick .v ++ (if x.c then [x.f.vc.setWidth 6] else [])

/-- The m registers that an instruction names, its mask field included when it is not 0. -/
def mFields (i : Instr) : List (BitVec 6) :=
  match vShape i with
  | none => []
  | some x => x.pick .m ++ (if x.f.mask = 0 then [] else [x.f.mask.setWidth 6])

/-- The k fields in the order of R86. -/
def VShape.kFields (x : VShape) : List (BitVec 6) := x.pick .k

end Sys2Proof.Machine
end

