-- ==== Sys2Proof/Machine/VecUnit.lean ====
section
/-!
DEFINITION. The completion of a context's vector instructions in program order, and the drain of its vector queue
(06 R158 to R161, R167, R174).
-/

namespace Sys2Proof.Machine

/-- The register a vector instruction's lookahead window is about (R79, R160, R166). -/
def vecDest (i : Instr) : RegClass :=
  match i with
  | .vcmpeq _ | .vcmpne _ | .vcmplt _ | .vcmple _ | .vfcmpeq _ | .vfcmplt _ | .vfcmple _ => .m
  | .mand _ | .mor _ | .mxor _ | .mnot _ => .m
  | .mpopc _ | .vmovx _ => .k
  | _ => .v

/-- The result of an operation that a window waits for arrives (R79, R81). -/
def Ctx.winArrive (c : Ctx) (op : Nat) (result : Line) (rtag : Bool) (fail : Byte) (val : Word) : Ctx :=
  { c with wins := c.wins.map fun w =>
      if w.op = op then { w with arrived := true, result := result, resultTag := rtag, fail := fail, failVal := val } else w }

/-- What a completion writes, to the registers or, for the class that a window holds, to the window (R79, R159). -/
def Ctx.applyVOut (c : Ctx) (e : VqEntry) (o : VOut) : Ctx :=
  let cls := vecDest e.instr
  let c1 := match o.v with
    | some (r, x) => if e.win && decide (cls = RegClass.v) then c.winArrive e.op x false 0 0 else c.writeV r.toNat x
    | none => c
  let c2 := match o.m with
    | some (r, x) => if e.win && decide (cls = RegClass.m) then c1.winArrive e.op (x.setWidth 512) false 0 0
      else c1.writeM r.toNat x
    | none => c1
  let c3 := match o.k with
    | some (r, x) => if e.win && decide (cls = RegClass.k) then c2.winArrive e.op (x.setWidth 512) false 0 0
      else c2.writeInt r x
    | none => c2
  { c3 with fpc := c3.fpc ||| o.flags.setWidth 64 }

/-- A late ECC_UNCORR of a VM instruction on a word, due when a register is named (a load) or at the next boundary (R174). -/
def vmLate (e : VqEntry) (a : Nat) (vd : Option (BitVec 6)) : LateTrap :=
  ⟨codeEcc, BitVec.ofNat 64 a, e.pc, none, vd, true, true⟩

/-- The oldest queued vector instruction of a context completes, a VM instruction once its accesses have been performed (R159,
R174): n names the context or waiting task. -/
def vecRetire (s : State) (tile n : Nat) : State :=
  let t := s.tile tile
  let c := t.slotCtx n
  match c.vq with
  | [] => s
  | e :: rest =>
    let c0 := { c with vq := rest }
    let t0 := match e.group with
      | some g => { t with groups := AMap.erase t.groups g }
      | none => t
    match vmShape e.instr, e.bad with
    | some (f, w, false), none =>
      let line := vmLine c e f w
      s.setTile tile (t0.setSlotCtx n (if e.win then c0.winArrive e.op line false 0 0 else c0.writeV f.d.toNat line))
    | some (f, _, false), some a =>
      let c1 := if e.win then c0.winArrive e.op (c.readV f.d.toNat) false codeEcc (BitVec.ofNat 64 a)
        else { c0 with lates := c0.lates ++ [vmLate e a (some f.d)] }
      s.setTile tile (t0.setSlotCtx n c1)
    | some (_, _, true), none => s.setTile tile (t0.setSlotCtx n c0)
    | some (_, _, true), some a => s.setTile tile (t0.setSlotCtx n { c0 with lates := c0.lates ++ [vmLate e a none] })
    | none, _ =>
      let o := vecOut e c
      let s1 := s.setTile tile (t0.setSlotCtx n (c0.applyVOut e o))
      match e.seq, e.instr with
      | some q, .vcvto f =>
        if o.ovr = 0 then s1.fillPort tile f.vc.toNat q .null 0
        else s1.fillPort tile f.vc.toNat q .data (BitVec.ofNat 512 o.ovr)
      | _, _ => s1

/-- What is left of the oldest queued vector instruction is done at once, and it completes. -/
def vecFinish (s : State) (tile n : Nat) : State :=
  vecRetire (s.updTile tile fun t => t.vmSteps n (t.slotCtx n).vmLeft) tile n

/-- The next access of the oldest queued vector instruction, or its completion with the last (R174). -/
def vecAdvance (s : State) (tile n : Nat) : State :=
  if ((s.tile tile).slotCtx n).vmLeft ≤ 1 then vecFinish s tile n else s.updTile tile fun t => t.vmStep n

/-- The n oldest entries complete. -/
def vecFinishN (s : State) (tile c : Nat) : Nat → State
  | 0 => s
  | n + 1 => vecFinishN (vecFinish s tile c) tile c n

/-- Whether an open window holds the failure of a vector load, which a drain or an instruction that names its register raises before
the window's count runs out (R174). -/
def Win.badLoad (w : Win) : Bool := decide (w.cls = .v) && w.arrived && w.fail != 0

/-- A failed vector load's window closes: its register keeps its value, and the late trap is due (R81, R174). -/
def Ctx.raiseWin (c : Ctx) (w : Win) : Ctx :=
  { c with wins := c.wins.erase w, lates := c.lates ++ [⟨w.fail, w.failVal, w.pc, none, none, true, true⟩] }

/-- The failures of vector loads that are known are due, with or without a window (R174). -/
def Ctx.loadsDue (c : Ctx) : Ctx :=
  let c1 := { c with lates := c.lates.map fun l => { l with vd := none } }
  (c.wins.filter Win.badLoad).foldl Ctx.raiseWin c1

/-- The drain of R161: every queued instruction completes; a load's ECC_UNCORR is then due (R174). -/
def vecDrain (s : State) (tile n : Nat) : State :=
  let s1 := vecFinishN s tile n ((s.tile tile).slotCtx n).vq.length
  let c := (s1.tile tile).slotCtx n
  if c.lates.any (·.vd.isSome) || c.wins.any Win.badLoad then s1.updTile tile fun t => t.setSlotCtx n c.loadsDue else s1

end Sys2Proof.Machine
end

