-- ==== Sys2Proof/Machine/Ops.lean ====
section
/-!
DEFINITION. The operations every meaning shares: register guards and interlocks, completing an instruction with its loop,
REP and window rules, taking a trap and returning from one, page waits (02 R51, 03 R68, R79, R84 to R86, 05 R131, R143 to
R145, 12 R298, 15 R365 to R369).
-/

namespace Sys2Proof.Machine

abbrev Out := Host.Outcome State Fault Refusal

/-- Why an instruction does not take its own effect: a trap, taken at its address or at another, a stall at issue, a page
wait, or a trap of an earlier operation that is taken in its place and gives this state (R81, R85, R239, R298). -/
inductive Halt where
  | trap (code : Byte) (val : Word)
  | trapAt (code : Byte) (val : Word) (pc : Addr)
  | stall
  | page (va : Addr)
  | become (s : State)
  deriving DecidableEq, Repr

abbrev Try (α : Type) := Except Halt α

def trapIf (b : Bool) (code : Byte) (val : Word) : Try Unit := if b then .error (.trap code val) else .ok ()

def stallIf (b : Bool) : Try Unit := if b then .error .stall else .ok ()

/-- The first failure of a check, as a trap. -/
def orTrap (f : Option Failure) : Try Unit := match f with
  | none => .ok ()
  | some (c, v) => .error (.trap c v)

/-- The instruction's words as TRAPVAL of ILLEGAL holds them (R86). -/
def wordsVal (i : Instr) : Word := match encode i with
  | [w0] => w0.setWidth 64
  | [w0, w1] => w1 ++ w0
  | _ => 0

/-! Interlocks (R79, R238, R160). -/

/-- The k register that a queued vector instruction will write outside a window (R160, R166). -/
def VqEntry.kDest (e : VqEntry) : Option (BitVec 6) :=
  match e.instr with
  | .vcvto f => some f.b
  | .mpopc f => if e.win then none else some f.d
  | .vmovx f => if e.win then none else some f.d
  | _ => none

/-- A window whose count has run out and whose result is still to be written (R79). -/
def Ctx.winDue (c : Ctx) (cls : RegClass) (r : BitVec 6) : Bool :=
  c.wins.any fun w => decide (w.cls = cls) && w.dest == r && w.left == 0

/-- Whether a request of the task still holds a register (R79, R238). -/
def reqHolds (task : Nat) (r : BitVec 6) (anyAsync : Bool) (q : GReq) : Bool :=
  q.task == task && q.dest == some r && !q.win && (!q.async || anyAsync)

/-- Whether a reader of k[r] waits (R79, R160, R237). -/
def busyRead (t : Tile) (c : Ctx) (r : BitVec 6) : Bool :=
  r != 0 && (c.winDue .k r || c.vq.any (fun e => e.kDest == some r) || (AMap.vals t.reqs).any (reqHolds c.task r false))

/-- Whether a writer of k[r] waits: also for an asynchronous instruction that targets it (R238). -/
def busyWrite (t : Tile) (c : Ctx) (r : BitVec 6) : Bool :=
  r != 0 && (busyRead t c r || (AMap.vals t.reqs).any (reqHolds c.task r true))

/-- REG_RANGE names the first k field at or above the declared count (R86). -/
def rangeCheck (c : Ctx) (fields : List (BitVec 6)) : Try Unit :=
  match fields.find? (fun r => !c.kOk r) with
  | some r => .error (.trap codeRegRange (r.setWidth 64))
  | none => .ok ()

/-- Step 7 of R85 and the interlocks of the registers an instruction reads and writes. -/
def guardK (s : State) (fields reads writes : List (BitVec 6)) : Try Unit :=
  match rangeCheck s.me fields with
  | .error h => .error h
  | .ok _ =>
    stallIf (reads.any (busyRead s.here s.me) || writes.any (busyWrite s.here s.me))

/-- An acquire of the context that has not performed holds back its later accesses (R222 Acquire): synchronous, its window
closed. -/
def acquirePending (t : Tile) (c : Ctx) : Bool :=
  t.reqs.any fun p => p.2.task == c.task && p.2.order.getLsbD 0 && !p.2.async && !p.2.performed &&
    !(c.wins.any fun w => w.op == p.1 && w.left != 0)

/-- A scalar TLM access waits for earlier VM instructions of its context and for a pending acquire (R174, R222). -/
def tlmReady (s : State) : Try Unit :=
  stallIf ((s.me.vq.any fun e => (vmShape e.instr).isSome) || acquirePending s.here s.me)

/-! Completing an instruction. -/

/-- Whether a REP pass is in progress at the context's pc (R145). -/
def Ctx.inRep (c : Ctx) : Bool := c.rep.active && decide (c.rep.s ≤ c.pc) && decide (c.pc < c.rep.e)

/-- Each issued instruction counts toward every open window (R79). -/
def Ctx.countWins (c : Ctx) : Ctx := { c with wins := c.wins.map fun w => { w with left := if w.left = 0 then 0 else w.left - 1 } }

def LoopLevel.ends (l : LoopLevel) (a : Addr) : Bool := l.active && l.e == a

/-- The loop-end rule at address a, for the outer level (R143). -/
def Ctx.endLoop0 (c : Ctx) (a : Addr) : Ctx :=
  if c.loop0.ends a then
    if c.loop0.lc - 1 = 0 then { c with loop0 := { c.loop0 with active := false } }
    else ({ c with loop0 := { c.loop0 with lc := c.loop0.lc - 1 } }).setPc c.loop0.s
  else c

/-- The loop-end rule at address a: the innermost level first, the outer one when the inner closes at the same end (R143). -/
def Ctx.endLoops (c : Ctx) (a : Addr) : Ctx :=
  if c.loop1.active then
    if c.loop1.ends a then
      if c.loop1.lc - 1 = 0 then ({ c with loop1 := { c.loop1 with active := false } }).endLoop0 a
      else ({ c with loop1 := { c.loop1 with lc := c.loop1.lc - 1 } }).setPc c.loop1.s
    else c
  else c.endLoop0 a

/-- The end of a REP body (R145): the next pass, or the end of the REP and then the loop-end rule. -/
def Ctx.endRep (c : Ctx) : Ctx :=
  if c.rep.pass < c.rep.count1 then
    ({ c with rep := { c.rep with pass := c.rep.pass + 1, idx := 0 } }).setPc c.rep.s
  else ({ c with rep := RepBuf.blank }).endLoops c.rep.e

/-- The program counter after an instruction of len bytes that does not transfer control (R65, R143, R145). -/
def Ctx.advance (c : Ctx) (len : Nat) : Ctx :=
  let a := c.pc + BitVec.ofNat 48 len
  let c1 := c.setPc a
  if c.inRep then
    if a = c.rep.e then c1.endRep else { c1 with rep := { c1.rep with idx := c1.rep.idx + 1 } }
  else c1.endLoops a

/-- A transfer of control to `target` ends every level that does not contain it (R144). -/
def Ctx.jumpTo (c : Ctx) (target : Addr) : Ctx :=
  let keep := fun (l : LoopLevel) => if l.active && !(decide (l.s ≤ target) && decide (target < l.e))
    then { l with active := false } else l
  ({ c with loop1 := keep c.loop1, loop0 := keep c.loop0 }).setPc target

/-- The instruction completes and the context goes on after its len bytes. -/
def State.complete (s : State) (len : Nat) : State :=
  s.setMe { (s.me.countWins.advance len) with stalled := false }

/-- The instruction completes by transferring control to `target`. -/
def State.completeJump (s : State) (target : Addr) : State :=
  s.setMe { (s.me.countWins.jumpTo target) with stalled := false }

/-- The context stalls at issue: nothing changes but its mark. -/
def State.stallMe (s : State) : State := s.setMe { s.me with stalled := true }

/-! Taking a trap (R365, R366). -/

/-- The lowest pending context of a PEND field (R366). -/
def lowestPend (p : BitVec 11) : Nat := ((upto 11).find? fun i => p.getLsbD i).getD 0

/-- Context 0 is entered for a pending helper frame when NEST is 0 (R366). -/
def Tile.enterMonitor (t : Tile) : Tile :=
  if t.nest || t.pend == 0 then t
  else
    let c := t.ctx 0
    let c1 := ({ c with cause := 0, trappc := c.pc.setWidth 64, trapval := 0, stalled := false }).setPc
      (BitVec.setWidth 48 (t.trapvec ++ 0#2))
    { (t.setCtx 0 c1) with nest := true, fsel := lowestPend t.pend }

/-- The cause word: LATE in bit 8, CODE in bits 7:0 (R364). -/
def causeWord (code : Byte) (late : Bool) : Word := code.setWidth 64 ||| (if late then 0x100 else 0)

/-- Words 0 to 2 of the error record, written while V is 0 (R383). -/
def ErrRec.note (e : ErrRec) (code : Byte) (row col actor ctx : Nat) (pc val : Word) : ErrRec :=
  if e.w0.getLsbD 32 then e
  else
    { e with
      w0 := BitVec.ofNat 64 (code.toNat * 2 ^ 56 + row % 256 * 2 ^ 48 + col % 256 * 2 ^ 40 + actor % 8 * 2 ^ 37
        + ctx % 16 * 2 ^ 33 + 2 ^ 32)
      w1 := pc, w2 := val }

/-- Logical positions are numbered lrow × 144 + lcol; a tile's position in its residency's region (R314). -/
def relPos (g : Region) (rects : List (Nat × Nat × Nat × Nat)) (tile : Nat) : Nat × Nat :=
  let r := nthD rects g.rect (0, 0, 0, 0)
  (tile / 144 - (r.1 + g.row), tile % 144 - (r.2.1 + g.col))

/-- The error record of a tile's residency takes a trap of a context, as its first (R383). -/
def State.recordTrap (s : State) (tile ctx : Nat) (code : Byte) (pc val : Word) : State :=
  let t := s.tile tile
  let h := t.slot.handle
  let r := s.resOf h
  match r.region with
  | none => s
  | some g =>
    let p := relPos g s.rects tile
    s.updErr h fun e => e.note code p.1 p.2 ((t.ctx ctx).actor) ctx pc val

/-- The record of a helper's trap (R383); context 0 belongs to no residency (log entry 15). -/
def State.noteTrap (s : State) (tile ctx : Nat) (code : Byte) (pc val : Word) : State :=
  if ctx == 0 then s else s.recordTrap tile ctx code pc val

/-- The frame of a helper that traps: it stops, its PEND bit is set, and context 0 is entered when NEST is 0 (R365). -/
def helperTrap (s : State) (tile ctx : Nat) (code : Byte) (val : Word) (pc : Addr) (late : Bool) : State :=
  let t := s.tile tile
  let c := t.ctx ctx
  let c1 := { c with
    mode := .trapped, stalled := false, startAt := none, cause := causeWord code late, trappc := pc.setWidth 64, trapval := val }
  let t1 := { (t.setCtx ctx c1) with pend := t.pend ||| (1#11 <<< ctx) }
  (s.setTile tile t1.enterMonitor).noteTrap tile ctx code (pc.setWidth 64) val

/-- A trap of context 0 itself: its handler is entered, or with NEST = 1 the tile processor stops (R366). -/
def monitorTrap (s : State) (tile : Nat) (code : Byte) (val : Word) (pc : Addr) (late : Bool) : State :=
  let t := s.tile tile
  if t.nest then
    { (s.setTile tile { t with alive := false }) with
      retireDue := s.retireDue ++ [.tile (AMap.getD s.phys tile 13104) false] }
  else
    let c := t.ctx 0
    let c1 := ({ c with
      stalled := false, cause := causeWord code late, trappc := pc.setWidth 64, trapval := val }).setPc
        (BitVec.setWidth 48 (t.trapvec ++ 0#2))
    s.setTile tile { (t.setCtx 0 c1) with nest := true, fsel := 0 }

/-- A late trap that is due at once. -/
def lateNow (code : Byte) (val : Word) (pc : Addr) : LateTrap := ⟨code, val, pc, none, none, true, true⟩

/-- A late trap taken at the observation of a tag and, with `atDone`, at the drain before DONE (R240, R258). -/
def lateTag (code : Byte) (val : Word) (pc : Addr) (tag : BitVec 6) (atDone : Bool) : LateTrap :=
  ⟨code, val, pc, some tag, none, true, atDone⟩

/-- A late trap is due when it waits for nothing (R81, R240). -/
def LateTrap.due (l : LateTrap) : Bool := l.tag.isNone && l.vd.isNone

/-- TAKING A TRAP (R365, R366), in a context whose vector queue has drained: the frame or the double fault. -/
def trapInto (s : State) (tile ctx : Nat) (code : Byte) (val : Word) (pc : Addr) (late : Bool) : State :=
  if ctx = 0 then monitorTrap s tile code val pc late else helperTrap s tile ctx code val pc late

/-- The oldest due late trap is taken at the context's boundary (R81, R174, R240, R258, R301). -/
def takeLate (s : State) (tile ctx : Nat) : Option State :=
  let c := (s.tile tile).ctx ctx
  match c.lates.find? LateTrap.due with
  | none => none
  | some l =>
    let s1 := s.updTile tile fun t => t.setCtx ctx { c with lates := c.lates.erase l }
    some (trapInto s1 tile ctx l.code l.val l.pc l.late)

/-- A due late trap is taken at the context's boundary, after its vector queue has drained (R161, R365). -/
def lateTaken (s : State) (tile ctx : Nat) : Option State :=
  if ((s.tile tile).ctx ctx).lates.any LateTrap.due then takeLate (vecDrain s tile ctx) tile ctx else none

/-- A trap is raised at the current instruction: the vector queue drains first, and a trap that the drain raises, of an
earlier instruction, is the one taken (R161, R365). -/
def raiseTrap (s : State) (code : Byte) (val : Word) (pc : Addr) : State :=
  let s1 := vecDrain s s.cur.tile s.cur.ctx
  match takeLate s1 s.cur.tile s.cur.ctx with
  | some s2 => s2
  | none => trapInto s1 s.cur.tile s.cur.ctx code val pc false

/-- A freed helper: its context's engine queues stay, with the commands of the task that left (R45, R181, R298). -/
def Ctx.freed (c : Ctx) : Ctx := { Ctx.init with mxq := c.mxq, dmq := c.dmq, lcq := c.lcq }

/-- The task without the engine queues of the helper it leaves. -/
def Ctx.noQueues (c : Ctx) : Ctx := { c with mxq := [], dmq := [], lcq := [] }

/-- A task on a helper: it takes over the helper's engine queues as they stand. -/
def Ctx.onHelper (c old : Ctx) : Ctx := { c with mxq := old.mxq, dmq := old.dmq, lcq := old.lcq }

/-- A page wait: the task leaves its helper and waits on the pager's future, PCC at the waiting instruction (R298).
Context 0 has no helper to leave: it stalls (log entry 16). -/
def pageWait (s : State) (va : Addr) : State :=
  if s.cur.ctx = 0 then s.stallMe
  else
    let s1 := vecDrain s s.cur.tile s.cur.ctx
    match takeLate s1 s.cur.tile s.cur.ctx with
    | some s2 => s2
    | none =>
      let t := s1.here
      let c := s1.me
      let c1 := { c with
        stalled := false, cause := codePageWait.setWidth 64, trappc := c.pc.setWidth 64, trapval := va.setWidth 64 }
      s1.setHere { (t.setCtx s.cur.ctx c.freed) with
        waiters := t.waiters ++ [{ ctx := c1.noQueues, va := va, ready := none, denied := false }] }

/-- What an instruction's attempt comes to. -/
def finishTry (s : State) (r : Try State) : Out :=
  match r with
  | .ok s' => .next s'
  | .error (.trap code val) => .next (raiseTrap s code val s.me.pc)
  | .error (.trapAt code val pc) => .next (raiseTrap s code val pc)
  | .error .stall => .next s.stallMe
  | .error (.page va) => .next (pageWait s va)
  | .error (.become s') => .next s'

/-- An instruction that a REP body must not hold traps ILLEGAL within a pass (R146). -/
def notInRep (s : State) (i : Instr) : Try Unit := trapIf s.me.inRep codeIllegal (wordsVal i)

/-! Lookahead windows (R79 to R82). -/

/-- Whether an operation still under way will write a register outside a window: it was issued inside the window, so the
window stays open for it. -/
def Ctx.winBusy (t : Tile) (c : Ctx) (w : Win) : Bool :=
  match w.cls with
  | .k => c.vq.any (fun e => e.kDest == some w.dest) || (AMap.vals t.reqs).any (reqHolds c.task w.dest true)
  | .v => c.vq.any fun e => e.op != w.op && (vFields e.instr).any (· == w.dest)
  | .m => c.vq.any fun e => e.op != w.op && (mFields e.instr).any (· == w.dest)
  | .none => false

/-- A window closes: the result replaces the shadow, or, for a failed operation, the register keeps what it holds and the
late trap is due (R79, R81). -/
def Ctx.closeWin (c : Ctx) (w : Win) : Ctx :=
  let c1 := { c with wins := c.wins.erase w }
  if w.fail != 0 then
    { c1 with lates := c1.lates ++
      [{ code := w.fail, val := w.failVal, pc := w.pc, tag := none, vd := none, late := true, atDone := true }] }
  else match w.cls with
    | .k => c1.writeK w.dest ⟨w.resultTag, w.result.setWidth 128⟩
    | .v => c1.writeV w.dest.toNat w.result
    | .m => c1.writeM w.dest.toNat (w.result.setWidth 16)
    | .none => c1

/-- The early closure of R80: issue waits until the window's result has arrived, and a late trap it raises is taken. -/
def earlyClose (s : State) (w : Win) : Try State :=
  if !w.arrived || Ctx.winBusy s.here s.me w then .error .stall
  else
    let s1 := s.setMe (s.me.closeWin w)
    match lateTaken s1 s.cur.tile s.cur.ctx with
    | some s2 => .error (.become s2)
    | none => .ok s1

/-- The oldest of a list of windows. -/
def oldestWin : List Win → Option Win
  | [] => none
  | w :: ws => match oldestWin ws with
    | none => some w
    | some x => some (if w.age ≤ x.age then w else x)

/-- Before a long-latency instruction with LA ≠ 0 issues: a window on its destination closes, and the oldest of four (R80). -/
def prepWin (s : State) (la : BitVec 4) (cls : RegClass) (dest : BitVec 6) : Try State := do
  if la = 0 then pure s
  else
    let s1 ← match s.me.wins.find? (fun w => decide (w.cls = cls) && w.dest == dest) with
      | some w => earlyClose s w
      | none => pure s
    if s1.me.wins.length < 4 then pure s1
    else match oldestWin s1.me.wins with
      | some w => earlyClose s1 w
      | none => pure s1

/-- The lowest window number that no open window has. -/
def freeWinSlot (ws : List Win) : Nat := ((upto 4).find? fun i => !ws.any (·.slot == i)).getD 0

/-- Opens a window for an operation just issued (R79); its frame words are the window's from here on. -/
def Ctx.openWin (c : Ctx) (la : BitVec 4) (cls : RegClass) (dest : BitVec 6) (op : Nat) (pc : Addr) : Ctx :=
  if la = 0 then c
  else
    { c with
      wins := c.wins ++
        [{ cls := cls, dest := dest, left := la, arrived := false, result := 0, resultTag := false, fail := 0, failVal := 0
           pc := pc, op := op, age := op, slot := freeWinSlot c.wins }]
      winWords := c.winWords.filter fun p => p.1 / 17 != freeWinSlot c.wins }

/-- A long-latency instruction's attempt: step 7 of R85, then the early closures of R80, then its own body. -/
def issueLong (s : State) (fields : List (BitVec 6)) (la : BitVec 4) (cls : RegClass) (dest : BitVec 6)
    (body : State → Try State) : Out :=
  match rangeCheck s.me fields with
  | .error h => finishTry s (.error h)
  | .ok _ => match prepWin s la cls dest with
    | .error h => finishTry s (.error h)
    | .ok s1 => finishTry s1 (body s1)

/-! Returning from a trap (R369). -/

/-- ERET with n = 0: context 0 goes back to frame 0's TRAPPC with NEST 0, and is entered again at once when a frame is
pending. -/
def Tile.eretSelf (t : Tile) : Tile :=
  let c := t.ctx 0
  ({ (t.setCtx 0 (c.setPc (c.trappc.setWidth 48))) with nest := false }).enterMonitor

/-- ERET with n ≥ 1: context n resumes from its frame as edited; where the tile is asked to halt, it halts at that boundary with a
frame of code PREEMPT (R371). -/
def Tile.eretResume (t : Tile) (n : Nat) : Tile :=
  let c := t.ctx n
  let c0 := { c with mode := .running, stalled := false }
  let c1 := if t.preReq then
      { c0 with halted := true, cause := codePreempt.setWidth 64, trappc := c.pc.setWidth 64, trapval := 0 }
    else { c0 with halted := false }
  { (t.setCtx n c1) with pend := t.pend &&& ~~~(1#11 <<< n) }

/-- ERET with n ≥ 1 and ABORT: helper n is freed and its frame discarded. -/
def Tile.eretAbort (t : Tile) (n : Nat) : Tile :=
  { (t.setCtx n (t.ctx n).freed) with pend := t.pend &&& ~~~(1#11 <<< n) }

/-! Tags and operations. -/

/-- A new operation number of the tile. -/
def Tile.newOp (t : Tile) : Tile × Nat := ({ t with nextOp := t.nextOp + 1 }, t.nextOp)

/-- The tag that an engine command names. -/
def EngCmd.tag (e : EngCmd) : BitVec 6 :=
  match e.instr with
  | .mma f | .minit f | .minitPort f | .mrel f | .mzero f | .mshape f | .mrd f => f.tag
  | .ltab f | .ltabStream f | .lwire f | .lsel f | .leval f | .lslice f | .lunslice f | .lpld f | .lpst f | .lpcnt f => f.tag
  | .dcopy f | .dscfg f | .dsgo f | .dsstop f | .dbank f => f.tag
  | _ => 0

/-- The engine commands of a tile that have not completed. -/
def Tile.engCmds (t : Tile) : List EngCmd := (AMap.vals t.ctxs).flatMap fun c => c.mxq ++ c.dmq ++ c.lcq

/-- The operation that names a tag of a task is one of the streams. -/
def Stream.names (x : Stream) (task : Nat) (tag : BitVec 6) : Bool :=
  match x.go with
  | some (tk, tg, _, _) => tk == task && tg == tag
  | none => false

/-- A sweep names a tag of a task (R301). -/
def Sweep.names (w : Sweep) (tile task : Nat) (tag : BitVec 6) : Bool :=
  w.tile == tile && w.task == task && w.tag == tag

/-- Whether an outstanding operation of a task names a tag (R239): a request, an engine command, a stream, a sweep, an ordered message,
or context 0's CSLOT (R335). -/
def tagBusy (s : State) (tile task : Nat) (tag : BitVec 6) : Bool :=
  let t := s.tile tile
  (AMap.vals t.reqs).any (fun q => q.task == task && q.tag == some tag)
    || t.engCmds.any (fun e => e.task == task && e.tag == tag)
    || (AMap.vals t.accs).any (fun a => match a.waiter with
      | some (tk, _, tg, _) => tk == task && tg == tag
      | none => false)
    || (AMap.vals t.slot.streams).any (fun x => x.names task tag)
    || (AMap.vals s.sweeps).any (fun w => w.names tile task tag)
    || t.injectDue.any (fun d => d.task == task && d.tag == tag)
    || t.switchTo.any (fun x => x.2 == some tag && task == (t.ctx 0).task)

/-- Issuing an operation that names a tag waits for the tag's outstanding operation, then clears the tag (R239). -/
def claimTag (s : State) (tag : BitVec 6) : Try State :=
  if tagBusy s s.cur.tile s.me.task tag then .error .stall else .ok (s.setMe (s.me.tagClear tag))

/-- The tag of a task is set, wherever the task stands (R365). -/
def Tile.setTaskTag (t : Tile) (task : Nat) (tag : BitVec 6) : Tile := t.updTask task fun c => c.tagSet tag

/-- Observing tags: the late traps that wait for one of them become due (R240, R258, R301). -/
def Ctx.observe (c : Ctx) (tags : Word) : Ctx :=
  { c with lates := c.lates.map fun l => match l.tag with
      | some t => if tags.getLsbD t.toNat then { l with tag := none } else l
      | none => l }

/-- The takes and puts that a firing has made, by port: its primary helper counts them (R250, R367). -/
def firingDonec (t : Tile) (c : Ctx) : AMap Nat :=
  match (t.actor c.actor).live with
  | none => c.donec
  | some fr =>
    if fr.primary = c.task then c.donec
    else match t.taskCtx fr.primary with
      | some p => p.donec
      | none => fr.donec

/-- One more put of the context's firing on a port. -/
def countPut (s : State) (p : Nat) : State :=
  let c := s.me
  let t := s.here
  let bump := fun (m : AMap Nat) => AMap.set m p (AMap.getD m p 0 + 1)
  match (t.actor c.actor).live with
  | none => s.setMe { c with donec := bump c.donec }
  | some fr =>
    if fr.primary = c.task then s.setMe { c with donec := bump c.donec }
    else if (t.taskCtx fr.primary).isSome then s.setHere (t.updTask fr.primary fun x => { x with donec := bump x.donec })
    else s.setHere (t.setActor c.actor { t.actor c.actor with live := some { fr with donec := bump fr.donec } })

/-- The completion-token rule at issue (R78): the completion port has room in its declared count; context 0 has no actor, and
a team traps (R304). The put is counted at issue. -/
def claimToken (s : State) (tok : Bool) : Try State :=
  if !tok then .ok s
  else if s.me.role = .team then .error (.trap codePortMisuse 0)
  else
    match (if s.cur.ctx = 0 then none else s.here.complPort s.me.actor) with
    | none => .error (.trap codePortMisuse (BitVec.allOnes 64))
    | some p =>
      if (s.here.port p).count ≤ AMap.getD (firingDonec s.here s.me) p 0 ∨ (s.here.port p).closed then
        .error (.trap codePortMisuse (BitVec.ofNat 64 p))
      else .ok (countPut s p)

/-- An operation of a task completes: its tag is set, and its completion token is sent (R78). -/
def State.opDone (s : State) (tile task actor : Nat) (tag : BitVec 6) (tok : Bool) : State :=
  let s1 := s.updTile tile fun t => t.setTaskTag task tag
  if tok then s1.sendCompletion tile actor tag else s1

end Sys2Proof.Machine
end

