-- ==== Sys2Proof/Machine/Operands.lean ====
section
/-!
DEFINITION. Operand forms of the scalar pipeline: immediates, addresses from capabilities, branch targets, the link, the
words of a body and its end (03 R70, 05 R131, R138 to R140, R142, R147).
-/

namespace Sys2Proof.Machine

/-- s: the sign-extended immediate (R70, R131). -/
def simm12 (imm : BitVec 12) : Word := imm.signExtend 64

/-- PC + 4 × SignExtend(off12) (R138). -/
def branchTarget (c : Ctx) (off : BitVec 12) : Addr := c.pc + (off.signExtend 48 <<< 2)

/-- PC + 4 × SignExtend(off24) (R139). -/
def jumpTarget (c : Ctx) (off : BitVec 24) : Addr := c.pc + (off.signExtend 48 <<< 2)

/-- The link: PCC with its address set to PC + 4 and its tag set (R139, R140). -/
def linkOf (c : Ctx) : KReg := { c.pcc.withAddr (c.pc + 4) with tag := true }

/-- (c.address + s) mod 2^48 (R147). -/
def tlmAddr (c : KReg) (imm : BitVec 12) : Nat := (c.addr + imm.signExtend 48).toNat

/-- The word a context fetches at an address: the one it still holds, else the one in TLM (R267; log entry 14). -/
def fetchWord (t : Tile) (c : Ctx) (a : Nat) : BitVec 32 :=
  match AMap.get? c.stale a with
  | some w => w
  | none => BitVec.ofNat 32 (t.readTlm a 4)

/-- BodyEnd (R142): the address after n instructions from a, found by their length bits. -/
def bodyEnd (t : Tile) (c : Ctx) : Nat → Nat → Nat
  | 0, a => a
  | n + 1, a => bodyEnd t c n (if (fetchWord t c a).toNat % 4 = 1 then a + 8 else a + 4)

end Sys2Proof.Machine
end

