-- ==== Sys2Proof/Machine/Scalar.lean ====
section
/-!
DEFINITION. The scalar pipeline: integer and immediate instructions, branches and jumps, hardware loops and the repetition
buffer (05 R131 to R146).
-/

namespace Sys2Proof.Machine

/-- WriteInt(d, v) by the instruction, which then completes (R131). -/
def State.writeInt (s : State) (d : BitVec 6) (v : Word) : State := (s.setMe (s.me.writeInt d v)).complete 4

/-- An INT instruction with register operands a and b (R133). -/
def intOp (f : K3) (s : State) (g : Word → Word → Word) : Out :=
  finishTry s (do
    guardK s [f.d, f.a, f.b] [f.a, f.b] [f.d]
    pure (s.writeInt f.d (g (s.me.readW f.a) (s.me.readW f.b))))

/-- An INT instruction with register operand a alone (R133). -/
def intOp1 (f : K3) (s : State) (g : Word → Word) : Out :=
  finishTry s (do
    guardK s [f.d, f.a] [f.a] [f.d]
    pure (s.writeInt f.d (g (s.me.readW f.a))))

/-- An immediate form: result from x and the sign-extended immediate (R135, R136). -/
def immOp (f : KI) (s : State) (g : Word → Word → Word) : Out :=
  finishTry s (do
    guardK s [f.d, f.a] [f.a] [f.d]
    pure (s.writeInt f.d (g (s.me.readW f.a) (simm12 f.imm))))

/-! Results (R133, R134). -/

def bool64 (b : Bool) : Word := if b then 1 else 0

def mulHigh (x y : BitVec 128) : Word := (x * y).extractLsb' 64 64

/-- Div of R134: the truncated quotient. -/
def divQ (x y : Word) : Word :=
  if y = 0 then BitVec.allOnes 64
  else if x = BitVec.intMin 64 ∧ y = BitVec.allOnes 64 then BitVec.intMin 64
  else BitVec.ofInt 64 (x.toInt.tdiv y.toInt)

/-- Div of R134: the remainder, with the sign of the dividend. -/
def divR (x y : Word) : Word :=
  if y = 0 then x
  else if x = BitVec.intMin 64 ∧ y = BitVec.allOnes 64 then 0
  else BitVec.ofInt 64 (x.toInt - x.toInt.tdiv y.toInt * y.toInt)

def divUQ (x y : Word) : Word := if y = 0 then BitVec.allOnes 64 else BitVec.ofNat 64 (x.toNat / y.toNat)

def divUR (x y : Word) : Word := if y = 0 then x else BitVec.ofNat 64 (x.toNat % y.toNat)

def leadingZeros (x : Word) : Word := if x = 0 then 64 else BitVec.ofNat 64 (63 - Nat.log2 x.toNat)

def trailingZeros (x : Word) : Word := if x = 0 then 64 else BitVec.ofNat 64 (Nat.log2 (x &&& -x).toNat)

/-- The low 32 bits, sign-extended. -/
def sext32 (x : Word) : Word := (x.extractLsb' 0 32).signExtend 64

def sextW (code : BitVec 6) (x : Word) : Word :=
  match code.toNat with
  | 0 => (x.extractLsb' 0 8).signExtend 64
  | 1 => (x.extractLsb' 0 16).signExtend 64
  | _ => (x.extractLsb' 0 32).signExtend 64

def zextW (code : BitVec 6) (x : Word) : Word :=
  match code.toNat with
  | 0 => (x.extractLsb' 0 8).setWidth 64
  | 1 => (x.extractLsb' 0 16).setWidth 64
  | _ => (x.extractLsb' 0 32).setWidth 64

/-- The shift amount y[5:0]. -/
def sh (y : Word) : Nat := y.toNat % 64

/-! Register-register instructions (R133, R134). -/

def execAdd (f : K3) (s : State) : Out := intOp f s fun x y => x + y
def execSub (f : K3) (s : State) : Out := intOp f s fun x y => x - y
def execMul (f : K3) (s : State) : Out := intOp f s fun x y => x * y
def execMulh (f : K3) (s : State) : Out := intOp f s fun x y => mulHigh (x.signExtend 128) (y.signExtend 128)
def execMulhu (f : K3) (s : State) : Out := intOp f s fun x y => mulHigh (x.setWidth 128) (y.setWidth 128)
def execDiv (f : K3) (s : State) : Out := intOp f s divQ
def execDivu (f : K3) (s : State) : Out := intOp f s divUQ
def execRem (f : K3) (s : State) : Out := intOp f s divR
def execRemu (f : K3) (s : State) : Out := intOp f s divUR
def execAndR (f : K3) (s : State) : Out := intOp f s fun x y => x &&& y
def execOrR (f : K3) (s : State) : Out := intOp f s fun x y => x ||| y
def execXorR (f : K3) (s : State) : Out := intOp f s fun x y => x ^^^ y
def execAndn (f : K3) (s : State) : Out := intOp f s fun x y => x &&& ~~~y
def execOrn (f : K3) (s : State) : Out := intOp f s fun x y => x ||| ~~~y
def execShl (f : K3) (s : State) : Out := intOp f s fun x y => x <<< sh y
def execShr (f : K3) (s : State) : Out := intOp f s fun x y => x >>> sh y
def execSra (f : K3) (s : State) : Out := intOp f s fun x y => x.sshiftRight (sh y)
def execRor (f : K3) (s : State) : Out := intOp f s fun x y => x.rotateRight (sh y)
def execMinR (f : K3) (s : State) : Out := intOp f s fun x y => if x.toInt ≤ y.toInt then x else y
def execMaxR (f : K3) (s : State) : Out := intOp f s fun x y => if x.toInt ≤ y.toInt then y else x
def execMinu (f : K3) (s : State) : Out := intOp f s fun x y => if x.toNat ≤ y.toNat then x else y
def execMaxu (f : K3) (s : State) : Out := intOp f s fun x y => if x.toNat ≤ y.toNat then y else x
def execSlt (f : K3) (s : State) : Out := intOp f s fun x y => bool64 (decide (x.toInt < y.toInt))
def execSltu (f : K3) (s : State) : Out := intOp f s fun x y => bool64 (decide (x.toNat < y.toNat))
def execSeq (f : K3) (s : State) : Out := intOp f s fun x y => bool64 (x == y)
def execSne (f : K3) (s : State) : Out := intOp f s fun x y => bool64 (x != y)
def execClz (f : K3) (s : State) : Out := intOp1 f s leadingZeros
def execCtz (f : K3) (s : State) : Out := intOp1 f s trailingZeros
def execPopc (f : K3) (s : State) : Out := intOp1 f s fun x => BitVec.ofNat 64 (popc 64 x.toNat)
def execAddw (f : K3) (s : State) : Out := intOp f s fun x y => sext32 (x + y)
def execSubw (f : K3) (s : State) : Out := intOp f s fun x y => sext32 (x - y)
def execMulw (f : K3) (s : State) : Out := intOp f s fun x y => sext32 (x * y)
def execSext (f : K3) (s : State) : Out := intOp1 f s (sextW f.b)
def execZext (f : K3) (s : State) : Out := intOp1 f s (zextW f.b)

/-! Immediate forms (R135, R136, R137). -/

def execAddi (f : KI) (s : State) : Out := immOp f s fun x i => x + i
def execAndi (f : KI) (s : State) : Out := immOp f s fun x i => x &&& i
def execOri (f : KI) (s : State) : Out := immOp f s fun x i => x ||| i
def execXori (f : KI) (s : State) : Out := immOp f s fun x i => x ^^^ i
def execShli (f : KI) (s : State) : Out := immOp f s fun x i => x <<< sh i
def execShri (f : KI) (s : State) : Out := immOp f s fun x i => x >>> sh i
def execSrai (f : KI) (s : State) : Out := immOp f s fun x i => x.sshiftRight (sh i)
def execRori (f : KI) (s : State) : Out := immOp f s fun x i => x.rotateRight (sh i)
def execSlti (f : KI) (s : State) : Out := immOp f s fun x i => bool64 (decide (x.toInt < i.toInt))
def execSltui (f : KI) (s : State) : Out := immOp f s fun x i => bool64 (decide (x.toNat < i.toNat))
def execMuli (f : KI) (s : State) : Out := immOp f s fun x i => x * i

/-- LI: SignExtend(imm48) (R137). -/
def execLi (f : LIW) (s : State) : Out :=
  finishTry s (do
    guardK s [f.d] [] [f.d]
    pure ((s.setMe (s.me.writeInt f.d (f.imm.signExtend 64))).complete 8))

/-- LIH: imm18 × 2^46 + k[d][45:0] (R137). -/
def execLih (f : KU) (s : State) : Out :=
  finishTry s (do
    guardK s [f.d] [f.d] [f.d]
    pure (s.writeInt f.d (f.imm ++ (s.me.readW f.d).extractLsb' 0 46)))

/-! Branches and jumps (R138 to R141, R144, R146). -/

/-- A conditional branch (R138): taken to the target, or on by 4. -/
def branchOp (i : Instr) (f : KB) (s : State) (g : Word → Word → Bool) : Out :=
  finishTry s (do
    guardK s [f.a, f.b] [f.a, f.b] []
    notInRep s i
    pure (if g (s.me.readW f.a) (s.me.readW f.b) then s.completeJump (branchTarget s.me f.off) else s.complete 4))

def execBeq (f : KB) (s : State) : Out := branchOp (.beq f) f s fun x y => x == y
def execBne (f : KB) (s : State) : Out := branchOp (.bne f) f s fun x y => x != y
def execBlt (f : KB) (s : State) : Out := branchOp (.blt f) f s fun x y => decide (x.toInt < y.toInt)
def execBge (f : KB) (s : State) : Out := branchOp (.bge f) f s fun x y => decide (y.toInt ≤ x.toInt)
def execBltu (f : KB) (s : State) : Out := branchOp (.bltu f) f s fun x y => decide (x.toNat < y.toNat)
def execBgeu (f : KB) (s : State) : Out := branchOp (.bgeu f) f s fun x y => decide (y.toNat ≤ x.toNat)

def execJump (f : KJ) (s : State) : Out :=
  finishTry s (do
    notInRep s (.jump f)
    pure (s.completeJump (jumpTarget s.me f.off)))

/-- JAL: the link goes to k1 (R139). -/
def execJal (f : KJ) (s : State) : Out :=
  finishTry s (do
    guardK s [1] [] [1]
    notInRep s (.jal f)
    let c := s.me
    pure ((s.setMe (c.writeK 1 (linkOf c))).completeJump (jumpTarget c f.off)))

/-- JALR through the capability in k[a] (R140). -/
def execJalr (f : KI) (s : State) : Out :=
  finishTry s (do
    guardK s [f.d, f.a] [f.a] [f.d]
    notInRep s (.jalr f)
    let me := s.me
    let c := me.readK f.a
    let target : Addr := c.addr + f.imm.signExtend 48
    let v := target.setWidth 64
    trapIf (!c.tag) codeCapTag v
    trapIf c.isSealed codeCapSeal v
    trapIf (!(c.has .x && c.has .tlm)) codeCapPerm v
    trapIf (decide (target.toNat % 4 ≠ 0)) codeAlign v
    pure ((s.setMe ({ me with pcc := c.withAddr target }.writeK f.d (linkOf me))).completeJump target))

/-! Hardware loops and REP (R142, R145, R146). -/

/-- LOOP: opens a level over the next len instructions, or skips them when the count is 0 (R142). -/
def execLoopI (f : KI) (s : State) : Out :=
  finishTry s (do
    guardK s [f.a] [f.a] []
    let c := s.me
    let n := c.readW f.a
    notInRep s (.loopI f)
    trapIf c.loop1.active codeIllegal (wordsVal (.loopI f))
    let st := c.pc + 4
    let e := bodyEnd s.here c f.imm.toNat st.toNat
    trapIf (decide (c.pcc.top < (e : Int))) codeCapBounds (BitVec.ofNat 64 e)
    trapIf (c.loop0.active && decide (c.loop0.e.toNat < e)) codeIllegal (wordsVal (.loopI f))
    if n = 0 then pure (s.complete (e - c.pc.toNat))
    else
      let l : LoopLevel := { active := true, s := st, e := BitVec.ofNat 48 e, lc := n }
      let c1 := if c.loop0.active then { c with loop1 := l } else { c with loop0 := l }
      pure (s.setMe { (c1.countWins.setPc st) with stalled := false }))

/-- The innermost active level (R145). -/
def Ctx.innerLoop (c : Ctx) : Option LoopLevel :=
  if c.loop1.active then some c.loop1 else if c.loop0.active then some c.loop0 else none

/-- REP: replays the next len instructions count times (R145). -/
def execRepI (f : KR) (s : State) : Out :=
  finishTry s (do
    let c := s.me
    notInRep s (.repI f)
    let st := c.pc + 4
    let e := bodyEnd s.here c (f.len1.toNat + 1) st.toNat
    trapIf (decide (c.pcc.top < (e : Int))) codeCapBounds (BitVec.ofNat 64 e)
    trapIf (match c.innerLoop with
      | some l => decide (l.e.toNat < e)
      | none => false) codeIllegal (wordsVal (.repI f))
    let r : RepBuf :=
      { active := true, s := st, e := BitVec.ofNat 48 e, count1 := f.count1, stride := f.stride, pass := 0, idx := 0, words := [] }
    pure (s.setMe { ({ c with rep := r }.countWins.setPc st) with stalled := false }))

end Sys2Proof.Machine
end

