-- ==== Sys2Proof/Machine/Flags.lean ====
section
/-!
DEFINITION. The flag registers: FPC with its rounding mode and sticky flags, and ACCSTAT (04 R117, R119, 07 R183). What a
vector operation adds to the flags is computed beside it in Float and VecAlu.
-/

namespace Sys2Proof.Machine

/-- The RM field (R117). -/
def fpcRm (fpc : Word) : BitVec 3 := fpc.extractLsb' 5 3
def fpcFtz (fpc : Word) : Bool := fpc.getLsbD 9
def fpcDaz (fpc : Word) : Bool := fpc.getLsbD 10
/-- NV, DZ, OF, UF and NX (R117). -/
def fpcFlags (fpc : Word) : BitVec 5 := fpc.extractLsb' 0 5

/-- A write of FPC: reserved bits stay 0, and RM keeps its value when 0, 6 or 7 is written (R117). -/
def fpcWrite (old v : Word) : Word :=
  let rm := fpcRm v
  let rm1 := if rm = 0 ∨ rm = 6 ∨ rm = 7 then fpcRm old else rm
  (0#53 ++ v.extractLsb' 9 2 ++ 0#1 ++ rm1 ++ v.extractLsb' 0 5 : BitVec 64)

/-- A write of VQW: W keeps its value when 0 is written (R295). -/
def vqwWrite (old : BitVec 4) (v : Word) : BitVec 4 := if v.extractLsb' 0 4 = 0 then old else v.extractLsb' 0 4

def bit16 (b : Bool) (n : Nat) : BitVec 16 := if b then 1#16 <<< n else 0

/-- The ACCSTAT group of an accumulator (R183). -/
def accGroup (a : Acc) : BitVec 16 :=
  bit16 a.live 15 ||| (a.shape.setWidth 16 <<< 13) ||| bit16 a.counted 12 ||| bit16 a.psn 11 ||| bit16 a.rsh 10
    ||| bit16 a.nan 9 ||| bit16 a.inf 8 ||| bit16 a.rof 7 ||| bit16 a.ruf 6 ||| bit16 a.rnx 5 ||| bit16 a.part 4

def accStat (t : Tile) : Word :=
  accGroup (t.acc 3) ++ accGroup (t.acc 2) ++ accGroup (t.acc 1) ++ accGroup (t.acc 0)

/-- Write-one-to-clear of an accumulator's group (R183). -/
def accClear (a : Acc) (g : BitVec 16) : Acc :=
  { a with
    rsh := a.rsh && !g.getLsbD 10, nan := a.nan && !g.getLsbD 9, inf := a.inf && !g.getLsbD 8
    rof := a.rof && !g.getLsbD 7, ruf := a.ruf && !g.getLsbD 6, rnx := a.rnx && !g.getLsbD 5
    part := a.part && !g.getLsbD 4 }

def accStatWrite (t : Tile) (v : Word) : Tile :=
  let put := fun (t : Tile) n => t.setAcc n (accClear (t.acc n) (v.extractLsb' (16 * n) 16))
  put (put (put (put t 0) 1) 2) 3

end Sys2Proof.Machine
end

