-- ==== Sys2Proof/Machine/Names.lean ====
section
/-!
DEFINITION. Tile names and regions (01 R21 to R24, 02 R62).
-/

namespace Sys2Proof.Machine

/-- The tile that a tile-name word names, when it passes the checks of R24 that do not concern a region. -/
def State.namedTile (s : State) (w : Word) : Option Nat :=
  let rect := (w.extractLsb' 16 6).toNat
  let row := (w.extractLsb' 8 8).toNat
  let col := (w.extractLsb' 0 8).toNat
  if w.toNat < 2 ^ 22 ∧ rect < s.rects.length then
    let r := nthD s.rects rect (0, 0, 0, 0)
    if row < r.2.2.1 ∧ col < r.2.2.2 then some ((r.1 + row) * 144 + (r.2.1 + col)) else none
  else none

/-- The tiles of a region, rows first. -/
def State.regionTiles (s : State) (g : Region) : List Nat :=
  (upto g.rows).flatMap fun i => (upto g.cols).map fun j => s.regionTile g i j

def State.inRegion (s : State) (g : Region) (tile : Nat) : Bool :=
  let p := relPos g s.rects tile
  let r := nthD s.rects g.rect (0, 0, 0, 0)
  decide (r.1 + g.row ≤ tile / 144) && decide (r.2.1 + g.col ≤ tile % 144) && decide (p.1 < g.rows) && decide (p.2 < g.cols)

/-- The tiles of a residency. -/
def State.resTiles (s : State) (h : Nat) : List Nat := match (s.resOf h).region with
  | none => []
  | some g => s.regionTiles g

/-- The control block of the residency that a tile's active slot belongs to. -/
def State.handleOf (s : State) (tile : Nat) : Nat := (s.tile tile).slot.handle

/-- A tile-name word used by a residency (R24): it must lie in the residency's region. -/
def State.regionName (s : State) (h : Nat) (w : Word) : Option Nat :=
  match s.namedTile w, (s.resOf h).region with
  | some t, some g => if s.inRegion g t then some t else none
  | _, _ => none

end Sys2Proof.Machine
end

