-- ==== Sys2Proof/Machine/SysRegs.lean ====
section
/-!
DEFINITION. The system registers, the frame window and the halt of a tile that PREEMPT commands (15 R362 to R364, R367, R370
to R372, 10 R264, 12 R295, R312, 11 R288).
-/

namespace Sys2Proof.Machine

/-! Frames (R367). -/

/-- Word j of 64-bit words of a k register as a frame shows it: low word, high word, tag. -/
def KReg.frameWord (c : KReg) (j : Nat) : Word :=
  if j = 0 then c.word else if j = 1 then c.bits.extractLsb' 64 64 else if c.tag then 1 else 0

def KReg.setFrameWord (c : KReg) (j : Nat) (v : Word) : KReg :=
  if j = 0 then { c with bits := c.bits.extractLsb' 64 64 ++ v }
  else if j = 1 then { c with bits := v ++ c.word }
  else { c with tag := v.getLsbD 0 }

def roleCode : Role → Nat
  | .started => 1
  | .team => 2
  | _ => 0

/-- Word 0x1CB (R367). -/
def Ctx.infoWord (c : Ctx) : Word :=
  if c.mode = .free then 0
  else BitVec.ofNat 64 (2 ^ 63 + roleCode c.role * 2 ^ 61 + c.actor % 8 * 2 ^ 58 + c.sweepSlot % 4 * 2 ^ 56
    + (c.regs - 1) % 64 * 2 ^ 50 + c.starts % 16 * 2 ^ 46)

/-- DONEC: four bits for each of ports 16 h to 16 h + 15. -/
def Ctx.donecWord (c : Ctx) (h : Nat) : Word :=
  BitVec.ofNat 64 ((upto 16).foldl (fun x p => x + AMap.getD c.donec (16 * h + p) 0 % 16 * 16 ^ p) 0)

def LoopLevel.word0 (l : LoopLevel) : Word :=
  (if l.active then 1#1 else 0#1) ++ 0#19 ++ l.e.extractLsb' 0 22 ++ l.s.extractLsb' 0 22

def LoopLevel.setWord (l : LoopLevel) (j : Nat) (v : Word) : LoopLevel :=
  if j = 0 then { l with active := v.getLsbD 63, e := (v.extractLsb' 22 22).setWidth 48, s := (v.extractLsb' 0 22).setWidth 48 }
  else { l with lc := v }

def RepBuf.word (r : RepBuf) : Word :=
  (if r.active then 1#1 else 0#1) ++ r.pass ++ r.count1 ++ r.stride ++ r.idx ++ r.e.extractLsb' 0 22 ++ r.s.extractLsb' 0 22

def RepBuf.setWord (r : RepBuf) (v : Word) : RepBuf :=
  { r with
    active := v.getLsbD 63, pass := v.extractLsb' 57 6, count1 := v.extractLsb' 51 6, stride := v.extractLsb' 48 3
    idx := v.extractLsb' 44 4, e := (v.extractLsb' 22 22).setWidth 48, s := (v.extractLsb' 0 22).setWidth 48 }

/-- The shadow value and tag of a window: what its register holds (log entry 5). -/
def Ctx.shadow (c : Ctx) (w : Win) : Bool × Line :=
  match w.cls with
  | .k => ((c.readK w.dest).tag, (c.readK w.dest).bits.setWidth 512)
  | .v => (false, c.readV w.dest.toNat)
  | .m => (false, (c.readM w.dest.toNat).setWidth 512)
  | .none => (false, 0)

def Ctx.setShadow (c : Ctx) (w : Win) (tag : Bool) (x : Line) : Ctx :=
  match w.cls with
  | .k => c.writeK w.dest ⟨tag, x.setWidth 128⟩
  | .v => c.writeV w.dest.toNat x
  | .m => c.writeM w.dest.toNat (x.setWidth 16)
  | .none => c

def RegClass.code : RegClass → BitVec 2
  | .k => 0 | .v => 1 | .m => 2 | .none => 3

/-- The class of a code; code 3, which R367 does not name, stands for no register file (DESIGN CHOICE, log entry 86). -/
def RegClass.ofCode (x : BitVec 2) : RegClass := if x = 0 then .k else if x = 1 then .v else if x = 2 then .m else .none

/-- Word j of eight of a line. -/
def lineWord (x : Line) (j : Nat) : Word := x.extractLsb' (64 * j) 64

def setLineWord (x : Line) (j : Nat) (v : Word) : Line :=
  (x &&& ~~~((BitVec.allOnes 64).setWidth 512 <<< (64 * j))) ||| (v.setWidth 512 <<< (64 * j))

/-- The window control word (R367). -/
def Ctx.winWord (c : Ctx) (w : Win) : Word :=
  1#1 ++ (if w.arrived then 1#1 else 0#1) ++ w.cls.code ++ (if (c.shadow w).1 then 1#1 else 0#1)
    ++ (if w.resultTag then 1#1 else 0#1) ++ w.dest ++ w.fail ++ w.pc.extractLsb' 0 22 ++ 0#18 ++ w.left

/-- Word o of the 17 words of window number w; those of a window that is not open hold what context 0 wrote there (R6, R367). -/
def Ctx.winRead (c : Ctx) (w o : Nat) : Word :=
  match c.wins.find? (·.slot == w) with
  | none => AMap.getD c.winWords (17 * w + o) 0
  | some x =>
    if o = 0 then c.winWord x
    else if o < 9 then lineWord (c.shadow x).2 (o - 1)
    else lineWord x.result (o - 9)

/-- The window that a control word describes (R367). -/
def Win.ofWord (slot : Nat) (v : Word) (old : Option Win) : Win :=
  { cls := RegClass.ofCode (v.extractLsb' 60 2), dest := v.extractLsb' 52 6, left := v.extractLsb' 0 4, arrived := v.getLsbD 62
    result := (old.map (·.result)).getD 0, resultTag := v.getLsbD 58, fail := v.extractLsb' 44 8
    failVal := (old.map (·.failVal)).getD 0, pc := (v.extractLsb' 22 22).setWidth 48, op := (old.map (·.op)).getD 0
    age := (old.map (·.age)).getD 0, slot := slot }

/-- The words 1 to 16 of a window that is not open, as a line from word o on, where context 0 has written some of them. -/
def Ctx.spareLine (c : Ctx) (w o : Nat) (d : Line) : Line :=
  (upto 8).foldl (fun x j => match AMap.get? c.winWords (17 * w + o + j) with
    | some v => setLineWord x j v
    | none => x) d

/-- A write of word o of window number w (R6, R367): VALID opens the window with what its other words hold, and closes it leaving
them readable; without a window the words keep what is written. -/
def Ctx.winWrite (c : Ctx) (w o : Nat) (v : Word) : Ctx :=
  let old := c.wins.find? (·.slot == w)
  let others := c.winWords.filter fun p => p.1 / 17 != w
  if o = 0 then
    let rest := c.wins.filter fun x => x.slot != w
    if v.getLsbD 63 then
      let x := Win.ofWord w v old
      let x1 := if old.isSome then x else { x with result := c.spareLine w 9 0 }
      let sh := if old.isSome then (c.shadow x).2 else c.spareLine w 1 (c.shadow x).2
      ({ c with wins := rest ++ [x1], winWords := others }).setShadow x1 (v.getLsbD 59) sh
    else
      let words := (upto 16).foldl (fun m j => AMap.set m (17 * w + 1 + j) (c.winRead w (1 + j))) others
      { c with wins := rest, winWords := AMap.set words (17 * w) (v &&& ~~~(0x3FFFF0 : Word)) }
  else match old with
    | none => { c with winWords := AMap.set c.winWords (17 * w + o) v }
    | some x =>
      if o < 9 then c.setShadow x (c.shadow x).1 (setLineWord (c.shadow x).2 (o - 1) v)
      else { c with wins := c.wins.map fun y => if y.slot == w then { y with result := setLineWord y.result (o - 9) v } else y }

/-- The m registers n to n + 3 in one word. -/
def Ctx.mWord (c : Ctx) (n : Nat) : Word := c.readM (n + 3) ++ c.readM (n + 2) ++ c.readM (n + 1) ++ c.readM n

/-- Frame word i of a context (R367). -/
def Ctx.frameRead (c : Ctx) (i : Nat) : Word :=
  if i < 0xC0 then (c.readK (BitVec.ofNat 6 (i / 3))).frameWord (i % 3)
  else if i < 0x1C0 then lineWord (c.readV ((i - 0xC0) / 8)) ((i - 0xC0) % 8)
  else if i = 0x1C0 then c.mWord 1
  else if i = 0x1C1 then 0#16 ++ c.readM 7 ++ c.readM 6 ++ c.readM 5
  else if i = 0x1C2 then c.tags
  else if i = 0x1C3 then c.fpc
  else if i = 0x1C4 then c.vqw.setWidth 64
  else if i < 0x1C8 then c.pcc.frameWord (i - 0x1C5)
  else if i = 0x1C8 then c.cause
  else if i = 0x1C9 then c.trappc
  else if i = 0x1CA then c.trapval
  else if i = 0x1CB then c.infoWord
  else if i < 0x1CE then c.donecWord (i - 0x1CC)
  else if i = 0x1CE then c.loop0.word0
  else if i = 0x1CF then c.loop0.lc
  else if i = 0x1D0 then c.loop1.word0
  else if i = 0x1D1 then c.loop1.lc
  else if i = 0x1D2 then c.rep.word
  else if i < 0x217 then c.winRead ((i - 0x1D3) / 17) ((i - 0x1D3) % 17)
  else 0

/-- A write of a frame word under its access codes (R367). -/
def Ctx.frameWrite (c : Ctx) (i : Nat) (v : Word) : Ctx :=
  if i < 0xC0 then
    let r := BitVec.ofNat 6 (i / 3)
    c.writeK r ((c.readK r).setFrameWord (i % 3) v)
  else if i < 0x1C0 then
    let r := (i - 0xC0) / 8
    c.writeV r (setLineWord (c.readV r) ((i - 0xC0) % 8) v)
  else if i = 0x1C0 then
    (((c.writeM 1 (v.extractLsb' 0 16)).writeM 2 (v.extractLsb' 16 16)).writeM 3 (v.extractLsb' 32 16)).writeM 4
      (v.extractLsb' 48 16)
  else if i = 0x1C1 then
    ((c.writeM 5 (v.extractLsb' 0 16)).writeM 6 (v.extractLsb' 16 16)).writeM 7 (v.extractLsb' 32 16)
  else if i = 0x1C2 then { c with tags := v }
  else if i = 0x1C3 then { c with fpc := fpcWrite c.fpc v }
  else if i = 0x1C4 then { c with vqw := vqwWrite c.vqw v }
  else if i < 0x1C8 then { c with pcc := c.pcc.setFrameWord (i - 0x1C5) v }
  else if i = 0x1C8 then { c with cause := v &&& 0x1FF }
  else if i = 0x1C9 then { c with trappc := (v.extractLsb' 0 48).setWidth 64 }
  else if i = 0x1CA then { c with trapval := v }
  else if i < 0x1CE then c
  else if i < 0x1D0 then { c with loop0 := c.loop0.setWord (i - 0x1CE) v }
  else if i < 0x1D2 then { c with loop1 := c.loop1.setWord (i - 0x1D0) v }
  else if i = 0x1D2 then { c with rep := c.rep.setWord v }
  else if i < 0x217 then c.winWrite ((i - 0x1D3) / 17) ((i - 0x1D3) % 17) v
  else c

/-- Whether a context's frame is open to context 0 (R367). -/
def Ctx.stoppedFrame (c : Ctx) : Bool := decide (c.mode = .trapped) || c.halted

/-- A read of the frame window (R367). -/
def Tile.frameRead (t : Tile) (i : Nat) : Word :=
  if t.fsel = 0 then (if 0x1C8 ≤ i ∧ i ≤ 0x1CA then (t.ctx 0).frameRead i else 0)
  else if (t.ctx t.fsel).stoppedFrame then (t.ctx t.fsel).frameRead i
  else 0

def Tile.frameWrite (t : Tile) (i : Nat) (v : Word) : Tile :=
  if t.fsel = 0 then (if 0x1C8 ≤ i ∧ i ≤ 0x1CA then t.setCtx 0 ((t.ctx 0).frameWrite i v) else t)
  else if (t.ctx t.fsel).stoppedFrame then t.setCtx t.fsel ((t.ctx t.fsel).frameWrite i v)
  else t

/-! Halting a tile (R371, R372). -/

/-- A helper halts at its boundary: its vector queue drains, and a trap that the drain raises is taken instead (R161, R371). -/
def haltHelper (s : State) (tile n : Nat) : State :=
  let c := (s.tile tile).ctx n
  if c.mode = .running ∧ c.halted = false then
    let s1 := vecDrain s tile n
    match takeLate s1 tile n with
    | some s2 => s2
    | none => s1.updTile tile fun t =>
      let c := t.ctx n
      t.setCtx n { c with
        halted := true, stalled := false, startAt := none, cause := codePreempt.setWidth 64, trappc := c.pc.setWidth 64
        trapval := 0 }
  else s

/-- A pre-emption request reaches a tile: its live helpers halt (R371). -/
def preemptHalt (s : State) (tile : Nat) : State :=
  if (s.tile tile).preReq then s
  else
    let s1 := s.updTile tile fun t => { t with preReq := true, preHalted := false, preAt := s.now }
    ((upto 10).map (· + 1)).foldl (fun s n => haltHelper s tile n) s1

/-- Whether a snapshot holds the actor that a context works for: a team's is its launching actor, on whatever tile (R375). -/
def State.heldCtx (s : State) (tile : Nat) (c : Ctx) : Bool :=
  match c.role with
  | .monitor => false
  | .primary | .started => ((s.tile tile).actor c.actor).held
  | .team => match (AMap.get? (s.tile tile).sweepSlots c.sweepSlot).bind fun x => AMap.get? s.sweeps x.sweep with
    | some w => ((s.tile w.tile).actor w.actor).held
    | none => false

/-- A helper of an actor that a snapshot holds halts at its boundary (R375). -/
def haltHeld (s : State) (tile n : Nat) : State := if s.heldCtx tile ((s.tile tile).ctx n) then haltHelper s tile n else s

/-- PREEMPT.REQ = 0: every halted helper resumes where it stopped (R372). -/
def Tile.resumeHalted (t : Tile) : Tile :=
  { t with preReq := false, preHalted := false, ctxs := AMap.mapVals t.ctxs fun _ c => { c with halted := false } }

/-- The PREEMPT register (R372). -/
def Tile.preemptWord (t : Tile) : Word :=
  BitVec.ofNat 64 ((if t.preReq then 2 ^ 63 else 0) + (if t.preHalted then 2 ^ 62 else 0) + min t.preElapsed 0xFFFF * 2 ^ 32
    + (upto 10).foldl (fun x i => x + if (t.ctx (i + 1)).halted then 2 ^ (i + 1) else 0) 0)

/-! MFS and MTS (R362, R370). -/

/-- MSTATUS (R363). -/
def Tile.mstatus (t : Tile) : Word :=
  BitVec.ofNat 64 (t.fsel % 16 * 2 ^ 12 + (if t.nest then 2 ^ 11 else 0) + t.pend.toNat)

/-- The state word of stream n (R264). -/
def Stream.stateWord (x : Stream) (n : Nat) : Word :=
  BitVec.ofNat 64 ((if x.run then 2 ^ 63 else 0) + (if x.denied then 2 ^ 62 else 0) + (if x.stopped then 2 ^ 61 else 0)
    + (if x.eosin then 2 ^ 60 else 0) + n * 2 ^ 56 + x.pos % 2 ^ 48)

/-- STREAMPOS (R264). -/
def Tile.streamPos (t : Tile) : Word := (t.stream t.streamSel.toNat).stateWord t.streamSel.toNat

/-- WDOG of a region (R312). -/
def Res.wdog (r : Res) : Word :=
  BitVec.ofNat 64 ((if r.wdEn then 2 ^ 63 else 0) + (if r.wdFired then 2 ^ 62 else 0) + r.wdTicks.toNat)

/-- A write of WDOG on a tile: the region's setting, with FIRED cleared by a 1 (R312). -/
def wdogWrite (s : State) (tile : Nat) (v : Word) : State :=
  if (s.tile tile).slot.state = .empty then s
  else s.updRes (s.handleOf tile) fun r =>
    { r with wdEn := v.getLsbD 63, wdFired := r.wdFired && !v.getLsbD 62, wdTicks := v.extractLsb' 0 32 }

/-- The value of a system register, or none for a number that traps ILLEGAL (R362). -/
def sysRead (s : State) (n : Nat) : Option Word :=
  let t := s.here
  let c := s.me
  let zero := s.cur.ctx = 0
  match n with
  | 0x000 => some (BitVec.ofNat 64 (s.cur.ctx % 16))
  | 0x001 => some (s.tileWord s.cur.tile)
  | 0x002 => some (BitVec.ofNat 64 (s.timeOf s.cur.tile))
  | 0x003 => some c.fpc
  | 0x004 => some c.tags
  | 0x005 => some (c.vqw.setWidth 64)
  | 0x006 => some (t.slot.resid.setWidth 64)
  | 0x010 => some (accStat t)
  | 0x011 => some t.streamPos
  | 0x012 => some (BitVec.ofNat 64 (s.fuses.gcount % 2 ^ 16))
  | 0x013 => some t.owmTimeout
  | 0x014 => some (s.resOf (s.handleOf s.cur.tile)).wdog
  | 0x008 => if zero then some (t.frameRead 0x1C8) else none
  | 0x009 => if zero then some (t.frameRead 0x1C9) else none
  | 0x00A => if zero then some (t.frameRead 0x1CA) else none
  | 0x00B => if zero then some ((t.trapvec ++ 0#2 : BitVec 22).setWidth 64) else none
  | 0x00C => if zero then some t.mstatus else none
  | 0x00D => if zero then some t.preemptWord else none
  | _ => if zero ∧ 0x400 ≤ n ∧ n < 0x800 then some (t.frameRead (n - 0x400)) else none

/-- A write of a system register, or none for a number that traps ILLEGAL (R362, R370). -/
def sysWrite (s : State) (n : Nat) (v : Word) : Option State :=
  let t := s.here
  let c := s.me
  let zero := s.cur.ctx = 0
  match n with
  | 0x000 | 0x001 | 0x002 | 0x004 | 0x006 | 0x012 => some s
  | 0x003 => some (s.setMe { c with fpc := fpcWrite c.fpc v })
  | 0x005 => some (s.setMe { c with vqw := vqwWrite c.vqw v })
  | 0x010 => some (s.setHere (accStatWrite t v))
  | 0x011 => some (s.setHere { t with streamSel := v.extractLsb' 56 3 })
  | 0x013 => some (if zero then s.setHere { t with owmTimeout := (v.extractLsb' 0 32).setWidth 64 } else s)
  | 0x014 => some (if zero then wdogWrite s s.cur.tile v else s)
  | 0x008 => if zero then some (s.setHere (t.frameWrite 0x1C8 v)) else none
  | 0x009 => if zero then some (s.setHere (t.frameWrite 0x1C9 v)) else none
  | 0x00A => if zero then some (s.setHere (t.frameWrite 0x1CA v)) else none
  | 0x00B => if zero then some (s.setHere { t with trapvec := v.extractLsb' 2 20 }) else none
  | 0x00C =>
    if zero then some (if (v.extractLsb' 12 4).toNat ≤ 10 then s.setHere { t with fsel := (v.extractLsb' 12 4).toNat } else s)
    else none
  | 0x00D =>
    if zero then some (if v.getLsbD 63 then preemptHalt s s.cur.tile else s.setHere t.resumeHalted) else none
  | _ => if zero ∧ 0x400 ≤ n ∧ n < 0x800 then some (s.setHere (t.frameWrite (n - 0x400) v)) else none

end Sys2Proof.Machine
end

