-- ==== Sys2Proof/Machine/Sys.lean ====
section
/-!
DEFINITION. The SYS instructions but RETIRE, MFS, MTS and START (10 R266, R267, 12 R293, R294, 15 R368 to R370).
-/

namespace Sys2Proof.Machine

/-- The narrowest scope that holds the home of a physical address (R223). -/
def homeScope (s : State) (pa : PAddr) : Nat :=
  if paKind pa = 1 then 4 else if paModule pa = s.module then 2 else 3

def GOp.stores (o : GOp) : Bool :=
  match o with
  | .store | .stv => true
  | _ => false

/-- Whether a request of a task, homed within a scope, has not performed, or is a store not yet acknowledged (R220, R266). -/
def outstanding (s : State) (tile task scope : Nat) : Bool :=
  (AMap.vals (s.tile tile).reqs).any fun q =>
    q.task == task && decide (homeScope s q.pa ≤ scope) && (!q.performed || q.op.stores)

/-- The requests that an earlier PUTR of a task still waits for: the put performs after them (R221, R222). -/
def putrWaits (s : State) (tile task : Nat) : List Nat :=
  let due := (AMap.vals s.chans).flatMap fun c => (c.forkQ ++ c.branches.flatMap (·.flights)).flatMap (·.after)
  ((s.tile tile).reqs.filter fun q => q.2.task == task && !q.2.performed && due.any (· == (tile, q.1))).map (·.1)

/-- Whether an earlier PUTR of the context is still to perform: its put is homed at the tile, in every scope (R221, R223). -/
def putrDue (s : State) : Bool := !(putrWaits s s.cur.tile s.me.task).isEmpty

/-- Whether the context has a VM access still to perform (R174). -/
def vmQueued (c : Ctx) : Bool := c.vq.any fun e => (vmShape e.instr).isSome

def execNop (_ : K3) (s : State) : Out := .next (s.complete 4)

/-- FENCE: waits for every earlier access homed within the scope in d; a PUTR's put is homed at the tile (R221, R223, R266). -/
def execFence (f : K3) (s : State) : Out :=
  finishTry s (do
    stallIf (vmQueued s.me || outstanding s s.cur.tile s.me.task f.d.toNat || putrDue s)
    pure (s.complete 4))

/-- IFENCE: after the context's TLM stores, its fetch sees memory afresh (R267). -/
def execIfence (_ : K3) (s : State) : Out :=
  finishTry s (do
    stallIf (vmQueued s.me)
    pure ((s.setMe { s.me with stale := [] }).complete 4))

/-- A trap that names the next instruction: the instruction completes, then SYSCALL or BREAK is taken (R364, R368). -/
def callTrap (s : State) (code : Byte) (val : Word) : State :=
  let s1 := vecDrain s s.cur.tile s.cur.ctx
  match takeLate s1 s.cur.tile s.cur.ctx with
  | some s2 => s2
  | none =>
    let s2 := s1.complete 4
    trapInto s2 s.cur.tile s.cur.ctx code val s2.me.pc false

/-- TRAP: SYSCALL in a helper, no effect in context 0 (R368). -/
def execTrapI (f : K3) (s : State) : Out :=
  finishTry s (do
    notInRep s (.trapI f)
    pure (if s.cur.ctx = 0 then s.complete 4 else callTrap s codeSyscall 0))

/-- BRK: BREAK in a helper; context 0 stops until it is released (R368). -/
def execBrk (f : K3) (s : State) : Out :=
  finishTry s (do
    notInRep s (.brk f)
    if s.cur.ctx = 0 then
      let s1 := s.complete 4
      pure (s1.setHere { s1.here with brk := true })
    else pure (callTrap s codeBreak (f.d.setWidth 64)))

/-- ERET's own case, n = 0: the instruction counts toward windows and context 0 goes back (R369). -/
def eretZero (s : State) : State :=
  let s1 := s.setMe { s.me.countWins with stalled := false }
  s1.setHere s1.here.eretSelf

/-- ERET (R369). An abort leaves the frame's trap in the error record, where nothing stands yet (R383; log entry 15). -/
def execEret (f : K3) (s : State) : Out :=
  finishTry s (do
    guardK s [f.a] [f.a] []
    trapIf (decide (s.cur.ctx ≠ 0)) codeIllegal (wordsVal (.eret f))
    notInRep s (.eret f)
    let x := s.me.readW f.a
    let n := (x.extractLsb' 0 4).toNat
    if x.extractLsb' 5 59 ≠ 0 ∨ 10 < n ∨ (n ≠ 0 ∧ s.here.pend.getLsbD n = false) then pure (s.complete 4)
    else if n = 0 then pure (eretZero s)
    else
      let s1 := s.complete 4
      if x.getLsbD 4 then
        let c := s1.here.ctx n
        let s1 := s1.recordTrap s.cur.tile n (c.cause.setWidth 8) c.trappc c.trapval
        let s2 := s1.setHere (s1.here.eretAbort n)
        pure (s2.updRes (s2.handleOf s.cur.tile) fun r => { r with abortAsked := true })
      else pure (haltHeld (s1.setHere (s1.here.eretResume n)) s.cur.tile n))

/-- MFS (R370); FPC waits for the context's earlier vector instructions (R119). -/
def execMfs (f : KI) (s : State) : Out :=
  finishTry s (do
    guardK s [f.d] [] [f.d]
    match sysRead s f.imm.toNat with
    | none => .error (.trap codeIllegal (wordsVal (.mfs f)))
    | some v =>
      if f.imm = 3 ∧ s.me.vq ≠ [] then .error .stall
      else pure (s.writeInt f.d v))

/-- MTS (R370). -/
def execMts (f : KI) (s : State) : Out :=
  finishTry s (do
    guardK s [f.a] [f.a] []
    match sysWrite s f.imm.toNat (s.me.readW f.a) with
    | none => .error (.trap codeIllegal (wordsVal (.mts f)))
    | some s1 =>
      if f.imm = 3 ∧ s.me.vq ≠ [] then .error .stall
      else pure (s1.complete 4))

/-! DONE (R294, R51). -/

/-- What the drain before DONE waits for: answers that can still bring a failure, and open windows (R240, R294, R301;
log entry 17). -/
def doneWaits (s : State) : Bool :=
  let c := s.me
  (AMap.vals s.here.reqs).any (fun q => q.task == c.task && !q.op.stores && q.seq.isNone)
    || c.wins.any (fun w => !w.arrived)
    || (AMap.vals s.sweeps).any (fun w => w.tile == s.cur.tile && w.task == c.task)

/-- Every open window closes, and every late trap that the drain before DONE takes is due. -/
def Ctx.closeAll (c : Ctx) : Ctx :=
  let c1 := c.wins.foldl Ctx.closeWin c
  { c1 with lates := c1.lates.map fun l => if l.atDone then { l with tag := none, vd := none } else l }

/-- The helper ends: its sticky flags join the residency's, its task leaves the firing, and it is free (R51, R294). -/
def freeHelper (s : State) : State :=
  let c := s.me
  let t := s.here
  let a := t.actor c.actor
  let live := a.live.map fun fr =>
    { fr with
      tasks := fr.tasks.filter (· != c.task)
      donec := if fr.primary = c.task then c.donec else fr.donec }
  let t1 := (t.setActor c.actor { a with live := live }).setCtx s.cur.ctx c.freed
  (s.setHere t1).updErr t.slot.handle fun e => { e with flags := e.flags ||| fpcFlags c.fpc }

/-- DONE (R294). -/
def execDoneI (f : K3) (s : State) : Out :=
  finishTry s (do
    trapIf (decide (s.cur.ctx = 0) || decide (s.me.role = .team)) codeIllegal (wordsVal (.doneI f))
    notInRep s (.doneI f)
    stallIf (doneWaits s)
    let s1 := vecDrain s s.cur.tile s.cur.ctx
    let s2 := s1.setMe s1.me.closeAll
    match takeLate s2 s.cur.tile s.cur.ctx with
    | some s3 => pure s3
    | none => pure (freeHelper s2))

/-! START (R293). -/

/-- Whether the context is the primary helper of a live firing (R245, R293). -/
def isPrimary (s : State) : Bool :=
  decide (s.cur.ctx ≠ 0) && decide (s.me.role = .primary) && (match (s.here.actor s.me.actor).live with
    | some fr => fr.primary == s.me.task
    | none => false)

/-- The lowest free helper (R289). -/
def Tile.freeHelper (t : Tile) : Option Nat :=
  (upto 10).firstM fun i => if (t.ctx (i + 1)).mode = .free then some (i + 1) else none

/-- The context of a started helper (R293). -/
def startedCtx (t : Tile) (p : Ctx) (ka kb : KReg) : Ctx :=
  let ks := (List.range 7).foldl (fun m i => AMap.set m (i + 1) (nthD p.fireK i KReg.zero)) ([] : AMap KReg)
  { Ctx.init with
    mode := .running, role := .started, task := t.nextTask, actor := p.actor, regs := (t.actor p.actor).regs
    k := AMap.set ks 8 kb, pcc := ka }

/-- A START completes: helper h begins, and the primary in context c goes on (R293). -/
def startOn (s : State) (tile c h : Nat) (ka kb : KReg) : State :=
  let t := s.tile tile
  let p := t.ctx c
  let a := t.actor p.actor
  let live := a.live.map fun fr => { fr with tasks := fr.tasks ++ [t.nextTask], starts := fr.starts + 1 }
  let t1 := (t.setActor p.actor { a with live := live }).setCtx h ((startedCtx t p ka kb).onHelper (t.ctx h))
  let p1 := { (p.countWins.advance 4) with starts := p.starts + 1, startAt := none, stalled := false }
  s.setTile tile { (t1.setCtx c p1) with nextTask := t.nextTask + 1 }

/-- START (R293). -/
def execStartI (f : K3) (s : State) : Out :=
  finishTry s (do
    guardK s [f.a, f.b] [f.a, f.b] []
    notInRep s (.startI f)
    trapIf (!isPrimary s) codePortMisuse 0
    let ka := s.me.readK f.a
    let kb := s.me.readK f.b
    let v := ka.addr.setWidth 64
    trapIf (!ka.tag) codeCapTag v
    trapIf ka.isSealed codeCapSeal v
    trapIf (!(ka.has .x && ka.has .tlm)) codeCapPerm v
    trapIf (decide (ka.addr.toNat % 4 ≠ 0)) codeAlign v
    trapIf (decide (ka.top < (ka.addr.toNat : Int) + 4)) codeCapBounds v
    trapIf (decide ((s.here.actor s.me.actor).help ≤ s.me.starts)) codeEngineFault 0x150
    stallIf (vmQueued s.me || putrDue s)
    let t := s.here
    if s.me.startAt.isSome then .error .stall
    else
      match (if t.preReq || (AMap.vals t.ctxs).any (fun c => c.startAt.isSome) then none else t.freeHelper) with
      | some h => pure (startOn s s.cur.tile s.cur.ctx h ka kb)
      | none =>
        let s1 := s.setMe { s.me with startAt := some (t.nextStart, ka, kb), stalled := true }
        pure (s1.setHere { s1.here with nextStart := t.nextStart + 1 }))

end Sys2Proof.Machine
end

