-- ==== Sys2Proof/Machine/Translate.lean ====
section
/-!
DEFINITION. Translation of virtual addresses: page tables, the walk and the translation cache (09 R216, R217, 14 R349 to R353).
-/

namespace Sys2Proof.Machine

/-! Homes on other modules (R216, R402, R403). -/

def State.link (s : State) (n : Nat) : LinkPort := AMap.getD s.links n LinkPort.init

/-- A port's state: down, training, up or dead (R403). -/
def LinkPort.state (l : LinkPort) : Nat := (l.table.extractLsb' 0 2).toNat

def portUp : Nat := 2

def State.setLink (s : State) (n : Nat) (l : LinkPort) : State := { s with links := AMap.set s.links n l }

/-- A flit is numbered and sent, and kept for replay until an ACK covers it; with 256 kept, it waits (R402). -/
def LinkPort.send (l : LinkPort) (typ vc stream : Nat) (body : FlitBody) : LinkPort :=
  let f : Flit := ⟨typ, vc, stream, l.txSeq.toNat, body, true⟩
  if l.replay.length < 256 ∧ l.pendTx.isEmpty then { l with replay := l.replay ++ [f], txSeq := l.txSeq + 1 }
  else { l with pendTx := l.pendTx ++ [f] }

def State.sendFlit (s : State) (port typ vc stream : Nat) (body : FlitBody) : State :=
  let l := (s.link port).send typ vc stream body
  s.setLink port (match body with
    | .ordered t _ => { l with oSenders := NSet.insert l.oSenders t.resid.toNat }
    | _ => l)

/-- The single port of the route word of a module (R403). -/
def routePort (s : State) (m : Nat) : Nat := ((AMap.getD s.routes m 0).extractLsb' 56 6).toNat

/-- How an access can reach its home: at once, not now, or never. -/
inductive Way where
  | open | waiting | dead
  deriving DecidableEq, Repr

/-- The way to a module: through the single port of its route word; a dead port, or none, answers with POISON. -/
def wayTo (s : State) (m : Nat) : Way :=
  if m = s.module then .open
  else
    let p := routePort s m
    if 36 ≤ p ∨ (s.link p).state = 3 then .dead
    else if (s.link p).state = portUp ∧ !(s.link p).retraining then .open else .waiting

/-! Page tables (R349). -/

/-- The page size of a leaf, as a power of two, by its level (R349). -/
def pageShift (level : Nat) : Nat := if level = 1 then 39 else if level = 2 then 30 else if level = 3 then 21 else 16

/-- The number of entries of a table (R349). -/
def tableLen (level : Nat) : Nat := if level = 4 then 32 else 512

/-- The alignment of a table (R349). -/
def tableAlign (level : Nat) : Nat := if level = 4 then 256 else 4096

/-- A physical address that no request may name (R217). KIND 2 stands in the tile monitor's tables only. -/
def paRefused (mon : Bool) (pa : PAddr) : Bool :=
  decide (paKind pa = 3) || (decide (paKind pa = 2) && !mon) || (decide (paKind pa = 0) && decide (0x18000000000 ≤ paOffset pa))

/-- The page or table address of an entry (R350). -/
def pteAddr (e : Word) : PAddr := e.extractLsb' 8 44 ++ 0#8

/-- A malformed entry of a level (R350, R351). -/
def pteBad (mon : Bool) (level : Nat) (e : Word) : Bool :=
  let leaf := e.getLsbD 62
  let a := pteAddr e
  e.extractLsb' 52 6 != 0 || e.extractLsb' 0 8 != 0 || (!leaf && e.extractLsb' 58 3 != 0) || (leaf && level == 1)
    || (!leaf && level == 4) || paRefused mon a
    || (if leaf then a.toNat % 2 ^ pageShift level != 0 else a.toNat % tableAlign (level + 1) != 0)

/-- How a walk ends (R351). -/
inductive WalkEnd where
  | leaf (e : TlbEntry)
  | wait
  | denied
  deriving DecidableEq, Repr

/-- The cached form of a leaf (R352). -/
def leafEntry (resid : BitVec 12) (level va : Nat) (e : Word) : TlbEntry :=
  { resid := resid, level := level, vpn := va / 2 ^ pageShift level, pa := pteAddr e, r := e.getLsbD 58, w := e.getLsbD 59
    ver := e.getLsbD 60 }

/-- The walk from a table of a level down (R349, R351). An entry on a poisoned word refuses the mapping (log entry 20). -/
def walkFrom (s : State) (mon : Bool) (resid : BitVec 12) (va : Nat) : Nat → Nat → Nat → WalkEnd
  | 0, _, _ => .denied
  | n + 1, level, table =>
    let a := table + 8 * (va / 2 ^ pageShift level % tableLen level)
    let e : Word := BitVec.ofNat 64 (s.gRead a 8)
    if s.gBad a 8 || e.getLsbD 61 then .denied
    else if !e.getLsbD 63 then .wait
    else if pteBad mon level e then .denied
    else if e.getLsbD 62 then .leaf (leafEntry resid level va e)
    else walkFrom s mon resid va n (level + 1) (pteAddr e).toNat

/-- Whose tables a translation uses: the tile monitor's own, or a residency's (R217, R349). -/
structure Space where
  mon : Bool
  resid : BitVec 12
  root : Nat
  deriving DecidableEq, Repr

def State.block (s : State) (h : Nat) : Block := AMap.getD s.blocks h Block.init

/-- The tables of the residency of a control block (R349). -/
def resSpace (s : State) (h : Nat) : Space := ⟨false, (s.resOf h).resid, (s.block h).root.toNat / 4096 * 4096⟩

/-- The tables that a context's accesses use; 0 is no residency's number, and names the monitor's. -/
def ctxSpace (s : State) (tile ctx : Nat) : Space :=
  if ctx = 0 then ⟨true, 0, Config.monitorRoot tile⟩
  else ⟨false, (s.tile tile).slot.resid, (s.block (s.handleOf tile)).root.toNat / 4096 * 4096⟩

def walk (s : State) (x : Space) (va : Nat) : WalkEnd := walkFrom s x.mon x.resid va 4 1 x.root

/-- Whether an entry maps an address (R352). -/
def TlbEntry.covers (e : TlbEntry) (resid : BitVec 12) (va : Nat) : Bool :=
  e.resid == resid && e.vpn == va / 2 ^ pageShift e.level

def TlbEntry.allows (e : TlbEntry) (r w ver : Bool) : Bool := (!r || e.r) && (!w || e.w) && (!ver || e.ver)

/-- The physical address of an address that the entry maps (R351). -/
def TlbEntry.physical (e : TlbEntry) (va : Nat) : PAddr := e.pa + BitVec.ofNat 52 (va % 2 ^ pageShift e.level)

/-- The set of an entry: 256 sets, indexed by the low bits of its page number (R352). -/
def TlbEntry.setNo (e : TlbEntry) : Nat := e.vpn % 256

/-- The list without what exceeds n entries of a set, the least recently used last. -/
def keepWays (set : Nat) : Nat → List TlbEntry → List TlbEntry
  | _, [] => []
  | n, e :: es =>
    if e.setNo = set then match n with
      | 0 => keepWays set 0 es
      | n + 1 => e :: keepWays set n es
    else e :: keepWays set n es

/-- An entry used or filled: it stands first, four to a set (R352). -/
def tlbFill (tlb : List TlbEntry) (e : TlbEntry) : List TlbEntry :=
  e :: keepWays e.setNo 3 (tlb.filter fun x => !(x.resid == e.resid && x.level == e.level && x.vpn == e.vpn))

/-- What a translation comes to (R351). -/
inductive Translation where
  | ok (pa : PAddr)
  | wait
  | denied
  | perm
  deriving DecidableEq, Repr

/-- A page with the V attribute that is mapped for a residency for the first time: every version of it is 0 (R228; log entry 89). -/
def firstMapped (s : State) (tile : Nat) (x : Space) (e : TlbEntry) : State :=
  let h := s.handleOf tile
  let seen := AMap.getD s.vpages h []
  if !e.ver || x.mon || NSet.mem seen e.pa.toNat then s
  else
    let lo := paLine e.pa.toNat
    { s with
      vers := s.vers.filter fun p => !(decide (lo ≤ p.1) && decide (p.1 < lo + 2 ^ pageShift e.level / 64))
      vpages := AMap.set s.vpages h (NSet.insert seen e.pa.toNat) }

/-- A translation through a tile's cache: a hit that allows the access, else a walk (R351, R352). -/
def translate (s : State) (tile : Nat) (x : Space) (va : Nat) (r w ver : Bool) : State × Translation :=
  let hit := (s.tile tile).tlb.find? fun e => e.covers x.resid va && e.allows r w ver
  match hit with
  | some e => (s.updTile tile fun t => { t with tlb := tlbFill t.tlb e }, .ok (e.physical va))
  | none => match walk s x va with
    | .wait => (s, .wait)
    | .denied => (s, .denied)
    | .leaf e =>
      let s1 := (firstMapped s tile x e).updTile tile fun t => { t with tlb := tlbFill t.tlb e }
      if e.allows r w ver then (s1, .ok (e.physical va)) else (s1, .perm)

/-- The fault token of a refused page (R299, R384). -/
def deniedToken (s : State) (h : Nat) (va : Addr) : State := s.faultToken h (va ++ 0x0009#16)

/-- The translation of an instruction at issue, with the outcomes of R351: a page wait leaves the instruction unissued. -/
def transIssue (s : State) (va : Addr) (r w ver : Bool) : Try (State × PAddr) :=
  let x := translate s s.cur.tile (ctxSpace s s.cur.tile s.cur.ctx) va.toNat r w ver
  match x.2 with
  | .ok pa => .ok (x.1, pa)
  | .wait => .error (.page va)
  | .perm => .error (.trap codeCapPerm (va.setWidth 64))
  | .denied =>
    let s1 := if s.cur.ctx = 0 then s else deniedToken s (s.handleOf s.cur.tile) va
    .error (.become (raiseTrap s1 codePageDenied (va.setWidth 64) s.me.pc))

end Sys2Proof.Machine
end

