-- ==== Sys2Proof/Machine/Queues.lean ====
section
/-!
DEFINITION. Input queues as the firing rule and the CHAN instructions see them (02 R35, R36, R40 to R49, 10 R245 to R250).
-/

namespace Sys2Proof.Machine

/-- Whether a kind counts toward need: ROUND only for an actor that is not round-aligned (R36, R50). -/
def counts (roundA : Bool) (k : TokKind) : Bool :=
  match k with
  | .data | .null | .poison => true
  | .round => !roundA
  | _ => false

/-- The SEQ of the token that follows k taken tokens, BANK tokens passed over (R36, R40). -/
def Port.seqAfter (p : Port) : Nat → Nat → Nat → Nat
  | 0, _, n => n
  | fuel + 1, k, n => match AMap.get? p.q n with
    | none => n
    | some x =>
      if x.kind = .bank then p.seqAfter fuel k (n + 1)
      else if k = 0 then n
      else p.seqAfter fuel (k - 1) (n + 1)

/-- The head of a queue after k tokens of the firing have been taken. -/
def Port.headAfter (p : Port) (k : Nat) : Nat := p.seqAfter (p.depth + 1) k p.h

/-- The token at the head. -/
def Port.head (p : Port) : Option QSlot := AMap.get? p.q (p.headAfter 0)

/-- How many counted tokens stand at the front, ahead of any EOS and, for a round-aligned actor, of any ROUND (R44). -/
def Port.frontCount (p : Port) (roundA : Bool) : Nat → Nat → Nat
  | 0, _ => 0
  | fuel + 1, n => match AMap.get? p.q n with
    | none => 0
    | some x =>
      if x.kind = .bank then p.frontCount roundA fuel (n + 1)
      else if counts roundA x.kind then 1 + p.frontCount roundA fuel (n + 1)
      else 0

def Port.front (p : Port) (roundA : Bool) : Nat := p.frontCount roundA p.depth p.h

/-- How many tokens are present without a gap from a SEQ on (R250). -/
def Port.presentFrom (p : Port) : Nat → Nat → Nat
  | 0, _ => 0
  | fuel + 1, n => match AMap.get? p.q n with
    | none => 0
    | some _ => 1 + p.presentFrom fuel (n + 1)

/-- Whether an EOS stands among the k positions from a SEQ on. -/
def Port.eosAmong (p : Port) : Nat → Nat → Bool
  | 0, _ => false
  | k + 1, n => match AMap.get? p.q n with
    | none => false
    | some x => decide (x.kind = .eos) || p.eosAmong k (n + 1)

/-- The address of the queue slot of a SEQ (R38, R40). -/
def Port.slotAddr (p : Port) (n : Nat) : Nat := p.qaddr + n % (max p.depth 1) * (if p.line then 64 else 8)

/-- The payload in a queue slot. -/
def Tile.payload (t : Tile) (p : Port) (n : Nat) : Line := BitVec.ofNat 512 (t.readTlm (p.slotAddr n) (if p.line then 64 else 8))

/-- The header word that TAKE returns: R35 in bits 47:0, the scale byte in bits 55:48 (R247). -/
def QSlot.header (x : QSlot) : Word :=
  0#8 ++ x.scale ++ x.resid ++ x.round ++ BitVec.ofNat 8 x.seq ++ (if x.line then 1#1 else 0#1) ++ x.kind.code ++ 0#3
    ++ BitVec.ofNat 5 x.port

/-- How many tokens a firing may take of an input (R45, R47 to R49; log entry 19). -/
def takeLimit (a : Actor) (p : Port) : Nat :=
  match a.live with
  | none => 0
  | some fr => match fr.kind with
    | .fire => p.count
    | .eos | .round => 0
    | .mismatch => min p.count (p.front a.roundA)

/-- Which receiver of an ordered stream's entry a port of a tile is (R405). -/
def receiverNo (s : State) (osn tile p : Nat) : Option Nat :=
  match AMap.get? s.otable osn with
  | some (h :: list) =>
    let rs := (list.drop ((h.extractLsb' 41 6).toNat + 1)).take ((h.extractLsb' 37 4).toNat + 1)
    (List.range rs.length).find? fun i =>
      let w := nthD rs i 0
      (w.extractLsb' 58 6).toNat == s.module && w.extractLsb' 24 22 == (s.tileWord tile).extractLsb' 0 22 && (w.extractLsb' 19 5).toNat == p
  | _ => none

/-- Whether a port of a tile is the ordered output of a stream. -/
def sendsOn (t : Tile) (p osn : Nat) : Bool :=
  let q := t.port p
  q.declared && q.output && q.ordered && q.osn == osn

/-- Where the sending port of a message stands: the tile of that name, or the one that a move or a restore has taken the port to
(R283). -/
def senderTile (s : State) (tile : BitVec 22) (p osn : Nat) : Option Nat :=
  match s.namedTile (tile.setWidth 64) with
  | none => none
  | some k => (k :: (AMap.vals s.res).filterMap fun r => AMap.get? r.senders (32 * k + p)).find? fun j => sendsOn (s.tile j) p osn

/-- A sending port of this module gains a credit of receiver r (R274). -/
def State.gainCredit (s : State) (osn r : Nat) (tile : BitVec 22) (p : Nat) : State :=
  match senderTile s tile p osn with
  | none => s
  | some k => s.updTile k fun t =>
    let q := t.port p
    t.setPort p { q with credits := setAt q.credits r (nthD q.credits r 0 + 1) }

/-- The credit of a freed ordered message returns to the port that sent it, on this module or by the link that leads to its own
(R274, R276, R403). -/
def creditBack (tile p : Nat) (s : State) (o : OHdr) : State :=
  match receiverNo s o.osn tile p with
  | none => s
  | some r =>
    if o.module = s.module then s.gainCredit o.osn r o.tile o.port
    else if wayTo s o.module = .dead then s
    else s.sendFlit (routePort s o.module) 1 3 0 (.credit o.osn r o.tile o.port)

/-- The n slots from the head are consumed: H advances and their slots are freed toward the sender (R39, R40, R45, R274). -/
def State.consume (s : State) (tile p n : Nat) : State :=
  let t := s.tile tile
  let x := t.port p
  let s1 := s.setTile tile (t.setPort p { x with h := x.h + n, q := (upto n).foldl (fun m i => AMap.erase m (x.h + i)) x.q })
  let s2 := match x.chan with
    | some c => s1.freeSlots c x.branch n
    | none => s1
  let os := (upto n).filterMap fun i => (AMap.get? x.q (x.h + i)).bind (·.ohdr)
  (os.foldl (creditBack tile p) s2).moved t.slot.handle

/-! The checks of R245, in order. -/

def doneOf (c : Ctx) (p : Nat) : Nat := AMap.getD c.donec p 0

def Ctx.bump (c : Ctx) (p : Nat) : Ctx := { c with donec := AMap.set c.donec p (doneOf c p + 1) }

/-- Check 1: the primary helper of a live firing. -/
def chanWho (s : State) (port : Nat) : Try Unit := trapIf (!isPrimary s) codePortMisuse (BitVec.ofNat 64 port)

/-- Check 2: a port of the firing actor, in the given direction, not inert. -/
def chanPort (s : State) (port : Nat) (output : Bool) : Try Port :=
  let p := s.here.port port
  if p.declared && p.output == output && p.actor == s.me.actor && p.stream.isNone && decide (p.count ≠ 0) then .ok p
  else .error (.trap codePortMisuse (BitVec.ofNat 64 port))

/-- Checks 1 to 3 for a put or take of a token size (R245). -/
def chanSized (s : State) (port : Nat) (output line : Bool) : Try Port := do
  chanWho s port
  let p ← chanPort s port output
  trapIf (p.line != line) codePortMisuse (BitVec.ofNat 64 port)
  pure p

/-- Check 4 for a take. -/
def takeCount (s : State) (port : Nat) (p : Port) (ahead : Nat) : Try Unit :=
  trapIf (decide (takeLimit (s.here.actor s.me.actor) p ≤ doneOf s.me port + ahead)) codePortMisuse (BitVec.ofNat 64 port)

/-- Check 4 for a put: the declared room, and the output not closed by MARK of EOS. -/
def putCount (s : State) (port : Nat) (p : Port) : Try Unit :=
  trapIf (decide (p.count ≤ doneOf s.me port) || p.closed) codePortMisuse (BitVec.ofNat 64 port)

/-- What holds back a put: an acquire of the context that is to perform (R221, R222), a VCVTO with TOK on the port that has not
completed (R167), and on an ordered output a place taken before it (R286). -/
def putReady (s : State) (port : Nat) : Try Unit :=
  stallIf (acquirePending s.here s.me || !(s.here.port port).booked.isEmpty || s.me.vq.any fun e => match e.instr with
    | .vcvto f => e.seq.isSome && f.vc.toNat == port
    | _ => false)

end Sys2Proof.Machine
end

