-- ==== Sys2Proof/Machine/Chan.lean ====
section
/-!
DEFINITION. The CHAN instructions (10 R245 to R250).
-/

namespace Sys2Proof.Machine

/-- The port number in b. -/
def pnum (f : K3) : Nat := f.b.toNat

/-- The put of a token by the firing, counted, after which the instruction completes (R248). -/
def putDone (s : State) (port : Nat) (k : TokKind) (payload : Line) (status : BitVec 16) (after : List (Nat × Nat)) : State :=
  let s1 := s.putPort s.cur.tile port k payload status after
  (s1.setMe (s1.me.bump port)).complete 4

def wordLine (v : Word) : Line := v.setWidth 512

/-- PUT (R248). -/
def execPut (f : K3) (s : State) : Out :=
  finishTry s (do
    guardK s [f.a] [f.a] []
    let p ← chanSized s (pnum f) true false
    putCount s (pnum f) p
    putReady s (pnum f)
    pure (putDone s (pnum f) .data (wordLine (s.me.readW f.a)) 0 []))

/-- Whether a channel leads to the host outlet (R232). -/
def toOutlet (s : State) (p : Port) : Bool :=
  match p.chan.bind s.chan? with
  | none => false
  | some c => c.branches.any fun b => match b.dst with
    | .outlet _ => true
    | _ => false

/-- The context's accesses homed within a scope that have not performed: a release waits for them (R222). -/
def releaseAfter (s : State) (scope : Nat) : List (Nat × Nat) :=
  let putr := putrWaits s s.cur.tile s.me.task
  (s.here.reqs.filter fun q => q.2.task == s.me.task && !q.2.performed
    && (decide (homeScope s q.2.pa ≤ scope) || putr.any (· == q.1))).map fun q => (s.cur.tile, q.1)

/-- PUTR: the token leaves once every earlier access homed within wafer scope, or host scope on the host outlet, has
performed (R222, R232, R248); on an ordered output, where the stamp is taken when it leaves, it issues then. -/
def execPutr (f : K3) (s : State) : Out :=
  finishTry s (do
    guardK s [f.a] [f.a] []
    let p ← chanSized s (pnum f) true false
    putCount s (pnum f) p
    putReady s (pnum f)
    stallIf (vmQueued s.me)
    let after := releaseAfter s (if toOutlet s p then 4 else 2)
    stallIf (p.ordered && !after.isEmpty)
    pure (putDone s (pnum f) .data (wordLine (s.me.readW f.a)) 0 after))

/-- PUTL: the 64 B at k[a]; POISON when a word read is uncorrectable or poisoned (R248). -/
def execPutl (f : K3) (s : State) : Out :=
  finishTry s (do
    guardK s [f.a] [f.a] []
    let p ← chanSized s (pnum f) true true
    putCount s (pnum f) p
    putReady s (pnum f)
    tlmReady s
    let c := s.me.readK f.a
    let a := c.addr.toNat
    orTrap (tlmCheck (grantOf s s.cur.tile s.me) c a 64 64 [.r])
    let kind := if (s.here.badWord a 64).isSome then TokKind.poison else TokKind.data
    let x := s.here.readLine a
    pure (putDone (s.setHere (s.here.touchRead a 64)) (pnum f) kind x 0 []))

/-- A put of a token without payload: PUTN and MARK of NULL, ROUND and POISON (R248, R249). -/
def markOp (f : K3) (s : State) (k : TokKind) (fields : List (BitVec 6)) (noRound : Bool) : Out :=
  finishTry s (do
    guardK s fields fields []
    chanWho s (pnum f)
    let p ← chanPort s (pnum f) true
    trapIf (noRound && ((s.here.actor s.me.actor).roundA || p.ordered)) codePortMisuse (BitVec.ofNat 64 (pnum f))
    putCount s (pnum f) p
    putReady s (pnum f)
    pure (putDone s (pnum f) k 0 0 []))

def execPutn (f : K3) (s : State) : Out := markOp f s .null [] false
def execMarkNull (f : K3) (s : State) : Out := markOp f s .null [f.a] false
def execMarkRound (f : K3) (s : State) : Out := markOp f s .round [f.a] true
def execMarkPoison (f : K3) (s : State) : Out := markOp f s .poison [f.a] false

/-- MARK of EOS: closes the output; on an ordered output the EOS is a stamped message (R249, R280). -/
def execMarkEos (f : K3) (s : State) : Out :=
  finishTry s (do
    guardK s [f.a] [f.a] []
    chanWho s (pnum f)
    let p ← chanPort s (pnum f) true
    let st := (s.me.readW f.a).setWidth 16
    trapIf (decide (1 ≤ st.toNat) && decide (st.toNat ≤ 0xFF)) codePortMisuse (BitVec.ofNat 64 (pnum f))
    putCount s (pnum f) p
    putReady s (pnum f)
    pure (putDone s (pnum f) .eos 0 st []))

/-- What TAKE and PEEK return of a slot's payload (R247). -/
def takeValue (k : TokKind) (payload : Line) : Word :=
  match k with
  | .data | .round => payload.setWidth 64
  | _ => 0

/-- The header register is written when it is named (R247). -/
def Ctx.putHeader (c : Ctx) (h : BitVec 6) (x : QSlot) : Ctx := c.writeInt h x.header

/-- TAKE (R247). -/
def execTake (f : K3) (s : State) : Out :=
  finishTry s (do
    guardK s [f.d, f.a] [] [f.d, f.a]
    let p ← chanSized s (pnum f) false false
    takeCount s (pnum f) p 0
    stallIf (acquirePending s.here s.me)
    let n := p.headAfter (doneOf s.me (pnum f))
    match AMap.get? p.q n with
    | none => .error .stall
    | some x =>
      trapIf (decide (x.kind = .poison) && decide (f.a = 0)) codePoison (BitVec.ofNat 64 (pnum f))
      let c := ((s.me.putHeader f.a x).writeInt f.d (takeValue x.kind (s.here.payload p n))).bump (pnum f)
      pure ((s.setMe c).complete 4))

/-- PEEK: the token at head + i, which is not taken (R247). -/
def execPeek (f : K3) (s : State) : Out :=
  finishTry s (do
    guardK s [f.d] [] [f.d]
    chanWho s (pnum f)
    let p ← chanPort s (pnum f) false
    takeCount s (pnum f) p f.a.toNat
    let n := p.headAfter (doneOf s.me (pnum f) + f.a.toNat)
    match AMap.get? p.q n with
    | none => .error .stall
    | some x =>
      trapIf (decide (x.kind = .poison)) codePoison (BitVec.ofNat 64 (pnum f))
      pure (s.writeInt f.d (takeValue x.kind (s.here.payload p n))))

/-- TAKEL: the payload goes to the 64 B at k[a] (R247). -/
def execTakel (f : K3) (s : State) : Out :=
  finishTry s (do
    guardK s [f.d, f.a] [f.a] [f.d]
    let p ← chanSized s (pnum f) false true
    takeCount s (pnum f) p 0
    tlmReady s
    let c := s.me.readK f.a
    let a := c.addr.toNat
    orTrap (tlmCheck (grantOf s s.cur.tile s.me) c a 64 64 [.w])
    let n := p.headAfter (doneOf s.me (pnum f))
    match AMap.get? p.q n with
    | none => .error .stall
    | some x =>
      let y := if x.kind = .null then 0 else s.here.payload p n
      let s1 := s.setHere (s.here.writeLine a y (decide (x.kind = .poison)))
      pure ((s1.setMe ((s1.me.putHeader f.d x).bump (pnum f))).complete 4))

/-- ROOM: the channel room of an output (R250). -/
def execRoom (f : K3) (s : State) : Out :=
  finishTry s (do
    guardK s [f.d] [] [f.d]
    chanWho s (pnum f)
    let _ ← chanPort s (pnum f) true
    pure (s.writeInt f.d (BitVec.ofNat 64 (s.portRoom s.cur.tile (pnum f)))))

/-- The status word of a port (R250). -/
def chstWord (s : State) (port : Nat) : Word :=
  let p := s.here.port port
  let k := doneOf s.me port
  let head := p.headAfter k
  let some3 := AMap.get? p.q head
  if p.output then
    1#40 ++ BitVec.ofNat 4 k ++ BitVec.ofNat 4 p.count ++ BitVec.ofNat 8 (min 255 (s.portRoom s.cur.tile port)) ++ 0#3
      ++ (if p.closed then 1#1 else 0#1) ++ 0#4
  else if p.count = 0 then 0
  else
    0#40 ++ BitVec.ofNat 4 k ++ BitVec.ofNat 4 p.count ++ BitVec.ofNat 8 (min 255 (p.presentFrom p.depth head)) ++ 0#3
      ++ (if p.eosAmong p.count head then 1#1 else 0#1) ++ (if some3.isSome then 1#1 else 0#1)
      ++ (match some3 with
        | some x => x.kind.code
        | none => 0#3)

/-- CHST takes an input or output of the firing actor, inert or not (R245, R250). -/
def execChst (f : K3) (s : State) : Out :=
  finishTry s (do
    guardK s [f.d] [] [f.d]
    chanWho s (pnum f)
    let p := s.here.port (pnum f)
    trapIf (!(p.declared && p.actor == s.me.actor && p.stream.isNone)) codePortMisuse (BitVec.ofNat 64 (pnum f))
    pure (s.writeInt f.d (chstWord s (pnum f))))

end Sys2Proof.Machine
end

