-- ==== Sys2Proof/Machine/Global.lean ====
section
/-!
DEFINITION. The global memory instructions, and the replies that complete them (09 R220 to R229, R232, 10 R236 to R244).
-/

namespace Sys2Proof.Machine

/-! The checks of R236. -/

/-- (c.address + off13 × n) mod 2^48 (R236). -/
def gAddr (c : KReg) (f : GW) (n : Nat) : Addr := c.addr + (f.off.signExtend 48) * BitVec.ofNat 48 n

/-- The capability checks of R236 over n bytes, aligned to `align`. -/
def globalCheck (c : KReg) (a : Nat) (n align : Nat) (need : List Perm) : Option Failure :=
  let v : Word := BitVec.ofNat 64 a
  if !c.tag then some (codeCapTag, v)
  else if c.isSealed then some (codeCapSeal, v)
  else if !(c.has .global && need.all c.has) then some (codeCapPerm, v)
  else if decide ((a : Int) < c.base) || decide (c.top < (a : Int) + n) then some (codeCapBounds, v)
  else if a % align != 0 then some (codeAlign, v)
  else none

/-- How many bytes the size field gives (R76). -/
def gSize (f : GW) : Nat := 2 ^ f.size.toNat

/-! What an access waits for (R222, R224, R232). -/

/-- Whether access A of a context must perform before its later access to physical address `pa` (R222): the same line; A a
synchronous acquire outside its window; the later one a release; a store of host scope (R232). -/
def ordersBefore (s : State) (c : Ctx) (p : Nat × GReq) (pa : PAddr) (release : Bool) (scope : Nat) (store : Bool) : Bool :=
  let q := p.2
  q.task == c.task && !q.performed
    && (decide (paLine q.pa.toNat = paLine pa.toNat)
      || (q.order.getLsbD 0 && !q.async && decide (homeScope s pa ≤ q.scope.toNat)
        && !(c.wins.any fun w => w.op == p.1 && w.left != 0))
      || (release && decide (homeScope s q.pa ≤ scope))
      || (store && decide (scope = 4) && decide (homeScope s q.pa ≤ 4)))

/-- The requests of the context that must perform before its new access, those that an earlier PUTR waits for among them where the
access follows the PUTR (R222, R232). -/
def accessAfter (s : State) (pa : PAddr) (f : GW) (store : Bool) : List Nat :=
  let putr := if f.order.getLsbD 1 || (store && f.scope == 4) then putrWaits s s.cur.tile s.me.task else []
  (s.here.reqs.filter fun p => ordersBefore s s.me p pa (f.order.getLsbD 1) f.scope.toNat store || putr.any (· == p.1)).map (·.1)

/-- The limits of R239, and the earlier VM accesses, homed at the tile, of a release or a store of host scope (R222, R232). -/
def gHold (s : State) (f : GW) (store : Bool) : Bool :=
  decide (16 ≤ ((AMap.vals s.here.reqs).filter fun q => q.task == s.me.task).length)
    || decide (64 ≤ s.here.reqs.length)
    || ((f.order.getLsbD 1 || (store && f.scope == 4)) && vmQueued s.me)
    || ((f.async == 1 || f.tok == 1) && tagBusy s s.cur.tile s.me.task f.tag)

/-- A G-class instruction's effect: its operation, how many bytes, what it needs and carries. -/
structure GForm where
  op : GOp
  n : Nat
  r : Bool
  w : Bool
  ver : Bool
  /-- the k fields it reads and writes, in field order -/
  fields : List (BitVec 6)
  reads : List (BitVec 6)
  dest : Option (BitVec 6)
  /-- the value carried, and the compare value or version -/
  data : Word
  cmp : Word
  deriving DecidableEq, Repr

def GForm.need (g : GForm) : List Perm := (if g.r then [.r] else []) ++ (if g.w then [.w] else [])

/-- The request that the instruction sends (R236, R237). -/
def gRequest (s : State) (f : GW) (g : GForm) (va : Addr) (pa : PAddr) (seq : Option Nat) : GReq :=
  { op := g.op, task := s.me.task, ctxNo := s.cur.ctx, actor := s.me.actor, va := va, pa := pa, n := g.n, data := g.data
    cmp := g.cmp, dest := g.dest, async := f.async == 1, tok := f.tok == 1
    tag := if f.async = 1 ∨ f.tok = 1 then some f.tag else none, order := f.order, scope := f.scope, pc := s.me.pc
    after := accessAfter s pa f g.op.stores, performed := false, reply := none
    win := decide (f.la ≠ 0), seq := seq, onlyRetry := false, resid := s.here.slot.resid }

/-- The token-form GLDV of a helper (R244). -/
def tokenForm (s : State) (f : GW) (g : GForm) : Bool := decide (g.op = .ldv) && s.cur.ctx != 0 && f.async == 1 && f.tok == 1

/-- The reservation of a token-form GLDV's slot: the next SEQ of the completion port's channel (R244). -/
def gldvReserve (s : State) : State × Option Nat :=
  match s.here.complPort s.me.actor with
  | none => (s, none)
  | some p => s.reservePort s.cur.tile p

/-- The request leaves: its tag clears, its window opens, and the instruction completes (R237, R239). -/
def gSend (s : State) (f : GW) (g : GForm) (va : Addr) (pa : PAddr) : State :=
  let r := if tokenForm s f g then gldvReserve s else (s, none)
  let s1 := r.1
  let q := gRequest s1 f g va pa r.2
  let t := s1.here
  let s2 := s1.setHere { t with reqs := AMap.set t.reqs t.nextOp q, nextOp := t.nextOp + 1 }
  let s3 := if f.async = 1 ∨ f.tok = 1 then s2.setMe (s2.me.tagClear f.tag) else s2
  let s4 := s3.complete 8
  s4.setMe (s4.me.openWin f.la .k f.d t.nextOp s.me.pc)

/-- Step 8 of a G-class instruction (R236): holds, capability, translation, completion token. -/
def gBody (f : GW) (g : GForm) (s : State) : Try State := do
  guardK s g.fields g.reads (match g.dest with
    | some d => [d]
    | none => [])
  trapIf (decide (s.me.role = .team) && (f.tok == 1 || decide (g.op = .ldv))) codePortMisuse 0
  trapIf (decide (g.op = .ldv) && s.cur.ctx != 0 && !(f.async == 1 && f.tok == 1)) codeWaitForbidden (f.tag.setWidth 64)
  stallIf (gHold s f g.op.stores)
  let c := s.me.readK f.a
  let va := gAddr c f g.n
  orTrap (globalCheck c va.toNat g.n g.n g.need)
  let r ← transIssue s va g.r g.w g.ver
  let s1 ← claimToken r.1 (f.tok == 1)
  match (if tokenForm s f g then s.here.complPort s.me.actor else none) with
  | some p => putReady s p
  | none => pure ()
  pure (gSend s1 f g va r.2)

/-- A G-class instruction (R236, R237). -/
def gIssue (f : GW) (g : GForm) (s : State) : Out := issueLong s g.fields f.la .k f.d (gBody f g)

/-! The forms (R241 to R243). -/

def loadForm (f : GW) : GForm := ⟨.load, gSize f, true, false, false, [f.d, f.a], [f.a], some f.d, 0, 0⟩

/-- The low 8n bits of a register. -/
def lowBytes (v : Word) (n : Nat) : Word := BitVec.ofNat 64 (v.toNat % 256 ^ n)

def storeForm (f : GW) (s : State) : GForm :=
  ⟨.store, gSize f, false, true, false, [f.d, f.a], [f.d, f.a], none, lowBytes (s.me.readW f.d) (gSize f), 0⟩

/-- An atomic; k[d] is read as the compare value of GACAS (R242). -/
def atomicForm (o : GOp) (f : GW) (s : State) : GForm :=
  ⟨o, gSize f, true, true, false, [f.d, f.a, f.b], if o = .acas then [f.d, f.a, f.b] else [f.a, f.b], some f.d
    , lowBytes (s.me.readW f.b) (gSize f), if o = .acas then lowBytes (s.me.readW f.d) (gSize f) else 0⟩

def execGld (f : GW) (s : State) : Out := gIssue f (loadForm f) s
def execGst (f : GW) (s : State) : Out := gIssue f (storeForm f s) s
def execGlda (f : GW) (s : State) : Out := gIssue f (loadForm f) s
def execGstr (f : GW) (s : State) : Out := gIssue f (storeForm f s) s

def execGaadd (f : GW) (s : State) : Out := gIssue f (atomicForm .aadd f s) s
def execGamin (f : GW) (s : State) : Out := gIssue f (atomicForm .amin f s) s
def execGamax (f : GW) (s : State) : Out := gIssue f (atomicForm .amax f s) s
def execGaand (f : GW) (s : State) : Out := gIssue f (atomicForm .aand f s) s
def execGaor (f : GW) (s : State) : Out := gIssue f (atomicForm .aor f s) s
def execGaxor (f : GW) (s : State) : Out := gIssue f (atomicForm .axor f s) s
def execGaswp (f : GW) (s : State) : Out := gIssue f (atomicForm .aswp f s) s
def execGacas (f : GW) (s : State) : Out := gIssue f (atomicForm .acas f s) s
def execGafadd (f : GW) (s : State) : Out := gIssue f (atomicForm .afadd f s) s

def gldvForm (f : GW) (s : State) : GForm :=
  ⟨.ldv, gSize f, true, false, true, [f.d, f.a, f.b], [f.a, f.b], some f.d, 0
    , ((s.me.readW f.b).extractLsb' 0 16).setWidth 64⟩

def gstvForm (f : GW) (s : State) : GForm :=
  ⟨.stv, gSize f, false, true, true, [f.d, f.a, f.b], [f.d, f.a, f.b], none, lowBytes (s.me.readW f.d) (gSize f)
    , ((s.me.readW f.b).extractLsb' 0 16).setWidth 64⟩

def gvqForm (f : GW) : GForm := ⟨.vq, 8, true, false, true, [f.d, f.a], [f.a], some f.d, 0, 0⟩

/-- GLDV (R243, R244): in a helper its token form names no destination. -/
def execGldv (f : GW) (s : State) : Out :=
  if s.cur.ctx ≠ 0 ∧ f.async = 1 ∧ f.tok = 1 ∧ f.d ≠ 0 then
    finishTry s (.error (.trap codeIllegal (wordsVal (.gldv f))))
  else gIssue f (gldvForm f s) s

/-- GSTV (R243). -/
def execGstv (f : GW) (s : State) : Out := gIssue f (gstvForm f s) s

/-- GVQ (R243). -/
def execGvq (f : GW) (s : State) : Out := gIssue f (gvqForm f) s

/-! At the home (R220, R221, R227 to R229, R382). -/

/-- The new value of an atomic on n bytes (R242); none where the location is not written. -/
def atomicNew (op : GOp) (n : Nat) (old v cmp : Nat) : Option Nat :=
  let w := 8 * n
  let sg := fun (x : Nat) => if x < 2 ^ (w - 1) then (x : Int) else (x : Int) - 2 ^ w
  match op with
  | .aadd => some ((old + v) % 2 ^ w)
  | .amin => some (if sg old ≤ sg v then old else v)
  | .amax => some (if sg old ≤ sg v then v else old)
  | .aand => some (old &&& v)
  | .aor => some (old ||| v)
  | .axor => some (old ^^^ v)
  | .aswp => some v
  | .acas => if old = cmp then some v else none
  | .afadd => some (fAdd Fmt.f32 (.rne) false false false old v).1
  | _ => none

/-- The outcome of a versioned load with n − c = d (R229). -/
def versionReply (d : Nat) : Option Reply :=
  if d = 0 then none else if d ≤ 32768 then some .retry else some .passed

/-- An extent of a record's word 0; beyond NDIM it counts as 1 (R55, R56). -/
def recExt (rec0 : Word) (i : Nat) : Nat := if i < (rec0.extractLsb' 48 2).toNat then (rec0.extractLsb' (16 * i) 16).toNat else 1

/-- The linear index of a team named as in k6, within the extents (R300). -/
def swqIndex (rec0 idx : Word) : Option Nat :=
  let i := fun n => (idx.extractLsb' (16 * n) 16).toNat
  if i 0 < recExt rec0 0 ∧ i 1 < recExt rec0 1 ∧ i 2 < recExt rec0 2 then
    some (i 0 + recExt rec0 0 * (i 1 + recExt rec0 1 * i 2))
  else none

/-- SWQ's read at the scoreboard's home: header, REC0, and the team's bitmap byte; a byte on a page that is not mapped for
reading reads as 0 (R307; log entry 22). -/
def swqRead (s : State) (tile : Nat) (q : GReq) : Reply :=
  let a := q.pa.toNat
  let rec0 : Word := BitVec.ofNat 64 (s.gRead (a + 8) 8)
  let byte : Option Byte := match swqIndex rec0 q.data with
    | none => some 0
    | some t =>
      let va := q.va.toNat + 64 + t / 8
      match walk s (ctxSpace s tile q.ctxNo) va with
      | .leaf e =>
        let b := (e.physical va).toNat
        if !e.r then some 0 else if s.gBad b 1 then none else some (BitVec.ofNat 8 (s.gRead b 1))
      | _ => some 0
  match byte with
  | some b => if s.gBad a 16 then .poison else .swq (BitVec.ofNat 64 (s.gRead a 8)) rec0 b
  | none => .poison

/-- Whether a request reads its word at the home: every one but a store of a whole word (R382). -/
def GReq.reads (q : GReq) : Bool := q.op != .vq && !((q.op == .store || q.op == .stv) && q.n == 8)

/-- A request performs at its home: memory afterwards and the reply (R221, R382). -/
def homePerform (s0 : State) (tile : Nat) (q : GReq) : State × Reply :=
  let a := q.pa.toNat
  let s := if q.reads then s0.hbmRead (s0.handleOf tile) a q.n else s0
  let old := s.gRead a q.n
  let bad := s.gBad a q.n
  let line := paLine a
  let read : Reply := if bad then .poison else .data (BitVec.ofNat 64 old)
  match q.op with
  | .load => (s, read)
  | .store => (s.gWrite a (leBytes q.n q.data.toNat), .ack)
  | .stv => ({ (s.gWrite a (leBytes q.n q.data.toNat)) with vers := AMap.set s.vers line (q.cmp.extractLsb' 0 16) }, .ack)
  | .vq => (s, .data ((s.version line).setWidth 64))
  | .ldv => match versionReply ((q.cmp.extractLsb' 0 16 - s.version line).toNat) with
    | none => (s, read)
    | some r => (s, r)
  | .retireOr => (s.gWrite a (leBytes 1 (old ||| q.data.toNat)), .ack)
  | .swq => (s, swqRead s tile q)
  | _ =>
    if bad then (s, .poison)
    else match atomicNew q.op q.n old q.data.toNat q.cmp.toNat with
      | some v => (s.gWrite a (leBytes q.n v), .data (BitVec.ofNat 64 old))
      | none => (s, .data (BitVec.ofNat 64 old))

/-! Replies at the tile (R237, R240, R244). -/

def Tile.setReq (t : Tile) (id : Nat) (q : GReq) : Tile := { t with reqs := AMap.set t.reqs id q }

def Tile.dropReq (t : Tile) (id : Nat) : Tile := { t with reqs := AMap.erase t.reqs id }

/-- A late trap of an answered request: due at once for a synchronous form, at the tag's observation otherwise (R240). -/
def replyTrap (q : GReq) (code : Byte) : LateTrap :=
  { code := code, val := q.va.setWidth 64, pc := q.pc, tag := if q.async then q.tag else none, vd := none, late := true
    atDone := true }

/-- What a reply does to the context of its request: the value, or the failure (R237, R240). -/
def replyCtx (id : Nat) (q : GReq) (r : Reply) (c : Ctx) : Ctx :=
  let fail := fun (code : Byte) =>
    if q.win then c.winArrive id 0 false code (q.va.setWidth 64) else { c with lates := c.lates ++ [replyTrap q code] }
  match r with
  | .data v => if q.win then c.winArrive id (v.setWidth 512) false 0 0 else match q.dest with
    | some d => c.writeInt d v
    | none => c
  | .poison => fail codePoison
  | .passed => fail codeVersionPassed
  | _ => c

/-- The tile of a request's actor: another than the request's own where the rebalancer has moved it since (R234). -/
def GReq.homeTile (q : GReq) (tile : Nat) : Nat := if q.actor < 8 then tile else q.actor / 8 - 1

/-- The token that fills the slot of a token-form GLDV (R244); poisoned data fills it as poison (log entry 21). -/
def gldvFill (s : State) (here : Nat) (q : GReq) (seq : Nat) (r : Reply) : State :=
  let tile := q.homeTile here
  match (s.tile tile).complPort (q.actor % 8) with
  | none => s
  | some p => match r with
    | .data v => s.fillPort tile p seq .data (v.setWidth 512)
    | .passed =>
      (s.fillPort tile p seq .poison (codeVersionPassed.setWidth 512)).updErr (s.handleOf tile) fun e =>
        { e with verpass := sat32 (e.verpass + 1) }
    | .poison => s.fillPort tile p seq .poison (codePoison.setWidth 512)
    | _ => s

/-- Tag and token of an answered request (R237, R78). -/
def replyTag (s : State) (tile : Nat) (q : GReq) : State :=
  match q.tag with
  | none => s
  | some g => s.opDone tile q.task q.actor g (q.tok && q.seq.isNone)

/-- The SWQ answer (R307): STATE and the retire bit, or the late trap for an index outside the extents. -/
def swqReply (q : GReq) (header rec0 : Word) (byte : Byte) (c : Ctx) : Ctx :=
  match swqIndex rec0 q.data with
  | none => { c with lates := c.lates ++ [lateNow codeEngineFault 0x360 q.pc] }
  | some t => match q.dest with
    | some d => c.writeInt d ((header.extractLsb' 60 4 ++ 0#59) ++ (if byte.getLsbD (t % 8) then 1#1 else 0#1))
    | none => c

/-- Whether a reply belongs to the residency whose slot is active, or to context 0 (R348). -/
def GReq.ours (q : GReq) (t : Tile) : Bool := q.ctxNo == 0 || q.resid == t.slot.resid

/-- A reply of another residency is dropped by the router and counted (R348, R383). -/
def dropReply (s : State) (tile id : Nat) (q : GReq) : State :=
  let hdr : BitVec 48 := q.resid ++ 0#25 ++ TokKind.sys.code ++ 0#8
  (s.updTile tile fun t => { (t.dropReq id) with dropped := sat32 (t.dropped + 1), dropHdr := some hdr }).updErr (s.handleOf tile) fun e =>
    { e with drophdr := if e.dropped = 0 then hdr else e.drophdr, dropped := sat32 (e.dropped + 1) }

/-- GLOBAL_REPLY: a reply other than an acknowledgement or RETRY reaches the tile (R237, R240, R244, R365): the value is
written wherever the task stands, then the tag is set and the token sent. -/
def execGlobalReply (tile id : Nat) (s : State) : Out :=
  match AMap.get? (s.tile tile).reqs id with
  | none => .next s
  | some q => match q.reply with
    | none | some .ack | some .retry => .next s
    | some r =>
      if !q.ours (s.tile tile) then .next (dropReply s tile id q) else
      let s1 := s.updTile tile fun t => (t.dropReq id).updTask q.task (match r with
        | .swq h r0 b => swqReply q h r0 b
        | .passed => if q.seq.isSome then fun c => c else replyCtx id q r
        | _ => replyCtx id q r)
      let s2 := match q.seq with
        | some n => gldvFill s1 tile q n r
        | none => s1
      .next ((replyTag s2 tile q).moved (s.handleOf tile))

/-- STORE_ACK: a store's acknowledgement (R220, R237). RETIRE waits for its own and takes it (R302). -/
def execStoreAck (tile id : Nat) (s : State) : Out :=
  match AMap.get? (s.tile tile).reqs id with
  | none => .next s
  | some q =>
    if !q.ours (s.tile tile) ∧ q.reply = some .ack then .next (dropReply s tile id q)
    else if q.reply = some .ack ∧ q.op ≠ .retireOr then
      .next ((replyTag (s.updTile tile fun t => t.dropReq id) tile q).moved (s.handleOf tile))
    else .next s

/-- RETRY: the tile's memory port sends a versioned load again; from its first RETRY on it holds the watchdog no more (R229, R311). -/
def execRetryReply (tile id : Nat) (s : State) : Out :=
  match AMap.get? (s.tile tile).reqs id with
  | none => .next s
  | some q =>
    if q.reply = some .retry then
      let s1 := if q.onlyRetry then s else s.moved (s.handleOf tile)
      .next (s1.updTile tile fun t => t.setReq id { q with reply := none, performed := false, onlyRetry := true })
    else .next s

end Sys2Proof.Machine
end

