-- ==== Sys2Proof/Machine/Descriptor.lean ====
section
/-!
DEFINITION. Stream descriptors: their fields, ranges, elements and hull (10 R260, R261).
-/

namespace Sys2Proof.Machine

/-! A descriptor is its eight words (R260). -/

def descW (d : List Word) (i : Nat) : Word := nthD d i 0

def descDir (d : List Word) : Nat := ((descW d 0).extractLsb' 0 2).toNat
def descLevels (d : List Word) : Nat := ((descW d 0).extractLsb' 2 2).toNat + 1
/-- E ← 2^ESZ (R261). -/
def descSize (d : List Word) : Nat := 2 ^ ((descW d 0).extractLsb' 4 3).toNat
def descFmt (d : List Word) : BitVec 4 := (descW d 0).extractLsb' 8 4
def descPort (d : List Word) : Nat := ((descW d 0).extractLsb' 12 5).toNat
def descEosOut (d : List Word) : Bool := (descW d 0).getLsbD 17
def descBase (d : List Word) : Nat := ((descW d 1).extractLsb' 0 48).toNat
def descCount (d : List Word) (j : Nat) : Nat := ((descW d (2 + j)).extractLsb' 0 16).toNat
def descStride (d : List Word) (j : Nat) : Int := ((descW d (2 + j)).extractLsb' 16 32).toInt
def descXe8 (d : List Word) : Bool := descFmt d == 14

/-- Whether every field is in the range of R260. -/
def descOk (d : List Word) : Bool :=
  (descW d 0).extractLsb' 18 46 == 0 && !(descW d 0).getLsbD 7 && decide (descDir d ≠ 3)
    && decide (((descW d 0).extractLsb' 4 3).toNat ≤ 6) && (descFmt d == 0 || descXe8 d)
    && (descW d 1).extractLsb' 48 16 == 0 && descW d 6 == 0 && descW d 7 == 0
    && (upto 4).all (fun j => (descW d (2 + j)).extractLsb' 48 16 == 0
      && (if j < descLevels d then decide (1 ≤ descCount d j) else decide (descCount d j = 0)))
    && (!descXe8 d || (descLevels d == 1 && descSize d == 64 && descStride d 0 == 0))

/-- BASE and the strides are multiples of the element size (R261). -/
def descAligned (d : List Word) : Bool :=
  decide (descBase d % descSize d = 0) && (upto (descLevels d)).all fun j => decide (descStride d j % (descSize d : Int) = 0)

/-- Elements, or blocks, of the stream (R260). -/
def descTotal (d : List Word) : Nat := (upto (descLevels d)).foldl (fun n j => n * descCount d j) 1

/-- Lo (R261). -/
def descLo (d : List Word) : Int :=
  (upto (descLevels d)).foldl (fun x j => x + min 0 (((descCount d j : Int) - 1) * descStride d j)) (descBase d)

/-- Hi (R261). -/
def descHi (d : List Word) : Int :=
  if descXe8 d then descLo d + 54 * descCount d 0
  else (upto (descLevels d)).foldl (fun x j => x + max 0 (((descCount d j : Int) - 1) * descStride d j)) (descBase d)
    + descSize d

/-- The address of the element at a position, level 0 fastest (R262). -/
def descAddr (d : List Word) (pos : Nat) : Nat :=
  let r := (upto (descLevels d)).foldl
    (fun (p : Int × Nat) j => (p.1 + ((p.2 % descCount d j : Nat) : Int) * descStride d j, p.2 / descCount d j))
    ((descBase d : Int), pos)
  (r.1 % 2 ^ 48).toNat

end Sys2Proof.Machine
end

