-- ==== Sys2Proof/Machine/Engine.lean ====
section
/-!
DEFINITION. What the engines share: the issue of a command into its context's queue, the choice of the next command, its
completion (01 R25, 03 R78, 07 R180, R181, R187, 08 R201, R202, 09 R226, 10 R239, R256).
-/

namespace Sys2Proof.Machine

/-- An engine's command queues (R25). -/
inductive Engine where
  | mx | dm | lc
  deriving DecidableEq, Repr

def Engine.queue (e : Engine) (c : Ctx) : List EngCmd :=
  match e with
  | .mx => c.mxq | .dm => c.dmq | .lc => c.lcq

def Engine.setQueue (e : Engine) (c : Ctx) (q : List EngCmd) : Ctx :=
  match e with
  | .mx => { c with mxq := q } | .dm => { c with dmq := q } | .lc => { c with lcq := q }

def Engine.last (e : Engine) (t : Tile) : Nat :=
  match e with
  | .mx => t.mxLast | .dm => t.dmLast | .lc => t.lcLast

def Engine.setLast (e : Engine) (t : Tile) (n : Nat) : Tile :=
  match e with
  | .mx => { t with mxLast := n } | .dm => { t with dmLast := n } | .lc => { t with lcLast := n }

/-- How another tile's claims name an actor whose teams run there. -/
def farKey (tile actor : Nat) : Nat := 8 * (tile + 1) + actor

/-- The actor a claim is made for (R180, R201): 0 to 7 on the tile; a team counts as its launching actor, which on another
tile is no actor of that tile. Context 0 claims nothing. -/
def claimKey (s : State) : Option Nat :=
  let c := s.me
  if s.cur.ctx = 0 then none
  else if c.role = .team then
    match AMap.get? s.here.sweepSlots c.sweepSlot with
    | none => some c.actor
    | some x => match AMap.get? s.sweeps x.sweep with
      | none => some c.actor
      | some w => some (if w.tile = s.cur.tile then c.actor else farKey w.tile c.actor)
  else some c.actor

/-- Whether a claim keeps the context out (R180, R201). -/
def claimedByOther (s : State) (owner : Option Nat) : Bool :=
  match claimKey s, owner with
  | some k, some o => k != o
  | _, _ => false

/-- The claims of a tile on its fabric and streams that a test names end (R201, R257). -/
def Tile.freeClaims (t : Tile) (p : Nat → Bool) : Tile :=
  let free := fun (o : Option Nat) => o.filter fun k => !p k
  let t1 := { t with fabric := { t.fabric with owner := free t.fabric.owner, iOwner := free t.fabric.iOwner } }
  t1.setSlot { t1.slot with streams := AMap.mapVals t1.slot.streams fun _ x => { x with claim := free x.claim } }

/-- The claims that the teams of a tile's actor hold on other tiles end with the actor (R201). -/
def State.freeFar (s : State) (tile actor : Nat) : State :=
  { s with tiles := AMap.mapVals s.tiles fun k t => if k = tile then t else t.freeClaims (· == farKey tile actor) }

/-- The claim after an instruction of the context: a free unit is taken (R180, R201). -/
def claimed (s : State) (owner : Option Nat) : Option Nat :=
  match owner with
  | some o => some o
  | none => claimKey s

/-- What holds an engine command at issue: the tag it names, earlier VM accesses and acquires (R222, R226, R239). -/
def engHold (s : State) (tag : BitVec 6) : Bool :=
  tagBusy s s.cur.tile s.me.task tag || (s.me.vq.any fun x => (vmShape x.instr).isSome) || acquirePending s.here s.me

/-- A command that passes every check waits while its context's queue is full (R25, R187, R207). -/
def engRoom (s : State) (e : Engine) : Try Unit := stallIf (decide (2 ≤ (e.queue s.me).length))

/-- The first address of [a, a + n) that a bounds check of R147 refuses: outside the capability or the 22-bit space, else in a bank
that is not granted. -/
def firstFailing (banks : Option (BitVec 16)) (c : KReg) (a n : Nat) : Nat :=
  let top := min c.top (2 ^ 22)
  if (a : Int) < c.base ∨ top ≤ (a : Int) then a
  else if top < (a : Int) + n then top.toNat
  else match banks with
    | none => a
    | some b => match (upto ((a + n - 1) / 2 ^ 18 - a / 2 ^ 18 + 1)).find? fun i => !b.getLsbD (a / 2 ^ 18 + i) with
      | none => a
      | some i => max a ((a / 2 ^ 18 + i) * 2 ^ 18)

/-- The check of an engine operand over its whole extent, in R147's order: TRAPVAL holds the first failing address (R187, R207). -/
def extentCheck (banks : Option (BitVec 16)) (c : KReg) (n align : Nat) (need : List Perm) : Option Failure :=
  match tlmCheck banks c c.addr.toNat n align need with
  | some (code, v) =>
    some (code, if code = codeCapBounds then BitVec.ofNat 64 (firstFailing banks c c.addr.toNat n) else v)
  | none => none

/-- The command enters its context's queue with the operands it read, its tag cleared (R187, R239). -/
def engPush (s : State) (e : Engine) (i : Instr) (f : EW) (data : List Word) : State :=
  let c := s.me
  let t := s.here
  let x : EngCmd :=
    { op := t.nextOp, task := c.task, instr := i, pc := c.pc, ka := c.readK f.a, kb := c.readK f.b, kd := c.readK f.d
      done := 0, started := false, rd := 0, wr := 0, got := [], gbad := [], events := 0, waiting := none, draining := false
      stopped := none, actor := c.actor, data := data }
  let c1 := (e.setQueue c (e.queue c ++ [x])).tagClear f.tag
  ((s.setHere { t with nextOp := t.nextOp + 1 }).setMe c1).complete 8

/-- Whether a command is the oldest of its task in the engine (R181: commands of one context execute in issue order). -/
def oldestOfTask (t : Tile) (e : Engine) (x : EngCmd) : Bool :=
  ((AMap.vals t.ctxs).flatMap e.queue).all fun y => y.task != x.task || decide (x.op ≤ y.op)

/-- Whether a task of the tile is a team, whose operations belong to no firing here. -/
def Tile.isTeam (t : Tile) (task : Nat) : Bool := match t.taskCtx task with
  | some c => decide (c.role = .team)
  | none => false

/-- Whether a command stands at a boundary of its execution: an MMA at a chunk, an LTAB from a stream at a table, a DCOPY at a line,
any other before it begins (R189, R206, R371). -/
def EngCmd.atBoundary (x : EngCmd) : Bool := x.rd == 0 && x.wr == 0

/-- What keeps a command of context n from going on: a halt of the tile, or its firing's actor held by a snapshot, once it stands at a
boundary (R371, R375). -/
def engHalted (t : Tile) (n : Nat) (x : EngCmd) : Bool :=
  x.atBoundary && (t.preReq || (n != 0 && !t.isTeam x.task && (t.actor x.actor).held))

/-- The context whose command the engine has taken and not completed. -/
def engTaken (t : Tile) (e : Engine) : Option Nat :=
  (upto 11).find? fun n => (e.queue (t.ctx n)).head?.elim false (·.started)

/-- The head that the engine goes on with: the one it has taken, else round-robin among the contexts, passing over heads not
eligible (R181, R202). -/
def engChoice (t : Tile) (e : Engine) (ok : EngCmd → Bool) : Option Nat :=
  let may := fun (n : Nat) => (e.queue (t.ctx n)).head?.elim false fun x => !engHalted t n x && ok x
  match engTaken t e with
  | some n => if may n then some n else none
  | none => ((upto 11).map fun i => (e.last t + 1 + i) % 11).find? fun n =>
    may n && (e.queue (t.ctx n)).head?.elim false (oldestOfTask t e)

/-- The head of a context's queue when the engine takes it. -/
def engTake (t : Tile) (e : Engine) (ok : EngCmd → Bool) (n : Nat) : Option EngCmd :=
  if engChoice t e ok = some n then (e.queue (t.ctx n)).head? else none

/-- The head of a context's queue leaves it. -/
def Tile.popCmd (t : Tile) (e : Engine) (n : Nat) : Tile :=
  e.setLast (t.setCtx n (e.setQueue (t.ctx n) ((e.queue (t.ctx n)).drop 1))) n

/-! The accesses of a command (R186, R203). -/

/-- One read of an engine: the operand, and the bytes. -/
structure EngRead where
  operand : Nat
  addr : Nat
  len : Nat
  deriving DecidableEq, Repr

/-- One write of an engine: its bytes, and the words of it that are marked poisoned. -/
structure EngLine where
  addr : Nat
  bytes : List Byte
  bad : List Nat
  deriving DecidableEq, Repr

/-- [a, a + n) in aligned pieces of at most 64 bytes, in increasing address order. -/
def cutLines (a n : Nat) : List (Nat × Nat) :=
  if n = 0 then []
  else (upto ((a + n - 1) / 64 - a / 64 + 1)).map fun i =>
    let lo := max a ((a / 64 + i) * 64)
    (lo, min (a + n) ((a / 64 + i + 1) * 64) - lo)

/-- Where a byte of an operand stands among the bytes that a command has read: a TLM address is below 2^22 (R26). -/
def gotKey (operand a : Nat) : Nat := operand * 2 ^ 22 + a

/-- The command with the bytes of one more read, and the bad words among them. -/
def EngCmd.read (x : EngCmd) (t : Tile) (r : EngRead) : EngCmd :=
  { x with
    started := true, rd := x.rd + 1
    got := Memory.writeBytes x.got (gotKey r.operand r.addr) (Memory.readBytes t.tlm r.addr r.len)
    gbad := ((wordsOf r.addr r.len).filter fun w => (t.badWord w 8).isSome).foldl (fun m w => NSet.insert m (gotKey r.operand w)) x.gbad }

/-- What a command has read, as tile memory. -/
def EngCmd.view (x : EngCmd) : Tile := { Tile.init with tlm := x.got, poison := x.gbad }

/-- A write of an engine performs (R150, R192, R205). -/
def EngLine.write (l : EngLine) (t : Tile) : Tile :=
  let t1 := t.writeTlm l.addr l.bytes
  { t1 with poison := l.bad.foldl NSet.insert t1.poison }

/-- A line written marked poisoned throughout, or not at all. -/
def wholeLine (a : Nat) (bs : List Byte) (poisoned : Bool) : EngLine := ⟨a, bs, if poisoned then wordsOf a bs.length else []⟩

/-- The head of a context's queue is replaced. -/
def Tile.setHead (t : Tile) (e : Engine) (n : Nat) (x : EngCmd) : Tile :=
  t.setCtx n (e.setQueue (t.ctx n) (x :: (e.queue (t.ctx n)).drop 1))

/-- The command at the head of context n's queue goes on by one access: its next read, else its next line; with the last line, or
where no access is left, it does what `fin` says (R186, R203). -/
def engStep (s : State) (tile n : Nat) (e : Engine) (x : EngCmd) (reads : List EngRead) (lines : Nat) (line : Nat → EngLine)
    (fin : State → EngCmd → State) : State :=
  let t := s.tile tile
  match reads[x.rd]? with
  | some r => s.setTile tile ((t.touchRead r.addr r.len).setHead e n (x.read t r))
  | none =>
    if x.wr < lines then
      let y := { x with started := true, wr := x.wr + 1 }
      let s1 := s.setTile tile (((line x.wr).write t).setHead e n y)
      if y.wr < lines then s1 else fin s1 y
    else fin s x

/-- A command completes: its tag is set and its token sent (R78, R187). -/
def cmdDone (s : State) (tile : Nat) (x : EngCmd) (f : EW) : State :=
  (s.opDone tile x.task x.actor f.tag (f.tok == 1)).moved (s.handleOf tile)

end Sys2Proof.Machine
end

