-- ==== Sys2Proof/Machine/Matrix.lean ====
section
/-!
DEFINITION. The matrix engine: accumulators, panels, counted releases and the MX instructions (04 R125, R126, 07 R177 to R195).
-/

namespace Sys2Proof.Machine

/-! Shapes and panels (R178, R179). -/

def shapeRows (s : BitVec 2) : Nat := if s = 1 then 16 else if s = 2 then 64 else 32
def shapeCols (s : BitVec 2) : Nat := if s = 1 then 64 else if s = 2 then 16 else 32

/-- k-steps per slice (R177). -/
def sliceSteps (fmt : BitVec 4) : Nat := if fmt = 9 then 1 else if fmt = 12 then 4 else 2

/-- The chunk length C (R125, R177). -/
def chunkLen (fmt : BitVec 4) : Nat := if fmt = 9 then 16 else 32

def isMx (fmt : BitVec 4) : Bool := fmt == 12 || fmt == 13

/-- The length of a panel of m rows (R179). -/
def panelLen (fmt : BitVec 4) (m k : Nat) : Nat :=
  if isMx fmt then k / 32 * (32 / sliceSteps fmt * (2 * m) + 64) else k / sliceSteps fmt * (2 * m)

/-- The offset of a slice in a panel of m rows (R179). -/
def sliceOff (fmt : BitVec 4) (m sl : Nat) : Nat :=
  if isMx fmt then
    let per := 32 / sliceSteps fmt
    sl / per * (per * (2 * m) + 64) + sl % per * (2 * m)
  else sl * (2 * m)

/-- The element type of a panel's values (R41, R109). -/
def panelFmt (fmt : BitVec 4) : Fmt :=
  if fmt = 9 then .bf16 else if fmt = 11 then .e5m2 else if fmt = 12 then .e2m1 else .e4m3

/-- The other FP8 format (R177). -/
def otherFp8 (fmt : BitVec 4) : BitVec 4 := if fmt = 10 then 11 else 10

/-- The value of row i at step k of the panel at `base` (R179). -/
def panelVal (t : Tile) (fmt : BitVec 4) (base m i k : Nat) : FVal :=
  let a := base + sliceOff fmt m (k / sliceSteps fmt) + 2 * i
  let r := k % sliceSteps fmt
  let bits :=
    if fmt = 9 then t.readTlm a 2
    else if fmt = 12 then t.readTlm (a + r / 2) 1 / 16 ^ (r % 2) % 16
    else t.readTlm (a + r) 1
  (panelFmt fmt).decode false bits

/-- The scale of row i in chunk c (R179). -/
def panelScale (t : Tile) (fmt : BitVec 4) (base m i c : Nat) : Nat :=
  let per := 32 / sliceSteps fmt * (2 * m)
  t.readTlm (base + c * (per + 64) + per + i) 1

/-! One chunk of one element (R125, R126). -/

/-- The exact sum of products; a chunk of no products does not occur. -/
def sumProducts : List (FVal × FVal) → FVal
  | [] => .fin false 0 0
  | [p] => (FVal.mul p.1 p.2).1
  | p :: ps => (FVal.add .rne (FVal.mul p.1 p.2).1 (sumProducts ps)).1

/-- A block scale: exact, or NaN for 0xFF (R109). -/
def applyScale (x : FVal) (scale : Nat) : FVal := if scale = 0xFF then .nan false else x.scale ((scale : Int) - 127)

def FVal.isInf : FVal → Bool
  | .inf _ => true
  | _ => false

/-- A ← RoundW48(A + RoundW48(s)), with the NAN and INF events (R125, R126). -/
def addChunk (a : Word) (x : FVal) : Word × Bool × Bool :=
  let w := w48Round x
  let z := FVal.add .rne (w48Decode a) (w48Decode w.1)
  let r := w48Round z.1
  (r.1, x.isNan || z.2, x.isInf || w.2 || r.2)

/-- What an MMA reads: formats, panels, shape and K. -/
structure MmaArgs where
  fa : BitVec 4
  fb : BitVec 4
  abase : Nat
  bbase : Nat
  rows : Nat
  cols : Nat
  k : Nat
  deriving DecidableEq, Repr

/-- The chunk sum of element (i, j) (R125). -/
def chunkSum (t : Tile) (g : MmaArgs) (i j c : Nat) : FVal :=
  let lo := c * chunkLen g.fa
  let hi := min g.k (lo + chunkLen g.fa)
  let x := sumProducts ((upto (hi - lo)).map fun d =>
    (panelVal t g.fa g.abase g.rows i (lo + d), panelVal t g.fb g.bbase g.cols j (lo + d)))
  if isMx g.fa then applyScale (applyScale x (panelScale t g.fa g.abase g.rows i c)) (panelScale t g.fb g.bbase g.cols j c)
  else x

/-- An accumulator element, row-major in the current shape; an unlisted one is +0. -/
def Acc.elem (a : Acc) (n : Nat) : Word := AMap.getD a.data n 0

/-- The sparse form: +0 is not listed. -/
def setElem (m : AMap Word) (n : Nat) (w : Word) : AMap Word := if w = 0 then AMap.erase m n else AMap.set m n w

/-- The adds of chunk c of an MMA, from the panels in `v` (R189): the contents, and whether a NaN or an infinity was met. -/
def mmaChunk (v : Tile) (g : MmaArgs) (c : Nat) (a : Acc) : AMap Word × Bool × Bool :=
  (upto 1024).foldl (fun m e =>
    let r := addChunk (a.elem e) (chunkSum v g (e / g.cols) (e % g.cols) c)
    (setElem m.1 e r.1, m.2.1 || r.2.1, m.2.2 || r.2.2)) (a.data, false, false)

/-- The pieces of a slice or scale line of an operand: at most 64 bytes each (R186). -/
def panelPieces (operand a n : Nat) : List EngRead := (cutLines a n).map fun p => ⟨operand, p.1, p.2⟩

/-- The reads of chunk c of an MMA: its slices, then the scale lines of an MX chunk, in increasing order in each panel (R179, R186; log
entry 10 for the order between the panels). -/
def chunkReads (g : MmaArgs) (c : Nat) : List EngRead :=
  let q := sliceSteps g.fa
  let lo := c * chunkLen g.fa / q
  let hi := min g.k ((c + 1) * chunkLen g.fa) / q
  let slice := fun (sl : Nat) =>
    panelPieces 0 (g.abase + sliceOff g.fa g.rows sl) (2 * g.rows) ++ panelPieces 1 (g.bbase + sliceOff g.fb g.cols sl) (2 * g.cols)
  let scale := fun (base m : Nat) =>
    let per := 32 / q * (2 * m)
    base + c * (per + 64) + per
  ((upto (hi - lo)).flatMap fun i => slice (lo + i))
    ++ (if isMx g.fa then panelPieces 0 (scale g.abase g.rows) 64 ++ panelPieces 1 (scale g.bbase g.cols) 64 else [])

/-! Releases (R190, R192, R193). -/

def relFmtOf (c : BitVec 4) : Fmt := if c = 9 then .bf16 else .f32
def relSize (c : BitVec 4) : Nat := if c = 9 then 2 else 4

/-- The bytes of a release (R190). -/
def relBytes (c : BitVec 4) : Nat := 1024 * relSize c

/-- One element rounded once to the release format (R125, R126). -/
def relElem (fmt : BitVec 4) (sat : Bool) (w : Word) : Rounded := (relFmtOf fmt).round .rne sat false (w48Decode w)

/-- Step 1 of Release: the rounded elements and the flag bits over all of them. -/
def roundAll (a : Acc) (fmt : BitVec 4) (sat : Bool) : List Nat × Flags :=
  let rs := (upto 1024).map fun n => relElem fmt sat (a.elem n)
  (rs.map (·.bits), rs.foldl (fun x r => x ||| r.flags) 0)

def Acc.relFlags (a : Acc) (f : Flags) : Acc :=
  { a with rof := a.rof || f.getLsbD 2, ruf := a.ruf || f.getLsbD 1, rnx := a.rnx || f.getLsbD 0 }

/-- The contents cleared to +0, LIVE and PSN 0. -/
def Acc.clear (a : Acc) : Acc := { a with data := [], live := false, psn := false }

def elemBytes (size : Nat) (xs : List Nat) : List Byte := xs.flatMap (leBytes size)

/-- The line tokens of a release to a port: ⌈N × size / 64⌉ for each row, the unused bytes zero (R190). -/
def rowTokens (cols size : Nat) (row : List Nat) : List Line :=
  let bs := elemBytes size row
  (upto (ceilDiv (cols * size) 64)).map fun i => bytesLine ((bs.drop (64 * i)).take 64)

def rowsOf (cols : Nat) : Nat → List Nat → List (List Nat)
  | 0, _ => []
  | n + 1, xs => xs.take cols :: rowsOf cols n (xs.drop cols)

/-- The lines of a release: the line tokens of each row for a port, the rows row-major for a ring (R190). -/
def releaseLines (a : Acc) (xs : List Nat) : List Line :=
  if a.kind then (rowsOf (shapeCols a.shape) (shapeRows a.shape) xs).flatMap (rowTokens (shapeCols a.shape) (relSize a.rfmt))
  else
    let bs := elemBytes (relSize a.rfmt) xs
    (upto (relBytes a.rfmt / 64)).map fun i => bytesLine ((bs.drop (64 * i)).take 64)

/-- Steps 1 and 2 of Release(c) (R190): the rounded tile stands in the release buffer, the contents are cleared, and the command that
started it waits with its tag (R189). -/
def Acc.release (a : Acc) (x : EngCmd) (f : EW) : Acc :=
  let r := roundAll a a.rfmt a.sat
  { (a.relFlags r.2).clear with
    count := a.count0, buf := releaseLines a r.1, bufPsn := a.psn, bufRow := shapeCols a.shape * relSize a.rfmt, sent := 0, prog := 0
    waiter := some (x.task, x.actor, f.tag, f.tok == 1) }

/-- Rows of a release that are gone after n lines: whole rows of a ring's bytes, or a row's tokens (R182, R190). -/
def Acc.rowsGone (a : Acc) (n : Nat) : Nat := if a.kind then n / ceilDiv a.bufRow 64 else n * 64 / a.bufRow

/-- The control word of R182. -/
def accWord (a : Acc) : Word :=
  BitVec.ofNat 64 ((if a.live then 2 ^ 63 else 0) + a.shape.toNat * 2 ^ 61 + (if a.owner.isSome then 2 ^ 60 else 0)
    + (a.owner.getD 0) % 8 * 2 ^ 57 + (if a.counted then 2 ^ 56 else 0) + (if a.kind then 2 ^ 55 else 0)
    + (if a.sat then 2 ^ 54 else 0) + a.rfmt.toNat * 2 ^ 50 + a.port % 32 * 2 ^ 45 + a.count % 2 ^ 11 * 2 ^ 34
    + a.curoff % 2 ^ 16 * 2 ^ 18 + a.prog % 128 * 2 ^ 11 + (if a.psn then 2 ^ 10 else 0))

/-! Issue (R180, R187, R188). -/

def accNo (f : EW) : Nat := f.c.toNat

/-- TRAPVAL of ENGINE_FAULT: the unit in bits 7:0, the reason in bits 15:8. -/
def engVal (unit reason : Nat) : Word := BitVec.ofNat 64 (reason * 256 + unit)

/-- Issue of an MX command: its capability checks, the completion token, the reasons of R187, ownership last; then the issue
stage's copy of the accumulator changes, given the claim that the command makes, and the command enters its queue. -/
def mxIssue (i : Instr) (f : EW) (reads : List (BitVec 6)) (check : State → Try Unit) (reason : State → Try Unit)
    (upd : Acc → Option Nat → Acc) (s : State) : Out :=
  finishTry s (do
    guardK s reads reads []
    stallIf (engHold s f.tag)
    check s
    let s1 ← claimToken s (f.tok == 1)
    reason s1
    let a := s1.here.acc (accNo f)
    trapIf (claimedByOther s1 a.iOwner) codeEngineFault (engVal (accNo f) 1)
    engRoom s .mx
    let s2 := s1.setHere (s1.here.setAcc (accNo f) (upd a (claimed s1 a.iOwner)))
    pure (engPush s2 .mx i f ((claimKey s1).map (BitVec.ofNat 64)).toList))

/-- The extent [address of c, n bytes) under R147, aligned to 64. -/
def extent (s : State) (c : KReg) (n : Nat) (need : List Perm) : Try Unit :=
  orTrap (extentCheck (grantOf s s.cur.tile s.me) c n 64 need)

def noCheck (_ : State) : Try Unit := .ok ()

/-- The B format of an MMA (R177): the other FP8 format with XB. -/
def mmaFb (f : EW) : BitVec 4 := if f.imm.getLsbD 13 then otherFp8 f.fmt else f.fmt

def mmaK (f : EW) : Nat := (f.imm.extractLsb' 0 13).toNat + 1

/-- MMA at issue (R188, R189). -/
def execMma (f : EW) (s : State) : Out :=
  mxIssue (.mma f) f [f.a, f.b]
    (fun s => do
      let sh := (s.here.acc (accNo f)).iShape
      extent s (s.me.readK f.a) (panelLen f.fmt (shapeRows sh) (mmaK f)) [.r]
      extent s (s.me.readK f.b) (panelLen (mmaFb f) (shapeCols sh) (mmaK f)) [.r])
    noCheck (fun a o => { a with iOwner := o }) s

/-- The ring of a MINIT with KIND 0 (R190). -/
def ringCheck (s : State) (c : KReg) (rb : Nat) : Try Unit := do
  let base := c.base.toNat
  let len := (c.top - c.base).toNat
  let a := c.addr.toNat
  let v := c.addr.setWidth 64
  trapIf (!c.tag) codeCapTag v
  trapIf c.isSealed codeCapSeal v
  trapIf (!(c.has .tlm && c.has .w)) codeCapPerm v
  trapIf (decide (a < base) || decide (base + len ≤ a)) codeCapBounds v
  trapIf (decide (2 ^ 22 < base + len) || (match grantOf s s.cur.tile s.me with
    | some b => !inBanks b base len
    | none => false)) codeCapBounds (BitVec.ofNat 64 (firstFailing (grantOf s s.cur.tile s.me) c base len))
  trapIf (decide (base % 64 ≠ 0) || decide (len = 0) || decide (len % rb ≠ 0)) codeCapBounds (BitVec.ofNat 64 base)
  trapIf (decide ((a - base) % rb ≠ 0)) codeAlign v

/-- Reason 4 of R187: a release of the accumulator is still draining, and another context armed it. -/
def rearmCheck (f : EW) (s : State) : Try Unit :=
  let a := s.here.acc (accNo f)
  trapIf (a.iCounted && !a.buf.isEmpty && a.armer != s.cur.ctx) codeEngineFault (engVal (accNo f) 4)

/-- MINIT with a TLM ring (R190). -/
def execMinit (f : EW) (s : State) : Out :=
  mxIssue (.minit f) f [f.a] (fun s => ringCheck s (s.me.readK f.a) (relBytes f.fmt)) (rearmCheck f)
    (fun a o => { a with iOwner := o, iCounted := true }) s

/-- The release port of a MINIT with KIND 1: a line output of the issuing actor that the image binds (R190). A team issues for no actor of
its own, and is refused (DESIGN CHOICE, log entry 103). -/
def relPortOk (s : State) (f : EW) : Bool :=
  let p := s.here.port f.b.toNat
  p.declared && p.output && p.actor == s.me.actor && s.cur.ctx != 0 && decide (s.me.role ≠ .team) && p.count == 0 && p.line
    && p.fmt == f.fmt && p.relb.isSome

def minitCount (f : EW) : Nat := (f.imm.extractLsb' 0 10).toNat + 1

/-- MINIT with a release port (R190): COUNT must be the binding's. -/
def execMinitPort (f : EW) (s : State) : Out :=
  mxIssue (.minitPort f) f []
    (fun s => trapIf (!relPortOk s f) codePortMisuse (f.b.setWidth 64))
    (fun s => do
      trapIf (decide (minitCount f ≠ (((s.here.port f.b.toNat).relb.getD 0).extractLsb' 0 10).toNat + 1)) codeEngineFault
        (engVal (accNo f) 3)
      rearmCheck f s)
    (fun a o => { a with iOwner := o, iCounted := true }) s

/-- MREL (R193): not on a counted accumulator; it frees the accumulator. -/
def execMrel (f : EW) (s : State) : Out :=
  mxIssue (.mrel f) f [f.a] (fun s => extent s (s.me.readK f.a) (relBytes f.fmt) [.w])
    (fun s => trapIf (s.here.acc (accNo f)).iCounted codeEngineFault (engVal (accNo f) 2))
    (fun a _ => { a with iOwner := none }) s

/-- MZERO (R194). -/
def execMzero (f : EW) (s : State) : Out := mxIssue (.mzero f) f [] noCheck noCheck (fun a o => { a with iOwner := o, iCounted := false }) s

/-- MSHAPE (R194). -/
def execMshape (f : EW) (s : State) : Out :=
  mxIssue (.mshape f) f [] noCheck noCheck (fun a o => { a with iOwner := o, iCounted := false, iShape := f.imm.extractLsb' 0 2 }) s

/-- MRD (R195): it claims nothing. -/
def execMrd (f : EW) (s : State) : Out :=
  mxIssue (.mrd f) f [f.a] (fun s => extent s (s.me.readK f.a) (if f.imm.getLsbD 0 then 8 else 8192) [.w]) noCheck
    (fun a _ => a) s

/-! Execution (R189 to R195). -/

/-- Whether a head can execute: an MMA that would bring COUNT to 0, and a MINIT, wait for the release in progress to drain
(R190, R191). -/
def mxReady (t : Tile) (x : EngCmd) : Bool :=
  match x.instr with
  | .mma f => !((t.acc (accNo f)).counted && (t.acc (accNo f)).count == 1 && !(t.acc (accNo f)).buf.isEmpty)
  | .minit f | .minitPort f => (t.acc (accNo f)).buf.isEmpty
  | _ => true

/-- The execution claims a free accumulator for the actor that the command was issued for (R180); the command holds it as data. -/
def Acc.claim (a : Acc) (x : EngCmd) : Acc := { a with owner := match a.owner with
  | some o => some o
  | none => x.data.head?.map (·.toNat) }

/-- What an MMA reads, in the shape of the accumulator as it executes. -/
def mmaArgs (t : Tile) (x : EngCmd) (f : EW) : MmaArgs :=
  let a := t.acc (accNo f)
  { fa := f.fmt, fb := mmaFb f, abase := x.ka.addr.toNat, bbase := x.kb.addr.toNat, rows := shapeRows a.shape
    cols := shapeCols a.shape, k := mmaK f }

/-- The chunks of an MMA. -/
def mmaChunks (f : EW) : Nat := ceilDiv (mmaK f) (chunkLen f.fmt)

/-- The panels as an MMA has read them: B stands behind A. -/
def MmaArgs.got (g : MmaArgs) : MmaArgs := { g with bbase := gotKey 1 g.bbase }

/-- The accumulator with the chunk that an MMA has read added, and the command before its next chunk (R189). -/
def mmaAdd (t : Tile) (x : EngCmd) (f : EW) : Acc × EngCmd :=
  let a := (t.acc (accNo f)).claim x
  let r := mmaChunk x.view (mmaArgs t x f).got x.done a
  ({ a with data := r.1 },
    { x with
      started := true, done := x.done + 1, rd := 0, got := [], gbad := []
      events := x.events ||| ((if x.gbad.isEmpty then 0 else 4) + (if r.2.2 then 2 else 0) + (if r.2.1 then 1 else 0)) })

/-- The end of an MMA whose chunks are added (R189, R192): LIVE, the events, the count, and Release when it expires. -/
def mmaEnd (a : Acc) (x : EngCmd) (f : EW) : Acc :=
  let a1 := { a with
    live := true, nan := a.nan || x.events.getLsbD 0, inf := a.inf || x.events.getLsbD 1, psn := a.psn || x.events.getLsbD 2 }
  if a1.counted then (if a1.count = 1 then a1.release x f else { a1 with count := a1.count - 1 }) else a1

/-- MINIT (R190). -/
def doMinit (t : Tile) (ctx : Nat) (x : EngCmd) (f : EW) (port : Bool) : Tile :=
  let n := accNo f
  let a := (t.acc n).claim x
  let base := x.ka.base.toNat
  t.setAcc n { a.clear with
    counted := true, kind := port, sat := f.imm.getLsbD 10, rfmt := f.fmt, count := minitCount f, count0 := minitCount f
    prog := 0, port := if port then f.b.toNat else a.port, armer := ctx
    curoff := if port then a.curoff else (x.ka.addr.toNat - base) / 64
    ringBase := if port then a.ringBase else base
    ringLen := if port then a.ringLen else (x.ka.top - x.ka.base).toNat }

/-- Line i of a release by MREL: its elements row-major, rounded once (R193). -/
def mrelBytes (a : Acc) (f : EW) (i : Nat) : List Byte :=
  let size := relSize f.fmt
  (upto (64 / size)).flatMap fun j => leBytes size (relElem f.fmt (f.imm.getLsbD 0) (a.elem (64 / size * i + j))).bits

/-- MREL once its lines are written (R193): the flags, the contents cleared, the accumulator free. -/
def doMrel (t : Tile) (f : EW) : Tile :=
  let a := t.acc (accNo f)
  t.setAcc (accNo f) { (a.relFlags (roundAll a f.fmt (f.imm.getLsbD 0)).2).clear with owner := none }

/-- MZERO (R194). -/
def doMzero (t : Tile) (x : EngCmd) (f : EW) : Tile :=
  let a := (t.acc (accNo f)).claim x
  t.setAcc (accNo f) { a.clear with counted := false, prog := 0 }

/-- MSHAPE (R194). -/
def doMshape (t : Tile) (x : EngCmd) (f : EW) : Tile :=
  let a := (t.acc (accNo f)).claim x
  let sh := f.imm.extractLsb' 0 2
  t.setAcc (accNo f) (if a.live || a.counted then { a.clear with counted := false, rsh := true, shape := sh }
    else { a with shape := sh, psn := false })

/-- Line i of an MRD: eight containers, or the control word (R195). -/
def mrdBytes (a : Acc) (f : EW) (i : Nat) : List Byte :=
  if f.imm.getLsbD 0 then leBytes 8 (accWord a).toNat else (upto 8).flatMap fun j => leBytes 8 (a.elem (8 * i + j)).toNat

/-- The reads of an MX command's step: a chunk's of an MMA. -/
def mxReads (t : Tile) (x : EngCmd) : List EngRead :=
  match x.instr with
  | .mma f => chunkReads (mmaArgs t x f) x.done
  | _ => []

/-- How many lines an MX command writes (R186, R193, R195). -/
def mxLines (x : EngCmd) : Nat :=
  match x.instr with
  | .mrel f => relBytes f.fmt / 64
  | .mrd f => if f.imm.getLsbD 0 then 1 else 128
  | _ => 0

/-- Line i of an MX command; those of a poisoned accumulator's contents are marked (R192). -/
def mxLine (t : Tile) (x : EngCmd) (i : Nat) : EngLine :=
  let at_ := x.ka.addr.toNat + 64 * i
  match x.instr with
  | .mrel f => wholeLine at_ (mrelBytes (t.acc (accNo f)) f i) (t.acc (accNo f)).psn
  | .mrd f => wholeLine at_ (mrdBytes (t.acc (accNo f)) f i) (!f.imm.getLsbD 0 && (t.acc (accNo f)).psn)
  | _ => ⟨at_, [], []⟩

/-- The effect of an MX command other than MMA when its accesses are made. -/
def mxEffect (t : Tile) (ctx : Nat) (x : EngCmd) : Tile :=
  match x.instr with
  | .minit f => doMinit t ctx x f false
  | .minitPort f => doMinit t ctx x f true
  | .mrel f => doMrel t f
  | .mzero f => doMzero t x f
  | .mshape f => doMshape t x f
  | _ => t

/-- The E-class fields of an engine command. -/
def EngCmd.ew (x : EngCmd) : EW :=
  match x.instr with
  | .mma f | .minit f | .minitPort f | .mrel f | .mzero f | .mshape f | .mrd f => f
  | .ltab f | .ltabStream f | .lwire f | .lsel f | .leval f | .lslice f | .lunslice f | .lpld f | .lpst f | .lpcnt f => f
  | .dcopy f | .dscfg f | .dsgo f | .dsstop f | .dbank f => f
  | _ => ⟨0, 0, 0, 0, 0, 0, 0, 0⟩

/-- What an MX command does once its reads and lines are made: an MMA adds its chunk and, with the last, ends, its tag waiting for a
release that it started; any other has its effect and completes (R181, R189). -/
def mxFinish (tile ctx : Nat) (s : State) (x : EngCmd) : State :=
  let t := s.tile tile
  match x.instr with
  | .mma f =>
    let r := mmaAdd t x f
    if r.2.done < mmaChunks f then s.setTile tile ((t.setAcc (accNo f) r.1).setHead .mx ctx r.2)
    else
      let a := mmaEnd r.1 r.2 f
      let s1 := s.setTile tile ((t.popCmd .mx ctx).setAcc (accNo f) a)
      if r.1.counted && r.1.count == 1 then s1.moved (s.handleOf tile) else cmdDone s1 tile x f
  | _ => cmdDone (s.setTile tile (mxEffect (t.popCmd .mx ctx) ctx x)) tile x x.ew

/-- MX_COMMAND_COMPLETE: the engine goes on by one access, or one step, of the command it has taken or takes; the last completes it
(R181, R186, R187, R191; log entry 10). -/
def execMxCommandComplete (tile ctx : Nat) (s : State) : Out :=
  let t := s.tile tile
  match engTake t .mx (mxReady t) ctx with
  | none => .next s
  | some x => .next (engStep s tile ctx .mx x (mxReads t x) (mxLines x) (mxLine t x) (mxFinish tile ctx))

/-- Whether a release can go on with its next line: a ring's always, a port's with room on its channel, unless its actor is held by a
snapshot (R39, R190, R371, R375). -/
def releaseReady (s : State) (tile acc : Nat) : Bool :=
  let t := s.tile tile
  let a := t.acc acc
  !a.buf.isEmpty && (!a.kind || (decide (0 < s.portRoom tile a.port) && !(t.actor (t.port a.port).actor).held))

/-- The accumulator after a line of its release; with the last, PROG is 0 again, a ring's cursor moves on and wraps at the end (R190; log
entry 98). -/
def Acc.sentLine (a : Acc) : Acc :=
  let rest := a.buf.drop 1
  let next := a.curoff + relBytes a.rfmt / 64
  { a with
    buf := rest, sent := a.sent + 1, prog := if rest.isEmpty then 0 else a.rowsGone (a.sent + 1)
    curoff := if a.kind || !rest.isEmpty then a.curoff else if next * 64 = a.ringLen then 0 else next
    waiter := if rest.isEmpty then none else a.waiter }

/-- RELEASE_TOKEN_SEND: the next line of a release goes to its ring or its port; the last one completes the MMA that started it (R189,
R190). -/
def execReleaseTokenSend (tile acc : Nat) (s : State) : Out :=
  let t := s.tile tile
  let a := t.acc acc
  match a.buf with
  | [] => .next s
  | x :: rest =>
    if releaseReady s tile acc then
      let s1 := s.setTile tile (t.setAcc acc a.sentLine)
      let s2 := if a.kind then s1.putPort tile a.port (if a.bufPsn then .poison else .data) x 0 []
        else s1.updTile tile fun t => t.writeLine (a.ringBase + a.curoff * 64 + 64 * a.sent) x a.bufPsn
      let s3 := match rest, a.waiter with
        | [], some (task, actor, tag, tok) => s2.opDone tile task actor tag tok
        | _, _ => s2
      .next (s3.moved (s.handleOf tile))
    else .next s

end Sys2Proof.Machine
end

