-- ==== Sys2Proof/Machine/Lc.lean ====
section
/-!
DEFINITION. The lookup-cell fabric and the LC instructions (08 R196 to R214).
-/

namespace Sys2Proof.Machine

/-! Stores (R196, R200). -/

def Fabric.plane (x : Fabric) (n : Nat) : Word := if n = 0 then 0 else if n = 1 then BitVec.allOnes 64 else AMap.getD x.planes n 0

def Fabric.table (x : Fabric) (n : Nat) : Word := AMap.getD x.tables n 0

/-- A zero entry of a store is not listed. -/
def setWordZ (m : AMap Word) (n : Nat) (w : Word) : AMap Word := if w = 0 then AMap.erase m n else AMap.set m n w

def markAt (s : NSet) (n : Nat) (b : Bool) : NSet := if b then NSet.insert s n else NSet.erase s n

/-- A write of a plane with its mark; planes 0 and 1 discard it (R196, R205). -/
def Fabric.setPlane (x : Fabric) (n : Nat) (w : Word) (p : Bool) : Fabric :=
  if n < 2 then x else { x with planes := setWordZ x.planes n w, pPlanes := markAt x.pPlanes n p }

def Fabric.setTable (x : Fabric) (n : Nat) (w : Word) (p : Bool) : Fabric :=
  { x with tables := setWordZ x.tables n w, pTables := markAt x.pTables n p }

def Fabric.wire (x : Fabric) (c : Nat) : Wiring := AMap.getD x.wiring c ⟨0, []⟩

/-- A cell descriptor of a wiring context; its mark is numbered 512 c + j. -/
def Fabric.cell (x : Fabric) (c j : Nat) : BitVec 128 := AMap.getD (x.wire c).cells j 0

/-! Evaluation (R198, R199). -/

def cellIn (d : BitVec 128) (k : Nat) : Nat := (d.extractLsb' (11 * k) 11).toNat
def cellOut (d : BitVec 128) : Nat := (d.extractLsb' 66 11).toNat
def cellTab (d : BitVec 128) : Nat := (d.extractLsb' 77 10).toNat

/-- A word from its bits. -/
def wordOf (f : Nat → Bool) : Word := BitVec.ofNat 64 ((upto 64).foldl (fun x s => if f s then x + 2 ^ s else x) 0)

/-- Phase 1 for one cell. -/
def evalCell (x : Fabric) (d : BitVec 128) : Word :=
  wordOf fun s =>
    let idx := (upto 6).foldl (fun n k => if (x.plane (cellIn d k)).getLsbD s then n + 2 ^ k else n) 0
    (x.table (cellTab d)).getLsbD idx

def cellPoison (x : Fabric) (c j : Nat) (d : BitVec 128) : Bool :=
  NSet.mem x.pCells (512 * c + j) || NSet.mem x.pTables (cellTab d) || (upto 6).any fun k => NSet.mem x.pPlanes (cellIn d k)

/-- LEVAL (R199): every read sees the planes as they stood; then the writes in increasing cell number. -/
def leval (x : Fabric) : Fabric :=
  let c := x.cur.toNat
  (upto (x.wire c).n).foldl (fun y j =>
    let d := x.cell c j
    y.setPlane (cellOut d) (evalCell x d) (cellPoison x c j d)) x

/-! Issue (R207, R208). -/

/-- Issue of an LC command: extent, count, claim, completion token. -/
def lcIssue (i : Instr) (f : EW) (reads : List (BitVec 6)) (check : State → Try Unit) (countOk : State → Bool) (s : State) : Out :=
  finishTry s (do
    guardK s reads reads []
    stallIf (engHold s f.tag)
    check s
    trapIf (!countOk s) codeEngineFault (engVal 0x10 2)
    trapIf (claimedByOther s s.here.fabric.iOwner) codeEngineFault (engVal 0x10 1)
    let s1 ← claimToken s (f.tok == 1)
    engRoom s .lc
    let fab := s1.here.fabric
    let s2 := s1.setHere { s1.here with fabric := { fab with iOwner := claimed s1 fab.iOwner } }
    pure (engPush s2 .lc i f []))

/-- The extent of n bytes at k[a], aligned as R208 says. -/
def lcExtent (s : State) (f : EW) (n align : Nat) (need : List Perm) : Try Unit :=
  let c := s.me.readK f.a
  orTrap (extentCheck (grantOf s s.cur.tile s.me) c n align need)

/-- The count in k[b], an unsigned 64-bit value (R208). -/
def countB (s : State) (f : EW) : Nat := (s.me.readW f.b).toNat

def noCount (_ : State) : Bool := true

/-- The count range of a command over planes from P0 (R213, R214). -/
def planesOk (f : EW) (s : State) : Bool := decide (1 ≤ countB s f) && decide (f.imm.toNat + countB s f ≤ 2048)

/-- T0 of an LTAB (R208). -/
def tabFirst (f : EW) : Nat := (f.imm.extractLsb' 0 10).toNat

def tablesOk (f : EW) (s : State) : Bool := decide (1 ≤ countB s f) && decide (countB s f ≤ 1024 - tabFirst f)

/-- The sample width (R212). -/
def sampleWidth (fmt : BitVec 4) : Nat := if fmt = 0 then 64 else widthOf fmt

/-- LTAB from TLM (R209). -/
def execLtab (f : EW) (s : State) : Out :=
  lcIssue (.ltab f) f [f.a, f.b] (fun s => lcExtent s f (8 * countB s f) 8 [.r]) (tablesOk f) s

/-- LTAB from a stream (R209). -/
def execLtabStream (f : EW) (s : State) : Out := lcIssue (.ltabStream f) f [f.b] noCheck (tablesOk f) s

/-- LWIRE (R210). -/
def execLwire (f : EW) (s : State) : Out :=
  lcIssue (.lwire f) f [f.a] (fun s => lcExtent s f (16 * (f.imm.toNat + 1)) 16 [.r]) noCount s

/-- LSEL (R211). -/
def execLsel (f : EW) (s : State) : Out := lcIssue (.lsel f) f [] noCheck noCount s

/-- LEVAL (R199, R211). -/
def execLeval (f : EW) (s : State) : Out := lcIssue (.leval f) f [] noCheck noCount s

/-- LSLICE (R212). -/
def execLslice (f : EW) (s : State) : Out :=
  lcIssue (.lslice f) f [f.a] (fun s => lcExtent s f (8 * sampleWidth f.fmt) 64 [.r]) noCount s

/-- LUNSLICE (R212). -/
def execLunslice (f : EW) (s : State) : Out :=
  lcIssue (.lunslice f) f [f.a] (fun s => lcExtent s f (8 * sampleWidth f.fmt) 64 [.w]) noCount s

/-- LPLD (R213). -/
def execLpld (f : EW) (s : State) : Out :=
  lcIssue (.lpld f) f [f.a, f.b] (fun s => lcExtent s f (8 * countB s f) 8 [.r]) (planesOk f) s

/-- LPST (R213). -/
def execLpst (f : EW) (s : State) : Out :=
  lcIssue (.lpst f) f [f.a, f.b] (fun s => lcExtent s f (8 * countB s f) 8 [.w]) (planesOk f) s

/-- LPCNT (R214). -/
def execLpcnt (f : EW) (s : State) : Out :=
  lcIssue (.lpcnt f) f [f.a, f.b] (fun s => lcExtent s f 128 64 [.w]) (planesOk f) s

/-! Execution (R205, R209 to R214). -/

/-- A word that the fabric has read, with its poison. -/
def lcWord (v : Tile) (a : Nat) : Word × Bool := (BitVec.ofNat 64 (v.readTlm a 8), (v.badWord a 8).isSome)

/-- n words at a to entries of a store. -/
def lcLoad (v : Tile) (fab : Fabric) (a n : Nat) (put : Fabric → Nat → Word → Bool → Fabric) : Fabric :=
  (upto n).foldl (fun x i => put x i (lcWord v (a + 8 * i)).1 (lcWord v (a + 8 * i)).2) fab

/-- The next table of an LTAB from a stream: its eight bytes, or, at the stream's end, zero and poisoned (R209). -/
def doTable (t : Tile) (x : EngCmd) (f : EW) : Tile :=
  let st := t.stream f.c.toNat
  let bs := st.held.take 8
  let fab := if bs.length = 8 then
      t.fabric.setTable (tabFirst f + x.done) (BitVec.ofNat 64 (leNat (bs.map (·.1)))) (bs.any (·.2))
    else t.fabric.setTable (tabFirst f + x.done) 0 true
  { (t.setStream f.c.toNat { st with held := st.held.drop 8 }) with fabric := fab }

/-- LWIRE: N descriptors and the cell count (R210). -/
def doLwire (v : Tile) (fab : Fabric) (x : EngCmd) (f : EW) : Fabric :=
  let n := f.imm.toNat + 1
  let c := f.c.toNat
  let a := x.ka.addr.toNat
  let cells := (upto n).foldl (fun m j => AMap.set m j (BitVec.ofNat 128 (v.readTlm (a + 16 * j) 16))) (fab.wire c).cells
  let marks := (upto n).foldl (fun m j => markAt m (512 * c + j) (v.badWord (a + 16 * j) 16).isSome) fab.pCells
  { fab with wiring := AMap.set fab.wiring c ⟨n, cells⟩, pCells := marks }

/-- LSLICE (R212). -/
def doLslice (v : Tile) (fab : Fabric) (x : EngCmd) (f : EW) : Fabric :=
  let w := sampleWidth f.fmt
  let a := x.ka.addr.toNat
  let bad := (v.badWord a (8 * w)).isSome
  let elem := fun (s : Nat) => v.readTlm (a + s * w / 8) (w / 8)
  (upto w).foldl (fun y b => y.setPlane (f.imm.toNat + b) (wordOf fun s => (elem s).testBit b) bad) fab

def anyPlanePoison (x : Fabric) (p n : Nat) : Bool := (upto n).any fun i => NSet.mem x.pPlanes (p + i)

/-- Sample s of an LUNSLICE (R212). -/
def unsliced (x : Fabric) (p w s : Nat) : Nat := (upto w).foldl (fun n b => if (x.plane (p + b)).getLsbD s then n + 2 ^ b else n) 0

/-- Count s of an LPCNT (R214). -/
def planeCount (x : Fabric) (p n s : Nat) : Nat := ((upto n).filter fun i => (x.plane (p + i)).getLsbD s).length

/-- The bytes from which an LC command reads, and to which it writes, in TLM (R208). -/
def lcSource (x : EngCmd) : Nat :=
  match x.instr with
  | .ltab _ | .lpld _ => 8 * x.kb.word.toNat
  | .lwire f => 16 * (f.imm.toNat + 1)
  | .lslice f => 8 * sampleWidth f.fmt
  | _ => 0

def lcTarget (x : EngCmd) : Nat :=
  match x.instr with
  | .lunslice f => 8 * sampleWidth f.fmt
  | .lpst _ => 8 * x.kb.word.toNat
  | .lpcnt _ => 128
  | _ => 0

def lcReads (x : EngCmd) : List EngRead := (cutLines x.ka.addr.toNat (lcSource x)).map fun p => ⟨0, p.1, p.2⟩

def lcPieces (x : EngCmd) : List (Nat × Nat) := cutLines x.ka.addr.toNat (lcTarget x)

/-- The line that an LC command writes at [a, a + n) of its target (R205, R212 to R214). -/
def lcLine (fab : Fabric) (x : EngCmd) (i : Nat) : EngLine :=
  let p := (lcPieces x)[i]?.getD (0, 0)
  let at_ := p.1 - x.ka.addr.toNat
  match x.instr with
  | .lunslice f =>
    let b := sampleWidth f.fmt / 8
    wholeLine p.1 ((upto (p.2 / b)).flatMap fun j => leBytes b (unsliced fab f.imm.toNat (8 * b) (at_ / b + j)))
      (anyPlanePoison fab f.imm.toNat (8 * b))
  | .lpst f =>
    let plane := fun (j : Nat) => f.imm.toNat + at_ / 8 + j
    ⟨p.1, (upto (p.2 / 8)).flatMap fun j => leBytes 8 (fab.plane (plane j)).toNat,
      ((upto (p.2 / 8)).filter fun j => NSet.mem fab.pPlanes (plane j)).map fun j => p.1 + 8 * j⟩
  | .lpcnt f =>
    let n := x.kb.word.toNat
    wholeLine p.1 ((upto (p.2 / 2)).flatMap fun j => leBytes 2 (planeCount fab f.imm.toNat n (at_ / 2 + j)))
      (anyPlanePoison fab f.imm.toNat n)
  | _ => ⟨p.1, [], []⟩

/-- Whether a stream can deliver nothing more for an LTAB: it has reached its end or been stopped (R209; log entry 23). -/
def streamOver (st : Stream) : Bool :=
  !st.run && (st.stopped || st.denied || (st.configured && decide (descTotal st.desc ≤ st.pos)))

/-- Whether a head can go on: an LTAB from a stream waits for the bytes of its next table, or for the stream's end (R209). -/
def lcReady (t : Tile) (x : EngCmd) : Bool :=
  match x.instr with
  | .ltabStream f =>
    let st := t.stream f.c.toNat
    decide (8 ≤ st.held.length) || streamOver st
  | _ => true

/-- The fabric after an LC command whose reads are made, other than an LTAB from a stream (R209 to R213). -/
def lcEffect (fab : Fabric) (x : EngCmd) : Fabric :=
  match x.instr with
  | .ltab f => lcLoad x.view fab x.ka.addr.toNat x.kb.word.toNat fun y i w p => y.setTable (tabFirst f + i) w p
  | .lwire f => doLwire x.view fab x f
  | .lsel f => { fab with cur := f.c.extractLsb' 0 2 }
  | .leval _ => leval fab
  | .lslice f => doLslice x.view fab x f
  | .lpld f => lcLoad x.view fab x.ka.addr.toNat x.kb.word.toNat fun y i w p => y.setPlane (f.imm.toNat + i) w p
  | _ => fab

/-- What an LC command does once its reads and lines are made: an LTAB from a stream writes its next table and completes with the last;
any other has its effect and completes; the claim follows (R201, R206, R209). -/
def lcFinish (tile ctx : Nat) (s : State) (x : EngCmd) : State :=
  let t := s.tile tile
  let own := fun (t : Tile) => { t with fabric := { t.fabric with owner := t.fabric.iOwner } }
  match x.instr with
  | .ltabStream f =>
    let t1 := own (doTable t x f)
    if x.done + 1 < x.kb.word.toNat then s.setTile tile (t1.setHead .lc ctx { x with started := true, done := x.done + 1 })
    else cmdDone (s.setTile tile (t1.popCmd .lc ctx)) tile x f
  | _ =>
    let t1 := t.popCmd .lc ctx
    cmdDone (s.setTile tile (own { t1 with fabric := lcEffect t1.fabric x })) tile x x.ew

/-- LC_COMMAND_COMPLETE: the fabric goes on by one access, or one step, of the command it has taken or takes; the last completes it
(R202, R203; log entry 10). -/
def execLcCommandComplete (tile ctx : Nat) (s : State) : Out :=
  let t := s.tile tile
  match engTake t .lc (lcReady t) ctx with
  | none => .next s
  | some x => .next (engStep s tile ctx .lc x (lcReads x) (lcPieces x).length (lcLine t.fabric x) (lcFinish tile ctx))

end Sys2Proof.Machine
end

