-- ==== Sys2Proof/Machine/TlmAccess.lean ====
section
/-!
DEFINITION. The tile-local loads and stores (05 R147 to R152).
-/

namespace Sys2Proof.Machine

/-- ECC_UNCORR at the first bad word of an access: the read marks the word and counts it, and the instruction traps
(R152, R381). -/
def eccTrap (s : State) (a n w : Nat) : State :=
  raiseTrap (s.setHere (s.here.touchRead a n)) codeEcc (BitVec.ofNat 64 w) s.me.pc

/-- A load of n bytes with need {R} through WriteInt (R147, R148). -/
def loadOp (f : KI) (s : State) (n : Nat) (ext : Word → Word) : Out :=
  finishTry s (do
    guardK s [f.d, f.a] [f.a] [f.d]
    tlmReady s
    let c := s.me.readK f.a
    let a := tlmAddr c f.imm
    orTrap (tlmCheck (grantOf s s.cur.tile s.me) c a n n [.r])
    match s.here.badWord a n with
    | some w => pure (eccTrap s a n w)
    | none => pure ((s.setHere (s.here.touchRead a n)).writeInt f.d (ext (BitVec.ofNat 64 (s.here.readTlm a n)))))

def execLdb (f : KI) (s : State) : Out := loadOp f s 1 (sextW 0)
def execLdbu (f : KI) (s : State) : Out := loadOp f s 1 id
def execLdh (f : KI) (s : State) : Out := loadOp f s 2 (sextW 1)
def execLdhu (f : KI) (s : State) : Out := loadOp f s 2 id
def execLdw (f : KI) (s : State) : Out := loadOp f s 4 (sextW 2)
def execLdwu (f : KI) (s : State) : Out := loadOp f s 4 id
def execLdd (f : KI) (s : State) : Out := loadOp f s 8 id

/-- LDC: 128 bits with the granule's tag, need {R, LDC} (R148). -/
def execLdc (f : KI) (s : State) : Out :=
  finishTry s (do
    guardK s [f.d, f.a] [f.a] [f.d]
    tlmReady s
    let c := s.me.readK f.a
    let a := tlmAddr c f.imm
    orTrap (tlmCheck (grantOf s s.cur.tile s.me) c a 16 16 [.r, .ldc])
    match s.here.badWord a 16 with
    | some w => pure (eccTrap s a 16 w)
    | none =>
      let s1 := s.setHere (s.here.touchRead a 16)
      pure ((s1.setMe (s1.me.writeK f.d ⟨s.here.gtag a, BitVec.ofNat 128 (s.here.readTlm a 16)⟩)).complete 4))

/-- A store of the low n bytes with need {W} (R149); below 8 bytes it merges into its word, which must be readable
(R152). -/
def storeOp (f : KS) (s : State) (n : Nat) : Out :=
  finishTry s (do
    guardK s [f.value, f.base] [f.value, f.base] []
    tlmReady s
    let c := s.me.readK f.base
    let a := tlmAddr c f.imm
    orTrap (tlmCheck (grantOf s s.cur.tile s.me) c a n n [.w])
    match if n < 8 then s.here.badWord a n else none with
    | some w => pure (eccTrap s a n w)
    | none =>
      let t := if n < 8 then s.here.touchRead a n else s.here
      pure ((s.setHere (t.writeTlm a (leBytes n (s.me.readW f.value).toNat))).complete 4))

def execStb (f : KS) (s : State) : Out := storeOp f s 1
def execSth (f : KS) (s : State) : Out := storeOp f s 2
def execStw (f : KS) (s : State) : Out := storeOp f s 4
def execStd (f : KS) (s : State) : Out := storeOp f s 8

/-- STC: 128 bits and the tag; need {W, STC} when the value is tagged, {W} when it is not (R149). -/
def execStc (f : KS) (s : State) : Out :=
  finishTry s (do
    guardK s [f.value, f.base] [f.value, f.base] []
    tlmReady s
    let c := s.me.readK f.base
    let x := s.me.readK f.value
    let a := tlmAddr c f.imm
    orTrap (tlmCheck (grantOf s s.cur.tile s.me) c a 16 16 (if x.tag then [.w, .stc] else [.w]))
    let t := s.here.writeTlm a (leBytes 16 x.bits.toNat)
    let t1 := if x.tag then { t with gtags := NSet.insert t.gtags (a / 16) } else t
    pure ((s.setHere t1).complete 4))

end Sys2Proof.Machine
end

