-- ==== Sys2Proof/Machine/Dm.lean ====
section
/-!
DEFINITION. The stream engine: block copies, affine streams and bank handovers (10 R256 to R265, 09 R226).
-/

namespace Sys2Proof.Machine

/-! Issue (R256, R257). -/

/-- A capability used on TLM or on global memory; a destination that may be executed is no local target (R258). -/
def copyLocal (c : KReg) (dst : Bool) : Bool := c.has .tlm && !(dst && c.has .x)

/-- One end of a DCOPY at issue (R257, R258). -/
def copyCheck (s : State) (c : KReg) (n : Nat) (need : Perm) (dst remote : Bool) : Try Unit :=
  let a := c.addr.toNat
  if remote then orTrap (extentCheck none c n 64 [need])
  else if copyLocal c dst then orTrap (extentCheck (grantOf s s.cur.tile s.me) c n 64 [need])
  else orTrap (globalCheck c a n 64 [need])

def copyLines (f : EW) : Nat := f.imm.toNat + 1

/-- The tile that a DCOPY names, in the residency's region (R24, R258); context 0 may name any tile. -/
def copyTile (s : State) (v : Word) : Option Nat :=
  if s.cur.ctx = 0 then s.namedTile v else s.regionName (s.handleOf s.cur.tile) v

/-- DCOPY at issue (R257, R258). -/
def execDcopy (f : EW) (s : State) : Out :=
  finishTry s (do
    guardK s [f.d, f.a, f.b] [f.d, f.a, f.b] []
    stallIf (engHold s f.tag)
    let n := 64 * copyLines f
    let ka := s.me.readK f.a
    let kb := s.me.readK f.b
    copyCheck s ka n .w true (f.d != 0)
    copyCheck s kb n .r false false
    trapIf (f.d != 0 && (copyTile s (s.me.readW f.d)).isNone) codeNameRange (s.me.readW f.d)
    let s1 ← claimToken s (f.tok == 1)
    engRoom s .dm
    pure (engPush s1 .dm (.dcopy f) f []))

def streamNo (f : EW) : Nat := f.c.toNat

/-- The stream commands still queued in the tile, oldest first by operation number. -/
def queuedStream (t : Tile) (n : Nat) : List EngCmd :=
  ((AMap.vals t.ctxs).flatMap (·.dmq)).filter fun x => match x.instr with
    | .dscfg f | .dsgo f | .dsstop f => f.c.toNat == n
    | _ => false

/-- Inserts a command by its operation number. -/
def insertOp (x : EngCmd) : List EngCmd → List EngCmd
  | [] => [x]
  | y :: ys => if x.op ≤ y.op then x :: y :: ys else y :: insertOp x ys

def sortOps : List EngCmd → List EngCmd
  | [] => []
  | x :: xs => insertOp x (sortOps xs)

/-- The issue stage's view of a stream: configured and running, once its queued commands have executed (R257). -/
def issueView (t : Tile) (n : Nat) : Bool × Bool :=
  let st := t.stream n
  (sortOps (queuedStream t n)).foldl (fun v x => match x.instr with
    | .dscfg _ => (true, v.2)
    | .dsgo _ => (v.1, true)
    | .dsstop _ => (v.1, false)
    | _ => v) (st.configured, st.run)

/-- ENGINE_FAULT of a stream (R257). -/
def streamFault (n reason : Nat) (b : Bool) : Try Unit := trapIf b codeEngineFault (engVal (0x20 + n) reason)

/-- The claims and states of a stream command (R257). -/
def streamClaim (s : State) (n : Nat) (notRunning configured : Bool) : Try Unit := do
  streamFault n 1 (claimedByOther s (s.here.stream n).claim)
  streamFault n 2 ((notRunning && (issueView s.here n).2) || (configured && !(issueView s.here n).1))

/-- DSCFG or DSGO takes a free stream for the actor (R257). -/
def takeStream (s : State) (n : Nat) : State :=
  let st := s.here.stream n
  s.setHere (s.here.setStream n { st with claim := claimed s st.claim })

/-- The eight words of the descriptor at an address. -/
def readDesc (t : Tile) (a : Nat) : List Word := (upto 8).map fun i => BitVec.ofNat 64 (t.readTlm (a + 8 * i) 8)

/-- The hull of a descriptor under its bounds capability (R261): R236 without translation. -/
def hullCheck (c : KReg) (d : List Word) : Option Failure :=
  let lo := descLo d
  let v : Word := BitVec.ofInt 64 (lo % 2 ^ 48)
  if !c.tag then some (codeCapTag, v)
  else if c.isSealed then some (codeCapSeal, v)
  else if !(c.has .global && c.has (if descDir d = 1 then .w else .r)) then some (codeCapPerm, v)
  else if decide (lo < c.base) || decide (c.top < descHi d) then some (codeCapBounds, v)
  else none

/-- Whether a port of the active slot is bound to a stream (R261). -/
def boundTo (t : Tile) (p n : Nat) : Bool := (t.port p).declared && (t.port p).stream == some n

/-- DSCFG at issue (R257, R260, R261): a descriptor word that cannot be read traps ECC_UNCORR as a load's does. -/
def execDscfg (f : EW) (s : State) : Out :=
  finishTry s (do
    guardK s [f.a, f.b] [f.a, f.b] []
    stallIf (engHold s f.tag)
    let n := streamNo f
    let ka := s.me.readK f.a
    let a := ka.addr.toNat
    orTrap (tlmCheck (grantOf s s.cur.tile s.me) ka a 64 64 [.r])
    match s.here.badWord a 64 with
    | some w => .error (.become (eccTrap s a 64 w))
    | none => pure ()
    let d := readDesc s.here a
    streamFault n 3 (!descOk d)
    trapIf (!boundTo s.here (descPort d) n) codePortMisuse (BitVec.ofNat 64 (descPort d))
    trapIf (!descAligned d) codeAlign (BitVec.ofNat 64 (descBase d))
    orTrap (hullCheck (s.me.readK f.b) d)
    streamClaim s n true false
    let s1 ← claimToken (s.setHere (s.here.touchRead a 64)) (f.tok == 1)
    engRoom s .dm
    pure (engPush (takeStream s1 n) .dm (.dscfg f) f d))

/-- The descriptor that a DSGO will run with: the last queued DSCFG's, or the stream's. -/
def goDesc (t : Tile) (n : Nat) : List Word :=
  (sortOps (queuedStream t n)).foldl (fun d x => match x.instr with
    | .dscfg _ => x.data
    | _ => d) (t.stream n).desc

/-- T: the bytes of a token of the bound port (R262). -/
def tokenBytes (t : Tile) (d : List Word) : Nat := if (t.port (descPort d)).line then 64 else 8

/-- DSGO at issue: E ≤ T for a stream with tokens (R257, R262). -/
def execDsgo (f : EW) (s : State) : Out :=
  finishTry s (do
    stallIf (engHold s f.tag)
    let n := streamNo f
    let d := goDesc s.here n
    streamClaim s n true true
    streamFault n 3 (decide (descDir d ≠ 2) && decide (tokenBytes s.here d < descSize d))
    let s1 ← claimToken s (f.tok == 1)
    engRoom s .dm
    pure (engPush (takeStream s1 n) .dm (.dsgo f) f []))

/-- DSSTOP at issue (R257, R262). -/
def execDsstop (f : EW) (s : State) : Out :=
  finishTry s (do
    stallIf (engHold s f.tag)
    streamClaim s (streamNo f) false false
    let s1 ← claimToken s (f.tok == 1)
    engRoom s .dm
    pure (engPush s1 .dm (.dsstop f) f []))

/-! DBANK (R265). -/

def dbankNo (f : EW) : Nat := (f.imm.extractLsb' 0 4).toNat

/-- DBANK at issue: the bank leaves the actor's grant, and the BANK token's place on the channel is fixed (R265, R347). -/
def execDbank (f : EW) (s : State) : Out :=
  finishTry s (do
    stallIf (engHold s f.tag)
    let b := dbankNo f
    let port := f.c.toNat
    let p := s.here.port port
    let v : Word := BitVec.ofNat 64 (b * 2 ^ 18)
    trapIf (match grantOf s s.cur.tile s.me with
      | some g => !g.getLsbD b
      | none => false) codeCapPerm v
    trapIf (s.here.exec.getLsbD b) codeCapPerm v
    trapIf (decide (s.cur.ctx = 0) || decide (s.me.role = .team)) codePortMisuse (BitVec.ofNat 64 port)
    trapIf (!(p.declared && p.output && p.bankp && p.actor == s.me.actor && p.stream.isNone
      && decide (AMap.getD (firingDonec s.here s.me) port 0 < p.count) && !p.closed)) codePortMisuse (BitVec.ofNat 64 port)
    putReady s port
    let s1 ← claimToken (countPut s port) (f.tok == 1)
    engRoom s .dm
    let a := s1.here.actor s1.me.actor
    let s2 := s1.setHere (s1.here.setActor s1.me.actor { a with inForce := a.inForce &&& ~~~(1#16 <<< b) })
    let r := s2.reservePort s.cur.tile port
    pure (engPush r.1 .dm (.dbank f) f [BitVec.ofNat 64 (r.2.getD 0)]))

/-- The TLM ranges that a queued engine command touches. -/
def cmdExtents (t : Tile) (x : EngCmd) : List (Nat × Nat) :=
  let a := x.ka.addr.toNat
  match x.instr with
  | .mma f =>
    let c := t.acc (accNo f)
    [(a, panelLen f.fmt (shapeRows c.shape) (mmaK f)), (x.kb.addr.toNat, panelLen (mmaFb f) (shapeCols c.shape) (mmaK f))]
      ++ (if c.counted && !c.kind then [(c.ringBase, c.ringLen)] else [])
  | .mrel f => [(a, relBytes f.fmt)]
  | .mrd _ => [(a, 8192)]
  | .ltab _ | .lpld _ | .lpst _ => [(a, 8 * x.kb.word.toNat)]
  | .lwire f => [(a, 16 * (f.imm.toNat + 1))]
  | .lslice f | .lunslice f => [(a, 8 * sampleWidth f.fmt)]
  | .lpcnt _ => [(a, 128)]
  | .dcopy f =>
    (if f.d = 0 ∧ copyLocal x.ka true then [(a, 64 * copyLines f)] else [])
      ++ (if copyLocal x.kb false then [(x.kb.addr.toNat, 64 * copyLines f)] else [])
  | _ => []

def touchesBank (b : Nat) (e : Nat × Nat) : Bool :=
  decide (0 < e.2) && decide (e.1 / 2 ^ 18 ≤ b) && decide (b ≤ (e.1 + e.2 - 1) / 2 ^ 18)

/-- Whether a BANK token can leave: every earlier TLM access and engine command of the firing's contexts that touches the bank
has performed (R265). -/
def dbankReady (t : Tile) (x : EngCmd) (f : EW) : Bool :=
  let b := dbankNo f
  !(t.engCmds.any fun y => y.actor == x.actor && decide (y.op < x.op) && (cmdExtents t y).any (touchesBank b))
    && !((AMap.vals t.accs).any fun a => a.waiter.any (fun w => w.2.1 == x.actor) && !a.kind && touchesBank b (a.ringBase, a.ringLen))
    && !(t.allCtxs.any fun p => p.2.actor == x.actor && decide (p.1 ≠ 0)
      && p.2.vq.any fun e => decide (e.op < x.op) && (vmShape e.instr).isSome)

/-! Execution of a DCOPY (R258, R259). -/

/-- Whether an earlier global access of a thread's context to the line of a physical address has still to perform (R226). -/
def lineBusy (t : Tile) (task op : Nat) (pa : PAddr) : Bool :=
  t.reqs.any fun p => decide (p.1 < op) && p.2.task == task && !p.2.performed && paLine p.2.pa.toNat == paLine pa.toNat

/-- How a thread's access reaches its home now: not while an earlier access of its context to the line is to perform (R226). The
management space answers no engine, as no home at all does (log entry 87). -/
def engWay (s : State) (tile task op : Nat) (pa : PAddr) : Way :=
  if lineBusy (s.tile tile) task op pa then .waiting else if paKind pa = 2 then .dead else wayTo s (paModule pa)

/-- The line that a read of a dead home returns, marked poisoned (R402): its bytes are free. -/
def deadLine (s : State) : Line := s.freeLine

/-- What an access of a copy comes to. -/
inductive CopyStep where
  | moved (s : State)
  | hold
  | wait (va : Addr)
  | stop (s : State) (code : Byte) (va : Addr)
  deriving DecidableEq, Repr

/-- A global address of a copy, translated as the copy reaches it; `k` is told whether its home is dead. -/
def copyTrans (s : State) (tile : Nat) (sp : Space) (x : EngCmd) (va : Nat) (w : Bool) (k : State → PAddr → Bool → CopyStep) : CopyStep :=
  let r := translate s tile sp va (!w) w false
  let v : Addr := BitVec.ofNat 48 va
  match r.2 with
  | .ok pa => match engWay s tile x.task x.op pa with
    | .waiting => .hold
    | d => k r.1 pa (d = .dead)
  | .wait => .wait v
  | .perm => .stop r.1 codeCapPerm v
  | .denied => .stop (if sp.mon then r.1 else deniedToken r.1 (r.1.handleOf tile) v) codePageDenied v

/-- The head of a context's stream queue is replaced. -/
def Tile.setDmHead (t : Tile) (n : Nat) (x : EngCmd) : Tile := t.setHead .dm n x

/-- The next line of a copy is read whole and stands with the command (R258). -/
def copyRead (s : State) (tile ctx : Nat) (x : EngCmd) : CopyStep :=
  let a := x.kb.addr.toNat + 64 * x.done
  let take := fun (s : State) (line : Line) (bad : Bool) => CopyStep.moved (s.updTile tile fun t =>
    t.setDmHead ctx { x with rd := 1, got := Memory.writeBytes [] 0 (lineBytes line), gbad := if bad then [0] else [] })
  if copyLocal x.kb false then
    let t := s.tile tile
    take (s.setTile tile (t.touchRead a 64)) (t.readLine a) (t.badWord a 64).isSome
  else copyTrans s tile (ctxSpace s tile ctx) x a false fun s pa dead =>
    if dead then take s (deadLine s) true
    else
      let s1 := s.hbmRead (s.handleOf tile) pa.toNat 64
      take s1 (s1.gReadLine pa.toNat) (s1.gBad pa.toNat 64)

/-- The line that a copy has read is written to its destination, and the copy stands before its next line (R258, R259). -/
def copyWrite (s : State) (tile ctx : Nat) (x : EngCmd) (f : EW) : CopyStep :=
  let a := x.ka.addr.toNat + 64 * x.done
  let line := bytesLine (Memory.readBytes x.got 0 64)
  let bad := !x.gbad.isEmpty
  let next := fun (s : State) => CopyStep.moved (s.updTile tile fun t =>
    t.setDmHead ctx { x with done := x.done + 1, rd := 0, got := [], gbad := [] })
  if f.d ≠ 0 then
    match s.namedTile x.kd.word with
    | none => next s
    | some d =>
      let l : RLine :=
        { src := tile, task := x.task, ctxNo := ctx, op := x.op, dst := d, addr := a, data := line, poisoned := bad
          resid := (s.tile tile).slot.resid, tag := f.tag, pc := x.pc }
      next ({ s with rlines := AMap.set s.rlines s.nextRLine l, nextRLine := s.nextRLine + 1 }.updTile tile fun t =>
        { t with unack := AMap.set t.unack x.task (AMap.getD t.unack x.task 0 + 1) })
  else if copyLocal x.ka true then next (s.updTile tile fun t => t.writeLine a line bad)
  else copyTrans s tile (ctxSpace s tile ctx) x a true fun s pa dead => next (if dead then s else s.gWriteLine pa.toNat line bad)

/-- Whether lines of a remote copy are still on their way (R259). -/
def linesOut (s : State) (tile op : Nat) : Bool := (AMap.vals s.rlines).any fun l => l.src == tile && l.op == op

/-- The late trap of a copy that stopped: taken at the observation of its tag (R258). -/
def copyLate (x : EngCmd) (f : EW) (y : Byte × Word) (c : Ctx) : Ctx := { c with lates := c.lates ++ [lateTag y.1 y.2 x.pc f.tag false] }

/-- A copy whose lines have all performed, or that has stopped, leaves the engine: its tag is set, and the context of a stopped one
traps when it observes the tag (R258). -/
def copyEnd (s : State) (tile ctx : Nat) (x : EngCmd) (f : EW) : State :=
  let s1 := s.updTile tile fun t =>
    let t1 := t.popCmd .dm ctx
    match x.stopped with
    | some y => t1.updTask x.task (copyLate x f y)
    | none => t1
  cmdDone s1 tile x f

/-- A copy with no line left to move: it ends once its remote lines have performed (R259). -/
def copyLast (s : State) (tile ctx : Nat) (x : EngCmd) (f : EW) : State :=
  if linesOut s tile x.op then s.updTile tile fun t => t.setDmHead ctx { x with draining := true } else copyEnd s tile ctx x f

/-- A copy stopped at a page: the lines that have left perform first (R258, R259). -/
def copyStop (s : State) (tile ctx : Nat) (x : EngCmd) (f : EW) (code : Byte) (va : Addr) : State :=
  copyLast s tile ctx { x with stopped := some (code, va.setWidth 64), waiting := none, rd := 0, got := [], gbad := [] } f

/-- A copy held by a page: it reads its line again when it goes on. -/
def EngCmd.waitAt (x : EngCmd) (va : Addr) : EngCmd := { x with waiting := some va, rd := 0, got := [], gbad := [] }

/-- DCOPY in execution: it reads a line or writes the one it has read, waits on a page, stops, or, with all its lines moved, ends. -/
def doDcopy (s : State) (tile ctx : Nat) (x : EngCmd) (f : EW) : State :=
  if x.stopped.isSome ∨ copyLines f ≤ x.done then copyLast s tile ctx x f
  else match (if x.rd = 0 then copyRead s tile ctx x else copyWrite s tile ctx x f) with
    | .moved s1 => match (((s1.tile tile).ctx ctx).dmq).head? with
      | some y => if copyLines f ≤ y.done then copyLast s1 tile ctx y f else s1
      | none => s1
    | .hold => s
    | .wait va => s.updTile tile fun t => t.setDmHead ctx (x.waitAt va)
    | .stop s1 code va => copyStop s1 tile ctx x f code va

/-- DSCFG completes: the configuration is replaced (R261). -/
def doDscfg (t : Tile) (ctx : Nat) (x : EngCmd) (f : EW) : Tile :=
  let st := t.stream (streamNo f)
  t.setStream (streamNo f) { st with
    configured := true, desc := x.data, lo := BitVec.ofInt 48 (descLo x.data), hi := BitVec.ofInt 48 (descHi x.data)
    pos := 0, bytes := 0, tlb := none, held := [], denied := false, stopped := false, eosin := false, mon := ctx == 0 }

/-- The stream's DSGO completes. -/
def goDone (s : State) (tile n : Nat) : State :=
  let st := (s.tile tile).stream n
  let s1 := s.updTile tile fun t => t.setStream n { st with run := false, go := none, waiting := none }
  match st.go with
  | some (task, tag, tok, actor) => s1.opDone tile task actor tag tok
  | none => s1

/-- DSGO starts the stream (R262). -/
def doDsgo (t : Tile) (x : EngCmd) (f : EW) : Tile :=
  let st := t.stream (streamNo f)
  t.setStream (streamNo f) { st with
    run := true, denied := false, stopped := false, eosin := false, go := some (x.task, f.tag, f.tok == 1, x.actor), goOp := x.op }

/-- DSSTOP: a running stream stops at its element boundary, which sets the tag of its DSGO (R262). -/
def doDsstop (s : State) (tile : Nat) (f : EW) : State :=
  let n := streamNo f
  if ((s.tile tile).stream n).run then
    (goDone s tile n).updTile tile fun t => t.setStream n { (t.stream n) with stopped := true }
  else s

/-- DBANK: the BANK token leaves (R265). -/
def doDbank (s : State) (tile : Nat) (x : EngCmd) (f : EW) : State :=
  s.fillPort tile f.c.toNat (nthD x.data 0 0).toNat .bank (BitVec.ofNat 512 (dbankNo f))

/-- Whether the head of a stream queue can go on. -/
def dmReady (s : State) (tile : Nat) (x : EngCmd) : Bool :=
  x.waiting.isNone && !(x.draining && linesOut s tile x.op) && !((s.tile tile).refusals.any fun r => r.op == x.op) && match x.instr with
    | .dbank f => dbankReady (s.tile tile) x f
    | _ => true

/-- DCOPY_COMPLETE: the head of a context's stream queue executes; a DCOPY by one access, and it completes or stops after its lines have
performed (R256, R258, R259, R262, R265; log entry 10). -/
def execDcopyComplete (tile ctx : Nat) (s : State) : Out :=
  match engTake (s.tile tile) .dm (dmReady s tile) ctx with
  | none => .next s
  | some x =>
    let pop := fun (s : State) => s.updTile tile fun t => t.popCmd .dm ctx
    .next (match x.instr with
      | .dcopy f => doDcopy (s.updTile tile fun t => { t with dmLast := ctx }) tile ctx x f
      | .dscfg f => cmdDone ((pop s).updTile tile fun t => doDscfg t ctx x f) tile x f
      | .dsgo f => ((pop s).updTile tile fun t => doDsgo t x f).moved (s.handleOf tile)
      | .dsstop f => cmdDone (doDsstop (pop s) tile f) tile x f
      | .dbank f => cmdDone (doDbank (pop s) tile x f) tile x f
      | _ => pop s)

/-! Remote lines (R259, R345). -/

/-- Whether the target tile takes a line: a bank that the image places there for the residency, not executable (R259). -/
def lineTaken (t : Tile) (l : RLine) : Bool :=
  t.placed.getLsbD (l.addr / 2 ^ 18 % 16) && !t.exec.getLsbD (l.addr / 2 ^ 18 % 16) && t.slot.resid == l.resid

def lowerUnack (t : Tile) (task n : Nat) : Tile :=
  let k := AMap.getD t.unack task 0 - n
  { t with unack := if k = 0 then AMap.erase t.unack task else AMap.set t.unack task k }

/-- REMOTE_LINE_WRITE: the oldest line of its copy arrives, and is written or refused; a refusal discards the copy's later
lines and reports (R259). -/
def execRemoteLineWrite (id : Nat) (s : State) : Out :=
  match AMap.get? s.rlines id with
  | none => .next s
  | some l =>
    let mine := s.rlines.filter fun p => p.2.src == l.src && p.2.op == l.op
    if mine.any fun p => decide (p.1 < id) then .next s
    else if lineTaken (s.tile l.dst) l then
      let s1 := { s with rlines := AMap.erase s.rlines id }
      let s2 := s1.updTile l.dst fun t => t.writeLine l.addr l.data l.poisoned
      .next ((s2.updTile l.src fun t => lowerUnack t l.task 1).moved (s.handleOf l.src))
    else
      let s1 := { s with rlines := s.rlines.filter fun p => !(p.2.src == l.src && p.2.op == l.op) }
      .next (s1.updTile l.src fun t =>
        { (lowerUnack t l.task mine.length) with
          refusals := t.refusals ++ [{ task := l.task, op := l.op, addr := BitVec.ofNat 64 l.addr, pc := l.pc }] })

/-- DCOPY_REFUSAL: the report reaches the issuing tile; the tag is set and the context traps CAP_PERM at its next boundary
(R259). -/
def execDcopyRefusal (tile ctx : Nat) (s : State) : Out :=
  let t := s.tile tile
  match (t.ctx ctx).dmq with
  | [] => .next s
  | x :: _ => match t.refusals.find? fun r => r.op == x.op with
    | none => .next s
    | some r =>
      let t1 := { (t.popCmd .dm ctx) with refusals := t.refusals.erase r }
      let t2 := t1.updTask x.task fun c =>
        let c1 := { c with lates := c.lates ++ [lateNow codeCapPerm r.addr x.pc] }
        match x.stopped with
        | some y => copyLate x x.ew y c1
        | none => c1
      .next (cmdDone (s.setTile tile t2) tile x x.ew)

/-! Streams in motion (R262, R263). -/

/-- Whether a stream may move: running, not held by a page, its tile not halted, and, as a source, not stopped for a snapshot
(R262, R371, R374). -/
def streamLive (s : State) (tile : Nat) (st : Stream) : Bool :=
  st.run && st.waiting.isNone && !(s.tile tile).preReq
    && !(descDir st.desc == 0 && (s.resOf (s.handleOf tile)).snapping)

/-- The tables of a stream: those of the residency, or the monitor's when context 0 configured it. -/
def streamSpace (s : State) (tile : Nat) (st : Stream) : Space := ctxSpace s tile (if st.mon then 0 else 1)

/-- A translation through the stream's own entry, refilled by a walk (R353). -/
def streamTrans (s : State) (tile : Nat) (st : Stream) (va : Nat) (w : Bool) : Stream × Translation :=
  let x := streamSpace s tile st
  match st.tlb.filter fun e => e.covers x.resid va && e.allows (!w) w false with
  | some e => (st, .ok (e.physical va))
  | none => match walk s x va with
    | .wait => (st, .wait)
    | .denied => (st, .denied)
    | .leaf e => ({ st with tlb := some e }, if e.allows (!w) w false then .ok (e.physical va) else .perm)

/-- A stream stopped at a page (R263): DENIED, the fault token, and the EOS of a DIR 0 stream with EOSOUT; its DSGO ends (log
entry 23). -/
def streamDenied (s : State) (tile n : Nat) (va : Nat) (perm : Bool) : State :=
  let st := (s.tile tile).stream n
  let v : Addr := BitVec.ofNat 48 va
  let code : Byte := if perm then codeCapPerm else codePageDenied
  let s1 := if st.mon then s else s.faultToken (s.handleOf tile) (v ++ code.setWidth 16)
  (goDone s1 tile n).updTile tile fun t =>
    let x := t.stream n
    t.setStream n { x with
      denied := true
      eosDue := if descDir st.desc = 0 ∧ descEosOut st.desc then some (code.setWidth 16) else x.eosDue }

/-- A failed translation of a stream. -/
def streamStop (s : State) (tile n : Nat) (va : Nat) (r : Translation) : State :=
  match r with
  | .wait => s.updTile tile fun t => t.setStream n { (t.stream n) with waiting := some (BitVec.ofNat 48 va) }
  | .denied => streamDenied s tile n va false
  | _ => streamDenied s tile n va true

/-- What reaching a global address comes to for a stream: its home, by way of the entry used, an access that must wait, or a page that
stops it. -/
inductive Reach where
  | home (st : Stream) (pa : PAddr) (dead : Bool)
  | hold
  | stop (va : Nat) (r : Translation)
  deriving DecidableEq, Repr

/-- A stream reaches an address (R226, R263, R402). -/
def streamReach (s : State) (tile : Nat) (st : Stream) (va : Nat) (w : Bool) : Reach :=
  match streamTrans s tile st va w with
  | (st1, .ok pa) => match engWay s tile ((st.go.map (·.1)).getD 0) st.goOp pa with
    | .waiting => .hold
    | d => .home st1 pa (d = .dead)
  | (_, r) => .stop va r

/-- n bytes at a home with the poison of what is read; a dead home's are free and poisoned (R402). -/
def homeBytes (s : State) (pa n : Nat) (dead : Bool) : List (Byte × Bool) :=
  if dead then ((lineBytes (deadLine s)).take n).map fun b => (b, true)
  else (Memory.readBytes s.gmem pa n).map fun b => (b, s.gBad pa n)

/-- The element at the stream's position, with its bytes and poison. -/
def readElem (s : State) (tile : Nat) (st : Stream) : Except Reach (Stream × List (Byte × Bool)) :=
  match streamReach s tile st (descAddr st.desc st.pos) false with
  | .home st1 pa dead => .ok (st1, homeBytes s pa.toNat (descSize st.desc) dead)
  | r => .error r

/-- Bytes of a packed sequence from an address on. -/
def readPacked (s : State) (tile : Nat) : Nat → Nat → Stream → Except Reach (Stream × List (Byte × Bool))
  | 0, _, st => .ok (st, [])
  | n + 1, va, st => match streamReach s tile st va false with
    | .home st1 pa dead => match readPacked s tile n (va + 1) st1 with
      | .error e => .error e
      | .ok (st2, bs) => .ok (st2, homeBytes s pa.toNat 1 dead ++ bs)
    | r => .error r

/-- The length of the packed block at the stream's position, from as many of its bytes as can be read. -/
def packedLen (s : State) (tile : Nat) (st : Stream) : Nat :=
  let va := descBase st.desc + st.bytes
  let bs := (upto 54).map fun i => match streamTrans s tile st (va + i) false with
    | (_, .ok pa) => Memory.read s.gmem pa.toNat
    | _ => 0
  (xe8Decode bs).len

/-- What keeps a stream from an access: it waits, or the page stops it. -/
def streamHeld (s : State) (tile n : Nat) (r : Reach) : State :=
  match r with
  | .stop va x => streamStop s tile n va x
  | _ => s

/-- The stream's last element has performed: its EOS is due, and its DSGO completes (R260, R262). -/
def streamEnd (s : State) (tile n : Nat) : State :=
  let st := (s.tile tile).stream n
  if descTotal st.desc ≤ st.pos then
    (goDone s tile n).updTile tile fun t =>
      let x := t.stream n
      t.setStream n { x with eosDue := if descDir x.desc = 0 ∧ descEosOut x.desc then some 0 else x.eosDue }
  else s

def lineOfBytes (bs : List (Byte × Bool)) : Line := bytesLine (bs.map (·.1))

/-- Elements of a token of the stream (R262). -/
def streamPer (t : Tile) (d : List Word) : Nat := if descXe8 d then 1 else max 1 (tokenBytes t d / descSize d)

/-- Whether a DIR 0 stream holds the whole of its next token: T / E elements, one packed block, or the last ones (R262). -/
def tokenHeld (t : Tile) (st : Stream) : Bool :=
  !st.held.isEmpty && (st.pos % streamPer t st.desc == 0 || decide (descTotal st.desc ≤ st.pos))

/-- What a stream's read does at the home of its element or block (R382). -/
def streamTouch (s : State) (tile : Nat) (st : Stream) : State :=
  let d := st.desc
  match streamReach s tile st (if descXe8 d then descBase d + st.bytes else descAddr d st.pos) false with
  | .home _ pa false => s.hbmRead (s.handleOf tile) pa.toNat (if descXe8 d then packedLen s tile st else descSize d)
  | _ => s

/-- A stream reads its next element, or packed block, and holds its bytes (R262). -/
def streamRead (s : State) (tile n : Nat) (st : Stream) : State :=
  let d := st.desc
  match (if descXe8 d then readPacked s tile (packedLen s tile st) (descBase d + st.bytes) st else readElem s tile st) with
  | .error r => streamHeld s tile n r
  | .ok (st1, bs) =>
    let s1 := (streamTouch s tile st).updTile tile fun t => t.setStream n { st1 with
      pos := st1.pos + 1, held := st1.held ++ bs, bytes := if descXe8 d then st1.bytes + bs.length else st1.bytes }
    (if descDir d = 2 then streamEnd s1 tile n else s1).moved (s.handleOf tile)

/-- The token that a DIR 0 stream holds is put, the rest of it zero (R112, R262); POISON when a word read was poisoned. -/
def streamPut (s : State) (tile n : Nat) (st : Stream) : State :=
  let s1 := s.updTile tile fun t => t.setStream n { st with held := [] }
  let s2 := s1.putPort tile (descPort st.desc) (if st.held.any (·.2) then .poison else .data) (lineOfBytes st.held) 0 []
  (streamEnd s2 tile n).moved (s.handleOf tile)

/-- Whether a stream has no element left, and holds no token to put. -/
def streamOut (st : Stream) : Bool := decide (descTotal st.desc ≤ st.pos) && (descDir st.desc != 0 || st.held.isEmpty)

/-- What a stream can do toward its port or the fabric now: its due EOS, which a snapshot stops with the stream (R374), a token, a read,
its end. -/
def putReady262 (s : State) (tile n : Nat) : Bool :=
  let t := s.tile tile
  let st := t.stream n
  let room := decide (0 < s.portRoom tile (descPort st.desc))
  if st.eosDue.isSome then room && !(s.resOf (s.handleOf tile)).snapping
  else streamLive s tile st && (streamOut st || (descDir st.desc == 0 && (!tokenHeld t st || room)) || descDir st.desc == 2)

/-- STREAM_TOKEN_PUT: a DIR 0 stream reads its next element, or puts the token it holds or its EOS; a DIR 2 stream reads its next
element for LTAB (R262, R263; log entry 88). -/
def execStreamTokenPut (tile stream : Nat) (s : State) : Out :=
  let t := s.tile tile
  let st := t.stream stream
  if putReady262 s tile stream then
    match st.eosDue with
    | some status =>
      .next ((s.updTile tile fun t => t.setStream stream { st with eosDue := none }).putPort tile (descPort st.desc) .eos 0 status [])
    | none =>
      .next (if streamOut st then streamEnd s tile stream
        else if descDir st.desc = 0 ∧ tokenHeld t st then streamPut s tile stream st
        else streamRead s tile stream st)
  else .next s

/-- The bytes at an address are written through the stream's translation, the word marked poisoned with the token. -/
def writeElem (s : State) (pa n : Nat) (bs : List Byte) (bad : Bool) : State :=
  let s1 := s.gWrite pa bs
  if bad then s1.gPoison pa n else s1

/-- Writes bytes one after another at a virtual address, each through the stream's entry. -/
def writePacked (s : State) (tile : Nat) (bad : Bool) : List Byte → Nat → Stream → Except Reach (State × Stream)
  | [], _, st => .ok (s, st)
  | b :: bs, va, st => match streamReach s tile st va true with
    | .home st1 pa dead => writePacked (if dead then s else writeElem s pa.toNat 1 [b] bad) tile bad bs (va + 1) st1
    | r => .error r

/-- The head token of a DIR 1 stream, as far as its next element (R262). -/
def streamElem (s : State) (tile n : Nat) (st : Stream) (x : QSlot) (payload : Line) : State :=
  let d := st.desc
  let p := descPort d
  let per := if descXe8 d then 1 else tokenBytes (s.tile tile) d / descSize d
  let bad := decide (x.kind = .poison)
  let bytes := if x.kind = .null then List.replicate 64 0 else lineBytes payload
  let finishToken := fun (s : State) (pos : Nat) =>
    let s1 := if pos % max 1 per = 0 ∨ descTotal d ≤ pos then s.consume tile p 1 else s
    (streamEnd s1 tile n).moved (s.handleOf tile)
  if descXe8 d then
    let bs := xe8Encode x.scale ((bytes.take 32).map (·.toNat))
    match writePacked s tile bad bs (descBase d + st.bytes) st with
    | .error r => streamHeld s tile n r
    | .ok (s1, st1) =>
      finishToken (s1.updTile tile fun t => t.setStream n { st1 with pos := st1.pos + 1, bytes := st1.bytes + bs.length })
        (st.pos + 1)
  else
    let va := descAddr d st.pos
    let i := st.pos % max 1 per
    match streamReach s tile st va true with
    | .home st1 pa dead =>
      let s1 := if dead then s else writeElem s pa.toNat (descSize d) ((bytes.drop (i * descSize d)).take (descSize d)) bad
      finishToken (s1.updTile tile fun t => t.setStream n { st1 with pos := st1.pos + 1 }) (st.pos + 1)
    | r => streamHeld s tile n r

/-- Whether a DIR 1 stream has a token at its port. -/
def takeReady262 (s : State) (tile n : Nat) : Bool :=
  let st := (s.tile tile).stream n
  let p := (s.tile tile).port (descPort st.desc)
  streamLive s tile st && descDir st.desc == 1
    && ((AMap.get? p.q p.h).isSome || decide (descTotal st.desc ≤ st.pos))

/-- STREAM_TOKEN_TAKE: a DIR 1 stream writes the next element of its head token, passes over a ROUND, or ends at EOS (R262). -/
def execStreamTokenTake (tile stream : Nat) (s : State) : Out :=
  let t := s.tile tile
  let st := t.stream stream
  let p := t.port (descPort st.desc)
  if takeReady262 s tile stream then
    if descTotal st.desc ≤ st.pos then .next (streamEnd s tile stream)
    else match AMap.get? p.q p.h with
      | none => .next s
      | some x => match x.kind with
        | .data | .null | .poison => .next (streamElem s tile stream st x (t.payload p p.h))
        | .eos => .next ((goDone s tile stream).updTile tile fun t => t.setStream stream { (t.stream stream) with eosin := true })
        | _ => .next (s.consume tile (descPort st.desc) 1)
  else .next s

end Sys2Proof.Machine
end

