-- ==== Sys2Proof/Machine/Actors.lean ====
section
/-!
DEFINITION. Actors: which of them can fire, what the hardware does for them without a helper, and the end of a firing
(02 R43 to R50, 07 R190, 08 R201).
-/

namespace Sys2Proof.Machine

/-! Ports of an actor. -/

def Tile.inputs (t : Tile) (a : Nat) : List (Nat × Port) :=
  t.slot.ports.filter fun p => p.2.declared && !p.2.output && p.2.actor == a && p.2.stream.isNone

/-- Inputs with a need; an inert input takes no part (R43). -/
def Tile.counted (t : Tile) (a : Nat) : List (Nat × Port) := (t.inputs a).filter fun p => decide (p.2.count ≠ 0)

def Tile.outputs (t : Tile) (a : Nat) : List (Nat × Port) :=
  t.slot.ports.filter fun p => p.2.declared && p.2.output && p.2.actor == a && p.2.stream.isNone

/-! Where an input stands (R44, R48, R49). -/

/-- Ready, ended, with a ROUND at its head; `undecided` otherwise. -/
inductive InState where
  | ready | ended | atRound | undecided
  deriving DecidableEq, Repr

/-- The state of an input read from SEQ n on, with `pos` positions passed, k counted tokens seen ahead of any ROUND that stops a
round-aligned actor, and `past` once such a ROUND has been passed; and how many counted tokens it saw. An EOS among the first
need positions ends the input, a ROUND ahead of it or not (R44, R48). -/
def Port.scan (x : Port) (roundA : Bool) : Nat → Nat → Nat → Nat → Bool → InState × Nat
  | 0, _, _, k, _ => (.undecided, k)
  | fuel + 1, n, pos, k, past =>
    if x.count ≤ pos then (if past then .undecided else .ready, k)
    else match AMap.get? x.q n with
      | none => (.undecided, k)
      | some y => match y.kind with
        | .eos => (.ended, k)
        | .bank => x.scan roundA fuel (n + 1) pos k past
        | .round =>
          if !roundA then x.scan roundA fuel (n + 1) (pos + 1) (k + 1) past
          else if pos = 0 then (.atRound, 0)
          else x.scan roundA fuel (n + 1) (pos + 1) k true
        | _ => x.scan roundA fuel (n + 1) (pos + 1) (if past then k else k + 1) past

def Port.state (x : Port) (roundA : Bool) : InState × Nat := x.scan roundA (x.depth + 1) x.h 0 0 false

/-- The punctuation step that the states of the counted inputs call for (R47 to R49). What R49 finds stands whether or not an
EOS has arrived behind it, so it comes before R48 (R34; log entry 63). -/
def punctOf (xs : List (InState × Nat)) : Option Punct :=
  let atHead := fun (x : InState × Nat) => x.1 == .atRound
  if xs.any atHead && xs.all atHead then some .round
  else if xs.any atHead && xs.any (fun x => decide (0 < x.2)) then some .rndMis
  else if xs.any (fun x => x.1 == .ended) && xs.all (fun x => x.1 == .ready || x.1 == .ended || atHead x) then
    if xs.all (· == (InState.ended, 0)) then some .eos else some .lenMis
  else none

/-- What an actor can do next. -/
inductive Todo where
  | fire | nullPass | step (p : Punct)
  deriving DecidableEq, Repr

/-- Every output has its declared room (R44); a closed output takes no more. -/
def State.roomsOk (s : State) (tile a : Nat) : Bool :=
  ((s.tile tile).outputs a).all fun p => p.2.closed || decide (p.2.count ≤ s.portRoom tile p.1)

/-- Whether every token that a firing would take of an input is NULL (R46). -/
def Port.allNull (x : Port) : Bool :=
  (upto (x.headAfter x.count - x.h)).all fun i => match AMap.get? x.q (x.h + i) with
    | some y => decide (y.kind = .null) || decide (y.kind = .bank)
    | none => false

/-- A residency whose actors fire (R62). -/
def State.running (s : State) (h : Nat) : Bool := decide ((s.resOf h).state = .running)

/-- Whether an actor may be looked at: declared, not ended, no firing live, not held, moved or halted (R44). -/
def actorOpen (s : State) (tile a : Nat) : Bool :=
  let t := s.tile tile
  let x := t.actor a
  x.declared && !x.ended && x.live.isNone && !x.held && !x.migrating && !t.preReq && decide (t.slot.state = .active)
    && s.running t.slot.handle

/-- A source's next step: it fires while an output with a rate is open, or exactly once without one, and then ends (R44);
a snapshot stops it (R374). -/
def sourceTodo (s : State) (tile a : Nat) : Option Todo :=
  let x := (s.tile tile).actor a
  let rated := ((s.tile tile).outputs a).filter fun p => decide (p.2.count ≠ 0)
  let ovr := if rated.isEmpty then x.fired else rated.all (·.2.closed)
  if (s.resOf (s.tile tile).slot.handle).snapping then none
  else if ovr then some (.step .eos)
  else if s.roomsOk tile a then some .fire
  else none

/-- What an actor can do now (R44 to R49). -/
def actorTodo (s : State) (tile a : Nat) : Option Todo :=
  let t := s.tile tile
  let x := t.actor a
  let ins := t.counted a
  if !actorOpen s tile a then none
  else match x.pend with
    | some p => some (.step p)
    | none =>
      if ins.isEmpty then sourceTodo s tile a
      else if ins.any fun p => decide (p.2.drain ≠ .no) || (match AMap.get? p.2.q p.2.h with
        | some y => decide (y.kind = .bank)
        | none => false) then none
      else
        let xs := ins.map fun p => p.2.state x.roundA
        if xs.all (·.1 == .ready) then
          if !s.roomsOk tile a then none
          else if x.nullP && ins.all (·.2.allNull) then some .nullPass
          else some .fire
        else (punctOf xs).map .step

/-- The handler of a step (R47 to R49); a source's end runs none (R44). -/
def Actor.handler (x : Actor) (p : Punct) : Option Addr :=
  match p with
  | .eos => x.eosH
  | .round => x.rndH
  | .lenMis | .rndMis => x.misH

/-- The firing that the dispatcher can start for an actor: its kind, entry, and the step whose hardware part follows. -/
def actorFiring (s : State) (tile a : Nat) : Option (FireKind × Addr × Option Punct) :=
  let t := s.tile tile
  let x := t.actor a
  match actorTodo s tile a with
  | some .fire => some (.fire, x.entry, none)
  | some (.step p) =>
    if x.pend.isSome || (t.counted a).isEmpty || !s.roomsOk tile a then none
    else match x.handler p with
      | none => none
      | some e => some ((match p with
        | .eos => .eos
        | .round => .round
        | .lenMis | .rndMis => .mismatch), e, some p)
  | _ => none

/-- Whether a release of an accumulator that the actor holds is draining (R190). -/
def Tile.releasing (t : Tile) (a : Nat) : Bool := (AMap.vals t.accs).any fun x => x.owner == some a && !x.buf.isEmpty

/-- The step that the hardware can take for an actor without a helper: its handler, if any, has run, every output has room for
one token, and, at an end, no release is draining (R47 to R49, R190, R289). -/
def hwStep (s : State) (tile a : Nat) : Option Punct :=
  let t := s.tile tile
  let x := t.actor a
  match actorTodo s tile a with
  | some (.step p) =>
    if (x.pend.isSome || (t.counted a).isEmpty || (x.handler p).isNone)
      && (decide (p = .rndMis) || (t.outputs a).all fun o => o.2.closed || o.2.ordered || decide (1 ≤ s.portRoom tile o.1))
      && !((decide (p = .eos) || decide (p = .lenMis)) && t.releasing a) then some p
    else none
  | _ => none

/-! The hardware parts (R47 to R49). -/

/-- Bank transfers of the BANK tokens among the n slots from the head (R265). -/
def Tile.takeBanks (t : Tile) (p n : Nat) : Tile :=
  let x := t.port p
  let banks : BitVec 16 := (upto n).foldl (fun b i => match AMap.get? x.q (x.h + i) with
    | some y => if y.kind = .bank then b ||| (1#16 <<< (t.readTlm (x.slotAddr (x.h + i)) 1 % 16)) else b
    | none => b) 0
  let a := t.actor x.actor
  if banks = 0 then t else t.setActor x.actor { a with inForce := a.inForce ||| banks }

/-- The n slots from the head are consumed, with what BANK tokens among them hand over. -/
def State.takeSlots (s : State) (tile p n : Nat) : State := (s.updTile tile fun t => t.takeBanks p n).consume tile p n

/-- Discards what an input's drain calls for (R48, R49): up to and including the EOS, or up to the ROUND or EOS. -/
def drainPort (tile p : Nat) : Nat → State → State
  | 0, s => s
  | n + 1, s =>
    let x := (s.tile tile).port p
    match x.drain, AMap.get? x.q x.h with
    | .no, _ => s
    | _, none => s
    | .toEos, some y =>
      let s1 := s.takeSlots tile p 1
      if y.kind = .eos then s1.updTile tile fun t => t.setPort p { t.port p with drain := .no } else drainPort tile p n s1
    | .toRound, some y =>
      if y.kind = .eos ∨ y.kind = .round then s.updTile tile fun t => t.setPort p { x with drain := .no }
      else drainPort tile p n (s.takeSlots tile p 1)

/-- A token of the hardware on each of an actor's outputs; a closed output takes none (R47 to R49, R249). -/
def sendAll (outs : List (Nat × Port)) (s : State) (tile : Nat) (k : TokKind) (status : BitVec 16) : State :=
  outs.foldl (fun s o =>
    if o.2.closed || (o.2.ordered && decide (k ≠ .eos)) then s else s.putPort tile o.1 k 0 status []) s

/-- The EOS status that an actor forwards (R37). -/
def eosStatusOf (ins : List (Nat × Port)) : BitVec 16 :=
  (firstSome (fun (p : Nat × Port) => match AMap.get? p.2.q (p.2.headAfter 0) with
    | some y => if y.round = 0 then none else some y.round
    | none => none) ins).getD 0

/-- What an actor gives up when it ends: partial sums (R190), the fabric (R201) and its streams (R257). -/
def Tile.endActor (t : Tile) (a : Nat) : Tile :=
  let accs := AMap.mapVals t.accs fun _ x =>
    if x.owner = some a ∧ x.counted ∧ x.live then { x.clear with part := true } else x
  let t1 := ({ t with accs := accs }).freeClaims (· == a)
  t1.setActor a { t1.actor a with ended := true, pend := none }

/-- An actor of a tile ends (R47, R48, R201). -/
def State.endActor (s : State) (tile a : Nat) : State := (s.updTile tile fun t => t.endActor a).freeFar tile a

/-- The head token of every counted input is removed. -/
def popHeads (s : State) (tile a : Nat) : State :=
  ((s.tile tile).counted a).foldl (fun s p => s.takeSlots tile p.1 (p.2.headAfter 0 + 1 - p.2.h)) s

/-- Every counted input begins to discard. -/
def startDrain (s : State) (tile a : Nat) (d : Drain) : State :=
  ((s.tile tile).counted a).foldl (fun s p =>
    drainPort tile p.1 (p.2.depth + 1) (s.updTile tile fun t => t.setPort p.1 { t.port p.1 with drain := d })) s

/-- The hardware part of a step of an actor (R47 to R49). -/
def punctStep (s : State) (tile a : Nat) (p : Punct) : State :=
  let h := s.handleOf tile
  let outs := (s.tile tile).outputs a
  let done := fun (s : State) => s.updTile tile fun t => t.setActor a { t.actor a with pend := none }
  (match p with
  | .eos =>
    let st := eosStatusOf ((s.tile tile).counted a)
    (sendAll outs (popHeads s tile a) tile .eos st).endActor tile a
  | .round => done (sendAll outs (popHeads s tile a) tile .round 0)
  | .lenMis =>
    let s1 := (startDrain s tile a .toEos).updErr h fun e => { e with lenmis := sat32 (e.lenmis + 1) }
    (sendAll outs s1 tile .eos 0x19).endActor tile a
  | .rndMis => done ((startDrain s tile a .toRound).updErr h fun e => { e with rndmis := sat32 (e.rndmis + 1) })).moved h

/-- An actor's step of the given kind, if it is the one the hardware can take. -/
def actorStep (s : State) (tile a : Nat) (p : Punct) : State :=
  if hwStep s tile a = some p then punctStep s tile a p else s

/-! Firings (R45, R46). -/

/-- NULL_PASS_FIRING: a firing whose every token is NULL is done without a helper (R46). -/
def execNullPassFiring (tile actor : Nat) (s : State) : Out :=
  if actorTodo s tile actor = some .nullPass then
    let s1 := ((s.tile tile).counted actor).foldl (fun s p => s.takeSlots tile p.1 (p.2.headAfter p.2.count - p.2.h)) s
    let s2 := ((s.tile tile).outputs actor).foldl (fun s o =>
      if o.2.closed || o.2.ordered then s
      else (upto o.2.count).foldl (fun s _ => s.putPort tile o.1 .null 0 0 []) s) s1
    .next ((s2.updTile tile fun t =>
      let x := t.actor actor
      t.setActor actor { x with firings := x.firings + 1, fired := true }).moved (s.handleOf tile))
  else .next s

/-- Whether an engine command or asynchronous operation of an actor's firing is still to complete (R45). -/
def firingBusy (s : State) (tile a : Nat) : Bool :=
  let t := s.tile tile
  (AMap.vals t.reqs).any (fun q => q.actor == a && q.ctxNo != 0 && q.tag.isSome && q.seq.isNone && !t.isTeam q.task)
    || t.engCmds.any (fun e => e.actor == a && !t.isTeam e.task && !(t.ctx 0).task == e.task)
    || (AMap.vals t.accs).any (fun x => match x.waiter with
      | some (_, act, _, _) => act == a
      | none => false)
    || (AMap.vals t.slot.streams).any (fun x => match x.go with
      | some (_, _, _, act) => act == a && !x.mon
      | none => false)
    || (AMap.vals s.sweeps).any (fun w => w.tile == tile && w.actor == a)
    || t.injectDue.any (fun d => d.actor == a)

/-- Step 4 of R45 for the inputs: a fire handler's untaken tokens are consumed too; a mismatch handler consumes what it took;
the others take nothing. -/
def consumeFiring (s : State) (tile a : Nat) (fr : Firing) : State :=
  ((s.tile tile).counted a).foldl (fun s p =>
    let k := match fr.kind with
      | .fire => p.2.count
      | .mismatch => AMap.getD fr.donec p.1 0
      | .eos | .round => 0
    if k = 0 then s else s.takeSlots tile p.1 (p.2.headAfter k - p.2.h)) s

/-- Step 4 of R45 for the outputs: each is filled up to its room with NULL. -/
def fillFiring (outs : List (Nat × Port)) (s : State) (tile : Nat) (fr : Firing) : State :=
  outs.foldl (fun s o =>
    if o.2.closed || o.2.ordered then s
    else (upto (o.2.count - AMap.getD fr.donec o.1 0)).foldl (fun s _ => s.putPort tile o.1 .null 0 0 []) s) s

/-- FIRING_END: the last helper has executed DONE and every operation has completed (R45). -/
def execFiringEnd (tile actor : Nat) (s : State) : Out :=
  match ((s.tile tile).actor actor).live with
  | none => .next s
  | some fr =>
    if fr.tasks.isEmpty && !firingBusy s tile actor then
      let s1 := fillFiring ((s.tile tile).outputs actor) (consumeFiring s tile actor fr) tile fr
      .next ((s1.updTile tile fun t =>
        let x := t.actor actor
        t.setActor actor { x with live := none, firings := x.firings + 1, fired := true }).moved (s.handleOf tile))
    else .next s

end Sys2Proof.Machine
end

