-- ==== Sys2Proof/Machine/Cap.lean ====
section
/-!
DEFINITION. The capability instructions (14 R341, R355 to R359).
-/

namespace Sys2Proof.Machine

/-- A capability result: all 129 bits of k[d] (R355). -/
def State.writeCap (s : State) (d : BitVec 6) (x : KReg) : State := (s.setMe (s.me.writeK d x)).complete 4

/-- A capability instruction on k[a] that reads no b register and raises no trap. -/
def capOp1 (f : K3) (s : State) (g : KReg → KReg) : Out :=
  finishTry s (do
    guardK s [f.d, f.a] [f.a] [f.d]
    pure (s.writeCap f.d (g (s.me.readK f.a))))

/-- A capability instruction on k[a] and k[b] that raises no trap. -/
def capOp (f : K3) (s : State) (g : KReg → KReg → KReg) : Out :=
  finishTry s (do
    guardK s [f.d, f.a, f.b] [f.a, f.b] [f.d]
    pure (s.writeCap f.d (g (s.me.readK f.a) (s.me.readK f.b))))

/-- An integer as a k value: tag clear, bits 127:64 zero. -/
def KReg.int (v : Word) : KReg := ⟨false, v.setWidth 128⟩

/-- The bounds fields replaced (R357). -/
def KReg.withBounds (c : KReg) (e bm tm : Nat) : KReg :=
  { tag := true
    bits := BitVec.ofNat 6 e ++ BitVec.ofNat 29 bm ++ BitVec.ofNat 29 tm ++ c.bits.extractLsb' 0 64 }

/-- CSETB, CSETBX and CSETBI on k[a] with a length; `a` is the register number for TRAPVAL (R355, R357). -/
def setBounds (c : KReg) (a : BitVec 6) (len : Nat) (exact : Bool) : Try KReg := do
  let lo := c.addr.toNat
  let hi := lo + len
  let v := c.addr.setWidth 64
  trapIf (!c.tag) codeCapTag (a.setWidth 64)
  trapIf c.isSealed codeCapSeal (a.setWidth 64)
  trapIf (decide (2 ^ 48 < hi)) codeCapBounds v
  let e := leastExp lo hi 20 0
  let lo1 := lo / 2 ^ e * 2 ^ e
  let hi1 := ceilDiv hi (2 ^ e) * 2 ^ e
  trapIf (decide ((lo1 : Int) < c.base) || decide (c.top < (hi1 : Int))) codeCapBounds v
  trapIf (exact && (lo1 != lo || hi1 != hi)) codeCapBounds v
  pure (c.withBounds e (lo1 / 2 ^ e % 2 ^ 29) ((hi1 - lo1) / 2 ^ e))

/-- CINC: the address moves by k[b] read as signed (R356, R341). -/
def execCinc (f : K3) (s : State) : Out := capOp f s fun x y => x.addAddr y.word.toInt

def execCsetb (f : K3) (s : State) : Out :=
  finishTry s (do
    guardK s [f.d, f.a, f.b] [f.a, f.b] [f.d]
    let x ← setBounds (s.me.readK f.a) f.a (s.me.readW f.b).toNat false
    pure (s.writeCap f.d x))

def execCsetbx (f : K3) (s : State) : Out :=
  finishTry s (do
    guardK s [f.d, f.a, f.b] [f.a, f.b] [f.d]
    let x ← setBounds (s.me.readK f.a) f.a (s.me.readW f.b).toNat true
    pure (s.writeCap f.d x))

/-- CANDP: bits 59:48 are masked; a sealed source loses its tag (R356). -/
def execCandp (f : K3) (s : State) : Out :=
  capOp f s fun x y =>
    { tag := x.tag && !x.isSealed
      bits := x.bits.extractLsb' 60 68 ++ (x.perms &&& y.word.extractLsb' 0 12) ++ x.bits.extractLsb' 0 48 }

def execCgeta (f : K3) (s : State) : Out := capOp1 f s fun x => .int (x.addr.setWidth 64)
def execCgetb (f : K3) (s : State) : Out := capOp1 f s fun x => .int (BitVec.ofInt 64 x.base)
def execCgett (f : K3) (s : State) : Out := capOp1 f s fun x => .int (BitVec.ofInt 64 x.top)
def execCgetp (f : K3) (s : State) : Out := capOp1 f s fun x => .int (x.perms.setWidth 64)
def execCgetty (f : K3) (s : State) : Out := capOp1 f s fun x => .int (x.typ.setWidth 64)
def execCtag (f : K3) (s : State) : Out := capOp1 f s fun x => .int (bool64 x.tag)
def execCclr (f : K3) (s : State) : Out := capOp1 f s fun x => { x with tag := false }
def execCmov (f : K3) (s : State) : Out := capOp1 f s fun x => x
def execCsub (f : K3) (s : State) : Out := capOp f s fun x y => .int (x.addr.setWidth 64 - y.addr.setWidth 64)
def execCeq (f : K3) (s : State) : Out := capOp f s fun x y => .int (bool64 (x == y))

/-- The sealer's checks of R358, steps 2 and 3, for the type it gives. -/
def sealerCheck (s : KReg) (b : BitVec 6) (cAddr : Word) : Try Unit := do
  let v := b.setWidth 64
  trapIf (!s.tag) codeCapTag v
  trapIf s.isSealed codeCapSeal v
  trapIf (!s.has .seal) codeCapPerm v
  trapIf (decide ((s.addr.toNat : Int) < s.base) || decide (s.top ≤ (s.addr.toNat : Int)) || decide (s.addr.toNat < 1) ||
    decide (15 < s.addr.toNat)) codeCapBounds cAddr

/-- CSEAL: k[a] with TYPE ← s.ADDRESS (R358). -/
def execCseal (f : K3) (s : State) : Out :=
  finishTry s (do
    guardK s [f.d, f.a, f.b] [f.a, f.b] [f.d]
    let c := s.me.readK f.a
    let sl := s.me.readK f.b
    trapIf (!c.tag) codeCapTag (f.a.setWidth 64)
    trapIf c.isSealed codeCapSeal (f.a.setWidth 64)
    sealerCheck sl f.b (c.addr.setWidth 64)
    pure (s.writeCap f.d (c.withTyp (sl.addr.extractLsb' 0 4))))

/-- CUNSEAL: k[a] with TYPE ← 0 (R358). -/
def execCunseal (f : K3) (s : State) : Out :=
  finishTry s (do
    guardK s [f.d, f.a, f.b] [f.a, f.b] [f.d]
    let c := s.me.readK f.a
    let sl := s.me.readK f.b
    trapIf (!c.tag) codeCapTag (f.a.setWidth 64)
    trapIf (!c.isSealed) codeCapSeal (f.a.setWidth 64)
    sealerCheck sl f.b (c.addr.setWidth 64)
    trapIf (sl.addr.toNat != c.typ.toNat) codeCapBounds (c.addr.setWidth 64)
    pure (s.writeCap f.d (c.withTyp 0)))

/-- CINCI: CINC with the signed immediate (R359). -/
def execCinci (f : KI) (s : State) : Out :=
  finishTry s (do
    guardK s [f.d, f.a] [f.a] [f.d]
    pure (s.writeCap f.d ((s.me.readK f.a).addAddr f.imm.toInt)))

/-- CSETBI: CSETBX with an unsigned immediate length (R359). -/
def execCsetbi (f : KI) (s : State) : Out :=
  finishTry s (do
    guardK s [f.d, f.a] [f.a] [f.d]
    let x ← setBounds (s.me.readK f.a) f.a f.imm.toNat true
    pure (s.writeCap f.d x))

end Sys2Proof.Machine
end

