-- ==== Sys2Proof/Machine/Image.lean ====
section
/-!
DEFINITION. Residency images: the records and their fields (13 R314 to R321).
-/

namespace Sys2Proof.Machine

/-- A record of an image (R314): `index` is the word index of its header, `body` the payload words that are there. -/
structure IRec where
  index : Nat
  typ : Nat
  slot : Nat
  row : Nat
  col : Nat
  len : Nat
  arg : Nat
  body : List Word
  deriving DecidableEq, Repr

/-- Bits [hi:lo] of a word as a number. -/
def fld (w : Word) (hi lo : Nat) : Nat := w.toNat / 2 ^ lo % 2 ^ (hi + 1 - lo)

def recOfHeader (i : Nat) (w : Word) (body : List Word) : IRec :=
  { index := i, typ := fld w 63 58, slot := fld w 57 56, row := fld w 55 48, col := fld w 47 40, len := fld w 39 20
    arg := fld w 19 0, body := body.take (fld w 39 20) }

/-- The records of a word sequence whose first word has index i (R314). -/
def parseRecs : Nat → Nat → List Word → List IRec
  | 0, _, _ => []
  | _ + 1, _, [] => []
  | n + 1, i, w :: ws => recOfHeader i w ws :: parseRecs n (i + 1 + fld w 39 20) (ws.drop (fld w 39 20))

def imgRecs (ws : List Word) : List IRec := parseRecs ws.length 0 ws

/-! Record types (R315). -/

def tHead : Nat := 0x01
def tBank : Nat := 0x02
def tPorts : Nat := 0x03
def tActor : Nat := 0x04
def tChan : Nat := 0x05
def tOper : Nat := 0x06
def tStream : Nat := 0x07
def tInit : Nat := 0x08
def tRelb : Nat := 0x09
def tLtab : Nat := 0x0A
def tLwire : Nat := 0x0B
def tGroup : Nat := 0x0C
def tParam : Nat := 0x0D
def tSig : Nat := 0x3F

def IRec.slotBound (r : IRec) : Bool := decide (tPorts ≤ r.typ) && decide (r.typ ≤ tRelb)

/-- A record addressed to every tile (R314). -/
def IRec.every (r : IRec) : Bool := r.row == 0xFF && r.col == 0xFF

/-- Whether a record addresses the tile at a region position. -/
def IRec.on (r : IRec) (row col : Nat) : Bool := r.every || (r.row == row && r.col == col)

/-- Whether two records address a common tile. -/
def IRec.shares (r x : IRec) : Bool := r.every || x.every || (r.row == x.row && r.col == x.col)

def IRec.word (r : IRec) (i : Nat) : Word := nthD r.body i 0

/-! HEAD (R316). -/

def imgRows (ws : List Word) : Nat := fld (nthD ws 1 0) 39 32
def imgCols (ws : List Word) : Nat := fld (nthD ws 1 0) 31 24
def imgRoles (ws : List Word) : List Nat := (upto (fld (nthD ws 1 0) 23 22 + 1)).map fun i => fld (nthD ws 1 0) (15 + 2 * i) (14 + 2 * i)
def imgPersist (ws : List Word) : Bool := (nthD ws 1 0).getLsbD 13
def imgLen (ws : List Word) : Nat := fld (nthD ws 2 0) 63 32
def imgParams (ws : List Word) : Nat := fld (nthD ws 2 0) 31 0
def imgFault (ws : List Word) : Word := nthD ws 3 0
/-- The slot of the first role. -/
def imgFirst (ws : List Word) : Nat := nthD (imgRoles ws) 0 0

/-! Port words (R317). -/

def pwV (w : Word) : Bool := w.getLsbD 63
def pwOut (w : Word) : Bool := w.getLsbD 62
def pwLine (w : Word) : Bool := w.getLsbD 61
def pwFmt (w : Word) : Nat := fld w 60 57
def pwDepth (w : Word) : Nat := fld w 48 41 + 1
def pwCount (w : Word) : Nat := fld w 40 37
def pwActor (w : Word) : Nat := fld w 36 34
def pwCarried (w : Word) : Bool := w.getLsbD 33
def pwBank (w : Word) : Bool := w.getLsbD 31
def pwOrd (w : Word) : Bool := w.getLsbD 30
def pwOsn (w : Word) : Nat := fld w 29 22
def pwQ (w : Word) : Nat := fld w 21 0
/-- Format and size, which the ends of a channel share (R42). -/
def pwForm (w : Word) : Nat × Bool := (pwFmt w, pwLine w)
/-- The bytes [lo, hi) of an input's queue (R38). -/
def pwQueue (w : Word) : Nat × Nat := (pwQ w, pwQ w + pwDepth w * (if pwLine w then 64 else 8))

/-! Looking up what a slot of a tile declares. -/

/-- The record of a type that declares the object `arg` of a slot on a tile. -/
def findRec (rs : List IRec) (typ slot row col arg : Nat) : Option IRec :=
  rs.find? fun r => r.typ == typ && r.slot == slot && r.on row col && r.arg == arg

/-- A declared port with its PORTS record. -/
def findPort (rs : List IRec) (slot row col p : Nat) : Option (IRec × Word) :=
  firstSome (fun (r : IRec) => if r.typ == tPorts && r.slot == slot && r.on row col && pwV (r.word p) then some (r, r.word p) else none) rs

/-- A declared actor. -/
def findActor (rs : List IRec) (slot row col a : Nat) : Option IRec :=
  match findRec rs tActor slot row col a with
  | some r => if (r.word 0).getLsbD 63 then some r else none
  | none => none

/-- The STREAM record that binds a port (R260); a stream to the fabric, DIR 2, binds none (R102, R262). -/
def findStream (rs : List IRec) (slot row col p : Nat) : Option IRec :=
  rs.find? fun r => r.typ == tStream && r.slot == slot && r.on row col && fld (r.word 0) 1 0 != 2 && fld (r.word 0) 16 12 == p

/-! ACTOR words (R318). -/

def awGrant (r : IRec) : BitVec 16 := (r.word 4).extractLsb' 0 16
def awHold (r : IRec) : Nat := fld (r.word 0) 56 41
/-- The handler entries that are present, the fire handler first. -/
def awEntries (r : IRec) : List Nat :=
  let w := r.word 1
  let e := fun (bit lo : Nat) => if w.getLsbD bit then [4 * fld w (lo + 19) lo] else []
  fld (r.word 0) 21 0 :: (e 62 0 ++ e 61 20 ++ e 60 40)
/-- The groups of its membership slots. -/
def awGroups (r : IRec) : List Nat := (upto 4).filterMap fun i =>
  let g := fld (r.word 5) (9 * i + 8) (9 * i)
  if 256 ≤ g then some (g - 256) else none

/-! CHAN words (R319). -/

/-- An end of a channel as an image names it. -/
structure CEnd where
  kind : Nat
  row : Nat
  col : Nat
  num : Nat
  deriving DecidableEq, Repr

def cendOf (w : Word) : CEnd := ⟨fld w 42 40, fld w 63 56, fld w 55 48, fld w 47 43⟩

/-- Whether the end is a port of a tile. -/
def CEnd.isPort (e : CEnd) : Bool := e.kind == 0 || e.kind == 2
def CEnd.onTile (e : CEnd) : Bool := decide (e.kind ≤ 2)

def IRec.source (r : IRec) : CEnd := cendOf (r.word 0)
def IRec.branches (r : IRec) : List CEnd := (r.body.drop 1).map cendOf
def IRec.ends (r : IRec) : List CEnd := r.body.map cendOf

/-- The tile by which a channel is reported: that of its first end on a tile (log entry 24). -/
def chanPos (r : IRec) : Nat × Nat := match r.ends.find? CEnd.onTile with
  | some e => (e.row, e.col)
  | none => (0, 0)

/-- How many initial tokens a channel's INIT records place (R315). -/
def initCount (rs : List IRec) (slot num : Nat) : Nat :=
  (rs.filter fun r => r.typ == tInit && r.slot == slot && r.arg == num).foldl (fun n r => n + r.body.length) 0

/-! OPER and RELB words (R320). -/

def owKind (w : Word) : Nat := fld w 63 62
/-- The inputs of an operator by its OP (R319). -/
def owIns (k : Nat) : Nat := if k = 2 then 1 else 2
def owEnds (k : Nat) : Nat := if k = 0 then 4 else if k = 1 then 3 else 2

/-- Tokens of a release (R190): P for SHAPE and RFMT. -/
def relTokens (w : Word) : Nat :=
  let sh := fld w 15 14
  let m := if sh = 1 then 16 else if sh = 2 then 64 else 32
  let n := if sh = 1 then 64 else if sh = 2 then 16 else 32
  m * ceilDiv (n * (if fld w 13 10 = 9 then 2 else 4)) 64

def relFirings (w : Word) : Nat := fld w 27 16 + 1

/-! Result words (R322). -/

/-- What a failed check names. -/
structure CfgFail where
  code : Nat
  kind : Nat
  row : Nat
  col : Nat
  obj : Nat
  deriving DecidableEq, Repr

def cfgFormat : Nat := 0x40
def cfgUnder : Nat := 0x41
def cfgBounds : Nat := 0x42
def cfgRate : Nat := 0x43
def cfgShape : Nat := 0x44
def cfgSignature : Nat := 0x45
def cfgLoop : Nat := 0x46

def CfgFail.word (f : CfgFail) : Word :=
  BitVec.ofNat 64 (f.code * 2 ^ 56 + f.kind * 2 ^ 52 + f.row % 256 * 2 ^ 44 + f.col % 256 * 2 ^ 36 + f.obj % 2 ^ 32)

/-- A failure that names a record (R322). -/
def failRec (r : IRec) : CfgFail := ⟨cfgShape, 1, if r.every then 0 else r.row, if r.every then 0 else r.col, r.index⟩

def failChan (code : Nat) (r : IRec) : CfgFail := ⟨code, 2, (chanPos r).1, (chanPos r).2, r.arg⟩

/-! Reading an image from memory (R400). -/

/-- The words of the image at a physical address, as many as its NWORDS says. -/
def readImage (s : State) (pa : Nat) : List Word :=
  let n := s.gRead (pa + 16) 8 / 2 ^ 32
  (upto n).map fun i => BitVec.ofNat 64 (s.gRead (pa + 8 * i) 8)

/-- The least of some numbers; none for none. -/
def leastOf : List Nat → Option Nat
  | [] => none
  | x :: xs => match leastOf xs with
    | none => some x
    | some y => some (min x y)

end Sys2Proof.Machine
end

