-- ==== Sys2Proof/Machine/Admission.lean ====
section
/-!
DEFINITION. The loader's checks of an image: steps 1 to 7 of R322 on the image alone, step 8 at the assigned region (13 R321 to
R330, 07 R190, 10 R265, 11 R273, R274, 12 R308, R309, 15 R384, 17 R397, R405, 19 R420).
-/

namespace Sys2Proof.Machine

/-! Step 1 (R321, R394). -/

/-- The signature check: NWORDS − 415 is where SIG's header lies. -/
def sigCheck (s : State) (ws : List Word) : Option CfgFail :=
  let h := imgLen ws - 415
  let bytes := fun (l : List Word) => l.flatMap fun w => leBytes 8 w.toNat
  let good := decide (415 ≤ imgLen ws) && match AMap.get? s.keySlots (fld (nthD ws h 0) 7 0) with
    | none => false
    | some k => Config.mldsaVerify k (Config.shake256 (bytes (ws.take (h + 1)))) ((bytes (ws.drop (h + 1))).take 3309)
  if good then none else some ⟨cfgSignature, 1, 0, 0, (imgLen ws + 2 ^ 32 - 415) % 2 ^ 32⟩

/-! Step 2 (R323): each check gives the word indexes of the records it names. -/

/-- Whether ARG and SLOT of a record keep their reserved bits 0 and its payload has its type's length (R314, R315). -/
def recForm (ws : List Word) (r : IRec) : Bool :=
  let every := r.row == 0xFF && r.col == 0xFF
  (r.slotBound || r.slot == 0) && r.len == r.body.length &&
  (if r.typ = tHead then every && r.arg == 0 && r.len == 3
  else if r.typ = tBank then decide (r.arg % 2 ^ 15 + r.len ≤ 2 ^ 15)
  else if r.typ = tPorts then r.arg == 0 && r.len == 32
  else if r.typ = tActor then decide (r.arg < 8) && r.len == 6
  else if r.typ = tChan then decide (r.arg < 2 ^ 12) && r.len == fld (r.word 0) 39 36 + 2
  else if r.typ = tOper then decide (r.arg < 8) && r.len == 2
  else if r.typ = tStream then decide (r.arg < 8) && r.len == 10
  else if r.typ = tInit then decide (r.arg < 2 ^ 12) && decide (r.len ≤ 256)
  else if r.typ = tRelb then decide (r.arg < 32) && r.len == 1
  else if r.typ = tLtab then decide (r.arg < 2 ^ 10) && decide (r.arg + r.len ≤ 2 ^ 10)
  else if r.typ = tLwire then decide (r.arg < 2 ^ 11) && r.len == 2 * (r.arg % 2 ^ 9 + 1)
  else if r.typ = tGroup then every && decide (r.arg < 256) && r.len == 2
  else if r.typ = tParam then every && r.arg == 0 && 8 * r.len == imgParams ws
  else if r.typ = tSig then every && decide (r.arg < 256) && r.len == 414
  else false)

/-- Reserved bits of a payload, and values a field may not take (R316 to R320, R198, R308). -/
def recBits (r : IRec) : Bool :=
  let w := r.word
  if r.typ = tHead then fld (w 0) 12 0 == 0 && fld (w 1) 2 0 == 0 && fld (w 2) 63 29 == 0 && fld (w 2) 7 4 == 0
  else if r.typ = tPorts then r.body.all fun p =>
    if pwV p then
      (pwOrd p || pwOsn p == 0) && (!pwOut p || (fld p 48 41 == 0 && pwQ p == 0))
    else p == 0
  else if r.typ = tActor then
    fld (w 0) 30 22 == 0 && !(w 1).getLsbD 63 && fld (w 2) 63 44 == 0 && fld (w 3) 63 44 == 0 && fld (w 4) 63 16 == 0
      && fld (w 5) 63 36 == 0
  else if r.typ = tChan then r.body.all (fun x => fld x 35 0 == 0) && (r.body.drop 1).all fun x => fld x 39 36 == 0
  else if r.typ = tOper then
    fld (w 0) 60 0 == 0 && fld (w 0) 63 62 != 3 && (!(w 0).getLsbD 61 || fld (w 0) 63 62 == 2) && (fld (w 0) 63 62 == 2 || w 1 == 0)
  else if r.typ = tRelb then fld (w 0) 63 28 == 0
  else if r.typ = tLwire then (upto (r.body.length / 2)).all fun i => fld (w (2 * i + 1)) 63 23 == 0
  else if r.typ = tGroup then fld (w 1) 62 56 == 0 && fld (w 1) 53 32 == 0 && fld (w 1) 55 54 != 3 && fld (w 1) 31 20 == 0
  else if r.typ = tSig then fld (w 413) 63 40 == 0
  else true

/-- A record's place, and those of its channel ends (R323). -/
def recPlaceOk (ws : List Word) (r : IRec) : Bool :=
  let inside := fun (row col : Nat) => decide (row < imgRows ws) && decide (col < imgCols ws)
  (r.every || inside r.row r.col) && (r.typ != tChan || r.ends.all fun e =>
    if e.onTile then inside e.row e.col else decide (e.kind ≤ 5) && e.row == 0xFE && (e.kind == 5 || e.col == 0))

/-- MAGIC, VERSION, the module's shape limits, and the first and last record (R323). -/
def frameFaults (ws : List Word) (rs : List IRec) : List Nat :=
  let w := nthD ws 1 0
  let headBad := fld w 63 48 != 0x4E49 || fld w 47 40 != 1 || imgRows ws == 0 || decide (84 < imgRows ws) || imgCols ws == 0
    || decide (144 < imgCols ws) || (match rs with
      | r :: _ => r.typ != tHead
      | [] => true)
  let lastBad := match rs.getLast? with
    | some r => if r.typ = tSig then [] else [r.index]
    | none => [0]
  (if headBad then [0] else []) ++ lastBad
    ++ (rs.filter fun r => (r.typ == tHead && r.index != 0) || (r.typ == tSig && r.index + 415 != imgLen ws)).map (·.index)

/-- Whether two records may not stand together: overlapping banks, or the same object declared twice (R323). -/
def recClash (r x : IRec) : Bool :=
  r.typ == x.typ &&
  (if r.typ = tBank then
    r.shares x && r.arg / 2 ^ 16 == x.arg / 2 ^ 16 && decide (r.arg % 2 ^ 15 < x.arg % 2 ^ 15 + x.len)
      && decide (x.arg % 2 ^ 15 < r.arg % 2 ^ 15 + r.len)
  else if r.typ = tPorts then r.shares x && r.slot == x.slot && (upto 32).any fun p => pwV (r.word p) && pwV (x.word p)
  else if r.typ = tActor ∨ r.typ = tOper ∨ r.typ = tStream ∨ r.typ = tRelb then r.shares x && r.slot == x.slot && r.arg == x.arg
  else if r.typ = tChan then r.slot == x.slot && r.arg == x.arg
  else if r.typ = tGroup then r.arg == x.arg
  else r.typ == tParam)

/-- The later record of each clash. -/
def clashes : List IRec → List Nat
  | [] => []
  | r :: rs => (rs.filter (recClash r)).map (·.index) ++ clashes rs

/-- The tiles, as region positions, that a record addresses. -/
def recTiles (ws : List Word) (r : IRec) : List (Nat × Nat) :=
  if r.every then (upto (imgRows ws)).flatMap fun i => (upto (imgCols ws)).map fun j => (i, j) else [(r.row, r.col)]

/-- Whether a bank is marked executable on a tile. -/
def bankX (rs : List IRec) (row col bank : Nat) : Bool :=
  rs.any fun r => r.typ == tBank && r.on row col && r.arg / 2 ^ 16 == bank && r.arg.testBit 15

/-- Whether [a, a + n) lies in the banks of a grant. -/
def grantHas (g : BitVec 16) (a n : Nat) : Bool :=
  n == 0 || (decide (a + n ≤ 2 ^ 22) && (upto ((a + n - 1) / 2 ^ 18 - a / 2 ^ 18 + 1)).all fun i => g.getLsbD (a / 2 ^ 18 + i))

/-- An actor's memberships with those of the records before it are more than four (R61). -/
def tooMany (ws : List Word) (rs : List IRec) (r : IRec) : Bool :=
  (recTiles ws r).any fun p =>
    decide (4 < ((rs.filter fun x => x.typ == tActor && (x.word 0).getLsbD 63 && decide (x.index ≤ r.index) && x.on p.1 p.2).flatMap awGroups).eraseDups.length)

/-- An ACTOR record's handlers, state and scratch (R323). -/
def actorFaults (ws : List Word) (rs : List IRec) (r : IRec) : List Nat :=
  if !(r.word 0).getLsbD 63 then []
  else if tooMany ws rs r then [r.index]
  else
    let bad := (recTiles ws r).any fun p => (awEntries r).any fun e => !bankX rs p.1 p.2 (e / 2 ^ 18)
    let out := !(grantHas (awGrant r) (fld (r.word 2) 43 22) (fld (r.word 2) 21 0)
      && grantHas (awGrant r) (fld (r.word 3) 43 22) (fld (r.word 3) 21 0))
    if bad || out then [r.index] else []

/-- The grant a port's queue must lie in: its actor's, or for a stream-bound port any actor's of the slot (log entry 24). -/
def queueGrant (rs : List IRec) (slot row col p : Nat) (w : Word) : BitVec 16 × Nat :=
  match findStream rs slot row col p with
  | some _ => ((rs.filter fun r => r.typ == tActor && r.slot == slot && r.on row col).foldl (fun g r => g ||| awGrant r) 0, 0)
  | none => match findActor rs slot row col (pwActor w) with
    | some r => (awGrant r, r.index)
    | none => (0, 0)

def overlap (a b : Nat × Nat) : Bool := decide (a.1 < b.2) && decide (b.1 < a.2)

/-- An ordered port's entry: valid, and listing the port of this module in the port's direction (R274, R405). The residency
number and the tile are not known at staging (log entry 24). -/
def orderedListed (s : State) (p : Nat) (w : Word) : Bool :=
  match AMap.get? s.otable (pwOsn w) with
  | none => false
  | some [] => false
  | some (h :: list) =>
    let ns := fld h 46 41 + 1
    let mine := if pwOut w then list.take ns else (list.drop ns).take (fld h 40 37 + 1)
    h.getLsbD 63 && mine.any fun x => fld x 63 58 == s.module && fld x 23 19 == p

/-- The carried ports of a slot against the slot of the next role (R54). -/
def carriedOk (rs : List IRec) (next row col p : Nat) (w : Word) : Bool :=
  match findPort rs next row col p with
  | none => false
  | some (_, x) => pwDepth w == pwDepth x && pwForm w == pwForm x && pwOut w == pwOut x

/-- The slot of the role after each role that a slot holds. -/
def nextSlots (ws : List Word) (slot : Nat) : List Nat :=
  let rl := imgRoles ws
  ((upto rl.length).filter fun i => nthD rl i 4 == slot && decide (i + 1 < rl.length)).map fun i => nthD rl (i + 1) 0

/-- A port of a tile: its queue, which no executable bank may hold, its ordered entry, its carriage (R323, R347). -/
def portFaults (s : State) (ws : List Word) (rs : List IRec) (r : IRec) (row col p : Nat) : List Nat :=
  let w := r.word p
  if !pwV w then []
  else
    let g := queueGrant rs r.slot row col p w
    let q := pwQueue w
    let ordered := pwOrd w && !orderedListed s p w
    let queue := if pwOut w then [] else
      (if grantHas g.1 q.1 (q.2 - q.1) then [] else [max r.index g.2])
        ++ ((rs.filter fun x => x.typ == tBank && x.on row col && x.arg.testBit 15
            && decide (q.1 / 2 ^ 18 ≤ x.arg / 2 ^ 16) && decide (x.arg / 2 ^ 16 ≤ (q.2 - 1) / 2 ^ 18)).map fun x => max r.index x.index)
        ++ ((upto 32).filterMap fun p' => match findPort rs r.slot row col p' with
          | some (x, w') => if p' != p && !pwOut w' && overlap q (pwQueue w') then some (max r.index x.index) else none
          | none => none)
    let carry := if !pwCarried w then [] else (nextSlots ws r.slot).filterMap fun n =>
      if carriedOk rs n row col p w then none else match findPort rs n row col p with
        | some (x, _) => some (max r.index x.index)
        | none => some r.index
    (if ordered then [r.index] else []) ++ queue ++ carry

def portsFaults (s : State) (ws : List Word) (rs : List IRec) (r : IRec) : List Nat :=
  if r.typ = tPorts then (recTiles ws r).flatMap fun t => (upto 32).flatMap fun p => portFaults s ws rs r t.1 t.2 p else []

/-- The end of a channel is declared, and may stand as its source or as a branch (R319, R323). -/
def endDeclared (rs : List IRec) (slot : Nat) (e : CEnd) (src : Bool) : Bool :=
  match e.kind with
  | 0 => match findPort rs slot e.row e.col e.num with
    | some (_, w) => pwOut w == src && !pwOrd w && (findStream rs slot e.row e.col e.num).isNone
    | none => false
  | 1 => match findRec rs tOper slot e.row e.col (e.num / 4) with
    | some r => decide (e.num % 4 < owEnds (owKind (r.word 0))) && (decide (owIns (owKind (r.word 0)) ≤ e.num % 4) == src)
    | none => false
  | 2 => match findPort rs slot e.row e.col e.num with
    | some (_, w) => pwOut w == src && !pwOrd w && (findStream rs slot e.row e.col e.num).isSome
    | none => false
  | 3 => src
  | 4 => !src
  | 5 => decide (e.num < 16) && decide (e.col < 36)
  | _ => false

/-- The record that declares an end, for naming. -/
def endRec (rs : List IRec) (slot : Nat) (e : CEnd) : Nat :=
  if e.kind = 1 then match findRec rs tOper slot e.row e.col (e.num / 4) with
    | some r => r.index
    | none => 0
  else match rs.find? fun r => r.typ == tPorts && r.slot == slot && r.on e.row e.col with
    | some r => if e.isPort then r.index else 0
    | none => 0

/-- The depth of a branch (R319, R328; a port fabric's is 1, log entry 24). -/
def branchDepth (rs : List IRec) (slot : Nat) (e : CEnd) : Nat :=
  if e.isPort then match findPort rs slot e.row e.col e.num with
    | some (_, w) => pwDepth w
    | none => 0
  else if e.kind = 4 then 256 else 1

/-- The ends that two channels of a slot share (R38). -/
def sharedEnd (r x : IRec) : Bool :=
  let ends := fun (y : IRec) => y.ends.map fun e => if e.kind = 2 then { e with kind := 0 } else e
  (ends r).any fun e => decide (e.kind ≤ 1) && (ends x).any (· == e)

/-- A CHAN record: its ends, the ports it shares with an earlier channel, banks and initial tokens (R323, R265). -/
def chanFaults (rs : List IRec) (r : IRec) : List Nat :=
  if r.typ ≠ tChan then []
  else
    let ends := (r.ends.zip (true :: r.branches.map fun _ => false)).filterMap fun e =>
      if endDeclared rs r.slot e.1 e.2 then none else some (max r.index (endRec rs r.slot e.1))
    let same := (rs.filter fun x => x.typ == tChan && x.slot == r.slot && decide (x.index < r.index) && sharedEnd r x).map fun _ => r.index
    let self := if decide ((r.ends.filter fun e => decide (e.kind ≤ 2)).eraseDups.length = (r.ends.filter fun e => decide (e.kind ≤ 2)).length)
      then [] else [r.index]
    let bank := match (if r.source.kind = 0 then findPort rs r.slot r.source.row r.source.col r.source.num else none) with
      | some (x, w) =>
        if pwBank w && !r.branches.all (fun e => e.kind == 0 && e.row == r.source.row && e.col == r.source.col) then
          [max r.index x.index] else []
      | none => []
    ends ++ same ++ self ++ bank

/-- An INIT record places no more tokens than each branch holds (R323). -/
def initFaults (rs : List IRec) (r : IRec) : List Nat :=
  if r.typ ≠ tInit then []
  else match rs.find? fun x => x.typ == tChan && x.slot == r.slot && x.arg == r.arg with
    | none => [r.index]
    | some c => (c.branches.filter fun e => decide (branchDepth rs r.slot e < initCount rs r.slot r.arg)).map fun e =>
      max (max r.index c.index) (endRec rs r.slot e)

/-- Each endpoint of an operator is the end of exactly one channel (R323). -/
def operFaults (ws : List Word) (rs : List IRec) (r : IRec) : List Nat :=
  if r.typ ≠ tOper then []
  else (recTiles ws r).flatMap fun t => (upto (owEnds (owKind (r.word 0)))).flatMap fun e =>
    let cs := rs.filter fun x => x.typ == tChan && x.slot == r.slot && x.ends.any (· == ⟨1, t.1, t.2, 4 * r.arg + e⟩)
    if cs.length = 1 then [] else [cs.foldl (fun m x => max m x.index) r.index]

/-- The fault port (R384). -/
def faultFaults (ws : List Word) (rs : List IRec) : List Nat :=
  let f := imgFault ws
  let row := fld f 23 16
  let col := fld f 15 8
  let p := fld f 28 24
  let ok := !f.getLsbD 3 || (match findPort rs (imgFirst ws) row col p with
    | none => false
    | some (_, w) => !pwOut w && !pwLine w && pwFmt w == 0 && decide (1 ≤ pwCount w) && !pwOrd w && pwActor w == fld f 2 0
      && (findStream rs (imgFirst ws) row col p).isNone && (findActor rs (imgFirst ws) row col (fld f 2 0)).isSome
      && !rs.any fun r => r.typ == tChan && r.slot == imgFirst ws && r.ends.any fun e => e.isPort && e.row == row && e.col == col && e.num == p)
  if ok then [] else [0]

/-- Step 2: the least record index that some check names. -/
def shapeCheck (s : State) (ws : List Word) (rs : List IRec) : Option CfgFail :=
  let single := (rs.filter fun r => !(recForm ws r && recBits r && recPlaceOk ws r)).map (·.index)
  let all := frameFaults ws rs ++ single ++ clashes rs
  -- with the grammar broken before them, later records are not read
  let deep := (rs.filter (·.typ == tActor)).flatMap (actorFaults ws rs) ++ rs.flatMap (portsFaults s ws rs) ++ rs.flatMap (chanFaults rs)
    ++ rs.flatMap (initFaults rs) ++ rs.flatMap (operFaults ws rs) ++ faultFaults ws rs
  match leastOf (all ++ deep) with
  | none => none
  | some i => match rs.find? fun r => r.index == i with
    | some r => some (failRec r)
    | none => some ⟨cfgShape, 1, 0, 0, i⟩

/-! The channel graph of a slot. -/

/-- A node of the graph (R326): the ends off the array and stream ports each stand alone. -/
inductive INode where
  | actor (row col a : Nat)
  | oper (row col o : Nat)
  | free (chan i : Nat)
  deriving DecidableEq, Repr

/-- A branch with the figures of R326 to R329; its rate is rn / rd. -/
structure IEdge where
  chan : IRec
  x : INode
  y : INode
  into : Nat
  rn : Nat
  rd : Nat
  n : Nat
  d : Nat
  init : Nat
  out : Bool
  rel : Bool
  deriving DecidableEq, Repr

def INode.isFree : INode → Bool
  | .free _ _ => true
  | _ => false

def nodeOf (rs : List IRec) (r : IRec) (i : Nat) (e : CEnd) : INode :=
  match e.kind with
  | 0 => match findPort rs r.slot e.row e.col e.num with
    | some (_, w) => .actor e.row e.col (pwActor w)
    | none => .free r.arg i
  | 1 => .oper e.row e.col (e.num / 4)
  | _ => .free r.arg i

/-- The release binding of a source port. -/
def relOf (rs : List IRec) (slot : Nat) (e : CEnd) : Option Word :=
  (findRec rs tRelb slot e.row e.col e.num).map fun r => r.word 0

/-- The edges of a channel. -/
def chanEdges (rs : List IRec) (r : IRec) : List IEdge :=
  let src := r.source
  let rate : Nat × Nat × Bool := match (if src.kind = 0 then findPort rs r.slot src.row src.col src.num else none) with
    | none => (1, 1, false)
    | some (_, w) => match relOf rs r.slot src with
      | some b => (relTokens b, relFirings b, true)
      | none => (pwCount w, 1, false)
  let carry := src.kind == 1 && (match findRec rs tOper r.slot src.row src.col (src.num / 4) with
    | some o => owKind (o.word 0) == 2
    | none => false)
  (List.range r.branches.length).filterMap fun i => (r.branches[i]?).map fun e =>
    let need := match (if e.kind = 0 then findPort rs r.slot e.row e.col e.num else none) with
      | some (_, w) => pwCount w
      | none => if e.kind = 1 then 1 else 0
    { chan := r, x := nodeOf rs r 0 src, y := nodeOf rs r (i + 1) e, into := e.num, rn := rate.1, rd := rate.2.1, n := need
      d := branchDepth rs r.slot e, init := initCount rs r.slot r.arg + (if carry then 1 else 0), out := src.kind == 0, rel := rate.2.2 }

/-- The CHAN records in increasing channel number. -/
def insertChan (r : IRec) : List IRec → List IRec
  | [] => [r]
  | x :: xs => if r.arg < x.arg ∨ (r.arg = x.arg ∧ r.slot < x.slot) then r :: x :: xs else x :: insertChan r xs

def chanRecs (rs : List IRec) : List IRec := (rs.filter (·.typ == tChan)).foldl (fun l r => insertChan r l) []

def slotEdges (rs : List IRec) (slot : Nat) : List IEdge := ((chanRecs rs).filter (·.slot == slot)).flatMap (chanEdges rs)

/-! Step 3 (R324). -/

/-- Format and size of an end that declares them. -/
def endForm (rs : List IRec) (slot : Nat) (e : CEnd) : Option (Nat × Bool) :=
  if e.isPort then (findPort rs slot e.row e.col e.num).map fun x => pwForm x.2 else none

/-- Whether an operator endpoint is the control endpoint of a STEER. -/
def steerControl (rs : List IRec) (slot : Nat) (e : CEnd) : Bool :=
  e.kind == 1 && e.num % 4 == 1 && (match findRec rs tOper slot e.row e.col (e.num / 4) with
    | some o => owKind (o.word 0) == 0
    | none => false)

/-- The operators that a channel joins at data endpoints. -/
def dataOpers (rs : List IRec) (r : IRec) : List (Nat × Nat × Nat) :=
  (r.ends.filter fun e => e.kind == 1 && !steerControl rs r.slot e).map fun e => (e.row, e.col, e.num / 4)

/-- The channels reached from a list of operators through data endpoints, directly or through other operators. -/
def reachChans (rs cs : List IRec) : Nat → List (Nat × Nat × Nat) → List IRec
  | 0, os => cs.filter fun r => (dataOpers rs r).any fun o => os.any (· == o)
  | n + 1, os => reachChans rs cs n ((cs.filter fun r => (dataOpers rs r).any fun o => os.any (· == o)).flatMap (dataOpers rs) ++ os).eraseDups

/-- Whether all given formats agree. -/
def agree (l : List (Nat × Bool)) : Bool := match l with
  | [] => true
  | x :: xs => xs.all (· == x)

/-- Step 3: the lowest channel whose ends, or whose operators' data endpoints, disagree, then a port (R324). -/
def formatCheck (s : State) (ws : List Word) (rs : List IRec) : Option CfgFail :=
  let cs := chanRecs rs
  let badChan := cs.find? fun r =>
    let own := r.ends.filterMap (endForm rs r.slot)
    let near := (reachChans rs (cs.filter (·.slot == r.slot)) cs.length (dataOpers rs r)).flatMap fun x =>
      (x.ends.filterMap (endForm rs x.slot))
    !(agree own) || (!(dataOpers rs r).isEmpty && !agree near)
  match badChan with
  | some r => some (failChan cfgFormat r)
  | none => firstSome (fun (r : IRec) => if r.typ ≠ tPorts then none else
      firstSome (fun (t : Nat × Nat) => firstSome (fun p =>
        let w := r.word p
        let ord := pwOrd w && (match AMap.get? s.otable (pwOsn w) with
          | some (h :: _) => h.getLsbD 55 != pwLine w || fld h 54 51 != pwFmt w
          | _ => true)
        let rel := match findRec rs tRelb r.slot t.1 t.2 p with
          | some b => fld (b.word 0) 13 10 != pwFmt w
          | none => false
        if pwV w && (ord || rel) then some (CfgFail.mk cfgFormat 6 t.1 t.2 p) else none) (upto 32)) (recTiles ws r)) rs

/-! Step 4 (R325). -/

def boundsCheck (ws : List Word) (rs : List IRec) : Option CfgFail :=
  firstSome (fun (r : IRec) =>
    if r.typ = tStream ∧ !(descOk (r.body.take 8) && decide (((r.word 8).toNat : Int) ≤ descLo (r.body.take 8))
      && decide (descHi (r.body.take 8) ≤ ((r.word 9).toNat : Int))) then
      (recTiles ws r).head?.map fun t => CfgFail.mk cfgBounds 3 t.1 t.2 r.arg
    else none) rs

/-! Step 5 (R326). -/

/-- A node's repetition number as a fraction. -/
abbrev Ratio := Nat × Nat

def getQ (q : List (INode × Ratio)) (n : INode) : Option Ratio := (q.find? fun p => p.1 == n).map (·.2)

/-- One pass of propagation over the edges in order. -/
def passQ : List IEdge → List (INode × Ratio) → List (INode × Ratio)
  | [], q => q
  | e :: es, q => match getQ q e.x, getQ q e.y with
    | some a, none => passQ es ((e.y, (a.1 * e.rn, a.2 * e.rd * e.n)) :: q)
    | none, some b => passQ es ((e.x, (b.1 * e.n * e.rd, b.2 * e.rn)) :: q)
    | _, _ => passQ es q

/-- Propagation until every node has its number; a new component starts at 1. -/
def solveQ (es : List IEdge) : Nat → List (INode × Ratio) → List (INode × Ratio)
  | 0, q => q
  | n + 1, q =>
    let q1 := passQ es q
    if q1.length ≠ q.length then solveQ es n q1
    else match es.find? fun e => (getQ q e.x).isNone with
      | some e => solveQ es n ((e.x, (1, 1)) :: q)
      | none => q

def balanced (q : List (INode × Ratio)) (e : IEdge) : Bool := match getQ q e.x, getQ q e.y with
  | some a, some b => a.1 * e.rn * b.2 == b.1 * e.n * a.2 * e.rd
  | _, _ => true

/-- Step 5 on a slot: the first channel that pairs room 0 with a need, or whose equation conflicts. -/
def rateCheck (es : List IEdge) : Option IEdge :=
  let zero := fun (e : IEdge) => e.out && !e.rel && e.rn == 0
  let need0 := fun (e : IEdge) => (match e.y with
    | .actor _ _ _ => e.n == 0
    | _ => false)
  match es.find? fun e => zero e != need0 e with
  | some e => some e
  | none =>
    let eqs := es.filter fun e => !e.x.isFree && !e.y.isFree && e.rn != 0 && e.n != 0
    let q := solveQ eqs (2 * eqs.length + 2) []
    eqs.find? fun e => !balanced q e

/-! Step 6 (R327). -/

/-- The nodes reached along edges within n steps. -/
def reachNodes (es : List IEdge) : Nat → List INode → List INode
  | 0, ns => ns
  | n + 1, ns => reachNodes es n (ns ++ (es.filter fun e => ns.any (· == e.x)).map (·.y)).eraseDups

/-- The lowest channel on a cycle that no initial tokens break. -/
def loopCheck (es : List IEdge) : Option IEdge :=
  let blk := es.filter fun e => !e.x.isFree && !e.y.isFree && decide (e.init < e.n)
  blk.find? fun e => (reachNodes blk blk.length [e.y]).any (· == e.x)

/-! Step 7 (R328, R329). -/

/-- A branch too short for its need or for a firing's room (R328). -/
def shortBranch (e : IEdge) : Bool := decide (e.d < e.n + e.init) || (e.out && decide (e.d * e.rd < e.rn))

/-- A branch that carries no tokens lies on no path (R329). -/
def carries (e : IEdge) : Bool := e.rn != 0 && e.n != 0 && !e.y.isFree

/-- The simple paths that go on from a node not yet passed, each as its edges. -/
def pathsFrom (es : List IEdge) : Nat → INode → List INode → List (List IEdge)
  | 0, _, _ => []
  | k + 1, u, seen => (es.filter fun e => e.x == u && !seen.any (· == e.y)).flatMap fun e =>
    [e] :: (pathsFrom es k e.y (e.y :: seen)).map fun p => e :: p

def holdOf (rs : List IRec) (slot : Nat) (n : INode) : Nat := match n with
  | .actor row col a => match findActor rs slot row col a with
    | some r => awHold r
    | none => 0
  | _ => 0

/-- rF(P) (R329). -/
def leaveRate (e : IEdge) : Nat := match e.x with
  | .oper _ _ _ => 1
  | _ => e.rn

/-- Demand along a path given from its last edge to its first (R329). -/
def demand (rs : List IRec) (slot : Nat) : Nat → List IEdge → Nat
  | t, [] => t
  | t, e :: es =>
    let t1 := t - e.init
    if t1 = 0 then 0
    else match es with
      | [] => t1
      | p :: _ => match e.x with
        | .actor _ _ _ => demand rs slot (max (holdOf rs slot e.x) (ceilDiv (t1 * e.rd) e.rn * p.n)) es
        | _ => demand rs slot t1 es

def slotsOf (p : List IEdge) : Nat := p.foldl (fun n e => n + (e.d - e.init)) 0

/-- Φ(P) (R329). -/
def phiOf (rs : List IRec) (slot : Nat) (p : List IEdge) : Nat := match p.getLast?, p.head? with
  | some l, some f => ceilDiv (demand rs slot l.n p.reverse) (max (leaveRate f) 1)
  | _, _ => 0

/-- Whether a node is a fork: a multicast source, or two or more outputs that carry rates (R329). -/
def isFork (es : List IEdge) (u : INode) : Bool :=
  let out := es.filter fun e => e.x == u && e.rn != 0
  decide (2 ≤ (out.map (·.chan.arg)).eraseDups.length) || out.any fun e => decide (2 ≤ (out.filter fun x => x.chan.arg == e.chan.arg).length)

/-- Whether a node is a join: two or more counted inputs (R329). -/
def isJoin (es : List IEdge) (u : INode) : Bool :=
  !u.isFree && decide (2 ≤ ((es.filter fun e => e.y == u && e.n != 0).map (·.into)).eraseDups.length)

/-- The first channel of a path pair whose slots fall short (R329). -/
def pairFault (rs : List IRec) (slot : Nat) (ps : List (List IEdge)) : Option IEdge :=
  firstSome (fun (p : List IEdge) => firstSome (fun (q : List IEdge) => match p.head?, q.head?, p.getLast?, q.getLast? with
    | some a, some b, some c, some d =>
      if a ≠ b ∧ c.y = d.y ∧ c.into ≠ d.into ∧ slotsOf p < leaveRate a * phiOf rs slot q then some a else none
    | _, _, _, _ => none) ps) ps

/-- Step 7 on a slot (R328, R329); the ordered inputs between the two rules are checked over the whole image. -/
def forkCheck (rs : List IRec) (slot : Nat) (es : List IEdge) : Option IEdge :=
  let on := es.filter carries
  firstSome (fun u => if isFork es u then
      pairFault rs slot ((pathsFrom on (on.length + 1) u [u]).filter fun p => match p.getLast? with
        | some e => isJoin es e.y
        | none => false)
    else none) (es.map (·.x)).eraseDups

/-- An ordered input too short for its senders' credits (R274). -/
def orderedShort (s : State) (w : Word) : Bool := pwV w && pwOrd w && !pwOut w && (match AMap.get? s.otable (pwOsn w) with
  | some (h :: _) => decide (pwDepth w < (fld h 46 41 + 1) * (fld h 50 47 + 1))
  | _ => false)

def orderedCheck (s : State) (ws : List Word) (rs : List IRec) : Option CfgFail :=
  firstSome (fun (r : IRec) => if r.typ ≠ tPorts then none else
    firstSome (fun (t : Nat × Nat) => firstSome (fun p =>
      if orderedShort s (r.word p) then some (CfgFail.mk cfgUnder 6 t.1 t.2 p) else none) (upto 32)) (recTiles ws r)) rs

/-- The first slot, in order, at which a check on its graph fails. -/
def onSlots (rs : List IRec) (code : Nat) (f : Nat → List IEdge → Option IEdge) : Option CfgFail :=
  firstSome (fun slot => (f slot (slotEdges rs slot)).map fun e => failChan code e.chan) (upto 4)

/-- Steps 1 to 7 of R322 in order: the first failure. -/
def stageCheck (s : State) (ws : List Word) : Option CfgFail :=
  let rs := imgRecs ws
  firstSome (fun (f : Unit → Option CfgFail) => f ()) [
    fun _ => sigCheck s ws,
    fun _ => shapeCheck s ws rs,
    fun _ => formatCheck s ws rs,
    fun _ => boundsCheck ws rs,
    fun _ => onSlots rs cfgRate fun _ es => rateCheck es,
    fun _ => onSlots rs cfgLoop fun _ es => loopCheck es,
    fun _ => onSlots rs cfgUnder fun _ es => es.find? shortBranch,
    fun _ => orderedCheck s ws rs,
    fun _ => onSlots rs cfgUnder (forkCheck rs)]

/-! Step 8 (R308, R309, R330, R397, R420). -/

/-- The field index of a logical position (R13). -/
def fieldOf (tile : Nat) : Nat := tile / 144 / 12 * 12 + tile % 144 / 12

/-- The member tiles of a group of an image placed at a region. -/
def groupTiles (s : State) (ws : List Word) (g : Region) (n : Nat) : List Nat :=
  let rs := (imgRecs ws).filter fun r => r.typ == tActor && (r.word 0).getLsbD 63 && (awGroups r).any (· == n)
  (rs.flatMap (recTiles ws)).eraseDups.map fun p => s.regionTile g p.1 p.2

/-- The lowest band of R309 that some fields meet. -/
def bandOf (fs : List Nat) : Nat :=
  let spread := fun (l : List Nat) => (l.foldl max 0) - ((leastOf l).getD 0)
  if fs.eraseDups.length ≤ 1 then 0
  else if spread (fs.map (· / 12)) ≤ 2 ∧ spread (fs.map (· % 12)) ≤ 2 then 1
  else 2

/-- The enabled fields of an entry. -/
def fieldsOf (w0 w1 : Word) : List Nat := (upto 84).filter fun i => if i < 64 then w0.getLsbD i else w1.getLsbD (i - 64)

/-- A GROUP record's entry, completed at the region when no field is enabled (R420), with the residency number set. -/
def groupEntry (s : State) (ws : List Word) (g : Region) (r : IRec) (resid : Nat) : Word × Word :=
  let w0 := r.word 0
  let w1 := r.word 1
  let set := fun (w : Word) => w ||| BitVec.ofNat 64 (resid * 2 ^ 20)
  if w0 = 0 ∧ fld w1 19 0 = 0 then
    let fs := ((groupTiles s ws g r.arg).map fieldOf).eraseDups
    let x0 : Nat := fs.foldl (fun n f => if f < 64 then n + 2 ^ f else n) 0
    let x1 : Nat := fs.foldl (fun n f => if f < 64 then n else n + 2 ^ (f - 64)) 0
    (BitVec.ofNat 64 x0, set ((w1 &&& ~~~(3#64 <<< 54)) ||| BitVec.ofNat 64 (x1 + bandOf fs * 2 ^ 54)))
  else (w0, set w1)

/-- The checks of R308 on an entry. -/
def groupOk (s : State) (ws : List Word) (g : Region) (n : Nat) (e : Word × Word) : Bool :=
  let fs := fieldsOf e.1 e.2
  (groupTiles s ws g n).all (fun t => fs.any (· == fieldOf t)) && fld e.2 55 54 == bandOf fs

/-- Step 8 at a region: groups, then host-channel ends (R330, R397). -/
def placeCheck (s : State) (ws : List Word) (g : Region) (b : Block) : Option CfgFail :=
  let rs := imgRecs ws
  let bad := (rs.filter (·.typ == tGroup)).find? fun r => !groupOk s ws g r.arg (groupEntry s ws g r 0)
  match bad with
  | some r => some ⟨cfgShape, 5, 0, 0, r.arg⟩
  | none => ((chanRecs rs).find? fun r => r.ends.any fun e =>
      (e.kind == 3 && !(decide (e.num < b.inum) && decide (b.ifirst + e.num < 32)))
        || (e.kind == 4 && !(decide (e.num < b.onum) && decide (1 ≤ b.ofirst + e.num) && decide (b.ofirst + e.num < 32)))).map fun r => failChan cfgShape r

/-- The group numbers that an image declares (R61). -/
def imgGroups (ws : List Word) : List Nat := ((imgRecs ws).filter (·.typ == tGroup)).map (·.arg)

end Sys2Proof.Machine
end

