-- ==== Sys2Proof/Machine/Tokens.lean ====
section
/-!
DEFINITION. Tokens under way: forks, arrival at a queue, credits, BANK tokens (02 R35, R39, R40, R42, R43, 04 R114, 10 R265,
14 R348, 17 R398).
-/

namespace Sys2Proof.Machine

/-- Whether the accesses that a token waits for have performed (R222). -/
def flightReady (s : State) (f : Flight) : Bool :=
  f.after.all fun p => match AMap.get? (s.tile p.1).reqs p.2 with
    | none => true
    | some q => q.performed

def Chan.setBranch (c : Chan) (i : Nat) (b : Branch) : Chan := { c with branches := setAt c.branches i b }

/-- A token as the mesh delivers it: POISON where a group of its handshakes cannot be corrected, with what payload the spec does not state
(R381). -/
def Flight.received (f : Flight) (s : State) : Flight := if f.bad then { f with tok := { f.tok with kind := .poison, payload := s.freeLine } } else f

/-- FORK_FORWARD: the oldest token at the fork goes on to every branch; its room on each was taken when it was put (R39). -/
def execForkForward (chan : Nat) (s : State) : Out :=
  match s.chan? chan with
  | none => .next s
  | some c => match c.forkQ with
    | [] => .next s
    | f :: rest =>
      .next (s.setChan chan { c with
        forkQ := rest, branches := c.branches.map fun b => { b with flights := b.flights ++ [f] } })

/-- What an input port makes of a token: kind, payload, scale byte, and whether its XE8 block is bad (R42, R114). A token that is not
DATA has the port's SCALE, and a bad block's POISON what the decoder made of it (DESIGN CHOICE, log entry 97: the spec states neither). -/
def portDecode (x : Port) (tok : Token) : TokKind × Line × Byte × Bool :=
  if x.fmt = 14 ∧ tok.kind = .data then
    let d := xe8Decode (lineBytes tok.payload)
    (if d.ok then .data else .poison, bytesLine (d.elems.map (BitVec.ofNat 8)), d.scale, !d.ok)
  else (tok.kind, tok.payload, x.scale, false)

/-- A token enters the queue slot of its SEQ (R40, R42). -/
def Tile.placeToken (t : Tile) (p n : Nat) (tok : Token) : Tile :=
  let x := t.port p
  let d := portDecode x tok
  let bs := if x.line then lineBytes d.2.1 else leBytes 8 d.2.1.toNat
  let y : QSlot :=
    { kind := d.1, line := tok.line, round := tok.round, resid := tok.resid, seq := n, port := p, scale := d.2.2.1
      ohdr := tok.ohdr }
  (t.writeTlm (x.slotAddr n) bs).setPort p { x with q := AMap.set x.q n y }

/-- An inert input of an actor (R43). -/
def Port.inert (x : Port) : Bool := x.stream.isNone && x.count == 0 && !x.output

/-- Tokens at an inert input are discarded as they come to its head (R43). -/
def discardInert (tile p : Nat) : Nat → State → State
  | 0, s => s
  | n + 1, s =>
    let x := (s.tile tile).port p
    if (AMap.get? x.q x.h).isSome then discardInert tile p n (s.takeSlots tile p 1) else s

/-- A token arrives at a port: it is placed, and what the port discards goes (R40, R43, R48, R49). -/
def deliver (s : State) (tile p n : Nat) (tok : Token) : State :=
  let x := (s.tile tile).port p
  let s1 := s.updTile tile fun t => t.placeToken p n tok
  let s2 := if (portDecode x tok).2.2.2 then s1.countOpErr (s.handleOf tile) else s1
  let s3 := if x.inert then discardInert tile p (x.depth + 1) s2 else drainPort tile p (x.depth + 1) s2
  s3.moved (s.handleOf tile)

/-- The header of a token (R35). -/
def headerOf (tok : Token) : BitVec 48 :=
  tok.resid ++ tok.round ++ BitVec.ofNat 8 tok.seq ++ (if tok.line then 1#1 else 0#1) ++ tok.kind.code ++ 0#3 ++ BitVec.ofNat 5 tok.port

/-- A token of another residency is dropped by the router, counted and logged, and returns no credit; the tile monitor reads the count and
the header kept since its last read, and copies both into the residency's error record (R35, R348, R383; log entry 23). -/
def dropToken (s : State) (tile : Nat) (tok : Token) : State :=
  let hdr := headerOf tok
  let s1 := s.updTile tile fun t => { t with dropped := sat32 (t.dropped + 1), dropHdr := some hdr }
  s1.updErr (s.handleOf tile) fun e =>
    { e with drophdr := if e.dropped = 0 then hdr else e.drophdr, dropped := sat32 (e.dropped + 1) }

/-- An outlet queue takes a token; a rise of AVAIL from 0 signals the MSI-X vector of the ports given (R398). -/
def Outlet.place (o : Outlet) (n : Nat) (tok : Token) (scale : Byte) (ports : BitVec 2) : Outlet :=
  let was := (AMap.get? o.q o.h).isSome
  let q := AMap.set o.q n { tok with seq := n, scale := scale }
  { o with q := q, next := max o.next (n + 1), msix := if !was && (AMap.get? q o.h).isSome then ports else o.msix }

def State.outlet (s : State) (n : Nat) : Outlet := AMap.getD s.outlets n Outlet.init

def State.setOutlet (s : State) (n : Nat) (o : Outlet) : State := { s with outlets := AMap.set s.outlets n o }

/-- The ports whose MSIEN word enables vector n. -/
def msixPorts (s : State) (n : Nat) : BitVec 2 :=
  (if (AMap.getD s.msien 0 0).getLsbD n then 1 else 0) ||| (if (AMap.getD s.msien 1 0).getLsbD n then 2 else 0)

/-- A token enters outlet n. -/
def State.placeOutlet (s : State) (n seq : Nat) (tok : Token) : State :=
  s.setOutlet n ((s.outlet n).place seq tok tok.scale (msixPorts s n))

/-- The channel that a mesh egress stream of a port fabric sources: that of the residency which the controller has assigned the stream to
(R406). -/
def egressOf (s : State) (port st : Nat) : Option (Nat × Chan) :=
  s.chans.find? fun c => decide (c.2.src = .fabric port st) && AMap.get? (s.link port).streamResid (16 + st) == some c.2.resid.toNat

/-- That channel, where it takes tokens: the residency runs and no snapshot has stopped it (R376). -/
def egressChan (s : State) (port st : Nat) : Option (Nat × Chan) := match egressOf s port st with
  | some c => if s.running c.2.handle && !(s.resOf c.2.handle).snapping then some c else none
  | none => none

/-- A token leaves the fabric by an egress stream with room, with a header of the residency that the stream is assigned to (R35,
R406; log entry 100). -/
def egressPut (s : State) (id : Nat) (c : Chan) (t : Token) : State :=
  (s.setChan id (c.put t.kind t.payload t.round [])).moved c.handle

/-- The first token that waits at an egress stream goes in when there is room. -/
def egressNext (s : State) (port st : Nat) : State :=
  match AMap.getD (s.link port).egress st [], egressChan s port st with
  | t :: rest, some (id, c) =>
    if c.room = 0 then s
    else egressPut (s.setLink port { s.link port with egress := AMap.set (s.link port).egress st rest }) id c t
  | _, _ => s

/-- The channel whose room a credit of a channel raises: that of its source port, where a carried port now sources another one with
the same branch (R54). -/
def creditChan (s : State) (chan branch : Nat) (c : Chan) : Nat :=
  match c.src with
  | .port k p =>
    let x := (s.tile k).port p
    match x.chan with
    | some n => if x.carried && ((s.chan? n).bind (·.branches[branch]?)).isSome then n else chan
    | none => chan
  | _ => chan

/-- One more unit of room on a branch. -/
def State.giveRoom (s : State) (chan branch : Nat) : State :=
  match s.chan? chan with
  | none => s
  | some c => match c.branches[branch]? with
    | none => s
    | some b => s.setChan chan (c.setBranch branch { b with room := b.room + 1 })

/-- CREDIT_RETURN: a freed slot's credit reaches the sender (R39). -/
def execCreditReturn (chan branch : Nat) (s : State) : Out :=
  match s.chan? chan with
  | none => .next s
  | some c => match c.branches[branch]? with
    | none => .next s
    | some b =>
      if b.back = 0 then .next s
      else
        let s1 := (s.setChan chan (c.setBranch branch { b with back := b.back - 1 })).giveRoom (creditChan s chan branch c) branch
        .next (match c.src with
          | .fabric l st => egressNext s1 l st
          | _ => s1)

/-- An operator's input register takes a token (R53). -/
def Oper.accept (o : Oper) (endp : Nat) (tok : Token) : Oper :=
  if endp = 0 then { o with in0 := some tok } else { o with in1 := some tok }

def Tile.oper (t : Tile) (n : Nat) : Option Oper := AMap.get? t.slot.opers n

def Tile.setOper (t : Tile) (n : Nat) (o : Oper) : Tile :=
  t.setSlot { t.slot with opers := AMap.set t.slot.opers n o }

/-- Whether a branch's end is in force: the active slot's port, or operator endpoint, belongs to the channel (R54). -/
def endLive (s : State) (chan branch : Nat) (d : End) : Bool :=
  match d with
  | .port t p | .stream t p => ((s.tile t).port p).chan == some chan && ((s.tile t).port p).branch == branch
  | .oper t _ e => match (AMap.vals (s.tile t).slot.opers).find? fun o => AMap.get? o.chans e == some chan with
    | some _ => true
    | none => false
  | _ => true

/-- A token taken off its branch. -/
def Chan.land (c : Chan) (branch seq : Nat) : Chan :=
  match c.branches[branch]? with
  | none => c
  | some b => c.setBranch branch { b with flights := b.flights.filter fun f => f.tok.seq != seq }

/-- Whether the branch's token of a SEQ can arrive: the ends that keep no queue slots by SEQ take tokens in order. -/
def canLand (s : State) (b : Branch) (seq : Nat) : Bool :=
  let first := !b.flights.any fun f => decide (f.tok.seq < seq)
  match b.dst with
  | .oper t o e => first && (match (s.tile t).oper o with
    | some x => if e = 0 then x.in0.isNone else x.in1.isNone
    | none => false)
  | .fabric _ _ => first
  | _ => true

/-- BANK_TRANSFER: a BANK token at the head gives its bank to the receiving actor and is removed (R36, R265). -/
def execBankTransfer (tile port : Nat) (s : State) : Out :=
  let x := (s.tile tile).port port
  match AMap.get? x.q x.h with
  | none => .next s
  | some y => if y.kind = .bank then .next (s.takeSlots tile port 1) else .next s

end Sys2Proof.Machine
end

