-- ==== Sys2Proof/Machine/Operators.lean ====
section
/-!
DEFINITION. Router operators and the punctuation steps of actors and operators (02 R47 to R49, R52, R53).
-/

namespace Sys2Proof.Machine

/-- The input and output endpoints of an operator (R319). -/
def OperKind.ins : OperKind → List Nat
  | .carry => [0]
  | _ => [0, 1]

def OperKind.outs : OperKind → List Nat
  | .steer => [2, 3]
  | .merge => [2]
  | .carry => [1]

def Oper.input (o : Oper) (e : Nat) : Option Token := if e = 0 then o.in0 else o.in1

/-- The tokens in the input registers, when one stands in each. -/
def Oper.heads (o : Oper) : Option (List Token) := (o.kind.ins).mapM o.input

/-- Whether every output has room for a token (R52). -/
def operRoom (s : State) (o : Oper) : Bool :=
  o.kind.outs.all fun e => match (AMap.get? o.chans e).bind s.chan? with
    | some c => decide (1 ≤ c.room)
    | none => true

/-- An operator that may act: its residency runs, and it is not held, ended or discarding. -/
def operOpen (s : State) (tile : Nat) (o : Oper) : Bool :=
  s.running (s.handleOf tile) && !o.held && !o.ended && decide (o.drain0 = .no) && decide (o.drain1 = .no)

/-- A put on an endpoint's channel; a forwarded token keeps its ROUND (R52). -/
def operPut (s : State) (o : Oper) (e : Nat) (k : TokKind) (payload : Line) (status : BitVec 16) (round : Option (BitVec 16)) :
    State :=
  match AMap.get? o.chans e with
  | none => s
  | some n => match s.chan? n with
    | none => s
    | some c =>
      let tok := c.token k payload status c.seq
      let f : Flight := { tok := { tok with round := round.getD tok.round }, after := [] }
      s.setChan n { ((c.takeRoom).enter f) with
        seq := c.seq + 1, rounds := if k = .round then c.rounds + 1 else c.rounds, closed := c.closed || decide (k = .eos) }

/-- The slot of an input register is freed toward its sender (R39). -/
def operFree (s : State) (tile slot : Nat) (o : Oper) (e : Nat) : State :=
  match AMap.get? o.chans e with
  | none => s
  | some n => match s.chan? n with
    | none => s
    | some c => match (List.range c.branches.length).find? fun i => (c.branches[i]?).map (·.dst) == some (.oper tile slot e) with
      | some i => s.freeSlots n i 1
      | none => s

def Oper.clearInput (o : Oper) (e : Nat) : Oper :=
  if e = 0 then { o with in0 := none, h0 := o.h0 + 1 } else { o with in1 := none, h1 := o.h1 + 1 }

/-- The tokens of some inputs are taken. -/
def operTake (s : State) (tile slot : Nat) (o : Oper) (es : List Nat) : State :=
  let s1 := es.foldl (fun s e => operFree s tile slot o e) s
  (s1.updTile tile fun t => t.setOper slot (es.foldl Oper.clearInput o)).moved (s.handleOf tile)

/-- An operator's error: its own count and the residency's (R52, R53). -/
def operError (s : State) (tile slot : Nat) : State :=
  (s.updTile tile fun t => match t.oper slot with
    | some o => t.setOper slot { o with errs := o.errs + 1 }
    | none => t).countOpErr (s.handleOf tile)

/-- Whether an operator of a kind can fire on counted tokens (R52). -/
def operFires (s : State) (tile slot : Nat) (k : OperKind) : Option (Oper × List Token) :=
  match (s.tile tile).oper slot with
  | none => none
  | some o => match o.heads with
    | none => none
    | some hs =>
      if o.kind = k ∧ operOpen s tile o ∧ operRoom s o ∧ hs.all (fun x => counts true x.kind) then some (o, hs) else none

/-- STEER fires (R52). The POISON that it emits carries 0, a payload that the spec does not state (DESIGN CHOICE, log entry 91). -/
def execSteerOp (tile slot : Nat) (s : State) : Out :=
  match operFires s tile slot .steer with
  | some (o, [d, c]) =>
    let s1 := operTake s tile slot o [0, 1]
    let out := if c.payload.getLsbD 0 then 3 else 2
    .next (match c.kind with
      | .data => operPut (operPut s1 o out d.kind d.payload 0 (some d.round)) o (5 - out) .null 0 0 none
      | .null => operPut (operPut s1 o 2 .null 0 0 none) o 3 .null 0 0 none
      | _ => operError (operPut (operPut s1 o 2 .poison 0 0 none) o 3 .poison 0 0 none) tile slot)
  | _ => .next s

/-- MERGE fires (R52). The POISON that two DATA give carries 0, a payload that the spec does not state (DESIGN CHOICE, log entry 91). -/
def execMergeOp (tile slot : Nat) (s : State) : Out :=
  match operFires s tile slot .merge with
  | some (o, [a, b]) =>
    let s1 := operTake s tile slot o [0, 1]
    let pass := fun (x : Token) => operPut s1 o 2 x.kind x.payload 0 none
    .next (match a.kind, b.kind with
      | .poison, _ => pass a
      | _, .poison => pass b
      | .data, .data => operError (operPut s1 o 2 .poison 0 0 none) tile slot
      | .data, _ => pass a
      | _, .data => pass b
      | _, _ => operPut s1 o 2 .null 0 0 none)
  | _ => .next s

/-- CARRY's initial token as a payload. -/
def Oper.initLine512 (o : Oper) : Line := o.init.setWidth 512

/-- CARRY: its initial token first, then each token as it comes, a NULL replaced where the slot says so (R52). -/
def execCarryOp (tile slot : Nat) (s : State) : Out :=
  match (s.tile tile).oper slot with
  | none => .next s
  | some o =>
    if o.kind = .carry ∧ o.emitted = false ∧ operOpen s tile o ∧ operRoom s o then
      let s1 := operPut s o 1 .data o.initLine512 0 none
      .next ((s1.updTile tile fun t => t.setOper slot { o with emitted := true }).moved (s.handleOf tile))
    else if o.emitted = false then .next s
    else match operFires s tile slot .carry with
      | some (o, [x]) =>
        let s1 := operTake s tile slot o [0]
        .next (if x.kind = .null ∧ o.nullRep then operPut s1 o 1 .data o.initLine512 0 none
          else operPut s1 o 1 x.kind x.payload 0 none)
      | _ => .next s

/-! Punctuation at an operator: a round-aligned actor without handlers (R52). -/

/-- The step that an operator's input registers call for. -/
def operStep (s : State) (tile slot : Nat) : Option Punct :=
  match (s.tile tile).oper slot with
  | none => none
  | some o => match o.heads with
    | none => none
    | some hs =>
      let p := punctOf (hs.map fun x => match x.kind with
        | .eos => (InState.ended, 0)
        | .round => (InState.atRound, 0)
        | _ => (InState.ready, 1))
      if operOpen s tile o && (decide (p = some .rndMis) || operRoom s o) && (decide (o.kind ≠ .carry) || o.emitted) then p
      else none

/-- An input register that discards gives up its token, as its drain says (R48, R49). -/
def operDrain (s : State) (tile slot : Nat) (e : Nat) : State :=
  match (s.tile tile).oper slot with
  | none => s
  | some o =>
    let d := if e = 0 then o.drain0 else o.drain1
    let stop := fun (o : Oper) => if e = 0 then { o with drain0 := .no } else { o with drain1 := .no }
    match d, o.input e with
    | .no, _ | _, none => s
    | .toEos, some x => operTake s tile slot (if x.kind = .eos then stop o else o) [e]
    | .toRound, some x =>
      if x.kind = .eos ∨ x.kind = .round then s.updTile tile fun t => t.setOper slot (stop o) else operTake s tile slot o [e]

/-- Channel numbers from here on name the tokens that a freed residency left under way, by their place. -/
def strayBase : Nat := 4194304

/-- A token of a freed residency reaches its tile: another residency's router drops it (R348), and at a tile without one it vanishes. -/
def strayArrival (s : State) (chan : Nat) : State :=
  if chan < strayBase then s
  else match s.strays[chan - strayBase]? with
    | none => s
    | some (k, tok) =>
      let s1 := { s with strays := s.strays.eraseIdx (chan - strayBase) }
      if (s.tile k).slot.resid = 0 ∨ (s.tile k).slot.resid = tok.resid then s1 else dropToken s1 k tok

/-- TOKEN_ARRIVAL: the token of a SEQ reaches the end of its branch (R35, R39, R40, R348, R398, R406). -/
def execTokenArrival (chan branch seq : Nat) (s0 : State) : Out :=
  match s0.chan? chan with
  | none => .next (strayArrival s0 chan)
  | some c => match c.branches[branch]? with
    | none => .next s0
    | some b => match b.flights.find? fun f => f.tok.seq == seq with
      | none => .next s0
      | some f0 =>
        if endLive s0 chan branch b.dst && flightReady s0 f0 && canLand s0 b seq then
          let s := s0.countEcc c.handle f0.corr (if f0.bad then 1 else 0)
          let f := f0.received s0
          let s1 := s.setChan chan (c.land branch seq)
          let n := seq + b.base
          .next (match b.dst with
            | .port t p | .stream t p =>
              if f.tok.resid ≠ (s.tile t).slot.resid then dropToken s1 t { f.tok with port := p }
              else deliver s1 t p n f.tok
            | .oper t o e =>
              if f.tok.resid ≠ (s.tile t).slot.resid then dropToken s1 t f.tok
              else match (s.tile t).oper o with
                | none => s1
                | some x => (operDrain (s1.updTile t fun y => y.setOper o (x.accept e f.tok)) t o e).moved c.handle
            | .outlet k => (s1.placeOutlet k n f.tok).moved c.handle
            | .fabric l st =>
              let lp := s.link l
              if AMap.get? lp.streamResid st = some f.tok.resid.toNat then
                s1.setLink l { lp with ingress := AMap.set lp.ingress st (AMap.getD lp.ingress st [] ++ [f.tok]) }
              else s1.updErr c.handle fun e => { e with dropped := sat32 (e.dropped + 1) }
            | .inlet _ => s1)
        else .next s0

/-- One token of the hardware on every output of an operator. -/
def operSend (s : State) (o : Oper) (k : TokKind) (status : BitVec 16) : State :=
  o.kind.outs.foldl (fun s e => operPut s o e k 0 status none) s

/-- The hardware's step at an operator (R47 to R49, R52). -/
def operPunct (s : State) (tile slot : Nat) (o : Oper) (p : Punct) : State :=
  let h := s.handleOf tile
  let drains := fun (d : Drain) (ended : Bool) =>
    let s1 := s.updTile tile fun t => t.setOper slot { o with drain0 := d, drain1 := if o.kind = .carry then .no else d, ended := ended }
    o.kind.ins.foldl (fun s e => operDrain s tile slot e) s1
  let status := (firstSome (fun (x : Token) => if x.round = 0 then none else some x.round) (o.heads.getD [])).getD 0
  (match p with
  | .eos => operSend (operTake s tile slot { o with ended := true } o.kind.ins) o .eos status
  | .round => operSend (operTake s tile slot o o.kind.ins) o .round 0
  | .lenMis => operSend ((drains .toEos true).updErr h fun e => { e with lenmis := sat32 (e.lenmis + 1) }) o .eos 0x19
  | .rndMis => (drains .toRound false).updErr h fun e => { e with rndmis := sat32 (e.rndmis + 1) }).moved h

/-- A step of an actor or operator, if it is the one the hardware can take. -/
def nodeStep (s : State) (tile : Nat) (node : Node) (p : Punct) : State :=
  match node with
  | .actor a => actorStep s tile a p
  | .oper i =>
    if operStep s tile i = some p then
      match (s.tile tile).oper i with
      | some o => operPunct s tile i o p
      | none => s
    else s

/-- ACTOR_END (R47). -/
def execActorEnd (tile : Nat) (node : Node) (s : State) : Out := .next (nodeStep s tile node .eos)

/-- LENGTH_MISMATCH (R48). -/
def execLengthMismatch (tile : Nat) (node : Node) (s : State) : Out := .next (nodeStep s tile node .lenMis)

/-- ROUND_PASS (R49). -/
def execRoundPass (tile : Nat) (node : Node) (s : State) : Out := .next (nodeStep s tile node .round)

/-- ROUND_MISMATCH (R49). -/
def execRoundMismatch (tile : Nat) (node : Node) (s : State) : Out := .next (nodeStep s tile node .rndMis)

end Sys2Proof.Machine
end

