-- ==== Sys2Proof/Machine/Ordered.lean ====
section
/-!
DEFINITION. Stroke time on the tiles, and the ordered class (11 R269 to R288, 17 R401).
-/

namespace Sys2Proof.Machine

/-! Synchronisation waves (R270, R272). -/

/-- SYNC_WAVE_EMIT: the reference sends a wave every 1,024 ticks; a tile that the last one has not reached has missed it. -/
def execSyncWaveEmit (s : State) : Out :=
  let due := s.lastWave + 1024
  if s.refTime < due then .next s
  else .next { s with
    lastWave := due
    tiles := AMap.mapVals s.tiles fun _ t =>
      if t.lastWave = s.lastWave then t else { t with missed := t.missed + 1, goodWaves := 0 } }

/-- SYNC_WAVE: the tile compares its count with the reference and will slew the difference (R270); an unsynchronised tile is
synchronised again after two waves in a row with its error below one tick (R272). The wave's delay is calibrated, so its time plus
the delay is the reference's time at arrival (log entry 7). -/
def execSyncWave (tile : Nat) (s : State) : Out :=
  if (s.tile tile).lastWave = s.lastWave ∨ s.refTime < s.lastWave + Config.waveDelay tile then .next s
  else
    let t := (s.tile tile).edge s.now
    let err : Int := (s.refTime : Int) * 2 ^ 16 - t.count
    let good := t.goodWaves + 1
    .next (s.setTile tile { t with
      timeErr := err, missed := 0, goodWaves := good, lastWave := s.lastWave
      synced := t.synced || (decide (2 ≤ good) && decide (-(2 ^ 16) < err) && decide (err < 2 ^ 16)) })

/-- TRAPVAL of ENGINE_FAULT of OSEND, reason 1 (R286). -/
def osendFault : Word := engVal 0x40 1

/-- UNSYNCHRONISED: four waves in a row have missed the tile; its count runs on without correction, and the loss is reported to its tile
monitor (R272). -/
def execUnsynchronised (tile : Nat) (s : State) : Out :=
  let t := s.tile tile
  if 4 ≤ t.missed ∧ t.synced then
    .next (s.setTile tile { t with synced := false, timeErr := 0, reports := t.reports ++ [(codeEngineFault, osendFault, 0)] })
  else .next s

/-! Nodes (R276 to R278): node n below 12,096 is the router of logical tile n, with its injection port as input 0; node 65,536 + p
is link port p, with the link as input 0; what leads to node 131,072 + p leaves by link port p (log entry 25). -/

def linkNode (port : Nat) : Nat := 65536 + port
def wireNode (port : Nat) : Nat := 131072 + port

def State.onode (s : State) (n : Nat) : ONode := AMap.getD s.onodes n ⟨[], []⟩

def State.setOnode (s : State) (n : Nat) (x : ONode) : State := { s with onodes := AMap.set s.onodes n x }

def isRouter (n : Nat) : Bool := decide (n < 12096)

/-- Stroke time at a node. -/
def nodeTime (s : State) (n : Nat) : Nat := if isRouter n then s.timeOf n else s.refTime

def ohdrOf (m : Token) : OHdr := m.ohdr.getD ⟨0, 0, 0, 0, 0, 0⟩

/-- A message's key is less than another's (R275). -/
def keyLess (a b : Token) : Bool :=
  let x := ohdrOf a
  let y := ohdrOf b
  if x.stamp ≠ y.stamp then decide (x.stamp.toNat < y.stamp.toNat)
  else if x.module ≠ y.module then decide (x.module < y.module)
  else if x.tile ≠ y.tile then decide (x.tile.toNat < y.tile.toNat)
  else decide (x.seq < y.seq)

/-- W of an input: the injection port's is the stamp of its oldest unsent message, or TIME (R277). -/
def inputW (s : State) (n i : Nat) : Word :=
  if isRouter n && i == 0 then match (s.tile n).inject with
    | m :: _ => (ohdrOf m).stamp
    | [] => BitVec.ofNat 64 (s.timeOf n)
  else (AMap.getD (s.onode n).inputs i OInput.init).w

/-- W of an input is set from an arriving message or beacon (R277). -/
def setInputW (s : State) (n i : Nat) (w : Word) : State :=
  let x := s.onode n
  let old := AMap.getD x.inputs i OInput.init
  let new := if old.w = w then old else { old with w := w, since := nodeTime s n, reported := false }
  s.setOnode n { x with inputs := AMap.set x.inputs i new }

/-- The least-keyed message queued at an output. -/
def leastMsg : List (Nat × Token) → Option (Nat × Token)
  | [] => none
  | x :: xs => match leastMsg xs with
    | none => some x
    | some y => some (if keyLess y.2 x.2 then y else x)

/-- Whether a snapshot has stopped ejection of a stream into a tile: its ordered input holds its marker (R374, R376). -/
def ejectStopped (s : State) (n : Nat) (o : OOutput) (m : Token) : Bool :=
  o.next.isNone && (s.tile n).slot.ports.any fun p => !p.2.output && p.2.ordered && p.2.osn == (ohdrOf m).osn && p.2.marker.isSome

/-- The message that an output may forward now (R278). -/
def canForward (s : State) (n : Nat) (o : OOutput) : Option (Nat × Token) :=
  match leastMsg o.q with
  | none => none
  | some x =>
    if ejectStopped s n o x.2 then none
    else if o.feeds.all fun i => o.q.any (fun y => y.1 == i) || decide ((ohdrOf x.2).stamp.toNat < (inputW s n i).toNat) then some x
    else none

/-! Ejection (R275, R278, R280). -/

/-- A token joins an ordered input's queue as its next token (R278). -/
def joinQueue (s : State) (tile p : Nat) (m : Token) : State :=
  let x := (s.tile tile).port p
  let n := max x.oseq x.h
  deliver (s.updTile tile fun t => t.setPort p { x with oseq := n + 1 }) tile p n { m with seq := n, port := p }

/-- The senders that an ordered stream's entry lists (R273). -/
def senderCount (s : State) (osn : Nat) : Nat := match AMap.get? s.otable osn with
  | some (h :: _) => (h.extractLsb' 41 6).toNat + 1
  | _ => 0

/-- A sender's EOS is held; with one of every sender, the input's EOS takes the first nonzero status in key order (R280). -/
def holdEos (s : State) (tile p : Nat) (m : Token) : State :=
  let x := (s.tile tile).port p
  let held := x.eosHeld ++ [ohdrOf m]
  let sts := x.eosStatus ++ [m.round]
  if held.length < senderCount s x.osn then s.updTile tile fun t => t.setPort p { x with eosHeld := held, eosStatus := sts }
  else
    let st := (sts.find? (· != 0)).getD 0
    joinQueue (s.updTile tile fun t => t.setPort p { x with eosHeld := [], eosStatus := [] }) tile p
      { m with payload := st.setWidth 512, round := st, ohdr := none }

/-- A message leaves by the local ejection: into each ordered input whose binding names its OSN, or dropped and logged (R275). -/
def eject (s : State) (tile : Nat) (m : Token) : State :=
  let ps := (s.tile tile).slot.ports.filter fun p => p.2.declared && !p.2.output && p.2.ordered && p.2.osn == (ohdrOf m).osn
  if ps.isEmpty then dropToken s tile m
  else ps.foldl (fun s p => if m.kind = .eos then holdEos s tile p.1 m else joinQueue s tile p.1 m) s

/-- An OSEND's message has left the tile's router: its tag is set and its token sent (R286). -/
def injectLeft (s : State) (n : Nat) (m : Token) : State :=
  let h := ohdrOf m
  if isRouter n && h.module == s.module && h.tile == (s.tileWord n).setWidth 22
      && !(s.onode n).outputs.any (fun o => o.q.any fun y => (ohdrOf y.2).seq == h.seq && y.1 == 0) then
    match (s.tile n).injectDue.find? fun d => d.seq == h.seq with
    | none => s
    | some d => (s.updTile n fun t => { t with injectDue := t.injectDue.filter fun e => e.seq != h.seq }).opDone n d.task d.actor d.tag d.tok
  else s

/-- A message leaves an output: to the next node, by a link, or ejected (R278). -/
def forwardMsg (s : State) (n k : Nat) (o : OOutput) (x : Nat × Token) : State :=
  let node := s.onode n
  let s1 := s.setOnode n { node with outputs := setAt node.outputs k { o with q := o.q.erase x } }
  let s2 := match o.next with
    | none => eject s1 n x.2
    | some (n', i') =>
      if wireNode 0 ≤ n' then s1.sendFlit (n' - wireNode 0) 2 3 0 (.ordered x.2 (decide (x.2.kind = .eos)))
      else { s1 with oflights := s1.oflights ++ [⟨n', i', some x.2, (ohdrOf x.2).stamp⟩] }
  injectLeft s2 n x.2

/-- An output forwards what it may, message by message (R278). -/
def forwardOut (n k : Nat) : Nat → State → State
  | 0, s => s
  | fuel + 1, s => match (s.onode n).outputs[k]? with
    | none => s
    | some o => match canForward s n o with
      | none => s
      | some x => forwardOut n k fuel (forwardMsg s n k o x)

/-- Every output of a node forwards what it may. -/
def forwardNode (s : State) (n : Nat) : State :=
  (List.range (s.onode n).outputs.length).foldl (fun s k => match (s.onode n).outputs[k]? with
    | none => s
    | some o => forwardOut n k o.q.length s) s

/-- A message on an input is queued for every output that the input feeds and that leads to its stream. -/
def queueMsg (s : State) (n i : Nat) (m : Token) : State :=
  let x := s.onode n
  let add := fun (o : OOutput) => if o.feeds.any (· == i) && o.osns.any (· == (ohdrOf m).osn) then { o with q := o.q ++ [(i, m)] } else o
  s.setOnode n { x with outputs := x.outputs.map add }

/-- The first flight to an input of a node, and the flights without it. -/
def nextFlight (n i : Nat) : List OFlight → Option (OFlight × List OFlight)
  | [] => none
  | f :: fs =>
    if f.node = n ∧ f.input = i then some (f, fs)
    else match nextFlight n i fs with
      | none => none
      | some (x, rest) => some (x, f :: rest)

/-- The messages of residencies move their regions (R311). -/
def movedMsg (s : State) (m : Token) : State :=
  match (AMap.keys s.res).find? fun h => (s.resOf h).resid == m.resid && decide ((s.resOf h).state = .running) with
  | some h => s.moved h
  | none => s

/-- ORDERED_MESSAGE_ARRIVAL: an ordered message arrives at an input, from the injection port for input 0 of a router; W follows, and
what may be forwarded is (R277, R278). -/
def execOrderedMessageArrival (node input : Nat) (s : State) : Out :=
  if isRouter node ∧ input = 0 then
    match (s.tile node).inject with
    | [] => .next s
    | m :: rest =>
      let s1 := s.updTile node fun t => { t with inject := rest, lastSent := s.timeOf node }
      .next (injectLeft (forwardNode (queueMsg (movedMsg s1 m) node 0 m) node) node m)
  else
    match nextFlight node input s.oflights with
    | some (f, rest) => match f.msg with
      | none => .next s
      | some m =>
        let s1 := setInputW { s with oflights := rest } node input (ohdrOf m).stamp
        .next (forwardNode (queueMsg (movedMsg s1 m) node input m) node)
    | none => .next s

/-- BEACON: a beacon on its way to an input arrives (R277). -/
def execBeacon (node input : Nat) (w : Word) (s : State) : Out :=
  match nextFlight node input s.oflights with
  | some (f, rest) =>
    if f.msg = none ∧ f.w = w then .next (forwardNode (setInputW { s with oflights := rest } node input w) node) else .next s
  | none => .next s

/-- The injection port's beacon: its router sees W (R277, R287). -/
def injectionBeacon (s : State) (tile : Nat) : State :=
  forwardNode (s.updTile tile fun t => { t with lastSent := s.timeOf tile }) tile

/-- IDLE_BEACON: an injection port that has sent nothing for 256 ns (R277). -/
def execIdleBeacon (tile : Nat) (s : State) : Out :=
  if (s.tile tile).lastSent + 1024 ≤ s.timeOf tile then .next (injectionBeacon s tile) else .next s

/-- A router output's watermark: the least W of its feeding inputs and stamp of its queued messages (R277). -/
def outputW (s : State) (n : Nat) (o : OOutput) : Word :=
  (o.feeds.map (inputW s n) ++ o.q.map fun x => (ohdrOf x.2).stamp).foldl (fun a b => if a.toNat ≤ b.toNat then a else b) (BitVec.allOnes 64)

/-- Whether an output owes a beacon: its watermark has advanced, and 16 ns have passed since its last (R277). -/
def beaconDue (s : State) (n : Nat) (o : OOutput) : Bool :=
  o.next.isSome && decide (o.lastW.toNat < (outputW s n o).toNat) && decide (o.lastBeacon + 64 ≤ nodeTime s n)

/-- BEACON_FORWARD: each output of a node that owes a beacon sends it (R277). -/
def execBeaconForward (node : Nat) (s : State) : Out :=
  .next ((List.range (s.onode node).outputs.length).foldl (fun s k => match (s.onode node).outputs[k]? with
    | none => s
    | some o =>
      if beaconDue s node o then
        let w := outputW s node o
        let x := s.onode node
        let s1 := s.setOnode node { x with outputs := setAt x.outputs k { o with lastW := w, lastBeacon := nodeTime s node } }
        match o.next with
        | none => s1
        | some (n', i') =>
          if wireNode 0 ≤ n' then s1.sendFlit (n' - wireNode 0) 3 3 0 (.beacon w)
          else { s1 with oflights := s1.oflights ++ [⟨n', i', none, w⟩] }
      else s) (forwardNode s node))

/-! OWM_STALL (R282). -/

/-- The stall interval at a node: a router's tile holds it (R288). -/
def stallTicks (s : State) (n : Nat) : Nat := if isRouter n then max 4096 ((s.tile n).owmTimeout.toNat % 2 ^ 32) else 0x13880

/-- The outputs at which a message waits on an input's watermark. -/
def stalledOuts (s : State) (n i : Nat) : List OOutput :=
  (s.onode n).outputs.filter fun o => o.feeds.any (· == i) && !o.q.any (fun y => y.1 == i) && (match leastMsg o.q with
    | some x => decide ((inputW s n i).toNat ≤ (ohdrOf x.2).stamp.toNat)
    | none => false)

/-- The residency whose messages carry a number. -/
def handleOfResid (s : State) (r : BitVec 12) : Option Nat := (AMap.keys s.res).find? fun h =>
  (s.resOf h).resid == r && (decide ((s.resOf h).state = .running) || decide ((s.resOf h).state = .armed))

/-- The least stamp of a list of messages. -/
def leastStamp (ms : List (Nat × Token)) : Word := ((leastMsg ms).map fun x => (ohdrOf x.2).stamp).getD 0

/-- The tile whose monitor hears of a stall at a node: a router's own; of a link port, that of the router its output leads to (log
entry 25). -/
def stallTile (s : State) (n : Nat) : Option Nat :=
  if isRouter n then some n
  else firstSome (fun (o : OOutput) => match o.next with
    | some (k, _) => if isRouter k then some k else none
    | none => none) (s.onode n).outputs

/-- A monitor records OWM_STALL of a port in a residency's error record, as its first (R282, R364, R383). -/
def State.recordStall (s : State) (tile h : Nat) (port : Word) : State := match (s.resOf h).region with
  | none => s
  | some g => s.updErr h fun e =>
    if s.inRegion g tile then e.note codeOwmStall (relPos g s.rects tile).1 (relPos g s.rects tile).2 0 0 0 port
    else e.note codeOwmStall 0 0 0 0 0 port

/-- What a stall's tile monitor does: it hears of the port and the least waiting stamp, records the fault, and sends a fault token, for
each residency with a message waiting there (R282, R384). -/
def stallSeen (s : State) (n input : Nat) (ms : List (Nat × Token)) : State :=
  let port : Word := BitVec.ofNat 64 (if isRouter n then input else n - linkNode 0)
  let hs := (ms.filterMap fun y => handleOfResid s y.2.resid).eraseDups
  let s1 := match stallTile s n with
    | none => s
    | some k => hs.foldl (fun s h => s.recordStall k h port)
      (s.updTile k fun t => { t with reports := t.reports ++ [(codeOwmStall, port, leastStamp ms)] })
  hs.foldl (fun s h => s.faultToken h (BitVec.ofNat 64 (0x12 + port.toNat % 256 * 256))) s1

/-- OWM_STALL: W of a feeding input has stood still for OWMTIMEOUT while a message waits (R282, R384). -/
def execOwmStall (node input : Nat) (s : State) : Out :=
  let x := s.onode node
  let i := AMap.getD x.inputs input OInput.init
  let outs := stalledOuts s node input
  if (isRouter node && input == 0) || i.reported || outs.isEmpty || decide (nodeTime s node < i.since + stallTicks s node) then .next s
  else
    .next (stallSeen (s.setOnode node { x with inputs := AMap.set x.inputs input { i with reported := true } }) node input (outs.flatMap (·.q)))

/-! OSEND and OWM (R284 to R287). -/

def portVal (f : EW) : Word := BitVec.ofNat 64 f.c.toNat

/-- OSEND's checks of R245 and R284 on its port. -/
def osendPort (s : State) (f : EW) : Try Port := do
  chanWho s f.c.toNat
  let p ← chanPort s f.c.toNat true
  trapIf (!p.ordered) codePortMisuse (portVal f)
  trapIf (p.line != f.imm.getLsbD 0) codePortMisuse (portVal f)
  putCount s f.c.toNat p
  pure p

/-- What an OSEND carries: the value, or the 64 B at k[a]; POISON when a word read is uncorrectable or poisoned (R248, R286). -/
def osendPayload (s : State) (f : EW) (line : Bool) : Try (State × TokKind × Line) :=
  if line then
    let c := s.me.readK f.a
    let a := c.addr.toNat
    match tlmCheck (grantOf s s.cur.tile s.me) c a 64 64 [.r] with
    | some x => .error (.trap x.1 x.2)
    | none =>
      let k := if (s.here.badWord a 64).isSome then TokKind.poison else TokKind.data
      .ok (s.setHere (s.here.touchRead a 64), k, s.here.readLine a)
  else .ok (s, .data, (s.me.readW f.a).setWidth 512)

/-- OSEND (R286). -/
def execOsend (f : EW) (s : State) : Out :=
  finishTry s (do
    guardK s [f.d, f.a] [f.a] [f.d]
    let p ← osendPort s f
    putReady s f.c.toNat
    if p.line then tlmReady s else pure ()
    let r ← osendPayload s f p.line
    trapIf (!s.here.synced) codeEngineFault osendFault
    let s1 ← claimTag r.1 f.tag
    let s2 ← claimToken s1 (f.tok == 1)
    let seq := s2.here.tileSeq.toNat
    let s3 := injectOrdered s2 s.cur.tile f.c.toNat r.2.1 r.2.2 0
    let s4 := s3.setHere { s3.here with injectDue := s3.here.injectDue ++ [⟨seq, s.me.actor, s.me.task, f.tag, f.tok == 1⟩] }
    let c := (s4.me.bump f.c.toNat).writeInt f.d s4.here.lastStamp
    pure ((s4.setMe c).complete 8))

/-- The node output that ejects into a tile. -/
def ejection (s : State) (tile : Nat) : Option OOutput := (s.onode tile).outputs.find? fun o => o.next.isNone

/-- The least stamp that an ordered input can still eject (R287 SEL 0). -/
def leastEject (s : State) (tile : Nat) : Word := match ejection s tile with
  | none => 0
  | some o => outputW s tile o

/-- What OWM reads; SEL 2 and 3 with no token there are values the spec does not state (log entry 26). -/
def owmValue (s : State) (p : Port) (port sel : Nat) : Word :=
  let head := AMap.get? p.q (p.headAfter (AMap.getD (firingDonec s.here s.me) port 0))
  match sel with
  | 0 => if p.output then p.lastStamp else leastEject s s.cur.tile
  | 1 => match head.bind (·.ohdr) with
    | some h => h.stamp
    | none => BitVec.allOnes 64
  | 2 => match head.bind (·.ohdr) with
    | some h => BitVec.ofNat 64 (h.module * 2 ^ 22 + h.tile.toNat)
    | none => Config.freeWord s.steps
  | 3 => match head.bind (·.ohdr) with
    | some h => BitVec.ofNat 64 h.seq
    | none => Config.freeWord s.steps
  | _ => BitVec.ofNat 64 (s.timeOf s.cur.tile)

/-- OWM (R287). -/
def execOwm (f : EW) (s : State) : Out :=
  finishTry s (do
    guardK s [f.d] [] [f.d]
    let p := s.here.port f.c.toNat
    let sel := f.imm.toNat
    let kind := if sel = 0 then true else if sel = 4 then p.output else !p.output
    trapIf (!(p.declared && p.ordered && kind) || decide (s.me.role = .team)) codePortMisuse (portVal f)
    let s1 := if sel = 4 then injectionBeacon s s.cur.tile else s
    pure ((s1.setMe (s1.me.writeInt f.d (owmValue s p f.c.toNat sel))).complete 8))

end Sys2Proof.Machine
end

