-- ==== Sys2Proof/Machine/RcUnit.lean ====
section
/-!
DEFINITION. Configuration slots: loading one from an image, switching to one, and the RC instructions (02 R54, 13 R314 to R320,
R334 to R337).
-/

namespace Sys2Proof.Machine

/-! Loading a slot (R317 to R320, R336). -/

/-- The number of a channel of the module: by control block, slot and channel number. -/
def chanId (h slot num : Nat) : Nat := (h * 4 + slot) * 4096 + num

/-- The channel that a port of a slot sources or ends, and the branch (R319). -/
def portChan (rs : List IRec) (h slot row col p : Nat) : Option (Nat × Nat) :=
  firstSome (fun (r : IRec) =>
    if r.typ = tChan ∧ r.slot = slot then
      match (List.range r.ends.length).find? fun i => match r.ends[i]? with
        | some e => e.isPort && e.row == row && e.col == col && e.num == p
        | none => false with
      | some i => some (chanId h slot r.arg, i - 1)
      | none => none
    else none) rs

/-- Credits of an ordered output: one count per receiver of its entry (R273, R274). -/
def orderedCredits (s : State) (w : Word) : List Nat :=
  if pwOrd w && pwOut w then match AMap.get? s.otable (pwOsn w) with
    | some (h :: _) => List.replicate (fld h 40 37 + 1) (fld h 50 47 + 1)
    | _ => []
  else []

/-- A port as its word declares it (R317). -/
def loadPort (s : State) (rs : List IRec) (h slot row col p : Nat) (w : Word) : Port :=
  let c := portChan rs h slot row col p
  { Port.blank with
    declared := true, output := pwOut w, line := pwLine w, fmt := BitVec.ofNat 4 (pwFmt w), scale := w.extractLsb' 49 8
    depth := pwDepth w, count := pwCount w, actor := pwActor w, carried := pwCarried w, compl := w.getLsbD 32, bankp := pwBank w
    ordered := pwOrd w, osn := pwOsn w, qaddr := pwQ w, stream := (findStream rs slot row col p).map (·.arg)
    chan := c.map (·.1), branch := (c.map (·.2)).getD 0
    relb := (findRec rs tRelb slot row col p).map fun r => r.word 0, credits := orderedCredits s w }

/-- An actor as its words declare it (R318). -/
def loadActor (r : IRec) : Actor :=
  let w0 := r.word 0
  let w1 := r.word 1
  let opt := fun (bit lo : Nat) => if w1.getLsbD bit then some (BitVec.ofNat 48 (4 * fld w1 (lo + 19) lo)) else none
  { Actor.blank with
    declared := true, prio := fld w0 62 59, roundA := w0.getLsbD 58, nullP := w0.getLsbD 57, hold := fld w0 56 41
    regs := fld w0 40 35 + 1, help := fld w0 34 31, entry := BitVec.ofNat 48 (fld w0 21 0), eosH := opt 62 0, rndH := opt 61 20
    misH := opt 60 40, stOff := fld (r.word 2) 43 22, stLen := fld (r.word 2) 21 0, scOff := fld (r.word 3) 43 22
    scLen := fld (r.word 3) 21 0, grant := awGrant r, groups := awGroups r, inForce := awGrant r }

/-- An operator slot with the channels of its endpoints (R319, R320). -/
def loadOper (rs : List IRec) (h slot row col : Nat) (r : IRec) : Oper :=
  let k : OperKind := if owKind (r.word 0) = 0 then .steer else if owKind (r.word 0) = 1 then .merge else .carry
  let chans := (upto 4).foldl (fun m e =>
    match rs.find? fun x => x.typ == tChan && x.slot == slot && x.ends.any (· == ⟨1, row, col, 4 * r.arg + e⟩) with
    | some x => AMap.set m e (chanId h slot x.arg)
    | none => m) ([] : AMap Nat)
  { kind := k, nullRep := (r.word 0).getLsbD 61, init := r.word 1, emitted := false, in0 := none, in1 := none, h0 := 0, h1 := 0
    marker0 := none, marker1 := none, drain0 := .no, drain1 := .no, chans := chans, errs := 0, ended := false, held := false }

/-- A stream as the image configures it (R315, R320). -/
def loadStream (r : IRec) : Stream :=
  { Stream.blank with configured := true, desc := r.body.take 8, lo := (r.word 8).setWidth 48, hi := (r.word 9).setWidth 48 }

/-- The configuration slot of a tile as the slot-bound records that address it declare it (R336). -/
def loadSlot (s : State) (rs : List IRec) (h slot row col : Nat) (resid : BitVec 12) : Slot :=
  let mine := rs.filter fun r => r.slotBound && r.slot == slot && r.on row col
  let ports := (upto 32).foldl (fun m p => match findPort rs slot row col p with
    | some (_, w) => AMap.set m p (loadPort s rs h slot row col p w)
    | none => m) ([] : AMap Port)
  let of := fun (typ : Nat) => mine.filter (·.typ == typ)
  { state := .loaded, resid := resid, handle := h, words := mine.foldl (fun n r => n + r.body.length) 0, ports := ports
    actors := ((of tActor).filter fun r => (r.word 0).getLsbD 63).foldl (fun m r => AMap.set m r.arg (loadActor r)) []
    opers := (of tOper).foldl (fun m r => AMap.set m r.arg (loadOper rs h slot row col r)) []
    streams := (of tStream).foldl (fun m r => AMap.set m r.arg (loadStream r)) [] }

/-- A BANK, LTAB or LWIRE record written to its tile (R315, R336). -/
def loadRec (t : Tile) (r : IRec) : Tile :=
  if r.typ = tBank then
    let b := r.arg / 2 ^ 16 % 16
    let t1 := t.writeTlm (b * 2 ^ 18 + r.arg % 2 ^ 15 * 8) (r.body.flatMap fun w => leBytes 8 w.toNat)
    { t1 with
      exec := if r.arg.testBit 15 then t1.exec ||| (1#16 <<< b) else t1.exec
      placed := t1.placed ||| (1#16 <<< b) }
  else if r.typ = tLtab then
    { t with fabric := (List.range r.body.length).foldl (fun f i => f.setTable (r.arg + i) (r.word i) false) t.fabric }
  else if r.typ = tLwire then
    let n := r.arg % 2 ^ 9 + 1
    let c := r.arg / 2 ^ 9 % 4
    let cells := (upto n).foldl (fun m j => AMap.set m j (r.word (2 * j + 1) ++ r.word (2 * j))) ([] : AMap (BitVec 128))
    let f := { t.fabric with
      wiring := AMap.set t.fabric.wiring c ⟨n, cells⟩, pCells := NSet.eraseRange t.fabric.pCells (512 * c) (512 * c + 512) }
    { t with fabric := f }
  else t

/-- The scratch of an actor is zero before its first firing (R51). -/
def zeroScratch (t : Tile) (a : Actor) : Tile := if a.scLen = 0 then t else t.writeTlm a.scOff (List.replicate a.scLen 0)

/-- The tile's membership slots as its ACTOR records name them (R61, R308). -/
def loadMembers (rs : List IRec) (row col : Nat) (dead : Bool) : List Member :=
  (((rs.filter fun r => r.typ == tActor && r.on row col && (r.word 0).getLsbD 63).flatMap awGroups).eraseDups).map fun g => ⟨g, dead, 0, 0⟩

/-- RLOAD's writes on a tile: slot `slot`, and with the first role what is not bound to a slot (R336). -/
def Tile.loadFrom (t : Tile) (s : State) (ws : List Word) (h slot row col : Nat) (resid : BitVec 12) : Tile :=
  let rs := imgRecs ws
  let x := loadSlot s rs h slot row col resid
  let t1 := { t with slots := AMap.set t.slots slot x }
  if slot = imgFirst ws then
    let t2 := { t1 with exec := 0, placed := 0, members := loadMembers rs row col !t.alive, role := 0 }
    let t3 := (rs.filter fun r => !r.slotBound && r.on row col).foldl loadRec t2
    (AMap.vals x.actors).foldl zeroScratch t3
  else t1

/-! Switching slots (R54, R335). -/

/-- Whether a carried port goes on with its channel: the next slot joins the same ports, all carried (R54). -/
def keepsChan (s : State) (old new : Option Nat) : Bool :=
  match old.bind s.chan?, new.bind s.chan? with
  | some a, some b =>
    let carried := fun (e : End) => match e with
      | .port t p | .stream t p => (AMap.getD (AMap.getD (s.tile t).slots a.slot Slot.blank).ports p Port.blank).carried
      | _ => true
    decide (a.src = b.src) && decide (a.branches.map (·.dst) = b.branches.map (·.dst)) && carried a.src && a.branches.all fun x => carried x.dst
  | _, _ => false

/-- A carried input whose channel changes: SEQ of the new channel counts from behind the tokens present, which take room there and
none on the channel they came by. -/
def rebase (s : State) (x new : Port) : State :=
  match new.chan with
  | none => s
  | some n => match s.chan? n with
    | none => s
    | some c => match c.branches[new.branch]? with
      | none => s
      | some b =>
        let k := x.q.length
        let s1 := s.setChan n (c.setBranch new.branch { b with base := x.h + k, room := b.room - k })
        match x.chan with
        | some o => s1.freeSlots o x.branch k
        | none => s1

/-- A carried output whose channel changes passes its credits on: what the old channel's counts lack, the new channel's lack from
here on (R54). -/
def passCredits (s : State) (x new : Port) : State :=
  match x.chan.bind s.chan?, new.chan.bind s.chan? with
  | some a, some b =>
    let lack := fun (i : Nat) => (a.branches[i]?).elim 0 fun y => y.depth - y.room
    let s1 := s.setChan (x.chan.getD 0) { a with
      branches := (List.range a.branches.length).filterMap fun i => (a.branches[i]?).map fun y =>
        if (b.branches[i]?).isSome then { y with room := max y.depth y.room } else y }
    s1.setChan (new.chan.getD 0) { b with
      branches := (List.range b.branches.length).filterMap fun i => (b.branches[i]?).map fun y => { y with room := y.room - lack i } }
  | _, _ => s

/-- What a carried queue holds, at the addresses that the incoming slot gives it (R38, R54): address, bytes and whether a word of it is
bad. -/
def queueCopy (t : Tile) (x new : Port) : List (Nat × List Byte × Bool) :=
  let n := if x.line then 64 else 8
  if x.output || x.qaddr == new.qaddr then []
  else x.q.map fun y => (new.slotAddr y.1, leBytes n (t.payload x y.1).toNat, (t.badWord (x.slotAddr y.1) n).isSome)

/-- Queue contents written where the incoming slot's queues lie. -/
def Tile.putQueue (t : Tile) (l : List (Nat × List Byte × Bool)) : Tile :=
  l.foldl (fun t y =>
    let t1 := t.writeTlm y.1 y.2.1
    if y.2.2 then t1.poisonTlm y.1 y.2.1.length else t1) t

/-- The port of the incoming slot that a carried port becomes (R54). -/
def carryPort (x new : Port) (keep : Bool) : Port :=
  let y := { new with h := x.h, q := x.q, drain := x.drain, marker := x.marker, credits := x.credits, lastStamp := x.lastStamp
                      eosHeld := x.eosHeld, eosStatus := x.eosStatus, oseq := x.oseq }
  if keep then { y with chan := x.chan, branch := x.branch } else y

/-- A slot as it becomes active: actors not ended, outputs open (R54). -/
def Slot.fresh (x : Slot) : Slot :=
  { x with
    state := .active
    actors := AMap.mapVals x.actors fun _ a => { a with ended := false, pend := none, fired := false }
    opers := AMap.mapVals x.opers fun _ o => { o with ended := false, drain0 := .no, drain1 := .no }
    ports := AMap.mapVals x.ports fun _ p => { p with closed := false, drain := .no } }

/-- The switch of a tile to a slot (R54): carried ports pass over. -/
def switchSlot (s : State) (tile dest : Nat) : State :=
  let t := s.tile tile
  let old := t.slot
  let new := (AMap.getD t.slots dest Slot.blank).fresh
  let carried := old.ports.filter fun p => p.2.carried && (AMap.get? new.ports p.1).isSome
  let s1 := carried.foldl (fun s p =>
    let n := AMap.getD new.ports p.1 Port.blank
    if keepsChan s p.2.chan n.chan then s else if p.2.output then passCredits s p.2 n else rebase s p.2 n) s
  let moved := carried.flatMap fun p => queueCopy t p.2 (AMap.getD new.ports p.1 Port.blank)
  let ports := carried.foldl (fun m p =>
    let n := AMap.getD new.ports p.1 Port.blank
    AMap.set m p.1 (carryPort p.2 n (keepsChan s p.2.chan n.chan))) new.ports
  let s2 := { s1 with chans := AMap.mapVals s1.chans fun _ c => match c.src with
    | .port k _ | .stream k _ => if k = tile ∧ c.slot = dest ∧ c.handle = new.handle then { c with closed := false } else c
    | _ => c }
  (((AMap.keys old.actors).foldl (fun s a => s.freeFar tile a) s2).updTile tile fun t => t.freeClaims fun _ => true).updTile tile fun t =>
    let old := t.slot
    let slots := AMap.set t.slots t.active { old with state := if old.state = .empty then .empty else .loaded }
    let t1 := ({ t with slots := AMap.set slots dest { new with ports := ports }, active := dest }).putQueue moved
    ((AMap.vals new.actors).filter fun a => decide (a.firings = 0)).foldl zeroScratch t1

/-- Whether the outgoing slot is drained (R54). -/
def slotDrained (t : Tile) : Bool :=
  let x := t.slot
  (AMap.vals x.actors).all (fun a => a.ended && a.live.isNone) && (AMap.vals x.opers).all (fun o => o.in0.isNone && o.in1.isNone)
    && (AMap.vals x.ports).all fun p => p.output || p.carried || p.q.isEmpty

/-- The slot a tile is to switch to: the one a CSLOT waits for, else the next role's (R54, R335). -/
def nextSlot (s : State) (tile : Nat) : Option (Nat × Option (BitVec 6)) :=
  let t := s.tile tile
  match t.switchTo with
  | some x => some x
  | none =>
    if s.running t.slot.handle && decide (t.slot.state = .active) then
      match (s.resOf t.slot.handle).image with
      | none => none
      | some ws => if t.role + 1 < (imgRoles ws).length then some (nthD (imgRoles ws) (t.role + 1) 0, none) else none
    else none

/-- CONFIG_SLOT_SWITCH: the conditions of R54 hold and the tile switches; a CSLOT's tag is set (R335). -/
def execConfigSlotSwitch (tile : Nat) (s : State) : Out :=
  match nextSlot s tile with
  | none => .next s
  | some (dest, tag) =>
    if tag.isSome && dest == (s.tile tile).active then
      .next ((s.updTile tile fun t => { t with switchTo := none }).updTile tile fun t => t.setTaskTag (t.ctx 0).task (tag.getD 0))
    else if slotDrained (s.tile tile) && !(s.tile tile).preReq then
      let s1 := (switchSlot s tile dest).updTile tile fun t =>
        { t with switchTo := none, role := if tag.isNone then t.role + 1 else t.role }
      let s2 := match tag with
        | some g => s1.updTile tile fun t => t.setTaskTag (t.ctx 0).task g
        | none => s1
      .next (s2.moved (s2.handleOf tile))
    else .next s

/-! CSLOT, RLOAD and RQUERY (R334 to R337). -/

/-- TRAPVAL of ENGINE_FAULT of the RC unit (R334). -/
def rcFault (reason : Nat) : Word := engVal 0x70 reason

/-- CSLOT with DISCARD: actors and operators end without handlers or EOS, and queues that are not carried are emptied (R335). -/
def Slot.discard (x : Slot) : Slot :=
  { x with
    actors := AMap.mapVals x.actors fun _ a => { a with ended := true, pend := none, live := none }
    opers := AMap.mapVals x.opers fun _ o => { o with ended := true, in0 := none, in1 := none }
    ports := AMap.mapVals x.ports fun _ p => if p.carried || p.output then p else { p with q := [] } }

/-- The helpers of a tile that run a firing of the discarded slot end with it. -/
def Tile.discardSlot (t : Tile) : Tile :=
  let gone := fun (c : Ctx) => decide (c.role = .primary) || decide (c.role = .started)
  let t1 := { t with
    pend := (upto 11).foldl (fun p n => if gone (t.ctx n) && decide (n ≠ 0) then p &&& ~~~(1#11 <<< n) else p) t.pend
    ctxs := AMap.mapVals t.ctxs fun n c => if n ≠ 0 ∧ gone c then { Ctx.init with mxq := [], dmq := [], lcq := [] } else c
    waiters := t.waiters.filter fun w => !gone w.ctx }
  t1.setSlot t1.slot.discard

/-- CSLOT (R335). -/
def execCslot (f : EW) (s : State) : Out :=
  finishTry s (do
    let dest := f.c.toNat
    let s0 ← claimTag s f.tag
    if dest = s.here.active then
      let s1 ← claimToken s0 (f.tok == 1)
      pure ((s1.opDone s.cur.tile s.me.task s.me.actor f.tag (f.tok == 1)).complete 8)
    else
      trapIf (decide ((AMap.getD s.here.slots dest Slot.blank).state = .empty)) codeEngineFault (rcFault 1)
      stallIf (!f.imm.getLsbD 0 && s.here.switchTo.isSome)
      let s1 ← claimToken s0 (f.tok == 1)
      if f.imm.getLsbD 0 then
        let s2 := switchSlot (s1.setHere s1.here.discardSlot) s.cur.tile dest
        pure ((s2.opDone s.cur.tile s.me.task s.me.actor f.tag (f.tok == 1)).complete 8)
      else pure ((s1.setHere { s1.here with switchTo := some (dest, some f.tag) }).complete 8))

/-- The control block whose staged image lies at a physical address. -/
def stagedAt (s : State) (pa : PAddr) : Option Nat :=
  (AMap.keys s.blocks).find? fun h => (s.block h).image == pa && (s.resOf h).image.isSome

/-- The word indexes of an image that a load of a slot on a tile reads: every header, and the payloads written (R336). -/
def loadReads (ws : List Word) (slot row col : Nat) : List Nat :=
  (imgRecs ws).flatMap fun r =>
    r.index :: (if (if r.slotBound then r.slot == slot else slot == imgFirst ws) && r.on row col then
      (upto r.body.length).map fun i => r.index + 1 + i else [])

/-- A load with its read errors: the slot empty and the result word, or the slot loaded (R336). -/
def loadChecked (s : State) (tile h slot row col : Nat) (resid : BitVec 12) (ws : List Word) : State :=
  let pa := (s.block h).image.toNat
  match (loadReads ws slot row col).find? fun i => s.gBad (pa + 8 * i) 8 with
  | some i =>
    let r := ((imgRecs ws).filter fun r => decide (r.index ≤ i)).getLast?
    let f : CfgFail := ⟨cfgSignature, 1, row, col, (r.map (·.index)).getD 0⟩
    s.updTile tile fun t => { t with slots := AMap.set t.slots slot Slot.blank, lastResult := f.word }
  | none => s.updTile tile fun t => { t.loadFrom s ws h slot row col resid with lastResult := 0 }

/-- The first byte of each further page that an image of n words at va reaches. -/
def imgPages (va : Addr) (n : Nat) : List Nat :=
  (upto ((va.toNat + 8 * n - 1) / 2 ^ 16 - va.toNat / 2 ^ 16)).map fun i => (va.toNat / 2 ^ 16 + i + 1) * 2 ^ 16

/-- R236's translation of the further pages of an image; where one does not go on at the staged image's address, what k[a] names is
not the staged image (R334, reason 4). -/
def pagesIssue (s : State) (va : Addr) (pa : PAddr) (n : Nat) : List Nat → Try State
  | [] => .ok s
  | x :: xs => do
    let p ← transIssue s (BitVec.ofNat 48 x) true false false
    trapIf (decide (p.2.toNat ≠ pa.toNat + (x - va.toNat))) codeEngineFault (rcFault 4)
    pagesIssue p.1 va pa n xs

/-- RLOAD (R336): the load completes with the instruction (log entry 7). -/
def execRload (f : EW) (s : State) : Out :=
  finishTry s (do
    guardK s [f.a, f.b] [f.a, f.b] []
    let c := s.me.readK f.a
    let v := s.me.readW f.b
    let va := c.addr
    trapIf (decide (fld v 63 60 ≠ 0) || decide (fld v 47 16 ≠ 0)) codeEngineFault (rcFault 3)
    trapIf (decide (f.c.toNat = s.here.active) && decide (s.here.slot.state ≠ .empty) && s.running s.here.slot.handle) codeEngineFault
      (rcFault 2)
    orTrap (globalCheck c va.toNat 8 8 [.r])
    let p ← transIssue s va true false false
    match stagedAt p.1 p.2 with
    | none => .error (.trap codeEngineFault (rcFault 4))
    | some h => match (p.1.resOf h).image with
      | none => .error (.trap codeEngineFault (rcFault 4))
      | some ws =>
        orTrap (globalCheck c va.toNat (8 * imgLen ws) 8 [.r])
        let q ← pagesIssue p.1 va p.2 (imgLen ws) (imgPages va (imgLen ws))
        let s1 ← claimTag q f.tag
        let s2 ← claimToken s1 (f.tok == 1)
        let s3 := loadChecked s2 s.cur.tile h f.c.toNat (fld v 15 8) (fld v 7 0) (v.extractLsb' 48 12) ws
        pure ((s3.opDone s.cur.tile s.me.task s.me.actor f.tag (f.tok == 1)).complete 8))

def SlotState.code : SlotState → Nat
  | .empty => 0 | .loading => 1 | .loaded => 2 | .active => 3 | .switching => 4

def RState.code : RState → Nat
  | .queued => 0 | .loading => 1 | .armed => 2 | .running => 3 | .ended => 4 | .held => 5 | .aborted => 6

/-- What RQUERY reads (R337). -/
def rquery (s : State) (slot sel : Nat) : Word :=
  let t := s.here
  let x := AMap.getD t.slots slot Slot.blank
  let r := s.resOf x.handle
  match sel with
  | 0 =>
    let st := if t.switchTo.isSome ∧ slot = t.active then SlotState.switching else x.state
    BitVec.ofNat 64 (st.code * 2 ^ 60 + x.resid.toNat * 2 ^ 48 + x.words % 2 ^ 32)
  | 1 =>
    if x.state = .empty then 0
    else BitVec.ofNat 64 (r.state.code * 2 ^ 60 + r.resid.toNat * 2 ^ 48 + r.gen % 2 ^ 16 * 2 ^ 32 + r.replay % 2 ^ 32)
  | _ => t.lastResult

/-- RQUERY (R337). -/
def execRquery (f : EW) (s : State) : Out :=
  finishTry s (do
    guardK s [f.d] [] [f.d]
    pure ((s.setMe (s.me.writeInt f.d (rquery s f.c.toNat f.imm.toNat))).complete 8))

end Sys2Proof.Machine
end

