-- ==== Sys2Proof/Machine/Mesh.lean ====
section
/-!
DEFINITION. The mesh of physical tiles: their places, their links, and which links are live (01 R13, R14, R17, 16 R386).
-/

namespace Sys2Proof.Machine

/-! Physical tiles (R13, R14). -/

/-- The defect-bitmap index of the physical tile at a wafer-wide physical row and column. -/
def physAt (row col : Nat) : Nat := ((row / 12 * 12 + col / 13) * 12 + row % 12) * 13 + col % 13

def physRow (p : Nat) : Nat := 12 * (p / 1872) + p / 13 % 12
def physCol (p : Nat) : Nat := 13 * (p / 156 % 12) + p % 13

/-- A tile is bad when its defect or retirement bit is set (R391). -/
def Fuses.bad (f : Fuses) (p : Nat) : Bool := NSet.mem f.tileDefect p || NSet.mem f.tileRetired p

/-- A link bit that names no link of the array (R386). -/
def offArray (bit : Nat) : Bool :=
  let r := physRow (bit / 3)
  let c := physCol (bit / 3)
  (bit % 3 == 0 && c == 155) || (bit % 3 == 1 && r == 83) || (bit % 3 == 2 && decide (154 ≤ c)) || decide (39312 ≤ bit)

/-- A link that is not live. -/
def Fuses.linkBad (f : Fuses) (bit : Nat) : Bool :=
  offArray bit || NSet.mem f.linkDefect bit || NSet.mem f.linkRetired bit

/-- The bits of the links of a physical tile with the tiles they lead to: east, south, skip-east, west, north, skip-west (R17, R386). -/
def tileLinks (p : Nat) : List (Nat × Nat) :=
  let r := physRow p
  let c := physCol p
  (if c < 155 then [(3 * p, physAt r (c + 1))] else []) ++ (if r < 83 then [(3 * p + 1, physAt (r + 1) c)] else [])
    ++ (if c < 154 then [(3 * p + 2, physAt r (c + 2))] else []) ++ (if 0 < c then [(3 * physAt r (c - 1), physAt r (c - 1))] else [])
    ++ (if 0 < r then [(3 * physAt (r - 1) c + 1, physAt (r - 1) c)] else [])
    ++ (if 1 < c then [(3 * physAt r (c - 2) + 2, physAt r (c - 2))] else [])

/-- One live hop. -/
def Fuses.hop (f : Fuses) (p q : Nat) : Bool := (tileLinks p).any fun l => l.2 == q && !f.linkBad l.1

/-- What live links reach from the tiles of a frontier, beyond those met already. -/
def Fuses.reach (f : Fuses) : Nat → List Nat → NSet → NSet
  | 0, _, seen => seen
  | _ + 1, [], seen => seen
  | n + 1, front, seen =>
    let r := front.foldl (fun (acc : List Nat × NSet) p => (tileLinks p).foldl (fun acc l =>
      if f.linkBad l.1 || NSet.mem acc.2 l.2 then acc else (l.2 :: acc.1, NSet.insert acc.2 l.2)) acc) ([], seen)
    f.reach n r.1 r.2

end Sys2Proof.Machine
end

