-- ==== Sys2Proof/Machine/Sweep.lean ====
section
/-!
DEFINITION. Sweeps: the record and its checks, the SW instructions, RETIRE, and the events of a launch (02 R55 to R60, 12 R300
to R307).
-/

namespace Sys2Proof.Machine

/-! The record (R55 to R57). -/

def recW (r : List Word) (i : Nat) : Word := nthD r i 0

def recDim (w0 : Word) : Nat := (w0.extractLsb' 48 2).toNat
def recVecs (w0 : Word) : Nat := (w0.extractLsb' 58 3).toNat
def recMaxh (r : List Word) : Nat := ((recW r 3).extractLsb' 7 4).toNat
def recRegs (r : List Word) : Nat := ((recW r 3).extractLsb' 0 7).toNat

/-- The dimensions in the order of ORDER, most significant first (R55). -/
def recOrder (w0 : Word) : List Nat := (upto (recDim w0)).map fun i => (w0.extractLsb' (52 + 2 * i) 2).toNat

/-- Component k of vector j (R55). -/
def recComp (w1 : Word) (j k : Nat) : Int := (w1.extractLsb' (15 * j + 5 * k) 5).toInt

/-- The first nonzero of a list; 0 for none. -/
def firstNonzero : List Int → Int
  | [] => 0
  | x :: xs => if x = 0 then firstNonzero xs else x

/-- The number of the first check of R57 that fails (R301); none when all pass. -/
def recCheck (r : List Word) : Option Nat :=
  let w0 := recW r 0
  let w1 := recW r 1
  let nd := recDim w0
  let vs := upto (recVecs w0)
  if w0.extractLsb' 61 3 ≠ 0 ∨ w0.extractLsb' 50 2 ≠ 0 ∨ w1.extractLsb' 60 4 ≠ 0 ∨ (recW r 2).extractLsb' 56 8 ≠ 0
    ∨ (recW r 3).extractLsb' 11 53 ≠ 0 ∨ recW r 6 ≠ 0 ∨ recW r 7 ≠ 0 then some 1
  else if nd = 0 ∨ recVecs w0 = 0 ∨ 4 < recVecs w0 ∨ recMaxh r = 0 ∨ 10 < recMaxh r ∨ recRegs r = 0 ∨ 64 < recRegs r then some 2
  else if (upto nd).any fun i => recExt w0 i == 0 then some 3
  else if !((upto nd).all fun i => (recOrder w0).any (· == i)) then some 4
  else if vs.any fun j => (upto 3).any fun k => recComp w1 j k == -16 || (decide (nd ≤ k) && recComp w1 j k != 0) then some 5
  else if vs.any fun j => decide (firstNonzero ((recOrder w0).map (recComp w1 j)) ≤ 0) then some 6
  else none

/-- T (R300). -/
def recTeams (w0 : Word) : Nat := recExt w0 0 * recExt w0 1 * recExt w0 2

/-- The index of a team from its linear index (R300). -/
def teamIdx (w0 : Word) (t : Nat) : List Nat :=
  [t % recExt w0 0, t / recExt w0 0 % recExt w0 1, t / (recExt w0 0 * recExt w0 1)]

/-- The linear index of an index in range (R300). -/
def teamLin (w0 : Word) (i : List Int) : Option Nat :=
  if (upto 3).all fun k => decide (0 ≤ nthD i k 0) && decide (nthD i k 0 < recExt w0 k) then
    some ((nthD i 0 0).toNat + recExt w0 0 * ((nthD i 1 0).toNat + recExt w0 1 * (nthD i 2 0).toNat))
  else none

/-- The in-range neighbours of a team along the dependence vectors: predecessors with sign −1, successors with +1 (R58). -/
def teamNear (r : List Word) (sgn : Int) (t : Nat) : List Nat :=
  let w0 := recW r 0
  let i := teamIdx w0 t
  ((upto (recVecs w0)).filterMap fun j =>
    teamLin w0 ((upto 3).map fun k => ((nthD i k 0 : Nat) : Int) + sgn * recComp (recW r 1) j k)).eraseDups

/-- The placement: PROW0, PCOL0, PHEIGHT, PWIDTH (R55). -/
def recPlace (r : List Word) (i : Nat) : Nat := ((recW r 2).extractLsb' (8 * i) 8).toNat

/-- The region-relative position of a team (R56). -/
def teamPos (r : List Word) (t : Nat) : Nat × Nat :=
  let w0 := recW r 0
  let i := teamIdx w0 t
  let f := fun (cyclic : Bool) (x ext p : Nat) => if cyclic then x % p else x * p / ext
  (recPlace r 0 + f ((recW r 2).getLsbD 33) (nthD i 1 0) (recExt w0 1) (recPlace r 2),
    recPlace r 1 + f ((recW r 2).getLsbD 32) (nthD i 0 0) (recExt w0 0) (recPlace r 3))

/-- Whether team t comes before team u in the order of starting (R58). -/
def teamBefore (w0 : Word) (t u : Nat) : Bool :=
  let d := (recOrder w0).map fun k => ((nthD (teamIdx w0 t) k 0 : Nat) : Int) - (nthD (teamIdx w0 u) k 0 : Nat)
  decide (firstNonzero d < 0)

/-- A team joins the released ones in order. -/
def releaseTeam (w0 : Word) (t : Nat) : List Nat → List Nat
  | [] => [t]
  | u :: us => if teamBefore w0 t u then t :: u :: us else u :: releaseTeam w0 t us

/-! The scoreboard (R300). -/

/-- The length of a scoreboard. -/
def boardLen (w0 : Word) : Nat := 64 + 64 * ceilDiv (recTeams w0) 512

/-- The physical address of a byte of a launched sweep's scoreboard. -/
def Sweep.byteAt (w : Sweep) (off : Nat) : Nat :=
  let va := w.sbva.toNat + off
  (nthD w.pages (va / 2 ^ 16 - w.sbva.toNat / 2 ^ 16) 0).toNat + va % 2 ^ 16

def Sweep.header (w : Sweep) : Nat := w.byteAt 0

/-- Whether a team's retire bit is set. -/
def retired (s : State) (w : Sweep) (t : Nat) : Bool := (s.gRead (w.byteAt (64 + t / 8)) 1).testBit (t % 8)

/-- STATE of a header is replaced. -/
def State.boardState (s : State) (pa st : Nat) : State :=
  s.gWrite pa (leBytes 8 (st * 2 ^ 60 + s.gRead pa 8 % 2 ^ 60))

/-! SWEEP (R301). -/

/-- TRAPVAL of ENGINE_FAULT of the SW unit. -/
def swFault (reason : Nat) : Word := engVal 0x60 reason

/-- Translation of each 64 KiB of [va, va + n pages) at issue (R298, R301). -/
def transPages (va : Nat) : Nat → State → Try (State × List PAddr)
  | 0, s => .ok (s, [])
  | n + 1, s =>
    match transIssue s (BitVec.ofNat 48 va) true true false with
    | .error e => .error e
    | .ok (s1, pa) => match transPages (va / 2 ^ 16 * 2 ^ 16 + 2 ^ 16) n s1 with
      | .error e => .error e
      | .ok (s2, ps) => .ok (s2, (pa - BitVec.ofNat 52 (va % 2 ^ 16)) :: ps)

/-- The launching tile's region holds the placement (R57). One without rows or columns holds no team, and is refused (DESIGN CHOICE, log
entry 95: the spec gives PWIDTH and PHEIGHT no range). -/
def placeOk (s : State) (r : List Word) : Bool :=
  match (s.resOf (s.handleOf s.cur.tile)).region with
  | none => false
  | some g => recPlace r 2 != 0 && recPlace r 3 != 0 && decide (recPlace r 0 + recPlace r 2 ≤ g.rows)
    && decide (recPlace r 1 + recPlace r 3 ≤ g.cols)

/-- The placement tiles. -/
def placeTiles (s : State) (r : List Word) : List Nat :=
  match (s.resOf (s.handleOf s.cur.tile)).region with
  | none => []
  | some g => (upto (recPlace r 2)).flatMap fun i => (upto (recPlace r 3)).map fun j =>
    s.regionTile g (recPlace r 0 + i) (recPlace r 1 + j)

/-- The sweep that a SWEEP launches. -/
def newSweep (s : State) (f : EW) (r : List Word) (param : KReg) (pages : List PAddr) (op : Nat) : Sweep :=
  let c := s.me
  let a := s.here.actor c.actor
  let pick := fun (i : Nat) => if s.cur.ctx = 0 then KReg.zero else nthD c.fireK i KReg.zero
  { phase := .launching, tile := s.cur.tile, task := c.task, op := op, actor := c.actor, tag := f.tag, tok := f.tok == 1
    pc := c.pc, resid := s.here.slot.resid, record := r, param := param, k2 := pick 1, k7 := pick 6, regs := recRegs r
    prio := a.prio, grant := a.grant, sbva := (c.readK f.b).addr, pages := pages, tiles := placeTiles s r, accepted := []
    aborts := [], notices := []
    after := (s.here.reqs.filter fun q => q.2.task == c.task && !q.2.performed && decide (homeScope s q.2.pa ≤ 2)).map (·.1) }

/-- SWEEP at issue (R301, R304). -/
def execSweep (f : EW) (s : State) : Out :=
  finishTry s (do
    guardK s [f.a, f.b] [f.a, f.b] []
    trapIf (decide (s.me.role = .team)) codeEngineFault (swFault 2)
    stallIf (tagBusy s s.cur.tile s.me.task f.tag || vmQueued s.me || acquirePending s.here s.me)
    let ka := s.me.readK f.a
    let kb := s.me.readK f.b
    let a := ka.addr.toNat
    orTrap (tlmCheck (grantOf s s.cur.tile s.me) ka a 64 64 [.r])
    match s.here.badWord a 64 with
    | some w => .error (.become (eccTrap s a 64 w))
    | none => pure ()
    let r := readDesc s.here a
    match recCheck r with
    | some n => trapIf true codeSweepCycle (BitVec.ofNat 64 n)
    | none => pure ()
    trapIf (!placeOk s r) codeNameRange ((recW r 2).extractLsb' 0 32 |>.setWidth 64)
    let va := kb.addr.toNat
    let n := boardLen (recW r 0)
    orTrap (globalCheck kb va n 64 [.r, .w])
    let p ← transPages va ((va + n - 1) / 2 ^ 16 - va / 2 ^ 16 + 1) s
    let s1 ← claimToken (p.1.setHere (p.1.here.touchRead a 64)) (f.tok == 1)
    let param : KReg := ⟨s.here.gtag (a + 32), BitVec.ofNat 128 (s.here.readTlm (a + 32) 16)⟩
    let t := s1.here
    let w := newSweep s1 f r param p.2 t.nextOp
    let s2 := s1.setHere ({ t with nextOp := t.nextOp + 1 })
    let s3 := { s2 with sweeps := AMap.set s2.sweeps s2.nextSweep w, nextSweep := s2.nextSweep + 1 }
    pure ((s3.setMe (s3.me.tagClear f.tag)).complete 8))

/-! SWQ and SWABT (R307). -/

/-- A request of an SW instruction at the scoreboard's header. -/
def swRequest (s : State) (o : GOp) (f : EW) (va : Addr) (pa : PAddr) (data : Word) (dest : Option (BitVec 6)) (order : BitVec 2) :
    GReq :=
  { op := o, task := s.me.task, ctxNo := s.cur.ctx, actor := s.me.actor, va := va, pa := pa, n := 8, data := data, cmp := 0
    dest := dest, async := dest.isNone, tok := dest.isNone && f.tok == 1, tag := if dest.isNone then some f.tag else none
    order := order, scope := 2, pc := s.me.pc
    after := (s.here.reqs.filter fun p => ordersBefore s s.me p pa false 2 false).map (·.1)
    performed := false, reply := none, win := false, seq := none, onlyRetry := false, resid := s.here.slot.resid }

/-- The request leaves and the instruction completes. -/
def swSend (s : State) (q : GReq) : State :=
  let t := s.here
  (s.setHere { t with reqs := AMap.set t.reqs t.nextOp q, nextOp := t.nextOp + 1 }).complete 8

/-- The limits of R239. -/
def swHold (s : State) : Bool :=
  decide (16 ≤ ((AMap.vals s.here.reqs).filter fun q => q.task == s.me.task).length) || decide (64 ≤ s.here.reqs.length)

/-- SWQ (R307). -/
def execSwq (f : EW) (s : State) : Out :=
  finishTry s (do
    guardK s [f.d, f.a, f.b] [f.a, f.b] [f.d]
    stallIf (swHold s)
    let c := s.me.readK f.a
    orTrap (globalCheck c c.addr.toNat 64 64 [.r])
    let p ← transIssue s c.addr true false false
    pure (swSend p.1 (swRequest p.1 .swq f c.addr p.2 (s.me.readW f.b) (some f.d) 1)))

/-- SWABT (R307). -/
def execSwabt (f : EW) (s : State) : Out :=
  finishTry s (do
    guardK s [f.a] [f.a] []
    stallIf (swHold s || tagBusy s s.cur.tile s.me.task f.tag)
    let c := s.me.readK f.a
    orTrap (globalCheck c c.addr.toNat 64 64 [.r, .w])
    let p ← transIssue s c.addr true true false
    let s1 ← claimToken p.1 (f.tok == 1)
    let q := swRequest s1 .swabt f c.addr p.2 (s1.here.slot.resid.setWidth 64) none 0
    pure (swSend (s1.setMe (s1.me.tagClear f.tag)) q))

/-! Halting a sweep's teams (R306). -/

/-- The teams of a sweep on a tile are halted and discarded, and its slot is emptied of released teams. -/
def Tile.dropTeams (t : Tile) (slot : Nat) : Tile :=
  let mine := fun (c : Ctx) => decide (c.role = .team) && c.sweepSlot == slot && decide (c.mode ≠ .free)
  let t1 := { t with
    pend := (upto 11).foldl (fun p n => if mine (t.ctx n) then p &&& ~~~(1#11 <<< n) else p) t.pend
    ctxs := AMap.mapVals t.ctxs fun _ c => if mine c then c.freed else c
    waiters := t.waiters.filter fun w => !mine w.ctx }
  match AMap.get? t.sweepSlots slot with
  | none => t1
  | some x => { t1 with sweepSlots := AMap.set t1.sweepSlots slot { x with released := [], running := [], counts := [] } }

/-- The sweep slot of a tile that a sweep holds. -/
def Tile.slotOfSweep (t : Tile) (n : Nat) : Option Nat := (t.sweepSlots.find? fun p => p.2.sweep == n).map (·.1)

/-- Every placement tile halts its teams of the sweep. -/
def haltSweep (s : State) (n : Nat) (w : Sweep) : State :=
  w.tiles.foldl (fun s k => s.updTile k fun t => match t.slotOfSweep n with
    | some i => t.dropTeams i
    | none => t) s

def State.setSweep (s : State) (n : Nat) (w : Sweep) : State := { s with sweeps := AMap.set s.sweeps n w }

/-- The sweep's slots are freed, and it is over. -/
def freeSweep (s : State) (n : Nat) (w : Sweep) : State :=
  let s1 := w.tiles.foldl (fun s k => s.updTile k fun t =>
    { t with sweepSlots := t.sweepSlots.filter fun p => p.2.sweep != n }) s
  { s1 with sweeps := AMap.erase s1.sweeps n }

/-- SWEEP's tag is set and its token sent (R303). -/
def sweepTag (s : State) (w : Sweep) : State := s.opDone w.tile w.task w.actor w.tag w.tok

/-- A failure that the launching context takes at the observation of the tag or at DONE (R301). -/
def sweepTrap (s : State) (w : Sweep) (code : Byte) (val : Word) : State :=
  s.updTile w.tile fun t => t.updTask w.task fun c => { c with lates := c.lates ++ [lateTag code val w.pc w.tag true] }

/-- SWABT at the header's home: whether it changes nothing, or a launch is in progress and the abort begins, or STATE 3 is
written at once (R307). -/
def abortPerform (s : State) (tile id : Nat) (q : GReq) : State × Option Reply :=
  let h := s.gRead q.pa.toNat 8
  if h / 2 ^ 60 = 1 ∧ h / 2 ^ 48 % 2 ^ 12 = q.data.toNat then
    match s.sweeps.find? fun p => p.2.header == q.pa.toNat && (decide (p.2.phase = .accepting) || decide (p.2.phase = .running)
      || decide (p.2.phase = .aborting)) with
    | some (n, w) => ((haltSweep s n w).setSweep n { w with phase := .aborting, notices := [], aborts := w.aborts ++ [(tile, id)] }, none)
    | none => (s.boardState q.pa.toNat 3, some .ack)
  else (s, some .ack)

/-! Events of a launch. -/

/-- SWEEP_LAUNCH: step 1 at the scoreboard's home (R301). -/
def execSweepLaunch (sweep : Nat) (s : State) : Out :=
  match AMap.get? s.sweeps sweep with
  | none => .next s
  | some w =>
    let ready := w.after.all fun id => match AMap.get? (s.tile w.tile).reqs id with
      | none => true
      | some q => q.performed
    if w.phase = .launching ∧ ready then
      let a := w.header
      let h := s.gRead a 8
      let st := h / 2 ^ 60
      let same := s.gRead (a + 8) 8 == (recW w.record 0).toNat && s.gRead (a + 16) 8 == (recW w.record 1).toNat
      let s0 := s.moved (s.handleOf w.tile)
      if s.gBad a 24 then .next (sweepTag (sweepTrap (freeSweep s0 sweep w) w codePoison (w.sbva.setWidth 64)) w)
      else if st = 0 ∨ ((st = 2 ∨ st = 3 ∨ st = 4) ∧ same) then
        let s1 := s0.gWrite a (leBytes 8 (2 ^ 60 + w.resid.toNat * 2 ^ 48 + (h + 1) % 2 ^ 32))
        let s2 := (s1.gWrite (a + 8) (leBytes 8 (recW w.record 0).toNat)).gWrite (a + 16) (leBytes 8 (recW w.record 1).toNat)
        .next (s2.setSweep sweep { w with phase := .accepting })
      else
        let f := if st = 1 then (codeEngineFault, swFault 1) else (codeSweepCycle, 7)
        .next (sweepTag (sweepTrap (freeSweep s0 sweep w) w f.1 f.2) w)
    else .next s

/-- The teams of a placement tile. -/
def tileTeams (s : State) (w : Sweep) (tile : Nat) : List Nat :=
  match (s.resOf (s.handleOf w.tile)).region with
  | none => []
  | some g => (upto (recTeams (recW w.record 0))).filter fun t =>
    let p := teamPos w.record t
    s.regionTile g p.1 p.2 == tile

/-- The sweep slot of a tile rebuilt from the retire bits: counts of unretired predecessors, and the teams released, other than those
that still run, whose RETIRE has not completed (R301, R302, R306). -/
def rebuildSlot (s : State) (n : Nat) (w : Sweep) (tile : Nat) (run : List Nat) : SweepSlot :=
  let gone := fun (t : Nat) => retired s w t && !run.any (· == t)
  let ts := (tileTeams s w tile).filter fun t => !gone t
  let count := fun (t : Nat) => ((teamNear w.record (-1) t).filter fun p => !gone p).length
  { sweep := n, left := ts.length, running := ts.filter fun t => run.any (· == t)
    counts := (ts.filter fun t => count t != 0).foldl (fun m t => AMap.set m t (count t)) []
    released := (ts.filter fun t => count t == 0 && !run.any (· == t)).foldl (fun r t => releaseTeam (recW w.record 0) t r) [] }

/-- The teams of a sweep that run on its placement tiles. -/
def runningTeams (s : State) (n : Nat) (w : Sweep) : List Nat := w.tiles.flatMap fun k => match (s.tile k).slotOfSweep n with
  | none => []
  | some i => ((AMap.get? (s.tile k).sweepSlots i).map (·.running)).getD []

/-- A restored sweep: every tile's counts and released teams again from the bitmap (R60, R306). -/
def rebuildSweep (s : State) (n : Nat) (w : Sweep) : State :=
  let run := runningTeams s n w
  w.tiles.foldl (fun s k => match (s.tile k).slotOfSweep n with
    | none => s
    | some i => s.updTile k fun t => { t with sweepSlots := AMap.set t.sweepSlots i (rebuildSlot s n w k run) }) s

/-- SWEEP_LAUNCH_TOKEN: a placement tile with a free sweep slot accepts; the last acceptance lets teams run (R301). -/
def execSweepLaunchToken (sweep tile : Nat) (s : State) : Out :=
  match AMap.get? s.sweeps sweep with
  | none => .next s
  | some w =>
    let t := s.tile tile
    match (upto 4).find? fun i => (AMap.get? t.sweepSlots i).isNone with
    | none => .next s
    | some i =>
      if w.phase = .accepting ∧ w.tiles.any (· == tile) ∧ !w.accepted.any (· == tile) then
        let s1 := s.setTile tile { t with sweepSlots := AMap.set t.sweepSlots i (rebuildSlot s sweep w tile []) }
        let acc := w.accepted ++ [tile]
        .next ((s1.setSweep sweep { w with
          accepted := acc, phase := if w.tiles.all (fun k => acc.any (· == k)) then .running else .accepting }).moved
            (s.handleOf w.tile))
      else .next s

/-- RETIRE_NOTICE: a notice lowers a successor's count, and releases it at 0 (R58, R302). -/
def execRetireNotice (sweep team : Nat) (s : State) : Out :=
  match AMap.get? s.sweeps sweep with
  | none => .next s
  | some w =>
    if w.phase = .running ∧ w.notices.any (· == team) then
      let s1 := s.setSweep sweep { w with notices := w.notices.erase team }
      .next (w.tiles.foldl (fun s k => s.updTile k fun t => match t.slotOfSweep sweep with
        | none => t
        | some i => match AMap.get? t.sweepSlots i with
          | none => t
          | some x => match AMap.get? x.counts team with
            | none => t
            | some c =>
              let x1 := if c ≤ 1 then { x with counts := AMap.erase x.counts team, released := releaseTeam (recW w.record 0) team x.released }
                else { x with counts := AMap.set x.counts team (c - 1) }
              { t with sweepSlots := AMap.set t.sweepSlots i x1 }) (s1.moved (s.handleOf w.tile)))
    else .next s

/-- Whether every team of a sweep has retired. -/
def sweepDone (s : State) (n : Nat) (w : Sweep) : Bool :=
  decide (w.phase = .running) && w.tiles.all fun k => match (s.tile k).slotOfSweep n with
    | none => false
    | some i => match AMap.get? (s.tile k).sweepSlots i with
      | none => false
      | some x => x.left == 0

/-- SWEEP_END: every team has retired; STATE 2 is written and SWEEP's tag set (R303). -/
def execSweepEnd (sweep : Nat) (s : State) : Out :=
  match AMap.get? s.sweeps sweep with
  | none => .next s
  | some w =>
    if sweepDone s sweep w then
      .next (sweepTag ((freeSweep s sweep w).boardState w.header 2) w |>.moved (s.handleOf w.tile))
    else .next s

/-- Whether failed links have cut a placement tile off from the launching tile: no path of live mesh links joins them (R60, R306; log
entry 65). -/
def cutOff (s : State) (w : Sweep) : Bool :=
  match AMap.get? s.phys w.tile with
  | none => true
  | some p =>
    let far := s.fuses.reach 13104 [p] [p]
    w.tiles.any fun k => match AMap.get? s.phys k with
      | none => true
      | some q => !NSet.mem far q

/-- SWEEP_PARTITION: a link failure disconnects placement tiles; the teams are discarded, STATE 4 is written and the launching
context traps (R60, R306). -/
def execSweepPartition (sweep : Nat) (s : State) : Out :=
  match AMap.get? s.sweeps sweep with
  | none => .next s
  | some w =>
    if (w.phase = .accepting ∨ w.phase = .running) ∧ cutOff s w then
      let s1 := (freeSweep (haltSweep s sweep w) sweep w).boardState w.header 4
      .next (sweepTag (sweepTrap s1 w codeSweepPartition (w.sbva.setWidth 64)) w)
    else .next s

/-- The sweeps that a link failure has just cut are partitioned. -/
def partitionCut (s : State) : State := (AMap.keys s.sweeps).foldl (fun s n => match execSweepPartition n s with
  | .next s1 => s1
  | _ => s) s

/-- SWEEP_ABORT_CONFIRM: every placement tile has halted its teams; STATE 3 is written, and SWEEP's tag and those of the SWABTs
are set (R306, R307). -/
def execSweepAbortConfirm (sweep : Nat) (s : State) : Out :=
  match AMap.get? s.sweeps sweep with
  | none => .next s
  | some w =>
    if w.phase = .aborting then
      let s1 := sweepTag ((freeSweep s sweep w).boardState w.header 3) w
      .next (w.aborts.foldl (fun s a => match AMap.get? (s.tile a.1).reqs a.2 with
        | none => s
        | some q => replyTag (s.updTile a.1 fun t => t.dropReq a.2) a.1 q) s1)
    else .next s

/-! RETIRE (R302). -/

/-- The launched sweep of a team. -/
def teamSweep (s : State) : Option (Nat × Sweep) :=
  match AMap.get? s.here.sweepSlots s.me.sweepSlot with
  | none => none
  | some x => (AMap.get? s.sweeps x.sweep).map fun w => (x.sweep, w)

/-- Engine commands and asynchronous operations of the task that have not completed (R302). -/
def taskBusy (s : State) : Bool :=
  let t := s.here
  let k := s.me.task
  (AMap.vals t.reqs).any (fun q => q.task == k && decide (q.op ≠ .retireOr) && (q.tag.isSome || !q.op.stores))
    || t.engCmds.any (fun e => e.task == k)
    || (AMap.vals t.accs).any (fun x => match x.waiter with
      | some (tk, _, _, _) => tk == k
      | none => false)
    || (AMap.vals t.slot.streams).any (fun x => match x.go with
      | some (tk, _, _, _) => tk == k
      | none => false)

/-- The retire-bit OR of the team under way. -/
def retireReq (s : State) : Option (Nat × GReq) :=
  s.here.reqs.find? fun p => p.2.task == s.me.task && decide (p.2.op = .retireOr)

/-- The OR leaves for the scoreboard's home. -/
def sendRetire (s : State) (w : Sweep) : State :=
  let t := s.here
  let team := s.me.team
  let off := 64 + team / 8
  let q : GReq :=
    { op := .retireOr, task := s.me.task, ctxNo := s.cur.ctx, actor := s.me.actor, va := w.sbva + BitVec.ofNat 48 off
      pa := BitVec.ofNat 52 (w.byteAt off), n := 1, data := BitVec.ofNat 64 (2 ^ (team % 8)), cmp := 0, dest := none, async := true
      tok := false, tag := none, order := 0, scope := 2, pc := s.me.pc, after := [], performed := false, reply := none, win := false
      seq := none, onlyRetry := false, resid := t.slot.resid }
  (s.setHere { t with reqs := AMap.set t.reqs t.nextOp q, nextOp := t.nextOp + 1 }).stallMe

/-- The team is over: its notices go out and its helper is freed. -/
def teamOver (s : State) (id n : Nat) (w : Sweep) : State :=
  let t := s.here
  let c := s.me
  let t1 := (t.dropReq id).setCtx s.cur.ctx c.freed
  let t2 := match AMap.get? t1.sweepSlots c.sweepSlot with
    | none => t1
    | some x =>
      let x1 := { x with running := x.running.erase c.team, left := x.left - 1 }
      { t1 with sweepSlots := AMap.set t1.sweepSlots c.sweepSlot x1 }
  (s.setHere t2).setSweep n { w with notices := w.notices ++ teamNear w.record 1 c.team }

/-- RETIRE (R302): the drain is that of DONE. -/
def execRetireI (f : K3) (s : State) : Out :=
  finishTry s (do
    trapIf (decide (s.cur.ctx = 0) || decide (s.me.role ≠ .team)) codeIllegal (wordsVal (.retireI f))
    notInRep s (.retireI f)
    stallIf (taskBusy s || s.me.wins.any (fun w => !w.arrived))
    let s1 := vecDrain s s.cur.tile s.cur.ctx
    let s2 := s1.setMe s1.me.closeAll
    match takeLate s2 s.cur.tile s.cur.ctx with
    | some s3 => pure s3
    | none =>
      stallIf ((AMap.vals s.here.reqs).any fun q => q.task == s.me.task && decide (q.op ≠ .retireOr) && decide (homeScope s q.pa ≤ 2))
      match teamSweep s2 with
      | none => pure (s2.setHere (s2.here.setCtx s.cur.ctx s2.me.freed))
      | some (n, w) => match retireReq s2 with
        | none => pure (sendRetire s2 w)
        | some (id, q) => if q.reply = some .ack then pure (teamOver s2 id n w) else .error .stall)

end Sys2Proof.Machine
end

