-- ==== Sys2Proof/Machine/TagBar.lean ====
section
/-!
DEFINITION. The completion-tag and barrier instructions (10 R251 to R255).
-/

namespace Sys2Proof.Machine

/-- The lowest tag of a mask that a test accepts. -/
def lowestTag (mask : Word) (p : Nat → Bool) : Option Nat := (upto 64).find? fun i => mask.getLsbD i && p i

/-- Whether an outstanding versioned load of the context names a tag (R252). -/
def gldvNames (s : State) (i : Nat) : Bool :=
  (AMap.vals s.here.reqs).any fun q => q.task == s.me.task && decide (q.op = .ldv) && q.tag == some (BitVec.ofNat 6 i)

/-- Whether an outstanding operation of the context names a tag (R239). -/
def tagLive (s : State) (i : Nat) : Bool := tagBusy s s.cur.tile s.me.task (BitVec.ofNat 6 i)

/-- WAIT_FORBIDDEN of R252, in the order listed. -/
def waitCheck (s : State) (mask : Word) (all : Bool) : Try Unit :=
  let c := s.me
  let forbid := fun (o : Option Nat) => match o with
    | some i => (.error (.trap codeWaitForbidden (BitVec.ofNat 64 i)) : Try Unit)
    | none => .ok ()
  do
    forbid (if s.cur.ctx = 0 then none else lowestTag mask (gldvNames s))
    if all then forbid (lowestTag mask fun i => !c.tags.getLsbD i && !tagLive s i)
    else forbid (if (upto 64).all (fun i => !mask.getLsbD i || (!c.tags.getLsbD i && !tagLive s i))
      then lowestTag mask fun _ => true else none)

/-- The page on which a stream or DCOPY of the context waits whose tag is selected (R252, R298). -/
def heldPage (s : State) (mask : Word) : Option Addr :=
  let c := s.me
  let byCmd := s.here.engCmds.find? fun e => e.task == c.task && mask.getLsbD e.tag.toNat && e.waiting.isSome
  match byCmd with
  | some e => e.waiting
  | none =>
    firstSome (fun (x : Stream) => match x.go, x.waiting with
      | some (tk, tg, _, _), some va => if tk = c.task ∧ mask.getLsbD tg.toNat then some va else none
      | _, _ => none) (AMap.vals s.here.slot.streams)

/-- A wait that is not satisfied: on the pager when a selected operation is held by a page wait, else at issue (R252). -/
def waitMore (s : State) (mask : Word) : Try State :=
  match (if s.cur.ctx = 0 then none else heldPage s mask) with
  | some va => .error (.page va)
  | none => .error .stall

/-- WAITANY (R251). -/
def execWaitany (f : K3) (s : State) : Out :=
  finishTry s (do
    guardK s [f.d, f.a] [f.a] [f.d]
    let mask := s.me.readW f.a
    waitCheck s mask false
    let r := s.me.tags &&& mask
    if mask ≠ 0 ∧ r = 0 then waitMore s mask
    else pure ((s.setMe ((s.me.observe r).writeInt f.d r)).complete 4))

/-- WAITALL (R251). -/
def execWaitall (f : K3) (s : State) : Out :=
  finishTry s (do
    guardK s [f.a] [f.a] []
    let mask := s.me.readW f.a
    waitCheck s mask true
    if s.me.tags &&& mask ≠ mask then waitMore s mask
    else pure ((s.setMe (s.me.observe mask)).complete 4))

/-- FFR: the lowest set selected tag, or 64 (R251). -/
def execFfr (f : K3) (s : State) : Out :=
  finishTry s (do
    guardK s [f.d, f.a] [f.a] [f.d]
    match lowestTag (s.me.readW f.a) (fun i => s.me.tags.getLsbD i) with
    | some i => pure ((s.setMe ((s.me.observe (1#64 <<< i)).writeInt f.d (BitVec.ofNat 64 i))).complete 4)
    | none => pure (s.writeInt f.d 64))

/-- TAGCLR: clears each selected tag that no outstanding operation names (R251). -/
def execTagclr (f : K3) (s : State) : Out :=
  finishTry s (do
    guardK s [f.a] [f.a] []
    let mask := s.me.readW f.a
    let clear : Word := (upto 64).foldl
      (fun m i => if mask.getLsbD i && !tagLive s i then m ||| (1#64 <<< i) else m) 0
    pure ((s.setMe { s.me with tags := s.me.tags &&& ~~~clear }).complete 4))

/-- TAGRD: the 64 tags (R251). -/
def execTagrd (f : K3) (s : State) : Out :=
  finishTry s (do
    guardK s [f.d] [] [f.d]
    pure ((s.setMe ((s.me.observe s.me.tags).writeInt f.d s.me.tags)).complete 4))

/-! Barriers (R253 to R255). -/

/-- The membership slot that k[a] names: a group of eight bits that the actor declares and the tile has not left (R253). -/
def memberOf (s : State) (v : Word) : Option Member :=
  if v.toNat < 256 && s.cur.ctx != 0 && (s.here.actor s.me.actor).groups.any (· == v.toNat) then
    s.here.members.find? fun m => m.group == v.toNat && !m.mask
  else none

def barMember (s : State) (v : Word) : Try Member :=
  match memberOf s v with
  | some m => .ok m
  | none => .error (.trap codeBarrierMember v)

def Tile.setMember (t : Tile) (m : Member) : Tile :=
  { t with members := t.members.map fun x => if x.group = m.group then m else x }

/-- (x − ph) mod 2^32 in 1 to 2^31 (R253, R254). -/
def phasePast (x ph : BitVec 32) : Bool := decide (1 ≤ (x - ph).toNat) && decide ((x - ph).toNat ≤ 2 ^ 31)

/-- What a release at wafer scope waits for (R222, R253). -/
def releaseWait (s : State) : Try Unit := stallIf (vmQueued s.me || outstanding s s.cur.tile s.me.task 2 || putrDue s)

/-- BARRIVE (R253). -/
def execBarrive (f : K3) (s : State) : Out :=
  finishTry s (do
    guardK s [f.d, f.a] [f.a] [f.d]
    let m ← barMember s (s.me.readW f.a)
    stallIf (m.arr != m.rel)
    releaseWait s
    let s1 := s.setMe (s.me.writeInt f.d (m.arr.setWidth 64))
    pure ((s1.setHere (s1.here.setMember { m with arr := m.arr + 1 })).complete 4))

/-- BARWAIT (R253, R254). -/
def execBarwait (f : K3) (s : State) : Out :=
  finishTry s (do
    guardK s [f.a, f.b] [f.a, f.b] []
    let m ← barMember s (s.me.readW f.a)
    let ph := (s.me.readW f.b).setWidth 32
    trapIf (!phasePast m.arr ph) codeBarrierMember (s.me.readW f.a)
    stallIf (!phasePast m.rel ph)
    pure (s.complete 4))

/-- BARTEST (R253, R254). -/
def execBartest (f : K3) (s : State) : Out :=
  finishTry s (do
    guardK s [f.d, f.a, f.b] [f.a, f.b] [f.d]
    let m ← barMember s (s.me.readW f.a)
    let ph := (s.me.readW f.b).setWidth 32
    trapIf (!phasePast m.arr ph) codeBarrierMember (s.me.readW f.a)
    pure (s.writeInt f.d (if phasePast m.rel ph then 1 else 0)))

/-- BARLEAVE: a release when the tile has arrived in the open phase (R255). -/
def execBarleave (f : K3) (s : State) : Out :=
  finishTry s (do
    guardK s [f.a] [f.a] []
    let m ← barMember s (s.me.readW f.a)
    if m.arr ≠ m.rel then releaseWait s else pure ()
    pure ((s.setHere (s.here.setMember { m with mask := true })).complete 4))

/-- A member has arrived in the open phase (R253). -/
def Member.arrived (m : Member) : Bool := m.arr == m.rel + 1

/-- Whether a tile belongs to the residency that a group's entry names (R308): the slots of another's members stand until they are
loaded again. -/
def groupTile (s : State) (g : Nat) (t : Tile) : Bool :=
  t.slot.resid == ((AMap.getD s.groupTab g (0, 0)).2).extractLsb' 20 12

/-- The membership slots of a group over the module. -/
def groupMembers (s : State) (g : Nat) : List Member :=
  (AMap.vals s.tiles).flatMap fun t => if groupTile s g t then t.members.filter fun m => m.group == g else []

/-- Whether the open phase of a group can release: every member has arrived or is masked (R309, R310). -/
def canRelease (s : State) (g : Nat) : Bool :=
  ((AMap.getD s.groupTab g (0, 0)).2).getLsbD 63 && (groupMembers s g).all (fun m => m.mask || m.arrived)
    && (groupMembers s g).any Member.arrived

/-- REL(g) of a tile's slot of a group rises by one (R253). -/
def Tile.raiseRel (t : Tile) (g : Nat) : Tile :=
  { t with members := t.members.map fun m => if m.group = g then { m with rel := m.rel + 1 } else m }

/-- BARRIER_RELEASE: REL(g) rises on every member tile (R253, R309). -/
def execBarrierRelease (group : Nat) (s : State) : Out :=
  if canRelease s group then
    .next { s with tiles := AMap.mapVals s.tiles fun _ t => if groupTile s group t then t.raiseRel group else t }
  else .next s

/-- The phases of some groups that can release do. -/
def releaseGroups (s : State) (gs : List Nat) : State := gs.foldl (fun s g => match execBarrierRelease g s with
  | .next s' => s'
  | _ => s) s

end Sys2Proof.Machine
end

