-- ==== Sys2Proof/Machine/Residency.lean ====
section
/-!
DEFINITION. The life of a residency: submission, staging, placement, arming, running, its end, replays, aborts, fault tokens and the
watchdog (02 R61 to R63, 12 R311, R312, 13 R322, R330 to R333, 15 R383, R384, 17 R399, R400).
-/

namespace Sys2Proof.Machine

/-! The host's access (R394, R396, R411). -/

/-- The code that BOOTST holds for recovery mode (R411). -/
def stageRecovery : Nat := 0xF1

/-- The module answers the host from stage 0x04 on; in recovery mode it answers only the loading of another image (R394, R411). -/
def hostAnswered (s : State) : Bool := decide (4 ≤ s.bootStage) && decide (s.bootStage ≠ stageRecovery)

/-- A host write through a port reaches the module: it answers, and the port's link has not failed (R396). -/
def hostReaches (s : State) (port : Nat) : Bool := hostAnswered s && s.hostUp.getLsbD port

/-! End records (R399). -/

/-- The record of a residency's end, abort or rejection. -/
def endRecord (s : State) (h : Nat) : Line :=
  let r := s.resOf h
  let w0 : Word := BitVec.ofNat 64 (h % 256 + r.resid.toNat * 2 ^ 8 + r.state.code * 2 ^ 20)
  (BitVec.ofNat 64 r.replay ++ r.err.w2 ++ r.err.w1 ++ r.err.w0 ++ r.result ++ w0).setWidth 512

/-- Waiting end records enter the system outlet while it has room (R398, R399). -/
def drainSys : Nat → State → State
  | 0, s => s
  | n + 1, s =>
    let o := s.outlet 0
    match s.sysWait with
    | [] => s
    | x :: rest =>
      if o.q.length < 256 then
        let tok : Token :=
          { kind := .data, line := true, payload := x, round := 0, resid := 0, seq := 0, port := 0, scale := 0, ohdr := none }
        drainSys n ({ s with sysWait := rest }.placeOutlet 0 (max o.next o.h) tok)
      else s

/-- The end record of a residency goes to the system outlet. -/
def sendEnd (s : State) (h : Nat) : State :=
  let s1 := { s with sysWait := s.sysWait ++ [endRecord s h] }
  drainSys s1.sysWait.length s1

/-! Freeing a region (R62, R352). -/

/-- Stores and atomics of a residency that are on their way still perform; then nothing of them is left at the tile. -/
def flushReqs (s : State) (tile : Nat) : State :=
  let s1 := (s.tile tile).reqs.foldl (fun s p =>
    if p.2.performed || p.2.ctxNo == 0 || p.2.op == .swabt || paKind p.2.pa != 0 then s else (homePerform s tile p.2).1) s
  s1.updTile tile fun t => { t with reqs := t.reqs.filter fun p => p.2.ctxNo == 0 }

/-- A tile without its residency: helpers, waiters, slots, claims and cached translations are gone; the counts of its membership slots
stand until the next load. -/
def Tile.vacate (t : Tile) (resid : BitVec 12) : Tile :=
  { t with
    ctxs := t.ctxs.filter fun p => p.1 == 0
    pend := t.pend &&& 1, preReq := false, preHalted := false, slots := [], active := 0, role := 0, switchTo := none
    accs := AMap.mapVals t.accs fun _ a => { a with owner := none, iOwner := none, counted := false, iCounted := false, waiter := none, buf := [] }
    fabric := { t.fabric with owner := none, iOwner := none }
    waiters := [], tlb := t.tlb.filter fun e => e.resid != resid, sweepSlots := [], passes := [], fwd := [], unack := [], refusals := []
    inject := t.inject.filter fun m => m.resid != resid, injectDue := [], snapDone := false, samples := 0, busySamples := 0
    corrected := 0, uncorrected := 0 }

/-- The error record of a residency with what its tiles have counted (R381, R383). -/
def State.errOf (s : State) (h : Nat) : ErrRec :=
  let e := (s.resOf h).err
  (s.resTiles h).foldl (fun e k =>
    { e with corr := sat32 (e.corr + (s.tile k).corrected), uncorr := sat32 (e.uncorr + (s.tile k).uncorrected) }) e

/-- The reply to a request of a residency whose region is freed, on its way to the tile (R348; log entry 23). -/
def replyToken (q : GReq) : Token :=
  { kind := .sys, line := false, payload := 0, round := 0, resid := q.resid, seq := 0, port := 0, scale := 0, ohdr := none }

/-- The replies still under way to a tile. -/
def lateReplies (s : State) (k : Nat) : List (Nat × Token) :=
  ((AMap.vals (s.tile k).reqs).filter fun q => q.ctxNo != 0).map fun q => (k, replyToken q)

/-- The tokens of a channel that are still under way to a tile (R348). -/
def strayToks (c : Chan) : List (Nat × Token) :=
  c.branches.flatMap fun b => match b.dst with
    | .port k p | .stream k p => (b.flights ++ c.forkQ).map fun f => (k, { f.tok with port := p })
    | .oper k _ _ => (b.flights ++ c.forkQ).map fun f => (k, f.tok)
    | _ => []

/-- The tokens and replies of a residency that are still under way to its tiles (R348). -/
def straysOf (s : State) (h : Nat) : List (Nat × Token) :=
  ((s.chans.filter fun (c : Nat × Chan) => c.2.handle == h).flatMap fun (c : Nat × Chan) => strayToks c.2)
    ++ (s.resTiles h).flatMap (lateReplies s)

/-- The region of a residency is freed: tiles, channels, host channels, groups and sweeps. -/
def freeRegion (s : State) (h : Nat) : State :=
  let r := s.resOf h
  let ts := s.resTiles h
  let s1 := ts.foldl (fun s k => (flushReqs s k).updTile k fun t => t.vacate r.resid) s
  let s2 := { s1.updRes h fun r => { r with err := s.errOf h } with
    chans := s1.chans.filter fun c => c.2.handle != h
    strays := s1.strays ++ straysOf s h
    sweeps := s1.sweeps.filter fun w => w.2.resid != r.resid
    rlines := s1.rlines.filter fun l => l.2.resid != r.resid
    groupTab := s1.groupTab.filter fun g => !(fld g.2.2 31 20 == r.resid.toNat && g.2.2.getLsbD 63)
    inlets := AMap.mapVals s1.inlets fun _ x => if (x.chan.map (· / 16384)) = some h then { x with chan := none } else x
    outlets := AMap.mapVals s1.outlets fun _ x => if (x.chan.map (· / 16384)) = some h then { x with chan := none } else x
    links := AMap.mapVals s1.links fun _ l => { l with streamResid := l.streamResid.filter fun p => p.2 != r.resid.toNat } }
  s2.updRes h fun r => { r with region := none, faultQ := [], moving := none, snapping := false, armWait := none, armRefused := false, loaded := false, armed := false, snapDue := false }

/-- A residency ends as Ended or Aborted: phases that every member has reached release, whatever it halts (R310, R423); then the record,
and the region is freed (R62, R399). A snapshot outlives the abort that the death of a tile brings, and no other end (R393; log entry
27). -/
def closeRes (s : State) (h : Nat) (st : RState) : State :=
  let s1 := releaseGroups s ((s.resTiles h).flatMap fun k => (s.tile k).members.map (·.group)).eraseDups
  freeRegion (sendEnd (s1.updRes h fun r =>
    { r with state := st, abortAsked := false, restoring := false, snap := if r.tileLost then r.snap else none }) h) h

/-- A rejection at a step of R322: the result word and the end record; the image stays staged when steps 1 to 7 have passed. -/
def rejectRes (s : State) (h : Nat) (f : CfgFail) : State :=
  let s1 := (s.resTiles h).foldl (fun s k => s.updTile k fun t => { t with lastResult := f.word }) s
  closeRes (s1.updRes h fun r => { r with result := f.word, stageDue := false }) h .aborted

/-! GO, ABORT and COMMIT (R333, R400). -/

/-- A residency that holds its control block's bindings (R400; log entry 27). -/
def liveRes (r : Res) : Bool := r.used && decide (r.state ≠ .ended) && decide (r.state ≠ .aborted)

/-- The host channels that a block binds: inlet n as n, outlet n as 32 + n. -/
def boundChans (b : Block) : List Nat := (upto b.inum).map (fun i => b.ifirst + i) ++ (upto b.onum).map fun i => 32 + b.ofirst + i

/-- Whether another block than h binds a host channel. -/
def boundElsewhere (s : State) (h c : Nat) : Bool := s.blocks.any fun p => p.1 != h && liveRes (s.resOf p.1) && (boundChans p.2).any (· == c)

/-- The lowest host channel of a block in conflict (R400). -/
def hostConflict (s : State) (h : Nat) : Option Nat :=
  leastOf ((boundChans (s.block h)).filter fun c => boundElsewhere s h c || (decide (32 ≤ c) && !(s.outlet (c - 32)).q.isEmpty))

/-- GO: the image of the block is submitted; a conflict of host channels fails it at once (R400). It is ignored before stage 0x08
(R411). -/
def execGoCmd (handle : Nat) (s : State) : Out :=
  if liveRes (s.resOf handle) ∨ s.bootStage ≠ 8 then .next s
  else
    let s1 := s.updRes handle fun r =>
      { r with state := .queued, used := true, resid := 0, region := none, result := 0, abortAsked := false, tileLost := false, snap := none, err := ErrRec.init, senders := []
               stageDue := r.image.isNone }
    match hostConflict s handle with
    | some c => .next (rejectRes s1 handle ⟨cfgShape, 7, 0, 0, c⟩)
    | none => .next s1

/-- ABORT: the host aborts the residency (R400). -/
def execAbortCmd (handle : Nat) (s : State) : Out :=
  .next (if liveRes (s.resOf handle) then s.updRes handle fun r => { r with abortAsked := true } else s)

/-- COMMIT: the bit is set until the loader acts on it at the next re-arm (R333), once the module answers the host (R394, R411). -/
def execCommitParams (handle : Nat) (s : State) : Out :=
  .next (if hostAnswered s then s.updRes handle fun r => { r with commit := true } else s)

/-! Staging and placement (R62, R322). -/

/-- IMAGE_STAGING: steps 1 to 7, once; a poisoned word fails the signature check (log entry 24). -/
def execImageStaging (handle : Nat) (s : State) : Out :=
  let r := s.resOf handle
  if r.state = .queued ∧ r.stageDue then
    let pa := (s.block handle).image.toNat
    let ws := readImage s pa
    let bad := s.gBad pa (8 * ws.length)
    match (if bad then some (CfgFail.mk cfgSignature 1 0 0 ((imgLen ws + 2 ^ 32 - 415) % 2 ^ 32)) else stageCheck s ws) with
    | some f => .next (rejectRes s handle f)
    | none => .next (s.updRes handle fun r => { r with image := some ws, stageDue := false })
  else .next s

/-- Whether two regions of a rectangle overlap. -/
def regionsMeet (a b : Region) : Bool :=
  a.rect == b.rect && decide (a.row < b.row + b.rows) && decide (b.row < a.row + a.rows) && decide (a.col < b.col + b.cols)
    && decide (b.col < a.col + a.cols)

/-- The regions in use. -/
def usedRegions (s : State) : List Region := (AMap.vals s.res).filterMap (·.region)

/-- The first free region of a shape: rectangles in increasing number, first fit by rows, then columns (R62). -/
def findRegion (s : State) (rows cols : Nat) : Option Region :=
  firstSome (fun i =>
    let x := nthD s.rects i (0, 0, 0, 0)
    if NSet.mem s.closedRects i ∨ x.2.2.1 < rows ∨ x.2.2.2 < cols then none
    else firstSome (fun a => firstSome (fun b =>
      let g : Region := ⟨i, a, b, rows, cols⟩
      if (usedRegions s).any (regionsMeet g) then none else some g) (upto (x.2.2.2 - cols + 1))) (upto (x.2.2.1 - rows + 1)))
    (List.range s.rects.length)

/-- Whether every group that an image declares is free (R61). -/
def groupsFree (s : State) (h : Nat) (ws : List Word) : Bool :=
  (imgGroups ws).all fun g =>
    !((AMap.getD s.groupTab g (0, 0)).2.getLsbD 63)
      && !s.res.any fun p => p.1 != h && p.2.region.isSome && (match p.2.image with
        | some x => (imgGroups x).any (· == g)
        | none => false)

/-- A residency number that no live residency has; 0 is none's (R62). -/
def freshResid (s : State) : Nat :=
  (((upto 4095).map fun i => (s.nextResid + i - 1) % 4095 + 1).find? fun n =>
    !(AMap.vals s.res).any fun r => liveRes r && r.resid.toNat == n).getD 0

/-- A region and a residency number are assigned. -/
def assignRegion (s : State) (h : Nat) (g : Region) : State :=
  let n := freshResid s
  { s with nextResid := n % 4095 + 1 }.updRes h fun r => { r with region := some g, resid := BitVec.ofNat 12 n }

/-! Arming (R330). -/

/-- How the parameter copies stand for a copy of n bytes at each address: mapped for writing, a page to wait for, or refused. -/
inductive CopyState where
  | ready | wait (va : Addr) | refused
  deriving DecidableEq, Repr

/-- The first page of [va, va + n) that is not there for reading (r) or writing (w). -/
def rangeState (s : State) (x : Space) (va n : Nat) (r w : Bool) : CopyState :=
  if n = 0 then .ready
  else
    match firstSome (fun i =>
      let a := (va / 2 ^ 16 + i) * 2 ^ 16
      match walk s x a with
      | .wait => some (CopyState.wait (BitVec.ofNat 48 (max a va)))
      | .denied => some .refused
      | .leaf e => if e.allows r w false then none else some .refused) (upto ((va + n - 1) / 2 ^ 16 - va / 2 ^ 16 + 1)) with
    | some c => c
    | none => .ready

/-- The physical address of a byte that is mapped. -/
def physOf (s : State) (x : Space) (va : Nat) : Nat := match walk s x va with
  | .leaf e => (e.physical va).toNat
  | _ => 0

/-- The words of PARAM written at an address. -/
def writeParam (s : State) (x : Space) (va : Nat) (ws : List Word) : State :=
  (List.range ws.length).foldl (fun s i => s.gWrite (physOf s x (va + 8 * i)) (leBytes 8 (nthD ws i 0).toNat)) s

/-- An end of a channel placed at a region (R319, R397). -/
def placeEnd (s : State) (g : Region) (b : Block) (e : CEnd) : End :=
  match e.kind with
  | 0 => .port (s.regionTile g e.row e.col) e.num
  | 1 => .oper (s.regionTile g e.row e.col) (e.num / 4) (e.num % 4)
  | 2 => .stream (s.regionTile g e.row e.col) e.num
  | 3 => .inlet (b.ifirst + e.num)
  | 4 => .outlet (b.ofirst + e.num)
  | _ => .fabric e.col e.num

/-- The initial tokens of a channel from SEQ n on, behind so many ROUND tokens (R35, R315). -/
def initTokens (rs : List IRec) (r : IRec) (resid : BitVec 12) (line : Bool) (n rounds : Nat) : List Flight :=
  let ws := (rs.filter fun x => x.typ == tInit && x.slot == r.slot && x.arg == r.arg).flatMap (·.body)
  (List.range ws.length).map fun i =>
    { tok := { kind := .data, line := line, payload := (nthD ws i 0).setWidth 512, round := BitVec.ofNat 16 rounds, resid := resid, seq := n + i, port := 0
               scale := 0, ohdr := none }
      after := [] }

/-- A channel of an armed residency with its initial tokens on every branch (R38, R39, R315). -/
def newChan (s : State) (rs : List IRec) (h : Nat) (g : Region) (b : Block) (resid : BitVec 12) (r : IRec) : Chan :=
  let form := (firstSome (endForm rs r.slot) r.ends).getD (0, false)
  let init := initTokens rs r resid form.2 0 0
  { src := placeEnd s g b r.source, resid := resid, handle := h, slot := r.slot, num := r.arg, line := form.2
    fmt := BitVec.ofNat 4 form.1, seq := init.length, rounds := 0, closed := false, forkQ := [], reserved := []
    branches := r.branches.map fun e =>
      let d := branchDepth rs r.slot e
      { dst := placeEnd s g b e, depth := d, room := d - init.length, flights := init, back := 0, base := 0 } }

/-- The host channels and fabric streams that a channel's ends bind. -/
def bindEnds (s : State) (id : Nat) (c : Chan) : State :=
  let s1 := match c.src with
    | .inlet n => { s with inlets := AMap.set s.inlets n ⟨some id, (AMap.getD s.inlets n ⟨none, 0, 0⟩).drops, 0⟩ }
    | .fabric l st => s.setLink l { (s.link l) with streamResid := AMap.set (s.link l).streamResid (16 + st) c.resid.toNat }
    | _ => s
  (List.range c.branches.length).foldl (fun s i => match (c.branches[i]?).map Branch.dst with
    | some (.outlet n) => s.setOutlet n { Outlet.init with chan := some id, branch := i }
    | some (.fabric l st) => s.setLink l { (s.link l) with streamResid := AMap.set (s.link l).streamResid st c.resid.toNat }
    | _ => s) s1

/-- The tokens in flight on a channel arrive where they can. -/
def settleChan (s : State) (id : Nat) : State :=
  match s.chan? id with
  | none => s
  | some c => (List.range c.branches.length).foldl (fun s i => match c.branches[i]? with
    | none => s
    | some b => b.flights.foldl (fun s f => match execTokenArrival id i f.tok.seq s with
      | .next s' => s'
      | _ => s) s) s

/-- The slots that the roles of an image use. -/
def roleSlots (ws : List Word) : List Nat := (imgRoles ws).eraseDups

/-- Every tile of the region, its engines as at a residency's start (R178, R200), loads each role's slot by RLOAD, up to a read error;
the first role's is active (R330 step 3). -/
def loadTiles (s : State) (h : Nat) (g : Region) (ws : List Word) (resid : BitVec 12) : State :=
  (upto g.rows).foldl (fun s i => (upto g.cols).foldl (fun s j =>
    let k := s.regionTile g i j
    let s1 := s.updTile k fun t => { t with slots := [], active := 0, lastResult := 0, accs := [], fabric := Fabric.init }
    let s2 := (roleSlots ws).foldl (fun s n => if (s.tile k).lastResult = 0 then loadChecked s k h n i j resid ws else s) s1
    s2.updTile k fun t =>
      let f := imgFirst ws
      if t.lastResult = 0 then { t with slots := AMap.set t.slots f (AMap.getD t.slots f Slot.blank).fresh, active := f } else t) s) s

/-- The group-table entries of an image, with RESID set (R330 step 4). -/
def writeGroups (s : State) (g : Region) (ws : List Word) (resid : Nat) : State :=
  { s with groupTab := ((imgRecs ws).filter (·.typ == tGroup)).foldl (fun m r => AMap.set m r.arg (groupEntry s ws g r resid)) s.groupTab }

/-- The first read error of the loads, as its result word (R336). -/
def loadError (s : State) (h : Nat) : Option Word :=
  firstSome (fun k => let w := (s.tile k).lastResult; if w = 0 then none else some w) (s.resTiles h)

/-- The residency's running state at arming: counters, watchdog, generation (R312, R333). -/
def armRes (s : State) (r : Res) : Res :=
  { r with
    state := .armed, armed := true, gen := 0, replay := 0, result := 0, err := ErrRec.init, faultQ := [], faultEos := false, faultHold := false
    wdEn := true, wdFired := false, wdTicks := 0x61A80, wdLast := s.now, snapping := false, abortAsked := r.abortAsked }

/-- The channels of an image come into being, and what stands on those of the first role's slot arrives (R62: Armed). -/
def makeChans (s : State) (h : Nat) (g : Region) (ws : List Word) (resid : BitVec 12) : State :=
  let rs := imgRecs ws
  let b := s.block h
  let s1 := (chanRecs rs).foldl (fun s r =>
    let c := newChan s rs h g b resid r
    bindEnds (s.setChan (chanId h r.slot r.arg) c) (chanId h r.slot r.arg) c) s
  ((chanRecs rs).filter (·.slot == imgFirst ws)).foldl (fun s r => settleChan s (chanId h r.slot r.arg)) s1

/-- ARMING: steps 2 to 5 of R330 in their order; a wait for a page of PARAM leaves what the steps before it did. -/
def execArming (handle : Nat) (s : State) : Out :=
  let r := s.resOf handle
  match r.image, r.region with
  | some ws, some g =>
    let b := s.block handle
    let x := resSpace s handle
    let n := imgParams ws
    let va := b.paramva.toNat
    if r.state ≠ .loading ∨ r.armWait.isSome then .next s
    else match (if r.loaded then none else placeCheck s ws g b) with
      | some f => .next (rejectRes s handle f)
      | none =>
        let s1 := if r.loaded then s else loadTiles s handle g ws r.resid
        match loadError s1 handle with
        | some w => .next (closeRes (s1.updRes handle fun r => { r with result := w }) handle .aborted)
        | none =>
          let s2 := if r.loaded then s1 else (writeGroups s1 g ws r.resid.toNat).updRes handle fun r => { r with loaded := true }
          match (if r.armRefused then .refused else rangeState s2 x va (2 * n) false true) with
          | .refused => .next (rejectRes s2 handle ⟨cfgBounds, 0, 0, 0, 0⟩)
          | .wait a => .next (s2.updRes handle fun r => { r with armWait := some a })
          | .ready =>
            let body := ((imgRecs ws).filter (·.typ == tParam)).flatMap (·.body)
            let s3 := writeParam (writeParam s2 x va body) x (va + n) body
            .next ((makeChans s3 handle g ws r.resid).updRes handle (armRes s3))
  | _, _ => .next s

/-- RESIDENCY_START: bound sources start; actors, inlets and configured streams may act from here on (R62). -/
def execResidencyStart (handle : Nat) (s : State) : Out :=
  .next (if (s.resOf handle).state = .armed then s.updRes handle fun r => { r with state := .running, wdLast := s.now } else s)

/-! The end (R62). -/

/-- Whether a queue is empty; the EOS that ended a DIR 1 stream stays at the head of its port (R262). -/
def queueEmpty (t : Tile) (p : Port) : Bool :=
  p.q.isEmpty || (match p.stream with
    | none => false
    | some n => (t.stream n).eosin && p.q.length == 1)

/-- A tile of a drained region: its last role, nothing queued, no firing live, and its sinks ended: the actors without outputs, or with
inert ones only (log entry 34). -/
def tileDrained (t : Tile) (ws : List Word) : Bool :=
  let x := t.slot
  decide (t.role + 1 = (imgRoles ws).length)
    && x.actors.all (fun a => a.2.live.isNone && (a.2.ended || (t.outputs a.1).any fun p => decide (p.2.count ≠ 0)))
    && (AMap.vals x.opers).all (fun o => o.in0.isNone && o.in1.isNone)
    && (AMap.vals x.ports).all (fun p => p.output || (queueEmpty t p && (match p.stream with
      | some n => (t.stream n).eosin || (t.stream n).denied
      | none => true)))

/-- A channel of a drained region: nothing under way, and closed where it leads to the host, outward, or to an inert input (log
entry 34). -/
def chanDrained (s : State) (id : Nat) (c : Chan) : Bool :=
  c.forkQ.isEmpty && c.branches.all fun b => b.flights.isEmpty && (match b.dst with
    | .outlet _ | .fabric _ _ => c.closed
    | .port k p => c.closed || !(((s.tile k).port p).inert && ((s.tile k).port p).chan == some id)
    | _ => true)

/-- Whether every sink of a running residency has seen EOS and every queue is empty. -/
def resDrained (s : State) (h : Nat) : Bool :=
  let r := s.resOf h
  match r.image with
  | none => false
  | some ws =>
    decide (r.state = .running) && !r.snapping && r.faultQ.isEmpty && (s.resTiles h).all (fun k => tileDrained (s.tile k) ws)
      && s.chans.all fun c => c.2.handle != h || chanDrained s c.1 c.2

/-- RESIDENCY_END: the drain is complete (R62, R399). -/
def execResidencyEnd (handle : Nat) (s : State) : Out :=
  .next (match (s.resOf handle).image with
  | some ws => if resDrained s handle ∧ !imgPersist ws ∧ !(s.resOf handle).abortAsked then closeRes s handle .ended else s
  | none => s)

/-- RESIDENCY_ABORT: an abort that was asked for, or an unrecovered fault, ends the residency (R62). -/
def execResidencyAbort (handle : Nat) (s : State) : Out :=
  let r := s.resOf handle
  .next (if liveRes r ∧ r.abortAsked then closeRes s handle .aborted else s)

/-! Replays (R332, R333). -/

/-- The new active parameter copy is written over the idle one, poison and all. -/
def copyParams (s : State) (x : Space) (src dst n : Nat) : State :=
  (upto (n / 8)).foldl (fun s i =>
    let a := physOf s x (src + 8 * i)
    let b := physOf s x (dst + 8 * i)
    let s1 := s.gWrite b (leBytes 8 (s.gRead a 8))
    if s.gBad a 8 then s1.gPoison b 8 else s1) s

/-- A channel of the first role at a re-arm: initial tokens again, behind what it has carried, and open. They take the slots that are
free, those whose credits are still on their way included (R39, R332). -/
def rearmChan (rs : List IRec) (r : IRec) (c : Chan) : Chan :=
  let init := initTokens rs r c.resid c.line c.seq c.rounds
  { c with
    seq := c.seq + init.length, closed := false
    branches := c.branches.map fun b =>
      { b with flights := b.flights ++ init, room := b.room - init.length, back := b.back - (init.length - b.room) } }

/-- A slot at a re-arm: actors and operators reset, CARRY tokens again, streams at position 0. -/
def Slot.rearm (x : Slot) : Slot :=
  let y := x.fresh
  { y with
    state := x.state
    opers := AMap.mapVals y.opers fun _ o => { o with emitted := false }
    streams := AMap.mapVals y.streams fun _ z => { z with pos := 0, bytes := 0, held := [], eosin := false, denied := false, stopped := false }
    ports := AMap.mapVals y.ports fun _ p => match p.stream with
      | some _ => if p.output then p else { p with q := [], h := p.h + p.q.length }
      | none => p }

/-- The region re-arms: initial tokens, actors, operators and streams, the first role's slot (R332). -/
def rearm (s : State) (h : Nat) (ws : List Word) : State :=
  let rs := imgRecs ws
  let f := imgFirst ws
  let s1 := (s.resTiles h).foldl (fun s k =>
    let s1 := if (s.tile k).active = f then s else switchSlot s k f
    s1.updTile k fun t => { t with role := 0, slots := AMap.mapVals t.slots fun _ x => x.rearm }) s
  let s2 := (chanRecs rs).foldl (fun s r => match s.chan? (chanId h r.slot r.arg) with
    | some c => s.setChan (chanId h r.slot r.arg) (rearmChan rs r c)
    | none => s) s1
  let s3 := ((chanRecs rs).filter (·.slot == f)).foldl (fun s r => settleChan s (chanId h r.slot r.arg)) s2
  s3.updRes h fun r => { r with replay := r.replay + 1, faultEos := false, wdLast := s.now }

/-- REPLAY_REARM: at drain a persistent residency acts on COMMIT and begins its next replay (R332, R333). The copy waits for its
pages as arming does, and a refused page aborts the residency (log entry 28). -/
def execReplayRearm (handle : Nat) (s : State) : Out :=
  let r := s.resOf handle
  match r.image with
  | none => .next s
  | some ws =>
    if !(resDrained s handle && imgPersist ws && !r.abortAsked) || r.armWait.isSome then .next s
    else if r.commit then
      let x := resSpace s handle
      let n := imgParams ws
      let va := (s.block handle).paramva.toNat
      let g := r.gen + 1
      match (if r.armRefused then .refused else rangeState s x va (2 * n) true true) with
      | .refused => .next (closeRes s handle .aborted)
      | .wait a => .next (s.updRes handle fun r => { r with armWait := some a })
      | .ready =>
        let s1 := copyParams s x (va + g % 2 * n) (va + (g + 1) % 2 * n) n
        .next (rearm (s1.updRes handle fun r => { r with gen := g, commit := false }) handle ws)
    else .next (rearm s handle ws)

/-! Fault tokens (R384). -/

/-- The tile and port of the fault port of a residency, where its slot is the active one. -/
def faultPort (s : State) (h : Nat) (ws : List Word) : Option (Nat × Nat) :=
  let f := imgFault ws
  match (s.resOf h).region with
  | none => none
  | some g =>
    let k := s.regionTile g (fld f 23 16) (fld f 15 8)
    if f.getLsbD 3 ∧ (s.tile k).active = imgFirst ws ∧ ((s.tile k).port (fld f 28 24)).declared then some (k, fld f 28 24) else none

/-- A token that the dispatcher places. -/
def dispToken (k : TokKind) (payload : Line) (resid : BitVec 12) : Token :=
  { kind := k, line := false, payload := payload, round := 0, resid := resid, seq := 0, port := 0, scale := 0, ohdr := none }

/-- FAULT_TOKEN: the oldest fault token of the buffer enters the fault port's queue when a slot is free. -/
def execFaultToken (handle : Nat) (s : State) : Out :=
  let r := s.resOf handle
  match r.image, r.faultQ with
  | some ws, w :: rest => match (if r.state = .running ∧ !r.faultHold then faultPort s handle ws else none) with
    | some (k, p) =>
      if ((s.tile k).port p).q.length < ((s.tile k).port p).depth then
        .next (joinQueue (s.updRes handle fun r => { r with faultQ := rest }) k p (dispToken .data (w.setWidth 512) r.resid))
      else .next s
    | none => .next s
  | _, _ => .next s

/-- Whether every actor that the fault actor's channels do not lead to has ended. -/
def othersEnded (s : State) (g : Region) (ws : List Word) : Bool :=
  let rs := imgRecs ws
  let f := imgFault ws
  let es := slotEdges rs (imgFirst ws)
  let far := reachNodes es es.length [.actor (fld f 23 16) (fld f 15 8) (fld f 2 0)]
  (upto g.rows).all fun i => (upto g.cols).all fun j =>
    (s.tile (s.regionTile g i j)).slot.actors.all fun a => a.2.ended || far.any (· == .actor i j a.1)

/-- FAULT_PORT_EOS: the fault port ends (R384). -/
def execFaultPortEos (handle : Nat) (s : State) : Out :=
  let r := s.resOf handle
  match r.image, r.region with
  | some ws, some g => match (if r.state = .running ∧ !r.faultHold ∧ !r.faultEos ∧ r.faultQ = [] then faultPort s handle ws else none) with
    | some (k, p) =>
      let t := s.tile k
      let a := fld (imgFault ws) 2 0
      let others := (t.counted a).filter fun x => x.1 != p
      if (others.all fun x => decide ((x.2.state (t.actor a).roundA).1 = .ended)) && othersEnded s g ws && decide ((t.port p).q.length < (t.port p).depth) then
        .next (joinQueue (s.updRes handle fun r => { r with faultEos := true }) k p (dispToken .eos 0 r.resid))
      else .next s
    | none => .next s
  | _, _ => .next s

/-! The watchdog (R311). -/

/-- Whether an engine of a tile executes a command: it can go on with one. A command that waits for room, bytes or answers does not
execute. -/
def engExecutes (s : State) (k : Nat) : Bool :=
  let t := s.tile k
  (engChoice t .mx (mxReady t)).isSome || (engChoice t .lc (lcReady t)).isSome || (engChoice t .dm (dmReady s k)).isSome

/-- What holds the counter at 0 while it lasts: an engine command in execution, a memory request outstanding other than one that only
RETRY answers, an open page wait. -/
def stirring (s : State) (h : Nat) : Bool :=
  (s.resTiles h).any fun k =>
    let t := s.tile k
    (AMap.vals t.reqs).any (fun q => !q.onlyRetry) || engExecutes s k || t.waiters.any (fun w => w.ready.isNone)
      || t.engCmds.any (·.waiting.isSome) || (AMap.vals t.slot.streams).any (·.waiting.isSome)

/-- The dump of the input queues: row, column, port, occupancy and H (R383). -/
def dumpWords (s : State) (h : Nat) : List Word :=
  match (s.resOf h).region with
  | none => []
  | some g => (upto g.rows).flatMap fun i => (upto g.cols).flatMap fun j =>
    ((s.tile (s.regionTile g i j)).slot.ports.filter fun p => p.2.declared && !p.2.output).map fun p =>
      BitVec.ofNat 64 (i % 256 * 2 ^ 56 + j % 256 * 2 ^ 48 + p.1 % 32 * 2 ^ 40 + min p.2.q.length 255 * 2 ^ 32 + p.2.h % 2 ^ 32)

/-- The dump written at DUMP, word by word, where the residency's tables map it for writing. -/
def writeDump (s : State) (h : Nat) : State :=
  let x := resSpace s h
  let a := (s.resOf h).err.dump.toNat
  let ws := dumpWords s h
  (List.range ws.length).foldl (fun s i => match walk s x (a + 8 * i) with
    | .leaf e => if e.w then s.gWrite (e.physical (a + 8 * i)).toNat (leBytes 8 (nthD ws i 0).toNat) else s
    | _ => s) s

/-- WATCHDOG: the interval has passed without a move; the record, the dump, and the abort (R311, R312). -/
def execWatchdog (handle : Nat) (s : State) : Out :=
  let r := s.resOf handle
  if r.state = .running ∧ r.wdEn ∧ !r.wdFired ∧ !stirring s handle ∧ r.wdLast + max 0x30D40 r.wdTicks.toNat ≤ s.now then
    let s1 := s.updErr handle fun e => e.note codeWatchdog 0 0 0 0 0 0
    .next (closeRes ((writeDump s1 handle).updRes handle fun r => { r with wdFired := true }) handle .aborted)
  else .next s

/-! Banks on another tile (R233, R379). -/

/-- The granted banks go to another tile at the same addresses, with tag bits and marks (R233 step 3). -/
def moveBanks (t u : Tile) (g : BitVec 16) : Tile :=
  let at_ := fun (a : Nat) => g.getLsbD (a / 2 ^ 18 % 16)
  { u with
    tlm := (t.tlm.filter fun c => at_ c.1).foldl (fun m c => Memory.write m c.1 c.2) ((u.tlm.filter fun c => !at_ c.1))
    gtags := (t.gtags.filter fun n => at_ (n * 16)).foldl NSet.insert (u.gtags.filter fun n => !at_ (n * 16))
    poison := (t.poison.filter at_).foldl NSet.insert (u.poison.filter fun n => !at_ n)
    err1 := (t.err1.filter at_).foldl NSet.insert (u.err1.filter fun n => !at_ n)
    err2 := (t.err2.filter at_).foldl NSet.insert (u.err2.filter fun n => !at_ n)
    placed := u.placed ||| (t.placed &&& g) }

end Sys2Proof.Machine
end

