-- ==== Sys2Proof/Machine/Delsis.lean ====
section
/-!
DEFINITION. The Delsis controller: repair and naming (01 R13 to R22), defects, ceilings, retirement, grades, firmware and
attestation (16 R385 to R395), and bring-up (17 R409, R411).
-/

namespace Sys2Proof.Machine

/-! Row-shift repair (R15). -/

/-- The lowest bad pcol of a field row, given the index of its first tile; 13 for none. -/
def Fuses.firstBad (f : Fuses) (base : Nat) : Nat := ((upto 13).find? fun i => f.bad (base + i)).getD 13

/-- The physical tile that a logical position maps to. -/
def Fuses.mapped (f : Fuses) (n : Nat) : Nat :=
  let row := n / 144
  let col := n % 144
  let base := ((row / 12 * 12 + col / 12) * 12 + row % 12) * 13
  let j := col % 12
  base + (if j < f.firstBad base then j else j + 1)

/-- The live logical positions with their physical tiles, in rising order. -/
def Fuses.placed (f : Fuses) : AMap Nat :=
  (upto 12096).filterMap fun n => if f.bad (f.mapped n) then none else some (n, f.mapped n)

/-! Flawless rectangles (R19 to R22). -/

/-- A path of at most two live hops (R19). -/
def Fuses.connected (f : Fuses) (p q : Nat) : Bool := f.hop p q || (tileLinks p).any fun l => !f.linkBad l.1 && f.hop l.2 q

/-- How far a property of positions holds to the right, for each of the columns from c on, the leftmost first. -/
def runsFrom (ok joined : Nat → Bool) (row : Nat) : Nat → List Nat
  | 0 => []
  | k + 1 =>
    let rest := runsFrom ok joined row k
    let n := row * 144 + (143 - k)
    (if ok n then 1 + (if joined n then rest.headD 0 else 0) else 0) :: rest

/-- The runs of every position. -/
def runsOf (ok joined : Nat → Bool) : Array Nat := ((upto 84).flatMap fun r => runsFrom ok joined r 144).toArray

/-- The best rectangle found: row0, col0, height, width. -/
def better (a b : Nat × Nat × Nat × Nat) : Bool :=
  let x := b.2.2.1 * b.2.2.2
  let y := a.2.2.1 * a.2.2.2
  decide (y < x) || (x == y && a.1 == b.1 && a.2.1 == b.2.1 && decide (a.2.2.2 < b.2.2.2))

/-- Rectangles with a corner at n, by height h onward, w wide at most: the best of them, and whether one of at least 4 × 4 is met. -/
def growRect (across down : Array Nat) (n : Nat) : Nat → Nat → Nat → (Nat × Nat × Nat × Nat) × Bool → (Nat × Nat × Nat × Nat) × Bool
  | 0, _, _, acc => acc
  | fuel + 1, h, w, acc =>
    let w1 := min w (min (across.getD (n + 144 * (h - 1)) 0) (if h = 1 then 144 else down.getD (n + 144 * (h - 2)) 0))
    if w1 = 0 then acc
    else
      let r := (n / 144, n % 144, h, w1)
      growRect across down n fuel (h + 1) w1 (if better acc.1 r then r else acc.1, acc.2 || (decide (4 ≤ h) && decide (4 ≤ w1)))

/-- The flawless rectangle of largest area among the candidates, if one of at least 4 × 4 remains (R21). -/
def bestRect (f : Fuses) (phys : Array (Option Nat)) (used : List (Nat × Nat × Nat × Nat)) : Option (Nat × Nat × Nat × Nat) :=
  let ok := fun n => (phys.getD n none).isSome && !used.any (fun r => rectHas r n)
  let joined := fun d n => match phys.getD n none, phys.getD (n + d) none with
    | some p, some q => f.connected p q
    | _, _ => false
  let across := runsOf ok (joined 1)
  let down := runsOf (fun n => ok n && ok (n + 144) && joined 144 n) (fun _ => true)
  let b := (upto 12096).foldl (fun acc n => growRect across down n (84 - n / 144) 1 144 acc) ((0, 0, 0, 0), false)
  if b.2 then some b.1 else none

/-- Up to n more rectangles. -/
def rectsFrom (f : Fuses) (phys : Array (Option Nat)) : Nat → List (Nat × Nat × Nat × Nat) → List (Nat × Nat × Nat × Nat)
  | 0, used => used
  | n + 1, used => match bestRect f phys used with
    | none => used
    | some r => rectsFrom f phys n (used ++ [r])

/-- The rectangles of a module (R21). -/
def Fuses.rects (f : Fuses) (phys : AMap Nat) : List (Nat × Nat × Nat × Nat) :=
  rectsFrom f ((upto 12096).map (AMap.get? phys)).toArray 64 []

/-- LETTER (R392). -/
def gradeOf (live : Nat) (r : Nat × Nat × Nat × Nat) : BitVec 2 :=
  let h := r.2.2.1
  let w := r.2.2.2
  if 11904 ≤ live ∧ 144 ≤ w ∧ 80 ≤ h then 0 else if 11520 ≤ live ∧ 120 ≤ w ∧ 72 ≤ h then 1
  else if 10752 ≤ live ∧ 96 ≤ w ∧ 64 ≤ h then 2 else 3

/-! Retirement (R389). -/

/-- The grade counter rises (R390). -/
def Fuses.count (f : Fuses) (n : Nat) : Fuses := { f with gcount := min (f.gcount + n) 0xFFFF }

/-- A link's retirement bit is blown, and then the counter rises; a blown bit and one that names no link stay. -/
def Fuses.retireLink (f : Fuses) (bit : Nat) : Fuses :=
  if offArray bit || NSet.mem f.linkRetired bit then f else ({ f with linkRetired := NSet.insert f.linkRetired bit }).count 1

/-- A tile's retirement bit is blown, and those of its links with its router. -/
def Fuses.retireTile (f : Fuses) (p : Nat) (router : Bool) : Fuses :=
  let f1 := if NSet.mem f.tileRetired p then f else ({ f with tileRetired := NSet.insert f.tileRetired p }).count 1
  if router then (tileLinks p).foldl (fun f l => f.retireLink l.1) f1 else f1

def Fuses.retire (f : Fuses) (x : RetireTarget) : Fuses :=
  match x with
  | .tile p r => if p < 13104 then f.retireTile p r else f
  | .link b => f.retireLink b

/-- The bit that a retirement blows first, without the counter (R389). -/
def Fuses.blowFirst (f : Fuses) (x : RetireTarget) : Fuses :=
  match x with
  | .tile p _ => if p < 13104 then { f with tileRetired := NSet.insert f.tileRetired p } else f
  | .link b => if offArray b then f else { f with linkRetired := NSet.insert f.linkRetired b }

/-- The counter rule at boot (R389). -/
def Fuses.atBoot (f : Fuses) : Fuses :=
  { f with gcount := max f.gcount (min (f.tileRetired.length + f.linkRetired.length) 0xFFFF) }

/-- The ceiling CODE of a physical tile (R387). -/
def Fuses.ceiling (f : Fuses) (p : Nat) : Nat := 12 - min 12 (AMap.getD f.lowered p 0)

/-- Self-test of a live tile that fails at CODE c and above (R388): a lower ceiling, or retirement at 0. -/
def Fuses.selfTest (f : Fuses) (x : Nat × Nat) : Fuses :=
  if f.bad x.1 || decide (13104 ≤ x.1) || decide (f.ceiling x.1 < x.2) then f
  else if x.2 = 0 then f.retireTile x.1 false
  else { f with lowered := AMap.set f.lowered x.1 (12 - (x.2 - 1)) }

/-- Self-test of every tile, router and link that was neither defective nor retired before it: a router's failure marks its links whether
or not its tile has just failed too (R18, R389, R391 step 3). -/
def Fuses.selfTests (f : Fuses) (b : BootInput) : Fuses :=
  let f1 := b.tileFail.foldl Fuses.selfTest f
  let f2 := b.routerFail.foldl (fun f' p => if decide (13104 ≤ p) || f.bad p then f' else f'.retireTile p true) f1
  b.linkFail.foldl (fun f l => if f.linkBad l then f else f.retireLink l) f2

/-! Tile death at run time (R393). -/

/-- The logical position of a physical tile. -/
def State.logical (s : State) (p : Nat) : Option Nat := (s.phys.find? fun x => x.2 == p).map (·.1)

/-- Step 1 of R393: the tile stops, its mask bit is set in every group, and a phase that waited for it alone releases (R310). -/
def maskTile (s : State) (tile : Nat) : State :=
  releaseGroups (s.updTile tile fun t => { t with members := t.members.map fun m => { m with mask := true }, alive := false })
    ((s.tile tile).members.map (·.group))

/-- Steps 1, 2 and 4 of R393 for a logical tile: the aborts are asked for, and each is made by RESIDENCY_ABORT, the other tiles going on
until then (R423). -/
def killTile (s : State) (tile : Nat) : State :=
  let s1 := maskTile s tile
  match (List.range s.rects.length).find? fun i => rectHas (nthD s.rects i (0, 0, 0, 0)) tile with
  | none => s1
  | some i =>
    let hs := (AMap.keys s.res).filter fun h => liveRes (s.resOf h) && (match (s.resOf h).region with
      | some g => g.rect == i
      | none => false)
    let s2 := hs.foldl (fun s h => s.updRes h fun r => { r with abortAsked := true, tileLost := true }) s1
    { s2 with closedRects := NSet.insert s2.closedRects i }

/-- The mesh links that a retirement takes out of service. -/
def retiredLinks (x : RetireTarget) : List Nat := match x with
  | .tile p true => (tileLinks p).map (·.1)
  | .tile _ false => []
  | .link b => [b]

/-- The ordered routes that the controller computes again around links that have failed (R393; log entry 25): the feeds, streams and ways of
every node; its watermarks and what is queued there stay. -/
def reroute (s : State) : State :=
  { s with onodes := AMap.mapVals s.onodes fun n x =>
    { x with outputs := (Config.reroutes s.steps n).map fun r =>
        match x.outputs.find? fun o => o.next == r.2.2 with
        | some o => { o with feeds := r.1, osns := r.2.1 }
        | none => ⟨r.1, r.2.1, r.2.2, [], 0, 0⟩ } }

/-- The Delsis controller retires a tile or link; retirements are made one at a time, each whole. Links that fail cut the sweeps whose
placement they disconnect, and routes are computed again around them (R306, R389, R393, R395). -/
def retireNow (s : State) (x : RetireTarget) : State :=
  let s1 := match x with
    | .tile p _ => match s.logical p with
      | some k => killTile s k
      | none => s
    | .link _ => s
  let s2 := { s1 with fuses := s1.fuses.retire x, retireDue := s1.retireDue.filter (· != x) }
  if (retiredLinks x).isEmpty then s2 else partitionCut (reroute s2)

/-- TILE_RETIREMENT: a retirement that is due, after a monitor double fault, or of a tile whose router stops answering handshakes
(R366, R389, R393). -/
def execTileRetirement (target : RetireTarget) (s : State) : Out :=
  let due := match target with
    | .tile _ r => r || s.retireDue.any (· == target)
    | .link _ => s.retireDue.any (· == target)
  .next (if due then retireNow s target else s)

/-- HOST_RETIRE: the host's command (R389). -/
def execHostRetire (target : RetireTarget) (s : State) : Out := .next (if hostAnswered s then retireNow s target else s)

/-- LINK_STOPS_ANSWERING: a mesh link that was in use is retired (R389). -/
def execLinkStopsAnswering (link : Nat) (s : State) : Out := .next (if s.fuses.linkBad link then s else retireNow s (.link link))

/-! Firmware, keys and attestation (R394, R395). -/

/-- Whether the boot ROM accepts an image (R394). -/
def accepts (f : Fuses) (x : Firmware) : Bool :=
  decide (Config.keyHash x.key = f.rootKey) && Config.mldsaVerify x.key (BitVec.ofNat 512 x.digest) (leBytes 3309 x.sig)
    && decide (f.secVersion ≤ x.version)

/-- An accepted image raises the fused security version. -/
def Fuses.accepted (f : Fuses) (x : Firmware) : Fuses := { f with secVersion := max f.secVersion x.version }

/-- A failure code of recovery mode, which the spec does not state (log entry 26). -/
def recoveryCode (s : State) : Nat := (Config.freeWord s.steps).toNat % 255 + 1

/-- RECOVERY_IMAGE_LOAD: in recovery mode, an image that the boot ROM accepts takes the place of the first one it has not accepted,
and bring-up may begin again (R394). -/
def execRecoveryImageLoad (img : Firmware) (s : State) : Out :=
  if s.bootStage = stageRecovery ∧ accepts s.fuses img = true then
    let s1 := { s with fuses := s.fuses.accepted img, bootStage := 0, bootFail := 0 }
    .next (if s.delsisImg = Firmware.blank then { s1 with delsisImg := img }
      else if s.monitorImg = Firmware.blank then { s1 with monitorImg := img } else { s1 with dispatchImg := img })
  else .next s

/-- KEY_SLOT_FILL: a command signed by the owner key fills one of 16 slots, from the stage at which BAR0 answers; the first such command
takes the module into use, and fuses the hash of its key (R394, R411). The command carries the owner's key above its 3,309-byte
signature, which covers the slot number and the key (log entry 31). -/
def execKeySlotFill (slot key sig : Nat) (s : State) : Out :=
  let owner := sig / 2 ^ 26472
  let digest := Config.shake256 (leBytes 1 slot ++ leBytes 1952 key)
  if slot < 16 ∧ hostAnswered s ∧ (s.fuses.ownerKey = none ∨ s.fuses.ownerKey = some (Config.keyHash owner)) ∧
      Config.mldsaVerify owner digest (leBytes 3309 (sig % 2 ^ 26472)) = true then
    .next { s with keySlots := AMap.set s.keySlots slot key, fuses := { s.fuses with ownerKey := some (Config.keyHash owner) } }
  else .next s

/-- The bytes of a bitmap of n bytes. -/
def bitBytes (bit : Nat → Bool) (n : Nat) : List Byte :=
  (upto n).map fun i => BitVec.ofNat 8 ((upto 8).foldl (fun x j => if bit (8 * i + j) then x + 2 ^ j else x) 0)

def Fuses.tileBits (f : Fuses) : List Byte := bitBytes (NSet.mem f.tileDefect) 1638

/-- The link defect bits, with those that name no link (R386). -/
def Fuses.linkBits (f : Fuses) : List Byte :=
  bitBytes (fun b => decide (b < 39312) && (offArray b || NSet.mem f.linkDefect b)) 4914

def Fuses.tileRetireBits (f : Fuses) : List Byte := bitBytes (NSet.mem f.tileRetired) 1638
def Fuses.linkRetireBits (f : Fuses) : List Byte := bitBytes (NSet.mem f.linkRetired) 4914
def Fuses.ceilings (f : Fuses) : List Byte := (upto 13104).map fun p => BitVec.ofNat 8 (f.ceiling p)

/-- Summary word 0 (R390). -/
def summary0 (s : State) : Word :=
  s.letter ++ BitVec.ofNat 7 s.rects.length ++ 0#7 ++ BitVec.ofNat 16 s.fuses.gcount ++ 0#18 ++ BitVec.ofNat 14 s.live

/-- A rectangle in the layout of word 1 of R390. -/
def rectWord (r : Nat × Nat × Nat × Nat) : Word :=
  0#32 ++ BitVec.ofNat 8 r.1 ++ BitVec.ofNat 8 r.2.1 ++ BitVec.ofNat 8 r.2.2.1 ++ BitVec.ofNat 8 r.2.2.2

def summary1 (s : State) : Word := rectWord (nthD s.rects 0 (0, 0, 0, 0))

def digestBytes (x : BitVec 512) : List Byte := leBytes 64 x.toNat

/-- Bytes 0 to 383 of an attestation report (R395). -/
def reportHead (s : State) (nonce : BitVec 256) : List Byte :=
  let f := s.fuses
  leBytes 32 nonce.toNat ++ leBytes 64 s.delsisImg.digest ++ leBytes 64 s.monitorImg.digest ++ leBytes 64 s.dispatchImg.digest
    ++ digestBytes (Config.shake256 (f.tileBits ++ f.linkBits ++ f.ceilings))
    ++ digestBytes (Config.shake256 (f.tileRetireBits ++ f.linkRetireBits))
    ++ leBytes 8 (summary0 s).toNat ++ leBytes 8 (summary1 s).toNat ++ leBytes 8 s.refTime ++ leBytes 8 f.secVersion

/-- ATTESTATION_REPORT (R395). -/
def execAttestationReport (nonce : BitVec 256) (s : State) : Out :=
  let head := reportHead s nonce
  let sig := leBytes 3309 (Config.attest (Config.shake256 head))
  .next (if hostAnswered s then { s with reports := s.reports ++ [head ++ sig ++ [0, 0, 0]] } else s)

/-! Bring-up (R391, R409, R411). -/

/-- The supply of a tile in millivolts by its CODE: 0.45 + 0.2 × CODE / 12 V rounded up to 5 mV (R409). -/
def supplyOf (code : Nat) : Nat := 450 + 5 * ceilDiv (10 * code) 3

/-- Stage 0x01, and the check of stage 0x06: an image that is not in service yet is checked and comes into service (R394). -/
def takeImage (s : State) (held : Firmware) (x : Option Firmware) : Option (Firmware × Fuses) :=
  if held ≠ Firmware.blank then some (held, s.fuses)
  else match x with
    | none => none
    | some i => if accepts s.fuses i then some (i, s.fuses.accepted i) else none

/-- Stage 0x05 (R391 steps 2 to 6). -/
def bootNaming (s : State) (b : BootInput) : State :=
  let f := (s.fuses.atBoot).selfTests b
  let phys := f.placed
  let rects := f.rects phys
  { s with
    fuses := f, phys := phys, rects := rects, closedRects := [], live := phys.length
    letter := gradeOf phys.length (nthD rects 0 (0, 0, 0, 0)) }

/-- A tile with its monitor loaded and context 0 running it (log entry 11). -/
def monitorTile (n : Nat) : Tile :=
  let c := { Ctx.init with role := .monitor, mode := .running, pcc := ⟨true, Config.monitorPcc n⟩ }
  { (Tile.init.writeTlm 0 ((Config.monitorText n).take (2 ^ 22))).setCtx 0 c with monExec := Config.monitorExec n }

/-- The tiles, regulators and least grants of stage 0x06 (R409, R410). -/
def bootTiles (s : State) : State :=
  { s with
    tiles := s.phys.map fun x => (x.1, { monitorTile x.1 with count := s.refTime * 2 ^ 16, edgeAt := s.now })
    regulators := (upto 13104).map fun p => (p, supplyOf (s.fuses.ceiling p))
    grants := s.phys.foldl (fun m x => AMap.set m x.2 16) [] }

/-- The node of the ordered class as the controller fixes it (R276; log entry 25). -/
def bootNode (n : Nat) : ONode :=
  { inputs := [], outputs := (Config.orderedRoutes n).map fun r => ⟨r.1, r.2.1, r.2.2, [], 0, 0⟩ }

/-- The bits of a route word: the adaptive mask and the single port (R403). -/
def routeMask : Word := 0x3F00000FFFFFFFFF

/-- Stage 0x07: ports, pod formation with its table and route words, and TIME stepped forward to the pod's (R271, R403). -/
def bootPod (s : State) (b : BootInput) : State :=
  let step : Int := if b.root then 0 else max 0 ((b.podTime.toNat : Int) - s.refTime)
  { s with
    module := b.module % 64, podRoot := b.root, refOff := s.refOff + step
    tiles := AMap.mapVals s.tiles fun _ t => { t with count := t.count + step.toNat * 2 ^ 16 }
    links := (b.portsUp.filter fun x => decide (x.1 < 36)).foldl (fun m x => AMap.set m x.1
      { LinkPort.init with table := BitVec.ofNat 64 (x.2.1 % 64 * 2 ^ 58 + x.2.2 % 64 * 2 ^ 52 + 2) }) []
    routes := (b.routes.filter fun x => decide (x.1 < 64)).foldl (fun m x => AMap.set m x.1 (x.2 &&& routeMask)) []
    onodes := s.phys.map (fun x => (x.1, bootNode x.1)) ++ (upto 36).map fun p => (linkNode p, bootNode (linkNode p)) }

/-- The image of a stage is rejected: recovery mode (R394, R411). -/
def toRecovery (s : State) : State := { s with bootStage := stageRecovery, bootFail := recoveryCode s }

/-- The stages 0x02 to 0x08, from a stage on; a stage that stops leaves its number and failure code (R411). -/
def bootFrom (b : BootInput) : Nat → Nat → State → State
  | 0, _, s => s
  | fuel + 1, n, s =>
    let stop := match b.stopAt with
      | some (k, c) => if k = n ∧ c % 256 ≠ 0 then some (c % 256) else none
      | none => none
    match stop with
    | some c => { s with bootStage := n, bootFail := c }
    | none =>
      if n = 2 then bootFrom b fuel 3 { s with bootStage := 2, regulators := (upto 13104).map fun p => (p, 450) }
      else if n = 4 then bootFrom b fuel 5 { s with bootStage := 4, hostUp := 3 }
      else if n = 5 then bootFrom b fuel 6 { (bootNaming s b) with bootStage := 5 }
      else if n = 6 then
        match takeImage s s.monitorImg b.images[1]? with
        | none => toRecovery s
        | some (m, f1) =>
          let s1 := { s with monitorImg := m, fuses := f1 }
          match takeImage s1 s1.dispatchImg b.images[2]? with
          | none => toRecovery s1
          | some (d, f2) => bootFrom b fuel 7 { (bootTiles { s1 with dispatchImg := d, fuses := f2 }) with bootStage := 6 }
      else if n = 7 then bootFrom b fuel 8 { (bootPod s b) with bootStage := 7 }
      else if n = 8 then { s with bootStage := 8 }
      else bootFrom b fuel (n + 1) { s with bootStage := n }

/-- POWER_ON: from power-on, or again after a recovery image, the stages of R411. -/
def execPowerOn (obs : BootInput) (s : State) : Out :=
  if s.powered ∧ s.bootStage ≠ 0 then .next s
  else
    let s1 := { s with powered := true }
    match takeImage s1 s1.delsisImg obs.images[0]? with
    | none => .next (toRecovery s1)
    | some (d, f) => .next (bootFrom obs 8 2 { s1 with delsisImg := d, fuses := f, bootStage := 1 })

/-- POWER_LOSS: all activity ends; fuses stay, and so do the memories that are not this module's. Between blowing a bit and
incrementing the counter, the first retirement due has blown its bit (R389). -/
def execPowerLoss (between : Bool) (s : State) : Out :=
  let f := match between, s.retireDue with
    | true, x :: _ => s.fuses.blowFirst x
    | _, _ => s.fuses
  let mine := fun (a : Nat) => a / 2 ^ 44 % 4 == 0 && a / 2 ^ 46 == s.module
  .next { State.reset with
    agenda := s.agenda, phase := s.phase, steps := s.steps, powered := false, fuses := f
    gmem := s.gmem.filter (fun c => !mine c.1), gpoison := s.gpoison.filter fun a => !mine a
    gerr1 := s.gerr1.filter fun a => !mine a, gerr2 := s.gerr2.filter fun a => !mine a }

/-! Droops and the Cox (R409, R410). -/

/-- Whether a droop has stopped a physical tile. -/
def drooping (s : State) (phys : Nat) : Bool := match s.logical phys with
  | some k => (s.tile k).drooped
  | none => false

/-- DROOP_STOP: the tile stops, if it runs, and its count of droop stops rises (R409). -/
def execDroopStop (phys : Nat) (s : State) : Out :=
  if 13104 ≤ phys ∨ drooping s phys then .next s
  else
    let s1 := { s with droops := AMap.set s.droops phys (sat32 (AMap.getD s.droops phys 0 + 1)) }
    .next (match s.logical phys with
      | some k => s1.updTile k fun t => { t with drooped := true }
      | none => s1)

/-- DROOP_RECOVERY: the supply recovers, and the tile goes on where it stopped (R409). -/
def execDroopRecovery (phys : Nat) (s : State) : Out :=
  .next (match s.logical phys with
    | some k => s.updTile k fun t => { t with drooped := false }
    | none => s)

/-- The quanta that the Cox shares: those of the core rails less the halt reserve (R410). -/
def coxBudget : Nat := 687500 - 4096

/-- A grant: the demand while the budget lasts; else 16, and of what is demanded above 16 the part that the rest of the budget is of all
such demand. `n` is the number of live tiles, `total` the sum of their demands, each at least 16 (R410; log entry 30). -/
def grantFor (n total d : Nat) : Nat :=
  min 0xFFFF (if total ≤ coxBudget then max 16 d else 16 + (d - 16) * (coxBudget - 16 * n) / (total - 16 * n))

/-- COX_EPOCH: at each 1 µs epoch the live tiles' demands are granted (R410). -/
def execCoxEpoch (s : State) : Out :=
  if s.now < s.lastEpoch + 4000 then .next s
  else
    let ds := s.phys.map fun x => (x.2, Config.demand s.steps x.2)
    let total := ds.foldl (fun n x => n + max 16 x.2) 0
    .next { s with lastEpoch := s.lastEpoch + 4000, grants := ds.foldl (fun m x => AMap.set m x.1 (grantFor ds.length total x.2)) s.grants }

end Sys2Proof.Machine
end

