-- ==== Sys2Proof/Machine/Traps.lean ====
section
/-!
DEFINITION. The events of the trap and halt hardware: late traps, window closes, unused encodings, failed fetches, BRK's release,
pre-emption (03 R79, R81, R87, 12 R312, 14 R344, 15 R365, R368, R371, R372).
-/

namespace Sys2Proof.Machine

/-- UNUSED_ENCODING: the context's word is no instruction; it traps ILLEGAL with its words (R86, R87). -/
def execUnusedEncoding (w0 : BitVec 32) (w1 : Option (BitVec 32)) (s : State) : Out :=
  finishTry s (.error (.trap codeIllegal ((w1.getD 0) ++ w0)))

/-- FETCH_FAULT: the fetch of a word failed the check of R344; `p` is the address that the trap reports. An uncorrectable
word is marked and counted (R381). -/
def execFetchFault (code : Nat) (p : Addr) (_ : Option (BitVec 32)) (s : State) : Out :=
  let s1 := if code = codeEcc.toNat then s.setHere (s.here.touchRead p.toNat 4) else s
  finishTry s1 (.error (.trap (BitVec.ofNat 8 code) (p.setWidth 64)))

/-- A context that stands at instruction boundaries of its own: a stopped, trapped or halted one keeps its windows and late traps as
they are (R82, R365). -/
def Ctx.goesOn (c : Ctx) : Bool := decide (c.mode = .running) && !c.halted

/-- TRAP_TAKEN: the context's oldest due late trap is taken at its boundary (R81, R240, R365). -/
def execTrapTaken (tile ctx : Nat) (s : State) : Out :=
  if ((s.tile tile).ctx ctx).goesOn then
    match lateTaken s tile ctx with
    | some s1 => .next s1
    | none => .next s
  else .next s

/-- Whether a window's count has run out and its result can be written (R79). -/
def winReady (t : Tile) (c : Ctx) (w : Win) : Bool := w.left == 0 && w.arrived && !Ctx.winBusy t c w

/-- WINDOW_CLOSE: the result of the context's window number `win`, in its list, is written, or its failure is raised as a
late trap (R79, R81). -/
def execWindowClose (tile ctx win : Nat) (s : State) : Out :=
  let t := s.tile tile
  let c := t.ctx ctx
  match c.wins[win]? with
  | none => .next s
  | some w =>
    if winReady t c w && c.goesOn then
      let s1 := s.setTile tile (t.setCtx ctx (c.closeWin w))
      match lateTaken s1 tile ctx with
      | some s2 => .next s2
      | none => .next s1
    else .next s

/-- BRK_RELEASE: the Delsis controller lets a context 0 stopped by BRK go on (R368). -/
def execBrkRelease (tile : Nat) (s : State) : Out := .next (s.updTile tile fun t => { t with brk := false })

/-- PREEMPT_TOKEN: a SYS token of the dispatcher starts the halt (R371). -/
def execPreemptToken (tile : Nat) (s : State) : Out := .next (preemptHalt s tile)

/-- PREEMPT_REQUEST: context 0 has written PREEMPT.REQ = 1 (R371). -/
def execPreemptRequest (tile : Nat) (s : State) : Out := .next (preemptHalt s tile)

/-- PREEMPT_RESUME: context 0 has written PREEMPT.REQ = 0 (R372). -/
def execPreemptResume (tile : Nat) (s : State) : Out := .next (s.updTile tile Tile.resumeHalted)

/-- Whether steps 2 to 4 of R371 are complete: no helper runs, no vector instruction of a helper is queued, and the engines stand at a
boundary. -/
def Tile.haltStands (t : Tile) : Bool :=
  t.preReq && t.engCmds.all EngCmd.atBoundary && (upto 10).all fun i =>
    let c := t.ctx (i + 1)
    (decide (c.mode ≠ .running) || c.halted) && c.vq.isEmpty

/-- A halt whose completion HALTED does not show yet. -/
def Tile.haltComplete (t : Tile) : Bool := !t.preHalted && t.haltStands

/-- HALTED is set, with the time that the halt has taken; once set it stays as it is (R372). -/
def Tile.showHalted (t : Tile) (now : Nat) : Tile :=
  if t.preHalted then t else { t with preHalted := true, preElapsed := min (now - t.preAt) 0xFFFF }

/-- HALTED: the halt is complete (R371, R372). -/
def execHaltedSet (tile : Nat) (s : State) : Out :=
  let t := s.tile tile
  if t.haltComplete then .next (s.setTile tile (t.showHalted s.now))
  else .next s

/-- WDOG_WRITE: context 0 of a tile writes the region's setting (R312). -/
def execWdogWrite (tile : Nat) (v : Word) (s : State) : Out := .next (wdogWrite s tile v)

end Sys2Proof.Machine
end

