-- ==== Sys2Proof/Machine/Snapshot.lean ====
section
/-!
DEFINITION. Snapshots and restores (15 R374 to R380), and the placement of a queued residency or restore (02 R62).
-/

namespace Sys2Proof.Machine

/-! Nodes of a residency on a tile. -/

/-- The inputs whose SNAP a node waits for, inert ones included (R375). -/
def Tile.markInputs (t : Tile) (a : Nat) : List (Nat × Port) := t.inputs a

def Tile.isSource (t : Tile) (a : Nat) : Bool := (t.counted a).isEmpty

/-- The helpers of a tile whose actor a snapshot holds halt. -/
def haltTile (s : State) (tile : Nat) : State := (upto 10).foldl (fun s i => haltHeld s tile (i + 1)) s

/-- The helpers of a held actor's live firing, and the teams of its sweeps on every placement tile, halt (R371, R375). -/
def haltActor (s : State) (tile a : Nat) : State :=
  (tile :: (AMap.vals s.sweeps).flatMap fun w => if w.tile = tile ∧ w.actor = a then w.tiles else []).eraseDups.foldl haltTile s

/-- An actor is held (R375). -/
def holdActor (s : State) (tile a : Nat) : State :=
  if ((s.tile tile).actor a).held then s
  else haltActor (s.updTile tile fun t => t.setActor a { t.actor a with held := true }) tile a

def holdOper (s : State) (tile o : Nat) : State := s.updTile tile fun t => match t.oper o with
  | some x => t.setOper o { x with held := true }
  | none => t

/-- Whether SNAP has gone out on a channel: its source is held or stopped, behind every token it has put; what falls due later waits for
the restore (R374, R375; log entry 92). -/
def snapOut (s : State) (id : Nat) (c : Chan) : Bool :=
  match c.src with
  | .port t p =>
    let x := (s.tile t).port p
    let a := (s.tile t).actor x.actor
    decide (x.chan ≠ some id) || a.held || ((s.tile t).isSource x.actor && a.live.isNone)
  | .oper t o _ => match (s.tile t).oper o with
    | some x => x.held
    | none => true
  | _ => true

/-- SNAP's payload: bit j for SEQ s − 1 − j reserved and unfilled (R375). -/
def snapPayload (c : Chan) : Nat :=
  (upto 15).foldl (fun n j => if decide (j < c.seq) && (AMap.get? c.reserved (c.seq - 1 - j)).isSome then n + 2 ^ j else n) 0

/-- An input port takes its marker, and the node it belongs to is held. -/
def markPort (s : State) (tile p : Nat) (m : Nat × Nat) : State :=
  let x := (s.tile tile).port p
  let s1 := s.updTile tile fun t => t.setPort p { x with marker := some m }
  if x.stream.isSome then s1 else holdActor s1 tile x.actor

def markOper (s : State) (tile o e : Nat) (m : Nat × Nat) : State := s.updTile tile fun t => match t.oper o with
  | some x => t.setOper o (if e = 0 then { x with marker0 := some m, held := true } else { x with marker1 := some m, held := true })
  | none => t

/-- The SNAP of a branch into a port fabric is held at its ingress point (R376). -/
def markBranch (s : State) (chan branch : Nat) (m : Nat × Nat) : State := match s.chan? chan with
  | none => s
  | some c => match c.branches[branch]? with
    | none => s
    | some b => s.setChan chan { c with branches := setAt c.branches branch { b with snap := some m } }

/-- SNAP_ARRIVAL: the SNAP of a branch, every token below it having arrived, is held in the input's marker cell, or at the ingress point
of a port fabric (R375, R376). -/
def execSnapArrival (chan branch : Nat) (s : State) : Out :=
  match s.chan? chan with
  | none => .next s
  | some c => match c.branches[branch]? with
    | none => .next s
    | some b =>
      if (s.resOf c.handle).snapping && snapOut s chan c && b.flights.isEmpty && c.forkQ.isEmpty && endLive s chan branch b.dst then
        let m := (c.seq + b.base, snapPayload c)
        .next (match b.dst with
          | .port t p | .stream t p => if ((s.tile t).port p).marker.isSome then s else markPort s t p m
          | .oper t o e => markOper s t o e m
          | .fabric _ _ => markBranch s chan branch m
          | _ => s)
      else .next s

/-! SNAP (R374). -/

/-- The sources of a slot's graph: actors without counted inputs, and ends off the tiles. -/
def graphSources (s : State) (g : Region) (es : List IEdge) : List INode :=
  (es.map (·.x)).eraseDups.filter fun n => match n with
    | .actor row col a => (s.tile (s.regionTile g row col)).isSource a
    | .oper _ _ _ => false
    | .free _ _ => true

/-- The dispatcher holds at once what no source reaches (R374 step 3). -/
def holdUnreached (s : State) (g : Region) (es : List IEdge) : State :=
  let far := reachNodes es es.length (graphSources s g es)
  ((es.flatMap fun e => [e.x, e.y]).eraseDups).foldl (fun s n =>
    if far.any (· == n) then s
    else match n with
      | .actor row col a => holdActor s (s.regionTile g row col) a
      | .oper row col o => holdOper s (s.regionTile g row col) o
      | .free _ _ => s) s

/-- Markers of the inputs that no channel ends at: ordered inputs and the fault port (R376). -/
def markOthers (s : State) (h : Nat) (ws : List Word) : State :=
  let s1 := (s.resTiles h).foldl (fun s k =>
    ((s.tile k).slot.ports.filter fun p => p.2.declared && !p.2.output && p.2.ordered).foldl (fun s p =>
      markPort s k p.1 (max p.2.oseq p.2.h, 0)) s) s
  match faultPort s1 h ws with
  | some (k, p) => markPort s1 k p (max ((s1.tile k).port p).oseq ((s1.tile k).port p).h, 0)
  | none => s1

/-- A snapshot begins: the sources stop, and the first markers are placed (R374 steps 2 and 3, R376). -/
def snapBegin (s : State) (h : Nat) : State :=
  match (s.resOf h).image, (s.resOf h).region with
  | some ws, some g =>
    let s1 := s.updRes h fun r => { r with snapping := true, snapDue := false, faultHold := true }
    (roleSlots ws).foldl (fun s n => holdUnreached s g (slotEdges (imgRecs ws) n)) (markOthers s1 h ws)
  | _, _ => s

/-- A snapshot that waited for a move begins (R374 step 1). -/
def snapNext (s : State) (h : Nat) : State := if (s.resOf h).snapDue then snapBegin s h else s

/-- SNAP: the rebalancer stops, a move in flight completing first, and the snapshot begins (R374); ignored unless the residency runs, and
while a snapshot is under way (R400). -/
def execSnapCmd (handle : Nat) (s : State) : Out :=
  let r := s.resOf handle
  if r.state ≠ .running ∨ r.snapping then .next s
  else if r.moving.isSome then .next (s.updRes handle fun r => { r with snapDue := true })
  else .next (snapBegin s handle)

/-! Completion (R374 step 5). -/

/-- A DIR 1 stream has stopped at its port's marker: every token ahead of it is written, or the stream does not run (R376). -/
def streamAtMark (t : Tile) (p : Port) : Bool := match p.stream with
  | none => true
  | some n => p.marker.isSome && (p.q.isEmpty || !(t.stream n).run)

/-- Every node of a tile is complete. -/
def nodesComplete (t : Tile) : Bool :=
  t.slot.actors.all (fun a => !a.2.declared || (if t.isSource a.1 then a.2.live.isNone || a.2.held else a.2.held)
      && (t.markInputs a.1).all (·.2.marker.isSome))
    && (AMap.vals t.slot.opers).all (fun o => o.held && o.marker0.isSome && (decide (o.kind = .carry) || o.marker1.isSome))
    && (AMap.vals t.slot.ports).all fun p => p.output || streamAtMark t p

/-- What a residency's SNAPs must have reached beyond its tiles: the ingress points of the port fabrics that its channels lead to
(R376). -/
def fabricsMarked (s : State) (h : Nat) : Bool := s.chans.all fun c => c.2.handle != h || c.2.branches.all fun b => match b.dst with
  | .fabric _ _ => b.snap.isSome
  | _ => true

/-- No ordered message of a residency's senders is on its way: each has come to the node where it leaves the module or is ejected. What
waits at an ejection is saved there (R283, R376; log entry 92). -/
def ordQuiet (s : State) (h : Nat) : Bool :=
  let own := fun (m : Token) => m.resid == (s.resOf h).resid
  !(s.resTiles h).any (fun k => (s.tile k).inject.any own) && !s.oflights.any (fun f => f.msg.any own)
    && !(AMap.vals s.onodes).any fun x => x.outputs.any fun o => o.next.isSome && o.q.any fun y => own y.2

/-- What keeps a halted tile from being complete: requests unanswered, other than those of reserved slots, and remote lines. -/
def repliesDue (s : State) (tile : Nat) : Bool :=
  (AMap.vals (s.tile tile).reqs).any (fun q => q.ctxNo != 0 && q.seq.isNone)
    || (AMap.vals s.rlines).any fun l => l.src == tile || l.dst == tile

/-- The banks that actors of a tile are granted. -/
def grantedBanks (t : Tile) : BitVec 16 :=
  (AMap.vals t.slots).foldl (fun g x => (AMap.vals x.actors).foldl (fun g a => g ||| a.grant) g) 0

/-! The records written to the snapshot area (R378; log entry 29 for the layouts that the spec leaves open). -/

def SnapRec.toWords (r : SnapRec) : List Word :=
  BitVec.ofNat 64 (r.typ % 64 * 2 ^ 58 + r.row % 256 * 2 ^ 48 + r.col % 256 * 2 ^ 40 + r.words.length % 2 ^ 20 * 2 ^ 20 + r.arg % 2 ^ 20) :: r.words

def snapRec (typ : Nat) (pos : Nat × Nat) (arg : Nat) (ws : List Word) : SnapRec := ⟨typ, pos.1, pos.2, arg, ws⟩

def boolW (b : Bool) : Word := if b then 1 else 0

/-- FRAME: every frame of the tile, waiting tasks included. -/
def frameRecs (t : Tile) (pos : Nat × Nat) : List SnapRec :=
  (t.allCtxs.filter fun c => c.1 != 0 && decide (c.2.mode ≠ .free)).map fun c =>
    snapRec 0x10 pos 0 (BitVec.ofNat 64 c.1 :: (upto 0x217).map c.2.frameRead)

/-- The words of an ordered header (R275). -/
def ohdrWords (h : OHdr) : List Word := [BitVec.ofNat 64 h.osn, h.stamp, BitVec.ofNat 64 h.module, h.tile.setWidth 64, BitVec.ofNat 64 h.seq]

/-- QUEUE: a queue's tokens in SEQ order with header, scale byte, the ordered header of a message (R283), and payload. -/
def queueRecs (t : Tile) (pos : Nat × Nat) : List SnapRec :=
  (t.slot.ports.filter fun p => p.2.declared && !p.2.output).map fun p =>
    snapRec 0x11 pos 0 (BitVec.ofNat 64 (p.1 * 2 ^ 32 + p.2.h % 2 ^ 32) :: p.2.q.flatMap fun y =>
      (y.2.header.extractLsb' 0 48).setWidth 64 :: y.2.scale.setWidth 64 :: (y.2.ohdr.map ohdrWords).getD []
        ++ (upto (if p.2.line then 8 else 1)).map fun i => lineWord (t.payload p.2 y.1) i)

def accRecs (t : Tile) (pos : Nat × Nat) : List SnapRec := (upto 4).map fun n =>
  let a := t.acc n
  snapRec 0x12 pos n (accWord a :: (upto 1024).map (a.elem) ++ a.buf.flatMap (fun x => (upto 8).map (lineWord x)) ++ [BitVec.ofNat 64 a.sent])

/-- One bit per index, 64 to a word. -/
def bitWords (s : NSet) (lo n : Nat) : List Word := (upto (n / 64)).map fun i => wordOf fun b => NSet.mem s (lo + 64 * i + b)

def fabricRecs (t : Tile) (pos : Nat × Nat) : List SnapRec :=
  let f := t.fabric
  let wires := (upto 4).flatMap fun c => (upto (f.wire c).n).flatMap fun j => [(f.cell c j).extractLsb' 0 64, (f.cell c j).extractLsb' 64 64]
  [snapRec 0x13 pos 0 ((upto 2048).map f.plane ++ (upto 1024).map f.table ++ wires ++ bitWords f.pPlanes 0 2048 ++ bitWords f.pTables 0 1024
    ++ bitWords f.pCells 0 2048 ++ (upto 4).map (fun c => BitVec.ofNat 64 (f.wire c).n) ++ [f.cur.setWidth 64]
    ++ [BitVec.ofNat 64 ((f.owner.map (· + 8)).getD 0)])]

def tokWords (o : Option Token) : List Word := match o with
  | none => [0]
  | some x => BitVec.ofNat 64 (2 ^ 63 + x.kind.code.toNat) :: (upto 8).map (lineWord x.payload)

def operRecs (t : Tile) (pos : Nat × Nat) : List SnapRec := t.slot.opers.map fun o =>
  snapRec 0x14 pos o.1 ([o.2.init, boolW o.2.emitted, BitVec.ofNat 64 o.2.errs, BitVec.ofNat 64 o.2.h0, BitVec.ofNat 64 o.2.h1]
    ++ tokWords o.2.in0 ++ tokWords o.2.in1)

def streamRecs (t : Tile) (pos : Nat × Nat) : List SnapRec := t.slot.streams.map fun x =>
  snapRec 0x15 pos x.1 (x.2.desc ++ [BitVec.ofNat 64 x.2.pos, x.2.stateWord x.1])

/-- TLMB: a granted bank with its tag bits and poison bits. -/
def bankRecs (t : Tile) (pos : Nat × Nat) : List SnapRec :=
  ((upto 16).filter fun b => (grantedBanks t).getLsbD b).map fun b =>
    snapRec 0x16 pos 0 (BitVec.ofNat 64 b :: ((upto 32768).map (fun i => BitVec.ofNat 64 (t.readTlm (b * 2 ^ 18 + 8 * i) 8))
      ++ bitWords t.gtags (b * 16384) 16384
      ++ (upto 512).map fun i => wordOf fun k => NSet.mem t.poison (b * 2 ^ 18 + 8 * (64 * i + k))))

/-- A claim as a word: 0 for none, the actor's number plus 1 otherwise. -/
def claimW (o : Option Nat) : Word := BitVec.ofNat 64 ((o.map (· + 1)).getD 0)

/-- The claims of a tile: its accumulators', its fabric's, its streams'. -/
def claimWords (t : Tile) : List Word :=
  (upto 4).flatMap (fun n => [claimW (t.acc n).owner, claimW (t.acc n).iOwner]) ++ [claimW t.fabric.owner, claimW t.fabric.iOwner]
    ++ (upto 8).map fun n => claimW (t.stream n).claim

/-- The room counts and the sequence counter of an output: of its channel's branches, or an ordered output's credits. -/
def roomWords (s : State) (p : Nat × Port) : List Word :=
  let c : Option Chan := p.2.chan.bind s.chan?
  let rooms : List Nat := match c with
    | some (c : Chan) => c.branches.map (·.room)
    | none => p.2.credits
  BitVec.ofNat 64 p.1 :: BitVec.ofNat 64 ((c.map (·.seq)).getD p.2.oseq) :: BitVec.ofNat 64 rooms.length :: rooms.map (BitVec.ofNat 64)

/-- SLOTST: actor table state, claims, room counts, sequence counters, barrier counts. -/
def slotRecs (s : State) (t : Tile) (pos : Nat × Nat) : List SnapRec :=
  [snapRec 0x18 pos t.active
    (t.slot.actors.flatMap (fun a => [BitVec.ofNat 64 a.1, BitVec.ofNat 64 a.2.firings, boolW a.2.ended, a.2.inForce.setWidth 64
        , boolW a.2.live.isSome, boolW a.2.fired, BitVec.ofNat 64 a.2.owed.length] ++ a.2.owed.map (·.setWidth 64))
      ++ claimWords t ++ (t.slot.ports.filter fun p => p.2.declared && p.2.output).flatMap (roomWords s)
      ++ t.members.flatMap fun m => [BitVec.ofNat 64 m.group, boolW m.mask, m.arr.setWidth 64, m.rel.setWidth 64])]

/-- The records of a tile at a region position. -/
def tileRecs (s : State) (t : Tile) (pos : Nat × Nat) : List SnapRec :=
  frameRecs t pos ++ queueRecs t pos ++ accRecs t pos ++ fabricRecs t pos ++ operRecs t pos ++ streamRecs t pos ++ bankRecs t pos ++ slotRecs s t pos

/-- ORDQ: the ordered messages held for a tile. -/
def msgRecs (g : Region) (rects : List (Nat × Nat × Nat × Nat)) (ms : List HeldMsg) : List SnapRec := ms.map fun m =>
  snapRec 0x17 (relPos g rects m.tile) 0 (ohdrWords (ohdrOf m.msg) ++ (upto 8).map (lineWord m.msg.payload))

/-- SHAKE256 over the words. -/
def snapDigest (ws : List Word) : BitVec 512 := Config.shake256 (ws.flatMap fun w => leBytes 8 w.toNat)

/-! Held (R374 step 6, R377). -/

/-- The ordered messages that wait at the ejections of a region's tiles for its ports. -/
def heldMsgs (s : State) (h : Nat) : List HeldMsg := (s.resTiles h).flatMap fun k =>
  (s.onode k).outputs.flatMap fun o => if o.next.isSome then [] else
    (o.q.filter fun x => (s.tile k).slot.ports.any fun p => !p.2.output && p.2.ordered && p.2.osn == (ohdrOf x.2).osn).map fun x => ⟨k, x.1, x.2⟩

/-- Those messages leave the routers. -/
def dropHeld (s : State) (ms : List HeldMsg) : State := ms.foldl (fun s m =>
  let x := s.onode m.tile
  s.setOnode m.tile { x with outputs := x.outputs.map fun o => if o.next.isSome then o else { o with q := o.q.erase (m.input, m.msg) } }) s

/-- A channel as it is saved: credits under way are home. -/
def saveChan (c : Chan) : Chan := { c with branches := c.branches.map fun b => { b with room := b.room + b.back, back := 0 } }

/-- The words at the snapshot area. -/
def writeWords (s : State) (pa : Nat) (ws : List Word) : State :=
  (List.range ws.length).foldl (fun s i => s.gWrite (pa + 8 * i) (leBytes 8 (nthD ws i 0).toNat)) s

/-- The residency is Held: its state is saved and its region freed (R62; log entry 27). Its groups stay its own (R61), and so do its fabric
streams (R376). The digest covers every word before its own, the SUM record's header among them (R378). -/
def holdRes (s : State) (h : Nat) (g : Region) : State :=
  let ts := s.resTiles h
  let ms := heldMsgs s h
  let recs := (ts.flatMap fun k => tileRecs s (s.tile k) (relPos g s.rects k)) ++ msgRecs g s.rects ms
  let sum := fun (d : BitVec 512) => SnapRec.toWords (snapRec 0x1F (0xFF, 0xFF) 0 ((upto 8).map (lineWord d)))
  let ws := recs.flatMap SnapRec.toWords ++ (sum 0).take 1
  let d := snapDigest ws
  let r := s.resOf h
  let n : Snapshot :=
    { region := g, tiles := ts.map fun k => (k, s.tile k), chans := AMap.mapVals (s.chans.filter fun c => c.2.handle == h) fun _ c => saveChan c
      sweeps := s.sweeps.filter fun w => w.2.resid == r.resid, msgs := ms, gen := r.gen, commit := r.commit, err := s.errOf h
      len := ws.length, digest := d }
  let s1 := dropHeld (writeWords s (s.block h).snappa.toNat (ws ++ (sum d).drop 1)) ms
  let s2 := freeRegion s1 h
  { (s2.updRes h fun r => { r with state := .held, snap := some n, snapping := false, faultQ := (s.resOf h).faultQ }) with
    groupTab := s.groupTab, strays := s.strays, links := s.links }

/-- A residency's last tile makes it Held, once its SNAPs have reached the port fabrics, and its ordered messages the ejections (R374,
R376). -/
def holdIfDone (s : State) (h : Nat) (g : Region) : State :=
  if ((s.resTiles h).all fun k => (s.tile k).snapDone) && fabricsMarked s h && ordQuiet s h then holdRes s h g else s

/-- SNAPSHOT_TILE_COMPLETE: with every node of a tile complete the tile halts; halted, and its requests answered, its part is done; the
last tile's makes the residency Held (R374). -/
def execSnapshotTileComplete (handle tile : Nat) (s : State) : Out :=
  let r := s.resOf handle
  match r.region with
  | none => .next s
  | some g =>
    if r.snapping = false ∨ (s.resTiles handle).any (· == tile) = false then .next s
    else if (s.tile tile).snapDone then .next (holdIfDone s handle g)
    else if nodesComplete (s.tile tile) then
      let s1 := preemptHalt s tile
      if (s1.tile tile).haltStands && !repliesDue s1 tile then
        let s2 := s1.updTile tile fun t => { t.showHalted s.now with snapDone := true }
        .next (holdIfDone s2 handle g)
      else .next s1
    else .next s

/-! Restore (R379, R380). -/

/-- The tile of the new region that stands for a tile of the old one (R380). -/
def newTile (s : State) (old new : Region) (k : Nat) : Nat :=
  let p := relPos old s.rects k
  s.regionTile new p.1 p.2

def mapEnd (f : Nat → Nat) : End → End
  | .port t p => .port (f t) p
  | .oper t o e => .oper (f t) o e
  | .stream t p => .stream (f t) p
  | e => e

/-- A claim's actor, or that of a request: one on another tile stands on the tile's new place (R380). -/
def mapKey (f : Nat → Nat) (k : Nat) : Nat := if k < 8 then k else farKey (f (k / 8 - 1)) (k % 8)

/-- A saved slot with its new residency number and no markers. -/
def Slot.restore (x : Slot) (f : Nat → Nat) (resid : BitVec 12) : Slot :=
  { x with
    resid := resid
    ports := AMap.mapVals x.ports fun _ p => { p with marker := none, q := AMap.mapVals p.q fun _ y => { y with resid := resid } }
    actors := AMap.mapVals x.actors fun _ a => { a with held := false }
    opers := AMap.mapVals x.opers fun _ o => { o with held := false, marker0 := none, marker1 := none }
    streams := AMap.mapVals x.streams fun _ y => { y with tlb := none, claim := y.claim.map (mapKey f) } }

/-- The request of a reserved slot as it is sent again: translated through the tables as they stand now; where they refuse it, or hold no
mapping, it is answered POISON (R244, R354, R379; log entry 94). -/
def resend (s : State) (h : Nat) (f : Nat → Nat) (resid : BitVec 12) (q : GReq) : GReq :=
  let y := { q with performed := false, reply := Option.none, onlyRetry := false, after := [], resid := resid, actor := mapKey f q.actor }
  let no := { y with performed := true, reply := some Reply.poison }
  match walk s (resSpace s h) q.va.toNat with
  | .leaf e => if e.allows true false (q.op == .ldv) then { y with pa := e.physical q.va.toNat } else no
  | _ => no

/-- A tile of the new region: the image loaded, then the records of the old tile (R379 steps 1, 2, 4 and 5). -/
def restoreTile (t old : Tile) (s : State) (ws : List Word) (f : Nat → Nat) (h row col : Nat) (resid : BitVec 12) : Tile :=
  let t1 := ({ t with slots := [] }).loadFrom s ws h (imgFirst ws) row col resid
  let t2 := moveBanks old t1 (grantedBanks old)
  let reqs := (old.reqs.filter fun q => q.2.ctxNo != 0).map fun q => (q.1, resend s h f resid q.2)
  let claim := fun (o : Option Nat) => o.map (mapKey f)
  { t2 with
    ctxs := (0, t.ctx 0) :: old.ctxs.filter fun c => c.1 != 0
    pend := (old.pend &&& 0x7FE) ||| (t.pend &&& 1)
    slots := AMap.mapVals old.slots fun _ x => x.restore f resid
    active := old.active, role := old.role, switchTo := old.switchTo, mxLast := old.mxLast
    accs := AMap.mapVals old.accs fun _ a => { a with owner := claim a.owner, iOwner := claim a.iOwner }
    fabric := { old.fabric with owner := claim old.fabric.owner, iOwner := claim old.fabric.iOwner }
    inject := t.inject ++ old.inject, injectDue := old.injectDue, refusals := old.refusals
    lcLast := old.lcLast, dmLast := old.dmLast, reqs := reqs.foldl (fun m q => AMap.set m q.1 q.2) (t.reqs.filter fun q => q.2.ctxNo == 0)
    nextOp := max t.nextOp old.nextOp, nextTask := max t.nextTask old.nextTask, waiters := old.waiters, nextReady := old.nextReady
    sweepSlots := old.sweepSlots, passes := old.passes, ring := old.ring, members := old.members, unack := old.unack, streamSel := old.streamSel, preReq := false, preHalted := false }

/-- A saved channel at the new region. A host outlet's queue has stood outside the region, and its room is what its 256 slots leave beside
the tokens in it and those on their way: the saved count with what the host has taken since (R39, R398). -/
def restoreChan (s : State) (f : Nat → Nat) (resid : BitVec 12) (c : Chan) : Chan :=
  let flight := fun (x : Flight) => { x with tok := { x.tok with resid := resid }, after := [] }
  { c with
    resid := resid, src := mapEnd f c.src, forkQ := c.forkQ.map flight
    branches := c.branches.map fun b =>
      let room := match b.dst with
        | .outlet n => 256 - (s.outlet n).q.length - b.flights.length - c.forkQ.length
        | _ => b.room
      { b with dst := mapEnd f b.dst, flights := b.flights.map flight, room := room, snap := none } }

/-- The saved host channels and fabric streams are bound again (R376, R397); tokens in an outlet queue stay. -/
def rebind (s : State) (id : Nat) (c : Chan) : State :=
  let s1 := match c.src with
    | .inlet n => { s with inlets := AMap.set s.inlets n { (AMap.getD s.inlets n ⟨none, 0, 0⟩) with chan := some id } }
    | .fabric l st => s.setLink l { (s.link l) with streamResid := AMap.set (s.link l).streamResid (16 + st) c.resid.toNat }
    | _ => s
  (List.range c.branches.length).foldl (fun s i => match (c.branches[i]?).map Branch.dst with
    | some (.outlet n) => s.setOutlet n { (s.outlet n) with chan := some id, branch := i }
    | some (.fabric l st) => s.setLink l { (s.link l) with streamResid := AMap.set (s.link l).streamResid st c.resid.toNat }
    | _ => s) s1

/-- The completion tokens that fell due while an actor was held are put (log entry 92). -/
def payOwed (s : State) (tile : Nat) : State :=
  (s.tile tile).slot.actors.foldl (fun s a =>
    a.2.owed.foldl (fun s tag => s.sendCompletion tile a.1 tag)
      (s.updTile tile fun t => t.setActor a.1 { t.actor a.1 with owed := [] })) s

/-- A live sweep of the saved region, with its tiles renamed; its notices in flight are gone (R306). -/
def restoreSweep (f : Nat → Nat) (resid : BitVec 12) (w : Sweep) : Sweep :=
  { w with notices := [], tile := f w.tile, tiles := w.tiles.map f, accepted := w.accepted.map f, resid := resid, aborts := w.aborts.map fun a => (f a.1, a.2) }

/-- Held messages in increasing key order. -/
def insertHeld (m : HeldMsg) : List HeldMsg → List HeldMsg
  | [] => [m]
  | x :: xs => if keyLess m.msg x.msg then m :: x :: xs else x :: insertHeld m xs

def byKey (ms : List HeldMsg) : List HeldMsg := ms.foldr insertHeld []

/-- A held message waits at the new tile's ejection again. -/
def queueHeld (s : State) (k : Nat) (m : HeldMsg) : State :=
  let x := s.onode k
  forwardNode (s.setOnode k { x with outputs := x.outputs.map fun o => if o.next.isNone then { o with q := o.q ++ [(m.input, m.msg)] } else o }) k

/-- The held ordered messages at the new tiles, in key order: those stamped below the restore's Stroke time are delivered at once, the
others wait at the ejections (R283). -/
def requeue (s : State) (f : Nat → Nat) (ms : List HeldMsg) : State :=
  (byKey ms).foldl (fun s' m =>
    if (ohdrOf m.msg).stamp.toNat < s.timeOf (f m.tile) then eject s' (f m.tile) m.msg else queueHeld s' (f m.tile) m) s

/-- Where the ordered outputs of restored tiles stand now (R283). -/
def restoreSenders (f : Nat → Nat) (ts : List (Nat × Tile)) (m : AMap Nat) : AMap Nat :=
  ts.foldl (fun m t => (t.2.slot.ports.filter fun p => p.2.ordered && p.2.output).foldl (fun m p => AMap.set m (32 * t.1 + p.1) (f t.1)) m)
    (AMap.mapVals m fun _ k => if ts.any (·.1 == k) then f k else k)

/-- The restore of a snapshot onto a region (R379). -/
def placeSnapshot (s : State) (h : Nat) (ws : List Word) (n : Snapshot) (g : Region) : State :=
  let s0 := assignRegion s h g
  let resid := (s0.resOf h).resid
  let f := newTile s0 n.region g
  let s1 := n.tiles.foldl (fun s p =>
    let pos := relPos n.region s.rects p.1
    s.updTile (f p.1) fun t => restoreTile t p.2 s ws f h pos.1 pos.2 resid) s0
  let s2 := n.chans.foldl (fun s p => rebind (s.setChan p.1 (restoreChan s f resid p.2)) p.1 (restoreChan s f resid p.2)) s1
  let s3 := { s2 with sweeps := n.sweeps.foldl (fun m w => AMap.set m w.1 (restoreSweep f resid w.2)) s2.sweeps }
  let s4 := writeGroups s3 g ws resid.toNat
  let s5 := s4.updRes h fun r =>
    { r with state := .running, gen := n.gen, commit := n.commit, err := n.err, snap := some n, restoring := false, faultHold := false
             senders := restoreSenders f n.tiles r.senders, snapping := false, wdLast := s.now, result := 0 }
  let s6 := n.sweeps.foldl (fun s k => match AMap.get? s.sweeps k.1 with
    | some w => rebuildSweep s k.1 w
    | none => s) (requeue s5 f n.msgs)
  n.tiles.foldl (fun s p => (payOwed s (f p.1)).updTile (f p.1) fun t => t.resumeHalted.enterMonitor) s6

/-- The words of a snapshot in its area, as a restore reads them. -/
def readSnap (s : State) (h : Nat) (n : Snapshot) : List Word :=
  (upto n.len).map fun i => BitVec.ofNat 64 (s.gRead ((s.block h).snappa.toNat + 8 * i) 8)

/-- A queued residency, or a restore that waits, takes a free region of its shape. -/
def tryPlace (s : State) (h : Nat) : State :=
  let r := s.resOf h
  match r.image with
  | none => s
  | some ws => match findRegion s (imgRows ws) (imgCols ws) with
    | none => s
    | some g =>
      if r.state = .queued ∧ !r.stageDue ∧ groupsFree s h ws then
        { ((assignRegion s h g).updRes h fun r => { r with state := .loading }) with vpages := AMap.erase s.vpages h }
      else if r.state = .held ∧ r.restoring ∧ (r.resid ≠ 0 ∨ groupsFree s h ws) then match r.snap with
        | some n => placeSnapshot s h ws n g
        | none => s
      else s

/-- Whether a block's snapshot can be restored: its residency is Held; or the death of a tile has aborted it, and then its last complete
snapshot can be, where no other block binds its host channels now (R379, R393, R400, R423; log entry 27). -/
def restorable (s : State) (h : Nat) : Bool :=
  let r := s.resOf h
  decide (r.state = .held) || (decide (r.state = .aborted) && r.tileLost && !(boundChans (s.block h)).any (boundElsewhere s h))

/-- The residency of an accepted RESTORE: Held until it is placed. One that was aborted has no number and no groups meanwhile. -/
def Res.accept (r : Res) : Res :=
  { r with state := .held, restoring := true, resid := if r.state = .held then r.resid else 0 }

/-- RESTORE: refused when the digest differs; placed at once where a region is free, and waiting otherwise (R378, R379, R400). -/
def execRestoreCmd (handle : Nat) (s : State) : Out :=
  let r := s.resOf handle
  match r.snap with
  | none => .next s
  | some n =>
    if !restorable s handle then .next s
    else if snapDigest (readSnap s handle n) ≠ n.digest then
      .next (s.updRes handle fun r => { r with result := (CfgFail.mk cfgSignature 0 0 0 0).word })
    else .next (tryPlace (s.updRes handle Res.accept) handle)

/-- RESIDENCY_DISPATCH: a staged image takes a free region of its shape (R61, R62); a waiting restore does the same (R379). -/
def execResidencyDispatch (handle : Nat) (s : State) : Out := .next (tryPlace s handle)

end Sys2Proof.Machine
end

