-- ==== Sys2Proof/Machine/Dispatcher.lean ====
section
/-!
DEFINITION. The residency dispatcher's choice of what a free helper runs, and the registers at fire (02 R43 to R51, R58, 12 R289 to
R293, R298, R299, 14 R342).
-/

namespace Sys2Proof.Machine

/-! Registers at fire (R51, R342). -/

/-- A capability with the bounds of CSETB (R357) over [lo, lo + n). -/
def boundCap (lo n : Nat) (perms : List Perm) : KReg :=
  let e := leastExp lo (lo + n) 20 0
  let lo1 := lo / 2 ^ e * 2 ^ e
  let hi1 := ceilDiv (lo + n) (2 ^ e) * 2 ^ e
  (KReg.make 0 0 perms (BitVec.ofNat 48 lo)).withBounds e (lo1 / 2 ^ e % 2 ^ 29) ((hi1 - lo1) / 2 ^ e)

/-- A TLM capability at the start of its bounds. -/
def tlmCap (lo n : Nat) (perms : List Perm) : KReg := KReg.make lo n perms (BitVec.ofNat 48 lo)

/-- PCC at fire: from the lowest to the highest bank marked executable (R342). -/
def codeCap (t : Tile) (entry : Addr) : KReg :=
  let bs := (upto 16).filter fun b => t.exec.getLsbD b
  match bs with
  | [] => KReg.make 0 0 [.r, .x, .tlm] entry
  | lo :: _ => KReg.make (lo * 2 ^ 18) ((bs.getLastD lo + 1 - lo) * 2 ^ 18) [.r, .x, .tlm] entry

/-- k1: the return stub, whose first instruction is DONE, or RETIRE for a team (R51, R294, R342; log entry 18). -/
def stubCap (team : Bool) : KReg := tlmCap (Config.stub team) 4 [.r, .x, .tlm]

def dataPerms : List Perm := [.r, .w, .ldc, .stc, .tlm]

/-- The root that the tile monitor gives for a service number: 1 the global root, 2 the sealing root, any other an untagged zero (R342). -/
def serviceCap (n : Word) : KReg :=
  if n = 1 then KReg.make 0 (2 ^ 48) [.r, .w, .global] 0
  else if n = 2 then KReg.make 1 15 [.seal] 1
  else KReg.zero

/-- The tile monitor's answer to the SYSCALL of helper n: the root is written into k8 of the trap frame, all 129 bits, and the monitor
returns to the helper and then from its own entry, as ERET does (R342, R369). -/
def Tile.serveCall (t : Tile) (n : Nat) : Tile :=
  let c := t.ctx n
  ((t.setCtx n (c.writeK 8 (serviceCap (c.readW 8)))).eretResume n).eretSelf

/-- Whether the tile monitor stands at its trap entry with a helper's SYSCALL selected, and no instruction is placed there: its own
text, which the spec does not give, then does what R342 says (log entry 85). -/
def serviceDue (t : Tile) (standsInstr : Bool) : Bool :=
  let c := t.ctx t.fsel
  t.nest && t.fsel != 0 && t.pend.getLsbD t.fsel && decide (c.mode = .trapped) && c.cause == codeSyscall.setWidth 64
    && (t.ctx 0).pc == BitVec.setWidth 48 (t.trapvec ++ 0#2) && !standsInstr

/-- k3: the parameter copy of the current generation (R333, R342). -/
def paramCap (s : State) (h : Nat) : KReg :=
  let n := match (s.resOf h).image with
    | some ws => imgParams ws
    | none => 0
  boundCap ((s.block h).paramva.toNat + (s.resOf h).gen % 2 * n) n [.r, .global]

/-- The numbers k1 to k7 as a register map. -/
def fireMap (ks : List KReg) : AMap KReg :=
  (List.range ks.length).foldl (fun m i => AMap.set m (i + 1) (nthD ks i KReg.zero)) []

/-- k1 to k7 of a firing (R51). -/
def firingRegs (s : State) (tile a : Nat) : List KReg :=
  let t := s.tile tile
  let x := t.actor a
  [stubCap false, tlmCap x.stOff x.stLen dataPerms, paramCap s t.slot.handle, .int (BitVec.ofNat 64 x.firings), .int (s.tileWord tile)
    , .int 0, tlmCap x.scOff x.scLen dataPerms]

/-- The context of a firing's primary helper at entry. -/
def primaryCtx (s : State) (tile a : Nat) (entry : Addr) : Ctx :=
  let t := s.tile tile
  let ks := firingRegs s tile a
  { Ctx.init with
    mode := .running, role := .primary, task := t.nextTask, actor := a, regs := (t.actor a).regs, k := fireMap ks, fireK := ks
    pcc := codeCap t entry }

/-- A firing starts on a helper (R45). -/
def startFiring (s : State) (tile a h : Nat) (kind : FireKind) (entry : Addr) (pend : Option Punct) : State :=
  let t := s.tile tile
  let x := t.actor a
  let c := (primaryCtx s tile a entry).onHelper (t.ctx h)
  let fr : Firing := { kind := kind, index := x.firings, primary := t.nextTask, tasks := [t.nextTask], starts := 0, donec := [] }
  let t1 := (t.setActor a { x with live := some fr, pend := pend }).setCtx h c
  s.setTile tile { t1 with nextTask := t.nextTask + 1 }

/-- k1 to k7 of a team (R58, R342). -/
def teamRegs (s : State) (tile : Nat) (w : Sweep) (team : Nat) : List KReg :=
  let i := teamIdx (recW w.record 0) team
  let idx := nthD i 0 0 + nthD i 1 0 * 2 ^ 16 + nthD i 2 0 * 2 ^ 32
  [stubCap true, w.k2, w.param, .int (BitVec.ofNat 64 team), .int (s.tileWord tile), .int (BitVec.ofNat 64 idx), w.k7]

/-- The address of the team body (R55). -/
def recBody (r : List Word) : Addr := ((recW r 2).extractLsb' 34 22).setWidth 48

/-- The first released team of a sweep slot starts on a helper (R58). -/
def startTeam (s : State) (tile slot h : Nat) (x : SweepSlot) (w : Sweep) : State :=
  match x.released with
  | [] => s
  | team :: rest =>
    let t := s.tile tile
    let ks := teamRegs s tile w team
    let c : Ctx :=
      { Ctx.init with
        mode := .running, role := .team, task := t.nextTask, actor := w.actor, sweepSlot := slot, team := team, regs := w.regs
        k := fireMap ks, fireK := ks, pcc := codeCap t (recBody w.record) }
    let t1 := { (t.setCtx h (c.onHelper (t.ctx h))) with
      sweepSlots := AMap.set t.sweepSlots slot { x with released := rest, running := x.running ++ [team] }, nextTask := t.nextTask + 1 }
    s.setTile tile t1

/-! Class 3 (R290): candidate slots 0 to 7 are actors, 8 to 11 sweep slots. -/

/-- The sweep of a slot that has a team to start; a snapshot's hold on the launching actor holds its teams (R375). -/
def teamReady (s : State) (tile slot : Nat) : Option (SweepSlot × Sweep) :=
  match AMap.get? (s.tile tile).sweepSlots slot with
  | none => none
  | some x => match AMap.get? s.sweeps x.sweep with
    | none => none
    | some w =>
      if w.phase = .running ∧ x.released ≠ [] ∧ x.running.length < recMaxh w.record ∧ ((s.tile w.tile).actor w.actor).held = false then
        some (x, w) else none

def isCandidate (s : State) (tile i : Nat) : Bool :=
  if i < 8 then (actorFiring s tile i).isSome else (teamReady s tile (i - 8)).isSome

def candPrio (s : State) (tile i : Nat) : Nat :=
  if i < 8 then ((s.tile tile).actor i).prio else match teamReady s tile (i - 8) with
    | some (_, w) => w.prio
    | none => 0

def candPass (t : Tile) (i : Nat) : Nat := AMap.getD t.passes i 0

def Tile.setPass (t : Tile) (i n : Nat) : Tile := { t with passes := AMap.set t.passes i n }

/-- The ring from the slot after the last one chosen. -/
def ringFrom (last : Nat) : List Nat := (upto 12).map fun i => (last + 1 + i) % 12

/-- The choice among the candidates (R290). -/
def chooseCand (s : State) (tile : Nat) (cs : List Nat) : Option Nat :=
  let t := s.tile tile
  let urgent := cs.filter fun i => decide (16 ≤ candPass t i)
  let top := cs.foldl (fun m i => max m (candPrio s tile i)) 0
  let pool := if urgent.isEmpty then cs.filter fun i => candPrio s tile i == top else urgent
  (ringFrom t.ring).find? fun i => pool.any (· == i)

/-- The pass counts after a choice, and the ring's place. -/
def Tile.passed (t : Tile) (cs : List Nat) (chosen : Nat) : Tile :=
  { (cs.foldl (fun t i => t.setPass i (if i = chosen then 0 else min 16 (candPass t i + 1))) t) with ring := chosen }

/-- A class-3 choice on a free helper. -/
def dispatchThree (s : State) (tile h : Nat) : State :=
  let cs := (upto 12).filter (isCandidate s tile)
  match chooseCand s tile cs with
  | none => s
  | some i =>
    let s1 := s.updTile tile fun t => t.passed cs i
    let s2 := if i < 8 then (match actorFiring s1 tile i with
        | some (k, e, p) => startFiring s1 tile i h k e p
        | none => s1)
      else match teamReady s1 tile (i - 8) with
        | some (x, w) => startTeam s1 tile (i - 8) h x w
        | none => s1
    s2.moved (s.handleOf tile)

/-! Classes 1 and 2 (R289). -/

/-- The context whose stalled START comes first. -/
def firstStart (t : Tile) : Option (Nat × KReg × KReg) :=
  let cs := t.ctxs.filterMap fun c => c.2.startAt.map fun x => (c.1, x)
  match cs.foldl (fun b (c : Nat × (Nat × KReg × KReg)) => match b with
      | none => some c
      | some (d : Nat × (Nat × KReg × KReg)) => if c.2.1 < d.2.1 then some c else some d) none with
  | some c => some (c.1, c.2.2.1, c.2.2.2)
  | none => none

/-- The place among the waiters, of no actor that a snapshot holds, of the one whose page wait was completed first (R289, R375). -/
def firstReady (s : State) (tile : Nat) : Option Nat :=
  let t := s.tile tile
  let xs := (List.range t.waiters.length).filterMap fun i => match t.waiters[i]? with
    | some w => if s.heldCtx tile w.ctx then none else w.ready.map fun k => (k, i)
    | none => none
  match xs.foldl (fun b (x : Nat × Nat) => match b with
      | none => some x
      | some (y : Nat × Nat) => if x.1 < y.1 then some x else some y) none with
  | some x => some x.2
  | none => none

/-- A waiter resumes on a helper; a refused page traps there (R298, R299). -/
def resumeWaiter (s : State) (tile h i : Nat) : State :=
  let t := s.tile tile
  match t.waiters[i]? with
  | none => s
  | some w =>
    let t1 := { (t.setCtx h ({ w.ctx with mode := .running }.onHelper (t.ctx h))) with waiters := t.waiters.eraseIdx i }
    let s1 := s.setTile tile t1
    if w.denied then trapInto s1 tile h codePageDenied (w.va.setWidth 64) w.ctx.pc false else s1

/-- DISPATCH: the dispatcher gives a free helper to the first non-empty class (R289). A tile that PREEMPT halts starts nothing (R371). -/
def execDispatch (tile helper : Nat) (s : State) : Out :=
  let t := s.tile tile
  if helper = 0 ∨ 10 < helper ∨ (t.ctx helper).mode ≠ .free ∨ t.preReq ∨ !t.alive then .next s
  else match firstStart t with
    | some (c, ka, kb) => .next ((startOn s tile c helper ka kb).moved (s.handleOf tile))
    | none => match firstReady s tile with
      | some i => .next (resumeWaiter s tile helper i)
      | none => .next (dispatchThree s tile helper)

end Sys2Proof.Machine
end

