-- ==== Sys2Proof/Machine/Host.lean ====
section
/-!
DEFINITION. The host's channels and ports (17 R396 to R398).
-/

namespace Sys2Proof.Machine

/-! Inlets (R397). -/

def State.inlet (s : State) (n : Nat) : Inlet := AMap.getD s.inlets n ⟨none, 0, 0⟩

def State.setInlet (s : State) (n : Nat) (x : Inlet) : State := { s with inlets := AMap.set s.inlets n x }

/-- A dropped write of an inlet page counts in DROPS. -/
def inletDrop (s : State) (n : Nat) : State :=
  s.setInlet n { s.inlet n with drops := sat32 ((s.inlet n).drops + 1) }

/-- The channel that an inlet sources while its residency runs and no snapshot has stopped it (R397, R374). -/
def inletChan (s : State) (n : Nat) : Option (Nat × Chan) :=
  match (s.inlet n).chan with
  | none => none
  | some id => match s.chan? id with
    | none => none
    | some c => if s.running c.handle && !(s.resOf c.handle).snapping then some (id, c) else none

/-- A host write that asks for a token: `size` is the size a payload write has, none for a token without one. -/
def inletPut (s : State) (n : Nat) (k : TokKind) (payload : Line) (status : BitVec 16) (size : Option Bool) : State :=
  match inletChan s n with
  | none => inletDrop s n
  | some (id, c) =>
    if c.room = 0 ∨ (size.isSome ∧ size ≠ some c.line) then inletDrop s n
    else
      ((s.setChan id (c.put k payload status [])).setInlet n
        { s.inlet n with created := ((s.inlet n).created + 1) % 2 ^ 64 }).moved c.handle

/-- The channel that a host write reaches: channel `n % 32` of its direction through port `n / 32`, if that port's link is up and the
module answers (R396); either port reaches every channel. -/
def hostChannel (s : State) (n : Nat) : Option Nat := if hostReaches s (n / 32) then some (n % 32) else none

/-- The number under which the events below name channel n of a port. -/
def channelOf (port n : Nat) : Nat := 32 * port + n

/-- A host write to an inlet page. -/
def onInlet (s : State) (n : Nat) (f : Nat → State) : Out := .next (match hostChannel s n with | none => s | some c => f c)

/-- INLET_DATA: a write at 0x000. -/
def execInletData (n : Nat) (v : Word) (s : State) : Out :=
  onInlet s n fun c => inletPut s c .data (v.setWidth 512) 0 (some false)

/-- INLET_EOS: a write at 0x008. -/
def execInletEos (n : Nat) (v : Word) (s : State) : Out :=
  onInlet s n fun c => inletPut s c .eos 0 (v.setWidth 16) none

/-- INLET_ROUND: a write at 0x010. -/
def execInletRound (n : Nat) (s : State) : Out := onInlet s n fun c => inletPut s c .round 0 0 none

/-- INLET_NULL: a write at 0x018. -/
def execInletNull (n : Nat) (s : State) : Out := onInlet s n fun c => inletPut s c .null 0 0 none

/-- INLET_LINE: a write at 0x040; only a single aligned 64-B write counts. One that is not, and a write at any offset that holds no
register of R397, is dropped. -/
def execInletLine (n : Nat) (v : Line) (aligned : Bool) (s : State) : Out :=
  onInlet s n fun c => if aligned then inletPut s c .data v 0 (some true) else inletDrop s c

/-- What the host reads at an offset of inlet page n: ROOM, DROPS and CREATED; a write-only register reads 0 (R6, R397). -/
def inletRead (s : State) (n off : Nat) : Word :=
  let x := s.inlet n
  if off = 0x80 then BitVec.ofNat 64 (((x.chan.bind s.chan?).map Chan.room).getD 0)
  else if off = 0x88 then BitVec.ofNat 64 x.drops
  else if off = 0x90 then BitVec.ofNat 64 x.created
  else 0

/-! Outlets (R398). -/

/-- Tokens present without a gap from a count on. -/
def Outlet.presentFrom (o : Outlet) : Nat → Nat → Nat
  | 0, _ => 0
  | fuel + 1, n => if (AMap.get? o.q n).isSome then 1 + o.presentFrom fuel (n + 1) else 0

/-- AVAIL. -/
def Outlet.avail (o : Outlet) : Nat := o.presentFrom 256 o.h

/-- The queue without its first k tokens. -/
def Outlet.take (o : Outlet) (k : Nat) : Outlet :=
  { o with h := o.h + k, q := o.q.filter fun p => decide (o.h + k ≤ p.1) }

/-- Word j of an outlet slot: header and scale byte, and the payload in its upper half (R35, R398). -/
def slotWord (t : Token) (j : Nat) : Word :=
  if j = 0 then 0#8 ++ t.scale ++ headerOf t else if 8 ≤ j then lineWord t.payload (j - 8) else 0

/-- What the host reads at an offset of outlet page n: AVAIL, and the words of the slots; none where the spec states no value: TAKEN is
write-only and reads 0, a slot without a token holds nothing stated (R6, R398). -/
def outletRead (s : State) (n off : Nat) : Option Word :=
  let o := s.outlet n
  if off = 0 then some (BitVec.ofNat 64 (o.h % 2 ^ 32 * 2 ^ 32 + o.avail % 2 ^ 16))
  else if off = 8 then some 0
  else if 0x4000 ≤ off ∧ off < 0x4000 + 128 * 256 then
    let i := (off - 0x4000) / 128
    (AMap.get? o.q (o.h + (i + 256 - o.h % 256) % 256)).map fun t => slotWord t (off % 128 / 8)
  else none

/-- TAKEN: k tokens are consumed and their credits return; the system outlet then takes the end records that wait for room (R398,
R399). -/
def execTakenWrite (n k : Nat) (s : State) : Out :=
  match hostChannel s n with
  | none => .next s
  | some n =>
    let o := s.outlet n
    if o.avail < k then .next s
    else
      let s1 := s.setOutlet n (o.take k)
      let s2 := match o.chan with
        | none => s1
        | some c => s1.freeSlots c o.branch k
      .next (if n = 0 then drainSys s2.sysWait.length s2 else s2)

/-! BAR2 (R396). -/

/-- What a host write of bytes at an offset of BAR2 does, as one of the events above: inlet pages of 4 KiB from 0, outlet pages of 64 KiB
from 0x10_0000. A write of an outlet page elsewhere than at TAKEN has no effect (R6). -/
def bar2Write (port off : Nat) (bs : List Byte) (s : State) : Out :=
  let n := channelOf port (off / 4096)
  let o := off % 4096
  let v : Word := BitVec.ofNat 64 (leNat bs)
  if off < 0x20000 then
    if bs.length = 8 ∧ o = 0 then execInletData n v s
    else if bs.length = 8 ∧ o = 8 then execInletEos n v s
    else if bs.length = 8 ∧ o = 0x10 then execInletRound n s
    else if bs.length = 8 ∧ o = 0x18 then execInletNull n s
    else execInletLine n (bytesLine bs) (o == 0x40 && bs.length == 64) s
  else if 0x100000 ≤ off ∧ off < 0x300000 ∧ off % 65536 = 8 ∧ bs.length = 8 then
    execTakenWrite (channelOf port ((off - 0x100000) / 65536)) v.toNat s
  else .next s

/-- HOST_PORT_LINK_FAIL: a port's link fails, and the other port continues unchanged (R396). -/
def execHostPortLinkFail (port : Nat) (s : State) : Out := .next { s with hostUp := s.hostUp &&& ~~~(1#2 <<< port) }

end Sys2Proof.Machine
end

