-- ==== Sys2Proof/Machine/Links.lean ====
section
/-!
DEFINITION. The link ports: flits, replay, retraining and failure (17 R401 to R404), and the port fabric (R406 to R408).
-/

namespace Sys2Proof.Machine

/-! Port states (R403). -/

def LinkPort.setState (l : LinkPort) (n : Nat) : LinkPort := { l with table := l.table.extractLsb' 2 62 ++ BitVec.ofNat 2 n }

def State.updLink (s : State) (n : Nat) (f : LinkPort → LinkPort) : State := s.setLink n (f (s.link n))

/-! Replay (R402). -/

/-- Flits that wait enter the replay buffer while it has room. -/
def LinkPort.refill : Nat → LinkPort → LinkPort
  | 0, l => l
  | n + 1, l => match l.pendTx with
    | [] => l
    | f :: rest =>
      if l.replay.length < 256 then
        LinkPort.refill n { l with pendTx := rest, replay := l.replay ++ [{ f with seq := l.txSeq.toNat }], txSeq := l.txSeq + 1 }
      else l

/-- How many flits after flit `seq` a flit is sent, of 4,096. -/
def flitAfter (f : Flit) (seq : Nat) : Nat := (f.seq + 4096 - seq % 4096) % 4096

/-- ACK: the flits up to the one it names are covered. -/
def LinkPort.acked (l : LinkPort) (seq : Nat) : LinkPort :=
  LinkPort.refill l.pendTx.length { l with
    replay := l.replay.filter fun f => decide (1 ≤ flitAfter f seq) && decide (flitAfter f seq ≤ 256) }

/-- A NAK on the link: sixteen within 1 ms make a retrain due. -/
def LinkPort.noteNak (l : LinkPort) (now : Nat) : LinkPort :=
  let recent := (l.naks.filter fun t => decide (now < t + 4000000)) ++ [now]
  { l with naks := recent, retrainDue := l.retrainDue || decide (16 ≤ recent.length) }

/-- NAK: the sender resends from the flit it names. -/
def LinkPort.naked (l : LinkPort) (seq now : Nat) : LinkPort :=
  { l with resend := l.replay.filter fun f => decide (flitAfter f seq < 256) }.noteNak now

/-- An event of a port whose link carries flits. -/
def onUp (s : State) (port : Nat) (f : LinkPort → LinkPort) : State :=
  if (s.link port).state = portUp ∧ !(s.link port).retraining then s.updLink port f else s

/-- ACK (R402). -/
def execAckFlit (port seq : Nat) (s : State) : Out := .next (onUp s port fun l => l.acked seq)

/-- NAK (R402). -/
def execNakFlit (port seq : Nat) (s : State) : Out := .next (onUp s port fun l => l.naked seq s.now)

/-! Timing (R404). -/

/-- A TIMING flit on every port of the tree that leads away from the root. -/
def sendTiming (s : State) (t : Word) : State :=
  ((AMap.keys s.links).filter fun p => (s.link p).state == portUp && Config.treePort s.module p).foldl
    (fun s p => s.sendFlit p 4 3 0 (.timing t)) s

/-- TIMING_FLIT_SEND: the root's flit every 1,024 ticks. -/
def execTimingFlitSend (s : State) : Out :=
  if s.podRoot ∧ s.lastTiming + 1024 ≤ s.now then
    .next (sendTiming { s with lastTiming := s.now } (BitVec.ofNat 64 s.refTime))
  else .next s

/-- The module reference slews to a value (R270, R404). -/
def slewRef (s : State) (t : Nat) : State :=
  { s with
    refOff := s.refOff + slewed s.refErr (s.now - s.refFrom), refErr := (t : Int) - s.refTime, refFrom := s.now }

/-- A received timing value: the port's measured delay is added, the reference slews to the sum, and the sum goes on downward. -/
def takeTiming (s : State) (port : Nat) (t : Word) : State :=
  let v := t + BitVec.ofNat 64 (Config.linkDelay port)
  let s1 := s.updLink port fun l => { l with peerTime := t.toNat }
  if s.podRoot then s1 else sendTiming (slewRef s1 v.toNat) v

/-- TIMING_FLIT (R404). -/
def execTimingFlit (port : Nat) (time : Word) (s : State) : Out :=
  .next (if (s.link port).state = portUp ∧ !(s.link port).retraining then takeTiming s port time else s)

/-! The flit (R401). -/

/-- Bytes 0 to 67 of a flit: type, virtual channel and stream number, SEQ, and the body. -/
def flitBytes68 (f : Flit) : List Byte :=
  leBytes 2 (f.typ % 16 + f.vc % 4 * 16 + f.stream % 16 * 64) ++ leBytes 2 (f.seq % 4096) ++ leBytes 64 (Config.flitBody f.body).toNat

/-- The 72 bytes of a flit as it is sent; `crcOk` says of a received one whether its last four are the CRC-32 of the others. -/
def flitBytes (f : Flit) : List Byte := flitBytes68 f ++ leBytes 4 (Config.crc32 (flitBytes68 f)).toNat

/-! Receiving (R402). -/

/-- The tokens of the whole coded blocks at the front of a packed sequence, one line token per block, and the bytes that are left
(R112). -/
def unpackBlocks : Nat → List Byte → List Token × List Byte
  | 0, bs => ([], bs)
  | n + 1, bs =>
    let len := (xe8Decode bs).len
    if bs.isEmpty ∨ bs.length < len then ([], bs)
    else
      let r := unpackBlocks n (bs.drop len)
      ({ kind := .data, line := true, payload := bytesLine (bs.take len), round := 0, resid := 0, seq := 0, port := 0, scale := 0, ohdr := none } :: r.1, r.2)

/-- The token carried by a FABRIC flit joins its link receive stream. -/
def LinkPort.receive (l : LinkPort) (st : Nat) (ts : List Token) : LinkPort :=
  { l with rx := AMap.set l.rx st (AMap.getD l.rx st [] ++ ts) }

/-- Bytes of a packed sequence arrive on a link receive stream: each block that is whole now gives its line token (R112). -/
def LinkPort.receivePacked (l : LinkPort) (st : Nat) (bs : List Byte) : LinkPort :=
  let r := unpackBlocks 8 (AMap.getD l.packed st [] ++ bs)
  { l.receive st r.1 with packed := AMap.set l.packed st r.2 }

/-- A request from another module, as a memory actor of this one takes it. -/
def farRequest (op : GOp) (pa : PAddr) (n : Nat) (data cmp : Word) : GReq :=
  { op := op, task := 0, ctxNo := 0, actor := 0, va := 0, pa := pa, n := n, data := data, cmp := cmp, dest := none, async := false, tok := false
    tag := none, order := 0, scope := 3, pc := 0, after := [], performed := false, reply := none, win := false, seq := none
    onlyRetry := false, resid := 0 }

/-- A REMOTE request is served by this module's memory actor, and the reply goes back by the port it came by (R403). What is not this
module's memory, and the abort of a sweep of another module, is answered POISON (log entry 90). -/
def serveRemote (s : State) (port id : Nat) (q : GReq) : State :=
  let r := if paModule q.pa = s.module ∧ paKind q.pa = 0 ∧ q.op ≠ .swabt then homePerform s 0 q else (s, .poison)
  r.1.sendFlit port 9 3 0 (.reply id r.2)

/-- What an accepted flit brings. No channel, port or request of the spec takes a TOKEN, MGMT or reply body here (log entry 12). -/
def flitBody (s : State) (port : Nat) (f : Flit) : State :=
  match f.typ, f.body with
  | 1, .credit osn r tile p => s.gainCredit osn r tile p
  | 2, .ordered t _ => { s with oflights := s.oflights ++ [⟨linkNode port, 0, some t, (ohdrOf t).stamp⟩] }
  | 3, .beacon w => { s with oflights := s.oflights ++ [⟨linkNode port, 0, none, w⟩] }
  | 4, .timing t => takeTiming s port t
  | 7, .tokens ts => s.updLink port fun l => l.receive (f.stream % 16) ts
  | 7, .packed bs => s.updLink port fun l => l.receivePacked (f.stream % 16) bs
  | 9, .request id op pa n data cmp => serveRemote s port id (farRequest op pa n data cmp)
  | _, _ => s

/-- FLIT_RECEIVE: a flit that fails its CRC, or of a type that is never sent, is dropped with a NAK naming the SEQ expected; a flit out
of order is dropped; IDLE, ACK and NAK are not numbered (R401, R402). -/
def execFlitReceive (port : Nat) (flit : Flit) (s : State) : Out :=
  let l := s.link port
  if l.state ≠ portUp ∨ l.retraining then .next s
  else if !flit.crcOk ∨ 10 ≤ flit.typ then
    .next (s.setLink port ({ l with ctl := some ⟨6, 0, 0, l.rxSeq.toNat, .none, true⟩ }.noteNak s.now))
  else if flit.typ = 0 then .next s
  else if flit.typ = 5 then .next (s.setLink port (l.acked flit.seq))
  else if flit.typ = 6 then .next (s.setLink port (l.naked flit.seq s.now))
  else if flit.seq % 4096 ≠ l.rxSeq.toNat then .next s
  else
    .next (flitBody (s.setLink port { l with rxSeq := l.rxSeq + 1, ctl := some ⟨5, 0, 0, l.rxSeq.toNat, .none, true⟩ }) port flit)

/-! Retraining (R402). -/

/-- RETRAIN: sixteen NAKs have come within 1 ms; the link carries nothing. -/
def execRetrain (port : Nat) (s : State) : Out :=
  let l := s.link port
  .next (if l.state = portUp ∧ !l.retraining ∧ l.retrainDue then
    s.setLink port ({ l with retraining := true, retrainDue := false, naks := [] }.setState 1) else s)

/-- RETRAIN_END: the link is in service again and resends what no ACK covers, or a failed retrain short of the third is counted. -/
def execRetrainEnd (port : Nat) (ok : Bool) (s : State) : Out :=
  let l := s.link port
  .next (if l.state ≠ 1 ∨ !l.retraining then s
    else if ok then s.setLink port ({ l with retraining := false, fails := 0, resend := l.replay }.setState portUp)
    else if l.fails < 2 then s.setLink port { l with fails := l.fails + 1 }
    else s)

/-! A dead link (R402). -/

/-- A route word without a port: its bit of the adaptive mask, and, where it was the single port, the lowest that remains (log entry
32). -/
def routeWithout (port : Nat) (w : Word) : Word :=
  let m := (w.extractLsb' 0 36) &&& ~~~(1#36 <<< port)
  let one := if (w.extractLsb' 56 6).toNat = port then ((upto 36).find? fun p => m.getLsbD p).getD 63 else (w.extractLsb' 56 6).toNat
  w.extractLsb' 62 2 ++ BitVec.ofNat 6 one ++ w.extractLsb' 36 20 ++ m

/-- The inputs that the node of a link port feeds. -/
def linkFeeds (s : State) (port : Nat) : List (Nat × Nat) := (s.onode (linkNode port)).outputs.filterMap (·.next)

/-- No message that came by a link is in flight or queued at its port (R282). -/
def linkQuiet (s : State) (port : Nat) : Bool :=
  (s.onode (linkNode port)).outputs.all (·.q.isEmpty)
    && !s.oflights.any fun f => f.msg.isSome && (f.node == linkNode port || (linkFeeds s port).any (· == (f.node, f.input)))

/-- The outputs that lead to a link are gone, with what waits at them (R282). -/
def cutOutputs (s : State) (port : Nat) : State :=
  { s with onodes := AMap.mapVals s.onodes fun _ x => { x with outputs := x.outputs.filter fun o => o.next.map (·.1) != some (wireNode port) } }

/-- A dead link leaves every feeding set, once the controller has found that no message is in flight on it (R282). -/
def unlinkNode (s : State) (port : Nat) : State :=
  if !linkQuiet s port then s
  else
    let fed := linkFeeds s port
    let nodes := AMap.mapVals (AMap.erase s.onodes (linkNode port)) fun n x =>
      { x with outputs := x.outputs.map fun o => { o with feeds := o.feeds.filter fun i => !fed.any (· == (n, i)) } }
    fed.foldl (fun s e => forwardNode s e.1) { s with onodes := nodes, oflights := s.oflights.filter fun f => f.node != linkNode port }

/-- Whether a request goes to a remote module through a port (R403). -/
def crosses (s : State) (port : Nat) (q : GReq) : Bool :=
  paKind q.pa == 0 && paModule q.pa != s.module && ((AMap.getD s.routes (paModule q.pa) 0).extractLsb' 56 6).toNat == port

/-- Outstanding remote requests across a link are answered with POISON. -/
def poisonRemote (s : State) (port : Nat) : State :=
  { s with tiles := AMap.mapVals s.tiles fun _ t => { t with
      reqs := AMap.mapVals t.reqs fun _ q =>
        if crosses s port q && q.reply.isNone then { q with performed := true, reply := some .poison } else q } }

/-- Whether an egress stream of a fabric is assigned, and its channel, if the residency is not Held, is open. -/
def egressOpen (s : State) (port st : Nat) : Bool :=
  (AMap.get? (s.link port).streamResid (16 + st)).isSome && !(egressOf s port st).any fun c => c.2.closed

/-- The fabric of a dead link stops, and the mesh egress streams see EOS with status 0x0017, one that a snapshot has stopped once it goes
on. -/
def stopFabric (s : State) (port : Nat) : State :=
  let eos : Token :=
    { kind := .eos, line := true, payload := 0x17, round := 0x17, resid := 0, seq := 0, port := 0, scale := 0, ohdr := none }
  let s1 := s.updLink port fun l => { l with fabEn := false }
  (upto 16).foldl (fun s st =>
    if egressOpen s port st then
      let l := s.link port
      egressNext (s.setLink port { l with egress := AMap.set l.egress st (AMap.getD l.egress st [] ++ [eos]) }) port st
    else s) s1

/-- The fault token of residencies that sent ordered messages across a dead link. -/
def deadLinkWord (port : Nat) : Word := BitVec.ofNat 64 (0x12 + port * 2 ^ 8 + 2 ^ 16)

/-- LINK_DEAD: the third retrain in a row has failed; of a link that is dead already, its node leaves the ordered class when nothing that
came by it is in flight any more (R282). -/
def execLinkDead (port : Nat) (s : State) : Out :=
  let l := s.link port
  if l.state = 1 ∧ l.retraining ∧ 2 ≤ l.fails then
    let hs := l.oSenders.filterMap fun r => handleOfResid s (BitVec.ofNat 12 r)
    let s1 := s.setLink port ({ l with retraining := false, replay := [], resend := [], pendTx := [] }.setState 3)
    let s2 := poisonRemote s1 port
    let s3 := { s2 with routes := AMap.mapVals s2.routes fun _ w => routeWithout port w, deadLinks := NSet.insert s2.deadLinks port }
    .next (stopFabric (hs.foldl (fun s h => s.faultToken h (deadLinkWord port)) (unlinkNode (cutOutputs s3 port) port)) port)
  else if l.state = 3 ∧ AMap.get? s.onodes (linkNode port) ≠ none then .next (unlinkNode s port)
  else .next s

/-! The port fabric (R406 to R408). -/

def elemOp (w : Word) : Nat := (w.extractLsb' 59 4).toNat
def elemSrc (w : Word) (b : Bool) : Nat := (if b then w.extractLsb' 43 8 else w.extractLsb' 51 8).toNat
def elemDst (w : Word) (aux : Bool) : Nat := (if aux then w.extractLsb' 27 8 else w.extractLsb' 35 8).toNat
def elemIn (w : Word) : BitVec 4 := w.extractLsb' 23 4
def elemOut (w : Word) : BitVec 4 := w.extractLsb' 19 4
def elemScale (w : Word) : Byte := w.extractLsb' 11 8
def elemSat (w : Word) : Bool := w.getLsbD 10
def elemUsed (w : Word) : Bool := w.getLsbD 63

def LinkPort.elem (l : LinkPort) (e : Nat) : FabElem := AMap.getD l.elems e FabElem.init

/-- Whether an operation takes two inputs (R408). -/
def twoInputs (op : Nat) : Bool := decide (1 ≤ op) && decide (op ≤ 3)

/-- The sources that an element reads: A, and B for a two-input operation. -/
def elemSources (w : Word) : List Nat := elemSrc w false :: (if twoInputs (elemOp w) then [elemSrc w true] else [])

/-- A format of ELEM that a port names (R41, R157). -/
def inElem (f : BitVec 4) : Bool := decide (1 ≤ f.toNat) && decide (f.toNat ≤ 11)

/-- The format pairings of R408. -/
def pairingOk (w : Word) : Bool :=
  let i := elemIn w
  let o := elemOut w
  match elemOp w with
  | 0 => true
  | 1 => i == 7 && o == 7
  | 2 => i == 9 && o == 9
  | 3 | 7 => (i == 7 || i == 9) && o == i
  | 4 => inElem i && inElem o
  | 5 => i == 10 && o == 14
  | 6 => i == 14 && o == 10
  | _ => false

/-- The elements that an element's sources name. -/
def elemPreds (w : Word) : List Nat := (elemSources w).filterMap fun x => if x < 128 then some (x % 64) else none

/-- Whether an element is reached from itself backwards in n hops. -/
def elemCycle (l : LinkPort) (e : Nat) : Nat → List Nat → Bool
  | 0, _ => false
  | n + 1, xs =>
    let ys := (xs.flatMap fun x => if elemUsed (l.elem x).word then elemPreds (l.elem x).word else []).eraseDups
    ys.any (· == e) || elemCycle l e n ys

/-- The checks that setting EN makes (R407). -/
def fabricOk (l : LinkPort) : Bool := (upto 64).all fun e =>
  let w := (l.elem e).word
  !elemUsed w || (pairingOk w && (elemPreds w).all (fun x => elemUsed (l.elem x).word) && !elemCycle l e 64 [e])

/-- FABRIC_ENABLE (R407). -/
def execFabricEnable (port : Nat) (en : Bool) (s : State) : Out :=
  let l := s.link port
  .next (if !en then s.setLink port { l with fabEn := false }
    else if fabricOk l then s.setLink port { l with fabEn := true, fabErr := false }
    else s.setLink port { l with fabEn := false, fabErr := true })

/-! Readers: element e reads as 2 e for A and 2 e + 1 for B, a destination as 128 for a main output and 129 for an aux output. -/

/-- The elements' inputs that read a source. -/
def elemReaders (l : LinkPort) (src : Nat) : List Nat := (upto 64).flatMap fun e =>
  let w := (l.elem e).word
  if !elemUsed w then [] else (if elemSrc w false = src then [2 * e] else [])
    ++ (if twoInputs (elemOp w) && elemSrc w true == src then [2 * e + 1] else [])

/-- The readers of an output of an element: elements, and its stream. -/
def outReaders (l : LinkPort) (e : Nat) (aux : Bool) : List Nat :=
  let d := elemDst (l.elem e).word aux
  elemReaders l (if aux then 64 + e else e) ++ (if 0x80 ≤ d ∧ d < 0xA0 then [if aux then 129 else 128] else [])

/-- A reader's input register is empty. -/
def inputFree (l : LinkPort) (r : Nat) : Bool := if r % 2 = 0 then (l.elem (r / 2)).a.isNone else (l.elem (r / 2)).b.isNone

def LinkPort.fill (l : LinkPort) (r : Nat) (t : Token) : LinkPort :=
  let x := l.elem (r / 2)
  { l with elems := AMap.set l.elems (r / 2) (if r % 2 = 0 then { x with a := some t } else { x with b := some t }) }

def LinkPort.setElem (l : LinkPort) (e : Nat) (x : FabElem) : LinkPort := { l with elems := AMap.set l.elems e x }

/-- The elements among the readers of a token take it where their registers are empty: the port, and the readers that remain. -/
def takeInto (l : LinkPort) (t : Token) (readers : List Nat) : LinkPort × List Nat :=
  readers.foldl (fun p r => if decide (r < 128) && inputFree p.1 r then (p.1.fill r t, p.2) else (p.1, p.2 ++ [r])) (l, [])

/-- What a FABRIC flit carries of a token: of a coded block, the bytes it takes in the packed sequence, at once and alone (R112, R401; log
entry 99). -/
def flitOf (coded : Bool) (t : Token) : FlitBody :=
  let bs := lineBytes t.payload
  if coded ∧ t.kind = .data then .packed (bs.take (xe8Decode bs).len) else .tokens [t]

/-- A token's delivery to a stream that an output names: a link transmit stream, or a mesh egress stream with room. -/
def toStream (s : State) (port d : Nat) (coded : Bool) (t : Token) : Option State :=
  let l := s.link port
  if d < 0x90 then
    if l.replay.length < 256 ∧ l.pendTx = [] then some (s.sendFlit port 7 0 (d % 16) (flitOf coded t)) else none
  else match egressChan s port (d % 16) with
    | none => none
    | some (id, c) => if c.room = 0 ∨ AMap.getD l.egress (d % 16) [] ≠ [] then none else some (egressPut s id c t)

/-- The readers of an element's output take what it holds. -/
def drainOut (s : State) (port e : Nat) (aux : Bool) : State :=
  let l := s.link port
  let x := l.elem e
  match (if aux then x.aux else x.main) with
  | none => s
  | some (t, rs) =>
    let p := takeInto l t rs
    let s1 := s.setLink port p.1
    let r := if p.2.any (fun i => decide (128 ≤ i)) then
        (match toStream s1 port (elemDst x.word aux) (elemOut x.word == 14) t with
          | some s2 => (s2, p.2.filter fun i => decide (i < 128))
          | none => (s1, p.2))
      else (s1, p.2)
    r.1.updLink port fun l =>
      let y := l.elem e
      let o := if r.2.isEmpty then none else some (t, r.2)
      l.setElem e (if aux then { y with aux := o } else { y with main := o })

/-- The credit of a token that has left an ingress stream. -/
def ingressCredit (s : State) (port st : Nat) : State :=
  match firstSome (fun (c : Nat × Chan) => ((List.range c.2.branches.length).find? fun i =>
      (c.2.branches[i]?).map Branch.dst == some (.fabric port st)).map fun i => (c.1, i)) s.chans with
  | some (id, i) => s.freeSlots id i 1
  | none => s

/-- The elements that read a stream take its first token; it leaves when all have (R406). -/
def drainIn (s : State) (port src : Nat) : State :=
  let l := s.link port
  let q := if src < 0x90 then AMap.getD l.rx (src % 16) [] else AMap.getD l.ingress (src % 16) []
  match q, elemReaders l src with
  | _, [] | [], _ => s
  | t :: rest, rs =>
    let had := AMap.getD l.taken src []
    let p := takeInto l t (rs.filter fun r => !had.any (· == r))
    if p.2.isEmpty then
      let l1 := { p.1 with taken := AMap.erase p.1.taken src }
      if src < 0x90 then s.setLink port { l1 with rx := AMap.set l1.rx (src % 16) rest }
      else ingressCredit (s.setLink port { l1 with ingress := AMap.set l1.ingress (src % 16) rest }) port (src % 16)
    else s.setLink port { p.1 with taken := AMap.set p.1.taken src (rs.filter fun r => !p.2.any (· == r)) }

/-- Every output and stream of a port moves on what its readers can take. -/
def settleFabric (s : State) (port : Nat) : State :=
  let s1 := (upto 64).foldl (fun s e => drainOut (drainOut s port e false) port e true) s
  let s2 := (upto 32).foldl (fun s i => drainIn s port (0x80 + i)) s1
  (upto 16).foldl (fun s st => egressNext s port st) s2

/-! What an element computes (R408). -/

/-- The kind of a pair of tokens, and whether it counts as an error: every mixture that R408 does not list does. -/
def mixKinds (a b : TokKind) : TokKind × Bool :=
  if a = .poison ∨ b = .poison then (.poison, false)
  else if a = b ∧ (a = .data ∨ a = .null ∨ a = .eos ∨ a = .round) then (a, false)
  else if (a = .null ∧ b = .data) ∨ (a = .data ∧ b = .null) then (.data, false)
  else (.poison, true)

def mapLine (w : Nat) (f : Nat → Nat) (x : Line) : Line := lineOf w ((elems x w).map f)

def zipLine (w : Nat) (f : Nat → Nat → Nat) (x y : Line) : Line := lineOf w (List.zipWith f (elems x w) (elems y w))

/-- A two-input operation on two DATA payloads. -/
def elemPair (w : Word) (x y : Line) : Line :=
  match elemOp w with
  | 1 => zipLine 32 (fun a b => (fAdd .f32 .rne (elemSat w) false false a b).1) x y
  | 2 => zipLine 16 (fun a b => (fAdd .bf16 .rne (elemSat w) false false a b).1) x y
  | _ => zipLine (widthOf (elemIn w)) (fun a b => (fMinMax (fmtOf (elemIn w)) false true a b).1) x y

/-- CONV of a line: the result's elements and the overflow bits. -/
def elemConv (w : Word) (x : Line) : Line × Nat :=
  match elemTy (elemIn w), elemTy (elemOut w) with
  | some i, some o =>
    let n := 512 / max i.width o.width
    let rs := (upto n).map fun k => convert .rne true false false i o (elem x i.width k)
    (lineOf o.width (rs.map (·.bits)), ofElems 1 (rs.map fun r => if r.ovr then 1 else 0))
  | _, _ => (x, 0)

/-- A one-input operation on a DATA token: the result, and the overflow bits of CONV. XENC takes scale byte 0 of a line that carries none,
and SCALE multiplies by 2^128 where its field is 0xFF (DESIGN CHOICE, log entry 101: the spec states neither). -/
def elemOne (w : Word) (t : Token) : Token × Nat :=
  match elemOp w with
  | 4 =>
    let r := elemConv w t.payload
    ({ t with payload := r.1 }, r.2)
  | 5 => ({ t with line := true, payload := bytesLine (xe8Encode t.scale ((lineBytes t.payload).take 32 |>.map (·.toNat))) }, 0)
  | 6 =>
    let d := xe8Decode (lineBytes t.payload)
    ({ t with kind := if d.ok then .data else .poison, payload := bytesLine (d.elems.map (BitVec.ofNat 8)), scale := d.scale }, 0)
  | 7 =>
    let f := fmtOf (elemIn w)
    let k : Int := ((elemScale w).toNat : Int) - 127
    ({ t with payload := mapLine f.width (fun a =>
        let v := f.decode false a
        (finish f .rne (elemSat w) false v.isSnan (v.scale k)).1) t.payload }, 0)
  | _ => (t, 0)

/-- What an element's firing gives: main output, aux output, and whether it counts as an error: its mixture of kinds, or XDEC of a bad
block (R114). -/
def elemFire (w : Word) (a : Token) (b : Option Token) : Token × Option Token × Bool :=
  match b with
  | none =>
    if a.kind = .data then
      let r := elemOne w a
      let aux : Option Token :=
        if elemOp w = 0 then some a
        else if elemOp w = 4 ∧ r.2 ≠ 0 then some { a with line := false, payload := BitVec.ofNat 512 r.2, scale := 0 }
        else none
      (r.1, aux, decide (elemOp w = 6) && decide (r.1.kind = .poison))
    else (a, if elemOp w = 0 then some a else none, false)
  | some y =>
    let k := mixKinds a.kind y.kind
    let t : Token :=
      if a.kind = .data ∧ y.kind = .data then { a with payload := elemPair w a.payload y.payload }
      else if k.1 = .data then (if a.kind = .data then a else y)
      else if k.1 = .poison then { a with kind := .poison, payload := 0 }
      else if a.round = 0 then { a with payload := y.payload, round := y.round } else a
    (t, none, k.2)

/-- Whether an element's inputs hold what it takes and its outputs are free. -/
def elemReady (x : FabElem) : Bool :=
  elemUsed x.word && x.a.isSome && (!twoInputs (elemOp x.word) || x.b.isSome) && x.main.isNone && x.aux.isNone

/-- An output register with its readers; without a reader it is free at once. -/
def heldOut (t : Token) (rs : List Nat) : Option (Token × List Nat) := if rs.isEmpty then none else some (t, rs)

/-- The firing of an element. -/
def fireElem (l : LinkPort) (e : Nat) : LinkPort :=
  let x := l.elem e
  match x.a with
  | none => l
  | some a =>
    let r := elemFire x.word a (if twoInputs (elemOp x.word) then x.b else none)
    let y := { x with a := none, b := none, main := heldOut r.1 (outReaders l e false), aux := r.2.1.bind fun t => heldOut t (outReaders l e true) }
    { (l.setElem e y) with fabErrs := if r.2.2 then sat32 (l.fabErrs + 1) else l.fabErrs }

/-- FABRIC_ELEMENT_FIRE (R406). -/
def execFabricElementFire (port elem : Nat) (s : State) : Out :=
  if !(s.link port).fabEn then .next s
  else
    let s1 := settleFabric s port
    .next (if elemReady ((s1.link port).elem elem) then settleFabric (s1.updLink port fun l => fireElem l elem) port else s1)

end Sys2Proof.Machine
end

