-- ==== Sys2Proof/Machine/Mgmt.lean ====
section
/-!
DEFINITION. The management space: what its registers read and what a write of one does (00 R6, R7, 11 R273, 12 R308, 15 R383,
16 R385, 17 R396, R398, R400, R403, R407, R409 to R411).

Registers whose place the spec does not give are named by numbers beyond the 64 MiB of BAR0 (log entry 33): the host ports' WBASE and
MSIEN, the link ports' table, route and fabric control words, the group table, and the ordered-stream table.
-/

namespace Sys2Proof.Machine

/-! Offsets. -/

def atBlock : Nat := 0x100000
def atError : Nat := 0x300000
def atGrant : Nat := 0x400000
def atDroop : Nat := 0x480000
def atElem : Nat := 0x800000
def atWbase : Nat := 0x4000000
def atMsien : Nat := 0x4000010
def atLink : Nat := 0x4000200
def atRoute : Nat := 0x4000400
def atFabric : Nat := 0x4000800
def atGroup : Nat := 0x4001000
def atOrdered : Nat := 0x4010000

/-- Whether an offset lies in an area of n bytes. -/
def inArea (off base n : Nat) : Bool := decide (base ≤ off) && decide (off < base + n)

/-- Word i of a byte area that reads 0 beyond its last byte. -/
def bytesWord (bs : List Byte) (i : Nat) : Word := BitVec.ofNat 64 (leNat ((bs.drop (8 * i)).take 8))

/-! Reading. -/

/-- A control block's word (R400). -/
def blockWord (s : State) (h i : Nat) : Word :=
  let b := s.block h
  let r := s.resOf h
  match i with
  | 0 =>
    if r.used then
      BitVec.ofNat 64 ((if r.commit then 2 ^ 59 else 0) + r.state.code % 16 * 2 ^ 52 + r.resid.toNat * 2 ^ 40 + r.replay % 2 ^ 32)
    else if r.commit then BitVec.ofNat 64 (2 ^ 59) else 0
  | 1 => b.image.setWidth 64
  | 2 => (b.root &&& ~~~(0xFFF#52)).setWidth 64
  | 3 => b.paramva.setWidth 64
  | 4 => b.snappa.setWidth 64
  | 5 => BitVec.ofNat 64 (b.onum % 32 * 2 ^ 15 + b.ofirst % 32 * 2 ^ 10 + b.inum % 32 * 2 ^ 5 + b.ifirst % 32)
  | _ => 0

/-- An error record's word (R383). -/
def errWord (e : ErrRec) (i : Nat) : Word :=
  match i with
  | 0 => e.w0
  | 1 => e.w1
  | 2 => e.w2
  | 3 => BitVec.ofNat 64 e.lenmis
  | 4 => BitVec.ofNat 64 e.rndmis
  | 5 => BitVec.ofNat 64 e.operr
  | 6 => BitVec.ofNat 64 e.verpass
  | 7 => BitVec.ofNat 64 e.dropped
  | 8 => e.drophdr.setWidth 64
  | 9 => BitVec.ofNat 64 e.corr
  | 10 => BitVec.ofNat 64 e.uncorr
  | 11 => e.flags.setWidth 64
  | 12 => e.dump.setWidth 64
  | 13 => BitVec.ofNat 64 e.faultdrop
  | _ => 0

/-- BOOTST (R411). -/
def bootWord (s : State) : Word := BitVec.ofNat 64 (s.bootFail % 256 * 256 + s.bootStage % 256)

/-- A fabric control word (R407). -/
def fabricWord (l : LinkPort) : Word := (if l.fabEn then 1#1 else 0#1) ++ (if l.fabErr then 1#1 else 0#1) ++ 0#62

/-- The 64-bit word at an offset that is a multiple of 8; none where the spec gives no register. -/
def mgmtRead (s : State) (off : Nat) : Option Word :=
  let f := s.fuses
  if off = 0 then some (summary0 s)
  else if off = 8 then some (summary1 s)
  else if inArea off 0x1000 1640 then some (bytesWord f.tileBits ((off - 0x1000) / 8))
  else if inArea off 0x2000 4920 then some (bytesWord f.linkBits ((off - 0x2000) / 8))
  else if inArea off 0x4000 13104 then some (bytesWord f.ceilings ((off - 0x4000) / 8))
  else if inArea off 0x8000 1640 then some (bytesWord f.tileRetireBits ((off - 0x8000) / 8))
  else if inArea off 0x9000 4920 then some (bytesWord f.linkRetireBits ((off - 0x9000) / 8))
  else if inArea off 0xC000 512 then
    some (let i := (off - 0xC000) / 8; if i < s.rects.length then rectWord (nthD s.rects i (0, 0, 0, 0)) else 0)
  else if off = 0x10000 then some (bootWord s)
  else if inArea off atBlock (64 * 256) then some (blockWord s ((off - atBlock) / 64) (off % 64 / 8))
  else if inArea off atError (128 * 256) then some (errWord (s.errOf ((off - atError) / 128)) (off % 128 / 8))
  else if inArea off atGrant (2 * 13104) then
    some (let t := (off - atGrant) / 2
      BitVec.ofNat 64 ((upto 4).foldl (fun x i => x + AMap.getD s.grants (t + i) 0 % 2 ^ 16 * 2 ^ (16 * i)) 0))
  else if inArea off atDroop (4 * 13104) then
    some (let t := (off - atDroop) / 4
      BitVec.ofNat 64 (AMap.getD s.droops t 0 + AMap.getD s.droops (t + 1) 0 * 2 ^ 32))
  else if inArea off atElem (0x1000 * 36) ∧ off % 0x1000 < 512 then
    some (((s.link ((off - atElem) / 0x1000)).elem (off % 0x1000 / 8)).word)
  else if inArea off atWbase 16 then some ((AMap.getD s.wbase (off % 16 / 8) 0).setWidth 64)
  else if inArea off atMsien 16 then some (AMap.getD s.msien (off % 16 / 8) 0)
  else if inArea off atLink (8 * 36) then some (s.link ((off - atLink) / 8)).table
  else if inArea off atRoute (8 * 64) then some (AMap.getD s.routes ((off - atRoute) / 8) 0)
  else if inArea off atFabric (8 * 36) then some (fabricWord (s.link ((off - atFabric) / 8)))
  else if inArea off atGroup (16 * 256) then
    some (let g := AMap.getD s.groupTab ((off - atGroup) / 16) (0, 0); if off % 16 / 8 = 0 then g.1 else g.2)
  else if inArea off atOrdered (1024 * 256) then some (nthD (AMap.getD s.otable ((off - atOrdered) / 1024) []) (off % 1024 / 8) 0)
  else none

/-! Writing (R6, R7). -/

/-- The outcome of an event that goes on, as a state. -/
def after (o : Out) (s : State) : State := match o with
  | .next s' => s'
  | _ => s

/-- Word 0 of a control block: at most one of its four commands, and COMMIT (R400). -/
def writeBlock0 (s : State) (h : Nat) (v : Word) : State :=
  let go := v.getLsbD 63
  let ab := v.getLsbD 62
  let sn := v.getLsbD 61
  let re := v.getLsbD 60
  if ((if go then 1 else 0) + (if ab then 1 else 0) + (if sn then 1 else 0) + (if re then 1 else 0) : Nat) > 1 then s
  else
    let s1 := s.updRes h fun r => { r with commit := v.getLsbD 59 }
    if go then after (execGoCmd h s1) s1 else if ab then after (execAbortCmd h s1) s1
    else if sn then after (execSnapCmd h s1) s1 else if re then after (execRestoreCmd h s1) s1 else s1

/-- Whether words 1 to 5 of a block are frozen (R400). -/
def blockFrozen (r : Res) : Bool :=
  r.used && (decide (r.state = .loading) || decide (r.state = .armed) || decide (r.state = .running) || decide (r.state = .held))

/-- A new image address: what was staged is another image. -/
def writeImage (s : State) (h : Nat) (v : Word) : State :=
  let b := s.block h
  let a := v.setWidth 52
  if b.image = a then s
  else
    ({ s with blocks := AMap.set s.blocks h { b with image := a } }).updRes h fun r =>
      { r with image := none, stageDue := r.stageDue || (r.used && decide (r.state = RState.queued)) }

/-- Words 1 to 5 of a control block (R400). -/
def writeBlock (s : State) (h i : Nat) (v : Word) : State :=
  let b := s.block h
  let set := fun (b : Block) => { s with blocks := AMap.set s.blocks h b }
  if blockFrozen (s.resOf h) then s
  else match i with
    | 1 => writeImage s h v
    | 2 => set { b with root := (v.extractLsb' 12 40) ++ 0#12 }
    | 3 => set { b with paramva := v.setWidth 48 }
    | 4 => set { b with snappa := v.setWidth 52 }
    | 5 => set { b with
        onum := (v.extractLsb' 15 5).toNat, ofirst := (v.extractLsb' 10 5).toNat, inum := (v.extractLsb' 5 5).toNat
        ifirst := (v.extractLsb' 0 5).toNat }
    | _ => s

/-- The RW bits of word 1 of a group-table entry (R308); bits 62:56 and 53:32 are reserved. -/
def groupMask : Word := 0x80C00000FFFFFFFF

/-- The RW bits of a word of the ordered-stream table: reserved bits of the header and of a list word read 0 (R273, R405). -/
def orderedMask (i : Nat) : Word := if i = 0 then 0x80FFFFE000000000 else 0xFFFFFFFFFFF80000

/-- Whether a residency bound to an ordered stream runs (R273). -/
def orderedInUse (s : State) (osn : Nat) : Bool := (AMap.vals s.tiles).any fun t =>
  s.running t.slot.handle && t.slot.ports.any fun p => p.2.declared && p.2.ordered && p.2.osn == osn

/-- A write of an ordered-stream table word. -/
def writeOrdered (s : State) (osn i : Nat) (v : Word) : State :=
  if orderedInUse s osn then s
  else
    let ws := AMap.getD s.otable osn []
    let ws1 := ws ++ List.replicate (i + 1 - ws.length) 0
    { s with otable := AMap.set s.otable osn (setAt ws1 i (v &&& orderedMask i)) }

/-- A write of an element's word, ignored while EN is 1; bits 9:0 are reserved (R407). -/
def writeFabElem (s : State) (port e : Nat) (v : Word) : State :=
  let l := s.link port
  if l.fabEn then s else s.setLink port (l.setElem e { l.elem e with word := v &&& ~~~(0x3FF#64) })

/-- A write of a 64-bit register at a multiple of 8; none where the spec gives no register. Words without a register table (WBASE,
MSIEN, a link port's table word, a route word) are RW to the host (DESIGN CHOICE, log entry 33). -/
def mgmtWrite (s : State) (off : Nat) (v : Word) : Option State :=
  if (mgmtRead s off).isNone then none
  else some (
    if inArea off atBlock (64 * 256) then
      (if off % 64 / 8 = 0 then writeBlock0 s ((off - atBlock) / 64) v else writeBlock s ((off - atBlock) / 64) (off % 64 / 8) v)
    else if inArea off atError (128 * 256) then
      (if off % 128 / 8 = 12 then s.updErr ((off - atError) / 128) fun e => { e with dump := v.setWidth 48 } else s)
    else if inArea off atElem (0x1000 * 36) then writeFabElem s ((off - atElem) / 0x1000) (off % 0x1000 / 8) v
    else if inArea off atWbase 16 then { s with wbase := AMap.set s.wbase (off % 16 / 8) (v.extractLsb' 36 16 ++ 0#36) }
    else if inArea off atMsien 16 then { s with msien := AMap.set s.msien (off % 16 / 8) (v &&& 0xFFFFFFFF) }
    else if inArea off atLink (8 * 36) then
      s.updLink ((off - atLink) / 8) fun l => { l with table := v &&& 0xFFF0000000000003 }
    else if inArea off atRoute (8 * 64) then { s with routes := AMap.set s.routes ((off - atRoute) / 8) (v &&& routeMask) }
    else if inArea off atFabric (8 * 36) then after (execFabricEnable ((off - atFabric) / 8) (v.getLsbD 63) s) s
    else if inArea off atGroup (16 * 256) then
      (let g := AMap.getD s.groupTab ((off - atGroup) / 16) (0, 0)
       { s with groupTab := AMap.set s.groupTab ((off - atGroup) / 16) (if off % 16 / 8 = 0 then (v, g.2) else (g.1, v &&& groupMask)) })
    else if inArea off atOrdered (1024 * 256) then writeOrdered s ((off - atOrdered) / 1024) (off % 1024 / 8) v
    else s)

/-- REGISTER_WRITE: a host write of 8 bytes through BAR0, at offset `offset % 2 ^ 27` of port `offset / 2 ^ 27` (the 64 MiB of BAR0, and behind
them the registers of no stated place); through a port whose link is down it is lost. A register without a behaviour of its own follows its access codes
(R6, R396). A place where the spec gives none is a device it does not describe. An offset that is no multiple of 8 names the word it
lies in (DESIGN CHOICE, log entry 33: the spec gives no access size). -/
def execRegisterWrite (offset : Nat) (v : Word) (s : State) : Out :=
  if !hostReaches s (offset / 2 ^ 27) then .next s
  else match mgmtWrite s (offset % 2 ^ 27 / 8 * 8) v with
    | some s1 => .next s1
    | none => .fault .undescribedDevice

end Sys2Proof.Machine
end

