-- ==== Sys2Proof/Machine/Home.lean ====
section
/-!
DEFINITION. Requests at their homes, and the host's window on global memory (09 R219 to R222, R230, 17 R396, R402, R403).
-/

namespace Sys2Proof.Machine

/-! The management space as a home (R216). -/

/-- Bytes lo to lo + n − 1 of a word. -/
def wordPart (w : Word) (lo n : Nat) : Word := BitVec.ofNat 64 (w.toNat / 256 ^ lo % 256 ^ n)

/-- A word with n bytes from lo replaced. -/
def wordWith (w : Word) (lo n x : Nat) : Word :=
  BitVec.ofNat 64 (w.toNat / 256 ^ (lo + n) * 256 ^ (lo + n) + x % 256 ^ n * 256 ^ lo + w.toNat % 256 ^ lo)

/-- A read or write of n bytes at an offset of the management space; none where the spec gives no register. An access narrower than a
word reads its part, or writes the word with that part replaced (DESIGN CHOICE, log entry 33: the spec gives no access size). -/
def mgmtAccess (s : State) (off n : Nat) (write : Option Nat) : Option (State × Word) :=
  match mgmtRead s (off / 8 * 8) with
  | none => none
  | some w => match write with
    | none => some (s, wordPart w (off % 8) n)
    | some x => (mgmtWrite s (off / 8 * 8) (wordWith w (off % 8) n x)).map fun s1 => (s1, 0)

/-- The answer of the management space to a request: a load or a store; it holds no lines with versions, and no atomics. -/
def mgmtPerform (s : State) (q : GReq) : Option (State × Reply) :=
  match q.op with
  | .load => (mgmtAccess s (paOffset q.pa) q.n none).map fun r => (r.1, .data r.2)
  | .store => (mgmtAccess s (paOffset q.pa) q.n (some q.data.toNat)).map fun r => (r.1, .ack)
  | _ => none

/-- The answer of another module's management space, whose registers this model does not hold: a value that is free (R216; log entry
90). -/
def farMgmt (s : State) (q : GReq) : Reply := if q.op.stores then .ack else .data (Config.freeWord s.steps)

/-! MEMORY_REQUEST. -/

/-- Whether the accesses that must perform first have (R222). -/
def requestReady (t : Tile) (q : GReq) : Bool :=
  !q.performed && q.reply.isNone && q.after.all fun id => match AMap.get? t.reqs id with
    | none => true
    | some p => p.performed

/-- The answer of a request at the tile: kept with it until it arrives; a RETRY leaves it to be sent again (R220, R229). -/
def answer (s : State) (tile id : Nat) (q : GReq) (r : Option Reply) : State :=
  let s1 := s.updTile tile fun t =>
    if (AMap.get? t.reqs id).isSome then t.setReq id { q with performed := decide (r ≠ some .retry), reply := r } else t
  if r = some .poison ∧ q.ctxNo ≠ 0 then s1.updErr (s.handleOf tile) fun e => { e with uncorr := sat32 (e.uncorr + 1) } else s1

/-- MEMORY_REQUEST: a request performs at its home (R220, R221). -/
def execMemoryRequest (tile id : Nat) (s : State) : Out :=
  match AMap.get? (s.tile tile).reqs id with
  | none => .next s
  | some q =>
    if !requestReady (s.tile tile) q then .next s
    else match wayTo s (paModule q.pa) with
      | .waiting => .next s
      | .dead => .next (answer s tile id q (some .poison))
      | .open =>
        if paKind q.pa = 2 then
          match (if paModule q.pa = s.module then mgmtPerform s q else some (s, farMgmt s q)) with
          | some (s1, r) => .next (answer s1 tile id q (some r))
          | none => .fault .undescribedDevice
        else if q.op = .swabt then
          let r := abortPerform s tile id q
          .next (answer r.1 tile id q r.2)
        else
          let r := homePerform s tile q
          let s1 := answer r.1 tile id q (some r.2)
          .next (if r.2 = .retry then s1 else s1.moved (s.handleOf tile))

/-! BAR4 (R230, R396). -/

/-- The physical address of a BAR4 offset. -/
def bar4Addr (s : State) (port offset : Nat) : PAddr := AMap.getD s.wbase port 0 + BitVec.ofNat 52 offset

/-- BAR4_ACCESS: an access of at most 8 bytes within the window performs at its home. A port whose link has failed carries none, no more
than a module that does not answer (R394, R411), and a refused address has no home (R217). A read changes nothing here. -/
def execBar4Access (port : Nat) (write : Bool) (offset size : Nat) (v : Word) (s : State) : Out :=
  let pa := bar4Addr s port offset
  if !hostAnswered s ∨ !s.hostUp.getLsbD port ∨ 2 ^ 36 < offset + size ∨ 8 < size ∨ paRefused true pa then .next s
  else if wayTo s (paModule pa) ≠ .open then .next s
  else if paKind pa = 2 ∧ paModule pa = s.module then
    match mgmtAccess s (paOffset pa) size (if write then some v.toNat else none) with
    | some r => .next r.1
    | none => .fault .undescribedDevice
  else if !write ∨ paKind pa = 2 then .next s
  else .next (s.gWrite pa.toNat (leBytes size v.toNat))

end Sys2Proof.Machine
end

