-- ==== Sys2Proof/Machine/Fetch.lean ====
section
/-!
DEFINITION. Fetching and decoding the instruction at a context's PCC (03 R84, R85, R87, 05 R146, 14 R344).
-/

namespace Sys2Proof.Machine

/-- The checks of R344 on PCC for a word at p, in their order, with the value the trap reports; `exec` says whether the word's bank
is marked executable. -/
def pccCheck (c : Ctx) (p : Nat) (exec : Bool) : Option Failure :=
  let v : Word := BitVec.ofNat 64 p
  if !c.pcc.tag then some (codeCapTag, v)
  else if c.pcc.isSealed then some (codeCapSeal, v)
  else if !(c.pcc.has .x && c.pcc.has .tlm) || !exec then some (codeCapPerm, v)
  else if decide ((p : Int) < c.pcc.base) || decide (c.pcc.top < (p : Int) + 4) then some (codeCapBounds, v)
  else if p % 4 != 0 then some (codeAlign, v)
  else none

/-- Step 1 of R85 for the word at p: the checks of R344 in their order, then the word's own error. -/
def fetchCheck (t : Tile) (c : Ctx) (p : Nat) : Option Failure :=
  match pccCheck c p (decide (p < 2 ^ 22) && t.isExec p) with
  | some f => some f
  | none => match t.badWord p 4 with
    | some w => some (codeEcc, BitVec.ofNat 64 w)
    | none => none

/-- What the fetch of an instruction comes to. -/
inductive Fetched where
  | instr (i : Instr)
  | unused (w0 : BitVec 32) (w1 : Option (BitVec 32))
  | fault (f : Failure) (w0 : Option (BitVec 32))
  deriving DecidableEq, Repr

/-- The RC major, which only context 0 may issue (R87). -/
def isRc (i : Instr) : Bool :=
  match i with
  | .cslot _ | .rload _ | .rquery _ => true
  | _ => false

/-- Steps 4 to 6 of R85 on the words of an instruction, on pass `pass` of a REP (R84). -/
def decodeAs (ctx pass stride : Nat) (w0 : BitVec 32) (w1 : Option (BitVec 32)) : Fetched :=
  match (match w1 with
    | none => decodeA w0
    | some w => decodeB w0 w) with
  | .error _ => .unused w0 w1
  | .ok i => if isRc i && ctx != 0 then .unused w0 w1 else .instr (i.repShift pass stride)

/-- A word of the instruction at p: from the repetition buffer after pass 0 (R146), else fetched and checked. -/
def wordAt (t : Tile) (c : Ctx) (p : Nat) : Except Failure (BitVec 32) :=
  match (if c.inRep && c.rep.pass != 0 then AMap.get? c.rep.words p else none) with
  | some w => .ok w
  | none => match fetchCheck t c p with
    | some f => .error f
    | none => .ok (fetchWord t c p)

/-- The REP pass and stride that decode the instruction at the PCC (R84). -/
def Ctx.repPass (c : Ctx) : Nat × Nat := if c.inRep then (c.rep.pass.toNat, c.rep.stride.toNat) else (0, 0)

/-- Steps 1 to 6 of R85 at the context's PCC. -/
def fetchAt (t : Tile) (ctx : Nat) (c : Ctx) : Fetched :=
  let p := c.pc.toNat
  match wordAt t c p with
  | .error f => .fault f none
  | .ok w0 => match isLong w0 with
    | none => .unused w0 none
    | some false => decodeAs ctx c.repPass.1 c.repPass.2 w0 none
    | some true => match wordAt t c (p + 4) with
      | .error f => .fault f (some w0)
      | .ok w1 => decodeAs ctx c.repPass.1 c.repPass.2 w0 (some w1)

/-- What stands at a context's PCC; at the return stub, which the system layer keeps executable and whole, it is DONE, or RETIRE for a
team, once PCC passes the checks of R344 (R51, R294; log entry 18). -/
def fetchNext (t : Tile) (ctx : Nat) (c : Ctx) : Fetched :=
  if ctx != 0 && c.pc.toNat == Config.stub (decide (c.role = .team)) then
    if let some f := pccCheck c c.pc.toNat true then .fault f none
    else if c.role = .team then .instr (.retireI ⟨0, 0, 0⟩) else .instr (.doneI ⟨0, 0, 0⟩)
  else fetchAt t ctx c

/-- Pass 0 of a REP fills the repetition buffer (R146). -/
def Ctx.recordRep (c : Ctx) (t : Tile) : Ctx :=
  if c.inRep && c.rep.pass == 0 then
    let p := c.pc.toNat
    let w0 := fetchWord t c p
    let ws := AMap.set c.rep.words p w0
    let ws := if isLong w0 = some true then AMap.set ws (p + 4) (fetchWord t c (p + 4)) else ws
    { c with rep := { c.rep with words := ws } }
  else c

end Sys2Proof.Machine
end

