-- ==== Sys2Proof/Machine/Pager.lean ====
section
/-!
DEFINITION. The pager's side of translation: walks, mappings, refusals and invalidations (10 R258, R263, 12 R298, R299,
13 R330, 14 R351 to R354).
-/

namespace Sys2Proof.Machine

/-! TRANSLATION_WALK (R351). -/

/-- The form of a G-class instruction with its fields (R241 to R243). -/
def gFormOf (s : State) (i : Instr) : Option (GW × GForm) :=
  match i with
  | .gld f | .glda f => some (f, loadForm f)
  | .gst f | .gstr f => some (f, storeForm f s)
  | .gaadd f => some (f, atomicForm .aadd f s)
  | .gamin f => some (f, atomicForm .amin f s)
  | .gamax f => some (f, atomicForm .amax f s)
  | .gaand f => some (f, atomicForm .aand f s)
  | .gaor f => some (f, atomicForm .aor f s)
  | .gaxor f => some (f, atomicForm .axor f s)
  | .gaswp f => some (f, atomicForm .aswp f s)
  | .gacas f => some (f, atomicForm .acas f s)
  | .gafadd f => some (f, atomicForm .afadd f s)
  | .gldv f => if s.cur.ctx ≠ 0 ∧ f.async = 1 ∧ f.tok = 1 ∧ f.d ≠ 0 then none else some (f, gldvForm f s)
  | .gstv f => some (f, gstvForm f s)
  | .gvq f => some (f, gvqForm f)
  | _ => none

/-- Whether a tile's cache holds an entry that lets an access through. -/
def tlbHit (t : Tile) (x : Space) (va : Nat) (r w ver : Bool) : Bool :=
  t.tlb.any fun e => e.covers x.resid va && e.allows r w ver

/-- A context's walk: its next instruction is a global access whose translation misses. A leaf that serves it is cached; any
other end is the instruction's own (R298, R299, R351). -/
def ctxWalk (s : State) (tile n : Nat) (va : Addr) : Out :=
  let t := s.tile tile
  let s1 := { s with cur := ⟨tile, n⟩ }
  match (if (t.ctx n).mode = .running ∧ (t.ctx n).halted = false then fetchNext t n (t.ctx n) else .unused 0 none) with
  | .instr i => match gFormOf s1 i with
    | none => .next s
    | some (f, g) =>
      let x := ctxSpace s tile n
      if gAddr (s1.me.readK f.a) f g.n ≠ va ∨ tlbHit t x va.toNat g.r g.w g.ver then .next s
      else match walk s x va.toNat with
        | .leaf e =>
          if e.allows g.r g.w g.ver then .next ((firstMapped s tile x e).updTile tile fun t => { t with tlb := tlbFill t.tlb e })
          else gIssue f g s1
        | _ => gIssue f g s1
  | _ => .next s

/-- The global address that the next line of a copy reads, or writes. -/
def copyVa (x : EngCmd) (dst : Bool) : Option Nat :=
  match x.instr with
  | .dcopy f =>
    let a := (if dst then x.ka else x.kb).addr.toNat + 64 * x.done
    if (if dst then f.d != 0 || copyLocal x.ka true else copyLocal x.kb false) then none else some a
  | _ => none

/-- A copy's walk: filled, held on the page, or stopped (R258). -/
def copyWalk (s : State) (tile n : Nat) (va : Addr) : State :=
  match ((s.tile tile).ctx n).dmq with
  | [] => s
  | x :: _ =>
    let w := copyVa x true == some va.toNat
    if x.waiting.isSome || !(w || copyVa x false == some va.toNat) || tlbHit (s.tile tile) (ctxSpace s tile n) va.toNat (!w) w false
    then s
    else
      let r := translate s tile (ctxSpace s tile n) va.toNat (!w) w false
      match r.2 with
      | .ok _ => r.1
      | .wait => s.updTile tile fun t => t.setDmHead n (x.waitAt va)
      | .perm => copyStop r.1 tile n x x.ew codeCapPerm va
      | .denied =>
        copyStop (if n = 0 then r.1 else deniedToken r.1 (r.1.handleOf tile) va) tile n x x.ew codePageDenied va

/-- A stream's walk (R263, R353). -/
def streamWalk (s : State) (tile n : Nat) (va : Addr) : State :=
  let st := (s.tile tile).stream n
  if !streamLive s tile st || descTotal st.desc ≤ st.pos || descAddr st.desc st.pos != va.toNat
    || st.tlb.any (fun e => e.covers (streamSpace s tile st).resid va.toNat) then s
  else
    let r := streamTrans s tile st va.toNat (descDir st.desc == 1)
    match r.2 with
    | .ok _ => s.updTile tile fun t => t.setStream n r.1
    | x => streamStop s tile n va.toNat x

/-- TRANSLATION_WALK (R351). -/
def execTranslationWalk (tile : Nat) (client : Client) (va : Addr) (s : State) : Out :=
  match client with
  | .ctx n => ctxWalk s tile n va
  | .dcopy n => .next (copyWalk s tile n va)
  | .stream n => .next (streamWalk s tile n va)

/-! PAGER_MAP (R298). -/

/-- Whether a walk no longer waits at an address. -/
def mapped (s : State) (x : Space) (va : Addr) : Bool := walk s x va.toNat != .wait

/-- The head of a stream-engine queue goes on when its page is mapped (R258). -/
def wakeCmds (s : State) (tile : Nat) (t : Tile) : Tile :=
  { t with ctxs := AMap.mapVals t.ctxs fun n c => { c with dmq := c.dmq.map fun x =>
      match x.waiting with
      | some va => if mapped s (ctxSpace s tile n) va then { x with waiting := none } else x
      | none => x } }

def wakeStreams (s : State) (tile : Nat) (t : Tile) : Tile :=
  t.setSlot { t.slot with streams := AMap.mapVals t.slot.streams fun _ x =>
    match x.waiting with
    | some va => if mapped s (streamSpace s tile x) va then { x with waiting := none } else x
    | none => x }

/-- Waiting tasks that a test picks enter class 2 in their order (R289, R298). -/
def readyWaiters (p : Waiter → Bool) (mark : Waiter → Waiter) : Nat → List Waiter → List Waiter × Nat
  | n, [] => ([], n)
  | n, w :: ws =>
    if w.ready.isNone && p w then
      let r := readyWaiters p mark (n + 1) ws
      ({ mark w with ready := some n } :: r.1, r.2)
    else
      let r := readyWaiters p mark n ws
      (w :: r.1, r.2)

def Tile.wake (t : Tile) (p : Waiter → Bool) (mark : Waiter → Waiter) : Tile :=
  let r := readyWaiters p mark t.nextReady t.waiters
  { t with waiters := r.1, nextReady := r.2 }

/-- Everything of a tile that waited on a page that is now mapped goes on. -/
def wakeTile (h : Nat) (s : State) (tile : Nat) : State :=
  s.updTile tile fun t =>
    (wakeStreams s tile (wakeCmds s tile t)).wake (fun w => mapped s (resSpace s h) w.va) fun w => w

/-- PAGER_MAP: the pager writes page-table entries, and what waited on the page goes on; the region has moved (R298, R311, R330). -/
def execPagerMap (handle : Nat) (_ : Addr) (entries : List (PAddr × Word)) (s : State) : Out :=
  let x := resSpace s handle
  let s1 := entries.foldl (fun s e => s.gWrite e.1.toNat (leBytes 8 e.2.toNat)) s
  let s2 := (s1.resTiles handle).foldl (wakeTile handle) s1
  let s3 := match (s2.resOf handle).armWait with
    | some a => if mapped s2 x a then s2.updRes handle fun r => { r with armWait := none } else s2
    | none => s2
  .next (s3.moved handle)

/-! PAGE_DENIED (R299). -/

def samePage (a b : Addr) : Bool := a.toNat / 2 ^ 16 == b.toNat / 2 ^ 16

/-- Whether a waiting task waits for a copy or stream of its own, whose stop sends the fault token (R252, R258, R263). -/
def waitsOnUnit (t : Tile) (w : Waiter) (va : Addr) : Bool :=
  let held := fun (a : Option Addr) => match a with
    | some b => samePage b va
    | none => false
  t.engCmds.any (fun e => e.task == w.ctx.task && held e.waiting)
    || (AMap.vals t.slot.streams).any fun x => held x.waiting && (match x.go with
      | some (tk, _, _, _) => tk == w.ctx.task
      | none => false)

/-- The tasks, copies and streams of a tile that wait on a refused page: every waiter resumes and traps at its instruction (R258, R263,
R299; log entry 67). -/
def denyTile (va : Addr) (s : State) (tile : Nat) : State :=
  let t := s.tile tile
  let h := t.slot.handle
  let pick := fun (w : Waiter) => samePage w.va va
  let s1 := (t.waiters.filter fun w => w.ready.isNone && pick w && !waitsOnUnit t w va).foldl (fun s w => deniedToken s h w.va) s
  let s2 := s1.updTile tile fun y => y.wake pick fun w => { w with denied := true }
  let s3 := (upto 11).foldl (fun s c => match ((s.tile tile).ctx c).dmq with
    | x :: _ => match x.waiting with
      | some a =>
        if c ≠ 0 ∧ samePage a va then copyStop (deniedToken s h a) tile c { x with waiting := none } x.ew codePageDenied a else s
      | none => s
    | [] => s) s2
  (upto 8).foldl (fun s k =>
    let st := (s.tile tile).stream k
    match st.waiting with
    | some a => if !st.mon && samePage a va then streamDenied s tile k a.toNat false else s
    | none => s) s3

/-- PAGE_DENIED: the pager refuses a page (R299, R330). -/
def execPageDenied (handle : Nat) (va : Addr) (s : State) : Out :=
  let s1 := ((s.resTiles handle).foldl (denyTile va) s).moved handle
  .next (match (s1.resOf handle).armWait with
    | some a => if samePage a va then s1.updRes handle fun r => { r with armWait := none, armRefused := true } else s1
    | none => s1)

/-! TLB_INVALIDATE (R354). -/

/-- Whether an access of a tile, translated through a page, has still to perform. -/
def pageBusy (t : Tile) (resid : BitVec 12) (va level : Nat) : Bool :=
  (AMap.vals t.reqs).any fun q =>
    q.resid == resid && !q.performed && q.ctxNo != 0 && q.va.toNat / 2 ^ pageShift level == va / 2 ^ pageShift level

/-- Whether a live sweep holds a translation of a page, which its launch and its teams' RETIREs go on using (R301, R302). -/
def sweepHolds (s : State) (resid : BitVec 12) (va level : Nat) : Bool :=
  (AMap.vals s.sweeps).any fun w =>
    let p := 2 ^ pageShift level
    w.resid == resid && decide (w.sbva.toNat / p ≤ va / p) && decide (va / p ≤ (w.sbva.toNat + boardLen (recW w.record 0) - 1) / p)

/-- The entries of a page leave a tile's cache and its streams (R352, R353). -/
def Tile.dropPage (t : Tile) (resid : BitVec 12) (va level : Nat) : Tile :=
  let hit := fun (e : TlbEntry) => e.resid == resid && e.level == level && e.vpn == va / 2 ^ pageShift level
  let t1 := { t with tlb := t.tlb.filter fun e => !hit e }
  t1.setSlot { t1.slot with streams := AMap.mapVals t1.slot.streams fun _ x => { x with tlb := x.tlb.filter fun e => !hit e } }

/-- TLB_INVALIDATE: the entries are dropped; the invalidation stands until every access through them has performed, when this
event completes it (R354). -/
def execTlbInvalidate (handle : Nat) (va : Addr) (level : Nat) (s : State) : Out :=
  let k : Inval := ⟨handle, va.toNat, level⟩
  let resid := (s.resOf handle).resid
  let s1 := (s.resTiles handle).foldl (fun s n => s.updTile n fun t => t.dropPage resid va.toNat level) s
  let rest := s.invals.filter (· ≠ k)
  let busy := sweepHolds s resid va.toNat level || (s.resTiles handle).any fun n => pageBusy (s.tile n) resid va.toNat level
  .next { s1 with invals := if busy then rest ++ [k] else rest }

end Sys2Proof.Machine
end

