-- ==== Sys2Proof/Machine/Rebalance.lean ====
section
/-!
DEFINITION. The rebalancer: its samples, its moves and the forwarding of what a moved actor's old place still receives (09 R233, R234,
12 R313).
-/

namespace Sys2Proof.Machine

/-! The rebalancer (R233, R234, R313). -/

/-- Whether a tile runs helpers. -/
def runsHelpers (t : Tile) : Bool := (upto 10).any fun i => decide ((t.ctx (i + 1)).mode = .running)

/-- An actor's samples: the occupancy of each input is added. -/
def sampleActor (t : Tile) (n : Nat) (a : Actor) : Actor :=
  { a with occ := (t.inputs n).foldl (fun m p => AMap.set m p.1 (AMap.getD m p.1 0 + p.2.q.length)) a.occ }

/-- Whether an actor's mean occupancy over 64 samples exceeds three quarters of some input's depth. -/
def crowded (t : Tile) (n : Nat) (a : Actor) : Bool := (t.inputs n).any fun p => decide (3 * 64 * p.2.depth < 4 * AMap.getD a.occ p.1 0)

/-- The executable banks that hold an actor's handlers. -/
def handlerBanks (a : Actor) : List Nat :=
  ((a.entry.toNat :: [a.eosH, a.rndH, a.misH].filterMap fun x => x.map (·.toNat)).map (· / 2 ^ 18)).eraseDups

/-- Whether two tiles hold a bank with the same contents. -/
def sameBank (t u : Tile) (b : Nat) : Bool :=
  t.exec.getLsbD b && u.exec.getLsbD b
    && decide (t.tlm.filter (fun c => c.1 / 2 ^ 18 == b) = u.tlm.filter (fun c => c.1 / 2 ^ 18 == b))

/-- The lowest free actor index of a tile. -/
def freeActor (t : Tile) : Option Nat := (upto 8).find? fun i => !(t.actor i).declared

/-- Whether a port ends a channel that carries BANK tokens (R265). -/
def fromBank (s : State) (p : Port) : Bool := match p.chan.bind s.chan? with
  | some c => match c.src with
    | .port k n => ((s.tile k).port n).bankp
    | _ => false
  | none => false

/-- The conditions of R233 on a move; the rebalancer moves neither end of a bank channel (R265). -/
def mayMove (s : State) (tile n target : Nat) : Bool :=
  let t := s.tile tile
  let u := s.tile target
  let a := t.actor n
  let ports := t.slot.ports.filter fun p => p.2.declared && p.2.actor == n && p.2.stream.isNone
  a.declared && !a.ended && a.pend.isNone && tile != target && u.alive
    && !(AMap.vals t.accs).any (fun x => x.owner == some n || x.iOwner == some n) && t.fabric.iOwner != some n
    && !(AMap.vals s.tiles).any (fun x => x.fabric.iOwner == some (farKey tile n) || (AMap.vals x.accs).any fun y => y.iOwner == some (farKey tile n))
    && !(AMap.vals s.sweeps).any (fun w => w.tile == tile && w.actor == n)
    && (AMap.vals u.slot.actors).all (fun x => x.grant &&& a.grant == 0)
    && (freeActor u).isSome && ports.all (fun p => !(u.port p.1).declared) && (handlerBanks a).all (sameBank t u)
    && decide (t.fwd.length < 4) && decide (u.fwd.length < 4)
    && ports.all (fun p => !p.2.bankp && !fromBank s p.2 && p.2.drain == .no)

/-- Where a nominee goes: the tile of the region that ran helpers in the fewest samples, the lowest name first. -/
def moveTarget (s : State) (h tile n : Nat) : Option Nat :=
  match (s.resTiles h).filter fun k => k != tile with
  | [] => none
  | k :: ks =>
    let best := ks.foldl (fun b k => if (s.tile k).busyLast < (s.tile b).busyLast then k else b) k
    if mayMove s tile n best then some best else none

/-- The actor that a tile nominates at the end of a window. -/
def nominee (s : State) (tile : Nat) (t : Tile) : Option Nat :=
  if t.busySamples ≤ 56 then none
  else (upto 8).find? fun n =>
    let a := t.actor n
    a.declared && crowded t n a && !a.migrating && decide (a.lastMove = 0 ∨ a.lastMove + 400000 ≤ s.now) && (moveTarget s t.slot.handle tile n).isSome

/-- REBALANCE_SAMPLE: one sample of a tile; after 64, perhaps a nomination (R313). -/
def execRebalanceSample (tile : Nat) (s : State) : Out :=
  let t := s.tile tile
  let h := t.slot.handle
  if !s.running h || (s.resOf h).snapping || (s.resOf h).snapDue || decide (s.now < t.sampledAt + 4000) then .next s
  else
    let busy := t.busySamples + (if runsHelpers t then 1 else 0)
    let t1 := { t with
      samples := t.samples + 1, busySamples := busy, sampledAt := s.now }
    let t2 := t1.setSlot { t1.slot with actors := AMap.mapVals t1.slot.actors fun n a => sampleActor t1 n a }
    let s1 := s.setTile tile t2
    if t2.samples < 64 then .next s1
    else
      let pick := if (s.resOf h).moving.isSome then none else nominee s1 tile t2
      let t3 := { t2 with samples := 0, busySamples := 0, busyLast := busy }
      let t4 := t3.setSlot { t3.slot with actors := AMap.mapVals t3.slot.actors fun _ a => { a with occ := [] } }
      match pick with
      | none => .next (s1.setTile tile t4)
      | some n => match moveTarget s1 h tile n with
        | none => .next (s1.setTile tile t4)
        | some k =>
          let s2 := s1.setTile tile (t4.setActor n { t4.actor n with migrating := true })
          .next (s2.updRes h fun r => { r with moving := some (tile, n, k) })

/-- An end that stands on a moved port stands on the new tile. -/
def moveEnd (tile target : Nat) (ps : List Nat) (e : End) : End := match e with
  | .port k p => if k = tile ∧ ps.any (· == p) then .port target p else e
  | _ => e

/-- Every channel's ends on the moved ports, rebound (R233 step 5). -/
def moveChans (s : State) (h tile target : Nat) (ps : List Nat) : State :=
  { s with chans := AMap.mapVals s.chans fun _ c =>
    if c.handle = h then { c with src := moveEnd tile target ps c.src, branches := c.branches.map fun b => { b with dst := moveEnd tile target ps b.dst } }
    else c }

/-- The requests whose reserved slots are still to be filled name the moved actor's new place: their replies go on to it (R234). -/
def moveReqs (s : State) (tile actor key : Nat) : State :=
  { s with tiles := AMap.mapVals s.tiles fun k t => { t with reqs := AMap.mapVals t.reqs fun _ q =>
      if q.seq.isSome && ((k == tile && q.actor == actor && q.ctxNo != 0) || q.actor == farKey tile actor) then { q with actor := key } else q } }

/-- Where moved ordered outputs stand now (R283). -/
def moveSenders (m : AMap Nat) (tile target : Nat) (ps : List Nat) : AMap Nat :=
  ps.foldl (fun m p => AMap.set m (32 * tile + p) target)
    (m.map fun x => if x.2 = tile ∧ ps.any (· == x.1 % 32) then (x.1, target) else x)

/-- MIGRATION: the move of an actor that is marked, between its firings, its stores acknowledged (R233); a snapshot that waited for it
begins (R374). -/
def execMigration (tile actor target : Nat) (s : State) : Out :=
  let t := s.tile tile
  let u := s.tile target
  let h := t.slot.handle
  let a := t.actor actor
  match freeActor u with
  | none => .next s
  | some i =>
    let busy := a.live.isSome || (AMap.vals t.reqs).any (fun q => q.actor == actor && q.ctxNo != 0 && q.op.stores) || firingBusy s tile actor
    if (s.resOf h).moving ≠ some (tile, actor, target) ∨ busy then .next s
    else if !mayMove s tile actor target then
      .next (snapNext ((s.setTile tile (t.setActor actor { a with migrating := false })).updRes h fun r => { r with moving := none }) h)
    else
      let mine := t.slot.ports.filter fun p => p.2.declared && p.2.actor == actor && p.2.stream.isNone
      let ps := mine.map (·.1)
      let due := (mine.filter fun p => !p.2.output).foldl (fun m p => match p.2.chan.bind s.chan? with
        | some c => AMap.set m p.1 c.seq
        | none => m) ([] : AMap Nat)
      let u1 := moveBanks t u a.grant
      let u2 := mine.foldl (fun u p => u.setPort p.1 { p.2 with actor := i }) u1
      let u3 := u2.setActor i { a with migrating := false, occ := [], lastMove := s.now }
      let t1 := t.setSlot { t.slot with
        ports := t.slot.ports.filter fun p => !ps.any (· == p.1), actors := AMap.erase t.slot.actors actor }
      let t2 := { t1 with fwd := t1.fwd ++ [⟨actor, ps, target, due⟩] }
      let s1 := moveReqs (moveChans ((s.setTile tile t2).setTile target u3) h tile target ps) tile actor (farKey target i)
      let outs := (mine.filter fun p => p.2.ordered && p.2.output).map (·.1)
      .next (snapNext (s1.updRes h fun r => { r with moving := none, senders := moveSenders r.senders tile target outs }) h)

/-- Whether every token that a forwarding entry covers has arrived (R234). -/
def fwdDone (s : State) (f : FwdEntry) : Bool :=
  f.due.all fun d => match ((s.tile f.target).port d.1).chan.bind s.chan? with
    | none => true
    | some c => c.branches.all fun b => match b.dst with
      | .port k p => !(k == f.target && p == d.1) || !(b.flights.any fun x => decide (x.tok.seq < d.2)) && !(c.forkQ.any fun x => decide (x.tok.seq < d.2))
      | _ => true

/-- FORWARDING_ENTRY_REMOVAL (R234). -/
def execForwardingEntryRemoval (tile : Nat) (s : State) : Out :=
  .next (s.updTile tile fun t => { t with fwd := t.fwd.filter fun f => !fwdDone s f })

end Sys2Proof.Machine
end

