-- ==== Sys2Proof/Machine/Vector.lean ====
section
/-!
DEFINITION. Issuing a vector instruction into its context's queue, the lane-group arbiter, and completion in program order
(03 R79, R80, 04 R119, 06 R156 to R176, 12 R295, R296).
-/

namespace Sys2Proof.Machine

/-- A capability operand's TLM need: loads R, stores W (R173). -/
def vmNeed (i : Instr) : List Perm :=
  match vmShape i with
  | some (_, _, true) => [.w]
  | _ => [.r]

/-- The checks of a VM instruction's accesses, in element order (R173). -/
def vmIssueCheck (s : State) (e : VqEntry) : Try Unit :=
  match firstSome (fun (p : Nat × Nat) => tlmCheck (grantOf s s.cur.tile s.me) e.ka p.1 p.2 p.2 (vmNeed e.instr))
      (vmChecks s.me e) with
  | some (c, v) => .error (.trap c v)
  | none => .ok ()

/-- Whether a queued instruction writes a register outside a window. -/
def queuedWrite (c : Ctx) (cls : RegClass) (r : BitVec 6) : Bool :=
  c.vq.any fun e => !e.win && decide (vecDest e.instr = cls) && (match vShape e.instr, vmShape e.instr with
    | some x, none => x.f.d == r
    | some x, some (_, _, store) => !store && x.f.d == r
    | none, _ => false)

/-- What holds a vector instruction at issue: its k operands, windows whose count has run out, a full queue, the loads whose
failure must be known before a register of theirs is named, and for a VM instruction its indices, its mask, the context's
acquires (R79, R158, R160, R173, R174, R222). -/
def vecHold (s : State) (i : Instr) (x : VShape) : Bool :=
  let t := s.here
  let c := s.me
  let ks := x.kFields
  ks.any (busyWrite t c)
    || (vFields i).any (c.winDue .v) || (mFields i).any (c.winDue .m)
    || c.vq.any (fun e => !e.win && (match vmShape e.instr with
        | some (f, _, false) => (vFields i).any (· == f.d)
        | _ => false))
    || decide (8 ≤ c.vq.length)
    || ((vmShape i).isSome && ((decide (x.b = .v) && queuedWrite c .v x.f.b)
        || (decide (x.f.mask ≠ 0) && queuedWrite c .m (x.f.mask.setWidth 6)) || acquirePending t c))

/-- A deferred ECC_UNCORR of a load is taken at the boundary before an instruction that names its register (R174). -/
def vecLate (s : State) (i : Instr) : Try Unit :=
  let c := s.me
  let named := fun (l : LateTrap) => match l.vd with
    | some r => (vFields i).any (· == r)
    | none => false
  let closes := fun (w : Win) => w.badLoad && (vFields i).any (· == w.dest)
  if c.lates.any named || c.wins.any closes then
    let c1 := { c with lates := c.lates.map fun l => if named l then { l with vd := none } else l }
    let s1 := s.setMe ((c.wins.filter closes).foldl Ctx.raiseWin c1)
    let s2 := vecDrain s1 s.cur.tile s.cur.ctx
    match takeLate s2 s.cur.tile s.cur.ctx with
    | some s3 => .error (.become s3)
    | none => .ok ()
  else .ok ()

/-- The port checks of VCVTO with TOK = 1 (R167, R304). -/
def cvtoPort (s : State) (i : Instr) : Try (Option Nat) :=
  match i with
  | .vcvto f =>
    if cvTok f then
      let n := f.vc.toNat
      let p := s.here.port n
      if s.me.role = .team then .error (.trap codePortMisuse 0)
      else if !(p.declared && p.output && p.actor == s.me.actor && p.stream.isNone && decide (p.count ≠ 0)) || !isPrimary s
        || decide (p.count ≤ doneOf s.me n) || p.closed then .error (.trap codePortMisuse (BitVec.ofNat 64 n))
      else .ok (some n)
    else .ok none
  | _ => .ok none

/-- The instruction enters its context's vector queue with the k operands and the mode it captures (R119, R158); a VCVTO with
TOK takes its place among the puts of its port (R167). -/
def vecPush (s : State) (i : Instr) (x : VShape) (port : Option Nat) : State :=
  let c := s.me
  let e : VqEntry :=
    { op := s.here.nextOp, instr := i, pc := c.pc, ka := if x.a = .k then c.readK x.f.a else KReg.zero
      kb := if x.b = .k then c.readK x.f.b else KReg.zero
      rm := if x.f.rm = 0 then fpcRm c.fpc else x.f.rm, ftz := fpcFtz c.fpc, daz := fpcDaz c.fpc, group := none
      seq := none, win := decide (x.f.la ≠ 0), done := 0, got := [], bad := none }
  let s0 := s.setHere { s.here with nextOp := s.here.nextOp + 1 }
  let s1 := match port with
    | none => s0.setMe { s0.me with vq := c.vq ++ [e] }
    | some n =>
      let r := s0.reservePort s.cur.tile n
      r.1.setMe ({ r.1.me with vq := c.vq ++ [{ e with seq := r.2 }] }.bump n)
  let s2 := s1.complete 8
  s2.setMe (s2.me.openWin x.f.la (vecDest i) x.f.d e.op c.pc)

/-- The entry whose issue checks are made: the operands as they stand at issue. -/
def vecProbe (s : State) (i : Instr) (x : VShape) : VqEntry :=
  { op := 0, instr := i, pc := 0, ka := s.me.readK x.f.a, kb := if x.b = .k then s.me.readK x.f.b else KReg.zero, rm := 0
    ftz := false, daz := false, group := none, seq := none, win := false, done := 0, got := [], bad := none }

/-- Issue of a vector instruction (R158). -/
def vecIssue (i : Instr) (f : VW) (s : State) : Out :=
  match vShape i with
  | none => .next s
  | some x =>
    issueLong s x.kFields f.la (vecDest i) f.d fun s1 => do
      vecLate s1 i
      stallIf (vecHold s1 i x)
      let port ← cvtoPort s1 i
      if (vmShape i).isSome then vmIssueCheck s1 (vecProbe s1 i x) else pure ()
      match port with
      | some n => putReady s1 n
      | none => pure ()
      pure (vecPush s1 i x port)

/-! Integer arithmetic (R162). -/

def execVadd (f : VW) (s : State) : Out := vecIssue (.vadd f) f s
def execVsub (f : VW) (s : State) : Out := vecIssue (.vsub f) f s
def execVmul (f : VW) (s : State) : Out := vecIssue (.vmul f) f s
def execVmulh (f : VW) (s : State) : Out := vecIssue (.vmulh f) f s
def execVmin (f : VW) (s : State) : Out := vecIssue (.vmin f) f s
def execVmax (f : VW) (s : State) : Out := vecIssue (.vmax f) f s
def execVminu (f : VW) (s : State) : Out := vecIssue (.vminu f) f s
def execVmaxu (f : VW) (s : State) : Out := vecIssue (.vmaxu f) f s
def execVand (f : VW) (s : State) : Out := vecIssue (.vand f) f s
def execVor (f : VW) (s : State) : Out := vecIssue (.vor f) f s
def execVxor (f : VW) (s : State) : Out := vecIssue (.vxor f) f s
def execVshl (f : VW) (s : State) : Out := vecIssue (.vshl f) f s
def execVshr (f : VW) (s : State) : Out := vecIssue (.vshr f) f s
def execVsra (f : VW) (s : State) : Out := vecIssue (.vsra f) f s
def execVabs (f : VW) (s : State) : Out := vecIssue (.vabs f) f s
def execVneg (f : VW) (s : State) : Out := vecIssue (.vneg f) f s
def execVadds (f : VW) (s : State) : Out := vecIssue (.vadds f) f s
def execVsubs (f : VW) (s : State) : Out := vecIssue (.vsubs f) f s

/-! Floating-point arithmetic (R163, R164). -/

def execVfadd (f : VW) (s : State) : Out := vecIssue (.vfadd f) f s
def execVfsub (f : VW) (s : State) : Out := vecIssue (.vfsub f) f s
def execVfmul (f : VW) (s : State) : Out := vecIssue (.vfmul f) f s
def execVfma (f : VW) (s : State) : Out := vecIssue (.vfma f) f s
def execVfms (f : VW) (s : State) : Out := vecIssue (.vfms f) f s
def execVfnma (f : VW) (s : State) : Out := vecIssue (.vfnma f) f s
def execVfmin (f : VW) (s : State) : Out := vecIssue (.vfmin f) f s
def execVfmax (f : VW) (s : State) : Out := vecIssue (.vfmax f) f s
def execVfabs (f : VW) (s : State) : Out := vecIssue (.vfabs f) f s
def execVfneg (f : VW) (s : State) : Out := vecIssue (.vfneg f) f s
def execVfcps (f : VW) (s : State) : Out := vecIssue (.vfcps f) f s

/-! Seeds (R165). -/

def execVrsqrte (f : VW) (s : State) : Out := vecIssue (.vrsqrte f) f s
def execVrcpe (f : VW) (s : State) : Out := vecIssue (.vrcpe f) f s
def execVexp2e (f : VW) (s : State) : Out := vecIssue (.vexp2e f) f s
def execVlog2e (f : VW) (s : State) : Out := vecIssue (.vlog2e f) f s

/-! Conversions (R166 to R170). -/

def execVcvt (f : VW) (s : State) : Out := vecIssue (.vcvt f) f s
def execVcvto (f : VW) (s : State) : Out := vecIssue (.vcvto f) f s
def execVpack (f : VW) (s : State) : Out := vecIssue (.vpack f) f s
def execVunpack (f : VW) (s : State) : Out := vecIssue (.vunpack f) f s
def execVmxq (f : VW) (s : State) : Out := vecIssue (.vmxq f) f s
def execVmxd (f : VW) (s : State) : Out := vecIssue (.vmxd f) f s

/-! Reductions and permutations (R171, R172). -/

def execVredadd (f : VW) (s : State) : Out := vecIssue (.vredadd f) f s
def execVredmax (f : VW) (s : State) : Out := vecIssue (.vredmax f) f s
def execVredmin (f : VW) (s : State) : Out := vecIssue (.vredmin f) f s
def execVfredadd (f : VW) (s : State) : Out := vecIssue (.vfredadd f) f s
def execVbcst (f : VW) (s : State) : Out := vecIssue (.vbcst f) f s
def execVshuf (f : VW) (s : State) : Out := vecIssue (.vshuf f) f s
def execVslide (f : VW) (s : State) : Out := vecIssue (.vslide f) f s
def execViota (f : VW) (s : State) : Out := vecIssue (.viota f) f s

/-! Tile-local vector memory (R173, R174). -/

def execVld (f : VW) (s : State) : Out := vecIssue (.vld f) f s
def execVst (f : VW) (s : State) : Out := vecIssue (.vst f) f s
def execVlds (f : VW) (s : State) : Out := vecIssue (.vlds f) f s
def execVsts (f : VW) (s : State) : Out := vecIssue (.vsts f) f s
def execVldx (f : VW) (s : State) : Out := vecIssue (.vldx f) f s
def execVstx (f : VW) (s : State) : Out := vecIssue (.vstx f) f s
def execVldb (f : VW) (s : State) : Out := vecIssue (.vldb f) f s

/-! Compares, masks and moves (R175, R176). -/

def execVcmpeq (f : VW) (s : State) : Out := vecIssue (.vcmpeq f) f s
def execVcmpne (f : VW) (s : State) : Out := vecIssue (.vcmpne f) f s
def execVcmplt (f : VW) (s : State) : Out := vecIssue (.vcmplt f) f s
def execVcmple (f : VW) (s : State) : Out := vecIssue (.vcmple f) f s
def execVfcmpeq (f : VW) (s : State) : Out := vecIssue (.vfcmpeq f) f s
def execVfcmplt (f : VW) (s : State) : Out := vecIssue (.vfcmplt f) f s
def execVfcmple (f : VW) (s : State) : Out := vecIssue (.vfcmple f) f s
def execVfclass (f : VW) (s : State) : Out := vecIssue (.vfclass f) f s
def execMand (f : VW) (s : State) : Out := vecIssue (.mand f) f s
def execMor (f : VW) (s : State) : Out := vecIssue (.mor f) f s
def execMxor (f : VW) (s : State) : Out := vecIssue (.mxor f) f s
def execMnot (f : VW) (s : State) : Out := vecIssue (.mnot f) f s
def execMpopc (f : VW) (s : State) : Out := vecIssue (.mpopc f) f s
def execVsel (f : VW) (s : State) : Out := vecIssue (.vsel f) f s
def execVmovk (f : VW) (s : State) : Out := vecIssue (.vmovk f) f s
def execVmovx (f : VW) (s : State) : Out := vecIssue (.vmovx f) f s

/-! The lane groups (R295, R296). -/

/-- Cost in beats (R296). -/
def vecCost (i : Instr) : Nat :=
  match i with
  | .vmxq _ | .vmxd _ | .vredadd _ | .vredmax _ | .vredmin _ | .vfredadd _ | .vshuf _ => 8
  | .vlds _ | .vsts _ | .vldx _ | .vstx _ => 16
  | _ => 4

/-- Head(c): the oldest entry that is not yet bound. -/
def Ctx.vecHead (c : Ctx) : Option VqEntry := c.vq.find? fun e => e.group.isNone

/-- Binding the head of context n to a group. -/
def Tile.bindHead (t : Tile) (n group : Nat) : Tile :=
  let c := t.ctx n
  match c.vecHead with
  | none => t
  | some e =>
    let t1 := t.setCtx n { c with vq := c.vq.map fun x => if x.op = e.op then { x with group := some group } else x }
    { t1 with groups := AMap.set t1.groups group (n, e.op) }

/-- The arbiter's loop (R296), for at most the given number of turns of the pointer. -/
def Tile.arbitrate (t : Tile) (group : Nat) : Nat → Tile
  | 0 => t
  | fuel + 1 =>
    let n := t.vptr % 11
    let c := t.ctx n
    let d := AMap.getD t.deficit n 0
    let w := c.vqw.toNat
    match c.vecHead with
    | some e =>
      let d1 := if t.credited.getLsbD n then d else min (d + 4 * w) (4 * w + 15)
      let t1 := { t with deficit := AMap.set t.deficit n d1, credited := t.credited ||| (1#11 <<< n) }
      if vecCost e.instr ≤ d1 then
        { (t1.bindHead n group) with deficit := AMap.set t.deficit n (d1 - vecCost e.instr) }
      else
        Tile.arbitrate { t1 with credited := t1.credited &&& ~~~(1#11 <<< n), vptr := (n + 1) % 11 } group fuel
    | none =>
      Tile.arbitrate { t with
        deficit := AMap.erase t.deficit n, credited := t.credited &&& ~~~(1#11 <<< n), vptr := (n + 1) % 11 } group fuel

/-- Whether some queue has an entry that is not bound. -/
def Tile.vecWaiting (t : Tile) : Bool := (upto 11).any fun n => (t.ctx n).vecHead.isSome

/-- LANE_GROUP_BIND: a free lane group takes a queue head by weighted deficit round-robin; with nothing queued the loop goes round once,
which leaves every deficit and credit at 0 (R296; log entry 16). -/
def execLaneGroupBind (tile group : Nat) (s : State) : Out :=
  let t := s.tile tile
  if group < 4 ∧ (AMap.get? t.groups group).isNone then .next (s.setTile tile (t.arbitrate group (if t.vecWaiting then 64 else 11)))
  else .next s

/-- VECTOR_COMPLETE: the context's oldest vector instruction, bound to a lane group, completes (R159); a VM instruction performs its
accesses one by one, others' accesses between them, and completes with the last (R174). -/
def execVectorComplete (tile ctx : Nat) (s : State) : Out :=
  match ((s.tile tile).ctx ctx).vq with
  | e :: _ => if e.group.isSome then .next (vecAdvance s tile ctx) else .next s
  | [] => .next s

end Sys2Proof.Machine
end

