-- ==== Sys2Proof/Machine/Dispatch.lean ====
section
/-!
DEFINITION. The meaning of every instruction and event: one arm per constructor of Instr.
-/

namespace Sys2Proof.Machine

def exec (i : Instr) (s : State) : Host.Outcome State Fault Refusal :=
  match i with
  | .nop f => Sys2Proof.Machine.execNop f s
  | .doneI f => Sys2Proof.Machine.execDoneI f s
  | .retireI f => Sys2Proof.Machine.execRetireI f s
  | .trapI f => Sys2Proof.Machine.execTrapI f s
  | .eret f => Sys2Proof.Machine.execEret f s
  | .brk f => Sys2Proof.Machine.execBrk f s
  | .fence f => Sys2Proof.Machine.execFence f s
  | .ifence f => Sys2Proof.Machine.execIfence f s
  | .add f => Sys2Proof.Machine.execAdd f s
  | .sub f => Sys2Proof.Machine.execSub f s
  | .mul f => Sys2Proof.Machine.execMul f s
  | .mulh f => Sys2Proof.Machine.execMulh f s
  | .mulhu f => Sys2Proof.Machine.execMulhu f s
  | .div f => Sys2Proof.Machine.execDiv f s
  | .divu f => Sys2Proof.Machine.execDivu f s
  | .rem f => Sys2Proof.Machine.execRem f s
  | .remu f => Sys2Proof.Machine.execRemu f s
  | .andR f => Sys2Proof.Machine.execAndR f s
  | .orR f => Sys2Proof.Machine.execOrR f s
  | .xorR f => Sys2Proof.Machine.execXorR f s
  | .andn f => Sys2Proof.Machine.execAndn f s
  | .orn f => Sys2Proof.Machine.execOrn f s
  | .shl f => Sys2Proof.Machine.execShl f s
  | .shr f => Sys2Proof.Machine.execShr f s
  | .sra f => Sys2Proof.Machine.execSra f s
  | .ror f => Sys2Proof.Machine.execRor f s
  | .minR f => Sys2Proof.Machine.execMinR f s
  | .maxR f => Sys2Proof.Machine.execMaxR f s
  | .minu f => Sys2Proof.Machine.execMinu f s
  | .maxu f => Sys2Proof.Machine.execMaxu f s
  | .slt f => Sys2Proof.Machine.execSlt f s
  | .sltu f => Sys2Proof.Machine.execSltu f s
  | .seq f => Sys2Proof.Machine.execSeq f s
  | .sne f => Sys2Proof.Machine.execSne f s
  | .clz f => Sys2Proof.Machine.execClz f s
  | .ctz f => Sys2Proof.Machine.execCtz f s
  | .popc f => Sys2Proof.Machine.execPopc f s
  | .addw f => Sys2Proof.Machine.execAddw f s
  | .subw f => Sys2Proof.Machine.execSubw f s
  | .mulw f => Sys2Proof.Machine.execMulw f s
  | .sext f => Sys2Proof.Machine.execSext f s
  | .zext f => Sys2Proof.Machine.execZext f s
  | .addi f => Sys2Proof.Machine.execAddi f s
  | .andi f => Sys2Proof.Machine.execAndi f s
  | .ori f => Sys2Proof.Machine.execOri f s
  | .xori f => Sys2Proof.Machine.execXori f s
  | .shli f => Sys2Proof.Machine.execShli f s
  | .shri f => Sys2Proof.Machine.execShri f s
  | .srai f => Sys2Proof.Machine.execSrai f s
  | .rori f => Sys2Proof.Machine.execRori f s
  | .slti f => Sys2Proof.Machine.execSlti f s
  | .sltui f => Sys2Proof.Machine.execSltui f s
  | .muli f => Sys2Proof.Machine.execMuli f s
  | .lih f => Sys2Proof.Machine.execLih f s
  | .li f => Sys2Proof.Machine.execLi f s
  | .beq f => Sys2Proof.Machine.execBeq f s
  | .bne f => Sys2Proof.Machine.execBne f s
  | .blt f => Sys2Proof.Machine.execBlt f s
  | .bge f => Sys2Proof.Machine.execBge f s
  | .bltu f => Sys2Proof.Machine.execBltu f s
  | .bgeu f => Sys2Proof.Machine.execBgeu f s
  | .jump f => Sys2Proof.Machine.execJump f s
  | .jal f => Sys2Proof.Machine.execJal f s
  | .jalr f => Sys2Proof.Machine.execJalr f s
  | .loopI f => Sys2Proof.Machine.execLoopI f s
  | .repI f => Sys2Proof.Machine.execRepI f s
  | .ldb f => Sys2Proof.Machine.execLdb f s
  | .ldbu f => Sys2Proof.Machine.execLdbu f s
  | .ldh f => Sys2Proof.Machine.execLdh f s
  | .ldhu f => Sys2Proof.Machine.execLdhu f s
  | .ldw f => Sys2Proof.Machine.execLdw f s
  | .ldwu f => Sys2Proof.Machine.execLdwu f s
  | .ldd f => Sys2Proof.Machine.execLdd f s
  | .ldc f => Sys2Proof.Machine.execLdc f s
  | .stb f => Sys2Proof.Machine.execStb f s
  | .sth f => Sys2Proof.Machine.execSth f s
  | .stw f => Sys2Proof.Machine.execStw f s
  | .std f => Sys2Proof.Machine.execStd f s
  | .stc f => Sys2Proof.Machine.execStc f s
  | .cinc f => Sys2Proof.Machine.execCinc f s
  | .csetb f => Sys2Proof.Machine.execCsetb f s
  | .csetbx f => Sys2Proof.Machine.execCsetbx f s
  | .candp f => Sys2Proof.Machine.execCandp f s
  | .cgeta f => Sys2Proof.Machine.execCgeta f s
  | .cgetb f => Sys2Proof.Machine.execCgetb f s
  | .cgett f => Sys2Proof.Machine.execCgett f s
  | .cgetp f => Sys2Proof.Machine.execCgetp f s
  | .cgetty f => Sys2Proof.Machine.execCgetty f s
  | .ctag f => Sys2Proof.Machine.execCtag f s
  | .cclr f => Sys2Proof.Machine.execCclr f s
  | .cseal f => Sys2Proof.Machine.execCseal f s
  | .cunseal f => Sys2Proof.Machine.execCunseal f s
  | .cmov f => Sys2Proof.Machine.execCmov f s
  | .csub f => Sys2Proof.Machine.execCsub f s
  | .ceq f => Sys2Proof.Machine.execCeq f s
  | .cinci f => Sys2Proof.Machine.execCinci f s
  | .csetbi f => Sys2Proof.Machine.execCsetbi f s
  | .put f => Sys2Proof.Machine.execPut f s
  | .putr f => Sys2Proof.Machine.execPutr f s
  | .putl f => Sys2Proof.Machine.execPutl f s
  | .take f => Sys2Proof.Machine.execTake f s
  | .takel f => Sys2Proof.Machine.execTakel f s
  | .peek f => Sys2Proof.Machine.execPeek f s
  | .markNull f => Sys2Proof.Machine.execMarkNull f s
  | .markRound f => Sys2Proof.Machine.execMarkRound f s
  | .markEos f => Sys2Proof.Machine.execMarkEos f s
  | .markPoison f => Sys2Proof.Machine.execMarkPoison f s
  | .putn f => Sys2Proof.Machine.execPutn f s
  | .room f => Sys2Proof.Machine.execRoom f s
  | .chst f => Sys2Proof.Machine.execChst f s
  | .waitany f => Sys2Proof.Machine.execWaitany f s
  | .waitall f => Sys2Proof.Machine.execWaitall f s
  | .ffr f => Sys2Proof.Machine.execFfr f s
  | .tagclr f => Sys2Proof.Machine.execTagclr f s
  | .tagrd f => Sys2Proof.Machine.execTagrd f s
  | .barrive f => Sys2Proof.Machine.execBarrive f s
  | .barwait f => Sys2Proof.Machine.execBarwait f s
  | .bartest f => Sys2Proof.Machine.execBartest f s
  | .barleave f => Sys2Proof.Machine.execBarleave f s
  | .mfs f => Sys2Proof.Machine.execMfs f s
  | .mts f => Sys2Proof.Machine.execMts f s
  | .startI f => Sys2Proof.Machine.execStartI f s
  | .vadd f => Sys2Proof.Machine.execVadd f s
  | .vsub f => Sys2Proof.Machine.execVsub f s
  | .vmul f => Sys2Proof.Machine.execVmul f s
  | .vmulh f => Sys2Proof.Machine.execVmulh f s
  | .vmin f => Sys2Proof.Machine.execVmin f s
  | .vmax f => Sys2Proof.Machine.execVmax f s
  | .vminu f => Sys2Proof.Machine.execVminu f s
  | .vmaxu f => Sys2Proof.Machine.execVmaxu f s
  | .vand f => Sys2Proof.Machine.execVand f s
  | .vor f => Sys2Proof.Machine.execVor f s
  | .vxor f => Sys2Proof.Machine.execVxor f s
  | .vshl f => Sys2Proof.Machine.execVshl f s
  | .vshr f => Sys2Proof.Machine.execVshr f s
  | .vsra f => Sys2Proof.Machine.execVsra f s
  | .vabs f => Sys2Proof.Machine.execVabs f s
  | .vneg f => Sys2Proof.Machine.execVneg f s
  | .vadds f => Sys2Proof.Machine.execVadds f s
  | .vsubs f => Sys2Proof.Machine.execVsubs f s
  | .vfadd f => Sys2Proof.Machine.execVfadd f s
  | .vfsub f => Sys2Proof.Machine.execVfsub f s
  | .vfmul f => Sys2Proof.Machine.execVfmul f s
  | .vfma f => Sys2Proof.Machine.execVfma f s
  | .vfms f => Sys2Proof.Machine.execVfms f s
  | .vfnma f => Sys2Proof.Machine.execVfnma f s
  | .vfmin f => Sys2Proof.Machine.execVfmin f s
  | .vfmax f => Sys2Proof.Machine.execVfmax f s
  | .vfabs f => Sys2Proof.Machine.execVfabs f s
  | .vfneg f => Sys2Proof.Machine.execVfneg f s
  | .vfcps f => Sys2Proof.Machine.execVfcps f s
  | .vrsqrte f => Sys2Proof.Machine.execVrsqrte f s
  | .vrcpe f => Sys2Proof.Machine.execVrcpe f s
  | .vexp2e f => Sys2Proof.Machine.execVexp2e f s
  | .vlog2e f => Sys2Proof.Machine.execVlog2e f s
  | .vcvt f => Sys2Proof.Machine.execVcvt f s
  | .vcvto f => Sys2Proof.Machine.execVcvto f s
  | .vpack f => Sys2Proof.Machine.execVpack f s
  | .vunpack f => Sys2Proof.Machine.execVunpack f s
  | .vmxq f => Sys2Proof.Machine.execVmxq f s
  | .vmxd f => Sys2Proof.Machine.execVmxd f s
  | .vredadd f => Sys2Proof.Machine.execVredadd f s
  | .vredmax f => Sys2Proof.Machine.execVredmax f s
  | .vredmin f => Sys2Proof.Machine.execVredmin f s
  | .vfredadd f => Sys2Proof.Machine.execVfredadd f s
  | .vbcst f => Sys2Proof.Machine.execVbcst f s
  | .vshuf f => Sys2Proof.Machine.execVshuf f s
  | .vslide f => Sys2Proof.Machine.execVslide f s
  | .viota f => Sys2Proof.Machine.execViota f s
  | .vld f => Sys2Proof.Machine.execVld f s
  | .vst f => Sys2Proof.Machine.execVst f s
  | .vlds f => Sys2Proof.Machine.execVlds f s
  | .vsts f => Sys2Proof.Machine.execVsts f s
  | .vldx f => Sys2Proof.Machine.execVldx f s
  | .vstx f => Sys2Proof.Machine.execVstx f s
  | .vldb f => Sys2Proof.Machine.execVldb f s
  | .vcmpeq f => Sys2Proof.Machine.execVcmpeq f s
  | .vcmpne f => Sys2Proof.Machine.execVcmpne f s
  | .vcmplt f => Sys2Proof.Machine.execVcmplt f s
  | .vcmple f => Sys2Proof.Machine.execVcmple f s
  | .vfcmpeq f => Sys2Proof.Machine.execVfcmpeq f s
  | .vfcmplt f => Sys2Proof.Machine.execVfcmplt f s
  | .vfcmple f => Sys2Proof.Machine.execVfcmple f s
  | .vfclass f => Sys2Proof.Machine.execVfclass f s
  | .mand f => Sys2Proof.Machine.execMand f s
  | .mor f => Sys2Proof.Machine.execMor f s
  | .mxor f => Sys2Proof.Machine.execMxor f s
  | .mnot f => Sys2Proof.Machine.execMnot f s
  | .mpopc f => Sys2Proof.Machine.execMpopc f s
  | .vsel f => Sys2Proof.Machine.execVsel f s
  | .vmovk f => Sys2Proof.Machine.execVmovk f s
  | .vmovx f => Sys2Proof.Machine.execVmovx f s
  | .gld f => Sys2Proof.Machine.execGld f s
  | .gst f => Sys2Proof.Machine.execGst f s
  | .glda f => Sys2Proof.Machine.execGlda f s
  | .gstr f => Sys2Proof.Machine.execGstr f s
  | .gaadd f => Sys2Proof.Machine.execGaadd f s
  | .gamin f => Sys2Proof.Machine.execGamin f s
  | .gamax f => Sys2Proof.Machine.execGamax f s
  | .gaand f => Sys2Proof.Machine.execGaand f s
  | .gaor f => Sys2Proof.Machine.execGaor f s
  | .gaxor f => Sys2Proof.Machine.execGaxor f s
  | .gaswp f => Sys2Proof.Machine.execGaswp f s
  | .gacas f => Sys2Proof.Machine.execGacas f s
  | .gafadd f => Sys2Proof.Machine.execGafadd f s
  | .gldv f => Sys2Proof.Machine.execGldv f s
  | .gstv f => Sys2Proof.Machine.execGstv f s
  | .gvq f => Sys2Proof.Machine.execGvq f s
  | .mma f => Sys2Proof.Machine.execMma f s
  | .minit f => Sys2Proof.Machine.execMinit f s
  | .minitPort f => Sys2Proof.Machine.execMinitPort f s
  | .mrel f => Sys2Proof.Machine.execMrel f s
  | .mzero f => Sys2Proof.Machine.execMzero f s
  | .mshape f => Sys2Proof.Machine.execMshape f s
  | .mrd f => Sys2Proof.Machine.execMrd f s
  | .dcopy f => Sys2Proof.Machine.execDcopy f s
  | .dscfg f => Sys2Proof.Machine.execDscfg f s
  | .dsgo f => Sys2Proof.Machine.execDsgo f s
  | .dsstop f => Sys2Proof.Machine.execDsstop f s
  | .dbank f => Sys2Proof.Machine.execDbank f s
  | .ltab f => Sys2Proof.Machine.execLtab f s
  | .ltabStream f => Sys2Proof.Machine.execLtabStream f s
  | .lwire f => Sys2Proof.Machine.execLwire f s
  | .lsel f => Sys2Proof.Machine.execLsel f s
  | .leval f => Sys2Proof.Machine.execLeval f s
  | .lslice f => Sys2Proof.Machine.execLslice f s
  | .lunslice f => Sys2Proof.Machine.execLunslice f s
  | .lpld f => Sys2Proof.Machine.execLpld f s
  | .lpst f => Sys2Proof.Machine.execLpst f s
  | .lpcnt f => Sys2Proof.Machine.execLpcnt f s
  | .sweep f => Sys2Proof.Machine.execSweep f s
  | .swq f => Sys2Proof.Machine.execSwq f s
  | .swabt f => Sys2Proof.Machine.execSwabt f s
  | .osend f => Sys2Proof.Machine.execOsend f s
  | .owm f => Sys2Proof.Machine.execOwm f s
  | .cslot f => Sys2Proof.Machine.execCslot f s
  | .rload f => Sys2Proof.Machine.execRload f s
  | .rquery f => Sys2Proof.Machine.execRquery f s
  | .dispatch tile helper => Sys2Proof.Machine.execDispatch tile helper s
  | .firingEnd tile actor => Sys2Proof.Machine.execFiringEnd tile actor s
  | .nullPassFiring tile actor => Sys2Proof.Machine.execNullPassFiring tile actor s
  | .actorEnd tile node => Sys2Proof.Machine.execActorEnd tile node s
  | .lengthMismatch tile node => Sys2Proof.Machine.execLengthMismatch tile node s
  | .roundPass tile node => Sys2Proof.Machine.execRoundPass tile node s
  | .roundMismatch tile node => Sys2Proof.Machine.execRoundMismatch tile node s
  | .tokenArrival chan branch seq => Sys2Proof.Machine.execTokenArrival chan branch seq s
  | .creditReturn chan branch => Sys2Proof.Machine.execCreditReturn chan branch s
  | .forkForward chan => Sys2Proof.Machine.execForkForward chan s
  | .steerOp tile slot => Sys2Proof.Machine.execSteerOp tile slot s
  | .mergeOp tile slot => Sys2Proof.Machine.execMergeOp tile slot s
  | .carryOp tile slot => Sys2Proof.Machine.execCarryOp tile slot s
  | .configSlotSwitch tile => Sys2Proof.Machine.execConfigSlotSwitch tile s
  | .bankTransfer tile port => Sys2Proof.Machine.execBankTransfer tile port s
  | .laneGroupBind tile group => Sys2Proof.Machine.execLaneGroupBind tile group s
  | .vectorComplete tile ctx => Sys2Proof.Machine.execVectorComplete tile ctx s
  | .windowClose tile ctx win => Sys2Proof.Machine.execWindowClose tile ctx win s
  | .memoryRequest tile id => Sys2Proof.Machine.execMemoryRequest tile id s
  | .globalReply tile id => Sys2Proof.Machine.execGlobalReply tile id s
  | .storeAck tile id => Sys2Proof.Machine.execStoreAck tile id s
  | .retryReply tile id => Sys2Proof.Machine.execRetryReply tile id s
  | .translationWalk tile client va => Sys2Proof.Machine.execTranslationWalk tile client va s
  | .pagerMap handle va entries => Sys2Proof.Machine.execPagerMap handle va entries s
  | .pageDenied handle va => Sys2Proof.Machine.execPageDenied handle va s
  | .tlbInvalidate handle va level => Sys2Proof.Machine.execTlbInvalidate handle va level s
  | .mxCommandComplete tile ctx => Sys2Proof.Machine.execMxCommandComplete tile ctx s
  | .releaseTokenSend tile acc => Sys2Proof.Machine.execReleaseTokenSend tile acc s
  | .lcCommandComplete tile ctx => Sys2Proof.Machine.execLcCommandComplete tile ctx s
  | .dcopyComplete tile ctx => Sys2Proof.Machine.execDcopyComplete tile ctx s
  | .remoteLineWrite id => Sys2Proof.Machine.execRemoteLineWrite id s
  | .dcopyRefusal tile ctx => Sys2Proof.Machine.execDcopyRefusal tile ctx s
  | .streamTokenPut tile stream => Sys2Proof.Machine.execStreamTokenPut tile stream s
  | .streamTokenTake tile stream => Sys2Proof.Machine.execStreamTokenTake tile stream s
  | .barrierRelease group => Sys2Proof.Machine.execBarrierRelease group s
  | .sweepLaunch sweep => Sys2Proof.Machine.execSweepLaunch sweep s
  | .sweepLaunchToken sweep tile => Sys2Proof.Machine.execSweepLaunchToken sweep tile s
  | .retireNotice sweep team => Sys2Proof.Machine.execRetireNotice sweep team s
  | .sweepEnd sweep => Sys2Proof.Machine.execSweepEnd sweep s
  | .sweepPartition sweep => Sys2Proof.Machine.execSweepPartition sweep s
  | .sweepAbortConfirm sweep => Sys2Proof.Machine.execSweepAbortConfirm sweep s
  | .syncWaveEmit => Sys2Proof.Machine.execSyncWaveEmit s
  | .syncWave tile => Sys2Proof.Machine.execSyncWave tile s
  | .unsynchronised tile => Sys2Proof.Machine.execUnsynchronised tile s
  | .orderedMessageArrival node input => Sys2Proof.Machine.execOrderedMessageArrival node input s
  | .beacon node input w => Sys2Proof.Machine.execBeacon node input w s
  | .idleBeacon tile => Sys2Proof.Machine.execIdleBeacon tile s
  | .beaconForward node => Sys2Proof.Machine.execBeaconForward node s
  | .owmStall node input => Sys2Proof.Machine.execOwmStall node input s
  | .watchdog handle => Sys2Proof.Machine.execWatchdog handle s
  | .rebalanceSample tile => Sys2Proof.Machine.execRebalanceSample tile s
  | .migration tile actor target => Sys2Proof.Machine.execMigration tile actor target s
  | .forwardingEntryRemoval tile => Sys2Proof.Machine.execForwardingEntryRemoval tile s
  | .trapTaken tile ctx => Sys2Proof.Machine.execTrapTaken tile ctx s
  | .brkRelease tile => Sys2Proof.Machine.execBrkRelease tile s
  | .preemptToken tile => Sys2Proof.Machine.execPreemptToken tile s
  | .preemptRequest tile => Sys2Proof.Machine.execPreemptRequest tile s
  | .preemptResume tile => Sys2Proof.Machine.execPreemptResume tile s
  | .haltedSet tile => Sys2Proof.Machine.execHaltedSet tile s
  | .wdogWrite tile v => Sys2Proof.Machine.execWdogWrite tile v s
  | .snapCmd handle => Sys2Proof.Machine.execSnapCmd handle s
  | .snapArrival chan branch => Sys2Proof.Machine.execSnapArrival chan branch s
  | .snapshotTileComplete handle tile => Sys2Proof.Machine.execSnapshotTileComplete handle tile s
  | .restoreCmd handle => Sys2Proof.Machine.execRestoreCmd handle s
  | .goCmd handle => Sys2Proof.Machine.execGoCmd handle s
  | .abortCmd handle => Sys2Proof.Machine.execAbortCmd handle s
  | .commitParams handle => Sys2Proof.Machine.execCommitParams handle s
  | .residencyDispatch handle => Sys2Proof.Machine.execResidencyDispatch handle s
  | .imageStaging handle => Sys2Proof.Machine.execImageStaging handle s
  | .arming handle => Sys2Proof.Machine.execArming handle s
  | .residencyStart handle => Sys2Proof.Machine.execResidencyStart handle s
  | .residencyEnd handle => Sys2Proof.Machine.execResidencyEnd handle s
  | .residencyAbort handle => Sys2Proof.Machine.execResidencyAbort handle s
  | .replayRearm handle => Sys2Proof.Machine.execReplayRearm handle s
  | .faultToken handle => Sys2Proof.Machine.execFaultToken handle s
  | .faultPortEos handle => Sys2Proof.Machine.execFaultPortEos handle s
  | .inletData n v => Sys2Proof.Machine.execInletData n v s
  | .inletEos n v => Sys2Proof.Machine.execInletEos n v s
  | .inletRound n => Sys2Proof.Machine.execInletRound n s
  | .inletNull n => Sys2Proof.Machine.execInletNull n s
  | .inletLine n v aligned => Sys2Proof.Machine.execInletLine n v aligned s
  | .takenWrite n k => Sys2Proof.Machine.execTakenWrite n k s
  | .bar4Access port write offset size v => Sys2Proof.Machine.execBar4Access port write offset size v s
  | .hostPortLinkFail port => Sys2Proof.Machine.execHostPortLinkFail port s
  | .attestationReport nonce => Sys2Proof.Machine.execAttestationReport nonce s
  | .keySlotFill slot key sig => Sys2Proof.Machine.execKeySlotFill slot key sig s
  | .recoveryImageLoad img => Sys2Proof.Machine.execRecoveryImageLoad img s
  | .hostRetire target => Sys2Proof.Machine.execHostRetire target s
  | .fabricEnable port en => Sys2Proof.Machine.execFabricEnable port en s
  | .registerWrite offset v => Sys2Proof.Machine.execRegisterWrite offset v s
  | .fabricElementFire port elem => Sys2Proof.Machine.execFabricElementFire port elem s
  | .flitReceive port flit => Sys2Proof.Machine.execFlitReceive port flit s
  | .ackFlit port seq => Sys2Proof.Machine.execAckFlit port seq s
  | .nakFlit port seq => Sys2Proof.Machine.execNakFlit port seq s
  | .retrain port => Sys2Proof.Machine.execRetrain port s
  | .linkDead port => Sys2Proof.Machine.execLinkDead port s
  | .timingFlitSend => Sys2Proof.Machine.execTimingFlitSend s
  | .timingFlit port time => Sys2Proof.Machine.execTimingFlit port time s
  | .coxEpoch => Sys2Proof.Machine.execCoxEpoch s
  | .droopStop phys => Sys2Proof.Machine.execDroopStop phys s
  | .droopRecovery phys => Sys2Proof.Machine.execDroopRecovery phys s
  | .tileRetirement target => Sys2Proof.Machine.execTileRetirement target s
  | .powerOn obs => Sys2Proof.Machine.execPowerOn obs s
  | .unusedEncoding w0 w1 => Sys2Proof.Machine.execUnusedEncoding w0 w1 s
  | .fetchFault code p w0 => Sys2Proof.Machine.execFetchFault code p w0 s
  | .retrainEnd port ok => Sys2Proof.Machine.execRetrainEnd port ok s
  | .linkStopsAnswering link => Sys2Proof.Machine.execLinkStopsAnswering link s
  | .powerLoss between => Sys2Proof.Machine.execPowerLoss between s

end Sys2Proof.Machine
end

