-- ==== Sys2Proof/Machine/Schedule.lean ====
section
/-!
DEFINITION. Which context issues next and which event happens next when nothing is on the agenda (01 R25; log entry 1).
-/

namespace Sys2Proof.Machine

/-- Whether a context issues instructions. -/
def canIssue (t : Tile) (n : Nat) : Bool :=
  let c := t.ctx n
  t.alive && !t.drooped && decide (c.mode = .running) && (if n = 0 then !t.brk else !c.halted)

/-- The tile's next live context, round-robin after the last one (R25). -/
def nextCtx (t : Tile) : Option Nat :=
  ((upto 11).map fun i => (t.lastCtx + 1 + i) % 11).find? (canIssue t)

/-- The tile whose turn it is: round-robin after the last one. -/
def nextIssue (s : State) : Option (Nat × Nat) :=
  let ks := AMap.keys s.tiles
  let order := ks.filter (fun k => decide (s.cur.tile < k)) ++ ks.filter (fun k => decide (k ≤ s.cur.tile))
  firstSome (fun k => (nextCtx (s.tile k)).map fun n => (k, n)) order

/-! What the machine does of itself: the events that no input brings (log entry 1). -/

/-! A tile that a droop has stopped keeps its state until the supply recovers: no event takes place at it (R27, R409). -/

/-- The tile at which an end of a channel stands. -/
def endTile : End → Option Nat
  | .port k _ | .oper k _ _ | .stream k _ => some k
  | _ => none

/-- Whether the tile of an end of a channel, if it stands at one, is stopped. -/
def endStopped (s : State) (e : Option End) : Bool := (e.bind endTile).any fun k => (s.tile k).drooped

def branchEnd (s : State) (chan branch : Nat) : Option End := ((s.chan? chan).bind fun c => c.branches[branch]?).map (·.dst)

/-- The tile whose hardware an event on the agenda works in: router and tile processor alike run on the tile's clock. -/
def eventTile (s : State) (i : Instr) : Option Nat :=
  match i with
  | .dispatch k _ | .firingEnd k _ | .nullPassFiring k _ | .actorEnd k _ | .lengthMismatch k _ | .roundPass k _ | .roundMismatch k _
  | .steerOp k _ | .mergeOp k _ | .carryOp k _ | .configSlotSwitch k | .bankTransfer k _ | .laneGroupBind k _ | .vectorComplete k _
  | .windowClose k _ _ | .globalReply k _ | .storeAck k _ | .retryReply k _ | .translationWalk k _ _ | .mxCommandComplete k _
  | .releaseTokenSend k _ | .lcCommandComplete k _ | .dcopyComplete k _ | .dcopyRefusal k _ | .streamTokenPut k _ | .streamTokenTake k _
  | .sweepLaunchToken _ k | .syncWave k | .unsynchronised k | .idleBeacon k | .rebalanceSample k | .migration k _ _
  | .forwardingEntryRemoval k | .trapTaken k _ | .brkRelease k | .preemptToken k | .preemptRequest k | .preemptResume k | .haltedSet k
  | .wdogWrite k _ | .snapshotTileComplete _ k => some k
  | .tokenArrival c b _ | .snapArrival c b => (branchEnd s c b).bind endTile
  | .creditReturn c _ | .forkForward c => ((s.chan? c).map (·.src)).bind endTile
  | .remoteLineWrite n => (AMap.get? s.rlines n).map (·.dst)
  | .orderedMessageArrival n _ | .beacon n _ _ | .beaconForward n | .owmStall n _ => if isRouter n then some n else none
  | _ => none

/-- Whether an event on the agenda finds its tile stopped. -/
def eventStopped (s : State) (i : Instr) : Bool := (eventTile s i).any fun k => (s.tile k).drooped

/-- Events of a tile's contexts and helpers. -/
def ctxEvents (k : Nat) (t : Tile) : List (State → Out) :=
  (match t.freeHelper with
    | some h => [execDispatch k h]
    | none => [])
    ++ t.allCtxs.flatMap fun c =>
      (List.range c.2.wins.length).filterMap (fun i => match c.2.wins[i]? with
        | some w => if c.1 < 11 ∧ winReady t c.2 w ∧ c.2.goesOn then some (execWindowClose k c.1 i) else none
        | none => none)
      ++ (if c.2.vq.isEmpty then [] else [execVectorComplete k c.1])
      ++ (if c.2.mxq.isEmpty then [] else [execMxCommandComplete k c.1])
      ++ (if c.2.lcq.isEmpty then [] else [execLcCommandComplete k c.1])
      ++ (if c.2.dmq.isEmpty then [] else [execDcopyComplete k c.1])
      ++ (if c.2.lates.any LateTrap.due && decide (c.1 < 11) then [execTrapTaken k c.1] else [])
      ++ (if t.refusals.isEmpty then [] else [execDcopyRefusal k c.1])

/-- The steps of an actor or operator that need no helper. -/
def nodeEvents (k : Nat) (n : Node) : List (State → Out) :=
  [execActorEnd k n, execLengthMismatch k n, execRoundPass k n, execRoundMismatch k n]

/-- Events of a tile's engines, requests, actors, operators and streams. -/
def slotEvents (k : Nat) (t : Tile) : List (State → Out) :=
  t.slot.actors.flatMap (fun a => [execFiringEnd k a.1, execNullPassFiring k a.1] ++ nodeEvents k (.actor a.1))
    ++ t.slot.opers.flatMap (fun o => [execSteerOp k o.1, execMergeOp k o.1, execCarryOp k o.1] ++ nodeEvents k (.oper o.1))
    ++ t.slot.ports.map (fun p => execBankTransfer k p.1)
    ++ t.slot.streams.flatMap (fun x => [execStreamTokenPut k x.1, execStreamTokenTake k x.1])

def tileEvents (k : Nat) (t : Tile) : List (State → Out) :=
  if t.drooped then t.reqs.map fun q => execMemoryRequest k q.1
  else ctxEvents k t ++ slotEvents k t ++ (upto 4).map (fun g => execLaneGroupBind k g) ++ (upto 4).map (fun a => execReleaseTokenSend k a)
    ++ t.reqs.flatMap (fun q => [execMemoryRequest k q.1, execGlobalReply k q.1, execStoreAck k q.1, execRetryReply k q.1])
    ++ [execConfigSlotSwitch k, execHaltedSet k, execSyncWave k, execUnsynchronised k, execIdleBeacon k, execRebalanceSample k
      , execForwardingEntryRemoval k, execOrderedMessageArrival k 0]

/-- Events of a channel. -/
def chanEvents (s : State) (id : Nat) (c : Chan) : List (State → Out) :=
  (if endStopped s (some c.src) then [] else execForkForward id :: (List.range c.branches.length).map fun i => execCreditReturn id i)
    ++ (List.range c.branches.length).flatMap fun i => match c.branches[i]? with
      | none => []
      | some b => if endStopped s (some b.dst) then [] else execSnapArrival id i :: b.flights.map fun f => execTokenArrival id i f.tok.seq

/-- Events of a launched sweep. -/
def sweepEvents (s : State) (n : Nat) (w : Sweep) : List (State → Out) :=
  [execSweepLaunch n, execSweepEnd n, execSweepAbortConfirm n] ++ (w.tiles.filter fun k => !(s.tile k).drooped).map (fun k => execSweepLaunchToken n k)
    ++ w.notices.map fun t => execRetireNotice n t

/-- Events of a residency. -/
def resEvents (s : State) (h : Nat) : List (State → Out) :=
  [execImageStaging h, execResidencyDispatch h, execArming h, execResidencyStart h, execResidencyEnd h, execResidencyAbort h
    , execReplayRearm h, execFaultToken h, execFaultPortEos h, execWatchdog h]
    ++ (if (s.resOf h).snapping then ((s.resTiles h).filter fun k => !(s.tile k).drooped).map fun k => execSnapshotTileComplete h k else [])
    ++ (match (s.resOf h).moving with
      | some (a, b, c) => if (s.tile a).drooped then [] else [execMigration a b c]
      | none => [])

/-- Whether a node is the router of a stopped tile. -/
def nodeStopped (s : State) (n : Nat) : Bool := isRouter n && (s.tile n).drooped

/-- Events of the ordered class. -/
def orderedEvents (s : State) : List (State → Out) :=
  (s.oflights.filter fun f => !nodeStopped s f.node).map (fun f => match f.msg with
    | some _ => execOrderedMessageArrival f.node f.input
    | none => execBeacon f.node f.input f.w)
    ++ (s.onodes.filter fun n => !nodeStopped s n.1).flatMap fun n => execBeaconForward n.1 :: n.2.inputs.map fun i => execOwmStall n.1 i.1

/-- Events of a link port. -/
def linkEvents (p : Nat) (l : LinkPort) : List (State → Out) :=
  execRetrain p :: (if l.state = 3 then [execLinkDead p] else []) ++ (if l.fabEn then l.elems.map fun e => execFabricElementFire p e.1 else [])

/-- Every event that may happen of itself. -/
def allEvents (s : State) : List (State → Out) :=
  s.tiles.flatMap (fun t => tileEvents t.1 t.2) ++ s.chans.flatMap (fun c => chanEvents s c.1 c.2)
    ++ s.sweeps.flatMap (fun w => sweepEvents s w.1 w.2) ++ (AMap.keys s.res).flatMap (resEvents s) ++ orderedEvents s
    ++ s.links.flatMap (fun l => linkEvents l.1 l.2) ++ ((AMap.keys s.rlines).filter fun i => !(AMap.get? s.rlines i).any fun l => (s.tile l.dst).drooped).map (fun i => execRemoteLineWrite i)
    ++ (List.range s.strays.length).map (fun i => execTokenArrival (strayBase + i) 0 0)
    ++ (AMap.keys s.groupTab).map (fun g => execBarrierRelease g) ++ s.retireDue.map (fun x => execTileRetirement x)
    ++ (if s.bootStage = 8 then [execSyncWaveEmit, execCoxEpoch, execTimingFlitSend] else [])

/-- Whether an event changes anything: one whose time has not come leaves the state as it is (log entry 6). -/
def happens (s : State) (g : State → Out) : Bool :=
  match g s with
  | .next s1 => decide (s1 ≠ s)
  | _ => true

/-- The ends of firings, which come before any choice of a dispatcher (R45, R290). -/
def firstEvents (s : State) : List (State → Out) :=
  (s.tiles.filter fun t => !t.2.drooped).flatMap fun t => (t.2.slot.actors.filter fun a => a.2.live.isSome).map fun a => execFiringEnd t.1 a.1

/-- The event that happens next of itself, by its meaning: the end of a firing, else the first that changes something, from a place in
the list that moves on with the steps, so that none is passed over for ever. -/
def nextEvent (s : State) : Option (State → Out) :=
  let es := allEvents s
  let k := s.steps / 2 % max 1 es.length
  match (firstEvents s).find? (happens s) with
  | some g => some g
  | none => (es.drop k ++ es.take k).find? (happens s)

/-- Whether an instruction stands at a context's PCC. -/
def standsInstr (t : Tile) (n : Nat) : Bool := match fetchNext t n (t.ctx n) with
  | .instr _ => true
  | _ => false

/-- The tile monitor serves the SYSCALL that it was entered for (R342). -/
def monitorService (tile : Nat) (s : State) : Out := .next (s.updTile tile fun t => t.serveCall t.fsel)

/-- An event that precedes the next instruction of a context: the monitor's answer to a SYSCALL, a late trap that is due, a window to
close (R79, R81, R342). -/
def beforeIssue (s : State) (tile n : Nat) : Option (State → Out) :=
  let t := s.tile tile
  let c := t.ctx n
  if n == 0 && serviceDue t (standsInstr t 0) then some (monitorService tile)
  else if c.lates.any LateTrap.due then some (execTrapTaken tile n)
  else match (List.range c.wins.length).find? (fun i => match c.wins[i]? with
      | some w => winReady t c w
      | none => false) with
    | some i => some (execWindowClose tile n i)
    | none => none

/-- The tile after the fetch of a word: a single-bit error that it met is corrected, written back and counted (R381). -/
def fetchedTile (t : Tile) (c : Ctx) (p : Nat) : Tile :=
  if NSet.mem t.err1 (p / 8 * 8) && (fetchCheck t c p).isNone && !(c.inRep && c.rep.pass != 0) then t.touchRead p 4 else t

/-- The state in which a context's turn is taken: the context is the current one, a REP's pass 0 is recorded, and the words of its
instruction have been read. -/
def onTurn (s : State) (tile n : Nat) : State :=
  let t := s.tile tile
  let c := t.ctx n
  let p := c.pc.toNat
  let t1 := fetchedTile t c p
  let t2 := if isLong (fetchWord t c p) = some true then fetchedTile t1 c (p + 4) else t1
  { (s.setTile tile { (t2.setCtx n (c.recordRep t)) with lastCtx := n }) with cur := ⟨tile, n⟩ }

/-- A helper that has issued an instruction moves its region (R311). -/
def afterTurn (s : State) (tile n : Nat) : State :=
  if n = 0 ∨ ((s.tile tile).ctx n).stalled then s
  else s.moved (s.tile tile).slot.handle

/-- Time passes with each step, at least a cycle of the fastest clock; the tiles' clocks make their edges, and the watchdog's counter of a
residency stays at 0 while something of it stirs (R2, R27, R270, R311). -/
def tick (s : State) : State :=
  let now := s.now + Config.ticks s.steps + 2
  { s with
    steps := s.steps + 1, now := now
    tiles := AMap.mapVals s.tiles fun k t => t.clock now (t.edgesTo now (Config.edges k s.steps))
    res := AMap.mapVals s.res fun h r => { r with wdLast := if stirring s h then now else r.wdLast } }

end Sys2Proof.Machine
end

