-- ==== Sys2Proof/Machine/Turn.lean ====
section
/-!
DEFINITION. What a context's turn runs: an event that comes first, or what stands at its PCC (03 R85).
-/

namespace Sys2Proof.Machine

/-- The meaning of what was fetched. -/
def runFetched (f : Fetched) (s : State) : Out :=
  match f with
  | .instr i => exec i s
  | .unused w0 w1 => execUnusedEncoding w0 w1 s
  | .fault x w0 => execFetchFault x.1.toNat (x.2.setWidth 48) w0 s

/-- A context's turn in state s, on the state that records the turn. -/
def runTurn (s : State) (tile n : Nat) (s1 : State) : Out :=
  match beforeIssue s tile n with
  | some g => g s1
  | none => runFetched (fetchNext (s.tile tile) n ((s.tile tile).ctx n)) s1

end Sys2Proof.Machine
end

