-- ==== Sys2Proof/Machine/Step.lean ====
section
/-!
DEFINITION. One step of the module: the next turn of the agenda, or else an instruction and an event of the machine's own in
alternation (log entry 1).
-/

namespace Sys2Proof.Machine

/-- What follows an outcome that goes on. -/
def thenNext (o : Host.Outcome State Fault Refusal) (f : State → State) : Host.Outcome State Fault Refusal :=
  match o with
  | .next s => .next (f s)
  | .fault r => .fault r
  | .refused r => .refused r

/-- A context takes its turn on an edge of its tile's clock, if it issues instructions. -/
def stepTurn (s0 : State) (tile n : Nat) : Host.Outcome State Fault Refusal :=
  let s := s0.updTile tile fun t => t.edge s0.now
  if canIssue (s0.tile tile) n then thenNext (runTurn s tile n (onTurn s tile n)) fun s' => afterTurn s' tile n else .next s0

/-- Without an agenda: an instruction, else an event, or the other way round. -/
def stepFree (s : State) : Host.Outcome State Fault Refusal :=
  let s1 := { s with phase := !s.phase }
  if s.phase then
    match nextEvent s with
    | some g => g s1
    | none => match nextIssue s with
      | some (t, n) => stepTurn s1 t n
      | none => .next s1
  else
    match nextIssue s with
    | some (t, n) => stepTurn s1 t n
    | none => match nextEvent s with
      | some g => g s1
      | none => .next s1

/-- The next turn of the agenda, or a free step. An event of a tile that a droop has stopped does not take place (R27, R409). -/
def step (s : State) : Host.Outcome State Fault Refusal :=
  let s1 := tick s
  match s.agenda with
  | .issue t n :: rest => stepTurn { s1 with agenda := rest } t n
  | .event i :: rest => if eventStopped s i then .next { s1 with agenda := rest } else exec i { s1 with agenda := rest }
  | [] => stepFree s1

/-- The capability that context 0 of tile 0 holds in PCC to run a placed instruction: bank 0, R, X and TLM. -/
def placedPcc : KReg := KReg.make 0 0x40000 [.r, .x, .tlm] 0

/-- s with an instruction's bytes at address 0 of tile 0, in an executable bank, and context 0 of the tile about to run it
(log entry 2). -/
def State.withFetchWord (s : State) (nbits w : Nat) : State :=
  let t := s.tile 0
  let bytes := bytesOfWord (tableWords nbits w).1 ++ bytesOfWord (tableWords nbits w).2
  let c := { (t.ctx 0) with
    mode := .running, role := .monitor, pcc := placedPcc, rep := RepBuf.blank, wins := [], lates := [], stale := [] }
  let t1 := ({ t with alive := true, drooped := false, brk := false, exec := t.exec ||| 1 }).writeTlm 0 bytes
  { (s.setTile 0 (t1.setCtx 0 c)) with agenda := [.issue 0 0] }

end Sys2Proof.Machine
end

