-- ==== Sys2Proof/Safety.lean ====
section
/-!
DEFINITION. What counts as a safe run, and the terms in which the statements speak of one instruction: that its registers are
ready, where it goes on, and what it leaves as it was.
-/

namespace Sys2Proof

/-- A run of k steps from a state that goes on throughout. -/
def SafeFor (k : Nat) (s : Machine.State) : Prop := match k with
  | 0 => True
  | k + 1 => ∃ s', Machine.step s = .next s' ∧ SafeFor k s'

namespace Machine

/-! When an instruction can go ahead. -/

/-- Every k field lies below the declared register count (R68), and nothing under way holds a register that the instruction
reads or writes (R79, R160, R238). -/
def State.kReady (s : State) (fields reads writes : List (BitVec 6)) : Prop :=
  (∀ r ∈ fields, s.me.kOk r = true) ∧ (∀ r ∈ reads, busyRead s.here s.me r = false) ∧ ∀ r ∈ writes, busyWrite s.here s.me r = false

/-- No hardware loop and no REP is active. -/
def Ctx.unlooped (c : Ctx) : Prop := c.loop0.active = false ∧ c.loop1.active = false ∧ c.rep.active = false

/-- No earlier VM instruction is queued and no acquire is pending, so a TLM access may issue (R174, R222). -/
def State.tlmFree (s : State) : Prop := vmQueued s.me = false ∧ acquirePending s.here s.me = false

/-! What stays as it was. -/

/-- Every byte of every tile's memory reads as before. -/
def State.sameTlm (s t : State) : Prop := ∀ n a, Memory.read (t.tile n).tlm a = Memory.read (s.tile n).tlm a

/-- Every byte of global and host memory reads as before. -/
def State.sameGmem (s t : State) : Prop := ∀ a, Memory.read t.gmem a = Memory.read s.gmem a

/-- The context after an instruction that writes k registers at most: every other register of it is as it was. -/
def Ctx.onlyScalar (c d : Ctx) : Prop :=
  d = { c with k := d.k, pcc := d.pcc, loop0 := d.loop0, loop1 := d.loop1, rep := d.rep, wins := c.countWins.wins, stalled := false }

/-- The frame of an instruction that stores nothing: outside the executing context nothing changes, inside it only k registers
of the list, the PCC, the loop state, the window counts and the stall mark; every byte of memory reads as before. -/
structure ScalarFrame (s t : State) (ds : List (BitVec 6)) : Prop where
  others : t = s.setMe t.me
  ctx : s.me.onlyScalar t.me
  regs : ∀ r, r ∉ ds → t.me.readK r = s.me.readK r
  tlm : s.sameTlm t
  gmem : s.sameGmem t

/-- The context goes on after an instruction of len bytes that does not transfer control (R65, R143, R145). -/
structure GoesOn (s t : State) (len : Nat) : Prop where
  pcc : t.me.pcc = (s.me.advance len).pcc
  loop0 : t.me.loop0 = (s.me.advance len).loop0
  loop1 : t.me.loop1 = (s.me.advance len).loop1
  rep : t.me.rep = (s.me.advance len).rep
  next : s.me.unlooped → t.me.pc = s.me.pc + BitVec.ofNat 48 len

/-- What k[d] reads as after a write of x: k0 discards it (R66). -/
def wroteK (d : BitVec 6) (x : KReg) : KReg := if d = 0 then KReg.zero else x

/-- The instruction completes: k[d] reads x, the context goes on after len bytes, and the rest is as it was. -/
def WritesK (i : Instr) (s : State) (len : Nat) (d : BitVec 6) (x : KReg) : Prop :=
  ∃ t, exec i s = .next t ∧ t.me.readK d = wroteK d x ∧ GoesOn s t len ∧ ScalarFrame s t [d]

/-- WriteInt of R131: bits 63:0 are v, bits 127:64 zero, the tag clear. -/
def WritesInt (i : Instr) (s : State) (len : Nat) (d : BitVec 6) (v : Word) : Prop := WritesK i s len d ⟨false, v.setWidth 128⟩

/-- The trap is raised at the instruction, with its code, TRAPVAL and the instruction's own address (R364, R365). -/
def Traps (i : Instr) (s : State) (code : Byte) (val : Word) : Prop := exec i s = .next (raiseTrap s code val s.me.pc)

/-- A loop level after a transfer of control: it ends when its range does not contain the target; its count stays (R144). -/
def LoopLevel.keptAt (l : LoopLevel) (target : Addr) : LoopLevel :=
  { l with active := l.active && (decide (l.s ≤ target) && decide (target < l.e)) }

/-- Control is transferred to the target: the PCC has it as address, with the tag, bounds, permissions and type of `c` (R138 to
R140, R144). -/
structure JumpsTo (s t : State) (c : KReg) (target : Addr) : Prop where
  pc : t.me.pc = target
  tag : t.me.pcc.tag = c.tag
  rest : t.me.pcc.bits.extractLsb' 48 80 = c.bits.extractLsb' 48 80
  loop0 : t.me.loop0 = s.me.loop0.keptAt target
  loop1 : t.me.loop1 = s.me.loop1.keptAt target
  rep : t.me.rep = s.me.rep

/-- The instruction transfers control to the target within the PCC's bounds and writes the k registers of the list alone. -/
def Jumps (i : Instr) (s : State) (target : Addr) (ds : List (BitVec 6)) : Prop :=
  ∃ t, exec i s = .next t ∧ JumpsTo s t s.me.pcc target ∧ ScalarFrame s t ds

/-- The instruction goes on after len bytes and writes no register. -/
def PassesOver (i : Instr) (s : State) (len : Nat) : Prop := ∃ t, exec i s = .next t ∧ GoesOn s t len ∧ ScalarFrame s t []

/-- The link of R139 and R140: PCC with its address set to PC + 4 and its tag set. -/
structure IsLink (s : State) (x : KReg) : Prop where
  tag : x.tag = true
  addr : x.addr = s.me.pc + 4
  rest : x.bits.extractLsb' 48 80 = s.me.pcc.bits.extractLsb' 48 80

/-- A tile after some edges of its clock: only its count of time, its period, its error and its last edge have changed (R27, R270). -/
def Tile.clockedTo (a b : Tile) : Prop :=
  b = { a with count := b.count, period := b.period, timeErr := b.timeErr, edgeAt := b.edgeAt }

/-! Accesses to tile memory (R147 to R152). -/

/-- Every check of R147 passes for n bytes at a through c. -/
structure TlmOk (s : State) (c : KReg) (a n : Nat) (need : List Perm) : Prop where
  tag : c.tag = true
  unsealed : c.typ = 0
  tlm : c.has .tlm = true
  perms : ∀ p ∈ need, c.has p = true
  lower : c.base ≤ (a : Int)
  upper : (a : Int) + n ≤ c.top
  space : a + n ≤ 2 ^ 22
  granted : ∀ b, grantOf s s.cur.tile s.me = some b → ∀ j, j < n → b.getLsbD ((a + j) / 2 ^ 18) = true
  aligned : a % n = 0

/-- The n bytes at a as the little-endian number they hold (R5). -/
def Tile.number (t : Tile) (a n : Nat) : Nat := leNat ((List.range n).map fun j => Memory.read t.tlm (a + j))

/-- Whether a 64-bit word holds an uncorrectable error or a poison mark (R152). -/
def Tile.spoilt (t : Tile) (w : Nat) : Bool := NSet.mem t.poison w || NSet.mem t.err2 w

/-- The frame of a load of n bytes at a: outside the executing context only the check bits of the words read change, their
single-bit errors being corrected and counted (R152, R381). -/
structure LoadFrame (s t : State) (a n : Nat) (ds : List (BitVec 6)) : Prop where
  others : t = (s.setHere { s.here with
    err1 := t.here.err1, err2 := t.here.err2, poison := t.here.poison, corrected := t.here.corrected
    uncorrected := t.here.uncorrected }).setMe t.me
  ctx : s.me.onlyScalar t.me
  regs : ∀ r, r ∉ ds → t.me.readK r = s.me.readK r
  spoilt : ∀ w, t.here.spoilt w = s.here.spoilt w
  single : ∀ w, NSet.mem t.here.err1 w = (NSet.mem s.here.err1 w && !(wordsOf a n).contains w)
  counted : t.here.corrected = s.here.corrected + ((wordsOf a n).filter (NSet.mem s.here.err1)).length
  tlm : s.sameTlm t
  gmem : s.sameGmem t

/-- A load completes: k[d] reads x. -/
def Loads (i : Instr) (s : State) (a n : Nat) (d : BitVec 6) (x : KReg) : Prop :=
  ∃ t, exec i s = .next t ∧ t.me.readK d = wroteK d x ∧ GoesOn s t 4 ∧ LoadFrame s t a n [d]

/-- The frame of a store of n bytes at a: nothing outside the tile changes, in the tile no byte outside the n stored ones, no
register, and of the contexts only which words of code they still fetch as they were (R267). -/
structure StoreFrame (s t : State) (a n : Nat) : Prop where
  others : t = s.setHere t.here
  tile : t.here = { s.here with
    ctxs := t.here.ctxs, tlm := t.here.tlm, gtags := t.here.gtags, poison := t.here.poison, err1 := t.here.err1
    err2 := t.here.err2, corrected := t.here.corrected, uncorrected := t.here.uncorrected }
  ctxs : ∀ q, q ≠ s.cur.ctx → t.here.ctx q = { s.here.ctx q with stale := (t.here.ctx q).stale }
  ctx : s.me.onlyScalar { t.me with stale := s.me.stale }
  regs : ∀ r, t.me.readK r = s.me.readK r
  code : s.here.isExec a = false → ∀ q, (t.here.ctx q).stale = (s.here.ctx q).stale
  bytes : ∀ k x, k ≠ s.cur.tile ∨ x < a ∨ a + n ≤ x → Memory.read (t.tile k).tlm x = Memory.read (s.tile k).tlm x
  tags : ∀ g, g < a / 16 ∨ (a + n - 1) / 16 < g → NSet.mem t.here.gtags g = NSet.mem s.here.gtags g
  gmem : s.sameGmem t

/-- A store completes: the n bytes at a are the low bytes of v, and the granule has the tag given. -/
def Stores (i : Instr) (s : State) (a n v : Nat) (tag : Bool) : Prop :=
  ∃ t, exec i s = .next t ∧ GoesOn s t 4 ∧ StoreFrame s t a n ∧
    (∀ j, j < n → Memory.read t.here.tlm (a + j) = BitVec.ofNat 8 (v / 256 ^ j)) ∧
    NSet.mem t.here.gtags (a / 16) = tag ∧
    (8 ≤ n → ∀ w ∈ wordsOf a n, t.here.spoilt w = false ∧ NSet.mem t.here.err1 w = false)

/-! Channels (R35, R39, R245 to R250). -/

/-- The frame of a CHAN instruction on a port, which reads the tile's words of a list: outside the executing tile only channels change; in
the context only the k registers of the list ds, the counts of takes and puts, and where it goes on; of the tile the check bits of the words
read, and the port and, where it is ordered, what its stream sends (R152, R275). -/
structure ChanFrame (s t : State) (port : Nat) (read : List Nat) (ds : List (BitVec 6)) : Prop where
  outside : t = { s with chans := t.chans, tiles := t.tiles }
  tiles : ∀ q, q ≠ s.cur.tile → t.tile q = s.tile q
  ctxs : ∀ q, q ≠ s.cur.ctx → t.here.ctx q = s.here.ctx q
  ctx : s.me.onlyScalar { t.me with donec := s.me.donec }
  regs : ∀ r, r ∉ ds → t.me.readK r = s.me.readK r
  tile : t.here = { s.here with
    ctxs := t.here.ctxs, slots := t.here.slots, inject := t.here.inject, lastStamp := t.here.lastStamp, tileSeq := t.here.tileSeq
    err1 := t.here.err1, err2 := t.here.err2, poison := t.here.poison, corrected := t.here.corrected, uncorrected := t.here.uncorrected }
  spoilt : ∀ w, t.here.spoilt w = s.here.spoilt w
  single : ∀ w, NSet.mem t.here.err1 w = (NSet.mem s.here.err1 w && !read.contains w)
  unread : read = [] → t.here.err2 = s.here.err2 ∧ t.here.poison = s.here.poison ∧ t.here.corrected = s.here.corrected ∧
    t.here.uncorrected = s.here.uncorrected
  slots : ∀ m, m ≠ s.here.active → AMap.get? t.here.slots m = AMap.get? s.here.slots m
  slot : t.here.slot = { s.here.slot with ports := t.here.slot.ports }
  ports : ∀ p, p ≠ port → t.here.port p = s.here.port p
  plain : (s.here.port port).ordered = false →
    t.here.port port = { s.here.port port with closed := (t.here.port port).closed } ∧ t.here.inject = s.here.inject ∧
      t.here.lastStamp = s.here.lastStamp ∧ t.here.tileSeq = s.here.tileSeq

/-- A put on a port passes the checks of R245, no acquire of the context is pending (R222), and neither a VCVTO with TOK on it nor a place
taken before it is outstanding (R167, R286). -/
structure PutOk (s : State) (port : Nat) : Prop where
  who : isPrimary s = true
  declared : (s.here.port port).declared = true
  output : (s.here.port port).output = true
  actor : (s.here.port port).actor = s.me.actor
  unbound : (s.here.port port).stream = none
  room : doneOf s.me port < (s.here.port port).count
  unclosed : (s.here.port port).closed = false
  acquired : acquirePending s.here s.me = false
  placed : (s.here.port port).booked = []
  first : ∀ e ∈ s.me.vq, ∀ f, e.instr = .vcvto f → f.vc.toNat = port → e.seq = none

/-- One token is put on the channel that the port sources: it has the header that the hardware sets, it is the newest on its
branch or at the fork, every branch's room falls by one, the next SEQ rises by one, and the firing has made one more put. -/
structure TokenPut (s t : State) (port id : Nat) (k : TokKind) (payload : Line) (round : Chan → BitVec 16) (after : List (Nat × Nat)) :
    Prop where
  chan : ∀ c, s.chan? id = some c → ∃ d : Chan, ∃ tok : Token, t.chan? id = some d ∧
    tok.kind = k ∧ tok.line = c.line ∧ tok.payload = payload ∧ tok.round = round c ∧ tok.resid = c.resid ∧ tok.seq = c.seq ∧
    d.seq = c.seq + 1 ∧ d.rounds = (if k = .round then c.rounds + 1 else c.rounds) ∧
    d.branches.map (·.room) = c.branches.map (fun b => b.room - 1) ∧
    (∀ b, c.branches = [b] → d.branches.map (·.flights) = [b.flights ++ [{ tok := tok, after := after }]]) ∧
    (c.branches.length ≠ 1 → d.forkQ = c.forkQ ++ [{ tok := tok, after := after }])
  others : ∀ j, j ≠ id → t.chan? j = s.chan? j
  counted : doneOf t.me port = doneOf s.me port + 1
  uncounted : ∀ p, p ≠ port → doneOf t.me p = doneOf s.me p

/-- The time stamp of a tile's next ordered message: its time, or the last one's stamp where that is later (R275, R286). -/
def State.stampHere (s : State) : Word :=
  let time : Word := BitVec.ofNat 64 (s.timeOf s.cur.tile)
  if s.here.lastStamp.toNat < time.toNat then time else s.here.lastStamp

/-- One message is put on the ordered stream of the port (R274, R275, R277, R286): it has the header that the hardware sets and stands last at
the injection port, the sender's credits have each fallen by one, and the firing has made one more put. -/
structure OrderedPut (s t : State) (port : Nat) (k : TokKind) (payload : Line) : Prop where
  message : ∃ m : Token, t.here.inject = s.here.inject ++ [m] ∧ m.kind = k ∧ m.line = (s.here.port port).line ∧ m.payload = payload ∧
    m.resid = s.here.slot.resid ∧ m.ohdr = some {
      osn := (s.here.port port).osn, stamp := s.stampHere, module := s.module, tile := (s.tileWord s.cur.tile).setWidth 22
      seq := s.here.tileSeq.toNat, port := port }
  stamp : t.here.lastStamp = s.stampHere
  seq : t.here.tileSeq = s.here.tileSeq + 1
  credits : (t.here.port port).credits = (s.here.port port).credits.map (· - 1)
  chans : t.chans = s.chans
  counted : doneOf t.me port = doneOf s.me port + 1
  uncounted : ∀ p, p ≠ port → doneOf t.me p = doneOf s.me p

/-- A take on a port passes the checks of R245, with `ahead` more tokens before the one read, and no acquire is pending (R222). -/
structure TakeOk (s : State) (port ahead : Nat) : Prop where
  who : isPrimary s = true
  declared : (s.here.port port).declared = true
  input : (s.here.port port).output = false
  actor : (s.here.port port).actor = s.me.actor
  unbound : (s.here.port port).stream = none
  active : (s.here.port port).count ≠ 0
  acquired : acquirePending s.here s.me = false
  need : doneOf s.me port + ahead < takeLimit (s.here.actor s.me.actor) (s.here.port port)

/-- The header of R35 with the scale byte of R247. -/
def headerWord (y : QSlot) : Word :=
  BitVec.ofNat 64 (y.port % 32 + y.kind.code.toNat * 2 ^ 8 + (if y.line then 2 ^ 11 else 0) + y.seq % 256 * 2 ^ 12
    + y.round.toNat * 2 ^ 20 + y.resid.toNat * 2 ^ 36 + y.scale.toNat * 2 ^ 48)

/-- The instruction waits at issue: nothing changes but the mark that its context has stalled. -/
def Stalls (i : Instr) (s : State) : Prop := exec i s = .next (s.setMe { s.me with stalled := true })

/-- The frame of a TAG instruction: in the context also the tags and which late traps are due may change. -/
structure TagFrame (s t : State) (ds : List (BitVec 6)) : Prop where
  others : t = s.setMe t.me
  ctx : s.me.onlyScalar { t.me with tags := s.me.tags, lates := s.me.lates }
  regs : ∀ r, r ∉ ds → t.me.readK r = s.me.readK r
  tlm : s.sameTlm t
  gmem : s.sameGmem t

/-- The selected tags that are set are observed: the late traps that wait for one of them are due (R226, R240). -/
def Observed (s t : State) (tags : Word) : Prop := t.me.lates = (s.me.observe tags).lates

/-- i is the lowest tag of the mask with a property. -/
def Lowest (mask : Word) (p : Nat → Prop) (i : Nat) : Prop :=
  i < 64 ∧ mask.getLsbD i = true ∧ p i ∧ ∀ j, j < i → mask.getLsbD j = true → ¬p j

/-- The frame of a barrier instruction: in the tile only its membership slots change. -/
structure BarFrame (s t : State) (ds : List (BitVec 6)) : Prop where
  others : t = s.setHere t.here
  tile : t.here = { s.here with members := t.here.members, ctxs := t.here.ctxs }
  ctxs : ∀ q, q ≠ s.cur.ctx → t.here.ctx q = s.here.ctx q
  ctx : s.me.onlyScalar t.me
  regs : ∀ r, r ∉ ds → t.me.readK r = s.me.readK r
  tlm : s.sameTlm t
  gmem : s.sameGmem t

/-- The tile is a member of the group that v names: eight bits, declared by the firing actor, not left (R253). -/
structure MemberOf (s : State) (v : Word) (m : Member) : Prop where
  helper : s.cur.ctx ≠ 0
  small : v.toNat < 256
  declared : v.toNat ∈ (s.here.actor s.me.actor).groups
  slot : s.here.members.find? (fun x => x.group == v.toNat && !x.mask) = some m

/-- Every earlier access of the context homed within a scope has performed, its stores are acknowledged, no VM access is
queued, and no PUTR waits (R220 to R222, R266). -/
def State.performedWithin (s : State) (scope : Nat) : Prop :=
  vmQueued s.me = false ∧ putrDue s = false ∧
    ∀ p ∈ s.here.reqs, p.2.task = s.me.task → homeScope s p.2.pa ≤ scope → p.2.performed = true ∧ p.2.op.stores = false

/-! Traps (R363 to R369). -/

/-- Entering context 0's handler: NEST is set, FSEL shows context n, and context 0 goes on at ENTRY with its trap words as given,
its PCC's tag, bounds and permissions and its other registers kept (R366). -/
structure Entered (c d : Ctx) (t u : Tile) (n : Nat) (cause pc val : Word) : Prop where
  nest : u.nest = true
  fsel : u.fsel = n
  entry : d.pc = BitVec.ofNat 48 (t.trapvec.toNat * 4)
  tag : d.pcc.tag = c.pcc.tag
  rest : d.pcc.bits.extractLsb' 48 80 = c.pcc.bits.extractLsb' 48 80
  others : d = { c with pcc := d.pcc, cause := cause, trappc := pc, trapval := val, stalled := false }

/-- The frame of helper n after a trap (R365): it stops where it stands, its registers and control state kept; a START that waits for
a helper is issued again when it resumes. -/
def Ctx.framed (c : Ctx) (cause val : Word) (pc : Addr) : Ctx :=
  { c with mode := .trapped, stalled := false, startAt := none, cause := cause, trappc := BitVec.ofNat 64 pc.toNat, trapval := val }

/-- A trap of helper n of a tile has been taken (R365, R366): its frame and PEND bit are set; with NEST 0 context 0 is entered for
the lowest pending frame; nothing else of the tile changes, and outside it only the residency's error record. -/
structure HelperTrapped (s t : State) (k n : Nat) (cause val : Word) (pc : Addr) : Prop where
  frame : (t.tile k).ctx n = ((s.tile k).ctx n).framed cause val pc
  pend : (t.tile k).pend = (s.tile k).pend ||| (1#11 <<< n)
  nested : (s.tile k).nest = true →
    (t.tile k).nest = true ∧ (t.tile k).fsel = (s.tile k).fsel ∧ (t.tile k).ctx 0 = (s.tile k).ctx 0
  entered : (s.tile k).nest = false → ∃ low, (t.tile k).pend.getLsbD low = true ∧ (∀ j, j < low → (t.tile k).pend.getLsbD j = false) ∧
    Entered ((s.tile k).ctx 0) ((t.tile k).ctx 0) (s.tile k) (t.tile k) low 0 (BitVec.ofNat 64 ((s.tile k).ctx 0).pc.toNat) 0
  ctxs : ∀ q, q ≠ n → q ≠ 0 → (t.tile k).ctx q = (s.tile k).ctx q
  tile : t.tile k = { s.tile k with
    ctxs := (t.tile k).ctxs, pend := (t.tile k).pend, nest := (t.tile k).nest, fsel := (t.tile k).fsel }
  tiles : ∀ q, q ≠ k → t.tile q = s.tile q
  others : t = { s with tiles := t.tiles, res := t.res }

/-- A trap of context 0 of a tile has been taken (R366): with NEST 0 its handler is entered with the trap's code, PC and value in
frame 0; with NEST 1 the tile processor stops and the tile is to be retired. -/
structure MonitorTrapped (s t : State) (k : Nat) (cause val : Word) (pc : Addr) : Prop where
  entered : (s.tile k).nest = false →
    Entered ((s.tile k).ctx 0) ((t.tile k).ctx 0) (s.tile k) (t.tile k) 0 cause (BitVec.ofNat 64 pc.toNat) val ∧
    t.tile k = { s.tile k with ctxs := (t.tile k).ctxs, nest := (t.tile k).nest, fsel := (t.tile k).fsel } ∧
    (∀ q, q ≠ 0 → (t.tile k).ctx q = (s.tile k).ctx q) ∧ t = { s with tiles := t.tiles }
  double : (s.tile k).nest = true →
    t.tile k = { s.tile k with alive := false } ∧ t = { s with tiles := t.tiles, retireDue := t.retireDue } ∧
    ∃ x, t.retireDue = s.retireDue ++ [x] ∧ ∃ phys, x = .tile phys false
  tiles : ∀ q, q ≠ k → t.tile q = s.tile q

/-- A context has an empty vector queue, no late trap that is due and no failed load in a window, so a trap is taken as it stands (R161,
R174, R365). -/
def Ctx.settled (c : Ctx) : Prop :=
  c.vq = [] ∧ (∀ l ∈ c.lates, l.vd = none ∧ l.due = false) ∧ ∀ w ∈ c.wins, w.cls = .v → w.arrived = true → w.fail = 0

/-- The executing context is one of the eleven, and settled. -/
def State.settled (s : State) : Prop := s.cur.ctx ≤ 10 ∧ s.me.settled

/-- The trap of a code has been taken by the executing context. -/
def Trapped (s t : State) (code : Byte) (val : Word) (pc : Addr) : Prop :=
  (s.cur.ctx ≠ 0 → HelperTrapped s t s.cur.tile s.cur.ctx (BitVec.ofNat 64 code.toNat) val pc) ∧
  (s.cur.ctx = 0 → MonitorTrapped s t s.cur.tile (BitVec.ofNat 64 code.toNat) val pc)

/-! The dispatcher's choice (R290). -/

/-- How many places after the last one chosen a candidate slot stands in the ring of 12. -/
def Tile.ringPlace (t : Tile) (j : Nat) : Nat := (j + 12 - (t.ring + 1) % 12) % 12

/-- A candidate that may be chosen: an urgent one where there is one, else one of the highest priority (R290). -/
def inPool (s : State) (k j : Nat) : Prop :=
  j < 12 ∧ isCandidate s k j = true ∧
    ((∃ i, i < 12 ∧ isCandidate s k i = true ∧ 16 ≤ candPass (s.tile k) i) → 16 ≤ candPass (s.tile k) j) ∧
    ((∀ i, i < 12 → isCandidate s k i = true → candPass (s.tile k) i < 16) →
      ∀ i, i < 12 → isCandidate s k i = true → candPrio s k i ≤ candPrio s k j)

/-- The candidate that the dispatcher of a tile chooses: of those that may be chosen the first in the ring (R290). -/
def Chosen (s : State) (k i : Nat) : Prop :=
  inPool s k i ∧ ∀ j, inPool s k j → (s.tile k).ringPlace i ≤ (s.tile k).ringPlace j

/-! Vector instructions (R155 to R176). -/

/-- The vector instructions with the fields f. -/
def vectorInstrs (f : VW) : List Instr :=
  [.vadd f, .vsub f, .vmul f, .vmulh f, .vmin f, .vmax f, .vminu f, .vmaxu f, .vand f, .vor f, .vxor f, .vshl f,
   .vshr f, .vsra f, .vabs f, .vneg f, .vadds f, .vsubs f, .vfadd f, .vfsub f, .vfmul f, .vfma f, .vfms f, .vfnma f,
   .vfmin f, .vfmax f, .vfabs f, .vfneg f, .vfcps f, .vrsqrte f, .vrcpe f, .vexp2e f, .vlog2e f, .vcvt f, .vcvto f,
   .vpack f, .vunpack f, .vmxq f, .vmxd f, .vredadd f, .vredmax f, .vredmin f, .vfredadd f, .vbcst f, .vshuf f,
   .vslide f, .viota f, .vld f, .vst f, .vlds f, .vsts f, .vldx f, .vstx f, .vldb f, .vcmpeq f, .vcmpne f, .vcmplt f,
   .vcmple f, .vfcmpeq f, .vfcmplt f, .vfcmple f, .vfclass f, .mand f, .mor f, .mxor f, .mnot f, .mpopc f, .vsel f,
   .vmovk f, .vmovx f]

/-- A vector instruction has entered its context's queue: the entry e, last in the queue, holds the instruction with the k operands
and the mode at issue; the context goes on, and its window, when LA is not 0, opens (R79, R119, R158). -/
structure VecIssued (s t : State) (i : Instr) (x : VShape) (e : VqEntry) : Prop where
  queued : t.me.vq = s.me.vq ++ [e]
  instr : e.instr = i
  place : e.pc = s.me.pc
  opA : x.a = .k → e.ka = s.me.readK x.f.a
  opB : x.b = .k → e.kb = s.me.readK x.f.b
  mode : e.rm = (if x.f.rm = 0 then s.me.fpc.extractLsb' 5 3 else x.f.rm) ∧ e.ftz = s.me.fpc.getLsbD 9 ∧ e.daz = s.me.fpc.getLsbD 10
  unbound : e.group = none
  windowed : e.win = decide (x.f.la ≠ 0)
  goes : GoesOn s t 8
  plain : x.f.la = 0 → t.me.wins = s.me.countWins.wins
  window : x.f.la ≠ 0 → ∃ w : Win, t.me.wins = s.me.countWins.wins ++ [w] ∧ w.cls = vecDest i ∧ w.dest = x.f.d ∧ w.left = x.f.la ∧
    w.arrived = false ∧ w.op = e.op ∧ w.pc = s.me.pc
  regs : (∀ r, t.me.readK r = s.me.readK r) ∧ (∀ r, t.me.readV r = s.me.readV r) ∧ (∀ r, t.me.readM r = s.me.readM r) ∧
    t.me.fpc = s.me.fpc
  ctxs : ∀ q, q ≠ s.cur.ctx → t.here.ctx q = s.here.ctx q
  tlm : s.sameTlm t
  gmem : s.sameGmem t

/-- The oldest vector instruction e of context n of tile k has completed: the others stay queued, its lane group is free, and only the
registers of the lists vs, ms and ks have changed (R158, R159). -/
structure VecDone (s t : State) (k n : Nat) (e : VqEntry) (rest : List VqEntry) (vs ms ks : List (BitVec 6)) : Prop where
  queue : ((t.tile k).ctx n).vq = rest
  free : ∀ g, e.group = some g → AMap.get? (t.tile k).groups g = none
  regV : ∀ r : BitVec 6, r ∉ vs → ((t.tile k).ctx n).readV r.toNat = ((s.tile k).ctx n).readV r.toNat
  regM : ∀ r : BitVec 6, r ∉ ms → ((t.tile k).ctx n).readM r.toNat = ((s.tile k).ctx n).readM r.toNat
  regK : ∀ r, r ∉ ks → ((t.tile k).ctx n).readK r = ((s.tile k).ctx n).readK r
  place : ((t.tile k).ctx n).pcc = ((s.tile k).ctx n).pcc ∧ ((t.tile k).ctx n).tags = ((s.tile k).ctx n).tags
  ctxs : ∀ q, q ≠ n → (t.tile k).ctx q = (s.tile k).ctx q
  tiles : ∀ q, q ≠ k → t.tile q = s.tile q
  outside : e.seq = none → t = { s with tiles := t.tiles }
  tlm : s.sameTlm t
  gmem : s.sameGmem t

/-- An element as the integer that its type denotes (R157). -/
def elemInt (signed : Bool) (w x : Nat) : Int := if signed then (BitVec.ofNat w x).toInt else (x : Int)

/-- The bits of an exact integer result: clamped to the range of its type, or modulo 2^w (R105). -/
def elemBits (signed clamp : Bool) (w : Nat) (v : Int) : Nat :=
  let lo : Int := if signed then -2 ^ (w - 1) else 0
  let hi : Int := if signed then 2 ^ (w - 1) - 1 else 2 ^ w - 1
  (BitVec.ofInt w (if clamp then max lo (min hi v) else v)).toNat

/-- Whether element j of width w is active under the mask field of f (R156). -/
abbrev Ctx.activeAt (c : Ctx) (f : VW) (w j : Nat) : Prop :=
  f.mask = 0 ∨ (c.readM f.mask.toNat).getLsbD (if w = 64 then j else j * w / 32) = true

/-- The active elements, in element order. -/
def Ctx.actives (c : Ctx) (f : VW) (w : Nat) : List Nat := (List.range (512 / w)).filter fun j => decide (c.activeAt f w j)

/-- The result of operation op stands in its lookahead window, as arrived; the other windows are as they were (R79, R81). -/
def Ctx.windowHolds (c d : Ctx) (op : Nat) (x : Line) (fail : Byte) (val : Word) : Prop :=
  d.wins = c.wins.map fun w =>
    if w.op = op then { w with arrived := true, result := x, resultTag := false, fail := fail, failVal := val } else w

/-- The v result x of e is delivered: to its register, or, inside a window, to the window, no v register changing (R79, R159). -/
def Ctx.hasV (c d : Ctx) (e : VqEntry) (r : BitVec 6) (x : Line) : Prop :=
  (e.win = false → d.readV r.toNat = x ∧ d.wins = c.wins) ∧
  (e.win = true → (∀ q, d.readV q = c.readV q) ∧ c.windowHolds d e.op x 0 0)

/-- The m result x of e is delivered; m0 reads all ones (R79, R156, R159). -/
def Ctx.hasM (c d : Ctx) (e : VqEntry) (r : BitVec 6) (x : BitVec 16) : Prop :=
  (e.win = false → d.readM r.toNat = (if r = 0 then 0xFFFF else x) ∧ d.wins = c.wins) ∧
  (e.win = true → (∀ q, d.readM q = c.readM q) ∧ c.windowHolds d e.op (x.setWidth 512) 0 0)

/-- The k result x of e is delivered (R79, R159, R160). -/
def Ctx.hasK (c d : Ctx) (e : VqEntry) (r : BitVec 6) (x : Word) : Prop :=
  (e.win = false → d.readK r = wroteK r ⟨false, x.setWidth 128⟩ ∧ d.wins = c.wins) ∧
  (e.win = true → (∀ q, d.readK q = c.readK q) ∧ c.windowHolds d e.op (x.setWidth 512) 0 0)

/-- VECTOR_COMPLETE completes e, changes no register outside the lists, and adds the sticky flags of fl to FPC (R117, R119, R159). -/
def VecRuns (s : State) (k n : Nat) (e : VqEntry) (rest : List VqEntry) (vs ms ks : List (BitVec 6)) (fl : BitVec 5)
    (does : State → Ctx → Prop) : Prop :=
  ∃ t, exec (.vectorComplete k n) s = .next t ∧ VecDone s t k n e rest vs ms ks ∧
    ((t.tile k).ctx n).fpc = ((s.tile k).ctx n).fpc ||| fl.setWidth 64 ∧ does t ((t.tile k).ctx n)

/-- Element j of the line x is v j modulo 2^w where it is active, and as it was in vd where it is not (R156, R157). -/
def Ctx.eachElem (c : Ctx) (f : VW) (w : Nat) (x : Line) (v : Nat → Nat) : Prop := ∀ j, j < 512 / w →
  (c.activeAt f w j → elem x w j = v j % 2 ^ w) ∧ (¬c.activeAt f w j → elem x w j = elem (c.readV f.d.toNat) w j)

/-- VECTOR_COMPLETE completes e, an instruction whose element j of width w is v j with flags fl j: FPC gains the flags of the active
elements. -/
def VecEach (s : State) (k n : Nat) (e : VqEntry) (rest : List VqEntry) (f : VW) (w : Nat) (v : Nat → Nat) (fl : Nat → BitVec 5) : Prop :=
  let c := (s.tile k).ctx n
  VecRuns s k n e rest [f.d] [] [] ((c.actives f w).foldl (fun x j => x ||| fl j) 0) fun _ d =>
    ∃ x, c.hasV d e f.d x ∧ c.eachElem f w x v

/-- A finite value as a number. -/
def FVal.num : FVal → ℚ
  | .fin neg m e => (if neg then -1 else 1) * m * 2 ^ e
  | _ => 0

def FVal.finite : FVal → Prop
  | .fin .. => True
  | _ => False

/-! Global memory (R220 to R229, R236 to R244). -/

/-- Every check of R236 passes for n bytes at a through c. -/
structure GlobalOk (c : KReg) (a n align : Nat) (need : List Perm) : Prop where
  tag : c.tag = true
  unsealed : c.typ = 0
  shared : c.has .global = true
  perms : ∀ p ∈ need, c.has p = true
  lower : c.base ≤ (a : Int)
  upper : (a : Int) + n ≤ c.top
  aligned : a % align = 0

/-- The first check of R236 that fails names the code. -/
def GlobalBad (c : KReg) (a n align : Nat) (need : List Perm) (code : Byte) : Prop :=
  let perms := c.has .global = true ∧ ∀ p ∈ need, c.has p = true
  let bounds := c.base ≤ (a : Int) ∧ (a : Int) + n ≤ c.top
  (code = 0x03 ∧ c.tag = false) ∨ (code = 0x06 ∧ c.tag = true ∧ c.typ ≠ 0) ∨
    (code = 0x05 ∧ c.tag = true ∧ c.typ = 0 ∧ ¬perms) ∨
    (code = 0x04 ∧ c.tag = true ∧ c.typ = 0 ∧ perms ∧ ¬bounds) ∨
    (code = 0x07 ∧ c.tag = true ∧ c.typ = 0 ∧ perms ∧ bounds ∧ a % align ≠ 0)

/-- The completion token of an instruction can be claimed (R78). -/
def TokenOk (s : State) (tok : BitVec 1) : Prop :=
  tok = 1 → s.cur.ctx ≠ 0 ∧ s.me.role ≠ .team ∧ ∃ p, s.here.complPort s.me.actor = some p ∧
    AMap.getD (firingDonec s.here s.me) p 0 < (s.here.port p).count ∧ (s.here.port p).closed = false

/-- No late trap and no earlier window is in the way of a new window (R80). -/
def windowFree (s : State) (la : BitVec 4) (cls : RegClass) (d : BitVec 6) : Prop :=
  la = 0 ∨ (s.me.wins.length < 4 ∧ ∀ w ∈ s.me.wins, w.cls = cls → w.dest ≠ d)

/-- Two contexts with the same registers. -/
def Ctx.sameRegs (c d : Ctx) : Prop :=
  (∀ r, d.readK r = c.readK r) ∧ (∀ r, d.readV r = c.readV r) ∧ (∀ r, d.readM r = c.readM r) ∧ d.fpc = c.fpc

/-- The frame of an instruction that hands work to a unit: it goes on after 8 bytes; no register of any context and no byte changes;
every other context stays where it is; tags change at most in the executing context. -/
structure HandedOver (s t : State) : Prop where
  goes : GoesOn s t 8
  me : s.me.sameRegs t.me
  ctxs : ∀ q, q ≠ s.cur.ctx → (s.here.ctx q).sameRegs (t.here.ctx q) ∧ (t.here.ctx q).pcc = (s.here.ctx q).pcc ∧
    (t.here.ctx q).tags = (s.here.ctx q).tags ∧ (t.here.ctx q).mode = (s.here.ctx q).mode
  tiles : ∀ q, q ≠ s.cur.tile → t.tile q = s.tile q
  tlm : s.sameTlm t
  gmem : s.sameGmem t

/-- The tag of an operation is clear after its issue, the other tags as they were (R239). -/
def tagCleared (s t : State) (tag : BitVec 6) : Prop := t.me.tags = s.me.tags &&& ~~~(1#64 <<< tag.toNat)

/-- A tag is set wherever the task stands in a context (R78, R298). -/
def TagSet (s t : State) (k task : Nat) (tag : BitVec 6) : Prop :=
  ∀ m, ((s.tile k).ctx m).task = task → ((s.tile k).ctx m).mode ≠ .free → ((t.tile k).ctx m).tags.getLsbD tag.toNat = true

/-- One token with a kind and a payload entered a channel: it has the channel's next SEQ and stands last on its one branch
(R35, R39). -/
def EnteredChan (t : State) (id : Nat) (c : Chan) (kind : TokKind) (payload : Line) : Prop :=
  ∃ d, t.chan? id = some d ∧ d.seq = c.seq + 1 ∧ ∀ b, c.branches = [b] → ∃ tok : Token, tok.kind = kind ∧ tok.payload = payload ∧
    tok.seq = c.seq ∧ tok.line = c.line ∧ d.branches.map (·.flights) = [b.flights ++ [{ tok := tok, after := [] }]]

/-- No register and no program counter of any context changed. -/
def State.sameCtxs (s t : State) : Prop := ∀ k m, ((s.tile k).ctx m).sameRegs ((t.tile k).ctx m) ∧
  ((t.tile k).ctx m).pcc = ((s.tile k).ctx m).pcc

/-- The frame of an event that moves neither registers nor memory. -/
structure Quiet (s t : State) : Prop where
  ctxs : s.sameCtxs t
  tlm : s.sameTlm t
  gmem : s.sameGmem t

/-- An event that finds nothing to do leaves the state (log entry 6). -/
def Idle (i : Instr) (s : State) : Prop := exec i s = .next s

/-- A translation through a stream's own entry that allows the access (R263, R353). -/
def StreamHit (s : State) (k : Nat) (st : Stream) (va : Nat) (w : Bool) (e : TlbEntry) : Prop :=
  st.tlb = some e ∧ e.covers (streamSpace s k st).resid va = true ∧ e.allows (!w) w false = true

/-- The copied fields of a stream that an event leaves. -/
def Stream.sameConfig (a b : Stream) : Prop := b.desc = a.desc ∧ b.configured = a.configured ∧ b.mon = a.mon ∧ b.claim = a.claim

end Machine
end Sys2Proof
end

