-- ==== Sys2Proof/Certificates/Slice0/Obligations.lean ====
section
/-!
DEFINITION. The statements for the provers.
-/

section
open Sys2Proof Sys2Proof.Machine

/-- Decoding undoes encoding: no bit of a field is dropped or moved (03 R64, R69 to R77). -/
def Obligations.EncodeDecode : Prop :=
  ∀ (i : Instr) (rest : List Byte), i.WellFormed → i.isEncoded = true →
    decodeBytes (encodeBytes i ++ rest) = .ok (i, rest)

/-- Encoding undoes decoding, so every word has one meaning at most, and nothing ill formed decodes (03 R71, R85, R87). -/
def Obligations.DecodeEncode : Prop :=
  ∀ (bs : List Byte) (i : Instr) (rest : List Byte), decodeBytes bs = .ok (i, rest) →
    i.WellFormed ∧ encodeBytes i ++ rest = bs

/-- Worked encodings of the spec (05 R137, 03 R84 and the examples of each chapter). -/
def Obligations.DecodeWords : Prop :=
  decodeTableWord 32 0x00204304 = some (.add ⟨3, 1, 2⟩) ∧
  decodeTableWord 32 0x000C4368 = some (.repI ⟨3, 1, 3⟩) ∧
  decodeTableWord 64 0x89ABCDEF56710401 = some (.li ⟨4, 0x456789ABCDEF⟩) ∧
  decodeTableWord 32 0xFFD00944 = some (.bne ⟨9, 0, 0xFFD⟩) ∧
  decodeTableWord 32 0xFFFFFE58 = some (.jump ⟨0xFFFFFE⟩) ∧
  decodeTableWord 32 0x00028B90 = some (.ldw ⟨11, 10, 0⟩) ∧
  decodeTableWord 32 0x010088A8 = some (.stw ⟨8, 2, 16⟩) ∧
  decodeTableWord 32 0x048309C0 = some (.csetb ⟨9, 12, 8⟩) ∧
  decodeTableWord 32 0x0C0008E0 = some (.take ⟨8, 0, 0⟩) ∧
  decodeTableWord 32 0x040300E4 = some (.waitall ⟨0, 12, 0⟩) ∧
  decodeTableWord 32 0x009200F4 = some (.startI ⟨0, 8, 9⟩) ∧
  decodeTableWord 64 0x000224EC2CA24309 = some (.vfma ⟨9, 10, 11, 0, 2, 0, 2, 2, 7, 12⟩) ∧
  decodeTableWord 64 0x0022402E00310041 = some (.gld ⟨4, 3, 0, 4, 2, 1, 0, 0, 5, 1, 2⟩) ∧
  decodeTableWord 64 0x003F204024800061 = some (.mma ⟨0, 8, 9, 31, 9, 0, 1, 0⟩) ∧
  decodeTableWord 64 0x0000000030800069 = some (.ltab ⟨0, 8, 12, 0, 0, 0, 0, 0⟩) ∧
  decodeTableWord 64 0x0000010024800081 = some (.sweep ⟨0, 8, 9, 0, 0, 0, 4, 0⟩)

/-- Fetch, decode and execute (03 R65, R85, 14 R344). The agenda, by which the environment chooses whose turn it is, is the
model's own (log entry 1). -/
def Obligations.StepRunsDecoded : Prop :=
  ∀ (s : State) (k n : Nat) (later : List Turn) (m : Nat) (i : Instr),
    s.agenda = .issue k n :: later →
    canIssue (s.tile k) n = true →
    ((s.tile k).ctx n).lates.any LateTrap.due = false →
    (∀ w ∈ ((s.tile k).ctx n).wins, winReady (s.tile k) ((s.tile k).ctx n) w = false) →
    ((s.tile k).ctx n).rep.active = false →
    ((s.tile k).ctx n).stale = [] →
    (n = 0 ∨ ((s.tile k).ctx n).pc.toNat ≠ Config.stub (decide (((s.tile k).ctx n).role = .team))) →
    (m = 4 ∨ m = 8) →
    (∀ j, j < m → j % 4 = 0 → fetchCheck (s.tile k) ((s.tile k).ctx n) (((s.tile k).ctx n).pc.toNat + j) = none) →
    decodeBytes ((List.range m).map fun j => Memory.read (s.tile k).tlm (((s.tile k).ctx n).pc.toNat + j)) = .ok (i, []) →
    (isRc i = true → n = 0) →
    ∃ t : State,
      step s = thenNext (exec i t) (fun u => afterTurn u k n) ∧
      t.cur = ⟨k, n⟩ ∧ t.agenda = later ∧ t.steps = s.steps + 1 ∧ t.now = s.now + Config.ticks s.steps + 2 ∧
      t.me = (s.tile k).ctx n ∧ (∀ q, q ≠ n → t.here.ctx q = (s.tile k).ctx q) ∧ (∀ q, q ≠ k → (s.tile q).clockedTo (t.tile q)) ∧
      t.here.slots = (s.tile k).slots ∧ t.here.reqs = (s.tile k).reqs ∧
      t.chans = s.chans ∧ (∀ h, t.resOf h = { s.resOf h with wdLast := (t.resOf h).wdLast }) ∧ t.vers = s.vers ∧ s.sameTlm t ∧ s.sameGmem t

/-- Every instruction and event keeps global memory, and the memory of every tile, in canonical form. -/
def Obligations.StepKeepsMemory : Prop :=
  (∀ s t : State, Memory.wf s.gmem = true → step s = .next t → Memory.wf t.gmem = true) ∧
  ∀ s t : State, (∀ p ∈ s.tiles, Memory.wf p.2.tlm = true) → step s = .next t → ∀ p ∈ t.tiles, Memory.wf p.2.tlm = true

/-- The values that the spec gives at reset (11 R269, 04 R117, 12 R295, 17 R411), and memory with nothing listed. That unwritten
bytes read 0 (log entry 3) and that registers without a reset value hold 0 (log entry 4) are the model's choice. -/
def Obligations.ResetState : Prop :=
  Memory.wf State.reset.gmem = true ∧ State.reset.gmem = [] ∧
  State.reset.now = 0 ∧ State.reset.bootStage = 0 ∧ State.reset.bootFail = 0 ∧
  (∀ tile, State.reset.timeOf tile = 0) ∧
  ∀ tile n, let c := (State.reset.tile tile).ctx n
    fpcRm c.fpc = 1 ∧ fpcFtz c.fpc = false ∧ fpcDaz c.fpc = false ∧ fpcFlags c.fpc = 0 ∧ c.vqw = 1 ∧
      c.readK 0 = KReg.zero ∧ (∀ r, (c.readK r).tag = false ∧ (c.readK r).word = 0) ∧ c.readM 0 = 0xFFFF

/-- 05 R131, R133, R134: the 34 INT instructions, and their frame. -/
def Obligations.IntegerInstructions : Prop :=
  ∀ (f : K3) (s : State),
    let x := s.me.readW f.a
    let y := s.me.readW f.b
    (s.kReady [f.d, f.a, f.b] [f.a, f.b] [f.d] →
      WritesInt (.add f) s 4 f.d (x + y) ∧
      WritesInt (.sub f) s 4 f.d (x - y) ∧
      WritesInt (.mul f) s 4 f.d (BitVec.ofNat 64 (x.toNat * y.toNat)) ∧
      WritesInt (.mulh f) s 4 f.d (BitVec.ofInt 64 (x.toInt * y.toInt / 2 ^ 64)) ∧
      WritesInt (.mulhu f) s 4 f.d (BitVec.ofNat 64 (x.toNat * y.toNat / 2 ^ 64)) ∧
      WritesInt (.div f) s 4 f.d
        (if y.toInt = 0 then BitVec.ofInt 64 (2 ^ 64 - 1)
         else if x.toInt = -2 ^ 63 ∧ y.toInt = -1 then BitVec.ofInt 64 (-2 ^ 63)
         else BitVec.ofInt 64 (x.toInt.tdiv y.toInt)) ∧
      WritesInt (.divu f) s 4 f.d (if y.toNat = 0 then BitVec.ofNat 64 (2 ^ 64 - 1) else BitVec.ofNat 64 (x.toNat / y.toNat)) ∧
      WritesInt (.rem f) s 4 f.d
        (if y.toInt = 0 then x
         else if x.toInt = -2 ^ 63 ∧ y.toInt = -1 then 0
         else BitVec.ofInt 64 (x.toInt - x.toInt.tdiv y.toInt * y.toInt)) ∧
      WritesInt (.remu f) s 4 f.d (if y.toNat = 0 then x else BitVec.ofNat 64 (x.toNat % y.toNat)) ∧
      WritesInt (.andR f) s 4 f.d (x &&& y) ∧
      WritesInt (.orR f) s 4 f.d (x ||| y) ∧
      WritesInt (.xorR f) s 4 f.d (x ^^^ y) ∧
      WritesInt (.andn f) s 4 f.d (x &&& ~~~y) ∧
      WritesInt (.orn f) s 4 f.d (x ||| ~~~y) ∧
      WritesInt (.shl f) s 4 f.d (BitVec.ofNat 64 (x.toNat * 2 ^ (y.toNat % 64))) ∧
      WritesInt (.shr f) s 4 f.d (BitVec.ofNat 64 (x.toNat / 2 ^ (y.toNat % 64))) ∧
      WritesInt (.sra f) s 4 f.d (BitVec.ofInt 64 (x.toInt / 2 ^ (y.toNat % 64))) ∧
      WritesInt (.ror f) s 4 f.d (x.rotateRight (y.toNat % 64)) ∧
      WritesInt (.minR f) s 4 f.d (BitVec.ofInt 64 (min x.toInt y.toInt)) ∧
      WritesInt (.maxR f) s 4 f.d (BitVec.ofInt 64 (max x.toInt y.toInt)) ∧
      WritesInt (.minu f) s 4 f.d (BitVec.ofNat 64 (min x.toNat y.toNat)) ∧
      WritesInt (.maxu f) s 4 f.d (BitVec.ofNat 64 (max x.toNat y.toNat)) ∧
      WritesInt (.slt f) s 4 f.d (if x.toInt < y.toInt then 1 else 0) ∧
      WritesInt (.sltu f) s 4 f.d (if x.toNat < y.toNat then 1 else 0) ∧
      WritesInt (.seq f) s 4 f.d (if x = y then 1 else 0) ∧
      WritesInt (.sne f) s 4 f.d (if x = y then 0 else 1) ∧
      WritesInt (.addw f) s 4 f.d (((x + y).setWidth 32).signExtend 64) ∧
      WritesInt (.subw f) s 4 f.d (((x - y).setWidth 32).signExtend 64) ∧
      WritesInt (.mulw f) s 4 f.d (((x * y).setWidth 32).signExtend 64)) ∧
    (s.kReady [f.d, f.a] [f.a] [f.d] →
      (∀ n : Nat, n ≤ 64 → (∀ j, 64 - n ≤ j → j < 64 → x.getLsbD j = false) → (n < 64 → x.getLsbD (63 - n) = true) →
        WritesInt (.clz f) s 4 f.d (BitVec.ofNat 64 n)) ∧
      (∀ n : Nat, n ≤ 64 → (∀ j, j < n → x.getLsbD j = false) → (n < 64 → x.getLsbD n = true) →
        WritesInt (.ctz f) s 4 f.d (BitVec.ofNat 64 n)) ∧
      WritesInt (.popc f) s 4 f.d (BitVec.ofNat 64 ((List.range 64).filter x.getLsbD).length) ∧
      (∀ code w : Nat, (code, w) ∈ [(0, 8), (1, 16), (2, 32)] → f.b = BitVec.ofNat 6 code →
        WritesInt (.sext f) s 4 f.d ((x.setWidth w).signExtend 64) ∧
        WritesInt (.zext f) s 4 f.d ((x.setWidth w).setWidth 64)))

/-- 05 R135, R136: the immediate forms, and their frame. -/
def Obligations.ImmediateForms : Prop :=
  ∀ (f : KI) (s : State), s.kReady [f.d, f.a] [f.a] [f.d] →
    let x := s.me.readW f.a
    let i : Int := f.imm.toInt
    let n := f.imm.toNat % 64
    WritesInt (.addi f) s 4 f.d (BitVec.ofInt 64 (x.toInt + i)) ∧
    WritesInt (.andi f) s 4 f.d (x &&& BitVec.ofInt 64 i) ∧
    WritesInt (.ori f) s 4 f.d (x ||| BitVec.ofInt 64 i) ∧
    WritesInt (.xori f) s 4 f.d (x ^^^ BitVec.ofInt 64 i) ∧
    WritesInt (.slti f) s 4 f.d (if x.toInt < i then 1 else 0) ∧
    WritesInt (.sltui f) s 4 f.d (if (x.toNat : Int) < i % 2 ^ 64 then 1 else 0) ∧
    WritesInt (.muli f) s 4 f.d (BitVec.ofInt 64 (x.toInt * i)) ∧
    WritesInt (.shli f) s 4 f.d (BitVec.ofNat 64 (x.toNat * 2 ^ n)) ∧
    WritesInt (.shri f) s 4 f.d (BitVec.ofNat 64 (x.toNat / 2 ^ n)) ∧
    WritesInt (.srai f) s 4 f.d (BitVec.ofInt 64 (x.toInt / 2 ^ n)) ∧
    WritesInt (.rori f) s 4 f.d (x.rotateRight n)

/-- 05 R137: LI and LIH. -/
def Obligations.LoadImmediates : Prop :=
  (∀ (f : LIW) (s : State), s.kReady [f.d] [] [f.d] → WritesInt (.li f) s 8 f.d (BitVec.ofInt 64 f.imm.toInt)) ∧
  ∀ (f : KU) (s : State), s.kReady [f.d] [f.d] [f.d] →
    WritesInt (.lih f) s 4 f.d (BitVec.ofNat 64 (f.imm.toNat * 2 ^ 46 + (s.me.readW f.d).toNat % 2 ^ 46))

/-- 05 R138, R144, R146: the branches. -/
def Obligations.ConditionalBranches : Prop :=
  ∀ (f : KB) (s : State), s.kReady [f.a, f.b] [f.a, f.b] [] →
    let x := s.me.readW f.a
    let y := s.me.readW f.b
    let target : Addr := s.me.pc + BitVec.ofInt 48 (4 * f.off.toInt)
    ∀ (i : Instr) (taken : Prop),
      (i = .beq f ∧ (taken ↔ x = y)) ∨ (i = .bne f ∧ (taken ↔ x ≠ y)) ∨
      (i = .blt f ∧ (taken ↔ x.toInt < y.toInt)) ∨ (i = .bge f ∧ (taken ↔ y.toInt ≤ x.toInt)) ∨
      (i = .bltu f ∧ (taken ↔ x.toNat < y.toNat)) ∨ (i = .bgeu f ∧ (taken ↔ y.toNat ≤ x.toNat)) →
      (s.me.inRep = false → taken → Jumps i s target []) ∧
      (s.me.inRep = false → ¬taken → PassesOver i s 4) ∧
      (s.me.inRep = true → Traps i s 0x01 (wordsVal i))

/-- 05 R139, R140, R146: the jumps. -/
def Obligations.JumpInstructions : Prop :=
  (∀ (f : KJ) (s : State),
    let target : Addr := s.me.pc + BitVec.ofInt 48 (4 * f.off.toInt)
    (s.me.inRep = false → Jumps (.jump f) s target []) ∧
    (s.me.inRep = true → Traps (.jump f) s 0x01 (wordsVal (.jump f))) ∧
    (s.me.regs ≤ 1 → Traps (.jal f) s 0x02 1) ∧
    (s.kReady [1] [] [1] → s.me.inRep = false → ∃ t, exec (.jal f) s = .next t ∧ IsLink s (t.me.readK 1) ∧
      JumpsTo s t s.me.pcc target ∧ ScalarFrame s t [1]) ∧
    (s.kReady [1] [] [1] → s.me.inRep = true → Traps (.jal f) s 0x01 (wordsVal (.jal f)))) ∧
  ∀ (f : KI) (s : State), s.kReady [f.d, f.a] [f.a] [f.d] →
    let c := s.me.readK f.a
    let target : Addr := c.addr + BitVec.ofInt 48 f.imm.toInt
    let v : Word := BitVec.ofNat 64 target.toNat
    (s.me.inRep = true → Traps (.jalr f) s 0x01 (wordsVal (.jalr f))) ∧
    (s.me.inRep = false →
      (c.tag = false → Traps (.jalr f) s 0x03 v) ∧
      (c.tag = true → c.typ ≠ 0 → Traps (.jalr f) s 0x06 v) ∧
      (c.tag = true → c.typ = 0 → (c.has .x && c.has .tlm) = false → Traps (.jalr f) s 0x05 v) ∧
      (c.tag = true → c.typ = 0 → c.has .x = true → c.has .tlm = true → target.toNat % 4 ≠ 0 → Traps (.jalr f) s 0x07 v) ∧
      (c.tag = true → c.typ = 0 → c.has .x = true → c.has .tlm = true → target.toNat % 4 = 0 →
        ∃ t, exec (.jalr f) s = .next t ∧ (f.d ≠ 0 → IsLink s (t.me.readK f.d)) ∧ JumpsTo s t c target ∧ ScalarFrame s t [f.d]))

/-- 05 R142: LOOP. That "within a REP pass" is a place in the body, not the REP's being active, is the model's reading, log entry 51. -/
def Obligations.HardwareLoopsOpen : Prop :=
  ∀ (f : KI) (s : State), s.kReady [f.a] [f.a] [] →
    let n := s.me.readW f.a
    let first : Addr := s.me.pc + 4
    let e := bodyEnd s.here s.me f.imm.toNat first.toNat
    let free := s.me.inRep = false ∧ s.me.loop1.active = false
    (s.me.inRep = true → Traps (.loopI f) s 0x01 (wordsVal (.loopI f))) ∧
    (s.me.inRep = false → s.me.loop1.active = true → Traps (.loopI f) s 0x01 (wordsVal (.loopI f))) ∧
    (free → s.me.pcc.top < (e : Int) → Traps (.loopI f) s 0x04 (BitVec.ofNat 64 e)) ∧
    (free → (e : Int) ≤ s.me.pcc.top → s.me.loop0.active = true → s.me.loop0.e.toNat < e →
      Traps (.loopI f) s 0x01 (wordsVal (.loopI f))) ∧
    (free → (e : Int) ≤ s.me.pcc.top → (s.me.loop0.active = true → e ≤ s.me.loop0.e.toNat) →
      (n = 0 → PassesOver (.loopI f) s (e - s.me.pc.toNat)) ∧
      (n ≠ 0 → ∃ t, exec (.loopI f) s = .next t ∧ t.me.pc = first ∧ t.me.rep = s.me.rep ∧ ScalarFrame s t [] ∧
        (s.me.loop0.active = false → t.me.loop0 = ⟨true, first, BitVec.ofNat 48 e, n⟩ ∧ t.me.loop1 = s.me.loop1) ∧
        (s.me.loop0.active = true → t.me.loop1 = ⟨true, first, BitVec.ofNat 48 e, n⟩ ∧ t.me.loop0 = s.me.loop0)))

/-- 05 R143: the loop end, at the next sequential address. That "no REP body in progress" is a place outside the body is the model's
reading, log entry 51. -/
def Obligations.LoopEndRule : Prop :=
  ∀ (c : Ctx) (len : Nat), c.inRep = false →
    let a : Addr := c.pc + BitVec.ofNat 48 len
    let d := c.advance len
    let outer := fun (l1 : LoopLevel) =>
      d.loop1 = l1 ∧
      (c.loop0.active = true → c.loop0.e = a → c.loop0.lc - 1 ≠ 0 → d.pc = c.loop0.s ∧ d.loop0 = { c.loop0 with lc := c.loop0.lc - 1 }) ∧
      (c.loop0.active = true → c.loop0.e = a → c.loop0.lc - 1 = 0 → d.pc = a ∧ d.loop0 = { c.loop0 with active := false }) ∧
      (c.loop0.active = false ∨ c.loop0.e ≠ a → d.pc = a ∧ d.loop0 = c.loop0)
    (c.loop1.active = false → outer c.loop1) ∧
    (c.loop1.active = true → c.loop1.e = a → c.loop1.lc - 1 = 0 → outer { c.loop1 with active := false }) ∧
    (c.loop1.active = true → c.loop1.e = a → c.loop1.lc - 1 ≠ 0 →
      d.pc = c.loop1.s ∧ d.loop1 = { c.loop1 with lc := c.loop1.lc - 1 } ∧ d.loop0 = c.loop0) ∧
    (c.loop1.active = true → c.loop1.e ≠ a → d.pc = a ∧ d.loop1 = c.loop1 ∧ d.loop0 = c.loop0) ∧
    d.rep = c.rep ∧ d.k = c.k ∧ d.wins = c.wins ∧ d.pcc.tag = c.pcc.tag ∧
      d.pcc.bits.extractLsb' 48 80 = c.pcc.bits.extractLsb' 48 80

/-- 05 R145: REP and the end of its body; after the last pass the loop end of R143 applies there, as `LoopEndRule` says of a context
without a REP. -/
def Obligations.RepetitionBuffer : Prop :=
  (∀ (f : KR) (s : State),
    let first : Addr := s.me.pc + 4
    let e := bodyEnd s.here s.me (f.len1.toNat + 1) first.toNat
    let inner := if s.me.loop1.active then some s.me.loop1 else if s.me.loop0.active then some s.me.loop0 else none
    (s.me.inRep = true → Traps (.repI f) s 0x01 (wordsVal (.repI f))) ∧
    (s.me.inRep = false → s.me.pcc.top < (e : Int) → Traps (.repI f) s 0x04 (BitVec.ofNat 64 e)) ∧
    (s.me.inRep = false → (e : Int) ≤ s.me.pcc.top → (∃ l, inner = some l ∧ l.e.toNat < e) →
      Traps (.repI f) s 0x01 (wordsVal (.repI f))) ∧
    (s.me.inRep = false → (e : Int) ≤ s.me.pcc.top → (∀ l, inner = some l → e ≤ l.e.toNat) →
      ∃ t, exec (.repI f) s = .next t ∧ t.me.pc = first ∧ t.me.loop0 = s.me.loop0 ∧ t.me.loop1 = s.me.loop1 ∧
        t.me.rep.active = true ∧ t.me.rep.s = first ∧ t.me.rep.e = BitVec.ofNat 48 e ∧ t.me.rep.count1 = f.count1 ∧
        t.me.rep.stride = f.stride ∧ t.me.rep.pass = 0 ∧ ScalarFrame s t [])) ∧
  ∀ (c : Ctx) (len : Nat), c.inRep = true →
    let a : Addr := c.pc + BitVec.ofNat 48 len
    let d := c.advance len
    (a ≠ c.rep.e → d.pc = a ∧ d.rep = { c.rep with idx := c.rep.idx + 1 } ∧ d.loop0 = c.loop0 ∧ d.loop1 = c.loop1) ∧
    (a = c.rep.e → c.rep.pass.toNat + 1 < c.rep.count1.toNat + 1 → d.pc = c.rep.s ∧ d.rep.active = true ∧ d.rep.pass = c.rep.pass + 1 ∧
      d.loop0 = c.loop0 ∧ d.loop1 = c.loop1) ∧
    (a = c.rep.e → c.rep.count1.toNat ≤ c.rep.pass.toNat →
      let plain := ({ c with rep := { c.rep with active := false } }).advance len
      d.rep.active = false ∧ d.pc = plain.pc ∧ d.loop0 = plain.loop0 ∧ d.loop1 = plain.loop1 ∧
        (c.loop0.active = false → c.loop1.active = false → d.pc = c.rep.e))

/-- 05 R147, R148, R150, R152: the loads, and their frame. -/
def Obligations.TileLoads : Prop :=
  ∀ (f : KI) (s : State), s.kReady [f.d, f.a] [f.a] [f.d] → s.tlmFree →
    let c := s.me.readK f.a
    let a := (c.addr + BitVec.ofInt 48 f.imm.toInt).toNat
    (∀ (i : Instr) (n : Nat) (v : Word),
      (i = .ldb f ∧ n = 1 ∧ v = (BitVec.ofNat 8 (s.here.number a n)).signExtend 64) ∨
      (i = .ldbu f ∧ n = 1 ∧ v = BitVec.ofNat 64 (s.here.number a n)) ∨
      (i = .ldh f ∧ n = 2 ∧ v = (BitVec.ofNat 16 (s.here.number a n)).signExtend 64) ∨
      (i = .ldhu f ∧ n = 2 ∧ v = BitVec.ofNat 64 (s.here.number a n)) ∨
      (i = .ldw f ∧ n = 4 ∧ v = (BitVec.ofNat 32 (s.here.number a n)).signExtend 64) ∨
      (i = .ldwu f ∧ n = 4 ∧ v = BitVec.ofNat 64 (s.here.number a n)) ∨
      (i = .ldd f ∧ n = 8 ∧ v = BitVec.ofNat 64 (s.here.number a n)) →
      TlmOk s c a n [.r] →
      ((∀ w ∈ wordsOf a n, s.here.spoilt w = false) → Loads i s a n f.d ⟨false, v.setWidth 128⟩) ∧
      (s.here.spoilt (a / 8 * 8) = true → ∃ s1, exec i s = .next (raiseTrap s1 0x0D (BitVec.ofNat 64 (a / 8 * 8)) s.me.pc) ∧
        s1.me = s.me ∧ s.sameTlm s1 ∧ s.sameGmem s1)) ∧
    (TlmOk s c a 16 [.r, .ldc] →
      ((∀ w ∈ wordsOf a 16, s.here.spoilt w = false) →
        Loads (.ldc f) s a 16 f.d ⟨NSet.mem s.here.gtags (a / 16), BitVec.ofNat 128 (s.here.number a 16)⟩) ∧
      (∀ w ∈ wordsOf a 16, s.here.spoilt w = true → (∀ v ∈ wordsOf a 16, v < w → s.here.spoilt v = false) →
        ∃ s1, exec (.ldc f) s = .next (raiseTrap s1 0x0D (BitVec.ofNat 64 w) s.me.pc) ∧ s1.me = s.me ∧ s.sameTlm s1 ∧ s.sameGmem s1))

/-- 05 R147, R149, R150, R152: the stores, with the address they store to and their frame. -/
def Obligations.TileStores : Prop :=
  ∀ (f : KS) (s : State), s.kReady [f.value, f.base] [f.value, f.base] [] → s.tlmFree →
    let c := s.me.readK f.base
    let x := s.me.readK f.value
    let a := (c.addr + BitVec.ofInt 48 f.imm.toInt).toNat
    (∀ (i : Instr) (n : Nat), (i = .stb f ∧ n = 1) ∨ (i = .sth f ∧ n = 2) ∨ (i = .stw f ∧ n = 4) ∨ (i = .std f ∧ n = 8) →
      TlmOk s c a n [.w] →
      (n = 8 ∨ s.here.spoilt (a / 8 * 8) = false → Stores i s a n x.bits.toNat false) ∧
      (n < 8 → s.here.spoilt (a / 8 * 8) = true →
        ∃ s1, exec i s = .next (raiseTrap s1 0x0D (BitVec.ofNat 64 (a / 8 * 8)) s.me.pc) ∧
          s1.me = s.me ∧ s.sameTlm s1 ∧ s.sameGmem s1)) ∧
    (TlmOk s c a 16 (if x.tag then [.w, .stc] else [.w]) → Stores (.stc f) s a 16 x.bits.toNat x.tag)

/-- 05 R147: the checks in their order. The upper limit 2^22 of the space is R345's. -/
def Obligations.TileAccessChecks : Prop :=
  ∀ (s : State) (i : Instr) (c : KReg) (off : BitVec 12) (n : Nat) (need : List Perm),
    (∃ f : KI, s.kReady [f.d, f.a] [f.a] [f.d] ∧ c = s.me.readK f.a ∧ off = f.imm ∧
      ((i = .ldb f ∧ n = 1 ∧ need = [.r]) ∨ (i = .ldbu f ∧ n = 1 ∧ need = [.r]) ∨ (i = .ldh f ∧ n = 2 ∧ need = [.r]) ∨
        (i = .ldhu f ∧ n = 2 ∧ need = [.r]) ∨ (i = .ldw f ∧ n = 4 ∧ need = [.r]) ∨ (i = .ldwu f ∧ n = 4 ∧ need = [.r]) ∨
        (i = .ldd f ∧ n = 8 ∧ need = [.r]) ∨ (i = .ldc f ∧ n = 16 ∧ need = [.r, .ldc]))) ∨
    (∃ f : KS, s.kReady [f.value, f.base] [f.value, f.base] [] ∧ c = s.me.readK f.base ∧ off = f.imm ∧
      ((i = .stb f ∧ n = 1 ∧ need = [.w]) ∨ (i = .sth f ∧ n = 2 ∧ need = [.w]) ∨ (i = .stw f ∧ n = 4 ∧ need = [.w]) ∨
        (i = .std f ∧ n = 8 ∧ need = [.w]) ∨
        (i = .stc f ∧ n = 16 ∧ need = if (s.me.readK f.value).tag then [.w, .stc] else [.w]))) →
    s.tlmFree →
    let a := (c.addr + BitVec.ofInt 48 off.toInt).toNat
    let v : Word := BitVec.ofNat 64 a
    let inside := c.base ≤ (a : Int) ∧ (a : Int) + n ≤ c.top ∧ a + n ≤ 2 ^ 22
    let held := ∀ b, grantOf s s.cur.tile s.me = some b → ∀ j, j < n → b.getLsbD ((a + j) / 2 ^ 18) = true
    let may := c.has .tlm = true ∧ ∀ p ∈ need, c.has p = true
    (c.tag = false → Traps i s 0x03 v) ∧
    (c.tag = true → c.typ ≠ 0 → Traps i s 0x06 v) ∧
    (c.tag = true → c.typ = 0 → ¬may → Traps i s 0x05 v) ∧
    (c.tag = true → c.typ = 0 → may → ¬(inside ∧ held) → Traps i s 0x04 v) ∧
    (c.tag = true → c.typ = 0 → may → inside → held → a % n ≠ 0 → Traps i s 0x07 v)

/-- 03 R68, R86: step 7 of R85, in the order of the fields. -/
def Obligations.FieldOutOfRange : Prop :=
  ∀ (s : State),
    let bad := fun (r : BitVec 6) => r ≠ 0 ∧ s.me.regs ≤ r.toNat
    (∀ (f : K3) (i : Instr),
      i ∈ [.add f, .sub f, .mul f, .mulh f, .mulhu f, .div f, .divu f, .rem f, .remu f, .andR f, .orR f, .xorR f, .andn f, .orn f
        , .shl f, .shr f, .sra f, .ror f, .minR f, .maxR f, .minu f, .maxu f, .slt f, .sltu f, .seq f, .sne f, .addw f, .subw f
        , .mulw f, .cinc f, .csetb f, .csetbx f, .candp f, .cseal f, .cunseal f, .csub f, .ceq f] →
      (bad f.d → Traps i s 0x02 (BitVec.ofNat 64 f.d.toNat)) ∧
      (¬bad f.d → bad f.a → Traps i s 0x02 (BitVec.ofNat 64 f.a.toNat)) ∧
      (¬bad f.d → ¬bad f.a → bad f.b → Traps i s 0x02 (BitVec.ofNat 64 f.b.toNat))) ∧
    (∀ (f : K3) (i : Instr),
      i ∈ [.clz f, .ctz f, .popc f, .sext f, .zext f, .cgeta f, .cgetb f, .cgett f, .cgetp f, .cgetty f, .ctag f, .cclr f, .cmov f] →
      (bad f.d → Traps i s 0x02 (BitVec.ofNat 64 f.d.toNat)) ∧
      (¬bad f.d → bad f.a → Traps i s 0x02 (BitVec.ofNat 64 f.a.toNat))) ∧
    (∀ (f : KI) (i : Instr),
      i ∈ [.addi f, .andi f, .ori f, .xori f, .shli f, .shri f, .srai f, .rori f, .slti f, .sltui f, .muli f, .ldb f, .ldbu f, .ldh f
        , .ldhu f, .ldw f, .ldwu f, .ldd f, .ldc f, .cinci f, .csetbi f, .jalr f] →
      (bad f.d → Traps i s 0x02 (BitVec.ofNat 64 f.d.toNat)) ∧
      (¬bad f.d → bad f.a → Traps i s 0x02 (BitVec.ofNat 64 f.a.toNat))) ∧
    (∀ (f : KS) (i : Instr), i ∈ [.stb f, .sth f, .stw f, .std f, .stc f] →
      (bad f.value → Traps i s 0x02 (BitVec.ofNat 64 f.value.toNat)) ∧
      (¬bad f.value → bad f.base → Traps i s 0x02 (BitVec.ofNat 64 f.base.toNat)))

/-- 14 R341, R355, R356, R359: the capability instructions that raise no trap. -/
def Obligations.CapabilityFields : Prop :=
  (∀ (f : K3) (s : State), s.kReady [f.d, f.a, f.b] [f.a, f.b] [f.d] →
    let c := s.me.readK f.a
    let b := s.me.readK f.b
    let exact : Int := c.addr.toNat + b.word.toInt
    WritesK (.cinc f) s 4 f.d ⟨c.tag && c.typ == 0 && c.inWindow exact, c.bits.extractLsb' 48 80 ++ BitVec.ofInt 48 exact⟩ ∧
    WritesK (.candp f) s 4 f.d
      ⟨c.tag && c.typ == 0, c.bits &&& (BitVec.allOnes 68 ++ b.bits.extractLsb' 0 12 ++ BitVec.allOnes 48)⟩ ∧
    WritesInt (.csub f) s 4 f.d (BitVec.ofInt 64 (c.addr.toNat - b.addr.toNat)) ∧
    WritesInt (.ceq f) s 4 f.d (if c.tag = b.tag ∧ c.bits = b.bits then 1 else 0)) ∧
  (∀ (f : K3) (s : State), s.kReady [f.d, f.a] [f.a] [f.d] →
    let c := s.me.readK f.a
    WritesInt (.cgeta f) s 4 f.d (BitVec.ofNat 64 c.addr.toNat) ∧
    WritesInt (.cgetb f) s 4 f.d (BitVec.ofInt 64 c.base) ∧
    WritesInt (.cgett f) s 4 f.d (BitVec.ofInt 64 c.top) ∧
    WritesInt (.cgetp f) s 4 f.d (BitVec.ofNat 64 (c.bits.toNat / 2 ^ 48 % 2 ^ 12)) ∧
    WritesInt (.cgetty f) s 4 f.d (BitVec.ofNat 64 (c.bits.toNat / 2 ^ 60 % 2 ^ 4)) ∧
    WritesInt (.ctag f) s 4 f.d (if c.tag then 1 else 0) ∧
    WritesK (.cclr f) s 4 f.d ⟨false, c.bits⟩ ∧
    WritesK (.cmov f) s 4 f.d c) ∧
  ∀ (f : KI) (s : State), s.kReady [f.d, f.a] [f.a] [f.d] →
    let c := s.me.readK f.a
    let exact : Int := c.addr.toNat + f.imm.toInt
    WritesK (.cinci f) s 4 f.d ⟨c.tag && c.typ == 0 && c.inWindow exact, c.bits.extractLsb' 48 80 ++ BitVec.ofInt 48 exact⟩

/-- 14 R357, R359: deriving bounds; the result decodes (R340) to the rounded bounds. -/
def Obligations.SetBounds : Prop :=
  ∀ (s : State) (i : Instr) (d a : BitVec 6) (len : Nat) (exactly : Bool),
    (∃ f : K3, s.kReady [f.d, f.a, f.b] [f.a, f.b] [f.d] ∧ d = f.d ∧ a = f.a ∧ len = (s.me.readW f.b).toNat ∧
      ((i = .csetb f ∧ exactly = false) ∨ (i = .csetbx f ∧ exactly = true))) ∨
    (∃ f : KI, s.kReady [f.d, f.a] [f.a] [f.d] ∧ d = f.d ∧ a = f.a ∧ len = f.imm.toNat ∧ i = .csetbi f ∧ exactly = true) →
    let c := s.me.readK a
    let lo := c.addr.toNat
    let hi := lo + len
    let up := fun (e : Nat) => (hi + 2 ^ e - 1) / 2 ^ e
    let fits := fun (e : Nat) => up e - lo / 2 ^ e ≤ 2 ^ 29 - 1
    (c.tag = false → Traps i s 0x03 (BitVec.ofNat 64 a.toNat)) ∧
    (c.tag = true → c.typ ≠ 0 → Traps i s 0x06 (BitVec.ofNat 64 a.toNat)) ∧
    (c.tag = true → c.typ = 0 → 2 ^ 48 < hi → Traps i s 0x04 (BitVec.ofNat 64 lo)) ∧
    (c.tag = true → c.typ = 0 → hi ≤ 2 ^ 48 → ∀ e, e ≤ 20 → fits e → (∀ k, k < e → ¬fits k) →
      let lo1 : Nat := lo / 2 ^ e * 2 ^ e
      let hi1 : Nat := up e * 2 ^ e
      let bad := (lo1 : Int) < c.base ∨ c.top < (hi1 : Int) ∨ (exactly = true ∧ (lo1 ≠ lo ∨ hi1 ≠ hi))
      (bad → Traps i s 0x04 (BitVec.ofNat 64 lo)) ∧
      (¬bad → ∃ x : KReg, WritesK i s 4 d x ∧ x.tag = true ∧ x.bits.extractLsb' 0 64 = c.bits.extractLsb' 0 64 ∧
        x.exp.toNat = e ∧ x.base = (lo1 : Int) ∧ x.top = (hi1 : Int)))

/-- 14 R358: sealing and unsealing. -/
def Obligations.Sealing : Prop :=
  ∀ (f : K3) (s : State), s.kReady [f.d, f.a, f.b] [f.a, f.b] [f.d] →
    let c := s.me.readK f.a
    let x := s.me.readK f.b
    let na : Word := BitVec.ofNat 64 f.a.toNat
    let nb : Word := BitVec.ofNat 64 f.b.toNat
    let v : Word := BitVec.ofNat 64 c.addr.toNat
    let inside := x.base ≤ (x.addr.toNat : Int) ∧ (x.addr.toNat : Int) < x.top ∧ 1 ≤ x.addr.toNat ∧ x.addr.toNat ≤ 15
    ∀ (i : Instr) (want : Prop) (typ : BitVec 4),
      (i = .cseal f ∧ (want ↔ c.typ = 0) ∧ typ = BitVec.ofNat 4 x.addr.toNat) ∨ (i = .cunseal f ∧ (want ↔ c.typ ≠ 0) ∧ typ = 0) →
      (c.tag = false → Traps i s 0x03 na) ∧
      (c.tag = true → ¬want → Traps i s 0x06 na) ∧
      (c.tag = true → want → x.tag = false → Traps i s 0x03 nb) ∧
      (c.tag = true → want → x.tag = true → x.typ ≠ 0 → Traps i s 0x06 nb) ∧
      (c.tag = true → want → x.tag = true → x.typ = 0 → x.has .seal = false → Traps i s 0x05 nb) ∧
      (c.tag = true → want → x.tag = true → x.typ = 0 → x.has .seal = true →
        ¬inside ∨ (i = .cunseal f ∧ x.addr.toNat ≠ c.typ.toNat) → Traps i s 0x04 v) ∧
      (c.tag = true → want → x.tag = true → x.typ = 0 → x.has .seal = true → inside →
        (i = .cunseal f → x.addr.toNat = c.typ.toNat) →
        WritesK i s 4 f.d ⟨true, c.bits.extractLsb' 64 64 ++ typ ++ c.bits.extractLsb' 0 60⟩)

/-- 10 R245, R248, R249, 02 R35, R39: the put family but MARK of EOS, on a channel and on an ordered output (11 R274, R275, R286). -/
def Obligations.PutsFormTokens : Prop :=
  ∀ (f : K3) (s : State), PutOk s f.b.toNat →
    let p := f.b.toNat
    let x := s.here.port p
    let v : Line := (s.me.readW f.a).setWidth 512
    let rounds := fun (c : Chan) => BitVec.ofNat 16 c.rounds
    let goes := fun (i : Instr) (read : List Nat) (does : State → Prop) =>
      ∃ t, exec i s = .next t ∧ GoesOn s t 4 ∧ ChanFrame s t p read [] ∧ s.sameTlm t ∧ does t
    let open_ := fun (t : State) => (t.here.port p).closed = x.closed
    let c := s.me.readK f.a
    let a := c.addr.toNat
    let line := s.kReady [f.a] [f.a] [] ∧ x.line = true ∧ s.tlmFree ∧ TlmOk s c a 64 [.r]
    let whole := ∀ w ∈ wordsOf a 64, s.here.spoilt w = false
    (∀ id, x.chan = some id → x.ordered = false →
      (s.kReady [f.a] [f.a] [] → x.line = false →
        goes (.put f) [] (fun t => open_ t ∧ TokenPut s t p id .data v rounds []) ∧
        (vmQueued s.me = false →
          goes (.putr f) [] (fun t => open_ t ∧ TokenPut s t p id .data v rounds (releaseAfter s (if toOutlet s x then 4 else 2))))) ∧
      (line → goes (.putl f) (wordsOf a 64) (fun t => open_ t ∧
        (whole → TokenPut s t p id .data (BitVec.ofNat 512 (s.here.number a 64)) rounds []) ∧
        (¬whole → TokenPut s t p id .poison (BitVec.ofNat 512 (s.here.number a 64)) (fun _ => 0) []))) ∧
      (∀ (i : Instr) (k : TokKind),
        (i = .putn f ∧ k = .null) ∨ (s.kReady [f.a] [f.a] [] ∧ ((i = .markNull f ∧ k = .null) ∨ (i = .markPoison f ∧ k = .poison) ∨
          (i = .markRound f ∧ k = .round ∧ (s.here.actor s.me.actor).roundA = false))) →
        goes i [] (fun t => open_ t ∧ TokenPut s t p id k 0 (fun _ => 0) []))) ∧
    (x.ordered = true →
      (s.kReady [f.a] [f.a] [] → x.line = false →
        goes (.put f) [] (fun t => open_ t ∧ OrderedPut s t p .data v) ∧
        (vmQueued s.me = false →
          (releaseAfter s (if toOutlet s x then 4 else 2) ≠ [] → Stalls (.putr f) s) ∧
          (releaseAfter s (if toOutlet s x then 4 else 2) = [] → goes (.putr f) [] (fun t => open_ t ∧ OrderedPut s t p .data v)))) ∧
      (line → goes (.putl f) (wordsOf a 64) (fun t => open_ t ∧
        (whole → OrderedPut s t p .data (BitVec.ofNat 512 (s.here.number a 64))) ∧
        (¬whole → OrderedPut s t p .poison (BitVec.ofNat 512 (s.here.number a 64))))) ∧
      (∀ (i : Instr) (k : TokKind),
        (i = .putn f ∧ k = .null) ∨ (s.kReady [f.a] [f.a] [] ∧ ((i = .markNull f ∧ k = .null) ∨ (i = .markPoison f ∧ k = .poison))) →
        goes i [] (fun t => open_ t ∧ OrderedPut s t p k 0)))

/-- 10 R249: MARK of EOS; MARK of ROUND by a round-aligned actor. On an ordered output (11 R280) the EOS is a stamped message. -/
def Obligations.MarkEndOfStream : Prop :=
  ∀ (f : K3) (s : State), s.kReady [f.a] [f.a] [] →
    let x := s.here.port f.b.toNat
    let st : BitVec 16 := (s.me.readW f.a).setWidth 16
    let n : Word := BitVec.ofNat 64 f.b.toNat
    (PutOk s f.b.toNat →
      (1 ≤ st.toNat → st.toNat ≤ 0xFF → Traps (.markEos f) s 0x0A n) ∧
      ((s.here.actor s.me.actor).roundA = true ∨ x.ordered = true → Traps (.markRound f) s 0x0A n) ∧
      (st.toNat = 0 ∨ 0xFF < st.toNat → x.ordered = true →
        ∃ t, exec (.markEos f) s = .next t ∧ GoesOn s t 4 ∧ ChanFrame s t f.b.toNat [] [] ∧ s.sameTlm t ∧ (t.here.port f.b.toNat).closed = true ∧
          ∃ m h, t.here.inject = s.here.inject ++ [m] ∧ m.kind = .eos ∧ m.payload = st.setWidth 512 ∧ m.ohdr = some h ∧
            h.osn = x.osn ∧ h.stamp = s.stampHere ∧ t.here.lastStamp = h.stamp ∧ h.port = f.b.toNat ∧ (t.here.port f.b.toNat).credits = x.credits) ∧
      (st.toNat = 0 ∨ 0xFF < st.toNat → x.ordered = false → ∀ id, x.chan = some id →
        ∃ t, exec (.markEos f) s = .next t ∧ GoesOn s t 4 ∧ ChanFrame s t f.b.toNat [] [] ∧ s.sameTlm t ∧
          TokenPut s t f.b.toNat id .eos (st.setWidth 512) (fun _ => st) [] ∧ (t.here.port f.b.toNat).closed = true ∧
          (∀ c, s.chan? id = some c → ∃ d, t.chan? id = some d ∧ d.closed = true))) ∧
    (isPrimary s = true → x.declared = true → x.output = true → x.actor = s.me.actor → x.stream = none → x.count ≠ 0 →
      x.closed = true ∨ x.count ≤ doneOf s.me f.b.toNat →
      (x.line = false → Traps (.put f) s 0x0A n ∧ Traps (.putr f) s 0x0A n) ∧ Traps (.putn f) s 0x0A n ∧
      Traps (.markNull f) s 0x0A n ∧ Traps (.markPoison f) s 0x0A n)

/-- 10 R247: taking and peeking; the head after the takes made passes over BANK tokens (02 R36). -/
def Obligations.TakesReadTokens : Prop :=
  (∀ (f : K3) (s : State) (y : QSlot), s.kReady [f.d, f.a] [] [f.d, f.a] → TakeOk s f.b.toNat 0 →
    let x := s.here.port f.b.toNat
    let n := x.headAfter (doneOf s.me f.b.toNat)
    x.line = false → AMap.get? x.q n = some y →
    let v : Word := if y.kind = .data ∨ y.kind = .round then BitVec.ofNat 64 (s.here.number (x.slotAddr n) 8) else 0
    (y.kind = .poison → f.a = 0 → Traps (.take f) s 0x0C (BitVec.ofNat 64 f.b.toNat)) ∧
    (¬(y.kind = .poison ∧ f.a = 0) →
      ∃ t, exec (.take f) s = .next t ∧ GoesOn s t 4 ∧ ChanFrame s t f.b.toNat [] [f.d, f.a] ∧ s.sameTlm t ∧ t.chans = s.chans ∧
        t.here.slots = s.here.slots ∧ t.me.readK f.d = wroteK f.d ⟨false, v.setWidth 128⟩ ∧
        (f.a ≠ f.d → t.me.readK f.a = wroteK f.a ⟨false, (headerWord y).setWidth 128⟩) ∧
        doneOf t.me f.b.toNat = doneOf s.me f.b.toNat + 1)) ∧
  (∀ (f : K3) (s : State) (y : QSlot), s.kReady [f.d] [] [f.d] → TakeOk s f.b.toNat f.a.toNat →
    let x := s.here.port f.b.toNat
    let n := x.headAfter (doneOf s.me f.b.toNat + f.a.toNat)
    AMap.get? x.q n = some y →
    let v : Word := if y.kind = .data ∨ y.kind = .round then (s.here.payload x n).setWidth 64 else 0
    (y.kind = .poison → Traps (.peek f) s 0x0C (BitVec.ofNat 64 f.b.toNat)) ∧
    (y.kind ≠ .poison → WritesInt (.peek f) s 4 f.d v)) ∧
  ∀ (f : K3) (s : State) (y : QSlot), s.kReady [f.d, f.a] [f.a] [f.d] → TakeOk s f.b.toNat 0 → s.tlmFree →
    let x := s.here.port f.b.toNat
    let n := x.headAfter (doneOf s.me f.b.toNat)
    let c := s.me.readK f.a
    let a := c.addr.toNat
    x.line = true → AMap.get? x.q n = some y → TlmOk s c a 64 [.w] →
    ∃ t, exec (.takel f) s = .next t ∧ GoesOn s t 4 ∧ t.chans = s.chans ∧ t.here.slots = s.here.slots ∧ s.sameGmem t ∧
      (∀ q, q ≠ s.cur.tile → t.tile q = s.tile q) ∧ (∀ r, r ≠ f.d → t.me.readK r = s.me.readK r) ∧
      t.me.readK f.d = wroteK f.d ⟨false, (headerWord y).setWidth 128⟩ ∧
      doneOf t.me f.b.toNat = doneOf s.me f.b.toNat + 1 ∧
      (∀ z, z < a ∨ a + 64 ≤ z → Memory.read t.here.tlm z = Memory.read s.here.tlm z) ∧
      (∀ j, j < 64 → Memory.read t.here.tlm (a + j) =
        if y.kind = .null then 0 else Memory.read s.here.tlm (x.slotAddr n + j)) ∧
      (∀ w ∈ wordsOf a 64, t.here.spoilt w = decide (y.kind = .poison))

/-- 10 R250: ROOM and CHST. -/
def Obligations.PortStatus : Prop :=
  ∀ (f : K3) (s : State), s.kReady [f.d] [] [f.d] → isPrimary s = true →
    let p := f.b.toNat
    let x := s.here.port p
    x.declared = true → x.actor = s.me.actor → x.stream = none →
    (∀ (rooms : List Nat) (r : Nat), x.output = true →
      (x.ordered = true ∧ rooms = x.credits) ∨
        (x.ordered = false ∧ ∃ id c, x.chan = some id ∧ s.chan? id = some c ∧ rooms = c.branches.map (·.room)) →
      r ∈ rooms → (∀ q ∈ rooms, r ≤ q) → r ≤ 256 →
      (x.count ≠ 0 → WritesInt (.room f) s 4 f.d (BitVec.ofNat 64 r)) ∧
      WritesInt (.chst f) s 4 f.d (BitVec.ofNat 64
        (2 ^ 24 + doneOf s.me p % 16 * 2 ^ 20 + x.count % 16 * 2 ^ 16 + min 255 r * 2 ^ 8 + if x.closed then 2 ^ 4 else 0))) ∧
    (x.output = false → x.count = 0 → WritesInt (.chst f) s 4 f.d 0) ∧
    (x.output = false → x.count ≠ 0 →
      let h := x.headAfter (doneOf s.me p)
      ∀ avail : Nat, avail ≤ x.depth → (∀ j, j < avail → (AMap.get? x.q (h + j)).isSome = true) →
        (avail < x.depth → AMap.get? x.q (h + avail) = none) →
      let common := doneOf s.me p % 16 * 2 ^ 20 + x.count % 16 * 2 ^ 16 + min 255 avail * 2 ^ 8
      (AMap.get? x.q h = none → WritesInt (.chst f) s 4 f.d (BitVec.ofNat 64 common)) ∧
      (∀ y, AMap.get? x.q h = some y → ∀ e : Bool,
        (e = true ↔ ∃ j z, j < x.count ∧ (∀ m, m < j → (AMap.get? x.q (h + m)).isSome = true) ∧
          AMap.get? x.q (h + j) = some z ∧ z.kind = .eos) →
        WritesInt (.chst f) s 4 f.d (BitVec.ofNat 64 (common + (if e then 2 ^ 4 else 0) + 2 ^ 3 + y.kind.code.toNat))))

/-- 10 R251, R252: the TAG instructions. A wait that a stream or DCOPY in a page wait holds becomes a waiter on the pager (12 R298). -/
def Obligations.CompletionTags : Prop :=
  ∀ (f : K3) (s : State),
    let mask := s.me.readW f.a
    let set := fun i => s.me.tags.getLsbD i = true
    let named := fun i => tagLive s i = true
    let loads := fun i => s.cur.ctx ≠ 0 ∧ gldvNames s i = true
    let free := ∀ i, i < 64 → mask.getLsbD i = true → ¬loads i
    let unpaged := s.cur.ctx = 0 ∨ heldPage s mask = none
    (s.kReady [f.d, f.a] [f.a] [f.d] →
      (∀ i, Lowest mask loads i → Traps (.waitany f) s 0x0B (BitVec.ofNat 64 i)) ∧
      (free → mask ≠ 0 → (∀ i, i < 64 → mask.getLsbD i = true → ¬set i ∧ ¬named i) →
        ∀ i, Lowest mask (fun _ => True) i → Traps (.waitany f) s 0x0B (BitVec.ofNat 64 i)) ∧
      (free → mask = 0 ∨ s.me.tags &&& mask ≠ 0 →
        ∃ t, exec (.waitany f) s = .next t ∧ t.me.readK f.d = wroteK f.d ⟨false, (s.me.tags &&& mask).setWidth 128⟩ ∧
          t.me.tags = s.me.tags ∧ Observed s t (s.me.tags &&& mask) ∧ GoesOn s t 4 ∧ TagFrame s t [f.d]) ∧
      (free → mask ≠ 0 → s.me.tags &&& mask = 0 → (∃ i, i < 64 ∧ mask.getLsbD i = true ∧ named i) → unpaged →
        Stalls (.waitany f) s) ∧
      (∀ i, Lowest mask set i →
        ∃ t, exec (.ffr f) s = .next t ∧ t.me.readK f.d = wroteK f.d ⟨false, BitVec.ofNat 128 i⟩ ∧
          t.me.tags = s.me.tags ∧ Observed s t (1#64 <<< i) ∧ GoesOn s t 4 ∧ TagFrame s t [f.d]) ∧
      (s.me.tags &&& mask = 0 → WritesInt (.ffr f) s 4 f.d 64)) ∧
    (s.kReady [f.a] [f.a] [] →
      (∀ i, Lowest mask loads i → Traps (.waitall f) s 0x0B (BitVec.ofNat 64 i)) ∧
      (free → ∀ i, Lowest mask (fun j => ¬set j ∧ ¬named j) i → Traps (.waitall f) s 0x0B (BitVec.ofNat 64 i)) ∧
      (free → (∀ i, i < 64 → mask.getLsbD i = true → set i) →
        ∃ t, exec (.waitall f) s = .next t ∧ t.me.tags = s.me.tags ∧ Observed s t mask ∧ GoesOn s t 4 ∧ TagFrame s t []) ∧
      (free → (∀ i, i < 64 → mask.getLsbD i = true → set i ∨ named i) → (∃ i, i < 64 ∧ mask.getLsbD i = true ∧ ¬set i) → unpaged →
        Stalls (.waitall f) s) ∧
      (∃ t, exec (.tagclr f) s = .next t ∧ t.me.lates = s.me.lates ∧ GoesOn s t 4 ∧ TagFrame s t [] ∧
        ∀ i, i < 64 → (t.me.tags.getLsbD i = true ↔ set i ∧ ¬(mask.getLsbD i = true ∧ ¬named i)))) ∧
    (s.kReady [f.d] [] [f.d] →
      ∃ t, exec (.tagrd f) s = .next t ∧ t.me.readK f.d = wroteK f.d ⟨false, s.me.tags.setWidth 128⟩ ∧ t.me.tags = s.me.tags ∧
        Observed s t s.me.tags ∧ GoesOn s t 4 ∧ TagFrame s t [f.d])

/-- 10 R253 to R255: the barrier instructions. -/
def Obligations.Barriers : Prop :=
  ∀ (f : K3) (s : State),
    let v := s.me.readW f.a
    let ph : BitVec 32 := BitVec.ofNat 32 (s.me.readW f.b).toNat
    let past := fun (x : BitVec 32) => 1 ≤ (x - ph).toNat ∧ (x - ph).toNat ≤ 2 ^ 31
    let put := fun (m n : Member) => s.here.members.map fun x => if x.group = m.group then n else x
    ((∀ m, ¬MemberOf s v m) →
      (s.kReady [f.d, f.a] [f.a] [f.d] → Traps (.barrive f) s 0x16 v) ∧
      (s.kReady [f.a, f.b] [f.a, f.b] [] → Traps (.barwait f) s 0x16 v) ∧
      (s.kReady [f.d, f.a, f.b] [f.a, f.b] [f.d] → Traps (.bartest f) s 0x16 v) ∧
      (s.kReady [f.a] [f.a] [] → Traps (.barleave f) s 0x16 v)) ∧
    ∀ m, MemberOf s v m →
      (s.kReady [f.d, f.a] [f.a] [f.d] →
        (m.arr ≠ m.rel → Stalls (.barrive f) s) ∧
        (m.arr = m.rel → ¬s.performedWithin 2 → Stalls (.barrive f) s) ∧
        (m.arr = m.rel → s.performedWithin 2 →
          ∃ t, exec (.barrive f) s = .next t ∧ t.me.readK f.d = wroteK f.d ⟨false, m.arr.setWidth 128⟩ ∧
            t.here.members = put m { m with arr := m.arr + 1 } ∧ GoesOn s t 4 ∧ BarFrame s t [f.d])) ∧
      (s.kReady [f.a, f.b] [f.a, f.b] [] →
        (¬past m.arr → Traps (.barwait f) s 0x16 v) ∧
        (past m.arr → past m.rel → PassesOver (.barwait f) s 4) ∧
        (past m.arr → ¬past m.rel → Stalls (.barwait f) s)) ∧
      (s.kReady [f.d, f.a, f.b] [f.a, f.b] [f.d] →
        (¬past m.arr → Traps (.bartest f) s 0x16 v) ∧
        (past m.arr → past m.rel → WritesInt (.bartest f) s 4 f.d 1) ∧
        (past m.arr → ¬past m.rel → WritesInt (.bartest f) s 4 f.d 0)) ∧
      (s.kReady [f.a] [f.a] [] →
        (m.arr ≠ m.rel → ¬s.performedWithin 2 → Stalls (.barleave f) s) ∧
        (m.arr = m.rel ∨ s.performedWithin 2 →
          ∃ t, exec (.barleave f) s = .next t ∧ t.here.members = put m { m with mask := true } ∧ GoesOn s t 4 ∧ BarFrame s t []))

/-- 10 R253, 12 R309, R310: BARRIER_RELEASE. -/
def Obligations.BarrierRelease : Prop :=
  ∀ (g : Nat) (s : State),
    let entry := (AMap.getD s.groupTab g (0, 0)).2
    let ours := fun (x : Tile) => x.slot.resid = entry.extractLsb' 20 12
    let mine := fun (m : Member) => (∃ p ∈ s.tiles, ours p.2 ∧ m ∈ p.2.members) ∧ m.group = g
    let there := fun (m : Member) => m.arr = m.rel + 1
    ((∃ m, mine m ∧ m.mask = false ∧ ¬there m) → exec (.barrierRelease g) s = .next s) ∧
    (entry.getLsbD 63 = true → (∀ m, mine m → m.mask = true ∨ there m) → (∃ m, mine m ∧ there m) →
      ∃ t, exec (.barrierRelease g) s = .next t ∧ t = { s with tiles := t.tiles } ∧
        ∀ k, (ours (s.tile k) → t.tile k = { s.tile k with
            members := (s.tile k).members.map fun m => if m.group = g then { m with rel := m.rel + 1 } else m }) ∧
          (¬ours (s.tile k) → t.tile k = s.tile k))

/-- 15 R365, R366: what every trap of this machine does, through the operation that raises it. -/
def Obligations.TakingATrap : Prop :=
  ∀ (s : State) (code : Byte) (val : Word) (pc : Addr), s.settled → Trapped s (raiseTrap s code val pc) code val pc

/-- 03 R86, R87, 14 R344: the two events of the fetch. -/
def Obligations.IllegalAndFetchTraps : Prop :=
  (∀ (s : State) (w0 : BitVec 32) (w1 : Option (BitVec 32)), s.settled →
    ∃ t, exec (.unusedEncoding w0 w1) s = .next t ∧
      Trapped s t 0x01 (BitVec.ofNat 64 ((w1.getD 0).toNat * 2 ^ 32 + w0.toNat)) s.me.pc) ∧
  (∀ (s : State) (code : Nat) (p : Addr) (w : Option (BitVec 32)), s.settled → code < 256 → code ≠ 0x0D →
    ∃ t, exec (.fetchFault code p w) s = .next t ∧ Trapped s t (BitVec.ofNat 8 code) (BitVec.ofNat 64 p.toNat) s.me.pc) ∧
  (∀ (s : State) (p : Addr) (w : Option (BitVec 32)), s.settled →
    ∃ m t, exec (.fetchFault 0x0D p w) s = .next t ∧ Trapped m t 0x0D (BitVec.ofNat 64 p.toNat) s.me.pc ∧ m.cur = s.cur ∧
      (∀ q, m.here.ctx q = s.here.ctx q) ∧ s.sameTlm m ∧ s.sameGmem m) ∧
  ∀ (s : State) (w0 : BitVec 32) (w1 : Option (BitVec 32)) (d : State),
    d = vecDrain s s.cur.tile s.cur.ctx → d.settled → d.cur = s.cur →
    ∃ t, exec (.unusedEncoding w0 w1) s = .next t ∧
      Trapped d t 0x01 (BitVec.ofNat 64 ((w1.getD 0).toNat * 2 ^ 32 + w0.toNat)) s.me.pc

/-- 10 R266, R267: NOP, FENCE, IFENCE. -/
def Obligations.FencesAndNop : Prop :=
  ∀ (f : K3) (s : State),
    PassesOver (.nop f) s 4 ∧
    (s.performedWithin f.d.toNat → PassesOver (.fence f) s 4) ∧
    (¬s.performedWithin f.d.toNat → Stalls (.fence f) s) ∧
    (vmQueued s.me = true → Stalls (.ifence f) s) ∧
    (vmQueued s.me = false → ∃ t, exec (.ifence f) s = .next t ∧ t.me.stale = [] ∧ GoesOn s t 4 ∧ t = s.setMe t.me ∧
      s.me.onlyScalar { t.me with stale := s.me.stale } ∧ (∀ r, t.me.readK r = s.me.readK r) ∧ s.sameTlm t ∧ s.sameGmem t)

/-- 15 R362, R363, R370: MFS. -/
def Obligations.SystemRegisterReads : Prop :=
  ∀ (f : KI) (s : State), s.kReady [f.d] [] [f.d] →
    let n := f.imm.toNat
    let t := s.here
    let gives := fun (k : Nat) (v : Word) => n = k → (k = 3 → s.me.vq = []) → WritesInt (.mfs f) s 4 f.d v
    gives 0x000 (BitVec.ofNat 64 (s.cur.ctx % 16)) ∧ gives 0x001 (s.tileWord s.cur.tile) ∧
    gives 0x002 (BitVec.ofNat 64 (s.timeOf s.cur.tile)) ∧ gives 0x003 s.me.fpc ∧ gives 0x004 s.me.tags ∧
    gives 0x005 (BitVec.ofNat 64 s.me.vqw.toNat) ∧ gives 0x006 (BitVec.ofNat 64 t.slot.resid.toNat) ∧
    gives 0x010 (accStat t) ∧ gives 0x011 t.streamPos ∧ gives 0x012 (BitVec.ofNat 64 (s.fuses.gcount % 2 ^ 16)) ∧
    gives 0x013 t.owmTimeout ∧ gives 0x014 (s.resOf t.slot.handle).wdog ∧
    (n = 3 → s.me.vq ≠ [] → Stalls (.mfs f) s) ∧
    (s.cur.ctx = 0 →
      gives 0x00B (BitVec.ofNat 64 (t.trapvec.toNat * 4)) ∧
      gives 0x00C (BitVec.ofNat 64 (t.fsel % 16 * 2 ^ 12 + (if t.nest then 2 ^ 11 else 0) + t.pend.toNat)) ∧
      gives 0x00D t.preemptWord ∧
      (t.fsel = 0 ∨ (t.ctx t.fsel).mode = .trapped →
        gives 0x008 (t.ctx t.fsel).cause ∧ gives 0x009 (t.ctx t.fsel).trappc ∧ gives 0x00A (t.ctx t.fsel).trapval) ∧
      (t.fsel ≠ 0 → (t.ctx t.fsel).mode = .trapped → ∀ r : Nat, r < 64 →
        gives (0x400 + 3 * r) ((t.ctx t.fsel).readK (BitVec.ofNat 6 r)).word ∧
        gives (0x400 + 3 * r + 1) (((t.ctx t.fsel).readK (BitVec.ofNat 6 r)).bits.extractLsb' 64 64) ∧
        gives (0x400 + 3 * r + 2) (if ((t.ctx t.fsel).readK (BitVec.ofNat 6 r)).tag then 1 else 0)) ∧
      (t.fsel ≠ 0 → (t.ctx t.fsel).mode = .trapped → ∀ v j : Nat, v < 32 → j < 8 →
        gives (0x400 + 0xC0 + 8 * v + j) (((t.ctx t.fsel).readV v).extractLsb' (64 * j) 64)) ∧
      (t.fsel ≠ 0 → (t.ctx t.fsel).mode ≠ .trapped → (t.ctx t.fsel).halted = false → ∀ j : Nat, j < 0x400 →
        gives (0x400 + j) 0) ∧
      (t.fsel = 0 → ∀ j : Nat, j < 0x400 → (j < 0x1C8 ∨ 0x1CA < j) → gives (0x400 + j) 0)) ∧
    (s.cur.ctx ≠ 0 → n ∉ [0, 1, 2, 3, 4, 5, 6, 0x010, 0x011, 0x012, 0x013, 0x014] → Traps (.mfs f) s 0x01 (wordsVal (.mfs f))) ∧
    (n ∉ [0, 1, 2, 3, 4, 5, 6, 8, 9, 0x00A, 0x00B, 0x00C, 0x00D, 0x010, 0x011, 0x012, 0x013, 0x014] → n < 0x400 ∨ 0x800 ≤ n →
      Traps (.mfs f) s 0x01 (wordsVal (.mfs f)))

/-- 15 R362, R370: MTS. -/
def Obligations.SystemRegisterWrites : Prop :=
  ∀ (f : KI) (s : State), s.kReady [f.a] [f.a] [] →
    let n := f.imm.toNat
    let v := s.me.readW f.a
    let own := fun (t : State) (c : Ctx) => t = s.setMe t.me ∧ s.me.onlyScalar { t.me with fpc := s.me.fpc, vqw := s.me.vqw } ∧
      t.me.fpc = c.fpc ∧ t.me.vqw = c.vqw ∧ (∀ r, t.me.readK r = s.me.readK r) ∧ GoesOn s t 4
    let tile := fun (t : State) (x : Tile) => t = (s.setHere x).setMe t.me ∧ s.me.onlyScalar t.me ∧
      (∀ r, t.me.readK r = s.me.readK r) ∧ GoesOn s t 4
    (n ∈ [0, 1, 2, 4, 6, 0x012] → PassesOver (.mts f) s 4) ∧
    (n = 3 → s.me.vq ≠ [] → Stalls (.mts f) s) ∧
    (n = 3 → s.me.vq = [] → ∃ t fpc, exec (.mts f) s = .next t ∧ own t { s.me with fpc := fpc } ∧
      fpcDaz fpc = v.getLsbD 10 ∧ fpcFtz fpc = v.getLsbD 9 ∧ fpcFlags fpc = v.extractLsb' 0 5 ∧
      fpcRm fpc = (if (v.extractLsb' 5 3).toNat ∈ [0, 6, 7] then fpcRm s.me.fpc else v.extractLsb' 5 3) ∧
      fpc.toNat < 2 ^ 11 ∧ fpc.getLsbD 8 = false) ∧
    (n = 5 → ∃ t, exec (.mts f) s = .next t ∧
      own t { s.me with vqw := if v.toNat % 16 = 0 then s.me.vqw else BitVec.ofNat 4 (v.toNat % 16) }) ∧
    (n = 0x011 → ∃ t, exec (.mts f) s = .next t ∧ tile t { s.here with streamSel := v.extractLsb' 56 3 }) ∧
    (n = 0x010 → ∃ t, exec (.mts f) s = .next t ∧ tile t { s.here with accs := t.here.accs } ∧ ∀ g, g < 4 →
      let a := s.here.acc g
      let b := v.extractLsb' (16 * g) 16
      t.here.acc g = { a with
        rsh := a.rsh && !b.getLsbD 10, nan := a.nan && !b.getLsbD 9, inf := a.inf && !b.getLsbD 8, rof := a.rof && !b.getLsbD 7
        ruf := a.ruf && !b.getLsbD 6, rnx := a.rnx && !b.getLsbD 5, part := a.part && !b.getLsbD 4 }) ∧
    (s.cur.ctx ≠ 0 →
      (n = 0x013 ∨ n = 0x014 → PassesOver (.mts f) s 4) ∧
      (n ∉ [0, 1, 2, 3, 4, 5, 6, 0x010, 0x011, 0x012, 0x013, 0x014] → Traps (.mts f) s 0x01 (wordsVal (.mts f)))) ∧
    (s.cur.ctx = 0 →
      (n = 0x00B → ∃ t, exec (.mts f) s = .next t ∧ tile t { s.here with trapvec := v.extractLsb' 2 20 }) ∧
      (n = 0x00C → 10 < v.toNat / 2 ^ 12 % 16 → PassesOver (.mts f) s 4) ∧
      (n = 0x00C → v.toNat / 2 ^ 12 % 16 ≤ 10 → ∃ t, exec (.mts f) s = .next t ∧ tile t { s.here with fsel := v.toNat / 2 ^ 12 % 16 }) ∧
      (n = 0x013 → ∃ t, exec (.mts f) s = .next t ∧ tile t { s.here with owmTimeout := BitVec.ofNat 64 (v.toNat % 2 ^ 32) }) ∧
      (n = 0x014 → s.here.slot.state ≠ .empty → ∃ t, exec (.mts f) s = .next t ∧ GoesOn s t 4 ∧
        (let old := s.resOf s.here.slot.handle
         let new := t.resOf s.here.slot.handle
         new = { old with wdEn := v.getLsbD 63, wdFired := old.wdFired && !v.getLsbD 62, wdTicks := v.extractLsb' 0 32 })) ∧
      (s.here.fsel = 0 ∨ (s.here.ctx s.here.fsel).mode = .trapped →
        (n = 8 → ∃ t, exec (.mts f) s = .next t ∧ (t.here.ctx s.here.fsel).cause = v &&& 0x1FF ∧ GoesOn s t 4) ∧
        (n = 9 → ∃ t, exec (.mts f) s = .next t ∧ (t.here.ctx s.here.fsel).trappc = v &&& 0xFFFFFFFFFFFF ∧ GoesOn s t 4) ∧
        (n = 0x00A → ∃ t, exec (.mts f) s = .next t ∧ (t.here.ctx s.here.fsel).trapval = v ∧ GoesOn s t 4)) ∧
      (s.here.fsel ≠ 0 → (s.here.ctx s.here.fsel).mode = .trapped → ∀ r : Nat, 0 < r → r < 64 →
        let old := (s.here.ctx s.here.fsel).readK (BitVec.ofNat 6 r)
        ∀ x : KReg, (n = 0x400 + 3 * r ∧ x = ⟨old.tag, old.bits.extractLsb' 64 64 ++ v⟩) ∨
            (n = 0x400 + 3 * r + 1 ∧ x = ⟨old.tag, v ++ old.bits.extractLsb' 0 64⟩) ∨
            (n = 0x400 + 3 * r + 2 ∧ x = ⟨v.getLsbD 0, old.bits⟩) →
          ∃ t, exec (.mts f) s = .next t ∧ (t.here.ctx s.here.fsel).readK (BitVec.ofNat 6 r) = x ∧ GoesOn s t 4 ∧
            (∀ q, q ≠ BitVec.ofNat 6 r → (t.here.ctx s.here.fsel).readK q = (s.here.ctx s.here.fsel).readK q) ∧
            s.sameTlm t ∧ s.sameGmem t) ∧
      (n ∉ [0, 1, 2, 3, 4, 5, 6, 8, 9, 0x00A, 0x00B, 0x00C, 0x00D, 0x010, 0x011, 0x012, 0x013, 0x014] → n < 0x400 ∨ 0x800 ≤ n →
        Traps (.mts f) s 0x01 (wordsVal (.mts f))))

/-- 15 R364, R368: TRAP and BRK; the instruction completes, then its trap is taken. -/
def Obligations.CallsAndBreaks : Prop :=
  (∀ (f : K3) (s : State) (i : Instr) (code : Byte) (val : Word),
    (i = .trapI f ∧ code = 0x1A ∧ val = 0) ∨ (i = .brk f ∧ code = 0x1B ∧ val = BitVec.ofNat 64 f.d.toNat) →
    (s.me.inRep = true → Traps i s 0x01 (wordsVal i)) ∧
    (s.me.inRep = false → s.cur.ctx ≠ 0 → s.settled →
      ∃ m t, GoesOn s m 4 ∧ ScalarFrame s m [] ∧ exec i s = .next t ∧ Trapped m t code val m.me.pc)) ∧
  (∀ (f : K3) (s : State), s.me.inRep = false → s.cur.ctx = 0 →
    PassesOver (.trapI f) s 4 ∧
    ∃ t, exec (.brk f) s = .next t ∧ t.here.brk = true ∧ GoesOn s t 4 ∧ s.me.onlyScalar t.me ∧
      (∀ r, t.me.readK r = s.me.readK r) ∧ t.here = { s.here with brk := true, ctxs := t.here.ctxs } ∧ t = s.setHere t.here ∧
      canIssue t.here 0 = false) ∧
  ∀ (k : Nat) (s : State), ∃ t, exec (.brkRelease k) s = .next t ∧ t.tile k = { s.tile k with brk := false } ∧
    (∀ q, q ≠ k → t.tile q = s.tile q) ∧ t = { s with tiles := t.tiles }

/-- 15 R369: ERET. -/
def Obligations.ReturnFromTrap : Prop :=
  ∀ (f : K3) (s : State),
    let v := s.me.readW f.a
    let n := v.toNat % 16
    (f.a ≠ 0 → s.me.regs ≤ f.a.toNat → Traps (.eret f) s 0x02 (BitVec.ofNat 64 f.a.toNat)) ∧
    (s.cur.ctx ≠ 0 → s.kReady [f.a] [f.a] [] → Traps (.eret f) s 0x01 (wordsVal (.eret f))) ∧
    (s.cur.ctx = 0 → s.kReady [f.a] [f.a] [] →
      (s.me.inRep = true → Traps (.eret f) s 0x01 (wordsVal (.eret f))) ∧
      (s.me.inRep = false →
        (32 ≤ v.toNat ∨ 10 < n ∨ (n ≠ 0 ∧ s.here.pend.getLsbD n = false) → PassesOver (.eret f) s 4) ∧
        (v.toNat < 32 → n = 0 → s.here.pend = 0 →
          ∃ t, exec (.eret f) s = .next t ∧ t.here.nest = false ∧ t.me.pc = s.me.trappc.setWidth 48 ∧
            t.me.pcc.tag = s.me.pcc.tag ∧ t.me.pcc.bits.extractLsb' 48 80 = s.me.pcc.bits.extractLsb' 48 80 ∧
            s.me.onlyScalar t.me ∧ (∀ r, t.me.readK r = s.me.readK r) ∧ t.me.loop0 = s.me.loop0 ∧ t.me.loop1 = s.me.loop1 ∧
            t.here = { s.here with nest := false, ctxs := t.here.ctxs } ∧ t = s.setHere t.here) ∧
        (v.toNat < 32 → n = 0 → s.here.pend ≠ 0 →
          ∃ t, exec (.eret f) s = .next t ∧ t.here.nest = true ∧ s.here.pend.getLsbD t.here.fsel = true ∧
            (∀ j, j < t.here.fsel → s.here.pend.getLsbD j = false) ∧ t.me.cause = 0 ∧
            t.me.trappc = BitVec.ofNat 64 (s.me.trappc.toNat % 2 ^ 48) ∧ t.me.pc = BitVec.ofNat 48 (s.here.trapvec.toNat * 4) ∧
            (∀ r, t.me.readK r = s.me.readK r) ∧ t = s.setHere t.here) ∧
        (v.toNat < 32 → 1 ≤ n → n ≤ 10 → s.here.pend.getLsbD n = true →
          (v.getLsbD 4 = false → s.heldCtx s.cur.tile (s.here.ctx n) = false ∨ (s.here.ctx n).settled →
            ∃ t, exec (.eret f) s = .next t ∧ GoesOn s t 4 ∧ t.here.pend = s.here.pend &&& ~~~(1#11 <<< n) ∧
              (let c := { s.here.ctx n with mode := .running, stalled := false }
               let stopped : Ctx := { c with halted := true, cause := 0x18, trappc := BitVec.ofNat 64 c.pc.toNat, trapval := 0 }
               (s.here.preReq = true → t.here.ctx n = stopped) ∧
               (s.here.preReq = false → s.heldCtx s.cur.tile (s.here.ctx n) = true → t.here.ctx n = { stopped with startAt := none }) ∧
               (s.here.preReq = false → s.heldCtx s.cur.tile (s.here.ctx n) = false → t.here.ctx n = { c with halted := false })) ∧
              (∀ q, q ≠ 0 → q ≠ n → t.here.ctx q = s.here.ctx q) ∧ s.me.onlyScalar t.me ∧ (∀ r, t.me.readK r = s.me.readK r) ∧
              t.here = { s.here with pend := t.here.pend, ctxs := t.here.ctxs } ∧ t = s.setHere t.here) ∧
          (v.getLsbD 4 = true →
            ∃ t, exec (.eret f) s = .next t ∧ GoesOn s t 4 ∧ t.here.pend = s.here.pend &&& ~~~(1#11 <<< n) ∧
              (t.here.ctx n).mode = .free ∧ (∀ q, q ≠ 0 → q ≠ n → t.here.ctx q = s.here.ctx q) ∧
              (t.resOf s.here.slot.handle).abortAsked = true ∧ (∀ r, t.me.readK r = s.me.readK r) ∧
              t.here = { s.here with pend := t.here.pend, ctxs := t.here.ctxs } ∧ s.sameGmem t))))

/-- 12 R294, R302: DONE and RETIRE. What DONE's drain waits for is the model's reading, log entry 17. -/
def Obligations.HelpersAndTeamsEnd : Prop :=
  (∀ (f : K3) (s : State),
    (s.cur.ctx = 0 ∨ s.me.role = .team → Traps (.doneI f) s 0x01 (wordsVal (.doneI f))) ∧
    (s.cur.ctx ≠ 0 → s.me.role ≠ .team → s.me.inRep = true → Traps (.doneI f) s 0x01 (wordsVal (.doneI f))) ∧
    (s.cur.ctx ≠ 0 → s.me.role ≠ .team → s.me.inRep = false →
      ((∃ w ∈ s.me.wins, w.arrived = false) → Stalls (.doneI f) s) ∧
      ((∃ p ∈ s.here.reqs, p.2.task = s.me.task ∧ p.2.op.stores = false ∧ p.2.seq = none) → Stalls (.doneI f) s) ∧
      ((∀ w ∈ s.me.wins, w.arrived = true) →
        (∀ p ∈ s.here.reqs, p.2.task = s.me.task → p.2.op.stores = true ∨ p.2.seq ≠ none) →
        (∀ p ∈ s.sweeps, p.2.tile = s.cur.tile → p.2.task ≠ s.me.task) →
        ∀ d, d = vecDrain s s.cur.tile s.cur.ctx → d.cur = s.cur → d.settled → (∀ w ∈ d.me.wins, w.fail = 0) →
          (∀ l ∈ d.me.lates, l.atDone = false) →
          ∃ t, exec (.doneI f) s = .next t ∧
            t.me = { Ctx.init with mxq := d.me.mxq, dmq := d.me.dmq, lcq := d.me.lcq } ∧
            (∀ q, q ≠ s.cur.ctx → t.here.ctx q = d.here.ctx q) ∧
            (t.here.actor d.me.actor).live = (d.here.actor d.me.actor).live.map (fun fr => { fr with
              tasks := fr.tasks.filter (· ≠ d.me.task), donec := if fr.primary = d.me.task then d.me.donec else fr.donec }) ∧
            (t.resOf d.here.slot.handle).err.flags = (d.resOf d.here.slot.handle).err.flags ||| d.me.fpc.extractLsb' 0 5 ∧
            d.sameTlm t ∧ d.sameGmem t))) ∧
  (∀ s : State, s.settled → vecDrain s s.cur.tile s.cur.ctx = s) ∧
  ∀ (f : K3) (s : State),
    (s.cur.ctx = 0 ∨ s.me.role ≠ .team → Traps (.retireI f) s 0x01 (wordsVal (.retireI f))) ∧
    (s.cur.ctx ≠ 0 → s.me.role = .team → s.me.inRep = false → s.settled → (∀ w ∈ s.me.wins, w.arrived = true ∧ w.fail = 0) →
      (∀ l ∈ s.me.lates, l.atDone = false) →
      (∀ p ∈ s.here.reqs, p.2.task = s.me.task → p.2.op ≠ .retireOr → p.2.tag = none ∧ p.2.op.stores = true ∧ 2 < homeScope s p.2.pa) →
      (∀ e ∈ s.here.engCmds, e.task ≠ s.me.task) → (∀ p ∈ s.here.accs, ∀ x, p.2.waiter = some x → x.1 ≠ s.me.task) →
      (∀ p ∈ s.here.slot.streams, ∀ x, p.2.go = some x → x.1 ≠ s.me.task) →
      ∀ x w n, AMap.get? s.here.sweepSlots s.me.sweepSlot = some x → x.sweep = n → AMap.get? s.sweeps n = some w →
        ((∀ p ∈ s.here.reqs, p.2.task = s.me.task → p.2.op ≠ .retireOr) →
          ∃ t q, exec (.retireI f) s = .next t ∧ AMap.get? t.here.reqs s.here.nextOp = some q ∧ q.op = .retireOr ∧
            q.task = s.me.task ∧ q.va = w.sbva + BitVec.ofNat 48 (64 + s.me.team / 8) ∧ q.n = 1 ∧
            q.data = BitVec.ofNat 64 (2 ^ (s.me.team % 8)) ∧ q.performed = false ∧ t.me.pcc = s.me.pcc ∧ t.me.mode = s.me.mode ∧
            t.me.stalled = true ∧ s.sameTlm t ∧ s.sameGmem t) ∧
        (∀ id q, s.here.reqs.find? (fun p => p.2.task == s.me.task && decide (p.2.op = .retireOr)) = some (id, q) →
          q.reply = some .ack →
          ∃ t, exec (.retireI f) s = .next t ∧ t.me.mode = .free ∧ AMap.get? t.here.reqs id = none ∧
            (∃ y, AMap.get? t.here.sweepSlots s.me.sweepSlot = some y ∧ y.running = x.running.erase s.me.team ∧ y.left = x.left - 1 ∧
              y.counts = x.counts ∧ y.released = x.released) ∧
            (∃ v, AMap.get? t.sweeps n = some v ∧ ∀ u, u ∈ v.notices ↔ u ∈ w.notices ∨ ∃ j, j < recVecs (recW w.record 0) ∧
              teamLin (recW w.record 0) ((List.range 3).map fun k =>
                ((nthD (teamIdx (recW w.record 0) s.me.team) k 0 : Nat) : Int) + recComp (recW w.record 1) j k) = some u) ∧
            (∀ q, q ≠ s.cur.ctx → t.here.ctx q = s.here.ctx q) ∧ s.sameTlm t ∧ s.sameGmem t))

/-- 12 R293: START. That the lowest free helper is taken is the model's choice, log entry 35. -/
def Obligations.StartChecksAndStarts : Prop :=
  ∀ (f : K3) (s : State), s.kReady [f.a, f.b] [f.a, f.b] [] → s.me.inRep = false →
    let ka := s.me.readK f.a
    let v := ka.addr.setWidth 64
    let t0 := s.here
    let ax := t0.actor s.me.actor
    let primary := s.cur.ctx ≠ 0 ∧ s.me.role = .primary ∧ ∃ fr, ax.live = some fr ∧ fr.primary = s.me.task
    let ok4 := ka.has .x = true ∧ ka.has .tlm = true
    let pass := ka.tag = true ∧ ka.typ = 0 ∧ ok4 ∧ ka.addr.toNat % 4 = 0 ∧ (ka.addr.toNat : Int) + 4 ≤ ka.top ∧ s.me.starts < ax.help
    (¬primary → Traps (.startI f) s 0x0A 0) ∧
    (primary →
      (ka.tag = false → Traps (.startI f) s 0x03 v) ∧
      (ka.tag = true → ka.typ ≠ 0 → Traps (.startI f) s 0x06 v) ∧
      (ka.tag = true → ka.typ = 0 → ¬ok4 → Traps (.startI f) s 0x05 v) ∧
      (ka.tag = true → ka.typ = 0 → ok4 → ka.addr.toNat % 4 ≠ 0 → Traps (.startI f) s 0x07 v) ∧
      (ka.tag = true → ka.typ = 0 → ok4 → ka.addr.toNat % 4 = 0 → ka.top < (ka.addr.toNat : Int) + 4 → Traps (.startI f) s 0x04 v) ∧
      (ka.tag = true → ka.typ = 0 → ok4 → ka.addr.toNat % 4 = 0 → (ka.addr.toNat : Int) + 4 ≤ ka.top → ax.help ≤ s.me.starts →
        Traps (.startI f) s 0x17 0x150) ∧
      (pass → vmQueued s.me = true ∨ putrDue s = true → Stalls (.startI f) s) ∧
      (pass → vmQueued s.me = false → putrDue s = false → s.me.startAt = none → s.me.mode ≠ .free →
        (∀ h, t0.preReq = false → (∀ p ∈ t0.ctxs, p.2.startAt = none) → 1 ≤ h → h ≤ 10 → (t0.ctx h).mode = .free →
          (∀ j, 1 ≤ j → j < h → (t0.ctx j).mode ≠ .free) →
          ∃ t, exec (.startI f) s = .next t ∧ GoesOn s t 4 ∧ t.me.starts = s.me.starts + 1 ∧ (∀ r, t.me.readK r = s.me.readK r) ∧
            (let c := t.here.ctx h
             c.mode = .running ∧ c.role = .started ∧ c.actor = s.me.actor ∧ c.task = t0.nextTask ∧ c.regs = ax.regs ∧ c.pcc = ka ∧
             (∀ i, i < 7 → c.readK (BitVec.ofNat 6 (i + 1)) = nthD s.me.fireK i KReg.zero) ∧ c.readK 8 = s.me.readK f.b ∧
             (∀ r : BitVec 6, 8 < r.toNat → c.readK r = KReg.zero) ∧ (∀ r, c.readV r = 0) ∧ (∀ r, r ≠ 0 → c.readM r = 0) ∧
             c.tags = 0 ∧ c.fpc = 0x20) ∧
            t.here.nextTask = t0.nextTask + 1 ∧
            (t.here.actor s.me.actor).live = ax.live.map (fun fr => { fr with
              tasks := fr.tasks ++ [t0.nextTask], starts := fr.starts + 1 }) ∧
            (∀ q, q ≠ s.cur.ctx → q ≠ h → t.here.ctx q = t0.ctx q) ∧ (∀ q, q ≠ s.cur.tile → t.tile q = s.tile q) ∧
            s.sameTlm t ∧ s.sameGmem t) ∧
        (t0.preReq = true ∨ (∃ p ∈ t0.ctxs, p.2.startAt ≠ none) ∨ (∀ j, 1 ≤ j → j ≤ 10 → (t0.ctx j).mode ≠ .free) →
          ∃ t, exec (.startI f) s = .next t ∧
            t.me = { s.me with startAt := some (t0.nextStart, ka, s.me.readK f.b), stalled := true } ∧
            t.here.nextStart = t0.nextStart + 1 ∧ (∀ q, q ≠ s.cur.ctx → t.here.ctx q = t0.ctx q) ∧ s.sameTlm t ∧ s.sameGmem t)))

/-- 12 R289, R290, R298: the dispatcher. -/
def Obligations.DispatcherChoices : Prop :=
  ∀ (k h : Nat) (s : State),
    let t0 := s.tile k
    ((t0.ctx h).mode ≠ .free → exec (.dispatch k h) s = .next s) ∧
    (1 ≤ h → h ≤ 10 → (t0.ctx h).mode = .free → t0.preReq = false → t0.alive = true →
      (∀ c o ka kb, c ≠ h → (t0.ctx c).startAt = some (o, ka, kb) → (c, t0.ctx c) ∈ t0.ctxs →
        (∀ p ∈ t0.ctxs, ∀ x, p.2.startAt = some x → p.1 ≠ c → o < x.1) → (∀ p ∈ t0.ctxs, p.1 = c → p.2 = t0.ctx c) →
        ∃ t, exec (.dispatch k h) s = .next t ∧ ((t.tile k).ctx h).mode = .running ∧ ((t.tile k).ctx h).role = .started ∧
          ((t.tile k).ctx h).pcc = ka ∧ ((t.tile k).ctx h).readK 8 = kb ∧ ((t.tile k).ctx c).startAt = none ∧
          ((t.tile k).ctx c).starts = (t0.ctx c).starts + 1 ∧
          (∀ q, q ≠ c → q ≠ h → (t.tile k).ctx q = t0.ctx q) ∧ (∀ q, q ≠ k → t.tile q = s.tile q) ∧ s.sameTlm t ∧ s.sameGmem t) ∧
      ((∀ p ∈ t0.ctxs, p.2.startAt = none) →
        (∀ i w, t0.waiters[i]? = some w → s.heldCtx k w.ctx = false →
            (∃ n, w.ready = some n ∧ ∀ j u m, t0.waiters[j]? = some u → s.heldCtx k u.ctx = false → u.ready = some m → j ≠ i → n < m) →
          (w.denied = false → ∃ t, exec (.dispatch k h) s = .next t ∧
            (t.tile k).ctx h = { w.ctx with mode := .running, mxq := (t0.ctx h).mxq, dmq := (t0.ctx h).dmq, lcq := (t0.ctx h).lcq } ∧
            (t.tile k).waiters = t0.waiters.eraseIdx i ∧ (∀ q, q ≠ h → (t.tile k).ctx q = t0.ctx q) ∧
            (∀ q, q ≠ k → t.tile q = s.tile q) ∧ s.sameTlm t ∧ s.sameGmem t) ∧
          (w.denied = true → ∃ m t, exec (.dispatch k h) s = .next t ∧ (m.tile k).waiters = t0.waiters.eraseIdx i ∧
            ((m.tile k).ctx h).pcc = w.ctx.pcc ∧ HelperTrapped m t k h 0x09 (w.va.setWidth 64) w.ctx.pc)) ∧
        ((∀ w ∈ t0.waiters, w.ready = none ∨ s.heldCtx k w.ctx = true) →
          ((∀ i, i < 12 → isCandidate s k i = false) → exec (.dispatch k h) s = .next s) ∧
          ∀ i, Chosen s k i →
            (i < 8 → ∀ kind entry step, actorFiring s k i = some (kind, entry, step) →
              ∃ t fr, exec (.dispatch k h) s = .next t ∧
                (let c := (t.tile k).ctx h
                 c.mode = .running ∧ c.role = .primary ∧ c.actor = i ∧ c.task = t0.nextTask ∧ c.pc = entry ∧
                 c.regs = (t0.actor i).regs ∧ c.readK 4 = KReg.int (BitVec.ofNat 64 (t0.actor i).firings) ∧
                 c.readK 5 = KReg.int (s.tileWord k) ∧ c.readK 6 = KReg.zero ∧
                 (c.readK 2).addr = BitVec.ofNat 48 (t0.actor i).stOff ∧ (c.readK 7).addr = BitVec.ofNat 48 (t0.actor i).scOff ∧
                 (∀ r : BitVec 6, 7 < r.toNat → c.readK r = KReg.zero) ∧ c.tags = 0 ∧ c.fpc = 0x20) ∧
                ((t.tile k).actor i).live = some fr ∧ fr.kind = kind ∧ fr.index = (t0.actor i).firings ∧ fr.primary = t0.nextTask ∧
                fr.tasks = [t0.nextTask] ∧ ((t.tile k).actor i).pend = step ∧ (t.tile k).nextTask = t0.nextTask + 1 ∧
                (t.tile k).ring = i ∧ candPass (t.tile k) i = 0 ∧
                (∀ j, j < 12 → j ≠ i → candPass (t.tile k) j =
                  if isCandidate s k j then min 16 (candPass t0 j + 1) else candPass t0 j) ∧
                (∀ q, q ≠ h → (t.tile k).ctx q = t0.ctx q) ∧ (∀ q, q ≠ k → t.tile q = s.tile q) ∧ s.sameTlm t ∧ s.sameGmem t) ∧
            (8 ≤ i → ∀ x w team rest, teamReady s k (i - 8) = some (x, w) → x.released = team :: rest →
              ∃ t y, exec (.dispatch k h) s = .next t ∧
                (let c := (t.tile k).ctx h
                 c.mode = .running ∧ c.role = .team ∧ c.actor = w.actor ∧ c.sweepSlot = i - 8 ∧ c.team = team ∧ c.pc = recBody w.record ∧
                 c.regs = w.regs ∧ c.readK 2 = w.k2 ∧ c.readK 3 = w.param ∧ c.readK 4 = KReg.int (BitVec.ofNat 64 team) ∧
                 c.readK 5 = KReg.int (s.tileWord k) ∧ c.readK 7 = w.k7) ∧
                AMap.get? (t.tile k).sweepSlots (i - 8) = some y ∧ y.released = rest ∧ y.running = x.running ++ [team] ∧
                y.counts = x.counts ∧ y.left = x.left ∧ (t.tile k).ring = i ∧ candPass (t.tile k) i = 0 ∧
                (∀ j, j < 12 → j ≠ i → candPass (t.tile k) j =
                  if isCandidate s k j then min 16 (candPass t0 j + 1) else candPass t0 j) ∧
                (∀ q, q ≠ h → (t.tile k).ctx q = t0.ctx q) ∧ s.sameTlm t ∧ s.sameGmem t))))

/-- 02 R45 to R49, R52: the hardware's own steps. -/
def Obligations.FiringsAndPunctuation : Prop :=
  let quiet := fun (s t : State) => s.sameTlm t ∧ s.sameGmem t ∧ ∀ q n, (t.tile q).ctx n = (s.tile q).ctx n
  let puts := fun (s t : State) (k a : Nat) (goes : Chan → Chan → Port → Prop) =>
    ∀ p o n c, (s.tile k).outputs a = [(p, o)] → o.closed = false → o.ordered = false → ((s.tile k).port p).chan = some n →
      s.chan? n = some c → ∃ d, t.chan? n = some d ∧ goes c d o
  let eats := fun (s t : State) (k a : Nat) (n : Nat → Port → Nat) =>
    ∀ p y, (s.tile k).counted a = [(p, y)] → (s.tile k).port p = y → ((t.tile k).port p).h = n p y
  let tail := fun (c d : Chan) (kind : TokKind) (st : BitVec 16) => ∃ tok : Token, tok.kind = kind ∧ tok.round = st ∧
    tok.seq = c.seq ∧ tok.resid = c.resid ∧ ∀ b, c.branches = [b] → d.branches.map (·.flights) = [b.flights ++ [{ tok := tok, after := [] }]]
  (∀ (k a : Nat) (s : State),
    let x := (s.tile k).actor a
    (actorTodo s k a ≠ some .nullPass → exec (.nullPassFiring k a) s = .next s) ∧
    (actorTodo s k a = some .nullPass → ∃ t, exec (.nullPassFiring k a) s = .next t ∧
      ((t.tile k).actor a).firings = x.firings + 1 ∧ ((t.tile k).actor a).fired = true ∧ ((t.tile k).actor a).live = none ∧
      eats s t k a (fun _ y => y.headAfter y.count) ∧ puts s t k a (fun c d o => d.seq = c.seq + o.count ∧ d.rounds = c.rounds) ∧
      quiet s t) ∧
    (x.live = none → exec (.firingEnd k a) s = .next s) ∧
    ∀ fr, x.live = some fr →
      (fr.tasks ≠ [] ∨ firingBusy s k a = true → exec (.firingEnd k a) s = .next s) ∧
      (fr.tasks = [] → firingBusy s k a = false → ∃ t, exec (.firingEnd k a) s = .next t ∧
        ((t.tile k).actor a).live = none ∧ ((t.tile k).actor a).firings = x.firings + 1 ∧ ((t.tile k).actor a).fired = true ∧
        ((t.tile k).actor a).pend = x.pend ∧
        eats s t k a (fun p y => match fr.kind with
          | .fire => y.headAfter y.count
          | .mismatch => if AMap.getD fr.donec p 0 = 0 then y.h else y.headAfter (AMap.getD fr.donec p 0)
          | _ => y.h) ∧
        (∀ p o n c, (s.tile k).outputs a = [(p, o)] → o.closed = false → o.ordered = false → ((s.tile k).port p).chan = some n →
          s.chan? n = some c → ∃ d, t.chan? n = some d ∧ d.seq = c.seq + (o.count - AMap.getD fr.donec p 0)) ∧
        quiet s t)) ∧
  (∀ (k a : Nat) (s : State),
    let x := (s.tile k).actor a
    let h := (s.tile k).slot.handle
    let due := fun (i : Instr) (p : Punct) (does : State → Prop) =>
      (hwStep s k a ≠ some p → exec i s = .next s) ∧
      (hwStep s k a = some p → ∃ t, exec i s = .next t ∧ ((t.tile k).actor a).pend = none ∧
        ((t.tile k).actor a).firings = x.firings ∧ does t ∧ quiet s t)
    due (.actorEnd k (.actor a)) .eos (fun t => ((t.tile k).actor a).ended = true ∧
      puts s t k a (fun c d _ => d.seq = c.seq + 1 ∧ d.closed = true ∧ tail c d .eos (eosStatusOf ((s.tile k).counted a)))) ∧
    due (.lengthMismatch k (.actor a)) .lenMis (fun t => ((t.tile k).actor a).ended = true ∧
      (t.resOf h).err.lenmis = sat32 ((s.resOf h).err.lenmis + 1) ∧
      puts s t k a (fun c d _ => d.seq = c.seq + 1 ∧ d.closed = true ∧ tail c d .eos 0x19)) ∧
    due (.roundPass k (.actor a)) .round (fun t => ((t.tile k).actor a).ended = x.ended ∧
      puts s t k a (fun c d _ => d.seq = c.seq + 1 ∧ d.rounds = c.rounds + 1 ∧ d.closed = c.closed)) ∧
    due (.roundMismatch k (.actor a)) .rndMis (fun t => ((t.tile k).actor a).ended = x.ended ∧
      (t.resOf h).err.rndmis = sat32 ((s.resOf h).err.rndmis + 1) ∧ puts s t k a (fun c d _ => d.seq = c.seq))) ∧
  ∀ (k n : Nat) (o : Oper) (s : State), (s.tile k).oper n = some o →
    let h := (s.tile k).slot.handle
    let due := fun (i : Instr) (p : Punct) (does : State → Oper → Prop) =>
      (operStep s k n ≠ some p → exec i s = .next s) ∧
      (operStep s k n = some p → ∃ t x, exec i s = .next t ∧ (t.tile k).oper n = some x ∧ x.kind = o.kind ∧ does t x ∧ quiet s t)
    let sends := fun (t : State) (goes : Chan → Chan → Prop) => ∀ e m c, o.kind.outs = [e] → AMap.get? o.chans e = some m →
      s.chan? m = some c → ∃ d, t.chan? m = some d ∧ goes c d
    due (.actorEnd k (.oper n)) .eos (fun t x => x.ended = true ∧ x.in0 = none ∧ sends t (fun c d => d.seq = c.seq + 1 ∧ d.closed = true)) ∧
    due (.lengthMismatch k (.oper n)) .lenMis (fun t x => x.ended = true ∧
      (t.resOf h).err.lenmis = sat32 ((s.resOf h).err.lenmis + 1) ∧ sends t (fun c d => d.seq = c.seq + 1 ∧ d.closed = true)) ∧
    due (.roundPass k (.oper n)) .round (fun t x => x.ended = o.ended ∧ x.in0 = none ∧
      sends t (fun c d => d.seq = c.seq + 1 ∧ d.rounds = c.rounds + 1)) ∧
    due (.roundMismatch k (.oper n)) .rndMis (fun t x => x.ended = o.ended ∧
      (t.resOf h).err.rndmis = sat32 ((s.resOf h).err.rndmis + 1) ∧ sends t (fun c d => d.seq = c.seq))

/-- 06 R158, R167, R173: the issue of vector instructions. -/
def Obligations.VectorIssue : Prop :=
  ∀ (f : VW) (s : State) (i : Instr) (x : VShape), i ∈ vectorInstrs f → vShape i = some x →
    let needs : List Perm := match vmShape i with
      | some (_, _, true) => [.w]
      | _ => [.r]
    let probe := vecProbe s i x
    let token := f.imm.getLsbD 7 = true ∧ i = .vcvto f
    let port := s.here.port f.vc.toNat
    x.f = f ∧
    (∀ r, x.kFields.find? (fun r => !s.me.kOk r) = some r → Traps i s 0x02 (r.setWidth 64)) ∧
    ((∀ r ∈ x.kFields, s.me.kOk r = true) →
      (∀ l ∈ s.me.lates, ∀ r, l.vd = some r → r ∉ vFields i) →
      (∀ w ∈ s.me.wins, w.cls = .v → w.arrived = true → w.fail ≠ 0 → w.dest ∉ vFields i) →
      (f.la = 0 ∨ (s.me.wins.length < 4 ∧ ∀ w ∈ s.me.wins, w.cls = vecDest i → w.dest ≠ f.d)) →
      (vecHold s i x = true → Stalls i s) ∧
      (vecHold s i x = false →
        (¬token → vmShape i = none → ∃ t e, exec i s = .next t ∧ VecIssued s t i x e ∧ e.seq = none ∧ t.chans = s.chans) ∧
        (vmShape i ≠ none → (∀ p ∈ vmChecks s.me probe, TlmOk s (s.me.readK f.a) p.1 p.2 needs) →
          ∃ t e, exec i s = .next t ∧ VecIssued s t i x e ∧ e.seq = none ∧ t.chans = s.chans) ∧
        (∀ p before after code v, vmChecks s.me probe = before ++ p :: after → (∀ q ∈ before, TlmOk s (s.me.readK f.a) q.1 q.2 needs) →
          tlmCheck (grantOf s s.cur.tile s.me) (s.me.readK f.a) p.1 p.2 p.2 needs = some (code, v) → Traps i s code v) ∧
        (token → s.me.role = .team → Traps i s 0x0A 0) ∧
        (token → s.me.role ≠ .team → (port.closed = true ∨ port.count ≤ doneOf s.me f.vc.toNat ∨ port.output = false) →
          Traps i s 0x0A (BitVec.ofNat 64 f.vc.toNat)) ∧
        (∀ n c, token → PutOk s f.vc.toNat → port.chan = some n → s.chan? n = some c →
          ∃ t e d, exec i s = .next t ∧ VecIssued s t i x e ∧ e.seq = some c.seq ∧ doneOf t.me f.vc.toNat = doneOf s.me f.vc.toNat + 1 ∧
            t.chan? n = some d ∧ d.seq = c.seq + 1 ∧ d.reserved = AMap.set c.reserved c.seq c.rounds ∧
            d.branches.map (·.room) = c.branches.map (fun b => b.room - 1) ∧ d.branches.map (·.flights) = c.branches.map (·.flights)) ∧
        (token → PutOk s f.vc.toNat → port.ordered = true → port.chan = none →
          ∃ t e, exec i s = .next t ∧ VecIssued s t i x e ∧ e.seq = some port.oseq ∧ doneOf t.me f.vc.toNat = doneOf s.me f.vc.toNat + 1 ∧
            t.here.port f.vc.toNat = { port with booked := [(port.oseq, none)], oseq := port.oseq + 1 } ∧ t.chans = s.chans)))

/-- 06 R155 to R170: the completion of the VI, VF, VSF and VC instructions, inside a lookahead window or outside one (03 R79). -/
def Obligations.VectorIntegerResults : Prop :=
  (∀ (k n : Nat) (s : State), n ≤ 10 → ((s.tile k).ctx n).vq = [] → exec (.vectorComplete k n) s = .next s) ∧
  (∀ (k n : Nat) (s : State) (e : VqEntry) (rest : List VqEntry), ((s.tile k).ctx n).vq = e :: rest → e.group = none →
    exec (.vectorComplete k n) s = .next s) ∧
  (∀ (f : VW) (k n : Nat) (s : State) (e : VqEntry) (rest : List VqEntry) (g : Nat), n ≤ 10 →
    let c := (s.tile k).ctx n
    let w := etypeWidth f.etype
    let src : BitVec 4 := f.imm.extractLsb' 0 4
    let ws := etypeWidth src
    let part := f.imm.toNat / 16 % 8
    let sg := isSint f.etype
    let sat := f.sat == 1
    let md := RMode.ofCode e.rm.toNat
    let a := fun j => elem (c.readV f.a.toNat) w j
    let b := fun j => elem (c.readV f.b.toNat) w j
    let z := fun j => elem (c.readV f.vc.toNat) w j
    let ints : List (Instr × Bool × (Int → Int → Nat → Nat → Int)) :=
      [(.vadd f, sat, fun x y _ _ => x + y), (.vsub f, sat, fun x y _ _ => x - y), (.vmul f, sat, fun x y _ _ => x * y),
       (.vmulh f, false, fun x y _ _ => x * y / 2 ^ w), (.vmin f, false, fun x y _ _ => if x ≤ y then x else y),
       (.vmax f, false, fun x y _ _ => if x ≤ y then y else x), (.vminu f, false, fun x y _ _ => if x ≤ y then x else y),
       (.vmaxu f, false, fun x y _ _ => if x ≤ y then y else x), (.vand f, false, fun _ _ u v => ((u &&& v : Nat) : Int)),
       (.vor f, false, fun _ _ u v => ((u ||| v : Nat) : Int)), (.vxor f, false, fun _ _ u v => ((u ^^^ v : Nat) : Int)),
       (.vshl f, false, fun _ _ u v => (u : Int) * 2 ^ (v % w)), (.vshr f, false, fun _ _ u v => ((u / 2 ^ (v % w) : Nat) : Int)),
       (.vsra f, false, fun _ _ u v => (BitVec.ofNat w u).toInt / 2 ^ (v % w)), (.vabs f, sat, fun x _ _ _ => if 0 ≤ x then x else -x),
       (.vneg f, sat, fun x _ _ _ => -x), (.vadds f, true, fun x y _ _ => x + y), (.vsubs f, true, fun x y _ _ => x - y)]
    let fm := fmtOf f.etype
    let floats : List (Instr × (Nat → Nat → Nat → Nat × Flags)) :=
      [(.vfadd f, fun x y _ => fAdd fm md sat e.ftz e.daz x y), (.vfsub f, fun x y _ => fAdd fm md sat e.ftz e.daz x (fNegBits fm y)),
       (.vfmul f, fun x y _ => fMul fm md sat e.ftz e.daz x y), (.vfma f, fun x y v => fFma fm md sat e.ftz e.daz false false x y v),
       (.vfms f, fun x y v => fFma fm md sat e.ftz e.daz false true x y v), (.vfnma f, fun x y v => fFma fm md sat e.ftz e.daz true false x y v),
       (.vfmin f, fun x y _ => fMinMax fm e.daz false x y), (.vfmax f, fun x y _ => fMinMax fm e.daz true x y),
       (.vrsqrte f, fun x _ _ => seed .rsqrt fm e.ftz e.daz x), (.vrcpe f, fun x _ _ => seed .rcp fm e.ftz e.daz x),
       (.vexp2e f, fun x _ _ => seed .exp2 fm e.ftz e.daz x), (.vlog2e f, fun x _ _ => seed .log2 fm e.ftz e.daz x)]
    -- VCVT and VCVTO: the source element of element j, where element j belongs to the part
    let fed := fun (j : Nat) =>
      if w < ws then (if part * (512 / ws) ≤ j ∧ j < part * (512 / ws) + 512 / ws then some (j - part * (512 / ws)) else none)
      else some (if ws < w then part * (512 / w) + j else j)
    let conv := fun (dst : ElemTy) (from_ : ElemTy) (clamp : Bool) (j : Nat) =>
      (fed j).map fun i => convert md clamp e.ftz e.daz from_ dst (elem (c.readV f.a.toNat) ws i)
    let flagsOf := fun (r : Nat → Option Rounded) => (c.actives f w).foldl (fun x j => x ||| ((r j).map (·.flags)).getD 0) (0 : Flags)
    let line := fun (r : Nat → Option Rounded) (x : Line) => c.eachElem f w x fun j => ((r j).map (·.bits)).getD (elem (c.readV f.d.toNat) w j)
    -- VMXQ and VMXD
    let block : List FVal := ((List.range (if ws = 32 then 16 else 32)).map fun j => (fmtOf src).decode e.daz (elem (c.readV f.a.toNat) ws j)) ++
      if ws = 32 then (List.range 16).map fun j => (fmtOf src).decode e.daz (elem (c.readV f.b.toNat) 32 j) else []
    let fp4 := f.etype == 12
    let half := f.imm.toNat / 32 % 2
    let special := ∃ v ∈ block, ¬v.finite
    let scale : Int := match maxLog block with
      | none => 127
      | some l => max 0 (min 254 (l - (if fp4 then 2 else 8) + 127))
    let quant := fun (v : FVal) => (if fp4 then Fmt.e2m1 else Fmt.e4m3).round md true (e.ftz && !fp4) (v.scale (127 - scale))
    let mxLine := fun (x : Line) (q : Nat → Nat) (sc : Nat) =>
      (fp4 = true → (∀ i, i < 32 → elem x 4 (32 * half + i) = q i % 16) ∧
        (∀ i, i < 32 → elem x 4 (32 * (1 - half) + i) = elem (c.readV f.d.toNat) 4 (32 * (1 - half) + i)) ∧
        elem x 8 (32 + half) = sc ∧ elem x 8 (33 - half) = elem (c.readV f.d.toNat) 8 (33 - half) ∧
        ∀ i, 34 ≤ i → i < 64 → elem x 8 i = 0) ∧
      (fp4 = false → (∀ i, i < 32 → elem x 8 i = q i % 256) ∧ elem x 8 32 = sc ∧ ∀ i, 33 ≤ i → i < 64 → elem x 8 i = 0)
    let small := if src == 12 then Fmt.e2m1 else Fmt.e4m3
    let pick := fun (j : Nat) => (if w = 32 then 16 * (f.imm.toNat / 16 % 2) else 0) + j
    let code := fun (j : Nat) =>
      if src == 12 then elem (c.readV f.a.toNat) 4 (32 * half + pick j) else elem (c.readV f.a.toNat) 8 (pick j)
    let scaleByte := elem (c.readV f.a.toNat) 8 (32 + half)
    let dequant : Nat → Nat × Flags := fun j =>
      if (small.decode false (code j)).isNan ∨ scaleByte = 255 then (fm.nan, 0)
      else
        let r := fm.round md sat e.ftz ((small.decode false (code j)).scale ((scaleByte : Int) - 127))
        (r.bits, r.flags)
    e.group = some g → c.vq = e :: rest →
      (∀ r ∈ ints, e.instr = r.1 →
        VecEach s k n e rest f w (fun j => elemBits sg r.2.1 w (r.2.2 (elemInt sg w (a j)) (elemInt sg w (b j)) (a j) (b j))) fun _ => 0) ∧
      (isFlt f.etype = true → ∀ r ∈ floats, e.instr = r.1 →
        VecEach s k n e rest f w (fun j => (r.2 (a j) (b j) (z j)).1) fun j => (r.2 (a j) (b j) (z j)).2) ∧
      (∀ from_ dst, elemTy src = some from_ → elemTy f.etype = some dst →
        (e.instr = .vcvt f → VecRuns s k n e rest [f.d] [] [] (flagsOf (conv dst from_ sat)) fun _ d =>
          ∃ x, c.hasV d e f.d x ∧ line (conv dst from_ sat) x) ∧
        (e.instr = .vcvto f →
          let tooBig := fun (j : Nat) => decide (c.activeAt f w j) && ((conv dst from_ true j).map (·.ovr)).getD false
          let count := ((List.range (512 / w)).filter tooBig).length
          VecRuns s k n e rest [f.d] [] [f.b] (flagsOf (conv dst from_ true)) fun t d =>
            d.readK f.b = wroteK f.b ⟨false, BitVec.ofNat 128 count⟩ ∧ (∃ x, c.hasV d e f.d x ∧ line (conv dst from_ true) x) ∧
            ∀ q id ch, e.seq = some q → ((s.tile k).port f.vc.toNat).ordered = false → ((s.tile k).port f.vc.toNat).chan = some id →
              s.chan? id = some ch → ∃ ch2, t.chan? id = some ch2 ∧ AMap.get? ch2.reserved q = none ∧ ch2.seq = ch.seq ∧
                ∀ br, ch.branches = [br] → ∃ tok : Token, ch2.branches.map (·.flights) = [br.flights ++ [{ tok := tok, after := [] }]] ∧
                  tok.seq = q ∧ tok.resid = ch.resid ∧ (count = 0 → tok.kind = .null) ∧
                  (count ≠ 0 → tok.kind = .data ∧ tok.round = BitVec.ofNat 16 (AMap.getD ch.reserved q ch.rounds) ∧
                    ∀ j, j < 64 → tok.payload.getLsbD j = (decide (j < 512 / w) && tooBig j)))) ∧
      (e.instr = .vpack f → VecEach s k n e rest f w (fun j => elemBits sg sat w (elemInt (isSint src) (2 * w)
        (if j < 256 / w then elem (c.readV f.a.toNat) (2 * w) j else elem (c.readV f.b.toNat) (2 * w) (j - 256 / w)))) fun _ => 0) ∧
      (e.instr = .vunpack f → VecEach s k n e rest f w (fun j => elemBits false false w (elemInt (isSint src) (w / 2)
        (elem (c.readV f.a.toNat) (w / 2) ((f.imm.toNat / 16 % 2) * (512 / w) + j)))) fun _ => 0) ∧
      (isFlt src = true → e.instr = .vmxq f →
        (special → VecRuns s k n e rest [f.d] [] [] (if ∃ v ∈ block, v.isSnan = true ∨ ∃ m, v = .inf m then Flags.nv else 0)
          fun _ d => ∃ x, c.hasV d e f.d x ∧ mxLine x (fun _ => 0) 255) ∧
        (¬special → VecRuns s k n e rest [f.d] [] []
          (block.foldl (fun fl v => fl ||| (if (quant v).ovr then Flags.nx else (quant v).flags)) 0)
          fun _ d => ∃ x, c.hasV d e f.d x ∧ mxLine x (fun i => ((block[i]?).map fun v => (quant v).bits).getD 0) scale.toNat)) ∧
      (isFlt f.etype = true → e.instr = .vmxd f → VecEach s k n e rest f w (fun j => (dequant j).1) fun j => (dequant j).2)) ∧
  ∀ (g : Fmt) (md : RMode) (sat ftz daz np nz : Bool) (x y v : Nat), g ∈ [Fmt.f32, Fmt.f16, Fmt.bf16] →
    let X := g.decode daz x
    let Y := g.decode daz y
    let V := g.decode daz v
    let rounds := fun (r : Nat × Flags) (q : ℚ) => ∃ z : FVal, z.finite ∧ z.num = q ∧ r = ((g.round md sat ftz z).bits, (g.round md sat ftz z).flags)
    let invalid := fun (r : Nat × Flags) => r = (g.nan, Flags.nv)
    (X.isSnan = true ∨ Y.isSnan = true → invalid (fAdd g md sat ftz daz x y) ∧ invalid (fMul g md sat ftz daz x y) ∧
      invalid (fFma g md sat ftz daz np nz x y v)) ∧
    (X.isSnan = false → Y.isSnan = false → X.isNan = true ∨ Y.isNan = true →
      fAdd g md sat ftz daz x y = (g.nan, 0) ∧ fMul g md sat ftz daz x y = (g.nan, 0)) ∧
    (X.finite → Y.finite → rounds (fAdd g md sat ftz daz x y) (X.num + Y.num) ∧ rounds (fMul g md sat ftz daz x y) (X.num * Y.num)) ∧
    (X.finite → Y.finite → V.finite → rounds (fFma g md sat ftz daz np nz x y v)
      ((if np then -(X.num * Y.num) else X.num * Y.num) + if nz then -V.num else V.num)) ∧
    (∀ p q, X = .inf p → Y = .inf q → p ≠ q → invalid (fAdd g md sat ftz daz x y)) ∧
    (∀ p m e, X = .inf p → Y = .fin m 0 e → invalid (fMul g md sat ftz daz x y))

/-- 06 R163, R171, R172, R175, R176: the completion of permutations, reductions, compares, masks and moves, inside a lookahead window or
outside one (03 R79). -/
def Obligations.VectorMovesAndMasks : Prop :=
  ∀ (f : VW) (k n : Nat) (s : State) (e : VqEntry) (rest : List VqEntry) (g : Nat), n ≤ 10 →
    let c := (s.tile k).ctx n
    let w := etypeWidth f.etype
    let sg := isSint f.etype
    let num := 512 / w
    let a := fun j => elem (c.readV f.a.toNat) w j
    let b := fun j => elem (c.readV f.b.toNat) w j
    let z := fun j => elem (c.readV f.vc.toNat) w j
    let x := fun j => elemInt sg w (a j)
    let y := fun j => elemInt sg w (b j)
    let fm := fmtOf f.etype
    let top := 2 ^ (w - 1)
    let each := fun (i : Instr) (v : Nat → Nat) => e.instr = i → VecEach s k n e rest f w v fun _ => 0
    let whole := fun (i : Instr) (fl : Flags) (does : Line → Prop) => e.instr = i →
      VecRuns s k n e rest [f.d] [] [] fl fun _ d => ∃ r, c.hasV d e f.d r ∧ does r
    let first := fun (i : Instr) (fl : Flags) (v : Nat) => whole i fl fun r =>
      elem r w 0 = v % 2 ^ w ∧ ∀ j, 0 < j → j < num → elem r w j = 0
    let toK := fun (i : Instr) (v : Word) => e.instr = i → VecRuns s k n e rest [] [] [f.d] 0 fun _ d => c.hasK d e f.d v
    let compare := fun (i : Instr) (p : Nat → Bool) (fl : Nat → Flags) => e.instr = i → f.imm.toNat % 4 < max 1 (32 / w) →
      let m := fun (j : Nat) => if w = 64 then j else j * (32 / w) + f.imm.toNat % 4
      let tested := (List.range (if w = 64 then 8 else 16)).filter fun j => decide (c.activeAt f w (m j))
      VecRuns s k n e rest [] [f.d] [] (tested.foldl (fun u j => u ||| fl (m j)) 0) fun _ d =>
        ∃ r, c.hasM d e f.d r ∧ ∀ j, j < 16 →
          (w = 64 → 8 ≤ j → r.getLsbD j = false) ∧
          (w ≠ 64 ∨ j < 8 → c.activeAt f w (m j) → r.getLsbD j = p (m j)) ∧
          (w ≠ 64 ∨ j < 8 → ¬c.activeAt f w (m j) → r.getLsbD j = (c.readM f.d.toNat).getLsbD j)
    let masks := fun (i : Instr) (v : BitVec 16) => e.instr = i → VecRuns s k n e rest [] [f.d] [] 0 fun _ d => c.hasM d e f.d v
    let slide : Nat → Nat := fun j => let q : Int := j + f.imm.toInt
      if 0 ≤ q ∧ q < num then a q.toNat else if num ≤ q ∧ q < 2 * num then z (q.toNat - num) else 0
    let acts := c.actives f w
    let value := fun (u : Nat) => fm.decode e.daz u
    let greater := fun (u v : Nat) => if FVal.lt true (value u) (value v) then v else u
    let lesser := fun (u v : Nat) => if FVal.lt true (value v) (value u) then v else u
    let extreme := fun (i : Instr) (mx : Bool) (choose : Nat → Nat → Nat) =>
      first i (if ∃ j ∈ acts, (value (a j)).isSnan = true then Flags.nv else 0)
        (match (acts.map a).filter fun u => !(value u).isNan with
        | [] => if acts = [] then fm.withSign mx fm.infBits else fm.nan
        | u :: us => fm.asRead e.daz (us.foldl choose u))
    let nan := fun (j : Nat) => (value (a j)).isNan || (value (b j)).isNan
    let snan := fun (j : Nat) => (value (a j)).isSnan || (value (b j)).isSnan
    let less := fun (u v : Nat) => FVal.lt false (value u) (value v)
    e.group = some g → c.vq = e :: rest →
      each (.vbcst f) (fun _ => e.ka.word.toNat) ∧
      each (.vshuf f) (fun j => let q := b j % (2 * num)
        if q < num then a q else z (q - num)) ∧
      each (.vslide f) slide ∧
      each (.viota f) (fun j => (BitVec.ofInt w (f.imm.toInt + j)).toNat) ∧
      (isFlt f.etype = true →
        each (.vfabs f) (fun j => a j % top) ∧
        each (.vfneg f) (fun j => if a j < top then a j + top else a j - top) ∧
        each (.vfcps f) (fun j => a j % top + if top ≤ b j then top else 0) ∧
        each (.vfclass f) (fun j => match fm.decode false (a j) with
          | .nan signalling => if signalling then 256 else 512
          | .inf neg => if neg then 1 else 128
          | .fin neg m _ => if m = 0 then (if neg then 8 else 16)
            else if a j / 2 ^ fm.fb % 2 ^ fm.eb = 0 then (if neg then 4 else 32) else if neg then 2 else 64) ∧
        extreme (.vredmax f) true greater ∧ extreme (.vredmin f) false lesser ∧
        compare (.vfcmpeq f) (fun j => !nan j && !less (a j) (b j) && !less (b j) (a j)) (fun j => if snan j then Flags.nv else 0) ∧
        compare (.vfcmplt f) (fun j => !nan j && less (a j) (b j)) (fun j => if nan j then Flags.nv else 0) ∧
        compare (.vfcmple f) (fun j => !nan j && !less (b j) (a j)) (fun j => if nan j then Flags.nv else 0) ∧
        (let tree := treeSum e (f.sat == 1) (if w = 32 then 4 else 5)
            ((List.range num).map fun j => if c.activeAt f w j then some (widen32 fm e.daz (a j)) else none)
         let sum := Fmt.f32.decode false (tree.1.getD 0)
         let r := fm.round (RMode.ofCode e.rm.toNat) (f.sat == 1) e.ftz sum
         first (.vfredadd f) (tree.2 ||| if sum.isSnan then Flags.nv else r.flags) (if sum.isSnan then fm.nan else r.bits))) ∧
      whole (.vsel f) 0 (fun r => ∀ j, j < num → (c.activeAt f w j → elem r w j = a j) ∧ (¬c.activeAt f w j → elem r w j = b j)) ∧
      whole (.vmovk f) 0 (fun r => ∀ j, j < num → elem r w j =
        if j = f.imm.toNat then e.ka.word.toNat % 2 ^ w else elem (c.readV f.d.toNat) w j) ∧
      (isInt f.etype = true →
        first (.vredadd f) 0 (elemBits sg (f.sat == 1) w ((acts.map x).foldl (· + ·) 0)) ∧
        first (.vredmax f) 0 (elemBits sg false w ((acts.map x).foldl max (if sg then -2 ^ (w - 1) else 0))) ∧
        first (.vredmin f) 0 (elemBits sg false w ((acts.map x).foldl min (if sg then 2 ^ (w - 1) - 1 else 2 ^ w - 1)))) ∧
      (f.imm.toNat < num → toK (.vmovx f) (BitVec.ofInt 64 (x f.imm.toNat))) ∧
      toK (.mpopc f) (BitVec.ofNat 64 ((List.range 16).filter fun j => (c.readM f.a.toNat).getLsbD j).length) ∧
      compare (.vcmpeq f) (fun j => x j == y j) (fun _ => 0) ∧ compare (.vcmpne f) (fun j => x j != y j) (fun _ => 0) ∧
      compare (.vcmplt f) (fun j => decide (x j < y j)) (fun _ => 0) ∧ compare (.vcmple f) (fun j => decide (x j ≤ y j)) (fun _ => 0) ∧
      masks (.mand f) (c.readM f.a.toNat &&& c.readM f.b.toNat) ∧ masks (.mor f) (c.readM f.a.toNat ||| c.readM f.b.toNat) ∧
      masks (.mxor f) (c.readM f.a.toNat ^^^ c.readM f.b.toNat) ∧ masks (.mnot f) (~~~(c.readM f.a.toNat))

/-- 06 R173, R174: the VM instructions, access by access; the last one, or none, completes the instruction. -/
def Obligations.VectorMemory : Prop :=
  ∀ (f : VW) (k n : Nat) (s : State) (e : VqEntry) (rest : List VqEntry) (g : Nat), n ≤ 10 →
    let t0 := s.tile k
    let c := t0.ctx n
    let w := etypeWidth f.etype
    let imm := f.imm.toInt
    let place := fun (x : Int) => (((e.ka.addr.toNat : Int) + x) % 2 ^ 48).toNat
    -- the accesses: element and address, in element order
    let each := fun (v : Nat) (at_ : Nat → Nat) => (c.actives f v).map fun j => (j, at_ j)
    let line := each 32 fun j => place (64 * imm) + 4 * j
    let strided := each w fun j => place (imm + j * e.kb.word.toInt)
    let indexed := each w fun j => place (imm + (elem (c.readV f.b.toNat) 32 j * (w / 8) : Nat))
    let loads : List (Instr × Nat × List (Nat × Nat)) :=
      [(.vld f, 32, line), (.vlds f, w, strided), (.vldx f, w, indexed), (.vldb f, w, if c.actives f w = [] then [] else [(0, place imm)])]
    let stores : List (Instr × Nat × List (Nat × Nat)) := [(.vst f, 32, line), (.vsts f, w, strided), (.vstx f, w, indexed)]
    let others := fun (t : State) => (∀ q, q ≠ k → t.tile q = s.tile q) ∧ t = { s with tiles := t.tiles } ∧ s.sameCtxs t
    e.group = some g → c.vq = e :: rest →
      (∀ r ∈ loads, e.instr = r.1 →
        let w := r.2.1
        let acts := r.2.2
        let now := acts[e.done]?
        -- what has been read of an element, and the bad words met, this access with them
        let got := fun (j d : Nat) => match now with
          | some (i, a) => if i = j then t0.number a (w / 8) else AMap.getD e.got j d
          | none => AMap.getD e.got j d
        let bad := e.bad.toList ++ match now with
          | some (_, a) => (wordsOf a (w / 8)).filter t0.spoilt
          | none => []
        let checked := fun (t : State) => (∀ x, (t.tile k).spoilt x = t0.spoilt x) ∧
          ∀ x, NSet.mem (t.tile k).err1 x = (NSet.mem t0.err1 x && !(match now with
            | some (_, a) => (wordsOf a (w / 8)).contains x
            | none => false))
        (e.done + 1 < acts.length → ∃ t e1, exec (.vectorComplete k n) s = .next t ∧ others t ∧ checked t ∧ s.sameTlm t ∧ s.sameGmem t ∧
          ((t.tile k).ctx n).vq = e1 :: rest ∧ e1 = { e with done := e.done + 1, got := e1.got, bad := e1.bad } ∧
          (∀ j d, AMap.getD e1.got j d = got j d) ∧ (e1.bad = none ↔ bad = []) ∧ (∀ x, e1.bad = some x → x ∈ bad ∧ ∀ y ∈ bad, x ≤ y) ∧
          (t.tile k).groups = t0.groups) ∧
        (acts.length ≤ e.done + 1 → (∀ j, j ∉ acts.map (·.1) → AMap.get? e.got j = none) → bad = [] → VecRuns s k n e rest [f.d] [] [] 0 fun t d => checked t ∧ d.lates = c.lates ∧
          ∃ x, c.hasV d e f.d x ∧ c.eachElem f w x fun j =>
            if r.1 = .vldb f then got 0 0 else got j (elem (c.readV f.d.toNat) w j)) ∧
        (acts.length ≤ e.done + 1 → ∀ x ∈ bad, (∀ y ∈ bad, x ≤ y) → VecRuns s k n e rest [] [] [] 0 fun t d => checked t ∧
          (e.win = false → d.wins = c.wins ∧ ∃ l, d.lates = c.lates ++ [l] ∧ l.code = 0x0D ∧ l.val = BitVec.ofNat 64 x ∧ l.pc = e.pc ∧
            l.vd = some f.d ∧ l.late = true) ∧
          (e.win = true → d.lates = c.lates ∧ c.windowHolds d e.op (c.readV f.d.toNat) 0x0D (BitVec.ofNat 64 x)))) ∧
      (∀ r ∈ stores, e.instr = r.1 →
        let w := r.2.1
        let size := w / 8
        let acts := r.2.2
        let covered := fun (x : Nat) => ∀ i, i < 8 → ∃ p ∈ acts, p.2 ≤ x + i ∧ x + i < p.2 + size
        let closes := fun (d : Ctx) (bad : Option Nat) => match bad with
          | none => d.lates = c.lates
          | some x => ∃ l, d.lates = c.lates ++ [l] ∧ l.code = 0x0D ∧ l.val = BitVec.ofNat 64 x ∧ l.pc = e.pc ∧ l.vd = none ∧ l.late = true
        (acts.length ≤ e.done → VecRuns s k n e rest [] [] [] 0 fun _ d => closes d e.bad) ∧
        ∀ j a, acts[e.done]? = some (j, a) → a % size = 0 →
          let word := a / 8 * 8
          let lost := ¬covered word ∧ t0.spoilt word = true
          ∃ t, exec (.vectorComplete k n) s = .next t ∧ others t ∧ s.sameGmem t ∧
            (∀ x, x < a ∨ a + size ≤ x → Memory.read (t.tile k).tlm x = Memory.read t0.tlm x) ∧
            (∀ x, x ≠ a / 16 → NSet.mem (t.tile k).gtags x = NSet.mem t0.gtags x) ∧
            (∀ x, x ≠ word → (t.tile k).spoilt x = t0.spoilt x ∧ NSet.mem (t.tile k).err1 x = NSet.mem t0.err1 x) ∧
            (¬lost → NSet.mem (t.tile k).gtags (a / 16) = false ∧
              ∀ i, i < size → Memory.read (t.tile k).tlm (a + i) = BitVec.ofNat 8 (elem (c.readV f.d.toNat) w j / 256 ^ i)) ∧
            (lost → (t.tile k).tlm = t0.tlm ∧ (t.tile k).gtags = t0.gtags ∧ (t.tile k).spoilt word = true) ∧
            (¬covered word → NSet.mem (t.tile k).err1 word = false ∧
              (t.tile k).corrected = t0.corrected + if NSet.mem t0.err1 word then 1 else 0) ∧
            (covered word → (∀ p ∈ acts.drop (e.done + 1), p.2 / 8 * 8 ≠ word) →
              (t.tile k).spoilt word = false ∧ NSet.mem (t.tile k).err1 word = false) ∧
            ∀ bad, (lost → bad = some (e.bad.getD word)) → (¬lost → bad = e.bad) →
              (e.done + 1 < acts.length → ((t.tile k).ctx n).vq = { e with done := e.done + 1, bad := bad } :: rest ∧
                ((t.tile k).ctx n).lates = c.lates ∧ (t.tile k).groups = t0.groups) ∧
              (e.done + 1 = acts.length → ((t.tile k).ctx n).vq = rest ∧ AMap.get? (t.tile k).groups g = none ∧ closes ((t.tile k).ctx n) bad))

/-- 12 R295, R296, 03 R79, R81, 15 R365: LANE_GROUP_BIND, WINDOW_CLOSE, TRAP_TAKEN. -/
def Obligations.VectorUnitEvents : Prop :=
  (∀ (k g : Nat) (s : State),
    let t0 := s.tile k
    (4 ≤ g ∨ AMap.get? t0.groups g ≠ none → exec (.laneGroupBind k g) s = .next s) ∧
    (g < 4 → AMap.get? t0.groups g = none → (∀ n, n < 11 → ∀ e ∈ (t0.ctx n).vq, e.group ≠ none) →
      ∃ t, exec (.laneGroupBind k g) s = .next t ∧ (∀ n, n < 11 → AMap.getD (t.tile k).deficit n 0 = 0 ∧
        (t.tile k).credited.getLsbD n = false) ∧ (t.tile k).vptr = t0.vptr % 11 ∧
        t.tile k = { t0 with deficit := (t.tile k).deficit, credited := (t.tile k).credited, vptr := (t.tile k).vptr } ∧
        (∀ q, q ≠ k → t.tile q = s.tile q) ∧ t = { s with tiles := t.tiles }) ∧
    (g < 4 → AMap.get? t0.groups g = none →
      ∀ n e before after, n = t0.vptr % 11 → (t0.ctx n).vq = before ++ e :: after → (∀ x ∈ before, x.group ≠ none) → e.group = none →
        (∀ x ∈ before ++ after, x.op ≠ e.op) →
        let w := (t0.ctx n).vqw.toNat
        let old := AMap.getD t0.deficit n 0
        let d := if t0.credited.getLsbD n then old else min (old + 4 * w) (4 * w + 15)
        vecCost e.instr ≤ d →
        ∃ t, exec (.laneGroupBind k g) s = .next t ∧ AMap.get? (t.tile k).groups g = some (n, e.op) ∧
          ((t.tile k).ctx n).vq = before ++ { e with group := some g } :: after ∧
          AMap.getD (t.tile k).deficit n 0 = d - vecCost e.instr ∧ (t.tile k).vptr = t0.vptr ∧ (t.tile k).credited.getLsbD n = true ∧
          (∀ q, q ≠ n → (t.tile k).ctx q = t0.ctx q) ∧ (∀ q, q ≠ g → AMap.get? (t.tile k).groups q = AMap.get? t0.groups q) ∧
          (∀ q, q ≠ k → t.tile q = s.tile q) ∧ s.sameTlm t ∧ s.sameGmem t)) ∧
  (∀ (k n i : Nat) (s : State),
    let c := (s.tile k).ctx n
    (c.wins[i]? = none → exec (.windowClose k n i) s = .next s) ∧
    ∀ w, c.wins[i]? = some w →
      (w.left ≠ 0 ∨ w.arrived = false ∨ c.mode ≠ .running ∨ c.halted = true → exec (.windowClose k n i) s = .next s) ∧
      (w.left = 0 → w.arrived = true → Ctx.winBusy (s.tile k) c w = false → (∀ l ∈ c.lates, l.due = false) → c.mode = .running → c.halted = false →
        (w.fail = 0 → ∃ t, exec (.windowClose k n i) s = .next t ∧
          let d := (t.tile k).ctx n
          d.wins = c.wins.erase w ∧ d.lates = c.lates ∧ d.pcc = c.pcc ∧
          (w.cls = .k → d.readK w.dest = wroteK w.dest ⟨w.resultTag, w.result.setWidth 128⟩) ∧
          (w.cls = .v → d.readV w.dest.toNat = w.result) ∧
          (w.cls = .m → w.dest ≠ 0 → d.readM w.dest.toNat = w.result.setWidth 16) ∧
          (∀ r, w.cls ≠ .k ∨ r ≠ w.dest → d.readK r = c.readK r) ∧
          (∀ r : BitVec 6, w.cls ≠ .v ∨ r ≠ w.dest → d.readV r.toNat = c.readV r.toNat) ∧
          (∀ r : BitVec 6, w.cls ≠ .m ∨ r ≠ w.dest → d.readM r.toNat = c.readM r.toNat) ∧
          (∀ q, q ≠ n → (t.tile k).ctx q = (s.tile k).ctx q) ∧ s.sameTlm t ∧ s.sameGmem t) ∧
        (w.fail ≠ 0 → n ≤ 10 → ∃ t, exec (.windowClose k n i) s = .next t ∧ ((t.tile k).ctx n).vq = []) ∧
        (w.fail ≠ 0 → n ≤ 10 → { c with wins := c.wins.erase w }.settled → ∃ m t, exec (.windowClose k n i) s = .next t ∧
          (m.tile k).ctx n = { c with wins := c.wins.erase w } ∧
          (1 ≤ n → HelperTrapped m t k n (BitVec.ofNat 64 (0x100 + w.fail.toNat)) w.failVal w.pc) ∧
          (n = 0 → MonitorTrapped m t k (BitVec.ofNat 64 (0x100 + w.fail.toNat)) w.failVal w.pc)))) ∧
  ∀ (k n : Nat) (s : State),
    let c := (s.tile k).ctx n
    ((∀ l ∈ c.lates, l.due = false) ∨ c.mode ≠ .running ∨ c.halted = true → exec (.trapTaken k n) s = .next s) ∧
    ∀ l before after, c.lates = before ++ l :: after → (∀ x ∈ before, x.due = false) → l.due = true → c.vq = [] →
      (∀ x ∈ c.lates, x.vd = none) → (∀ w ∈ c.wins, w.cls = .v → w.arrived = true → w.fail = 0) → n ≤ 10 → c.mode = .running → c.halted = false →
      ∃ m t, exec (.trapTaken k n) s = .next t ∧ m = s.setTile k ((s.tile k).setCtx n { c with lates := before ++ after }) ∧
        (n ≠ 0 → HelperTrapped m t k n (BitVec.ofNat 64 ((if l.late then 0x100 else 0) + l.code.toNat)) l.val l.pc) ∧
        (n = 0 → MonitorTrapped m t k (BitVec.ofNat 64 ((if l.late then 0x100 else 0) + l.code.toNat)) l.val l.pc)

/-- 10 R236 to R244: the issue of the G class. That context 0 stalls on a page wait is the model's reading, log entry 16. -/
def Obligations.GlobalMemoryIssue : Prop :=
  ∀ (f : GW) (s : State),
    let n := 2 ^ f.size.toNat
    let d := s.me.readW f.d
    let b := s.me.readW f.b
    let low := fun (v : Word) => BitVec.ofNat 64 (v.toNat % 256 ^ n)
    let vers : Word := BitVec.ofNat 64 (b.toNat % 2 ^ 16)
    let plain : List (Instr × GForm) :=
      [(.gld f, ⟨.load, n, true, false, false, [f.d, f.a], [f.a], some f.d, 0, 0⟩),
       (.glda f, ⟨.load, n, true, false, false, [f.d, f.a], [f.a], some f.d, 0, 0⟩),
       (.gst f, ⟨.store, n, false, true, false, [f.d, f.a], [f.d, f.a], none, low d, 0⟩),
       (.gstr f, ⟨.store, n, false, true, false, [f.d, f.a], [f.d, f.a], none, low d, 0⟩)]
    let atomic : List (Instr × GForm) :=
      [(.gaadd f, GOp.aadd), (.gamin f, .amin), (.gamax f, .amax), (.gaand f, .aand), (.gaor f, .aor), (.gaxor f, .axor),
       (.gaswp f, .aswp), (.gafadd f, .afadd)].map (fun p => (p.1, ⟨p.2, n, true, true, false, [f.d, f.a, f.b], [f.a, f.b], some f.d,
         low b, 0⟩))
      ++ [(.gacas f, ⟨.acas, n, true, true, false, [f.d, f.a, f.b], [f.d, f.a, f.b], some f.d, low b, low d⟩)]
    let versioned : List (Instr × GForm) :=
      [(.gldv f, ⟨.ldv, n, true, false, true, [f.d, f.a, f.b], [f.a, f.b], some f.d, 0, vers⟩),
       (.gstv f, ⟨.stv, n, false, true, true, [f.d, f.a, f.b], [f.d, f.a, f.b], none, low d, vers⟩),
       (.gvq f, ⟨.vq, 8, true, false, true, [f.d, f.a], [f.a], some f.d, 0, 0⟩)]
    ∀ r ∈ plain ++ atomic ++ versioned,
      let i := r.1
      let g := r.2
      let c := s.me.readK f.a
      let va := c.addr + f.off.signExtend 48 * BitVec.ofNat 48 g.n
      let need : List Perm := (if g.r then [.r] else []) ++ (if g.w then [.w] else [])
      let tagged := f.async = 1 ∨ f.tok = 1
      let x := translate s s.cur.tile (ctxSpace s s.cur.tile s.cur.ctx) va.toNat g.r g.w g.ver
      s.kReady g.fields g.reads g.dest.toList → windowFree s f.la .k f.d →
      (g.op = .ldv → s.cur.ctx ≠ 0 → f.async = 1 ∧ f.tok = 1 ∧ f.d = 0) → (s.me.role = .team → f.tok ≠ 1 ∧ g.op ≠ .ldv) →
      (gHold s f g.op.stores = true → Stalls i s) ∧
      (gHold s f g.op.stores = false →
        (∀ code, GlobalBad c va.toNat g.n g.n need code → Traps i s code (va.setWidth 64)) ∧
        (GlobalOk c va.toNat g.n g.n need →
          (x.2 = .wait → s.cur.ctx = 0 → Stalls i s) ∧
          (x.2 = .wait → s.cur.ctx ≠ 0 → s.settled → ∃ t w, exec i s = .next t ∧ t.here.waiters = s.here.waiters ++ [w] ∧ w.va = va ∧
            w.ready = none ∧ w.ctx.pcc = s.me.pcc ∧ w.ctx.task = s.me.task ∧ s.me.sameRegs w.ctx ∧ t.me.mode = .free ∧
            s.sameTlm t ∧ s.sameGmem t) ∧
          (x.2 = .perm → Traps i s 0x05 (va.setWidth 64)) ∧
          (x.2 = .denied → s.settled → ∃ m t, exec i s = .next t ∧ Trapped m t 0x09 (va.setWidth 64) s.me.pc ∧ m.cur = s.cur ∧
            m.here = s.here ∧ s.sameTlm m ∧ s.sameGmem m) ∧
          (∀ pa, x.2 = .ok pa → TokenOk s f.tok →
            (g.op = .ldv → s.cur.ctx ≠ 0 → acquirePending s.here s.me = false ∧ ∀ p, s.here.complPort s.me.actor = some p →
              (s.here.port p).booked = [] ∧ ∀ e ∈ s.me.vq, ∀ v, e.instr = .vcvto v → v.vc.toNat = p → e.seq = none) →
            ∃ t q, exec i s = .next t ∧ HandedOver s t ∧ AMap.get? t.here.reqs s.here.nextOp = some q ∧ q.op = g.op ∧ q.task = s.me.task ∧
              q.va = va ∧ q.pa = pa ∧ q.n = g.n ∧ q.data = g.data ∧ q.cmp = g.cmp ∧ q.dest = g.dest ∧ q.order = f.order ∧
              q.scope = f.scope ∧ q.async = (f.async == 1) ∧ q.tok = (f.tok == 1) ∧ (tagged → q.tag = some f.tag) ∧
              (¬tagged → q.tag = none) ∧ q.pc = s.me.pc ∧ q.performed = false ∧ q.reply = none ∧ q.win = decide (f.la ≠ 0) ∧
              (∀ p ∈ s.here.reqs, p.2.task = s.me.task → p.2.performed = false → p.2.pa.toNat / 64 = pa.toNat / 64 → p.1 ∈ q.after) ∧
              (f.order.getLsbD 1 = true → ∀ p ∈ s.here.reqs, p.2.task = s.me.task → p.2.performed = false →
                homeScope s p.2.pa ≤ f.scope.toNat → p.1 ∈ q.after) ∧
              (∀ j, j ≠ s.here.nextOp → AMap.get? t.here.reqs j = AMap.get? s.here.reqs j) ∧ t.here.nextOp = s.here.nextOp + 1 ∧
              (tagged → tagCleared s t f.tag) ∧ (¬tagged → t.me.tags = s.me.tags) ∧
              (f.la = 0 → t.me.wins = s.me.countWins.wins) ∧
              (f.la ≠ 0 → ∃ w : Win, t.me.wins = s.me.countWins.wins ++ [w] ∧ w.cls = .k ∧ w.dest = f.d ∧ w.left = f.la ∧
                w.arrived = false ∧ w.op = s.here.nextOp))))

/-- 09 R216, R220 to R229, R242, R243, 15 R382: MEMORY_REQUEST; R230: BAR4_ACCESS. That another module's management space acknowledges a
store and answers a load with a free value is the model's choice, log entry 90. -/
def Obligations.GlobalMemoryAtHome : Prop :=
  (∀ (k id : Nat) (s : State),
    (AMap.get? (s.tile k).reqs id = none → exec (.memoryRequest k id) s = .next s) ∧
    ∀ q, AMap.get? (s.tile k).reqs id = some q →
      let a := q.pa.toNat
      let w := 8 * q.n
      let old := leNat ((List.range q.n).map fun j => Memory.read s.gmem (a + j))
      let v := q.data.toNat
      let x := BitVec.ofNat w old
      let y := BitVec.ofNat w v
      let cur : BitVec 16 := AMap.getD s.vers (a / 64) 0
      let ahead := (BitVec.ofNat 16 q.cmp.toNat - cur).toNat
      let line := fun (p : Nat) => p % 8 = 0 ∧ p / 64 = a / 64
      let spoilt := fun (t : State) (p : Nat) => NSet.mem t.gpoison p = true ∨ NSet.mem t.gerr2 p = true
      let bad := ∃ p, line p ∧ spoilt s p
      let earlier := ∀ j ∈ q.after, ∀ p, AMap.get? (s.tile k).reqs j = some p → p.performed = true
      let via := ((AMap.getD s.routes (paModule q.pa) 0).extractLsb' 56 6).toNat
      let far := paModule q.pa ≠ s.module
      let dead := 36 ≤ via ∨ (s.link via).state = 3
      let usable := (s.link via).state = 2 ∧ (s.link via).retraining = false
      let ends := fun (r : Reply) (perf : Bool) (does : State → Prop) => ∃ t p, exec (.memoryRequest k id) s = .next t ∧
        AMap.get? (t.tile k).reqs id = some p ∧ p.reply = some r ∧ p.performed = perf ∧ p.op = q.op ∧ p.dest = q.dest ∧ p.task = q.task ∧
        (∀ j, j ≠ id → AMap.get? (t.tile k).reqs j = AMap.get? (s.tile k).reqs j) ∧
        (∀ m, (t.tile k).ctx m = (s.tile k).ctx m) ∧ s.sameTlm t ∧ does t
      let keeps := fun (r : Reply) (perf : Bool) => ends r perf (fun t => s.sameGmem t ∧ t.vers = s.vers)
      let writes := fun (r : Reply) (z : Nat) (vs : AMap (BitVec 16)) => ends r true (fun t =>
        (∀ j, j < q.n → Memory.read t.gmem (a + j) = BitVec.ofNat 8 (z / 256 ^ j)) ∧
        (∀ j, j < a ∨ a + q.n ≤ j → Memory.read t.gmem j = Memory.read s.gmem j) ∧ t.vers = vs)
      let data := Reply.data (BitVec.ofNat 64 old)
      (q.performed = true ∨ q.reply ≠ none ∨ ¬earlier → exec (.memoryRequest k id) s = .next s) ∧
      (q.performed = false → q.reply = none → earlier →
        (far → dead → keeps .poison true) ∧
        (far → ¬dead → ¬usable → exec (.memoryRequest k id) s = .next s) ∧
        (¬far → paKind q.pa = 2 → mgmtPerform s q = none → exec (.memoryRequest k id) s = .fault .undescribedDevice) ∧
        (far → ¬dead → usable → paKind q.pa = 2 → (q.op = .store ∨ q.op = .stv → keeps .ack true) ∧
          (q.op ≠ .store → q.op ≠ .stv → ∃ x, keeps (.data x) true)) ∧
        (¬far ∨ (¬dead ∧ usable) → paKind q.pa ≠ 2 → 0 < q.n → a / 64 = (a + q.n - 1) / 64 →
          (q.op = .load ∨ q.op = .ldv → ∀ t, exec (.memoryRequest k id) s = .next t →
            (∀ p, line p → NSet.mem t.gerr1 p = false ∧ NSet.mem t.gerr2 p = false) ∧
            ((∃ p, line p ∧ NSet.mem s.gerr2 p = true) → ∀ p, line p → NSet.mem t.gpoison p = true) ∧
            ∀ p, p / 64 ≠ a / 64 → (spoilt t p ↔ spoilt s p)) ∧
          (q.op = .load → bad → keeps .poison true) ∧
          (q.op = .load → ¬bad → keeps data true) ∧
          (q.op = .vq → keeps (.data (cur.setWidth 64)) true) ∧
          (q.op = .ldv → ahead = 0 → ¬bad → keeps data true) ∧
          (q.op = .ldv → 0 < ahead → ahead ≤ 32768 → keeps .retry false) ∧
          (q.op = .ldv → 32768 < ahead → keeps .passed true) ∧
          (q.op = .store → writes .ack v s.vers) ∧
          (q.op = .stv → writes .ack v (AMap.set s.vers (a / 64) (BitVec.ofNat 16 q.cmp.toNat))) ∧
          (q.op = .retireOr → q.n = 1 → writes .ack (old ||| v) s.vers) ∧
          (q.op ∈ [.aadd, .amin, .amax, .aand, .aor, .axor, .aswp, .acas, .afadd] → bad → keeps .poison true) ∧
          (¬bad → v < 256 ^ q.n → q.cmp.toNat < 256 ^ q.n →
            (q.op = .aadd → writes data (x + y).toNat s.vers) ∧
            (q.op = .amin → writes data (if x.toInt ≤ y.toInt then old else v) s.vers) ∧
            (q.op = .amax → writes data (if x.toInt ≤ y.toInt then v else old) s.vers) ∧
            (q.op = .aand → writes data (x &&& y).toNat s.vers) ∧
            (q.op = .aor → writes data (x ||| y).toNat s.vers) ∧
            (q.op = .axor → writes data (x ^^^ y).toNat s.vers) ∧
            (q.op = .aswp → writes data v s.vers) ∧
            (q.op = .acas → old = q.cmp.toNat → writes data v s.vers) ∧
            (q.op = .acas → old ≠ q.cmp.toNat → keeps data true) ∧
            (q.op = .afadd → q.n = 4 → writes data (fAdd Fmt.f32 .rne false false false old v).1 s.vers))))) ∧
  ∀ (port : Nat) (write : Bool) (offset size : Nat) (v : Word) (s : State),
    let pa := AMap.getD s.wbase port 0 + BitVec.ofNat 52 offset
    (hostAnswered s = false ∨ s.hostUp.getLsbD port = false ∨ 2 ^ 36 < offset + size → exec (.bar4Access port write offset size v) s = .next s) ∧
    (hostAnswered s = true → s.hostUp.getLsbD port = true → offset + size ≤ 2 ^ 36 → size ≤ 8 → paRefused true pa = false →
      paKind pa = 0 → paModule pa = s.module →
      (write = false → exec (.bar4Access port write offset size v) s = .next s) ∧
      (write = true → ∃ t, exec (.bar4Access port write offset size v) s = .next t ∧ t.tiles = s.tiles ∧
        (∀ j, j < size → Memory.read t.gmem (pa.toNat + j) = BitVec.ofNat 8 (v.toNat / 256 ^ j)) ∧
        (∀ j, j < pa.toNat ∨ pa.toNat + size ≤ j → Memory.read t.gmem j = Memory.read s.gmem j)))

/-- 10 R237, R240, R244, 09 R229, 14 R348: GLOBAL_REPLY, STORE_ACK, RETRY. -/
def Obligations.GlobalMemoryReplies : Prop :=
  ∀ (k id : Nat) (s : State) (q : GReq), AMap.get? (s.tile k).reqs id = some q →
    let ctx := fun (n : Nat) => (s.tile k).ctx n
    let runs := fun (n : Nat) => (ctx n).task = q.task ∧ (ctx n).mode ≠ .free
    let bit := fun (n : Nat) => match q.tag with
      | none => (ctx n).tags
      | some g => (ctx n).tags ||| (1#64 <<< g.toNat)
    let ovr := fun (t : State) => AMap.get? (t.tile k).reqs id = none ∧
      (∀ j, j ≠ id → AMap.get? (t.tile k).reqs j = AMap.get? (s.tile k).reqs j) ∧ s.sameTlm t ∧ s.sameGmem t ∧
      (∀ m, ¬runs m → (t.tile k).ctx m = ctx m) ∧ (∀ m, runs m → ((t.tile k).ctx m).tags = bit m ∧ ((t.tile k).ctx m).pcc = (ctx m).pcc) ∧
      (∀ p o n c, q.tok = true → q.tag ≠ none → q.seq = none → (s.tile k).complPort q.actor = some p → (s.tile k).port p = o →
        ((s.tile k).actor q.actor).held = false → o.ordered = false → o.chan = some n → s.chan? n = some c →
        ∃ d, t.chan? n = some d ∧ d.seq = c.seq + 1)
    let ours := q.ctxNo = 0 ∨ q.resid = (s.tile k).slot.resid
    let dropped := fun (i : Instr) => ∃ t, exec i s = .next t ∧ AMap.get? (t.tile k).reqs id = none ∧ (t.tile k).dropped = sat32 ((s.tile k).dropped + 1) ∧
      (t.resOf (s.tile k).slot.handle).err.dropped = sat32 ((s.resOf (s.tile k).slot.handle).err.dropped + 1) ∧
      (∀ m, (t.tile k).ctx m = ctx m) ∧ t.chans = s.chans ∧ s.sameTlm t ∧ s.sameGmem t
    (¬ours → (q.reply ≠ none → q.reply ≠ some .ack → q.reply ≠ some .retry → dropped (.globalReply k id)) ∧
      (q.reply = some .ack → dropped (.storeAck k id))) ∧
    (q.reply = none ∨ q.reply = some .ack ∨ q.reply = some .retry → exec (.globalReply k id) s = .next s) ∧
    (∀ v, ours → q.reply = some (.data v) → q.seq = none → ∃ t, exec (.globalReply k id) s = .next t ∧ ovr t ∧
      (∀ n, runs n → q.win = false → ((t.tile k).ctx n).lates = (ctx n).lates ∧
        (∀ d, q.dest = some d → ((t.tile k).ctx n).readK d = wroteK d ⟨false, v.setWidth 128⟩) ∧
        ∀ r, q.dest ≠ some r → ((t.tile k).ctx n).readK r = (ctx n).readK r) ∧
      (∀ n, runs n → q.win = true → (∀ r, ((t.tile k).ctx n).readK r = (ctx n).readK r) ∧
        ((t.tile k).ctx n).wins = (ctx n).wins.map fun w =>
          if w.op = id then { w with arrived := true, result := v.setWidth 512, resultTag := false, fail := 0, failVal := 0 } else w)) ∧
    (∀ n p m c, ours → q.seq = some n → q.actor < 8 → (s.tile k).complPort q.actor = some p → ((s.tile k).port p).ordered = false →
      ((s.tile k).port p).chan = some m → s.chan? m = some c →
      let fills := fun (kind : TokKind) (x : Line) => ∃ t d, exec (.globalReply k id) s = .next t ∧ t.chan? m = some d ∧
        d.seq = c.seq ∧ d.reserved = AMap.erase c.reserved n ∧ AMap.get? (t.tile k).reqs id = none ∧ s.sameTlm t ∧ s.sameGmem t ∧
        (q.reply = some .passed → ∀ j, ((t.tile k).ctx j).lates = (ctx j).lates) ∧
        ∀ b, c.branches = [b] → ∃ tok : Token, tok.kind = kind ∧ tok.payload = x ∧ tok.seq = n ∧
          (kind = .data → tok.round = BitVec.ofNat 16 (AMap.getD c.reserved n c.rounds)) ∧
          d.branches.map (·.flights) = [b.flights ++ [{ tok := tok, after := [] }]]
      (∀ v, q.reply = some (.data v) → fills .data (v.setWidth 512)) ∧ (q.reply = some .passed → fills .poison 0x15) ∧
      (q.reply = some .poison → fills .poison 0x0C)) ∧
    (∀ code : Byte, (q.reply = some .poison ∧ code = 0x0C) ∨ (q.reply = some .passed ∧ code = 0x15) → ours → q.seq = none →
      ∃ t, exec (.globalReply k id) s = .next t ∧ ovr t ∧ ∀ n, runs n → (∀ r, ((t.tile k).ctx n).readK r = (ctx n).readK r) ∧
        (q.win = false → ∃ l, ((t.tile k).ctx n).lates = (ctx n).lates ++ [l] ∧ l.code = code ∧ l.val = q.va.setWidth 64 ∧ l.pc = q.pc ∧
          l.late = true ∧ l.tag = (if q.async then q.tag else none) ∧ l.vd = none)) ∧
    (q.reply ≠ some .ack → exec (.storeAck k id) s = .next s) ∧
    (ours → q.reply = some .ack → q.op ≠ .retireOr → ∃ t, exec (.storeAck k id) s = .next t ∧ ovr t ∧
      ∀ n, runs n → (∀ r, ((t.tile k).ctx n).readK r = (ctx n).readK r)) ∧
    (q.reply ≠ some .retry → exec (.retryReply k id) s = .next s) ∧
    (q.reply = some .retry → ∃ t, exec (.retryReply k id) s = .next t ∧
      AMap.get? (t.tile k).reqs id = some { q with reply := none, performed := false, onlyRetry := true } ∧
      (∀ j, j ≠ id → AMap.get? (t.tile k).reqs j = AMap.get? (s.tile k).reqs j) ∧ (∀ m, (t.tile k).ctx m = ctx m) ∧
      s.sameTlm t ∧ s.sameGmem t)

/-- 07 R180, R187, R191, 08 R201, R207, 10 R256 to R265: the issue of engine commands. -/
def Obligations.EngineCommandsIssue : Prop :=
  ∀ (f : EW) (s : State),
    let ka := s.me.readK f.a
    let kb := s.me.readK f.b
    let grant := grantOf s s.cur.tile s.me
    let span := fun (c : KReg) (n align : Nat) (need : List Perm) => tlmCheck grant c c.addr.toNat n align need = none
    let room := fun (e : Engine) => (e.queue s.me).length < 2
    let sent := fun (i : Instr) (e : Engine) (data : List Word) (does : State → Prop) => ∃ t x, exec i s = .next t ∧ HandedOver s t ∧
      e.queue t.me = e.queue s.me ++ [x] ∧ (∀ o, o ≠ e → o.queue t.me = o.queue s.me) ∧ x.instr = i ∧ x.op = s.here.nextOp ∧
      x.task = s.me.task ∧ x.pc = s.me.pc ∧ x.ka = ka ∧ x.kb = kb ∧ x.kd = s.me.readK f.d ∧ x.actor = s.me.actor ∧ x.done = 0 ∧
      x.started = false ∧ x.rd = 0 ∧ x.wr = 0 ∧ x.got = [] ∧ x.gbad = [] ∧ x.events = 0 ∧
      x.waiting = none ∧ x.draining = false ∧ x.stopped = none ∧ x.data = data ∧ tagCleared s t f.tag ∧
      t.here.nextOp = s.here.nextOp + 1 ∧ does t
    let n := f.c.toNat
    let a := s.here.acc n
    let key : List Word := match claimKey s with
      | some k => [BitVec.ofNat 64 k]
      | none => []
    let owned := match a.iOwner with
      | some o => some o
      | none => claimKey s
    let rb := if f.fmt = 9 then 2048 else 4096
    let base := ka.base.toNat
    let len := (ka.top - ka.base).toNat
    let ring := ka.tag = true ∧ ka.typ = 0 ∧ ka.has .tlm = true ∧ ka.has .w = true ∧ base ≤ ka.addr.toNat ∧ ka.addr.toNat < base + len ∧
      base + len ≤ 2 ^ 22 ∧ base % 64 = 0 ∧ len ≠ 0 ∧ len % rb = 0 ∧ (∀ g, grant = some g → inBanks g base len = true) ∧
      (ka.addr.toNat - base) % rb = 0
    let calm := a.iCounted = true → a.buf = [] ∨ a.armer = s.cur.ctx
    let p := s.here.port f.b.toNat
    let port := p.declared = true ∧ p.output = true ∧ p.actor = s.me.actor ∧ s.cur.ctx ≠ 0 ∧ s.me.role ≠ .team ∧ p.count = 0 ∧
      p.line = true ∧ p.fmt = f.fmt ∧ ∃ b, p.relb = some b ∧ (f.imm.extractLsb' 0 10).toNat = (b.extractLsb' 0 10).toNat
    let panelA := panelLen f.fmt (shapeRows a.iShape) (mmaK f)
    let mx : List (Instr × List (BitVec 6) × Prop × Acc) :=
      [(.mma f, [f.a, f.b], span ka panelA 64 [.r] ∧ span kb (panelLen (mmaFb f) (shapeCols a.iShape) (mmaK f)) 64 [.r],
          { a with iOwner := owned }),
       (.minit f, [f.a], ring ∧ calm, { a with iOwner := owned, iCounted := true }),
       (.minitPort f, [], port ∧ calm, { a with iOwner := owned, iCounted := true }),
       (.mrel f, [f.a], span ka rb 64 [.w] ∧ a.iCounted = false, { a with iOwner := none }),
       (.mzero f, [], True, { a with iOwner := owned, iCounted := false }),
       (.mshape f, [], True, { a with iOwner := owned, iCounted := false, iShape := f.imm.extractLsb' 0 2 }),
       (.mrd f, [f.a], span ka (if f.imm.getLsbD 0 then 8 else 8192) 64 [.w], a)]
    let count := kb.word.toNat
    let tabs := 1 ≤ count ∧ count + (f.imm.extractLsb' 0 10).toNat ≤ 1024
    let planes := 1 ≤ count ∧ f.imm.toNat + count ≤ 2048
    let width := if f.fmt = 0 then 64 else etypeWidth f.fmt
    let lc : List (Instr × List (BitVec 6) × Prop × Prop) :=
      [(.ltab f, [f.a, f.b], span ka (8 * count) 8 [.r], tabs), (.ltabStream f, [f.b], True, tabs),
       (.lwire f, [f.a], span ka (16 * (f.imm.toNat + 1)) 16 [.r], True), (.lsel f, [], True, True), (.leval f, [], True, True),
       (.lslice f, [f.a], span ka (8 * width) 64 [.r], True), (.lunslice f, [f.a], span ka (8 * width) 64 [.w], True),
       (.lpld f, [f.a, f.b], span ka (8 * count) 8 [.r], planes), (.lpst f, [f.a, f.b], span ka (8 * count) 8 [.w], planes),
       (.lpcnt f, [f.a, f.b], span ka 128 64 [.w], planes)]
    let extents : List (Instr × List (BitVec 6) × Nat × Perm) :=
      [(.mma f, [f.a, f.b], panelA, .r), (.mrel f, [f.a], rb, .w), (.mrd f, [f.a], if f.imm.getLsbD 0 then 8 else 8192, .w),
       (.ltab f, [f.a, f.b], 8 * count, .r), (.lwire f, [f.a], 16 * (f.imm.toNat + 1), .r), (.lslice f, [f.a], 8 * width, .r),
       (.lunslice f, [f.a], 8 * width, .w), (.lpld f, [f.a, f.b], 8 * count, .r), (.lpst f, [f.a, f.b], 8 * count, .w),
       (.lpcnt f, [f.a, f.b], 128, .w)]
    (∀ r ∈ extents, s.kReady r.2.1 r.2.1 [] → engHold s f.tag = false → ka.tag = true → ka.typ = 0 → ka.has .tlm = true →
      ka.has r.2.2.2 = true →
      let within := fun (q : Nat) => ka.addr.toNat ≤ q ∧ q < ka.addr.toNat + r.2.2.1
      let inside := fun (q : Nat) => ka.base ≤ (q : Int) ∧ (q : Int) < ka.top ∧ q < 2 ^ 22
      let granted := fun (q : Nat) => ∀ g, grant = some g → g.getLsbD (q / 2 ^ 18) = true
      (∀ q, within q → ¬inside q → (∀ j, within j → j < q → inside j) → Traps r.1 s 0x04 (BitVec.ofNat 64 q)) ∧
      ((∀ q, within q → inside q) → ∀ q, within q → ¬granted q → (∀ j, within j → j < q → granted j) →
        Traps r.1 s 0x04 (BitVec.ofNat 64 q))) ∧
    (∀ r ∈ mx, s.kReady r.2.1 r.2.1 [] →
      (engHold s f.tag = true → Stalls r.1 s) ∧
      (engHold s f.tag = false → r.2.2.1 → TokenOk s f.tok →
        (claimedByOther s a.iOwner = true → Traps r.1 s 0x17 (BitVec.ofNat 64 (0x100 + n))) ∧
        (claimedByOther s a.iOwner = false → ¬room .mx → Stalls r.1 s) ∧
        (claimedByOther s a.iOwner = false → room .mx → sent r.1 .mx key (fun t => t.here.acc n = r.2.2.2 ∧
          ∀ m, m ≠ n → t.here.acc m = s.here.acc m)))) ∧
    (s.kReady [f.a] [f.a] [] → engHold s f.tag = false → TokenOk s f.tok →
      (ring → ¬calm → Traps (.minit f) s 0x17 (BitVec.ofNat 64 (0x400 + n))) ∧
      (span ka rb 64 [.w] → a.iCounted = true → Traps (.mrel f) s 0x17 (BitVec.ofNat 64 (0x200 + n)))) ∧
    (∀ r ∈ lc, s.kReady r.2.1 r.2.1 [] →
      (engHold s f.tag = true → Stalls r.1 s) ∧
      (engHold s f.tag = false → r.2.2.1 →
        (¬r.2.2.2 → Traps r.1 s 0x17 0x210) ∧
        (r.2.2.2 → claimedByOther s s.here.fabric.iOwner = true → Traps r.1 s 0x17 0x110) ∧
        (r.2.2.2 → claimedByOther s s.here.fabric.iOwner = false → TokenOk s f.tok →
          (¬room .lc → Stalls r.1 s) ∧
          (room .lc → sent r.1 .lc [] (fun t =>
            t.here.fabric = { s.here.fabric with iOwner := claimed s s.here.fabric.iOwner }))))) ∧
    (let lines := 64 * (f.imm.toNat + 1)
     let dst := if f.d ≠ 0 then tlmCheck none ka ka.addr.toNat lines 64 [.w] = none
       else if ka.has .tlm = true ∧ ka.has .x = false then span ka lines 64 [.w] else GlobalOk ka ka.addr.toNat lines 64 [.w]
     let src := if kb.has .tlm = true then span kb lines 64 [.r] else GlobalOk kb kb.addr.toNat lines 64 [.r]
     s.kReady [f.d, f.a, f.b] [f.d, f.a, f.b] [] →
      (engHold s f.tag = true → Stalls (.dcopy f) s) ∧
      (engHold s f.tag = false → dst → src →
        (f.d ≠ 0 → copyTile s (s.me.readW f.d) = none → Traps (.dcopy f) s 0x14 (s.me.readW f.d)) ∧
        (f.d = 0 ∨ copyTile s (s.me.readW f.d) ≠ none → TokenOk s f.tok →
          (¬room .dm → Stalls (.dcopy f) s) ∧ (room .dm → sent (.dcopy f) .dm [] (fun _ => True))))) ∧
    (let d := readDesc s.here ka.addr.toNat
     let st := s.here.stream n
     let reason := fun (r : Nat) => BitVec.ofNat 64 (r * 256 + 0x20 + n)
     let went := goDesc s.here n
     let fits := descDir went ≠ 2 → descSize went ≤ tokenBytes s.here went
     engHold s f.tag = false →
      (issueView s.here n = (true, false) → claimedByOther s st.claim = true →
        Traps (.dsgo f) s 0x17 (reason 1) ∧ Traps (.dsstop f) s 0x17 (reason 1)) ∧
      (claimedByOther s st.claim = false →
        (issueView s.here n = (true, true) ∨ (issueView s.here n).1 = false → Traps (.dsgo f) s 0x17 (reason 2)) ∧
        (issueView s.here n = (true, false) → ¬fits → Traps (.dsgo f) s 0x17 (reason 3)) ∧
        (TokenOk s f.tok → ¬room .dm → (issueView s.here n = (true, false) → fits → Stalls (.dsgo f) s) ∧ Stalls (.dsstop f) s) ∧
        (TokenOk s f.tok → room .dm →
          (s.kReady [f.a, f.b] [f.a, f.b] [] → span ka 64 64 [.r] → s.here.badWord ka.addr.toNat 64 = none → descOk d = true →
            (s.here.port (descPort d)).declared = true → (s.here.port (descPort d)).stream = some n → descAligned d = true →
            hullCheck kb d = none → (issueView s.here n).2 = false →
            sent (.dscfg f) .dm d (fun t => (t.here.stream n).claim = claimed s st.claim)) ∧
          (issueView s.here n = (true, false) → fits →
            sent (.dsgo f) .dm [] (fun t => (t.here.stream n).claim = claimed s st.claim)) ∧
          sent (.dsstop f) .dm [] (fun t => t.here.stream n = st)))) ∧
    (let b := (f.imm.extractLsb' 0 4).toNat
     let q := s.here.port n
     let v := BitVec.ofNat 64 (b * 2 ^ 18)
     engHold s f.tag = false →
      (∀ g, grant = some g → g.getLsbD b = false → Traps (.dbank f) s 0x05 v) ∧
      ((∀ g, grant = some g → g.getLsbD b = true) →
        (s.here.exec.getLsbD b = true → Traps (.dbank f) s 0x05 v) ∧
        (s.here.exec.getLsbD b = false → s.cur.ctx ≠ 0 → s.me.role ≠ .team → q.declared = true → q.output = true → q.bankp = true →
          q.actor = s.me.actor → q.stream = none → AMap.getD (firingDonec s.here s.me) n 0 < q.count → q.closed = false →
          acquirePending s.here s.me = false → q.booked = [] → q.ordered = false →
          (∀ e ∈ s.me.vq, ∀ v, e.instr = .vcvto v → v.vc.toNat = n → e.seq = none) →
          (f.tok = 1 → ∃ m, s.here.complPort s.me.actor = some m ∧ (s.here.port m).closed = false ∧
            AMap.getD (firingDonec s.here s.me) m 0 + (if m = n then 1 else 0) < (s.here.port m).count) →
          (¬room .dm → Stalls (.dbank f) s) ∧
          (room .dm → ∀ id c, q.chan = some id → s.chan? id = some c →
            sent (.dbank f) .dm [BitVec.ofNat 64 c.seq] (fun t =>
              (t.here.actor s.me.actor).inForce = (s.here.actor s.me.actor).inForce &&& ~~~(1#16 <<< b) ∧
              ∃ d, t.chan? id = some d ∧ d.seq = c.seq + 1 ∧ d.reserved = AMap.set c.reserved c.seq c.rounds)))))

/-- 07 R186, R189 to R195, 08 R199, R203, R206, R209 to R214: the execution of MX and LC commands, access by access. -/
def Obligations.EngineCommandsExecute : Prop :=
  ∀ (k n : Nat) (s : State),
    let t0 := s.tile k
    let kept := fun (t : State) => (∀ q, q ≠ k → t.tile q = s.tile q) ∧ s.sameGmem t ∧
      ∀ m, (t0.ctx m).sameRegs ((t.tile k).ctx m) ∧ ((t.tile k).ctx m).pcc = (t0.ctx m).pcc
    let later := fun (e : Engine) (i : Instr) (y : EngCmd) (does : State → Prop) => ∃ t, exec i s = .next t ∧ kept t ∧
      e.queue ((t.tile k).ctx n) = y :: (e.queue (t0.ctx n)).drop 1 ∧ (∀ m, ((t.tile k).ctx m).tags = (t0.ctx m).tags) ∧ does t
    let leaves := fun (e : Engine) (i : Instr) (does : State → Prop) => ∃ t, exec i s = .next t ∧ kept t ∧
      e.queue ((t.tile k).ctx n) = (e.queue (t0.ctx n)).drop 1 ∧ does t
    let tagged := fun (x : EngCmd) (t : State) => ∀ m, (t0.ctx m).task = x.task → (t0.ctx m).mode ≠ .free →
      ((t.tile k).ctx m).tags = (t0.ctx m).tags ||| (1#64 <<< x.ew.tag.toNat)
    let outside := fun (lo len : Nat) (t : State) => ∀ z, z < lo ∨ lo + len ≤ z →
      Memory.read (t.tile k).tlm z = Memory.read t0.tlm z
    let marked := fun (lo len : Nat) (bad : Bool) (t : State) => ∀ w ∈ wordsOf lo len, (t.tile k).spoilt w = bad
    let reads := fun (e : Engine) (i : Instr) (x : EngCmd) (r : EngRead) => ∃ y : EngCmd,
      y = { x with started := true, rd := x.rd + 1, got := y.got, gbad := y.gbad } ∧
      (∀ j, j < r.len → Memory.read y.got (gotKey r.operand r.addr + j) = Memory.read t0.tlm (r.addr + j)) ∧
      (∀ z, z < gotKey r.operand r.addr ∨ gotKey r.operand r.addr + r.len ≤ z → Memory.read y.got z = Memory.read x.got z) ∧
      (∀ z, NSet.mem y.gbad z = true ↔ NSet.mem x.gbad z = true ∨
        ∃ w ∈ wordsOf r.addr r.len, t0.spoilt w = true ∧ z = gotKey r.operand w) ∧
      later e i y fun t => outside 0 0 t ∧ (t.tile k).accs = t0.accs ∧ (t.tile k).fabric = t0.fabric ∧
        ∀ w, (t.tile k).spoilt w = t0.spoilt w
    (∃ t, exec (.mxCommandComplete k n) s = .next t) ∧ (∃ t, exec (.releaseTokenSend k n) s = .next t) ∧
    (∃ t, exec (.lcCommandComplete k n) s = .next t) ∧
    (engTake t0 .mx (mxReady t0) n = none → Idle (.mxCommandComplete k n) s) ∧
    (∀ x r, engTake t0 .mx (mxReady t0) n = some x → (mxReads t0 x)[x.rd]? = some r → reads .mx (.mxCommandComplete k n) x r) ∧
    (∀ x f, engTake t0 .mx (mxReady t0) n = some x →
      let c := f.c.toNat
      let a := t0.acc c
      let alone := fun (t : State) => ∀ m, m ≠ c → (t.tile k).acc m = t0.acc m
      let ends := fun (does : State → Prop) => leaves .mx (.mxCommandComplete k n) fun t => alone t ∧ does t
      let owner := match a.owner with
        | some o => some o
        | none => x.data.head?.map (·.toNat)
      let at' := x.ka.addr.toNat + 64 * x.wr
      let zero := fun (b : Acc) => (∀ e, b.elem e = 0) ∧ b.live = false ∧ b.psn = false
      let sz := fun (fmt : BitVec 4) => if fmt = 9 then 2 else 4
      (x.instr = .mzero f → ends fun t => tagged x t ∧ outside 0 0 t ∧
        (let b := (t.tile k).acc c
         zero b ∧ b.counted = false ∧ b.prog = 0 ∧ b.owner = owner ∧ b.buf = a.buf)) ∧
      (x.instr = .mshape f → ends fun t => tagged x t ∧ outside 0 0 t ∧
        (let b := (t.tile k).acc c
         b.shape = f.imm.extractLsb' 0 2 ∧ b.owner = owner ∧
          (a.live = true ∨ a.counted = true → zero b ∧ b.counted = false ∧ b.rsh = true) ∧
          (a.live = false → a.counted = false → b.data = a.data ∧ b.rsh = a.rsh))) ∧
      (x.instr = .minit f ∨ x.instr = .minitPort f → ends fun t => tagged x t ∧ outside 0 0 t ∧
        (let b := (t.tile k).acc c
         zero b ∧ b.counted = true ∧ (x.instr = .minit f → b.kind = false ∧ b.ringBase = x.ka.base.toNat ∧
            b.curoff = (x.ka.addr.toNat - x.ka.base.toNat) / 64 ∧ b.ringLen = (x.ka.top - x.ka.base).toNat) ∧
          (x.instr = .minitPort f → b.kind = true ∧ b.port = f.b.toNat) ∧ b.sat = f.imm.getLsbD 10 ∧ b.rfmt = f.fmt ∧
          b.count = (f.imm.extractLsb' 0 10).toNat + 1 ∧ b.count0 = b.count ∧ b.prog = 0 ∧ b.owner = owner ∧ b.armer = n)) ∧
      (x.instr = .mrel f ∨ x.instr = .mrd f → x.wr < mxLines x → x.ka.addr.toNat % 64 = 0 →
        let len := if x.instr = .mrel f then 64 / sz f.fmt else 8
        let size := if x.instr = .mrel f then sz f.fmt else 8
        let word := x.instr = .mrd f ∧ f.imm.getLsbD 0 = true
        let written := fun (t : State) =>
          (¬word → outside at' 64 t ∧ marked at' 64 a.psn t ∧ ∀ e, e < len → (t.tile k).number (at' + e * size) size =
            if x.instr = .mrel f then (relElem f.fmt (f.imm.getLsbD 0) (a.elem (len * x.wr + e))).bits % 256 ^ size
            else (a.elem (8 * x.wr + e)).toNat) ∧
          (word → outside at' 8 t ∧ marked at' 8 false t ∧ (t.tile k).number at' 8 = (accWord a).toNat)
        (x.wr + 1 < mxLines x → later .mx (.mxCommandComplete k n) { x with started := true, wr := x.wr + 1 } fun t =>
          written t ∧ (t.tile k).accs = t0.accs) ∧
        (x.wr + 1 = mxLines x → ends fun t => written t ∧ tagged x t ∧
          (let b := (t.tile k).acc c
           (x.instr = .mrd f → b = a) ∧ (x.instr = .mrel f → zero b ∧ b.owner = none ∧ b.counted = a.counted)))) ∧
      (x.instr = .mma f → (mxReads t0 x).length ≤ x.rd →
        let g := (mmaArgs t0 x f).got
        let add := fun (e : Nat) => addChunk (a.elem e) (chunkSum x.view g (e / g.cols) (e % g.cols) x.done)
        let nan := x.events.getLsbD 0 = true ∨ ∃ e, e < 1024 ∧ (add e).2.1 = true
        let inf := x.events.getLsbD 1 = true ∨ ∃ e, e < 1024 ∧ (add e).2.2 = true
        let psn := x.events.getLsbD 2 = true ∨ x.gbad ≠ []
        let rel := fun (e : Nat) => (relElem a.rfmt a.sat (add e).1).bits % 256 ^ sz a.rfmt
        let line := fun (b : Acc) (e row cols : Nat) =>
          (b.buf[row * ceilDiv (cols * sz a.rfmt) 64 + e * sz a.rfmt / 64]?.getD 0).toNat / 256 ^ (e * sz a.rfmt % 64) % 256 ^ sz a.rfmt
        (x.done + 1 < mmaChunks f → ∃ ev : BitVec 3, (ev.getLsbD 0 = true ↔ nan) ∧ (ev.getLsbD 1 = true ↔ inf) ∧
          (ev.getLsbD 2 = true ↔ psn) ∧ later .mx (.mxCommandComplete k n)
            { x with started := true, done := x.done + 1, rd := 0, got := [], gbad := [], events := ev } fun t => alone t ∧ outside 0 0 t ∧
              (let b := (t.tile k).acc c
               b = { a with data := b.data, owner := owner } ∧ ∀ e, e < 1024 → b.elem e = (add e).1)) ∧
        (mmaChunks f ≤ x.done + 1 → a.counted = false ∨ a.count ≠ 1 → ends fun t => tagged x t ∧ outside 0 0 t ∧
          (let b := (t.tile k).acc c
           (∀ e, e < 1024 → b.elem e = (add e).1) ∧ b.live = true ∧ (b.nan = true ↔ a.nan = true ∨ nan) ∧
            (b.inf = true ↔ a.inf = true ∨ inf) ∧ (b.psn = true ↔ a.psn = true ∨ psn) ∧ b.owner = owner ∧ b.shape = a.shape ∧
            b.count = (if a.counted then a.count - 1 else a.count))) ∧
        (mmaChunks f ≤ x.done + 1 → a.counted = true → a.count = 1 → ends fun t => outside 0 0 t ∧
          (∀ m, ((t.tile k).ctx m).tags = (t0.ctx m).tags) ∧
          (let b := (t.tile k).acc c
           zero b ∧ b.counted = true ∧ b.count = a.count0 ∧ b.owner = owner ∧ b.sent = 0 ∧ b.prog = 0 ∧
            b.waiter = some (x.task, x.actor, f.tag, f.tok == 1) ∧ (b.bufPsn = true ↔ a.psn = true ∨ psn) ∧
            (a.kind = false → b.buf.length = 16 * sz a.rfmt ∧ ∀ e, e < 1024 → line b e 0 0 = rel e) ∧
            (a.kind = true → b.buf.length = shapeRows a.shape * ceilDiv (shapeCols a.shape * sz a.rfmt) 64 ∧
              ∀ row col, row < shapeRows a.shape → col < shapeCols a.shape →
                line b col row (shapeCols a.shape) = rel (row * shapeCols a.shape + col)))))) ∧
    (let a := t0.acc n
     let held := (t0.actor (t0.port a.port).actor).held
     let sz := if a.rfmt = 9 then 2 else 4
     let after := fun (t : State) (rest : List Line) (b : Acc) => (t.tile k).acc n = b ∧ b.buf = rest ∧ b.sent = a.sent + 1 ∧
       (rest = [] → b.prog = 0 ∧ b.waiter = none ∧
         ∀ task act tag tok, a.waiter = some (task, act, tag, tok) → ∀ m, (t0.ctx m).task = task → (t0.ctx m).mode ≠ .free →
           ((t.tile k).ctx m).tags = (t0.ctx m).tags ||| (1#64 <<< tag.toNat)) ∧
       (rest ≠ [] → b.waiter = a.waiter ∧ (∀ m, ((t.tile k).ctx m).tags = (t0.ctx m).tags) ∧
         b.prog = if a.kind then (a.sent + 1) / ceilDiv a.bufRow 64 else (a.sent + 1) * 64 / a.bufRow)
     (a.buf = [] ∨ (a.kind = true ∧ (held = true ∨ s.portRoom k a.port = 0)) → Idle (.releaseTokenSend k n) s) ∧
     (∀ y rest, a.buf = y :: rest → a.kind = false → ∃ t b, exec (.releaseTokenSend k n) s = .next t ∧ kept t ∧ after t rest b ∧
       (let lo := a.ringBase + a.curoff * 64 + 64 * a.sent
        (t.tile k).number lo 64 = y.toNat ∧ outside lo 64 t ∧ (lo % 64 = 0 → marked lo 64 a.bufPsn t)) ∧
       b.curoff = (if rest ≠ [] then a.curoff
         else if (a.curoff + 16 * sz) * 64 = a.ringLen then 0 else a.curoff + 16 * sz)) ∧
     ∀ y rest id c, a.buf = y :: rest → a.kind = true → held = false → 0 < s.portRoom k a.port → (t0.port a.port).chan = some id →
       (t0.port a.port).ordered = false → s.chan? id = some c →
       ∃ t b, exec (.releaseTokenSend k n) s = .next t ∧ kept t ∧ s.sameTlm t ∧ after t rest b ∧ b.curoff = a.curoff ∧
         (rest ≠ [] ∨ a.waiter = none → EnteredChan t id c (if a.bufPsn then .poison else .data) y)) ∧
    (engTake t0 .lc (lcReady t0) n = none → Idle (.lcCommandComplete k n) s) ∧
    (∀ x r, engTake t0 .lc (lcReady t0) n = some x → (lcReads x)[x.rd]? = some r → reads .lc (.lcCommandComplete k n) x r) ∧
    ∀ x f, engTake t0 .lc (lcReady t0) n = some x → (lcReads x).length ≤ x.rd →
      let fab := t0.fabric
      let ends := fun (does : State → Fabric → Prop) => leaves .lc (.lcCommandComplete k n) fun t => tagged x t ∧
        (t.tile k).fabric.owner = fab.iOwner ∧ does t (t.tile k).fabric
      let at' := x.ka.addr.toNat
      let num := x.kb.word.toNat
      let p0 := f.imm.toNat
      let first := (f.imm.extractLsb' 0 10).toNat
      let w := if f.fmt = 0 then 64 else etypeWidth f.fmt
      let v := x.view
      let planes := fun (g : Fabric) => ∀ p, g.plane p = fab.plane p
      let tables := fun (g : Fabric) => ∀ p, g.table p = fab.table p
      let poisoned := fun (lo len : Nat) => NSet.meets fab.pPlanes lo (lo + len)
      (x.instr = .lsel f → ends fun t g => g.cur = f.c.extractLsb' 0 2 ∧ planes g ∧ tables g ∧ outside 0 0 t) ∧
      (x.instr = .ltab f → ends fun t g => planes g ∧ outside 0 0 t ∧
        (∀ j, j < num → g.table (first + j) = BitVec.ofNat 64 (v.number (at' + 8 * j) 8) ∧
          NSet.mem g.pTables (first + j) = (v.badWord (at' + 8 * j) 8).isSome) ∧
        ∀ p, p < first ∨ first + num ≤ p → g.table p = fab.table p) ∧
      (x.instr = .ltabStream f →
        let held := (t0.stream f.c.toNat).held
        let one := fun (t : State) (g : Fabric) => planes g ∧ outside 0 0 t ∧ g.owner = fab.iOwner ∧
          ((t.tile k).stream f.c.toNat).held = held.drop 8 ∧
          (8 ≤ held.length → g.table (first + x.done) = BitVec.ofNat 64 (leNat ((held.take 8).map (·.1))) ∧
            NSet.mem g.pTables (first + x.done) = (held.take 8).any (·.2)) ∧
          (held.length < 8 → g.table (first + x.done) = 0 ∧ NSet.mem g.pTables (first + x.done) = true) ∧
          ∀ p, p ≠ first + x.done → g.table p = fab.table p
        (x.done + 1 < num → later .lc (.lcCommandComplete k n) { x with started := true, done := x.done + 1 } fun t =>
          one t (t.tile k).fabric) ∧
        (num ≤ x.done + 1 → ends one)) ∧
      (x.instr = .lwire f → ends fun t g => planes g ∧ tables g ∧ outside 0 0 t ∧ (g.wire f.c.toNat).n = p0 + 1 ∧
        ∀ j, j < p0 + 1 → g.cell f.c.toNat j = BitVec.ofNat 128 (v.number (at' + 16 * j) 16)) ∧
      (x.instr = .leval f → ends fun t g => tables g ∧ outside 0 0 t ∧
        let cells := (fab.wire fab.cur.toNat).n
        (∀ j, j < cells → 2 ≤ cellOut (fab.cell fab.cur.toNat j) →
          (∀ m, j < m → m < cells → cellOut (fab.cell fab.cur.toNat m) ≠ cellOut (fab.cell fab.cur.toNat j)) →
          g.plane (cellOut (fab.cell fab.cur.toNat j)) = evalCell fab (fab.cell fab.cur.toNat j)) ∧
        ∀ p, (p < 2 ∨ ∀ j, j < cells → cellOut (fab.cell fab.cur.toNat j) ≠ p) → g.plane p = fab.plane p) ∧
      (x.instr = .lslice f → ends fun t g => tables g ∧ outside 0 0 t ∧
        (∀ b q, b < w → q < 64 → 2 ≤ p0 + b →
          (g.plane (p0 + b)).getLsbD q = (v.number (at' + q * w / 8) (w / 8)).testBit b) ∧
        ∀ p, p < 2 ∨ p < p0 ∨ p0 + w ≤ p → g.plane p = fab.plane p) ∧
      (x.instr = .lpld f → ends fun t g => tables g ∧ outside 0 0 t ∧
        (∀ j, j < num → 2 ≤ p0 + j → g.plane (p0 + j) = BitVec.ofNat 64 (v.number (at' + 8 * j) 8)) ∧
        ∀ p, p < 2 ∨ p < p0 ∨ p0 + num ≤ p → g.plane p = fab.plane p) ∧
      (∀ lo len, (lcPieces x)[x.wr]? = some (lo, len) →
        let full := fun (size : Nat) (e : Nat) => lo ≤ at' + e * size ∧ at' + (e + 1) * size ≤ lo + len
        let out := fun (does : State → Prop) =>
          (x.wr + 1 < (lcPieces x).length → later .lc (.lcCommandComplete k n) { x with started := true, wr := x.wr + 1 } fun t =>
            (t.tile k).fabric = fab ∧ outside lo len t ∧ does t) ∧
          (x.wr + 1 = (lcPieces x).length → ends fun t g => planes g ∧ tables g ∧ outside lo len t ∧ does t)
        (x.instr = .lunslice f → at' % 64 = 0 → out fun t => marked lo len (poisoned p0 w) t ∧ ∀ q b, full (w / 8) q → b < w →
          ((t.tile k).number (at' + q * (w / 8)) (w / 8)).testBit b = (fab.plane (p0 + b)).getLsbD q) ∧
        (x.instr = .lpst f → at' % 8 = 0 → out fun t => ∀ j, full 8 j →
          (t.tile k).number (at' + 8 * j) 8 = (fab.plane (p0 + j)).toNat ∧
          (t.tile k).spoilt (at' + 8 * j) = NSet.mem fab.pPlanes (p0 + j)) ∧
        (x.instr = .lpcnt f → at' % 64 = 0 → out fun t => marked lo len (poisoned p0 num) t ∧ ∀ q, full 2 q →
          (t.tile k).number (at' + 2 * q) 2 = ((List.range num).filter fun j => (fab.plane (p0 + j)).getLsbD q).length % 65536))

/-- 10 R258 to R265: the execution of DM commands, access by access, and the streams. -/
def Obligations.StreamEngine : Prop :=
  ∀ (k n : Nat) (s : State),
    let t0 := s.tile k
    let left := fun (t : State) => ((t.tile k).ctx n).dmq = (t0.ctx n).dmq.drop 1 ∧ s.sameCtxs t ∧ ∀ q, q ≠ k → t.tile q = s.tile q
    (∀ i ∈ [Instr.dcopyComplete k n, .remoteLineWrite n, .dcopyRefusal k n, .streamTokenPut k n, .streamTokenTake k n],
      ∃ t, exec i s = .next t) ∧
    (engTake t0 .dm (dmReady s k) n = none → Idle (.dcopyComplete k n) s) ∧
    (∀ x f, engTake t0 .dm (dmReady s k) n = some x →
      let i := f.c.toNat
      let st := t0.stream i
      let ends := fun (does : State → Prop) => ∃ t, exec (.dcopyComplete k n) s = .next t ∧ left t ∧ s.sameGmem t ∧ does t
      let set := fun (t : State) => TagSet s t k x.task f.tag
      let lines := f.imm.toNat + 1
      let src := x.kb.addr.toNat + 64 * x.done
      let dst := x.ka.addr.toNat + 64 * x.done
      let sp := ctxSpace s k n
      let later := fun (y : EngCmd) (does : State → Prop) => ∃ t, exec (.dcopyComplete k n) s = .next t ∧ s.sameCtxs t ∧
        (∀ q, q ≠ k → t.tile q = s.tile q) ∧ ((t.tile k).ctx n).dmq = y :: (t0.ctx n).dmq.drop 1 ∧
        (∀ m, ((t.tile k).ctx m).tags = (t0.ctx m).tags) ∧ does t
      let goes := fun (y : EngCmd) (does : State → Prop) =>
        (x.done + 1 < lines → later y does) ∧ (lines ≤ x.done + 1 → ∃ t, exec (.dcopyComplete k n) s = .next t ∧ left t ∧ set t ∧ does t)
      let moving := x.stopped = none ∧ x.done < lines
      let stops := fun (code : Byte) (va : Nat) =>
        (linesOut s k x.op = true → later { x with
          stopped := some (code, BitVec.ofNat 64 va), waiting := none, rd := 0, got := [], gbad := [], draining := true } fun t =>
            s.sameTlm t ∧ s.sameGmem t) ∧
        (linesOut s k x.op = false → ends fun t => set t ∧ s.sameTlm t ∧
          ∀ m, (t0.ctx m).task = x.task → (t0.ctx m).mode ≠ .free → ∃ l, ((t.tile k).ctx m).lates = (t0.ctx m).lates ++ [l] ∧
            l.code = code ∧ l.val = BitVec.ofNat 64 va ∧ l.pc = x.pc ∧ l.tag = some f.tag ∧ l.vd = none ∧ l.late = true)
      let reads := fun (bytes : Nat → Byte) (bad : Bool) => ∃ y : EngCmd, y = { x with rd := 1, got := y.got, gbad := y.gbad } ∧
        (∀ j, j < 64 → Memory.read y.got j = bytes j) ∧ (y.gbad ≠ [] ↔ bad = true) ∧ later y fun t => s.sameTlm t ∧ s.sameGmem t
      (x.instr = .dcopy f →
        (x.stopped ≠ none ∨ lines ≤ x.done →
          (linesOut s k x.op = true → later { x with draining := true } fun t => s.sameTlm t ∧ s.sameGmem t) ∧
          (linesOut s k x.op = false → ends fun t => set t ∧ s.sameTlm t ∧ ∀ y, x.stopped = some y →
            ∀ m, (t0.ctx m).task = x.task → (t0.ctx m).mode ≠ .free → ∃ l, ((t.tile k).ctx m).lates = (t0.ctx m).lates ++ [l] ∧
              l.code = y.1 ∧ l.val = y.2 ∧ l.pc = x.pc ∧ l.tag = some f.tag ∧ l.vd = none ∧ l.late = true)) ∧
        (moving → x.rd = 0 → x.kb.has .tlm = true →
          reads (fun j => Memory.read t0.tlm (src + j)) (t0.badWord src 64).isSome) ∧
        (moving → x.rd = 0 → x.kb.has .tlm = false →
          (∀ pa, (translate s k sp src true false false).2 = .ok pa → engWay s k x.task x.op pa = .open →
            reads (fun j => Memory.read s.gmem (pa.toNat + j)) (s.gBad pa.toNat 64)) ∧
          ((translate s k sp src true false false).2 = .wait → later (x.waitAt (BitVec.ofNat 48 src)) fun t => s.sameTlm t ∧ s.sameGmem t) ∧
          (src < 2 ^ 48 → (translate s k sp src true false false).2 = .denied → stops 0x09 src) ∧
          (src < 2 ^ 48 → (translate s k sp src true false false).2 = .perm → stops 0x05 src)) ∧
        (let moved : EngCmd := { x with done := x.done + 1, rd := 0, got := [], gbad := [] }
         moving → x.rd ≠ 0 →
          (f.d = 0 → x.ka.has .tlm = true → x.ka.has .x = false → linesOut s k x.op = false → dst % 64 = 0 → goes moved fun t =>
            s.sameGmem t ∧ (∀ j, j < 64 → Memory.read (t.tile k).tlm (dst + j) = Memory.read x.got j) ∧
            (∀ a, a < dst ∨ dst + 64 ≤ a → Memory.read (t.tile k).tlm a = Memory.read t0.tlm a) ∧
            ∀ w, w < 8 → (t.tile k).spoilt (dst + 8 * w) = decide (x.gbad ≠ [])) ∧
          (∀ pa, f.d = 0 → (x.ka.has .tlm = false ∨ x.ka.has .x = true) → linesOut s k x.op = false →
            (translate s k sp dst false true false).2 = .ok pa → engWay s k x.task x.op pa = .open → goes moved fun t => s.sameTlm t ∧
              (∀ j, j < 64 → Memory.read t.gmem (pa.toNat + j) = Memory.read x.got j) ∧
              (∀ a, a < pa.toNat ∨ pa.toNat + 64 ≤ a → Memory.read t.gmem a = Memory.read s.gmem a) ∧
              (x.gbad ≠ [] → t.gBad pa.toNat 64 = true)) ∧
          (∀ d, f.d ≠ 0 → s.namedTile x.kd.word = some d →
            later (if x.done + 1 < lines then moved else { moved with draining := true }) fun t => s.sameTlm t ∧ s.sameGmem t ∧
              t.nextRLine = s.nextRLine + 1 ∧ (∀ m, m ≠ s.nextRLine → AMap.get? t.rlines m = AMap.get? s.rlines m) ∧
              AMap.getD (t.tile k).unack x.task 0 = AMap.getD t0.unack x.task 0 + 1 ∧
              ∃ l, AMap.get? t.rlines s.nextRLine = some l ∧ l.src = k ∧ l.op = x.op ∧ l.dst = d ∧ l.addr = dst ∧
                (∀ j, j < 64 → BitVec.ofNat 8 (l.data.toNat / 256 ^ j) = Memory.read x.got j) ∧ l.poisoned = decide (x.gbad ≠ []) ∧
                l.resid = t0.slot.resid))) ∧
      (x.instr = .dscfg f → ends fun t => set t ∧ s.sameTlm t ∧ (∀ m, m ≠ i → (t.tile k).stream m = t0.stream m) ∧
        let y := (t.tile k).stream i
        y.configured = true ∧ y.desc = x.data ∧ y.pos = 0 ∧ y.tlb = none ∧ y.held = [] ∧ y.denied = false ∧ y.run = st.run ∧
        y.claim = st.claim) ∧
      (x.instr = .dsgo f → ends fun t => (∀ m, ((t.tile k).ctx m).tags = (t0.ctx m).tags) ∧ s.sameTlm t ∧
        let y := (t.tile k).stream i
        y.run = true ∧ y.pos = st.pos ∧ y.stopped = false ∧ y.denied = false ∧ y.eosin = false ∧ st.sameConfig y ∧
        y.go = some (x.task, f.tag, f.tok == 1, x.actor) ∧ y.goOp = x.op) ∧
      (x.instr = .dsstop f → ends fun t => set t ∧ s.sameTlm t ∧
        (st.run = false → (t.tile k).stream i = st) ∧
        (st.run = true → ((t.tile k).stream i).run = false ∧ ((t.tile k).stream i).stopped = true ∧ ((t.tile k).stream i).pos = st.pos ∧
          ((t.tile k).stream i).eosDue = st.eosDue ∧
          ∀ task tag tok act, st.go = some (task, tag, tok, act) → TagSet s t k task tag)) ∧
      (x.instr = .dbank f → ends fun t => set t ∧ s.sameTlm t ∧ ∀ id c b seq, f.tok = 0 → x.data = [seq] →
        (t0.port i).ordered = false → (t0.port i).chan = some id → s.chan? id = some c → c.branches = [b] →
        ∃ (d : Chan) (tok : Token), t.chan? id = some d ∧
          tok.kind = .bank ∧ tok.seq = seq.toNat ∧ tok.payload = (f.imm.extractLsb' 0 4).setWidth 512 ∧ d.seq = c.seq ∧
          d.reserved = AMap.erase c.reserved seq.toNat ∧
          d.branches.map (·.flights) = [b.flights ++ [{ tok := tok, after := [] }]])) ∧
    (AMap.get? s.rlines n = none → Idle (.remoteLineWrite n) s) ∧
    (∀ l, AMap.get? s.rlines n = some l →
      let copy := fun (p : Nat × RLine) => p.2.src = l.src ∧ p.2.op = l.op
      let bank := l.addr / 2 ^ 18 % 16
      let takes := (s.tile l.dst).placed.getLsbD bank = true ∧ (s.tile l.dst).exec.getLsbD bank = false ∧
        (s.tile l.dst).slot.resid = l.resid
      ((∃ p ∈ s.rlines, copy p ∧ p.1 < n) → Idle (.remoteLineWrite n) s) ∧
      ((∀ p ∈ s.rlines, copy p → n ≤ p.1) → ∃ t, exec (.remoteLineWrite n) s = .next t ∧ s.sameGmem t ∧ s.sameCtxs t ∧
        (takes → AMap.get? t.rlines n = none ∧ (∀ m, m ≠ n → AMap.get? t.rlines m = AMap.get? s.rlines m) ∧
          (∀ j, j < 64 → Memory.read (t.tile l.dst).tlm (l.addr + j) = BitVec.ofNat 8 (l.data.toNat / 256 ^ j)) ∧
          (∀ q a, q ≠ l.dst ∨ a < l.addr ∨ l.addr + 64 ≤ a → Memory.read (t.tile q).tlm a = Memory.read (s.tile q).tlm a) ∧
          AMap.getD (t.tile l.src).unack l.task 0 = AMap.getD (s.tile l.src).unack l.task 0 - 1) ∧
        (¬takes → s.sameTlm t ∧ (∀ p ∈ t.rlines, ¬copy p) ∧ (∀ p ∈ s.rlines, ¬copy p → p ∈ t.rlines) ∧
          (t.tile l.src).refusals = (s.tile l.src).refusals ++ [⟨l.task, l.op, BitVec.ofNat 64 l.addr, l.pc⟩]))) ∧
    ((t0.ctx n).dmq = [] → Idle (.dcopyRefusal k n) s) ∧
    (∀ x rest r, (t0.ctx n).dmq = x :: rest →
      ((∀ y ∈ t0.refusals, y.op ≠ x.op) → Idle (.dcopyRefusal k n) s) ∧
      (t0.refusals.find? (fun y => y.op == x.op) = some r → ∃ t, exec (.dcopyRefusal k n) s = .next t ∧ left t ∧ s.sameGmem t ∧ s.sameTlm t ∧
        TagSet s t k x.task x.ew.tag ∧ (t.tile k).refusals = t0.refusals.erase r ∧
        ∀ m, (t0.ctx m).task = x.task → (t0.ctx m).mode ≠ .free → ∃ l more, ((t.tile k).ctx m).lates = (t0.ctx m).lates ++ l :: more ∧
          l.code = 0x05 ∧ l.val = r.addr ∧ l.pc = x.pc ∧ l.tag = none ∧ l.vd = none ∧ l.late = true ∧
          (x.stopped = none → more = []) ∧ ∀ y, x.stopped = some y → ∃ z, more = [z] ∧ z.code = y.1 ∧ z.val = y.2 ∧
            z.tag = some x.ew.tag)) ∧
    (let st := t0.stream n
     let d := st.desc
     let p := t0.port (descPort d)
     let sz := descSize d
     let per := (if p.line then 64 else 8) / sz
     let total := descTotal d
     let va := descAddr d st.pos
     let room := s.portRoom k (descPort d)
     let snapping := (s.resOf (s.handleOf k)).snapping
     let way := fun (e : TlbEntry) => engWay s k ((st.go.map (·.1)).getD 0) st.goOp (e.physical va)
     let here := fun (t : State) (y : Stream) => (t.tile k).stream n = y ∧ Quiet s t
     let goes := fun (t : State) => ∀ task tag tok act, st.go = some (task, tag, tok, act) → TagSet s t k task tag
     let finished := fun (t : State) (pos : Nat) => goes t ∧ ((t.tile k).stream n).run = false ∧ ((t.tile k).stream n).pos = pos ∧
       ((t.tile k).stream n).eosDue = if descDir d = 0 ∧ descEosOut d then some 0 else none
     let silent := ∀ a b c, st.go ≠ some (a, b, true, c)
     (putReady262 s k n = false → Idle (.streamTokenPut k n) s) ∧
     (takeReady262 s k n = false → Idle (.streamTokenTake k n) s) ∧
     (∀ v, st.eosDue = some v →
       (snapping = true ∨ room = 0 → Idle (.streamTokenPut k n) s) ∧
       ∀ id c, snapping = false → 0 < room → p.ordered = false → p.chan = some id → s.chan? id = some c →
         ∃ t, exec (.streamTokenPut k n) s = .next t ∧ here t { st with eosDue := none } ∧ EnteredChan t id c .eos (v.setWidth 512) ∧
           ((t.tile k).port (descPort d)).closed = true) ∧
     (streamLive s k st = true → st.eosDue = none →
       (streamOut st = true → descDir d ≠ 1 → ∃ t, exec (.streamTokenPut k n) s = .next t ∧ Quiet s t ∧ finished t st.pos) ∧
       (descDir d = 0 → tokenHeld t0 st = true → p.ordered = false →
         (room = 0 → Idle (.streamTokenPut k n) s) ∧
         (0 < room → ∃ t, exec (.streamTokenPut k n) s = .next t ∧ Quiet s t ∧
           (st.pos < total → (t.tile k).stream n = { st with held := [] }) ∧ (total ≤ st.pos → finished t st.pos) ∧
           ∀ id c, p.chan = some id → s.chan? id = some c → st.pos < total ∨ silent → ∃ y : Line,
             EnteredChan t id c (if st.held.any (·.2) then .poison else .data) y ∧
             (st.held.length ≤ 64 → y.toNat = leNat (st.held.map (·.1))))) ∧
       (descXe8 d = false → st.pos < total → (descDir d = 0 ∧ tokenHeld t0 st = false) ∨ descDir d = 2 →
         let next := fun (t : State) (y : Stream) =>
           (descDir d = 0 ∨ st.pos + 1 < total → here t y) ∧ (descDir d = 2 → total ≤ st.pos + 1 → Quiet s t ∧ finished t (st.pos + 1) ∧
             ((t.tile k).stream n).held = y.held)
         (∀ e, StreamHit s k st va false e →
           (way e = .waiting → Idle (.streamTokenPut k n) s) ∧
           (way e = .open → ∃ t, exec (.streamTokenPut k n) s = .next t ∧ next t { st with
             pos := st.pos + 1
             held := st.held ++ (List.range sz).map fun j =>
               (Memory.read s.gmem ((e.physical va).toNat + j), s.gBad (e.physical va).toNat sz) }) ∧
           (way e = .dead → sz ≤ 64 → ∃ t bs, exec (.streamTokenPut k n) s = .next t ∧ bs.length = sz ∧ (∀ b ∈ bs, b.2 = true) ∧
             next t { st with pos := st.pos + 1, held := st.held ++ bs })) ∧
         ((streamTrans s k st va false).2 = .wait → ∃ t, exec (.streamTokenPut k n) s = .next t ∧
           here t { st with waiting := some (BitVec.ofNat 48 va) }) ∧
         ((streamTrans s k st va false).2 = .denied → ∃ t, exec (.streamTokenPut k n) s = .next t ∧ Quiet s t ∧ goes t ∧
           ((t.tile k).stream n).denied = true ∧ ((t.tile k).stream n).run = false ∧ ((t.tile k).stream n).pos = st.pos ∧
           ((t.tile k).stream n).eosDue = if descDir d = 0 ∧ descEosOut d then some 9 else none) ∧
         ((streamTrans s k st va false).2 = .perm → ∃ t, exec (.streamTokenPut k n) s = .next t ∧ Quiet s t ∧ goes t ∧
           ((t.tile k).stream n).denied = true ∧ ((t.tile k).stream n).eosDue = if descDir d = 0 ∧ descEosOut d then some 5 else none)) ∧
       (∀ x, descXe8 d = false → descDir d = 1 → st.pos < total → 1 ≤ per → AMap.get? p.q p.h = some x →
         (x.kind = .round → ∃ t, exec (.streamTokenTake k n) s = .next t ∧ here t st ∧ ((t.tile k).port (descPort d)).h = p.h + 1) ∧
         (x.kind = .eos → ∃ t, exec (.streamTokenTake k n) s = .next t ∧ Quiet s t ∧ goes t ∧ ((t.tile k).stream n).run = false ∧
           ((t.tile k).stream n).eosin = true ∧ ((t.tile k).stream n).pos = st.pos ∧
           (silent → (t.tile k).port (descPort d) = p)) ∧
         (∀ e, x.kind = .data ∨ x.kind = .null ∨ x.kind = .poison → StreamHit s k st va true e →
           let took := fun (t : State) => s.sameCtxs t ∧ s.sameTlm t ∧ ((t.tile k).stream n).pos = st.pos + 1 ∧
             ((t.tile k).port (descPort d)).h = (if (st.pos + 1) % per = 0 ∨ total ≤ st.pos + 1 then p.h + 1 else p.h) ∧
             (total ≤ st.pos + 1 → ((t.tile k).stream n).run = false ∧ goes t)
           (way e = .waiting → Idle (.streamTokenTake k n) s) ∧
           (way e = .dead → ∃ t, exec (.streamTokenTake k n) s = .next t ∧ s.sameGmem t ∧ took t) ∧
           (way e = .open → ∃ t, exec (.streamTokenTake k n) s = .next t ∧ took t ∧
             (let pa := (e.physical va).toNat
              let y := if x.kind = .null then 0 else t0.readTlm (p.slotAddr p.h) (if p.line then 64 else 8)
              (∀ j, j < sz → Memory.read t.gmem (pa + j) = BitVec.ofNat 8 (y / 256 ^ (st.pos % per * sz + j))) ∧
              (∀ a, a < pa ∨ pa + sz ≤ a → Memory.read t.gmem a = Memory.read s.gmem a) ∧
              (x.kind = .poison → 1 ≤ sz → t.gBad pa sz = true)))))))

/-- 12 R300 to R307, 02 R58: sweeps. -/
def Obligations.Sweeps : Prop :=
  (∀ (f : EW) (s : State),
    let ka := s.me.readK f.a
    let kb := s.me.readK f.b
    let r := readDesc s.here ka.addr.toNat
    let va := kb.addr.toNat
    let n := boardLen (recW r 0)
    let w2 : Word := (recW r 2).extractLsb' 0 32 |>.setWidth 64
    let free := tagBusy s s.cur.tile s.me.task f.tag = false ∧ s.tlmFree
    let pa := fun (w : Bool) => (translate s s.cur.tile (ctxSpace s s.cur.tile s.cur.ctx) ka.addr.toNat true w false).2
    let sends := fun (i : Instr) (q : GReq) => ∃ t, exec i s = .next t ∧ HandedOver s t ∧
      (∃ after, AMap.get? t.here.reqs s.here.nextOp = some { q with after := after }) ∧
      (∀ j, j ≠ s.here.nextOp → AMap.get? t.here.reqs j = AMap.get? s.here.reqs j) ∧
      (match q.tag with
        | some g => tagCleared s t g
        | none => t.me.tags = s.me.tags)
    let q : GReq :=
      { op := .swq, task := s.me.task, ctxNo := s.cur.ctx, actor := s.me.actor, va := ka.addr, pa := 0, n := 8, data := kb.word, cmp := 0
        dest := some f.d, async := false, tok := false, tag := none, order := 1, scope := 2, pc := s.me.pc, after := []
        performed := false, reply := none, win := false, seq := none, onlyRetry := false, resid := s.here.slot.resid }
    (s.kReady [f.a, f.b] [f.a, f.b] [] →
      (s.me.role = .team → Traps (.sweep f) s 0x17 0x260) ∧
      (s.me.role ≠ .team → ¬free → Stalls (.sweep f) s) ∧
      (s.me.role ≠ .team → free → tlmCheck (grantOf s s.cur.tile s.me) ka ka.addr.toNat 64 64 [.r] = none →
        s.here.badWord ka.addr.toNat 64 = none →
        (∀ m, recCheck r = some m → Traps (.sweep f) s 0x10 (BitVec.ofNat 64 m)) ∧
        (recCheck r = none → placeOk s r = false → Traps (.sweep f) s 0x14 w2) ∧
        (recCheck r = none → placeOk s r = true →
          (∀ code, GlobalBad kb va n 64 [.r, .w] code → Traps (.sweep f) s code (kb.addr.setWidth 64)) ∧
          (GlobalOk kb va n 64 [.r, .w] → ∀ s1 ps, transPages va ((va + n - 1) / 2 ^ 16 - va / 2 ^ 16 + 1) s = .ok (s1, ps) →
            TokenOk s f.tok → ∃ t w, exec (.sweep f) s = .next t ∧ HandedOver s t ∧ AMap.get? t.sweeps s.nextSweep = some w ∧
              (∀ m, m ≠ s.nextSweep → AMap.get? t.sweeps m = AMap.get? s.sweeps m) ∧ t.nextSweep = s.nextSweep + 1 ∧
              tagCleared s t f.tag ∧ w.phase = .launching ∧ w.tile = s.cur.tile ∧ w.task = s.me.task ∧ w.actor = s.me.actor ∧
              w.tag = f.tag ∧ w.tok = (f.tok == 1) ∧ w.resid = s.here.slot.resid ∧ w.record = r ∧ w.sbva = kb.addr ∧ w.pages = ps ∧
              w.tiles = placeTiles s r ∧ w.accepted = [] ∧ w.param = ⟨s.here.gtag (ka.addr.toNat + 32),
                BitVec.ofNat 128 (s.here.number (ka.addr.toNat + 32) 16)⟩)))) ∧
    (s.kReady [f.d, f.a, f.b] [f.a, f.b] [f.d] →
      (swHold s = true → Stalls (.swq f) s) ∧
      (swHold s = false → (∀ code, GlobalBad ka ka.addr.toNat 64 64 [.r] code → Traps (.swq f) s code (ka.addr.setWidth 64)) ∧
        ∀ p, GlobalOk ka ka.addr.toNat 64 64 [.r] → pa false = .ok p → sends (.swq f) { q with pa := p })) ∧
    (s.kReady [f.a] [f.a] [] →
      (swHold s = true ∨ tagBusy s s.cur.tile s.me.task f.tag = true → Stalls (.swabt f) s) ∧
      (swHold s = false → tagBusy s s.cur.tile s.me.task f.tag = false → ∀ p, GlobalOk ka ka.addr.toNat 64 64 [.r, .w] →
        pa true = .ok p → TokenOk s f.tok → sends (.swabt f) { q with
          op := .swabt, pa := p, data := s.here.slot.resid.setWidth 64, dest := none, async := true, tok := f.tok == 1, tag := some f.tag
          order := 0 }))) ∧
  (∀ (k id d : Nat) (s : State) (q : GReq) (h r0 : Word) (b : Byte), AMap.get? (s.tile k).reqs id = some q →
    q.reply = some (.swq h r0 b) → (q.ctxNo = 0 ∨ q.resid = (s.tile k).slot.resid) → q.seq = none → q.tag = none → q.dest = some (BitVec.ofNat 6 d) →
    let idx := fun (j : Nat) => q.data.toNat / 2 ^ (16 * j) % 2 ^ 16
    let ext := fun (j : Nat) => if j < (r0.extractLsb' 48 2).toNat then r0.toNat / 2 ^ (16 * j) % 2 ^ 16 else 1
    let inside := idx 0 < ext 0 ∧ idx 1 < ext 1 ∧ idx 2 < ext 2
    let team := idx 0 + ext 0 * (idx 1 + ext 1 * idx 2)
    ∃ t, exec (.globalReply k id) s = .next t ∧ AMap.get? (t.tile k).reqs id = none ∧ s.sameTlm t ∧ s.sameGmem t ∧
      ∀ m, ((s.tile k).ctx m).task = q.task → ((s.tile k).ctx m).mode ≠ .free →
        (inside → ((t.tile k).ctx m).readK (BitVec.ofNat 6 d) = wroteK (BitVec.ofNat 6 d)
          ⟨false, BitVec.ofNat 128 (h.toNat / 2 ^ 60 * 2 ^ 60 + if b.getLsbD (team % 8) then 1 else 0)⟩) ∧
        (¬inside → (∀ r, ((t.tile k).ctx m).readK r = ((s.tile k).ctx m).readK r) ∧
          ∃ l, ((t.tile k).ctx m).lates = ((s.tile k).ctx m).lates ++ [l] ∧ l.code = 0x17 ∧ l.val = 0x360 ∧ l.pc = q.pc ∧ l.tag = none)) ∧
  ∀ (n k team : Nat) (s : State),
    (∀ i ∈ [Instr.sweepLaunch n, .sweepLaunchToken n k, .retireNotice n team, .sweepEnd n, .sweepPartition n, .sweepAbortConfirm n],
      ∃ t, exec i s = .next t) ∧
    (AMap.get? s.sweeps n = none → Idle (.sweepLaunch n) s ∧ Idle (.sweepLaunchToken n k) s ∧ Idle (.retireNotice n team) s ∧
      Idle (.sweepEnd n) s ∧ Idle (.sweepPartition n) s ∧ Idle (.sweepAbortConfirm n) s) ∧
    ∀ w, AMap.get? s.sweeps n = some w →
      let a := w.header
      let h := s.gRead a 8
      let w0 := recW w.record 0
      let w1 := recW w.record 1
      let launcher := fun (m : Nat) => ((s.tile w.tile).ctx m).task = w.task ∧ ((s.tile w.tile).ctx m).mode ≠ .free
      let late := fun (t : State) (code : Byte) (val : Word) => ∀ m, launcher m → ∃ l, ((t.tile w.tile).ctx m).lates =
        ((s.tile w.tile).ctx m).lates ++ [l] ∧ l.code = code ∧ l.val = val ∧ l.pc = w.pc ∧ l.tag = some w.tag ∧ l.atDone = true
      let ovr := fun (t : State) (state : Nat) => AMap.get? t.sweeps n = none ∧ TagSet s t w.tile w.task w.tag ∧ s.sameTlm t ∧
        t.gRead a 8 = state * 2 ^ 60 + h % 2 ^ 60 ∧ ∀ z, z < a ∨ a + 8 ≤ z → Memory.read t.gmem z = Memory.read s.gmem z
      let waits := ∀ id ∈ w.after, ∀ q, AMap.get? (s.tile w.tile).reqs id = some q → q.performed = true
      let same := s.gRead (a + 8) 8 = w0.toNat ∧ s.gRead (a + 16) 8 = w1.toNat
      let st := h / 2 ^ 60
      let starts := st = 0 ∨ ((st = 2 ∨ st = 3 ∨ st = 4) ∧ same)
      (w.phase ≠ .launching ∨ ¬waits → Idle (.sweepLaunch n) s) ∧
      (w.phase = .launching → waits → s.gBad a 24 = true → ∃ t, exec (.sweepLaunch n) s = .next t ∧ Quiet s t ∧
        AMap.get? t.sweeps n = none ∧ TagSet s t w.tile w.task w.tag ∧ late t 0x0C (w.sbva.setWidth 64)) ∧
      (w.phase = .launching → waits → s.gBad a 24 = false →
        (starts → ∃ t, exec (.sweepLaunch n) s = .next t ∧ s.sameCtxs t ∧ s.sameTlm t ∧
          t.gRead a 8 = 2 ^ 60 + w.resid.toNat * 2 ^ 48 + (h + 1) % 2 ^ 32 ∧ t.gRead (a + 8) 8 = w0.toNat ∧
          t.gRead (a + 16) 8 = w1.toNat ∧ (∀ z, z < a ∨ a + 24 ≤ z → Memory.read t.gmem z = Memory.read s.gmem z) ∧
          AMap.get? t.sweeps n = some { w with phase := .accepting }) ∧
        (¬starts → ∃ t, exec (.sweepLaunch n) s = .next t ∧ Quiet s t ∧ AMap.get? t.sweeps n = none ∧ TagSet s t w.tile w.task w.tag ∧
          (st = 1 → late t 0x17 0x160) ∧ (st ≠ 1 → late t 0x10 7))) ∧
      (let x := s.tile k
       let full := ∀ i, i < 4 → AMap.get? x.sweepSlots i ≠ none
       let teams := (tileTeams s w k).filter fun j => !retired s w j
       (w.phase ≠ .accepting ∨ k ∉ w.tiles ∨ k ∈ w.accepted ∨ full → Idle (.sweepLaunchToken n k) s) ∧
       (w.phase = .accepting → k ∈ w.tiles → k ∉ w.accepted → ∀ i, i < 4 → AMap.get? x.sweepSlots i = none →
         (∀ j, j < i → AMap.get? x.sweepSlots j ≠ none) → ∃ t y v, exec (.sweepLaunchToken n k) s = .next t ∧ Quiet s t ∧
           AMap.get? (t.tile k).sweepSlots i = some y ∧ y.sweep = n ∧ y.running = [] ∧ y.left = teams.length ∧
           (∀ j, j ∈ y.released ↔ j ∈ teams ∧ ∀ p ∈ teamNear w.record (-1) j, retired s w p = true) ∧
           (∀ j ∈ teams, AMap.getD y.counts j 0 = ((teamNear w.record (-1) j).filter fun p => !retired s w p).length) ∧
           AMap.get? t.sweeps n = some v ∧ v.accepted = w.accepted ++ [k] ∧
           (v.phase = .running ↔ ∀ p ∈ w.tiles, p ∈ w.accepted ++ [k]))) ∧
      (w.phase ≠ .running ∨ team ∉ w.notices → Idle (.retireNotice n team) s) ∧
      (w.phase = .running → team ∈ w.notices → w.tiles.Nodup → ∃ t, exec (.retireNotice n team) s = .next t ∧ Quiet s t ∧
        AMap.get? t.sweeps n = some { w with notices := w.notices.erase team } ∧
        ∀ i y c, k ∈ w.tiles → (s.tile k).slotOfSweep n = some i → AMap.get? (s.tile k).sweepSlots i = some y →
          AMap.get? y.counts team = some c → ∃ z, AMap.get? (t.tile k).sweepSlots i = some z ∧ z.running = y.running ∧
            (c ≤ 1 → AMap.get? z.counts team = none ∧ ∀ j, j ∈ z.released ↔ j = team ∨ j ∈ y.released) ∧
            (1 < c → AMap.get? z.counts team = some (c - 1) ∧ z.released = y.released)) ∧
      (sweepDone s n w = false → Idle (.sweepEnd n) s) ∧
      (sweepDone s n w = true → ∃ t, exec (.sweepEnd n) s = .next t ∧ ovr t 2 ∧ s.sameCtxs t ∧
        ∀ m, ((t.tile k).ctx m).lates = ((s.tile k).ctx m).lates) ∧
      (w.phase ≠ .accepting → w.phase ≠ .running → Idle (.sweepPartition n) s) ∧
      (cutOff s w = false → Idle (.sweepPartition n) s) ∧
      (w.phase = .accepting ∨ w.phase = .running → cutOff s w = true → (∀ m, launcher m → ((s.tile w.tile).ctx m).role ≠ .team) →
        ∃ t, exec (.sweepPartition n) s = .next t ∧ ovr t 4 ∧ late t 0x11 (w.sbva.setWidth 64) ∧
          ∀ i m, k ∈ w.tiles → (s.tile k).slotOfSweep n = some i → ((s.tile k).ctx m).role = .team → ((s.tile k).ctx m).sweepSlot = i →
            ((t.tile k).ctx m).mode = .free) ∧
      (w.phase ≠ .aborting → Idle (.sweepAbortConfirm n) s) ∧
      (w.phase = .aborting → ∃ t, exec (.sweepAbortConfirm n) s = .next t ∧ ovr t 3 ∧ s.sameCtxs t ∧
        ∀ p ∈ w.aborts, AMap.get? (t.tile p.1).reqs p.2 = none)

/-- 11 R269 to R287: the ordered class. -/
def Obligations.OrderedClass : Prop :=
  (∀ (f : EW) (s : State),
    let n := f.c.toNat
    let p := s.here.port n
    let line := f.imm.getLsbD 0
    let c := s.me.readK f.a
    let a := c.addr.toNat
    let time : Word := BitVec.ofNat 64 (s.timeOf s.cur.tile)
    let stamp := s.stampHere
    let val : Word := BitVec.ofNat 64 n
    (s.kReady [f.d, f.a] [f.a] [f.d] → isPrimary s = true → p.declared = true → p.output = true → p.actor = s.me.actor →
      p.stream = none → p.count ≠ 0 → p.ordered = false ∨ p.line ≠ line → Traps (.osend f) s 0x0A val) ∧
    (s.kReady [f.d, f.a] [f.a] [f.d] → PutOk s n → p.ordered = true → p.line = line →
      (line = true → s.tlmFree ∧ tlmCheck (grantOf s s.cur.tile s.me) c a 64 64 [.r] = none) →
      (s.here.synced = false → Traps (.osend f) s 0x17 0x140) ∧
      (s.here.synced = true → tagBusy s s.cur.tile s.me.task f.tag = true → Stalls (.osend f) s) ∧
      (s.here.synced = true → tagBusy s s.cur.tile s.me.task f.tag = false → TokenOk s f.tok →
        ∃ t m, exec (.osend f) s = .next t ∧ GoesOn s t 8 ∧ s.sameTlm t ∧ s.sameGmem t ∧ tagCleared s t f.tag ∧
          t.me.readK f.d = wroteK f.d ⟨false, stamp.setWidth 128⟩ ∧ (∀ r, r ≠ f.d → t.me.readK r = s.me.readK r) ∧
          t.here.inject = s.here.inject ++ [m] ∧ m.kind = (if line ∧ (s.here.badWord a 64).isSome then .poison else .data) ∧
          m.line = line ∧ m.payload = (if line then BitVec.ofNat 512 (s.here.number a 64) else c.word.setWidth 512) ∧
          m.resid = s.here.slot.resid ∧ m.ohdr = some {
            osn := p.osn, stamp := stamp, module := s.module, tile := (s.tileWord s.cur.tile).setWidth 22
            seq := s.here.tileSeq.toNat, port := n } ∧
          t.here.tileSeq = s.here.tileSeq + 1 ∧ t.here.lastStamp = stamp ∧ (t.here.port n).credits = p.credits.map (· - 1) ∧
          t.here.injectDue = s.here.injectDue ++ [⟨s.here.tileSeq.toNat, s.me.actor, s.me.task, f.tag, f.tok == 1⟩])) ∧
    (let head := AMap.get? p.q (p.headAfter (AMap.getD (firingDonec s.here s.me) n 0))
     let fits := p.declared = true ∧ p.ordered = true ∧ s.me.role ≠ .team
     s.kReady [f.d] [] [f.d] →
      (p.declared = false ∨ p.ordered = false ∨ s.me.role = .team ∨ (f.imm = 4 ∧ p.output = false) ∨
        ((f.imm = 1 ∨ f.imm = 2 ∨ f.imm = 3) ∧ p.output = true) → Traps (.owm f) s 0x0A val) ∧
      (fits → f.imm = 0 → p.output = true → WritesInt (.owm f) s 8 f.d p.lastStamp) ∧
      (fits → f.imm = 0 → p.output = false → ∀ o, ejection s s.cur.tile = some o → WritesInt (.owm f) s 8 f.d (outputW s s.cur.tile o)) ∧
      (fits → p.output = false → ∀ y h, head = some y → y.ohdr = some h → (f.imm = 1 → WritesInt (.owm f) s 8 f.d h.stamp) ∧
        (f.imm = 2 → WritesInt (.owm f) s 8 f.d (BitVec.ofNat 64 (h.module * 2 ^ 22 + h.tile.toNat))) ∧
        (f.imm = 3 → WritesInt (.owm f) s 8 f.d (BitVec.ofNat 64 h.seq))) ∧
      (fits → p.output = false → head = none → (f.imm = 1 → WritesInt (.owm f) s 8 f.d (BitVec.allOnes 64)) ∧
        (f.imm = 2 ∨ f.imm = 3 → ∃ v, WritesInt (.owm f) s 8 f.d v)) ∧
      (fits → f.imm = 4 → p.output = true → ∃ t, exec (.owm f) s = .next t ∧ t.me.readK f.d = wroteK f.d ⟨false, time.setWidth 128⟩ ∧
        (∀ r, r ≠ f.d → t.me.readK r = s.me.readK r) ∧ t.here.lastSent = s.timeOf s.cur.tile))) ∧
  (∀ (n i : Nat) (s : State),
    let inj := isRouter n = true ∧ i = 0
    let plain := isRouter n = true → ∀ d ∈ (s.tile n).injectDue, d.tok = true → ∀ p, (s.tile n).complPort d.actor = some p →
      ((s.tile n).port p).ordered = false
    let done := fun (t : State) => ∀ (k : Nat) (o : OOutput), (t.onode n).outputs[k]? = some o → canForward t n o = none
    let wIs := fun (t : State) (w : Word) => (AMap.getD (t.onode n).inputs i OInput.init).w = w
    (∀ e ∈ [Instr.orderedMessageArrival n i, .idleBeacon n, .beaconForward n, .owmStall n i, .syncWaveEmit, .syncWave n, .unsynchronised n],
      ∃ t, exec e s = .next t) ∧
    (inj → (s.tile n).inject = [] → Idle (.orderedMessageArrival n i) s) ∧
    (¬inj → (∀ f rest, nextFlight n i s.oflights = some (f, rest) → f.msg = none) → Idle (.orderedMessageArrival n i) s) ∧
    (∀ m rest fl, (inj ∧ (s.tile n).inject = m :: rest ∧ fl = s.oflights) ∨
        (¬inj ∧ ∃ f, nextFlight n i s.oflights = some (f, fl) ∧ f.msg = some m) →
      let h := ohdrOf m
      plain → ∃ t, exec (.orderedMessageArrival n i) s = .next t ∧ done t ∧ (inj → (t.tile n).inject = rest) ∧ (¬inj → wIs t h.stamp) ∧
        (∀ o j, (s.onode n).outputs = [o] → o.q = [] → h.osn ∈ o.osns → o.feeds = [i, j] → j ≠ i → (inputW s n j).toNat ≤ h.stamp.toNat →
          (t.onode n).outputs = [{ o with q := [(i, m)] }] ∧ t.oflights = fl) ∧
        (∀ o, (s.onode n).outputs = [o] → o.q = [] → h.osn ∈ o.osns → o.feeds = [i] →
          (∀ n' i', o.next = some (n', i') → n' < 131072 →
            (t.onode n).outputs = [{ o with q := [] }] ∧ t.oflights = fl ++ [⟨n', i', some m, h.stamp⟩]) ∧
          (∀ p x, o.next = none → ejectStopped s n o m = false →
            (s.tile n).slot.ports.filter (fun p => p.2.declared && !p.2.output && p.2.ordered && p.2.osn == h.osn) = [(p, x)] →
            (s.tile n).port p = x → m.kind = .data → x.drain = .no → x.count ≠ 0 → x.stream = none → x.fmt ≠ 14 →
            let j := max x.oseq x.h
            let y := (t.tile n).port p
            (t.onode n).outputs = [{ o with q := [] }] ∧ t.oflights = fl ∧ y.oseq = j + 1 ∧ y.h = x.h ∧ (∃ z, AMap.get? y.q j = some z ∧
              z.kind = .data ∧ z.seq = j ∧ z.ohdr = m.ohdr) ∧
              (t.tile n).payload y j = if x.line then m.payload else (m.payload.setWidth 64).setWidth 512))) ∧
    (∀ w, (∀ f rest, nextFlight n i s.oflights = some (f, rest) → f.msg ≠ none ∨ f.w ≠ w) → Idle (.beacon n i w) s) ∧
    (∀ f rest, nextFlight n i s.oflights = some (f, rest) → f.msg = none →
      plain → ∃ t, exec (.beacon n i f.w) s = .next t ∧ done t ∧ wIs t f.w ∧ t.oflights.take rest.length = rest) ∧
    (s.timeOf n < (s.tile n).lastSent + 1024 → Idle (.idleBeacon n) s) ∧
    ((s.tile n).lastSent + 1024 ≤ s.timeOf n → plain → ∃ t, exec (.idleBeacon n) s = .next t ∧ done t ∧ (t.tile n).lastSent = s.timeOf n) ∧
    (plain → ∃ t, exec (.beaconForward n) s = .next t ∧ done t ∧ t.oflights.take s.oflights.length = s.oflights ∧
      ∀ o ∈ (t.onode n).outputs, beaconDue t n o = false) ∧
    (let x := AMap.getD (s.onode n).inputs i OInput.init
     let idle := inj ∨ x.reported = true ∨ stalledOuts s n i = [] ∨ nodeTime s n < x.since + stallTicks s n
     (idle → Idle (.owmStall n i) s) ∧
     (¬idle → ∃ t, exec (.owmStall n i) s = .next t ∧ Quiet s t ∧
       AMap.getD (t.onode n).inputs i OInput.init = { x with reported := true } ∧ (t.onode n).outputs = (s.onode n).outputs ∧
       (let waiting := (stalledOuts s n i).flatMap (·.q)
        let port : Word := BitVec.ofNat 64 (if isRouter n then i else n - 65536)
        (∀ k, stallTile s n = some k → ∃ least, (t.tile k).reports = (s.tile k).reports ++ [(0x12, port, least)] ∧
          (∃ y ∈ waiting, (ohdrOf y.2).stamp = least) ∧ ∀ y ∈ waiting, least.toNat ≤ (ohdrOf y.2).stamp.toNat) ∧
        ∀ k h g, stallTile s n = some k → (∃ y ∈ waiting, handleOfResid s y.2.resid = some h) → (s.resOf h).region = some g →
          AMap.get? s.res h ≠ none → (s.resOf h).err.w0.getLsbD 32 = false →
          (t.resOf h).err.w0.extractLsb' 56 8 = 0x12#8 ∧ (t.resOf h).err.w0.getLsbD 32 = true ∧ (t.resOf h).err.w2 = port)))) ∧
  ∀ (k : Nat) (s : State),
    let x := s.tile k
    (s.refTime < s.lastWave + 1024 → Idle .syncWaveEmit s) ∧
    (s.lastWave + 1024 ≤ s.refTime → ∃ t, exec .syncWaveEmit s = .next t ∧ Quiet s t ∧ t.lastWave = s.lastWave + 1024 ∧
      ∀ y, AMap.get? s.tiles k = some y → ∃ z, AMap.get? t.tiles k = some z ∧ z.count = y.count ∧
        (y.lastWave = s.lastWave → z = y) ∧ (y.lastWave ≠ s.lastWave → z.missed = y.missed + 1 ∧ z.goodWaves = 0)) ∧
    (let due := s.lastWave + Config.waveDelay k
     (x.lastWave = s.lastWave ∨ s.refTime < due → Idle (.syncWave k) s) ∧
     (x.lastWave ≠ s.lastWave → due ≤ s.refTime → ∃ t, exec (.syncWave k) s = .next t ∧ Quiet s t ∧
       (let y := t.tile k
        let step := if x.edgeAt + 2 ≤ s.now then (s.now - x.edgeAt) * 2 ^ 16 else 0
        let err : Int := (s.refTime : Int) * 2 ^ 16 - y.count
        x.count + step ≤ y.count + step / 16 ∧ y.count ≤ x.count + step + step / 16 ∧
          y.timeErr = err ∧ y.missed = 0 ∧ y.lastWave = s.lastWave ∧ y.goodWaves = x.goodWaves + 1 ∧
          (y.synced = true ↔ x.synced = true ∨ (2 ≤ x.goodWaves + 1 ∧ -2 ^ 16 < err ∧ err < 2 ^ 16))) ∧
       ∀ q, q ≠ k → t.tile q = s.tile q)) ∧
    (x.missed < 4 ∨ x.synced = false → Idle (.unsynchronised k) s) ∧
    (4 ≤ x.missed → x.synced = true → ∃ t, exec (.unsynchronised k) s = .next t ∧ Quiet s t ∧ (t.tile k).synced = false ∧
      (t.tile k).reports.length = x.reports.length + 1 ∧ ∀ q, q ≠ k → t.tile q = s.tile q)

/-- 13 R334 to R337, 02 R54: the RC unit; 12 R298, R299, 14 R351 to R354: the pager's side of translation. -/
def Obligations.SlotsAndTranslation : Prop :=
  let written := fun (x new : Slot) (a : Nat) =>
    (∃ y ∈ AMap.vals new.actors, y.firings = 0 ∧ y.scOff ≤ a ∧ a < y.scOff + y.scLen) ∨
    ∃ p o b n z, (p, o) ∈ x.ports ∧ o.carried = true ∧ o.output = false ∧ AMap.get? new.ports p = some b ∧ o.qaddr ≠ b.qaddr ∧
      (n, z) ∈ o.q ∧ b.slotAddr n ≤ a ∧ a < b.slotAddr n + (if o.line then 64 else 8)
  let switched := fun (s t : State) (k dest : Nat) =>
    let x := s.tile k
    let new := AMap.getD x.slots dest Slot.blank
    s.sameGmem t ∧ (∀ q, q ≠ k → ∀ a, Memory.read (t.tile q).tlm a = Memory.read (s.tile q).tlm a) ∧
      (∀ a, ¬written x.slot new a → Memory.read (t.tile k).tlm a = Memory.read x.tlm a) ∧
      (∀ y ∈ AMap.vals new.actors, y.firings = 0 → ∀ a, y.scOff ≤ a → a < y.scOff + y.scLen → Memory.read (t.tile k).tlm a = 0) ∧
      (t.tile k).active = dest ∧ (t.tile k).slot.state = .active ∧ (t.tile k).slot.resid = new.resid ∧
      (t.tile k).fabric.owner = none ∧ (t.tile k).fabric.iOwner = none ∧
      (dest ≠ x.active → ∀ n z, AMap.get? (AMap.getD (t.tile k).slots x.active Slot.blank).streams n = some z → z.claim = none) ∧
      ∀ p a b, (x.slot.ports.map (·.1)).Nodup → AMap.get? x.slot.ports p = some a → a.carried = true → AMap.get? new.ports p = some b →
        let y := (t.tile k).port p
        y.q = a.q ∧ y.h = a.h ∧ y.closed = false ∧ y.count = b.count ∧ y.qaddr = b.qaddr ∧
        (∀ n z, x.slot.ports = [(p, a)] → (∀ y ∈ AMap.vals new.actors, y.scLen = 0) → a.output = false → a.line = b.line →
          a.depth = b.depth → a.q = [(n, z)] → (t.tile k).payload y n = x.payload a n)
  (∀ (k h : Nat) (va : Addr) (level : Nat) (entries : List (PAddr × Word)) (c : Client) (s : State),
    (∃ t, exec (.configSlotSwitch k) s = .next t) ∧ (∃ t, exec (.pagerMap h va entries) s = .next t) ∧
    (∃ t, exec (.pageDenied h va) s = .next t) ∧ (∃ t, exec (.tlbInvalidate h va level) s = .next t) ∧
    (∀ n, c = .dcopy n ∨ c = .stream n → ∃ t, exec (.translationWalk k c va) s = .next t)) ∧
  (∀ (f : EW) (s : State), s.cur.ctx = 0 →
    let n := f.c.toNat
    let x := AMap.getD s.here.slots n Slot.blank
    let same := fun (t : State) => GoesOn s t 8 ∧ s.me.sameRegs t.me ∧ s.sameGmem t
    let busy := tagBusy s s.cur.tile s.me.task f.tag
    let fault := fun (i : Instr) (r : Nat) => Traps i s 0x17 (BitVec.ofNat 64 (256 * r + 0x70))
    (busy = true → Stalls (.cslot f) s) ∧
    (busy = false → f.tok = 0 →
      (n = s.here.active → s.me.mode ≠ .free → ∃ t, exec (.cslot f) s = .next t ∧ same t ∧ s.sameTlm t ∧
        t.me.tags = s.me.tags ||| (1#64 <<< f.tag.toNat) ∧ t.here.active = n) ∧
      (n ≠ s.here.active → x.state = .empty → fault (.cslot f) 1) ∧
      (n ≠ s.here.active → x.state ≠ .empty →
        (f.imm.getLsbD 0 = false → s.here.switchTo ≠ none → Stalls (.cslot f) s) ∧
        (f.imm.getLsbD 0 = false → s.here.switchTo = none → ∃ t, exec (.cslot f) s = .next t ∧ same t ∧ s.sameTlm t ∧ tagCleared s t f.tag ∧
          t.here.switchTo = some (n, some f.tag) ∧ t.here.active = s.here.active) ∧
        (f.imm.getLsbD 0 = true → s.me.mode ≠ .free → ∃ t, exec (.cslot f) s = .next t ∧ same t ∧ switched s t s.cur.tile n ∧
          t.me.tags = s.me.tags ||| (1#64 <<< f.tag.toNat) ∧ t.here.switchTo = s.here.switchTo ∧
          ∀ m, m ≠ 0 → (s.here.ctx m).role = .primary ∨ (s.here.ctx m).role = .started → (t.here.ctx m).mode = .free))) ∧
    (let c := s.me.readK f.a
     let v := s.me.readW f.b
     let va := c.addr.toNat
     let odd := v.toNat / 2 ^ 60 ≠ 0 ∨ v.toNat / 2 ^ 16 % 2 ^ 32 ≠ 0
     let inUse := n = s.here.active ∧ s.here.slot.state ≠ .empty ∧ s.running s.here.slot.handle = true
     let row := v.toNat / 2 ^ 8 % 2 ^ 8
     let col := v.toNat % 2 ^ 8
     s.kReady [f.a, f.b] [f.a, f.b] [] →
      (odd → fault (.rload f) 3) ∧
      (¬odd → inUse → fault (.rload f) 2) ∧
      (¬odd → ¬inUse → (∀ code, GlobalBad c va 8 8 [.r] code → Traps (.rload f) s code (c.addr.setWidth 64)) ∧
        ∀ pa, GlobalOk c va 8 8 [.r] → (translate s s.cur.tile (ctxSpace s s.cur.tile 0) va true false false).2 = .ok pa →
          let s1 := (translate s s.cur.tile (ctxSpace s s.cur.tile 0) va true false false).1
          (stagedAt s pa = none → fault (.rload f) 4) ∧
          (∀ h ws, stagedAt s pa = some h → (s.resOf h).image = some ws → GlobalOk c va (8 * imgLen ws) 8 [.r] →
            (∀ p rest, imgPages c.addr (imgLen ws) = p :: rest → ∀ q, (translate s1 s.cur.tile (ctxSpace s1 s.cur.tile 0)
              (BitVec.ofNat 48 p).toNat true false false).2 = .ok q → q.toNat ≠ pa.toNat + (p - va) → fault (.rload f) 4) ∧
            ((∃ s2, pagesIssue s1 c.addr pa (imgLen ws) (imgPages c.addr (imgLen ws)) = .ok s2) →
            (busy = true → Stalls (.rload f) s) ∧
            (busy = false → f.tok = 0 → s.me.mode ≠ .free → ∃ t, exec (.rload f) s = .next t ∧ same t ∧
              t.me.tags = s.me.tags ||| (1#64 <<< f.tag.toNat) ∧ (n ≠ imgFirst ws → s.sameTlm t) ∧
              (∀ m, m ≠ n → AMap.get? t.here.slots m = AMap.get? s.here.slots m) ∧
              (let bad := fun (i : Nat) => s.gBad ((s.block h).image.toNat + 8 * i) 8 = true
               ((∀ i ∈ loadReads ws n row col, ¬bad i) → t.here.lastResult = 0 ∧
                 AMap.get? t.here.slots n = some (loadSlot s (imgRecs ws) h n row col (BitVec.ofNat 12 (v.toNat / 2 ^ 48)))) ∧
               ((∃ i ∈ loadReads ws n row col, bad i) → AMap.get? t.here.slots n = some Slot.blank ∧
                 t.here.lastResult.toNat / 2 ^ 56 = 0x45))))))) ∧
    (s.kReady [f.d] [] [f.d] →
      (f.imm = 0 → s.here.switchTo = none ∨ n ≠ s.here.active →
        WritesInt (.rquery f) s 8 f.d (BitVec.ofNat 64 (x.state.code * 2 ^ 60 + x.resid.toNat * 2 ^ 48 + x.words % 2 ^ 32))) ∧
      (f.imm = 0 → s.here.switchTo ≠ none → n = s.here.active →
        WritesInt (.rquery f) s 8 f.d (BitVec.ofNat 64 (4 * 2 ^ 60 + x.resid.toNat * 2 ^ 48 + x.words % 2 ^ 32))) ∧
      (f.imm = 1 → x.state = .empty → WritesInt (.rquery f) s 8 f.d 0) ∧
      (f.imm = 1 → x.state ≠ .empty → WritesInt (.rquery f) s 8 f.d (BitVec.ofNat 64 ((s.resOf x.handle).state.code * 2 ^ 60 +
        (s.resOf x.handle).resid.toNat * 2 ^ 48 + (s.resOf x.handle).gen % 2 ^ 16 * 2 ^ 32 + (s.resOf x.handle).replay % 2 ^ 32))) ∧
      (f.imm = 2 → WritesInt (.rquery f) s 8 f.d s.here.lastResult))) ∧
  (∀ (k : Nat) (s : State),
    let x := s.tile k
    let idle := nextSlot s k = none ∨ (∃ dest tag, nextSlot s k = some (dest, tag) ∧ (tag = none ∨ dest ≠ x.active) ∧
      (slotDrained x = false ∨ x.preReq = true))
    let tagged := fun (t : State) (tag : Option (BitVec 6)) => ∀ g, tag = some g → (x.ctx 0).mode ≠ .free →
      ((t.tile k).ctx 0).tags.getLsbD g.toNat = true
    (idle → Idle (.configSlotSwitch k) s) ∧
    (∀ dest tag, nextSlot s k = some (dest, tag) → tag ≠ none → dest = x.active → ∃ t, exec (.configSlotSwitch k) s = .next t ∧
      Quiet s t ∧ (t.tile k).switchTo = none ∧ (t.tile k).slot = x.slot ∧ tagged t tag) ∧
    (∀ dest tag, nextSlot s k = some (dest, tag) → tag = none ∨ dest ≠ x.active → slotDrained x = true → x.preReq = false →
      ∃ t, exec (.configSlotSwitch k) s = .next t ∧ s.sameCtxs t ∧ switched s t k dest ∧ (t.tile k).switchTo = none ∧
        (t.tile k).role = (if tag = none then x.role + 1 else x.role) ∧ tagged t tag)) ∧
  (∀ (k n : Nat) (va : Addr) (s : State),
    let c := (s.tile k).ctx n
    let x := ctxSpace s k n
    let hit := fun (t : State) (r w ver : Bool) => tlbHit (t.tile k) x va.toNat r w ver
    (∀ i f g, c.mode = .running → c.halted = false → fetchNext (s.tile k) n c = .instr i →
      gFormOf { s with cur := ⟨k, n⟩ } i = some (f, g) → gAddr (c.readK f.a) f g.n = va →
      (hit s g.r g.w g.ver = true → Idle (.translationWalk k (.ctx n) va) s) ∧
      (∀ e, hit s g.r g.w g.ver = false → walk s x va.toNat = .leaf e → e.allows g.r g.w g.ver = true →
        ∃ t, exec (.translationWalk k (.ctx n) va) s = .next t ∧ Quiet s t ∧ hit t g.r g.w g.ver = true ∧
          (e.ver = true → x.mon = false → NSet.mem (AMap.getD s.vpages (s.handleOf k) []) e.pa.toNat = false →
            ∀ l, paLine e.pa.toNat ≤ l → l < paLine e.pa.toNat + 2 ^ pageShift e.level / 64 → t.version l = 0))) ∧
    (∀ y rest w, c.dmq = y :: rest → y.waiting = none → copyVa y w = some va.toNat → (w = false → copyVa y true ≠ some va.toNat) →
      hit s (!w) w false = false →
      (walk s x va.toNat = .wait → ∃ t, exec (.translationWalk k (.dcopy n) va) s = .next t ∧ Quiet s t ∧
        ((t.tile k).ctx n).dmq = y.waitAt va :: rest) ∧
      (∀ e, walk s x va.toNat = .leaf e → e.allows (!w) w false = true → ∃ t, exec (.translationWalk k (.dcopy n) va) s = .next t ∧
        Quiet s t ∧ hit t (!w) w false = true)) ∧
    (let st := (s.tile k).stream n
     let w := descDir st.desc == 1
     streamLive s k st = true → st.pos < descTotal st.desc → descAddr st.desc st.pos = va.toNat → st.tlb = none →
      (walk s (streamSpace s k st) va.toNat = .wait → ∃ t, exec (.translationWalk k (.stream n) va) s = .next t ∧ Quiet s t ∧
        (t.tile k).stream n = { st with waiting := some va }) ∧
      (∀ e, walk s (streamSpace s k st) va.toNat = .leaf e → e.allows (!w) w false = true →
        ∃ t, exec (.translationWalk k (.stream n) va) s = .next t ∧ Quiet s t ∧ (t.tile k).stream n = { st with tlb := some e }))) ∧
  ∀ (h k : Nat) (va : Addr) (s : State), k ∈ s.resTiles h →
    let x := resSpace s h
    let ready := fun (t : State) (go : Waiter → Prop) (mark : Waiter → Waiter → Prop) => ∀ (i : Nat) w, (s.tile k).waiters[i]? = some w →
      ∃ w', (t.tile k).waiters[i]? = some w' ∧ w'.va = w.va ∧ (w'.ready ≠ none ↔ w.ready ≠ none ∨ go w) ∧
        (w.ready = none → go w → mark w w')
    (∀ entries, ∃ t, exec (.pagerMap h va entries) s = .next t ∧ s.sameCtxs t ∧ s.sameTlm t ∧
      ready t (fun w => walk t x w.va.toNat ≠ .wait) (fun w w' => w'.ctx = w.ctx ∧ w'.denied = w.denied) ∧
      (∀ a, (s.resOf h).armWait = some a → ((t.resOf h).armWait = none ↔ walk t x a.toNat ≠ .wait)) ∧
      (∀ pa e, entries = [(pa, e)] → t.gRead pa.toNat 8 = e.toNat ∧
        ∀ z, z < pa.toNat ∨ pa.toNat + 8 ≤ z → Memory.read t.gmem z = Memory.read s.gmem z)) ∧
    (let page := fun (a : Addr) => a.toNat / 2 ^ 16 = va.toNat / 2 ^ 16
     ∃ t, exec (.pageDenied h va) s = .next t ∧ Quiet s t ∧
      ready t (fun w => page w.va) (fun _ w' => w'.denied = true) ∧
      ∀ a, (s.resOf h).armWait = some a → page a → (t.resOf h).armWait = none ∧ (t.resOf h).armRefused = true) ∧
    ∀ level, let gone := fun (e : TlbEntry) => e.resid = (s.resOf h).resid ∧ e.level = level ∧ e.vpn = va.toNat / 2 ^ pageShift level
     let key : Inval := ⟨h, va.toNat, level⟩
     ∃ t, exec (.tlbInvalidate h va level) s = .next t ∧ Quiet s t ∧
      (∀ e, e ∈ (t.tile k).tlb ↔ e ∈ (s.tile k).tlb ∧ ¬gone e) ∧
      (∀ n e, ((t.tile k).stream n).tlb = some e ↔ ((s.tile k).stream n).tlb = some e ∧ ¬gone e) ∧
      (∀ y, y ≠ key → (y ∈ t.invals ↔ y ∈ s.invals)) ∧
      (key ∈ t.invals ↔ sweepHolds s (s.resOf h).resid va.toNat level = true ∨
        ∃ n ∈ s.resTiles h, pageBusy (s.tile n) (s.resOf h).resid va.toNat level = true)

/-- 02 R35 to R53, 10 R265, 14 R348: tokens under way and the router operators. -/
def Obligations.TokensAndOperators : Prop :=
  (∀ (id n seq k i : Nat) (s : State), ∀ e ∈ [Instr.forkForward id, .creditReturn id n, .tokenArrival id n seq, .bankTransfer k i, .steerOp k i,
    .mergeOp k i, .carryOp k i], ∃ t, exec e s = .next t) ∧
  (∀ (id n seq : Nat) (s : State),
    (s.chan? id = none → Idle (.forkForward id) s ∧ Idle (.creditReturn id n) s ∧ (id < 4194304 → Idle (.tokenArrival id n seq) s)) ∧
    ∀ c, s.chan? id = some c →
      let others := fun (t : State) => ∀ j, j ≠ id → t.chan? j = s.chan? j
      (c.forkQ = [] → Idle (.forkForward id) s) ∧
      (∀ f rest, c.forkQ = f :: rest → ∃ t d, exec (.forkForward id) s = .next t ∧ Quiet s t ∧ others t ∧ t.chan? id = some d ∧
        d.forkQ = rest ∧ d.seq = c.seq ∧ d.branches.map (·.flights) = c.branches.map (fun b => b.flights ++ [f]) ∧
        d.branches.map (·.room) = c.branches.map (·.room)) ∧
      (c.branches[n]? = none → Idle (.creditReturn id n) s ∧ Idle (.tokenArrival id n seq) s) ∧
      ∀ b, c.branches[n]? = some b →
        (b.back = 0 → Idle (.creditReturn id n) s) ∧
        (b.back ≠ 0 → (∀ l st, c.src ≠ .fabric l st) → creditChan s id n c = id → ∃ t d, exec (.creditReturn id n) s = .next t ∧ Quiet s t ∧ others t ∧
          t.chan? id = some d ∧ d.seq = c.seq ∧ d.branches[n]? = some { b with room := b.room + 1, back := b.back - 1 } ∧
          ∀ j, j ≠ n → d.branches[j]? = c.branches[j]?) ∧
        (∀ j a y, b.back ≠ 0 → (∀ l st, c.src ≠ .fabric l st) → creditChan s id n c = j → j ≠ id → s.chan? j = some a →
          a.branches[n]? = some y → ∃ t d z, exec (.creditReturn id n) s = .next t ∧ Quiet s t ∧ t.chan? id = some d ∧
            d.branches[n]? = some { b with back := b.back - 1 } ∧ t.chan? j = some z ∧ z.branches[n]? = some { y with room := y.room + 1 }) ∧
        (b.flights.find? (fun f => f.tok.seq == seq) = none → Idle (.tokenArrival id n seq) s) ∧
        ∀ f, b.flights.find? (fun f => f.tok.seq == seq) = some f →
          let go := endLive s id n b.dst = true ∧ flightReady s f = true ∧ canLand s b seq = true
          let m := seq + b.base
          let tok := (f.received s).tok
          let landed := fun (t : State) => ∃ d e, t.chan? id = some d ∧ d.branches[n]? = some e ∧ e.room = b.room ∧
            (∀ g ∈ e.flights, g.tok.seq ≠ seq) ∧ (∀ g ∈ b.flights, g.tok.seq ≠ seq → g ∈ e.flights) ∧
            (f.corr ≠ 0 ∨ f.bad = true → AMap.get? s.res c.handle ≠ none →
              (t.resOf c.handle).err.corr = sat32 ((s.resOf c.handle).err.corr + f.corr) ∧
              (t.resOf c.handle).err.uncorr = sat32 ((s.resOf c.handle).err.uncorr + if f.bad then 1 else 0))
          (f.bad = false → tok = f.tok) ∧ (f.bad = true → tok.kind = .poison ∧ tok.resid = f.tok.resid) ∧
          (¬go → Idle (.tokenArrival id n seq) s) ∧
          (∀ k p, b.dst = .port k p → go →
            let x := (s.tile k).port p
            let y := portDecode x tok
            let a := x.slotAddr m
            let len := if x.line then 64 else 8
            (tok.resid ≠ (s.tile k).slot.resid → ∃ t e, exec (.tokenArrival id n seq) s = .next t ∧ Quiet s t ∧ landed t ∧
              (t.tile k).port p = x ∧ (t.tile k).dropped = sat32 ((s.tile k).dropped + 1) ∧ (t.chan? id).bind (·.branches[n]?) = some e ∧
              e.back = b.back) ∧
            (tok.resid = (s.tile k).slot.resid → x.drain = .no → x.count ≠ 0 ∨ x.stream ≠ none → ∃ t, exec (.tokenArrival id n seq) s = .next t ∧
              s.sameCtxs t ∧ s.sameGmem t ∧ landed t ∧ ((t.tile k).port p).h = x.h ∧
              (∃ z, AMap.get? ((t.tile k).port p).q m = some z ∧ z.kind = y.1 ∧ z.scale = y.2.2.1 ∧ z.round = tok.round ∧ z.resid = tok.resid ∧
                z.line = tok.line ∧ z.seq = m ∧ z.port = p ∧ z.ohdr = tok.ohdr) ∧
              (∀ j, j ≠ m → AMap.get? ((t.tile k).port p).q j = AMap.get? x.q j) ∧
              (t.tile k).number a len = y.2.1.toNat % 256 ^ len ∧
              (∀ q z, q ≠ k ∨ z < a ∨ a + len ≤ z → Memory.read (t.tile q).tlm z = Memory.read (s.tile q).tlm z) ∧
              (x.fmt ≠ 14 → y.1 = tok.kind ∧ y.2.1 = tok.payload ∧ y.2.2.1 = x.scale))) ∧
          (∀ k, b.dst = .outlet k → go → ∃ t, exec (.tokenArrival id n seq) s = .next t ∧ Quiet s t ∧ landed t ∧
            AMap.get? (t.outlet k).q m = some { tok with seq := m } ∧ (t.outlet k).h = (s.outlet k).h ∧
            ∀ j, j ≠ m → AMap.get? (t.outlet k).q j = AMap.get? (s.outlet k).q j) ∧
          (∀ k i e o, b.dst = .oper k i e → go → tok.resid = (s.tile k).slot.resid → (s.tile k).oper i = some o → o.drain0 = .no →
            o.drain1 = .no → ∃ t, exec (.tokenArrival id n seq) s = .next t ∧ Quiet s t ∧ landed t ∧
              (t.tile k).oper i = some (if e = 0 then { o with in0 := some tok } else { o with in1 := some tok }))) ∧
  ∀ (k i : Nat) (s : State),
    (let x := (s.tile k).port i
     let head := AMap.get? x.q x.h
     ((∀ y, head = some y → y.kind ≠ .bank) → Idle (.bankTransfer k i) s) ∧
     (∀ y, head = some y → y.kind = .bank → ∃ t, exec (.bankTransfer k i) s = .next t ∧ Quiet s t ∧
       ((t.tile k).actor x.actor).inForce = ((s.tile k).actor x.actor).inForce |||
         (1#16 <<< (((s.tile k).payload x x.h).toNat % 16)) ∧ ((t.tile k).port i).h = x.h + 1 ∧
       AMap.get? ((t.tile k).port i).q x.h = none)) ∧
    (let taken := fun (t : State) (o : Oper) (errs : Nat) => ∃ z, (t.tile k).oper i = some z ∧ z.in0 = none ∧ z.h0 = o.h0 + 1 ∧
       (o.kind ≠ .carry → z.in1 = none ∧ z.h1 = o.h1 + 1) ∧ z.errs = o.errs + errs
     let puts := fun (t : State) (o : Oper) (e : Nat) (kind : TokKind) (v : Line) => ∀ id c, AMap.get? o.chans e = some id →
       s.chan? id = some c → EnteredChan t id c kind v
     (operFires s k i .steer = none → Idle (.steerOp k i) s) ∧
     (operFires s k i .merge = none → Idle (.mergeOp k i) s) ∧
     (∀ o d c, operFires s k i .steer = some (o, [d, c]) → AMap.get? o.chans 2 ≠ AMap.get? o.chans 3 →
       let out := if c.payload.getLsbD 0 then 3 else 2
       ∃ t, exec (.steerOp k i) s = .next t ∧ Quiet s t ∧ taken t o (if c.kind = .poison then 1 else 0) ∧
         (c.kind = .data → puts t o out d.kind d.payload ∧ puts t o (5 - out) .null 0) ∧
         (c.kind = .null → puts t o 2 .null 0 ∧ puts t o 3 .null 0) ∧
         (c.kind = .poison → puts t o 2 .poison 0 ∧ puts t o 3 .poison 0)) ∧
     (∀ o a b, operFires s k i .merge = some (o, [a, b]) → ∃ t, exec (.mergeOp k i) s = .next t ∧ Quiet s t ∧
       taken t o (if a.kind = .data ∧ b.kind = .data then 1 else 0) ∧
       (a.kind = .data → b.kind = .data → puts t o 2 .poison 0) ∧ (a.kind = .null → b.kind = .null → puts t o 2 .null 0) ∧
       (a.kind = .data → b.kind = .null → puts t o 2 .data a.payload) ∧ (a.kind = .null → b.kind = .data → puts t o 2 .data b.payload) ∧
       (a.kind = .poison → puts t o 2 .poison a.payload) ∧ (a.kind ≠ .poison → b.kind = .poison → puts t o 2 .poison b.payload)) ∧
     ((s.tile k).oper i = none → Idle (.carryOp k i) s) ∧
     (∀ o, (s.tile k).oper i = some o →
       (o.emitted = false → ¬(o.kind = .carry ∧ operOpen s k o = true ∧ operRoom s o = true) → Idle (.carryOp k i) s) ∧
       (o.emitted = false → o.kind = .carry → operOpen s k o = true → operRoom s o = true → ∃ t, exec (.carryOp k i) s = .next t ∧ Quiet s t ∧
         (t.tile k).oper i = some { o with emitted := true } ∧ puts t o 1 .data (o.init.setWidth 512)) ∧
       (o.emitted = true → operFires s k i .carry = none → Idle (.carryOp k i) s) ∧
       (∀ x, o.emitted = true → operFires s k i .carry = some (o, [x]) → ∃ t, exec (.carryOp k i) s = .next t ∧ Quiet s t ∧ taken t o 0 ∧
         (x.kind = .null → o.nullRep = true → puts t o 1 .data (o.init.setWidth 512)) ∧
         (x.kind ≠ .null ∨ o.nullRep = false → puts t o 1 x.kind x.payload))))

/-- 15 R371, R372, 12 R311 to R313, 09 R233, R234: pre-emption, watchdog, rebalancer. -/
def Obligations.PreemptionAndMoves : Prop :=
  (∀ (k a u : Nat) (v : Word) (s : State), (∀ i ∈ [Instr.haltedSet k, .wdogWrite k v, .watchdog k, .rebalanceSample k, .migration k a u],
      ∃ t, exec i s = .next t) ∧
    ∀ i ∈ [Instr.preemptToken k, .preemptRequest k], ∃ t, exec i s = .next t ∧ (t.tile k).preReq = true) ∧
  (∀ (k : Nat) (s : State),
    let x := s.tile k
    let calm := ∀ n, 1 ≤ n → n ≤ 10 → (x.ctx n).mode = .running → (x.ctx n).halted = false → (x.ctx n).settled
    (∀ i ∈ [Instr.preemptToken k, .preemptRequest k], (x.preReq = true → Idle i s) ∧
      (x.preReq = false → calm → ∃ t, exec i s = .next t ∧ Quiet s t ∧ (t.tile k).preReq = true ∧ (t.tile k).preHalted = false ∧
        (t.tile k).preAt = s.now ∧ (∀ q, q ≠ k → t.tile q = s.tile q) ∧ (t.tile k).ctx 0 = x.ctx 0 ∧
        ∀ n, 1 ≤ n → n ≤ 10 → let c := x.ctx n
          let d := (t.tile k).ctx n
          (c.mode ≠ .running ∨ c.halted = true → d = c) ∧
          (c.mode = .running → c.halted = false → d.mode = .running ∧ d.halted = true ∧ d.cause = 0x18 ∧ d.trappc = c.pc.setWidth 64 ∧
            d.trapval = 0 ∧ d.task = c.task ∧ d.mxq = c.mxq ∧ d.dmq = c.dmq ∧ d.lcq = c.lcq ∧ d.wins = c.wins ∧ d.loop0 = c.loop0 ∧
            d.loop1 = c.loop1 ∧ d.rep = c.rep ∧ d.tags = c.tags))) ∧
    (∃ t, exec (.preemptResume k) s = .next t ∧ Quiet s t ∧ (t.tile k).preReq = false ∧ (t.tile k).preHalted = false ∧
      ∀ n, (t.tile k).ctx n = { x.ctx n with halted := false }) ∧
    (let stands := x.preReq = true ∧ x.preHalted = false ∧ (∀ e ∈ x.engCmds, e.rd = 0 ∧ e.wr = 0) ∧
       ∀ n, 1 ≤ n → n ≤ 10 → ((x.ctx n).mode ≠ .running ∨ (x.ctx n).halted = true) ∧ (x.ctx n).vq = []
     (¬stands → Idle (.haltedSet k) s) ∧
     (stands → ∃ t, exec (.haltedSet k) s = .next t ∧ Quiet s t ∧
       t.tile k = { x with preHalted := true, preElapsed := min (s.now - x.preAt) 65535 } ∧ ∀ q, q ≠ k → t.tile q = s.tile q)) ∧
    (x.slot.state = .empty → ∀ v, Idle (.wdogWrite k v) s) ∧
    (x.slot.state ≠ .empty → ∀ v, ∃ t, exec (.wdogWrite k v) s = .next t ∧ t.tiles = s.tiles ∧ t.gmem = s.gmem ∧
      let h := s.handleOf k
      (t.resOf h).wdEn = v.getLsbD 63 ∧ (t.resOf h).wdFired = ((s.resOf h).wdFired && !v.getLsbD 62) ∧
        (t.resOf h).wdTicks = v.setWidth 32 ∧ ∀ m, m ≠ h → t.resOf m = s.resOf m)) ∧
  (∀ (h : Nat) (s : State),
    let r := s.resOf h
    let fires := r.state = .running ∧ r.wdEn = true ∧ r.wdFired = false ∧ stirring s h = false ∧
      r.wdLast + max 0x30D40 r.wdTicks.toNat ≤ s.now
    (¬fires → Idle (.watchdog h) s) ∧
    (fires → ∃ t, exec (.watchdog h) s = .next t ∧ (t.resOf h).state = .aborted ∧ (t.resOf h).wdFired = true ∧ (t.resOf h).region = none ∧
      (r.err.w0.getLsbD 32 = false → (t.resOf h).err.w0 = BitVec.ofNat 64 (0x13 * 2 ^ 56 + 2 ^ 32)) ∧
      (r.err.w0.getLsbD 32 = true → (t.resOf h).err.w0 = r.err.w0) ∧
      ∀ k ∈ s.resTiles h, (t.tile k).slots = [] ∧ (t.tile k).waiters = [] ∧ ∀ n, n ≠ 0 → ((t.tile k).ctx n).mode = .free)) ∧
  ∀ (k a u : Nat) (s : State),
    let x := s.tile k
    let h := x.slot.handle
    (let idle := s.running h = false ∨ (s.resOf h).snapping = true ∨ (s.resOf h).snapDue = true ∨
       s.now < x.sampledAt + 4000
     let busy := x.busySamples + (if runsHelpers x then 1 else 0)
     (idle → Idle (.rebalanceSample k) s) ∧
     (¬idle → ∃ t, exec (.rebalanceSample k) s = .next t ∧ Quiet s t ∧ (t.tile k).sampledAt = s.now ∧
       (x.samples + 1 < 64 → (t.tile k).samples = x.samples + 1 ∧ (t.tile k).busySamples = busy ∧ t.res = s.res) ∧
       (64 ≤ x.samples + 1 → (t.tile k).samples = 0 ∧ (t.tile k).busySamples = 0 ∧ (t.tile k).busyLast = busy ∧
         ((t.resOf h).moving = (s.resOf h).moving ∨ ((s.resOf h).moving = none ∧ 56 < busy ∧
           ∃ n z, (t.resOf h).moving = some (k, n, z) ∧ ((t.tile k).actor n).migrating = true))))) ∧
    (let y := x.actor a
     let z := s.tile u
     let busy := y.live ≠ none ∨ firingBusy s k a = true ∨ ∃ q ∈ AMap.vals x.reqs, q.actor = a ∧ q.ctxNo ≠ 0 ∧ q.op.stores = true
     (freeActor z = none ∨ (s.resOf h).moving ≠ some (k, a, u) ∨ busy → Idle (.migration k a u) s) ∧
     (∀ i, freeActor z = some i → (s.resOf h).moving = some (k, a, u) → ¬busy →
       (mayMove s k a u = false → (s.resOf h).snapDue = false → ∃ t, exec (.migration k a u) s = .next t ∧ Quiet s t ∧ (t.resOf h).moving = none ∧
         (t.tile k).actor a = { y with migrating := false }) ∧
       (∀ ws g, (s.resOf h).snapDue = true → (s.resOf h).image = some ws → (s.resOf h).region = some g → ∃ t,
         exec (.migration k a u) s = .next t ∧ (t.resOf h).moving = none ∧ (t.resOf h).snapDue = false ∧ (t.resOf h).snapping = true) ∧
       (mayMove s k a u = true → (s.resOf h).snapDue = false → (x.slot.ports.map (·.1)).Nodup → Memory.wf x.tlm = true → Memory.wf z.tlm = true →
         ∃ t f, exec (.migration k a u) s = .next t ∧ s.sameCtxs t ∧ s.sameGmem t ∧ (t.resOf h).moving = none ∧
           (t.tile k).actor a = Actor.blank ∧
           (t.tile u).actor i = { y with migrating := false, occ := [], lastMove := s.now } ∧
           (t.tile k).fwd = x.fwd ++ [f] ∧ f.actor = a ∧ f.target = u ∧
           (∀ id, ∀ c : Chan, s.chan? id = some c → c.handle = h → ∃ d : Chan, t.chan? id = some d ∧ (∀ p ∈ f.ports, c.src = .port k p → d.src = .port u p) ∧
             d.branches.map (·.flights) = c.branches.map (·.flights) ∧ ∀ p ∈ f.ports, ∀ (j : Nat) (b : Branch), c.branches[j]? = some b → b.dst = .port k p →
               (d.branches[j]?).map Branch.dst = some (.port u p)) ∧
           (∀ o q, AMap.get? x.reqs o = some q → q.actor = a → q.ctxNo ≠ 0 → q.seq ≠ none →
             AMap.get? (t.tile k).reqs o = some { q with actor := 8 * (u + 1) + i }) ∧
           (∀ p w, AMap.get? x.slot.ports p = some w → w.declared = true → w.actor = a → w.stream = none →
             (t.tile u).port p = { w with actor := i } ∧ AMap.get? (t.tile k).slot.ports p = none ∧ p ∈ f.ports) ∧
           (∀ j, y.grant.getLsbD (j / 2 ^ 18 % 16) = true → Memory.read (t.tile u).tlm j = Memory.read x.tlm j) ∧
           (∀ j, y.grant.getLsbD (j / 2 ^ 18 % 16) = false → Memory.read (t.tile u).tlm j = Memory.read z.tlm j) ∧
           ∀ q j, q ≠ u → Memory.read (t.tile q).tlm j = Memory.read (s.tile q).tlm j))) ∧
    (∃ t, exec (.forwardingEntryRemoval k) s = .next t ∧ Quiet s t ∧ ∀ f, f ∈ (t.tile k).fwd ↔ f ∈ x.fwd ∧ fwdDone s f = false)

/-- 02 R62, 13 R322, R330 to R333, 17 R399, R400: the life of a residency. -/
def Obligations.ResidencyLife : Prop :=
  ∀ (h : Nat) (s : State), (∀ i ∈ [Instr.goCmd h, .abortCmd h, .commitParams h, .imageStaging h, .residencyDispatch h, .arming h,
      .residencyStart h, .residencyEnd h, .residencyAbort h, .replayRearm h], ∃ t, exec i s = .next t) ∧
    let r := s.resOf h
    let rest := fun (t : State) => ∀ m, m ≠ h → t.resOf m = s.resOf m
    let calm := fun (t : State) => Quiet s t ∧ rest t
    let freed := fun (t : State) => (t.resOf h).region = none ∧ ∀ k ∈ s.resTiles h, (t.tile k).slots = [] ∧ (t.tile k).waiters = [] ∧
      ∀ n, n ≠ 0 → ((t.tile k).ctx n).mode = .free
    let others := fun (t : State) => ∀ m, m ≠ h → t.resOf m = { s.resOf m with err := (t.resOf m).err }
    let ovr := fun (i : Instr) (st : RState) (does : Res → Prop) => ∃ t, exec i s = .next t ∧ (t.resOf h).state = st ∧ freed t ∧ others t ∧
      does (t.resOf h) ∧ (t.resOf h).snap = (if r.tileLost then r.snap else none) ∧ (s.sysWait = [] → (s.outlet 0).q.length < 256 → ∃ tok, t.sysWait = [] ∧
        AMap.get? (t.outlet 0).q (max (s.outlet 0).next (s.outlet 0).h) = some tok ∧ tok.kind = .data ∧ tok.line = true ∧
        tok.payload.toNat % 2 ^ 64 = h % 256 + (t.resOf h).resid.toNat * 2 ^ 8 + st.code * 2 ^ 20 ∧
        tok.payload.toNat / 2 ^ 64 % 2 ^ 64 = (t.resOf h).result.toNat)
    (liveRes r = true ∨ s.bootStage ≠ 8 → Idle (.goCmd h) s) ∧
    (liveRes r = false → s.bootStage = 8 →
      (hostConflict s h = none → ∃ t, exec (.goCmd h) s = .next t ∧ calm t ∧ (let x := t.resOf h
        x.state = .queued ∧ x.used = true ∧ x.resid = 0 ∧ x.region = none ∧ x.result = 0 ∧ x.abortAsked = false ∧ x.image = r.image ∧
          x.stageDue = r.image.isNone ∧ x.snap = none ∧ x.tileLost = false ∧ x.err = ErrRec.init)) ∧
      (∀ c, hostConflict s h = some c → ∃ t, exec (.goCmd h) s = .next t ∧ (t.resOf h).state = .aborted ∧ rest t ∧
        (t.resOf h).result = BitVec.ofNat 64 (cfgShape * 2 ^ 56 + 7 * 2 ^ 52 + c % 2 ^ 32))) ∧
    (liveRes r = false → Idle (.abortCmd h) s) ∧
    (liveRes r = true → ∃ t, exec (.abortCmd h) s = .next t ∧ calm t ∧ t.resOf h = { r with abortAsked := true }) ∧
    (hostAnswered s = false → Idle (.commitParams h) s) ∧
    (hostAnswered s = true → ∃ t, exec (.commitParams h) s = .next t ∧ calm t ∧ t.resOf h = { r with commit := true }) ∧
    (let ws := readImage s (s.block h).image.toNat
     let bad := s.gBad (s.block h).image.toNat (8 * ws.length)
     (r.state ≠ .queued ∨ r.stageDue = false → Idle (.imageStaging h) s) ∧
     (r.state = .queued → r.stageDue = true →
       (bad = true → ovr (.imageStaging h) .aborted fun x => x.result.toNat / 2 ^ 56 = 0x45) ∧
       (bad = false → ∀ f, stageCheck s ws = some f → ovr (.imageStaging h) .aborted fun x => x.result = f.word) ∧
       (bad = false → stageCheck s ws = none → ∃ t, exec (.imageStaging h) s = .next t ∧ calm t ∧
         t.resOf h = { r with image := some ws, stageDue := false }))) ∧
    (r.image = none → Idle (.residencyDispatch h) s ∧ Idle (.arming h) s ∧ Idle (.residencyEnd h) s ∧ Idle (.replayRearm h) s) ∧
    (r.state ≠ .armed → Idle (.residencyStart h) s) ∧
    (r.state = .armed → ∃ t, exec (.residencyStart h) s = .next t ∧ calm t ∧ t.resOf h = { r with state := .running, wdLast := s.now }) ∧
    (liveRes r = false ∨ r.abortAsked = false → Idle (.residencyAbort h) s) ∧
    (liveRes r = true → r.abortAsked = true → ovr (.residencyAbort h) .aborted fun x => x.resid = r.resid ∧ x.abortAsked = false) ∧
    ∀ ws, r.image = some ws →
      let f := imgFirst ws
      let n := imgParams ws
      let va := (s.block h).paramva.toNat
      (findRegion s (imgRows ws) (imgCols ws) = none → Idle (.residencyDispatch h) s) ∧
      (¬(r.state = .queued ∧ r.stageDue = false ∧ groupsFree s h ws = true) →
        ¬(r.state = .held ∧ r.restoring = true ∧ r.snap ≠ none ∧ (r.resid ≠ 0 ∨ groupsFree s h ws = true)) → Idle (.residencyDispatch h) s) ∧
      (∀ g m, r.state = .held → r.restoring = true → r.snap = some m → r.resid ≠ 0 ∨ groupsFree s h ws = true →
        findRegion s (imgRows ws) (imgCols ws) = some g → ∃ t, exec (.residencyDispatch h) s = .next t ∧ (let x := t.resOf h
          x.state = .running ∧ x.region = some g ∧ x.resid.toNat = freshResid s ∧ x.restoring = false ∧ x.gen = m.gen ∧ x.commit = m.commit)) ∧
      (∀ g, r.state = .queued → r.stageDue = false → groupsFree s h ws = true → findRegion s (imgRows ws) (imgCols ws) = some g →
        ∃ t, exec (.residencyDispatch h) s = .next t ∧ calm t ∧ (t.resOf h).state = .loading ∧ (t.resOf h).region = some g ∧
          (t.resOf h).resid.toNat = freshResid s ∧ (∀ z ∈ usedRegions s, regionsMeet g z = false)) ∧
      (r.state ≠ .loading ∨ r.armWait ≠ none ∨ r.region = none → Idle (.arming h) s) ∧
      (∀ g, r.region = some g → r.state = .loading → r.armWait = none →
        let l := if r.loaded then s else loadTiles s h g ws r.resid
        let page := rangeState s (resSpace s h) va (2 * n) false true
        (∀ e, r.loaded = false → placeCheck s ws g (s.block h) = some e → ovr (.arming h) .aborted fun x => x.result = e.word) ∧
        (r.loaded = true ∨ placeCheck s ws g (s.block h) = none →
          (∀ w, loadError l h = some w → ovr (.arming h) .aborted fun x => x.result = w) ∧
          (loadError l h = none →
            (r.armRefused = true ∨ page = .refused → ovr (.arming h) .aborted fun x => x.result = BitVec.ofNat 64 (cfgBounds * 2 ^ 56)) ∧
            (∀ a, r.armRefused = false → page = .wait a → ∃ t, exec (.arming h) s = .next t ∧ rest t ∧ t.tiles = l.tiles ∧
              t.resOf h = { r with loaded := true, armWait := some a }) ∧
            (r.armRefused = false → page = .ready →
              ∃ t, exec (.arming h) s = .next t ∧ (let x := t.resOf h
                x.state = .armed ∧ x.gen = 0 ∧ x.replay = 0 ∧ x.result = 0 ∧ x.region = some g ∧ x.resid = r.resid ∧ x.faultQ = [] ∧
                  x.wdEn = true ∧ x.wdTicks = 0x61A80) ∧
                ∀ i j, i < g.rows → j < g.cols → (let k := s.regionTile g i j
                  let y := t.tile k
                  y.active = (l.tile k).active ∧ y.slot.state = (l.tile k).slot.state ∧ y.slot.resid = (l.tile k).slot.resid ∧
                    y.slot.handle = (l.tile k).slot.handle ∧
                  (r.loaded = false → f ∈ roleSlots ws →
                    y.active = f ∧ y.slot.state = .active ∧ y.slot.resid = r.resid ∧ y.slot.handle = h)))))) ∧
      (let ends := resDrained s h = true ∧ imgPersist ws = false ∧ r.abortAsked = false
       (¬ends → Idle (.residencyEnd h) s) ∧ (ends → ovr (.residencyEnd h) .ended fun x => x.resid = r.resid ∧ x.replay = r.replay)) ∧
      (let again := resDrained s h = true ∧ imgPersist ws = true ∧ r.abortAsked = false ∧ r.armWait = none
       let armed := fun (t : State) (gen : Nat) => (t.resOf h).replay = r.replay + 1 ∧ (t.resOf h).state = .running ∧ (t.resOf h).gen = gen ∧
         (t.resOf h).faultEos = false ∧ (t.resOf h).commit = false ∧ ∀ k ∈ s.resTiles h, (t.tile k).role = 0 ∧ (t.tile k).active = f
       (¬again → Idle (.replayRearm h) s) ∧
       (again → r.commit = false → ∃ t, exec (.replayRearm h) s = .next t ∧ armed t r.gen) ∧
       (again → r.commit = true → r.armRefused = true ∨ rangeState s (resSpace s h) va (2 * n) true true = .refused →
         ovr (.replayRearm h) .aborted fun x => x.replay = r.replay) ∧
       (again → r.commit = true → r.armRefused = false →
         (rangeState s (resSpace s h) va (2 * n) true true = .ready → ∃ t, exec (.replayRearm h) s = .next t ∧ armed t (r.gen + 1)) ∧
         (∀ a, rangeState s (resSpace s h) va (2 * n) true true = .wait a → ∃ t, exec (.replayRearm h) s = .next t ∧ calm t ∧
           t.resOf h = { r with armWait := some a })))

/-- 15 R374 to R380, R384: fault tokens, snapshots, restores. -/
def Obligations.FaultTokensAndSnapshots : Prop :=
  (∀ (h k n : Nat) (s : State), ∀ i ∈ [Instr.faultToken h, .faultPortEos h, .snapCmd h, .snapshotTileComplete h k, .restoreCmd h,
    .snapArrival k n], ∃ t, exec i s = .next t) ∧
  (∀ (h : Nat) (s : State),
    let r := s.resOf h
    let placed := fun (t : State) (k p : Nat) (kind : TokKind) (v : Line) => let x := (s.tile k).port p
      let y := (t.tile k).port p
      let j := max x.oseq x.h
      (x.drain = .no → x.count ≠ 0 ∨ x.stream ≠ none → x.fmt ≠ 14 → y.oseq = j + 1 ∧ y.h = x.h ∧ (∃ z, AMap.get? y.q j = some z ∧ z.kind = kind) ∧
        (t.tile k).payload y j = if x.line then v else (v.setWidth 64).setWidth 512)
    (r.image = none ∨ r.faultQ = [] ∨ r.state ≠ .running ∨ r.faultHold = true → Idle (.faultToken h) s) ∧
    (∀ ws k p, r.image = some ws → r.state = .running → r.faultHold = false → faultPort s h ws = some (k, p) →
      let full := ((s.tile k).port p).depth ≤ ((s.tile k).port p).q.length
      (full → Idle (.faultToken h) s ∧ Idle (.faultPortEos h) s) ∧
      (¬full → ∀ w rest, r.faultQ = w :: rest → ∃ t, exec (.faultToken h) s = .next t ∧ s.sameCtxs t ∧ s.sameGmem t ∧
        (t.resOf h).faultQ = rest ∧ placed t k p .data (w.setWidth 512)) ∧
      (∀ g, r.region = some g →
        let quiet := othersEnded s g ws = true ∧ ∀ x ∈ (s.tile k).counted (fld (imgFault ws) 2 0), x.1 ≠ p →
          (x.2.state ((s.tile k).actor (fld (imgFault ws) 2 0)).roundA).1 = .ended
        (r.faultQ ≠ [] ∨ r.faultEos = true ∨ ¬quiet → Idle (.faultPortEos h) s) ∧
        (¬full → r.faultQ = [] → r.faultEos = false → quiet → ∃ t, exec (.faultPortEos h) s = .next t ∧ s.sameCtxs t ∧ s.sameGmem t ∧ (t.resOf h).faultEos = true ∧ placed t k p .eos 0))) ∧
    (let may := r.state = .running ∧ r.snapping = false
     (¬may → Idle (.snapCmd h) s) ∧
     (may → r.moving ≠ none → ∃ t, exec (.snapCmd h) s = .next t ∧ Quiet s t ∧ t.resOf h = { r with snapDue := true } ∧
       ∀ m, m ≠ h → t.resOf m = s.resOf m) ∧
     (may → r.moving = none → r.image = none ∨ r.region = none → Idle (.snapCmd h) s) ∧
     (may → r.moving = none → r.image ≠ none → r.region ≠ none → ∃ t, exec (.snapCmd h) s = .next t ∧ (t.resOf h).snapping = true ∧
       (t.resOf h).snapDue = false ∧ (t.resOf h).faultHold = true ∧ (t.resOf h).state = .running ∧
       s.sameGmem t ∧ ∀ k ∈ s.resTiles h, ∀ p w, ((s.tile k).slot.ports.map (·.1)).Nodup →
         AMap.get? (s.tile k).slot.ports p = some w → w.declared = true → w.output = false → w.ordered = true →
         ((t.tile k).port p).marker = some (max w.oseq w.h, 0))) ∧
    (let done := fun (w : State) => (∀ q ∈ s.resTiles h, (w.tile q).snapDone = true) ∧ fabricsMarked w h = true ∧ ordQuiet w h = true
     let holds := fun (w t : State) => ∃ n, (t.resOf h).state = .held ∧ (t.resOf h).region = none ∧ (t.resOf h).snap = some n ∧
       (t.resOf h).snapping = false ∧ (t.resOf h).faultQ = (w.resOf h).faultQ ∧ n.gen = (w.resOf h).gen ∧ n.commit = (w.resOf h).commit ∧
       r.region = some n.region ∧ n.tiles = (s.resTiles h).map (fun q => (q, w.tile q)) ∧ ∀ q ∈ s.resTiles h, (t.tile q).slots = []
     ∀ k, let x := s.tile k
      let own := r.region ≠ none ∧ r.snapping = true ∧ k ∈ s.resTiles h
      (¬own → Idle (.snapshotTileComplete h k) s) ∧
      (own → x.snapDone = true →
        (¬done s → Idle (.snapshotTileComplete h k) s) ∧ (done s → ∃ t, exec (.snapshotTileComplete h k) s = .next t ∧ holds s t)) ∧
      (own → x.snapDone = false → nodesComplete x = false → Idle (.snapshotTileComplete h k) s) ∧
      (own → x.snapDone = false → nodesComplete x = true → ∀ w, exec (.preemptToken k) s = .next w →
        let y := w.tile k
        let z := { y with
          snapDone := true, preHalted := true, preElapsed := if y.preHalted then y.preElapsed else min (w.now - y.preAt) 65535 }
        (y.haltStands = false ∨ repliesDue w k = true → exec (.snapshotTileComplete h k) s = .next w) ∧
        (y.haltStands = true → repliesDue w k = false → ∃ v, Quiet w v ∧ v.tile k = z ∧ (∀ q, q ≠ k → v.tile q = w.tile q) ∧ v.res = w.res ∧
          (¬done v → exec (.snapshotTileComplete h k) s = .next v) ∧
          (done v → ∃ t, exec (.snapshotTileComplete h k) s = .next t ∧ holds v t)))) ∧
    (let may := r.state = .held ∨ (r.state = .aborted ∧ r.tileLost = true ∧ ∀ c ∈ boundChans (s.block h), boundElsewhere s h c = false)
     (r.snap = none ∨ ¬may → Idle (.restoreCmd h) s) ∧
     (∀ n, r.snap = some n → may →
      (snapDigest (readSnap s h n) ≠ n.digest → ∃ t, exec (.restoreCmd h) s = .next t ∧ Quiet s t ∧
        t.resOf h = { r with result := BitVec.ofNat 64 (0x45 * 2 ^ 56) }) ∧
      (snapDigest (readSnap s h n) = n.digest →
        let free := fun (ws : List Word) => (r.state = .held ∧ r.resid ≠ 0) ∨ groupsFree s h ws = true
        ((∀ ws, r.image = some ws → findRegion s (imgRows ws) (imgCols ws) = none ∨ ¬free ws) →
          ∃ t, exec (.restoreCmd h) s = .next t ∧ Quiet s t ∧
            t.resOf h = { r with state := .held, restoring := true, resid := if r.state = .held then r.resid else 0 }) ∧
        (∀ ws g, r.image = some ws → free ws → findRegion s (imgRows ws) (imgCols ws) = some g → ∃ t, exec (.restoreCmd h) s = .next t ∧
          (t.resOf h).state = .running ∧ (t.resOf h).region = some g ∧ (t.resOf h).resid.toNat = freshResid s ∧ (t.resOf h).gen = n.gen ∧
          (t.resOf h).commit = n.commit ∧ (t.resOf h).snap = some n ∧ (t.resOf h).snapping = false ∧ (t.resOf h).restoring = false))))) ∧
  ∀ (id n : Nat) (s : State),
    (s.chan? id = none → Idle (.snapArrival id n) s) ∧
    ∀ c b, s.chan? id = some c → c.branches[n]? = some b →
      let go := (s.resOf c.handle).snapping = true ∧ snapOut s id c = true ∧ b.flights = [] ∧ c.forkQ = [] ∧ endLive s id n b.dst = true
      let m := (c.seq + b.base, snapPayload c)
      (¬go → Idle (.snapArrival id n) s) ∧
      (∀ k p, b.dst = .port k p ∨ b.dst = .stream k p → go →
        (((s.tile k).port p).marker ≠ none → Idle (.snapArrival id n) s) ∧
        (((s.tile k).port p).marker = none → ∃ t, exec (.snapArrival id n) s = .next t ∧ ((t.tile k).port p).marker = some m ∧
          (((s.tile k).port p).stream = none → ((t.tile k).actor ((s.tile k).port p).actor).held = true) ∧
          (((s.tile k).port p).stream ≠ none → Quiet s t))) ∧
      (∀ l i, b.dst = .fabric l i → go → ∃ t d, exec (.snapArrival id n) s = .next t ∧ Quiet s t ∧ t.chan? id = some d ∧
        d = { c with branches := d.branches } ∧ d.branches[n]? = some { b with snap := some m } ∧
        ∀ j, j ≠ n → d.branches[j]? = c.branches[j]?) ∧
      (∀ i, b.dst = .outlet i ∨ b.dst = .inlet i → Idle (.snapArrival id n) s) ∧
      (∀ k i e o, b.dst = .oper k i e → go → (s.tile k).oper i = some o → ∃ t, exec (.snapArrival id n) s = .next t ∧ Quiet s t ∧
        (t.tile k).oper i = some (if e = 0 then { o with marker0 := some m, held := true } else { o with marker1 := some m, held := true }))

/-- 17 R396 to R398, R400, R407, 16 R385, R394, R395, 00 R6: what the host does to the module. -/
def Obligations.HostAndRegisters : Prop :=
  (∀ (n k : Nat) (v : Word) (x : Line) (ok : Bool) (b : BitVec 256) (img : Firmware) (s : State), ∀ i ∈ [Instr.inletData n v, .inletEos n v,
    .inletRound n, .inletNull n, .inletLine n x ok, .takenWrite n k, .hostPortLinkFail n, .attestationReport b, .keySlotFill n k k,
    .recoveryImageLoad img], ∃ t, exec i s = .next t) ∧
  (∀ (p n : Nat) (v : Word) (x : Line) (s : State), n < 32 →
    let c := s.inlet n
    let ch := 32 * p + n
    let drops := fun (i : Instr) => ∃ t, exec i s = .next t ∧ Quiet s t ∧ t.chans = s.chans ∧
      t.inlet n = { c with drops := min (c.drops + 1) 0xFFFFFFFF }
    (hostReaches s p = false → Idle (.inletLine ch x false) s) ∧ (hostReaches s p = true → drops (.inletLine ch x false)) ∧
    inletRead s n 0x88 = BitVec.ofNat 64 c.drops ∧ inletRead s n 0x90 = BitVec.ofNat 64 c.created ∧
    (∀ id d, c.chan = some id → s.chan? id = some d → inletRead s n 0x80 = BitVec.ofNat 64 d.room) ∧
    ∀ e : Instr × TokKind × Line × Option Bool, e ∈ [(.inletData ch v, .data, v.setWidth 512, some false),
        (.inletEos ch v, .eos, (v.setWidth 16).setWidth 512, none), (.inletRound ch, .round, 0, none), (.inletNull ch, .null, 0, none),
        (.inletLine ch x true, .data, x, some true)] →
      (hostReaches s p = false → Idle e.1 s) ∧ (hostReaches s p = true → inletChan s n = none → drops e.1) ∧
      ∀ id d, hostReaches s p = true → inletChan s n = some (id, d) →
        (d.room = 0 ∨ (∃ b, e.2.2.2 = some b ∧ b ≠ d.line) → drops e.1) ∧
        (0 < d.room → (∀ b, e.2.2.2 = some b → b = d.line) → ∃ t, exec e.1 s = .next t ∧ Quiet s t ∧ EnteredChan t id d e.2.1 e.2.2.1 ∧
          t.inlet n = { c with created := (c.created + 1) % 2 ^ 64 })) ∧
  (∀ (p n k : Nat) (s : State), n < 32 →
    let o := s.outlet n
    let i := Instr.takenWrite (32 * p + n) k
    (hostReaches s p = false ∨ o.avail < k → Idle i s) ∧
    (hostReaches s p = true → k ≤ o.avail → n ≠ 0 ∨ s.sysWait = [] → ∃ t, exec i s = .next t ∧ Quiet s t ∧ (t.outlet n).h = o.h + k ∧
      (∀ j, AMap.get? (t.outlet n).q j = if j < o.h + k then none else AMap.get? o.q j) ∧
      ∀ id c b, o.chan = some id → s.chan? id = some c → c.branches[o.branch]? = some b →
        ∃ d, t.chan? id = some d ∧ d.branches[o.branch]? = some { b with back := b.back + k }) ∧
    (∃ w, outletRead s n 0 = some w ∧ w.toNat = o.h % 2 ^ 32 * 2 ^ 32 + o.avail % 2 ^ 16) ∧
    ∀ tok, AMap.get? o.q o.h = some tok → (let at' := fun (j : Nat) => outletRead s n (0x4000 + 128 * (o.h % 256) + 8 * j)
      (∃ w, at' 0 = some w ∧ w.extractLsb' 0 48 = headerOf tok ∧ w.extractLsb' 48 16 = tok.scale.setWidth 16) ∧
      ∀ j, j < 8 → at' (8 + j) = some (lineWord tok.payload j))) ∧
  (∀ (port : Nat) (s : State), ∃ t, exec (.hostPortLinkFail port) s = .next t ∧ t = { s with hostUp := t.hostUp } ∧
    ∀ q, t.hostUp.getLsbD q = (s.hostUp.getLsbD q && decide (q ≠ port))) ∧
  (∀ (off : Nat) (v : Word) (s : State), hostReaches s (off / 2 ^ 27) = false → Idle (.registerWrite off v) s) ∧
  (∀ (port off : Nat) (v : Word) (s : State), off < 2 ^ 27 → hostReaches s port = true →
    let w := fun (a : Nat) => Instr.registerWrite (2 ^ 27 * port + a) v
    (mgmtRead s (off / 8 * 8) = none → exec (w off) s = .fault .undescribedDevice) ∧
    (mgmtRead s (off / 8 * 8) ≠ none → off < 0x100000 ∨ (0x400000 ≤ off ∧ off < 0x800000) → Idle (w off) s) ∧
    (∀ h, h < 256 →
      let r := s.resOf h
      let b := s.block h
      let at8 := fun (i : Nat) => w (0x100000 + 64 * h + 8 * i)
      let noted := s.updRes h fun r => { r with commit := v.getLsbD 59 }
      let bits := [v.getLsbD 63, v.getLsbD 62, v.getLsbD 61, v.getLsbD 60]
      let becomes := fun (i : Nat) (b' : Block) => ∃ t, exec (at8 i) s = .next t ∧ Quiet s t ∧ t.block h = b' ∧ ∀ m, m ≠ h → t.block m = s.block m
      (2 ≤ (bits.filter id).length → Idle (at8 0) s) ∧
      (bits = [false, false, false, false] → exec (at8 0) s = .next noted) ∧
      (bits = [true, false, false, false] → exec (at8 0) s = exec (.goCmd h) noted) ∧
      (bits = [false, true, false, false] → exec (at8 0) s = exec (.abortCmd h) noted) ∧
      (bits = [false, false, true, false] → exec (at8 0) s = exec (.snapCmd h) noted) ∧
      (bits = [false, false, false, true] → exec (at8 0) s = exec (.restoreCmd h) noted) ∧
      (∀ i, 1 ≤ i → i < 6 → r.used = true → r.state ∈ [.loading, .armed, .running, .held] → Idle (at8 i) s) ∧ Idle (at8 6) s ∧ Idle (at8 7) s ∧
      (r.used = false ∨ r.state ∉ [.loading, .armed, .running, .held] →
        becomes 1 { b with image := v.setWidth 52 } ∧ becomes 2 { b with root := v.setWidth 52 &&& ~~~0xFFF#52 } ∧
        becomes 3 { b with paramva := v.setWidth 48 } ∧ becomes 4 { b with snappa := v.setWidth 52 } ∧
        becomes 5 { b with
          onum := v.toNat / 2 ^ 15 % 32, ofirst := v.toNat / 2 ^ 10 % 32, inum := v.toNat / 2 ^ 5 % 32, ifirst := v.toNat % 32 }) ∧
      ∀ i, i < 16 → (let a := w (0x300000 + 128 * h + 8 * i)
        (i ≠ 12 → Idle a s) ∧ (i = 12 → ∃ t, exec a s = .next t ∧ Quiet s t ∧ t.resOf h = { r with err := { r.err with dump := v.setWidth 48 } }))) ∧
    (∀ p e, p < 36 → e < 64 → let a := w (0x800000 + 0x1000 * p + 8 * e)
      ((s.link p).fabEn = true → Idle a s) ∧
      ((s.link p).fabEn = false → ∃ t, exec a s = .next t ∧ t = { s with links := t.links } ∧ (∀ q, q ≠ p → t.link q = s.link q) ∧
        ((t.link p).elem e).word = v &&& ~~~0x3FF#64 ∧ ∀ g, g ≠ e → (t.link p).elem g = (s.link p).elem g)) ∧
    (∀ p, p < 36 → ∃ t, exec (w (atLink + 8 * p)) s = .next t ∧ t = { s with links := t.links } ∧ (∀ q, q ≠ p → t.link q = s.link q) ∧
      t.link p = { s.link p with table := v &&& 0xFFF0000000000003 }) ∧
    (∀ m, m < 64 → ∃ t, exec (w (atRoute + 8 * m)) s = .next t ∧ t = { s with routes := t.routes } ∧
      AMap.getD t.routes m 0 = v &&& 0x3F00000FFFFFFFFF) ∧
    ∀ p, p < 2 → (∃ t, exec (w (atWbase + 8 * p)) s = .next t ∧ Quiet s t ∧
        (AMap.getD t.wbase p 0).toNat = v.toNat / 2 ^ 36 % 2 ^ 16 * 2 ^ 36) ∧
      ∃ t, exec (w (atMsien + 8 * p)) s = .next t ∧ Quiet s t ∧ (AMap.getD t.msien p 0).toNat = v.toNat % 2 ^ 32) ∧
  (∀ (nonce : BitVec 256) (s : State),
    (hostAnswered s = false → Idle (.attestationReport nonce) s) ∧
    (hostAnswered s = true → ∃ t r, exec (.attestationReport nonce) s = .next t ∧ t = { s with reports := s.reports ++ [r] } ∧
      r.length = 3696 ∧ r.take 32 = leBytes 32 nonce.toNat ∧ (r.drop 32).take 64 = leBytes 64 s.delsisImg.digest ∧
      (r.drop 96).take 64 = leBytes 64 s.monitorImg.digest ∧ (r.drop 160).take 64 = leBytes 64 s.dispatchImg.digest ∧
      (r.drop 224).take 64 = leBytes 64 (Config.shake256 (s.fuses.tileBits ++ s.fuses.linkBits ++ s.fuses.ceilings)).toNat ∧
      (r.drop 288).take 64 = leBytes 64 (Config.shake256 (s.fuses.tileRetireBits ++ s.fuses.linkRetireBits)).toNat ∧
      (r.drop 352).take 8 = leBytes 8 (summary0 s).toNat ∧ (r.drop 360).take 8 = leBytes 8 (summary1 s).toNat ∧
      (r.drop 368).take 8 = leBytes 8 s.refTime ∧ (r.drop 376).take 8 = leBytes 8 s.fuses.secVersion ∧
      (r.drop 384).take 3309 = leBytes 3309 (Config.attest (Config.shake256 (r.take 384))) ∧ r.drop 3693 = [0, 0, 0])) ∧
  (∀ (slot key sig : Nat) (s : State),
    let owner := Config.keyHash (sig / 2 ^ 26472)
    let good := slot < 16 ∧ hostAnswered s = true ∧ (s.fuses.ownerKey = none ∨ s.fuses.ownerKey = some owner) ∧
      Config.mldsaVerify (sig / 2 ^ 26472) (Config.shake256 (leBytes 1 slot ++ leBytes 1952 key)) (leBytes 3309 (sig % 2 ^ 26472)) = true
    (¬good → Idle (.keySlotFill slot key sig) s) ∧
    (good → ∃ t, exec (.keySlotFill slot key sig) s = .next t ∧
      t = { s with keySlots := t.keySlots, fuses := { s.fuses with ownerKey := some owner } } ∧
      ∀ j, AMap.get? t.keySlots j = if j = slot then some key else AMap.get? s.keySlots j)) ∧
  ∀ (img : Firmware) (s : State),
    let good := Config.keyHash img.key = s.fuses.rootKey ∧ s.fuses.secVersion ≤ img.version ∧
      Config.mldsaVerify img.key (BitVec.ofNat 512 img.digest) (leBytes 3309 img.sig) = true
    (s.bootStage ≠ 0xF1 → Idle (.recoveryImageLoad img) s) ∧
    (s.bootStage = 0xF1 → ∃ t, exec (.recoveryImageLoad img) s = .next t ∧ Quiet s t ∧ (¬good → t = s) ∧
      (good → t.bootStage = 0 ∧ t.bootFail = 0 ∧ t.fuses = { s.fuses with secVersion := img.version } ∧
        (s.delsisImg = Firmware.blank → t.delsisImg = img) ∧
        (s.delsisImg ≠ Firmware.blank → t.delsisImg = s.delsisImg ∧ (s.monitorImg = Firmware.blank → t.monitorImg = img) ∧
          (s.monitorImg ≠ Firmware.blank → t.monitorImg = s.monitorImg ∧ t.dispatchImg = img))))

/-- 17 R401, R402, R404, R406 to R408: link ports and port fabrics. -/
def Obligations.LinksAndFabric : Prop :=
  ∀ (port : Nat) (s : State), (∀ (n : Nat) (f : Flit) (v : Word) (b : Bool), ∀ i ∈ [Instr.ackFlit port n, .nakFlit port n, .flitReceive port f,
      .retrain port, .retrainEnd port b, .linkDead port, .timingFlitSend, .timingFlit port v, .fabricEnable port b, .fabricElementFire port n],
      ∃ t, exec i s = .next t) ∧
    let l := s.link port
    let up := l.table.toNat % 4 = 2 ∧ l.retraining = false
    let only := fun (t : State) => t = { s with links := t.links } ∧ ∀ q, q ≠ port → t.link q = s.link q
    let gives := fun (i : Instr) (x : LinkPort) => ∃ t, exec i s = .next t ∧ only t ∧ t.link port = x
    let late := fun (seq : Nat) (f : Flit) => (f.seq + 4096 - seq % 4096) % 4096
    let recent := l.naks.filter fun t => decide (s.now < t + 4000000)
    let state := fun (x : LinkPort) (n : Nat) => x.table.toNat = l.table.toNat / 4 * 4 + n
    let acked := fun (i : Instr) (seq : Nat) => ∃ t, exec i s = .next t ∧ only t ∧
      (∀ f ∈ l.replay, 1 ≤ late seq f ∧ late seq f ≤ 256 → f ∈ (t.link port).replay) ∧
      (l.pendTx = [] → t.link port = { l with replay := l.replay.filter fun f => decide (1 ≤ late seq f) && decide (late seq f ≤ 256) })
    let naked := fun (i : Instr) (seq : Nat) => gives i { l with
      resend := l.replay.filter fun f => decide (late seq f < 256), naks := recent ++ [s.now]
      retrainDue := l.retrainDue || decide (15 ≤ recent.length) }
    (∀ seq, (¬up → Idle (.ackFlit port seq) s ∧ Idle (.nakFlit port seq) s) ∧ (up → acked (.ackFlit port seq) seq ∧ naked (.nakFlit port seq) seq)) ∧
    (∀ f : Flit, let i := Instr.flitReceive port f
      (¬up → Idle i s) ∧
      (up → f.crcOk = false ∨ 10 ≤ f.typ →
        gives i { l with ctl := some ⟨6, 0, 0, l.rxSeq.toNat, .none, true⟩, naks := recent ++ [s.now]
                         retrainDue := l.retrainDue || decide (15 ≤ recent.length) }) ∧
      (up → f.crcOk = true → (f.typ = 0 → Idle i s) ∧ (f.typ = 5 → acked i f.seq) ∧ (f.typ = 6 → naked i f.seq)) ∧
      (up → f.crcOk = true → f.typ ∈ [1, 2, 3, 4, 7, 8, 9] →
        (f.seq % 4096 ≠ l.rxSeq.toNat → Idle i s) ∧
        (f.seq % 4096 = l.rxSeq.toNat → ∃ t, exec i s = .next t ∧ s.sameCtxs t ∧ s.sameTlm t ∧ (f.typ ≠ 9 → s.sameGmem t) ∧
          (t.link port).rxSeq = l.rxSeq + 1 ∧
          (t.link port).ctl = some ⟨5, 0, 0, l.rxSeq.toNat, .none, true⟩ ∧
          (f.typ ≠ 2 → f.typ ≠ 3 → t.oflights = s.oflights) ∧
          (∀ m b, f.typ = 2 → f.body = .ordered m b → ∃ d, t.oflights = s.oflights ++ [d] ∧ d.msg = some m ∧ d.w = (ohdrOf m).stamp) ∧
          (∀ w, f.typ = 3 → f.body = .beacon w → ∃ d, t.oflights = s.oflights ++ [d] ∧ d.msg = none ∧ d.w = w) ∧
          (∀ ts, f.typ = 7 → f.body = .tokens ts →
            AMap.getD (t.link port).rx (f.stream % 16) [] = AMap.getD l.rx (f.stream % 16) [] ++ ts) ∧
          (∀ bs, f.typ = 7 → f.body = .packed bs → (let st := f.stream % 16
            let u := unpackBlocks 8 (AMap.getD l.packed st [] ++ bs)
            AMap.getD (t.link port).rx st [] = AMap.getD l.rx st [] ++ u.1 ∧ AMap.getD (t.link port).packed st [] = u.2)) ∧
          ∀ id op pa n data cmp, f.typ = 9 → f.body = .request id op pa n data cmp →
            let here := paModule pa = s.module ∧ paKind pa = 0 ∧ op ≠ .swabt
            let x := homePerform s 0 (farRequest op pa n data cmp)
            let sent := fun (y : Reply) => t.link port =
              ({ l with rxSeq := l.rxSeq + 1, ctl := some ⟨5, 0, 0, l.rxSeq.toNat, .none, true⟩ } : LinkPort).send 9 3 0 (.reply id y)
            (here → sent x.2 ∧ t.gmem = x.1.gmem ∧ t.gpoison = x.1.gpoison) ∧ (¬here → sent .poison ∧ t.gmem = s.gmem)))) ∧
    (¬(up ∧ l.retrainDue = true) → Idle (.retrain port) s) ∧
    (up → l.retrainDue = true → ∃ t, exec (.retrain port) s = .next t ∧ only t ∧ state (t.link port) 1 ∧
      t.link port = { l with table := (t.link port).table, retraining := true, retrainDue := false, naks := [] }) ∧
    (let trained := l.table.toNat % 4 = 1 ∧ l.retraining = true
     (∀ ok, ¬trained ∨ (ok = false ∧ 2 ≤ l.fails) → Idle (.retrainEnd port ok) s) ∧
     (trained → ∃ t, exec (.retrainEnd port true) s = .next t ∧ only t ∧ state (t.link port) 2 ∧
       t.link port = { l with table := (t.link port).table, retraining := false, fails := 0, resend := l.replay }) ∧
     (trained → l.fails < 2 → gives (.retrainEnd port false) { l with fails := l.fails + 1 }) ∧
     (let node := AMap.get? s.onodes (linkNode port)
      (¬trained ∨ l.fails < 2 → l.table.toNat % 4 ≠ 3 ∨ node = none ∨ linkQuiet s port = false → Idle (.linkDead port) s) ∧
      (l.table.toNat % 4 = 3 → node ≠ none → linkQuiet s port = true → ∃ t, exec (.linkDead port) s = .next t ∧ s.sameCtxs t ∧ s.sameGmem t ∧
        AMap.get? t.onodes (linkNode port) = none)) ∧
     (trained → 2 ≤ l.fails → ∃ t, exec (.linkDead port) s = .next t ∧ state (t.link port) 3 ∧ (t.link port).retraining = false ∧
       (t.link port).replay = [] ∧ (t.link port).fabEn = false ∧ NSet.mem t.deadLinks port = true ∧
       (∀ k id q, AMap.get? (s.tile k).reqs id = some q → (let cut := paKind q.pa = 0 ∧ paModule q.pa ≠ s.module ∧ q.reply = none ∧
           ((AMap.getD s.routes (paModule q.pa) 0).extractLsb' 56 6).toNat = port
         (cut → AMap.get? (t.tile k).reqs id = some { q with performed := true, reply := some .poison }) ∧
         (¬cut → AMap.get? (t.tile k).reqs id = some q))) ∧
       (port < 36 → ∀ m w, AMap.get? s.routes m = some w → ∃ x, AMap.get? t.routes m = some x ∧
         (∀ p, p < 36 → x.getLsbD p = (w.getLsbD p && decide (p ≠ port))) ∧ (x.extractLsb' 56 6).toNat ≠ port ∧
         ((w.extractLsb' 56 6).toNat ≠ port → x.extractLsb' 56 6 = w.extractLsb' 56 6)) ∧
       (∀ r ∈ l.oSenders, ∀ h ws, handleOfResid s (BitVec.ofNat 12 r) = some h → (s.resOf h).image = some ws → (nthD ws 3 0).getLsbD 3 = true → (s.resOf h).faultEos = false →
         (s.resOf h).faultQ.length + l.oSenders.length ≤ 64 → BitVec.ofNat 64 (0x12 + port * 256 + 0x10000) ∈ (t.resOf h).faultQ) ∧
       ∀ st id c, st < 16 → (s.onode (linkNode port)).outputs = [] → (AMap.keys s.chans).Pairwise (· < ·) → egressChan s port st = some (id, c) → c.closed = false → 0 < c.room →
         AMap.getD l.egress st [] = [] → EnteredChan t id c .eos 0x17)) ∧
    (s.podRoot = false ∨ s.now < s.lastTiming + 1024 → Idle .timingFlitSend s) ∧
    (s.podRoot = true → s.lastTiming + 1024 ≤ s.now → ∃ t, exec .timingFlitSend s = .next t ∧ t = { s with lastTiming := s.now, links := t.links } ∧
      ((AMap.keys s.links).Nodup → ∀ p ∈ AMap.keys s.links, t.link p =
        if (s.link p).table.toNat % 4 = 2 ∧ Config.treePort s.module p = true then (s.link p).send 4 3 0 (.timing (BitVec.ofNat 64 s.refTime))
        else s.link p)) ∧
    (∀ v, (¬up → Idle (.timingFlit port v) s) ∧
      (up → ∃ t, exec (.timingFlit port v) s = .next t ∧ Quiet s t ∧ (t.link port).peerTime = v.toNat ∧ t.now = s.now ∧ t.refTime = s.refTime ∧
        (s.podRoot = true → t.refErr = s.refErr) ∧
        (s.podRoot = false → t.refFrom = s.now ∧
          t.refErr = ((v.toNat + Config.linkDelay port) % 2 ^ 64 : Nat) - (s.refTime : Int)))) ∧
    gives (.fabricEnable port false) { l with fabEn := false } ∧
    (let used := fun (x : Nat) => elemUsed (l.elem x).word = true
     let cyclic := fun (e : Nat) => ∃ (k : Nat) (g : Nat → Nat), 1 ≤ k ∧ k ≤ 64 ∧ g 0 = e ∧ g k = e ∧
       ∀ i, i < k → used (g i) ∧ g (i + 1) ∈ elemPreds (l.elem (g i)).word
     let valid := ∀ e, e < 64 → used e → elemOp (l.elem e).word < 8 ∧ pairingOk (l.elem e).word = true ∧
       (∀ x ∈ elemPreds (l.elem e).word, used x) ∧ ¬cyclic e
     (valid → gives (.fabricEnable port true) { l with fabEn := true, fabErr := false }) ∧
     (¬valid → gives (.fabricEnable port true) { l with fabEn := false, fabErr := true })) ∧
    (∀ e, (l.fabEn = false → Idle (.fabricElementFire port e) s) ∧
      (l.fabEn = true →
        let s1 := settleFabric s port
        let l1 := s1.link port
        let x := l1.elem e
        let ready := elemUsed x.word = true ∧ x.a ≠ none ∧ (twoInputs (elemOp x.word) = true → x.b ≠ none) ∧ x.main = none ∧ x.aux = none
        (¬ready → exec (.fabricElementFire port e) s = .next s1) ∧
        ∀ a, ready → x.a = some a → ∃ l2 m, exec (.fabricElementFire port e) s = .next (settleFabric (s1.setLink port l2) port) ∧
          (l2.elem e).a = none ∧ (l2.elem e).b = none ∧ (l2.elem e).main = heldOut m (outReaders l1 e false) ∧
          (∀ g, g ≠ e → l2.elem g = l1.elem g) ∧
          (elemOp x.word = 0 → m = a ∧ (l2.elem e).aux = heldOut a (outReaders l1 e true)) ∧
          (twoInputs (elemOp x.word) = false → a.kind ≠ .data → m = a) ∧
          (elemOp x.word ≠ 0 → elemOp x.word ≠ 4 → (l2.elem e).aux = none) ∧
          (twoInputs (elemOp x.word) = false → a.kind = .data →
            (∀ i o, elemOp x.word = 4 → elemTy (elemIn x.word) = some i → elemTy (elemOut x.word) = some o →
              let n := 512 / max i.width o.width
              let y := fun (j : Nat) => convert .rne true false false i o (elem a.payload i.width j)
              m = { a with payload := m.payload } ∧ (∀ j, j < n → elem m.payload o.width j = (y j).bits % 2 ^ o.width) ∧
              (∀ j, n ≤ j → j < 512 / o.width → elem m.payload o.width j = 0) ∧
              ((∀ j, j < n → (y j).ovr = false) → (l2.elem e).aux = none) ∧
              ((∃ j, j < n ∧ (y j).ovr = true) → ∃ z : Token, (l2.elem e).aux = heldOut z (outReaders l1 e true) ∧ z.kind = .data ∧ z.line = false ∧
                ∀ j, j < 512 → z.payload.getLsbD j = (decide (j < n) && (y j).ovr))) ∧
            (elemOp x.word = 5 → m.line = true ∧ m.kind = .data ∧
              m.payload = bytesLine (xe8Encode a.scale (((lineBytes a.payload).take 32).map (·.toNat)))) ∧
            (elemOp x.word = 6 → (let d := xe8Decode (lineBytes a.payload)
              m.kind = (if d.ok then .data else .poison) ∧ (d.ok = true → m.scale = d.scale ∧ m.payload = bytesLine (d.elems.map (BitVec.ofNat 8))))) ∧
            (elemOp x.word = 7 → (let f := fmtOf (elemIn x.word)
              ∀ j, j < 512 / f.width → (let v := f.decode false (elem a.payload f.width j)
                elem m.payload f.width j = (finish f .rne (elemSat x.word) false v.isSnan
                  (v.scale (((elemScale x.word).toNat : Int) - 127))).1 % 2 ^ f.width)))) ∧
          (twoInputs (elemOp x.word) = false → l2.fabErrs = (if elemOp x.word = 6 ∧ a.kind = .data ∧ (xe8Decode (lineBytes a.payload)).ok = false
            then min (l1.fabErrs + 1) 0xFFFFFFFF else l1.fabErrs)) ∧
          ∀ b, twoInputs (elemOp x.word) = true → x.b = some b →
            let plain := a.kind ∈ [.null, .data] ∧ b.kind ∈ [.null, .data]
            let mixed := a.kind ≠ .poison ∧ b.kind ≠ .poison ∧ ¬plain ∧ ¬(a.kind = b.kind ∧ a.kind ∈ [.eos, .round])
            (a.kind = .poison ∨ b.kind = .poison ∨ mixed → m.kind = .poison) ∧ (¬mixed → a.kind = b.kind → m.kind = a.kind) ∧
            (a.kind = .data → b.kind = .null → m = a) ∧ (a.kind = .null → b.kind = .data → m = b) ∧
            l2.fabErrs = (if mixed then min (l1.fabErrs + 1) 0xFFFFFFFF else l1.fabErrs) ∧
            (a.kind = .data → b.kind = .data →
              let each := fun (w : Nat) (g : Nat → Nat → Nat) => ∀ j, j < 512 / w →
                elem m.payload w j = g (elem a.payload w j) (elem b.payload w j) % 2 ^ w
              (elemOp x.word = 1 → each 32 fun p q => (fAdd .f32 .rne (elemSat x.word) false false p q).1) ∧
              (elemOp x.word = 2 → each 16 fun p q => (fAdd .bf16 .rne (elemSat x.word) false false p q).1) ∧
              (elemOp x.word = 3 → elemIn x.word = 7 → each 32 fun p q => (fMinMax .f32 false true p q).1) ∧
              (elemOp x.word = 3 → elemIn x.word = 9 → each 16 fun p q => (fMinMax .bf16 false true p q).1))))

/-- 16 R387 to R394, 17 R409 to R411: boot, retirement, power. -/
def Obligations.PowerAndRetirement : Prop :=
  (∀ (b : BootInput) (x : RetireTarget) (n : Nat) (y : Bool) (s : State), ∀ i ∈ [Instr.powerOn b, .tileRetirement x, .hostRetire x,
    .linkStopsAnswering n, .powerLoss y, .droopStop n, .droopRecovery n, .coxEpoch], ∃ t, exec i s = .next t) ∧
  (∀ (b : BootInput) (s : State),
    (s.powered = true → s.bootStage ≠ 0 → Idle (.powerOn b) s) ∧
    (s.powered = false ∨ s.bootStage = 0 → ∃ t, exec (.powerOn b) s = .next t ∧ t.powered = true ∧ t.now = s.now ∧ s.sameGmem t ∧
      (s.delsisImg = Firmware.blank →
        b.images[0]? = none ∨ (∃ x, b.images[0]? = some x ∧ (x.version < s.fuses.secVersion ∨ Config.keyHash x.key ≠ s.fuses.rootKey)) →
        t.bootStage = 0xF1 ∧ 0 < t.bootFail ∧ t.bootFail < 256 ∧ t.tiles = s.tiles) ∧
      (s.delsisImg ≠ Firmware.blank → s.monitorImg ≠ Firmware.blank → s.dispatchImg ≠ Firmware.blank →
        (∀ n c, b.stopAt = some (n, c) → 2 ≤ n → n ≤ 8 → c % 256 ≠ 0 → t.bootStage = n ∧ t.bootFail = c % 256) ∧
        (b.stopAt = none →
          let r := nthD t.rects 0 (0, 0, 0, 0)
          let grade := fun (live h w : Nat) => live ≤ t.phys.length ∧ w ≤ r.2.2.2 ∧ h ≤ r.2.2.1
          let a := grade 11904 80 144
          let b1 := grade 11520 72 120
          let c := grade 10752 64 96
          t.bootStage = 8 ∧ t.hostUp = 3 ∧ t.fuses = s.fuses.atBoot.selfTests b ∧
          (∀ p, s.fuses.bad p = true → t.fuses.bad p = true) ∧
          (∀ p ∈ b.routerFail, p < 13104 → s.fuses.bad p = false → NSet.mem t.fuses.tileRetired p = true ∧
            ∀ x ∈ tileLinks p, NSet.mem t.fuses.linkRetired x.1 = true) ∧
          ((b.routes.map (·.1)).Nodup → ∀ x ∈ b.routes, x.1 < 64 → AMap.getD t.routes x.1 0 = x.2 &&& 0x3F00000FFFFFFFFF) ∧
          (∀ n p, (n, p) ∈ t.phys ↔ n < 12096 ∧ t.fuses.bad p = false ∧
            (let base := ((n / 144 / 12 * 12 + n % 144 / 12) * 12 + n / 144 % 12) * 13
             let j := n % 12
             ((∀ i, i ≤ j → t.fuses.bad (base + i) = false) → p = base + j) ∧ ((∃ i, i ≤ j ∧ t.fuses.bad (base + i) = true) → p = base + j + 1))) ∧
          t.live = t.phys.length ∧ t.rects.length ≤ 64 ∧ t.closedRects = [] ∧
          (a → t.letter = 0) ∧ (¬a → b1 → t.letter = 1) ∧ (¬a → ¬b1 → c → t.letter = 2) ∧ (¬a → ¬b1 → ¬c → t.letter = 3) ∧
          (∀ n p, (n, p) ∈ t.phys → AMap.getD t.grants p 0 = 16 ∧ (t.tile n).alive = true ∧ (t.tile n).slots = [] ∧
            ((t.tile n).ctx 0).role = .monitor ∧ ((t.tile n).ctx 0).mode = .running ∧ ((t.tile n).ctx 0).pcc = ⟨true, Config.monitorPcc n⟩) ∧
          (∀ p, p < 13104 → (let v := AMap.getD t.regulators p 0
            v % 5 = 0 ∧ 5400 + 200 * t.fuses.ceiling p ≤ 12 * v ∧ 12 * v < 5460 + 200 * t.fuses.ceiling p)) ∧
          t.module = b.module % 64 ∧ t.podRoot = b.root ∧
          (∀ p, (t.link p).table.toNat % 4 = if p < 36 ∧ (b.portsUp.any fun x => x.1 == p) = true then 2 else 0) ∧
          (b.root = true → t.refTime = s.refTime) ∧
          (b.root = false → (s.refTime : Int) = s.now + s.refOff + slewed s.refErr (s.now - s.refFrom) →
            t.refTime = max s.refTime b.podTime.toNat))))) ∧
  (∀ (x : RetireTarget) (s : State),
    let due := (∃ p, x = .tile p true) ∨ x ∈ s.retireDue
    let done := fun (i : Instr) => ∃ t, exec i s = .next t ∧ (s.sweeps = [] → x ∉ t.retireDue) ∧ (∀ y ∈ s.retireDue, y ≠ x → y ∈ t.retireDue) ∧
      (let f := s.fuses
       let g := t.fuses
       let blown := fun (n : Nat) => g.gcount = if n = 0 then f.gcount else min (f.gcount + n) 0xFFFF
       (∀ n, NSet.mem f.tileRetired n = true → NSet.mem g.tileRetired n = true) ∧
       (∀ n, NSet.mem f.linkRetired n = true → NSet.mem g.linkRetired n = true) ∧
       g.lowered = f.lowered ∧ g.tileDefect = f.tileDefect ∧ g.linkDefect = f.linkDefect ∧ g.secVersion = f.secVersion ∧
       (∀ n, x = .link n → (offArray n = true → g = f) ∧ (offArray n = false → NSet.mem g.linkRetired n = true ∧
         blown (if NSet.mem f.linkRetired n then 0 else 1))) ∧
       ∀ p router, x = .tile p router → p < 13104 → NSet.mem g.tileRetired p = true ∧
         (router = false → g.linkRetired = f.linkRetired) ∧ (router = true → ∀ l ∈ tileLinks p, NSet.mem g.linkRetired l.1 = true) ∧
         blown ((if NSet.mem f.tileRetired p then 0 else 1) +
           (if router then ((tileLinks p).filter fun l => !NSet.mem f.linkRetired l.1).length else 0))) ∧
      (∀ p router, x = .tile p router → s.logical p = none → router = false ∨ s.sweeps = [] → t.tiles = s.tiles) ∧
      ∀ p router k, x = .tile p router → s.logical p = some k → (t.tile k).alive = false ∧ (∀ m ∈ (t.tile k).members, m.mask = true) ∧
        (let w := s.updTile k fun y => { y with members := y.members.map (fun m => { m with mask := true }), alive := false }
         ∀ g v, (s.tile k).members.map (·.group) = [g] → exec (.barrierRelease g) w = .next v → ∀ q, (t.tile q).members = (v.tile q).members) ∧
        ∀ i, i < s.rects.length → rectHas (nthD s.rects i (0, 0, 0, 0)) k = true →
          (∀ j, j < i → rectHas (nthD s.rects j (0, 0, 0, 0)) k = false) → NSet.mem t.closedRects i = true ∧
          ∀ h g, liveRes (s.resOf h) = true → (s.resOf h).region = some g → g.rect = i →
            (t.resOf h).abortAsked = true ∧ (t.resOf h).tileLost = true ∧ (t.resOf h).state = (s.resOf h).state ∧ (t.resOf h).region = some g
    (due → done (.tileRetirement x)) ∧ (¬due → Idle (.tileRetirement x) s) ∧
    (hostAnswered s = true → done (.hostRetire x)) ∧ (hostAnswered s = false → Idle (.hostRetire x) s) ∧
    ∀ n, x = .link n → (s.fuses.linkBad n = false → done (.linkStopsAnswering n)) ∧
      (s.fuses.linkBad n = true → Idle (.linkStopsAnswering n) s)) ∧
  (∀ (between : Bool) (s : State), ∃ t, exec (.powerLoss between) s = .next t ∧ t.powered = false ∧ t.bootStage = 0 ∧ t.tiles = [] ∧ t.res = [] ∧
    t.fuses.gcount = s.fuses.gcount ∧ (between = false ∨ s.retireDue = [] → t.fuses = s.fuses) ∧
    (∀ p r rest, between = true → s.retireDue = .tile p r :: rest → p < 13104 →
      t.fuses = { s.fuses with tileRetired := NSet.insert s.fuses.tileRetired p }) ∧
    (∀ l rest, between = true → s.retireDue = .link l :: rest → offArray l = false →
      t.fuses = { s.fuses with linkRetired := NSet.insert s.fuses.linkRetired l }) ∧
    ∀ a, let mine := a / 2 ^ 44 % 4 = 0 ∧ a / 2 ^ 46 = s.module
      (mine → Memory.read t.gmem a = Memory.blank) ∧ (¬mine → Memory.read t.gmem a = Memory.read s.gmem a)) ∧
  (∀ (p : Nat) (s : State),
    let stopped := ∃ k, s.logical p = some k ∧ (s.tile k).drooped = true
    (13104 ≤ p ∨ stopped → Idle (.droopStop p) s) ∧
    (p < 13104 → ¬stopped → ∃ t, exec (.droopStop p) s = .next t ∧ t = { s with droops := t.droops, tiles := t.tiles } ∧
      (∀ q, AMap.getD t.droops q 0 = if q = p then min (AMap.getD s.droops p 0 + 1) 0xFFFFFFFF else AMap.getD s.droops q 0) ∧
      (s.logical p = none → t.tiles = s.tiles) ∧
      ∀ k q, s.logical p = some k → t.tile q = if q = k then { s.tile k with drooped := true } else s.tile q) ∧
    (s.logical p = none → Idle (.droopRecovery p) s) ∧
    ∀ k, s.logical p = some k → ∃ t, exec (.droopRecovery p) s = .next t ∧ t = { s with tiles := t.tiles } ∧
      ∀ q, t.tile q = if q = k then { s.tile k with drooped := false } else s.tile q) ∧
  ∀ s : State,
    (s.now < s.lastEpoch + 4000 → Idle .coxEpoch s) ∧
    (s.lastEpoch + 4000 ≤ s.now → ∃ t, exec .coxEpoch s = .next t ∧ t = { s with lastEpoch := s.lastEpoch + 4000, grants := t.grants } ∧
      (let asked := fun (p : Nat) => Config.demand s.steps p
       let n := s.phys.length
       let total := (s.phys.map fun x => max 16 (asked x.2)).sum
       (16 * n ≤ 683404 → (s.phys.map fun x => AMap.getD t.grants x.2 0).sum ≤ 683404) ∧
       ∀ p, AMap.getD t.grants p 0 =
        if (s.phys.any fun x => x.2 == p) = true then
          min 0xFFFF (if total ≤ 683404 then max 16 (asked p) else 16 + (asked p - 16) * (683404 - 16 * n) / (total - 16 * n))
        else AMap.getD s.grants p 0))

end
end

