-- ==== Sys2Proof/Laws/Data.lean ====
section
/-!
SUPPORT. Sparse maps and byte memories: reads after writes, and the canonical form that every memory operation keeps.
-/

namespace Sys2Proof.Machine

/-! Sparse maps. -/

/-- Keys strictly rising from a bound on. -/
def AMap.above {α : Type} : Nat → AMap α → Prop
  | _, [] => True
  | n, (k, _) :: m => n ≤ k ∧ AMap.above (k + 1) m

theorem AMap.above_mono {α : Type} {m : AMap α} {n n' : Nat} (h : AMap.above n m) (hn : n' ≤ n) : AMap.above n' m := by
  cases m with
  | nil => trivial
  | cons p m => exact ⟨by have := h.1; omega, h.2⟩

theorem AMap.get?_above {α : Type} {m : AMap α} {n k : Nat} (h : AMap.above n m) (hk : k < n) : AMap.get? m k = none := by
  induction m generalizing n with
  | nil => rfl
  | cons p m ih =>
    have := h.1
    simp only [AMap.get?]
    rw [if_neg (by omega)]
    exact ih h.2 (by omega)

theorem AMap.set_above {α : Type} {m : AMap α} {n k : Nat} (v : α) (h : AMap.above n m) (hk : n ≤ k) :
    AMap.above n (AMap.set m k v) := by
  induction m generalizing n with
  | nil => exact ⟨hk, trivial⟩
  | cons p m ih =>
    simp only [AMap.set]
    split
    · exact ⟨h.1, ih h.2 (by omega)⟩
    · split
      · exact ⟨hk, by rename_i e; rw [← e]; exact h.2⟩
      · exact ⟨hk, by omega, h.2⟩

theorem AMap.erase_above {α : Type} {m : AMap α} {n : Nat} (k : Nat) (h : AMap.above n m) : AMap.above n (AMap.erase m k) := by
  induction m generalizing n with
  | nil => trivial
  | cons p m ih =>
    simp only [AMap.erase]
    split
    · exact ih (above_mono h.2 (by have := h.1; omega))
    · exact ⟨h.1, ih h.2⟩

/-- A read after a write of the same key gives the value written. -/
@[simp] theorem AMap.get?_set_same {α : Type} (m : AMap α) (k : Nat) (v : α) : AMap.get? (AMap.set m k v) k = some v := by
  induction m with
  | nil => simp [AMap.set, AMap.get?]
  | cons p m ih =>
    simp only [AMap.set]
    split
    · rw [AMap.get?, if_neg (by omega)]; exact ih
    · split <;> simp [AMap.get?]

/-- A write leaves every other key alone. -/
@[simp] theorem AMap.get?_set_other {α : Type} (m : AMap α) {k k' : Nat} (v : α) (h : k ≠ k') :
    AMap.get? (AMap.set m k v) k' = AMap.get? m k' := by
  induction m with
  | nil => simp [AMap.set, AMap.get?, h]
  | cons p m ih =>
    simp only [AMap.set]
    split
    · simp only [AMap.get?]; rw [ih]
    · split
      · rename_i e; simp only [AMap.get?]; rw [if_neg h, if_neg (by omega)]
      · simp only [AMap.get?]; rw [if_neg h]

@[simp] theorem AMap.getD_set_same {α : Type} (m : AMap α) (k : Nat) (v d : α) : AMap.getD (AMap.set m k v) k d = v := by
  simp [AMap.getD]

@[simp] theorem AMap.getD_set_other {α : Type} (m : AMap α) {k k' : Nat} (v d : α) (h : k ≠ k') :
    AMap.getD (AMap.set m k v) k' d = AMap.getD m k' d := by
  simp [AMap.getD, h]

@[simp] theorem AMap.get?_erase_same {α : Type} (m : AMap α) (k : Nat) : AMap.get? (AMap.erase m k) k = none := by
  induction m with
  | nil => rfl
  | cons p m ih =>
    simp only [AMap.erase]
    split
    · exact ih
    · rename_i e; rw [AMap.get?, if_neg e]; exact ih

@[simp] theorem AMap.get?_erase_other {α : Type} (m : AMap α) {k k' : Nat} (h : k ≠ k') :
    AMap.get? (AMap.erase m k) k' = AMap.get? m k' := by
  induction m with
  | nil => rfl
  | cons p m ih =>
    simp only [AMap.erase]
    split
    · rename_i e; rw [ih, AMap.get?, if_neg (by omega)]
    · simp only [AMap.get?]; rw [ih]

/-! Byte memories. -/

/-- A read of the byte written. -/
@[simp] theorem Memory.read_write_same (m : Memory) (a : Nat) (b : Byte) : Memory.read (Memory.write m a b) a = b := by
  unfold Memory.read Memory.write
  split
  · rename_i e; simp [AMap.getD, e]
  · simp

/-- A write of a byte leaves every other byte alone. -/
@[simp] theorem Memory.read_write_other (m : Memory) {a a' : Nat} (b : Byte) (h : a ≠ a') :
    Memory.read (Memory.write m a b) a' = Memory.read m a' := by
  unfold Memory.read Memory.write
  split
  · simp [AMap.getD, h]
  · simp [h]

/-- A write of bytes leaves every byte outside them alone. -/
theorem Memory.read_writeBytes_other (bs : List Byte) (m : Memory) (a a' : Nat) (h : a' < a ∨ a + bs.length ≤ a') :
    Memory.read (Memory.writeBytes m a bs) a' = Memory.read m a' := by
  induction bs generalizing m a with
  | nil => rfl
  | cons b bs ih =>
    simp only [List.length_cons] at h
    rw [Memory.writeBytes, ih _ _ (by omega), Memory.read_write_other _ _ (by omega)]

/-- A read of a byte that was written among several. -/
theorem Memory.read_writeBytes_at (bs : List Byte) (m : Memory) (a i : Nat) (h : i < bs.length) :
    Memory.read (Memory.writeBytes m a bs) (a + i) = bs[i] := by
  induction bs generalizing m a i with
  | nil => exact absurd h (by simp)
  | cons b bs ih =>
    cases i with
    | zero => rw [Memory.writeBytes, Memory.read_writeBytes_other _ _ _ _ (by omega)]; simp
    | succ i =>
      have := ih (Memory.write m a b) (a + 1) i (by simpa using h)
      rw [Memory.writeBytes, show a + (i + 1) = a + 1 + i by omega, this]
      rfl

/-- The bytes just written are what a read of them gives. -/
@[simp] theorem Memory.readBytes_writeBytes (bs : List Byte) (m : Memory) (a : Nat) :
    Memory.readBytes (Memory.writeBytes m a bs) a bs.length = bs := by
  induction bs generalizing m a with
  | nil => rfl
  | cons b bs ih =>
    rw [List.length_cons, Memory.writeBytes, Memory.readBytes, ih, Memory.read_writeBytes_other _ _ _ _ (by omega)]
    simp

theorem Memory.readBytes_congr {m m' : Memory} {a n : Nat} (h : ∀ i, i < n → Memory.read m (a + i) = Memory.read m' (a + i)) :
    Memory.readBytes m a n = Memory.readBytes m' a n := by
  induction n generalizing a with
  | zero => rfl
  | succ n ih =>
    have h0 := h 0 (by omega)
    rw [Memory.readBytes, Memory.readBytes, ih fun i hi => by have := h (i + 1) (by omega); rwa [show a + (i + 1) = a + 1 + i by omega] at this]
    rw [show a + 0 = a by omega] at h0
    rw [h0]

/-- No listed byte is the blank one. -/
def Memory.dense : Memory → Prop
  | [] => True
  | (_, b) :: m => b ≠ Memory.blank ∧ Memory.dense m

theorem Memory.wf_iff (m : Memory) : Memory.wf m = true ↔ AMap.above 0 m ∧ Memory.dense m := by
  suffices h : ∀ n, (Memory.wf m = true ∧ ∀ p ∈ m.head?, n ≤ p.1) ↔ AMap.above n m ∧ Memory.dense m by
    have := h 0
    simpa using this
  induction m with
  | nil => simp [Memory.wf, AMap.above, Memory.dense]
  | cons p m ih =>
    intro n
    cases m with
    | nil => simp [Memory.wf, AMap.above, Memory.dense, And.comm]
    | cons q m =>
      have := ih (p.1 + 1)
      simp only [Memory.wf, AMap.above, Memory.dense, List.head?_cons, Option.mem_some_iff, Bool.and_eq_true, decide_eq_true_eq
        , bne_iff_ne, ne_eq, forall_eq'] at this ⊢
      constructor
      · rintro ⟨⟨⟨h1, h2⟩, h3⟩, h4⟩
        have h5 := this.1 ⟨h3, by omega⟩
        exact ⟨⟨h4, h5.1⟩, h2, h5.2⟩
      · rintro ⟨⟨h1, h2⟩, h3, h4⟩
        have h5 := this.2 ⟨h2, h4⟩
        exact ⟨⟨⟨by omega, h3⟩, h5.1⟩, h1⟩

theorem Memory.set_dense {m : Memory} (a : Nat) {b : Byte} (h : Memory.dense m) (hb : b ≠ Memory.blank) :
    Memory.dense (AMap.set m a b) := by
  induction m with
  | nil => exact ⟨hb, trivial⟩
  | cons p m ih =>
    simp only [AMap.set]
    split
    · exact ⟨h.1, ih h.2⟩
    · split
      · exact ⟨hb, h.2⟩
      · exact ⟨hb, h.1, h.2⟩

theorem Memory.erase_dense {m : Memory} (a : Nat) (h : Memory.dense m) : Memory.dense (AMap.erase m a) := by
  induction m with
  | nil => trivial
  | cons p m ih =>
    simp only [AMap.erase]
    split
    · exact ih h.2
    · exact ⟨h.1, ih h.2⟩

/-- Writing a byte keeps the canonical form. -/
theorem Memory.write_wf {m : Memory} (a : Nat) (b : Byte) (h : Memory.wf m = true) : Memory.wf (Memory.write m a b) = true := by
  rw [Memory.wf_iff] at *
  unfold Memory.write
  split
  · exact ⟨AMap.erase_above a h.1, Memory.erase_dense a h.2⟩
  · rename_i hb; exact ⟨AMap.set_above b h.1 (by omega), Memory.set_dense a h.2 hb⟩

/-- Writing bytes keeps the canonical form. -/
theorem Memory.writeBytes_wf (bs : List Byte) {m : Memory} (a : Nat) (h : Memory.wf m = true) :
    Memory.wf (Memory.writeBytes m a bs) = true := by
  induction bs generalizing m a with
  | nil => exact h
  | cons b bs ih => exact ih (a + 1) (Memory.write_wf a b h)

/-- Dropping entries keeps the canonical form. -/
theorem Memory.filter_wf {m : Memory} (p : Host.Cell → Bool) (h : Memory.wf m = true) : Memory.wf (m.filter p) = true := by
  rw [Memory.wf_iff] at *
  have key : ∀ n, AMap.above n m → Memory.dense m → AMap.above n (m.filter p) ∧ Memory.dense (m.filter p) := by
    clear h
    induction m with
    | nil => intro n _ _; exact ⟨trivial, trivial⟩
    | cons q m ih =>
      intro n h1 h2
      have h3 := ih _ h1.2 h2.2
      rw [List.filter_cons]
      split
      · exact ⟨⟨h1.1, h3.1⟩, h2.1, h3.2⟩
      · exact ⟨AMap.above_mono h3.1 (by have := h1.1; omega), h3.2⟩
  exact key 0 h.1 h.2

/-- Two canonical memories that read alike are equal data. -/
theorem Memory.ext_of_wf {m m' : Memory} (h : Memory.wf m = true) (h' : Memory.wf m' = true)
    (hr : ∀ a, Memory.read m a = Memory.read m' a) : m = m' := by
  rw [Memory.wf_iff] at h h'
  have key : ∀ n, AMap.above n m → Memory.dense m → AMap.above n m' → Memory.dense m' → m = m' := by
    clear h h'
    induction m generalizing m' with
    | nil =>
      intro n _ _ _ h4
      cases m' with
      | nil => rfl
      | cons q m' =>
        have := hr q.1
        simp [Memory.read, AMap.getD, AMap.get?] at this
        exact absurd this.symm h4.1
    | cons p m ih =>
      intro n h1 h2 h3 h4
      obtain ⟨k, b⟩ := p
      cases m' with
      | nil =>
        have := hr k
        simp [Memory.read, AMap.getD, AMap.get?] at this
        exact absurd this h2.1
      | cons q m' =>
        obtain ⟨k', b'⟩ := q
        have hk : k = k' := by
          rcases Nat.lt_trichotomy k k' with hlt | heq | hgt
          · have := hr k
            simp only [Memory.read, AMap.getD, AMap.get?, if_true] at this
            rw [if_neg (by omega), AMap.get?_above h3.2 (by omega)] at this
            exact absurd this h2.1
          · exact heq
          · have := hr k'
            simp only [Memory.read, AMap.getD, AMap.get?, if_true] at this
            rw [if_neg (by omega), AMap.get?_above h1.2 (by omega)] at this
            exact absurd this.symm h4.1
        subst hk
        have hb : b = b' := by
          have := hr k
          simpa [Memory.read, AMap.getD, AMap.get?] using this
        subst hb
        have : m = m' := by
          refine ih (fun a => ?_) (k + 1) h1.2 h2.2 h3.2 h4.2
          by_cases ha : a < k + 1
          · simp [Memory.read, AMap.getD, AMap.get?_above h1.2 ha, AMap.get?_above h3.2 ha]
          · have := hr a
            simp only [Memory.read, AMap.getD, AMap.get?] at this
            rw [if_neg (by omega), if_neg (by omega)] at this
            exact this
        rw [this]
  exact key 0 h.1 h.2 h'.1 h'.2

/-! Byte order. -/

@[simp] theorem leBytes_length (n x : Nat) : (leBytes n x).length = n := by
  induction n generalizing x with
  | zero => rfl
  | succ n ih => simp [leBytes, ih]

@[simp] theorem readBytes_length (m : Memory) (a n : Nat) : (Memory.readBytes m a n).length = n := by
  induction n generalizing a with
  | zero => rfl
  | succ n ih => simp [Memory.readBytes, ih]

/-- The number whose bytes were laid out comes back, modulo their width. -/
@[simp] theorem leNat_leBytes (n x : Nat) : leNat (leBytes n x) = x % 256 ^ n := by
  induction n generalizing x with
  | zero => simp [leBytes, leNat, Nat.mod_one]
  | succ n ih =>
    rw [leBytes, leNat, ih, Nat.pow_succ, Nat.mul_comm (256 ^ n) 256, Nat.mod_mul]
    simp [BitVec.toNat_ofNat]

/-- A number written to memory is what a read of its bytes gives. -/
@[simp] theorem Memory.readN_writeN (m : Memory) (a n x : Nat) :
    Memory.readN (Memory.writeBytes m a (leBytes n x)) a n = x % 256 ^ n := by
  unfold Memory.readN
  conv => lhs; rw [show n = (leBytes n x).length by simp]
  rw [leBytes_length, show Memory.readBytes (Memory.writeBytes m a (leBytes n x)) a n = leBytes n x by
    conv => lhs; rw [show n = (leBytes n x).length by simp]
    rw [leBytes_length]; simpa using Memory.readBytes_writeBytes (leBytes n x) m a]
  simp

end Sys2Proof.Machine
end

