-- ==== Sys2Proof/Laws/Encoding.lean ====
section
/-!
SUPPORT. Fields of encoded words: reading a field back from the word that a pack function builds (03 R69 to R77). These
are the small lemmas of the encoder, each true for every value of every field.
-/

set_option linter.unusedSimpArgs false

namespace Sys2Proof

/-- A field above the low part of a concatenation is a field of the high part. -/
theorem extract_append_hi {m n s w : Nat} (hi : BitVec m) (lo : BitVec n) (h : n ≤ s) :
    (hi ++ lo).extractLsb' s w = hi.extractLsb' (s - n) w := by
  ext i _
  simp only [BitVec.getElem_extractLsb', BitVec.getLsbD_append]
  rw [if_neg (by omega), show s + i - n = s - n + i by omega]

/-- A field inside the low part of a concatenation is a field of the low part. -/
theorem extract_append_lo {m n s w : Nat} (hi : BitVec m) (lo : BitVec n) (h : s + w ≤ n) :
    (hi ++ lo).extractLsb' s w = lo.extractLsb' s w := by
  ext i _
  simp only [BitVec.getElem_extractLsb', BitVec.getLsbD_append]
  rw [if_pos (by omega)]

/-- The whole of a vector is itself. -/
theorem extract_all {w : Nat} (x : BitVec w) : x.extractLsb' 0 w = x := by
  ext i _
  simp

theorem k3Of_packK3 (fn m : BitVec 6) (f : K3) :
    k3Of (packK3 fn m f) = f := by
  simp (disch := omega) only [k3Of, packK3, extract_append_hi, extract_append_lo, extract_all, Nat.reduceSub]

theorem major_packK3 (fn m : BitVec 6) (f : K3) :
    (packK3 fn m f).extractLsb' 2 6 = m := by
  simp (disch := omega) only [packK3, extract_append_hi, extract_append_lo, extract_all, Nat.reduceSub]

theorem length_packK3 (fn m : BitVec 6) (f : K3) :
    (packK3 fn m f).extractLsb' 0 2 = 0#2 := by
  simp (disch := omega) only [packK3, extract_append_hi, extract_append_lo, extract_all, Nat.reduceSub]

theorem fnOf_packK3 (fn m : BitVec 6) (f : K3) :
    fnOf (packK3 fn m f) = fn.toNat := by
  simp (disch := omega) only [fnOf, packK3, extract_append_hi, extract_append_lo, extract_all, Nat.reduceSub]

theorem kiOf_packKI (m : BitVec 6) (f : KI) :
    kiOf (packKI m f) = f := by
  simp (disch := omega) only [kiOf, packKI, extract_append_hi, extract_append_lo, extract_all, Nat.reduceSub]

theorem major_packKI (m : BitVec 6) (f : KI) :
    (packKI m f).extractLsb' 2 6 = m := by
  simp (disch := omega) only [packKI, extract_append_hi, extract_append_lo, extract_all, Nat.reduceSub]

theorem length_packKI (m : BitVec 6) (f : KI) :
    (packKI m f).extractLsb' 0 2 = 0#2 := by
  simp (disch := omega) only [packKI, extract_append_hi, extract_append_lo, extract_all, Nat.reduceSub]

theorem kbOf_packKB (m : BitVec 6) (f : KB) :
    kbOf (packKB m f) = f := by
  simp (disch := omega) only [kbOf, packKB, extract_append_hi, extract_append_lo, extract_all, Nat.reduceSub]

theorem major_packKB (m : BitVec 6) (f : KB) :
    (packKB m f).extractLsb' 2 6 = m := by
  simp (disch := omega) only [packKB, extract_append_hi, extract_append_lo, extract_all, Nat.reduceSub]

theorem length_packKB (m : BitVec 6) (f : KB) :
    (packKB m f).extractLsb' 0 2 = 0#2 := by
  simp (disch := omega) only [packKB, extract_append_hi, extract_append_lo, extract_all, Nat.reduceSub]

theorem ksOf_packKS (m : BitVec 6) (f : KS) :
    ksOf (packKS m f) = f := by
  simp (disch := omega) only [ksOf, packKS, extract_append_hi, extract_append_lo, extract_all, Nat.reduceSub]

theorem major_packKS (m : BitVec 6) (f : KS) :
    (packKS m f).extractLsb' 2 6 = m := by
  simp (disch := omega) only [packKS, extract_append_hi, extract_append_lo, extract_all, Nat.reduceSub]

theorem length_packKS (m : BitVec 6) (f : KS) :
    (packKS m f).extractLsb' 0 2 = 0#2 := by
  simp (disch := omega) only [packKS, extract_append_hi, extract_append_lo, extract_all, Nat.reduceSub]

theorem kjOf_packKJ (m : BitVec 6) (f : KJ) :
    kjOf (packKJ m f) = f := by
  simp (disch := omega) only [kjOf, packKJ, extract_append_hi, extract_append_lo, extract_all, Nat.reduceSub]

theorem major_packKJ (m : BitVec 6) (f : KJ) :
    (packKJ m f).extractLsb' 2 6 = m := by
  simp (disch := omega) only [packKJ, extract_append_hi, extract_append_lo, extract_all, Nat.reduceSub]

theorem length_packKJ (m : BitVec 6) (f : KJ) :
    (packKJ m f).extractLsb' 0 2 = 0#2 := by
  simp (disch := omega) only [packKJ, extract_append_hi, extract_append_lo, extract_all, Nat.reduceSub]

theorem kuOf_packKU (m : BitVec 6) (f : KU) :
    kuOf (packKU m f) = f := by
  simp (disch := omega) only [kuOf, packKU, extract_append_hi, extract_append_lo, extract_all, Nat.reduceSub]

theorem major_packKU (m : BitVec 6) (f : KU) :
    (packKU m f).extractLsb' 2 6 = m := by
  simp (disch := omega) only [packKU, extract_append_hi, extract_append_lo, extract_all, Nat.reduceSub]

theorem length_packKU (m : BitVec 6) (f : KU) :
    (packKU m f).extractLsb' 0 2 = 0#2 := by
  simp (disch := omega) only [packKU, extract_append_hi, extract_append_lo, extract_all, Nat.reduceSub]

theorem krOf_packKR (f : KR) :
    krOf (packKR f) = f := by
  simp (disch := omega) only [krOf, packKR, extract_append_hi, extract_append_lo, extract_all, Nat.reduceSub]

theorem major_packKR (f : KR) :
    (packKR f).extractLsb' 2 6 = 26#6 := by
  simp (disch := omega) only [packKR, extract_append_hi, extract_append_lo, extract_all, Nat.reduceSub]

theorem length_packKR (f : KR) :
    (packKR f).extractLsb' 0 2 = 0#2 := by
  simp (disch := omega) only [packKR, extract_append_hi, extract_append_lo, extract_all, Nat.reduceSub]

theorem bfnOf_bWord0 (major fn d a b : BitVec 6) :
    bfnOf (bWord0 major fn d a b) = fn.toNat := by
  simp (disch := omega) only [bfnOf, bWord0, extract_append_hi, extract_append_lo, extract_all, Nat.reduceSub]

theorem major_bWord0 (major fn d a b : BitVec 6) :
    (bWord0 major fn d a b).extractLsb' 2 6 = major := by
  simp (disch := omega) only [bWord0, extract_append_hi, extract_append_lo, extract_all, Nat.reduceSub]

theorem length_bWord0 (major fn d a b : BitVec 6) :
    (bWord0 major fn d a b).extractLsb' 0 2 = 1#2 := by
  simp (disch := omega) only [bWord0, extract_append_hi, extract_append_lo, extract_all, Nat.reduceSub]

theorem vwOf_words (major fn : BitVec 6) (f : VW) :
    vwOf (bWord0 major fn f.d f.a f.b) (vwWord1 f) = f := by
  simp (disch := omega) only [vwOf, bWord0, vwWord1, extract_append_hi, extract_append_lo, extract_all, Nat.reduceSub]

theorem gwOf_words (major fn : BitVec 6) (f : GW) :
    gwOf (bWord0 major fn f.d f.a f.b) (gwWord1 f) = f := by
  simp (disch := omega) only [gwOf, bWord0, gwWord1, extract_append_hi, extract_append_lo, extract_all, Nat.reduceSub]

theorem ewOf_words (major fn : BitVec 6) (f : EW) :
    ewOf (bWord0 major fn f.d f.a f.b) (ewWord1 f) = f := by
  simp (disch := omega) only [ewOf, bWord0, ewWord1, extract_append_hi, extract_append_lo, extract_all, Nat.reduceSub]

theorem major_liWord0 (f : LIW) :
    (liWord0 f).extractLsb' 2 6 = 0#6 := by
  simp (disch := omega) only [liWord0, extract_append_hi, extract_append_lo, extract_all, Nat.reduceSub]

theorem length_liWord0 (f : LIW) :
    (liWord0 f).extractLsb' 0 2 = 1#2 := by
  simp (disch := omega) only [liWord0, extract_append_hi, extract_append_lo, extract_all, Nat.reduceSub]

theorem reserved_liWord0 (f : LIW) :
    (liWord0 f).extractLsb' 12 2 = 0#2 := by
  simp (disch := omega) only [liWord0, extract_append_hi, extract_append_lo, extract_all, Nat.reduceSub]

theorem liOf_d (f : LIW) :
    (liOf (liWord0 f) (liWord1 f)).d = f.d := by
  simp (disch := omega) only [liOf, liWord0, extract_append_hi, extract_append_lo, extract_all, Nat.reduceSub]

/-- The three parts of LI's immediate go back together (R73). -/
theorem liOf_words (f : LIW) : liOf (liWord0 f) (liWord1 f) = f := by
  cases f with
  | mk d imm =>
    simp (disch := omega) only [liOf, liWord0, liWord1, extract_append_hi, extract_append_lo, extract_all, Nat.reduceSub]
    congr 1
    ext i h
    simp only [BitVec.getElem_append, BitVec.getElem_extractLsb', BitVec.getLsbD_append, BitVec.getLsbD_extractLsb']
    split
    · simp [BitVec.getLsbD_eq_getElem h]
    · split
      · simp [show 32 + (i - 32) = i by omega, BitVec.getLsbD_eq_getElem h]
      · simp [show 44 + (i - 32 - 12) = i by omega, BitVec.getLsbD_eq_getElem h]

/-- Length bits '00' open a 32-bit instruction (R64). -/
theorem isLong_short {w : BitVec 32} (h : w.extractLsb' 0 2 = 0#2) : isLong w = some false := by
  simp [isLong, h]

/-- Length bits '01' open a 64-bit instruction (R64). -/
theorem isLong_long {w : BitVec 32} (h : w.extractLsb' 0 2 = 1#2) : isLong w = some true := by
  simp [isLong, h]

end Sys2Proof
end

