-- ==== Sys2Proof/Laws/State.lean ====
section
/-!
SUPPORT. What each update of the state leaves as it was: one lemma per field and update.
-/

namespace Sys2Proof.Machine

/-! Reading back. -/

@[simp] theorem State.tile_setTile (s : State) (n : Nat) (t : Tile) : (s.setTile n t).tile n = t := by simp [State.tile, State.setTile]
@[simp] theorem State.tile_setTile_other (s : State) {n k : Nat} (t : Tile) (h : n ≠ k) : (s.setTile n t).tile k = s.tile k := by
  simp [State.tile, State.setTile, h]
@[simp] theorem Tile.ctx_setCtx (t : Tile) (n : Nat) (c : Ctx) : (t.setCtx n c).ctx n = c := by simp [Tile.ctx, Tile.setCtx]
@[simp] theorem Tile.ctx_setCtx_other (t : Tile) {n k : Nat} (c : Ctx) (h : n ≠ k) : (t.setCtx n c).ctx k = t.ctx k := by
  simp [Tile.ctx, Tile.setCtx, h]
@[simp] theorem State.here_setHere (s : State) (t : Tile) : (s.setHere t).here = t := by simp [State.here, State.setHere, State.setTile, State.tile]
@[simp] theorem State.me_setMe (s : State) (c : Ctx) : (s.setMe c).me = c := by
  rw [State.me, State.setMe, State.here_setHere]; exact Tile.ctx_setCtx _ _ _
@[simp] theorem State.here_setMe (s : State) (c : Ctx) : (s.setMe c).here = s.here.setCtx s.cur.ctx c := by simp [State.setMe]
@[simp] theorem State.tile_updTile (s : State) (n : Nat) (f : Tile → Tile) : (s.updTile n f).tile n = f (s.tile n) := by simp [State.updTile]
@[simp] theorem State.resOf_setRes (s : State) (h : Nat) (r : Res) : (s.setRes h r).resOf h = r := by simp [State.resOf, State.setRes]
@[simp] theorem State.chan_setChan (s : State) (n : Nat) (c : Chan) : (s.setChan n c).chan? n = some c := by simp [State.chan?, State.setChan]

/-! A tile is replaced. -/

@[simp] theorem State.setTile_agenda (s : State) (n : Nat) (t : Tile) : (s.setTile n t).agenda = s.agenda := rfl
@[simp] theorem State.setTile_phase (s : State) (n : Nat) (t : Tile) : (s.setTile n t).phase = s.phase := rfl
@[simp] theorem State.setTile_steps (s : State) (n : Nat) (t : Tile) : (s.setTile n t).steps = s.steps := rfl
@[simp] theorem State.setTile_cur (s : State) (n : Nat) (t : Tile) : (s.setTile n t).cur = s.cur := rfl
@[simp] theorem State.setTile_powered (s : State) (n : Nat) (t : Tile) : (s.setTile n t).powered = s.powered := rfl
@[simp] theorem State.setTile_now (s : State) (n : Nat) (t : Tile) : (s.setTile n t).now = s.now := rfl
@[simp] theorem State.setTile_refOff (s : State) (n : Nat) (t : Tile) : (s.setTile n t).refOff = s.refOff := rfl
@[simp] theorem State.setTile_refErr (s : State) (n : Nat) (t : Tile) : (s.setTile n t).refErr = s.refErr := rfl
@[simp] theorem State.setTile_refFrom (s : State) (n : Nat) (t : Tile) : (s.setTile n t).refFrom = s.refFrom := rfl
@[simp] theorem State.setTile_lastWave (s : State) (n : Nat) (t : Tile) : (s.setTile n t).lastWave = s.lastWave := rfl
@[simp] theorem State.setTile_lastTiming (s : State) (n : Nat) (t : Tile) : (s.setTile n t).lastTiming = s.lastTiming := rfl
@[simp] theorem State.setTile_lastEpoch (s : State) (n : Nat) (t : Tile) : (s.setTile n t).lastEpoch = s.lastEpoch := rfl
@[simp] theorem State.setTile_module (s : State) (n : Nat) (t : Tile) : (s.setTile n t).module = s.module := rfl
@[simp] theorem State.setTile_podRoot (s : State) (n : Nat) (t : Tile) : (s.setTile n t).podRoot = s.podRoot := rfl
@[simp] theorem State.setTile_gmem (s : State) (n : Nat) (t : Tile) : (s.setTile n t).gmem = s.gmem := rfl
@[simp] theorem State.setTile_gpoison (s : State) (n : Nat) (t : Tile) : (s.setTile n t).gpoison = s.gpoison := rfl
@[simp] theorem State.setTile_gerr1 (s : State) (n : Nat) (t : Tile) : (s.setTile n t).gerr1 = s.gerr1 := rfl
@[simp] theorem State.setTile_gerr2 (s : State) (n : Nat) (t : Tile) : (s.setTile n t).gerr2 = s.gerr2 := rfl
@[simp] theorem State.setTile_vers (s : State) (n : Nat) (t : Tile) : (s.setTile n t).vers = s.vers := rfl
@[simp] theorem State.setTile_vpages (s : State) (n : Nat) (t : Tile) : (s.setTile n t).vpages = s.vpages := rfl
@[simp] theorem State.setTile_chans (s : State) (n : Nat) (t : Tile) : (s.setTile n t).chans = s.chans := rfl
@[simp] theorem State.setTile_res (s : State) (n : Nat) (t : Tile) : (s.setTile n t).res = s.res := rfl
@[simp] theorem State.setTile_blocks (s : State) (n : Nat) (t : Tile) : (s.setTile n t).blocks = s.blocks := rfl
@[simp] theorem State.setTile_sysWait (s : State) (n : Nat) (t : Tile) : (s.setTile n t).sysWait = s.sysWait := rfl
@[simp] theorem State.setTile_nextResid (s : State) (n : Nat) (t : Tile) : (s.setTile n t).nextResid = s.nextResid := rfl
@[simp] theorem State.setTile_inlets (s : State) (n : Nat) (t : Tile) : (s.setTile n t).inlets = s.inlets := rfl
@[simp] theorem State.setTile_outlets (s : State) (n : Nat) (t : Tile) : (s.setTile n t).outlets = s.outlets := rfl
@[simp] theorem State.setTile_msien (s : State) (n : Nat) (t : Tile) : (s.setTile n t).msien = s.msien := rfl
@[simp] theorem State.setTile_wbase (s : State) (n : Nat) (t : Tile) : (s.setTile n t).wbase = s.wbase := rfl
@[simp] theorem State.setTile_hostUp (s : State) (n : Nat) (t : Tile) : (s.setTile n t).hostUp = s.hostUp := rfl
@[simp] theorem State.setTile_groupTab (s : State) (n : Nat) (t : Tile) : (s.setTile n t).groupTab = s.groupTab := rfl
@[simp] theorem State.setTile_sweeps (s : State) (n : Nat) (t : Tile) : (s.setTile n t).sweeps = s.sweeps := rfl
@[simp] theorem State.setTile_nextSweep (s : State) (n : Nat) (t : Tile) : (s.setTile n t).nextSweep = s.nextSweep := rfl
@[simp] theorem State.setTile_rlines (s : State) (n : Nat) (t : Tile) : (s.setTile n t).rlines = s.rlines := rfl
@[simp] theorem State.setTile_nextRLine (s : State) (n : Nat) (t : Tile) : (s.setTile n t).nextRLine = s.nextRLine := rfl
@[simp] theorem State.setTile_otable (s : State) (n : Nat) (t : Tile) : (s.setTile n t).otable = s.otable := rfl
@[simp] theorem State.setTile_onodes (s : State) (n : Nat) (t : Tile) : (s.setTile n t).onodes = s.onodes := rfl
@[simp] theorem State.setTile_oflights (s : State) (n : Nat) (t : Tile) : (s.setTile n t).oflights = s.oflights := rfl
@[simp] theorem State.setTile_links (s : State) (n : Nat) (t : Tile) : (s.setTile n t).links = s.links := rfl
@[simp] theorem State.setTile_routes (s : State) (n : Nat) (t : Tile) : (s.setTile n t).routes = s.routes := rfl
@[simp] theorem State.setTile_fuses (s : State) (n : Nat) (t : Tile) : (s.setTile n t).fuses = s.fuses := rfl
@[simp] theorem State.setTile_phys (s : State) (n : Nat) (t : Tile) : (s.setTile n t).phys = s.phys := rfl
@[simp] theorem State.setTile_rects (s : State) (n : Nat) (t : Tile) : (s.setTile n t).rects = s.rects := rfl
@[simp] theorem State.setTile_closedRects (s : State) (n : Nat) (t : Tile) : (s.setTile n t).closedRects = s.closedRects := rfl
@[simp] theorem State.setTile_letter (s : State) (n : Nat) (t : Tile) : (s.setTile n t).letter = s.letter := rfl
@[simp] theorem State.setTile_live (s : State) (n : Nat) (t : Tile) : (s.setTile n t).live = s.live := rfl
@[simp] theorem State.setTile_bootStage (s : State) (n : Nat) (t : Tile) : (s.setTile n t).bootStage = s.bootStage := rfl
@[simp] theorem State.setTile_bootFail (s : State) (n : Nat) (t : Tile) : (s.setTile n t).bootFail = s.bootFail := rfl
@[simp] theorem State.setTile_delsisImg (s : State) (n : Nat) (t : Tile) : (s.setTile n t).delsisImg = s.delsisImg := rfl
@[simp] theorem State.setTile_monitorImg (s : State) (n : Nat) (t : Tile) : (s.setTile n t).monitorImg = s.monitorImg := rfl
@[simp] theorem State.setTile_dispatchImg (s : State) (n : Nat) (t : Tile) : (s.setTile n t).dispatchImg = s.dispatchImg := rfl
@[simp] theorem State.setTile_keySlots (s : State) (n : Nat) (t : Tile) : (s.setTile n t).keySlots = s.keySlots := rfl
@[simp] theorem State.setTile_grants (s : State) (n : Nat) (t : Tile) : (s.setTile n t).grants = s.grants := rfl
@[simp] theorem State.setTile_droops (s : State) (n : Nat) (t : Tile) : (s.setTile n t).droops = s.droops := rfl
@[simp] theorem State.setTile_regulators (s : State) (n : Nat) (t : Tile) : (s.setTile n t).regulators = s.regulators := rfl
@[simp] theorem State.setTile_reports (s : State) (n : Nat) (t : Tile) : (s.setTile n t).reports = s.reports := rfl
@[simp] theorem State.setTile_invals (s : State) (n : Nat) (t : Tile) : (s.setTile n t).invals = s.invals := rfl
@[simp] theorem State.setTile_deadLinks (s : State) (n : Nat) (t : Tile) : (s.setTile n t).deadLinks = s.deadLinks := rfl
@[simp] theorem State.setTile_retireDue (s : State) (n : Nat) (t : Tile) : (s.setTile n t).retireDue = s.retireDue := rfl
@[simp] theorem State.setTile_strays (s : State) (n : Nat) (t : Tile) : (s.setTile n t).strays = s.strays := rfl

/-! The tile of the step is replaced. -/

@[simp] theorem State.setHere_agenda (s : State) (t : Tile) : (s.setHere t).agenda = s.agenda := rfl
@[simp] theorem State.setHere_phase (s : State) (t : Tile) : (s.setHere t).phase = s.phase := rfl
@[simp] theorem State.setHere_steps (s : State) (t : Tile) : (s.setHere t).steps = s.steps := rfl
@[simp] theorem State.setHere_cur (s : State) (t : Tile) : (s.setHere t).cur = s.cur := rfl
@[simp] theorem State.setHere_powered (s : State) (t : Tile) : (s.setHere t).powered = s.powered := rfl
@[simp] theorem State.setHere_now (s : State) (t : Tile) : (s.setHere t).now = s.now := rfl
@[simp] theorem State.setHere_refOff (s : State) (t : Tile) : (s.setHere t).refOff = s.refOff := rfl
@[simp] theorem State.setHere_refErr (s : State) (t : Tile) : (s.setHere t).refErr = s.refErr := rfl
@[simp] theorem State.setHere_refFrom (s : State) (t : Tile) : (s.setHere t).refFrom = s.refFrom := rfl
@[simp] theorem State.setHere_lastWave (s : State) (t : Tile) : (s.setHere t).lastWave = s.lastWave := rfl
@[simp] theorem State.setHere_lastTiming (s : State) (t : Tile) : (s.setHere t).lastTiming = s.lastTiming := rfl
@[simp] theorem State.setHere_lastEpoch (s : State) (t : Tile) : (s.setHere t).lastEpoch = s.lastEpoch := rfl
@[simp] theorem State.setHere_module (s : State) (t : Tile) : (s.setHere t).module = s.module := rfl
@[simp] theorem State.setHere_podRoot (s : State) (t : Tile) : (s.setHere t).podRoot = s.podRoot := rfl
@[simp] theorem State.setHere_gmem (s : State) (t : Tile) : (s.setHere t).gmem = s.gmem := rfl
@[simp] theorem State.setHere_gpoison (s : State) (t : Tile) : (s.setHere t).gpoison = s.gpoison := rfl
@[simp] theorem State.setHere_gerr1 (s : State) (t : Tile) : (s.setHere t).gerr1 = s.gerr1 := rfl
@[simp] theorem State.setHere_gerr2 (s : State) (t : Tile) : (s.setHere t).gerr2 = s.gerr2 := rfl
@[simp] theorem State.setHere_vers (s : State) (t : Tile) : (s.setHere t).vers = s.vers := rfl
@[simp] theorem State.setHere_vpages (s : State) (t : Tile) : (s.setHere t).vpages = s.vpages := rfl
@[simp] theorem State.setHere_chans (s : State) (t : Tile) : (s.setHere t).chans = s.chans := rfl
@[simp] theorem State.setHere_res (s : State) (t : Tile) : (s.setHere t).res = s.res := rfl
@[simp] theorem State.setHere_blocks (s : State) (t : Tile) : (s.setHere t).blocks = s.blocks := rfl
@[simp] theorem State.setHere_sysWait (s : State) (t : Tile) : (s.setHere t).sysWait = s.sysWait := rfl
@[simp] theorem State.setHere_nextResid (s : State) (t : Tile) : (s.setHere t).nextResid = s.nextResid := rfl
@[simp] theorem State.setHere_inlets (s : State) (t : Tile) : (s.setHere t).inlets = s.inlets := rfl
@[simp] theorem State.setHere_outlets (s : State) (t : Tile) : (s.setHere t).outlets = s.outlets := rfl
@[simp] theorem State.setHere_msien (s : State) (t : Tile) : (s.setHere t).msien = s.msien := rfl
@[simp] theorem State.setHere_wbase (s : State) (t : Tile) : (s.setHere t).wbase = s.wbase := rfl
@[simp] theorem State.setHere_hostUp (s : State) (t : Tile) : (s.setHere t).hostUp = s.hostUp := rfl
@[simp] theorem State.setHere_groupTab (s : State) (t : Tile) : (s.setHere t).groupTab = s.groupTab := rfl
@[simp] theorem State.setHere_sweeps (s : State) (t : Tile) : (s.setHere t).sweeps = s.sweeps := rfl
@[simp] theorem State.setHere_nextSweep (s : State) (t : Tile) : (s.setHere t).nextSweep = s.nextSweep := rfl
@[simp] theorem State.setHere_rlines (s : State) (t : Tile) : (s.setHere t).rlines = s.rlines := rfl
@[simp] theorem State.setHere_nextRLine (s : State) (t : Tile) : (s.setHere t).nextRLine = s.nextRLine := rfl
@[simp] theorem State.setHere_otable (s : State) (t : Tile) : (s.setHere t).otable = s.otable := rfl
@[simp] theorem State.setHere_onodes (s : State) (t : Tile) : (s.setHere t).onodes = s.onodes := rfl
@[simp] theorem State.setHere_oflights (s : State) (t : Tile) : (s.setHere t).oflights = s.oflights := rfl
@[simp] theorem State.setHere_links (s : State) (t : Tile) : (s.setHere t).links = s.links := rfl
@[simp] theorem State.setHere_routes (s : State) (t : Tile) : (s.setHere t).routes = s.routes := rfl
@[simp] theorem State.setHere_fuses (s : State) (t : Tile) : (s.setHere t).fuses = s.fuses := rfl
@[simp] theorem State.setHere_phys (s : State) (t : Tile) : (s.setHere t).phys = s.phys := rfl
@[simp] theorem State.setHere_rects (s : State) (t : Tile) : (s.setHere t).rects = s.rects := rfl
@[simp] theorem State.setHere_closedRects (s : State) (t : Tile) : (s.setHere t).closedRects = s.closedRects := rfl
@[simp] theorem State.setHere_letter (s : State) (t : Tile) : (s.setHere t).letter = s.letter := rfl
@[simp] theorem State.setHere_live (s : State) (t : Tile) : (s.setHere t).live = s.live := rfl
@[simp] theorem State.setHere_bootStage (s : State) (t : Tile) : (s.setHere t).bootStage = s.bootStage := rfl
@[simp] theorem State.setHere_bootFail (s : State) (t : Tile) : (s.setHere t).bootFail = s.bootFail := rfl
@[simp] theorem State.setHere_delsisImg (s : State) (t : Tile) : (s.setHere t).delsisImg = s.delsisImg := rfl
@[simp] theorem State.setHere_monitorImg (s : State) (t : Tile) : (s.setHere t).monitorImg = s.monitorImg := rfl
@[simp] theorem State.setHere_dispatchImg (s : State) (t : Tile) : (s.setHere t).dispatchImg = s.dispatchImg := rfl
@[simp] theorem State.setHere_keySlots (s : State) (t : Tile) : (s.setHere t).keySlots = s.keySlots := rfl
@[simp] theorem State.setHere_grants (s : State) (t : Tile) : (s.setHere t).grants = s.grants := rfl
@[simp] theorem State.setHere_droops (s : State) (t : Tile) : (s.setHere t).droops = s.droops := rfl
@[simp] theorem State.setHere_regulators (s : State) (t : Tile) : (s.setHere t).regulators = s.regulators := rfl
@[simp] theorem State.setHere_reports (s : State) (t : Tile) : (s.setHere t).reports = s.reports := rfl
@[simp] theorem State.setHere_invals (s : State) (t : Tile) : (s.setHere t).invals = s.invals := rfl
@[simp] theorem State.setHere_deadLinks (s : State) (t : Tile) : (s.setHere t).deadLinks = s.deadLinks := rfl
@[simp] theorem State.setHere_retireDue (s : State) (t : Tile) : (s.setHere t).retireDue = s.retireDue := rfl
@[simp] theorem State.setHere_strays (s : State) (t : Tile) : (s.setHere t).strays = s.strays := rfl

/-! The context of the step is replaced. -/

@[simp] theorem State.setMe_agenda (s : State) (x : Ctx) : (s.setMe x).agenda = s.agenda := rfl
@[simp] theorem State.setMe_phase (s : State) (x : Ctx) : (s.setMe x).phase = s.phase := rfl
@[simp] theorem State.setMe_steps (s : State) (x : Ctx) : (s.setMe x).steps = s.steps := rfl
@[simp] theorem State.setMe_cur (s : State) (x : Ctx) : (s.setMe x).cur = s.cur := rfl
@[simp] theorem State.setMe_powered (s : State) (x : Ctx) : (s.setMe x).powered = s.powered := rfl
@[simp] theorem State.setMe_now (s : State) (x : Ctx) : (s.setMe x).now = s.now := rfl
@[simp] theorem State.setMe_refOff (s : State) (x : Ctx) : (s.setMe x).refOff = s.refOff := rfl
@[simp] theorem State.setMe_refErr (s : State) (x : Ctx) : (s.setMe x).refErr = s.refErr := rfl
@[simp] theorem State.setMe_refFrom (s : State) (x : Ctx) : (s.setMe x).refFrom = s.refFrom := rfl
@[simp] theorem State.setMe_lastWave (s : State) (x : Ctx) : (s.setMe x).lastWave = s.lastWave := rfl
@[simp] theorem State.setMe_lastTiming (s : State) (x : Ctx) : (s.setMe x).lastTiming = s.lastTiming := rfl
@[simp] theorem State.setMe_lastEpoch (s : State) (x : Ctx) : (s.setMe x).lastEpoch = s.lastEpoch := rfl
@[simp] theorem State.setMe_module (s : State) (x : Ctx) : (s.setMe x).module = s.module := rfl
@[simp] theorem State.setMe_podRoot (s : State) (x : Ctx) : (s.setMe x).podRoot = s.podRoot := rfl
@[simp] theorem State.setMe_gmem (s : State) (x : Ctx) : (s.setMe x).gmem = s.gmem := rfl
@[simp] theorem State.setMe_gpoison (s : State) (x : Ctx) : (s.setMe x).gpoison = s.gpoison := rfl
@[simp] theorem State.setMe_gerr1 (s : State) (x : Ctx) : (s.setMe x).gerr1 = s.gerr1 := rfl
@[simp] theorem State.setMe_gerr2 (s : State) (x : Ctx) : (s.setMe x).gerr2 = s.gerr2 := rfl
@[simp] theorem State.setMe_vers (s : State) (x : Ctx) : (s.setMe x).vers = s.vers := rfl
@[simp] theorem State.setMe_vpages (s : State) (x : Ctx) : (s.setMe x).vpages = s.vpages := rfl
@[simp] theorem State.setMe_chans (s : State) (x : Ctx) : (s.setMe x).chans = s.chans := rfl
@[simp] theorem State.setMe_res (s : State) (x : Ctx) : (s.setMe x).res = s.res := rfl
@[simp] theorem State.setMe_blocks (s : State) (x : Ctx) : (s.setMe x).blocks = s.blocks := rfl
@[simp] theorem State.setMe_sysWait (s : State) (x : Ctx) : (s.setMe x).sysWait = s.sysWait := rfl
@[simp] theorem State.setMe_nextResid (s : State) (x : Ctx) : (s.setMe x).nextResid = s.nextResid := rfl
@[simp] theorem State.setMe_inlets (s : State) (x : Ctx) : (s.setMe x).inlets = s.inlets := rfl
@[simp] theorem State.setMe_outlets (s : State) (x : Ctx) : (s.setMe x).outlets = s.outlets := rfl
@[simp] theorem State.setMe_msien (s : State) (x : Ctx) : (s.setMe x).msien = s.msien := rfl
@[simp] theorem State.setMe_wbase (s : State) (x : Ctx) : (s.setMe x).wbase = s.wbase := rfl
@[simp] theorem State.setMe_hostUp (s : State) (x : Ctx) : (s.setMe x).hostUp = s.hostUp := rfl
@[simp] theorem State.setMe_groupTab (s : State) (x : Ctx) : (s.setMe x).groupTab = s.groupTab := rfl
@[simp] theorem State.setMe_sweeps (s : State) (x : Ctx) : (s.setMe x).sweeps = s.sweeps := rfl
@[simp] theorem State.setMe_nextSweep (s : State) (x : Ctx) : (s.setMe x).nextSweep = s.nextSweep := rfl
@[simp] theorem State.setMe_rlines (s : State) (x : Ctx) : (s.setMe x).rlines = s.rlines := rfl
@[simp] theorem State.setMe_nextRLine (s : State) (x : Ctx) : (s.setMe x).nextRLine = s.nextRLine := rfl
@[simp] theorem State.setMe_otable (s : State) (x : Ctx) : (s.setMe x).otable = s.otable := rfl
@[simp] theorem State.setMe_onodes (s : State) (x : Ctx) : (s.setMe x).onodes = s.onodes := rfl
@[simp] theorem State.setMe_oflights (s : State) (x : Ctx) : (s.setMe x).oflights = s.oflights := rfl
@[simp] theorem State.setMe_links (s : State) (x : Ctx) : (s.setMe x).links = s.links := rfl
@[simp] theorem State.setMe_routes (s : State) (x : Ctx) : (s.setMe x).routes = s.routes := rfl
@[simp] theorem State.setMe_fuses (s : State) (x : Ctx) : (s.setMe x).fuses = s.fuses := rfl
@[simp] theorem State.setMe_phys (s : State) (x : Ctx) : (s.setMe x).phys = s.phys := rfl
@[simp] theorem State.setMe_rects (s : State) (x : Ctx) : (s.setMe x).rects = s.rects := rfl
@[simp] theorem State.setMe_closedRects (s : State) (x : Ctx) : (s.setMe x).closedRects = s.closedRects := rfl
@[simp] theorem State.setMe_letter (s : State) (x : Ctx) : (s.setMe x).letter = s.letter := rfl
@[simp] theorem State.setMe_live (s : State) (x : Ctx) : (s.setMe x).live = s.live := rfl
@[simp] theorem State.setMe_bootStage (s : State) (x : Ctx) : (s.setMe x).bootStage = s.bootStage := rfl
@[simp] theorem State.setMe_bootFail (s : State) (x : Ctx) : (s.setMe x).bootFail = s.bootFail := rfl
@[simp] theorem State.setMe_delsisImg (s : State) (x : Ctx) : (s.setMe x).delsisImg = s.delsisImg := rfl
@[simp] theorem State.setMe_monitorImg (s : State) (x : Ctx) : (s.setMe x).monitorImg = s.monitorImg := rfl
@[simp] theorem State.setMe_dispatchImg (s : State) (x : Ctx) : (s.setMe x).dispatchImg = s.dispatchImg := rfl
@[simp] theorem State.setMe_keySlots (s : State) (x : Ctx) : (s.setMe x).keySlots = s.keySlots := rfl
@[simp] theorem State.setMe_grants (s : State) (x : Ctx) : (s.setMe x).grants = s.grants := rfl
@[simp] theorem State.setMe_droops (s : State) (x : Ctx) : (s.setMe x).droops = s.droops := rfl
@[simp] theorem State.setMe_regulators (s : State) (x : Ctx) : (s.setMe x).regulators = s.regulators := rfl
@[simp] theorem State.setMe_reports (s : State) (x : Ctx) : (s.setMe x).reports = s.reports := rfl
@[simp] theorem State.setMe_invals (s : State) (x : Ctx) : (s.setMe x).invals = s.invals := rfl
@[simp] theorem State.setMe_deadLinks (s : State) (x : Ctx) : (s.setMe x).deadLinks = s.deadLinks := rfl
@[simp] theorem State.setMe_retireDue (s : State) (x : Ctx) : (s.setMe x).retireDue = s.retireDue := rfl
@[simp] theorem State.setMe_strays (s : State) (x : Ctx) : (s.setMe x).strays = s.strays := rfl

/-! A tile is updated. -/

@[simp] theorem State.updTile_agenda (s : State) (n : Nat) (f : Tile → Tile) : (s.updTile n f).agenda = s.agenda := rfl
@[simp] theorem State.updTile_phase (s : State) (n : Nat) (f : Tile → Tile) : (s.updTile n f).phase = s.phase := rfl
@[simp] theorem State.updTile_steps (s : State) (n : Nat) (f : Tile → Tile) : (s.updTile n f).steps = s.steps := rfl
@[simp] theorem State.updTile_cur (s : State) (n : Nat) (f : Tile → Tile) : (s.updTile n f).cur = s.cur := rfl
@[simp] theorem State.updTile_powered (s : State) (n : Nat) (f : Tile → Tile) : (s.updTile n f).powered = s.powered := rfl
@[simp] theorem State.updTile_now (s : State) (n : Nat) (f : Tile → Tile) : (s.updTile n f).now = s.now := rfl
@[simp] theorem State.updTile_refOff (s : State) (n : Nat) (f : Tile → Tile) : (s.updTile n f).refOff = s.refOff := rfl
@[simp] theorem State.updTile_refErr (s : State) (n : Nat) (f : Tile → Tile) : (s.updTile n f).refErr = s.refErr := rfl
@[simp] theorem State.updTile_refFrom (s : State) (n : Nat) (f : Tile → Tile) : (s.updTile n f).refFrom = s.refFrom := rfl
@[simp] theorem State.updTile_lastWave (s : State) (n : Nat) (f : Tile → Tile) : (s.updTile n f).lastWave = s.lastWave := rfl
@[simp] theorem State.updTile_lastTiming (s : State) (n : Nat) (f : Tile → Tile) : (s.updTile n f).lastTiming = s.lastTiming := rfl
@[simp] theorem State.updTile_lastEpoch (s : State) (n : Nat) (f : Tile → Tile) : (s.updTile n f).lastEpoch = s.lastEpoch := rfl
@[simp] theorem State.updTile_module (s : State) (n : Nat) (f : Tile → Tile) : (s.updTile n f).module = s.module := rfl
@[simp] theorem State.updTile_podRoot (s : State) (n : Nat) (f : Tile → Tile) : (s.updTile n f).podRoot = s.podRoot := rfl
@[simp] theorem State.updTile_gmem (s : State) (n : Nat) (f : Tile → Tile) : (s.updTile n f).gmem = s.gmem := rfl
@[simp] theorem State.updTile_gpoison (s : State) (n : Nat) (f : Tile → Tile) : (s.updTile n f).gpoison = s.gpoison := rfl
@[simp] theorem State.updTile_gerr1 (s : State) (n : Nat) (f : Tile → Tile) : (s.updTile n f).gerr1 = s.gerr1 := rfl
@[simp] theorem State.updTile_gerr2 (s : State) (n : Nat) (f : Tile → Tile) : (s.updTile n f).gerr2 = s.gerr2 := rfl
@[simp] theorem State.updTile_vers (s : State) (n : Nat) (f : Tile → Tile) : (s.updTile n f).vers = s.vers := rfl
@[simp] theorem State.updTile_vpages (s : State) (n : Nat) (f : Tile → Tile) : (s.updTile n f).vpages = s.vpages := rfl
@[simp] theorem State.updTile_chans (s : State) (n : Nat) (f : Tile → Tile) : (s.updTile n f).chans = s.chans := rfl
@[simp] theorem State.updTile_res (s : State) (n : Nat) (f : Tile → Tile) : (s.updTile n f).res = s.res := rfl
@[simp] theorem State.updTile_blocks (s : State) (n : Nat) (f : Tile → Tile) : (s.updTile n f).blocks = s.blocks := rfl
@[simp] theorem State.updTile_sysWait (s : State) (n : Nat) (f : Tile → Tile) : (s.updTile n f).sysWait = s.sysWait := rfl
@[simp] theorem State.updTile_nextResid (s : State) (n : Nat) (f : Tile → Tile) : (s.updTile n f).nextResid = s.nextResid := rfl
@[simp] theorem State.updTile_inlets (s : State) (n : Nat) (f : Tile → Tile) : (s.updTile n f).inlets = s.inlets := rfl
@[simp] theorem State.updTile_outlets (s : State) (n : Nat) (f : Tile → Tile) : (s.updTile n f).outlets = s.outlets := rfl
@[simp] theorem State.updTile_msien (s : State) (n : Nat) (f : Tile → Tile) : (s.updTile n f).msien = s.msien := rfl
@[simp] theorem State.updTile_wbase (s : State) (n : Nat) (f : Tile → Tile) : (s.updTile n f).wbase = s.wbase := rfl
@[simp] theorem State.updTile_hostUp (s : State) (n : Nat) (f : Tile → Tile) : (s.updTile n f).hostUp = s.hostUp := rfl
@[simp] theorem State.updTile_groupTab (s : State) (n : Nat) (f : Tile → Tile) : (s.updTile n f).groupTab = s.groupTab := rfl
@[simp] theorem State.updTile_sweeps (s : State) (n : Nat) (f : Tile → Tile) : (s.updTile n f).sweeps = s.sweeps := rfl
@[simp] theorem State.updTile_nextSweep (s : State) (n : Nat) (f : Tile → Tile) : (s.updTile n f).nextSweep = s.nextSweep := rfl
@[simp] theorem State.updTile_rlines (s : State) (n : Nat) (f : Tile → Tile) : (s.updTile n f).rlines = s.rlines := rfl
@[simp] theorem State.updTile_nextRLine (s : State) (n : Nat) (f : Tile → Tile) : (s.updTile n f).nextRLine = s.nextRLine := rfl
@[simp] theorem State.updTile_otable (s : State) (n : Nat) (f : Tile → Tile) : (s.updTile n f).otable = s.otable := rfl
@[simp] theorem State.updTile_onodes (s : State) (n : Nat) (f : Tile → Tile) : (s.updTile n f).onodes = s.onodes := rfl
@[simp] theorem State.updTile_oflights (s : State) (n : Nat) (f : Tile → Tile) : (s.updTile n f).oflights = s.oflights := rfl
@[simp] theorem State.updTile_links (s : State) (n : Nat) (f : Tile → Tile) : (s.updTile n f).links = s.links := rfl
@[simp] theorem State.updTile_routes (s : State) (n : Nat) (f : Tile → Tile) : (s.updTile n f).routes = s.routes := rfl
@[simp] theorem State.updTile_fuses (s : State) (n : Nat) (f : Tile → Tile) : (s.updTile n f).fuses = s.fuses := rfl
@[simp] theorem State.updTile_phys (s : State) (n : Nat) (f : Tile → Tile) : (s.updTile n f).phys = s.phys := rfl
@[simp] theorem State.updTile_rects (s : State) (n : Nat) (f : Tile → Tile) : (s.updTile n f).rects = s.rects := rfl
@[simp] theorem State.updTile_closedRects (s : State) (n : Nat) (f : Tile → Tile) : (s.updTile n f).closedRects = s.closedRects := rfl
@[simp] theorem State.updTile_letter (s : State) (n : Nat) (f : Tile → Tile) : (s.updTile n f).letter = s.letter := rfl
@[simp] theorem State.updTile_live (s : State) (n : Nat) (f : Tile → Tile) : (s.updTile n f).live = s.live := rfl
@[simp] theorem State.updTile_bootStage (s : State) (n : Nat) (f : Tile → Tile) : (s.updTile n f).bootStage = s.bootStage := rfl
@[simp] theorem State.updTile_bootFail (s : State) (n : Nat) (f : Tile → Tile) : (s.updTile n f).bootFail = s.bootFail := rfl
@[simp] theorem State.updTile_delsisImg (s : State) (n : Nat) (f : Tile → Tile) : (s.updTile n f).delsisImg = s.delsisImg := rfl
@[simp] theorem State.updTile_monitorImg (s : State) (n : Nat) (f : Tile → Tile) : (s.updTile n f).monitorImg = s.monitorImg := rfl
@[simp] theorem State.updTile_dispatchImg (s : State) (n : Nat) (f : Tile → Tile) : (s.updTile n f).dispatchImg = s.dispatchImg := rfl
@[simp] theorem State.updTile_keySlots (s : State) (n : Nat) (f : Tile → Tile) : (s.updTile n f).keySlots = s.keySlots := rfl
@[simp] theorem State.updTile_grants (s : State) (n : Nat) (f : Tile → Tile) : (s.updTile n f).grants = s.grants := rfl
@[simp] theorem State.updTile_droops (s : State) (n : Nat) (f : Tile → Tile) : (s.updTile n f).droops = s.droops := rfl
@[simp] theorem State.updTile_regulators (s : State) (n : Nat) (f : Tile → Tile) : (s.updTile n f).regulators = s.regulators := rfl
@[simp] theorem State.updTile_reports (s : State) (n : Nat) (f : Tile → Tile) : (s.updTile n f).reports = s.reports := rfl
@[simp] theorem State.updTile_invals (s : State) (n : Nat) (f : Tile → Tile) : (s.updTile n f).invals = s.invals := rfl
@[simp] theorem State.updTile_deadLinks (s : State) (n : Nat) (f : Tile → Tile) : (s.updTile n f).deadLinks = s.deadLinks := rfl
@[simp] theorem State.updTile_retireDue (s : State) (n : Nat) (f : Tile → Tile) : (s.updTile n f).retireDue = s.retireDue := rfl
@[simp] theorem State.updTile_strays (s : State) (n : Nat) (f : Tile → Tile) : (s.updTile n f).strays = s.strays := rfl

/-! A channel is replaced. -/

@[simp] theorem State.setChan_agenda (s : State) (n : Nat) (x : Chan) : (s.setChan n x).agenda = s.agenda := rfl
@[simp] theorem State.setChan_phase (s : State) (n : Nat) (x : Chan) : (s.setChan n x).phase = s.phase := rfl
@[simp] theorem State.setChan_steps (s : State) (n : Nat) (x : Chan) : (s.setChan n x).steps = s.steps := rfl
@[simp] theorem State.setChan_cur (s : State) (n : Nat) (x : Chan) : (s.setChan n x).cur = s.cur := rfl
@[simp] theorem State.setChan_powered (s : State) (n : Nat) (x : Chan) : (s.setChan n x).powered = s.powered := rfl
@[simp] theorem State.setChan_now (s : State) (n : Nat) (x : Chan) : (s.setChan n x).now = s.now := rfl
@[simp] theorem State.setChan_refOff (s : State) (n : Nat) (x : Chan) : (s.setChan n x).refOff = s.refOff := rfl
@[simp] theorem State.setChan_refErr (s : State) (n : Nat) (x : Chan) : (s.setChan n x).refErr = s.refErr := rfl
@[simp] theorem State.setChan_refFrom (s : State) (n : Nat) (x : Chan) : (s.setChan n x).refFrom = s.refFrom := rfl
@[simp] theorem State.setChan_lastWave (s : State) (n : Nat) (x : Chan) : (s.setChan n x).lastWave = s.lastWave := rfl
@[simp] theorem State.setChan_lastTiming (s : State) (n : Nat) (x : Chan) : (s.setChan n x).lastTiming = s.lastTiming := rfl
@[simp] theorem State.setChan_lastEpoch (s : State) (n : Nat) (x : Chan) : (s.setChan n x).lastEpoch = s.lastEpoch := rfl
@[simp] theorem State.setChan_module (s : State) (n : Nat) (x : Chan) : (s.setChan n x).module = s.module := rfl
@[simp] theorem State.setChan_podRoot (s : State) (n : Nat) (x : Chan) : (s.setChan n x).podRoot = s.podRoot := rfl
@[simp] theorem State.setChan_tiles (s : State) (n : Nat) (x : Chan) : (s.setChan n x).tiles = s.tiles := rfl
@[simp] theorem State.setChan_gmem (s : State) (n : Nat) (x : Chan) : (s.setChan n x).gmem = s.gmem := rfl
@[simp] theorem State.setChan_gpoison (s : State) (n : Nat) (x : Chan) : (s.setChan n x).gpoison = s.gpoison := rfl
@[simp] theorem State.setChan_gerr1 (s : State) (n : Nat) (x : Chan) : (s.setChan n x).gerr1 = s.gerr1 := rfl
@[simp] theorem State.setChan_gerr2 (s : State) (n : Nat) (x : Chan) : (s.setChan n x).gerr2 = s.gerr2 := rfl
@[simp] theorem State.setChan_vers (s : State) (n : Nat) (x : Chan) : (s.setChan n x).vers = s.vers := rfl
@[simp] theorem State.setChan_vpages (s : State) (n : Nat) (x : Chan) : (s.setChan n x).vpages = s.vpages := rfl
@[simp] theorem State.setChan_res (s : State) (n : Nat) (x : Chan) : (s.setChan n x).res = s.res := rfl
@[simp] theorem State.setChan_blocks (s : State) (n : Nat) (x : Chan) : (s.setChan n x).blocks = s.blocks := rfl
@[simp] theorem State.setChan_sysWait (s : State) (n : Nat) (x : Chan) : (s.setChan n x).sysWait = s.sysWait := rfl
@[simp] theorem State.setChan_nextResid (s : State) (n : Nat) (x : Chan) : (s.setChan n x).nextResid = s.nextResid := rfl
@[simp] theorem State.setChan_inlets (s : State) (n : Nat) (x : Chan) : (s.setChan n x).inlets = s.inlets := rfl
@[simp] theorem State.setChan_outlets (s : State) (n : Nat) (x : Chan) : (s.setChan n x).outlets = s.outlets := rfl
@[simp] theorem State.setChan_msien (s : State) (n : Nat) (x : Chan) : (s.setChan n x).msien = s.msien := rfl
@[simp] theorem State.setChan_wbase (s : State) (n : Nat) (x : Chan) : (s.setChan n x).wbase = s.wbase := rfl
@[simp] theorem State.setChan_hostUp (s : State) (n : Nat) (x : Chan) : (s.setChan n x).hostUp = s.hostUp := rfl
@[simp] theorem State.setChan_groupTab (s : State) (n : Nat) (x : Chan) : (s.setChan n x).groupTab = s.groupTab := rfl
@[simp] theorem State.setChan_sweeps (s : State) (n : Nat) (x : Chan) : (s.setChan n x).sweeps = s.sweeps := rfl
@[simp] theorem State.setChan_nextSweep (s : State) (n : Nat) (x : Chan) : (s.setChan n x).nextSweep = s.nextSweep := rfl
@[simp] theorem State.setChan_rlines (s : State) (n : Nat) (x : Chan) : (s.setChan n x).rlines = s.rlines := rfl
@[simp] theorem State.setChan_nextRLine (s : State) (n : Nat) (x : Chan) : (s.setChan n x).nextRLine = s.nextRLine := rfl
@[simp] theorem State.setChan_otable (s : State) (n : Nat) (x : Chan) : (s.setChan n x).otable = s.otable := rfl
@[simp] theorem State.setChan_onodes (s : State) (n : Nat) (x : Chan) : (s.setChan n x).onodes = s.onodes := rfl
@[simp] theorem State.setChan_oflights (s : State) (n : Nat) (x : Chan) : (s.setChan n x).oflights = s.oflights := rfl
@[simp] theorem State.setChan_links (s : State) (n : Nat) (x : Chan) : (s.setChan n x).links = s.links := rfl
@[simp] theorem State.setChan_routes (s : State) (n : Nat) (x : Chan) : (s.setChan n x).routes = s.routes := rfl
@[simp] theorem State.setChan_fuses (s : State) (n : Nat) (x : Chan) : (s.setChan n x).fuses = s.fuses := rfl
@[simp] theorem State.setChan_phys (s : State) (n : Nat) (x : Chan) : (s.setChan n x).phys = s.phys := rfl
@[simp] theorem State.setChan_rects (s : State) (n : Nat) (x : Chan) : (s.setChan n x).rects = s.rects := rfl
@[simp] theorem State.setChan_closedRects (s : State) (n : Nat) (x : Chan) : (s.setChan n x).closedRects = s.closedRects := rfl
@[simp] theorem State.setChan_letter (s : State) (n : Nat) (x : Chan) : (s.setChan n x).letter = s.letter := rfl
@[simp] theorem State.setChan_live (s : State) (n : Nat) (x : Chan) : (s.setChan n x).live = s.live := rfl
@[simp] theorem State.setChan_bootStage (s : State) (n : Nat) (x : Chan) : (s.setChan n x).bootStage = s.bootStage := rfl
@[simp] theorem State.setChan_bootFail (s : State) (n : Nat) (x : Chan) : (s.setChan n x).bootFail = s.bootFail := rfl
@[simp] theorem State.setChan_delsisImg (s : State) (n : Nat) (x : Chan) : (s.setChan n x).delsisImg = s.delsisImg := rfl
@[simp] theorem State.setChan_monitorImg (s : State) (n : Nat) (x : Chan) : (s.setChan n x).monitorImg = s.monitorImg := rfl
@[simp] theorem State.setChan_dispatchImg (s : State) (n : Nat) (x : Chan) : (s.setChan n x).dispatchImg = s.dispatchImg := rfl
@[simp] theorem State.setChan_keySlots (s : State) (n : Nat) (x : Chan) : (s.setChan n x).keySlots = s.keySlots := rfl
@[simp] theorem State.setChan_grants (s : State) (n : Nat) (x : Chan) : (s.setChan n x).grants = s.grants := rfl
@[simp] theorem State.setChan_droops (s : State) (n : Nat) (x : Chan) : (s.setChan n x).droops = s.droops := rfl
@[simp] theorem State.setChan_regulators (s : State) (n : Nat) (x : Chan) : (s.setChan n x).regulators = s.regulators := rfl
@[simp] theorem State.setChan_reports (s : State) (n : Nat) (x : Chan) : (s.setChan n x).reports = s.reports := rfl
@[simp] theorem State.setChan_invals (s : State) (n : Nat) (x : Chan) : (s.setChan n x).invals = s.invals := rfl
@[simp] theorem State.setChan_deadLinks (s : State) (n : Nat) (x : Chan) : (s.setChan n x).deadLinks = s.deadLinks := rfl
@[simp] theorem State.setChan_retireDue (s : State) (n : Nat) (x : Chan) : (s.setChan n x).retireDue = s.retireDue := rfl
@[simp] theorem State.setChan_strays (s : State) (n : Nat) (x : Chan) : (s.setChan n x).strays = s.strays := rfl

/-! A residency is replaced. -/

@[simp] theorem State.setRes_agenda (s : State) (h : Nat) (r : Res) : (s.setRes h r).agenda = s.agenda := rfl
@[simp] theorem State.setRes_phase (s : State) (h : Nat) (r : Res) : (s.setRes h r).phase = s.phase := rfl
@[simp] theorem State.setRes_steps (s : State) (h : Nat) (r : Res) : (s.setRes h r).steps = s.steps := rfl
@[simp] theorem State.setRes_cur (s : State) (h : Nat) (r : Res) : (s.setRes h r).cur = s.cur := rfl
@[simp] theorem State.setRes_powered (s : State) (h : Nat) (r : Res) : (s.setRes h r).powered = s.powered := rfl
@[simp] theorem State.setRes_now (s : State) (h : Nat) (r : Res) : (s.setRes h r).now = s.now := rfl
@[simp] theorem State.setRes_refOff (s : State) (h : Nat) (r : Res) : (s.setRes h r).refOff = s.refOff := rfl
@[simp] theorem State.setRes_refErr (s : State) (h : Nat) (r : Res) : (s.setRes h r).refErr = s.refErr := rfl
@[simp] theorem State.setRes_refFrom (s : State) (h : Nat) (r : Res) : (s.setRes h r).refFrom = s.refFrom := rfl
@[simp] theorem State.setRes_lastWave (s : State) (h : Nat) (r : Res) : (s.setRes h r).lastWave = s.lastWave := rfl
@[simp] theorem State.setRes_lastTiming (s : State) (h : Nat) (r : Res) : (s.setRes h r).lastTiming = s.lastTiming := rfl
@[simp] theorem State.setRes_lastEpoch (s : State) (h : Nat) (r : Res) : (s.setRes h r).lastEpoch = s.lastEpoch := rfl
@[simp] theorem State.setRes_module (s : State) (h : Nat) (r : Res) : (s.setRes h r).module = s.module := rfl
@[simp] theorem State.setRes_podRoot (s : State) (h : Nat) (r : Res) : (s.setRes h r).podRoot = s.podRoot := rfl
@[simp] theorem State.setRes_tiles (s : State) (h : Nat) (r : Res) : (s.setRes h r).tiles = s.tiles := rfl
@[simp] theorem State.setRes_gmem (s : State) (h : Nat) (r : Res) : (s.setRes h r).gmem = s.gmem := rfl
@[simp] theorem State.setRes_gpoison (s : State) (h : Nat) (r : Res) : (s.setRes h r).gpoison = s.gpoison := rfl
@[simp] theorem State.setRes_gerr1 (s : State) (h : Nat) (r : Res) : (s.setRes h r).gerr1 = s.gerr1 := rfl
@[simp] theorem State.setRes_gerr2 (s : State) (h : Nat) (r : Res) : (s.setRes h r).gerr2 = s.gerr2 := rfl
@[simp] theorem State.setRes_vers (s : State) (h : Nat) (r : Res) : (s.setRes h r).vers = s.vers := rfl
@[simp] theorem State.setRes_vpages (s : State) (h : Nat) (r : Res) : (s.setRes h r).vpages = s.vpages := rfl
@[simp] theorem State.setRes_chans (s : State) (h : Nat) (r : Res) : (s.setRes h r).chans = s.chans := rfl
@[simp] theorem State.setRes_blocks (s : State) (h : Nat) (r : Res) : (s.setRes h r).blocks = s.blocks := rfl
@[simp] theorem State.setRes_sysWait (s : State) (h : Nat) (r : Res) : (s.setRes h r).sysWait = s.sysWait := rfl
@[simp] theorem State.setRes_nextResid (s : State) (h : Nat) (r : Res) : (s.setRes h r).nextResid = s.nextResid := rfl
@[simp] theorem State.setRes_inlets (s : State) (h : Nat) (r : Res) : (s.setRes h r).inlets = s.inlets := rfl
@[simp] theorem State.setRes_outlets (s : State) (h : Nat) (r : Res) : (s.setRes h r).outlets = s.outlets := rfl
@[simp] theorem State.setRes_msien (s : State) (h : Nat) (r : Res) : (s.setRes h r).msien = s.msien := rfl
@[simp] theorem State.setRes_wbase (s : State) (h : Nat) (r : Res) : (s.setRes h r).wbase = s.wbase := rfl
@[simp] theorem State.setRes_hostUp (s : State) (h : Nat) (r : Res) : (s.setRes h r).hostUp = s.hostUp := rfl
@[simp] theorem State.setRes_groupTab (s : State) (h : Nat) (r : Res) : (s.setRes h r).groupTab = s.groupTab := rfl
@[simp] theorem State.setRes_sweeps (s : State) (h : Nat) (r : Res) : (s.setRes h r).sweeps = s.sweeps := rfl
@[simp] theorem State.setRes_nextSweep (s : State) (h : Nat) (r : Res) : (s.setRes h r).nextSweep = s.nextSweep := rfl
@[simp] theorem State.setRes_rlines (s : State) (h : Nat) (r : Res) : (s.setRes h r).rlines = s.rlines := rfl
@[simp] theorem State.setRes_nextRLine (s : State) (h : Nat) (r : Res) : (s.setRes h r).nextRLine = s.nextRLine := rfl
@[simp] theorem State.setRes_otable (s : State) (h : Nat) (r : Res) : (s.setRes h r).otable = s.otable := rfl
@[simp] theorem State.setRes_onodes (s : State) (h : Nat) (r : Res) : (s.setRes h r).onodes = s.onodes := rfl
@[simp] theorem State.setRes_oflights (s : State) (h : Nat) (r : Res) : (s.setRes h r).oflights = s.oflights := rfl
@[simp] theorem State.setRes_links (s : State) (h : Nat) (r : Res) : (s.setRes h r).links = s.links := rfl
@[simp] theorem State.setRes_routes (s : State) (h : Nat) (r : Res) : (s.setRes h r).routes = s.routes := rfl
@[simp] theorem State.setRes_fuses (s : State) (h : Nat) (r : Res) : (s.setRes h r).fuses = s.fuses := rfl
@[simp] theorem State.setRes_phys (s : State) (h : Nat) (r : Res) : (s.setRes h r).phys = s.phys := rfl
@[simp] theorem State.setRes_rects (s : State) (h : Nat) (r : Res) : (s.setRes h r).rects = s.rects := rfl
@[simp] theorem State.setRes_closedRects (s : State) (h : Nat) (r : Res) : (s.setRes h r).closedRects = s.closedRects := rfl
@[simp] theorem State.setRes_letter (s : State) (h : Nat) (r : Res) : (s.setRes h r).letter = s.letter := rfl
@[simp] theorem State.setRes_live (s : State) (h : Nat) (r : Res) : (s.setRes h r).live = s.live := rfl
@[simp] theorem State.setRes_bootStage (s : State) (h : Nat) (r : Res) : (s.setRes h r).bootStage = s.bootStage := rfl
@[simp] theorem State.setRes_bootFail (s : State) (h : Nat) (r : Res) : (s.setRes h r).bootFail = s.bootFail := rfl
@[simp] theorem State.setRes_delsisImg (s : State) (h : Nat) (r : Res) : (s.setRes h r).delsisImg = s.delsisImg := rfl
@[simp] theorem State.setRes_monitorImg (s : State) (h : Nat) (r : Res) : (s.setRes h r).monitorImg = s.monitorImg := rfl
@[simp] theorem State.setRes_dispatchImg (s : State) (h : Nat) (r : Res) : (s.setRes h r).dispatchImg = s.dispatchImg := rfl
@[simp] theorem State.setRes_keySlots (s : State) (h : Nat) (r : Res) : (s.setRes h r).keySlots = s.keySlots := rfl
@[simp] theorem State.setRes_grants (s : State) (h : Nat) (r : Res) : (s.setRes h r).grants = s.grants := rfl
@[simp] theorem State.setRes_droops (s : State) (h : Nat) (r : Res) : (s.setRes h r).droops = s.droops := rfl
@[simp] theorem State.setRes_regulators (s : State) (h : Nat) (r : Res) : (s.setRes h r).regulators = s.regulators := rfl
@[simp] theorem State.setRes_reports (s : State) (h : Nat) (r : Res) : (s.setRes h r).reports = s.reports := rfl
@[simp] theorem State.setRes_invals (s : State) (h : Nat) (r : Res) : (s.setRes h r).invals = s.invals := rfl
@[simp] theorem State.setRes_deadLinks (s : State) (h : Nat) (r : Res) : (s.setRes h r).deadLinks = s.deadLinks := rfl
@[simp] theorem State.setRes_retireDue (s : State) (h : Nat) (r : Res) : (s.setRes h r).retireDue = s.retireDue := rfl
@[simp] theorem State.setRes_strays (s : State) (h : Nat) (r : Res) : (s.setRes h r).strays = s.strays := rfl

/-! A residency is updated. -/

@[simp] theorem State.updRes_agenda (s : State) (h : Nat) (f : Res → Res) : (s.updRes h f).agenda = s.agenda := rfl
@[simp] theorem State.updRes_phase (s : State) (h : Nat) (f : Res → Res) : (s.updRes h f).phase = s.phase := rfl
@[simp] theorem State.updRes_steps (s : State) (h : Nat) (f : Res → Res) : (s.updRes h f).steps = s.steps := rfl
@[simp] theorem State.updRes_cur (s : State) (h : Nat) (f : Res → Res) : (s.updRes h f).cur = s.cur := rfl
@[simp] theorem State.updRes_powered (s : State) (h : Nat) (f : Res → Res) : (s.updRes h f).powered = s.powered := rfl
@[simp] theorem State.updRes_now (s : State) (h : Nat) (f : Res → Res) : (s.updRes h f).now = s.now := rfl
@[simp] theorem State.updRes_refOff (s : State) (h : Nat) (f : Res → Res) : (s.updRes h f).refOff = s.refOff := rfl
@[simp] theorem State.updRes_refErr (s : State) (h : Nat) (f : Res → Res) : (s.updRes h f).refErr = s.refErr := rfl
@[simp] theorem State.updRes_refFrom (s : State) (h : Nat) (f : Res → Res) : (s.updRes h f).refFrom = s.refFrom := rfl
@[simp] theorem State.updRes_lastWave (s : State) (h : Nat) (f : Res → Res) : (s.updRes h f).lastWave = s.lastWave := rfl
@[simp] theorem State.updRes_lastTiming (s : State) (h : Nat) (f : Res → Res) : (s.updRes h f).lastTiming = s.lastTiming := rfl
@[simp] theorem State.updRes_lastEpoch (s : State) (h : Nat) (f : Res → Res) : (s.updRes h f).lastEpoch = s.lastEpoch := rfl
@[simp] theorem State.updRes_module (s : State) (h : Nat) (f : Res → Res) : (s.updRes h f).module = s.module := rfl
@[simp] theorem State.updRes_podRoot (s : State) (h : Nat) (f : Res → Res) : (s.updRes h f).podRoot = s.podRoot := rfl
@[simp] theorem State.updRes_tiles (s : State) (h : Nat) (f : Res → Res) : (s.updRes h f).tiles = s.tiles := rfl
@[simp] theorem State.updRes_gmem (s : State) (h : Nat) (f : Res → Res) : (s.updRes h f).gmem = s.gmem := rfl
@[simp] theorem State.updRes_gpoison (s : State) (h : Nat) (f : Res → Res) : (s.updRes h f).gpoison = s.gpoison := rfl
@[simp] theorem State.updRes_gerr1 (s : State) (h : Nat) (f : Res → Res) : (s.updRes h f).gerr1 = s.gerr1 := rfl
@[simp] theorem State.updRes_gerr2 (s : State) (h : Nat) (f : Res → Res) : (s.updRes h f).gerr2 = s.gerr2 := rfl
@[simp] theorem State.updRes_vers (s : State) (h : Nat) (f : Res → Res) : (s.updRes h f).vers = s.vers := rfl
@[simp] theorem State.updRes_vpages (s : State) (h : Nat) (f : Res → Res) : (s.updRes h f).vpages = s.vpages := rfl
@[simp] theorem State.updRes_chans (s : State) (h : Nat) (f : Res → Res) : (s.updRes h f).chans = s.chans := rfl
@[simp] theorem State.updRes_blocks (s : State) (h : Nat) (f : Res → Res) : (s.updRes h f).blocks = s.blocks := rfl
@[simp] theorem State.updRes_sysWait (s : State) (h : Nat) (f : Res → Res) : (s.updRes h f).sysWait = s.sysWait := rfl
@[simp] theorem State.updRes_nextResid (s : State) (h : Nat) (f : Res → Res) : (s.updRes h f).nextResid = s.nextResid := rfl
@[simp] theorem State.updRes_inlets (s : State) (h : Nat) (f : Res → Res) : (s.updRes h f).inlets = s.inlets := rfl
@[simp] theorem State.updRes_outlets (s : State) (h : Nat) (f : Res → Res) : (s.updRes h f).outlets = s.outlets := rfl
@[simp] theorem State.updRes_msien (s : State) (h : Nat) (f : Res → Res) : (s.updRes h f).msien = s.msien := rfl
@[simp] theorem State.updRes_wbase (s : State) (h : Nat) (f : Res → Res) : (s.updRes h f).wbase = s.wbase := rfl
@[simp] theorem State.updRes_hostUp (s : State) (h : Nat) (f : Res → Res) : (s.updRes h f).hostUp = s.hostUp := rfl
@[simp] theorem State.updRes_groupTab (s : State) (h : Nat) (f : Res → Res) : (s.updRes h f).groupTab = s.groupTab := rfl
@[simp] theorem State.updRes_sweeps (s : State) (h : Nat) (f : Res → Res) : (s.updRes h f).sweeps = s.sweeps := rfl
@[simp] theorem State.updRes_nextSweep (s : State) (h : Nat) (f : Res → Res) : (s.updRes h f).nextSweep = s.nextSweep := rfl
@[simp] theorem State.updRes_rlines (s : State) (h : Nat) (f : Res → Res) : (s.updRes h f).rlines = s.rlines := rfl
@[simp] theorem State.updRes_nextRLine (s : State) (h : Nat) (f : Res → Res) : (s.updRes h f).nextRLine = s.nextRLine := rfl
@[simp] theorem State.updRes_otable (s : State) (h : Nat) (f : Res → Res) : (s.updRes h f).otable = s.otable := rfl
@[simp] theorem State.updRes_onodes (s : State) (h : Nat) (f : Res → Res) : (s.updRes h f).onodes = s.onodes := rfl
@[simp] theorem State.updRes_oflights (s : State) (h : Nat) (f : Res → Res) : (s.updRes h f).oflights = s.oflights := rfl
@[simp] theorem State.updRes_links (s : State) (h : Nat) (f : Res → Res) : (s.updRes h f).links = s.links := rfl
@[simp] theorem State.updRes_routes (s : State) (h : Nat) (f : Res → Res) : (s.updRes h f).routes = s.routes := rfl
@[simp] theorem State.updRes_fuses (s : State) (h : Nat) (f : Res → Res) : (s.updRes h f).fuses = s.fuses := rfl
@[simp] theorem State.updRes_phys (s : State) (h : Nat) (f : Res → Res) : (s.updRes h f).phys = s.phys := rfl
@[simp] theorem State.updRes_rects (s : State) (h : Nat) (f : Res → Res) : (s.updRes h f).rects = s.rects := rfl
@[simp] theorem State.updRes_closedRects (s : State) (h : Nat) (f : Res → Res) : (s.updRes h f).closedRects = s.closedRects := rfl
@[simp] theorem State.updRes_letter (s : State) (h : Nat) (f : Res → Res) : (s.updRes h f).letter = s.letter := rfl
@[simp] theorem State.updRes_live (s : State) (h : Nat) (f : Res → Res) : (s.updRes h f).live = s.live := rfl
@[simp] theorem State.updRes_bootStage (s : State) (h : Nat) (f : Res → Res) : (s.updRes h f).bootStage = s.bootStage := rfl
@[simp] theorem State.updRes_bootFail (s : State) (h : Nat) (f : Res → Res) : (s.updRes h f).bootFail = s.bootFail := rfl
@[simp] theorem State.updRes_delsisImg (s : State) (h : Nat) (f : Res → Res) : (s.updRes h f).delsisImg = s.delsisImg := rfl
@[simp] theorem State.updRes_monitorImg (s : State) (h : Nat) (f : Res → Res) : (s.updRes h f).monitorImg = s.monitorImg := rfl
@[simp] theorem State.updRes_dispatchImg (s : State) (h : Nat) (f : Res → Res) : (s.updRes h f).dispatchImg = s.dispatchImg := rfl
@[simp] theorem State.updRes_keySlots (s : State) (h : Nat) (f : Res → Res) : (s.updRes h f).keySlots = s.keySlots := rfl
@[simp] theorem State.updRes_grants (s : State) (h : Nat) (f : Res → Res) : (s.updRes h f).grants = s.grants := rfl
@[simp] theorem State.updRes_droops (s : State) (h : Nat) (f : Res → Res) : (s.updRes h f).droops = s.droops := rfl
@[simp] theorem State.updRes_regulators (s : State) (h : Nat) (f : Res → Res) : (s.updRes h f).regulators = s.regulators := rfl
@[simp] theorem State.updRes_reports (s : State) (h : Nat) (f : Res → Res) : (s.updRes h f).reports = s.reports := rfl
@[simp] theorem State.updRes_invals (s : State) (h : Nat) (f : Res → Res) : (s.updRes h f).invals = s.invals := rfl
@[simp] theorem State.updRes_deadLinks (s : State) (h : Nat) (f : Res → Res) : (s.updRes h f).deadLinks = s.deadLinks := rfl
@[simp] theorem State.updRes_retireDue (s : State) (h : Nat) (f : Res → Res) : (s.updRes h f).retireDue = s.retireDue := rfl
@[simp] theorem State.updRes_strays (s : State) (h : Nat) (f : Res → Res) : (s.updRes h f).strays = s.strays := rfl

/-! An error record is updated. -/

@[simp] theorem State.updErr_agenda (s : State) (h : Nat) (f : ErrRec → ErrRec) : (s.updErr h f).agenda = s.agenda := rfl
@[simp] theorem State.updErr_phase (s : State) (h : Nat) (f : ErrRec → ErrRec) : (s.updErr h f).phase = s.phase := rfl
@[simp] theorem State.updErr_steps (s : State) (h : Nat) (f : ErrRec → ErrRec) : (s.updErr h f).steps = s.steps := rfl
@[simp] theorem State.updErr_cur (s : State) (h : Nat) (f : ErrRec → ErrRec) : (s.updErr h f).cur = s.cur := rfl
@[simp] theorem State.updErr_powered (s : State) (h : Nat) (f : ErrRec → ErrRec) : (s.updErr h f).powered = s.powered := rfl
@[simp] theorem State.updErr_now (s : State) (h : Nat) (f : ErrRec → ErrRec) : (s.updErr h f).now = s.now := rfl
@[simp] theorem State.updErr_refOff (s : State) (h : Nat) (f : ErrRec → ErrRec) : (s.updErr h f).refOff = s.refOff := rfl
@[simp] theorem State.updErr_refErr (s : State) (h : Nat) (f : ErrRec → ErrRec) : (s.updErr h f).refErr = s.refErr := rfl
@[simp] theorem State.updErr_refFrom (s : State) (h : Nat) (f : ErrRec → ErrRec) : (s.updErr h f).refFrom = s.refFrom := rfl
@[simp] theorem State.updErr_lastWave (s : State) (h : Nat) (f : ErrRec → ErrRec) : (s.updErr h f).lastWave = s.lastWave := rfl
@[simp] theorem State.updErr_lastTiming (s : State) (h : Nat) (f : ErrRec → ErrRec) : (s.updErr h f).lastTiming = s.lastTiming := rfl
@[simp] theorem State.updErr_lastEpoch (s : State) (h : Nat) (f : ErrRec → ErrRec) : (s.updErr h f).lastEpoch = s.lastEpoch := rfl
@[simp] theorem State.updErr_module (s : State) (h : Nat) (f : ErrRec → ErrRec) : (s.updErr h f).module = s.module := rfl
@[simp] theorem State.updErr_podRoot (s : State) (h : Nat) (f : ErrRec → ErrRec) : (s.updErr h f).podRoot = s.podRoot := rfl
@[simp] theorem State.updErr_tiles (s : State) (h : Nat) (f : ErrRec → ErrRec) : (s.updErr h f).tiles = s.tiles := rfl
@[simp] theorem State.updErr_gmem (s : State) (h : Nat) (f : ErrRec → ErrRec) : (s.updErr h f).gmem = s.gmem := rfl
@[simp] theorem State.updErr_gpoison (s : State) (h : Nat) (f : ErrRec → ErrRec) : (s.updErr h f).gpoison = s.gpoison := rfl
@[simp] theorem State.updErr_gerr1 (s : State) (h : Nat) (f : ErrRec → ErrRec) : (s.updErr h f).gerr1 = s.gerr1 := rfl
@[simp] theorem State.updErr_gerr2 (s : State) (h : Nat) (f : ErrRec → ErrRec) : (s.updErr h f).gerr2 = s.gerr2 := rfl
@[simp] theorem State.updErr_vers (s : State) (h : Nat) (f : ErrRec → ErrRec) : (s.updErr h f).vers = s.vers := rfl
@[simp] theorem State.updErr_vpages (s : State) (h : Nat) (f : ErrRec → ErrRec) : (s.updErr h f).vpages = s.vpages := rfl
@[simp] theorem State.updErr_chans (s : State) (h : Nat) (f : ErrRec → ErrRec) : (s.updErr h f).chans = s.chans := rfl
@[simp] theorem State.updErr_blocks (s : State) (h : Nat) (f : ErrRec → ErrRec) : (s.updErr h f).blocks = s.blocks := rfl
@[simp] theorem State.updErr_sysWait (s : State) (h : Nat) (f : ErrRec → ErrRec) : (s.updErr h f).sysWait = s.sysWait := rfl
@[simp] theorem State.updErr_nextResid (s : State) (h : Nat) (f : ErrRec → ErrRec) : (s.updErr h f).nextResid = s.nextResid := rfl
@[simp] theorem State.updErr_inlets (s : State) (h : Nat) (f : ErrRec → ErrRec) : (s.updErr h f).inlets = s.inlets := rfl
@[simp] theorem State.updErr_outlets (s : State) (h : Nat) (f : ErrRec → ErrRec) : (s.updErr h f).outlets = s.outlets := rfl
@[simp] theorem State.updErr_msien (s : State) (h : Nat) (f : ErrRec → ErrRec) : (s.updErr h f).msien = s.msien := rfl
@[simp] theorem State.updErr_wbase (s : State) (h : Nat) (f : ErrRec → ErrRec) : (s.updErr h f).wbase = s.wbase := rfl
@[simp] theorem State.updErr_hostUp (s : State) (h : Nat) (f : ErrRec → ErrRec) : (s.updErr h f).hostUp = s.hostUp := rfl
@[simp] theorem State.updErr_groupTab (s : State) (h : Nat) (f : ErrRec → ErrRec) : (s.updErr h f).groupTab = s.groupTab := rfl
@[simp] theorem State.updErr_sweeps (s : State) (h : Nat) (f : ErrRec → ErrRec) : (s.updErr h f).sweeps = s.sweeps := rfl
@[simp] theorem State.updErr_nextSweep (s : State) (h : Nat) (f : ErrRec → ErrRec) : (s.updErr h f).nextSweep = s.nextSweep := rfl
@[simp] theorem State.updErr_rlines (s : State) (h : Nat) (f : ErrRec → ErrRec) : (s.updErr h f).rlines = s.rlines := rfl
@[simp] theorem State.updErr_nextRLine (s : State) (h : Nat) (f : ErrRec → ErrRec) : (s.updErr h f).nextRLine = s.nextRLine := rfl
@[simp] theorem State.updErr_otable (s : State) (h : Nat) (f : ErrRec → ErrRec) : (s.updErr h f).otable = s.otable := rfl
@[simp] theorem State.updErr_onodes (s : State) (h : Nat) (f : ErrRec → ErrRec) : (s.updErr h f).onodes = s.onodes := rfl
@[simp] theorem State.updErr_oflights (s : State) (h : Nat) (f : ErrRec → ErrRec) : (s.updErr h f).oflights = s.oflights := rfl
@[simp] theorem State.updErr_links (s : State) (h : Nat) (f : ErrRec → ErrRec) : (s.updErr h f).links = s.links := rfl
@[simp] theorem State.updErr_routes (s : State) (h : Nat) (f : ErrRec → ErrRec) : (s.updErr h f).routes = s.routes := rfl
@[simp] theorem State.updErr_fuses (s : State) (h : Nat) (f : ErrRec → ErrRec) : (s.updErr h f).fuses = s.fuses := rfl
@[simp] theorem State.updErr_phys (s : State) (h : Nat) (f : ErrRec → ErrRec) : (s.updErr h f).phys = s.phys := rfl
@[simp] theorem State.updErr_rects (s : State) (h : Nat) (f : ErrRec → ErrRec) : (s.updErr h f).rects = s.rects := rfl
@[simp] theorem State.updErr_closedRects (s : State) (h : Nat) (f : ErrRec → ErrRec) : (s.updErr h f).closedRects = s.closedRects := rfl
@[simp] theorem State.updErr_letter (s : State) (h : Nat) (f : ErrRec → ErrRec) : (s.updErr h f).letter = s.letter := rfl
@[simp] theorem State.updErr_live (s : State) (h : Nat) (f : ErrRec → ErrRec) : (s.updErr h f).live = s.live := rfl
@[simp] theorem State.updErr_bootStage (s : State) (h : Nat) (f : ErrRec → ErrRec) : (s.updErr h f).bootStage = s.bootStage := rfl
@[simp] theorem State.updErr_bootFail (s : State) (h : Nat) (f : ErrRec → ErrRec) : (s.updErr h f).bootFail = s.bootFail := rfl
@[simp] theorem State.updErr_delsisImg (s : State) (h : Nat) (f : ErrRec → ErrRec) : (s.updErr h f).delsisImg = s.delsisImg := rfl
@[simp] theorem State.updErr_monitorImg (s : State) (h : Nat) (f : ErrRec → ErrRec) : (s.updErr h f).monitorImg = s.monitorImg := rfl
@[simp] theorem State.updErr_dispatchImg (s : State) (h : Nat) (f : ErrRec → ErrRec) : (s.updErr h f).dispatchImg = s.dispatchImg := rfl
@[simp] theorem State.updErr_keySlots (s : State) (h : Nat) (f : ErrRec → ErrRec) : (s.updErr h f).keySlots = s.keySlots := rfl
@[simp] theorem State.updErr_grants (s : State) (h : Nat) (f : ErrRec → ErrRec) : (s.updErr h f).grants = s.grants := rfl
@[simp] theorem State.updErr_droops (s : State) (h : Nat) (f : ErrRec → ErrRec) : (s.updErr h f).droops = s.droops := rfl
@[simp] theorem State.updErr_regulators (s : State) (h : Nat) (f : ErrRec → ErrRec) : (s.updErr h f).regulators = s.regulators := rfl
@[simp] theorem State.updErr_reports (s : State) (h : Nat) (f : ErrRec → ErrRec) : (s.updErr h f).reports = s.reports := rfl
@[simp] theorem State.updErr_invals (s : State) (h : Nat) (f : ErrRec → ErrRec) : (s.updErr h f).invals = s.invals := rfl
@[simp] theorem State.updErr_deadLinks (s : State) (h : Nat) (f : ErrRec → ErrRec) : (s.updErr h f).deadLinks = s.deadLinks := rfl
@[simp] theorem State.updErr_retireDue (s : State) (h : Nat) (f : ErrRec → ErrRec) : (s.updErr h f).retireDue = s.retireDue := rfl
@[simp] theorem State.updErr_strays (s : State) (h : Nat) (f : ErrRec → ErrRec) : (s.updErr h f).strays = s.strays := rfl

/-! A context of a tile is replaced. -/

@[simp] theorem Tile.setCtx_alive (t : Tile) (n : Nat) (x : Ctx) : (t.setCtx n x).alive = t.alive := rfl
@[simp] theorem Tile.setCtx_tlm (t : Tile) (n : Nat) (x : Ctx) : (t.setCtx n x).tlm = t.tlm := rfl
@[simp] theorem Tile.setCtx_gtags (t : Tile) (n : Nat) (x : Ctx) : (t.setCtx n x).gtags = t.gtags := rfl
@[simp] theorem Tile.setCtx_poison (t : Tile) (n : Nat) (x : Ctx) : (t.setCtx n x).poison = t.poison := rfl
@[simp] theorem Tile.setCtx_err2 (t : Tile) (n : Nat) (x : Ctx) : (t.setCtx n x).err2 = t.err2 := rfl
@[simp] theorem Tile.setCtx_err1 (t : Tile) (n : Nat) (x : Ctx) : (t.setCtx n x).err1 = t.err1 := rfl
@[simp] theorem Tile.setCtx_exec (t : Tile) (n : Nat) (x : Ctx) : (t.setCtx n x).exec = t.exec := rfl
@[simp] theorem Tile.setCtx_placed (t : Tile) (n : Nat) (x : Ctx) : (t.setCtx n x).placed = t.placed := rfl
@[simp] theorem Tile.setCtx_monExec (t : Tile) (n : Nat) (x : Ctx) : (t.setCtx n x).monExec = t.monExec := rfl
@[simp] theorem Tile.setCtx_lastCtx (t : Tile) (n : Nat) (x : Ctx) : (t.setCtx n x).lastCtx = t.lastCtx := rfl
@[simp] theorem Tile.setCtx_fsel (t : Tile) (n : Nat) (x : Ctx) : (t.setCtx n x).fsel = t.fsel := rfl
@[simp] theorem Tile.setCtx_nest (t : Tile) (n : Nat) (x : Ctx) : (t.setCtx n x).nest = t.nest := rfl
@[simp] theorem Tile.setCtx_pend (t : Tile) (n : Nat) (x : Ctx) : (t.setCtx n x).pend = t.pend := rfl
@[simp] theorem Tile.setCtx_trapvec (t : Tile) (n : Nat) (x : Ctx) : (t.setCtx n x).trapvec = t.trapvec := rfl
@[simp] theorem Tile.setCtx_preReq (t : Tile) (n : Nat) (x : Ctx) : (t.setCtx n x).preReq = t.preReq := rfl
@[simp] theorem Tile.setCtx_preHalted (t : Tile) (n : Nat) (x : Ctx) : (t.setCtx n x).preHalted = t.preHalted := rfl
@[simp] theorem Tile.setCtx_preElapsed (t : Tile) (n : Nat) (x : Ctx) : (t.setCtx n x).preElapsed = t.preElapsed := rfl
@[simp] theorem Tile.setCtx_preAt (t : Tile) (n : Nat) (x : Ctx) : (t.setCtx n x).preAt = t.preAt := rfl
@[simp] theorem Tile.setCtx_owmTimeout (t : Tile) (n : Nat) (x : Ctx) : (t.setCtx n x).owmTimeout = t.owmTimeout := rfl
@[simp] theorem Tile.setCtx_slots (t : Tile) (n : Nat) (x : Ctx) : (t.setCtx n x).slots = t.slots := rfl
@[simp] theorem Tile.setCtx_active (t : Tile) (n : Nat) (x : Ctx) : (t.setCtx n x).active = t.active := rfl
@[simp] theorem Tile.setCtx_role (t : Tile) (n : Nat) (x : Ctx) : (t.setCtx n x).role = t.role := rfl
@[simp] theorem Tile.setCtx_switchTo (t : Tile) (n : Nat) (x : Ctx) : (t.setCtx n x).switchTo = t.switchTo := rfl
@[simp] theorem Tile.setCtx_accs (t : Tile) (n : Nat) (x : Ctx) : (t.setCtx n x).accs = t.accs := rfl
@[simp] theorem Tile.setCtx_mxLast (t : Tile) (n : Nat) (x : Ctx) : (t.setCtx n x).mxLast = t.mxLast := rfl
@[simp] theorem Tile.setCtx_fabric (t : Tile) (n : Nat) (x : Ctx) : (t.setCtx n x).fabric = t.fabric := rfl
@[simp] theorem Tile.setCtx_lcLast (t : Tile) (n : Nat) (x : Ctx) : (t.setCtx n x).lcLast = t.lcLast := rfl
@[simp] theorem Tile.setCtx_dmLast (t : Tile) (n : Nat) (x : Ctx) : (t.setCtx n x).dmLast = t.dmLast := rfl
@[simp] theorem Tile.setCtx_reqs (t : Tile) (n : Nat) (x : Ctx) : (t.setCtx n x).reqs = t.reqs := rfl
@[simp] theorem Tile.setCtx_nextOp (t : Tile) (n : Nat) (x : Ctx) : (t.setCtx n x).nextOp = t.nextOp := rfl
@[simp] theorem Tile.setCtx_nextTask (t : Tile) (n : Nat) (x : Ctx) : (t.setCtx n x).nextTask = t.nextTask := rfl
@[simp] theorem Tile.setCtx_waiters (t : Tile) (n : Nat) (x : Ctx) : (t.setCtx n x).waiters = t.waiters := rfl
@[simp] theorem Tile.setCtx_nextReady (t : Tile) (n : Nat) (x : Ctx) : (t.setCtx n x).nextReady = t.nextReady := rfl
@[simp] theorem Tile.setCtx_nextStart (t : Tile) (n : Nat) (x : Ctx) : (t.setCtx n x).nextStart = t.nextStart := rfl
@[simp] theorem Tile.setCtx_tlb (t : Tile) (n : Nat) (x : Ctx) : (t.setCtx n x).tlb = t.tlb := rfl
@[simp] theorem Tile.setCtx_ring (t : Tile) (n : Nat) (x : Ctx) : (t.setCtx n x).ring = t.ring := rfl
@[simp] theorem Tile.setCtx_passes (t : Tile) (n : Nat) (x : Ctx) : (t.setCtx n x).passes = t.passes := rfl
@[simp] theorem Tile.setCtx_sweepSlots (t : Tile) (n : Nat) (x : Ctx) : (t.setCtx n x).sweepSlots = t.sweepSlots := rfl
@[simp] theorem Tile.setCtx_members (t : Tile) (n : Nat) (x : Ctx) : (t.setCtx n x).members = t.members := rfl
@[simp] theorem Tile.setCtx_vptr (t : Tile) (n : Nat) (x : Ctx) : (t.setCtx n x).vptr = t.vptr := rfl
@[simp] theorem Tile.setCtx_deficit (t : Tile) (n : Nat) (x : Ctx) : (t.setCtx n x).deficit = t.deficit := rfl
@[simp] theorem Tile.setCtx_credited (t : Tile) (n : Nat) (x : Ctx) : (t.setCtx n x).credited = t.credited := rfl
@[simp] theorem Tile.setCtx_groups (t : Tile) (n : Nat) (x : Ctx) : (t.setCtx n x).groups = t.groups := rfl
@[simp] theorem Tile.setCtx_streamSel (t : Tile) (n : Nat) (x : Ctx) : (t.setCtx n x).streamSel = t.streamSel := rfl
@[simp] theorem Tile.setCtx_fwd (t : Tile) (n : Nat) (x : Ctx) : (t.setCtx n x).fwd = t.fwd := rfl
@[simp] theorem Tile.setCtx_unack (t : Tile) (n : Nat) (x : Ctx) : (t.setCtx n x).unack = t.unack := rfl
@[simp] theorem Tile.setCtx_refusals (t : Tile) (n : Nat) (x : Ctx) : (t.setCtx n x).refusals = t.refusals := rfl
@[simp] theorem Tile.setCtx_dropped (t : Tile) (n : Nat) (x : Ctx) : (t.setCtx n x).dropped = t.dropped := rfl
@[simp] theorem Tile.setCtx_dropHdr (t : Tile) (n : Nat) (x : Ctx) : (t.setCtx n x).dropHdr = t.dropHdr := rfl
@[simp] theorem Tile.setCtx_lastResult (t : Tile) (n : Nat) (x : Ctx) : (t.setCtx n x).lastResult = t.lastResult := rfl
@[simp] theorem Tile.setCtx_count (t : Tile) (n : Nat) (x : Ctx) : (t.setCtx n x).count = t.count := rfl
@[simp] theorem Tile.setCtx_period (t : Tile) (n : Nat) (x : Ctx) : (t.setCtx n x).period = t.period := rfl
@[simp] theorem Tile.setCtx_timeErr (t : Tile) (n : Nat) (x : Ctx) : (t.setCtx n x).timeErr = t.timeErr := rfl
@[simp] theorem Tile.setCtx_edgeAt (t : Tile) (n : Nat) (x : Ctx) : (t.setCtx n x).edgeAt = t.edgeAt := rfl
@[simp] theorem Tile.setCtx_missed (t : Tile) (n : Nat) (x : Ctx) : (t.setCtx n x).missed = t.missed := rfl
@[simp] theorem Tile.setCtx_goodWaves (t : Tile) (n : Nat) (x : Ctx) : (t.setCtx n x).goodWaves = t.goodWaves := rfl
@[simp] theorem Tile.setCtx_synced (t : Tile) (n : Nat) (x : Ctx) : (t.setCtx n x).synced = t.synced := rfl
@[simp] theorem Tile.setCtx_lastWave (t : Tile) (n : Nat) (x : Ctx) : (t.setCtx n x).lastWave = t.lastWave := rfl
@[simp] theorem Tile.setCtx_lastStamp (t : Tile) (n : Nat) (x : Ctx) : (t.setCtx n x).lastStamp = t.lastStamp := rfl
@[simp] theorem Tile.setCtx_tileSeq (t : Tile) (n : Nat) (x : Ctx) : (t.setCtx n x).tileSeq = t.tileSeq := rfl
@[simp] theorem Tile.setCtx_inject (t : Tile) (n : Nat) (x : Ctx) : (t.setCtx n x).inject = t.inject := rfl
@[simp] theorem Tile.setCtx_injectDue (t : Tile) (n : Nat) (x : Ctx) : (t.setCtx n x).injectDue = t.injectDue := rfl
@[simp] theorem Tile.setCtx_lastSent (t : Tile) (n : Nat) (x : Ctx) : (t.setCtx n x).lastSent = t.lastSent := rfl
@[simp] theorem Tile.setCtx_samples (t : Tile) (n : Nat) (x : Ctx) : (t.setCtx n x).samples = t.samples := rfl
@[simp] theorem Tile.setCtx_busySamples (t : Tile) (n : Nat) (x : Ctx) : (t.setCtx n x).busySamples = t.busySamples := rfl
@[simp] theorem Tile.setCtx_busyLast (t : Tile) (n : Nat) (x : Ctx) : (t.setCtx n x).busyLast = t.busyLast := rfl
@[simp] theorem Tile.setCtx_sampledAt (t : Tile) (n : Nat) (x : Ctx) : (t.setCtx n x).sampledAt = t.sampledAt := rfl
@[simp] theorem Tile.setCtx_corrected (t : Tile) (n : Nat) (x : Ctx) : (t.setCtx n x).corrected = t.corrected := rfl
@[simp] theorem Tile.setCtx_uncorrected (t : Tile) (n : Nat) (x : Ctx) : (t.setCtx n x).uncorrected = t.uncorrected := rfl
@[simp] theorem Tile.setCtx_drooped (t : Tile) (n : Nat) (x : Ctx) : (t.setCtx n x).drooped = t.drooped := rfl
@[simp] theorem Tile.setCtx_brk (t : Tile) (n : Nat) (x : Ctx) : (t.setCtx n x).brk = t.brk := rfl
@[simp] theorem Tile.setCtx_snapDone (t : Tile) (n : Nat) (x : Ctx) : (t.setCtx n x).snapDone = t.snapDone := rfl
@[simp] theorem Tile.setCtx_reports (t : Tile) (n : Nat) (x : Ctx) : (t.setCtx n x).reports = t.reports := rfl

/-! The active slot of a tile is replaced. -/

@[simp] theorem Tile.setSlot_alive (t : Tile) (x : Slot) : (t.setSlot x).alive = t.alive := rfl
@[simp] theorem Tile.setSlot_tlm (t : Tile) (x : Slot) : (t.setSlot x).tlm = t.tlm := rfl
@[simp] theorem Tile.setSlot_gtags (t : Tile) (x : Slot) : (t.setSlot x).gtags = t.gtags := rfl
@[simp] theorem Tile.setSlot_poison (t : Tile) (x : Slot) : (t.setSlot x).poison = t.poison := rfl
@[simp] theorem Tile.setSlot_err2 (t : Tile) (x : Slot) : (t.setSlot x).err2 = t.err2 := rfl
@[simp] theorem Tile.setSlot_err1 (t : Tile) (x : Slot) : (t.setSlot x).err1 = t.err1 := rfl
@[simp] theorem Tile.setSlot_exec (t : Tile) (x : Slot) : (t.setSlot x).exec = t.exec := rfl
@[simp] theorem Tile.setSlot_placed (t : Tile) (x : Slot) : (t.setSlot x).placed = t.placed := rfl
@[simp] theorem Tile.setSlot_monExec (t : Tile) (x : Slot) : (t.setSlot x).monExec = t.monExec := rfl
@[simp] theorem Tile.setSlot_ctxs (t : Tile) (x : Slot) : (t.setSlot x).ctxs = t.ctxs := rfl
@[simp] theorem Tile.setSlot_lastCtx (t : Tile) (x : Slot) : (t.setSlot x).lastCtx = t.lastCtx := rfl
@[simp] theorem Tile.setSlot_fsel (t : Tile) (x : Slot) : (t.setSlot x).fsel = t.fsel := rfl
@[simp] theorem Tile.setSlot_nest (t : Tile) (x : Slot) : (t.setSlot x).nest = t.nest := rfl
@[simp] theorem Tile.setSlot_pend (t : Tile) (x : Slot) : (t.setSlot x).pend = t.pend := rfl
@[simp] theorem Tile.setSlot_trapvec (t : Tile) (x : Slot) : (t.setSlot x).trapvec = t.trapvec := rfl
@[simp] theorem Tile.setSlot_preReq (t : Tile) (x : Slot) : (t.setSlot x).preReq = t.preReq := rfl
@[simp] theorem Tile.setSlot_preHalted (t : Tile) (x : Slot) : (t.setSlot x).preHalted = t.preHalted := rfl
@[simp] theorem Tile.setSlot_preElapsed (t : Tile) (x : Slot) : (t.setSlot x).preElapsed = t.preElapsed := rfl
@[simp] theorem Tile.setSlot_preAt (t : Tile) (x : Slot) : (t.setSlot x).preAt = t.preAt := rfl
@[simp] theorem Tile.setSlot_owmTimeout (t : Tile) (x : Slot) : (t.setSlot x).owmTimeout = t.owmTimeout := rfl
@[simp] theorem Tile.setSlot_active (t : Tile) (x : Slot) : (t.setSlot x).active = t.active := rfl
@[simp] theorem Tile.setSlot_role (t : Tile) (x : Slot) : (t.setSlot x).role = t.role := rfl
@[simp] theorem Tile.setSlot_switchTo (t : Tile) (x : Slot) : (t.setSlot x).switchTo = t.switchTo := rfl
@[simp] theorem Tile.setSlot_accs (t : Tile) (x : Slot) : (t.setSlot x).accs = t.accs := rfl
@[simp] theorem Tile.setSlot_mxLast (t : Tile) (x : Slot) : (t.setSlot x).mxLast = t.mxLast := rfl
@[simp] theorem Tile.setSlot_fabric (t : Tile) (x : Slot) : (t.setSlot x).fabric = t.fabric := rfl
@[simp] theorem Tile.setSlot_lcLast (t : Tile) (x : Slot) : (t.setSlot x).lcLast = t.lcLast := rfl
@[simp] theorem Tile.setSlot_dmLast (t : Tile) (x : Slot) : (t.setSlot x).dmLast = t.dmLast := rfl
@[simp] theorem Tile.setSlot_reqs (t : Tile) (x : Slot) : (t.setSlot x).reqs = t.reqs := rfl
@[simp] theorem Tile.setSlot_nextOp (t : Tile) (x : Slot) : (t.setSlot x).nextOp = t.nextOp := rfl
@[simp] theorem Tile.setSlot_nextTask (t : Tile) (x : Slot) : (t.setSlot x).nextTask = t.nextTask := rfl
@[simp] theorem Tile.setSlot_waiters (t : Tile) (x : Slot) : (t.setSlot x).waiters = t.waiters := rfl
@[simp] theorem Tile.setSlot_nextReady (t : Tile) (x : Slot) : (t.setSlot x).nextReady = t.nextReady := rfl
@[simp] theorem Tile.setSlot_nextStart (t : Tile) (x : Slot) : (t.setSlot x).nextStart = t.nextStart := rfl
@[simp] theorem Tile.setSlot_tlb (t : Tile) (x : Slot) : (t.setSlot x).tlb = t.tlb := rfl
@[simp] theorem Tile.setSlot_ring (t : Tile) (x : Slot) : (t.setSlot x).ring = t.ring := rfl
@[simp] theorem Tile.setSlot_passes (t : Tile) (x : Slot) : (t.setSlot x).passes = t.passes := rfl
@[simp] theorem Tile.setSlot_sweepSlots (t : Tile) (x : Slot) : (t.setSlot x).sweepSlots = t.sweepSlots := rfl
@[simp] theorem Tile.setSlot_members (t : Tile) (x : Slot) : (t.setSlot x).members = t.members := rfl
@[simp] theorem Tile.setSlot_vptr (t : Tile) (x : Slot) : (t.setSlot x).vptr = t.vptr := rfl
@[simp] theorem Tile.setSlot_deficit (t : Tile) (x : Slot) : (t.setSlot x).deficit = t.deficit := rfl
@[simp] theorem Tile.setSlot_credited (t : Tile) (x : Slot) : (t.setSlot x).credited = t.credited := rfl
@[simp] theorem Tile.setSlot_groups (t : Tile) (x : Slot) : (t.setSlot x).groups = t.groups := rfl
@[simp] theorem Tile.setSlot_streamSel (t : Tile) (x : Slot) : (t.setSlot x).streamSel = t.streamSel := rfl
@[simp] theorem Tile.setSlot_fwd (t : Tile) (x : Slot) : (t.setSlot x).fwd = t.fwd := rfl
@[simp] theorem Tile.setSlot_unack (t : Tile) (x : Slot) : (t.setSlot x).unack = t.unack := rfl
@[simp] theorem Tile.setSlot_refusals (t : Tile) (x : Slot) : (t.setSlot x).refusals = t.refusals := rfl
@[simp] theorem Tile.setSlot_dropped (t : Tile) (x : Slot) : (t.setSlot x).dropped = t.dropped := rfl
@[simp] theorem Tile.setSlot_dropHdr (t : Tile) (x : Slot) : (t.setSlot x).dropHdr = t.dropHdr := rfl
@[simp] theorem Tile.setSlot_lastResult (t : Tile) (x : Slot) : (t.setSlot x).lastResult = t.lastResult := rfl
@[simp] theorem Tile.setSlot_count (t : Tile) (x : Slot) : (t.setSlot x).count = t.count := rfl
@[simp] theorem Tile.setSlot_period (t : Tile) (x : Slot) : (t.setSlot x).period = t.period := rfl
@[simp] theorem Tile.setSlot_timeErr (t : Tile) (x : Slot) : (t.setSlot x).timeErr = t.timeErr := rfl
@[simp] theorem Tile.setSlot_edgeAt (t : Tile) (x : Slot) : (t.setSlot x).edgeAt = t.edgeAt := rfl
@[simp] theorem Tile.setSlot_missed (t : Tile) (x : Slot) : (t.setSlot x).missed = t.missed := rfl
@[simp] theorem Tile.setSlot_goodWaves (t : Tile) (x : Slot) : (t.setSlot x).goodWaves = t.goodWaves := rfl
@[simp] theorem Tile.setSlot_synced (t : Tile) (x : Slot) : (t.setSlot x).synced = t.synced := rfl
@[simp] theorem Tile.setSlot_lastWave (t : Tile) (x : Slot) : (t.setSlot x).lastWave = t.lastWave := rfl
@[simp] theorem Tile.setSlot_lastStamp (t : Tile) (x : Slot) : (t.setSlot x).lastStamp = t.lastStamp := rfl
@[simp] theorem Tile.setSlot_tileSeq (t : Tile) (x : Slot) : (t.setSlot x).tileSeq = t.tileSeq := rfl
@[simp] theorem Tile.setSlot_inject (t : Tile) (x : Slot) : (t.setSlot x).inject = t.inject := rfl
@[simp] theorem Tile.setSlot_injectDue (t : Tile) (x : Slot) : (t.setSlot x).injectDue = t.injectDue := rfl
@[simp] theorem Tile.setSlot_lastSent (t : Tile) (x : Slot) : (t.setSlot x).lastSent = t.lastSent := rfl
@[simp] theorem Tile.setSlot_samples (t : Tile) (x : Slot) : (t.setSlot x).samples = t.samples := rfl
@[simp] theorem Tile.setSlot_busySamples (t : Tile) (x : Slot) : (t.setSlot x).busySamples = t.busySamples := rfl
@[simp] theorem Tile.setSlot_busyLast (t : Tile) (x : Slot) : (t.setSlot x).busyLast = t.busyLast := rfl
@[simp] theorem Tile.setSlot_sampledAt (t : Tile) (x : Slot) : (t.setSlot x).sampledAt = t.sampledAt := rfl
@[simp] theorem Tile.setSlot_corrected (t : Tile) (x : Slot) : (t.setSlot x).corrected = t.corrected := rfl
@[simp] theorem Tile.setSlot_uncorrected (t : Tile) (x : Slot) : (t.setSlot x).uncorrected = t.uncorrected := rfl
@[simp] theorem Tile.setSlot_drooped (t : Tile) (x : Slot) : (t.setSlot x).drooped = t.drooped := rfl
@[simp] theorem Tile.setSlot_brk (t : Tile) (x : Slot) : (t.setSlot x).brk = t.brk := rfl
@[simp] theorem Tile.setSlot_snapDone (t : Tile) (x : Slot) : (t.setSlot x).snapDone = t.snapDone := rfl
@[simp] theorem Tile.setSlot_reports (t : Tile) (x : Slot) : (t.setSlot x).reports = t.reports := rfl

/-! An accumulator of a tile is replaced. -/

@[simp] theorem Tile.setAcc_alive (t : Tile) (n : Nat) (x : Acc) : (t.setAcc n x).alive = t.alive := rfl
@[simp] theorem Tile.setAcc_tlm (t : Tile) (n : Nat) (x : Acc) : (t.setAcc n x).tlm = t.tlm := rfl
@[simp] theorem Tile.setAcc_gtags (t : Tile) (n : Nat) (x : Acc) : (t.setAcc n x).gtags = t.gtags := rfl
@[simp] theorem Tile.setAcc_poison (t : Tile) (n : Nat) (x : Acc) : (t.setAcc n x).poison = t.poison := rfl
@[simp] theorem Tile.setAcc_err2 (t : Tile) (n : Nat) (x : Acc) : (t.setAcc n x).err2 = t.err2 := rfl
@[simp] theorem Tile.setAcc_err1 (t : Tile) (n : Nat) (x : Acc) : (t.setAcc n x).err1 = t.err1 := rfl
@[simp] theorem Tile.setAcc_exec (t : Tile) (n : Nat) (x : Acc) : (t.setAcc n x).exec = t.exec := rfl
@[simp] theorem Tile.setAcc_placed (t : Tile) (n : Nat) (x : Acc) : (t.setAcc n x).placed = t.placed := rfl
@[simp] theorem Tile.setAcc_monExec (t : Tile) (n : Nat) (x : Acc) : (t.setAcc n x).monExec = t.monExec := rfl
@[simp] theorem Tile.setAcc_ctxs (t : Tile) (n : Nat) (x : Acc) : (t.setAcc n x).ctxs = t.ctxs := rfl
@[simp] theorem Tile.setAcc_lastCtx (t : Tile) (n : Nat) (x : Acc) : (t.setAcc n x).lastCtx = t.lastCtx := rfl
@[simp] theorem Tile.setAcc_fsel (t : Tile) (n : Nat) (x : Acc) : (t.setAcc n x).fsel = t.fsel := rfl
@[simp] theorem Tile.setAcc_nest (t : Tile) (n : Nat) (x : Acc) : (t.setAcc n x).nest = t.nest := rfl
@[simp] theorem Tile.setAcc_pend (t : Tile) (n : Nat) (x : Acc) : (t.setAcc n x).pend = t.pend := rfl
@[simp] theorem Tile.setAcc_trapvec (t : Tile) (n : Nat) (x : Acc) : (t.setAcc n x).trapvec = t.trapvec := rfl
@[simp] theorem Tile.setAcc_preReq (t : Tile) (n : Nat) (x : Acc) : (t.setAcc n x).preReq = t.preReq := rfl
@[simp] theorem Tile.setAcc_preHalted (t : Tile) (n : Nat) (x : Acc) : (t.setAcc n x).preHalted = t.preHalted := rfl
@[simp] theorem Tile.setAcc_preElapsed (t : Tile) (n : Nat) (x : Acc) : (t.setAcc n x).preElapsed = t.preElapsed := rfl
@[simp] theorem Tile.setAcc_preAt (t : Tile) (n : Nat) (x : Acc) : (t.setAcc n x).preAt = t.preAt := rfl
@[simp] theorem Tile.setAcc_owmTimeout (t : Tile) (n : Nat) (x : Acc) : (t.setAcc n x).owmTimeout = t.owmTimeout := rfl
@[simp] theorem Tile.setAcc_slots (t : Tile) (n : Nat) (x : Acc) : (t.setAcc n x).slots = t.slots := rfl
@[simp] theorem Tile.setAcc_active (t : Tile) (n : Nat) (x : Acc) : (t.setAcc n x).active = t.active := rfl
@[simp] theorem Tile.setAcc_role (t : Tile) (n : Nat) (x : Acc) : (t.setAcc n x).role = t.role := rfl
@[simp] theorem Tile.setAcc_switchTo (t : Tile) (n : Nat) (x : Acc) : (t.setAcc n x).switchTo = t.switchTo := rfl
@[simp] theorem Tile.setAcc_mxLast (t : Tile) (n : Nat) (x : Acc) : (t.setAcc n x).mxLast = t.mxLast := rfl
@[simp] theorem Tile.setAcc_fabric (t : Tile) (n : Nat) (x : Acc) : (t.setAcc n x).fabric = t.fabric := rfl
@[simp] theorem Tile.setAcc_lcLast (t : Tile) (n : Nat) (x : Acc) : (t.setAcc n x).lcLast = t.lcLast := rfl
@[simp] theorem Tile.setAcc_dmLast (t : Tile) (n : Nat) (x : Acc) : (t.setAcc n x).dmLast = t.dmLast := rfl
@[simp] theorem Tile.setAcc_reqs (t : Tile) (n : Nat) (x : Acc) : (t.setAcc n x).reqs = t.reqs := rfl
@[simp] theorem Tile.setAcc_nextOp (t : Tile) (n : Nat) (x : Acc) : (t.setAcc n x).nextOp = t.nextOp := rfl
@[simp] theorem Tile.setAcc_nextTask (t : Tile) (n : Nat) (x : Acc) : (t.setAcc n x).nextTask = t.nextTask := rfl
@[simp] theorem Tile.setAcc_waiters (t : Tile) (n : Nat) (x : Acc) : (t.setAcc n x).waiters = t.waiters := rfl
@[simp] theorem Tile.setAcc_nextReady (t : Tile) (n : Nat) (x : Acc) : (t.setAcc n x).nextReady = t.nextReady := rfl
@[simp] theorem Tile.setAcc_nextStart (t : Tile) (n : Nat) (x : Acc) : (t.setAcc n x).nextStart = t.nextStart := rfl
@[simp] theorem Tile.setAcc_tlb (t : Tile) (n : Nat) (x : Acc) : (t.setAcc n x).tlb = t.tlb := rfl
@[simp] theorem Tile.setAcc_ring (t : Tile) (n : Nat) (x : Acc) : (t.setAcc n x).ring = t.ring := rfl
@[simp] theorem Tile.setAcc_passes (t : Tile) (n : Nat) (x : Acc) : (t.setAcc n x).passes = t.passes := rfl
@[simp] theorem Tile.setAcc_sweepSlots (t : Tile) (n : Nat) (x : Acc) : (t.setAcc n x).sweepSlots = t.sweepSlots := rfl
@[simp] theorem Tile.setAcc_members (t : Tile) (n : Nat) (x : Acc) : (t.setAcc n x).members = t.members := rfl
@[simp] theorem Tile.setAcc_vptr (t : Tile) (n : Nat) (x : Acc) : (t.setAcc n x).vptr = t.vptr := rfl
@[simp] theorem Tile.setAcc_deficit (t : Tile) (n : Nat) (x : Acc) : (t.setAcc n x).deficit = t.deficit := rfl
@[simp] theorem Tile.setAcc_credited (t : Tile) (n : Nat) (x : Acc) : (t.setAcc n x).credited = t.credited := rfl
@[simp] theorem Tile.setAcc_groups (t : Tile) (n : Nat) (x : Acc) : (t.setAcc n x).groups = t.groups := rfl
@[simp] theorem Tile.setAcc_streamSel (t : Tile) (n : Nat) (x : Acc) : (t.setAcc n x).streamSel = t.streamSel := rfl
@[simp] theorem Tile.setAcc_fwd (t : Tile) (n : Nat) (x : Acc) : (t.setAcc n x).fwd = t.fwd := rfl
@[simp] theorem Tile.setAcc_unack (t : Tile) (n : Nat) (x : Acc) : (t.setAcc n x).unack = t.unack := rfl
@[simp] theorem Tile.setAcc_refusals (t : Tile) (n : Nat) (x : Acc) : (t.setAcc n x).refusals = t.refusals := rfl
@[simp] theorem Tile.setAcc_dropped (t : Tile) (n : Nat) (x : Acc) : (t.setAcc n x).dropped = t.dropped := rfl
@[simp] theorem Tile.setAcc_dropHdr (t : Tile) (n : Nat) (x : Acc) : (t.setAcc n x).dropHdr = t.dropHdr := rfl
@[simp] theorem Tile.setAcc_lastResult (t : Tile) (n : Nat) (x : Acc) : (t.setAcc n x).lastResult = t.lastResult := rfl
@[simp] theorem Tile.setAcc_count (t : Tile) (n : Nat) (x : Acc) : (t.setAcc n x).count = t.count := rfl
@[simp] theorem Tile.setAcc_period (t : Tile) (n : Nat) (x : Acc) : (t.setAcc n x).period = t.period := rfl
@[simp] theorem Tile.setAcc_timeErr (t : Tile) (n : Nat) (x : Acc) : (t.setAcc n x).timeErr = t.timeErr := rfl
@[simp] theorem Tile.setAcc_edgeAt (t : Tile) (n : Nat) (x : Acc) : (t.setAcc n x).edgeAt = t.edgeAt := rfl
@[simp] theorem Tile.setAcc_missed (t : Tile) (n : Nat) (x : Acc) : (t.setAcc n x).missed = t.missed := rfl
@[simp] theorem Tile.setAcc_goodWaves (t : Tile) (n : Nat) (x : Acc) : (t.setAcc n x).goodWaves = t.goodWaves := rfl
@[simp] theorem Tile.setAcc_synced (t : Tile) (n : Nat) (x : Acc) : (t.setAcc n x).synced = t.synced := rfl
@[simp] theorem Tile.setAcc_lastWave (t : Tile) (n : Nat) (x : Acc) : (t.setAcc n x).lastWave = t.lastWave := rfl
@[simp] theorem Tile.setAcc_lastStamp (t : Tile) (n : Nat) (x : Acc) : (t.setAcc n x).lastStamp = t.lastStamp := rfl
@[simp] theorem Tile.setAcc_tileSeq (t : Tile) (n : Nat) (x : Acc) : (t.setAcc n x).tileSeq = t.tileSeq := rfl
@[simp] theorem Tile.setAcc_inject (t : Tile) (n : Nat) (x : Acc) : (t.setAcc n x).inject = t.inject := rfl
@[simp] theorem Tile.setAcc_injectDue (t : Tile) (n : Nat) (x : Acc) : (t.setAcc n x).injectDue = t.injectDue := rfl
@[simp] theorem Tile.setAcc_lastSent (t : Tile) (n : Nat) (x : Acc) : (t.setAcc n x).lastSent = t.lastSent := rfl
@[simp] theorem Tile.setAcc_samples (t : Tile) (n : Nat) (x : Acc) : (t.setAcc n x).samples = t.samples := rfl
@[simp] theorem Tile.setAcc_busySamples (t : Tile) (n : Nat) (x : Acc) : (t.setAcc n x).busySamples = t.busySamples := rfl
@[simp] theorem Tile.setAcc_busyLast (t : Tile) (n : Nat) (x : Acc) : (t.setAcc n x).busyLast = t.busyLast := rfl
@[simp] theorem Tile.setAcc_sampledAt (t : Tile) (n : Nat) (x : Acc) : (t.setAcc n x).sampledAt = t.sampledAt := rfl
@[simp] theorem Tile.setAcc_corrected (t : Tile) (n : Nat) (x : Acc) : (t.setAcc n x).corrected = t.corrected := rfl
@[simp] theorem Tile.setAcc_uncorrected (t : Tile) (n : Nat) (x : Acc) : (t.setAcc n x).uncorrected = t.uncorrected := rfl
@[simp] theorem Tile.setAcc_drooped (t : Tile) (n : Nat) (x : Acc) : (t.setAcc n x).drooped = t.drooped := rfl
@[simp] theorem Tile.setAcc_brk (t : Tile) (n : Nat) (x : Acc) : (t.setAcc n x).brk = t.brk := rfl
@[simp] theorem Tile.setAcc_snapDone (t : Tile) (n : Nat) (x : Acc) : (t.setAcc n x).snapDone = t.snapDone := rfl
@[simp] theorem Tile.setAcc_reports (t : Tile) (n : Nat) (x : Acc) : (t.setAcc n x).reports = t.reports := rfl

/-! The program counter of a context is moved. -/

@[simp] theorem Ctx.setPc_mode (c : Ctx) (a : Addr) : (c.setPc a).mode = c.mode := rfl
@[simp] theorem Ctx.setPc_role (c : Ctx) (a : Addr) : (c.setPc a).role = c.role := rfl
@[simp] theorem Ctx.setPc_task (c : Ctx) (a : Addr) : (c.setPc a).task = c.task := rfl
@[simp] theorem Ctx.setPc_actor (c : Ctx) (a : Addr) : (c.setPc a).actor = c.actor := rfl
@[simp] theorem Ctx.setPc_sweepSlot (c : Ctx) (a : Addr) : (c.setPc a).sweepSlot = c.sweepSlot := rfl
@[simp] theorem Ctx.setPc_team (c : Ctx) (a : Addr) : (c.setPc a).team = c.team := rfl
@[simp] theorem Ctx.setPc_regs (c : Ctx) (a : Addr) : (c.setPc a).regs = c.regs := rfl
@[simp] theorem Ctx.setPc_k (c : Ctx) (a : Addr) : (c.setPc a).k = c.k := rfl
@[simp] theorem Ctx.setPc_v (c : Ctx) (a : Addr) : (c.setPc a).v = c.v := rfl
@[simp] theorem Ctx.setPc_m (c : Ctx) (a : Addr) : (c.setPc a).m = c.m := rfl
@[simp] theorem Ctx.setPc_tags (c : Ctx) (a : Addr) : (c.setPc a).tags = c.tags := rfl
@[simp] theorem Ctx.setPc_fpc (c : Ctx) (a : Addr) : (c.setPc a).fpc = c.fpc := rfl
@[simp] theorem Ctx.setPc_vqw (c : Ctx) (a : Addr) : (c.setPc a).vqw = c.vqw := rfl
@[simp] theorem Ctx.setPc_loop0 (c : Ctx) (a : Addr) : (c.setPc a).loop0 = c.loop0 := rfl
@[simp] theorem Ctx.setPc_loop1 (c : Ctx) (a : Addr) : (c.setPc a).loop1 = c.loop1 := rfl
@[simp] theorem Ctx.setPc_rep (c : Ctx) (a : Addr) : (c.setPc a).rep = c.rep := rfl
@[simp] theorem Ctx.setPc_wins (c : Ctx) (a : Addr) : (c.setPc a).wins = c.wins := rfl
@[simp] theorem Ctx.setPc_winWords (c : Ctx) (a : Addr) : (c.setPc a).winWords = c.winWords := rfl
@[simp] theorem Ctx.setPc_donec (c : Ctx) (a : Addr) : (c.setPc a).donec = c.donec := rfl
@[simp] theorem Ctx.setPc_starts (c : Ctx) (a : Addr) : (c.setPc a).starts = c.starts := rfl
@[simp] theorem Ctx.setPc_fireK (c : Ctx) (a : Addr) : (c.setPc a).fireK = c.fireK := rfl
@[simp] theorem Ctx.setPc_startAt (c : Ctx) (a : Addr) : (c.setPc a).startAt = c.startAt := rfl
@[simp] theorem Ctx.setPc_cause (c : Ctx) (a : Addr) : (c.setPc a).cause = c.cause := rfl
@[simp] theorem Ctx.setPc_trappc (c : Ctx) (a : Addr) : (c.setPc a).trappc = c.trappc := rfl
@[simp] theorem Ctx.setPc_trapval (c : Ctx) (a : Addr) : (c.setPc a).trapval = c.trapval := rfl
@[simp] theorem Ctx.setPc_lates (c : Ctx) (a : Addr) : (c.setPc a).lates = c.lates := rfl
@[simp] theorem Ctx.setPc_vq (c : Ctx) (a : Addr) : (c.setPc a).vq = c.vq := rfl
@[simp] theorem Ctx.setPc_mxq (c : Ctx) (a : Addr) : (c.setPc a).mxq = c.mxq := rfl
@[simp] theorem Ctx.setPc_dmq (c : Ctx) (a : Addr) : (c.setPc a).dmq = c.dmq := rfl
@[simp] theorem Ctx.setPc_lcq (c : Ctx) (a : Addr) : (c.setPc a).lcq = c.lcq := rfl
@[simp] theorem Ctx.setPc_stale (c : Ctx) (a : Addr) : (c.setPc a).stale = c.stale := rfl
@[simp] theorem Ctx.setPc_stalled (c : Ctx) (a : Addr) : (c.setPc a).stalled = c.stalled := rfl
@[simp] theorem Ctx.setPc_halted (c : Ctx) (a : Addr) : (c.setPc a).halted = c.halted := rfl

/-! A register of a context is written. -/

@[simp] theorem Ctx.writeK_mode (c : Ctx) (r : BitVec 6) (x : KReg) : (c.writeK r x).mode = c.mode := by unfold Ctx.writeK; split <;> rfl
@[simp] theorem Ctx.writeK_role (c : Ctx) (r : BitVec 6) (x : KReg) : (c.writeK r x).role = c.role := by unfold Ctx.writeK; split <;> rfl
@[simp] theorem Ctx.writeK_task (c : Ctx) (r : BitVec 6) (x : KReg) : (c.writeK r x).task = c.task := by unfold Ctx.writeK; split <;> rfl
@[simp] theorem Ctx.writeK_actor (c : Ctx) (r : BitVec 6) (x : KReg) : (c.writeK r x).actor = c.actor := by unfold Ctx.writeK; split <;> rfl
@[simp] theorem Ctx.writeK_sweepSlot (c : Ctx) (r : BitVec 6) (x : KReg) : (c.writeK r x).sweepSlot = c.sweepSlot := by unfold Ctx.writeK; split <;> rfl
@[simp] theorem Ctx.writeK_team (c : Ctx) (r : BitVec 6) (x : KReg) : (c.writeK r x).team = c.team := by unfold Ctx.writeK; split <;> rfl
@[simp] theorem Ctx.writeK_regs (c : Ctx) (r : BitVec 6) (x : KReg) : (c.writeK r x).regs = c.regs := by unfold Ctx.writeK; split <;> rfl
@[simp] theorem Ctx.writeK_v (c : Ctx) (r : BitVec 6) (x : KReg) : (c.writeK r x).v = c.v := by unfold Ctx.writeK; split <;> rfl
@[simp] theorem Ctx.writeK_m (c : Ctx) (r : BitVec 6) (x : KReg) : (c.writeK r x).m = c.m := by unfold Ctx.writeK; split <;> rfl
@[simp] theorem Ctx.writeK_tags (c : Ctx) (r : BitVec 6) (x : KReg) : (c.writeK r x).tags = c.tags := by unfold Ctx.writeK; split <;> rfl
@[simp] theorem Ctx.writeK_fpc (c : Ctx) (r : BitVec 6) (x : KReg) : (c.writeK r x).fpc = c.fpc := by unfold Ctx.writeK; split <;> rfl
@[simp] theorem Ctx.writeK_vqw (c : Ctx) (r : BitVec 6) (x : KReg) : (c.writeK r x).vqw = c.vqw := by unfold Ctx.writeK; split <;> rfl
@[simp] theorem Ctx.writeK_pcc (c : Ctx) (r : BitVec 6) (x : KReg) : (c.writeK r x).pcc = c.pcc := by unfold Ctx.writeK; split <;> rfl
@[simp] theorem Ctx.writeK_loop0 (c : Ctx) (r : BitVec 6) (x : KReg) : (c.writeK r x).loop0 = c.loop0 := by unfold Ctx.writeK; split <;> rfl
@[simp] theorem Ctx.writeK_loop1 (c : Ctx) (r : BitVec 6) (x : KReg) : (c.writeK r x).loop1 = c.loop1 := by unfold Ctx.writeK; split <;> rfl
@[simp] theorem Ctx.writeK_rep (c : Ctx) (r : BitVec 6) (x : KReg) : (c.writeK r x).rep = c.rep := by unfold Ctx.writeK; split <;> rfl
@[simp] theorem Ctx.writeK_wins (c : Ctx) (r : BitVec 6) (x : KReg) : (c.writeK r x).wins = c.wins := by unfold Ctx.writeK; split <;> rfl
@[simp] theorem Ctx.writeK_winWords (c : Ctx) (r : BitVec 6) (x : KReg) : (c.writeK r x).winWords = c.winWords := by unfold Ctx.writeK; split <;> rfl
@[simp] theorem Ctx.writeK_donec (c : Ctx) (r : BitVec 6) (x : KReg) : (c.writeK r x).donec = c.donec := by unfold Ctx.writeK; split <;> rfl
@[simp] theorem Ctx.writeK_starts (c : Ctx) (r : BitVec 6) (x : KReg) : (c.writeK r x).starts = c.starts := by unfold Ctx.writeK; split <;> rfl
@[simp] theorem Ctx.writeK_fireK (c : Ctx) (r : BitVec 6) (x : KReg) : (c.writeK r x).fireK = c.fireK := by unfold Ctx.writeK; split <;> rfl
@[simp] theorem Ctx.writeK_startAt (c : Ctx) (r : BitVec 6) (x : KReg) : (c.writeK r x).startAt = c.startAt := by unfold Ctx.writeK; split <;> rfl
@[simp] theorem Ctx.writeK_cause (c : Ctx) (r : BitVec 6) (x : KReg) : (c.writeK r x).cause = c.cause := by unfold Ctx.writeK; split <;> rfl
@[simp] theorem Ctx.writeK_trappc (c : Ctx) (r : BitVec 6) (x : KReg) : (c.writeK r x).trappc = c.trappc := by unfold Ctx.writeK; split <;> rfl
@[simp] theorem Ctx.writeK_trapval (c : Ctx) (r : BitVec 6) (x : KReg) : (c.writeK r x).trapval = c.trapval := by unfold Ctx.writeK; split <;> rfl
@[simp] theorem Ctx.writeK_lates (c : Ctx) (r : BitVec 6) (x : KReg) : (c.writeK r x).lates = c.lates := by unfold Ctx.writeK; split <;> rfl
@[simp] theorem Ctx.writeK_vq (c : Ctx) (r : BitVec 6) (x : KReg) : (c.writeK r x).vq = c.vq := by unfold Ctx.writeK; split <;> rfl
@[simp] theorem Ctx.writeK_mxq (c : Ctx) (r : BitVec 6) (x : KReg) : (c.writeK r x).mxq = c.mxq := by unfold Ctx.writeK; split <;> rfl
@[simp] theorem Ctx.writeK_dmq (c : Ctx) (r : BitVec 6) (x : KReg) : (c.writeK r x).dmq = c.dmq := by unfold Ctx.writeK; split <;> rfl
@[simp] theorem Ctx.writeK_lcq (c : Ctx) (r : BitVec 6) (x : KReg) : (c.writeK r x).lcq = c.lcq := by unfold Ctx.writeK; split <;> rfl
@[simp] theorem Ctx.writeK_stale (c : Ctx) (r : BitVec 6) (x : KReg) : (c.writeK r x).stale = c.stale := by unfold Ctx.writeK; split <;> rfl
@[simp] theorem Ctx.writeK_stalled (c : Ctx) (r : BitVec 6) (x : KReg) : (c.writeK r x).stalled = c.stalled := by unfold Ctx.writeK; split <;> rfl
@[simp] theorem Ctx.writeK_halted (c : Ctx) (r : BitVec 6) (x : KReg) : (c.writeK r x).halted = c.halted := by unfold Ctx.writeK; split <;> rfl

@[simp] theorem Ctx.writeInt_mode (c : Ctx) (r : BitVec 6) (x : Word) : (c.writeInt r x).mode = c.mode := by simp [Ctx.writeInt]
@[simp] theorem Ctx.writeInt_role (c : Ctx) (r : BitVec 6) (x : Word) : (c.writeInt r x).role = c.role := by simp [Ctx.writeInt]
@[simp] theorem Ctx.writeInt_task (c : Ctx) (r : BitVec 6) (x : Word) : (c.writeInt r x).task = c.task := by simp [Ctx.writeInt]
@[simp] theorem Ctx.writeInt_actor (c : Ctx) (r : BitVec 6) (x : Word) : (c.writeInt r x).actor = c.actor := by simp [Ctx.writeInt]
@[simp] theorem Ctx.writeInt_sweepSlot (c : Ctx) (r : BitVec 6) (x : Word) : (c.writeInt r x).sweepSlot = c.sweepSlot := by simp [Ctx.writeInt]
@[simp] theorem Ctx.writeInt_team (c : Ctx) (r : BitVec 6) (x : Word) : (c.writeInt r x).team = c.team := by simp [Ctx.writeInt]
@[simp] theorem Ctx.writeInt_regs (c : Ctx) (r : BitVec 6) (x : Word) : (c.writeInt r x).regs = c.regs := by simp [Ctx.writeInt]
@[simp] theorem Ctx.writeInt_v (c : Ctx) (r : BitVec 6) (x : Word) : (c.writeInt r x).v = c.v := by simp [Ctx.writeInt]
@[simp] theorem Ctx.writeInt_m (c : Ctx) (r : BitVec 6) (x : Word) : (c.writeInt r x).m = c.m := by simp [Ctx.writeInt]
@[simp] theorem Ctx.writeInt_tags (c : Ctx) (r : BitVec 6) (x : Word) : (c.writeInt r x).tags = c.tags := by simp [Ctx.writeInt]
@[simp] theorem Ctx.writeInt_fpc (c : Ctx) (r : BitVec 6) (x : Word) : (c.writeInt r x).fpc = c.fpc := by simp [Ctx.writeInt]
@[simp] theorem Ctx.writeInt_vqw (c : Ctx) (r : BitVec 6) (x : Word) : (c.writeInt r x).vqw = c.vqw := by simp [Ctx.writeInt]
@[simp] theorem Ctx.writeInt_pcc (c : Ctx) (r : BitVec 6) (x : Word) : (c.writeInt r x).pcc = c.pcc := by simp [Ctx.writeInt]
@[simp] theorem Ctx.writeInt_loop0 (c : Ctx) (r : BitVec 6) (x : Word) : (c.writeInt r x).loop0 = c.loop0 := by simp [Ctx.writeInt]
@[simp] theorem Ctx.writeInt_loop1 (c : Ctx) (r : BitVec 6) (x : Word) : (c.writeInt r x).loop1 = c.loop1 := by simp [Ctx.writeInt]
@[simp] theorem Ctx.writeInt_rep (c : Ctx) (r : BitVec 6) (x : Word) : (c.writeInt r x).rep = c.rep := by simp [Ctx.writeInt]
@[simp] theorem Ctx.writeInt_wins (c : Ctx) (r : BitVec 6) (x : Word) : (c.writeInt r x).wins = c.wins := by simp [Ctx.writeInt]
@[simp] theorem Ctx.writeInt_winWords (c : Ctx) (r : BitVec 6) (x : Word) : (c.writeInt r x).winWords = c.winWords := by simp [Ctx.writeInt]
@[simp] theorem Ctx.writeInt_donec (c : Ctx) (r : BitVec 6) (x : Word) : (c.writeInt r x).donec = c.donec := by simp [Ctx.writeInt]
@[simp] theorem Ctx.writeInt_starts (c : Ctx) (r : BitVec 6) (x : Word) : (c.writeInt r x).starts = c.starts := by simp [Ctx.writeInt]
@[simp] theorem Ctx.writeInt_fireK (c : Ctx) (r : BitVec 6) (x : Word) : (c.writeInt r x).fireK = c.fireK := by simp [Ctx.writeInt]
@[simp] theorem Ctx.writeInt_startAt (c : Ctx) (r : BitVec 6) (x : Word) : (c.writeInt r x).startAt = c.startAt := by simp [Ctx.writeInt]
@[simp] theorem Ctx.writeInt_cause (c : Ctx) (r : BitVec 6) (x : Word) : (c.writeInt r x).cause = c.cause := by simp [Ctx.writeInt]
@[simp] theorem Ctx.writeInt_trappc (c : Ctx) (r : BitVec 6) (x : Word) : (c.writeInt r x).trappc = c.trappc := by simp [Ctx.writeInt]
@[simp] theorem Ctx.writeInt_trapval (c : Ctx) (r : BitVec 6) (x : Word) : (c.writeInt r x).trapval = c.trapval := by simp [Ctx.writeInt]
@[simp] theorem Ctx.writeInt_lates (c : Ctx) (r : BitVec 6) (x : Word) : (c.writeInt r x).lates = c.lates := by simp [Ctx.writeInt]
@[simp] theorem Ctx.writeInt_vq (c : Ctx) (r : BitVec 6) (x : Word) : (c.writeInt r x).vq = c.vq := by simp [Ctx.writeInt]
@[simp] theorem Ctx.writeInt_mxq (c : Ctx) (r : BitVec 6) (x : Word) : (c.writeInt r x).mxq = c.mxq := by simp [Ctx.writeInt]
@[simp] theorem Ctx.writeInt_dmq (c : Ctx) (r : BitVec 6) (x : Word) : (c.writeInt r x).dmq = c.dmq := by simp [Ctx.writeInt]
@[simp] theorem Ctx.writeInt_lcq (c : Ctx) (r : BitVec 6) (x : Word) : (c.writeInt r x).lcq = c.lcq := by simp [Ctx.writeInt]
@[simp] theorem Ctx.writeInt_stale (c : Ctx) (r : BitVec 6) (x : Word) : (c.writeInt r x).stale = c.stale := by simp [Ctx.writeInt]
@[simp] theorem Ctx.writeInt_stalled (c : Ctx) (r : BitVec 6) (x : Word) : (c.writeInt r x).stalled = c.stalled := by simp [Ctx.writeInt]
@[simp] theorem Ctx.writeInt_halted (c : Ctx) (r : BitVec 6) (x : Word) : (c.writeInt r x).halted = c.halted := by simp [Ctx.writeInt]

@[simp] theorem Ctx.writeM_mode (c : Ctx) (r : Nat) (x : BitVec 16) : (c.writeM r x).mode = c.mode := by unfold Ctx.writeM; split <;> rfl
@[simp] theorem Ctx.writeM_role (c : Ctx) (r : Nat) (x : BitVec 16) : (c.writeM r x).role = c.role := by unfold Ctx.writeM; split <;> rfl
@[simp] theorem Ctx.writeM_task (c : Ctx) (r : Nat) (x : BitVec 16) : (c.writeM r x).task = c.task := by unfold Ctx.writeM; split <;> rfl
@[simp] theorem Ctx.writeM_actor (c : Ctx) (r : Nat) (x : BitVec 16) : (c.writeM r x).actor = c.actor := by unfold Ctx.writeM; split <;> rfl
@[simp] theorem Ctx.writeM_sweepSlot (c : Ctx) (r : Nat) (x : BitVec 16) : (c.writeM r x).sweepSlot = c.sweepSlot := by unfold Ctx.writeM; split <;> rfl
@[simp] theorem Ctx.writeM_team (c : Ctx) (r : Nat) (x : BitVec 16) : (c.writeM r x).team = c.team := by unfold Ctx.writeM; split <;> rfl
@[simp] theorem Ctx.writeM_regs (c : Ctx) (r : Nat) (x : BitVec 16) : (c.writeM r x).regs = c.regs := by unfold Ctx.writeM; split <;> rfl
@[simp] theorem Ctx.writeM_k (c : Ctx) (r : Nat) (x : BitVec 16) : (c.writeM r x).k = c.k := by unfold Ctx.writeM; split <;> rfl
@[simp] theorem Ctx.writeM_v (c : Ctx) (r : Nat) (x : BitVec 16) : (c.writeM r x).v = c.v := by unfold Ctx.writeM; split <;> rfl
@[simp] theorem Ctx.writeM_tags (c : Ctx) (r : Nat) (x : BitVec 16) : (c.writeM r x).tags = c.tags := by unfold Ctx.writeM; split <;> rfl
@[simp] theorem Ctx.writeM_fpc (c : Ctx) (r : Nat) (x : BitVec 16) : (c.writeM r x).fpc = c.fpc := by unfold Ctx.writeM; split <;> rfl
@[simp] theorem Ctx.writeM_vqw (c : Ctx) (r : Nat) (x : BitVec 16) : (c.writeM r x).vqw = c.vqw := by unfold Ctx.writeM; split <;> rfl
@[simp] theorem Ctx.writeM_pcc (c : Ctx) (r : Nat) (x : BitVec 16) : (c.writeM r x).pcc = c.pcc := by unfold Ctx.writeM; split <;> rfl
@[simp] theorem Ctx.writeM_loop0 (c : Ctx) (r : Nat) (x : BitVec 16) : (c.writeM r x).loop0 = c.loop0 := by unfold Ctx.writeM; split <;> rfl
@[simp] theorem Ctx.writeM_loop1 (c : Ctx) (r : Nat) (x : BitVec 16) : (c.writeM r x).loop1 = c.loop1 := by unfold Ctx.writeM; split <;> rfl
@[simp] theorem Ctx.writeM_rep (c : Ctx) (r : Nat) (x : BitVec 16) : (c.writeM r x).rep = c.rep := by unfold Ctx.writeM; split <;> rfl
@[simp] theorem Ctx.writeM_wins (c : Ctx) (r : Nat) (x : BitVec 16) : (c.writeM r x).wins = c.wins := by unfold Ctx.writeM; split <;> rfl
@[simp] theorem Ctx.writeM_winWords (c : Ctx) (r : Nat) (x : BitVec 16) : (c.writeM r x).winWords = c.winWords := by unfold Ctx.writeM; split <;> rfl
@[simp] theorem Ctx.writeM_donec (c : Ctx) (r : Nat) (x : BitVec 16) : (c.writeM r x).donec = c.donec := by unfold Ctx.writeM; split <;> rfl
@[simp] theorem Ctx.writeM_starts (c : Ctx) (r : Nat) (x : BitVec 16) : (c.writeM r x).starts = c.starts := by unfold Ctx.writeM; split <;> rfl
@[simp] theorem Ctx.writeM_fireK (c : Ctx) (r : Nat) (x : BitVec 16) : (c.writeM r x).fireK = c.fireK := by unfold Ctx.writeM; split <;> rfl
@[simp] theorem Ctx.writeM_startAt (c : Ctx) (r : Nat) (x : BitVec 16) : (c.writeM r x).startAt = c.startAt := by unfold Ctx.writeM; split <;> rfl
@[simp] theorem Ctx.writeM_cause (c : Ctx) (r : Nat) (x : BitVec 16) : (c.writeM r x).cause = c.cause := by unfold Ctx.writeM; split <;> rfl
@[simp] theorem Ctx.writeM_trappc (c : Ctx) (r : Nat) (x : BitVec 16) : (c.writeM r x).trappc = c.trappc := by unfold Ctx.writeM; split <;> rfl
@[simp] theorem Ctx.writeM_trapval (c : Ctx) (r : Nat) (x : BitVec 16) : (c.writeM r x).trapval = c.trapval := by unfold Ctx.writeM; split <;> rfl
@[simp] theorem Ctx.writeM_lates (c : Ctx) (r : Nat) (x : BitVec 16) : (c.writeM r x).lates = c.lates := by unfold Ctx.writeM; split <;> rfl
@[simp] theorem Ctx.writeM_vq (c : Ctx) (r : Nat) (x : BitVec 16) : (c.writeM r x).vq = c.vq := by unfold Ctx.writeM; split <;> rfl
@[simp] theorem Ctx.writeM_mxq (c : Ctx) (r : Nat) (x : BitVec 16) : (c.writeM r x).mxq = c.mxq := by unfold Ctx.writeM; split <;> rfl
@[simp] theorem Ctx.writeM_dmq (c : Ctx) (r : Nat) (x : BitVec 16) : (c.writeM r x).dmq = c.dmq := by unfold Ctx.writeM; split <;> rfl
@[simp] theorem Ctx.writeM_lcq (c : Ctx) (r : Nat) (x : BitVec 16) : (c.writeM r x).lcq = c.lcq := by unfold Ctx.writeM; split <;> rfl
@[simp] theorem Ctx.writeM_stale (c : Ctx) (r : Nat) (x : BitVec 16) : (c.writeM r x).stale = c.stale := by unfold Ctx.writeM; split <;> rfl
@[simp] theorem Ctx.writeM_stalled (c : Ctx) (r : Nat) (x : BitVec 16) : (c.writeM r x).stalled = c.stalled := by unfold Ctx.writeM; split <;> rfl
@[simp] theorem Ctx.writeM_halted (c : Ctx) (r : Nat) (x : BitVec 16) : (c.writeM r x).halted = c.halted := by unfold Ctx.writeM; split <;> rfl

@[simp] theorem Ctx.writeV_mode (c : Ctx) (r : Nat) (x : Line) : (c.writeV r x).mode = c.mode := rfl
@[simp] theorem Ctx.writeV_role (c : Ctx) (r : Nat) (x : Line) : (c.writeV r x).role = c.role := rfl
@[simp] theorem Ctx.writeV_task (c : Ctx) (r : Nat) (x : Line) : (c.writeV r x).task = c.task := rfl
@[simp] theorem Ctx.writeV_actor (c : Ctx) (r : Nat) (x : Line) : (c.writeV r x).actor = c.actor := rfl
@[simp] theorem Ctx.writeV_sweepSlot (c : Ctx) (r : Nat) (x : Line) : (c.writeV r x).sweepSlot = c.sweepSlot := rfl
@[simp] theorem Ctx.writeV_team (c : Ctx) (r : Nat) (x : Line) : (c.writeV r x).team = c.team := rfl
@[simp] theorem Ctx.writeV_regs (c : Ctx) (r : Nat) (x : Line) : (c.writeV r x).regs = c.regs := rfl
@[simp] theorem Ctx.writeV_k (c : Ctx) (r : Nat) (x : Line) : (c.writeV r x).k = c.k := rfl
@[simp] theorem Ctx.writeV_m (c : Ctx) (r : Nat) (x : Line) : (c.writeV r x).m = c.m := rfl
@[simp] theorem Ctx.writeV_tags (c : Ctx) (r : Nat) (x : Line) : (c.writeV r x).tags = c.tags := rfl
@[simp] theorem Ctx.writeV_fpc (c : Ctx) (r : Nat) (x : Line) : (c.writeV r x).fpc = c.fpc := rfl
@[simp] theorem Ctx.writeV_vqw (c : Ctx) (r : Nat) (x : Line) : (c.writeV r x).vqw = c.vqw := rfl
@[simp] theorem Ctx.writeV_pcc (c : Ctx) (r : Nat) (x : Line) : (c.writeV r x).pcc = c.pcc := rfl
@[simp] theorem Ctx.writeV_loop0 (c : Ctx) (r : Nat) (x : Line) : (c.writeV r x).loop0 = c.loop0 := rfl
@[simp] theorem Ctx.writeV_loop1 (c : Ctx) (r : Nat) (x : Line) : (c.writeV r x).loop1 = c.loop1 := rfl
@[simp] theorem Ctx.writeV_rep (c : Ctx) (r : Nat) (x : Line) : (c.writeV r x).rep = c.rep := rfl
@[simp] theorem Ctx.writeV_wins (c : Ctx) (r : Nat) (x : Line) : (c.writeV r x).wins = c.wins := rfl
@[simp] theorem Ctx.writeV_winWords (c : Ctx) (r : Nat) (x : Line) : (c.writeV r x).winWords = c.winWords := rfl
@[simp] theorem Ctx.writeV_donec (c : Ctx) (r : Nat) (x : Line) : (c.writeV r x).donec = c.donec := rfl
@[simp] theorem Ctx.writeV_starts (c : Ctx) (r : Nat) (x : Line) : (c.writeV r x).starts = c.starts := rfl
@[simp] theorem Ctx.writeV_fireK (c : Ctx) (r : Nat) (x : Line) : (c.writeV r x).fireK = c.fireK := rfl
@[simp] theorem Ctx.writeV_startAt (c : Ctx) (r : Nat) (x : Line) : (c.writeV r x).startAt = c.startAt := rfl
@[simp] theorem Ctx.writeV_cause (c : Ctx) (r : Nat) (x : Line) : (c.writeV r x).cause = c.cause := rfl
@[simp] theorem Ctx.writeV_trappc (c : Ctx) (r : Nat) (x : Line) : (c.writeV r x).trappc = c.trappc := rfl
@[simp] theorem Ctx.writeV_trapval (c : Ctx) (r : Nat) (x : Line) : (c.writeV r x).trapval = c.trapval := rfl
@[simp] theorem Ctx.writeV_lates (c : Ctx) (r : Nat) (x : Line) : (c.writeV r x).lates = c.lates := rfl
@[simp] theorem Ctx.writeV_vq (c : Ctx) (r : Nat) (x : Line) : (c.writeV r x).vq = c.vq := rfl
@[simp] theorem Ctx.writeV_mxq (c : Ctx) (r : Nat) (x : Line) : (c.writeV r x).mxq = c.mxq := rfl
@[simp] theorem Ctx.writeV_dmq (c : Ctx) (r : Nat) (x : Line) : (c.writeV r x).dmq = c.dmq := rfl
@[simp] theorem Ctx.writeV_lcq (c : Ctx) (r : Nat) (x : Line) : (c.writeV r x).lcq = c.lcq := rfl
@[simp] theorem Ctx.writeV_stale (c : Ctx) (r : Nat) (x : Line) : (c.writeV r x).stale = c.stale := rfl
@[simp] theorem Ctx.writeV_stalled (c : Ctx) (r : Nat) (x : Line) : (c.writeV r x).stalled = c.stalled := rfl
@[simp] theorem Ctx.writeV_halted (c : Ctx) (r : Nat) (x : Line) : (c.writeV r x).halted = c.halted := rfl

/-- The register written reads as the value; k0 reads as zero (R66). -/
@[simp] theorem Ctx.readK_writeK (c : Ctx) (r : BitVec 6) (x : KReg) : (c.writeK r x).readK r = if r = 0 then KReg.zero else x := by
  unfold Ctx.writeK Ctx.readK; split <;> simp_all

/-- Every other register reads as before. -/
theorem Ctx.readK_writeK_other (c : Ctx) {r q : BitVec 6} (x : KReg) (h : r ≠ q) : (c.writeK r x).readK q = c.readK q := by
  have : r.toNat ≠ q.toNat := fun e => h (BitVec.eq_of_toNat_eq e)
  unfold Ctx.writeK Ctx.readK; split <;> (try rfl); split <;> simp [this]

@[simp] theorem Ctx.readK_zero (c : Ctx) : c.readK 0 = KReg.zero := by simp [Ctx.readK]

@[simp] theorem Ctx.readV_writeV (c : Ctx) (r : Nat) (x : Line) : (c.writeV r x).readV r = x := by simp [Ctx.readV, Ctx.writeV]
@[simp] theorem Ctx.readV_writeV_other (c : Ctx) {r q : Nat} (x : Line) (h : r ≠ q) : (c.writeV r x).readV q = c.readV q := by
  simp [Ctx.readV, Ctx.writeV, h]

/-- The mask register written reads as the value; m0 reads as all ones (R66). -/
@[simp] theorem Ctx.readM_writeM (c : Ctx) (r : Nat) (x : BitVec 16) : (c.writeM r x).readM r = if r = 0 then 0xFFFF else x := by
  unfold Ctx.writeM Ctx.readM; split <;> simp_all

theorem Ctx.readM_writeM_other (c : Ctx) {r q : Nat} (x : BitVec 16) (h : r ≠ q) : (c.writeM r x).readM q = c.readM q := by
  unfold Ctx.writeM Ctx.readM; split <;> (try rfl); split <;> simp [h]

/-- Reset lists no byte of memory, which is the canonical form. -/
theorem State.reset_gmem_wf : Memory.wf State.reset.gmem = true := rfl

end Sys2Proof.Machine
end

