-- ==== Sys2Proof/Laws/Gmem.lean ====
section
/-!
SUPPORT. Global memory keeps its canonical form: one lemma per operation on the state, first those that leave global memory as it
is, then those that write it, then what an attempt and an outcome come to.
-/

namespace Sys2Proof.Machine

/-- Every next state of an outcome has global memory in its canonical form. -/
def gKept (o : Out) : Prop :=
  match o with
  | .next t => Memory.wf t.gmem = true
  | _ => True

/-- What an attempt comes to: a result that Q accepts, or a state in which global memory is canonical. -/
def gRun {α : Type} (Q : α → Prop) (x : Try α) : Prop :=
  match x with
  | .ok a => Q a
  | .error (.become t) => Memory.wf t.gmem = true
  | .error _ => True

abbrev gTry (x : Try State) : Prop := gRun (fun t => Memory.wf t.gmem = true) x

@[simp] theorem gKept_next (t : State) : gKept (.next t) ↔ Memory.wf t.gmem = true := Iff.rfl
@[simp] theorem gKept_fault (f : Fault) : gKept (.fault f) := trivial
@[simp] theorem gKept_refused (r : Refusal) : gKept (.refused r) := trivial
@[simp] theorem gRun_ok {α : Type} (Q : α → Prop) (a : α) : gRun Q (.ok a) ↔ Q a := Iff.rfl
@[simp] theorem gRun_pure {α : Type} (Q : α → Prop) (a : α) : gRun Q (pure a) ↔ Q a := Iff.rfl
@[simp] theorem gRun_trap {α : Type} (Q : α → Prop) (c : Byte) (v : Word) : gRun Q (.error (.trap c v)) := trivial
@[simp] theorem gRun_trapAt {α : Type} (Q : α → Prop) (c : Byte) (v : Word) (p : Addr) : gRun Q (.error (.trapAt c v p)) := trivial
@[simp] theorem gRun_stall {α : Type} (Q : α → Prop) : gRun Q (.error .stall) := trivial
@[simp] theorem gRun_page {α : Type} (Q : α → Prop) (a : Addr) : gRun Q (.error (.page a)) := trivial
@[simp] theorem gRun_become {α : Type} (Q : α → Prop) (t : State) : gRun Q (.error (.become t)) ↔ Memory.wf t.gmem = true := Iff.rfl

@[simp] theorem gRun_bind {α β : Type} (Q : β → Prop) (x : Try α) (f : α → Try β) :
    gRun Q (x >>= f) ↔ gRun (fun a => gRun Q (f a)) x := by
  cases x with
  | ok a => exact Iff.rfl
  | error e => cases e <;> exact Iff.rfl

@[simp] theorem gRun_map {α β : Type} (Q : β → Prop) (x : Try α) (f : α → β) : gRun Q (f <$> x) ↔ gRun (fun a => Q (f a)) x := by
  cases x with
  | ok a => exact Iff.rfl
  | error e => cases e <;> exact Iff.rfl

/-- A weaker demand on the result of an attempt. -/
theorem gRun_mono {α : Type} {P Q : α → Prop} {x : Try α} (h : gRun P x) (hpq : ∀ a, P a → Q a) : gRun Q x := by
  cases x with
  | ok a => exact hpq a h
  | error e => cases e <;> exact h

/-- An attempt that answers no state of its own. -/
def quiet {α : Type} (x : Try α) : Prop := ∀ t, x ≠ .error (.become t)

theorem gRun_of_quiet {α : Type} {Q : α → Prop} {x : Try α} (hx : quiet x) : gRun Q x ↔ ∀ a, x = .ok a → Q a := by
  cases x with
  | ok a => simp
  | error e => cases e <;> first | (simp; done) | exact absurd rfl (hx _)

@[simp] theorem quiet_ok {α : Type} (a : α) : quiet (.ok a : Try α) := fun _ h => by cases h
@[simp] theorem quiet_pure {α : Type} (a : α) : quiet (pure a : Try α) := fun _ h => by cases h
@[simp] theorem quiet_trap {α : Type} (c : Byte) (v : Word) : quiet (.error (.trap c v) : Try α) := fun _ h => by cases h
@[simp] theorem quiet_stall {α : Type} : quiet (.error .stall : Try α) := fun _ h => by cases h
@[simp] theorem quiet_page {α : Type} (a : Addr) : quiet (.error (.page a) : Try α) := fun _ h => by cases h

@[simp] theorem quiet_bind {α β : Type} {x : Try α} {f : α → Try β} (hx : quiet x) (hf : ∀ a, quiet (f a)) : quiet (x >>= f) := by
  cases x with
  | ok a => exact hf a
  | error e => intro t h; cases e <;> first | (cases h; exact hx _ rfl) | cases h

@[simp] theorem quiet_map {α β : Type} {x : Try α} {f : α → β} (hx : quiet x) : quiet (f <$> x) := by
  cases x with
  | ok a => intro t h; cases h
  | error e => intro t h; cases e <;> first | (cases h; exact hx _ rfl) | cases h

@[simp] theorem quiet_trapIf (b : Bool) (c : Byte) (v : Word) : quiet (trapIf b c v) := by cases b <;> simp [trapIf]
@[simp] theorem quiet_stallIf (b : Bool) : quiet (stallIf b) := by cases b <;> simp [stallIf]
@[simp] theorem quiet_orTrap (f : Option Failure) : quiet (orTrap f) := by cases f <;> simp [orTrap]
@[simp] theorem quiet_rangeCheck (c : Ctx) (l : List (BitVec 6)) : quiet (rangeCheck c l) := by unfold rangeCheck; split <;> simp
@[simp] theorem quiet_guardK (s : State) (l m n : List (BitVec 6)) : quiet (guardK s l m n) := by
  have hr := quiet_rangeCheck s.me l
  unfold guardK
  split
  · rename_i e; intro t h; cases h; exact hr t e
  · simp
@[simp] theorem quiet_notInRep (s : State) (i : Instr) : quiet (notInRep s i) := by simp [notInRep]
@[simp] theorem quiet_tlmReady (s : State) : quiet (tlmReady s) := by simp [tlmReady]

@[simp] theorem gRun_trapIf (Q : Unit → Prop) (b : Bool) (c : Byte) (v : Word) : gRun Q (trapIf b c v) ↔ (b = false → Q ()) := by
  cases b <;> simp [trapIf]
@[simp] theorem gRun_stallIf (Q : Unit → Prop) (b : Bool) : gRun Q (stallIf b) ↔ (b = false → Q ()) := by
  cases b <;> simp [stallIf]
@[simp] theorem gRun_orTrap (Q : Unit → Prop) (f : Option Failure) : gRun Q (orTrap f) ↔ (f = none → Q ()) := by
  cases f <;> simp [orTrap]
@[simp] theorem gRun_rangeCheck (Q : Unit → Prop) (c : Ctx) (l : List (BitVec 6)) :
    gRun Q (rangeCheck c l) ↔ ∀ u, rangeCheck c l = .ok u → Q u := gRun_of_quiet (by simp)
@[simp] theorem gRun_guardK (Q : Unit → Prop) (s : State) (l m n : List (BitVec 6)) :
    gRun Q (guardK s l m n) ↔ ∀ u, guardK s l m n = .ok u → Q u := gRun_of_quiet (by simp)
@[simp] theorem gRun_notInRep (Q : Unit → Prop) (s : State) (i : Instr) : gRun Q (notInRep s i) ↔ (s.me.inRep = false → Q ()) := by
  simp [notInRep]
@[simp] theorem gRun_tlmReady (Q : Unit → Prop) (s : State) : gRun Q (tlmReady s) ↔ ∀ u, tlmReady s = .ok u → Q u :=
  gRun_of_quiet (by simp)

@[simp] theorem State.gmem_ite (c : Prop) [Decidable c] (a b : State) : (if c then a else b).gmem = if c then a.gmem else b.gmem := by
  split <;> rfl

theorem State.ite_wf {c : Prop} [Decidable c] {a b : State} (ha : Memory.wf a.gmem = true) (hb : Memory.wf b.gmem = true) :
    Memory.wf (if c then a else b).gmem = true := by
  split <;> assumption

/-- A fold of operations that leave global memory alone leaves it alone. -/
@[simp] theorem foldl_gmem {α : Type} (f : State → α → State) (l : List α) (s : State) (hf : ∀ s a, (f s a).gmem = s.gmem) :
    (l.foldl f s).gmem = s.gmem := by
  induction l generalizing s with
  | nil => rfl
  | cons a l ih => rw [List.foldl_cons, ih, hf]

/-- A fold of operations that keep global memory canonical keeps it so. -/
theorem foldl_wf {α : Type} (f : State → α → State) (l : List α) (s : State) (h : Memory.wf s.gmem = true)
    (hf : ∀ s a, Memory.wf s.gmem = true → Memory.wf (f s a).gmem = true) : Memory.wf (l.foldl f s).gmem = true := by
  induction l generalizing s with
  | nil => exact h
  | cons a l ih => exact ih _ (hf _ _ h)

/-! Mem. -/

@[simp] theorem State.gWrite_wf (s : State) (a : Nat) (bs : List Byte) (hg : Memory.wf s.gmem = true) : Memory.wf (State.gWrite s a bs).gmem = true := Memory.writeBytes_wf _ _ hg

@[simp] theorem State.gPoison_gmem (s : State) (a n : Nat) : (State.gPoison s a n).gmem = s.gmem := rfl

@[simp] theorem State.gWriteLine_wf (s : State) (a : Nat) (x : Line) (poisoned : Bool) (hg : Memory.wf s.gmem = true) : Memory.wf (State.gWriteLine s a x poisoned).gmem = true := by simp [State.gWriteLine, hg]

/-! ChanOps. -/

@[simp] theorem State.moved_gmem (s : State) (h : Nat) : (State.moved s h).gmem = s.gmem := by unfold State.moved; split <;> simp

@[simp] theorem State.countOpErr_gmem (s : State) (h : Nat) : (State.countOpErr s h).gmem = s.gmem := rfl

@[simp] theorem State.countEcc_gmem (s : State) (h corr uncorr : Nat) : (State.countEcc s h corr uncorr).gmem = s.gmem := by simp [State.countEcc]

@[simp] theorem State.hbmRead_gmem (s : State) (h a n : Nat) : (State.hbmRead s h a n).gmem = s.gmem := by simp [State.hbmRead]

@[simp] theorem injectOrdered_gmem (s : State) (tile port : Nat) (k : TokKind) (payload : Line) (status : BitVec 16) : (injectOrdered s tile port k payload status).gmem = s.gmem := rfl

@[simp] theorem State.book_gmem (s : State) (tile p : Nat) (x : Option (TokKind × Line × BitVec 16)) : (State.book s tile p x).gmem = s.gmem := rfl

@[simp] theorem State.injectBooked_gmem (tile p n : Nat) (s : State) : (State.injectBooked tile p n s).gmem = s.gmem := by
  induction n generalizing s with
  | zero => rfl
  | succ n ih => rw [State.injectBooked]; split <;> simp [ih]

@[simp] theorem State.sendBooked_gmem (s : State) (tile p : Nat) : (State.sendBooked s tile p).gmem = s.gmem := State.injectBooked_gmem ..

@[simp] theorem State.fillBooked_gmem (s : State) (tile p seq : Nat) (k : TokKind) (payload : Line) : (State.fillBooked s tile p seq k payload).gmem = s.gmem := by simp [State.fillBooked]

@[simp] theorem State.putPort_gmem (s : State) (tile p : Nat) (k : TokKind) (payload : Line) (status : BitVec 16) (after : List (Nat × Nat)) : (State.putPort s tile p k payload status after).gmem = s.gmem := by
  unfold State.putPort; dsimp only; (repeat' split) <;> simp

@[simp] theorem State.reservePort_gmem (s : State) (tile p : Nat) : (s.reservePort tile p).1.gmem = s.gmem := by
  unfold State.reservePort; dsimp only; split
  · simp
  · split
    · rfl
    · split <;> simp

@[simp] theorem State.fillPort_gmem (s : State) (tile p seq : Nat) (k : TokKind) (payload : Line) : (State.fillPort s tile p seq k payload).gmem = s.gmem := by
  unfold State.fillPort; dsimp only; (repeat' split) <;> simp

@[simp] theorem State.sendCompletion_gmem (s : State) (tile actor : Nat) (tag : BitVec 6) : (State.sendCompletion s tile actor tag).gmem = s.gmem := by unfold State.sendCompletion; split <;> simp

@[simp] theorem State.freeSlots_gmem (s : State) (chan branch n : Nat) : (State.freeSlots s chan branch n).gmem = s.gmem := by
  unfold State.freeSlots; (repeat' split) <;> simp

@[simp] theorem State.faultToken_gmem (s : State) (h : Nat) (w : Word) : (State.faultToken s h w).gmem = s.gmem := by simp [State.faultToken]

/-! VecUnit. -/

@[simp] theorem vecRetire_gmem (s : State) (tile n : Nat) : (vecRetire s tile n).gmem = s.gmem := by
  unfold vecRetire; dsimp only; (repeat' split) <;> simp

@[simp] theorem vecFinish_gmem (s : State) (tile n : Nat) : (vecFinish s tile n).gmem = s.gmem := by simp [vecFinish]

@[simp] theorem vecAdvance_gmem (s : State) (tile n : Nat) : (vecAdvance s tile n).gmem = s.gmem := by simp [vecAdvance]

@[simp] theorem vecFinishN_gmem (s : State) (tile c n : Nat) : (vecFinishN s tile c n).gmem = s.gmem := by
  induction n generalizing s with
  | zero => rfl
  | succ n ih => rw [vecFinishN, ih, vecFinish_gmem]

@[simp] theorem vecDrain_gmem (s : State) (tile n : Nat) : (vecDrain s tile n).gmem = s.gmem := by
  unfold vecDrain; dsimp only; split <;> simp

/-! Ops. -/

@[simp] theorem State.complete_gmem (s : State) (len : Nat) : (State.complete s len).gmem = s.gmem := rfl

@[simp] theorem State.completeJump_gmem (s : State) (target : Addr) : (State.completeJump s target).gmem = s.gmem := rfl

@[simp] theorem State.stallMe_gmem (s : State) : (State.stallMe s).gmem = s.gmem := rfl

@[simp] theorem State.recordTrap_gmem (s : State) (tile ctx : Nat) (code : Byte) (pc val : Word) : (State.recordTrap s tile ctx code pc val).gmem = s.gmem := by
  unfold State.recordTrap; dsimp only; split <;> simp

@[simp] theorem State.noteTrap_gmem (s : State) (tile ctx : Nat) (code : Byte) (pc val : Word) : (State.noteTrap s tile ctx code pc val).gmem = s.gmem := by simp [State.noteTrap]

@[simp] theorem helperTrap_gmem (s : State) (tile ctx : Nat) (code : Byte) (val : Word) (pc : Addr) (late : Bool) : (helperTrap s tile ctx code val pc late).gmem = s.gmem := by simp [helperTrap]

@[simp] theorem monitorTrap_gmem (s : State) (tile : Nat) (code : Byte) (val : Word) (pc : Addr) (late : Bool) : (monitorTrap s tile code val pc late).gmem = s.gmem := by simp [monitorTrap]

@[simp] theorem trapInto_gmem (s : State) (tile ctx : Nat) (code : Byte) (val : Word) (pc : Addr) (late : Bool) : (trapInto s tile ctx code val pc late).gmem = s.gmem := by simp [trapInto]

theorem takeLate_gmem {s s1 : State} {tile ctx : Nat} (h : takeLate s tile ctx = some s1) : s1.gmem = s.gmem := by
  unfold takeLate at h; dsimp only at h; split at h
  · cases h
  · cases h; simp

theorem lateTaken_gmem {s s1 : State} {tile ctx : Nat} (h : lateTaken s tile ctx = some s1) : s1.gmem = s.gmem := by
  unfold lateTaken at h; split at h
  · rw [takeLate_gmem h]; simp
  · cases h

@[simp] theorem raiseTrap_gmem (s : State) (code : Byte) (val : Word) (pc : Addr) : (raiseTrap s code val pc).gmem = s.gmem := by
  unfold raiseTrap; dsimp only; split
  · rename_i e; rw [takeLate_gmem e]; simp
  · simp

@[simp] theorem pageWait_gmem (s : State) (va : Addr) : (pageWait s va).gmem = s.gmem := by
  unfold pageWait; split
  · simp
  · dsimp only; split
    · rename_i e; rw [takeLate_gmem e]; simp
    · simp

/-- What follows an attempt keeps what the attempt keeps. -/
theorem gRun_finish {s : State} {r : Try State} (h : Memory.wf s.gmem = true) (hr : gTry r) : gKept (finishTry s r) := by
  unfold finishTry
  cases r with
  | ok t => exact hr
  | error e => cases e <;> first | exact hr | simp [h]

theorem earlyClose_ok {s : State} {w : Win} {p : _} (h : earlyClose s w = .ok p) : p.gmem = s.gmem := by
  unfold earlyClose at h; split at h
  · cases h
  · dsimp only at h; split at h <;> cases h; simp

theorem earlyClose_become {s : State} {w : Win} {t : State} (h : earlyClose s w = .error (.become t)) : t.gmem = s.gmem := by
  unfold earlyClose at h; split at h
  · cases h
  · dsimp only at h; split at h <;> cases h; rename_i e; rw [lateTaken_gmem e]; simp

@[simp] theorem gRun_earlyClose {Q : _ → Prop} {s : State} {w : Win} (h : Memory.wf s.gmem = true) :
    gRun Q (earlyClose s w) ↔ ∀ p, earlyClose s w = .ok p → p.gmem = s.gmem → Q p := by
  rcases e : earlyClose s w with (_ | _ | _ | _ | t) | p
  · simp
  · simp
  · simp
  · simp
  · simpa [earlyClose_become e] using h
  · have := earlyClose_ok e
    simp [this]

theorem prepWin_run (s : State) (la : BitVec 4) (cls : RegClass) (dest : BitVec 6) (h : Memory.wf s.gmem = true) :
    gRun (fun t => Memory.wf t.gmem = true) (prepWin s la cls dest) := by
  have last : ∀ a : State, Memory.wf a.gmem = true → gRun (fun t => Memory.wf t.gmem = true)
      (if a.me.wins.length < 4 then (pure a : Try State) else match oldestWin a.me.wins with
        | some w => earlyClose a w
        | none => pure a) := by
    intro a ha
    split
    · simpa using ha
    · split
      · rw [gRun_earlyClose ha]; intro p _ e; rw [e]; exact ha
      · simpa using ha
  unfold prepWin
  split
  · simpa using h
  · dsimp only
    split
    · rw [gRun_bind, gRun_earlyClose h]; intro p _ e; exact last p (by rw [e]; exact h)
    · exact last s h

theorem issueLong_kept (s : State) (fields : List (BitVec 6)) (la : BitVec 4) (cls : RegClass) (dest : BitVec 6)
    (body : State → Try State) (hg : Memory.wf s.gmem = true) (hb : ∀ s1, Memory.wf s1.gmem = true → gTry (body s1)) :
    gKept (issueLong s fields la cls dest body) := by
  unfold issueLong; split
  · rename_i e; refine gRun_finish hg ?_
    have := quiet_rangeCheck s.me fields
    rename_i x; cases x <;> first | trivial | exact absurd e (this _)
  · have hp := prepWin_run s la cls dest hg
    split
    · rename_i e; rw [e] at hp; exact gRun_finish hg (by rename_i x _; cases x <;> first | trivial | exact hp)
    · rename_i e; rw [e] at hp; exact gRun_finish hp (hb _ hp)

theorem claimTag_ok {s : State} {tag : BitVec 6} {p : _} (h : claimTag s tag = .ok p) : p.gmem = s.gmem := by
  unfold claimTag at h; split at h <;> cases h; simp

theorem claimTag_become {s : State} {tag : BitVec 6} {t : State} (h : claimTag s tag = .error (.become t)) : t.gmem = s.gmem := by
  unfold claimTag at h; split at h <;> cases h

@[simp] theorem gRun_claimTag {Q : _ → Prop} {s : State} {tag : BitVec 6} (h : Memory.wf s.gmem = true) :
    gRun Q (claimTag s tag) ↔ ∀ p, claimTag s tag = .ok p → p.gmem = s.gmem → Q p := by
  rcases e : claimTag s tag with (_ | _ | _ | _ | t) | p
  · simp
  · simp
  · simp
  · simp
  · simpa [claimTag_become e] using h
  · have := claimTag_ok e
    simp [this]

@[simp] theorem countPut_gmem (s : State) (p : Nat) : (countPut s p).gmem = s.gmem := by
  unfold countPut; dsimp only; split <;> simp

theorem claimToken_ok {s : State} {tok : Bool} {p : _} (h : claimToken s tok = .ok p) : p.gmem = s.gmem := by
  unfold claimToken at h; split at h
  · cases h; rfl
  · split at h
    · cases h
    · split at h
      · cases h
      · split at h <;> cases h; simp

theorem claimToken_become {s : State} {tok : Bool} {t : State} (h : claimToken s tok = .error (.become t)) : t.gmem = s.gmem := by
  unfold claimToken at h; split at h
  · cases h
  · split at h
    · cases h
    · split at h
      · cases h
      · split at h <;> cases h

@[simp] theorem gRun_claimToken {Q : _ → Prop} {s : State} {tok : Bool} (h : Memory.wf s.gmem = true) :
    gRun Q (claimToken s tok) ↔ ∀ p, claimToken s tok = .ok p → p.gmem = s.gmem → Q p := by
  rcases e : claimToken s tok with (_ | _ | _ | _ | t) | p
  · simp
  · simp
  · simp
  · simp
  · simpa [claimToken_become e] using h
  · have := claimToken_ok e
    simp [this]

@[simp] theorem State.opDone_gmem (s : State) (tile task actor : Nat) (tag : BitVec 6) (tok : Bool) : (State.opDone s tile task actor tag tok).gmem = s.gmem := by simp [State.opDone]

/-! SysRegs. -/

@[simp] theorem haltHelper_gmem (s : State) (tile n : Nat) : (haltHelper s tile n).gmem = s.gmem := by
  unfold haltHelper; dsimp only; split
  · split
    · rename_i e; rw [takeLate_gmem e]; simp
    · simp
  · rfl

@[simp] theorem preemptHalt_gmem (s : State) (tile : Nat) : (preemptHalt s tile).gmem = s.gmem := by
  unfold preemptHalt; dsimp only; split
  · rfl
  · rw [foldl_gmem _ _ _ fun s n => by simp]; simp

@[simp] theorem haltHeld_gmem (s : State) (tile n : Nat) : (haltHeld s tile n).gmem = s.gmem := by simp [haltHeld]

@[simp] theorem wdogWrite_gmem (s : State) (tile : Nat) (v : Word) : (wdogWrite s tile v).gmem = s.gmem := by simp [wdogWrite]

theorem sysWrite_gmem {s s1 : State} {n : Nat} {v : Word} (h : sysWrite s n v = some s1) : s1.gmem = s.gmem := by
  unfold sysWrite at h; dsimp only at h
  split at h <;> (repeat' split at h) <;> cases h <;> simp

/-! Scalar. -/

@[simp] theorem State.writeInt_gmem (s : State) (d : BitVec 6) (v : Word) : (State.writeInt s d v).gmem = s.gmem := rfl

theorem intOp_kept (f : K3) (s : State) (g : Word → Word → Word) (hg : Memory.wf s.gmem = true) : gKept (intOp f s g) := by
  unfold intOp; exact gRun_finish hg (by simp [hg])

theorem intOp1_kept (f : K3) (s : State) (g : Word → Word) (hg : Memory.wf s.gmem = true) : gKept (intOp1 f s g) := by
  unfold intOp1; exact gRun_finish hg (by simp [hg])

theorem immOp_kept (f : KI) (s : State) (g : Word → Word → Word) (hg : Memory.wf s.gmem = true) : gKept (immOp f s g) := by
  unfold immOp; exact gRun_finish hg (by simp [hg])

theorem execAdd_kept (f : K3) (s : State) (hg : Memory.wf s.gmem = true) : gKept (execAdd f s) := by
  unfold execAdd; apply intOp_kept; exact hg

theorem execSub_kept (f : K3) (s : State) (hg : Memory.wf s.gmem = true) : gKept (execSub f s) := by
  unfold execSub; apply intOp_kept; exact hg

theorem execMul_kept (f : K3) (s : State) (hg : Memory.wf s.gmem = true) : gKept (execMul f s) := by
  unfold execMul; apply intOp_kept; exact hg

theorem execMulh_kept (f : K3) (s : State) (hg : Memory.wf s.gmem = true) : gKept (execMulh f s) := by
  unfold execMulh; apply intOp_kept; exact hg

theorem execMulhu_kept (f : K3) (s : State) (hg : Memory.wf s.gmem = true) : gKept (execMulhu f s) := by
  unfold execMulhu; apply intOp_kept; exact hg

theorem execDiv_kept (f : K3) (s : State) (hg : Memory.wf s.gmem = true) : gKept (execDiv f s) := by
  unfold execDiv; apply intOp_kept; exact hg

theorem execDivu_kept (f : K3) (s : State) (hg : Memory.wf s.gmem = true) : gKept (execDivu f s) := by
  unfold execDivu; apply intOp_kept; exact hg

theorem execRem_kept (f : K3) (s : State) (hg : Memory.wf s.gmem = true) : gKept (execRem f s) := by
  unfold execRem; apply intOp_kept; exact hg

theorem execRemu_kept (f : K3) (s : State) (hg : Memory.wf s.gmem = true) : gKept (execRemu f s) := by
  unfold execRemu; apply intOp_kept; exact hg

theorem execAndR_kept (f : K3) (s : State) (hg : Memory.wf s.gmem = true) : gKept (execAndR f s) := by
  unfold execAndR; apply intOp_kept; exact hg

theorem execOrR_kept (f : K3) (s : State) (hg : Memory.wf s.gmem = true) : gKept (execOrR f s) := by
  unfold execOrR; apply intOp_kept; exact hg

theorem execXorR_kept (f : K3) (s : State) (hg : Memory.wf s.gmem = true) : gKept (execXorR f s) := by
  unfold execXorR; apply intOp_kept; exact hg

theorem execAndn_kept (f : K3) (s : State) (hg : Memory.wf s.gmem = true) : gKept (execAndn f s) := by
  unfold execAndn; apply intOp_kept; exact hg

theorem execOrn_kept (f : K3) (s : State) (hg : Memory.wf s.gmem = true) : gKept (execOrn f s) := by
  unfold execOrn; apply intOp_kept; exact hg

theorem execShl_kept (f : K3) (s : State) (hg : Memory.wf s.gmem = true) : gKept (execShl f s) := by
  unfold execShl; apply intOp_kept; exact hg

theorem execShr_kept (f : K3) (s : State) (hg : Memory.wf s.gmem = true) : gKept (execShr f s) := by
  unfold execShr; apply intOp_kept; exact hg

theorem execSra_kept (f : K3) (s : State) (hg : Memory.wf s.gmem = true) : gKept (execSra f s) := by
  unfold execSra; apply intOp_kept; exact hg

theorem execRor_kept (f : K3) (s : State) (hg : Memory.wf s.gmem = true) : gKept (execRor f s) := by
  unfold execRor; apply intOp_kept; exact hg

theorem execMinR_kept (f : K3) (s : State) (hg : Memory.wf s.gmem = true) : gKept (execMinR f s) := by
  unfold execMinR; apply intOp_kept; exact hg

theorem execMaxR_kept (f : K3) (s : State) (hg : Memory.wf s.gmem = true) : gKept (execMaxR f s) := by
  unfold execMaxR; apply intOp_kept; exact hg

theorem execMinu_kept (f : K3) (s : State) (hg : Memory.wf s.gmem = true) : gKept (execMinu f s) := by
  unfold execMinu; apply intOp_kept; exact hg

theorem execMaxu_kept (f : K3) (s : State) (hg : Memory.wf s.gmem = true) : gKept (execMaxu f s) := by
  unfold execMaxu; apply intOp_kept; exact hg

theorem execSlt_kept (f : K3) (s : State) (hg : Memory.wf s.gmem = true) : gKept (execSlt f s) := by
  unfold execSlt; apply intOp_kept; exact hg

theorem execSltu_kept (f : K3) (s : State) (hg : Memory.wf s.gmem = true) : gKept (execSltu f s) := by
  unfold execSltu; apply intOp_kept; exact hg

theorem execSeq_kept (f : K3) (s : State) (hg : Memory.wf s.gmem = true) : gKept (execSeq f s) := by
  unfold execSeq; apply intOp_kept; exact hg

theorem execSne_kept (f : K3) (s : State) (hg : Memory.wf s.gmem = true) : gKept (execSne f s) := by
  unfold execSne; apply intOp_kept; exact hg

theorem execClz_kept (f : K3) (s : State) (hg : Memory.wf s.gmem = true) : gKept (execClz f s) := by
  unfold execClz; apply intOp1_kept; exact hg

theorem execCtz_kept (f : K3) (s : State) (hg : Memory.wf s.gmem = true) : gKept (execCtz f s) := by
  unfold execCtz; apply intOp1_kept; exact hg

theorem execPopc_kept (f : K3) (s : State) (hg : Memory.wf s.gmem = true) : gKept (execPopc f s) := by
  unfold execPopc; apply intOp1_kept; exact hg

theorem execAddw_kept (f : K3) (s : State) (hg : Memory.wf s.gmem = true) : gKept (execAddw f s) := by
  unfold execAddw; apply intOp_kept; exact hg

theorem execSubw_kept (f : K3) (s : State) (hg : Memory.wf s.gmem = true) : gKept (execSubw f s) := by
  unfold execSubw; apply intOp_kept; exact hg

theorem execMulw_kept (f : K3) (s : State) (hg : Memory.wf s.gmem = true) : gKept (execMulw f s) := by
  unfold execMulw; apply intOp_kept; exact hg

theorem execSext_kept (f : K3) (s : State) (hg : Memory.wf s.gmem = true) : gKept (execSext f s) := by
  unfold execSext; apply intOp1_kept; exact hg

theorem execZext_kept (f : K3) (s : State) (hg : Memory.wf s.gmem = true) : gKept (execZext f s) := by
  unfold execZext; apply intOp1_kept; exact hg

theorem execAddi_kept (f : KI) (s : State) (hg : Memory.wf s.gmem = true) : gKept (execAddi f s) := by
  unfold execAddi; apply immOp_kept; exact hg

theorem execAndi_kept (f : KI) (s : State) (hg : Memory.wf s.gmem = true) : gKept (execAndi f s) := by
  unfold execAndi; apply immOp_kept; exact hg

theorem execOri_kept (f : KI) (s : State) (hg : Memory.wf s.gmem = true) : gKept (execOri f s) := by
  unfold execOri; apply immOp_kept; exact hg

theorem execXori_kept (f : KI) (s : State) (hg : Memory.wf s.gmem = true) : gKept (execXori f s) := by
  unfold execXori; apply immOp_kept; exact hg

theorem execShli_kept (f : KI) (s : State) (hg : Memory.wf s.gmem = true) : gKept (execShli f s) := by
  unfold execShli; apply immOp_kept; exact hg

theorem execShri_kept (f : KI) (s : State) (hg : Memory.wf s.gmem = true) : gKept (execShri f s) := by
  unfold execShri; apply immOp_kept; exact hg

theorem execSrai_kept (f : KI) (s : State) (hg : Memory.wf s.gmem = true) : gKept (execSrai f s) := by
  unfold execSrai; apply immOp_kept; exact hg

theorem execRori_kept (f : KI) (s : State) (hg : Memory.wf s.gmem = true) : gKept (execRori f s) := by
  unfold execRori; apply immOp_kept; exact hg

theorem execSlti_kept (f : KI) (s : State) (hg : Memory.wf s.gmem = true) : gKept (execSlti f s) := by
  unfold execSlti; apply immOp_kept; exact hg

theorem execSltui_kept (f : KI) (s : State) (hg : Memory.wf s.gmem = true) : gKept (execSltui f s) := by
  unfold execSltui; apply immOp_kept; exact hg

theorem execMuli_kept (f : KI) (s : State) (hg : Memory.wf s.gmem = true) : gKept (execMuli f s) := by
  unfold execMuli; apply immOp_kept; exact hg

theorem execLi_kept (f : LIW) (s : State) (hg : Memory.wf s.gmem = true) : gKept (execLi f s) := by
  unfold execLi; exact gRun_finish hg (by simp [hg])

theorem execLih_kept (f : KU) (s : State) (hg : Memory.wf s.gmem = true) : gKept (execLih f s) := by
  unfold execLih; exact gRun_finish hg (by simp [hg])

theorem branchOp_kept (i : Instr) (f : KB) (s : State) (g : Word → Word → Bool) (hg : Memory.wf s.gmem = true) : gKept (branchOp i f s g) := by
  unfold branchOp; exact gRun_finish hg (by simp [hg])

theorem execBeq_kept (f : KB) (s : State) (hg : Memory.wf s.gmem = true) : gKept (execBeq f s) := by
  unfold execBeq; apply branchOp_kept; exact hg

theorem execBne_kept (f : KB) (s : State) (hg : Memory.wf s.gmem = true) : gKept (execBne f s) := by
  unfold execBne; apply branchOp_kept; exact hg

theorem execBlt_kept (f : KB) (s : State) (hg : Memory.wf s.gmem = true) : gKept (execBlt f s) := by
  unfold execBlt; apply branchOp_kept; exact hg

theorem execBge_kept (f : KB) (s : State) (hg : Memory.wf s.gmem = true) : gKept (execBge f s) := by
  unfold execBge; apply branchOp_kept; exact hg

theorem execBltu_kept (f : KB) (s : State) (hg : Memory.wf s.gmem = true) : gKept (execBltu f s) := by
  unfold execBltu; apply branchOp_kept; exact hg

theorem execBgeu_kept (f : KB) (s : State) (hg : Memory.wf s.gmem = true) : gKept (execBgeu f s) := by
  unfold execBgeu; apply branchOp_kept; exact hg

theorem execJump_kept (f : KJ) (s : State) (hg : Memory.wf s.gmem = true) : gKept (execJump f s) := by
  unfold execJump; exact gRun_finish hg (by simp [hg])

theorem execJal_kept (f : KJ) (s : State) (hg : Memory.wf s.gmem = true) : gKept (execJal f s) := by
  unfold execJal; exact gRun_finish hg (by simp [hg])

theorem execJalr_kept (f : KI) (s : State) (hg : Memory.wf s.gmem = true) : gKept (execJalr f s) := by
  unfold execJalr; exact gRun_finish hg (by simp [hg])

theorem execLoopI_kept (f : KI) (s : State) (hg : Memory.wf s.gmem = true) : gKept (execLoopI f s) := by
  unfold execLoopI; refine gRun_finish hg ?_; simp; intros; split <;> simp_all

theorem execRepI_kept (f : KR) (s : State) (hg : Memory.wf s.gmem = true) : gKept (execRepI f s) := by
  unfold execRepI; exact gRun_finish hg (by simp [hg])

/-! Sys. -/

theorem execNop_kept (_x : K3) (s : State) (hg : Memory.wf s.gmem = true) : gKept (execNop _x s) := by simp [execNop, hg]

theorem execFence_kept (f : K3) (s : State) (hg : Memory.wf s.gmem = true) : gKept (execFence f s) := by
  unfold execFence; exact gRun_finish hg (by simp [hg])

theorem execIfence_kept (_x : K3) (s : State) (hg : Memory.wf s.gmem = true) : gKept (execIfence _x s) := by
  unfold execIfence; exact gRun_finish hg (by simp [hg])

@[simp] theorem callTrap_gmem (s : State) (code : Byte) (val : Word) : (callTrap s code val).gmem = s.gmem := by
  unfold callTrap; dsimp only; split
  · rename_i e; rw [takeLate_gmem e]; simp
  · simp

theorem execTrapI_kept (f : K3) (s : State) (hg : Memory.wf s.gmem = true) : gKept (execTrapI f s) := by
  unfold execTrapI; exact gRun_finish hg (by simp [hg])

theorem execBrk_kept (f : K3) (s : State) (hg : Memory.wf s.gmem = true) : gKept (execBrk f s) := by
  unfold execBrk; refine gRun_finish hg ?_; simp; intros; split <;> simp_all

@[simp] theorem eretZero_gmem (s : State) : (eretZero s).gmem = s.gmem := rfl

theorem execEret_kept (f : K3) (s : State) (hg : Memory.wf s.gmem = true) : gKept (execEret f s) := by
  unfold execEret; refine gRun_finish hg ?_; simp; intros; (repeat' split) <;> simp_all

theorem execMfs_kept (f : KI) (s : State) (hg : Memory.wf s.gmem = true) : gKept (execMfs f s) := by
  unfold execMfs; refine gRun_finish hg ?_; simp; intros; (repeat' split) <;> simp_all

theorem execMts_kept (f : KI) (s : State) (hg : Memory.wf s.gmem = true) : gKept (execMts f s) := by
  unfold execMts; refine gRun_finish hg ?_; simp; intros; split
  · simp
  · rename_i e; split
    · simp
    · simp [sysWrite_gmem e, hg]

@[simp] theorem freeHelper_gmem (s : State) : (freeHelper s).gmem = s.gmem := rfl

theorem execDoneI_kept (f : K3) (s : State) (hg : Memory.wf s.gmem = true) : gKept (execDoneI f s) := by
  unfold execDoneI; refine gRun_finish hg ?_; simp; intros; split
  · rename_i e; simp [takeLate_gmem e, hg]
  · simp [hg]

@[simp] theorem startOn_gmem (s : State) (tile c h : Nat) (ka kb : KReg) : (startOn s tile c h ka kb).gmem = s.gmem := rfl

theorem execStartI_kept (f : K3) (s : State) (hg : Memory.wf s.gmem = true) : gKept (execStartI f s) := by
  unfold execStartI; refine gRun_finish hg ?_; simp; intros; (repeat' split) <;> simp_all

/-! Translate. -/

@[simp] theorem State.setLink_gmem (s : State) (n : Nat) (l : LinkPort) : (State.setLink s n l).gmem = s.gmem := rfl

@[simp] theorem State.sendFlit_gmem (s : State) (port typ vc stream : Nat) (body : FlitBody) : (State.sendFlit s port typ vc stream body).gmem = s.gmem := rfl

@[simp] theorem firstMapped_gmem (s : State) (tile : Nat) (x : Space) (e : TlbEntry) : (firstMapped s tile x e).gmem = s.gmem := by simp [firstMapped]

@[simp] theorem translate_gmem (s : State) (tile : Nat) (x : Space) (va : Nat) (r w ver : Bool) :
    (translate s tile x va r w ver).1.gmem = s.gmem := by
  unfold translate; dsimp only; split
  · simp
  · split
    · rfl
    · rfl
    · split <;> simp

@[simp] theorem deniedToken_gmem (s : State) (h : Nat) (va : Addr) : (deniedToken s h va).gmem = s.gmem := by simp [deniedToken]

theorem transIssue_ok {s : State} {va : Addr} {r w ver : Bool} {p : _} (h : transIssue s va r w ver = .ok p) : p.1.gmem = s.gmem := by
  unfold transIssue at h; dsimp only at h; split at h <;> cases h; exact translate_gmem ..

theorem transIssue_become {s : State} {va : Addr} {r w ver : Bool} {t : State} (h : transIssue s va r w ver = .error (.become t)) : t.gmem = s.gmem := by
  unfold transIssue at h; dsimp only at h; split at h <;> cases h; split <;> simp

@[simp] theorem gRun_transIssue {Q : _ → Prop} {s : State} {va : Addr} {r w ver : Bool} (h : Memory.wf s.gmem = true) :
    gRun Q (transIssue s va r w ver) ↔ ∀ p, transIssue s va r w ver = .ok p → p.1.gmem = s.gmem → Q p := by
  rcases e : transIssue s va r w ver with (_ | _ | _ | _ | t) | p
  · simp
  · simp
  · simp
  · simp
  · simpa [transIssue_become e] using h
  · have := transIssue_ok e
    simp [this]

/-! Queues. -/

@[simp] theorem State.gainCredit_gmem (s : State) (osn r : Nat) (tile : BitVec 22) (p : Nat) : (State.gainCredit s osn r tile p).gmem = s.gmem := by unfold State.gainCredit; split <;> simp

@[simp] theorem creditBack_gmem (tile p : Nat) (s : State) (o : OHdr) : (creditBack tile p s o).gmem = s.gmem := by unfold creditBack; split <;> simp

@[simp] theorem State.consume_gmem (s : State) (tile p n : Nat) : (State.consume s tile p n).gmem = s.gmem := by
  unfold State.consume; dsimp only
  rw [State.moved_gmem, foldl_gmem _ _ _ fun s o => by simp]; split <;> simp

@[simp] theorem quiet_chanWho (s : State) (port : Nat) : quiet (chanWho s port) := by simp [chanWho]
@[simp] theorem gRun_chanWho {Q : _ → Prop} (s : State) (port : Nat) : gRun Q (chanWho s port) ↔ ∀ a, chanWho s port = .ok a → Q a := gRun_of_quiet (by simp)

@[simp] theorem quiet_chanPort (s : State) (port : Nat) (output : Bool) : quiet (chanPort s port output) := by
  unfold chanPort; dsimp only; (repeat' split) <;> simp
@[simp] theorem gRun_chanPort {Q : _ → Prop} (s : State) (port : Nat) (output : Bool) : gRun Q (chanPort s port output) ↔ ∀ a, chanPort s port output = .ok a → Q a := gRun_of_quiet (by simp)

@[simp] theorem quiet_chanSized (s : State) (port : Nat) (output line : Bool) : quiet (chanSized s port output line) := by
  unfold chanSized; repeat' first | refine quiet_bind ?_ (fun _ => ?_) | refine quiet_map ?_ | split
  all_goals simp
@[simp] theorem gRun_chanSized {Q : _ → Prop} (s : State) (port : Nat) (output line : Bool) : gRun Q (chanSized s port output line) ↔ ∀ a, chanSized s port output line = .ok a → Q a := gRun_of_quiet (by simp)

@[simp] theorem quiet_takeCount (s : State) (port : Nat) (p : Port) (ahead : Nat) : quiet (takeCount s port p ahead) := by simp [takeCount]
@[simp] theorem gRun_takeCount {Q : _ → Prop} (s : State) (port : Nat) (p : Port) (ahead : Nat) : gRun Q (takeCount s port p ahead) ↔ ∀ a, takeCount s port p ahead = .ok a → Q a := gRun_of_quiet (by simp)

@[simp] theorem quiet_putCount (s : State) (port : Nat) (p : Port) : quiet (putCount s port p) := by simp [putCount]
@[simp] theorem gRun_putCount {Q : _ → Prop} (s : State) (port : Nat) (p : Port) : gRun Q (putCount s port p) ↔ ∀ a, putCount s port p = .ok a → Q a := gRun_of_quiet (by simp)

@[simp] theorem quiet_putReady (s : State) (port : Nat) : quiet (putReady s port) := by simp [putReady]
@[simp] theorem gRun_putReady {Q : _ → Prop} (s : State) (port : Nat) : gRun Q (putReady s port) ↔ ∀ a, putReady s port = .ok a → Q a := gRun_of_quiet (by simp)

/-! Engine. -/

@[simp] theorem State.freeFar_gmem (s : State) (tile actor : Nat) : (State.freeFar s tile actor).gmem = s.gmem := rfl

@[simp] theorem quiet_engRoom (s : State) (e : Engine) : quiet (engRoom s e) := by simp [engRoom]
@[simp] theorem gRun_engRoom {Q : _ → Prop} (s : State) (e : Engine) : gRun Q (engRoom s e) ↔ ∀ a, engRoom s e = .ok a → Q a := gRun_of_quiet (by simp)

@[simp] theorem engPush_gmem (s : State) (e : Engine) (i : Instr) (f : EW) (data : List Word) : (engPush s e i f data).gmem = s.gmem := rfl

theorem engStep_wf (s : State) (tile n : Nat) (e : Engine) (x : EngCmd) (reads : List EngRead) (lines : Nat) (line : Nat → EngLine)
    (fin : State → EngCmd → State) (hg : Memory.wf s.gmem = true) (hf : ∀ s y, Memory.wf s.gmem = true → Memory.wf (fin s y).gmem = true) :
    Memory.wf (engStep s tile n e x reads lines line fin).gmem = true := by
  unfold engStep; dsimp only; split
  · simpa using hg
  · split
    · split
      · simpa using hg
      · exact hf _ _ (by simpa using hg)
    · exact hf _ _ hg

@[simp] theorem cmdDone_gmem (s : State) (tile : Nat) (x : EngCmd) (f : EW) : (cmdDone s tile x f).gmem = s.gmem := by simp [cmdDone]

/-! Matrix. -/

theorem mxIssue_kept (i : Instr) (f : EW) (reads : List (BitVec 6)) (check : State → Try Unit) (reason : State → Try Unit)
    (upd : Acc → Option Nat → Acc) (s : State) (h : Memory.wf s.gmem = true) (hc : ∀ s, quiet (check s)) (hr : ∀ s, quiet (reason s)) :
    gKept (mxIssue i f reads check reason upd s) := by
  unfold mxIssue; refine gRun_finish h ?_
  simp +contextual [gRun_of_quiet (hc _), gRun_of_quiet (hr _), h]

@[simp] theorem quiet_extent (s : State) (c : KReg) (n : Nat) (need : List Perm) : quiet (extent s c n need) := by simp [extent]
@[simp] theorem gRun_extent {Q : _ → Prop} (s : State) (c : KReg) (n : Nat) (need : List Perm) : gRun Q (extent s c n need) ↔ ∀ a, extent s c n need = .ok a → Q a := gRun_of_quiet (by simp)

@[simp] theorem quiet_noCheck (x_ : State) : quiet (noCheck x_) := by simp [noCheck]
@[simp] theorem gRun_noCheck {Q : _ → Prop} (x_ : State) : gRun Q (noCheck x_) ↔ ∀ a, noCheck x_ = .ok a → Q a := gRun_of_quiet (by simp)

theorem execMma_kept (f : EW) (s : State) (hg : Memory.wf s.gmem = true) : gKept (execMma f s) := by
  unfold execMma; exact mxIssue_kept _ _ _ _ _ _ _ hg (fun _ => by simp) (fun _ => by simp)

@[simp] theorem quiet_ringCheck (s : State) (c : KReg) (rb : Nat) : quiet (ringCheck s c rb) := by
  unfold ringCheck; repeat' first | refine quiet_bind ?_ (fun _ => ?_) | refine quiet_map ?_ | split
  all_goals simp
@[simp] theorem gRun_ringCheck {Q : _ → Prop} (s : State) (c : KReg) (rb : Nat) : gRun Q (ringCheck s c rb) ↔ ∀ a, ringCheck s c rb = .ok a → Q a := gRun_of_quiet (by simp)

@[simp] theorem quiet_rearmCheck (f : EW) (s : State) : quiet (rearmCheck f s) := by simp [rearmCheck]
@[simp] theorem gRun_rearmCheck {Q : _ → Prop} (f : EW) (s : State) : gRun Q (rearmCheck f s) ↔ ∀ a, rearmCheck f s = .ok a → Q a := gRun_of_quiet (by simp)

theorem execMinit_kept (f : EW) (s : State) (hg : Memory.wf s.gmem = true) : gKept (execMinit f s) := by
  unfold execMinit; exact mxIssue_kept _ _ _ _ _ _ _ hg (fun _ => by simp) (fun _ => by simp)

theorem execMinitPort_kept (f : EW) (s : State) (hg : Memory.wf s.gmem = true) : gKept (execMinitPort f s) := by
  unfold execMinitPort; exact mxIssue_kept _ _ _ _ _ _ _ hg (fun _ => by simp) (fun _ => by simp)

theorem execMrel_kept (f : EW) (s : State) (hg : Memory.wf s.gmem = true) : gKept (execMrel f s) := by
  unfold execMrel; exact mxIssue_kept _ _ _ _ _ _ _ hg (fun _ => by simp) (fun _ => by simp)

theorem execMzero_kept (f : EW) (s : State) (hg : Memory.wf s.gmem = true) : gKept (execMzero f s) := by
  unfold execMzero; exact mxIssue_kept _ _ _ _ _ _ _ hg (fun _ => by simp) (fun _ => by simp)

theorem execMshape_kept (f : EW) (s : State) (hg : Memory.wf s.gmem = true) : gKept (execMshape f s) := by
  unfold execMshape; exact mxIssue_kept _ _ _ _ _ _ _ hg (fun _ => by simp) (fun _ => by simp)

theorem execMrd_kept (f : EW) (s : State) (hg : Memory.wf s.gmem = true) : gKept (execMrd f s) := by
  unfold execMrd; exact mxIssue_kept _ _ _ _ _ _ _ hg (fun _ => by simp) (fun _ => by simp)

@[simp] theorem mxFinish_gmem (tile ctx : Nat) (s : State) (x : EngCmd) : (mxFinish tile ctx s x).gmem = s.gmem := by unfold mxFinish; split <;> simp

theorem execMxCommandComplete_kept (tile ctx : Nat) (s : State) (hg : Memory.wf s.gmem = true) : gKept (execMxCommandComplete tile ctx s) := by
  unfold execMxCommandComplete; dsimp only; split
  · exact hg
  · exact engStep_wf _ _ _ _ _ _ _ _ _ hg fun s y hs => by simpa using hs

theorem execReleaseTokenSend_kept (tile acc : Nat) (s : State) (hg : Memory.wf s.gmem = true) : gKept (execReleaseTokenSend tile acc s) := by
  unfold execReleaseTokenSend; dsimp only; (repeat' split) <;> simp [hg]

/-! Lc. -/

theorem lcIssue_kept (i : Instr) (f : EW) (reads : List (BitVec 6)) (check : State → Try Unit) (countOk : State → Bool)
    (s : State) (h : Memory.wf s.gmem = true) (hc : ∀ s, quiet (check s)) : gKept (lcIssue i f reads check countOk s) := by
  unfold lcIssue; refine gRun_finish h ?_
  simp +contextual [gRun_of_quiet (hc _), h]

@[simp] theorem quiet_lcExtent (s : State) (f : EW) (n align : Nat) (need : List Perm) : quiet (lcExtent s f n align need) := by simp [lcExtent]
@[simp] theorem gRun_lcExtent {Q : _ → Prop} (s : State) (f : EW) (n align : Nat) (need : List Perm) : gRun Q (lcExtent s f n align need) ↔ ∀ a, lcExtent s f n align need = .ok a → Q a := gRun_of_quiet (by simp)

theorem execLtab_kept (f : EW) (s : State) (hg : Memory.wf s.gmem = true) : gKept (execLtab f s) := by
  unfold execLtab; exact lcIssue_kept _ _ _ _ _ _ hg fun _ => by simp

theorem execLtabStream_kept (f : EW) (s : State) (hg : Memory.wf s.gmem = true) : gKept (execLtabStream f s) := by
  unfold execLtabStream; exact lcIssue_kept _ _ _ _ _ _ hg fun _ => by simp

theorem execLwire_kept (f : EW) (s : State) (hg : Memory.wf s.gmem = true) : gKept (execLwire f s) := by
  unfold execLwire; exact lcIssue_kept _ _ _ _ _ _ hg fun _ => by simp

theorem execLsel_kept (f : EW) (s : State) (hg : Memory.wf s.gmem = true) : gKept (execLsel f s) := by
  unfold execLsel; exact lcIssue_kept _ _ _ _ _ _ hg fun _ => by simp

theorem execLeval_kept (f : EW) (s : State) (hg : Memory.wf s.gmem = true) : gKept (execLeval f s) := by
  unfold execLeval; exact lcIssue_kept _ _ _ _ _ _ hg fun _ => by simp

theorem execLslice_kept (f : EW) (s : State) (hg : Memory.wf s.gmem = true) : gKept (execLslice f s) := by
  unfold execLslice; exact lcIssue_kept _ _ _ _ _ _ hg fun _ => by simp

theorem execLunslice_kept (f : EW) (s : State) (hg : Memory.wf s.gmem = true) : gKept (execLunslice f s) := by
  unfold execLunslice; exact lcIssue_kept _ _ _ _ _ _ hg fun _ => by simp

theorem execLpld_kept (f : EW) (s : State) (hg : Memory.wf s.gmem = true) : gKept (execLpld f s) := by
  unfold execLpld; exact lcIssue_kept _ _ _ _ _ _ hg fun _ => by simp

theorem execLpst_kept (f : EW) (s : State) (hg : Memory.wf s.gmem = true) : gKept (execLpst f s) := by
  unfold execLpst; exact lcIssue_kept _ _ _ _ _ _ hg fun _ => by simp

theorem execLpcnt_kept (f : EW) (s : State) (hg : Memory.wf s.gmem = true) : gKept (execLpcnt f s) := by
  unfold execLpcnt; exact lcIssue_kept _ _ _ _ _ _ hg fun _ => by simp

@[simp] theorem lcFinish_gmem (tile ctx : Nat) (s : State) (x : EngCmd) : (lcFinish tile ctx s x).gmem = s.gmem := by unfold lcFinish; split <;> simp

theorem execLcCommandComplete_kept (tile ctx : Nat) (s : State) (hg : Memory.wf s.gmem = true) : gKept (execLcCommandComplete tile ctx s) := by
  unfold execLcCommandComplete; dsimp only; split
  · exact hg
  · exact engStep_wf _ _ _ _ _ _ _ _ _ hg fun s y hs => by simpa using hs

/-! Global. -/

@[simp] theorem gldvReserve_gmem (s : State) : (gldvReserve s).1.gmem = s.gmem := by
  unfold gldvReserve; split <;> simp

@[simp] theorem gSend_gmem (s : State) (f : GW) (g : GForm) (va : Addr) (pa : PAddr) : (gSend s f g va pa).gmem = s.gmem := by unfold gSend; split <;> simp

theorem gBody_kept (f : GW) (g : GForm) (s : State) (hg : Memory.wf s.gmem = true) : gTry (gBody f g s) := by
  unfold gBody; simp; intros
  rw [gRun_transIssue hg]; intro p _ e
  rw [gRun_claimToken (by rw [e]; exact hg)]; intro q _ e2
  split <;> simp [e, e2, hg]

theorem gIssue_kept (f : GW) (g : GForm) (s : State) (hg : Memory.wf s.gmem = true) : gKept (gIssue f g s) := by
  unfold gIssue; exact issueLong_kept _ _ _ _ _ _ hg fun s1 h1 => gBody_kept f g s1 h1

theorem execGld_kept (f : GW) (s : State) (hg : Memory.wf s.gmem = true) : gKept (execGld f s) := by
  unfold execGld; apply gIssue_kept; exact hg

theorem execGst_kept (f : GW) (s : State) (hg : Memory.wf s.gmem = true) : gKept (execGst f s) := by
  unfold execGst; apply gIssue_kept; exact hg

theorem execGlda_kept (f : GW) (s : State) (hg : Memory.wf s.gmem = true) : gKept (execGlda f s) := by
  unfold execGlda; apply gIssue_kept; exact hg

theorem execGstr_kept (f : GW) (s : State) (hg : Memory.wf s.gmem = true) : gKept (execGstr f s) := by
  unfold execGstr; apply gIssue_kept; exact hg

theorem execGaadd_kept (f : GW) (s : State) (hg : Memory.wf s.gmem = true) : gKept (execGaadd f s) := by
  unfold execGaadd; apply gIssue_kept; exact hg

theorem execGamin_kept (f : GW) (s : State) (hg : Memory.wf s.gmem = true) : gKept (execGamin f s) := by
  unfold execGamin; apply gIssue_kept; exact hg

theorem execGamax_kept (f : GW) (s : State) (hg : Memory.wf s.gmem = true) : gKept (execGamax f s) := by
  unfold execGamax; apply gIssue_kept; exact hg

theorem execGaand_kept (f : GW) (s : State) (hg : Memory.wf s.gmem = true) : gKept (execGaand f s) := by
  unfold execGaand; apply gIssue_kept; exact hg

theorem execGaor_kept (f : GW) (s : State) (hg : Memory.wf s.gmem = true) : gKept (execGaor f s) := by
  unfold execGaor; apply gIssue_kept; exact hg

theorem execGaxor_kept (f : GW) (s : State) (hg : Memory.wf s.gmem = true) : gKept (execGaxor f s) := by
  unfold execGaxor; apply gIssue_kept; exact hg

theorem execGaswp_kept (f : GW) (s : State) (hg : Memory.wf s.gmem = true) : gKept (execGaswp f s) := by
  unfold execGaswp; apply gIssue_kept; exact hg

theorem execGacas_kept (f : GW) (s : State) (hg : Memory.wf s.gmem = true) : gKept (execGacas f s) := by
  unfold execGacas; apply gIssue_kept; exact hg

theorem execGafadd_kept (f : GW) (s : State) (hg : Memory.wf s.gmem = true) : gKept (execGafadd f s) := by
  unfold execGafadd; apply gIssue_kept; exact hg

theorem execGldv_kept (f : GW) (s : State) (hg : Memory.wf s.gmem = true) : gKept (execGldv f s) := by
  unfold execGldv; split
  · exact gRun_finish hg (by simp)
  · exact gIssue_kept _ _ _ hg

theorem execGstv_kept (f : GW) (s : State) (hg : Memory.wf s.gmem = true) : gKept (execGstv f s) := by
  unfold execGstv; apply gIssue_kept; exact hg

theorem execGvq_kept (f : GW) (s : State) (hg : Memory.wf s.gmem = true) : gKept (execGvq f s) := by
  unfold execGvq; apply gIssue_kept; exact hg

@[simp] theorem homePerform_wf (s : State) (tile : Nat) (q : GReq) (h : Memory.wf s.gmem = true) :
    Memory.wf (homePerform s tile q).1.gmem = true := by
  unfold homePerform; dsimp only; (repeat' split) <;> simp [h]

@[simp] theorem gldvFill_gmem (s : State) (here : Nat) (q : GReq) (seq : Nat) (r : Reply) :
    (gldvFill s here q seq r).gmem = s.gmem := by
  unfold gldvFill; dsimp only
  cases (s.tile (q.homeTile here)).complPort (q.actor % 8) with
  | none => rfl
  | some p => cases r <;> first | exact State.fillPort_gmem .. | exact (State.updErr_gmem ..).trans (State.fillPort_gmem ..) | rfl

@[simp] theorem replyTag_gmem (s : State) (tile : Nat) (q : GReq) : (replyTag s tile q).gmem = s.gmem := by unfold replyTag; split <;> simp

@[simp] theorem dropReply_gmem (s : State) (tile id : Nat) (q : GReq) : (dropReply s tile id q).gmem = s.gmem := rfl

theorem execGlobalReply_kept (tile id : Nat) (s : State) (hg : Memory.wf s.gmem = true) : gKept (execGlobalReply tile id s) := by
  unfold execGlobalReply; split
  · exact hg
  · split
    · exact hg
    · exact hg
    · exact hg
    · split
      · simpa using hg
      · dsimp only; rw [gKept_next, State.moved_gmem, replyTag_gmem]
        split
        · rw [gldvFill_gmem, State.updTile_gmem]; exact hg
        · rw [State.updTile_gmem]; exact hg

theorem execStoreAck_kept (tile id : Nat) (s : State) (hg : Memory.wf s.gmem = true) : gKept (execStoreAck tile id s) := by
  unfold execStoreAck; (repeat' split) <;> simp [hg]

theorem execRetryReply_kept (tile id : Nat) (s : State) (hg : Memory.wf s.gmem = true) : gKept (execRetryReply tile id s) := by
  unfold execRetryReply; (repeat' split) <;> simp [hg]

/-! TlmAccess. -/

@[simp] theorem eccTrap_gmem (s : State) (a n w : Nat) : (eccTrap s a n w).gmem = s.gmem := by simp [eccTrap]

theorem loadOp_kept (f : KI) (s : State) (n : Nat) (ext : Word → Word) (hg : Memory.wf s.gmem = true) : gKept (loadOp f s n ext) := by
  unfold loadOp; refine gRun_finish hg ?_; simp; intros; split <;> simp_all

theorem execLdb_kept (f : KI) (s : State) (hg : Memory.wf s.gmem = true) : gKept (execLdb f s) := by
  unfold execLdb; apply loadOp_kept; exact hg

theorem execLdbu_kept (f : KI) (s : State) (hg : Memory.wf s.gmem = true) : gKept (execLdbu f s) := by
  unfold execLdbu; apply loadOp_kept; exact hg

theorem execLdh_kept (f : KI) (s : State) (hg : Memory.wf s.gmem = true) : gKept (execLdh f s) := by
  unfold execLdh; apply loadOp_kept; exact hg

theorem execLdhu_kept (f : KI) (s : State) (hg : Memory.wf s.gmem = true) : gKept (execLdhu f s) := by
  unfold execLdhu; apply loadOp_kept; exact hg

theorem execLdw_kept (f : KI) (s : State) (hg : Memory.wf s.gmem = true) : gKept (execLdw f s) := by
  unfold execLdw; apply loadOp_kept; exact hg

theorem execLdwu_kept (f : KI) (s : State) (hg : Memory.wf s.gmem = true) : gKept (execLdwu f s) := by
  unfold execLdwu; apply loadOp_kept; exact hg

theorem execLdd_kept (f : KI) (s : State) (hg : Memory.wf s.gmem = true) : gKept (execLdd f s) := by
  unfold execLdd; apply loadOp_kept; exact hg

theorem execLdc_kept (f : KI) (s : State) (hg : Memory.wf s.gmem = true) : gKept (execLdc f s) := by
  unfold execLdc; refine gRun_finish hg ?_; simp; intros; split <;> simp_all

theorem storeOp_kept (f : KS) (s : State) (n : Nat) (hg : Memory.wf s.gmem = true) : gKept (storeOp f s n) := by
  unfold storeOp; refine gRun_finish hg ?_; simp; intros; split <;> simp_all

theorem execStb_kept (f : KS) (s : State) (hg : Memory.wf s.gmem = true) : gKept (execStb f s) := by
  unfold execStb; apply storeOp_kept; exact hg

theorem execSth_kept (f : KS) (s : State) (hg : Memory.wf s.gmem = true) : gKept (execSth f s) := by
  unfold execSth; apply storeOp_kept; exact hg

theorem execStw_kept (f : KS) (s : State) (hg : Memory.wf s.gmem = true) : gKept (execStw f s) := by
  unfold execStw; apply storeOp_kept; exact hg

theorem execStd_kept (f : KS) (s : State) (hg : Memory.wf s.gmem = true) : gKept (execStd f s) := by
  unfold execStd; apply storeOp_kept; exact hg

theorem execStc_kept (f : KS) (s : State) (hg : Memory.wf s.gmem = true) : gKept (execStc f s) := by
  unfold execStc; exact gRun_finish hg (by simp [hg])

/-! Dm. -/

@[simp] theorem quiet_copyCheck (s : State) (c : KReg) (n : Nat) (need : Perm) (dst remote : Bool) : quiet (copyCheck s c n need dst remote) := by
  unfold copyCheck; (repeat' split) <;> simp
@[simp] theorem gRun_copyCheck {Q : _ → Prop} (s : State) (c : KReg) (n : Nat) (need : Perm) (dst remote : Bool) : gRun Q (copyCheck s c n need dst remote) ↔ ∀ a, copyCheck s c n need dst remote = .ok a → Q a := gRun_of_quiet (by simp)

theorem execDcopy_kept (f : EW) (s : State) (hg : Memory.wf s.gmem = true) : gKept (execDcopy f s) := by
  unfold execDcopy; refine gRun_finish hg ?_; simp [hg]; intros; simp_all

@[simp] theorem quiet_streamFault (n reason : Nat) (b : Bool) : quiet (streamFault n reason b) := by simp [streamFault]
@[simp] theorem gRun_streamFault {Q : _ → Prop} (n reason : Nat) (b : Bool) : gRun Q (streamFault n reason b) ↔ ∀ a, streamFault n reason b = .ok a → Q a := gRun_of_quiet (by simp)

@[simp] theorem quiet_streamClaim (s : State) (n : Nat) (notRunning configured : Bool) : quiet (streamClaim s n notRunning configured) := by simp [streamClaim]
@[simp] theorem gRun_streamClaim {Q : _ → Prop} (s : State) (n : Nat) (notRunning configured : Bool) : gRun Q (streamClaim s n notRunning configured) ↔ ∀ a, streamClaim s n notRunning configured = .ok a → Q a := gRun_of_quiet (by simp)

@[simp] theorem takeStream_gmem (s : State) (n : Nat) : (takeStream s n).gmem = s.gmem := rfl

theorem execDscfg_kept (f : EW) (s : State) (hg : Memory.wf s.gmem = true) : gKept (execDscfg f s) := by
  unfold execDscfg; refine gRun_finish hg ?_; simp; intros; split <;> simp_all

theorem execDsgo_kept (f : EW) (s : State) (hg : Memory.wf s.gmem = true) : gKept (execDsgo f s) := by
  unfold execDsgo; refine gRun_finish hg ?_; simp [hg]; intros; simp_all

theorem execDsstop_kept (f : EW) (s : State) (hg : Memory.wf s.gmem = true) : gKept (execDsstop f s) := by
  unfold execDsstop; refine gRun_finish hg ?_; simp [hg]; intros; simp_all

theorem execDbank_kept (f : EW) (s : State) (hg : Memory.wf s.gmem = true) : gKept (execDbank f s) := by
  unfold execDbank; refine gRun_finish hg ?_; simp [hg]; intros; simp_all

/-- What a line of a copy comes to leaves global memory canonical. -/
def copyOk (c : CopyStep) : Prop :=
  match c with
  | .moved s => Memory.wf s.gmem = true
  | .hold => True
  | .wait _ => True
  | .stop s _ _ => Memory.wf s.gmem = true

@[simp] theorem copyOk_moved (s : State) : copyOk (.moved s) ↔ Memory.wf s.gmem = true := Iff.rfl
@[simp] theorem copyOk_hold : copyOk .hold := trivial
@[simp] theorem copyOk_wait (a : Addr) : copyOk (.wait a) := trivial
@[simp] theorem copyOk_stop (s : State) (c : Byte) (a : Addr) : copyOk (.stop s c a) ↔ Memory.wf s.gmem = true := Iff.rfl

theorem copyTrans_ok (s : State) (tile : Nat) (sp : Space) (x : EngCmd) (va : Nat) (w : Bool) (k : State → PAddr → Bool → CopyStep)
    (h : Memory.wf s.gmem = true) (hk : ∀ s1 pa d, Memory.wf s1.gmem = true → copyOk (k s1 pa d)) :
    copyOk (copyTrans s tile sp x va w k) := by
  unfold copyTrans; dsimp only; split
  · split
    · simp
    · exact hk _ _ _ (by simpa using h)
  · simp
  · simpa using h
  · rw [copyOk_stop]; split <;> simp [deniedToken, h]

theorem copyRead_ok (s : State) (tile ctx : Nat) (x : EngCmd) (h : Memory.wf s.gmem = true) : copyOk (copyRead s tile ctx x) := by
  unfold copyRead; dsimp only; split
  · simpa using h
  · exact copyTrans_ok _ _ _ _ _ _ _ h fun s1 pa d h1 => by split <;> simpa using h1

theorem copyWrite_ok (s : State) (tile ctx : Nat) (x : EngCmd) (f : EW) (h : Memory.wf s.gmem = true) :
    copyOk (copyWrite s tile ctx x f) := by
  unfold copyWrite; dsimp only; split
  · split <;> simpa using h
  · split
    · simpa using h
    · exact copyTrans_ok _ _ _ _ _ _ _ h fun s1 pa d h1 => by split <;> simp [h1]

@[simp] theorem copyEnd_gmem (s : State) (tile ctx : Nat) (x : EngCmd) (f : EW) : (copyEnd s tile ctx x f).gmem = s.gmem := by simp [copyEnd]

@[simp] theorem copyLast_gmem (s : State) (tile ctx : Nat) (x : EngCmd) (f : EW) : (copyLast s tile ctx x f).gmem = s.gmem := by simp [copyLast]

@[simp] theorem copyStop_gmem (s : State) (tile ctx : Nat) (x : EngCmd) (f : EW) (code : Byte) (va : Addr) : (copyStop s tile ctx x f code va).gmem = s.gmem := by simp [copyStop]

@[simp] theorem doDcopy_wf (s : State) (tile ctx : Nat) (x : EngCmd) (f : EW) (hg : Memory.wf s.gmem = true) : Memory.wf (doDcopy s tile ctx x f).gmem = true := by
  have hr : copyOk (if x.rd = 0 then copyRead s tile ctx x else copyWrite s tile ctx x f) := by
    split
    · exact copyRead_ok _ _ _ _ hg
    · exact copyWrite_ok _ _ _ _ _ hg
  unfold doDcopy; split
  · simpa using hg
  · split
    · rename_i e; rw [e] at hr; split
      · split
        · simpa using hr
        · exact hr
      · exact hr
    · exact hg
    · simpa using hg
    · rename_i e; rw [e] at hr; simpa using hr

@[simp] theorem goDone_gmem (s : State) (tile n : Nat) : (goDone s tile n).gmem = s.gmem := by
  unfold goDone; dsimp only; split <;> simp

@[simp] theorem doDsstop_gmem (s : State) (tile : Nat) (f : EW) : (doDsstop s tile f).gmem = s.gmem := by simp [doDsstop]

@[simp] theorem doDbank_gmem (s : State) (tile : Nat) (x : EngCmd) (f : EW) : (doDbank s tile x f).gmem = s.gmem := by simp [doDbank]

theorem execDcopyComplete_kept (tile ctx : Nat) (s : State) (hg : Memory.wf s.gmem = true) : gKept (execDcopyComplete tile ctx s) := by
  unfold execDcopyComplete; (repeat' split) <;> simp [hg]

theorem execRemoteLineWrite_kept (id : Nat) (s : State) (hg : Memory.wf s.gmem = true) : gKept (execRemoteLineWrite id s) := by
  unfold execRemoteLineWrite; dsimp only; (repeat' split) <;> simp [hg]

theorem execDcopyRefusal_kept (tile ctx : Nat) (s : State) (hg : Memory.wf s.gmem = true) : gKept (execDcopyRefusal tile ctx s) := by
  unfold execDcopyRefusal; dsimp only; (repeat' split) <;> simp [hg]

@[simp] theorem streamDenied_gmem (s : State) (tile n : Nat) (va : Nat) (perm : Bool) : (streamDenied s tile n va perm).gmem = s.gmem := by simp [streamDenied]

@[simp] theorem streamStop_gmem (s : State) (tile n : Nat) (va : Nat) (r : Translation) : (streamStop s tile n va r).gmem = s.gmem := by unfold streamStop; split <;> simp

@[simp] theorem streamHeld_gmem (s : State) (tile n : Nat) (r : Reach) : (streamHeld s tile n r).gmem = s.gmem := by unfold streamHeld; split <;> simp

@[simp] theorem streamEnd_gmem (s : State) (tile n : Nat) : (streamEnd s tile n).gmem = s.gmem := by simp [streamEnd]

@[simp] theorem streamTouch_gmem (s : State) (tile : Nat) (st : Stream) : (streamTouch s tile st).gmem = s.gmem := by
  unfold streamTouch; dsimp only; split <;> simp

@[simp] theorem streamRead_gmem (s : State) (tile n : Nat) (st : Stream) : (streamRead s tile n st).gmem = s.gmem := by
  unfold streamRead; dsimp only; split <;> simp

@[simp] theorem streamPut_gmem (s : State) (tile n : Nat) (st : Stream) : (streamPut s tile n st).gmem = s.gmem := by simp [streamPut]

theorem execStreamTokenPut_kept (tile stream : Nat) (s : State) (hg : Memory.wf s.gmem = true) : gKept (execStreamTokenPut tile stream s) := by
  unfold execStreamTokenPut; dsimp only; (repeat' split) <;> simp [hg]

@[simp] theorem writeElem_wf (s : State) (pa n : Nat) (bs : List Byte) (bad : Bool) (hg : Memory.wf s.gmem = true) : Memory.wf (writeElem s pa n bs bad).gmem = true := by
  unfold writeElem; dsimp only; split <;> simp [hg]

theorem writePacked_wf (tile : Nat) (bad : Bool) (bs : List Byte) : ∀ (s : State) (va : Nat) (st : Stream) (r : State × Stream),
    Memory.wf s.gmem = true → writePacked s tile bad bs va st = .ok r → Memory.wf r.1.gmem = true := by
  induction bs with
  | nil => intro s va st r h e; cases e; exact h
  | cons b bs ih =>
    intro s va st r h e
    rw [writePacked] at e
    split at e
    · refine ih _ _ _ _ ?_ e; split
      · exact h
      · exact writeElem_wf _ _ _ _ _ h
    · cases e

@[simp] theorem streamElem_wf (s : State) (tile n : Nat) (st : Stream) (x : QSlot) (payload : Line) (hg : Memory.wf s.gmem = true) : Memory.wf (streamElem s tile n st x payload).gmem = true := by
  unfold streamElem; dsimp only; split
  · split
    · simpa using hg
    · rename_i e; have := writePacked_wf _ _ _ _ _ _ _ hg e
      (repeat' split) <;> simpa using this
  · (repeat' split) <;> simp_all

theorem execStreamTokenTake_kept (tile stream : Nat) (s : State) (hg : Memory.wf s.gmem = true) : gKept (execStreamTokenTake tile stream s) := by
  unfold execStreamTokenTake; dsimp only; (repeat' split) <;> simp [hg]

/-! Chan. -/

@[simp] theorem putDone_gmem (s : State) (port : Nat) (k : TokKind) (payload : Line) (status : BitVec 16) (after : List (Nat × Nat)) : (putDone s port k payload status after).gmem = s.gmem := by simp [putDone]

theorem execPut_kept (f : K3) (s : State) (hg : Memory.wf s.gmem = true) : gKept (execPut f s) := by
  unfold execPut; exact gRun_finish hg (by simp [hg])

theorem execPutr_kept (f : K3) (s : State) (hg : Memory.wf s.gmem = true) : gKept (execPutr f s) := by
  unfold execPutr; exact gRun_finish hg (by simp [hg])

theorem execPutl_kept (f : K3) (s : State) (hg : Memory.wf s.gmem = true) : gKept (execPutl f s) := by
  unfold execPutl; exact gRun_finish hg (by simp [hg])

theorem markOp_kept (f : K3) (s : State) (k : TokKind) (fields : List (BitVec 6)) (noRound : Bool) (hg : Memory.wf s.gmem = true) : gKept (markOp f s k fields noRound) := by
  unfold markOp; exact gRun_finish hg (by simp [hg])

theorem execPutn_kept (f : K3) (s : State) (hg : Memory.wf s.gmem = true) : gKept (execPutn f s) := by
  unfold execPutn; apply markOp_kept; exact hg

theorem execMarkNull_kept (f : K3) (s : State) (hg : Memory.wf s.gmem = true) : gKept (execMarkNull f s) := by
  unfold execMarkNull; apply markOp_kept; exact hg

theorem execMarkRound_kept (f : K3) (s : State) (hg : Memory.wf s.gmem = true) : gKept (execMarkRound f s) := by
  unfold execMarkRound; apply markOp_kept; exact hg

theorem execMarkPoison_kept (f : K3) (s : State) (hg : Memory.wf s.gmem = true) : gKept (execMarkPoison f s) := by
  unfold execMarkPoison; apply markOp_kept; exact hg

theorem execMarkEos_kept (f : K3) (s : State) (hg : Memory.wf s.gmem = true) : gKept (execMarkEos f s) := by
  unfold execMarkEos; exact gRun_finish hg (by simp [hg])

theorem execTake_kept (f : K3) (s : State) (hg : Memory.wf s.gmem = true) : gKept (execTake f s) := by
  unfold execTake; refine gRun_finish hg ?_; simp; intros; split <;> simp_all

theorem execPeek_kept (f : K3) (s : State) (hg : Memory.wf s.gmem = true) : gKept (execPeek f s) := by
  unfold execPeek; refine gRun_finish hg ?_; simp; intros; split <;> simp_all

theorem execTakel_kept (f : K3) (s : State) (hg : Memory.wf s.gmem = true) : gKept (execTakel f s) := by
  unfold execTakel; refine gRun_finish hg ?_; simp; intros; split <;> simp_all

theorem execRoom_kept (f : K3) (s : State) (hg : Memory.wf s.gmem = true) : gKept (execRoom f s) := by
  unfold execRoom; exact gRun_finish hg (by simp [hg])

theorem execChst_kept (f : K3) (s : State) (hg : Memory.wf s.gmem = true) : gKept (execChst f s) := by
  unfold execChst; exact gRun_finish hg (by simp [hg])

/-! Actors. -/

@[simp] theorem State.takeSlots_gmem (s : State) (tile p n : Nat) : (State.takeSlots s tile p n).gmem = s.gmem := by simp [State.takeSlots]

@[simp] theorem drainPort_gmem (tile p n : Nat) (s : State) : (drainPort tile p n s).gmem = s.gmem := by
  induction n generalizing s with
  | zero => rfl
  | succ n ih => rw [drainPort]; (repeat' split) <;> simp [ih]

@[simp] theorem sendAll_gmem (outs : List (Nat × Port)) (s : State) (tile : Nat) (k : TokKind) (status : BitVec 16) : (sendAll outs s tile k status).gmem = s.gmem := by simp [sendAll]

@[simp] theorem State.endActor_gmem (s : State) (tile a : Nat) : (State.endActor s tile a).gmem = s.gmem := rfl

@[simp] theorem popHeads_gmem (s : State) (tile a : Nat) : (popHeads s tile a).gmem = s.gmem := by simp [popHeads]

@[simp] theorem startDrain_gmem (s : State) (tile a : Nat) (d : Drain) : (startDrain s tile a d).gmem = s.gmem := by simp [startDrain]

@[simp] theorem punctStep_gmem (s : State) (tile a : Nat) (p : Punct) : (punctStep s tile a p).gmem = s.gmem := by unfold punctStep; split <;> simp

@[simp] theorem actorStep_gmem (s : State) (tile a : Nat) (p : Punct) : (actorStep s tile a p).gmem = s.gmem := by simp [actorStep]

theorem execNullPassFiring_kept (tile actor : Nat) (s : State) (hg : Memory.wf s.gmem = true) : gKept (execNullPassFiring tile actor s) := by unfold execNullPassFiring; split <;> simp [hg]

@[simp] theorem consumeFiring_gmem (s : State) (tile a : Nat) (fr : Firing) : (consumeFiring s tile a fr).gmem = s.gmem := by simp [consumeFiring]

@[simp] theorem fillFiring_gmem (outs : List (Nat × Port)) (s : State) (tile : Nat) (fr : Firing) : (fillFiring outs s tile fr).gmem = s.gmem := by simp [fillFiring]

theorem execFiringEnd_kept (tile actor : Nat) (s : State) (hg : Memory.wf s.gmem = true) : gKept (execFiringEnd tile actor s) := by
  unfold execFiringEnd; (repeat' split) <;> simp [hg]

/-! Cap. -/

@[simp] theorem State.writeCap_gmem (s : State) (d : BitVec 6) (x : KReg) : (State.writeCap s d x).gmem = s.gmem := rfl

theorem capOp1_kept (f : K3) (s : State) (g : KReg → KReg) (hg : Memory.wf s.gmem = true) : gKept (capOp1 f s g) := by
  unfold capOp1; exact gRun_finish hg (by simp [hg])

theorem capOp_kept (f : K3) (s : State) (g : KReg → KReg → KReg) (hg : Memory.wf s.gmem = true) : gKept (capOp f s g) := by
  unfold capOp; exact gRun_finish hg (by simp [hg])

@[simp] theorem quiet_setBounds (c : KReg) (a : BitVec 6) (len : Nat) (exact : Bool) : quiet (setBounds c a len exact) := by
  unfold setBounds; repeat' first | refine quiet_bind ?_ (fun _ => ?_) | refine quiet_map ?_ | split
  all_goals simp
@[simp] theorem gRun_setBounds {Q : _ → Prop} (c : KReg) (a : BitVec 6) (len : Nat) (exact : Bool) : gRun Q (setBounds c a len exact) ↔ ∀ x, setBounds c a len exact = .ok x → Q x := gRun_of_quiet (by simp)

theorem execCinc_kept (f : K3) (s : State) (hg : Memory.wf s.gmem = true) : gKept (execCinc f s) := by
  unfold execCinc; apply capOp_kept; exact hg

theorem execCsetb_kept (f : K3) (s : State) (hg : Memory.wf s.gmem = true) : gKept (execCsetb f s) := by
  unfold execCsetb; exact gRun_finish hg (by simp [hg])

theorem execCsetbx_kept (f : K3) (s : State) (hg : Memory.wf s.gmem = true) : gKept (execCsetbx f s) := by
  unfold execCsetbx; exact gRun_finish hg (by simp [hg])

theorem execCandp_kept (f : K3) (s : State) (hg : Memory.wf s.gmem = true) : gKept (execCandp f s) := by
  unfold execCandp; exact capOp_kept _ _ _ hg

theorem execCgeta_kept (f : K3) (s : State) (hg : Memory.wf s.gmem = true) : gKept (execCgeta f s) := by
  unfold execCgeta; apply capOp1_kept; exact hg

theorem execCgetb_kept (f : K3) (s : State) (hg : Memory.wf s.gmem = true) : gKept (execCgetb f s) := by
  unfold execCgetb; apply capOp1_kept; exact hg

theorem execCgett_kept (f : K3) (s : State) (hg : Memory.wf s.gmem = true) : gKept (execCgett f s) := by
  unfold execCgett; apply capOp1_kept; exact hg

theorem execCgetp_kept (f : K3) (s : State) (hg : Memory.wf s.gmem = true) : gKept (execCgetp f s) := by
  unfold execCgetp; apply capOp1_kept; exact hg

theorem execCgetty_kept (f : K3) (s : State) (hg : Memory.wf s.gmem = true) : gKept (execCgetty f s) := by
  unfold execCgetty; apply capOp1_kept; exact hg

theorem execCtag_kept (f : K3) (s : State) (hg : Memory.wf s.gmem = true) : gKept (execCtag f s) := by
  unfold execCtag; apply capOp1_kept; exact hg

theorem execCclr_kept (f : K3) (s : State) (hg : Memory.wf s.gmem = true) : gKept (execCclr f s) := by
  unfold execCclr; apply capOp1_kept; exact hg

theorem execCmov_kept (f : K3) (s : State) (hg : Memory.wf s.gmem = true) : gKept (execCmov f s) := by
  unfold execCmov; apply capOp1_kept; exact hg

theorem execCsub_kept (f : K3) (s : State) (hg : Memory.wf s.gmem = true) : gKept (execCsub f s) := by
  unfold execCsub; apply capOp_kept; exact hg

theorem execCeq_kept (f : K3) (s : State) (hg : Memory.wf s.gmem = true) : gKept (execCeq f s) := by
  unfold execCeq; apply capOp_kept; exact hg

@[simp] theorem quiet_sealerCheck (s : KReg) (b : BitVec 6) (cAddr : Word) : quiet (sealerCheck s b cAddr) := by
  unfold sealerCheck; repeat' first | refine quiet_bind ?_ (fun _ => ?_) | refine quiet_map ?_ | split
  all_goals simp
@[simp] theorem gRun_sealerCheck {Q : _ → Prop} (s : KReg) (b : BitVec 6) (cAddr : Word) : gRun Q (sealerCheck s b cAddr) ↔ ∀ a, sealerCheck s b cAddr = .ok a → Q a := gRun_of_quiet (by simp)

theorem execCseal_kept (f : K3) (s : State) (hg : Memory.wf s.gmem = true) : gKept (execCseal f s) := by
  unfold execCseal; exact gRun_finish hg (by simp [hg])

theorem execCunseal_kept (f : K3) (s : State) (hg : Memory.wf s.gmem = true) : gKept (execCunseal f s) := by
  unfold execCunseal; exact gRun_finish hg (by simp [hg])

theorem execCinci_kept (f : KI) (s : State) (hg : Memory.wf s.gmem = true) : gKept (execCinci f s) := by
  unfold execCinci; exact gRun_finish hg (by simp [hg])

theorem execCsetbi_kept (f : KI) (s : State) (hg : Memory.wf s.gmem = true) : gKept (execCsetbi f s) := by
  unfold execCsetbi; exact gRun_finish hg (by simp [hg])

/-! Tokens. -/

theorem execForkForward_kept (chan : Nat) (s : State) (hg : Memory.wf s.gmem = true) : gKept (execForkForward chan s) := by
  unfold execForkForward; (repeat' split) <;> simp [hg]

@[simp] theorem discardInert_gmem (tile p n : Nat) (s : State) : (discardInert tile p n s).gmem = s.gmem := by
  induction n generalizing s with
  | zero => rfl
  | succ n ih => rw [discardInert]; (repeat' split) <;> simp [ih]

@[simp] theorem deliver_gmem (s : State) (tile p n : Nat) (tok : Token) : (deliver s tile p n tok).gmem = s.gmem := by simp [deliver]

@[simp] theorem dropToken_gmem (s : State) (tile : Nat) (tok : Token) : (dropToken s tile tok).gmem = s.gmem := rfl

@[simp] theorem State.setOutlet_gmem (s : State) (n : Nat) (o : Outlet) : (State.setOutlet s n o).gmem = s.gmem := rfl

@[simp] theorem State.placeOutlet_gmem (s : State) (n seq : Nat) (tok : Token) : (State.placeOutlet s n seq tok).gmem = s.gmem := rfl

@[simp] theorem egressPut_gmem (s : State) (id : Nat) (c : Chan) (t : Token) : (egressPut s id c t).gmem = s.gmem := by simp [egressPut]

@[simp] theorem egressNext_gmem (s : State) (port st : Nat) : (egressNext s port st).gmem = s.gmem := by unfold egressNext; split <;> simp

@[simp] theorem State.giveRoom_gmem (s : State) (chan branch : Nat) : (State.giveRoom s chan branch).gmem = s.gmem := by
  unfold State.giveRoom; (repeat' split) <;> simp

theorem execCreditReturn_kept (chan branch : Nat) (s : State) (hg : Memory.wf s.gmem = true) : gKept (execCreditReturn chan branch s) := by
  unfold execCreditReturn; (repeat' split) <;> simp [hg]

theorem execBankTransfer_kept (tile port : Nat) (s : State) (hg : Memory.wf s.gmem = true) : gKept (execBankTransfer tile port s) := by
  unfold execBankTransfer; dsimp only; (repeat' split) <;> simp [hg]

/-! Operators. -/

@[simp] theorem operPut_gmem (s : State) (o : Oper) (e : Nat) (k : TokKind) (payload : Line) (status : BitVec 16) (round : Option (BitVec 16)) : (operPut s o e k payload status round).gmem = s.gmem := by
  unfold operPut; (repeat' split) <;> simp

@[simp] theorem operFree_gmem (s : State) (tile slot : Nat) (o : Oper) (e : Nat) : (operFree s tile slot o e).gmem = s.gmem := by
  unfold operFree; (repeat' split) <;> simp

@[simp] theorem operTake_gmem (s : State) (tile slot : Nat) (o : Oper) (es : List Nat) : (operTake s tile slot o es).gmem = s.gmem := by simp [operTake]

@[simp] theorem operError_gmem (s : State) (tile slot : Nat) : (operError s tile slot).gmem = s.gmem := rfl

theorem execSteerOp_kept (tile slot : Nat) (s : State) (hg : Memory.wf s.gmem = true) : gKept (execSteerOp tile slot s) := by
  unfold execSteerOp; (repeat' split) <;> simp [hg]

theorem execMergeOp_kept (tile slot : Nat) (s : State) (hg : Memory.wf s.gmem = true) : gKept (execMergeOp tile slot s) := by
  unfold execMergeOp; (repeat' split) <;> simp [hg]

theorem execCarryOp_kept (tile slot : Nat) (s : State) (hg : Memory.wf s.gmem = true) : gKept (execCarryOp tile slot s) := by
  unfold execCarryOp; (repeat' split) <;> simp [hg]

@[simp] theorem operDrain_gmem (s : State) (tile slot : Nat) (e : Nat) : (operDrain s tile slot e).gmem = s.gmem := by
  unfold operDrain; dsimp only; (repeat' split) <;> simp

@[simp] theorem strayArrival_gmem (s : State) (chan : Nat) : (strayArrival s chan).gmem = s.gmem := by
  unfold strayArrival; (repeat' split) <;> simp

theorem execTokenArrival_kept (chan branch seq : Nat) (s0 : State) (hg : Memory.wf s0.gmem = true) : gKept (execTokenArrival chan branch seq s0) := by
  unfold execTokenArrival; dsimp only; (repeat' split) <;> simp [hg]

@[simp] theorem operSend_gmem (s : State) (o : Oper) (k : TokKind) (status : BitVec 16) : (operSend s o k status).gmem = s.gmem := by simp [operSend]

@[simp] theorem operPunct_gmem (s : State) (tile slot : Nat) (o : Oper) (p : Punct) : (operPunct s tile slot o p).gmem = s.gmem := by
  unfold operPunct; (repeat' split) <;> simp

@[simp] theorem nodeStep_gmem (s : State) (tile : Nat) (node : Node) (p : Punct) : (nodeStep s tile node p).gmem = s.gmem := by
  unfold nodeStep; (repeat' split) <;> simp

theorem execActorEnd_kept (tile : Nat) (node : Node) (s : State) (hg : Memory.wf s.gmem = true) : gKept (execActorEnd tile node s) := by simp [execActorEnd, hg]

theorem execLengthMismatch_kept (tile : Nat) (node : Node) (s : State) (hg : Memory.wf s.gmem = true) : gKept (execLengthMismatch tile node s) := by simp [execLengthMismatch, hg]

theorem execRoundPass_kept (tile : Nat) (node : Node) (s : State) (hg : Memory.wf s.gmem = true) : gKept (execRoundPass tile node s) := by simp [execRoundPass, hg]

theorem execRoundMismatch_kept (tile : Nat) (node : Node) (s : State) (hg : Memory.wf s.gmem = true) : gKept (execRoundMismatch tile node s) := by simp [execRoundMismatch, hg]

/-! RcUnit. -/

@[simp] theorem rebase_gmem (s : State) (x new : Port) : (rebase s x new).gmem = s.gmem := by
  unfold rebase; (repeat' split) <;> simp

@[simp] theorem passCredits_gmem (s : State) (x new : Port) : (passCredits s x new).gmem = s.gmem := by unfold passCredits; split <;> simp

@[simp] theorem switchSlot_gmem (s : State) (tile dest : Nat) : (switchSlot s tile dest).gmem = s.gmem := by
  unfold switchSlot; dsimp only; refine (foldl_gmem _ _ _ fun _ _ => ?_).trans ?_ <;> simp

theorem execConfigSlotSwitch_kept (tile : Nat) (s : State) (hg : Memory.wf s.gmem = true) : gKept (execConfigSlotSwitch tile s) := by
  unfold execConfigSlotSwitch; (repeat' split) <;> simp [hg]

theorem execCslot_kept (f : EW) (s : State) (hg : Memory.wf s.gmem = true) : gKept (execCslot f s) := by
  unfold execCslot; refine gRun_finish hg ?_; simp [hg]; intros; (repeat' split) <;> simp_all

@[simp] theorem loadChecked_gmem (s : State) (tile h slot row col : Nat) (resid : BitVec 12) (ws : List Word) : (loadChecked s tile h slot row col resid ws).gmem = s.gmem := by
  unfold loadChecked; dsimp only; split <;> simp

theorem pagesIssue_kept (va : Addr) (pa : PAddr) (n : Nat) (l : List Nat) : ∀ s : State, Memory.wf s.gmem = true →
    gTry (pagesIssue s va pa n l) := by
  induction l with
  | nil => intro s h; exact h
  | cons x xs ih =>
    intro s h
    rw [pagesIssue, gTry, gRun_bind, gRun_transIssue h]; intro p _ e
    rw [gRun_bind, gRun_trapIf]; intro _
    exact ih _ (by rw [e]; exact h)

theorem execRload_kept (f : EW) (s : State) (hg : Memory.wf s.gmem = true) : gKept (execRload f s) := by
  unfold execRload; refine gRun_finish hg ?_
  rw [gTry, gRun_bind, gRun_guardK]; intro _ _
  rw [gRun_bind, gRun_trapIf]; intro _
  rw [gRun_bind, gRun_trapIf]; intro _
  rw [gRun_bind, gRun_orTrap]; intro _
  rw [gRun_bind, gRun_transIssue hg]; intro p _ e
  have hp : Memory.wf p.1.gmem = true := by rw [e]; exact hg
  split
  · simp
  · split
    · simp
    · rw [gRun_bind, gRun_orTrap]; intro _
      rw [gRun_bind]; refine gRun_mono (pagesIssue_kept _ _ _ _ _ hp) fun q hq => ?_
      rw [gRun_bind, gRun_claimTag hq]; intro r _ e2
      rw [gRun_bind, gRun_claimToken (by rw [e2]; exact hq)]; intro t _ e3
      simp [e3, e2, hq]

theorem execRquery_kept (f : EW) (s : State) (hg : Memory.wf s.gmem = true) : gKept (execRquery f s) := by
  unfold execRquery; exact gRun_finish hg (by simp [hg])

/-! Ordered. -/

theorem execSyncWaveEmit_kept (s : State) (hg : Memory.wf s.gmem = true) : gKept (execSyncWaveEmit s) := by
  unfold execSyncWaveEmit; dsimp only; split <;> simp [hg]

theorem execSyncWave_kept (tile : Nat) (s : State) (hg : Memory.wf s.gmem = true) : gKept (execSyncWave tile s) := by unfold execSyncWave; split <;> simp [hg]

theorem execUnsynchronised_kept (tile : Nat) (s : State) (hg : Memory.wf s.gmem = true) : gKept (execUnsynchronised tile s) := by
  unfold execUnsynchronised; dsimp only; split <;> simp [hg]

@[simp] theorem State.setOnode_gmem (s : State) (n : Nat) (x : ONode) : (State.setOnode s n x).gmem = s.gmem := rfl

@[simp] theorem setInputW_gmem (s : State) (n i : Nat) (w : Word) : (setInputW s n i w).gmem = s.gmem := rfl

@[simp] theorem joinQueue_gmem (s : State) (tile p : Nat) (m : Token) : (joinQueue s tile p m).gmem = s.gmem := by simp [joinQueue]

@[simp] theorem holdEos_gmem (s : State) (tile p : Nat) (m : Token) : (holdEos s tile p m).gmem = s.gmem := by simp [holdEos]

@[simp] theorem eject_gmem (s : State) (tile : Nat) (m : Token) : (eject s tile m).gmem = s.gmem := by simp [eject]

@[simp] theorem injectLeft_gmem (s : State) (n : Nat) (m : Token) : (injectLeft s n m).gmem = s.gmem := by
  unfold injectLeft; dsimp only; (repeat' split) <;> simp

@[simp] theorem forwardMsg_gmem (s : State) (n k : Nat) (o : OOutput) (x : Nat × Token) : (forwardMsg s n k o x).gmem = s.gmem := by unfold forwardMsg; split <;> simp

@[simp] theorem forwardOut_gmem (n k fuel : Nat) (s : State) : (forwardOut n k fuel s).gmem = s.gmem := by
  induction fuel generalizing s with
  | zero => rfl
  | succ fuel ih => rw [forwardOut]; (repeat' split) <;> simp [ih]

@[simp] theorem forwardNode_gmem (s : State) (n : Nat) : (forwardNode s n).gmem = s.gmem := by
  unfold forwardNode; exact foldl_gmem _ _ _ fun _ _ => by split <;> simp

@[simp] theorem queueMsg_gmem (s : State) (n i : Nat) (m : Token) : (queueMsg s n i m).gmem = s.gmem := rfl

@[simp] theorem movedMsg_gmem (s : State) (m : Token) : (movedMsg s m).gmem = s.gmem := by unfold movedMsg; split <;> simp

theorem execOrderedMessageArrival_kept (node input : Nat) (s : State) (hg : Memory.wf s.gmem = true) : gKept (execOrderedMessageArrival node input s) := by
  unfold execOrderedMessageArrival; (repeat' split) <;> simp [hg]

theorem execBeacon_kept (node input : Nat) (w : Word) (s : State) (hg : Memory.wf s.gmem = true) : gKept (execBeacon node input w s) := by
  unfold execBeacon; (repeat' split) <;> simp [hg]

@[simp] theorem injectionBeacon_gmem (s : State) (tile : Nat) : (injectionBeacon s tile).gmem = s.gmem := by simp [injectionBeacon]

theorem execIdleBeacon_kept (tile : Nat) (s : State) (hg : Memory.wf s.gmem = true) : gKept (execIdleBeacon tile s) := by unfold execIdleBeacon; split <;> simp [hg]

theorem execBeaconForward_kept (node : Nat) (s : State) (hg : Memory.wf s.gmem = true) : gKept (execBeaconForward node s) := by
  unfold execBeaconForward; dsimp only; first | exact foldl_wf _ _ _ (by simp [hg]) (fun _ _ hs => by (repeat' split) <;> simp_all) | simp_all

@[simp] theorem State.recordStall_gmem (s : State) (tile h : Nat) (port : Word) : (State.recordStall s tile h port).gmem = s.gmem := by unfold State.recordStall; split <;> simp

@[simp] theorem stallSeen_gmem (s : State) (n input : Nat) (ms : List (Nat × Token)) : (stallSeen s n input ms).gmem = s.gmem := by
  unfold stallSeen; (repeat' split) <;> simp

theorem execOwmStall_kept (node input : Nat) (s : State) (hg : Memory.wf s.gmem = true) : gKept (execOwmStall node input s) := by
  unfold execOwmStall; dsimp only; split <;> simp [hg]

@[simp] theorem quiet_osendPort (s : State) (f : EW) : quiet (osendPort s f) := by
  unfold osendPort; repeat' first | refine quiet_bind ?_ (fun _ => ?_) | refine quiet_map ?_ | split
  all_goals simp
@[simp] theorem gRun_osendPort {Q : _ → Prop} (s : State) (f : EW) : gRun Q (osendPort s f) ↔ ∀ a, osendPort s f = .ok a → Q a := gRun_of_quiet (by simp)

theorem osendPayload_ok {s : State} {f : EW} {line : Bool} {p : _} (h : osendPayload s f line = .ok p) : p.1.gmem = s.gmem := by
  unfold osendPayload at h; dsimp only at h; (repeat' split at h) <;> cases h <;> simp

theorem osendPayload_become {s : State} {f : EW} {line : Bool} {t : State} (h : osendPayload s f line = .error (.become t)) : t.gmem = s.gmem := by
  unfold osendPayload at h; dsimp only at h; (repeat' split at h) <;> cases h

@[simp] theorem gRun_osendPayload {Q : _ → Prop} {s : State} {f : EW} {line : Bool} (h : Memory.wf s.gmem = true) :
    gRun Q (osendPayload s f line) ↔ ∀ p, osendPayload s f line = .ok p → p.1.gmem = s.gmem → Q p := by
  rcases e : osendPayload s f line with (_ | _ | _ | _ | t) | p
  · simp
  · simp
  · simp
  · simp
  · simpa [osendPayload_become e] using h
  · have := osendPayload_ok e
    simp [this]

theorem execOsend_kept (f : EW) (s : State) (hg : Memory.wf s.gmem = true) : gKept (execOsend f s) := by
  unfold execOsend; refine gRun_finish hg ?_; simp; intros; split <;> simp_all

theorem execOwm_kept (f : EW) (s : State) (hg : Memory.wf s.gmem = true) : gKept (execOwm f s) := by
  unfold execOwm; exact gRun_finish hg (by simp [hg])

/-! Sweep. -/

@[simp] theorem State.boardState_wf (s : State) (pa st : Nat) (hg : Memory.wf s.gmem = true) : Memory.wf (State.boardState s pa st).gmem = true := by simp [State.boardState, hg]

theorem transPages_ok (n : Nat) : ∀ {s : State} {va : Nat} {p : State × List PAddr}, transPages va n s = .ok p → p.1.gmem = s.gmem := by
  induction n with
  | zero => intro s va p h; cases h; rfl
  | succ n ih =>
    intro s va p h
    rw [transPages] at h
    split at h
    · cases h
    · rename_i e; split at h
      · cases h
      · rename_i e2; cases h; rw [ih e2, ← transIssue_ok e]

theorem transPages_become (n : Nat) : ∀ {s : State} {va : Nat} {t : State}, transPages va n s = .error (.become t) → t.gmem = s.gmem := by
  induction n with
  | zero => intro s va t h; cases h
  | succ n ih =>
    intro s va t h
    rw [transPages] at h
    split at h
    · rename_i e; cases h; exact transIssue_become e
    · rename_i e; split at h
      · rename_i e2; cases h; rw [ih e2, ← transIssue_ok e]
      · cases h

@[simp] theorem gRun_transPages {Q : _ → Prop} {va n : Nat} {s : State} (h : Memory.wf s.gmem = true) :
    gRun Q (transPages va n s) ↔ ∀ p, transPages va n s = .ok p → p.1.gmem = s.gmem → Q p := by
  rcases e : transPages va n s with (_ | _ | _ | _ | t) | p
  · simp
  · simp
  · simp
  · simp
  · simpa [transPages_become n e] using h
  · have := transPages_ok n e
    simp [this]

theorem execSweep_kept (f : EW) (s : State) (hg : Memory.wf s.gmem = true) : gKept (execSweep f s) := by
  unfold execSweep; refine gRun_finish hg ?_; simp; intros; (repeat' split) <;> simp_all

@[simp] theorem swSend_gmem (s : State) (q : GReq) : (swSend s q).gmem = s.gmem := rfl

theorem execSwq_kept (f : EW) (s : State) (hg : Memory.wf s.gmem = true) : gKept (execSwq f s) := by
  unfold execSwq; refine gRun_finish hg ?_; simp [hg]; intros; simp_all

theorem execSwabt_kept (f : EW) (s : State) (hg : Memory.wf s.gmem = true) : gKept (execSwabt f s) := by
  unfold execSwabt; refine gRun_finish hg ?_; simp [hg]; intros; simp_all

@[simp] theorem haltSweep_gmem (s : State) (n : Nat) (w : Sweep) : (haltSweep s n w).gmem = s.gmem := by
  unfold haltSweep; exact foldl_gmem _ _ _ fun _ _ => by simp

@[simp] theorem State.setSweep_gmem (s : State) (n : Nat) (w : Sweep) : (State.setSweep s n w).gmem = s.gmem := rfl

@[simp] theorem freeSweep_gmem (s : State) (n : Nat) (w : Sweep) : (freeSweep s n w).gmem = s.gmem := by
  unfold freeSweep; exact foldl_gmem _ _ _ fun _ _ => by simp

@[simp] theorem sweepTag_gmem (s : State) (w : Sweep) : (sweepTag s w).gmem = s.gmem := by simp [sweepTag]

@[simp] theorem sweepTrap_gmem (s : State) (w : Sweep) (code : Byte) (val : Word) : (sweepTrap s w code val).gmem = s.gmem := rfl

@[simp] theorem abortPerform_wf (s : State) (tile id : Nat) (q : GReq) (h : Memory.wf s.gmem = true) :
    Memory.wf (abortPerform s tile id q).1.gmem = true := by
  unfold abortPerform; dsimp only; (repeat' split) <;> simp_all

theorem execSweepLaunch_kept (sweep : Nat) (s : State) (hg : Memory.wf s.gmem = true) : gKept (execSweepLaunch sweep s) := by
  unfold execSweepLaunch; split
  · simp [hg]
  · dsimp only; split
    · split
      · simp [hg]
      · split
        · rw [gKept_next, State.setSweep_gmem]
          exact State.gWrite_wf _ _ _ (State.gWrite_wf _ _ _ (State.gWrite_wf _ _ _ (by simp [hg])))
        · simp [hg]
    · simp [hg]

@[simp] theorem rebuildSweep_gmem (s : State) (n : Nat) (w : Sweep) : (rebuildSweep s n w).gmem = s.gmem := by
  unfold rebuildSweep; exact foldl_gmem _ _ _ fun _ _ => by split <;> simp

theorem execSweepLaunchToken_kept (sweep tile : Nat) (s : State) (hg : Memory.wf s.gmem = true) : gKept (execSweepLaunchToken sweep tile s) := by
  unfold execSweepLaunchToken; dsimp only; (repeat' split) <;> simp [hg]

theorem execRetireNotice_kept (sweep team : Nat) (s : State) (hg : Memory.wf s.gmem = true) : gKept (execRetireNotice sweep team s) := by
  unfold execRetireNotice; dsimp only; (repeat' split) <;> first | exact foldl_wf _ _ _ (by simp [hg]) (fun _ _ hs => by simp_all) | simp_all

theorem execSweepEnd_kept (sweep : Nat) (s : State) (hg : Memory.wf s.gmem = true) : gKept (execSweepEnd sweep s) := by
  unfold execSweepEnd; (repeat' split) <;> simp [hg]

theorem execSweepPartition_kept (sweep : Nat) (s : State) (hg : Memory.wf s.gmem = true) : gKept (execSweepPartition sweep s) := by
  unfold execSweepPartition; (repeat' split) <;> simp [hg]

@[simp] theorem partitionCut_wf (s : State) (hg : Memory.wf s.gmem = true) : Memory.wf (partitionCut s).gmem = true := by
  unfold partitionCut; refine foldl_wf _ _ _ hg fun s n hs => ?_
  have := execSweepPartition_kept n s hs
  split
  · rename_i e; rwa [e] at this
  · exact hs

theorem execSweepAbortConfirm_kept (sweep : Nat) (s : State) (hg : Memory.wf s.gmem = true) : gKept (execSweepAbortConfirm sweep s) := by
  unfold execSweepAbortConfirm; dsimp only; (repeat' split) <;> first | exact foldl_wf _ _ _ (by simp [hg]) (fun _ _ hs => by (repeat' split) <;> simp_all) | simp_all

@[simp] theorem sendRetire_gmem (s : State) (w : Sweep) : (sendRetire s w).gmem = s.gmem := rfl

@[simp] theorem teamOver_gmem (s : State) (id n : Nat) (w : Sweep) : (teamOver s id n w).gmem = s.gmem := rfl

theorem execRetireI_kept (f : K3) (s : State) (hg : Memory.wf s.gmem = true) : gKept (execRetireI f s) := by
  unfold execRetireI; refine gRun_finish hg ?_; simp; intros; split
  · rename_i e; simp [takeLate_gmem e, hg]
  · simp; intros; split
    · simp [hg]
    · split
      · simp [hg]
      · split <;> simp [hg]

/-! TagBar. -/

@[simp] theorem quiet_waitCheck (s : State) (mask : Word) (all : Bool) : quiet (waitCheck s mask all) := by
  unfold waitCheck; dsimp only; (repeat' split) <;> simp
@[simp] theorem gRun_waitCheck {Q : _ → Prop} (s : State) (mask : Word) (all : Bool) : gRun Q (waitCheck s mask all) ↔ ∀ a, waitCheck s mask all = .ok a → Q a := gRun_of_quiet (by simp)

@[simp] theorem gRun_waitMore {Q : State → Prop} (s : State) (mask : Word) : gRun Q (waitMore s mask) := by
  unfold waitMore; split <;> simp

theorem execWaitany_kept (f : K3) (s : State) (hg : Memory.wf s.gmem = true) : gKept (execWaitany f s) := by
  unfold execWaitany; refine gRun_finish hg ?_; simp; intros; split <;> simp_all

theorem execWaitall_kept (f : K3) (s : State) (hg : Memory.wf s.gmem = true) : gKept (execWaitall f s) := by
  unfold execWaitall; refine gRun_finish hg ?_; simp; intros; split <;> simp_all

theorem execFfr_kept (f : K3) (s : State) (hg : Memory.wf s.gmem = true) : gKept (execFfr f s) := by
  unfold execFfr; refine gRun_finish hg ?_; simp; intros; split <;> simp_all

theorem execTagclr_kept (f : K3) (s : State) (hg : Memory.wf s.gmem = true) : gKept (execTagclr f s) := by
  unfold execTagclr; exact gRun_finish hg (by simp [hg])

theorem execTagrd_kept (f : K3) (s : State) (hg : Memory.wf s.gmem = true) : gKept (execTagrd f s) := by
  unfold execTagrd; exact gRun_finish hg (by simp [hg])

@[simp] theorem quiet_barMember (s : State) (v : Word) : quiet (barMember s v) := by unfold barMember; split <;> simp
@[simp] theorem gRun_barMember {Q : _ → Prop} (s : State) (v : Word) : gRun Q (barMember s v) ↔ ∀ a, barMember s v = .ok a → Q a := gRun_of_quiet (by simp)

@[simp] theorem quiet_releaseWait (s : State) : quiet (releaseWait s) := by simp [releaseWait]
@[simp] theorem gRun_releaseWait {Q : _ → Prop} (s : State) : gRun Q (releaseWait s) ↔ ∀ a, releaseWait s = .ok a → Q a := gRun_of_quiet (by simp)

theorem execBarrive_kept (f : K3) (s : State) (hg : Memory.wf s.gmem = true) : gKept (execBarrive f s) := by
  unfold execBarrive; exact gRun_finish hg (by simp [hg])

theorem execBarwait_kept (f : K3) (s : State) (hg : Memory.wf s.gmem = true) : gKept (execBarwait f s) := by
  unfold execBarwait; exact gRun_finish hg (by simp [hg])

theorem execBartest_kept (f : K3) (s : State) (hg : Memory.wf s.gmem = true) : gKept (execBartest f s) := by
  unfold execBartest; exact gRun_finish hg (by simp [hg])

theorem execBarleave_kept (f : K3) (s : State) (hg : Memory.wf s.gmem = true) : gKept (execBarleave f s) := by
  unfold execBarleave; refine gRun_finish hg ?_; simp; intros; split <;> simp_all

theorem execBarrierRelease_kept (group : Nat) (s : State) (hg : Memory.wf s.gmem = true) : gKept (execBarrierRelease group s) := by unfold execBarrierRelease; split <;> simp [hg]

theorem execBarrierRelease_gmem {g : Nat} {s t : State} (h : execBarrierRelease g s = .next t) : t.gmem = s.gmem := by
  unfold execBarrierRelease at h; split at h <;> cases h <;> rfl

@[simp] theorem releaseGroups_gmem (s : State) (gs : List Nat) : (releaseGroups s gs).gmem = s.gmem := by
  unfold releaseGroups; refine foldl_gmem _ _ _ fun s g => ?_
  split
  · rename_i e; exact execBarrierRelease_gmem e
  · rfl

/-! Residency. -/

@[simp] theorem drainSys_gmem (n : Nat) (s : State) : (drainSys n s).gmem = s.gmem := by
  induction n generalizing s with
  | zero => rfl
  | succ n ih => rw [drainSys]; (repeat' split) <;> simp [ih]

@[simp] theorem sendEnd_gmem (s : State) (h : Nat) : (sendEnd s h).gmem = s.gmem := by simp [sendEnd]

@[simp] theorem flushReqs_wf (s : State) (tile : Nat) (hg : Memory.wf s.gmem = true) : Memory.wf (flushReqs s tile).gmem = true := by
  unfold flushReqs; exact foldl_wf _ _ _ hg fun _ _ hs => by split <;> simp [hs]

@[simp] theorem freeRegion_wf (s : State) (h : Nat) (hg : Memory.wf s.gmem = true) : Memory.wf (freeRegion s h).gmem = true := by
  unfold freeRegion; exact foldl_wf _ _ _ hg fun _ _ hs => by simp [hs]

@[simp] theorem closeRes_wf (s : State) (h : Nat) (st : RState) (hg : Memory.wf s.gmem = true) : Memory.wf (closeRes s h st).gmem = true := by
  unfold closeRes; dsimp only; exact freeRegion_wf _ _ (by simpa using hg)

@[simp] theorem rejectRes_wf (s : State) (h : Nat) (f : CfgFail) (hg : Memory.wf s.gmem = true) : Memory.wf (rejectRes s h f).gmem = true := by
  unfold rejectRes; dsimp only; refine closeRes_wf _ _ _ ?_; rw [State.updRes_gmem, foldl_gmem]
  · exact hg
  · intros; simp

theorem execGoCmd_kept (handle : Nat) (s : State) (hg : Memory.wf s.gmem = true) : gKept (execGoCmd handle s) := by
  unfold execGoCmd; (repeat' split) <;> simp [hg]

theorem execAbortCmd_kept (handle : Nat) (s : State) (hg : Memory.wf s.gmem = true) : gKept (execAbortCmd handle s) := by simp [execAbortCmd, hg]

theorem execCommitParams_kept (handle : Nat) (s : State) (hg : Memory.wf s.gmem = true) : gKept (execCommitParams handle s) := by simp [execCommitParams, hg]

theorem execImageStaging_kept (handle : Nat) (s : State) (hg : Memory.wf s.gmem = true) : gKept (execImageStaging handle s) := by
  unfold execImageStaging; dsimp only; (repeat' split) <;> simp [hg]

@[simp] theorem assignRegion_gmem (s : State) (h : Nat) (g : Region) : (assignRegion s h g).gmem = s.gmem := rfl

@[simp] theorem writeParam_wf (s : State) (x : Space) (va : Nat) (ws : List Word) (hg : Memory.wf s.gmem = true) : Memory.wf (writeParam s x va ws).gmem = true := by
  unfold writeParam; exact foldl_wf _ _ _ hg fun _ _ hs => by simp [hs]

@[simp] theorem bindEnds_gmem (s : State) (id : Nat) (c : Chan) : (bindEnds s id c).gmem = s.gmem := by
  unfold bindEnds; (try dsimp only); (repeat' split) <;> (first | rfl | (simp; done) | (refine (foldl_gmem _ _ _ (fun _ _ => ?_)).trans ?_ <;> (try dsimp only) <;> (try (repeat' split)) <;> (try simp)))

@[simp] theorem settleChan_wf (s : State) (id : Nat) (hg : Memory.wf s.gmem = true) : Memory.wf (settleChan s id).gmem = true := by
  unfold settleChan; split
  · exact hg
  · refine foldl_wf _ _ _ hg fun s i hs => ?_
    split
    · exact hs
    · refine foldl_wf _ _ _ hs fun s f hs => ?_
      have := execTokenArrival_kept id i f.tok.seq s hs
      split
      · rename_i e; rwa [e] at this
      · exact hs

@[simp] theorem loadTiles_gmem (s : State) (h : Nat) (g : Region) (ws : List Word) (resid : BitVec 12) : (loadTiles s h g ws resid).gmem = s.gmem := by
  unfold loadTiles; exact foldl_gmem _ _ _ fun _ _ => by simp

@[simp] theorem writeGroups_gmem (s : State) (g : Region) (ws : List Word) (resid : Nat) : (writeGroups s g ws resid).gmem = s.gmem := rfl

@[simp] theorem makeChans_wf (s : State) (h : Nat) (g : Region) (ws : List Word) (resid : BitVec 12) (hg : Memory.wf s.gmem = true) : Memory.wf (makeChans s h g ws resid).gmem = true := by
  unfold makeChans; dsimp only; refine foldl_wf _ _ _ ?_ (fun _ _ hs => ?_) <;> simp_all

theorem execArming_kept (handle : Nat) (s : State) (hg : Memory.wf s.gmem = true) : gKept (execArming handle s) := by
  unfold execArming; (try dsimp only); (repeat' split) <;> (first | (simp_all; done) | (refine foldl_wf _ _ _ ?_ (fun _ _ hs => ?_) <;> (try dsimp only) <;> (try (repeat' split)) <;> (try simp_all)))

theorem execResidencyStart_kept (handle : Nat) (s : State) (hg : Memory.wf s.gmem = true) : gKept (execResidencyStart handle s) := by simp [execResidencyStart, hg]

theorem execResidencyEnd_kept (handle : Nat) (s : State) (hg : Memory.wf s.gmem = true) : gKept (execResidencyEnd handle s) := by
  unfold execResidencyEnd; (repeat' split) <;> simp [hg]

theorem execResidencyAbort_kept (handle : Nat) (s : State) (hg : Memory.wf s.gmem = true) : gKept (execResidencyAbort handle s) := by
  unfold execResidencyAbort; dsimp only; split <;> simp [hg]

@[simp] theorem copyParams_wf (s : State) (x : Space) (src dst n : Nat) (hg : Memory.wf s.gmem = true) : Memory.wf (copyParams s x src dst n).gmem = true := by
  unfold copyParams; exact foldl_wf _ _ _ hg fun _ _ hs => by simp [hs]

@[simp] theorem rearm_wf (s : State) (h : Nat) (ws : List Word) (hg : Memory.wf s.gmem = true) : Memory.wf (rearm s h ws).gmem = true := by
  unfold rearm; dsimp only; rw [State.updRes_gmem]
  refine foldl_wf _ _ _ ?_ fun s r hs => settleChan_wf _ _ hs
  refine foldl_wf _ _ _ ?_ fun s r hs => by split <;> simp [hs]
  refine foldl_wf _ _ _ hg fun s k hs => by simp [hs]

theorem execReplayRearm_kept (handle : Nat) (s : State) (hg : Memory.wf s.gmem = true) : gKept (execReplayRearm handle s) := by
  unfold execReplayRearm; dsimp only; (repeat' split) <;> simp [hg]

theorem execFaultToken_kept (handle : Nat) (s : State) (hg : Memory.wf s.gmem = true) : gKept (execFaultToken handle s) := by
  unfold execFaultToken; dsimp only; (repeat' split) <;> simp [hg]

theorem execFaultPortEos_kept (handle : Nat) (s : State) (hg : Memory.wf s.gmem = true) : gKept (execFaultPortEos handle s) := by
  unfold execFaultPortEos; dsimp only; (repeat' split) <;> simp [hg]

@[simp] theorem writeDump_wf (s : State) (h : Nat) (hg : Memory.wf s.gmem = true) : Memory.wf (writeDump s h).gmem = true := by
  unfold writeDump; exact foldl_wf _ _ _ hg fun _ _ hs => by (repeat' split) <;> simp [hs]

theorem execWatchdog_kept (handle : Nat) (s : State) (hg : Memory.wf s.gmem = true) : gKept (execWatchdog handle s) := by
  unfold execWatchdog; dsimp only; split <;> simp [hg]

/-! Delsis. -/

@[simp] theorem maskTile_gmem (s : State) (tile : Nat) : (maskTile s tile).gmem = s.gmem := by
  unfold maskTile; simp

@[simp] theorem killTile_wf (s : State) (tile : Nat) (hg : Memory.wf s.gmem = true) : Memory.wf (killTile s tile).gmem = true := by
  unfold killTile; (try dsimp only); (repeat' split) <;> (first | (simp_all; done) | (refine foldl_wf _ _ _ ?_ (fun _ _ hs => ?_) <;> (try dsimp only) <;> (try (repeat' split)) <;> (try simp_all)))

@[simp] theorem reroute_gmem (s : State) : (reroute s).gmem = s.gmem := rfl

@[simp] theorem retireNow_wf (s : State) (x : RetireTarget) (hg : Memory.wf s.gmem = true) : Memory.wf (retireNow s x).gmem = true := by
  unfold retireNow; (repeat' split) <;> simp [hg]

theorem execTileRetirement_kept (target : RetireTarget) (s : State) (hg : Memory.wf s.gmem = true) : gKept (execTileRetirement target s) := by
  unfold execTileRetirement; dsimp only; (repeat' split) <;> simp [hg]

theorem execHostRetire_kept (target : RetireTarget) (s : State) (hg : Memory.wf s.gmem = true) : gKept (execHostRetire target s) := by unfold execHostRetire; split <;> simp [hg]

theorem execLinkStopsAnswering_kept (link : Nat) (s : State) (hg : Memory.wf s.gmem = true) : gKept (execLinkStopsAnswering link s) := by unfold execLinkStopsAnswering; split <;> simp [hg]

theorem execRecoveryImageLoad_kept (img : Firmware) (s : State) (hg : Memory.wf s.gmem = true) : gKept (execRecoveryImageLoad img s) := by unfold execRecoveryImageLoad; split <;> simp [hg]

theorem execKeySlotFill_kept (slot key sig : Nat) (s : State) (hg : Memory.wf s.gmem = true) : gKept (execKeySlotFill slot key sig s) := by
  unfold execKeySlotFill; dsimp only; split <;> simp [hg]

theorem execAttestationReport_kept (nonce : BitVec 256) (s : State) (hg : Memory.wf s.gmem = true) : gKept (execAttestationReport nonce s) := by simp [execAttestationReport, hg]

@[simp] theorem bootNaming_gmem (s : State) (b : BootInput) : (bootNaming s b).gmem = s.gmem := rfl

@[simp] theorem bootTiles_gmem (s : State) : (bootTiles s).gmem = s.gmem := rfl

@[simp] theorem bootPod_gmem (s : State) (b : BootInput) : (bootPod s b).gmem = s.gmem := rfl

@[simp] theorem toRecovery_gmem (s : State) : (toRecovery s).gmem = s.gmem := rfl

@[simp] theorem bootFrom_gmem (b : BootInput) (fuel n : Nat) (s : State) : (bootFrom b fuel n s).gmem = s.gmem := by
  induction fuel generalizing n s with
  | zero => rfl
  | succ fuel ih =>
    rw [bootFrom]; dsimp only
    split
    · rfl
    · (repeat' split) <;> simp [ih]

theorem execPowerOn_kept (obs : BootInput) (s : State) (hg : Memory.wf s.gmem = true) : gKept (execPowerOn obs s) := by
  unfold execPowerOn; split
  · exact hg
  · dsimp only; split <;> simp [hg]

theorem execPowerLoss_kept (between : Bool) (s : State) (hg : Memory.wf s.gmem = true) : gKept (execPowerLoss between s) := by
  unfold execPowerLoss; exact Memory.filter_wf _ hg

theorem execDroopStop_kept (phys : Nat) (s : State) (hg : Memory.wf s.gmem = true) : gKept (execDroopStop phys s) := by
  unfold execDroopStop; (repeat' split) <;> simp [hg]

theorem execDroopRecovery_kept (phys : Nat) (s : State) (hg : Memory.wf s.gmem = true) : gKept (execDroopRecovery phys s) := by unfold execDroopRecovery; split <;> simp [hg]

theorem execCoxEpoch_kept (s : State) (hg : Memory.wf s.gmem = true) : gKept (execCoxEpoch s) := by unfold execCoxEpoch; split <;> simp [hg]

/-! Traps. -/

theorem execUnusedEncoding_kept (w0 : BitVec 32) (w1 : Option (BitVec 32)) (s : State) (hg : Memory.wf s.gmem = true) : gKept (execUnusedEncoding w0 w1 s) := by
  unfold execUnusedEncoding; exact gRun_finish hg (by simp)

theorem execFetchFault_kept (code : Nat) (p : Addr) (_x : Option (BitVec 32)) (s : State) (hg : Memory.wf s.gmem = true) : gKept (execFetchFault code p _x s) := by
  unfold execFetchFault; dsimp only; split <;> exact gRun_finish (by simp [hg]) (by simp)

theorem execTrapTaken_kept (tile ctx : Nat) (s : State) (hg : Memory.wf s.gmem = true) : gKept (execTrapTaken tile ctx s) := by
  unfold execTrapTaken; split
  · split
    · rename_i e; simp [lateTaken_gmem e, hg]
    · exact hg
  · exact hg

theorem execWindowClose_kept (tile ctx win : Nat) (s : State) (hg : Memory.wf s.gmem = true) : gKept (execWindowClose tile ctx win s) := by
  unfold execWindowClose; dsimp only; split
  · exact hg
  · split
    · split
      · rename_i e; simp [lateTaken_gmem e, hg]
      · simp [hg]
    · exact hg

theorem execBrkRelease_kept (tile : Nat) (s : State) (hg : Memory.wf s.gmem = true) : gKept (execBrkRelease tile s) := by simp [execBrkRelease, hg]

theorem execPreemptToken_kept (tile : Nat) (s : State) (hg : Memory.wf s.gmem = true) : gKept (execPreemptToken tile s) := by simp [execPreemptToken, hg]

theorem execPreemptRequest_kept (tile : Nat) (s : State) (hg : Memory.wf s.gmem = true) : gKept (execPreemptRequest tile s) := by simp [execPreemptRequest, hg]

theorem execPreemptResume_kept (tile : Nat) (s : State) (hg : Memory.wf s.gmem = true) : gKept (execPreemptResume tile s) := by simp [execPreemptResume, hg]

theorem execHaltedSet_kept (tile : Nat) (s : State) (hg : Memory.wf s.gmem = true) : gKept (execHaltedSet tile s) := by
  unfold execHaltedSet; dsimp only; split <;> simp [hg]

theorem execWdogWrite_kept (tile : Nat) (v : Word) (s : State) (hg : Memory.wf s.gmem = true) : gKept (execWdogWrite tile v s) := by simp [execWdogWrite, hg]

/-! Snapshot. -/

@[simp] theorem haltTile_gmem (s : State) (tile : Nat) : (haltTile s tile).gmem = s.gmem := by
  unfold haltTile; exact foldl_gmem _ _ _ fun s i => by simp

@[simp] theorem haltActor_gmem (s : State) (tile a : Nat) : (haltActor s tile a).gmem = s.gmem := by
  unfold haltActor; exact foldl_gmem _ _ _ fun s i => by simp

@[simp] theorem holdActor_gmem (s : State) (tile a : Nat) : (holdActor s tile a).gmem = s.gmem := by
  unfold holdActor; split <;> simp

@[simp] theorem holdOper_gmem (s : State) (tile o : Nat) : (holdOper s tile o).gmem = s.gmem := rfl

@[simp] theorem markPort_gmem (s : State) (tile p : Nat) (m : Nat × Nat) : (markPort s tile p m).gmem = s.gmem := by simp [markPort]

@[simp] theorem markOper_gmem (s : State) (tile o e : Nat) (m : Nat × Nat) : (markOper s tile o e m).gmem = s.gmem := rfl

@[simp] theorem markBranch_gmem (s : State) (chan branch : Nat) (m : Nat × Nat) : (markBranch s chan branch m).gmem = s.gmem := by
  unfold markBranch; (repeat' split) <;> simp

theorem execSnapArrival_kept (chan branch : Nat) (s : State) (hg : Memory.wf s.gmem = true) : gKept (execSnapArrival chan branch s) := by
  unfold execSnapArrival; (repeat' split) <;> simp [hg]

@[simp] theorem holdUnreached_gmem (s : State) (g : Region) (es : List IEdge) : (holdUnreached s g es).gmem = s.gmem := by
  unfold holdUnreached; exact foldl_gmem _ _ _ fun _ _ => by (repeat' split) <;> simp

@[simp] theorem markOthers_gmem (s : State) (h : Nat) (ws : List Word) : (markOthers s h ws).gmem = s.gmem := by
  unfold markOthers; dsimp only; split <;> simp

@[simp] theorem snapBegin_gmem (s : State) (h : Nat) : (snapBegin s h).gmem = s.gmem := by unfold snapBegin; split <;> simp

@[simp] theorem snapNext_gmem (s : State) (h : Nat) : (snapNext s h).gmem = s.gmem := by simp [snapNext]

theorem execSnapCmd_kept (handle : Nat) (s : State) (hg : Memory.wf s.gmem = true) : gKept (execSnapCmd handle s) := by
  unfold execSnapCmd; dsimp only; (repeat' split) <;> simp [hg]

@[simp] theorem dropHeld_gmem (s : State) (ms : List HeldMsg) : (dropHeld s ms).gmem = s.gmem := by
  unfold dropHeld; exact foldl_gmem _ _ _ fun _ _ => by simp

@[simp] theorem writeWords_wf (s : State) (pa : Nat) (ws : List Word) (hg : Memory.wf s.gmem = true) : Memory.wf (writeWords s pa ws).gmem = true := by
  unfold writeWords; exact foldl_wf _ _ _ hg fun _ _ hs => by simp [hs]

@[simp] theorem holdRes_wf (s : State) (h : Nat) (g : Region) (hg : Memory.wf s.gmem = true) : Memory.wf (holdRes s h g).gmem = true := by simp [holdRes, hg]

@[simp] theorem holdIfDone_wf (s : State) (h : Nat) (g : Region) (hg : Memory.wf s.gmem = true) : Memory.wf (holdIfDone s h g).gmem = true := by unfold holdIfDone; split <;> simp [hg]

theorem execSnapshotTileComplete_kept (handle tile : Nat) (s : State) (hg : Memory.wf s.gmem = true) : gKept (execSnapshotTileComplete handle tile s) := by
  unfold execSnapshotTileComplete; dsimp only; (repeat' split) <;> simp [hg]

@[simp] theorem rebind_gmem (s : State) (id : Nat) (c : Chan) : (rebind s id c).gmem = s.gmem := by
  unfold rebind; (try dsimp only); (repeat' split) <;> (first | rfl | (simp; done) | (refine (foldl_gmem _ _ _ (fun _ _ => ?_)).trans ?_ <;> (try dsimp only) <;> (try (repeat' split)) <;> (try simp)))

@[simp] theorem payOwed_gmem (s : State) (tile : Nat) : (payOwed s tile).gmem = s.gmem := by simp [payOwed]

@[simp] theorem queueHeld_gmem (s : State) (k : Nat) (m : HeldMsg) : (queueHeld s k m).gmem = s.gmem := by simp [queueHeld]

@[simp] theorem requeue_gmem (s : State) (f : Nat → Nat) (ms : List HeldMsg) : (requeue s f ms).gmem = s.gmem := by simp [requeue]

@[simp] theorem placeSnapshot_gmem (s : State) (h : Nat) (ws : List Word) (n : Snapshot) (g : Region) : (placeSnapshot s h ws n g).gmem = s.gmem := by
  unfold placeSnapshot; dsimp only
  rw [foldl_gmem _ _ _ fun s p => by simp, foldl_gmem _ _ _ fun s k => by split <;> simp, requeue_gmem, State.updRes_gmem, writeGroups_gmem]
  show State.gmem (List.foldl _ _ _) = _
  rw [foldl_gmem _ _ _ fun s p => by simp, foldl_gmem _ _ _ fun s p => by simp]; simp

@[simp] theorem tryPlace_gmem (s : State) (h : Nat) : (tryPlace s h).gmem = s.gmem := by
  unfold tryPlace; dsimp only; (repeat' split) <;> simp

theorem execRestoreCmd_kept (handle : Nat) (s : State) (hg : Memory.wf s.gmem = true) : gKept (execRestoreCmd handle s) := by
  unfold execRestoreCmd; dsimp only; (repeat' split) <;> simp [hg]

theorem execResidencyDispatch_kept (handle : Nat) (s : State) (hg : Memory.wf s.gmem = true) : gKept (execResidencyDispatch handle s) := by simp [execResidencyDispatch, hg]

/-! Dispatcher. -/

@[simp] theorem startFiring_gmem (s : State) (tile a h : Nat) (kind : FireKind) (entry : Addr) (pend : Option Punct) : (startFiring s tile a h kind entry pend).gmem = s.gmem := rfl

@[simp] theorem startTeam_gmem (s : State) (tile slot h : Nat) (x : SweepSlot) (w : Sweep) : (startTeam s tile slot h x w).gmem = s.gmem := by unfold startTeam; split <;> simp

@[simp] theorem dispatchThree_gmem (s : State) (tile h : Nat) : (dispatchThree s tile h).gmem = s.gmem := by
  unfold dispatchThree; dsimp only; (repeat' split) <;> simp

@[simp] theorem resumeWaiter_gmem (s : State) (tile h i : Nat) : (resumeWaiter s tile h i).gmem = s.gmem := by
  unfold resumeWaiter; dsimp only; split <;> simp

theorem execDispatch_kept (tile helper : Nat) (s : State) (hg : Memory.wf s.gmem = true) : gKept (execDispatch tile helper s) := by
  unfold execDispatch; dsimp only; (repeat' split) <;> simp [hg]

/-! Links. -/

@[simp] theorem State.updLink_gmem (s : State) (n : Nat) (f : LinkPort → LinkPort) : (State.updLink s n f).gmem = s.gmem := rfl

@[simp] theorem onUp_gmem (s : State) (port : Nat) (f : LinkPort → LinkPort) : (onUp s port f).gmem = s.gmem := by simp [onUp]

theorem execAckFlit_kept (port seq : Nat) (s : State) (hg : Memory.wf s.gmem = true) : gKept (execAckFlit port seq s) := by simp [execAckFlit, hg]

theorem execNakFlit_kept (port seq : Nat) (s : State) (hg : Memory.wf s.gmem = true) : gKept (execNakFlit port seq s) := by simp [execNakFlit, hg]

@[simp] theorem sendTiming_gmem (s : State) (t : Word) : (sendTiming s t).gmem = s.gmem := by
  unfold sendTiming; exact foldl_gmem _ _ _ fun _ _ => by simp

theorem execTimingFlitSend_kept (s : State) (hg : Memory.wf s.gmem = true) : gKept (execTimingFlitSend s) := by unfold execTimingFlitSend; split <;> simp [hg]

@[simp] theorem slewRef_gmem (s : State) (t : Nat) : (slewRef s t).gmem = s.gmem := rfl

@[simp] theorem takeTiming_gmem (s : State) (port : Nat) (t : Word) : (takeTiming s port t).gmem = s.gmem := by simp [takeTiming]

theorem execTimingFlit_kept (port : Nat) (time : Word) (s : State) (hg : Memory.wf s.gmem = true) : gKept (execTimingFlit port time s) := by simp [execTimingFlit, hg]

@[simp] theorem serveRemote_wf (s : State) (port id : Nat) (q : GReq) (hg : Memory.wf s.gmem = true) : Memory.wf (serveRemote s port id q).gmem = true := by unfold serveRemote; split <;> simp [hg]

@[simp] theorem flitBody_wf (s : State) (port : Nat) (f : Flit) (hg : Memory.wf s.gmem = true) : Memory.wf (flitBody s port f).gmem = true := by unfold flitBody; split <;> simp [hg]

theorem execFlitReceive_kept (port : Nat) (flit : Flit) (s : State) (hg : Memory.wf s.gmem = true) : gKept (execFlitReceive port flit s) := by
  unfold execFlitReceive; dsimp only; (repeat' split) <;> simp [hg]

theorem execRetrain_kept (port : Nat) (s : State) (hg : Memory.wf s.gmem = true) : gKept (execRetrain port s) := by simp [execRetrain, hg]

theorem execRetrainEnd_kept (port : Nat) (ok : Bool) (s : State) (hg : Memory.wf s.gmem = true) : gKept (execRetrainEnd port ok s) := by simp [execRetrainEnd, hg]

@[simp] theorem cutOutputs_gmem (s : State) (port : Nat) : (cutOutputs s port).gmem = s.gmem := rfl

@[simp] theorem unlinkNode_gmem (s : State) (port : Nat) : (unlinkNode s port).gmem = s.gmem := by simp [unlinkNode]

@[simp] theorem poisonRemote_gmem (s : State) (port : Nat) : (poisonRemote s port).gmem = s.gmem := rfl

@[simp] theorem stopFabric_gmem (s : State) (port : Nat) : (stopFabric s port).gmem = s.gmem := by
  unfold stopFabric; dsimp only
  refine (foldl_gmem _ _ _ fun s i => ?_).trans (by simp)
  split
  · exact (egressNext_gmem ..).trans (State.setLink_gmem ..)
  · rfl

theorem execLinkDead_kept (port : Nat) (s : State) (hg : Memory.wf s.gmem = true) : gKept (execLinkDead port s) := by
  unfold execLinkDead; dsimp only; (repeat' split) <;> simp [hg]

theorem execFabricEnable_kept (port : Nat) (en : Bool) (s : State) (hg : Memory.wf s.gmem = true) : gKept (execFabricEnable port en s) := by simp [execFabricEnable, hg]

theorem toStream_gmem {s s1 : State} {port d : Nat} {coded : Bool} {t : Token} (h : toStream s port d coded t = some s1) :
    s1.gmem = s.gmem := by
  unfold toStream at h; dsimp only at h; (repeat' split at h) <;> cases h <;> simp

@[simp] theorem drainOut_gmem (s : State) (port e : Nat) (aux : Bool) : (drainOut s port e aux).gmem = s.gmem := by
  unfold drainOut; dsimp only; split
  · rfl
  · rw [State.updLink_gmem]; split
    · split
      · rename_i e; simp [toStream_gmem e]
      · simp
    · simp

@[simp] theorem ingressCredit_gmem (s : State) (port st : Nat) : (ingressCredit s port st).gmem = s.gmem := by unfold ingressCredit; split <;> simp

@[simp] theorem drainIn_gmem (s : State) (port src : Nat) : (drainIn s port src).gmem = s.gmem := by
  unfold drainIn; dsimp only; split <;> simp

@[simp] theorem settleFabric_gmem (s : State) (port : Nat) : (settleFabric s port).gmem = s.gmem := by
  unfold settleFabric; dsimp only
  rw [foldl_gmem _ _ _ fun s i => by simp, foldl_gmem _ _ _ fun s i => by simp, foldl_gmem _ _ _ fun s i => by simp]

theorem execFabricElementFire_kept (port elem : Nat) (s : State) (hg : Memory.wf s.gmem = true) : gKept (execFabricElementFire port elem s) := by unfold execFabricElementFire; split <;> simp [hg]

/-! Host. -/

@[simp] theorem State.setInlet_gmem (s : State) (n : Nat) (x : Inlet) : (State.setInlet s n x).gmem = s.gmem := rfl

@[simp] theorem inletDrop_gmem (s : State) (n : Nat) : (inletDrop s n).gmem = s.gmem := rfl

@[simp] theorem inletPut_gmem (s : State) (n : Nat) (k : TokKind) (payload : Line) (status : BitVec 16) (size : Option Bool) : (inletPut s n k payload status size).gmem = s.gmem := by unfold inletPut; split <;> simp

theorem onInlet_kept (s : State) (n : Nat) (f : Nat → State) (hg : Memory.wf s.gmem = true)
    (hf : ∀ c, Memory.wf (f c).gmem = true) : gKept (onInlet s n f) := by
  unfold onInlet; rw [gKept_next]; split
  · exact hg
  · exact hf _

theorem execInletData_kept (n : Nat) (v : Word) (s : State) (hg : Memory.wf s.gmem = true) : gKept (execInletData n v s) := by
  unfold execInletData; exact onInlet_kept _ _ _ hg fun c => by simpa using hg

theorem execInletEos_kept (n : Nat) (v : Word) (s : State) (hg : Memory.wf s.gmem = true) : gKept (execInletEos n v s) := by
  unfold execInletEos; exact onInlet_kept _ _ _ hg fun c => by simpa using hg

theorem execInletRound_kept (n : Nat) (s : State) (hg : Memory.wf s.gmem = true) : gKept (execInletRound n s) := by
  unfold execInletRound; exact onInlet_kept _ _ _ hg fun c => by simpa using hg

theorem execInletNull_kept (n : Nat) (s : State) (hg : Memory.wf s.gmem = true) : gKept (execInletNull n s) := by
  unfold execInletNull; exact onInlet_kept _ _ _ hg fun c => by simpa using hg

theorem execInletLine_kept (n : Nat) (v : Line) (aligned : Bool) (s : State) (hg : Memory.wf s.gmem = true) : gKept (execInletLine n v aligned s) := by
  unfold execInletLine; exact onInlet_kept _ _ _ hg fun c => by split <;> simpa using hg

theorem execTakenWrite_kept (n k : Nat) (s : State) (hg : Memory.wf s.gmem = true) : gKept (execTakenWrite n k s) := by
  unfold execTakenWrite; dsimp only; (repeat' split) <;> simp [hg]

theorem bar2Write_kept (port off : Nat) (bs : List Byte) (s : State) (hg : Memory.wf s.gmem = true) : gKept (bar2Write port off bs s) := by
  unfold bar2Write; dsimp only; split
  · split
    · exact execInletData_kept _ _ _ hg
    · split
      · exact execInletEos_kept _ _ _ hg
      · split
        · exact execInletRound_kept _ _ hg
        · split
          · exact execInletNull_kept _ _ hg
          · exact execInletLine_kept _ _ _ _ hg
  · split
    · exact execTakenWrite_kept _ _ _ hg
    · exact hg

theorem execHostPortLinkFail_kept (port : Nat) (s : State) (hg : Memory.wf s.gmem = true) : gKept (execHostPortLinkFail port s) := by simp [execHostPortLinkFail, hg]

/-! Mgmt. -/

theorem after_wf (o : Out) (s : State) (hg : Memory.wf s.gmem = true) (ho : gKept o) : Memory.wf (after o s).gmem = true := by
  unfold after; split
  · exact ho
  · exact hg

@[simp] theorem writeBlock0_wf (s : State) (h : Nat) (v : Word) (hg : Memory.wf s.gmem = true) : Memory.wf (writeBlock0 s h v).gmem = true := by
  have h1 : Memory.wf (s.updRes h fun r => { r with commit := v.getLsbD 59 }).gmem = true := by simpa using hg
  unfold writeBlock0; dsimp only
  (repeat' split) <;> first
    | exact hg
    | exact h1
    | exact after_wf _ _ h1 (execGoCmd_kept _ _ h1)
    | exact after_wf _ _ h1 (execAbortCmd_kept _ _ h1)
    | exact after_wf _ _ h1 (execSnapCmd_kept _ _ h1)
    | exact after_wf _ _ h1 (execRestoreCmd_kept _ _ h1)

@[simp] theorem writeImage_gmem (s : State) (h : Nat) (v : Word) : (writeImage s h v).gmem = s.gmem := by simp [writeImage]

@[simp] theorem writeBlock_gmem (s : State) (h i : Nat) (v : Word) : (writeBlock s h i v).gmem = s.gmem := by
  unfold writeBlock; (repeat' split) <;> simp

@[simp] theorem writeOrdered_gmem (s : State) (osn i : Nat) (v : Word) : (writeOrdered s osn i v).gmem = s.gmem := by simp [writeOrdered]

@[simp] theorem writeFabElem_gmem (s : State) (port e : Nat) (v : Word) : (writeFabElem s port e v).gmem = s.gmem := by simp [writeFabElem]

theorem mgmtWrite_wf {s s1 : State} {off : Nat} {v : Word} (hg : Memory.wf s.gmem = true) (h : mgmtWrite s off v = some s1) :
    Memory.wf s1.gmem = true := by
  unfold mgmtWrite at h
  by_cases hn : (mgmtRead s off).isNone = true
  · rw [if_pos hn] at h; cases h
  · rw [if_neg hn] at h; injection h with h; subst h
    repeat' first
      | exact hg
      | exact writeBlock0_wf _ _ _ hg
      | exact after_wf _ _ hg (execFabricEnable_kept _ _ _ hg)
      | exact (writeBlock_gmem ..).symm ▸ hg
      | exact (writeFabElem_gmem ..).symm ▸ hg
      | exact (writeOrdered_gmem ..).symm ▸ hg
      | refine State.ite_wf ?_ ?_

theorem execRegisterWrite_kept (offset : Nat) (v : Word) (s : State) (hg : Memory.wf s.gmem = true) : gKept (execRegisterWrite offset v s) := by
  unfold execRegisterWrite; split
  · exact hg
  · split
    · rename_i e; exact mgmtWrite_wf hg e
    · simp

/-! Home. -/

theorem mgmtAccess_wf {s : State} {off n : Nat} {w : Option Nat} {r : State × Word} (hg : Memory.wf s.gmem = true)
    (h : mgmtAccess s off n w = some r) : Memory.wf r.1.gmem = true := by
  unfold mgmtAccess at h; split at h
  · cases h
  · split at h
    · cases h; exact hg
    · simp only [Option.map_eq_some_iff] at h; obtain ⟨a, e, rfl⟩ := h; exact mgmtWrite_wf hg e

theorem mgmtPerform_wf {s : State} {q : GReq} {r : State × Reply} (hg : Memory.wf s.gmem = true) (h : mgmtPerform s q = some r) :
    Memory.wf r.1.gmem = true := by
  unfold mgmtPerform at h; split at h
  · simp only [Option.map_eq_some_iff] at h; obtain ⟨a, e, rfl⟩ := h; exact mgmtAccess_wf hg e
  · simp only [Option.map_eq_some_iff] at h; obtain ⟨a, e, rfl⟩ := h; exact mgmtAccess_wf hg e
  · cases h

@[simp] theorem answer_gmem (s : State) (tile id : Nat) (q : GReq) (r : Option Reply) : (answer s tile id q r).gmem = s.gmem := by simp [answer]

theorem execMemoryRequest_kept (tile id : Nat) (s : State) (hg : Memory.wf s.gmem = true) : gKept (execMemoryRequest tile id s) := by
  unfold execMemoryRequest; split
  · exact hg
  · split
    · exact hg
    · split
      · exact hg
      · simpa using hg
      · split
        · split
          · rename_i e; rw [gKept_next, answer_gmem]; split at e
            · exact mgmtPerform_wf hg e
            · cases e; exact hg
          · simp
        · split
          · simp [hg]
          · dsimp only; split <;> simp [hg]

theorem execBar4Access_kept (port : Nat) (write : Bool) (offset size : Nat) (v : Word) (s : State) (hg : Memory.wf s.gmem = true) : gKept (execBar4Access port write offset size v s) := by
  unfold execBar4Access; dsimp only; split
  · exact hg
  · split
    · exact hg
    · split
      · split
        · rename_i e; exact mgmtAccess_wf hg e
        · simp
      · split <;> simp [hg]

/-! Pager. -/

theorem ctxWalk_kept (s : State) (tile n : Nat) (va : Addr) (hg : Memory.wf s.gmem = true) : gKept (ctxWalk s tile n va) := by
  unfold ctxWalk; dsimp only; split
  · split
    · exact hg
    · split
      · exact hg
      · split
        · split
          · simp [hg]
          · exact gIssue_kept _ _ _ hg
        · exact gIssue_kept _ _ _ hg
  · exact hg

@[simp] theorem copyWalk_gmem (s : State) (tile n : Nat) (va : Addr) : (copyWalk s tile n va).gmem = s.gmem := by
  unfold copyWalk; dsimp only; (repeat' split) <;> simp

@[simp] theorem streamWalk_gmem (s : State) (tile n : Nat) (va : Addr) : (streamWalk s tile n va).gmem = s.gmem := by
  unfold streamWalk; dsimp only; (repeat' split) <;> simp

theorem execTranslationWalk_kept (tile : Nat) (client : Client) (va : Addr) (s : State) (hg : Memory.wf s.gmem = true) : gKept (execTranslationWalk tile client va s) := by
  unfold execTranslationWalk; split
  · exact ctxWalk_kept _ _ _ _ hg
  · simp [hg]
  · simp [hg]

@[simp] theorem wakeTile_gmem (h : Nat) (s : State) (tile : Nat) : (wakeTile h s tile).gmem = s.gmem := rfl

theorem execPagerMap_kept (handle : Nat) (_x : Addr) (entries : List (PAddr × Word)) (s : State) (hg : Memory.wf s.gmem = true) : gKept (execPagerMap handle _x entries s) := by
  unfold execPagerMap; dsimp only; rw [gKept_next]
  have h1 : Memory.wf (entries.foldl (fun s e => s.gWrite e.1.toNat (leBytes 8 e.2.toNat)) s).gmem = true :=
    foldl_wf _ _ _ hg fun s e hs => by simp [hs]
  have h2 := fun l => foldl_wf (wakeTile handle) l _ h1 fun s a hs => by rw [wakeTile_gmem]; exact hs
  (repeat' split) <;> simp [h2]

@[simp] theorem denyTile_gmem (va : Addr) (s : State) (tile : Nat) : (denyTile va s tile).gmem = s.gmem := by
  unfold denyTile; dsimp only
  refine (foldl_gmem _ _ _ fun s k => ?_).trans ((foldl_gmem _ _ _ fun s c => ?_).trans ?_)
  · split
    · split <;> simp
    · rfl
  · split
    · split
      · split <;> simp
      · rfl
    · rfl
  · simp

theorem execPageDenied_kept (handle : Nat) (va : Addr) (s : State) (hg : Memory.wf s.gmem = true) : gKept (execPageDenied handle va s) := by
  unfold execPageDenied; dsimp only; split <;> simp [hg]

theorem execTlbInvalidate_kept (handle : Nat) (va : Addr) (level : Nat) (s : State) (hg : Memory.wf s.gmem = true) : gKept (execTlbInvalidate handle va level s) := by
  unfold execTlbInvalidate; dsimp only; (repeat' split) <;> first | exact foldl_wf _ _ _ (by simp [hg]) (fun _ _ hs => by simp_all) | simp_all

/-! Rebalance. -/

theorem execRebalanceSample_kept (tile : Nat) (s : State) (hg : Memory.wf s.gmem = true) : gKept (execRebalanceSample tile s) := by
  unfold execRebalanceSample; dsimp only; (repeat' split) <;> simp [hg]

@[simp] theorem moveChans_gmem (s : State) (h tile target : Nat) (ps : List Nat) : (moveChans s h tile target ps).gmem = s.gmem := rfl

@[simp] theorem moveReqs_gmem (s : State) (tile actor key : Nat) : (moveReqs s tile actor key).gmem = s.gmem := rfl

theorem execMigration_kept (tile actor target : Nat) (s : State) (hg : Memory.wf s.gmem = true) : gKept (execMigration tile actor target s) := by
  unfold execMigration; dsimp only; (repeat' split) <;> simp [hg]

theorem execForwardingEntryRemoval_kept (tile : Nat) (s : State) (hg : Memory.wf s.gmem = true) : gKept (execForwardingEntryRemoval tile s) := by simp [execForwardingEntryRemoval, hg]

/-! Vector. -/

@[simp] theorem quiet_vmIssueCheck (s : State) (e : VqEntry) : quiet (vmIssueCheck s e) := by unfold vmIssueCheck; split <;> simp
@[simp] theorem gRun_vmIssueCheck {Q : _ → Prop} (s : State) (e : VqEntry) : gRun Q (vmIssueCheck s e) ↔ ∀ a, vmIssueCheck s e = .ok a → Q a := gRun_of_quiet (by simp)

theorem vecLate_become {s t : State} {i : Instr} (h : vecLate s i = .error (.become t)) : t.gmem = s.gmem := by
  unfold vecLate at h; dsimp only at h; split at h
  · split at h
    · rename_i e; cases h; simp [takeLate_gmem e]
    · cases h
  · cases h

@[simp] theorem gRun_vecLate {Q : Unit → Prop} {s : State} {i : Instr} (h : Memory.wf s.gmem = true) :
    gRun Q (vecLate s i) ↔ ∀ u, vecLate s i = .ok u → Q u := by
  rcases e : vecLate s i with (_ | _ | _ | _ | t) | p
  · simp
  · simp
  · simp
  · simp
  · simpa [vecLate_become e] using h
  · exact ⟨fun q _ _ => q, fun q => q p rfl⟩

@[simp] theorem quiet_cvtoPort (s : State) (i : Instr) : quiet (cvtoPort s i) := by
  unfold cvtoPort; dsimp only; (repeat' split) <;> simp
@[simp] theorem gRun_cvtoPort {Q : _ → Prop} (s : State) (i : Instr) : gRun Q (cvtoPort s i) ↔ ∀ a, cvtoPort s i = .ok a → Q a := gRun_of_quiet (by simp)

@[simp] theorem vecPush_gmem (s : State) (i : Instr) (x : VShape) (port : Option Nat) : (vecPush s i x port).gmem = s.gmem := by
  unfold vecPush; (repeat' split) <;> simp

theorem vecIssue_kept (i : Instr) (f : VW) (s : State) (hg : Memory.wf s.gmem = true) : gKept (vecIssue i f s) := by
  unfold vecIssue; split
  · exact hg
  · refine issueLong_kept _ _ _ _ _ _ hg fun s1 h1 => ?_
    simp [h1]; intros
    (repeat' split) <;> simp [h1]

theorem execVadd_kept (f : VW) (s : State) (hg : Memory.wf s.gmem = true) : gKept (execVadd f s) := by
  unfold execVadd; apply vecIssue_kept; exact hg

theorem execVsub_kept (f : VW) (s : State) (hg : Memory.wf s.gmem = true) : gKept (execVsub f s) := by
  unfold execVsub; apply vecIssue_kept; exact hg

theorem execVmul_kept (f : VW) (s : State) (hg : Memory.wf s.gmem = true) : gKept (execVmul f s) := by
  unfold execVmul; apply vecIssue_kept; exact hg

theorem execVmulh_kept (f : VW) (s : State) (hg : Memory.wf s.gmem = true) : gKept (execVmulh f s) := by
  unfold execVmulh; apply vecIssue_kept; exact hg

theorem execVmin_kept (f : VW) (s : State) (hg : Memory.wf s.gmem = true) : gKept (execVmin f s) := by
  unfold execVmin; apply vecIssue_kept; exact hg

theorem execVmax_kept (f : VW) (s : State) (hg : Memory.wf s.gmem = true) : gKept (execVmax f s) := by
  unfold execVmax; apply vecIssue_kept; exact hg

theorem execVminu_kept (f : VW) (s : State) (hg : Memory.wf s.gmem = true) : gKept (execVminu f s) := by
  unfold execVminu; apply vecIssue_kept; exact hg

theorem execVmaxu_kept (f : VW) (s : State) (hg : Memory.wf s.gmem = true) : gKept (execVmaxu f s) := by
  unfold execVmaxu; apply vecIssue_kept; exact hg

theorem execVand_kept (f : VW) (s : State) (hg : Memory.wf s.gmem = true) : gKept (execVand f s) := by
  unfold execVand; apply vecIssue_kept; exact hg

theorem execVor_kept (f : VW) (s : State) (hg : Memory.wf s.gmem = true) : gKept (execVor f s) := by
  unfold execVor; apply vecIssue_kept; exact hg

theorem execVxor_kept (f : VW) (s : State) (hg : Memory.wf s.gmem = true) : gKept (execVxor f s) := by
  unfold execVxor; apply vecIssue_kept; exact hg

theorem execVshl_kept (f : VW) (s : State) (hg : Memory.wf s.gmem = true) : gKept (execVshl f s) := by
  unfold execVshl; apply vecIssue_kept; exact hg

theorem execVshr_kept (f : VW) (s : State) (hg : Memory.wf s.gmem = true) : gKept (execVshr f s) := by
  unfold execVshr; apply vecIssue_kept; exact hg

theorem execVsra_kept (f : VW) (s : State) (hg : Memory.wf s.gmem = true) : gKept (execVsra f s) := by
  unfold execVsra; apply vecIssue_kept; exact hg

theorem execVabs_kept (f : VW) (s : State) (hg : Memory.wf s.gmem = true) : gKept (execVabs f s) := by
  unfold execVabs; apply vecIssue_kept; exact hg

theorem execVneg_kept (f : VW) (s : State) (hg : Memory.wf s.gmem = true) : gKept (execVneg f s) := by
  unfold execVneg; apply vecIssue_kept; exact hg

theorem execVadds_kept (f : VW) (s : State) (hg : Memory.wf s.gmem = true) : gKept (execVadds f s) := by
  unfold execVadds; apply vecIssue_kept; exact hg

theorem execVsubs_kept (f : VW) (s : State) (hg : Memory.wf s.gmem = true) : gKept (execVsubs f s) := by
  unfold execVsubs; apply vecIssue_kept; exact hg

theorem execVfadd_kept (f : VW) (s : State) (hg : Memory.wf s.gmem = true) : gKept (execVfadd f s) := by
  unfold execVfadd; apply vecIssue_kept; exact hg

theorem execVfsub_kept (f : VW) (s : State) (hg : Memory.wf s.gmem = true) : gKept (execVfsub f s) := by
  unfold execVfsub; apply vecIssue_kept; exact hg

theorem execVfmul_kept (f : VW) (s : State) (hg : Memory.wf s.gmem = true) : gKept (execVfmul f s) := by
  unfold execVfmul; apply vecIssue_kept; exact hg

theorem execVfma_kept (f : VW) (s : State) (hg : Memory.wf s.gmem = true) : gKept (execVfma f s) := by
  unfold execVfma; apply vecIssue_kept; exact hg

theorem execVfms_kept (f : VW) (s : State) (hg : Memory.wf s.gmem = true) : gKept (execVfms f s) := by
  unfold execVfms; apply vecIssue_kept; exact hg

theorem execVfnma_kept (f : VW) (s : State) (hg : Memory.wf s.gmem = true) : gKept (execVfnma f s) := by
  unfold execVfnma; apply vecIssue_kept; exact hg

theorem execVfmin_kept (f : VW) (s : State) (hg : Memory.wf s.gmem = true) : gKept (execVfmin f s) := by
  unfold execVfmin; apply vecIssue_kept; exact hg

theorem execVfmax_kept (f : VW) (s : State) (hg : Memory.wf s.gmem = true) : gKept (execVfmax f s) := by
  unfold execVfmax; apply vecIssue_kept; exact hg

theorem execVfabs_kept (f : VW) (s : State) (hg : Memory.wf s.gmem = true) : gKept (execVfabs f s) := by
  unfold execVfabs; apply vecIssue_kept; exact hg

theorem execVfneg_kept (f : VW) (s : State) (hg : Memory.wf s.gmem = true) : gKept (execVfneg f s) := by
  unfold execVfneg; apply vecIssue_kept; exact hg

theorem execVfcps_kept (f : VW) (s : State) (hg : Memory.wf s.gmem = true) : gKept (execVfcps f s) := by
  unfold execVfcps; apply vecIssue_kept; exact hg

theorem execVrsqrte_kept (f : VW) (s : State) (hg : Memory.wf s.gmem = true) : gKept (execVrsqrte f s) := by
  unfold execVrsqrte; apply vecIssue_kept; exact hg

theorem execVrcpe_kept (f : VW) (s : State) (hg : Memory.wf s.gmem = true) : gKept (execVrcpe f s) := by
  unfold execVrcpe; apply vecIssue_kept; exact hg

theorem execVexp2e_kept (f : VW) (s : State) (hg : Memory.wf s.gmem = true) : gKept (execVexp2e f s) := by
  unfold execVexp2e; apply vecIssue_kept; exact hg

theorem execVlog2e_kept (f : VW) (s : State) (hg : Memory.wf s.gmem = true) : gKept (execVlog2e f s) := by
  unfold execVlog2e; apply vecIssue_kept; exact hg

theorem execVcvt_kept (f : VW) (s : State) (hg : Memory.wf s.gmem = true) : gKept (execVcvt f s) := by
  unfold execVcvt; apply vecIssue_kept; exact hg

theorem execVcvto_kept (f : VW) (s : State) (hg : Memory.wf s.gmem = true) : gKept (execVcvto f s) := by
  unfold execVcvto; apply vecIssue_kept; exact hg

theorem execVpack_kept (f : VW) (s : State) (hg : Memory.wf s.gmem = true) : gKept (execVpack f s) := by
  unfold execVpack; apply vecIssue_kept; exact hg

theorem execVunpack_kept (f : VW) (s : State) (hg : Memory.wf s.gmem = true) : gKept (execVunpack f s) := by
  unfold execVunpack; apply vecIssue_kept; exact hg

theorem execVmxq_kept (f : VW) (s : State) (hg : Memory.wf s.gmem = true) : gKept (execVmxq f s) := by
  unfold execVmxq; apply vecIssue_kept; exact hg

theorem execVmxd_kept (f : VW) (s : State) (hg : Memory.wf s.gmem = true) : gKept (execVmxd f s) := by
  unfold execVmxd; apply vecIssue_kept; exact hg

theorem execVredadd_kept (f : VW) (s : State) (hg : Memory.wf s.gmem = true) : gKept (execVredadd f s) := by
  unfold execVredadd; apply vecIssue_kept; exact hg

theorem execVredmax_kept (f : VW) (s : State) (hg : Memory.wf s.gmem = true) : gKept (execVredmax f s) := by
  unfold execVredmax; apply vecIssue_kept; exact hg

theorem execVredmin_kept (f : VW) (s : State) (hg : Memory.wf s.gmem = true) : gKept (execVredmin f s) := by
  unfold execVredmin; apply vecIssue_kept; exact hg

theorem execVfredadd_kept (f : VW) (s : State) (hg : Memory.wf s.gmem = true) : gKept (execVfredadd f s) := by
  unfold execVfredadd; apply vecIssue_kept; exact hg

theorem execVbcst_kept (f : VW) (s : State) (hg : Memory.wf s.gmem = true) : gKept (execVbcst f s) := by
  unfold execVbcst; apply vecIssue_kept; exact hg

theorem execVshuf_kept (f : VW) (s : State) (hg : Memory.wf s.gmem = true) : gKept (execVshuf f s) := by
  unfold execVshuf; apply vecIssue_kept; exact hg

theorem execVslide_kept (f : VW) (s : State) (hg : Memory.wf s.gmem = true) : gKept (execVslide f s) := by
  unfold execVslide; apply vecIssue_kept; exact hg

theorem execViota_kept (f : VW) (s : State) (hg : Memory.wf s.gmem = true) : gKept (execViota f s) := by
  unfold execViota; apply vecIssue_kept; exact hg

theorem execVld_kept (f : VW) (s : State) (hg : Memory.wf s.gmem = true) : gKept (execVld f s) := by
  unfold execVld; apply vecIssue_kept; exact hg

theorem execVst_kept (f : VW) (s : State) (hg : Memory.wf s.gmem = true) : gKept (execVst f s) := by
  unfold execVst; apply vecIssue_kept; exact hg

theorem execVlds_kept (f : VW) (s : State) (hg : Memory.wf s.gmem = true) : gKept (execVlds f s) := by
  unfold execVlds; apply vecIssue_kept; exact hg

theorem execVsts_kept (f : VW) (s : State) (hg : Memory.wf s.gmem = true) : gKept (execVsts f s) := by
  unfold execVsts; apply vecIssue_kept; exact hg

theorem execVldx_kept (f : VW) (s : State) (hg : Memory.wf s.gmem = true) : gKept (execVldx f s) := by
  unfold execVldx; apply vecIssue_kept; exact hg

theorem execVstx_kept (f : VW) (s : State) (hg : Memory.wf s.gmem = true) : gKept (execVstx f s) := by
  unfold execVstx; apply vecIssue_kept; exact hg

theorem execVldb_kept (f : VW) (s : State) (hg : Memory.wf s.gmem = true) : gKept (execVldb f s) := by
  unfold execVldb; apply vecIssue_kept; exact hg

theorem execVcmpeq_kept (f : VW) (s : State) (hg : Memory.wf s.gmem = true) : gKept (execVcmpeq f s) := by
  unfold execVcmpeq; apply vecIssue_kept; exact hg

theorem execVcmpne_kept (f : VW) (s : State) (hg : Memory.wf s.gmem = true) : gKept (execVcmpne f s) := by
  unfold execVcmpne; apply vecIssue_kept; exact hg

theorem execVcmplt_kept (f : VW) (s : State) (hg : Memory.wf s.gmem = true) : gKept (execVcmplt f s) := by
  unfold execVcmplt; apply vecIssue_kept; exact hg

theorem execVcmple_kept (f : VW) (s : State) (hg : Memory.wf s.gmem = true) : gKept (execVcmple f s) := by
  unfold execVcmple; apply vecIssue_kept; exact hg

theorem execVfcmpeq_kept (f : VW) (s : State) (hg : Memory.wf s.gmem = true) : gKept (execVfcmpeq f s) := by
  unfold execVfcmpeq; apply vecIssue_kept; exact hg

theorem execVfcmplt_kept (f : VW) (s : State) (hg : Memory.wf s.gmem = true) : gKept (execVfcmplt f s) := by
  unfold execVfcmplt; apply vecIssue_kept; exact hg

theorem execVfcmple_kept (f : VW) (s : State) (hg : Memory.wf s.gmem = true) : gKept (execVfcmple f s) := by
  unfold execVfcmple; apply vecIssue_kept; exact hg

theorem execVfclass_kept (f : VW) (s : State) (hg : Memory.wf s.gmem = true) : gKept (execVfclass f s) := by
  unfold execVfclass; apply vecIssue_kept; exact hg

theorem execMand_kept (f : VW) (s : State) (hg : Memory.wf s.gmem = true) : gKept (execMand f s) := by
  unfold execMand; apply vecIssue_kept; exact hg

theorem execMor_kept (f : VW) (s : State) (hg : Memory.wf s.gmem = true) : gKept (execMor f s) := by
  unfold execMor; apply vecIssue_kept; exact hg

theorem execMxor_kept (f : VW) (s : State) (hg : Memory.wf s.gmem = true) : gKept (execMxor f s) := by
  unfold execMxor; apply vecIssue_kept; exact hg

theorem execMnot_kept (f : VW) (s : State) (hg : Memory.wf s.gmem = true) : gKept (execMnot f s) := by
  unfold execMnot; apply vecIssue_kept; exact hg

theorem execMpopc_kept (f : VW) (s : State) (hg : Memory.wf s.gmem = true) : gKept (execMpopc f s) := by
  unfold execMpopc; apply vecIssue_kept; exact hg

theorem execVsel_kept (f : VW) (s : State) (hg : Memory.wf s.gmem = true) : gKept (execVsel f s) := by
  unfold execVsel; apply vecIssue_kept; exact hg

theorem execVmovk_kept (f : VW) (s : State) (hg : Memory.wf s.gmem = true) : gKept (execVmovk f s) := by
  unfold execVmovk; apply vecIssue_kept; exact hg

theorem execVmovx_kept (f : VW) (s : State) (hg : Memory.wf s.gmem = true) : gKept (execVmovx f s) := by
  unfold execVmovx; apply vecIssue_kept; exact hg

theorem execLaneGroupBind_kept (tile group : Nat) (s : State) (hg : Memory.wf s.gmem = true) : gKept (execLaneGroupBind tile group s) := by
  unfold execLaneGroupBind; dsimp only; split <;> simp [hg]

theorem execVectorComplete_kept (tile ctx : Nat) (s : State) (hg : Memory.wf s.gmem = true) : gKept (execVectorComplete tile ctx s) := by
  unfold execVectorComplete; (repeat' split) <;> simp [hg]

/-- Every instruction and event keeps global memory canonical. -/
theorem exec_kept (i : Instr) (s : State) (hg : Memory.wf s.gmem = true) : gKept (exec i s) := by
  cases i
  · rename_i f; exact execNop_kept f s hg
  · exact execDoneI_kept _ _ hg
  · exact execRetireI_kept _ _ hg
  · exact execTrapI_kept _ _ hg
  · exact execEret_kept _ _ hg
  · exact execBrk_kept _ _ hg
  · exact execFence_kept _ _ hg
  · rename_i f; exact execIfence_kept f s hg
  · exact execAdd_kept _ _ hg
  · exact execSub_kept _ _ hg
  · exact execMul_kept _ _ hg
  · exact execMulh_kept _ _ hg
  · exact execMulhu_kept _ _ hg
  · exact execDiv_kept _ _ hg
  · exact execDivu_kept _ _ hg
  · exact execRem_kept _ _ hg
  · exact execRemu_kept _ _ hg
  · exact execAndR_kept _ _ hg
  · exact execOrR_kept _ _ hg
  · exact execXorR_kept _ _ hg
  · exact execAndn_kept _ _ hg
  · exact execOrn_kept _ _ hg
  · exact execShl_kept _ _ hg
  · exact execShr_kept _ _ hg
  · exact execSra_kept _ _ hg
  · exact execRor_kept _ _ hg
  · exact execMinR_kept _ _ hg
  · exact execMaxR_kept _ _ hg
  · exact execMinu_kept _ _ hg
  · exact execMaxu_kept _ _ hg
  · exact execSlt_kept _ _ hg
  · exact execSltu_kept _ _ hg
  · exact execSeq_kept _ _ hg
  · exact execSne_kept _ _ hg
  · exact execClz_kept _ _ hg
  · exact execCtz_kept _ _ hg
  · exact execPopc_kept _ _ hg
  · exact execAddw_kept _ _ hg
  · exact execSubw_kept _ _ hg
  · exact execMulw_kept _ _ hg
  · exact execSext_kept _ _ hg
  · exact execZext_kept _ _ hg
  · exact execAddi_kept _ _ hg
  · exact execAndi_kept _ _ hg
  · exact execOri_kept _ _ hg
  · exact execXori_kept _ _ hg
  · exact execShli_kept _ _ hg
  · exact execShri_kept _ _ hg
  · exact execSrai_kept _ _ hg
  · exact execRori_kept _ _ hg
  · exact execSlti_kept _ _ hg
  · exact execSltui_kept _ _ hg
  · exact execMuli_kept _ _ hg
  · exact execLih_kept _ _ hg
  · exact execLi_kept _ _ hg
  · exact execBeq_kept _ _ hg
  · exact execBne_kept _ _ hg
  · exact execBlt_kept _ _ hg
  · exact execBge_kept _ _ hg
  · exact execBltu_kept _ _ hg
  · exact execBgeu_kept _ _ hg
  · exact execJump_kept _ _ hg
  · exact execJal_kept _ _ hg
  · exact execJalr_kept _ _ hg
  · exact execLoopI_kept _ _ hg
  · exact execRepI_kept _ _ hg
  · exact execLdb_kept _ _ hg
  · exact execLdbu_kept _ _ hg
  · exact execLdh_kept _ _ hg
  · exact execLdhu_kept _ _ hg
  · exact execLdw_kept _ _ hg
  · exact execLdwu_kept _ _ hg
  · exact execLdd_kept _ _ hg
  · exact execLdc_kept _ _ hg
  · exact execStb_kept _ _ hg
  · exact execSth_kept _ _ hg
  · exact execStw_kept _ _ hg
  · exact execStd_kept _ _ hg
  · exact execStc_kept _ _ hg
  · exact execCinc_kept _ _ hg
  · exact execCsetb_kept _ _ hg
  · exact execCsetbx_kept _ _ hg
  · exact execCandp_kept _ _ hg
  · exact execCgeta_kept _ _ hg
  · exact execCgetb_kept _ _ hg
  · exact execCgett_kept _ _ hg
  · exact execCgetp_kept _ _ hg
  · exact execCgetty_kept _ _ hg
  · exact execCtag_kept _ _ hg
  · exact execCclr_kept _ _ hg
  · exact execCseal_kept _ _ hg
  · exact execCunseal_kept _ _ hg
  · exact execCmov_kept _ _ hg
  · exact execCsub_kept _ _ hg
  · exact execCeq_kept _ _ hg
  · exact execCinci_kept _ _ hg
  · exact execCsetbi_kept _ _ hg
  · exact execPut_kept _ _ hg
  · exact execPutr_kept _ _ hg
  · exact execPutl_kept _ _ hg
  · exact execTake_kept _ _ hg
  · exact execTakel_kept _ _ hg
  · exact execPeek_kept _ _ hg
  · exact execMarkNull_kept _ _ hg
  · exact execMarkRound_kept _ _ hg
  · exact execMarkEos_kept _ _ hg
  · exact execMarkPoison_kept _ _ hg
  · exact execPutn_kept _ _ hg
  · exact execRoom_kept _ _ hg
  · exact execChst_kept _ _ hg
  · exact execWaitany_kept _ _ hg
  · exact execWaitall_kept _ _ hg
  · exact execFfr_kept _ _ hg
  · exact execTagclr_kept _ _ hg
  · exact execTagrd_kept _ _ hg
  · exact execBarrive_kept _ _ hg
  · exact execBarwait_kept _ _ hg
  · exact execBartest_kept _ _ hg
  · exact execBarleave_kept _ _ hg
  · exact execMfs_kept _ _ hg
  · exact execMts_kept _ _ hg
  · exact execStartI_kept _ _ hg
  · exact execVadd_kept _ _ hg
  · exact execVsub_kept _ _ hg
  · exact execVmul_kept _ _ hg
  · exact execVmulh_kept _ _ hg
  · exact execVmin_kept _ _ hg
  · exact execVmax_kept _ _ hg
  · exact execVminu_kept _ _ hg
  · exact execVmaxu_kept _ _ hg
  · exact execVand_kept _ _ hg
  · exact execVor_kept _ _ hg
  · exact execVxor_kept _ _ hg
  · exact execVshl_kept _ _ hg
  · exact execVshr_kept _ _ hg
  · exact execVsra_kept _ _ hg
  · exact execVabs_kept _ _ hg
  · exact execVneg_kept _ _ hg
  · exact execVadds_kept _ _ hg
  · exact execVsubs_kept _ _ hg
  · exact execVfadd_kept _ _ hg
  · exact execVfsub_kept _ _ hg
  · exact execVfmul_kept _ _ hg
  · exact execVfma_kept _ _ hg
  · exact execVfms_kept _ _ hg
  · exact execVfnma_kept _ _ hg
  · exact execVfmin_kept _ _ hg
  · exact execVfmax_kept _ _ hg
  · exact execVfabs_kept _ _ hg
  · exact execVfneg_kept _ _ hg
  · exact execVfcps_kept _ _ hg
  · exact execVrsqrte_kept _ _ hg
  · exact execVrcpe_kept _ _ hg
  · exact execVexp2e_kept _ _ hg
  · exact execVlog2e_kept _ _ hg
  · exact execVcvt_kept _ _ hg
  · exact execVcvto_kept _ _ hg
  · exact execVpack_kept _ _ hg
  · exact execVunpack_kept _ _ hg
  · exact execVmxq_kept _ _ hg
  · exact execVmxd_kept _ _ hg
  · exact execVredadd_kept _ _ hg
  · exact execVredmax_kept _ _ hg
  · exact execVredmin_kept _ _ hg
  · exact execVfredadd_kept _ _ hg
  · exact execVbcst_kept _ _ hg
  · exact execVshuf_kept _ _ hg
  · exact execVslide_kept _ _ hg
  · exact execViota_kept _ _ hg
  · exact execVld_kept _ _ hg
  · exact execVst_kept _ _ hg
  · exact execVlds_kept _ _ hg
  · exact execVsts_kept _ _ hg
  · exact execVldx_kept _ _ hg
  · exact execVstx_kept _ _ hg
  · exact execVldb_kept _ _ hg
  · exact execVcmpeq_kept _ _ hg
  · exact execVcmpne_kept _ _ hg
  · exact execVcmplt_kept _ _ hg
  · exact execVcmple_kept _ _ hg
  · exact execVfcmpeq_kept _ _ hg
  · exact execVfcmplt_kept _ _ hg
  · exact execVfcmple_kept _ _ hg
  · exact execVfclass_kept _ _ hg
  · exact execMand_kept _ _ hg
  · exact execMor_kept _ _ hg
  · exact execMxor_kept _ _ hg
  · exact execMnot_kept _ _ hg
  · exact execMpopc_kept _ _ hg
  · exact execVsel_kept _ _ hg
  · exact execVmovk_kept _ _ hg
  · exact execVmovx_kept _ _ hg
  · exact execGld_kept _ _ hg
  · exact execGst_kept _ _ hg
  · exact execGlda_kept _ _ hg
  · exact execGstr_kept _ _ hg
  · exact execGaadd_kept _ _ hg
  · exact execGamin_kept _ _ hg
  · exact execGamax_kept _ _ hg
  · exact execGaand_kept _ _ hg
  · exact execGaor_kept _ _ hg
  · exact execGaxor_kept _ _ hg
  · exact execGaswp_kept _ _ hg
  · exact execGacas_kept _ _ hg
  · exact execGafadd_kept _ _ hg
  · exact execGldv_kept _ _ hg
  · exact execGstv_kept _ _ hg
  · exact execGvq_kept _ _ hg
  · exact execMma_kept _ _ hg
  · exact execMinit_kept _ _ hg
  · exact execMinitPort_kept _ _ hg
  · exact execMrel_kept _ _ hg
  · exact execMzero_kept _ _ hg
  · exact execMshape_kept _ _ hg
  · exact execMrd_kept _ _ hg
  · exact execDcopy_kept _ _ hg
  · exact execDscfg_kept _ _ hg
  · exact execDsgo_kept _ _ hg
  · exact execDsstop_kept _ _ hg
  · exact execDbank_kept _ _ hg
  · exact execLtab_kept _ _ hg
  · exact execLtabStream_kept _ _ hg
  · exact execLwire_kept _ _ hg
  · exact execLsel_kept _ _ hg
  · exact execLeval_kept _ _ hg
  · exact execLslice_kept _ _ hg
  · exact execLunslice_kept _ _ hg
  · exact execLpld_kept _ _ hg
  · exact execLpst_kept _ _ hg
  · exact execLpcnt_kept _ _ hg
  · exact execSweep_kept _ _ hg
  · exact execSwq_kept _ _ hg
  · exact execSwabt_kept _ _ hg
  · exact execOsend_kept _ _ hg
  · exact execOwm_kept _ _ hg
  · exact execCslot_kept _ _ hg
  · exact execRload_kept _ _ hg
  · exact execRquery_kept _ _ hg
  · exact execDispatch_kept _ _ _ hg
  · exact execFiringEnd_kept _ _ _ hg
  · exact execNullPassFiring_kept _ _ _ hg
  · exact execActorEnd_kept _ _ _ hg
  · exact execLengthMismatch_kept _ _ _ hg
  · exact execRoundPass_kept _ _ _ hg
  · exact execRoundMismatch_kept _ _ _ hg
  · exact execTokenArrival_kept _ _ _ _ hg
  · exact execCreditReturn_kept _ _ _ hg
  · exact execForkForward_kept _ _ hg
  · exact execSteerOp_kept _ _ _ hg
  · exact execMergeOp_kept _ _ _ hg
  · exact execCarryOp_kept _ _ _ hg
  · exact execConfigSlotSwitch_kept _ _ hg
  · exact execBankTransfer_kept _ _ _ hg
  · exact execLaneGroupBind_kept _ _ _ hg
  · exact execVectorComplete_kept _ _ _ hg
  · exact execWindowClose_kept _ _ _ _ hg
  · exact execMemoryRequest_kept _ _ _ hg
  · exact execGlobalReply_kept _ _ _ hg
  · exact execStoreAck_kept _ _ _ hg
  · exact execRetryReply_kept _ _ _ hg
  · exact execTranslationWalk_kept _ _ _ _ hg
  · rename_i v _; exact execPagerMap_kept _ v _ _ hg
  · exact execPageDenied_kept _ _ _ hg
  · exact execTlbInvalidate_kept _ _ _ _ hg
  · exact execMxCommandComplete_kept _ _ _ hg
  · exact execReleaseTokenSend_kept _ _ _ hg
  · exact execLcCommandComplete_kept _ _ _ hg
  · exact execDcopyComplete_kept _ _ _ hg
  · exact execRemoteLineWrite_kept _ _ hg
  · exact execDcopyRefusal_kept _ _ _ hg
  · exact execStreamTokenPut_kept _ _ _ hg
  · exact execStreamTokenTake_kept _ _ _ hg
  · exact execBarrierRelease_kept _ _ hg
  · exact execSweepLaunch_kept _ _ hg
  · exact execSweepLaunchToken_kept _ _ _ hg
  · exact execRetireNotice_kept _ _ _ hg
  · exact execSweepEnd_kept _ _ hg
  · exact execSweepPartition_kept _ _ hg
  · exact execSweepAbortConfirm_kept _ _ hg
  · exact execSyncWaveEmit_kept _ hg
  · exact execSyncWave_kept _ _ hg
  · exact execUnsynchronised_kept _ _ hg
  · exact execOrderedMessageArrival_kept _ _ _ hg
  · exact execBeacon_kept _ _ _ _ hg
  · exact execIdleBeacon_kept _ _ hg
  · exact execBeaconForward_kept _ _ hg
  · exact execOwmStall_kept _ _ _ hg
  · exact execWatchdog_kept _ _ hg
  · exact execRebalanceSample_kept _ _ hg
  · exact execMigration_kept _ _ _ _ hg
  · exact execForwardingEntryRemoval_kept _ _ hg
  · exact execTrapTaken_kept _ _ _ hg
  · exact execBrkRelease_kept _ _ hg
  · exact execPreemptToken_kept _ _ hg
  · exact execPreemptRequest_kept _ _ hg
  · exact execPreemptResume_kept _ _ hg
  · exact execHaltedSet_kept _ _ hg
  · exact execWdogWrite_kept _ _ _ hg
  · exact execSnapCmd_kept _ _ hg
  · exact execSnapArrival_kept _ _ _ hg
  · exact execSnapshotTileComplete_kept _ _ _ hg
  · exact execRestoreCmd_kept _ _ hg
  · exact execGoCmd_kept _ _ hg
  · exact execAbortCmd_kept _ _ hg
  · exact execCommitParams_kept _ _ hg
  · exact execResidencyDispatch_kept _ _ hg
  · exact execImageStaging_kept _ _ hg
  · exact execArming_kept _ _ hg
  · exact execResidencyStart_kept _ _ hg
  · exact execResidencyEnd_kept _ _ hg
  · exact execResidencyAbort_kept _ _ hg
  · exact execReplayRearm_kept _ _ hg
  · exact execFaultToken_kept _ _ hg
  · exact execFaultPortEos_kept _ _ hg
  · exact execInletData_kept _ _ _ hg
  · exact execInletEos_kept _ _ _ hg
  · exact execInletRound_kept _ _ hg
  · exact execInletNull_kept _ _ hg
  · exact execInletLine_kept _ _ _ _ hg
  · exact execTakenWrite_kept _ _ _ hg
  · exact execBar4Access_kept _ _ _ _ _ _ hg
  · exact execHostPortLinkFail_kept _ _ hg
  · exact execAttestationReport_kept _ _ hg
  · exact execKeySlotFill_kept _ _ _ _ hg
  · exact execRecoveryImageLoad_kept _ _ hg
  · exact execHostRetire_kept _ _ hg
  · exact execFabricEnable_kept _ _ _ hg
  · exact execRegisterWrite_kept _ _ _ hg
  · exact execFabricElementFire_kept _ _ _ hg
  · exact execFlitReceive_kept _ _ _ hg
  · exact execAckFlit_kept _ _ _ hg
  · exact execNakFlit_kept _ _ _ hg
  · exact execRetrain_kept _ _ hg
  · exact execLinkDead_kept _ _ hg
  · exact execTimingFlitSend_kept _ hg
  · exact execTimingFlit_kept _ _ _ hg
  · exact execCoxEpoch_kept _ hg
  · exact execDroopStop_kept _ _ hg
  · exact execDroopRecovery_kept _ _ hg
  · exact execTileRetirement_kept _ _ hg
  · exact execPowerOn_kept _ _ hg
  · exact execUnusedEncoding_kept _ _ _ hg
  · rename_i w; exact execFetchFault_kept _ _ w s hg
  · exact execRetrainEnd_kept _ _ _ hg
  · exact execLinkStopsAnswering_kept _ _ hg
  · exact execPowerLoss_kept _ _ hg

end Sys2Proof.Machine
end

