-- ==== Sys2Proof/Laws/Ops.lean ====
section
/-!
SUPPORT. What the shared operations do, said once: the register guard, completing an instruction, and the results of the
scalar forms (03 R66, R68, R79, 05 R131, R143).
-/

namespace Sys2Proof.Machine

/-! Replacing the same place twice. -/

theorem AMap.set_set {α : Type} (m : AMap α) (k : Nat) (a b : α) : AMap.set (AMap.set m k a) k b = AMap.set m k b := by
  induction m with
  | nil => simp [AMap.set]
  | cons p m ih =>
    obtain ⟨k', v⟩ := p
    simp only [AMap.set]
    split
    · simp [AMap.set, *]
    · split <;> simp [AMap.set]

@[simp] theorem Tile.setCtx_setCtx (t : Tile) (n : Nat) (a b : Ctx) : (t.setCtx n a).setCtx n b = t.setCtx n b := by
  simp [Tile.setCtx, AMap.set_set]

@[simp] theorem State.setHere_setHere (s : State) (a b : Tile) : (s.setHere a).setHere b = s.setHere b := by
  simp [State.setHere, State.setTile, AMap.set_set]

@[simp] theorem State.setMe_setMe (s : State) (a b : Ctx) : (s.setMe a).setMe b = s.setMe b := by
  unfold State.setMe
  simp [State.setHere_setHere]

/-! Guards. -/

@[simp] theorem trapIf_false (c : Byte) (v : Word) : trapIf false c v = .ok () := rfl
@[simp] theorem trapIf_true (c : Byte) (v : Word) : trapIf true c v = .error (.trap c v) := rfl
@[simp] theorem stallIf_false : stallIf false = .ok () := rfl
@[simp] theorem stallIf_true : stallIf true = .error .stall := rfl
@[simp] theorem orTrap_none : orTrap none = .ok () := rfl

/-- With its registers ready, an instruction passes step 7 of R85 and its interlocks. -/
theorem guardK_ready {s : State} {fs rs ws : List (BitVec 6)} (h : s.kReady fs rs ws) : guardK s fs rs ws = .ok () := by
  obtain ⟨hf, hr, hw⟩ := h
  have e : fs.find? (fun r => !s.me.kOk r) = none := by
    simp only [List.find?_eq_none, Bool.not_eq_true', Bool.not_eq_false]
    exact hf
  have a : (rs.any (busyRead s.here s.me) || ws.any (busyWrite s.here s.me)) = false := by
    simp only [Bool.or_eq_false_iff, List.any_eq_false]
    exact ⟨fun r hr' => by simp [hr r hr'], fun r hr' => by simp [hw r hr']⟩
  simp [guardK, rangeCheck, e, a]

/-- A scalar instruction outside REP passes the check of R146. -/
theorem notInRep_ok {s : State} (i : Instr) (h : s.me.inRep = false) : notInRep s i = .ok () := by simp [notInRep, h]

theorem tlmReady_ok {s : State} (h : s.tlmFree) : tlmReady s = .ok () := by
  have := h.1
  unfold vmQueued at this
  simp [tlmReady, this, h.2]

/-! The next address. -/

theorem KReg.addr_withAddr (c : KReg) (a : Addr) : (c.withAddr a).addr = a := by
  unfold KReg.withAddr KReg.addr
  apply BitVec.eq_of_toNat_eq
  simp only [BitVec.extractLsb'_toNat, BitVec.toNat_append, Nat.shiftRight_zero]
  rw [Nat.or_mod_two_pow]
  simpa [Nat.shiftLeft_eq] using a.isLt

@[simp] theorem Ctx.pc_setPc (c : Ctx) (a : Addr) : (c.setPc a).pc = a := KReg.addr_withAddr _ _

theorem Ctx.endLoop0_kw (c : Ctx) (k : AMap KReg) (ws : List Win) (a : Addr) :
    ({ c with k := k, wins := ws }).endLoop0 a = { c.endLoop0 a with k := k, wins := ws } := by
  unfold Ctx.endLoop0
  dsimp only
  split
  · split <;> rfl
  · rfl

theorem Ctx.endLoops_kw (c : Ctx) (k : AMap KReg) (ws : List Win) (a : Addr) :
    ({ c with k := k, wins := ws }).endLoops a = { c.endLoops a with k := k, wins := ws } := by
  unfold Ctx.endLoops
  dsimp only
  split
  · split
    · split
      · exact Ctx.endLoop0_kw { c with loop1 := { c.loop1 with active := false } } k ws a
      · rfl
    · rfl
  · exact Ctx.endLoop0_kw c k ws a

theorem Ctx.endRep_kw (c : Ctx) (k : AMap KReg) (ws : List Win) : ({ c with k := k, wins := ws }).endRep = { c.endRep with k := k, wins := ws } := by
  unfold Ctx.endRep
  dsimp only
  split
  · rfl
  · exact Ctx.endLoops_kw { c with rep := RepBuf.blank } k ws _

/-- The k registers and the open windows have no part in where the context goes on. -/
theorem Ctx.advance_kw (c : Ctx) (k : AMap KReg) (ws : List Win) (n : Nat) :
    ({ c with k := k, wins := ws }).advance n = { c.advance n with k := k, wins := ws } := by
  have l : ({ c with k := k, wins := ws }).advance n = if c.inRep then
      (if c.pc + BitVec.ofNat 48 n = c.rep.e then ({ c.setPc (c.pc + BitVec.ofNat 48 n) with k := k, wins := ws }).endRep
       else { ({ c.setPc (c.pc + BitVec.ofNat 48 n) with k := k, wins := ws }) with rep := { c.rep with idx := c.rep.idx + 1 } })
    else ({ c.setPc (c.pc + BitVec.ofNat 48 n) with k := k, wins := ws }).endLoops (c.pc + BitVec.ofNat 48 n) := rfl
  rw [l, Ctx.endRep_kw, Ctx.endLoops_kw]
  unfold Ctx.advance
  dsimp only
  by_cases h : c.inRep
  · rw [if_pos h, if_pos h]
    by_cases g : c.pc + BitVec.ofNat 48 n = c.rep.e
    · rw [if_pos g, if_pos g]
    · rw [if_neg g, if_neg g]; rfl
  · rw [if_neg h, if_neg h]

/-- Where no loop is active the next address follows the instruction (R65). -/
theorem Ctx.advance_unlooped {c : Ctx} (h : c.unlooped) (n : Nat) : (c.advance n).pc = c.pc + BitVec.ofNat 48 n := by
  obtain ⟨h0, h1, h2⟩ := h
  simp [Ctx.advance, Ctx.inRep, h2, Ctx.endLoops, Ctx.endLoop0, LoopLevel.ends, Ctx.setPc_loop0, Ctx.setPc_loop1, h0, h1]

@[simp] theorem State.me_complete (s : State) (n : Nat) : (s.complete n).me = { (s.me.countWins.advance n) with stalled := false } := by
  simp [State.complete]

theorem Ctx.endLoop0_only (c : Ctx) (a : Addr) : c.endLoop0 a = { c with pcc := (c.endLoop0 a).pcc, loop0 := (c.endLoop0 a).loop0 } := by
  unfold Ctx.endLoop0
  split
  · split <;> rfl
  · rfl

theorem Ctx.endLoops_only (c : Ctx) (a : Addr) : c.endLoops a = { c with pcc := (c.endLoops a).pcc, loop0 := (c.endLoops a).loop0, loop1 := (c.endLoops a).loop1 } := by
  unfold Ctx.endLoops
  split
  · split
    · split
      · rw [Ctx.endLoop0_only]
      · rfl
    · rfl
  · rw [Ctx.endLoop0_only]

theorem Ctx.endRep_only (c : Ctx) : c.endRep = { c with pcc := c.endRep.pcc, loop0 := c.endRep.loop0, loop1 := c.endRep.loop1, rep := c.endRep.rep } := by
  unfold Ctx.endRep
  split
  · rfl
  · rw [Ctx.endLoops_only]

/-- Going on changes the PCC and the loop state alone. -/
theorem Ctx.advance_only (c : Ctx) (n : Nat) : c.advance n = { c with pcc := (c.advance n).pcc, loop0 := (c.advance n).loop0, loop1 := (c.advance n).loop1, rep := (c.advance n).rep } := by
  unfold Ctx.advance
  dsimp only
  split
  · split
    · rw [Ctx.endRep_only]; rfl
    · rfl
  · rw [Ctx.endLoops_only]; rfl

/-- Counting an instruction touches the windows alone. -/
theorem Ctx.countWins_advance (c : Ctx) (n : Nat) : c.countWins.advance n = { c.advance n with wins := c.countWins.wins } :=
  (Ctx.advance_kw c c.k _ n).trans (by rw [Ctx.advance_only]; rfl)

@[simp] theorem Ctx.countWins_advance_pcc (c : Ctx) (n : Nat) : (c.countWins.advance n).pcc = (c.advance n).pcc := by
  rw [Ctx.countWins_advance]

/-- Replacing the context leaves every byte of tile memory. -/
theorem State.setMe_sameTlm (s : State) (c : Ctx) : s.sameTlm (s.setMe c) := by
  intro n a
  by_cases h : s.cur.tile = n
  · subst h; simp [State.setMe, State.setHere, Tile.setCtx, State.here]
  · simp [State.setMe, State.setHere, h]

/-- Replacing the context leaves global memory. -/
theorem State.setMe_sameGmem (s : State) (c : Ctx) : s.sameGmem (s.setMe c) := fun _ => rfl

/-- A k register has no part in where the context goes on. -/
theorem Ctx.advance_writeK (c : Ctx) (d : BitVec 6) (x : KReg) (n : Nat) : (c.writeK d x).advance n = { c.advance n with k := (c.writeK d x).k } := by
  unfold Ctx.writeK
  split
  · rw [Ctx.advance_only]
  · exact Ctx.advance_kw c _ c.wins n |>.trans (by rw [Ctx.advance_only])

/-- What an instruction does that writes k[d] and completes (R66, R79, R143). -/
theorem writesK_complete (s : State) (len : Nat) (d : BitVec 6) (x : KReg) :
    let t := (s.setMe (s.me.writeK d x)).complete len
    t.me.readK d = wroteK d x ∧ GoesOn s t len ∧ ScalarFrame s t [d] := by
  intro t
  have e : t = s.setMe t.me := by simp [t, State.complete]
  have m : t.me = { s.me.advance len with k := (s.me.writeK d x).k, wins := s.me.countWins.wins, stalled := false } := by
    simp only [t, State.me_complete, State.me_setMe, Ctx.countWins_advance, Ctx.advance_writeK]
    simp [Ctx.countWins]
  have r : ∀ q, t.me.readK q = (s.me.writeK d x).readK q := by intro q; rw [m]; rfl
  refine ⟨by rw [r]; simp [wroteK], ⟨by rw [m], by rw [m], by rw [m], by rw [m], ?_⟩, ⟨e, ?_, ?_, ?_, ?_⟩⟩
  · intro h
    rw [← Ctx.advance_unlooped h]; rw [m]; rfl
  · rw [m]; unfold Ctx.onlyScalar; dsimp only; rw [Ctx.advance_only]
  · intro q hq
    rw [r, Ctx.readK_writeK_other]; simpa [eq_comm] using hq
  · rw [e]; exact State.setMe_sameTlm _ _
  · rw [e]; exact State.setMe_sameGmem _ _

end Sys2Proof.Machine
end

