-- ==== Sys2Proof/Laws/PerInstr.lean ====
section
/-!
SUPPORT. What holds of every instruction as syntax, one lemma per constructor of Instr. Family Enc: the length bits of an
instruction's first word agree with the number of words it has (R64, R65), and an event has no words.
-/

namespace Sys2Proof.Laws

/-- An instruction has at most two words, and the length bits of the first say whether there is a second (R64, R65). -/
def Enc.Statement (i : Instr) : Prop := match encode i with
  | [] => True
  | [w] => isLong w = some false
  | [w0, _] => isLong w0 = some true
  | _ => False

theorem Enc.nop (f) : Enc.Statement (.nop f) := isLong_short (length_packK3 _ _ f)
theorem Enc.doneI (f) : Enc.Statement (.doneI f) := isLong_short (length_packK3 _ _ f)
theorem Enc.retireI (f) : Enc.Statement (.retireI f) := isLong_short (length_packK3 _ _ f)
theorem Enc.trapI (f) : Enc.Statement (.trapI f) := isLong_short (length_packK3 _ _ f)
theorem Enc.eret (f) : Enc.Statement (.eret f) := isLong_short (length_packK3 _ _ f)
theorem Enc.brk (f) : Enc.Statement (.brk f) := isLong_short (length_packK3 _ _ f)
theorem Enc.fence (f) : Enc.Statement (.fence f) := isLong_short (length_packK3 _ _ f)
theorem Enc.ifence (f) : Enc.Statement (.ifence f) := isLong_short (length_packK3 _ _ f)
theorem Enc.add (f) : Enc.Statement (.add f) := isLong_short (length_packK3 _ _ f)
theorem Enc.sub (f) : Enc.Statement (.sub f) := isLong_short (length_packK3 _ _ f)
theorem Enc.mul (f) : Enc.Statement (.mul f) := isLong_short (length_packK3 _ _ f)
theorem Enc.mulh (f) : Enc.Statement (.mulh f) := isLong_short (length_packK3 _ _ f)
theorem Enc.mulhu (f) : Enc.Statement (.mulhu f) := isLong_short (length_packK3 _ _ f)
theorem Enc.div (f) : Enc.Statement (.div f) := isLong_short (length_packK3 _ _ f)
theorem Enc.divu (f) : Enc.Statement (.divu f) := isLong_short (length_packK3 _ _ f)
theorem Enc.rem (f) : Enc.Statement (.rem f) := isLong_short (length_packK3 _ _ f)
theorem Enc.remu (f) : Enc.Statement (.remu f) := isLong_short (length_packK3 _ _ f)
theorem Enc.andR (f) : Enc.Statement (.andR f) := isLong_short (length_packK3 _ _ f)
theorem Enc.orR (f) : Enc.Statement (.orR f) := isLong_short (length_packK3 _ _ f)
theorem Enc.xorR (f) : Enc.Statement (.xorR f) := isLong_short (length_packK3 _ _ f)
theorem Enc.andn (f) : Enc.Statement (.andn f) := isLong_short (length_packK3 _ _ f)
theorem Enc.orn (f) : Enc.Statement (.orn f) := isLong_short (length_packK3 _ _ f)
theorem Enc.shl (f) : Enc.Statement (.shl f) := isLong_short (length_packK3 _ _ f)
theorem Enc.shr (f) : Enc.Statement (.shr f) := isLong_short (length_packK3 _ _ f)
theorem Enc.sra (f) : Enc.Statement (.sra f) := isLong_short (length_packK3 _ _ f)
theorem Enc.ror (f) : Enc.Statement (.ror f) := isLong_short (length_packK3 _ _ f)
theorem Enc.minR (f) : Enc.Statement (.minR f) := isLong_short (length_packK3 _ _ f)
theorem Enc.maxR (f) : Enc.Statement (.maxR f) := isLong_short (length_packK3 _ _ f)
theorem Enc.minu (f) : Enc.Statement (.minu f) := isLong_short (length_packK3 _ _ f)
theorem Enc.maxu (f) : Enc.Statement (.maxu f) := isLong_short (length_packK3 _ _ f)
theorem Enc.slt (f) : Enc.Statement (.slt f) := isLong_short (length_packK3 _ _ f)
theorem Enc.sltu (f) : Enc.Statement (.sltu f) := isLong_short (length_packK3 _ _ f)
theorem Enc.seq (f) : Enc.Statement (.seq f) := isLong_short (length_packK3 _ _ f)
theorem Enc.sne (f) : Enc.Statement (.sne f) := isLong_short (length_packK3 _ _ f)
theorem Enc.clz (f) : Enc.Statement (.clz f) := isLong_short (length_packK3 _ _ f)
theorem Enc.ctz (f) : Enc.Statement (.ctz f) := isLong_short (length_packK3 _ _ f)
theorem Enc.popc (f) : Enc.Statement (.popc f) := isLong_short (length_packK3 _ _ f)
theorem Enc.addw (f) : Enc.Statement (.addw f) := isLong_short (length_packK3 _ _ f)
theorem Enc.subw (f) : Enc.Statement (.subw f) := isLong_short (length_packK3 _ _ f)
theorem Enc.mulw (f) : Enc.Statement (.mulw f) := isLong_short (length_packK3 _ _ f)
theorem Enc.sext (f) : Enc.Statement (.sext f) := isLong_short (length_packK3 _ _ f)
theorem Enc.zext (f) : Enc.Statement (.zext f) := isLong_short (length_packK3 _ _ f)
theorem Enc.addi (f) : Enc.Statement (.addi f) := isLong_short (length_packKI _ f)
theorem Enc.andi (f) : Enc.Statement (.andi f) := isLong_short (length_packKI _ f)
theorem Enc.ori (f) : Enc.Statement (.ori f) := isLong_short (length_packKI _ f)
theorem Enc.xori (f) : Enc.Statement (.xori f) := isLong_short (length_packKI _ f)
theorem Enc.shli (f) : Enc.Statement (.shli f) := isLong_short (length_packKI _ f)
theorem Enc.shri (f) : Enc.Statement (.shri f) := isLong_short (length_packKI _ f)
theorem Enc.srai (f) : Enc.Statement (.srai f) := isLong_short (length_packKI _ f)
theorem Enc.rori (f) : Enc.Statement (.rori f) := isLong_short (length_packKI _ f)
theorem Enc.slti (f) : Enc.Statement (.slti f) := isLong_short (length_packKI _ f)
theorem Enc.sltui (f) : Enc.Statement (.sltui f) := isLong_short (length_packKI _ f)
theorem Enc.muli (f) : Enc.Statement (.muli f) := isLong_short (length_packKI _ f)
theorem Enc.lih (f) : Enc.Statement (.lih f) := isLong_short (length_packKU _ f)
theorem Enc.li (f) : Enc.Statement (.li f) := isLong_long (length_liWord0 f)
theorem Enc.beq (f) : Enc.Statement (.beq f) := isLong_short (length_packKB _ f)
theorem Enc.bne (f) : Enc.Statement (.bne f) := isLong_short (length_packKB _ f)
theorem Enc.blt (f) : Enc.Statement (.blt f) := isLong_short (length_packKB _ f)
theorem Enc.bge (f) : Enc.Statement (.bge f) := isLong_short (length_packKB _ f)
theorem Enc.bltu (f) : Enc.Statement (.bltu f) := isLong_short (length_packKB _ f)
theorem Enc.bgeu (f) : Enc.Statement (.bgeu f) := isLong_short (length_packKB _ f)
theorem Enc.jump (f) : Enc.Statement (.jump f) := isLong_short (length_packKJ _ f)
theorem Enc.jal (f) : Enc.Statement (.jal f) := isLong_short (length_packKJ _ f)
theorem Enc.jalr (f) : Enc.Statement (.jalr f) := isLong_short (length_packKI _ f)
theorem Enc.loopI (f) : Enc.Statement (.loopI f) := isLong_short (length_packKI _ f)
theorem Enc.repI (f) : Enc.Statement (.repI f) := isLong_short (length_packKR f)
theorem Enc.ldb (f) : Enc.Statement (.ldb f) := isLong_short (length_packKI _ f)
theorem Enc.ldbu (f) : Enc.Statement (.ldbu f) := isLong_short (length_packKI _ f)
theorem Enc.ldh (f) : Enc.Statement (.ldh f) := isLong_short (length_packKI _ f)
theorem Enc.ldhu (f) : Enc.Statement (.ldhu f) := isLong_short (length_packKI _ f)
theorem Enc.ldw (f) : Enc.Statement (.ldw f) := isLong_short (length_packKI _ f)
theorem Enc.ldwu (f) : Enc.Statement (.ldwu f) := isLong_short (length_packKI _ f)
theorem Enc.ldd (f) : Enc.Statement (.ldd f) := isLong_short (length_packKI _ f)
theorem Enc.ldc (f) : Enc.Statement (.ldc f) := isLong_short (length_packKI _ f)
theorem Enc.stb (f) : Enc.Statement (.stb f) := isLong_short (length_packKS _ f)
theorem Enc.sth (f) : Enc.Statement (.sth f) := isLong_short (length_packKS _ f)
theorem Enc.stw (f) : Enc.Statement (.stw f) := isLong_short (length_packKS _ f)
theorem Enc.std (f) : Enc.Statement (.std f) := isLong_short (length_packKS _ f)
theorem Enc.stc (f) : Enc.Statement (.stc f) := isLong_short (length_packKS _ f)
theorem Enc.cinc (f) : Enc.Statement (.cinc f) := isLong_short (length_packK3 _ _ f)
theorem Enc.csetb (f) : Enc.Statement (.csetb f) := isLong_short (length_packK3 _ _ f)
theorem Enc.csetbx (f) : Enc.Statement (.csetbx f) := isLong_short (length_packK3 _ _ f)
theorem Enc.candp (f) : Enc.Statement (.candp f) := isLong_short (length_packK3 _ _ f)
theorem Enc.cgeta (f) : Enc.Statement (.cgeta f) := isLong_short (length_packK3 _ _ f)
theorem Enc.cgetb (f) : Enc.Statement (.cgetb f) := isLong_short (length_packK3 _ _ f)
theorem Enc.cgett (f) : Enc.Statement (.cgett f) := isLong_short (length_packK3 _ _ f)
theorem Enc.cgetp (f) : Enc.Statement (.cgetp f) := isLong_short (length_packK3 _ _ f)
theorem Enc.cgetty (f) : Enc.Statement (.cgetty f) := isLong_short (length_packK3 _ _ f)
theorem Enc.ctag (f) : Enc.Statement (.ctag f) := isLong_short (length_packK3 _ _ f)
theorem Enc.cclr (f) : Enc.Statement (.cclr f) := isLong_short (length_packK3 _ _ f)
theorem Enc.cseal (f) : Enc.Statement (.cseal f) := isLong_short (length_packK3 _ _ f)
theorem Enc.cunseal (f) : Enc.Statement (.cunseal f) := isLong_short (length_packK3 _ _ f)
theorem Enc.cmov (f) : Enc.Statement (.cmov f) := isLong_short (length_packK3 _ _ f)
theorem Enc.csub (f) : Enc.Statement (.csub f) := isLong_short (length_packK3 _ _ f)
theorem Enc.ceq (f) : Enc.Statement (.ceq f) := isLong_short (length_packK3 _ _ f)
theorem Enc.cinci (f) : Enc.Statement (.cinci f) := isLong_short (length_packKI _ f)
theorem Enc.csetbi (f) : Enc.Statement (.csetbi f) := isLong_short (length_packKI _ f)
theorem Enc.put (f) : Enc.Statement (.put f) := isLong_short (length_packK3 _ _ f)
theorem Enc.putr (f) : Enc.Statement (.putr f) := isLong_short (length_packK3 _ _ f)
theorem Enc.putl (f) : Enc.Statement (.putl f) := isLong_short (length_packK3 _ _ f)
theorem Enc.take (f) : Enc.Statement (.take f) := isLong_short (length_packK3 _ _ f)
theorem Enc.takel (f) : Enc.Statement (.takel f) := isLong_short (length_packK3 _ _ f)
theorem Enc.peek (f) : Enc.Statement (.peek f) := isLong_short (length_packK3 _ _ f)
theorem Enc.markNull (f) : Enc.Statement (.markNull f) := isLong_short (length_packK3 _ _ f)
theorem Enc.markRound (f) : Enc.Statement (.markRound f) := isLong_short (length_packK3 _ _ f)
theorem Enc.markEos (f) : Enc.Statement (.markEos f) := isLong_short (length_packK3 _ _ f)
theorem Enc.markPoison (f) : Enc.Statement (.markPoison f) := isLong_short (length_packK3 _ _ f)
theorem Enc.putn (f) : Enc.Statement (.putn f) := isLong_short (length_packK3 _ _ f)
theorem Enc.room (f) : Enc.Statement (.room f) := isLong_short (length_packK3 _ _ f)
theorem Enc.chst (f) : Enc.Statement (.chst f) := isLong_short (length_packK3 _ _ f)
theorem Enc.waitany (f) : Enc.Statement (.waitany f) := isLong_short (length_packK3 _ _ f)
theorem Enc.waitall (f) : Enc.Statement (.waitall f) := isLong_short (length_packK3 _ _ f)
theorem Enc.ffr (f) : Enc.Statement (.ffr f) := isLong_short (length_packK3 _ _ f)
theorem Enc.tagclr (f) : Enc.Statement (.tagclr f) := isLong_short (length_packK3 _ _ f)
theorem Enc.tagrd (f) : Enc.Statement (.tagrd f) := isLong_short (length_packK3 _ _ f)
theorem Enc.barrive (f) : Enc.Statement (.barrive f) := isLong_short (length_packK3 _ _ f)
theorem Enc.barwait (f) : Enc.Statement (.barwait f) := isLong_short (length_packK3 _ _ f)
theorem Enc.bartest (f) : Enc.Statement (.bartest f) := isLong_short (length_packK3 _ _ f)
theorem Enc.barleave (f) : Enc.Statement (.barleave f) := isLong_short (length_packK3 _ _ f)
theorem Enc.mfs (f) : Enc.Statement (.mfs f) := isLong_short (length_packKI _ f)
theorem Enc.mts (f) : Enc.Statement (.mts f) := isLong_short (length_packKI _ f)
theorem Enc.startI (f) : Enc.Statement (.startI f) := isLong_short (length_packK3 _ _ f)
theorem Enc.vadd (f) : Enc.Statement (.vadd f) := isLong_long (length_bWord0 _ _ _ _ _)
theorem Enc.vsub (f) : Enc.Statement (.vsub f) := isLong_long (length_bWord0 _ _ _ _ _)
theorem Enc.vmul (f) : Enc.Statement (.vmul f) := isLong_long (length_bWord0 _ _ _ _ _)
theorem Enc.vmulh (f) : Enc.Statement (.vmulh f) := isLong_long (length_bWord0 _ _ _ _ _)
theorem Enc.vmin (f) : Enc.Statement (.vmin f) := isLong_long (length_bWord0 _ _ _ _ _)
theorem Enc.vmax (f) : Enc.Statement (.vmax f) := isLong_long (length_bWord0 _ _ _ _ _)
theorem Enc.vminu (f) : Enc.Statement (.vminu f) := isLong_long (length_bWord0 _ _ _ _ _)
theorem Enc.vmaxu (f) : Enc.Statement (.vmaxu f) := isLong_long (length_bWord0 _ _ _ _ _)
theorem Enc.vand (f) : Enc.Statement (.vand f) := isLong_long (length_bWord0 _ _ _ _ _)
theorem Enc.vor (f) : Enc.Statement (.vor f) := isLong_long (length_bWord0 _ _ _ _ _)
theorem Enc.vxor (f) : Enc.Statement (.vxor f) := isLong_long (length_bWord0 _ _ _ _ _)
theorem Enc.vshl (f) : Enc.Statement (.vshl f) := isLong_long (length_bWord0 _ _ _ _ _)
theorem Enc.vshr (f) : Enc.Statement (.vshr f) := isLong_long (length_bWord0 _ _ _ _ _)
theorem Enc.vsra (f) : Enc.Statement (.vsra f) := isLong_long (length_bWord0 _ _ _ _ _)
theorem Enc.vabs (f) : Enc.Statement (.vabs f) := isLong_long (length_bWord0 _ _ _ _ _)
theorem Enc.vneg (f) : Enc.Statement (.vneg f) := isLong_long (length_bWord0 _ _ _ _ _)
theorem Enc.vadds (f) : Enc.Statement (.vadds f) := isLong_long (length_bWord0 _ _ _ _ _)
theorem Enc.vsubs (f) : Enc.Statement (.vsubs f) := isLong_long (length_bWord0 _ _ _ _ _)
theorem Enc.vfadd (f) : Enc.Statement (.vfadd f) := isLong_long (length_bWord0 _ _ _ _ _)
theorem Enc.vfsub (f) : Enc.Statement (.vfsub f) := isLong_long (length_bWord0 _ _ _ _ _)
theorem Enc.vfmul (f) : Enc.Statement (.vfmul f) := isLong_long (length_bWord0 _ _ _ _ _)
theorem Enc.vfma (f) : Enc.Statement (.vfma f) := isLong_long (length_bWord0 _ _ _ _ _)
theorem Enc.vfms (f) : Enc.Statement (.vfms f) := isLong_long (length_bWord0 _ _ _ _ _)
theorem Enc.vfnma (f) : Enc.Statement (.vfnma f) := isLong_long (length_bWord0 _ _ _ _ _)
theorem Enc.vfmin (f) : Enc.Statement (.vfmin f) := isLong_long (length_bWord0 _ _ _ _ _)
theorem Enc.vfmax (f) : Enc.Statement (.vfmax f) := isLong_long (length_bWord0 _ _ _ _ _)
theorem Enc.vfabs (f) : Enc.Statement (.vfabs f) := isLong_long (length_bWord0 _ _ _ _ _)
theorem Enc.vfneg (f) : Enc.Statement (.vfneg f) := isLong_long (length_bWord0 _ _ _ _ _)
theorem Enc.vfcps (f) : Enc.Statement (.vfcps f) := isLong_long (length_bWord0 _ _ _ _ _)
theorem Enc.vrsqrte (f) : Enc.Statement (.vrsqrte f) := isLong_long (length_bWord0 _ _ _ _ _)
theorem Enc.vrcpe (f) : Enc.Statement (.vrcpe f) := isLong_long (length_bWord0 _ _ _ _ _)
theorem Enc.vexp2e (f) : Enc.Statement (.vexp2e f) := isLong_long (length_bWord0 _ _ _ _ _)
theorem Enc.vlog2e (f) : Enc.Statement (.vlog2e f) := isLong_long (length_bWord0 _ _ _ _ _)
theorem Enc.vcvt (f) : Enc.Statement (.vcvt f) := isLong_long (length_bWord0 _ _ _ _ _)
theorem Enc.vcvto (f) : Enc.Statement (.vcvto f) := isLong_long (length_bWord0 _ _ _ _ _)
theorem Enc.vpack (f) : Enc.Statement (.vpack f) := isLong_long (length_bWord0 _ _ _ _ _)
theorem Enc.vunpack (f) : Enc.Statement (.vunpack f) := isLong_long (length_bWord0 _ _ _ _ _)
theorem Enc.vmxq (f) : Enc.Statement (.vmxq f) := isLong_long (length_bWord0 _ _ _ _ _)
theorem Enc.vmxd (f) : Enc.Statement (.vmxd f) := isLong_long (length_bWord0 _ _ _ _ _)
theorem Enc.vredadd (f) : Enc.Statement (.vredadd f) := isLong_long (length_bWord0 _ _ _ _ _)
theorem Enc.vredmax (f) : Enc.Statement (.vredmax f) := isLong_long (length_bWord0 _ _ _ _ _)
theorem Enc.vredmin (f) : Enc.Statement (.vredmin f) := isLong_long (length_bWord0 _ _ _ _ _)
theorem Enc.vfredadd (f) : Enc.Statement (.vfredadd f) := isLong_long (length_bWord0 _ _ _ _ _)
theorem Enc.vbcst (f) : Enc.Statement (.vbcst f) := isLong_long (length_bWord0 _ _ _ _ _)
theorem Enc.vshuf (f) : Enc.Statement (.vshuf f) := isLong_long (length_bWord0 _ _ _ _ _)
theorem Enc.vslide (f) : Enc.Statement (.vslide f) := isLong_long (length_bWord0 _ _ _ _ _)
theorem Enc.viota (f) : Enc.Statement (.viota f) := isLong_long (length_bWord0 _ _ _ _ _)
theorem Enc.vld (f) : Enc.Statement (.vld f) := isLong_long (length_bWord0 _ _ _ _ _)
theorem Enc.vst (f) : Enc.Statement (.vst f) := isLong_long (length_bWord0 _ _ _ _ _)
theorem Enc.vlds (f) : Enc.Statement (.vlds f) := isLong_long (length_bWord0 _ _ _ _ _)
theorem Enc.vsts (f) : Enc.Statement (.vsts f) := isLong_long (length_bWord0 _ _ _ _ _)
theorem Enc.vldx (f) : Enc.Statement (.vldx f) := isLong_long (length_bWord0 _ _ _ _ _)
theorem Enc.vstx (f) : Enc.Statement (.vstx f) := isLong_long (length_bWord0 _ _ _ _ _)
theorem Enc.vldb (f) : Enc.Statement (.vldb f) := isLong_long (length_bWord0 _ _ _ _ _)
theorem Enc.vcmpeq (f) : Enc.Statement (.vcmpeq f) := isLong_long (length_bWord0 _ _ _ _ _)
theorem Enc.vcmpne (f) : Enc.Statement (.vcmpne f) := isLong_long (length_bWord0 _ _ _ _ _)
theorem Enc.vcmplt (f) : Enc.Statement (.vcmplt f) := isLong_long (length_bWord0 _ _ _ _ _)
theorem Enc.vcmple (f) : Enc.Statement (.vcmple f) := isLong_long (length_bWord0 _ _ _ _ _)
theorem Enc.vfcmpeq (f) : Enc.Statement (.vfcmpeq f) := isLong_long (length_bWord0 _ _ _ _ _)
theorem Enc.vfcmplt (f) : Enc.Statement (.vfcmplt f) := isLong_long (length_bWord0 _ _ _ _ _)
theorem Enc.vfcmple (f) : Enc.Statement (.vfcmple f) := isLong_long (length_bWord0 _ _ _ _ _)
theorem Enc.vfclass (f) : Enc.Statement (.vfclass f) := isLong_long (length_bWord0 _ _ _ _ _)
theorem Enc.mand (f) : Enc.Statement (.mand f) := isLong_long (length_bWord0 _ _ _ _ _)
theorem Enc.mor (f) : Enc.Statement (.mor f) := isLong_long (length_bWord0 _ _ _ _ _)
theorem Enc.mxor (f) : Enc.Statement (.mxor f) := isLong_long (length_bWord0 _ _ _ _ _)
theorem Enc.mnot (f) : Enc.Statement (.mnot f) := isLong_long (length_bWord0 _ _ _ _ _)
theorem Enc.mpopc (f) : Enc.Statement (.mpopc f) := isLong_long (length_bWord0 _ _ _ _ _)
theorem Enc.vsel (f) : Enc.Statement (.vsel f) := isLong_long (length_bWord0 _ _ _ _ _)
theorem Enc.vmovk (f) : Enc.Statement (.vmovk f) := isLong_long (length_bWord0 _ _ _ _ _)
theorem Enc.vmovx (f) : Enc.Statement (.vmovx f) := isLong_long (length_bWord0 _ _ _ _ _)
theorem Enc.gld (f) : Enc.Statement (.gld f) := isLong_long (length_bWord0 _ _ _ _ _)
theorem Enc.gst (f) : Enc.Statement (.gst f) := isLong_long (length_bWord0 _ _ _ _ _)
theorem Enc.glda (f) : Enc.Statement (.glda f) := isLong_long (length_bWord0 _ _ _ _ _)
theorem Enc.gstr (f) : Enc.Statement (.gstr f) := isLong_long (length_bWord0 _ _ _ _ _)
theorem Enc.gaadd (f) : Enc.Statement (.gaadd f) := isLong_long (length_bWord0 _ _ _ _ _)
theorem Enc.gamin (f) : Enc.Statement (.gamin f) := isLong_long (length_bWord0 _ _ _ _ _)
theorem Enc.gamax (f) : Enc.Statement (.gamax f) := isLong_long (length_bWord0 _ _ _ _ _)
theorem Enc.gaand (f) : Enc.Statement (.gaand f) := isLong_long (length_bWord0 _ _ _ _ _)
theorem Enc.gaor (f) : Enc.Statement (.gaor f) := isLong_long (length_bWord0 _ _ _ _ _)
theorem Enc.gaxor (f) : Enc.Statement (.gaxor f) := isLong_long (length_bWord0 _ _ _ _ _)
theorem Enc.gaswp (f) : Enc.Statement (.gaswp f) := isLong_long (length_bWord0 _ _ _ _ _)
theorem Enc.gacas (f) : Enc.Statement (.gacas f) := isLong_long (length_bWord0 _ _ _ _ _)
theorem Enc.gafadd (f) : Enc.Statement (.gafadd f) := isLong_long (length_bWord0 _ _ _ _ _)
theorem Enc.gldv (f) : Enc.Statement (.gldv f) := isLong_long (length_bWord0 _ _ _ _ _)
theorem Enc.gstv (f) : Enc.Statement (.gstv f) := isLong_long (length_bWord0 _ _ _ _ _)
theorem Enc.gvq (f) : Enc.Statement (.gvq f) := isLong_long (length_bWord0 _ _ _ _ _)
theorem Enc.mma (f) : Enc.Statement (.mma f) := isLong_long (length_bWord0 _ _ _ _ _)
theorem Enc.minit (f) : Enc.Statement (.minit f) := isLong_long (length_bWord0 _ _ _ _ _)
theorem Enc.minitPort (f) : Enc.Statement (.minitPort f) := isLong_long (length_bWord0 _ _ _ _ _)
theorem Enc.mrel (f) : Enc.Statement (.mrel f) := isLong_long (length_bWord0 _ _ _ _ _)
theorem Enc.mzero (f) : Enc.Statement (.mzero f) := isLong_long (length_bWord0 _ _ _ _ _)
theorem Enc.mshape (f) : Enc.Statement (.mshape f) := isLong_long (length_bWord0 _ _ _ _ _)
theorem Enc.mrd (f) : Enc.Statement (.mrd f) := isLong_long (length_bWord0 _ _ _ _ _)
theorem Enc.dcopy (f) : Enc.Statement (.dcopy f) := isLong_long (length_bWord0 _ _ _ _ _)
theorem Enc.dscfg (f) : Enc.Statement (.dscfg f) := isLong_long (length_bWord0 _ _ _ _ _)
theorem Enc.dsgo (f) : Enc.Statement (.dsgo f) := isLong_long (length_bWord0 _ _ _ _ _)
theorem Enc.dsstop (f) : Enc.Statement (.dsstop f) := isLong_long (length_bWord0 _ _ _ _ _)
theorem Enc.dbank (f) : Enc.Statement (.dbank f) := isLong_long (length_bWord0 _ _ _ _ _)
theorem Enc.ltab (f) : Enc.Statement (.ltab f) := isLong_long (length_bWord0 _ _ _ _ _)
theorem Enc.ltabStream (f) : Enc.Statement (.ltabStream f) := isLong_long (length_bWord0 _ _ _ _ _)
theorem Enc.lwire (f) : Enc.Statement (.lwire f) := isLong_long (length_bWord0 _ _ _ _ _)
theorem Enc.lsel (f) : Enc.Statement (.lsel f) := isLong_long (length_bWord0 _ _ _ _ _)
theorem Enc.leval (f) : Enc.Statement (.leval f) := isLong_long (length_bWord0 _ _ _ _ _)
theorem Enc.lslice (f) : Enc.Statement (.lslice f) := isLong_long (length_bWord0 _ _ _ _ _)
theorem Enc.lunslice (f) : Enc.Statement (.lunslice f) := isLong_long (length_bWord0 _ _ _ _ _)
theorem Enc.lpld (f) : Enc.Statement (.lpld f) := isLong_long (length_bWord0 _ _ _ _ _)
theorem Enc.lpst (f) : Enc.Statement (.lpst f) := isLong_long (length_bWord0 _ _ _ _ _)
theorem Enc.lpcnt (f) : Enc.Statement (.lpcnt f) := isLong_long (length_bWord0 _ _ _ _ _)
theorem Enc.sweep (f) : Enc.Statement (.sweep f) := isLong_long (length_bWord0 _ _ _ _ _)
theorem Enc.swq (f) : Enc.Statement (.swq f) := isLong_long (length_bWord0 _ _ _ _ _)
theorem Enc.swabt (f) : Enc.Statement (.swabt f) := isLong_long (length_bWord0 _ _ _ _ _)
theorem Enc.osend (f) : Enc.Statement (.osend f) := isLong_long (length_bWord0 _ _ _ _ _)
theorem Enc.owm (f) : Enc.Statement (.owm f) := isLong_long (length_bWord0 _ _ _ _ _)
theorem Enc.cslot (f) : Enc.Statement (.cslot f) := isLong_long (length_bWord0 _ _ _ _ _)
theorem Enc.rload (f) : Enc.Statement (.rload f) := isLong_long (length_bWord0 _ _ _ _ _)
theorem Enc.rquery (f) : Enc.Statement (.rquery f) := isLong_long (length_bWord0 _ _ _ _ _)
theorem Enc.dispatch (tile helper : Nat) : Enc.Statement (.dispatch tile helper) := trivial
theorem Enc.firingEnd (tile actor : Nat) : Enc.Statement (.firingEnd tile actor) := trivial
theorem Enc.nullPassFiring (tile actor : Nat) : Enc.Statement (.nullPassFiring tile actor) := trivial
theorem Enc.actorEnd (tile : Nat) (node : Node) : Enc.Statement (.actorEnd tile node) := trivial
theorem Enc.lengthMismatch (tile : Nat) (node : Node) : Enc.Statement (.lengthMismatch tile node) := trivial
theorem Enc.roundPass (tile : Nat) (node : Node) : Enc.Statement (.roundPass tile node) := trivial
theorem Enc.roundMismatch (tile : Nat) (node : Node) : Enc.Statement (.roundMismatch tile node) := trivial
theorem Enc.tokenArrival (chan branch seq : Nat) : Enc.Statement (.tokenArrival chan branch seq) := trivial
theorem Enc.creditReturn (chan branch : Nat) : Enc.Statement (.creditReturn chan branch) := trivial
theorem Enc.forkForward (chan : Nat) : Enc.Statement (.forkForward chan) := trivial
theorem Enc.steerOp (tile slot : Nat) : Enc.Statement (.steerOp tile slot) := trivial
theorem Enc.mergeOp (tile slot : Nat) : Enc.Statement (.mergeOp tile slot) := trivial
theorem Enc.carryOp (tile slot : Nat) : Enc.Statement (.carryOp tile slot) := trivial
theorem Enc.configSlotSwitch (tile : Nat) : Enc.Statement (.configSlotSwitch tile) := trivial
theorem Enc.bankTransfer (tile port : Nat) : Enc.Statement (.bankTransfer tile port) := trivial
theorem Enc.laneGroupBind (tile group : Nat) : Enc.Statement (.laneGroupBind tile group) := trivial
theorem Enc.vectorComplete (tile ctx : Nat) : Enc.Statement (.vectorComplete tile ctx) := trivial
theorem Enc.windowClose (tile ctx win : Nat) : Enc.Statement (.windowClose tile ctx win) := trivial
theorem Enc.memoryRequest (tile id : Nat) : Enc.Statement (.memoryRequest tile id) := trivial
theorem Enc.globalReply (tile id : Nat) : Enc.Statement (.globalReply tile id) := trivial
theorem Enc.storeAck (tile id : Nat) : Enc.Statement (.storeAck tile id) := trivial
theorem Enc.retryReply (tile id : Nat) : Enc.Statement (.retryReply tile id) := trivial
theorem Enc.translationWalk (tile : Nat) (client : Client) (va : Addr) : Enc.Statement (.translationWalk tile client va) := trivial
theorem Enc.pagerMap (handle : Nat) (va : Addr) (entries : List (PAddr × Word)) : Enc.Statement (.pagerMap handle va entries) := trivial
theorem Enc.pageDenied (handle : Nat) (va : Addr) : Enc.Statement (.pageDenied handle va) := trivial
theorem Enc.tlbInvalidate (handle : Nat) (va : Addr) (level : Nat) : Enc.Statement (.tlbInvalidate handle va level) := trivial
theorem Enc.mxCommandComplete (tile ctx : Nat) : Enc.Statement (.mxCommandComplete tile ctx) := trivial
theorem Enc.releaseTokenSend (tile acc : Nat) : Enc.Statement (.releaseTokenSend tile acc) := trivial
theorem Enc.lcCommandComplete (tile ctx : Nat) : Enc.Statement (.lcCommandComplete tile ctx) := trivial
theorem Enc.dcopyComplete (tile ctx : Nat) : Enc.Statement (.dcopyComplete tile ctx) := trivial
theorem Enc.remoteLineWrite (id : Nat) : Enc.Statement (.remoteLineWrite id) := trivial
theorem Enc.dcopyRefusal (tile ctx : Nat) : Enc.Statement (.dcopyRefusal tile ctx) := trivial
theorem Enc.streamTokenPut (tile stream : Nat) : Enc.Statement (.streamTokenPut tile stream) := trivial
theorem Enc.streamTokenTake (tile stream : Nat) : Enc.Statement (.streamTokenTake tile stream) := trivial
theorem Enc.barrierRelease (group : Nat) : Enc.Statement (.barrierRelease group) := trivial
theorem Enc.sweepLaunch (sweep : Nat) : Enc.Statement (.sweepLaunch sweep) := trivial
theorem Enc.sweepLaunchToken (sweep tile : Nat) : Enc.Statement (.sweepLaunchToken sweep tile) := trivial
theorem Enc.retireNotice (sweep team : Nat) : Enc.Statement (.retireNotice sweep team) := trivial
theorem Enc.sweepEnd (sweep : Nat) : Enc.Statement (.sweepEnd sweep) := trivial
theorem Enc.sweepPartition (sweep : Nat) : Enc.Statement (.sweepPartition sweep) := trivial
theorem Enc.sweepAbortConfirm (sweep : Nat) : Enc.Statement (.sweepAbortConfirm sweep) := trivial
theorem Enc.syncWaveEmit : Enc.Statement (.syncWaveEmit) := trivial
theorem Enc.syncWave (tile : Nat) : Enc.Statement (.syncWave tile) := trivial
theorem Enc.unsynchronised (tile : Nat) : Enc.Statement (.unsynchronised tile) := trivial
theorem Enc.orderedMessageArrival (node input : Nat) : Enc.Statement (.orderedMessageArrival node input) := trivial
theorem Enc.beacon (node input : Nat) (w : Word) : Enc.Statement (.beacon node input w) := trivial
theorem Enc.idleBeacon (tile : Nat) : Enc.Statement (.idleBeacon tile) := trivial
theorem Enc.beaconForward (node : Nat) : Enc.Statement (.beaconForward node) := trivial
theorem Enc.owmStall (node input : Nat) : Enc.Statement (.owmStall node input) := trivial
theorem Enc.watchdog (handle : Nat) : Enc.Statement (.watchdog handle) := trivial
theorem Enc.rebalanceSample (tile : Nat) : Enc.Statement (.rebalanceSample tile) := trivial
theorem Enc.migration (tile actor target : Nat) : Enc.Statement (.migration tile actor target) := trivial
theorem Enc.forwardingEntryRemoval (tile : Nat) : Enc.Statement (.forwardingEntryRemoval tile) := trivial
theorem Enc.trapTaken (tile ctx : Nat) : Enc.Statement (.trapTaken tile ctx) := trivial
theorem Enc.brkRelease (tile : Nat) : Enc.Statement (.brkRelease tile) := trivial
theorem Enc.preemptToken (tile : Nat) : Enc.Statement (.preemptToken tile) := trivial
theorem Enc.preemptRequest (tile : Nat) : Enc.Statement (.preemptRequest tile) := trivial
theorem Enc.preemptResume (tile : Nat) : Enc.Statement (.preemptResume tile) := trivial
theorem Enc.haltedSet (tile : Nat) : Enc.Statement (.haltedSet tile) := trivial
theorem Enc.wdogWrite (tile : Nat) (v : Word) : Enc.Statement (.wdogWrite tile v) := trivial
theorem Enc.snapCmd (handle : Nat) : Enc.Statement (.snapCmd handle) := trivial
theorem Enc.snapArrival (chan branch : Nat) : Enc.Statement (.snapArrival chan branch) := trivial
theorem Enc.snapshotTileComplete (handle tile : Nat) : Enc.Statement (.snapshotTileComplete handle tile) := trivial
theorem Enc.restoreCmd (handle : Nat) : Enc.Statement (.restoreCmd handle) := trivial
theorem Enc.goCmd (handle : Nat) : Enc.Statement (.goCmd handle) := trivial
theorem Enc.abortCmd (handle : Nat) : Enc.Statement (.abortCmd handle) := trivial
theorem Enc.commitParams (handle : Nat) : Enc.Statement (.commitParams handle) := trivial
theorem Enc.residencyDispatch (handle : Nat) : Enc.Statement (.residencyDispatch handle) := trivial
theorem Enc.imageStaging (handle : Nat) : Enc.Statement (.imageStaging handle) := trivial
theorem Enc.arming (handle : Nat) : Enc.Statement (.arming handle) := trivial
theorem Enc.residencyStart (handle : Nat) : Enc.Statement (.residencyStart handle) := trivial
theorem Enc.residencyEnd (handle : Nat) : Enc.Statement (.residencyEnd handle) := trivial
theorem Enc.residencyAbort (handle : Nat) : Enc.Statement (.residencyAbort handle) := trivial
theorem Enc.replayRearm (handle : Nat) : Enc.Statement (.replayRearm handle) := trivial
theorem Enc.faultToken (handle : Nat) : Enc.Statement (.faultToken handle) := trivial
theorem Enc.faultPortEos (handle : Nat) : Enc.Statement (.faultPortEos handle) := trivial
theorem Enc.inletData (n : Nat) (v : Word) : Enc.Statement (.inletData n v) := trivial
theorem Enc.inletEos (n : Nat) (v : Word) : Enc.Statement (.inletEos n v) := trivial
theorem Enc.inletRound (n : Nat) : Enc.Statement (.inletRound n) := trivial
theorem Enc.inletNull (n : Nat) : Enc.Statement (.inletNull n) := trivial
theorem Enc.inletLine (n : Nat) (v : Line) (aligned : Bool) : Enc.Statement (.inletLine n v aligned) := trivial
theorem Enc.takenWrite (n k : Nat) : Enc.Statement (.takenWrite n k) := trivial
theorem Enc.bar4Access (port : Nat) (write : Bool) (offset size : Nat) (v : Word) : Enc.Statement (.bar4Access port write offset size v) := trivial
theorem Enc.hostPortLinkFail (port : Nat) : Enc.Statement (.hostPortLinkFail port) := trivial
theorem Enc.attestationReport (nonce : BitVec 256) : Enc.Statement (.attestationReport nonce) := trivial
theorem Enc.keySlotFill (slot : Nat) (key : Nat) (sig : Nat) : Enc.Statement (.keySlotFill slot key sig) := trivial
theorem Enc.recoveryImageLoad (img : Firmware) : Enc.Statement (.recoveryImageLoad img) := trivial
theorem Enc.hostRetire (target : RetireTarget) : Enc.Statement (.hostRetire target) := trivial
theorem Enc.fabricEnable (port : Nat) (en : Bool) : Enc.Statement (.fabricEnable port en) := trivial
theorem Enc.registerWrite (offset : Nat) (v : Word) : Enc.Statement (.registerWrite offset v) := trivial
theorem Enc.fabricElementFire (port elem : Nat) : Enc.Statement (.fabricElementFire port elem) := trivial
theorem Enc.flitReceive (port : Nat) (flit : Flit) : Enc.Statement (.flitReceive port flit) := trivial
theorem Enc.ackFlit (port seq : Nat) : Enc.Statement (.ackFlit port seq) := trivial
theorem Enc.nakFlit (port seq : Nat) : Enc.Statement (.nakFlit port seq) := trivial
theorem Enc.retrain (port : Nat) : Enc.Statement (.retrain port) := trivial
theorem Enc.linkDead (port : Nat) : Enc.Statement (.linkDead port) := trivial
theorem Enc.timingFlitSend : Enc.Statement (.timingFlitSend) := trivial
theorem Enc.timingFlit (port : Nat) (time : Word) : Enc.Statement (.timingFlit port time) := trivial
theorem Enc.coxEpoch : Enc.Statement (.coxEpoch) := trivial
theorem Enc.droopStop (phys : Nat) : Enc.Statement (.droopStop phys) := trivial
theorem Enc.droopRecovery (phys : Nat) : Enc.Statement (.droopRecovery phys) := trivial
theorem Enc.tileRetirement (target : RetireTarget) : Enc.Statement (.tileRetirement target) := trivial
theorem Enc.powerOn (obs : BootInput) : Enc.Statement (.powerOn obs) := trivial
theorem Enc.unusedEncoding (w0 : BitVec 32) (w1 : Option (BitVec 32)) : Enc.Statement (.unusedEncoding w0 w1) := trivial
theorem Enc.fetchFault (code : Nat) (p : Addr) (w0 : Option (BitVec 32)) : Enc.Statement (.fetchFault code p w0) := trivial
theorem Enc.retrainEnd (port : Nat) (ok : Bool) : Enc.Statement (.retrainEnd port ok) := trivial
theorem Enc.linkStopsAnswering (link : Nat) : Enc.Statement (.linkStopsAnswering link) := trivial
theorem Enc.powerLoss (between : Bool) : Enc.Statement (.powerLoss between) := trivial

end Sys2Proof.Laws
end

