-- ==== Sys2Proof/Tests/Slice0.lean ====
section
/-!
SUPPORT. The model's own tests: ill-formed terms that the well-formedness check refuses, words written out from the spec's encodings,
worked examples, and states that meet the hypotheses of the statements.
-/

namespace Sys2Proof.Tests

open Sys2Proof.Machine

set_option Elab.async false

/-! Helpers. -/

/-- The instruction answers a next state that has a property. -/
def runs (i : Instr) (s : State) (p : State → Bool) : Bool := match exec i s with
  | .next t => p t
  | _ => false

/-- The instruction raises the trap of a code with a value, at its own address. -/
def traps (i : Instr) (s : State) (code : Byte) (val : Word) : Bool :=
  runs i s fun t => decide (t = raiseTrap s code val s.me.pc)

/-- The instruction stalls. -/
def stalls (i : Instr) (s : State) : Bool := runs i s fun t => decide (t = s.setMe { s.me with stalled := true })

/-- The instruction or event leaves the state. -/
def idle (i : Instr) (s : State) : Bool := runs i s fun t => decide (t = s)

/-- An event made n times, as long as it goes on: a command or a vector instruction makes one access at a time (R174, R186). -/
def repeats (f : State → Out) : Nat → State → State
  | 0, s => s
  | n + 1, s => match f s with
    | .next t => repeats f n t
    | _ => s

def int (n : Nat) : KReg := KReg.int (BitVec.ofNat 64 n)

/-- A helper's context at PC 0x100 with k registers. -/
def helper (ks : AMap KReg) : Ctx :=
  { Ctx.init with mode := .running, role := .primary, task := 1, pcc := KReg.make 0 0x40000 [.r, .x, .tlm] 0x100, k := ks }

/-- Context n of tile 0 is about to execute an instruction. -/
def at0 (n : Nat) (c : Ctx) (t : Tile) : State := { State.reset with cur := ⟨0, n⟩, tiles := [(0, t.setCtx n c)] }

/-- A helper with k1 = 5, k2 = −1, k3 = 2^63. -/
def st0 : State := at0 1 (helper [(1, int 5), (2, int (2 ^ 64 - 1)), (3, int (2 ^ 63))]) Tile.init

/-! Well-formedness: one ill-formed term for each check (R71, R74 to R77, R80, R85). -/

theorem test_illformed_scalar : [Instr.nop ⟨1, 0, 0⟩, .fence ⟨5, 0, 0⟩, .brk ⟨1, 2, 0⟩, .eret ⟨1, 2, 0⟩, .clz ⟨1, 2, 3⟩, .sext ⟨1, 2, 3⟩,
    .shli ⟨1, 2, 64⟩, .rori ⟨1, 2, 0x100⟩, .loopI ⟨0, 1, 0⟩, .loopI ⟨0, 1, 0x800⟩, .loopI ⟨1, 1, 1⟩, .repI ⟨1, 1, 0⟩, .cgeta ⟨1, 2, 3⟩,
    .put ⟨0, 1, 32⟩, .put ⟨1, 1, 0⟩, .peek ⟨1, 15, 0⟩, .markEos ⟨2, 0, 0⟩, .putn ⟨0, 1, 0⟩, .waitall ⟨1, 2, 0⟩, .tagrd ⟨1, 2, 0⟩,
    .mfs ⟨1, 2, 0⟩, .mts ⟨1, 2, 0⟩, .startI ⟨1, 2, 3⟩].all (fun i => !i.wf) = true := by decide

/-- A VW with d, a, b, imm, rm and etype. -/
def vw (d a b : BitVec 6) (imm : BitVec 12) (rm : BitVec 3) (e : BitVec 4) : VW := ⟨d, a, b, imm, 0, 0, rm, 0, e, 0⟩

theorem test_illformed_vector : [Instr.vadd (vw 32 0 0 0 0 5), .vadd (vw 1 2 3 0 0 7), .vmin (vw 1 2 3 0 0 6), .vminu (vw 1 2 3 0 0 5),
    .vfadd (vw 1 2 3 0 6 7), .vfadd (vw 1 2 3 0 0 5), .vabs (vw 1 2 3 0 0 5), .vcvt (vw 1 2 0 0x10 0 7), .vcvto (vw 1 2 0 0x100 0 7),
    .vpack (vw 1 2 3 5 0 5), .vunpack (vw 1 2 0 5 0 5), .vmxq (vw 1 2 3 9 0 13), .vmxd (vw 1 2 0 5 0 7), .vcmpeq (vw 8 1 2 0 0 5),
    .vcmpeq (vw 1 1 2 1 0 5), .vld (vw 1 2 0 0 0 5), .vst { vw 1 2 0 0 0 0 with la := 1 }, .vldx (vw 1 2 3 0 0 1), .mand (vw 8 0 0 0 0 0),
    .vmovk (vw 1 2 0 16 0 5), .vmulh { vw 1 2 3 0 0 5 with sat := 1 }].all (fun i => !i.wf) = true := by decide

theorem test_illformed_long : [Instr.gld ⟨4, 3, 0, 4, 5, 1, 0, 0, 5, 1, 2⟩, .gld ⟨4, 3, 1, 4, 2, 1, 0, 0, 5, 1, 2⟩,
    .gld ⟨4, 3, 0, 4, 2, 2, 0, 0, 5, 1, 2⟩, .gld ⟨4, 3, 0, 4, 2, 1, 1, 0, 5, 1, 2⟩, .gld ⟨4, 3, 0, 4, 2, 1, 0, 0, 5, 0, 2⟩,
    .gst ⟨4, 3, 0, 4, 2, 0, 1, 0, 0, 0, 2⟩, .gaadd ⟨4, 3, 2, 4, 2, 0, 0, 0, 0, 0, 1⟩, .gvq ⟨4, 3, 0, 4, 2, 0, 0, 0, 0, 0, 2⟩,
    .mma ⟨1, 8, 9, 31, 9, 0, 1, 0⟩, .mma ⟨0, 8, 9, 31, 7, 0, 1, 0⟩, .mma ⟨0, 8, 9, 0, 10, 0, 1, 0⟩, .mma ⟨0, 8, 9, 31, 9, 0, 1, 4⟩,
    .minit ⟨0, 8, 9, 0, 7, 0, 0, 0⟩, .mrel ⟨0, 8, 0, 2, 7, 0, 0, 0⟩].all (fun i => !i.wf) = true := by decide

/-! Decoding: words written out from the spec's encodings (05 R137 and the worked examples of each chapter). -/

/-- A word of one or two 32-bit words decodes to the instruction. -/
def reads (nbits w : Nat) (i : Instr) : Bool := decide (decodeTableWord nbits w = some i)

theorem test_decode_int : (reads 32 0x00204304 (.add ⟨3, 1, 2⟩) && reads 32 0x08714418 (.srai ⟨4, 5, 0x087⟩)
    && reads 32 0x01234428 (.lih ⟨4, 0x48D⟩) && reads 32 0x80114404 (.sext ⟨4, 5, 1⟩)
    && reads 64 0x89ABCDEF56710401 (.li ⟨4, 0x456789ABCDEF⟩)) = true := by decide +kernel

theorem test_decode_control : (reads 32 0xFFD00944 (.bne ⟨9, 0, 0xFFD⟩) && reads 32 0xFFFFFE58 (.jump ⟨0xFFFFFE⟩)
    && reads 32 0x00004060 (.jalr ⟨0, 1, 0⟩) && reads 32 0x00324064 (.loopI ⟨0, 9, 3⟩) && reads 32 0x00B30064 (.loopI ⟨0, 12, 11⟩)
    && reads 32 0x000C4368 (.repI ⟨3, 1, 3⟩)) = true := by decide +kernel

theorem test_decode_tile_memory : (reads 32 0x00028B90 (.ldw ⟨11, 10, 0⟩) && reads 32 0x010088A8 (.stw ⟨8, 2, 16⟩)
    && reads 32 0x0201CC9C (.ldc ⟨12, 7, 32⟩) && reads 32 0x02008AB0 (.stc ⟨10, 2, 32⟩)) = true := by decide +kernel

theorem test_decode_capability : (reads 32 0x0090CAC0 (.cinc ⟨10, 3, 9⟩) && reads 32 0x048309C0 (.csetb ⟨9, 12, 8⟩)
    && reads 32 0x040089C8 (.csetbi ⟨9, 2, 64⟩) && reads 32 0x00008AC4 (.cinci ⟨10, 2, 0⟩)) = true := by decide +kernel

theorem test_decode_channel : (reads 32 0x0C0008E0 (.take ⟨8, 0, 0⟩) && reads 32 0x0C0248E0 (.take ⟨8, 9, 0⟩)
    && reads 32 0x0412C0E0 (.putr ⟨0, 11, 1⟩) && reads 32 0x001340E0 (.put ⟨0, 13, 1⟩) && reads 32 0x1C1000E0 (.putn ⟨0, 0, 1⟩)
    && reads 32 0x100200E0 (.takel ⟨0, 8, 0⟩) && reads 32 0x081200E0 (.putl ⟨0, 8, 1⟩)
    && reads 32 0x181003E0 (.markEos ⟨3, 0, 1⟩)) = true := by decide +kernel

theorem test_decode_tag_barrier : (reads 32 0x040300E4 (.waitall ⟨0, 12, 0⟩) && reads 32 0x00020AE8 (.barrive ⟨10, 8, 0⟩)
    && reads 32 0x04A200E8 (.barwait ⟨0, 8, 10⟩) && reads 32 0x009200F4 (.startI ⟨0, 8, 9⟩)) = true := by decide +kernel

theorem test_decode_system : (reads 32 0 (.nop ⟨0, 0, 0⟩) && reads 32 0x04000000 (.doneI ⟨0, 0, 0⟩) && reads 32 0x08000000 (.retireI ⟨0, 0, 0⟩)
    && reads 32 0x0C000000 (.trapI ⟨0, 0, 0⟩) && reads 32 0x10020000 (.eret ⟨0, 8, 0⟩) && reads 32 0x14000500 (.brk ⟨5, 0, 0⟩)
    && reads 32 0x18000200 (.fence ⟨2, 0, 0⟩) && reads 32 0x1C000000 (.ifence ⟨0, 0, 0⟩) && reads 32 0x002004EC (.mfs ⟨4, 0, 2⟩)
    && reads 32 0x003100F0 (.mts ⟨0, 4, 3⟩) && reads 32 0x5C9009EC (.mfs ⟨9, 0, 0x5C9⟩)) = true := by decide +kernel

theorem test_decode_vector : (reads 64 0x000224EC2CA24309 (.vfma ⟨9, 10, 11, 0, 2, 0, 2, 2, 7, 12⟩)
    && reads 64 0x000000E028920009 (.vfadd ⟨8, 9, 10, 0, 0, 0, 0, 0, 7, 0⟩) && reads 64 0x0870014324518111 (.vcvto ⟨6, 5, 9, 0x087, 0, 0, 0, 0, 10, 3⟩)
    && reads 64 0x0000012000C20415 (.vbcst ⟨8, 12, 0, 0, 0, 0, 0, 0, 9, 0⟩) && reads 64 0x000001E000C34F1D (.vmovx ⟨13, 12, 0, 0, 0, 0, 0, 0, 15, 0⟩)
    && reads 64 0x000000C058410605 (.vminu ⟨4, 4, 22, 0, 0, 0, 0, 0, 6, 0⟩) && reads 64 0x000000E01400451D (.vfcmplt ⟨1, 0, 5, 0, 0, 0, 0, 0, 7, 0⟩)
    && reads 64 0x000002E00051800D (.vrsqrte ⟨6, 5, 0, 0, 0, 0, 0, 1, 7, 0⟩)) = true := by decide +kernel

theorem test_decode_engines : (reads 64 0x003F204024800061 (.mma ⟨0, 8, 9, 31, 9, 0, 1, 0⟩) && reads 64 0x0000E08000A00261 (.mrel ⟨0, 10, 0, 0, 7, 0, 2, 0⟩)
    && reads 64 0x0000000000000361 (.mzero ⟨0, 0, 0, 0, 0, 0, 0, 0⟩) && reads 64 0x0000000030800069 (.ltab ⟨0, 8, 12, 0, 0, 0, 0, 0⟩)
    && reads 64 0x0002004000900169 (.lwire ⟨0, 9, 0, 1, 0, 0, 1, 0⟩) && reads 64 0x0004008030A00669 (.lpld ⟨0, 10, 12, 2, 0, 0, 2, 0⟩)
    && reads 64 0x0004400000800469 (.lslice ⟨0, 8, 0, 2, 2, 0, 0, 0⟩)) = true := by decide +kernel

theorem test_decode_wafer : (reads 64 0x0022402E00310041 (.gld ⟨4, 3, 0, 4, 2, 1, 0, 0, 5, 1, 2⟩) && reads 64 0x0000010024800081 (.sweep ⟨0, 8, 9, 0, 0, 0, 4, 0⟩)
    && reads 64 0x000000C400824085 (.osend ⟨9, 8, 0, 0, 0, 0, 3, 4⟩) && reads 64 0x0000014200000089 (.cslot ⟨0, 0, 0, 0, 0, 0, 5, 2⟩)
    && reads 64 0x0004000100024289 (.rquery ⟨9, 0, 0, 2, 0, 0, 0, 1⟩)) = true := by decide +kernel

/-- Words that the encoding tables leave unused are refused: a reserved field of TRAP (R71), SEXT with width code 3 (R135), fn 35 of
INT (R87). -/
theorem test_decode_refuses : (decodeTableWord 32 0x0C000100 = none ∧ decodeTableWord 32 0x80314404 = none ∧
    decodeTableWord 32 0x8C204304 = none) := by decide +kernel

/-! Worked examples of the number formats (04 R125, 06 R167). -/

/-- VRSQRTE.f32 of 2.0. -/
theorem test_vrsqrte : (seed .rsqrt Fmt.f32 false false 0x40000000).1 = 0x3F350500 := by decide +kernel

/-- The lanes of the VCVTO example: 1.0, 500.0, −1000.0 and 2^−10 to E4M3. -/
theorem test_vcvto : ([0x3F800000, 0x43FA0000, 0xC47A0000, 0x3A800000].map fun x =>
    let r := convert .rne true false false (.flt .f32) (.flt .e4m3) x
    (r.bits, r.ovr)) = [(0x38, false), (0x7E, true), (0xFE, true), (0x00, false)] := by decide +kernel

/-! Scalar instructions. -/

/-- k[d] after an instruction. -/
def gives (i : Instr) (s : State) (d : BitVec 6) (v : Nat) : Bool := runs i s fun t => decide (t.me.readK d = int v)

/-- The hypotheses of IntegerInstructions, ImmediateForms and LoadImmediates. -/
theorem test_ready : st0.kReady [4, 1, 2] [1, 2] [4] ∧ st0.kReady [0, 1] [1] [0] ∧ st0.kReady [4] [] [4] ∧ st0.kReady [4] [4] [4] := by
  unfold State.kReady; decide +kernel

/-- By hand: 5 and −1 (05 R133). -/
theorem test_int_arithmetic : [(Instr.add ⟨4, 1, 2⟩, 4), (.sub ⟨4, 1, 2⟩, 6), (.mul ⟨4, 1, 2⟩, 2 ^ 64 - 5), (.mulh ⟨4, 1, 2⟩, 2 ^ 64 - 1),
    (.mulhu ⟨4, 1, 2⟩, 4), (.div ⟨4, 1, 2⟩, 2 ^ 64 - 5), (.div ⟨4, 1, 0⟩, 2 ^ 64 - 1), (.div ⟨4, 3, 2⟩, 2 ^ 63), (.divu ⟨4, 2, 1⟩, 3689348814741910323),
    (.rem ⟨4, 1, 0⟩, 5), (.rem ⟨4, 3, 2⟩, 0), (.remu ⟨4, 2, 1⟩, 0), (.addw ⟨4, 1, 2⟩, 4), (.subw ⟨4, 1, 2⟩, 6), (.mulw ⟨4, 1, 2⟩, 2 ^ 64 - 5),
    (.minR ⟨4, 1, 2⟩, 2 ^ 64 - 1), (.maxR ⟨4, 1, 2⟩, 5), (.minu ⟨4, 1, 2⟩, 5), (.maxu ⟨4, 1, 2⟩, 2 ^ 64 - 1), (.slt ⟨4, 1, 2⟩, 0), (.sltu ⟨4, 1, 2⟩, 1),
    (.seq ⟨4, 1, 1⟩, 1), (.sne ⟨4, 1, 2⟩, 1)].all (fun p => gives p.1 st0 4 p.2) = true := by decide +kernel

theorem test_int_bits : [(Instr.andR ⟨4, 1, 2⟩, 5), (.orR ⟨4, 1, 2⟩, 2 ^ 64 - 1), (.xorR ⟨4, 1, 2⟩, 2 ^ 64 - 6), (.andn ⟨4, 2, 1⟩, 2 ^ 64 - 6),
    (.orn ⟨4, 1, 2⟩, 5), (.shl ⟨4, 1, 1⟩, 160), (.shr ⟨4, 2, 1⟩, 2 ^ 59 - 1), (.sra ⟨4, 2, 1⟩, 2 ^ 64 - 1), (.ror ⟨4, 1, 1⟩, 5 * 2 ^ 59),
    (.shl ⟨4, 1, 2⟩, 2 ^ 63), (.clz ⟨4, 1, 0⟩, 61), (.clz ⟨4, 0, 0⟩, 64), (.ctz ⟨4, 3, 0⟩, 63), (.ctz ⟨4, 0, 0⟩, 64), (.popc ⟨4, 2, 0⟩, 64),
    (.sext ⟨4, 2, 0⟩, 2 ^ 64 - 1), (.zext ⟨4, 2, 1⟩, 0xFFFF), (.zext ⟨4, 2, 2⟩, 0xFFFFFFFF)].all (fun p => gives p.1 st0 4 p.2) = true := by
  decide +kernel

theorem test_immediates : [(Instr.addi ⟨4, 1, 0xFFA⟩, 2 ^ 64 - 1), (.andi ⟨4, 1, 0xFFC⟩, 4), (.ori ⟨4, 1, 0x800⟩, 2 ^ 64 - 2048 + 5),
    (.xori ⟨4, 1, 0xFFF⟩, 2 ^ 64 - 6), (.slti ⟨4, 1, 6⟩, 1), (.slti ⟨4, 1, 0xFFF⟩, 0), (.sltui ⟨4, 1, 0xFFF⟩, 1), (.muli ⟨4, 1, 0xFFF⟩, 2 ^ 64 - 5),
    (.shli ⟨4, 1, 1⟩, 10), (.shri ⟨4, 1, 0x41⟩, 2), (.srai ⟨4, 3, 0x81⟩, 2 ^ 63 + 2 ^ 62), (.rori ⟨4, 1, 0xC1⟩, 2 ^ 63 + 2),
    (.li ⟨4, 0x800000000000⟩, 2 ^ 64 - 2 ^ 47)].all (fun p => gives p.1 st0 4 p.2) = true := by
  decide +kernel

/-- LIH of the example 0x48D over 0x4567_89AB_CDEF (05 R137). -/
theorem test_lih : gives (.lih ⟨4, 0x48D⟩) (at0 1 (helper [(4, int 0x456789ABCDEF)]) Tile.init) 4 0x0123456789ABCDEF = true := by decide +kernel

/-- k0 discards what is written (R66), and goes on. -/
theorem test_k0 : runs (.add ⟨0, 1, 2⟩) st0 (fun t => decide (t.me.readK 0 = KReg.zero) && decide (t.me.pc = 0x104)) = true := by decide +kernel

/-- A branch back by 4 words that is taken, one that is not; and in a REP body both trap. -/
theorem test_branches : (runs (.beq ⟨1, 1, 0xFFC⟩) st0 (fun t => decide (t.me.pc = 0xF0)) && runs (.bne ⟨1, 1, 4⟩) st0 (fun t => decide (t.me.pc = 0x104))
    && runs (.blt ⟨2, 1, 4⟩) st0 (fun t => decide (t.me.pc = 0x110)) && runs (.bge ⟨1, 2, 4⟩) st0 (fun t => decide (t.me.pc = 0x110))
    && runs (.bltu ⟨1, 2, 4⟩) st0 (fun t => decide (t.me.pc = 0x110)) && runs (.bgeu ⟨2, 1, 4⟩) st0 (fun t => decide (t.me.pc = 0x110))) = true := by
  decide +kernel

/-- A helper inside a REP body of two passes. -/
def inRep : Ctx := { helper [(1, int 5)] with rep := ⟨true, 0x100, 0x108, 1, 1, 0, 0, []⟩ }

theorem test_in_rep : (at0 1 inRep Tile.init).me.inRep = true ∧ traps (.beq ⟨1, 1, 4⟩) (at0 1 inRep Tile.init) 0x01 (wordsVal (.beq ⟨1, 1, 4⟩)) = true ∧
    traps (.jump ⟨4⟩) (at0 1 inRep Tile.init) 0x01 (wordsVal (.jump ⟨4⟩)) = true ∧
    traps (.jal ⟨4⟩) (at0 1 inRep Tile.init) 0x01 (wordsVal (.jal ⟨4⟩)) = true ∧
    traps (.jalr ⟨4, 1, 0⟩) (at0 1 inRep Tile.init) 0x01 (wordsVal (.jalr ⟨4, 1, 0⟩)) = true ∧
    traps (.loopI ⟨0, 1, 3⟩) (at0 1 inRep Tile.init) 0x01 (wordsVal (.loopI ⟨0, 1, 3⟩)) = true ∧
    traps (.repI ⟨1, 1, 1⟩) (at0 1 inRep Tile.init) 0x01 (wordsVal (.repI ⟨1, 1, 1⟩)) = true ∧
    traps (.trapI ⟨0, 0, 0⟩) (at0 1 inRep Tile.init) 0x01 (wordsVal (.trapI ⟨0, 0, 0⟩)) = true ∧
    traps (.brk ⟨5, 0, 0⟩) (at0 1 inRep Tile.init) 0x01 (wordsVal (.brk ⟨5, 0, 0⟩)) = true := by decide +kernel

/-- The end of a REP body (R145): another pass, and the last. -/
theorem test_rep_end : ({ inRep with pcc := inRep.pcc.withAddr 0x104 }.advance 4).pc = 0x100 ∧
    ({ inRep with pcc := inRep.pcc.withAddr 0x104, rep := { inRep.rep with pass := 1 } }.advance 4).pc = 0x108 := by decide +kernel

/-- Capabilities for jumps: untagged, sealed, without X, unaligned, and good. -/
def jumpCaps : State := at0 1 (helper [(1, int 0x40), (2, { KReg.make 0 0x1000 [.x, .tlm] 0x40 with bits := (KReg.make 0 0x1000 [.x, .tlm] 0x40).bits ||| (1#128 <<< 60) }),
  (3, KReg.make 0 0x1000 [.r, .tlm] 0x40), (4, KReg.make 0 0x1000 [.x, .tlm] 0x42), (5, KReg.make 0 0x1000 [.x, .tlm] 0x40)]) Tile.init

theorem test_jumps : (runs (.jump ⟨0xFFFFFF⟩) st0 (fun t => decide (t.me.pc = 0xFC))
    && runs (.jal ⟨4⟩) st0 (fun t => decide (t.me.pc = 0x110) && decide ((t.me.readK 1).addr = 0x104) && (t.me.readK 1).tag)
    && traps (.jal ⟨4⟩) (at0 1 { helper [] with regs := 1 } Tile.init) 0x02 1
    && traps (.jalr ⟨6, 1, 0⟩) jumpCaps 0x03 0x40 && traps (.jalr ⟨6, 2, 0⟩) jumpCaps 0x06 0x40 && traps (.jalr ⟨6, 3, 0⟩) jumpCaps 0x05 0x40
    && traps (.jalr ⟨6, 4, 0⟩) jumpCaps 0x07 0x42
    && runs (.jalr ⟨0, 5, 0xFFC⟩) jumpCaps (fun t => decide (t.me.pc = 0x3C) && decide (t.me.readK 0 = KReg.zero))) = true := by decide +kernel

/-- A loop level to 0x110, and a second one inside or beyond it. -/
def looped (second : Bool) : State := at0 1 { helper [(1, int 5)] with loop0 := ⟨true, 0x100, 0x110, 2⟩, loop1 := ⟨second, 0x100, 0x108, 2⟩ } Tile.init

/-- LOOP (R142): the outer and the inner level, a count of 0, a third level, a body beyond the outer one or beyond PCC. -/
theorem test_loop : (runs (.loopI ⟨0, 1, 3⟩) st0 (fun t => decide (t.me.loop0 = ⟨true, 0x104, 0x110, 5⟩) && decide (t.me.pc = 0x104))
    && runs (.loopI ⟨0, 0, 3⟩) st0 (fun t => decide (t.me.pc = 0x110) && !t.me.loop0.active)
    && runs (.loopI ⟨0, 1, 3⟩) (looped false) (fun t => decide (t.me.loop1 = ⟨true, 0x104, 0x110, 5⟩))
    && traps (.loopI ⟨0, 1, 4⟩) (looped false) 0x01 (wordsVal (.loopI ⟨0, 1, 4⟩)) && traps (.loopI ⟨0, 1, 1⟩) (looped true) 0x01 (wordsVal (.loopI ⟨0, 1, 1⟩))
    && traps (.loopI ⟨0, 1, 3⟩) (at0 1 { helper [(1, int 5)] with pcc := KReg.make 0 0x108 [.x, .tlm] 0x100 } Tile.init) 0x04 0x110) = true := by decide +kernel

/-- The loop-end rule (R143): back, and past the last pass. -/
theorem test_loop_end : (at0 1 { helper [] with loop0 := ⟨true, 0xF0, 0x104, 2⟩ } Tile.init).me.advance 4 =
      { helper [] with loop0 := ⟨true, 0xF0, 0x104, 1⟩, pcc := (helper []).pcc.withAddr 0xF0 } ∧
    ({ helper [] with loop0 := ⟨true, 0xF0, 0x104, 1⟩, loop1 := ⟨true, 0xF8, 0x104, 1⟩ }.advance 4).pc = 0x104 ∧
    ({ helper [] with loop0 := ⟨true, 0xF0, 0x104, 2⟩, loop1 := ⟨true, 0xF8, 0x104, 1⟩ }.advance 4).pc = 0xF0 ∧
    ({ helper [] with loop1 := ⟨true, 0xF8, 0x104, 2⟩ }.advance 4).pc = 0xF8 ∧ ({ helper [] with loop1 := ⟨true, 0xF8, 0x108, 2⟩ }.advance 4).pc = 0x104 := by
  decide +kernel

/-- REP (R145): opened; a body beyond PCC or beyond the inner loop traps. -/
theorem test_rep : (runs (.repI ⟨3, 1, 3⟩) st0 (fun t => t.me.rep.active && decide (t.me.rep.e = 0x10C) && decide (t.me.pc = 0x104))
    && traps (.repI ⟨3, 1, 3⟩) (at0 1 { helper [] with pcc := KReg.make 0 0x108 [.x, .tlm] 0x100 } Tile.init) 0x04 0x10C
    && traps (.repI ⟨3, 3, 3⟩) (looped false) 0x01 (wordsVal (.repI ⟨3, 3, 3⟩))) = true := by decide +kernel

/-- Registers beyond the declared count (R68, R86): the first field that fails. -/
theorem test_field_range : let s := at0 1 { helper [] with regs := 8 } Tile.init
    (traps (.add ⟨8, 1, 2⟩) s 0x02 8 && traps (.add ⟨1, 9, 10⟩) s 0x02 9 && traps (.add ⟨1, 2, 63⟩) s 0x02 63 && traps (.clz ⟨1, 8, 0⟩) s 0x02 8
      && traps (.addi ⟨8, 1, 0⟩) s 0x02 8 && traps (.stw ⟨8, 1, 0⟩) s 0x02 8 && traps (.stw ⟨1, 8, 0⟩) s 0x02 8
      && gives (.add ⟨7, 0, 0⟩) s 7 0) = true := by decide +kernel

/-! Tile memory. -/

def liveFiring : Firing := { kind := .fire, index := 0, primary := 1, tasks := [1], starts := 0, donec := [] }

def actor0 : Actor := { Actor.blank with declared := true, inForce := 0x7FFF, grant := 0x7FFF, regs := 64, help := 2, live := some liveFiring, groups := [9] }

/-- A word input p0 with two tokens of a depth of 4, a word output p1, a line input p2 with a POISON token, a line output p3, an inert
output p4, an ordered output p5. -/
def ports0 : AMap Port :=
  [(0, { Port.blank with declared := true, depth := 4, count := 2, qaddr := 0x800, q := [(0, ⟨.data, false, 3, 7, 0, 0, 0, none⟩), (1, ⟨.eos, false, 0, 7, 1, 0, 0, none⟩)] }),
   (1, { Port.blank with declared := true, output := true, count := 2, chan := some 1 }),
   (2, { Port.blank with declared := true, line := true, depth := 4, count := 1, qaddr := 0x840, q := [(0, ⟨.poison, true, 0, 7, 0, 2, 0, none⟩)] }),
   (3, { Port.blank with declared := true, output := true, line := true, count := 1, chan := some 3 }),
   (4, { Port.blank with declared := true, output := true }),
   (5, { Port.blank with declared := true, output := true, ordered := true, count := 1, osn := 6, credits := [3, 2] })]

def slot0 : Slot := { Slot.blank with state := .active, resid := 7, actors := [(0, actor0)], ports := ports0 }

def chan0 (line : Bool) : Chan :=
  { src := .port 0 1, resid := 7, handle := 0, slot := 0, num := 1, line := line, fmt := 0, seq := 5, rounds := 0, closed := false
    forkQ := [], reserved := [], branches := [⟨.port 1 0, 4, 4, [], 0, 0, none⟩] }

/-- Bytes 0x80 to 0x8F at 0x400; word 0x410 poisoned. -/
def tile0 : Tile := { Tile.init with slots := [(0, slot0)], nextTask := 2, tlm := (upto 16).map fun i => (0x400 + i, BitVec.ofNat 8 (0x80 + i)), poison := [0x410] }

def dataCap (a : Addr) : KReg := KReg.make 0 0x2000 [.r, .w, .tlm, .ldc, .stc] a

/-- The firing of actor 0 on helper 1, with capabilities at 0x400, 0x410, 0x420, 0x3C0 in k8 to k11. -/
def st1 : State :=
  { at0 1 (helper [(1, int 5), (2, int 0x100), (8, dataCap 0x400), (9, dataCap 0x410), (10, dataCap 0x420), (11, dataCap 0x3C0)]) tile0 with
    chans := [(1, chan0 false), (3, chan0 true)] }

theorem test_tlm_hypotheses : st1.kReady [4, 8] [8] [4] ∧ st1.tlmFree := by unfold State.kReady State.tlmFree; decide +kernel

theorem test_tlm_ok : TlmOk st1 (st1.me.readK 8) 0x400 4 [.r] ∧ TlmOk st1 (st1.me.readK 8) 0x400 16 [.r, .ldc] ∧
    TlmOk st1 (st1.me.readK 8) 0x400 16 [.w, .stc] ∧ TlmOk st1 (st1.me.readK 11) 0x3C0 64 [.r] := by
  have h : grantOf st1 st1.cur.tile st1.me = some 0x7FFF := by decide +kernel
  refine ⟨?_, ?_, ?_, ?_⟩ <;> (constructor <;> first | (intro b hb; rw [h] at hb; injection hb with hb; subst hb; decide +kernel) | decide +kernel)

theorem test_loads : (gives (.ldb ⟨4, 8, 0⟩) st1 4 (2 ^ 64 - 128) && gives (.ldbu ⟨4, 8, 1⟩) st1 4 0x81 && gives (.ldh ⟨4, 8, 2⟩) st1 4 (2 ^ 64 - 0x10000 + 0x8382)
    && gives (.ldhu ⟨4, 8, 2⟩) st1 4 0x8382 && gives (.ldw ⟨4, 8, 4⟩) st1 4 (2 ^ 64 - 2 ^ 32 + 0x87868584) && gives (.ldwu ⟨4, 8, 4⟩) st1 4 0x87868584
    && gives (.ldd ⟨4, 8, 8⟩) st1 4 0x8F8E8D8C8B8A8988
    && runs (.ldc ⟨4, 8, 0⟩) st1 (fun t => decide (t.me.readK 4 = ⟨false, 0x8F8E8D8C8B8A89888786858483828180⟩))) = true := by decide +kernel

/-- A load of a poisoned word and a part store to it trap ECC with the word's address. -/
theorem test_ecc : (runs (.ldd ⟨4, 9, 0⟩) st1 (fun t => decide (((t.tile 0).ctx 1).cause = 0x0D) && decide (((t.tile 0).ctx 1).trapval = 0x410))
    && runs (.stb ⟨1, 9, 0⟩) st1 (fun t => decide (((t.tile 0).ctx 1).cause = 0x0D))
    && runs (.std ⟨1, 9, 0⟩) st1 (fun t => decide (t.here.poison = []))) = true := by decide +kernel

theorem test_stores : (runs (.stw ⟨2, 10, 4⟩) st1 (fun t => decide (Memory.readN t.here.tlm 0x420 8 = 0x10000000000))
    && runs (.stb ⟨1, 10, 0xFFF⟩) st1 (fun t => decide (Memory.readN t.here.tlm 0x41F 1 = 5)) && runs (.sth ⟨1, 10, 0⟩) st1 (fun t => decide (Memory.readN t.here.tlm 0x420 2 = 5))
    && runs (.stc ⟨8, 10, 0⟩) st1 (fun t => NSet.mem t.here.gtags 0x42 && decide (Memory.readN t.here.tlm 0x420 16 = (dataCap 0x400).bits.toNat))) = true := by
  decide +kernel

/-- The checks of R147: untagged, sealed, no permission, out of bounds, outside the grant, unaligned. -/
def badCaps : State := at0 1 (helper [(8, int 0x400), (9, { dataCap 0x400 with bits := (dataCap 0x400).bits ||| (1#128 <<< 60) }), (10, KReg.make 0 0x2000 [.w, .tlm] 0x400),
  (11, dataCap 0x1FFD), (12, KReg.make 0 0x400000 [.r, .w, .tlm] 0x3C0000), (13, dataCap 0x402)]) tile0

theorem test_tlm_checks : (traps (.ldw ⟨4, 8, 0⟩) badCaps 0x03 0x400 && traps (.ldw ⟨4, 9, 0⟩) badCaps 0x06 0x400 && traps (.ldw ⟨4, 10, 0⟩) badCaps 0x05 0x400
    && traps (.ldw ⟨4, 11, 0⟩) badCaps 0x04 0x1FFD && traps (.ldw ⟨4, 12, 0⟩) badCaps 0x04 0x3C0000 && traps (.ldw ⟨4, 13, 0⟩) badCaps 0x07 0x402
    && traps (.stw ⟨4, 8, 0⟩) badCaps 0x03 0x400 && traps (.stw ⟨4, 13, 0⟩) badCaps 0x07 0x402) = true := by decide +kernel

/-! Capabilities. -/

/-- The worked example of 14 R359, in context 0: k12 with bounds 0x1_0000_0000 to 0x2_0000_0000, and its k9 in k9. -/
def capEx : State := at0 0 { helper [(8, int 0x20000000), (9, ⟨true, 0x06345678900000010043000123456789⟩), (10, int 0x3FFFFFFF),
  (12, KReg.make 0x100000000 0x100000000 [.r, .w, .global] 0x123456789)] with role := .monitor } Tile.init

theorem test_bounds_example : (runs (.csetb ⟨9, 12, 8⟩) capEx (fun t => decide (t.me.readK 9 = ⟨true, 0x06345678900000010043000123456789⟩))
    && gives (.cgetb ⟨13, 9, 0⟩) capEx 13 0x123456788 && gives (.cgett ⟨14, 9, 0⟩) capEx 14 0x14345678A
    && runs (.cinc ⟨11, 9, 10⟩) capEx (fun t => decide (t.me.readK 11 = ⟨false, 0x06345678900000010043000163456788⟩))) = true := by decide +kernel

theorem test_set_bounds : (traps (.csetb ⟨9, 8, 8⟩) capEx 0x03 8 && traps (.csetbx ⟨9, 12, 8⟩) capEx 0x04 0x123456789
    && traps (.csetbi ⟨9, 8, 16⟩) capEx 0x03 8 && runs (.csetbi ⟨9, 12, 64⟩) capEx (fun t => decide ((t.me.readK 9).base = 0x123456789) && decide ((t.me.readK 9).top = 0x1234567C9))
    && traps (.csetb ⟨9, 9, 10⟩) capEx 0x04 0x123456789) = true := by decide +kernel

/-- The capability fields, and those instructions that raise no trap. -/
theorem test_cap_fields : (gives (.cgeta ⟨4, 9, 0⟩) capEx 4 0x123456789 && gives (.cgetp ⟨4, 9, 0⟩) capEx 4 0x43 && gives (.cgetty ⟨4, 9, 0⟩) capEx 4 0
    && gives (.ctag ⟨4, 9, 0⟩) capEx 4 1 && gives (.ctag ⟨4, 8, 0⟩) capEx 4 0 && gives (.csub ⟨4, 9, 12⟩) capEx 4 0 && gives (.ceq ⟨4, 9, 12⟩) capEx 4 0
    && gives (.ceq ⟨4, 9, 9⟩) capEx 4 1 && runs (.cclr ⟨4, 9, 0⟩) capEx (fun t => decide (t.me.readK 4 = { capEx.me.readK 9 with tag := false }))
    && runs (.cmov ⟨4, 9, 0⟩) capEx (fun t => decide (t.me.readK 4 = capEx.me.readK 9))
    && runs (.candp ⟨4, 9, 0⟩) capEx (fun t => decide (t.me.readK 4 = ⟨true, 0x06345678900000010000000123456789⟩))
    && runs (.cinci ⟨4, 9, 0xFFF⟩) capEx (fun t => decide (t.me.readK 4 = ⟨true, 0x06345678900000010043000123456788⟩))) = true := by decide +kernel

/-- k1 unsealed, k2 sealed with 3, k3 and k4 sealing capabilities at 3 and 16, k5 without SEAL, k6 untagged. -/
def seals : State := at0 1 (helper [(1, KReg.make 0 0x1000 [.r, .tlm] 0x40), (2, ⟨true, (KReg.make 0 0x1000 [.r, .tlm] 0x40).bits ||| (3#128 <<< 60)⟩),
  (3, KReg.make 0 16 [.seal] 3), (4, KReg.make 0 32 [.seal] 16), (5, KReg.make 0 16 [.r] 3), (6, int 3), (7, KReg.make 0 16 [.seal] 4)]) Tile.init

theorem test_sealing : (runs (.cseal ⟨9, 1, 3⟩) seals (fun t => decide (t.me.readK 9 = seals.me.readK 2))
    && runs (.cunseal ⟨9, 2, 3⟩) seals (fun t => decide (t.me.readK 9 = seals.me.readK 1)) && traps (.cseal ⟨9, 6, 3⟩) seals 0x03 6
    && traps (.cseal ⟨9, 2, 3⟩) seals 0x06 2 && traps (.cunseal ⟨9, 1, 3⟩) seals 0x06 1 && traps (.cseal ⟨9, 1, 6⟩) seals 0x03 6 && traps (.cseal ⟨9, 1, 2⟩) seals 0x06 2
    && traps (.cseal ⟨9, 1, 5⟩) seals 0x05 5 && traps (.cseal ⟨9, 1, 4⟩) seals 0x04 0x40 && traps (.cunseal ⟨9, 2, 7⟩) seals 0x04 0x40) = true := by decide +kernel

/-! Channels, tags and barriers. -/

theorem test_put_ok : PutOk st1 1 ∧ PutOk st1 3 ∧ PutOk st1 5 ∧ (st1.here.port 1).chan = some 1 ∧ TakeOk st1 0 0 ∧ TakeOk st1 0 1 ∧ TakeOk st1 2 0 := by
  refine ⟨?_, ?_, ?_, by decide +kernel, ?_, ?_, ?_⟩ <;> (constructor <;> first | decide +kernel | (intro e he; rw [show st1.me.vq = [] by decide +kernel] at he; cases he))

/-- The newest token of a channel's one branch: kind and payload. -/
def newest (s : State) (id : Nat) : Option (TokKind × Nat) := (s.chan? id).bind fun c => c.branches[0]?.bind fun b => (b.flights.getLast?).map fun f => (f.tok.kind, f.tok.payload.toNat)

theorem test_puts : (runs (.put ⟨0, 1, 1⟩) st1 (fun t => decide (newest t 1 = some (.data, 5)) && decide (doneOf t.me 1 = 1))
    && runs (.putr ⟨0, 2, 1⟩) st1 (fun t => decide (newest t 1 = some (.data, 0x100))) && runs (.putn ⟨0, 0, 1⟩) st1 (fun t => decide (newest t 1 = some (.null, 0)))
    && runs (.putl ⟨0, 11, 3⟩) st1 (fun t => decide (newest t 3 = some (.data, 0))) && runs (.putl ⟨0, 8, 3⟩) st1 (fun t => decide ((newest t 3).map (·.1) = some .poison))
    && runs (.markNull ⟨1, 0, 1⟩) st1 (fun t => decide (newest t 1 = some (.null, 0))) && runs (.markRound ⟨2, 0, 1⟩) st1 (fun t => decide (newest t 1 = some (.round, 0)))
    && runs (.markPoison ⟨6, 0, 1⟩) st1 (fun t => decide (newest t 1 = some (.poison, 0))) && traps (.put ⟨0, 1, 3⟩) st1 0x0A 3 && traps (.put ⟨0, 1, 4⟩) st1 0x0A 4) = true := by
  decide +kernel

theorem test_mark_eos : (runs (.markEos ⟨3, 2, 1⟩) st1 (fun t => decide (newest t 1 = some (.eos, 0x100)) && (t.here.port 1).closed) && traps (.markEos ⟨3, 1, 1⟩) st1 0x0A 1
    && runs (.markEos ⟨3, 2, 5⟩) st1 (fun t => (t.here.port 5).closed && decide (t.here.inject.map (·.kind) = [.eos]))) = true := by decide +kernel

/-- After EOS, and by a round-aligned actor. -/
theorem test_mark_closed : let s := st1.updTile 0 fun t => t.setPort 1 { t.port 1 with closed := true }
    let r := { st1 with tiles := [(0, { tile0 with slots := [(0, { slot0 with actors := [(0, { actor0 with roundA := true })] })] }.setCtx 1 st1.me)] }
    (traps (.put ⟨0, 1, 1⟩) s 0x0A 1 && traps (.putn ⟨0, 0, 1⟩) s 0x0A 1 && traps (.markRound ⟨2, 0, 1⟩) r 0x0A 1) = true := by decide +kernel

theorem test_takes : (runs (.take ⟨4, 5, 0⟩) st1 (fun t => decide (t.me.readK 4 = int 0) && decide (t.me.readK 5 = int (3 * 2 ^ 20 + 7 * 2 ^ 36)))
    && gives (.peek ⟨4, 1, 0⟩) st1 4 0 && traps (.take ⟨4, 0, 0⟩) (st1.updTile 0 fun t => t.setPort 0 { t.port 0 with q := [(0, ⟨.poison, false, 0, 7, 0, 0, 0, none⟩)] }) 0x0C 0
    && traps (.peek ⟨4, 0, 2⟩) st1 0x0C 2 && runs (.takel ⟨4, 8, 2⟩) st1 (fun t => t.here.spoilt 0x438 && decide (Memory.read t.here.tlm 0x400 = 0))
    && traps (.take ⟨4, 0, 1⟩) st1 0x0A 1) = true := by decide +kernel

/-- The payload of the DATA token at 0x800 is what TAKE reads. -/
theorem test_take_payload : gives (.take ⟨4, 0, 0⟩) (st1.setHere (st1.here.writeTlm 0x800 [0x34, 0x12])) 4 0x1234 = true := by decide +kernel

theorem test_port_status : (gives (.room ⟨4, 0, 1⟩) st1 4 4 && gives (.room ⟨4, 0, 5⟩) st1 4 2 && gives (.chst ⟨4, 0, 1⟩) st1 4 (2 ^ 24 + 2 * 2 ^ 16 + 4 * 2 ^ 8)
    && gives (.chst ⟨4, 0, 0⟩) st1 4 (2 * 2 ^ 16 + 2 * 2 ^ 8 + 2 ^ 4 + 2 ^ 3) && gives (.chst ⟨4, 0, 2⟩) st1 4 (2 ^ 16 + 2 ^ 8 + 2 ^ 3 + 6)
    && gives (.chst ⟨4, 0, 4⟩) st1 4 (2 ^ 24 + 256 * 255)) = true := by decide +kernel

/-- An asynchronous load of 8 bytes by the helper's task, with tag 5. -/
def load5 : GReq :=
  { op := .load, task := 1, ctxNo := 1, actor := 0, va := 0, pa := 0, n := 8, data := 0, cmp := 0, dest := some 20, async := true, tok := false
    tag := some 5, order := 0, scope := 2, pc := 0, after := [], performed := false, reply := none, win := false, seq := none
    onlyRetry := true, resid := 7 }

/-- Tags 0 and 3 set; tag 5 named by a load; k1 to k4 masks 0x9, 0x20, 0x2, 0x29. -/
def tagged : State :=
  { st1 with tiles := [(0, { tile0 with reqs := [(0, load5)] }.setCtx 1 { helper [(1, int 9), (2, int 0x20), (3, int 2), (4, int 0x29)] with tags := 9 })] }

theorem test_tags : (runs (.waitany ⟨6, 1, 0⟩) tagged (fun t => decide (t.me.readK 6 = int 9)) && runs (.waitany ⟨6, 0, 0⟩) tagged (fun t => decide (t.me.readK 6 = int 0))
    && stalls (.waitany ⟨6, 2, 0⟩) tagged && traps (.waitany ⟨6, 3, 0⟩) tagged 0x0B 1 && runs (.waitall ⟨0, 1, 0⟩) tagged (fun t => decide (t.me.pc = 0x104))
    && stalls (.waitall ⟨0, 4, 0⟩) tagged && traps (.waitall ⟨0, 3, 0⟩) tagged 0x0B 1 && gives (.ffr ⟨6, 4, 0⟩) tagged 6 0 && gives (.ffr ⟨6, 3, 0⟩) tagged 6 64
    && runs (.tagclr ⟨0, 4, 0⟩) tagged (fun t => decide (t.me.tags = 0)) && gives (.tagrd ⟨6, 0, 0⟩) tagged 6 9) = true := by decide +kernel

/-- A wait on a tag that a token-form GLDV names traps (R244). -/
theorem test_tag_gldv : let s := tagged.updTile 0 fun t => { t with reqs := AMap.mapVals t.reqs fun _ q => { q with op := .ldv, seq := some 0 } }
    (traps (.waitany ⟨6, 2, 0⟩) s 0x0B 5 && traps (.waitall ⟨0, 2, 0⟩) s 0x0B 5) = true := by decide +kernel

/-- A member of group 9: arrived or not, released or not. k1 = 9, k2 = 3, k3 = 4, k4 = 5. -/
def barred (arr rel : BitVec 32) : State :=
  { st1 with tiles := [(0, { tile0 with members := [⟨9, false, arr, rel⟩] }.setCtx 1 (helper [(1, int 9), (2, int 3), (3, int 4), (4, int 5)]))], groupTab := [(9, (0, BitVec.ofNat 64 (2 ^ 63 + 7 * 2 ^ 20)))] }

theorem test_member : MemberOf (barred 3 3) 9 ⟨9, false, 3, 3⟩ ∧ (∀ m, ¬MemberOf (barred 3 3) 5 m) ∧ (barred 3 3).performedWithin 2 ∧ ¬(tagged).performedWithin 2 := by
  refine ⟨?_, fun m h => ?_, ?_, ?_⟩
  · constructor <;> decide +kernel
  · exact absurd h.declared (by decide +kernel)
  · unfold State.performedWithin; decide +kernel
  · unfold State.performedWithin; decide +kernel

theorem test_barriers : (runs (.barrive ⟨6, 1, 0⟩) (barred 3 3) (fun t => decide (t.me.readK 6 = int 3) && decide (t.here.members = [⟨9, false, 4, 3⟩])) && stalls (.barrive ⟨6, 1, 0⟩) (barred 4 3)
    && traps (.barrive ⟨6, 2, 0⟩) (barred 3 3) 0x16 3 && stalls (.barwait ⟨0, 1, 2⟩) (barred 4 3) && runs (.barwait ⟨0, 1, 2⟩) (barred 4 4) (fun t => decide (t.me.pc = 0x104))
    && traps (.barwait ⟨0, 1, 3⟩) (barred 4 4) 0x16 9 && gives (.bartest ⟨6, 1, 2⟩) (barred 4 3) 6 0 && gives (.bartest ⟨6, 1, 2⟩) (barred 4 4) 6 1
    && traps (.bartest ⟨6, 1, 3⟩) (barred 4 4) 0x16 9 && runs (.barleave ⟨0, 1, 0⟩) (barred 3 3) (fun t => decide (t.here.members = [⟨9, true, 3, 3⟩]))) = true := by decide +kernel

theorem test_barrier_release : (runs (.barrierRelease 9) (barred 4 3) (fun t => decide (t.here.members = [⟨9, false, 4, 4⟩])) && idle (.barrierRelease 9) (barred 3 3)) = true := by
  decide +kernel

/-! Traps and system registers. -/

theorem test_settled : st1.settled ∧ capEx.settled := by unfold State.settled Ctx.settled; decide +kernel

/-- A helper's trap enters context 0 (R365, R366); with NEST 1 it only waits; a second one in context 0 stops the tile. -/
theorem test_trap_helper : runs (.add ⟨1, 2, 3⟩) (at0 1 { helper [] with regs := 2 } { Tile.init with trapvec := 0x40 }) (fun t => decide (t.here.pend = 2) && t.here.nest
    && decide (t.here.fsel = 1) && decide ((t.here.ctx 0).pc = 0x100) && decide ((t.here.ctx 1).cause = 2) && decide ((t.here.ctx 1).trappc = 0x100)
    && decide ((t.here.ctx 1).mode = .trapped)) = true := by decide +kernel

theorem test_trap_monitor : (runs (.unusedEncoding 3 none) capEx (fun t => t.here.nest && decide (t.here.fsel = 0) && decide ((t.here.ctx 0).cause = 1) && decide ((t.here.ctx 0).trapval = 3))
    && runs (.unusedEncoding 3 none) (capEx.updTile 0 fun t => { t with nest := true }) (fun t => !t.here.alive && decide (t.retireDue.length = 1))
    && runs (.fetchFault 5 0x100 none) st1 (fun t => decide ((t.here.ctx 1).cause = 5)) && runs (.fetchFault 0x0D 0x100 none) st1 (fun t => decide ((t.here.ctx 1).cause = 0x0D))
    && runs (.unusedEncoding 1 (some 2)) st1 (fun t => decide ((t.here.ctx 1).trapval = 0x200000001))) = true := by decide +kernel

theorem test_fences : (runs (.nop ⟨0, 0, 0⟩) st1 (fun t => decide (t.me.pc = 0x104)) && runs (.fence ⟨4, 0, 0⟩) st1 (fun t => decide (t.me.pc = 0x104)) && stalls (.fence ⟨2, 0, 0⟩) tagged
    && runs (.ifence ⟨0, 0, 0⟩) (st1.setMe { st1.me with stale := [(0x104, 0)] }) (fun t => decide (t.me.stale = []))) = true := by decide +kernel

theorem test_mfs : (gives (.mfs ⟨4, 0, 0⟩) st1 4 1 && gives (.mfs ⟨4, 0, 3⟩) st1 4 0x20 && gives (.mfs ⟨4, 0, 5⟩) st1 4 1 && gives (.mfs ⟨4, 0, 6⟩) st1 4 7 && gives (.mfs ⟨4, 0, 0x013⟩) st1 4 0x13880
    && traps (.mfs ⟨4, 0, 8⟩) st1 0x01 (wordsVal (.mfs ⟨4, 0, 8⟩)) && traps (.mfs ⟨4, 0, 0x00E⟩) capEx 0x01 (wordsVal (.mfs ⟨4, 0, 0x00E⟩)) && gives (.mfs ⟨4, 0, 0x00C⟩) capEx 4 0
    && gives (.mfs ⟨4, 0, 0x400⟩) capEx 4 0) = true := by decide +kernel

/-- Context 0 with helper 2 trapped, FSEL 2, PEND 4, and k1 to k4 = 0x12, 2, 0, 0x1234. -/
def handling : State :=
  at0 0 { helper [(1, int 0x12), (2, int 2), (4, int 0x1234), (5, int 0x2000)] with role := .monitor, trappc := 0x80 }
    { tile0 with pend := 4, fsel := 2, nest := true, ctxs := [(2, { helper [(7, int 99)] with mode := .trapped, cause := 7, trappc := 0x44, trapval := 0x55 })] }

theorem test_mfs_frame : (gives (.mfs ⟨6, 0, 8⟩) handling 6 7 && gives (.mfs ⟨6, 0, 9⟩) handling 6 0x44 && gives (.mfs ⟨6, 0, 0x00A⟩) handling 6 0x55
    && gives (.mfs ⟨6, 0, 0x00C⟩) handling 6 (2 * 2 ^ 12 + 2 ^ 11 + 4) && gives (.mfs ⟨6, 0, 0x415⟩) handling 6 99 && gives (.mfs ⟨6, 0, 0x4C0⟩) handling 6 0) = true := by decide +kernel

theorem test_mts : (runs (.mts ⟨0, 4, 3⟩) st1 (fun t => decide (t.me.fpc = 0x20)) && runs (.mts ⟨0, 2, 3⟩) st1 (fun t => decide (t.me.fpc.toNat = 0x20)) && runs (.mts ⟨0, 1, 5⟩) st1 (fun t => decide (t.me.vqw = 5))
    && runs (.mts ⟨0, 0, 5⟩) st1 (fun t => decide (t.me.vqw = 1)) && runs (.mts ⟨0, 1, 0⟩) st1 (fun t => decide (t.me.pc = 0x104)) && runs (.mts ⟨0, 1, 0x013⟩) st1 (fun t => decide (t.here.owmTimeout = 0x13880))
    && traps (.mts ⟨0, 1, 8⟩) st1 0x01 (wordsVal (.mts ⟨0, 1, 8⟩)) && runs (.mts ⟨0, 1, 0x010⟩) st1 (fun t => decide (t.me.pc = 0x104))) = true := by decide +kernel

theorem test_mts_monitor : (runs (.mts ⟨0, 4, 0x00B⟩) handling (fun t => decide (t.here.trapvec = 0x48D)) && runs (.mts ⟨0, 5, 0x00C⟩) handling (fun t => decide (t.here.fsel = 2))
    && runs (.mts ⟨0, 4, 0x013⟩) handling (fun t => decide (t.here.owmTimeout = 0x1234)) && runs (.mts ⟨0, 4, 8⟩) handling (fun t => decide ((t.here.ctx 2).cause = 0x34))
    && runs (.mts ⟨0, 4, 9⟩) handling (fun t => decide ((t.here.ctx 2).trappc = 0x1234)) && runs (.mts ⟨0, 4, 0x00A⟩) handling (fun t => decide ((t.here.ctx 2).trapval = 0x1234))
    && runs (.mts ⟨0, 4, 0x415⟩) handling (fun t => decide ((t.here.ctx 2).readK 7 = int 0x1234)) && runs (.mts ⟨0, 4, 0x014⟩) handling (fun t => decide ((t.resOf 0).wdTicks = 0x1234))) = true := by
  decide +kernel

theorem test_calls : (runs (.trapI ⟨0, 0, 0⟩) st1 (fun t => decide ((t.here.ctx 1).cause = 0x1A) && decide ((t.here.ctx 1).trappc = 0x104)) && runs (.brk ⟨5, 0, 0⟩) st1 (fun t => decide ((t.here.ctx 1).trapval = 5))
    && runs (.trapI ⟨0, 0, 0⟩) capEx (fun t => decide (t.me.pc = 0x104)) && runs (.brk ⟨5, 0, 0⟩) capEx (fun t => t.here.brk && !canIssue t.here 0)
    && runs (.brkRelease 0) (capEx.updTile 0 fun t => { t with brk := true }) (fun t => !t.here.brk)) = true := by decide +kernel

/-- ERET (R369): resumes helper 2, aborts its residency, stays for pending frames, leaves the handler. -/
theorem test_eret : (runs (.eret ⟨0, 2, 0⟩) handling (fun t => decide ((t.here.ctx 2).mode = .running) && decide (t.here.pend = 0)) && runs (.eret ⟨0, 1, 0⟩) handling (fun t => (t.resOf 0).abortAsked)
    && runs (.eret ⟨0, 0, 0⟩) handling (fun t => t.here.nest && decide (t.here.fsel = 2) && decide (t.me.trappc = 0x80))
    && runs (.eret ⟨0, 0, 0⟩) (handling.updTile 0 fun t => { t with pend := 0 }) (fun t => !t.here.nest && decide (t.me.pc = 0x80))
    && runs (.eret ⟨0, 4, 0⟩) handling (fun t => decide (t.me.pc = 0x104)) && traps (.eret ⟨0, 1, 0⟩) st1 0x01 (wordsVal (.eret ⟨0, 1, 0⟩))) = true := by decide +kernel

/-! Firings, the dispatcher, punctuation. -/

/-- A running residency on handle 0. -/
def res0 : Res := { Res.init with used := true, state := .running, resid := 7, region := some ⟨0, 0, 0, 1, 1⟩ }

/-- Actor 0 with a word input p0 (COUNT 1) holding tokens of the kinds given, and a word output p1 on channel 1, whose firing is live or
not. -/
def flow (kinds : List TokKind) (live : Option Firing) : State :=
  let a := { actor0 with live := live, nullP := true, entry := 0x200, prio := 3, roundA := decide (TokKind.round ∈ kinds) }
  let p0 := { Port.blank with declared := true, depth := 4, count := 1, qaddr := 0x800, q := (kinds.zip (upto 4)).map fun p => (p.2, ⟨p.1, false, 0, 7, p.2, 0, 0, none⟩) }
  let p1 := { Port.blank with declared := true, output := true, count := 1, chan := some 1 }
  { State.reset with
    tiles := [(0, { Tile.init with slots := [(0, { Slot.blank with state := .active, resid := 7, actors := [(0, a)], ports := [(0, p0), (1, p1)] })], nextTask := 2 })]
    chans := [(1, chan0 false)], res := [(0, res0)] }

theorem test_todo : actorTodo (flow [.data] none) 0 0 = some .fire ∧ actorTodo (flow [.null] none) 0 0 = some .nullPass ∧ hwStep (flow [.eos] none) 0 0 = some .eos ∧
    hwStep (flow [.round] none) 0 0 = some .round ∧ actorTodo (flow [] none) 0 0 = none ∧ firingBusy (flow [.data] (some liveFiring)) 0 0 = false := by decide +kernel

theorem test_null_pass : (runs (.nullPassFiring 0 0) (flow [.null] none) (fun t => decide (((t.tile 0).actor 0).firings = 1) && decide (newest t 1 = some (.null, 0))
    && decide (((t.tile 0).port 0).h = 1)) && idle (.nullPassFiring 0 0) (flow [.data] none)) = true := by decide +kernel

/-- The end of a firing: its input's token goes, NULL stands for the put it did not make (R45). -/
theorem test_firing_end : (runs (.firingEnd 0 0) (flow [.data] (some { liveFiring with tasks := [] })) (fun t => decide (((t.tile 0).actor 0).live = none)
    && decide (((t.tile 0).port 0).h = 1) && decide (newest t 1 = some (.null, 0))) && idle (.firingEnd 0 0) (flow [.data] (some liveFiring))
    && idle (.firingEnd 0 0) (flow [.data] none)) = true := by decide +kernel

/-- EOS and ROUND pass by (R47, R48); a second input that still has data makes them mismatches (R49). -/
def flow2 (x y : TokKind) : State :=
  let s := flow [x] none
  s.updTile 0 fun t => t.setPort 2 { Port.blank with declared := true, depth := 4, count := 1, qaddr := 0x840, q := [(0, ⟨y, false, 0, 7, 0, 2, 0, none⟩)] }

theorem test_punctuation : (runs (.actorEnd 0 (.actor 0)) (flow [.eos] none) (fun t => ((t.tile 0).actor 0).ended && decide (newest t 1 = some (.eos, 0)))
    && runs (.roundPass 0 (.actor 0)) (flow [.round] none) (fun t => decide (newest t 1 = some (.round, 0)))
    && runs (.lengthMismatch 0 (.actor 0)) (flow2 .eos .data) (fun t => decide ((t.resOf 0).err.lenmis = 1) && decide (newest t 1 = some (.eos, 0x19)))
    && idle (.roundMismatch 0 (.actor 0)) (flow [.data] none) && idle (.actorEnd 0 (.actor 0)) (flow [.data] none)) = true := by decide +kernel

theorem test_round_mismatch : hwStep ((flow2 .round .data).updTile 0 fun t => t.setPort 2 { t.port 2 with count := 2, q := [(0, ⟨.data, false, 0, 7, 0, 2, 0, none⟩), (1, ⟨.round, false, 0, 7, 1, 2, 0, none⟩)] }) 0 0
    = some .rndMis := by decide +kernel

/-- A MERGE with EOS on both inputs, and one on which it has only one. -/
def mergeAt (x y : TokKind) : State :=
  let tok := fun (k : TokKind) => (⟨k, false, 0, 0, 7, 0, 0, 0, none⟩ : Token)
  let o : Oper := { kind := .merge, nullRep := false, init := 0, emitted := false, in0 := some (tok x), in1 := some (tok y), h0 := 0, h1 := 0, marker0 := none, marker1 := none
                    drain0 := .no, drain1 := .no, chans := [], errs := 0, ended := false, held := false }
  (flow [] none).updTile 0 fun t => { t with slots := [(0, { t.slot with opers := [(0, o)] })] }

theorem test_operator_steps : [TokKind.eos, .round].all (fun k => (operStep (mergeAt k k) 0 0).isSome) = true ∧ operStep (mergeAt .eos .data) 0 0 = some .lenMis := by decide +kernel

/-- The dispatcher fires actor 0 on helper 1 with the arguments of R51 and R293; without a candidate, and on a busy helper, it does nothing. -/
theorem test_dispatch : (runs (.dispatch 0 1) (flow [.data] none) (fun t => let c := (t.tile 0).ctx 1
      decide (c.mode = .running) && decide (c.pc = 0x200) && decide (c.task = 2) && decide (c.readK 5 = int 0) && decide (((t.tile 0).actor 0).live.isSome))
    && idle (.dispatch 0 1) (flow [] none) && idle (.dispatch 0 1) (st1)) = true := by decide +kernel

theorem test_chosen : Chosen (flow [.data] none) 0 0 := by
  have h : ∀ j, j < 12 → isCandidate (flow [.data] none) 0 j = true → j = 0 := by decide +kernel
  refine ⟨⟨by decide, by decide +kernel, ?_, ?_⟩, ?_⟩
  · rintro ⟨i, h1, h2, h3⟩; rwa [h i h1 h2] at h3
  · intro _ i h1 h2; exact Nat.le_of_eq (by rw [h i h1 h2])
  · intro j hj; exact Nat.le_of_eq (by rw [h j hj.1 hj.2.1])

/-- A waiter that the pager has answered goes on where it stopped; a refused one takes PAGE_DENIED (R298, R299). -/
def waited (denied : Bool) : State := (flow [] none).updTile 0 fun t => { t with waiters := [⟨helper [(1, int 5)], 0x7000, some 0, denied⟩] }

theorem test_waiters : (runs (.dispatch 0 1) (waited false) (fun t => decide ((t.tile 0).waiters = []) && decide (((t.tile 0).ctx 1).pc = 0x100))
    && runs (.dispatch 0 1) (waited true) (fun t => decide (((t.tile 0).ctx 1).cause = 9) && decide (((t.tile 0).ctx 1).trapval = 0x7000))) = true := by decide +kernel

/-- START on a free helper, and its checks (R293). k1 = an entry, k2 untagged, k3 sealed, k4 without X, k5 unaligned, k6 at the end. -/
def starting : State :=
  { st1 with tiles := [(0, tile0.setCtx 1 { helper [(1, KReg.make 0 0x1000 [.x, .tlm] 0x200), (2, int 0x200), (3, { KReg.make 0 0x1000 [.x, .tlm] 0x200 with bits := (KReg.make 0 0x1000 [.x, .tlm] 0x200).bits ||| (1#128 <<< 60) }),
    (4, KReg.make 0 0x1000 [.r, .tlm] 0x200), (5, KReg.make 0 0x1000 [.x, .tlm] 0x202), (6, KReg.make 0 0x1000 [.x, .tlm] 0x1000), (8, int 77)] with fireK := [int 1, int 2] })] }

theorem test_start : (runs (.startI ⟨0, 1, 8⟩) starting (fun t => let c := t.here.ctx 2
      decide (c.role = .started) && decide (c.pc = 0x200) && decide (c.readK 8 = int 77) && decide (c.readK 2 = int 2) && decide (t.me.starts = 1))
    && traps (.startI ⟨0, 2, 8⟩) starting 0x03 0x200 && traps (.startI ⟨0, 3, 8⟩) starting 0x06 0x200 && traps (.startI ⟨0, 4, 8⟩) starting 0x05 0x200
    && traps (.startI ⟨0, 5, 8⟩) starting 0x07 0x202 && traps (.startI ⟨0, 6, 8⟩) starting 0x04 0x1000
    && traps (.startI ⟨0, 1, 8⟩) (starting.setMe { starting.me with starts := 2 }) 0x17 0x150 && traps (.startI ⟨0, 1, 8⟩) capEx 0x0A 0
    && runs (.startI ⟨0, 1, 8⟩) (starting.updTile 0 fun t => { t with preReq := true }) (fun t => decide (t.me.startAt.isSome) && t.me.stalled)) = true := by decide +kernel

/-- DONE frees the helper; it traps in context 0; it waits for a load (R294). -/
theorem test_done : (runs (.doneI ⟨0, 0, 0⟩) st1 (fun t => decide (t.me.mode = .free) && decide ((t.here.actor 0).live.map (·.tasks) = some []))
    && traps (.doneI ⟨0, 0, 0⟩) capEx 0x01 (wordsVal (.doneI ⟨0, 0, 0⟩)) && stalls (.doneI ⟨0, 0, 0⟩) tagged
    && traps (.retireI ⟨0, 0, 0⟩) st1 0x01 (wordsVal (.retireI ⟨0, 0, 0⟩))) = true := by decide +kernel

/-! Vector instructions. -/

/-- A helper with v1 to v3 of 16 words and m1. -/
def vctx : Ctx := { helper [(1, int 0x80000003), (8, dataCap 0x400), (9, int 8), (10, dataCap 0x500)] with
  v := [(1, lineOf 32 [7, 2 ^ 32 - 1, 2 ^ 31 - 1, 2 ^ 31]), (2, lineOf 32 [3, 2, 1, 2 ^ 32 - 1]), (3, lineOf 32 [0x3F800000, 0xC0000000, 0x40400000, 0x7F800000])], m := [(1, 5), (2, 6)] }

/-- The entry of an instruction bound to lane group 0. -/
def entry (i : Instr) (a b : KReg) : VqEntry := { op := 4, instr := i, pc := 0x100, ka := a, kb := b, rm := 1, ftz := false, daz := false, group := some 0, seq := none, win := false, done := 0, got := [], bad := none }

/-- The state in which the entry is the oldest of helper 1. -/
def bound (i : Instr) (a b : KReg) : State := at0 1 { vctx with vq := [entry i a b] } { tile0 with groups := [(0, (1, 4))], poison := [] }

/-- Elements 0 to 3 of v4, or the mask register m4, or k4, after an instruction completes. -/
def completes (i : Instr) (a b : KReg) (p : Ctx → Bool) : Bool :=
  let t := repeats (execVectorComplete 0 1) 16 (bound i a b)
  p t.me && decide (t.me.vq = [])
def vout (i : Instr) (w : Nat) (a b : KReg) (xs : List Nat) : Bool := completes i a b fun c => decide ((upto 4).map (elem (c.readV 4) w) = xs)
def mout (i : Instr) (m : BitVec 16) : Bool := completes i KReg.zero KReg.zero fun c => decide (c.readM 4 = m)
def kout (i : Instr) (v : Nat) : Bool := completes i KReg.zero KReg.zero fun c => decide (c.readK 4 = int v)

/-- v4 ← f(v1, v2) of an etype. -/
def v3 (e : BitVec 4) : VW := vw 4 1 2 0 0 e

theorem test_vi : [(Instr.vadd (v3 5), [10, 1, 2 ^ 31, 2 ^ 31 - 1]), (.vadd { v3 5 with sat := 1 }, [10, 1, 2 ^ 31 - 1, 2 ^ 31]), (.vsub (v3 5), [4, 2 ^ 32 - 3, 2 ^ 31 - 2, 2 ^ 31 + 1]),
    (.vmul (v3 5), [21, 2 ^ 32 - 2, 2 ^ 31 - 1, 2 ^ 31]), (.vmulh (v3 5), [0, 2 ^ 32 - 1, 0, 0]), (.vmin (v3 5), [3, 2 ^ 32 - 1, 1, 2 ^ 31]), (.vmax (v3 5), [7, 2, 2 ^ 31 - 1, 2 ^ 32 - 1]),
    (.vminu (v3 6), [3, 2, 1, 2 ^ 31]), (.vmaxu (v3 6), [7, 2 ^ 32 - 1, 2 ^ 31 - 1, 2 ^ 32 - 1]), (.vand (v3 5), [3, 2, 1, 2 ^ 31]), (.vor (v3 5), [7, 2 ^ 32 - 1, 2 ^ 31 - 1, 2 ^ 32 - 1]),
    (.vxor (v3 5), [4, 2 ^ 32 - 3, 2 ^ 31 - 2, 2 ^ 31 - 1]), (.vshl (v3 5), [56, 2 ^ 32 - 4, 2 ^ 32 - 2, 0]), (.vshr (v3 5), [0, 2 ^ 30 - 1, 2 ^ 30 - 1, 1]), (.vsra (v3 5), [0, 2 ^ 32 - 1, 2 ^ 30 - 1, 2 ^ 32 - 1]),
    (.vabs (vw 4 1 0 0 0 5), [7, 1, 2 ^ 31 - 1, 2 ^ 31]), (.vneg { vw 4 1 0 0 0 5 with sat := 1 }, [2 ^ 32 - 7, 1, 2 ^ 31 + 1, 2 ^ 31 - 1]), (.vadds (v3 5), [10, 1, 2 ^ 31 - 1, 2 ^ 31]),
    (.vsubs (v3 6), [4, 2 ^ 32 - 3, 2 ^ 31 - 2, 0])].all (fun p => vout p.1 32 KReg.zero KReg.zero p.2) = true := by decide +kernel

/-- 1.0, −2.0, 3.0, ∞ with themselves (R121 to R125). -/
theorem test_vf : [(Instr.vfadd (vw 4 3 3 0 0 7), [0x40000000, 0xC0800000, 0x40C00000, 0x7F800000]), (.vfsub (vw 4 3 3 0 0 7), [0, 0, 0, 0x7FC00000]), (.vfmul (vw 4 3 3 0 0 7), [0x3F800000, 0x40800000, 0x41100000, 0x7F800000]),
    (.vfma { vw 4 3 3 0 0 7 with vc := 3 }, [0x40000000, 0x40000000, 0x41400000, 0x7F800000]), (.vfms { vw 4 3 3 0 0 7 with vc := 3 }, [0, 0x40C00000, 0x40C00000, 0x7FC00000]),
    (.vfnma { vw 4 3 3 0 0 7 with vc := 3 }, [0, 0xC0C00000, 0xC0C00000, 0x7FC00000]), (.vfmin (vw 4 3 0 0 0 7), [0, 0xC0000000, 0, 0]), (.vfmax (vw 4 3 0 0 0 7), [0x3F800000, 0, 0x40400000, 0x7F800000]),
    (.vfabs (vw 4 3 0 0 0 7), [0x3F800000, 0x40000000, 0x40400000, 0x7F800000]), (.vfneg (vw 4 3 0 0 0 7), [0xBF800000, 0x40000000, 0xC0400000, 0xFF800000]),
    (.vfcps (vw 4 3 2 0 0 7), [0x3F800000, 0x40000000, 0x40400000, 0xFF800000]), (.vrcpe (vw 4 3 0 0 0 7), [0x3F800000, 0xBF000000, 0x3EAAAA80, 0]), (.vexp2e (vw 4 0 0 0 0 7), [0x3F800000, 0x3F800000, 0x3F800000, 0x3F800000]),
    (.vlog2e (vw 4 3 0 0 0 7), [0, 0x7FC00000, 0x3FCAE000, 0x7F800000])].all (fun p => vout p.1 32 KReg.zero KReg.zero p.2) = true := by decide +kernel

theorem test_v_moves : [(Instr.vbcst (vw 4 1 0 0 0 5), [0x80000003, 0x80000003, 0x80000003, 0x80000003]), (.vshuf { vw 4 1 2 0 0 5 with vc := 3 }, [2 ^ 31, 2 ^ 31 - 1, 2 ^ 32 - 1, 0]),
    (.vslide { vw 4 1 0 1 0 5 with vc := 3 }, [2 ^ 32 - 1, 2 ^ 31 - 1, 2 ^ 31, 0]), (.viota (vw 4 0 0 0xFFF 0 5), [2 ^ 32 - 1, 0, 1, 2]), (.vsel { vw 4 1 2 0 0 5 with mask := 1 }, [7, 2, 2 ^ 31 - 1, 2 ^ 32 - 1]),
    (.vmovk (vw 4 1 0 1 0 5), [0, 0x80000003, 0, 0]), (.vredadd (vw 4 1 0 0 0 5), [5, 0, 0, 0]), (.vredmax (vw 4 1 0 0 0 5), [2 ^ 31 - 1, 0, 0, 0]), (.vredmin (vw 4 1 0 0 0 5), [2 ^ 31, 0, 0, 0])].all
    (fun p => vout p.1 32 (int 0x80000003) KReg.zero p.2) = true := by decide +kernel

/-- Equal and less lanes of (7, −1, …) with (3, 2, …): m4 from lanes 0 to 3 of a full mask; the other lanes are 0 = 0. -/
theorem test_compares : (mout (.vcmpeq (vw 4 1 2 0 0 5)) 0xFFF0 && mout (.vcmpne (vw 4 1 2 0 0 5)) 0x000F && mout (.vcmplt (vw 4 1 2 0 0 5)) 0x000A && mout (.vcmple (vw 4 1 2 0 0 5)) 0xFFFA
    && mout (.vcmplt (vw 4 1 2 0 0 6)) 0x0008 && mout (.mand (vw 4 1 2 0 0 0)) 4 && mout (.mor (vw 4 1 2 0 0 0)) 7 && mout (.mxor (vw 4 1 2 0 0 0)) 3
    && mout (.mnot (vw 4 1 0 0 0 0)) 0xFFFA && kout (.mpopc (vw 4 1 0 0 0 0)) 2 && kout (.vmovx (vw 4 1 0 1 0 5)) (2 ^ 64 - 1) && kout (.vmovx (vw 4 1 0 1 0 6)) (2 ^ 32 - 1)
   ) = true := by decide +kernel

/-- The memory instructions at 0x400: bytes 0x80 to 0x8F. -/
theorem test_vector_loads : (vout (.vld (vw 4 8 0 0 0 5)) 32 (dataCap 0x400) KReg.zero [0x83828180, 0x87868584, 0x8B8A8988, 0x8F8E8D8C] && vout (.vlds (vw 4 8 9 4 0 5)) 32 (dataCap 0x400) (int 8) [0x87868584, 0x8F8E8D8C, 0, 0]
    && vout (.vldb (vw 4 8 0 4 0 5)) 32 (dataCap 0x400) KReg.zero [0x87868584, 0x87868584, 0x87868584, 0x87868584]
    && vout (.vldx { vw 4 8 2 0 0 5 with mask := 1 }) 32 (dataCap 0x400) KReg.zero [0x8F8E8D8C, 0, 0x87868584, 0]) = true := by decide +kernel

/-- Stores of v1: all of it at 0x480, its lanes 0 and 2 (m1) 8 bytes apart, and its lane 0 at the index 3 of v2 only (m4 = 1). -/
def stored (i : Instr) (a b : KReg) (x n v : Nat) : Bool :=
  decide (Memory.readN (repeats (execVectorComplete 0 1) 16 ((bound i a b).setMe { (bound i a b).me with m := [(1, 5), (4, 1)] })).here.tlm x n = v)

theorem test_vector_stores : (stored (.vst (vw 1 8 0 2 0 5)) (dataCap 0x400) KReg.zero 0x480 8 0xFFFFFFFF00000007 && stored (.vsts { vw 1 8 9 0 0 5 with mask := 1 }) (dataCap 0x480) (int 8) 0x480 16 0x7FFFFFFF0000000000000000 == false
    && stored (.vsts { vw 1 8 9 0 0 5 with mask := 1 }) (dataCap 0x480) (int 8) 0x490 4 0x7FFFFFFF && stored (.vstx { vw 1 8 2 0 0 5 with mask := 4 }) (dataCap 0x480) KReg.zero 0x48C 4 7) = true := by decide +kernel

/-- A load of a poisoned word leaves v4 and arms a trap at the instruction (R174). -/
theorem test_vector_ecc : let t := repeats (execVectorComplete 0 1) 16 ((bound (.vld (vw 4 8 0 0 0 5)) (dataCap 0x400) KReg.zero).updTile 0 fun t => { t with poison := [0x410] })
    (decide (t.me.lates.map (fun l => (l.code, l.val, l.pc)) = [(0x0D, 0x410, 0x100)]) && decide (t.me.vq = []) && decide (t.me.readV 4 = 0)) = true := by decide +kernel

/-! Issue into the queue, and what the unit does by itself. -/

def vsrc : State := at0 1 vctx tile0

theorem test_vector_issue : (runs (.vadd (v3 5)) vsrc (fun t => decide (t.me.vq.map (fun e => (e.pc, e.instr)) = [(0x100, Instr.vadd (v3 5))]) && decide (t.me.pc = 0x108))
    && traps (.vbcst (vw 4 40 0 0 0 5)) (vsrc.setMe { vsrc.me with regs := 32 }) 0x02 40 && runs (.vld (vw 4 8 0 0 0 5)) vsrc (fun t => decide (t.me.vq.length = 1))
    && traps (.vld (vw 4 1 0 0 0 5)) vsrc 0x03 0x80000003 && traps (.vst (vw 4 8 0 1 0 5)) (vsrc.setMe { vsrc.me with k := [(8, KReg.make 0 0x2000 [.r, .tlm] 0x400)] }) 0x05 0x440
    && stalls (.vadd (v3 5)) (vsrc.setMe { vsrc.me with vq := (upto 16).map fun i => { entry (.vadd (v3 5)) KReg.zero KReg.zero with op := i, group := none } })) = true := by decide +kernel

/-- A token-form VCVTO to an output reserves the next place of its channel (R173). -/
theorem test_vector_issue_token : let i := Instr.vcvto { vw 0 1 0 0x80 0 5 with vc := 1 }
    (traps i (vsrc.setMe { vsrc.me with role := .team }) 0x0A 0 && runs i { vsrc with chans := [(1, chan0 false)] } (fun t => decide ((t.chan? 1).map (·.reserved) = some [(5, 0)]) && decide (t.me.vq.map (·.seq) = [some 5]))
    && traps i (vsrc.setMe { vsrc.me with donec := [(1, 2)] }) 0x0A 1) = true := by decide +kernel

/-- LANE_GROUP_BIND gives a free group to the entry at the front; the groups are 0 to 3. -/
theorem test_lane_group : let s := at0 1 { vctx with vq := [{ entry (.vadd (v3 5)) KReg.zero KReg.zero with group := none }] } { tile0 with vptr := 1 }
    (runs (.laneGroupBind 0 2) s (fun t => decide (AMap.get? t.here.groups 2 = some (1, 4)) && decide (t.me.vq.map (·.group) = [some 2])) && idle (.laneGroupBind 0 4) s
    && runs (.laneGroupBind 0 0) (vsrc.updTile 0 fun t => { t with deficit := [(1, 3)], credited := 2 }) (fun t => decide (t.here.groups = []) && decide (AMap.getD t.here.deficit 1 0 = 0) && decide (t.here.credited.toNat % 4 = 0))
    && runs (.laneGroupBind 0 0) (bound (.vadd (v3 5)) KReg.zero KReg.zero) (fun t => decide (t.here.groups = [(0, 1, 4)]))) = true := by decide +kernel

/-- A window over k5 that is due: it writes its value, or raises the late trap 0x0C; one that is not, does nothing (R79, R81). -/
def windowed (left : BitVec 4) (fail : Byte) : State :=
  let w : Win := { cls := .k, dest := 5, left := left, arrived := true, result := 77, resultTag := false, fail := fail, failVal := 9, pc := 0x80, op := 3, age := 0, slot := 0 }
  st1.setMe { st1.me with wins := [w] }

theorem test_window : (runs (.windowClose 0 1 0) (windowed 0 0) (fun t => decide (t.me.readK 5 = int 77) && decide (t.me.wins = []))
    && idle (.windowClose 0 1 0) (windowed 2 0) && idle (.windowClose 0 1 1) (windowed 0 0)
    && runs (.windowClose 0 1 0) (windowed 0 0x0C) (fun t => decide (((t.tile 0).ctx 1).cause = 0x10C) && decide (((t.tile 0).ctx 1).trappc = 0x80))) = true := by decide +kernel

def lated (n : Nat) : State := at0 n { (helper []) with role := if n = 0 then .monitor else .primary, lates := [{ code := 0x15, val := 4, pc := 0x90, late := true, tag := none, vd := none, atDone := false }] } tile0

theorem test_trap_taken : (runs (.trapTaken 0 1) (lated 1) (fun t => decide (((t.tile 0).ctx 1).cause = 0x115) && decide (((t.tile 0).ctx 1).trappc = 0x90))
    && runs (.trapTaken 0 0) (lated 0) (fun t => decide ((t.here.ctx 0).cause = 0x115)) && idle (.trapTaken 0 1) st1) = true := by decide +kernel

/-! Global memory. -/

def gCap (a : Addr) : KReg := KReg.make 0 0x100000 [.r, .w, .global] a

/-- The tables of residency 7: va 0x1_0000 maps to 0x3_0000, 0x2_0000 is for reading alone, 0x3_0000 is refused, the rest is not present;
k4 = 5, k8 to k11 point at these pages, k12 has no GLOBAL, k13 is not aligned to 8. -/
def glob : State :=
  let s := { at0 1 (helper [(1, int 5), (4, int 5), (8, gCap 0x10000), (9, gCap 0x20000), (10, gCap 0x30000), (11, gCap 0x40000), (12, dataCap 0x400), (13, gCap 0x10004)])
    { tile0 with slots := [(0, { slot0 with ports := ports0 ++ [(6, { Port.blank with declared := true, output := true, count := 1, compl := true, chan := some 1 })] })] } with
    chans := [(1, chan0 false)], res := [(0, res0)] }
  ((((((s.gWrite 0 (leBytes 8 (2 ^ 63 + 0x1000))).gWrite 0x1000 (leBytes 8 (2 ^ 63 + 0x2000))).gWrite 0x2000 (leBytes 8 (2 ^ 63 + 0x3000))).gWrite 0x3008 (leBytes 8 (2 ^ 63 + 2 ^ 62 + 7 * 2 ^ 58 + 0x30000))).gWrite
    0x3010 (leBytes 8 (2 ^ 63 + 2 ^ 62 + 2 ^ 58 + 0x50000))).gWrite 0x3018 (leBytes 8 (2 ^ 61)))

/-- d, a, b, offset, tag and the asynchronous bit; 8 bytes. -/
def gw (d a b : BitVec 6) (tag : BitVec 6) (async : BitVec 1) : GW :=
  { d := d, a := a, b := b, off := 0, scope := 0, order := 0, la := 0, tok := 0, tag := tag, async := async, size := 3 }

/-- The newest request of tile 0. -/
def lastReq (t : State) : Option GReq := t.here.reqs.getLast?.map (·.2)

theorem test_global_issue : (runs (.gld (gw 5 8 0 0 0)) glob (fun t => decide ((lastReq t).map (fun q => (q.op, q.pa, q.n)) = some (.load, 0x30000, 8)) && decide (t.me.pc = 0x108))
    && runs (.gst (gw 4 8 0 0 0)) glob (fun t => decide ((lastReq t).map (fun q => (q.op, q.data)) = some (.store, 5))) && runs (.gaadd (gw 5 8 4 3 1)) glob (fun t => decide ((lastReq t).map (fun q => (q.op, q.tag)) = some (.aadd, some 3)))
    && runs (.gstv (gw 4 8 1 0 0)) glob (fun t => decide ((lastReq t).map (fun q => (q.op, q.cmp)) = some (.stv, 5))) && traps (.gst (gw 4 9 0 0 0)) glob 0x05 0x20000
    && runs (.gld (gw 5 10 0 0 0)) glob (fun t => decide (((t.tile 0).ctx 1).cause = 9)) && runs (.gld (gw 5 11 0 0 0)) glob (fun t => decide (t.here.waiters.map (·.va) = [0x40000]) && decide (t.me.mode = .free))
    && traps (.gld (gw 5 12 0 0 0)) glob 0x05 0x400 && traps (.gld (gw 5 1 0 0 0)) glob 0x03 5 && traps (.gld (gw 5 13 0 0 0)) glob 0x07 0x10004) = true := by decide +kernel

/-- The token form of GLDV reserves a place on the completion port (R244). -/
theorem test_gldv_issue : (runs (.gldv { gw 0 8 1 3 1 with tok := 1 }) glob (fun t => decide ((lastReq t).map (·.seq) = some (some 5)) && decide ((t.chan? 1).map (·.reserved) = some [(5, 0)]))
    && traps (.gldv (gw 0 8 1 0 0)) glob 0x0B 0) = true := by decide +kernel

/-- Tile 0 with one request, at 0x3_0000, where 8 bytes hold 0x8000000000000010; version 5. -/
def homed (op : GOp) (data cmp : Word) : State :=
  let s := { glob with tiles := [(0, { tile0 with reqs := [(0, { load5 with op := op, pa := 0x30000, data := data, cmp := cmp })] })], vers := [(0xC00, 5)] }
  s.gWrite 0x30000 (leBytes 8 0x8000000000000010)

/-- The request is answered so, and the 8 bytes hold v. -/
def performs (op : GOp) (data cmp : Word) (r : Reply) (v : Nat) : Bool :=
  match execMemoryRequest 0 0 (homed op data cmp) with
  | .next t => decide ((AMap.get? (t.tile 0).reqs 0).bind (·.reply) = some r) && decide (Memory.readN t.gmem 0x30000 8 = v)
  | _ => false

theorem test_home : let old : Reply := .data 0x8000000000000010
    (performs .load 0 0 old 0x8000000000000010 && performs .store 7 0 .ack 7 && performs .aadd 7 0 old 0x8000000000000017 && performs .amin 7 0 old 0x8000000000000010 && performs .amax 7 0 old 7
    && performs .aand 0x30 0 old 0x10 && performs .aor 7 0 old 0x8000000000000017 && performs .axor 0x30 0 old 0x8000000000000020 && performs .aswp 7 0 old 7
    && performs .acas 7 0x8000000000000010 old 7 && performs .acas 7 1 old 0x8000000000000010 && performs .vq 0 0 (.data 5) 0x8000000000000010
    && performs .ldv 0 5 old 0x8000000000000010 && performs .ldv 0 6 .retry 0x8000000000000010 && performs .ldv 0 4 .passed 0x8000000000000010 && performs .stv 7 6 .ack 7) = true := by decide +kernel

/-- 1.5 + 2.5 = 4.0 (R242); the retire bit. -/
theorem test_home_narrow : let s := fun (op : GOp) (n : Nat) (data : Word) (old : Nat) =>
      ({ glob with tiles := [(0, { tile0 with reqs := [(0, { load5 with op := op, pa := 0x30000, n := n, data := data })] })] }).gWrite 0x30000 (leBytes 4 old)
    (runs (.memoryRequest 0 0) (s .afadd 4 0x40200000 0x3FC00000) (fun t => decide (Memory.readN t.gmem 0x30000 4 = 0x40800000))
    && runs (.memoryRequest 0 0) (s .retireOr 1 4 1) (fun t => decide (Memory.readN t.gmem 0x30000 4 = 5)) && idle (.memoryRequest 0 1) (s .load 8 0 0)) = true := by decide +kernel

/-- A dead way and poisoned data answer POISON; a register the spec does not give stops. -/
theorem test_home_stops : (runs (.memoryRequest 0 0) ({ homed .load 0 0 with routes := [(1, 63 <<< 56)] }.updTile 0 fun t => { t with reqs := [(0, { load5 with pa := 2 ^ 46 })] }) (fun t => decide ((AMap.get? (t.tile 0).reqs 0).bind (·.reply) = some .poison))
    && runs (.memoryRequest 0 0) { homed .aadd 1 0 with gpoison := [0x30000] } (fun t => decide ((AMap.get? (t.tile 0).reqs 0).bind (·.reply) = some .poison))
    && (match execMemoryRequest 0 0 ((homed .load 0 0).updTile 0 fun t => { t with reqs := [(0, { load5 with pa := 2 ^ 45 + 0xFFFFFF8 })] }) with
      | .fault .undescribedDevice => true
      | _ => false)) = true := by decide +kernel

theorem test_bar4 : let s := { homed .load 0 0 with bootStage := 8, hostUp := 3 }
    (runs (.bar4Access 0 true 0x30000 8 7) s (fun t => decide (Memory.readN t.gmem 0x30000 8 = 7)) && idle (.bar4Access 0 false 0x30000 8 7) s && idle (.bar4Access 0 true 0x30000 8 7) { s with hostUp := 2 }
    && idle (.bar4Access 0 true 0x30000 8 7) { s with bootStage := 0xF1 }) = true := by decide +kernel

/-- A request of task 1 with a reply. -/
def replied (r : Reply) (f : GReq → GReq) : State := st1.updTile 0 fun t => { t with reqs := [(0, f { load5 with reply := some r, performed := true })] }

theorem test_replies : (runs (.globalReply 0 0) (replied (.data 9) id) (fun t => decide (t.me.readK 20 = int 9) && decide (t.me.tags = 32) && decide (t.here.reqs = []))
    && runs (.globalReply 0 0) (replied .poison id) (fun t => decide (t.me.lates.map (·.code) = [0x0C]) && decide (t.me.tags = 32)) && idle (.globalReply 0 0) (replied .ack id)
    && runs (.storeAck 0 0) (replied .ack fun q => { q with op := .store }) (fun t => decide (t.here.reqs = []) && decide (t.me.tags = 32)) && idle (.storeAck 0 0) (replied (.data 9) id)
    && runs (.retryReply 0 0) (replied .retry id) (fun t => decide ((AMap.get? t.here.reqs 0).map (·.onlyRetry) = some true)) && idle (.retryReply 0 0) (replied .ack id)) = true := by decide +kernel

/-- The slot that a token-form GLDV reserved is filled (R244). -/
theorem test_reply_token : runs (.globalReply 0 0) { (glob.updTile 0 fun t => { t with reqs := [(0, { load5 with reply := some (.data 9), performed := true, tok := true, seq := some 5 })] }) with chans := [(1, { chan0 false with seq := 6, reserved := [(5, 0)] })] }
    (fun t => decide (newest t 1 = some (.data, 9)) && decide ((t.chan? 1).map (·.reserved) = some [])) = true := by decide +kernel

/-! Engines. -/

theorem test_global_ok : GlobalOk (glob.me.readK 8) 0x10000 8 8 [.r, .w] ∧ GlobalBad (glob.me.readK 13) 0x10004 8 8 [.r] 0x07 ∧ TokenOk glob 1 ∧ windowFree glob 0 .k 5 ∧ glob.settled := by
  refine ⟨by constructor <;> decide +kernel, ?_, ?_, by unfold windowFree; decide, by unfold State.settled Ctx.settled; decide +kernel⟩
  · unfold GlobalBad; decide +kernel
  · exact fun _ => ⟨by decide +kernel, by decide +kernel, 6, by decide +kernel, by decide +kernel, by decide +kernel⟩

/-- d, a, b, immediate, format, tag and c of an engine command. -/
def ew (d a b : BitVec 6) (imm : BitVec 15) (fmt : BitVec 4) (tag c : BitVec 6) : EW := ⟨d, a, b, imm, fmt, 0, tag, c⟩

/-- A firing with panels in k8, a ring in k9 (4,096 B), k10 = 2, and k11 = 0x400. -/
def eng : State := at0 1 (helper [(8, KReg.make 0 0x10000 [.r, .w, .tlm] 0x1000), (9, KReg.make 0x2000 0x1000 [.r, .w, .tlm] 0x2000), (10, int 2), (11, dataCap 0x400)])
  { tile0 with poison := [], slots := [(0, { slot0 with ports := ports0 ++ [(6, { Port.blank with declared := true, output := true, line := true, fmt := 7, relb := some 0 })] })] }

/-- A command enters the queue of its engine with its tag cleared. -/
def sends (e : Engine) (i : Instr) (s : State) : Bool := runs i s fun t => decide ((e.queue t.me).map (·.instr) = [i]) && decide (t.me.pc = 0x108)

theorem test_mx_issue : (sends .mx (.mma (ew 0 8 8 31 9 1 0)) eng && sends .mx (.minit (ew 0 9 0 1 7 1 0)) eng && sends .mx (.minitPort (ew 0 0 6 0 7 1 0)) eng && sends .mx (.mrel (ew 0 9 0 0 7 1 0)) eng
    && sends .mx (.mzero (ew 0 0 0 0 0 1 0)) eng && sends .mx (.mshape (ew 0 0 0 1 0 1 0)) eng && sends .mx (.mrd (ew 0 11 0 1 0 1 0)) eng
    && traps (.mzero (ew 0 0 0 0 0 1 0)) (eng.updTile 0 fun t => { t with accs := [(0, { Acc.init with iOwner := some 3 })] }) 0x17 0x100
    && stalls (.mzero (ew 0 0 0 0 0 5 0)) (eng.updTile 0 fun t => { t with reqs := [(0, load5)] })) = true := by decide +kernel

theorem test_lc_issue : (sends .lc (.ltab (ew 0 11 10 0 0 1 0)) eng && sends .lc (.ltabStream (ew 0 0 10 0 0 1 0)) eng && sends .lc (.lwire (ew 0 11 0 1 0 1 0)) eng && sends .lc (.lsel (ew 0 0 0 0 0 1 1)) eng
    && sends .lc (.leval (ew 0 0 0 0 0 1 0)) eng && sends .lc (.lslice (ew 0 11 0 2 3 1 0)) eng && sends .lc (.lunslice (ew 0 11 0 2 3 1 0)) eng && sends .lc (.lpld (ew 0 11 10 2 0 1 0)) eng
    && sends .lc (.lpst (ew 0 11 10 2 0 1 0)) eng && sends .lc (.lpcnt (ew 0 11 10 2 0 1 0)) eng && traps (.ltab (ew 0 11 10 1023 0 1 0)) eng 0x17 0x210
    && traps (.leval (ew 0 0 0 0 0 1 0)) (eng.updTile 0 fun t => { t with fabric := { t.fabric with iOwner := some 3 } }) 0x17 0x110) = true := by decide +kernel

theorem test_dm_issue : (sends .dm (.dcopy (ew 0 11 8 0 0 1 0)) eng && sends .dm (.dsstop (ew 0 0 0 0 0 1 2)) eng && traps (.dsgo (ew 0 0 0 0 0 1 2)) eng 0x17 0x222
    && traps (.dcopy (ew 10 11 8 0 0 1 0)) { eng with res := [(0, { res0 with region := some ⟨0, 0, 0, 1, 1⟩ })] } 0x14 2) = true := by decide +kernel

/-- A command of helper 1's task at the head of an engine's queue. -/
def cmd (i : Instr) (ka kb : KReg) : EngCmd :=
  { op := 9, task := 1, instr := i, pc := 0x80, ka := ka, kb := kb, kd := KReg.zero, done := 0, started := false, rd := 0, wr := 0, got := [], gbad := [], events := 0, waiting := none, draining := false, stopped := none, actor := 0, data := [0] }

def queued (e : Engine) (i : Instr) (ka kb : KReg) (f : Tile → Tile) : State := (eng.updTile 0 f).setMe (e.setQueue eng.me [cmd i ka kb])

/-- The tile after an MX command, or an LC command, completes with its tag set. -/
def mxDone (i : Instr) (ka kb : KReg) (f : Tile → Tile) (p : Tile → Bool) : Bool :=
  let t := repeats (execMxCommandComplete 0 1) 16 (queued .mx i ka kb f)
  decide (t.me.tags = 2) && decide (t.me.mxq = []) && p t.here
def lcDone (i : Instr) (ka kb : KReg) (f : Tile → Tile) (p : Tile → Bool) : Bool :=
  let t := repeats (execLcCommandComplete 0 1) 16 (queued .lc i ka kb f)
  decide (t.me.tags = 2) && decide (t.me.lcq = []) && p t.here

/-- The element (0, 0) of the worked BF16 product of 07: two chunks give 1 + 2^−30. -/
theorem test_mma_example : let t := { Tile.init with tlm := ([(0, 0x80), (1, 0x49), (64, 0x80), (65, 0x3F), (128, 0x80), (129, 0xC9), (1025, 0x38), (4096, 0x80), (4097, 0x49), (4160, 0x80), (4161, 0x3F), (4224, 0x80), (4225, 0x49), (5121, 0x38)] : Memory) }
    let sum := chunkSum t ⟨9, 9, 0, 4096, 32, 32, 32⟩ 0 0
    (addChunk (addChunk 0 (sum 0)).1 (sum 1)).1 = 0x3FF0000000400000 := by decide +kernel

/-- Its MREL: 1.0 in FP32, with RNX. -/
def armed (t : Tile) : Tile := { t with accs := [(0, { Acc.init with live := true, data := [(0, 0x3FF0000000400000)] })] }

theorem test_release_element : relElem 7 false 0x3FF0000000400000 = ⟨0x3F800000, 1, false⟩ := by decide +kernel

theorem test_mx_complete : (mxDone (.mzero (ew 0 0 0 0 0 1 0)) KReg.zero KReg.zero armed (fun t => decide ((t.acc 0).data = []) && decide ((t.acc 0).owner = some 0))
    && mxDone (.mshape (ew 0 0 0 1 0 1 0)) KReg.zero KReg.zero armed (fun t => decide ((t.acc 0).shape = 1) && (t.acc 0).rsh)
    && mxDone (.minit (ew 0 0 0 0x401 7 1 0)) (KReg.make 0x2000 0x1000 [.w, .tlm] 0x2000) KReg.zero armed (fun t => (t.acc 0).counted && (t.acc 0).sat && decide ((t.acc 0).count = 2) && decide ((t.acc 0).ringBase = 0x2000))
    && mxDone (.minitPort (ew 0 0 6 0 7 1 0)) KReg.zero KReg.zero id (fun t => (t.acc 0).kind && decide ((t.acc 0).port = 6))
    && runs (.mxCommandComplete 0 1) (queued .mx (.mrd (ew 0 0 0 1 0 1 0)) (dataCap 0x1000) KReg.zero armed) (fun t => decide (Memory.readN t.here.tlm 0x1000 8 / 2 ^ 63 = 1) && decide (t.me.tags = 2))
    && (match execMxCommandComplete 0 2 eng with
      | .next t => decide (t = eng)
      | _ => false)) = true := by decide +kernel

/-- A release buffer of one line goes to its port. -/
theorem test_release_send : (match execReleaseTokenSend 0 0 { st1 with tiles := [(0, { tile0 with accs := [(0, { Acc.init with buf := [7], kind := true, port := 3, waiter := some (1, 0, 4, false) })] }.setCtx 1 st1.me)] } with
    | .next t => decide (newest t 3 = some (.data, 7)) && decide (t.me.tags = 16) && decide ((t.here.acc 0).buf = [])
    | _ => false) = true := by decide +kernel

/-- The half adder of 08: planes 2 and 3 hold 0xC and 0xA. -/
def adder (t : Tile) : Tile :=
  { t with
    fabric := { Fabric.init with planes := [(2, 0xC), (3, 0xA)], tables := [(0, 0x6666666666666666), (1, 0x8888888888888888)], wiring := [(0, ⟨2, [(0, 0x80000000000001802), (1, 0x200C0000000000001802)]⟩)], iOwner := some 0 } }

theorem test_leval_example : lcDone (.leval (ew 0 0 0 0 0 1 0)) KReg.zero KReg.zero adder (fun t => decide (t.fabric.plane 2 = 6) && decide (t.fabric.plane 3 = 8) && decide (t.fabric.owner = some 0)) = true := by
  decide +kernel

theorem test_lc_complete : (lcDone (.ltab (ew 0 0 0 5 0 1 0)) (dataCap 0x400) (int 2) id (fun t => decide (t.fabric.table 5 = 0x8786858483828180) && decide (t.fabric.table 6 = 0x8F8E8D8C8B8A8988))
    && lcDone (.lwire (ew 0 0 0 0 0 1 1)) (dataCap 0x400) KReg.zero id (fun t => decide ((t.fabric.wire 1).n = 1) && decide (t.fabric.cell 1 0 = 0x8F8E8D8C8B8A89888786858483828180))
    && lcDone (.lpld (ew 0 0 0 0 0 1 0)) (dataCap 0x400) (int 3) id (fun t => decide (t.fabric.plane 0 = 0) && decide (t.fabric.plane 2 = 0))
    && lcDone (.lpld (ew 0 0 0 2 0 1 0)) (dataCap 0x400) (int 1) id (fun t => decide (t.fabric.plane 2 = 0x8786858483828180)) && lcDone (.lsel (ew 0 0 0 0 0 1 3)) KReg.zero KReg.zero id (fun t => decide (t.fabric.cur = 3))
    && lcDone (.lpst (ew 0 0 0 2 0 1 0)) (dataCap 0x1000) (int 2) adder (fun t => decide (Memory.readN t.tlm 0x1000 16 = 0xA000000000000000C))
    && lcDone (.lpcnt (ew 0 0 0 2 0 1 0)) (dataCap 0x1000) (int 2) adder (fun t => decide (Memory.readN t.tlm 0x1000 8 = 0x2000100010000))
    && lcDone (.lslice (ew 0 0 0 2 1 1 0)) (dataCap 0x400) KReg.zero id (fun t => decide (t.fabric.plane 2 = 0xAAAA) && decide (t.fabric.plane 9 = 0xFFFF))
    && lcDone (.lunslice (ew 0 0 0 2 1 1 0)) (dataCap 0x1000) KReg.zero adder (fun t => decide (Memory.readN t.tlm 0x1000 8 = 0x03010200))) = true := by decide +kernel

/-- LTAB from a stream waits for its bytes, and takes them (R209). -/
theorem test_ltab_stream : let s := fun (h : List (Byte × Bool)) (t : Tile) => t.setStream 4 { Stream.blank with configured := true, run := true, held := h, desc := [0, 0, 0, 0, 0, 0, 0, 0] }
    (lcDone (.ltabStream (ew 0 0 0 0 0 1 4)) KReg.zero (int 1) (s ((upto 8).map fun i => (BitVec.ofNat 8 (i + 1), false))) (fun t => decide (t.fabric.table 0 = 0x0807060504030201) && decide ((t.stream 4).held = []))
    && decide (engTake (queued .lc (.ltabStream (ew 0 0 0 0 0 1 4)) KReg.zero (int 1) (s [])).here .lc (lcReady (queued .lc (.ltabStream (ew 0 0 0 0 0 1 4)) KReg.zero (int 1) (s [])).here) 1 = none)) = true := by decide +kernel

/-! The stream engine. -/

def descOf (dir port : Nat) (base count : Nat) : List Word := [dir + 0x30 + port * 2 ^ 12, base, count + 8 * 2 ^ 16, 0, 0, 0, 0, 0].map (BitVec.ofNat 64)

def streamOf (dir port : Nat) : Stream := { Stream.blank with configured := true, run := true, desc := descOf dir port 0x10000 2, go := some (1, 7, false, 0) }

/-- Tile 0 of `glob` with p1 bound to stream 0 and p0, with DATA and EOS, to stream 1; stream 2 feeds LTAB. -/
def strm (f : Stream → Stream) : State :=
  let p0 := { Port.blank with declared := true, depth := 4, qaddr := 0x800, stream := some 1, q := [(0, ⟨.data, false, 3, 7, 0, 0, 0, none⟩), (1, ⟨.eos, false, 0, 7, 1, 0, 0, none⟩)] }
  let p1 := { Port.blank with declared := true, output := true, chan := some 1, stream := some 0 }
  let t := { tile0 with slots := [(0, { slot0 with ports := [(0, p0), (1, p1)], streams := [(0, f (streamOf 0 1)), (1, f (streamOf 1 0)), (2, f (streamOf 2 0))] })] }
  (({ glob with tiles := [(0, t.setCtx 1 { glob.me with lcq := [cmd (.ltabStream (ew 0 0 0 0 0 1 2)) KReg.zero (int 1)] })] }.gWrite 0x30000 (leBytes 8 0x1122334455667788)).updTile 0 fun t => t.writeTlm 0x800 [9]).updTile 0 fun t => { t with poison := [] }

theorem test_stream_put : ((let t := repeats (execStreamTokenPut 0 0) 2 (strm id)
    decide (newest t 1 = some (.data, 0x1122334455667788)) && decide ((t.here.stream 0).pos = 1))
    && (let t := repeats (execStreamTokenPut 0 0) 4 (strm id)
      decide ((t.here.stream 0).run = false) && decide (t.me.tags = 128))
    && runs (.streamTokenPut 0 0) (strm fun x => { x with eosDue := some 5 }) (fun t => decide (newest t 1 = some (.eos, 5))) && idle (.streamTokenPut 0 0) (strm fun x => { x with run := false })
    && runs (.streamTokenPut 0 2) (strm id) (fun t => decide ((t.here.stream 2).held.map (fun b => b.1.toNat) = [0x88, 0x77, 0x66, 0x55, 0x44, 0x33, 0x22, 0x11]))) = true := by decide +kernel

/-- A page that is absent holds a stream; a refused one stops it; one for reading alone stops a writer (R263). -/
theorem test_stream_pages : let s := fun (base : Nat) => strm fun x => { x with desc := descOf (descDir x.desc) (descPort x.desc) base 2 }
    (runs (.streamTokenPut 0 0) (s 0x40000) (fun t => decide ((t.here.stream 0).waiting = some 0x40000)) && runs (.streamTokenPut 0 0) (s 0x30000) (fun t => (t.here.stream 0).denied && decide (t.me.tags = 128))
    && runs (.streamTokenTake 0 1) (s 0x20000) (fun t => (t.here.stream 1).denied)) = true := by decide +kernel

theorem test_stream_take : (runs (.streamTokenTake 0 1) (strm id) (fun t => decide (Memory.readN t.gmem 0x30000 8 = 9) && decide ((t.here.port 0).h = 1) && decide ((t.here.stream 1).pos = 1))
    && runs (.streamTokenTake 0 1) ((strm id).updTile 0 fun t => t.setPort 0 { t.port 0 with h := 1 }) (fun t => (t.here.stream 1).eosin && decide (t.me.tags = 128)) && idle (.streamTokenTake 0 0) (strm id)) = true := by decide +kernel

/-- DM commands at the head of helper 1's queue. -/
def dmDone (s : State) (i : Instr) (ka kb : KReg) (data : List Word) (p : State → Bool) : Bool :=
  let t := repeats (execDcopyComplete 0 1) 4 (s.setMe { s.me with dmq := [{ cmd i ka kb with data := data }] })
  decide (t.me.dmq = []) && p t

theorem test_dm_complete : (dmDone eng (.dcopy (ew 0 0 0 0 0 1 0)) (KReg.make 0 0x2000 [.w, .tlm] 0x1000) (dataCap 0x400) [] (fun t => decide (Memory.readN t.here.tlm 0x1000 8 = 0x8786858483828180) && decide (t.me.tags = 2))
    && dmDone (strm id) (.dscfg (ew 0 0 0 0 0 1 3)) (dataCap 0x400) KReg.zero (descOf 0 1 0x10000 4) (fun t => (t.here.stream 3).configured && decide (descTotal (t.here.stream 3).desc = 4) && decide (t.me.tags = 2))
    && dmDone (strm fun x => { x with run := false }) (.dsgo (ew 0 0 0 0 0 1 0)) KReg.zero KReg.zero [] (fun t => (t.here.stream 0).run && decide (t.me.tags = 0))
    && dmDone (strm id) (.dsstop (ew 0 0 0 0 0 1 0)) KReg.zero KReg.zero [] (fun t => !(t.here.stream 0).run && (t.here.stream 0).stopped && decide (t.me.tags = 130))
    && dmDone { eng with chans := [(1, { chan0 false with seq := 6, reserved := [(5, 0)] })] } (.dbank (ew 0 0 0 2 0 1 1)) KReg.zero KReg.zero [5] (fun t => decide (newest t 1 = some (.bank, 2)) && decide (t.me.tags = 2)) && idle (.dcopyComplete 0 1) eng) = true := by decide +kernel

/-- DSCFG of a descriptor in TLM, DSGO of the stream, and their checks (R260, R261). -/
def configuring : State :=
  let s := strm fun x => { x with run := false, configured := false }
  ((s.setMe { s.me with lcq := [], k := [(8, dataCap 0x1000), (9, gCap 0x10000), (10, gCap 0xFFFF8)] }).updTile 0 fun t => t.writeTlm 0x1000 ((descOf 0 1 0x10000 2).flatMap fun w => leBytes 8 w.toNat))

theorem test_dscfg_issue : (sends .dm (.dscfg (ew 0 8 9 0 0 1 0)) configuring && traps (.dscfg (ew 0 8 9 0 0 1 1)) configuring 0x0A 1 && sends .dm (.dsgo (ew 0 0 0 0 0 1 0)) (configuring.updTile 0 fun t => t.setStream 0 { t.stream 0 with configured := true })
    && traps (.dscfg (ew 0 8 9 0 0 1 0)) (configuring.updTile 0 fun t => t.writeTlm 0x1000 [0x80]) 0x17 0x320) = true := by decide +kernel

/-- DBANK takes the bank from the actor's grant and a place on its channel (R265); not a bank marked executable. -/
def banking : State := { eng with tiles := [(0, { tile0 with exec := 1, slots := [(0, { slot0 with ports := [(1, { Port.blank with declared := true, output := true, count := 2, bankp := true, chan := some 1 })] })] }.setCtx 1 eng.me)], chans := [(1, chan0 false)] }

theorem test_dbank_issue : (runs (.dbank (ew 0 0 0 2 0 1 1)) banking (fun t => decide ((t.here.actor 0).inForce = 0x7FFB) && decide ((t.chan? 1).map (·.reserved) = some [(5, 0)])) && traps (.dbank (ew 0 0 0 0 0 1 1)) banking 0x05 0
    && traps (.dbank (ew 0 0 0 15 0 1 1)) banking 0x05 0x3C0000) = true := by decide +kernel

/-- A line of a remote copy is written where the image places the bank, and refused elsewhere (R259). -/
def remote (placed : BitVec 16) : State :=
  { eng with
    tiles := [(0, { tile0 with unack := [(1, 1)] }.setCtx 1 { eng.me with dmq := [cmd (.dcopy (ew 10 11 8 0 0 1 0)) (dataCap 0x400) (dataCap 0x400)] }), (1, { tile0 with placed := placed })]
    rlines := [(0, { src := 0, task := 1, ctxNo := 1, op := 9, dst := 1, addr := 0x400, data := 0x55, poisoned := false, resid := 7, tag := 1, pc := 0x80 })] }

theorem test_remote_line : (runs (.remoteLineWrite 0) (remote 1) (fun t => decide (Memory.readN (t.tile 1).tlm 0x400 8 = 0x55) && decide (t.rlines = []) && decide ((t.tile 0).unack = []))
    && runs (.remoteLineWrite 0) (remote 2) (fun t => decide (t.rlines = []) && decide ((t.tile 0).refusals.map (·.addr) = [0x400])) && idle (.remoteLineWrite 1) (remote 1)
    && runs (.dcopyRefusal 0 1) ((remote 2).updTile 0 fun t => { t with refusals := [⟨1, 9, 0x400, 0x80⟩] }) (fun t => decide (t.me.dmq = []) && decide (t.me.lates.map (·.code) = [0x05]) && decide (t.me.tags = 2))
    && idle (.dcopyRefusal 0 1) (remote 1)) = true := by decide +kernel

/-! Sweeps: the 3 × 3 example of 02 R58, with vectors (1, 0), (0, 1) and (1, −1). -/

def board : List Word := [3 * 2 ^ 58 + 2 ^ 54 + 2 ^ 49 + 2 ^ 32 + 3 * 2 ^ 16 + 3, 1 + 2 ^ 20 + (1 + 31 * 32) * 2 ^ 30, 0x100 * 2 ^ 34 + 0x01010000, 2 * 2 ^ 7 + 16, 0, 0, 0, 0].map (BitVec.ofNat 64)

/-- Predecessors of (1, 1) are (0, 1), (1, 0) and (0, 2); those in range of (1, 2) are (0, 2) and (1, 1); ORDER = (1, 0) is refused. -/
theorem test_sweep_example : recCheck board = none ∧ recCheck (setAt board 0 (recW board 0 - 2 ^ 54 + 2 ^ 52)) = some 6 ∧ teamNear board (-1) 4 = [3, 1, 6] ∧ teamNear board (-1) 7 = [6, 4] ∧
    teamNear board 1 0 = [1, 3] ∧ boardLen (recW board 0) = 128 ∧ recCheck (setAt board 3 16) = some 2 := by decide +kernel

/-- A record at 0x1000 for a residency on tile 0, a scoreboard at 0x1_0000. -/
def sweeping : State :=
  { glob with
    rects := [(0, 0, 4, 4)]
    tiles := [(0, ((glob.tile 0).setCtx 1 { glob.me with k := [(8, dataCap 0x1000), (9, gCap 0x10000), (10, gCap 0x10001), (11, int 1)] }).writeTlm 0x1000 (board.flatMap fun w => leBytes 8 w.toNat))] }

theorem test_sweep_issue : (runs (.sweep (ew 0 8 9 0 0 1 0)) sweeping (fun t => decide ((AMap.get? t.sweeps 0).map (fun w => (w.phase, w.record, w.pages)) = some (.launching, board, [0x30000])) && decide (t.me.pc = 0x108))
    && traps (.sweep (ew 0 8 9 0 0 1 0)) (sweeping.setMe { sweeping.me with role := .team }) 0x17 0x260 && traps (.sweep (ew 0 8 9 0 0 1 0)) (sweeping.updTile 0 fun t => t.writeTlm 0x1018 [16, 0]) 0x10 2
    && traps (.sweep (ew 0 8 9 0 0 1 0)) (sweeping.updTile 0 fun t => t.writeTlm 0x1010 [1]) 0x14 0x01010001 && traps (.sweep (ew 0 8 10 0 0 1 0)) sweeping 0x07 0x10001
    && runs (.swq (ew 5 9 11 0 0 1 0)) sweeping (fun t => decide ((lastReq t).map (fun q => (q.op, q.pa, q.data)) = some (.swq, 0x30000, 1)))
    && runs (.swabt (ew 0 9 0 0 0 1 0)) sweeping (fun t => decide ((lastReq t).map (fun q => (q.op, q.tag)) = some (.swabt, some 1)))) = true := by decide +kernel

/-- The answer of SWQ: STATE and the retire bit of a team (R307). -/
theorem test_swq_reply : (runs (.globalReply 0 0) (replied (.swq (BitVec.ofNat 64 (2 ^ 60 + 5)) (recW board 0) 2) fun q => { q with data := 1, tag := none, async := false }) (fun t => decide (t.me.readK 20 = int (2 ^ 60 + 1)))
    && runs (.globalReply 0 0) (replied (.swq 0 (recW board 0) 0) fun q => { q with data := 3, tag := none, async := false }) (fun t => decide (t.me.lates.map (·.val) = [0x360]))) = true := by decide +kernel

/-- A sweep over tile 0, in a phase, with its retire bits and the sweep slot of the tile. -/
def launched (ph : SweepPhase) (header bits : Nat) (slots : AMap SweepSlot) : State :=
  let w : Sweep :=
    { phase := ph, tile := 0, task := 1, op := 0, actor := 0, tag := 1, tok := false, pc := 0x80, resid := 7, record := board, param := KReg.zero, k2 := KReg.zero, k7 := KReg.zero, regs := 16, prio := 0
      grant := 0x7FFF, sbva := 0x10000, pages := [0x30000], tiles := [0], accepted := [], aborts := [(0, 0)], notices := [4], after := [] }
  let s := { sweeping with sweeps := [(0, w)] }
  ((s.gWrite 0x30000 (leBytes 8 header)).gWrite 0x30040 (leBytes 2 bits)).updTile 0 fun t => { t with sweepSlots := slots, reqs := [(0, { load5 with op := .swabt })] }

theorem test_sweep_launch : (runs (.sweepLaunch 0) (launched .launching 0 0 []) (fun t => decide (t.gRead 0x30000 8 = 2 ^ 60 + 7 * 2 ^ 48 + 1) && decide ((AMap.get? t.sweeps 0).map (·.phase) = some .accepting))
    && runs (.sweepLaunch 0) (launched .launching (2 ^ 60) 0 []) (fun t => decide (t.sweeps = []) && decide (t.me.lates.map (fun l => (l.code, l.val)) = [(0x17, 0x160)]) && decide (t.me.tags = 2))
    && runs (.sweepLaunch 0) (launched .launching (2 ^ 61) 0 []) (fun t => decide (t.me.lates.map (fun l => (l.code, l.val)) = [(0x10, 7)])) && idle (.sweepLaunch 0) (launched .running 0 0 []) && idle (.sweepLaunch 1) st1) = true := by decide +kernel

/-- Team 0 is the first to run; with teams 0, 1 and 3 retired, team 6 is released and 4 waits for it (R58, R301). -/
theorem test_sweep_token : (runs (.sweepLaunchToken 0 0) (launched .accepting 0 0 []) (fun t => decide ((AMap.get? (t.tile 0).sweepSlots 0).map (fun x => (x.released, x.left)) = some ([0], 9)) && decide ((AMap.get? t.sweeps 0).map (·.phase) = some .running))
    && runs (.sweepLaunchToken 0 0) (launched .accepting 0 0xB []) (fun t => decide ((AMap.get? (t.tile 0).sweepSlots 0).map (fun x => (x.released, AMap.get? x.counts 4)) = some ([6], some 1)))
    && idle (.sweepLaunchToken 0 1) (launched .accepting 0 0 [])) = true := by decide +kernel

def slotOf (counts : AMap Nat) (left : Nat) : AMap SweepSlot := [(0, { sweep := 0, counts := counts, released := [], running := [], left := left })]

theorem test_sweep_events : (runs (.retireNotice 0 4) (launched .running 0 0 (slotOf [(4, 1)] 5)) (fun t => decide ((AMap.get? (t.tile 0).sweepSlots 0).map (fun x => (x.released, x.counts)) = some ([4], [])))
    && runs (.retireNotice 0 4) (launched .running 0 0 (slotOf [(4, 2)] 5)) (fun t => decide ((AMap.get? (t.tile 0).sweepSlots 0).map (fun x => (x.released, x.counts)) = some ([], [(4, 1)]))) && idle (.retireNotice 0 5) (launched .running 0 0 (slotOf [] 5))
    && runs (.sweepEnd 0) (launched .running (2 ^ 60 + 9) 0 (slotOf [] 0)) (fun t => decide (t.gRead 0x30000 8 = 2 ^ 61 + 9) && decide (t.sweeps = []) && decide (t.me.tags = 2)) && idle (.sweepEnd 0) (launched .running 0 0 (slotOf [] 1))
    && runs (.sweepPartition 0) (launched .running (2 ^ 60) 0 (slotOf [] 1)) (fun t => decide (t.gRead 0x30000 8 = 2 ^ 62) && decide (t.me.lates.map (·.code) = [0x11])) && idle (.sweepPartition 0) (launched .launching 0 0 [])
    && runs (.sweepAbortConfirm 0) (launched .aborting (2 ^ 60) 0 (slotOf [] 1)) (fun t => decide (t.gRead 0x30000 8 = 3 * 2 ^ 60) && decide (t.here.reqs = []) && decide (t.me.tags = 34)) && idle (.sweepAbortConfirm 0) (launched .running 0 0 [])) = true := by decide +kernel

/-! The ordered class. -/

/-- A helper whose p5 is an ordered output of stream 6 with p4 its completion port and p7 an ordered input; the tile's time is 5000. -/
def order : State :=
  { at0 1 (helper [(1, int 5), (8, dataCap 0x400)])
    { tile0 with
      count := 5000 * 2 ^ 16, tileSeq := 9
      slots := [(0, { slot0 with ports := [(5, { Port.blank with declared := true, output := true, ordered := true, count := 2, osn := 6, credits := [3, 2] }),
        (7, { Port.blank with declared := true, ordered := true, osn := 6, count := 1, depth := 4, qaddr := 0x800 })] })] } with
    res := [(0, res0)], chans := [] }

/-- A message of stream 6 with a stamp, from tile word 0, sequence 3. -/
def message (stamp : Nat) : Token := ⟨.data, false, 0x77, 0, 7, 0, 0, 0, some ⟨6, BitVec.ofNat 64 stamp, 0, 0, 3, 5⟩⟩

theorem test_osend : (runs (.osend (ew 4 1 0 0 0 1 5)) order (fun t => decide (t.here.inject.map (·.payload) = [5]) && decide ((t.here.port 5).credits = [2, 1]) && decide (t.here.tileSeq = 10) && decide (t.me.readK 4 = KReg.int t.here.lastStamp))
    && traps (.osend (ew 4 1 0 0 0 1 5)) (order.updTile 0 fun t => { t with synced := false }) 0x17 0x140 && traps (.osend (ew 4 8 0 1 0 1 5)) order 0x0A 5
    && stalls (.osend (ew 4 1 0 0 0 5 5)) (order.updTile 0 fun t => { t with reqs := [(0, load5)] })) = true := by decide +kernel

theorem test_owm : (gives (.owm (ew 4 0 0 0 0 0 5)) order 4 0 && gives (.owm (ew 4 0 0 1 0 0 7)) order 4 (2 ^ 64 - 1) && traps (.owm (ew 4 0 0 1 0 0 5)) order 0x0A 5 && traps (.owm (ew 4 0 0 4 0 0 7)) order 0x0A 7) = true := by decide +kernel

/-- Router 0 with one output whose inputs are the injection port and input 3: it leads to the tile, or to router 1. -/
def routed (next : Option (Nat × Nat)) (q : List (Nat × Token)) (w : Word) : State :=
  { order with onodes := [(0, ⟨[(3, { OInput.init with w := w })], [{ feeds := [0, 3], osns := [6], next := next, q := q, lastW := 0, lastBeacon := 0 }]⟩)], oflights := [⟨0, 3, some (message 40), 40⟩, ⟨1, 3, none, 9⟩] }

/-- The least-keyed message may go when no input can still bring a lesser one (R278): the stamp 40 goes on to router 1 or into p7; the
stamp 41 waits behind it. -/
theorem test_ordered_arrival : (runs (.orderedMessageArrival 0 3) (routed (some (1, 3)) [] 0) (fun t => decide (t.oflights.map (fun f => (f.node, f.msg.map (·.payload))) = [(1, none), (1, some 0x77)]))
    && runs (.orderedMessageArrival 0 3) (routed none [] 0) (fun t => decide ((AMap.get? (t.here.port 7).q 0).map (fun y => (y.kind, y.seq)) = some (.data, 0)) && decide (t.here.payload (t.here.port 7) 0 = 0x77))
    && runs (.orderedMessageArrival 0 0) ((routed (some (1, 3)) [] 30).updTile 0 fun t => { t with inject := [message 41] }) (fun t => decide (t.here.inject = []) && decide ((t.onode 0).outputs.map (fun o => o.q.length) = [1]))
    && idle (.orderedMessageArrival 0 2) (routed none [] 0) && idle (.orderedMessageArrival 0 0) (routed none [] 0)) = true := by decide +kernel

theorem test_beacons : (runs (.beacon 1 3 9) { routed none [] 0 with onodes := [] } (fun t => decide ((AMap.getD (t.onode 1).inputs 3 OInput.init).w = 9)) && idle (.beacon 1 3 8) (routed none [] 0)
    && runs (.idleBeacon 0) (routed none [] 0) (fun t => decide (t.here.lastSent = 5000)) && idle (.idleBeacon 0) ((routed none [] 0).updTile 0 fun t => { t with lastSent := 4000 })
    && runs (.beaconForward 0) (routed (some (1, 3)) [] 50) (fun t => decide (t.oflights.getLast?.map (fun f => (f.node, f.w)) = some (1, 50)))) = true := by decide +kernel

/-- Input 3 has stood still for longer than OWMTIMEOUT while a message waits (R282). -/
theorem test_owm_stall : let s := (routed (some (1, 3)) [(0, message 60)] 50).updTile 0 fun t => { t with count := 100000 * 2 ^ 16 }
    (runs (.owmStall 0 3) s (fun t => decide (t.here.reports = [(0x12, 3, 60)]) && (AMap.getD (t.onode 0).inputs 3 OInput.init).reported) && idle (.owmStall 0 3) (routed none [] 0)) = true := by decide +kernel

/-- Synchronisation waves (R270, R272); a wave's delay is open (log entry 7), so SYNC_WAVE has a test only before the first. -/
theorem test_waves : (runs .syncWaveEmit { order with now := 2000 } (fun t => decide (t.lastWave = 1024) && decide (t.here.missed = 0)) && idle .syncWaveEmit { order with now := 100 } && idle (.syncWave 0) order
    && runs .syncWaveEmit { order with now := 3000, lastWave := 1024 } (fun t => decide (t.here.missed = 1)) && idle (.unsynchronised 0) order
    && runs (.unsynchronised 0) (order.updTile 0 fun t => { t with missed := 4 }) (fun t => !t.here.synced && decide (t.here.reports.length = 1))) = true := by decide +kernel

/-! Configuration slots. -/

/-- HEAD (1 × 1, roles slot 0 and slot 1), an actor of slot 0 at ENTRY 0x200 with 16 registers and bank 2, a BANK record of two words at bank 2. -/
def image : List Word :=
  [1 * 2 ^ 58 + 0xFFFF * 2 ^ 40 + 3 * 2 ^ 20, 0x4E49 * 2 ^ 48 + 2 ^ 40 + 2 ^ 32 + 2 ^ 24 + 2 ^ 22 + 2 ^ 16, 14 * 2 ^ 32, 0, 4 * 2 ^ 58 + 6 * 2 ^ 20, 2 ^ 63 + 15 * 2 ^ 35 + 0x200, 0, 0, 0, 4, 0
    , 2 * 2 ^ 58 + 2 * 2 ^ 20 + 2 ^ 17, 0x11, 0x22].map (BitVec.ofNat 64)

/-- The tile monitor of a tile whose slot 0 runs and slot 1 is loaded; k8 points at an image in global memory. -/
def monitor : State :=
  { at0 0 { helper [(8, gCap 0x10000), (9, int 0), (10, int (2 ^ 60)), (11, gCap 0x11000)] with role := .monitor }
    { tile0 with slots := [(0, { slot0 with words := 9 }), (1, { Slot.blank with state := .loaded, resid := 7, words := 5 })], tlb := [⟨0, 4, 1, 0x30000, true, true, false⟩] } with
    res := [(0, { res0 with image := some image })], blocks := [(0, { Block.init with image := 0x30000 })] }

theorem test_cslot : (runs (.cslot (ew 0 0 0 0 0 1 0)) monitor (fun t => decide (t.me.tags = 2) && decide (t.me.pc = 0x108)) && traps (.cslot (ew 0 0 0 0 0 1 2)) monitor 0x17 0x170
    && runs (.cslot (ew 0 0 0 0 0 1 1)) monitor (fun t => decide (t.here.switchTo = some (1, some 1)) && decide (t.here.active = 0)) && stalls (.cslot (ew 0 0 0 0 0 1 1)) (monitor.updTile 0 fun t => { t with switchTo := some (1, none) })
    && runs (.cslot (ew 0 0 0 1 0 1 1)) monitor (fun t => decide (t.here.active = 1) && decide (t.me.tags = 2))) = true := by decide +kernel

theorem test_rload : (traps (.rload (ew 0 8 10 0 0 1 1)) monitor 0x17 0x370 && traps (.rload (ew 0 8 9 0 0 1 0)) monitor 0x17 0x270 && traps (.rload (ew 0 11 9 0 0 1 1)) monitor 0x17 0x470
    && runs (.rload (ew 0 8 9 0 0 1 0)) { monitor with res := [(0, { res0 with state := .loading, image := some image })] } (fun t => decide (t.me.tags = 2)
      && decide ((AMap.get? t.here.slots 0).map (fun x => (x.state, (AMap.getD x.actors 0 Actor.blank).entry, (AMap.getD x.actors 0 Actor.blank).regs)) = some (.loaded, 0x200, 16))
      && decide (Memory.readN t.here.tlm 0x80000 16 = 0x220000000000000011) && decide (t.here.placed = 4))
    && runs (.rload (ew 0 8 9 0 0 1 1)) { monitor with gpoison := [0x30020] } (fun t => decide ((AMap.getD t.here.slots 1 slot0).state = .empty) && decide (t.here.lastResult.toNat / 2 ^ 56 = 0x45))) = true := by decide +kernel

theorem test_rquery : (gives (.rquery (ew 4 0 0 0 0 0 1)) monitor 4 (2 * 2 ^ 60 + 7 * 2 ^ 48 + 5) && gives (.rquery (ew 4 0 0 0 0 0 0)) (monitor.updTile 0 fun t => { t with switchTo := some (1, none) }) 4 (4 * 2 ^ 60 + 7 * 2 ^ 48 + 9)
    && gives (.rquery (ew 4 0 0 1 0 0 0)) monitor 4 (3 * 2 ^ 60 + 7 * 2 ^ 48) && gives (.rquery (ew 4 0 0 2 0 0 0)) monitor 4 0) = true := by decide +kernel

/-- The next role's slot becomes active once the actors have ended and the queues are empty (R54). -/
def ending : State := monitor.updTile 0 fun t => t.setSlot { slot0 with actors := [(0, { actor0 with live := none, ended := true })], ports := [] }

theorem test_slot_switch : (runs (.configSlotSwitch 0) ending (fun t => decide (t.here.active = 1) && decide (t.here.role = 1)) && idle (.configSlotSwitch 0) monitor
    && runs (.configSlotSwitch 0) (ending.updTile 0 fun t => { t with switchTo := some (1, some 4) }) (fun t => decide (t.me.tags = 16) && decide (t.here.role = 0))) = true := by decide +kernel

/-! The pager's side. -/

/-- A tile whose first instruction at 0x100 is GLD k5, [k8]; k8 points at a page. -/
def walking (page : KReg) : State := (glob.setMe { glob.me with k := [(8, page)] }).updTile 0 fun t => { (t.writeTlm 0x100 (encodeBytes (.gld (gw 5 8 0 0 0)))) with exec := 1 }

/-- The address of the return stub is open (log entry 18), so the fetch of a helper is tested where the stub is elsewhere. -/
theorem test_walk_fetch (h : Config.stub false ≠ 0x100) : fetchNext (walking (gCap 0x10000)).here 1 (walking (gCap 0x10000)).me = .instr (.gld (gw 5 8 0 0 0)) := by
  have e : fetchAt (walking (gCap 0x10000)).here 1 (walking (gCap 0x10000)).me = .instr (.gld (gw 5 8 0 0 0)) := by decide +kernel
  have p : (walking (gCap 0x10000)).me.pc.toNat = 0x100 := by decide +kernel
  have r : (walking (gCap 0x10000)).me.role = .primary := by decide +kernel
  rw [fetchNext, if_neg, e]
  rw [p, r]
  simp [Ne.symm h]

theorem test_walk : (runs (.translationWalk 0 (.stream 0) 0x10000) (strm id) (fun t => decide ((t.here.stream 0).tlb.map (·.pa) = some 0x30000))
    && runs (.translationWalk 0 (.dcopy 1) 0x40000) (glob.setMe { glob.me with dmq := [cmd (.dcopy (ew 0 0 0 0 0 1 0)) (dataCap 0x400) (gCap 0x40000)] }) (fun t => decide (t.me.dmq.map (·.waiting) = [some 0x40000]))) = true := by decide +kernel

/-- A waiter on page 4 goes on when the pager maps it, and is refused when the pager refuses it; the image copy waits likewise. -/
def paging : State :=
  { (glob.updTile 0 fun t => { t with waiters := [⟨helper [], 0x40000, none, false⟩], tlb := [⟨7, 4, 4, 0x60000, true, true, false⟩, ⟨7, 4, 1, 0x30000, true, true, false⟩] }) with
    rects := [(0, 0, 4, 4)], res := [(0, { res0 with armWait := some 0x40000 })] }

theorem test_pager : (0 ∈ paging.resTiles 0) ∧ (runs (.pagerMap 0 0x40000 [(0x3020, 2 ^ 63 + 2 ^ 62 + 2 ^ 58 + 0x60000)]) paging (fun t => decide (t.here.waiters.map (·.ready) = [some 0]) && decide ((t.resOf 0).armWait = none))
    && runs (.pagerMap 0 0x40000 []) paging (fun t => decide (t.here.waiters.map (·.ready) = [none])) && runs (.pageDenied 0 0x40000) paging (fun t => decide (t.here.waiters.map (·.denied) = [true]) && (t.resOf 0).armRefused)
    && runs (.tlbInvalidate 0 0x40000 4) paging (fun t => decide (t.here.tlb.map (·.vpn) = [1]) && decide (t.invals = []))) = true := by decide +kernel

/-! Tokens under way, operators. -/

/-- Channel 1 to p0 of tile 0, with a token of SEQ 2 on its way and one at the fork, and a freed slot. -/
def landing (resid : BitVec 12) : State :=
  let tok : Token := ⟨.data, false, 0x99, 0, resid, 2, 0, 0, none⟩
  { (flow [.data, .data] none) with chans := [(1, { chan0 false with forkQ := [{ tok := tok, after := [] }], branches := [⟨.port 0 0, 4, 3, [{ tok := tok, after := [] }], 1, 0, none⟩] })] }

theorem test_tokens : let s := (landing 7).updTile 0 fun t => t.setPort 0 { t.port 0 with chan := some 1 }
    (runs (.tokenArrival 1 0 2) s (fun t => decide ((AMap.get? (t.here.port 0).q 2).map (fun y => (y.kind, y.seq)) = some (.data, 2)) && decide (t.here.payload (t.here.port 0) 2 = 0x99))
    && runs (.tokenArrival 1 0 2) ((landing 5).updTile 0 fun t => t.setPort 0 { t.port 0 with chan := some 1 }) (fun t => decide (t.here.dropped = 1) && decide ((AMap.get? (t.here.port 0).q 2) = none)) && idle (.tokenArrival 1 0 3) s && idle (.tokenArrival 2 0 3) s
    && runs (.forkForward 1) s (fun t => decide ((t.chan? 1).map (fun c => (c.forkQ.length, c.branches.map (·.flights.length))) = some (0, [2]))) && idle (.forkForward 2) s
    && runs (.creditReturn 1 0) s (fun t => decide ((t.chan? 1).map (fun c => c.branches.map (fun b => (b.room, b.back))) = some [(4, 0)])) && idle (.creditReturn 1 1) s) = true := by decide +kernel

theorem test_bank_token : (runs (.bankTransfer 0 0) ((flow [.bank] none).updTile 0 fun t => (t.setActor 0 { t.actor 0 with inForce := 1 }).writeTlm 0x800 [3]) (fun t => decide ((t.here.actor 0).inForce = 9) && decide ((t.here.port 0).h = 1)) && idle (.bankTransfer 0 0) (flow [.data] none)) = true := by decide +kernel

/-- Operator 0 of tile 0 with tokens in its registers and outputs on channels 1 and 3. -/
def operator (k : OperKind) (x y : Option (TokKind × Nat)) (e : AMap Nat) : State :=
  let tok := fun (p : TokKind × Nat) => (⟨p.1, false, BitVec.ofNat 512 p.2, 0, 7, 0, 0, 0, none⟩ : Token)
  let o : Oper := { kind := k, nullRep := true, init := 0x55, emitted := false, in0 := x.map tok, in1 := y.map tok, h0 := 0, h1 := 0, marker0 := none, marker1 := none
                    drain0 := .no, drain1 := .no, chans := e, errs := 0, ended := false, held := false }
  { (flow [] none).updTile 0 fun t => { t with slots := [(0, { t.slot with opers := [(0, o)] })] } with chans := [(1, chan0 false), (3, chan0 false)] }

theorem test_operators : (runs (.steerOp 0 0) (operator .steer (some (.data, 9)) (some (.data, 1)) [(2, 1), (3, 3)]) (fun t => decide (newest t 3 = some (.data, 9)) && decide (newest t 1 = some (.null, 0)))
    && runs (.steerOp 0 0) (operator .steer (some (.data, 9)) (some (.poison, 1)) [(2, 1), (3, 3)]) (fun t => decide (newest t 3 = some (.poison, 0)) && decide ((t.here.oper 0).map (·.errs) = some 1))
    && runs (.mergeOp 0 0) (operator .merge (some (.null, 0)) (some (.data, 8)) [(2, 1)]) (fun t => decide (newest t 1 = some (.data, 8))) && runs (.mergeOp 0 0) (operator .merge (some (.data, 7)) (some (.data, 8)) [(2, 1)]) (fun t => decide (newest t 1 = some (.poison, 0)))
    && runs (.carryOp 0 0) (operator .carry none none [(1, 1)]) (fun t => decide (newest t 1 = some (.data, 0x55)) && decide ((t.here.oper 0).map (·.emitted) = some true)) && idle (.steerOp 0 0) (operator .merge none none []) && idle (.mergeOp 0 0) (operator .merge none none [])
    && idle (.carryOp 0 1) (flow [] none)) = true := by decide +kernel

/-! Pre-emption, the watchdog, the rebalancer. -/

/-- Residency 7 on tiles 0 and 1; helper 1 of tile 0 runs. -/
def living (r : Res) : State :=
  { st1 with
    rects := [(0, 0, 4, 4)], res := [(0, { r with image := some image })], bootStage := 8, hostUp := 3, blocks := [(0, { Block.init with image := 0x30000 })]
    chans := [], tiles := [(0, (tile0.setSlot { slot0 with ports := [] }).setCtx 1 st1.me), (1, { Tile.init with slots := [(0, { Slot.blank with state := .active, resid := 7 })] })] }

theorem test_preempt : let s := living res0
    (runs (.preemptToken 0) s (fun t => t.here.preReq && t.me.halted && decide (t.me.cause = 0x18)) && runs (.preemptRequest 0) s (fun t => t.here.preReq)
    && runs (.preemptResume 0) (s.setMe { s.me with halted := true }) (fun t => !t.me.halted) && idle (.haltedSet 0) s
    && runs (.haltedSet 0) ((s.setMe { s.me with halted := true }).updTile 0 fun t => { t with preReq := true }) (fun t => t.here.preHalted) && idle (.preemptToken 0) (s.updTile 0 fun t => { t with preReq := true })
    && runs (.wdogWrite 0 0x12345) s (fun t => decide ((t.resOf 0).wdTicks = 0x12345) && !(t.resOf 0).wdEn) && idle (.wdogWrite 5 1) s) = true := by decide +kernel

theorem test_watchdog : let s := { living res0 with now := 0x61A80 }
    (runs (.watchdog 0) (s.setMe { s.me with mode := .free }) (fun t => decide ((t.resOf 0).state = .aborted) && (t.resOf 0).wdFired && decide ((t.resOf 0).err.w0 = 0x1300000100000000)) && idle (.watchdog 0) (living res0)) = true := by decide +kernel

/-- The 64th busy sample closes a window and nominates actor 0, which declares no bank here, for tile 1 (R313). -/
def migrating (m : Option (Nat × Nat × Nat)) : State :=
  let s := living { res0 with region := some ⟨0, 0, 0, 1, 2⟩, moving := m }
  ({ s with now := 4000 }.updTile 1 fun t => { t with tlm := tile0.tlm, poison := tile0.poison, exec := 1 }).updTile 0 fun t => { (t.setActor 0 { t.actor 0 with live := none, grant := 4, migrating := true }) with exec := 1 }.writeTlm 0x80010 [0x5A]

theorem test_rebalance : (runs (.rebalanceSample 0) (migrating none) (fun t => decide (t.here.samples = 1) && decide (t.here.sampledAt = 4000)) && idle (.rebalanceSample 0) (living res0)
    && runs (.rebalanceSample 0) ((migrating none).updTile 0 fun t => { t with samples := 63 }) (fun t => decide (t.here.samples = 0))) = true := by decide +kernel

theorem test_migration : (runs (.migration 0 0 1) (migrating (some (0, 0, 1))) (fun t => ((t.tile 1).actor 0).declared && !((t.tile 0).actor 0).declared && decide (Memory.read (t.tile 1).tlm 0x80010 = 0x5A) && decide ((t.tile 0).fwd.length = 1))
    && idle (.migration 0 0 1) (migrating none) && runs (.migration 0 0 1) ((migrating (some (0, 0, 1))).updTile 1 fun t => { t with alive := false }) (fun t => decide ((t.resOf 0).moving = none))
    && runs (.forwardingEntryRemoval 0) (migrating none) (fun t => decide (t.here.fwd = []))) = true := by decide +kernel

/-! The life of a residency. -/

theorem test_commands : (runs (.goCmd 0) (living Res.init) (fun t => decide ((t.resOf 0).state = .queued) && (t.resOf 0).used) && idle (.goCmd 0) (living res0) && idle (.goCmd 0) { living Res.init with bootStage := 4 }
    && runs (.abortCmd 0) (living res0) (fun t => (t.resOf 0).abortAsked) && idle (.abortCmd 0) (living Res.init) && runs (.commitParams 0) (living res0) (fun t => (t.resOf 0).commit)
    && runs (.residencyStart 0) (living { res0 with state := .armed }) (fun t => decide ((t.resOf 0).state = .running)) && idle (.residencyStart 0) (living res0)) = true := by decide +kernel

/-- A host channel in use by another live residency fails GO (R400). -/
theorem test_go_conflict : let s := { living Res.init with blocks := [(0, { Block.init with onum := 1, ofirst := 3 }), (1, { Block.init with onum := 1, ofirst := 3 })], res := [(0, Res.init), (1, res0)] }
    runs (.goCmd 0) s (fun t => decide ((t.resOf 0).state = .aborted) && decide ((t.resOf 0).result = 0x4470000000000023)) = true := by decide +kernel

theorem test_staging : (runs (.imageStaging 0) { living { res0 with state := .queued, stageDue := true } with gpoison := [0x30000] } (fun t => decide ((t.resOf 0).state = .aborted) && decide ((t.resOf 0).result.toNat / 2 ^ 56 = 0x45))
    && runs (.imageStaging 0) (living { res0 with state := .queued, stageDue := true }) (fun t => decide ((t.resOf 0).state = .aborted) && decide ((t.resOf 0).result.toNat / 2 ^ 56 = 0x45)) && idle (.imageStaging 0) (living res0)) = true := by decide +kernel

theorem test_dispatch_residency : (runs (.residencyDispatch 0) (living { res0 with state := .queued, region := none }) (fun t => decide ((t.resOf 0).state = .loading) && decide ((t.resOf 0).region = some ⟨0, 0, 0, 1, 1⟩))
    && idle (.residencyDispatch 0) (living res0) && idle (.residencyDispatch 0) { living { res0 with state := .queued, region := none } with rects := [] }) = true := by decide +kernel

/-- An image without parameters arms: its first role is active on its tile. -/
theorem test_arming : (runs (.arming 0) (living { res0 with state := .loading }) (fun t => decide ((t.resOf 0).state = .armed) && decide ((t.tile 0).slot.state = .active) && decide (((t.tile 0).actor 0).entry = 0x200)) && idle (.arming 0) (living res0)) = true := by
  decide +kernel

def drained (r : Res) : State := (living r).updTile 0 fun t => { (t.setSlot { slot0 with actors := [(0, { actor0 with live := none, ended := true })], ports := [] }) with active := 0, role := 1, ctxs := [(0, { Ctx.init with role := .monitor })] }

theorem test_residency_end : (runs (.residencyEnd 0) (drained res0) (fun t => decide ((t.resOf 0).state = .ended) && decide ((t.tile 0).slots = []) && decide ((AMap.get? (t.outlet 0).q 0).map (fun k => k.payload.toNat % 2 ^ 64) = some (7 * 2 ^ 8 + 4 * 2 ^ 20)))
    && idle (.residencyEnd 0) (living res0) && runs (.residencyAbort 0) (living { res0 with abortAsked := true }) (fun t => decide ((t.resOf 0).state = .aborted)) && idle (.residencyAbort 0) (living res0)
    && runs (.replayRearm 0) { drained res0 with res := [(0, { res0 with image := some (setAt image 1 (nthD image 1 0 + 2 ^ 13)) })] } (fun t => decide ((t.resOf 0).replay = 1) && decide ((t.resOf 0).state = .running)) && idle (.replayRearm 0) (drained res0)) = true := by decide +kernel

/-! Fault tokens and snapshots. -/

/-- The image names p0 of its tile as the fault port. -/
def faulting (q : List Word) (ended : Bool) : State :=
  let s := living { res0 with faultQ := q }
  { s with res := [(0, { s.resOf 0 with image := some (setAt image 3 8) })] }.updTile 0 fun t => t.setSlot { slot0 with
    actors := [(0, { actor0 with live := none, ended := ended })], ports := [(0, { Port.blank with declared := true, count := 1, depth := 4, qaddr := 0x800 })] }

theorem test_fault_token : (runs (.faultToken 0) (faulting [0x70009, 5] false) (fun t => decide ((t.resOf 0).faultQ = [5]) && decide (t.here.payload (t.here.port 0) 0 = 0x70009)) && idle (.faultToken 0) (faulting [] false)
    && runs (.faultPortEos 0) (faulting [] false) (fun t => decide ((AMap.get? (t.here.port 0).q 0).map (·.kind) = some .eos)) && idle (.faultPortEos 0) (faulting [5] false)) = true := by decide +kernel

theorem test_snap : (runs (.snapCmd 0) (living res0) (fun t => (t.resOf 0).snapping) && idle (.snapCmd 0) (living { res0 with snapping := true }) && idle (.restoreCmd 0) (living res0)
    && idle (.snapshotTileComplete 0 0) (living res0)) = true := by decide +kernel

/-- The marker of a channel whose source is held reaches p0, and holds the actor (R375). -/
def marking : State :=
  { (faulting [] false) with
    res := [(0, { res0 with snapping := true, image := some image })]
    chans := [(1, { chan0 false with src := .port 0 1, reserved := [(4, 0)], branches := [⟨.port 0 0, 4, 4, [], 0, 0, none⟩] })] }.updTile 0 fun t => t.setPort 0 { t.port 0 with chan := some 1 }

theorem test_snap_arrival : (runs (.snapArrival 1 0) marking (fun t => decide ((t.here.port 0).marker = some (5, 1)) && (t.here.actor 0).held) && idle (.snapArrival 2 0) marking && idle (.snapArrival 1 0) { marking with res := [(0, res0)] }) = true := by
  decide +kernel

/-- The one tile of the residency is complete: it is held (R375, R377). -/
theorem test_snapshot_tile : let s := { living { res0 with snapping := true } with chans := [] }.updTile 0 fun t => { (t.setSlot { slot0 with actors := [(0, { actor0 with live := none, held := true })], ports := [] }) with preReq := true, ctxs := [] }
    decide (nodesComplete s.here = true ∧ s.here.haltStands = true ∧ repliesDue s 0 = false ∧ 0 ∈ s.resTiles 0) = true := by decide +kernel

/-! The host's channels and registers. -/

def tok (v : Nat) : Token := ⟨.data, false, BitVec.ofNat 512 v, 0, 7, 0, 0, 0, none⟩

/-- Inlet 3 and outlet 2 of residency 7. -/
def hosted (line : Bool) : State :=
  { living res0 with
    chans := [(9, { chan0 line with src := .inlet 3, num := 2 })], inlets := [(3, ⟨some 9, 0, 0⟩)]
    outlets := [(2, { Outlet.init with h := 4, q := [(4, tok 1), (5, tok 2), (7, tok 3)] })] }

def inChan (t : State) (k : TokKind) (v : Nat) : Bool := match t.chan? 9 with
  | some c => c.branches.any fun b => b.flights.any fun f => decide (f.tok.kind = k) && decide (f.tok.payload.toNat = v)
  | none => false

theorem test_inlet : (runs (.inletData 3 77) (hosted false) (fun t => inChan t .data 77 && decide ((t.inlet 3).created = 1)) && runs (.inletEos 3 0x10005) (hosted false) (fun t => inChan t .eos 5)
    && runs (.inletRound 3) (hosted false) (fun t => inChan t .round 0) && runs (.inletNull 3) (hosted false) (fun t => inChan t .null 0)
    && runs (.inletLine 3 5 true) (hosted true) (fun t => inChan t .data 5) && runs (.inletLine 3 5 false) (hosted true) (fun t => decide ((t.inlet 3).drops = 1))
    && runs (.inletLine 3 5 true) (hosted false) (fun t => decide ((t.inlet 3).drops = 1)) && runs (.inletData 4 1) (hosted false) (fun t => decide ((t.inlet 4).drops = 1))
    && idle (.inletData 64 1) (hosted false)) = true := by decide +kernel

theorem test_taken : (runs (.takenWrite 2 1) (hosted false) (fun t => decide ((t.outlet 2).h = 5) && decide ((t.outlet 2).avail = 1)) && idle (.takenWrite 2 3) (hosted false)
    && runs (.hostPortLinkFail 1) { hosted false with hostUp := 3 } (fun t => decide (t.hostUp = 1))) = true := by decide +kernel

def writes (off : Nat) (v : Word) (s : State) (p : State → Bool) : Bool := match execRegisterWrite off v s with
  | .next t => p t
  | _ => false

/-- A control block, an error record's DUMP, an element word, and a place without a register; before stage 4 nothing is answered. -/
theorem test_register_write : let s := living Res.init
    (writes 0x100010 0x12345678 s (fun t => decide ((t.block 0).root = 0x12345000)) && writes 0x100018 0x777 s (fun t => decide ((t.block 0).paramva = 0x777))
    && writes 0x100000 (2 ^ 63) s (fun t => decide ((t.resOf 0).state = .queued)) && writes 0x100000 (2 ^ 63 + 2 ^ 62) s (fun t => decide (t = s))
    && writes 0x100010 0x5000 (living res0) (fun t => decide (t = living res0)) && writes 0x300060 0x5000 s (fun t => decide ((t.errOf 0).dump = 0x5000))
    && writes 0x801008 0xFFFF s (fun t => decide (((t.link 1).elem 1).word = 0xFC00)) && writes 8 5 s (fun t => decide (t = s))
    && writes 0x100010 0x5000 State.reset (fun t => decide (t = State.reset))) = true := by decide +kernel

theorem test_register_undescribed : (match execRegisterWrite 0x200000 1 (living Res.init) with
    | .fault f => decide (f = .undescribedDevice)
    | _ => false) = true := by decide +kernel

/-- BAR0's block word 0: STATE 3 and RESID 7 (R400), and the summary's word 1 (R390). -/
theorem test_register_read : (mgmtRead (living res0) 0x100000 = some 0x0030070000000000#64 ∧ mgmtRead (living res0) 8 = some 0x404#64) := by decide +kernel

/-! The links. -/

def linked (f : LinkPort → LinkPort) : State :=
  { living res0 with links := [(7, f { LinkPort.init with table := 2, txSeq := 5, replay := (upto 3).map fun i => ⟨7, 0, 0, 2 + i, .none, true⟩ })] }

theorem test_ack_nak : (runs (.ackFlit 7 3) (linked id) (fun t => decide ((t.link 7).replay.map (·.seq) = [4])) && runs (.nakFlit 7 3) (linked id) (fun t => decide ((t.link 7).resend.map (·.seq) = [3, 4]))
    && idle (.ackFlit 6 3) (linked id)) = true := by decide +kernel

theorem test_flit : (runs (.flitReceive 7 ⟨7, 0, 1, 0, .tokens [tok 9], true⟩) (linked id) (fun t => decide ((t.link 7).rxSeq = 1) && decide (AMap.getD (t.link 7).rx 1 [] = [tok 9]) && decide ((t.link 7).ctl.map (·.typ) = some 5))
    && runs (.flitReceive 7 ⟨7, 0, 1, 0, .tokens [tok 9], false⟩) (linked id) (fun t => decide ((t.link 7).rxSeq = 0) && decide ((t.link 7).ctl.map (·.typ) = some 6))
    && idle (.flitReceive 7 ⟨7, 0, 1, 4, .tokens [tok 9], true⟩) (linked id)) = true := by decide +kernel

theorem test_retrain : let bad := fun (l : LinkPort) => { l with retrainDue := true }
    let down := fun (n : Nat) (l : LinkPort) => { l with table := 1, retraining := true, fails := n }
    (runs (.retrain 7) (linked bad) (fun t => (t.link 7).retraining && decide ((t.link 7).state = 1)) && idle (.retrain 7) (linked id)
    && runs (.retrainEnd 7 true) (linked (down 1)) (fun t => decide ((t.link 7).state = 2) && decide ((t.link 7).resend.length = 3)) && runs (.retrainEnd 7 false) (linked (down 1)) (fun t => decide ((t.link 7).fails = 2))
    && idle (.linkDead 7) (linked (down 1)) && runs (.linkDead 7) (linked (down 2)) (fun t => decide ((t.link 7).state = 3) && decide (t.deadLinks = [7]))) = true := by decide +kernel

theorem test_timing : (runs .timingFlitSend { living res0 with podRoot := true, now := 1024 } (fun t => decide (t.lastTiming = 1024)) && idle .timingFlitSend { linked id with podRoot := true, now := 1023 }
    && runs (.timingFlit 7 5) { linked id with podRoot := true } (fun t => decide ((t.link 7).peerTime = 5)) && idle (.timingFlit 6 5) (linked id)) = true := by decide +kernel

/-! The port fabric: the worked example of R408. -/

def line2 (a b : Nat) : Token := { tok (a + b * 2 ^ 32) with line := true }

/-- Port 7 with the example's two elements, the tokens 300.0, 1.0 and 200.0, 0.5, and a word channel at egress stream 3. -/
def combining : State :=
  { linked (fun l => { l with elems := [(0, { FabElem.init with word := 0x8C0497F7FBB80000 }), (1, { FabElem.init with word := 0xA007FC049BD00000 })]
                              rx := [(0, [line2 0x43960000 0x3F800000])], streamResid := [(19, 7)], ingress := [(2, [line2 0x43480000 0x3F000000])] }) with
    chans := [(9, { chan0 false with src := .fabric 7 3, num := 2 })] }

def enabled : State := match execFabricEnable 7 true combining with
  | .next t => t
  | _ => combining

theorem test_fabric_enable : ((enabled.link 7).fabEn && runs (.fabricEnable 7 false) enabled (fun t => !(t.link 7).fabEn)
    && runs (.fabricEnable 7 true) (combining.updLink 7 fun l => { l with elems := [(1, { FabElem.init with word := 0xA007FC049BD00000 })] }) (fun t => (t.link 7).fabErr && !(t.link 7).fabEn)) = true := by
  decide +kernel

/-- 500.0 and 1.5 become 0x7E and 0x3C; the overflow token has payload 1. -/
theorem test_fabric_fire : runs (.fabricElementFire 7 0) enabled (fun t => runs (.fabricElementFire 7 1) t fun u => inChan u .data 1
    && ((u.link 7).replay.any fun f => match f.body with
      | .tokens [k] => decide (k.payload = 0x3C7E) && k.line
      | _ => false)) = true := by decide +kernel

/-! Power and retirement. -/

def boot0 : BootInput := ⟨[], [], [], [], [], 0, false, 0, [], none⟩

/-- With no image that the boot ROM accepts, bring-up stops at 0xF1 (R411); from stage 1 on, without the tiles' stages, it goes as far as
the input lets it. -/
theorem test_power_on : (runs (.powerOn boot0) State.reset (fun t => t.powered && decide (t.bootStage = 0xF1)) && idle (.powerOn boot0) { living res0 with powered := true }
    && decide ((bootFrom { boot0 with stopAt := some (5, 9) } 8 2 State.reset).bootStage = 5) && decide ((bootFrom { boot0 with stopAt := some (5, 9) } 8 2 State.reset).hostUp = 3)
    && runs (.powerLoss false) (living res0) (fun t => decide (t.tiles = []) && decide (t.bootStage = 0))) = true := by decide +kernel

/-- Physical tile 5 is tile 0: its retirement asks for the abort of the residency on it, and closes the rectangle (R393). -/
theorem test_retirement : let s := { living res0 with phys := [(0, 5)], retireDue := [.tile 5 false] }
    (runs (.tileRetirement (.tile 5 false)) s (fun t => !(t.tile 0).alive && decide (t.closedRects = [0]) && (t.resOf 0).abortAsked && (t.resOf 0).tileLost && decide (t.fuses.tileRetired = [5]) && decide (t.retireDue = []))
    && idle (.tileRetirement (.tile 6 false)) s && runs (.hostRetire (.tile 6 false)) s (fun t => decide (t.fuses.tileRetired = [6])) && runs (.linkStopsAnswering 9) s (fun t => decide (t.fuses.linkRetired = [9]))
    && runs (.droopStop 5) s (fun t => (t.tile 0).drooped && decide (AMap.getD t.droops 5 0 = 1)) && runs (.droopRecovery 5) (s.updTile 0 fun t => { t with drooped := true }) (fun t => !(t.tile 0).drooped)
    && idle .coxEpoch s && runs .coxEpoch { s with now := 4000 } (fun t => decide (t.lastEpoch = 4000))) = true := by decide +kernel

/-- The Cox's grants: all of the demand while the budget lasts, never less than 16 (R410). -/
theorem test_grants : ([grantFor 2 100 40, grantFor 2 100 3, grantFor 2 (2 * 683404 - 32) 1016] = [40, 16, 516]) := by decide +kernel

theorem test_security : (idle (.keySlotFill 16 0 0) { living res0 with bootStage := 8 } && idle (.recoveryImageLoad Firmware.blank) (living res0) && idle (.attestationReport 0) State.reset) = true := by
  decide +kernel

/-! Windows, errors found on the way, other modules, and the port fabric's other elements. -/

/-- The VLD or VADD of v4 stands in a window: its result, or its failure, goes there and v4 stays (R79, R174). -/
def winRun (i : Instr) (poison : List Nat) : State :=
  let w : Win := { cls := .v, dest := 4, left := 3, arrived := false, result := 0, resultTag := false, fail := 0, failVal := 0, pc := 0x100, op := 4, age := 0, slot := 0 }
  let s := (bound i (dataCap 0x400) KReg.zero).updTile 0 fun t => { t with poison := poison }
  repeats (execVectorComplete 0 1) 16 (s.setMe { s.me with vq := [{ entry i (dataCap 0x400) KReg.zero with win := true }], wins := [w] })

theorem test_window_results : (let t := winRun (.vadd (v3 5)) []
    decide (t.me.vq = []) && decide (t.me.readV 4 = 0) && decide (t.me.wins.map (fun w => (w.arrived, elem w.result 32 0, w.fail)) = [(true, 10, 0)]))
    && (let t := winRun (.vld (vw 4 8 0 0 0 5)) [0x410]
    decide (t.me.lates = []) && decide (t.me.wins.map (fun w => (w.arrived, w.fail, w.failVal)) = [(true, 0x0D, 0x410)])) = true := by decide +kernel

/-- The classes, extremes, sum and comparisons of (1.0, −2.0, 3.0, +∞, 0, …) with zeros (R163, R171, R175). -/
theorem test_float_moves : (vout (.vfclass (vw 4 3 0 0 0 7)) 32 KReg.zero KReg.zero [64, 2, 64, 128] && vout (.vredmax (vw 4 3 0 0 0 7)) 32 KReg.zero KReg.zero [0x7F800000, 0, 0, 0]
    && vout (.vredmin (vw 4 3 0 0 0 7)) 32 KReg.zero KReg.zero [0xC0000000, 0, 0, 0] && vout (.vfredadd { vw 4 3 0 0 0 7 with mask := 1 }) 32 KReg.zero KReg.zero [0x40800000, 0, 0, 0]
    && mout (.vfcmpeq (vw 4 3 0 0 0 7)) 0xFFF0 && mout (.vfcmplt (vw 4 3 0 0 0 7)) 2 && mout (.vfcmple (vw 4 3 0 0 0 7)) 0xFFF2) = true := by decide +kernel

/-- To SINT32 and BF16; the low half of v1 saturated into SINT16 and the words of v2 widened from it. -/
theorem test_conversions : (vout (.vcvt (vw 4 3 0 7 0 5)) 32 KReg.zero KReg.zero [1, 2 ^ 32 - 2, 3, 2 ^ 31 - 1] && vout (.vcvt (vw 4 3 0 7 0 9)) 16 KReg.zero KReg.zero [0x3F80, 0xC000, 0x4040, 0x7F80]
    && vout (.vpack { vw 4 1 2 5 0 3 with sat := 1 }) 16 KReg.zero KReg.zero [7, 0xFFFF, 0x7FFF, 0x8000] && vout (.vunpack (vw 4 2 0 3 0 5)) 32 KReg.zero KReg.zero [3, 0, 2, 0]
    && vout (.vcvto { vw 4 3 9 7 0 5 with vc := 0 }) 32 KReg.zero KReg.zero [1, 2 ^ 32 - 2, 3, 2 ^ 31 - 1]) = true := by decide +kernel

/-- VMXQ of a block with an infinity is all zeros under the scale 0xFF; VMXD of v2's first block, 3 × 2^-9 under the scale 2^-127 (R170). -/
theorem test_mx : (vout (.vmxq (vw 4 3 0 7 0 10)) 8 KReg.zero KReg.zero [0, 0, 0, 0] && completes (.vmxq (vw 4 3 0 7 0 10)) KReg.zero KReg.zero (fun c => decide (elem (c.readV 4) 8 32 = 255))
    && completes (.vmxq (vw 4 0 0 7 0 10)) KReg.zero KReg.zero (fun c => decide (elem (c.readV 4) 8 32 = 127)) && vout (.vmxd (vw 4 2 0 10 0 7)) 32 KReg.zero KReg.zero [0x6000, 0, 0, 0]) = true := by decide +kernel

/-- A line found uncorrectable at the home is marked, and answers POISON; a correctable one is corrected (R382). -/
theorem test_home_ecc : (runs (.memoryRequest 0 0) { homed .load 0 0 with gerr2 := [0x30008] } (fun t => decide ((AMap.get? (t.tile 0).reqs 0).bind (·.reply) = some .poison) && NSet.mem t.gpoison 0x30000 && decide (t.gerr2 = []))
    && runs (.memoryRequest 0 0) { homed .load 0 0 with gerr1 := [0x30008] } (fun t => decide ((AMap.get? (t.tile 0).reqs 0).bind (·.reply) = some (.data 0x8000000000000010)) && decide (t.gerr1 = []))) = true := by decide +kernel

/-- Module 1 is reached by port 7: its memory answers while the link works, and the request waits while it retrains; its management space
acknowledges a store. -/
def farAway (state : Word) (op : GOp) (pa : PAddr) : State :=
  { homed .load 0 0 with routes := [(1, 7 <<< 56)], links := [(7, { LinkPort.init with table := state })], tiles := [(0, { tile0 with reqs := [(0, { load5 with op := op, pa := pa })] })] }

theorem test_far_module : (runs (.memoryRequest 0 0) (farAway 2 .load (2 ^ 46)) (fun t => decide ((AMap.get? (t.tile 0).reqs 0).bind (·.reply) = some (.data 0))) && idle (.memoryRequest 0 0) (farAway 1 .load (2 ^ 46))
    && runs (.memoryRequest 0 0) (farAway 2 .store (2 ^ 46 + 2 ^ 45)) (fun t => decide ((AMap.get? (t.tile 0).reqs 0).bind (·.reply) = some .ack))
    && runs (.memoryRequest 0 0) (farAway 3 .store (2 ^ 46)) (fun t => decide ((AMap.get? (t.tile 0).reqs 0).bind (·.reply) = some .poison))) = true := by decide +kernel

/-- Groups corrected on a mesh link are counted, and a token that cannot be corrected arrives as POISON (R381). -/
def crossing (bad : Bool) : State :=
  let s := (landing 7).updTile 0 fun t => t.setPort 0 { t.port 0 with chan := some 1 }
  { s with res := [(0, res0)], chans := s.chans.map fun c => (c.1, { c.2 with branches := c.2.branches.map fun b => { b with flights := b.flights.map fun f => { f with corr := 2, bad := bad } } }) }

theorem test_mesh_ecc : (runs (.tokenArrival 1 0 2) (crossing false) (fun t => decide ((AMap.get? (t.here.port 0).q 2).map (·.kind) = some .data) && decide ((t.resOf 0).err.corr = 2) && decide ((t.resOf 0).err.uncorr = 0))
    && runs (.tokenArrival 1 0 2) (crossing true) (fun t => decide ((AMap.get? (t.here.port 0).q 2).map (·.kind) = some .poison) && decide ((t.resOf 0).err.uncorr = 1))) = true := by decide +kernel

/-- The access of a command goes one by one: MMA has read nothing of its operands yet, and its panels are read before a chunk adds. -/
theorem test_engine_steps : runs (.mxCommandComplete 0 1) (queued .mx (.mma (ew 0 8 8 31 9 1 0)) (dataCap 0x1000) (dataCap 0x1000) armed) (fun t => decide (t.me.mxq.map (fun x => (x.started, x.rd, x.done)) = [(true, 1, 0)]) && decide (t.here.accs = (queued .mx (.mma (ew 0 8 8 31 9 1 0)) (dataCap 0x1000) (dataCap 0x1000) armed).here.accs))
    = true := by decide +kernel

/-- DCOPY reads its line and then writes it; a refused page stops it (R259). -/
theorem test_dcopy_steps : let s := fun (kb : KReg) => glob.setMe { glob.me with dmq := [cmd (.dcopy (ew 0 0 0 0 0 1 0)) (KReg.make 0 0x2000 [.w, .tlm] 0x1000) kb] }
    (runs (.dcopyComplete 0 1) (s (gCap 0x10000)) (fun t => decide (t.me.dmq.map (·.rd) = [1]) && decide (Memory.readN t.here.tlm 0x1000 8 = 0))
    && runs (.dcopyComplete 0 1) (s (gCap 0x30000)) (fun t => decide (t.me.dmq = []) && decide (t.me.lates.map (fun l => (l.code, l.val)) = [(0x09, 0x30000)]) && decide (t.me.tags = 2))
    && runs (.dcopyComplete 0 1) (s (gCap 0x40000)) (fun t => decide (t.me.dmq.map (·.waiting) = [some 0x40000]))) = true := by decide +kernel

/-- START waits for the queued vector instructions of its context, and for a helper while a pre-emption is asked for. -/
theorem test_start_waits : (stalls (.startI ⟨0, 1, 8⟩) (starting.setMe { starting.me with vq := [entry (.vst (vw 1 8 0 0 0 5)) (dataCap 0x400) KReg.zero] })
    && runs (.startI ⟨0, 1, 8⟩) (starting.updTile 0 fun t => { t with preReq := true }) (fun t => t.me.stalled && decide (t.here.nextStart = 1))) = true := by decide +kernel

/-- A SNAP during a move of the rebalancer waits for it, and the move's end, here a move given up, starts it (R374). -/
theorem test_snap_after_move : (runs (.snapCmd 0) (living { res0 with moving := some (0, 0, 1) }) (fun t => (t.resOf 0).snapDue && !(t.resOf 0).snapping)
    && runs (.migration 0 0 1) { (migrating (some (0, 0, 1))) with res := [(0, { (migrating (some (0, 0, 1))).resOf 0 with snapDue := true })] } (fun t => (t.resOf 0).snapping && decide ((t.resOf 0).moving = none))) = true := by decide +kernel

/-- Inlet page words (R397) and the outlet page: AVAIL, and the slot of H, 4 (R398). -/
theorem test_host_reads : ([inletRead (hosted false) 3 0x80, inletRead (hosted false) 3 0x88, inletRead (hosted false) 3 0x90] = [4, 0, 0]) ∧ outletRead (hosted false) 2 0 = some (BitVec.ofNat 64 (4 * 2 ^ 32 + 2)) ∧
    outletRead (hosted false) 2 (0x4000 + 4 * 128 + 64) = some 1 ∧ outletRead (hosted false) 2 (0x4000 + 4 * 128) = some (headerOf (tok 1) |>.setWidth 64) := by decide +kernel

/-- Port 1's BAR0 is 2^27 further on; words behind BAR0, and a port that has failed. -/
theorem test_register_ports : let s := living Res.init
    (writes (2 ^ 27 + 0x100018) 0x777 s (fun t => decide ((t.block 0).paramva = 0x777)) && writes (2 ^ 27 + 0x100018) 0x777 { s with hostUp := 1 } (fun t => decide (t = { s with hostUp := 1 }))
    && writes (atLink + 8 * 35) (2 ^ 64 - 1) s (fun t => decide ((t.link 35).table = 0xFFF0000000000003)) && writes (atRoute + 8 * 63) (2 ^ 64 - 1) s (fun t => decide (AMap.getD t.routes 63 0 = 0x3F00000FFFFFFFFF))
    && writes (atWbase + 8) (2 ^ 64 - 1) s (fun t => decide (AMap.getD t.wbase 1 0 = 0xFFFF000000000)) && writes atMsien (2 ^ 64 - 1) s (fun t => decide (AMap.getD t.msien 0 0 = 0xFFFFFFFF))) = true := by decide +kernel

/-- Element 5 of port 7 alone, its destination its own stream 0: what a firing leaves in its outputs. -/
def fired (word : Word) (a b : Option Token) : LinkPort := fireElem { LinkPort.init with elems := [(5, ⟨word, a, b, none, none⟩)] } 5
def outOf (l : LinkPort) : Option (TokKind × Nat × Nat × Nat) := ((l.elem 5).main).map fun o => (o.1.kind, elem o.1.payload 32 0, elem o.1.payload 32 1, elem o.1.payload 8 0)
/-- An element word: operation, input and output format, SCALE, destination 0x80. -/
def word (op inF outF scale : Nat) : Word := BitVec.ofNat 64 (2 ^ 63 + op * 2 ^ 59 + 0x80 * 2 ^ 35 + 0x81 * 2 ^ 27 + inF * 2 ^ 23 + outF * 2 ^ 19 + scale * 2 ^ 11)

/-- FMAX, CONV to BF16, XENC and XDEC back, SCALE by 2 (R408); SNAP with SNAP is a mixture, counted, and gives POISON. -/
theorem test_elements : (decide ((outOf (fired (word 3 7 7 0) (some (line2 0x3F800000 0xC0000000)) (some (line2 0x40000000 0xC0400000)))).map (fun x => (x.2.1, x.2.2.1)) = some (0x40000000, 0xC0000000))
    && decide ((outOf (fired (word 4 7 9 0) (some (line2 0x3F800000 0xC0000000)) none)).map (fun x => x.2.1) = some 0xC0003F80)
    && decide ((outOf (fired (word 7 7 7 128) (some (line2 0x3F800000 0xC0000000)) none)).map (fun x => (x.2.1, x.2.2.1)) = some (0x40000000, 0xC0800000))
    && decide (((fired (word 5 10 10 0) (some (line2 0x38383838 0)) none).elem 5).main.bind (fun o => (outOf (fired (word 6 10 10 0) (some o.1) none)).map fun x => (x.1, x.2.1, x.2.2.1)) = some (.data, 0x38383838, 0))
    && (let l := fired (word 1 7 7 0) (some { line2 1 0 with kind := .snap }) (some { line2 1 0 with kind := .snap })
    decide ((outOf l).map (·.1) = some .poison) && decide (l.fabErrs = 1))) = true := by decide +kernel

/-- A router that fails a self-test is retired with its six links, also where its tile fails too (R18, R389). -/
theorem test_router_fails : let f := Fuses.selfTests State.reset.fuses ⟨[], [(13, 0)], [13], [], [], 0, false, 0, [], none⟩
    (NSet.mem f.tileRetired 13 && (tileLinks 13).all fun l => NSet.mem f.linkRetired l.1) = true := by decide +kernel

/-- RESTORE of a residency aborted with the tile that failed (R393): its last snapshot, whose SUM is open (log entry 8), is read again or
gives 0x45; one aborted otherwise stays. -/
theorem test_restore_aborted : let n : Snapshot := ⟨⟨0, 0, 0, 1, 1⟩, [], [], [], [], 0, false, ErrRec.init, 0, 0⟩
    idle (.restoreCmd 0) (living { res0 with state := .aborted, snap := some n, region := none }) = true ∧
    ((living { res0 with state := .aborted, tileLost := true, snap := some n, region := none }).resOf 0).snap = some n ∧
    ∀ c ∈ boundChans ((living res0).block 0), boundElsewhere (living res0) 0 c = false := by decide +kernel

/-- A packed sequence on a fabric stream is split into line tokens (R112): a block and the first byte of the next; a request of another
module is answered from this one's memory (R403). -/
theorem test_flit_bodies : (let bs := xe8Encode 0 ((upto 32).map fun _ => 0)
      runs (.flitReceive 7 ⟨7, 0, 1, 0, .packed (bs ++ bs.take 1), true⟩) (linked id) (fun t => decide ((AMap.getD (t.link 7).rx 1 []).length = 1) && decide (AMap.getD (t.link 7).packed 1 [] = bs.take 1)))
    && runs (.flitReceive 7 ⟨9, 0, 0, 0, .request 4 .store 0x30000 8 9 0, true⟩) (linked id) (fun t => decide (Memory.readN t.gmem 0x30000 8 = 9) && ((t.link 7).replay.any fun f => decide (f.body = .reply 4 .ack))) = true := by decide +kernel

/-- ERET during a halt: the frame that it resumes halts in its turn, without a trap (R369, R371). -/
theorem test_eret_halts : runs (.eret ⟨0, 2, 0⟩) (handling.updTile 0 fun t => { t with preReq := true }) (fun t => (t.here.ctx 2).halted && decide ((t.here.ctx 2).cause = 0x18) && decide (t.here.pend = 0)) = true := by decide +kernel

/-- What is held of a halted helper stays: its window with count 0 (R82), its due trap; CSLOT's tag while its switch waits (R239). -/
theorem test_held : (idle (.windowClose 0 1 0) ((windowed 0 0x0C).setMe { (windowed 0 0x0C).me with halted := true }) && idle (.trapTaken 0 1) ((lated 1).setMe { (lated 1).me with halted := true })
    && decide (tagBusy (monitor.updTile 0 fun t => { t with switchTo := some (1, some 4) }) 0 monitor.me.task 4 = true)) = true := by decide +kernel

/-- A carried input keeps its queue in the next slot, its payload moved to the new place (R54); the scratch of an actor that has not fired
is zeroed (R51). -/
def carrying : State :=
  let p : Port := { Port.blank with declared := true, carried := true, count := 1, depth := 4, qaddr := 0x800, q := [(2, ⟨.data, false, 3, 7, 2, 0, 0, none⟩)], h := 2 }
  let a : Actor := { actor0 with live := none, ended := true }
  ending.updTile 0 fun t => { (t.setSlot { slot0 with actors := [(0, a)], ports := [(0, p)] }).writeTlm 0x810 [0x5A] with
    switchTo := some (1, some 4), slots := [(0, { slot0 with actors := [(0, a)], ports := [(0, p)] })
      , (1, { Slot.blank with state := .loaded, resid := 7, actors := [(0, { a with scOff := 0x400, scLen := 16 })], ports := [(0, { p with q := [], h := 0, qaddr := 0xC00 })] })] }

theorem test_carried : runs (.configSlotSwitch 0) carrying (fun t => decide (t.here.active = 1) && decide ((t.here.port 0).h = 2) && decide (t.here.payload (t.here.port 0) 2 = 0x5A)
    && decide ((t.here.port 0).qaddr = 0xC00) && decide (Memory.readN t.here.tlm 0x400 16 = 0)) = true := by decide +kernel

/-! The statements about decoding and about a step. -/

/-- Context 0 of tile 0 is next, at 0x100, where an ADD k3, k1, k2 stands. -/
def issuing : State :=
  { at0 0 { helper [(1, int 5), (2, int 6)] with role := .monitor } { Tile.init.writeTlm 0x100 (encodeBytes (.add ⟨3, 1, 2⟩)) with exec := 1 } with agenda := [.issue 0 0] }

theorem test_encode_premises : (Instr.add ⟨3, 1, 2⟩).WellFormed ∧ (Instr.add ⟨3, 1, 2⟩).isEncoded = true ∧
    decodeBytes [0x04, 0x43, 0x20, 0x00, 0xFF] = .ok (.add ⟨3, 1, 2⟩, [0xFF]) :=
  ⟨by decide +kernel, by decide +kernel, rfl⟩

theorem test_step_premises : canIssue (issuing.tile 0) 0 = true ∧ ((issuing.tile 0).ctx 0).lates.any LateTrap.due = false ∧
    ((issuing.tile 0).ctx 0).wins = [] ∧ ((issuing.tile 0).ctx 0).rep.active = false ∧ ((issuing.tile 0).ctx 0).stale = [] ∧
    fetchCheck (issuing.tile 0) ((issuing.tile 0).ctx 0) ((issuing.tile 0).ctx 0).pc.toNat = none ∧
    decodeBytes ((List.range 4).map fun j => Memory.read (issuing.tile 0).tlm (((issuing.tile 0).ctx 0).pc.toNat + j)) = .ok (.add ⟨3, 1, 2⟩, []) :=
  ⟨by decide +kernel, by decide +kernel, by decide +kernel, by decide +kernel, by decide +kernel, by decide +kernel, rfl⟩

theorem test_step : (match step issuing with
    | .next t => decide (((t.tile 0).ctx 0).readK 3 = int 11) && decide (((t.tile 0).ctx 0).pc = 0x104) && Memory.wf t.gmem
    | _ => false) = true := by decide +kernel

/-- After reset the placed word is the first instruction: LI k4. -/
theorem test_first : (match step (State.reset.withFetchWord 64 0x89ABCDEF56710401) with
    | .next t => decide (t.me.readK 4 = ⟨false, (BitVec.ofInt 64 (BitVec.ofNat 48 0x456789ABCDEF).toInt).setWidth 128⟩)
    | _ => false) = true := by decide +kernel

/-- Reset lists nothing, holds TIME 0 and stage 0 (R269, R411). -/
theorem test_reset : Memory.wf State.reset.gmem = true ∧ State.reset.bootStage = 0 ∧ State.reset.now = 0 := by decide +kernel

end Sys2Proof.Tests
end

section
/-!
O43, vector loads and stores (06 R173, R174). The statement says of every number but the stored word's address that its error marks stay. The
model clears the marks of a word written whole at all eight numbers from its address on (`Tile.writeTlm`), and a state's set of
marks is a plain list, so a mark at a number that is the address of no word is cleared with the word it lies in.
-/

namespace Sys2Proof.Machine

/-- A store of eight 64-bit elements, to consecutive words where the stride is 8. -/
def wordStore : VW := ⟨0, 0, 0, 0, 0, 0, 0, 0, 14, 0⟩

/-- The store as it stands in a vector queue with base 0 and stride 8, bound to lane group 0, none of its accesses made. -/
def wordStoreEntry : VqEntry :=
  { op := 0, instr := .vsts wordStore, pc := 0, ka := KReg.zero, kb := ⟨false, 8⟩, rm := 0, ftz := false, daz := false, group := some 0
    seq := none, win := false, done := 0, got := [], bad := none }

/-- Context 1 of tile 0 is to make the store's accesses; the tile's set of single-bit errors lists 1, the address of no word. -/
def strayMark : State :=
  { State.reset with
    tiles := [(0, { Tile.init.setCtx 1 { Ctx.init with vq := [wordStoreEntry] } with err1 := [1], groups := [(0, (1, 0))] })] }

/-- The store's first access writes the word at 0, and the mark at 1 is gone. -/
theorem strayMark_cleared (t : State) (h : exec (.vectorComplete 0 1) strayMark = .next t) : NSet.mem (t.tile 0).err1 1 = false := by
  have run : (match exec (.vectorComplete 0 1) strayMark with
      | .next u => NSet.mem (u.tile 0).err1 1
      | _ => true) = false := by decide +kernel
  rwa [h] at run

/-- Refutes O43: a 64-bit store to the word at 0 clears a mark at 1, while the statement keeps the marks at every number but 0. The
counterexample needs a mark at a number that is no multiple of 8. -/
theorem not_vectorMemory : ¬ Obligations.VectorMemory := by
  intro holds
  obtain ⟨-, stores⟩ := holds wordStore 0 1 strayMark wordStoreEntry [] 0 (by decide) rfl (by decide +kernel)
  obtain ⟨-, access⟩ := stores _ (List.mem_cons_of_mem _ List.mem_cons_self) rfl
  obtain ⟨t, run, -, -, -, -, marks, -⟩ := access 0 0 (by decide +kernel) rfl
  have kept : NSet.mem (t.tile 0).err1 1 = NSet.mem (strayMark.tile 0).err1 1 := (marks 1 (by decide)).2
  have listed : NSet.mem (strayMark.tile 0).err1 1 = true := by decide +kernel
  rw [strayMark_cleared t run, listed] at kept
  exact Bool.noConfusion kept

end Sys2Proof.Machine
end

section
/-!
O58, what the host does to the module (00 R6, 16 R394, R395, 17 R396 to R398, R400, R407): what a write to an inlet or outlet page
leaves, where each register area lies and what a write there sets, the layout of an attestation report, and the commands for keys and
recovery images.
-/

namespace Sys2Proof.Machine

/-! Maps, lists and counts. -/

theorem AMap.get?_set {α : Type} (m : AMap α) (k : Nat) (v : α) (j : Nat) :
    AMap.get? (AMap.set m k v) j = if j = k then some v else AMap.get? m j := by
  split
  · rename_i h; rw [h, AMap.get?_set_same]
  · rename_i h; exact AMap.get?_set_other m v (Ne.symm h)

/-- Dropping the counts below a bound leaves the others. -/
theorem AMap.get?_filter_ge {α : Type} (m : AMap α) (n j : Nat) :
    AMap.get? (m.filter fun p => decide (n ≤ p.1)) j = if j < n then none else AMap.get? m j := by
  induction m with
  | nil => simp [AMap.get?]
  | cons p m ih =>
    obtain ⟨k, v⟩ := p
    by_cases h : n ≤ k <;> simp only [List.filter_cons, h, decide_true, decide_false, if_true, AMap.get?, ih] <;> grind

theorem setAt_getElem? {α : Type} (l : List α) (i : Nat) (v : α) (h : i < l.length) : (setAt l i v)[i]? = some v := by
  induction l generalizing i with
  | nil => simp at h
  | cons x xs ih => cases i with
    | zero => rfl
    | succ i => simpa [setAt] using ih i (by simpa using h)

/-- A part of a row of parts stands behind those before it. -/
theorem part_of_flatten {α : Type} {parts : List (List α)} {i a n : Nat} {x : List α} (h : parts[i]? = some x)
    (before : ((parts.map List.length).take i).sum = a) (len : x.length = n) : (parts.flatten.drop a).take n = x := by
  obtain ⟨hi, hx⟩ := List.getElem?_eq_some_iff.mp h
  rw [← before, List.drop_sum_flatten, List.drop_eq_getElem_cons hi, hx, List.flatten_cons, ← len, List.take_left]

theorem sat32_succ (n : Nat) : sat32 (n + 1) = min (n + 1) 0xFFFFFFFF := by
  unfold sat32; split <;> omega

/-! What an event leaves. -/

/-- An event that keeps every tile and global memory moves neither registers nor memory. -/
theorem Quiet.of_tiles_gmem {s t : State} (ht : t.tiles = s.tiles) (hg : t.gmem = s.gmem) : Quiet s t := by
  have tile : ∀ k, t.tile k = s.tile k := fun k => by simp [State.tile, ht]
  refine ⟨fun k m => ?_, fun k a => by rw [tile], fun a => by rw [hg]⟩
  rw [tile]
  exact ⟨⟨fun _ => rfl, fun _ => rfl, fun _ => rfl, rfl⟩, rfl⟩

@[simp] theorem State.moved_tiles (s : State) (h : Nat) : (s.moved h).tiles = s.tiles := by unfold State.moved; split <;> simp
@[simp] theorem State.moved_chans (s : State) (h : Nat) : (s.moved h).chans = s.chans := by unfold State.moved; split <;> simp
@[simp] theorem State.moved_inlets (s : State) (h : Nat) : (s.moved h).inlets = s.inlets := by unfold State.moved; split <;> simp

@[simp] theorem State.setInlet_tiles (s : State) (n : Nat) (x : Inlet) : (s.setInlet n x).tiles = s.tiles := rfl
@[simp] theorem State.setInlet_chans (s : State) (n : Nat) (x : Inlet) : (s.setInlet n x).chans = s.chans := rfl
@[simp] theorem State.inlet_setInlet (s : State) (n : Nat) (x : Inlet) : (s.setInlet n x).inlet n = x := by
  simp [State.inlet, State.setInlet]

@[simp] theorem State.outlet_setOutlet (s : State) (n : Nat) (x : Outlet) : (s.setOutlet n x).outlet n = x := by
  simp [State.outlet, State.setOutlet]

theorem State.freeSlots_eq (s : State) (id i k : Nat) : s.freeSlots id i k = { s with chans := (s.freeSlots id i k).chans } := by
  unfold State.freeSlots
  split
  · rfl
  · split <;> rfl

/-- The freed slots stand at the branch, as credits still to return (R39). -/
theorem State.freeSlots_back {s : State} {id i : Nat} {c : Chan} {b : Branch} (k : Nat) (hc : s.chan? id = some c)
    (hb : c.branches[i]? = some b) :
    ∃ d, (s.freeSlots id i k).chan? id = some d ∧ d.branches[i]? = some { b with back := b.back + k } := by
  have free : s.freeSlots id i k = s.setChan id { c with branches := setAt c.branches i { b with back := b.back + k } } := by
    simp [State.freeSlots, hc, hb]
  rw [free]
  exact ⟨_, State.chan_setChan .., setAt_getElem? _ _ _ (List.getElem?_eq_some_iff.mp hb).1⟩

/-! The host's channels (R396 to R398). -/

theorem hostChannel_channel (s : State) (p : Nat) {n : Nat} (hn : n < 32) :
    hostChannel s (32 * p + n) = if hostReaches s p then some n else none := by
  have port : (32 * p + n) / 32 = p := by omega
  have channel : (32 * p + n) % 32 = n := by omega
  simp only [hostChannel, port, channel]

theorem onInlet_channel (s : State) (p : Nat) {n : Nat} (hn : n < 32) (f : Nat → State) :
    onInlet s (32 * p + n) f = .next (if hostReaches s p then f n else s) := by
  unfold onInlet
  rw [hostChannel_channel s p hn]
  cases hostReaches s p <;> rfl

/-- A dropped write counts in DROPS alone. -/
def Dropped (n : Nat) (s t : State) : Prop :=
  Quiet s t ∧ t.chans = s.chans ∧ t.inlet n = { s.inlet n with drops := min ((s.inlet n).drops + 1) 0xFFFFFFFF }

theorem inletDrop_dropped (s : State) (n : Nat) : Dropped n s (inletDrop s n) :=
  ⟨.of_tiles_gmem rfl rfl, rfl, by simp [inletDrop, sat32_succ]⟩

/-- A token put on a channel enters it. -/
theorem enteredChan_put {t : State} {id : Nat} {c : Chan} {k : TokKind} {payload : Line} {status : BitVec 16}
    (h : t.chan? id = some (c.put k payload status [])) : EnteredChan t id c k (tokenPayload k payload status) := by
  refine ⟨_, h, rfl, fun b hb => ⟨c.token k payload status c.seq, rfl, rfl, rfl, rfl, ?_⟩⟩
  simp [Chan.put, Chan.enter, Chan.takeRoom, hb]

theorem inletPut_none {s : State} {n : Nat} {k : TokKind} {payload : Line} {status : BitVec 16} {size : Option Bool}
    (h : inletChan s n = none) : inletPut s n k payload status size = inletDrop s n := by
  simp [inletPut, h]

theorem inletPut_drop {s : State} {n id : Nat} {d : Chan} {k : TokKind} {payload : Line} {status : BitVec 16} {size : Option Bool}
    (h : inletChan s n = some (id, d)) (hd : d.room = 0 ∨ ∃ b, size = some b ∧ b ≠ d.line) :
    inletPut s n k payload status size = inletDrop s n := by
  unfold inletPut
  rw [h]
  refine if_pos (hd.imp_right ?_)
  rintro ⟨b, rfl, hb⟩
  simpa using hb

/-- A write with room and the right size makes one token, and counts in CREATED. -/
theorem inletPut_enters {s : State} {n id : Nat} {d : Chan} {k : TokKind} {payload : Line} {status : BitVec 16} {size : Option Bool}
    (h : inletChan s n = some (id, d)) (room : 0 < d.room) (fits : ∀ b, size = some b → b = d.line) :
    let t := inletPut s n k payload status size
    Quiet s t ∧ EnteredChan t id d k (tokenPayload k payload status) ∧
      t.inlet n = { s.inlet n with created := ((s.inlet n).created + 1) % 2 ^ 64 } := by
  have put : inletPut s n k payload status size = ((s.setChan id (d.put k payload status [])).setInlet n
      { s.inlet n with created := ((s.inlet n).created + 1) % 2 ^ 64 }).moved d.handle := by
    unfold inletPut
    rw [h]
    refine if_neg ?_
    rintro (full | ⟨sized, ne⟩)
    · omega
    · obtain ⟨b, rfl⟩ := Option.isSome_iff_exists.mp sized
      exact ne (by rw [fits b rfl])
  dsimp only
  rw [put]
  refine ⟨.of_tiles_gmem (by simp) (by simp), enteredChan_put ?_, ?_⟩
  · simp [State.chan?, State.setChan]
  · simp [State.inlet, State.setInlet]

/-- What a write through a port to an inlet page does, where it asks for a token of kind k with a payload, and of a size where it has one. -/
theorem inletWrite_cases {i : Instr} {s : State} {p n : Nat} {k : TokKind} {x y : Line} {status : BitVec 16} {size : Option Bool}
    (run : exec i s = .next (if hostReaches s p then inletPut s n k x status size else s)) (payload : tokenPayload k x status = y) :
    (hostReaches s p = false → Idle i s) ∧
    (hostReaches s p = true → inletChan s n = none → ∃ t, exec i s = .next t ∧ Dropped n s t) ∧
    ∀ id d, hostReaches s p = true → inletChan s n = some (id, d) →
      (d.room = 0 ∨ (∃ b, size = some b ∧ b ≠ d.line) → ∃ t, exec i s = .next t ∧ Dropped n s t) ∧
      (0 < d.room → (∀ b, size = some b → b = d.line) → ∃ t, exec i s = .next t ∧ Quiet s t ∧ EnteredChan t id d k y ∧
        t.inlet n = { s.inlet n with created := ((s.inlet n).created + 1) % 2 ^ 64 }) := by
  refine ⟨fun off => ?_, fun on unsourced => ?_, fun id d on chan => ⟨fun full => ?_, fun room fits => ?_⟩⟩
  · rw [Idle, run, off]; rfl
  · rw [on, if_pos rfl, inletPut_none unsourced] at run
    exact ⟨_, run, inletDrop_dropped s n⟩
  · rw [on, if_pos rfl, inletPut_drop chan full] at run
    exact ⟨_, run, inletDrop_dropped s n⟩
  · rw [on, if_pos rfl] at run
    exact ⟨_, run, payload ▸ inletPut_enters chan room fits⟩

theorem execTakenWrite_idle {s : State} {p n k : Nat} (hn : n < 32) (h : hostReaches s p = false ∨ (s.outlet n).avail < k) :
    Idle (.takenWrite (32 * p + n) k) s := by
  change execTakenWrite (32 * p + n) k s = .next s
  unfold execTakenWrite
  rw [hostChannel_channel s p hn]
  cases on : hostReaches s p with
  | false => rfl
  | true => exact if_pos (h.resolve_left (by simp [on]))

/-- The state with the first k tokens of outlet n consumed, and their slots free on the branch that ends there. -/
def State.takeOutlet (s : State) (n k : Nat) : State :=
  let o := s.outlet n
  o.chan.elim (s.setOutlet n (o.take k)) fun c => (s.setOutlet n (o.take k)).freeSlots c o.branch k

theorem State.takeOutlet_none {s : State} {n : Nat} (k : Nat) (h : (s.outlet n).chan = none) :
    s.takeOutlet n k = s.setOutlet n ((s.outlet n).take k) := by
  simp [State.takeOutlet, h]

theorem State.takeOutlet_some {s : State} {n c : Nat} (k : Nat) (h : (s.outlet n).chan = some c) :
    s.takeOutlet n k = (s.setOutlet n ((s.outlet n).take k)).freeSlots c (s.outlet n).branch k := by
  simp [State.takeOutlet, h]

/-- Consuming tokens of an outlet changes its queue and the channels alone. -/
theorem State.takeOutlet_eq (s : State) (n k : Nat) :
    s.takeOutlet n k = { s.setOutlet n ((s.outlet n).take k) with chans := (s.takeOutlet n k).chans } := by
  cases h : (s.outlet n).chan with
  | none => rw [State.takeOutlet_none k h]
  | some c => rw [State.takeOutlet_some k h]; exact State.freeSlots_eq ..

/-- TAKEN of at most AVAIL, where no end record waits for the system outlet. -/
theorem execTakenWrite_take {s : State} {p n k : Nat} (hn : n < 32) (on : hostReaches s p = true) (hk : k ≤ (s.outlet n).avail)
    (sys : n ≠ 0 ∨ s.sysWait = []) : exec (.takenWrite (32 * p + n) k) s = .next (s.takeOutlet n k) := by
  have run : exec (.takenWrite (32 * p + n) k) s =
      .next (if n = 0 then drainSys (s.takeOutlet n k).sysWait.length (s.takeOutlet n k) else s.takeOutlet n k) := by
    change execTakenWrite (32 * p + n) k s = _
    unfold execTakenWrite State.takeOutlet
    rw [hostChannel_channel s p hn, on]
    simp only [if_true, if_neg (Nat.not_lt.mpr hk)]
    cases (s.outlet n).chan <;> rfl
  have wait : (s.takeOutlet n k).sysWait = s.sysWait := by rw [State.takeOutlet_eq]; rfl
  rw [run, wait]
  split
  · rename_i h0
    rw [sys.resolve_left (by simp [h0])]; rfl
  · rfl

theorem State.outlet_takeOutlet (s : State) (n k : Nat) : (s.takeOutlet n k).outlet n = (s.outlet n).take k := by
  rw [State.takeOutlet_eq]; exact State.outlet_setOutlet ..

theorem State.takeOutlet_quiet (s : State) (n k : Nat) : Quiet s (s.takeOutlet n k) :=
  .of_tiles_gmem (by rw [State.takeOutlet_eq]; rfl) (by rw [State.takeOutlet_eq]; rfl)

/-- The freed slots stand at the branch that ends at the outlet. -/
theorem State.takeOutlet_back {s : State} {n id : Nat} {c : Chan} {b : Branch} (k : Nat) (ho : (s.outlet n).chan = some id)
    (hc : s.chan? id = some c) (hb : c.branches[(s.outlet n).branch]? = some b) :
    ∃ d, (s.takeOutlet n k).chan? id = some d ∧ d.branches[(s.outlet n).branch]? = some { b with back := b.back + k } := by
  rw [State.takeOutlet_some k ho]
  exact State.freeSlots_back k hc hb

theorem outletRead_avail (s : State) (n : Nat) :
    ∃ w, outletRead s n 0 = some w ∧ w.toNat = (s.outlet n).h % 2 ^ 32 * 2 ^ 32 + (s.outlet n).avail % 2 ^ 16 :=
  ⟨_, rfl, by rw [BitVec.toNat_ofNat]; exact Nat.mod_eq_of_lt (by omega)⟩

/-- A slot's words are read at its place in the ring (R398). -/
theorem outletRead_slot (s : State) (n j : Nat) (hj : j < 16) :
    outletRead s n (0x4000 + 128 * ((s.outlet n).h % 256) + 8 * j) =
      (AMap.get? (s.outlet n).q (s.outlet n).h).map fun t => slotWord t j := by
  have place : (s.outlet n).h + (((0x4000 + 128 * ((s.outlet n).h % 256) + 8 * j - 0x4000) / 128) + 256 - (s.outlet n).h % 256) % 256
      = (s.outlet n).h := by omega
  have word : (0x4000 + 128 * ((s.outlet n).h % 256) + 8 * j) % 128 / 8 = j := by omega
  unfold outletRead
  rw [if_neg (by omega), if_neg (by omega), if_pos (by omega)]
  simp only [place, word]

theorem slotWord_header (t : Token) : (slotWord t 0).extractLsb' 0 48 = headerOf t ∧ (slotWord t 0).extractLsb' 48 16 = t.scale.setWidth 16 := by
  have word : slotWord t 0 = 0#8 ++ t.scale ++ headerOf t := rfl
  have scale : 0#8 ++ t.scale = t.scale.setWidth (8 + 8) := by
    ext i
    rw [← BitVec.getLsbD_eq_getElem, BitVec.getLsbD_append]
    split <;> simp_all
  rw [word]
  constructor
  · rw [extract_append_lo _ _ (by decide), extract_all]
  · rw [extract_append_hi _ _ (by decide), scale]; exact extract_all _

theorem slotWord_payload (t : Token) (j : Nat) : slotWord t (8 + j) = lineWord t.payload j := by
  simp [slotWord]

/-! Host ports (R396). -/

theorem hostPortDown_getLsbD (x : BitVec 2) (port q : Nat) :
    (x &&& ~~~(1#2 <<< port)).getLsbD q = (x.getLsbD q && decide (q ≠ port)) := by
  by_cases hq : q < 2
  · by_cases e : q = port
    · subst e; simp [hq]
    · have : q < port ∨ ¬q - port = 0 := by omega
      simp [hq, e, this]
  · simp [BitVec.getLsbD_of_ge x q (by omega)]

/-! Registers: where they lie (R396, R407). -/

theorem inArea_inside {off base n : Nat} (h : base ≤ off) (h' : off < base + n) : inArea off base n = true := by simp [inArea, h, h']
theorem inArea_outside {off base n : Nat} (h : off < base ∨ base + n ≤ off) : inArea off base n = false := by simp [inArea]; omega

theorem isNone_ite_some {α : Type} (c : Prop) [Decidable c] (a : α) (x : Option α) :
    (if c then some a else x).isNone = false ↔ c ∨ x.isNone = false := by
  by_cases h : c <;> simp [h]

/-- A place in one of the areas that a write changes is a register. -/
theorem mgmtRead_isNone_of_area (s : State) {off : Nat} (h : inArea off atBlock (64 * 256) = true ∨ inArea off atError (128 * 256) = true ∨
    (inArea off atElem (0x1000 * 36) = true ∧ off % 0x1000 < 512) ∨ inArea off atWbase 16 = true ∨ inArea off atMsien 16 = true ∨
    inArea off atLink (8 * 36) = true ∨ inArea off atRoute (8 * 64) = true) : (mgmtRead s off).isNone = false := by
  unfold mgmtRead
  simp only [isNone_ite_some]
  tauto

theorem execRegisterWrite_lost {s : State} {off : Nat} (v : Word) (h : hostReaches s (off / 2 ^ 27) = false) : Idle (.registerWrite off v) s := by
  change execRegisterWrite off v s = .next s
  unfold execRegisterWrite
  rw [h]; rfl

theorem execRegisterWrite_port {s : State} {port off : Nat} (v : Word) (hoff : off < 2 ^ 27) (on : hostReaches s port = true) :
    exec (.registerWrite (2 ^ 27 * port + off) v) s =
      (mgmtWrite s (off / 8 * 8) v).elim (.fault .undescribedDevice) .next := by
  have p : (2 ^ 27 * port + off) / 2 ^ 27 = port := by omega
  have o : (2 ^ 27 * port + off) % 2 ^ 27 = off := by omega
  change execRegisterWrite (2 ^ 27 * port + off) v s = _
  unfold execRegisterWrite
  rw [p, o, on]
  cases mgmtWrite s (off / 8 * 8) v <;> rfl

theorem execRegisterWrite_at {s t : State} {port off : Nat} {v : Word} (hoff : off < 2 ^ 27) (on : hostReaches s port = true)
    (h : mgmtWrite s (off / 8 * 8) v = some t) : exec (.registerWrite (2 ^ 27 * port + off) v) s = .next t := by
  rw [execRegisterWrite_port v hoff on, h]; rfl

theorem execRegisterWrite_aligned {s t : State} {port a : Nat} {v : Word} (ha : a < 2 ^ 27) (aligned : a % 8 = 0)
    (on : hostReaches s port = true) (h : mgmtWrite s a v = some t) : exec (.registerWrite (2 ^ 27 * port + a) v) s = .next t :=
  execRegisterWrite_at ha on (by rwa [Nat.div_mul_cancel (Nat.dvd_of_mod_eq_zero aligned)])

theorem mgmtWrite_undescribed {s : State} {off : Nat} (v : Word) (h : mgmtRead s off = none) : mgmtWrite s off v = none := by
  simp [mgmtWrite, h]

/-- A place that only reads: below the control blocks, and from the grants to the fabrics' elements. -/
theorem mgmtWrite_readOnly {s : State} {off : Nat} (v : Word) (h : mgmtRead s off ≠ none)
    (place : off < 0x100000 ∨ (0x400000 ≤ off ∧ off < 0x800000)) : mgmtWrite s off v = some s := by
  have reg : (mgmtRead s off).isNone = false := by simpa [Option.isSome_iff_ne_none] using h
  simp (disch := (simp only [atBlock, atError, atElem, atWbase, atMsien, atLink, atRoute, atFabric, atGroup, atOrdered]; omega)) only
    [mgmtWrite, reg, inArea_outside, Bool.false_eq_true, if_false]

theorem mgmtWrite_block (s : State) (v : Word) {h i : Nat} (hh : h < 256) (hi : i < 8) :
    mgmtWrite s (0x100000 + 64 * h + 8 * i) v = some (if i = 0 then writeBlock0 s h v else writeBlock s h i v) := by
  have area : inArea (0x100000 + 64 * h + 8 * i) atBlock (64 * 256) = true := inArea_inside (by simp [atBlock]; omega) (by simp [atBlock]; omega)
  have reg := mgmtRead_isNone_of_area s (.inl area)
  have word : (0x100000 + 64 * h + 8 * i) % 64 / 8 = i := by omega
  have block : (0x100000 + 64 * h + 8 * i - atBlock) / 64 = h := by simp only [atBlock]; omega
  simp only [mgmtWrite, reg, area, word, block, if_true, Bool.false_eq_true, if_false]

theorem mgmtWrite_error (s : State) (v : Word) {h i : Nat} (hh : h < 256) (hi : i < 16) :
    mgmtWrite s (0x300000 + 128 * h + 8 * i) v = some (if i = 12 then s.updErr h fun e => { e with dump := v.setWidth 48 } else s) := by
  have area : inArea (0x300000 + 128 * h + 8 * i) atError (128 * 256) = true := inArea_inside (by simp [atError]; omega) (by simp [atError]; omega)
  have reg := mgmtRead_isNone_of_area s (.inr (.inl area))
  have word : (0x300000 + 128 * h + 8 * i) % 128 / 8 = i := by omega
  have block : (0x300000 + 128 * h + 8 * i - atError) / 128 = h := by simp only [atError]; omega
  simp (disch := (simp only [atBlock]; omega)) only
    [mgmtWrite, reg, area, word, block, inArea_outside, if_true, Bool.false_eq_true, if_false]

theorem mgmtWrite_elem (s : State) (v : Word) {p e : Nat} (hp : p < 36) (he : e < 64) :
    mgmtWrite s (0x800000 + 0x1000 * p + 8 * e) v = some (writeFabElem s p e v) := by
  have area : inArea (0x800000 + 0x1000 * p + 8 * e) atElem (0x1000 * 36) = true := inArea_inside (by simp [atElem]; omega) (by simp [atElem]; omega)
  have reg := mgmtRead_isNone_of_area s (.inr (.inr (.inl ⟨area, by omega⟩)))
  have word : (0x800000 + 0x1000 * p + 8 * e) % 0x1000 / 8 = e := by omega
  have port : (0x800000 + 0x1000 * p + 8 * e - atElem) / 0x1000 = p := by simp only [atElem]; omega
  simp (disch := (simp only [atBlock, atError]; omega)) only
    [mgmtWrite, reg, area, word, port, inArea_outside, if_true, Bool.false_eq_true, if_false]

theorem mgmtWrite_wbase (s : State) (v : Word) {p : Nat} (hp : p < 2) :
    mgmtWrite s (atWbase + 8 * p) v = some { s with wbase := AMap.set s.wbase p (v.extractLsb' 36 16 ++ 0#36) } := by
  have area : inArea (atWbase + 8 * p) atWbase 16 = true := inArea_inside (by omega) (by omega)
  have reg := mgmtRead_isNone_of_area s (.inr (.inr (.inr (.inl area))))
  have word : (atWbase + 8 * p) % 16 / 8 = p := by simp only [atWbase]; omega
  simp (disch := (simp only [atBlock, atError, atElem, atWbase]; omega)) only
    [mgmtWrite, reg, area, word, inArea_outside, if_true, Bool.false_eq_true, if_false]

theorem mgmtWrite_msien (s : State) (v : Word) {p : Nat} (hp : p < 2) :
    mgmtWrite s (atMsien + 8 * p) v = some { s with msien := AMap.set s.msien p (v &&& 0xFFFFFFFF) } := by
  have area : inArea (atMsien + 8 * p) atMsien 16 = true := inArea_inside (by omega) (by omega)
  have reg := mgmtRead_isNone_of_area s (.inr (.inr (.inr (.inr (.inl area)))))
  have word : (atMsien + 8 * p) % 16 / 8 = p := by simp only [atMsien]; omega
  simp (disch := (simp only [atBlock, atError, atElem, atWbase, atMsien]; omega)) only
    [mgmtWrite, reg, area, word, inArea_outside, if_true, Bool.false_eq_true, if_false]

theorem mgmtWrite_link (s : State) (v : Word) {p : Nat} (hp : p < 36) :
    mgmtWrite s (atLink + 8 * p) v = some (s.updLink p fun l => { l with table := v &&& 0xFFF0000000000003 }) := by
  have area : inArea (atLink + 8 * p) atLink (8 * 36) = true := inArea_inside (by omega) (by omega)
  have reg := mgmtRead_isNone_of_area s (.inr (.inr (.inr (.inr (.inr (.inl area))))))
  have port : (atLink + 8 * p - atLink) / 8 = p := by omega
  simp (disch := (simp only [atBlock, atError, atElem, atWbase, atMsien, atLink]; omega)) only
    [mgmtWrite, reg, area, port, inArea_outside, if_true, Bool.false_eq_true, if_false]

theorem mgmtWrite_route (s : State) (v : Word) {m : Nat} (hm : m < 64) :
    mgmtWrite s (atRoute + 8 * m) v = some { s with routes := AMap.set s.routes m (v &&& routeMask) } := by
  have area : inArea (atRoute + 8 * m) atRoute (8 * 64) = true := inArea_inside (by omega) (by omega)
  have reg := mgmtRead_isNone_of_area s (.inr (.inr (.inr (.inr (.inr (.inr area))))))
  have place : (atRoute + 8 * m - atRoute) / 8 = m := by omega
  simp (disch := (simp only [atBlock, atError, atElem, atWbase, atMsien, atLink, atRoute]; omega)) only
    [mgmtWrite, reg, area, place, inArea_outside, if_true, Bool.false_eq_true, if_false]

theorem windowBase_toNat (v : Word) : (v.extractLsb' 36 16 ++ 0#36).toNat = v.toNat / 2 ^ 36 % 2 ^ 16 * 2 ^ 36 := by
  rw [BitVec.toNat_append, BitVec.extractLsb'_toNat, Nat.shiftRight_eq_div_pow, Nat.shiftLeft_eq]
  simp

theorem lowHalf_toNat (v : Word) : (v &&& 0xFFFFFFFF).toNat = v.toNat % 2 ^ 32 := by
  rw [BitVec.toNat_and]
  exact Nat.and_two_pow_sub_one_eq_mod v.toNat 32

/-! Control blocks (R400). -/

/-- An event that goes on, as a state and back. -/
theorem next_after {o : Out} (s : State) (h : ∃ t, o = .next t) : .next (after o s) = o := by
  obtain ⟨t, rfl⟩ := h; rfl

theorem goCmd_next (h : Nat) (s : State) : ∃ t, execGoCmd h s = .next t := by
  unfold execGoCmd
  split
  · exact ⟨_, rfl⟩
  · dsimp only; split <;> exact ⟨_, rfl⟩

theorem snapCmd_next (h : Nat) (s : State) : ∃ t, execSnapCmd h s = .next t := by
  unfold execSnapCmd
  dsimp only
  split
  · exact ⟨_, rfl⟩
  · split <;> exact ⟨_, rfl⟩

theorem restoreCmd_next (h : Nat) (s : State) : ∃ t, execRestoreCmd h s = .next t := by
  unfold execRestoreCmd
  dsimp only
  split
  · exact ⟨_, rfl⟩
  · split
    · exact ⟨_, rfl⟩
    · split <;> exact ⟨_, rfl⟩

/-- A control block with COMMIT as a write of word 0 sets it. -/
def State.noteCommit (s : State) (h : Nat) (v : Word) : State := s.updRes h fun r => { r with commit := v.getLsbD 59 }

/-- The command bits of word 0: GO, ABORT, SNAP and RESTORE. -/
def commandBits (v : Word) : List Bool := [v.getLsbD 63, v.getLsbD 62, v.getLsbD 61, v.getLsbD 60]

/-- What a write of word 0 does, by its command bits. -/
theorem writeBlock0_cases (s : State) (h : Nat) (v : Word) :
    (2 ≤ ((commandBits v).filter id).length → writeBlock0 s h v = s) ∧
    (commandBits v = [false, false, false, false] → writeBlock0 s h v = s.noteCommit h v) ∧
    (commandBits v = [true, false, false, false] → .next (writeBlock0 s h v) = exec (.goCmd h) (s.noteCommit h v)) ∧
    (commandBits v = [false, true, false, false] → .next (writeBlock0 s h v) = exec (.abortCmd h) (s.noteCommit h v)) ∧
    (commandBits v = [false, false, true, false] → .next (writeBlock0 s h v) = exec (.snapCmd h) (s.noteCommit h v)) ∧
    (commandBits v = [false, false, false, true] → .next (writeBlock0 s h v) = exec (.restoreCmd h) (s.noteCommit h v)) := by
  unfold writeBlock0 commandBits
  dsimp only
  generalize v.getLsbD 63 = go
  generalize v.getLsbD 62 = ab
  generalize v.getLsbD 61 = sn
  generalize v.getLsbD 60 = re
  refine ⟨fun two => if_pos ?_, ?_, ?_, ?_, ?_, ?_⟩
  · revert go ab sn re; decide
  · rintro ⟨⟩; rfl
  · rintro ⟨⟩; exact next_after _ (goCmd_next ..)
  · rintro ⟨⟩; exact next_after (s.noteCommit h v) ⟨_, rfl⟩
  · rintro ⟨⟩; exact next_after _ (snapCmd_next ..)
  · rintro ⟨⟩; exact next_after _ (restoreCmd_next ..)

theorem blockFrozen_iff (r : Res) : blockFrozen r = true ↔ r.used = true ∧ r.state ∈ [RState.loading, .armed, .running, .held] := by
  simp [blockFrozen, or_assoc]

theorem writeBlock_frozen {s : State} {h : Nat} (i : Nat) (v : Word) (frozen : blockFrozen (s.resOf h) = true) : writeBlock s h i v = s := by
  simp [writeBlock, frozen]

/-- Words 6 and 7 are reserved. -/
theorem writeBlock_reserved (s : State) (h : Nat) (v : Word) {i : Nat} (hi : 6 ≤ i) : writeBlock s h i v = s := by
  match i, hi with
  | i + 6, _ => unfold writeBlock; split <;> rfl

/-- Block h becomes b; no other block changes, no register and no byte of memory. -/
def BlockSet (s t : State) (h : Nat) (b : Block) : Prop := Quiet s t ∧ t.block h = b ∧ ∀ m, m ≠ h → t.block m = s.block m

theorem blockSet_set (s : State) (h : Nat) (b : Block) : BlockSet s { s with blocks := AMap.set s.blocks h b } h b :=
  ⟨.of_tiles_gmem rfl rfl, by simp [State.block], fun m hm => by simp [State.block, Ne.symm hm]⟩

theorem writeImage_sets (s : State) (h : Nat) (v : Word) : BlockSet s (writeImage s h v) h { s.block h with image := v.setWidth 52 } := by
  unfold writeImage
  dsimp only
  split
  · rename_i same
    exact ⟨.of_tiles_gmem rfl rfl, by rw [← same], fun _ _ => rfl⟩
  · obtain ⟨quiet, set, kept⟩ := blockSet_set s h { s.block h with image := v.setWidth 52 }
    exact ⟨⟨quiet.ctxs, quiet.tlm, quiet.gmem⟩, set, kept⟩

/-- A page-aligned address is the word's address with its low 12 bits cleared. -/
theorem pageAligned_eq (v : Word) : v.extractLsb' 12 40 ++ 0#12 = v.setWidth (40 + 12) &&& ~~~0xFFF#(40 + 12) := by
  ext i hi
  have low : (0xFFF#(40 + 12)).getLsbD i = decide (i < 12) := by
    change (BitVec.ofNat 52 (2 ^ 12 - 1)).getLsbD i = _
    rw [BitVec.getLsbD_ofNat, Nat.testBit_two_pow_sub_one]
    simp [hi]
  rw [← BitVec.getLsbD_eq_getElem, ← BitVec.getLsbD_eq_getElem, BitVec.getLsbD_append, BitVec.getLsbD_and, BitVec.getLsbD_not, low]
  by_cases h : i < 12
  · simp [h]
  · have top : i - 12 < 40 := by omega
    have place : 12 + (i - 12) = i := by omega
    simp [h, hi, top, place]

/-- What a write of a word of a block that is not frozen leaves there. -/
theorem writeBlock_sets {s : State} {h : Nat} (v : Word) (free : blockFrozen (s.resOf h) = false) :
    let b := s.block h
    BlockSet s (writeBlock s h 1 v) h { b with image := v.setWidth 52 } ∧
    BlockSet s (writeBlock s h 2 v) h { b with root := v.setWidth 52 &&& ~~~0xFFF#52 } ∧
    BlockSet s (writeBlock s h 3 v) h { b with paramva := v.setWidth 48 } ∧
    BlockSet s (writeBlock s h 4 v) h { b with snappa := v.setWidth 52 } ∧
    BlockSet s (writeBlock s h 5 v) h { b with
      onum := v.toNat / 2 ^ 15 % 32, ofirst := v.toNat / 2 ^ 10 % 32, inum := v.toNat / 2 ^ 5 % 32, ifirst := v.toNat % 32 } := by
  have root := pageAligned_eq v
  have field : ∀ k, (v.extractLsb' k 5).toNat = v.toNat / 2 ^ k % 32 := fun k => by
    rw [BitVec.extractLsb'_toNat, Nat.shiftRight_eq_div_pow]
  unfold writeBlock
  simp only [free, Bool.false_eq_true, if_false]
  refine ⟨writeImage_sets s h v, root ▸ blockSet_set s h _, blockSet_set s h _, blockSet_set s h _, ?_⟩
  simp only [field, pow_zero, Nat.div_one]
  exact blockSet_set s h _

theorem execBlockWrite {s : State} {port h i : Nat} (v : Word) (on : hostReaches s port = true) (hh : h < 256) (hi : i < 8) :
    exec (.registerWrite (2 ^ 27 * port + (0x100000 + 64 * h + 8 * i)) v) s =
      .next (if i = 0 then writeBlock0 s h v else writeBlock s h i v) :=
  execRegisterWrite_aligned (by omega) (by omega) on (mgmtWrite_block s v hh hi)

/-- What a host's writes to words 1 to 7 of a control block do (R400). -/
theorem blockWrite_cases {s : State} {port h : Nat} (v : Word) (on : hostReaches s port = true) (hh : h < 256) :
    let r := s.resOf h
    let b := s.block h
    let at8 := fun (i : Nat) => Instr.registerWrite (2 ^ 27 * port + (0x100000 + 64 * h + 8 * i)) v
    let becomes := fun (i : Nat) (b' : Block) => ∃ t, exec (at8 i) s = .next t ∧ BlockSet s t h b'
    (∀ i, 1 ≤ i → i < 6 → r.used = true → r.state ∈ [RState.loading, .armed, .running, .held] → Idle (at8 i) s) ∧
    Idle (at8 6) s ∧ Idle (at8 7) s ∧
    (r.used = false ∨ r.state ∉ [RState.loading, .armed, .running, .held] →
      becomes 1 { b with image := v.setWidth 52 } ∧ becomes 2 { b with root := v.setWidth 52 &&& ~~~0xFFF#52 } ∧
      becomes 3 { b with paramva := v.setWidth 48 } ∧ becomes 4 { b with snappa := v.setWidth 52 } ∧
      becomes 5 { b with
        onum := v.toNat / 2 ^ 15 % 32, ofirst := v.toNat / 2 ^ 10 % 32, inum := v.toNat / 2 ^ 5 % 32, ifirst := v.toNat % 32 }) := by
  intro r b at8 becomes
  have word (i : Nat) (h1 : 1 ≤ i) (h8 : i < 8) : exec (at8 i) s = .next (writeBlock s h i v) := by
    rw [execBlockWrite v on hh h8, if_neg (by omega)]
  refine ⟨fun i h1 h6 used state => ?_, ?_, ?_, fun free => ?_⟩
  · rw [Idle, word i h1 (by omega), writeBlock_frozen i v ((blockFrozen_iff r).mpr ⟨used, state⟩)]
  · rw [Idle, word 6 (by omega) (by omega), writeBlock_reserved s h v (by omega)]
  · rw [Idle, word 7 (by omega) (by omega), writeBlock_reserved s h v (by omega)]
  · have unfrozen : blockFrozen r = false := by
      rw [Bool.eq_false_iff, Ne, blockFrozen_iff]
      rintro ⟨used, state⟩
      exact free.elim (fun unused => by simp [used] at unused) fun out => out state
    obtain ⟨image, root, param, snap, ranges⟩ := writeBlock_sets v unfrozen
    exact ⟨⟨_, word 1 (by omega) (by omega), image⟩, ⟨_, word 2 (by omega) (by omega), root⟩, ⟨_, word 3 (by omega) (by omega), param⟩,
      ⟨_, word 4 (by omega) (by omega), snap⟩, ⟨_, word 5 (by omega) (by omega), ranges⟩⟩

/-! Link ports and their fabrics (R402, R403, R407). -/

@[simp] theorem State.link_setLink (s : State) (p : Nat) (l : LinkPort) : (s.setLink p l).link p = l := by simp [State.link, State.setLink]
@[simp] theorem State.link_setLink_other (s : State) {p q : Nat} (l : LinkPort) (h : p ≠ q) : (s.setLink p l).link q = s.link q := by
  simp [State.link, State.setLink, h]

theorem writeFabElem_enabled {s : State} {p : Nat} (e : Nat) (v : Word) (en : (s.link p).fabEn = true) : writeFabElem s p e v = s := by
  simp [writeFabElem, en]

theorem writeFabElem_sets {s : State} {p : Nat} (e : Nat) (v : Word) (dis : (s.link p).fabEn = false) :
    let t := writeFabElem s p e v
    t = { s with links := t.links } ∧ (∀ q, q ≠ p → t.link q = s.link q) ∧ ((t.link p).elem e).word = v &&& ~~~0x3FF#64 ∧
      ∀ g, g ≠ e → (t.link p).elem g = (s.link p).elem g := by
  have set : writeFabElem s p e v = s.setLink p ((s.link p).setElem e { (s.link p).elem e with word := v &&& ~~~(0x3FF#64) }) := by
    simp [writeFabElem, dis]
  dsimp only
  rw [set]
  refine ⟨rfl, fun q hq => State.link_setLink_other s _ hq.symm, ?_, fun g hg => ?_⟩
  · simp [LinkPort.elem, LinkPort.setElem]
  · simp [LinkPort.elem, LinkPort.setElem, hg.symm]

/-! Attestation (R395). -/

/-- The parts of an attestation report (R395): ten fields, the signature over them, and three bytes of zero. -/
def reportParts (s : State) (nonce : BitVec 256) : List (List Byte) :=
  [leBytes 32 nonce.toNat, leBytes 64 s.delsisImg.digest, leBytes 64 s.monitorImg.digest, leBytes 64 s.dispatchImg.digest,
   leBytes 64 (Config.shake256 (s.fuses.tileBits ++ s.fuses.linkBits ++ s.fuses.ceilings)).toNat,
   leBytes 64 (Config.shake256 (s.fuses.tileRetireBits ++ s.fuses.linkRetireBits)).toNat,
   leBytes 8 (summary0 s).toNat, leBytes 8 (summary1 s).toNat, leBytes 8 s.refTime, leBytes 8 s.fuses.secVersion,
   leBytes 3309 (Config.attest (Config.shake256 (reportHead s nonce))), [0, 0, 0]]

theorem reportParts_flatten (s : State) (nonce : BitVec 256) :
    (reportParts s nonce).flatten = reportHead s nonce ++ leBytes 3309 (Config.attest (Config.shake256 (reportHead s nonce))) ++ [0, 0, 0] := by
  simp [reportParts, reportHead, digestBytes]

theorem reportHead_length (s : State) (nonce : BitVec 256) : (reportHead s nonce).length = 384 := by simp [reportHead, digestBytes]

theorem execAttestationReport_answered {s : State} (nonce : BitVec 256) (h : hostAnswered s = true) :
    exec (.attestationReport nonce) s = .next { s with reports := s.reports ++ [(reportParts s nonce).flatten] } := by
  rw [reportParts_flatten]
  change execAttestationReport nonce s = _
  simp [execAttestationReport, h]

theorem reportParts_layout (s : State) (nonce : BitVec 256) :
    let r := (reportParts s nonce).flatten
    r.length = 3696 ∧ r.take 32 = leBytes 32 nonce.toNat ∧ (r.drop 32).take 64 = leBytes 64 s.delsisImg.digest ∧
      (r.drop 96).take 64 = leBytes 64 s.monitorImg.digest ∧ (r.drop 160).take 64 = leBytes 64 s.dispatchImg.digest ∧
      (r.drop 224).take 64 = leBytes 64 (Config.shake256 (s.fuses.tileBits ++ s.fuses.linkBits ++ s.fuses.ceilings)).toNat ∧
      (r.drop 288).take 64 = leBytes 64 (Config.shake256 (s.fuses.tileRetireBits ++ s.fuses.linkRetireBits)).toNat ∧
      (r.drop 352).take 8 = leBytes 8 (summary0 s).toNat ∧ (r.drop 360).take 8 = leBytes 8 (summary1 s).toNat ∧
      (r.drop 368).take 8 = leBytes 8 s.refTime ∧ (r.drop 376).take 8 = leBytes 8 s.fuses.secVersion ∧
      (r.drop 384).take 3309 = leBytes 3309 (Config.attest (Config.shake256 (r.take 384))) ∧ r.drop 3693 = [0, 0, 0] := by
  intro r
  have part : ∀ (i : Nat) {a n : Nat} {x : List Byte}, (reportParts s nonce)[i]? = some x →
      (((reportParts s nonce).map List.length).take i).sum = a → x.length = n → (r.drop a).take n = x := fun _ => part_of_flatten
  have head : r.take 384 = reportHead s nonce := by
    simp only [r, reportParts_flatten, List.append_assoc]
    rw [← reportHead_length s nonce, List.take_left]
  have len : r.length = 3696 := by simp [r, reportParts]
  have zeros : (r.drop 3693).take 3 = [0, 0, 0] := part 11 rfl (by simp [reportParts]) rfl
  rw [head]
  exact ⟨len, part 0 rfl rfl (by simp), part 1 rfl (by simp [reportParts]) (by simp),
    part 2 rfl (by simp [reportParts]) (by simp), part 3 rfl (by simp [reportParts]) (by simp),
    part 4 rfl (by simp [reportParts]) (by simp), part 5 rfl (by simp [reportParts]) (by simp),
    part 6 rfl (by simp [reportParts]) (by simp), part 7 rfl (by simp [reportParts]) (by simp),
    part 8 rfl (by simp [reportParts]) (by simp), part 9 rfl (by simp [reportParts]) (by simp),
    part 10 rfl (by simp [reportParts]) (by simp), by rwa [List.take_of_length_le (by simp [len])] at zeros⟩

/-! Keys and recovery images (R394). -/

theorem keySlotFill_cases (slot key sig : Nat) (s : State) :
    let owner := Config.keyHash (sig / 2 ^ 26472)
    let good := slot < 16 ∧ hostAnswered s = true ∧ (s.fuses.ownerKey = none ∨ s.fuses.ownerKey = some owner) ∧
      Config.mldsaVerify (sig / 2 ^ 26472) (Config.shake256 (leBytes 1 slot ++ leBytes 1952 key)) (leBytes 3309 (sig % 2 ^ 26472)) = true
    (¬good → Idle (.keySlotFill slot key sig) s) ∧
    (good → exec (.keySlotFill slot key sig) s =
      .next { s with keySlots := AMap.set s.keySlots slot key, fuses := { s.fuses with ownerKey := some owner } }) :=
  ⟨fun bad => if_neg bad, fun good => if_pos good⟩

/-- An accepted image takes its place, and recovery mode ends. -/
theorem recoveryImageLoad_cases (img : Firmware) (s : State) :
    let good := Config.keyHash img.key = s.fuses.rootKey ∧ s.fuses.secVersion ≤ img.version ∧
      Config.mldsaVerify img.key (BitVec.ofNat 512 img.digest) (leBytes 3309 img.sig) = true
    (s.bootStage ≠ 0xF1 → Idle (.recoveryImageLoad img) s) ∧
    (s.bootStage = 0xF1 → ∃ t, exec (.recoveryImageLoad img) s = .next t ∧ Quiet s t ∧ (¬good → t = s) ∧
      (good → t.bootStage = 0 ∧ t.bootFail = 0 ∧ t.fuses = { s.fuses with secVersion := img.version } ∧
        (s.delsisImg = Firmware.blank → t.delsisImg = img) ∧
        (s.delsisImg ≠ Firmware.blank → t.delsisImg = s.delsisImg ∧ (s.monitorImg = Firmware.blank → t.monitorImg = img) ∧
          (s.monitorImg ≠ Firmware.blank → t.monitorImg = s.monitorImg ∧ t.dispatchImg = img)))) := by
  intro good
  have accepted : accepts s.fuses img = true ↔ good := by
    simp [accepts, good]; tauto
  refine ⟨fun other => if_neg fun h => other h.1, fun recovery => ?_⟩
  by_cases ok : good
  · have ⟨_, version, _⟩ := ok
    have fuses : s.fuses.accepted img = { s.fuses with secVersion := img.version } := by simp [Fuses.accepted, version]
    have run : exec (.recoveryImageLoad img) s = _ := if_pos ⟨recovery, accepted.mpr ok⟩
    by_cases d : s.delsisImg = Firmware.blank
    · rw [if_pos d] at run
      exact ⟨_, run, .of_tiles_gmem rfl rfl, fun h => absurd ok h, fun _ => ⟨rfl, rfl, fuses, fun _ => rfl, fun h => absurd d h⟩⟩
    · rw [if_neg d] at run
      by_cases m : s.monitorImg = Firmware.blank
      · rw [if_pos m] at run
        exact ⟨_, run, .of_tiles_gmem rfl rfl, fun h => absurd ok h,
          fun _ => ⟨rfl, rfl, fuses, fun h => absurd h d, fun _ => ⟨rfl, fun _ => rfl, fun h => absurd m h⟩⟩⟩
      · rw [if_neg m] at run
        exact ⟨_, run, .of_tiles_gmem rfl rfl, fun h => absurd ok h,
          fun _ => ⟨rfl, rfl, fuses, fun h => absurd h d, fun _ => ⟨rfl, fun h => absurd h m, fun _ => ⟨rfl, rfl⟩⟩⟩⟩
  · exact ⟨s, if_neg fun h => ok (accepted.mp h.2), .of_tiles_gmem rfl rfl, fun _ => rfl, fun h => absurd h ok⟩

/-! The host's events. -/

theorem onInlet_next (s : State) (n : Nat) (f : Nat → State) : ∃ t, onInlet s n f = .next t := ⟨_, rfl⟩

theorem takenWrite_next (n k : Nat) (s : State) : ∃ t, execTakenWrite n k s = .next t := by
  unfold execTakenWrite
  split
  · exact ⟨_, rfl⟩
  · dsimp only; split <;> exact ⟨_, rfl⟩

/-- The events of the host but a register access always answer a next state. -/
theorem hostEvent_next (n k : Nat) (v : Word) (x : Line) (ok : Bool) (b : BitVec 256) (img : Firmware) (s : State) :
    ∀ i ∈ [Instr.inletData n v, .inletEos n v, .inletRound n, .inletNull n, .inletLine n x ok, .takenWrite n k, .hostPortLinkFail n,
      .attestationReport b, .keySlotFill n k k, .recoveryImageLoad img], ∃ t, exec i s = .next t := by
  have key : ∃ t, exec (.keySlotFill n k k) s = .next t := by
    obtain ⟨bad, good⟩ := keySlotFill_cases n k k s
    exact (Classical.em _).elim (fun h => ⟨_, good h⟩) fun h => ⟨_, bad h⟩
  have image : ∃ t, exec (.recoveryImageLoad img) s = .next t := by
    obtain ⟨other, recovery⟩ := recoveryImageLoad_cases img s
    by_cases h : s.bootStage = 0xF1
    · exact (recovery h).imp fun t ht => ht.1
    · exact ⟨_, other h⟩
  simp only [List.forall_mem_cons, List.not_mem_nil, false_imp_iff, implies_true, and_true]
  exact ⟨onInlet_next .., onInlet_next .., onInlet_next .., onInlet_next .., onInlet_next .., takenWrite_next .., ⟨_, rfl⟩, ⟨_, rfl⟩,
    key, image⟩

/-- Settles O58, clause by clause from the laws of the host's channels, of the register areas, of the attestation report, and of the key
and recovery commands. -/
theorem hostAndRegisters : Obligations.HostAndRegisters := by
  unfold Obligations.HostAndRegisters
  refine ⟨hostEvent_next, fun p n v x s hn => ?inlets, fun p n k s hn => ?outlets, fun port s => ?hostPorts,
    fun off v s => execRegisterWrite_lost v, fun port off v s hoff on => ?registers,
    fun nonce s => ⟨fun silent => ?unanswered, fun answered => ?attestation⟩, fun slot key sig s => ?keys, recoveryImageLoad_cases⟩
  case inlets =>
    have write (f : Nat → State) : onInlet s (32 * p + n) f = .next (if hostReaches s p then f n else s) := onInlet_channel s p hn f
    refine ⟨fun off => ?_, fun on => ?_, rfl, rfl, fun id d chan source => ?_, ?_⟩
    · exact (write _).trans (by rw [off]; rfl)
    · exact ⟨_, (write _).trans (by rw [on]; rfl), inletDrop_dropped s n⟩
    · simp [inletRead, chan, source]
    · simp only [List.forall_mem_cons, List.not_mem_nil, false_imp_iff, implies_true, and_true]
      exact ⟨inletWrite_cases (write _) rfl, inletWrite_cases (write _) rfl, inletWrite_cases (write _) rfl, inletWrite_cases (write _) rfl,
        inletWrite_cases (write _) rfl⟩
  case outlets =>
    refine ⟨execTakenWrite_idle hn, fun on avail sys => ?_, outletRead_avail s n, fun tok head => ?_⟩
    · refine ⟨_, execTakenWrite_take hn on avail sys, s.takeOutlet_quiet n k, ?_, fun j => ?_, fun id c b => State.takeOutlet_back k⟩
      · rw [State.outlet_takeOutlet]; rfl
      · rw [State.outlet_takeOutlet]; exact AMap.get?_filter_ge ..
    · have slot (j : Nat) (hj : j < 16) : outletRead s n (0x4000 + 128 * ((s.outlet n).h % 256) + 8 * j) = some (slotWord tok j) := by
        rw [outletRead_slot s n j hj, head]; rfl
      exact ⟨⟨_, slot 0 (by omega), slotWord_header tok⟩, fun j hj => (slot (8 + j) (by omega)).trans (by rw [slotWord_payload])⟩
  case hostPorts =>
    exact ⟨_, rfl, rfl, hostPortDown_getLsbD s.hostUp port⟩
  case registers =>
    intro w
    have write {a : Nat} {t : State} (ha : a < 2 ^ 27) (aligned : a % 8 = 0) (h : mgmtWrite s a v = some t) : exec (w a) s = .next t :=
      execRegisterWrite_aligned ha aligned on h
    refine ⟨fun undescribed => ?_, fun described place => ?_, fun h hh => ?_, fun p e hp he => ⟨fun en => ?_, fun dis => ?_⟩, fun p hp => ?_,
      fun m hm => ?_, fun p hp => ⟨?_, ?_⟩⟩
    · rw [execRegisterWrite_port v hoff on, mgmtWrite_undescribed v undescribed]; rfl
    · exact execRegisterWrite_at hoff on (mgmtWrite_readOnly v described (by omega))
    · have word0 := execBlockWrite v on hh (show 0 < 8 by omega)
      obtain ⟨two, plain, go, ab, sn, re⟩ := writeBlock0_cases s h v
      obtain ⟨frozen, word6, word7, free⟩ := blockWrite_cases v on hh
      refine ⟨fun h => word0.trans (by rw [if_pos rfl, two h]), fun h => word0.trans (by rw [if_pos rfl, plain h]; rfl),
        fun h => word0.trans (go h), fun h => word0.trans (ab h), fun h => word0.trans (sn h), fun h => word0.trans (re h),
        frozen, word6, word7, free, fun i hi => ?_⟩
      have error := write (by omega) (by omega) (mgmtWrite_error s v hh hi)
      refine ⟨fun other => error.trans (by rw [if_neg other]), ?_⟩
      rintro rfl
      exact ⟨_, error, .of_tiles_gmem rfl rfl, State.resOf_setRes ..⟩
    · exact (write (by omega) (by omega) (mgmtWrite_elem s v hp he)).trans (by rw [writeFabElem_enabled e v en])
    · exact ⟨_, write (by omega) (by omega) (mgmtWrite_elem s v hp he), writeFabElem_sets e v dis⟩
    · exact ⟨_, write (by simp only [atLink]; omega) (by simp only [atLink]; omega) (mgmtWrite_link s v hp), rfl,
        fun q hq => State.link_setLink_other s _ hq.symm, State.link_setLink ..⟩
    · exact ⟨_, write (by simp only [atRoute]; omega) (by simp only [atRoute]; omega) (mgmtWrite_route s v hm), rfl, AMap.getD_set_same ..⟩
    · refine ⟨_, write (by simp only [atWbase]; omega) (by simp only [atWbase]; omega) (mgmtWrite_wbase s v hp), .of_tiles_gmem rfl rfl, ?_⟩
      rw [AMap.getD_set_same, windowBase_toNat]
    · refine ⟨_, write (by simp only [atMsien]; omega) (by simp only [atMsien]; omega) (mgmtWrite_msien s v hp), .of_tiles_gmem rfl rfl, ?_⟩
      rw [AMap.getD_set_same, lowHalf_toNat]
  case unanswered =>
    change execAttestationReport nonce s = .next s
    simp [execAttestationReport, silent]
  case attestation =>
    exact ⟨_, _, execAttestationReport_answered nonce answered, rfl, reportParts_layout s nonce⟩
  case keys =>
    obtain ⟨bad, good⟩ := keySlotFill_cases slot key sig s
    exact ⟨bad, fun h => ⟨_, good h, rfl, fun j => AMap.get?_set ..⟩⟩

end Sys2Proof.Machine
end

section
/-!
O60, power and retirement (01 R15, R21, 12 R310, 16 R387 to R393, 17 R403, R409 to R411): which fuse bits a retirement and the self-tests
blow and how they count, what the partition of a sweep leaves, what a tile's death does, the stages of bring-up and the module they
leave, power loss, droops, and the Cox's grants.
-/

namespace Sys2Proof.Machine

/-! Sets of numbers, and maps built from lists. -/

theorem NSet.mem_insert (s : NSet) (n m : Nat) : NSet.mem (NSet.insert s n) m = (n == m || NSet.mem s m) := by
  induction s with
  | nil => rfl
  | cons k s ih =>
    simp only [NSet.insert]
    split
    · simp only [NSet.mem, List.any_cons] at ih ⊢
      rw [ih, Bool.or_left_comm]
    · split
      · rename_i h; simp [NSet.mem, h]
      · rfl

/-- Writing a list of entries into a map leaves a key that none of them has. -/
theorem AMap.get?_foldl_set_other {α β : Type} (k : α → Nat) (v : α → β) {l : List α} {j : Nat} (h : ∀ x ∈ l, k x ≠ j) (m : AMap β) :
    AMap.get? (l.foldl (fun m x => AMap.set m (k x) (v x)) m) j = AMap.get? m j := by
  induction l generalizing m with
  | nil => rfl
  | cons x l ih =>
    rw [List.forall_mem_cons] at h
    rw [List.foldl_cons, ih h.2, AMap.get?_set_other _ _ h.1]

/-- Writing a list of entries into a map gives each key the value of one of its entries. -/
theorem AMap.get?_foldl_set_mem {α β : Type} (k : α → Nat) (v : α → β) {l : List α} {j : Nat} (h : ∃ x ∈ l, k x = j) (m : AMap β) :
    ∃ x ∈ l, k x = j ∧ AMap.get? (l.foldl (fun m x => AMap.set m (k x) (v x)) m) j = some (v x) := by
  induction l generalizing m with
  | nil => simp at h
  | cons x l ih =>
    by_cases later : ∃ y ∈ l, k y = j
    · obtain ⟨y, hy, key, val⟩ := ih later (AMap.set m (k x) (v x))
      exact ⟨y, List.mem_cons_of_mem _ hy, key, val⟩
    · have key : k x = j := by simpa [later] using h
      refine ⟨x, List.mem_cons_self, key, ?_⟩
      rw [List.foldl_cons, AMap.get?_foldl_set_other k v (fun y hy e => later ⟨y, hy, e⟩), ← key, AMap.get?_set_same]

/-- Where the value is a function of the key, a map made of a list of keys reads it. -/
theorem AMap.get?_map_key {α β : Type} (k : α → Nat) (f : Nat → β) {l : List α} {x : α} (h : x ∈ l) :
    AMap.get? (l.map fun x => (k x, f (k x))) (k x) = some (f (k x)) := by
  induction l with
  | nil => simp at h
  | cons y l ih =>
    rw [List.map_cons, AMap.get?]
    split
    · rename_i e; rw [e]
    · rename_i e; exact ih ((List.mem_cons.mp h).resolve_left fun g => e (by rw [g]))

theorem AMap.get?_mapVals {α β : Type} (m : AMap α) (f : Nat → α → β) (k : Nat) :
    AMap.get? (AMap.mapVals m f) k = (AMap.get? m k).map (f k) := by
  induction m with
  | nil => rfl
  | cons p m ih =>
    simp only [AMap.mapVals, List.map_cons, AMap.get?] at ih ⊢
    split
    · rename_i e; rw [e]; rfl
    · exact ih

theorem AMap.get?_filter_key {α : Type} (m : AMap α) (keep : Nat → Bool) (a : Nat) :
    AMap.get? (m.filter fun x => keep x.1) a = if keep a then AMap.get? m a else none := by
  induction m with
  | nil => simp [AMap.get?]
  | cons x m ih =>
    obtain ⟨k, v⟩ := x
    by_cases e : k = a
    · subst e
      cases h : keep k <;> simp [AMap.get?, h, ih]
    · cases h : keep k <;> simp [AMap.get?, h, ih, e]

theorem AMap.getD_of_get? {α : Type} {m : AMap α} {k : Nat} {v : α} (h : AMap.get? m k = some v) (d : α) : AMap.getD m k d = v := by
  rw [AMap.getD, h, Option.getD_some]

/-- A key that reads as something is one of the keys. -/
theorem AMap.mem_keys_of_get? {α : Type} {m : AMap α} {k : Nat} {v : α} (h : AMap.get? m k = some v) : k ∈ AMap.keys m := by
  induction m with
  | nil => cases h
  | cons p m ih =>
    simp only [AMap.get?, AMap.keys, List.map_cons, List.mem_cons] at h ih ⊢
    split at h
    · rename_i e; exact .inl e.symm
    · exact .inr (ih h)

/-- What one element of a list brings about, whatever stands before, and every later one keeps, stands at the end. -/
theorem foldl_reaches {σ α : Type} {step : σ → α → σ} {P : σ → Prop} {l : List α} {x : α} (hx : x ∈ l) (made : ∀ g, P (step g x))
    (keep : ∀ g y, P g → P (step g y)) (g : σ) : P (l.foldl step g) := by
  induction l generalizing g with
  | nil => simp at hx
  | cons y l ih =>
    rcases List.mem_cons.mp hx with rfl | later
    · exact List.foldlRecOn l step (made g) fun g' hg y _ => keep g' y hg
    · exact ih later _

/-! The links of a tile (R17, R386). -/

theorem physAt_place {row col : Nat} (hr : row < 84) (hc : col < 156) :
    physRow (physAt row col) = row ∧ physCol (physAt row col) = col ∧ physAt row col < 13104 := by
  unfold physRow physCol physAt; omega

theorem phys_place {p : Nat} (hp : p < 13104) : physRow p < 84 ∧ physCol p < 156 ∧ physAt (physRow p) (physCol p) = p := by
  unfold physRow physCol physAt; omega

/-- A link bit names a link of its tile: to the east or south of one that is not at that edge, or over the next column. -/
theorem offArray_bit {q d : Nat} (hq : q < 13104) (hd : d < 3) (edge : if d = 1 then physRow q < 83 else physCol q + d / 2 < 155) :
    offArray (3 * q + d) = false := by
  have tile : (3 * q + d) / 3 = q := by omega
  have dir : (3 * q + d) % 3 = d := by omega
  simp only [offArray, tile, dir]
  split at edge <;> simp <;> omega

/-- A link that its tile has only under a condition. -/
theorem forall_mem_ite_singleton {α : Type} {c : Prop} [Decidable c] {a : α} {P : α → Prop} :
    (∀ x ∈ (if c then [a] else []), P x) ↔ (c → P a) := by
  split <;> simp [*]

/-- Every link of a tile is one of the array. -/
theorem offArray_tileLinks {p : Nat} (hp : p < 13104) : ∀ l ∈ tileLinks p, offArray l.1 = false := by
  obtain ⟨hr, hc, -⟩ := phys_place hp
  simp only [tileLinks, List.forall_mem_append, forall_mem_ite_singleton]
  have west (d : Nat) := physAt_place hr (show physCol p - d < 156 by omega)
  have north := physAt_place (show physRow p - 1 < 84 by omega) hc
  refine ⟨⟨⟨⟨⟨fun h => ?_, fun h => ?_⟩, fun h => ?_⟩, fun h => ?_⟩, fun h => ?_⟩, fun h => ?_⟩
  · exact offArray_bit (d := 0) hp (by omega) (by simpa using h)
  · exact offArray_bit (d := 1) hp (by omega) (by simpa using h)
  · exact offArray_bit (d := 2) hp (by omega) (by simp; omega)
  · exact offArray_bit (d := 0) (west 1).2.2 (by omega) (by simp [(west 1).2.1]; omega)
  · exact offArray_bit (d := 1) north.2.2 (by omega) (by simp [north.1]; omega)
  · exact offArray_bit (d := 2) (west 2).2.2 (by omega) (by simp [(west 2).2.1]; omega)

/-- The links of a tile have different bits. -/
theorem tileLinks_distinct {p : Nat} (hp : p < 13104) : ((tileLinks p).map (·.1)).Nodup := by
  obtain ⟨hr, hc, -⟩ := phys_place hp
  have one {α : Type} {R : α → α → Prop} {c : Prop} [Decidable c] {a : α} : (if c then [a] else []).Pairwise R := by split <;> simp
  have west (h : 0 < physCol p) : physAt (physRow p) (physCol p - 1) ≠ p := fun e => by
    have := (physAt_place hr (show physCol p - 1 < 156 by omega)).2.1
    rw [e] at this; omega
  have skipWest (h : 1 < physCol p) : physAt (physRow p) (physCol p - 2) ≠ p := fun e => by
    have := (physAt_place hr (show physCol p - 2 < 156 by omega)).2.1
    rw [e] at this; omega
  have north (h : 0 < physRow p) : physAt (physRow p - 1) (physCol p) ≠ p := fun e => by
    have := (physAt_place (show physRow p - 1 < 84 by omega) hc).1
    rw [e] at this; omega
  rw [List.Nodup, List.pairwise_map]
  simp only [tileLinks, List.pairwise_append, List.forall_mem_append, forall_mem_ite_singleton, one, true_and]
  omega

/-! Retirement bits and the counter (R389, R390). -/

/-- What no self-test and no retirement takes back: defects stand, and a bit once blown stays blown. -/
structure Fuses.Keeps (f g : Fuses) : Prop where
  defects : g.tileDefect = f.tileDefect
  tiles : ∀ n, NSet.mem f.tileRetired n = true → NSet.mem g.tileRetired n = true
  links : ∀ n, NSet.mem f.linkRetired n = true → NSet.mem g.linkRetired n = true

theorem Fuses.Keeps.refl (f : Fuses) : f.Keeps f := ⟨rfl, fun _ h => h, fun _ h => h⟩

theorem Fuses.Keeps.trans {f g h : Fuses} (a : f.Keeps g) (b : g.Keeps h) : f.Keeps h :=
  ⟨b.defects.trans a.defects, fun n x => b.tiles n (a.tiles n x), fun n x => b.links n (a.links n x)⟩

theorem Fuses.Keeps.foldl {α : Type} {step : Fuses → α → Fuses} (one : ∀ (g : Fuses) y, g.Keeps (step g y)) (l : List α) (f : Fuses) :
    f.Keeps (l.foldl step f) :=
  List.foldlRecOn l step (.refl f) fun g h y _ => h.trans (one g y)

/-- A bad tile stays bad. -/
theorem Fuses.Keeps.bad {f g : Fuses} (h : f.Keeps g) {p : Nat} (hp : f.bad p = true) : g.bad p = true := by
  simp only [Fuses.bad, Bool.or_eq_true, h.defects] at hp ⊢
  exact hp.imp_right (h.tiles p)

/-- The counter after n bits are blown (R390). -/
def countAfter (c n : Nat) : Nat := if n = 0 then c else min (c + n) 0xFFFF

theorem countAfter_add (c m n : Nat) : countAfter (countAfter c m) n = countAfter c (m + n) := by
  unfold countAfter; grind

/-- A retirement that blows n bits. -/
structure Fuses.Blows (f g : Fuses) (n : Nat) : Prop extends Fuses.Keeps f g where
  lowered : g.lowered = f.lowered
  linkDefect : g.linkDefect = f.linkDefect
  secVersion : g.secVersion = f.secVersion
  gcount : g.gcount = countAfter f.gcount n

theorem Fuses.Blows.refl (f : Fuses) : f.Blows f 0 := ⟨.refl f, rfl, rfl, rfl, rfl⟩

theorem Fuses.Blows.trans {f g h : Fuses} {m n : Nat} (a : f.Blows g m) (b : g.Blows h n) : f.Blows h (m + n) :=
  ⟨a.toKeeps.trans b.toKeeps, b.lowered.trans a.lowered, b.linkDefect.trans a.linkDefect, b.secVersion.trans a.secVersion,
    by rw [b.gcount, a.gcount, countAfter_add]⟩

/-- Which link bits are blown after a link's retirement. -/
theorem Fuses.mem_retireLink {f : Fuses} {l : Nat} (on : offArray l = false) (n : Nat) :
    NSet.mem (f.retireLink l).linkRetired n = (l == n || NSet.mem f.linkRetired n) := by
  unfold Fuses.retireLink
  split
  · rename_i h
    have blown : NSet.mem f.linkRetired l = true := by simpa [on] using h
    by_cases e : l = n
    · rw [← e, blown, Bool.or_true]
    · simp [e]
  · exact NSet.mem_insert ..

/-- A link's retirement blows its bit, if it is not blown. -/
theorem Fuses.retireLink_blows {f : Fuses} {l : Nat} (on : offArray l = false) :
    f.Blows (f.retireLink l) (if NSet.mem f.linkRetired l then 0 else 1) ∧ (f.retireLink l).tileRetired = f.tileRetired := by
  have links (n : Nat) (h : NSet.mem f.linkRetired n = true) : NSet.mem (f.retireLink l).linkRetired n = true := by
    rw [Fuses.mem_retireLink on, h, Bool.or_true]
  unfold Fuses.retireLink at links ⊢
  cases h : NSet.mem f.linkRetired l
  · simp only [on, h, Bool.or_self, Bool.false_eq_true, if_false] at links ⊢
    exact ⟨⟨⟨rfl, fun _ x => x, links⟩, rfl, rfl, rfl, rfl⟩, rfl⟩
  · simp only [Bool.or_true, if_true]
    exact ⟨.refl f, trivial⟩

/-- A bit that names no link is not blown. -/
theorem Fuses.retireLink_offArray {f : Fuses} {l : Nat} (off : offArray l = true) : f.retireLink l = f := by simp [Fuses.retireLink, off]

theorem Fuses.retireLink_keeps (f : Fuses) (l : Nat) : f.Keeps (f.retireLink l) := by
  cases on : offArray l
  · exact (Fuses.retireLink_blows on).1.toKeeps
  · rw [Fuses.retireLink_offArray on]; exact .refl f

/-- The bits of some links, all different, are blown, and counted where they were not. -/
theorem Fuses.retireLinks_blows {ls : List (Nat × Nat)} (f : Fuses) (on : ∀ l ∈ ls, offArray l.1 = false) (distinct : (ls.map (·.1)).Nodup) :
    f.Blows (ls.foldl (fun f l => f.retireLink l.1) f) (ls.filter fun l => !NSet.mem f.linkRetired l.1).length ∧
      (ls.foldl (fun f l => f.retireLink l.1) f).tileRetired = f.tileRetired := by
  induction ls generalizing f with
  | nil => exact ⟨.refl f, rfl⟩
  | cons l ls ih =>
    rw [List.forall_mem_cons] at on
    rw [List.map_cons, List.nodup_cons] at distinct
    obtain ⟨first, tiles⟩ := Fuses.retireLink_blows (f := f) on.1
    obtain ⟨rest, tiles'⟩ := ih (f.retireLink l.1) on.2 distinct.2
    have same : (ls.filter fun x => !NSet.mem (f.retireLink l.1).linkRetired x.1) = ls.filter fun x => !NSet.mem f.linkRetired x.1 :=
      List.filter_congr fun x hx => by
        have other : (l.1 == x.1) = false := beq_false_of_ne fun e => distinct.1 (e ▸ List.mem_map_of_mem hx)
        rw [Fuses.mem_retireLink on.1, other, Bool.false_or]
    rw [List.foldl_cons]
    refine ⟨?_, tiles'.trans tiles⟩
    convert first.trans rest using 1
    rw [same, List.filter_cons]
    cases NSet.mem f.linkRetired l.1 <;> simp [Nat.add_comm]

/-- The tile's own bit. -/
theorem Fuses.retireTile_alone (f : Fuses) (p : Nat) : f.Blows (f.retireTile p false) (if NSet.mem f.tileRetired p then 0 else 1) ∧
    NSet.mem (f.retireTile p false).tileRetired p = true ∧ (f.retireTile p false).linkRetired = f.linkRetired := by
  unfold Fuses.retireTile
  cases h : NSet.mem f.tileRetired p
  · refine ⟨⟨⟨rfl, fun n x => ?_, fun _ x => x⟩, rfl, rfl, rfl, rfl⟩, ?_, rfl⟩
    · exact (NSet.mem_insert ..).trans (by rw [x, Bool.or_true])
    · exact (NSet.mem_insert ..).trans (by simp)
  · exact ⟨.refl f, h, rfl⟩

theorem Fuses.retireTile_router (f : Fuses) (p : Nat) :
    f.retireTile p true = (tileLinks p).foldl (fun f l => f.retireLink l.1) (f.retireTile p false) := rfl

/-- A tile's retirement blows its bit, and with its router those of its links; each bit that was not blown counts (R389). -/
theorem Fuses.retireTile_blows (f : Fuses) {p : Nat} (hp : p < 13104) (router : Bool) :
    f.Blows (f.retireTile p router) ((if NSet.mem f.tileRetired p then 0 else 1) +
      (if router then ((tileLinks p).filter fun l => !NSet.mem f.linkRetired l.1).length else 0)) := by
  obtain ⟨own, -, same⟩ := f.retireTile_alone p
  cases router
  · exact own
  · have links := (Fuses.retireLinks_blows (f.retireTile p false) (offArray_tileLinks hp) (tileLinks_distinct hp)).1
    rw [same, ← Fuses.retireTile_router] at links
    exact own.trans links

/-- A tile's retirement leaves its bit blown, and with its router those of its links; without, links are as they were. -/
theorem Fuses.retireTile_bits (f : Fuses) {p : Nat} (hp : p < 13104) (router : Bool) :
    NSet.mem (f.retireTile p router).tileRetired p = true ∧ (router = false → (f.retireTile p router).linkRetired = f.linkRetired) ∧
      (router = true → ∀ l ∈ tileLinks p, NSet.mem (f.retireTile p router).linkRetired l.1 = true) := by
  obtain ⟨-, blown, same⟩ := f.retireTile_alone p
  cases router
  · exact ⟨blown, fun _ => same, nofun⟩
  · rw [Fuses.retireTile_router]
    refine ⟨(Fuses.Keeps.foldl (fun g (y : Nat × Nat) => g.retireLink_keeps y.1) _ _).tiles p blown, nofun, fun _ l hl => ?_⟩
    refine foldl_reaches (P := fun g : Fuses => NSet.mem g.linkRetired l.1 = true) hl (fun g => ?_) (fun g y => (g.retireLink_keeps y.1).links l.1) _
    rw [Fuses.mem_retireLink (offArray_tileLinks hp l hl), beq_self_eq_true, Bool.true_or]

theorem Fuses.retireTile_keeps (f : Fuses) (p : Nat) (router : Bool) : f.Keeps (f.retireTile p router) := by
  have own := (f.retireTile_alone p).1.toKeeps
  cases router
  · exact own
  · exact own.trans (.foldl (fun g (y : Nat × Nat) => g.retireLink_keeps y.1) _ _)

/-- What any retirement keeps, and that it leaves everything but the bits and the counter. -/
theorem Fuses.retire_blows (f : Fuses) (x : RetireTarget) : ∃ n, f.Blows (f.retire x) n := by
  cases x with
  | tile p router =>
    by_cases hp : p < 13104
    · exact ⟨_, by simpa only [Fuses.retire, if_pos hp] using f.retireTile_blows hp router⟩
    · exact ⟨0, by simpa only [Fuses.retire, if_neg hp] using .refl f⟩
  | link l =>
    cases on : offArray l
    · exact ⟨_, (Fuses.retireLink_blows on).1⟩
    · exact ⟨0, by simpa only [Fuses.retire, Fuses.retireLink_offArray on] using .refl f⟩

/-- What a retirement blows and counts (R389, R390). -/
theorem Fuses.retire_link (f : Fuses) (l : Nat) : (offArray l = true → f.retire (.link l) = f) ∧
    (offArray l = false → NSet.mem (f.retire (.link l)).linkRetired l = true ∧
      (f.retire (.link l)).gcount = countAfter f.gcount (if NSet.mem f.linkRetired l then 0 else 1)) := by
  refine ⟨Fuses.retireLink_offArray, fun on => ⟨?_, (Fuses.retireLink_blows on).1.gcount⟩⟩
  exact (Fuses.mem_retireLink on l).trans (by rw [beq_self_eq_true, Bool.true_or])

theorem Fuses.retire_tile (f : Fuses) {p : Nat} (hp : p < 13104) (router : Bool) :
    NSet.mem (f.retire (.tile p router)).tileRetired p = true ∧
      (router = false → (f.retire (.tile p router)).linkRetired = f.linkRetired) ∧
      (router = true → ∀ l ∈ tileLinks p, NSet.mem (f.retire (.tile p router)).linkRetired l.1 = true) ∧
      (f.retire (.tile p router)).gcount = countAfter f.gcount ((if NSet.mem f.tileRetired p then 0 else 1) +
        (if router then ((tileLinks p).filter fun l => !NSet.mem f.linkRetired l.1).length else 0)) := by
  obtain ⟨own, noLinks, links⟩ := f.retireTile_bits hp router
  simp only [Fuses.retire, if_pos hp]
  exact ⟨own, noLinks, links, (f.retireTile_blows hp router).gcount⟩

theorem Fuses.blowFirst_gcount (f : Fuses) (x : RetireTarget) : (f.blowFirst x).gcount = f.gcount := by
  cases x <;> simp only [Fuses.blowFirst] <;> split <;> rfl

/-! Self-test at boot (R388, R391). -/

theorem Fuses.selfTest_keeps (f : Fuses) (x : Nat × Nat) : f.Keeps (f.selfTest x) := by
  unfold Fuses.selfTest
  split
  · exact .refl f
  · split
    · exact f.retireTile_keeps ..
    · exact ⟨rfl, fun _ h => h, fun _ h => h⟩

theorem Fuses.selfTestLinks_keeps (g : Fuses) (b : BootInput) :
    g.Keeps (b.linkFail.foldl (fun f l => if f.linkBad l then f else f.retireLink l) g) :=
  .foldl (fun g l => by split; exacts [.refl g, g.retireLink_keeps l]) _ _

theorem Fuses.retireRouter_keeps (f g : Fuses) (p : Nat) : g.Keeps (if decide (13104 ≤ p) || f.bad p then g else g.retireTile p true) := by
  split; exacts [.refl g, g.retireTile_keeps p true]

/-- Self-test blows bits and takes none back. -/
theorem Fuses.selfTests_keeps (f : Fuses) (b : BootInput) : f.Keeps (f.selfTests b) := by
  have tiles : f.Keeps (b.tileFail.foldl Fuses.selfTest f) := .foldl Fuses.selfTest_keeps _ _
  have routers (g : Fuses) : g.Keeps (b.routerFail.foldl (fun g p => if decide (13104 ≤ p) || f.bad p then g else g.retireTile p true) g) :=
    .foldl f.retireRouter_keeps _ _
  exact (tiles.trans (routers _)).trans (Fuses.selfTestLinks_keeps _ b)

/-- A tile and the links of its router are retired. -/
def Fuses.RouterRetired (g : Fuses) (p : Nat) : Prop :=
  NSet.mem g.tileRetired p = true ∧ ∀ x ∈ tileLinks p, NSet.mem g.linkRetired x.1 = true

theorem Fuses.Keeps.routerRetired {f g : Fuses} (h : f.Keeps g) {p : Nat} (gone : f.RouterRetired p) : g.RouterRetired p :=
  ⟨h.tiles p gone.1, fun l hl => h.links _ (gone.2 l hl)⟩

/-- A router that failed its self-test, of a tile that was in service, is retired with its links (R18, R391). -/
theorem Fuses.selfTests_router (f : Fuses) (b : BootInput) {p : Nat} (fails : p ∈ b.routerFail) (hp : p < 13104) (good : f.bad p = false) :
    (f.selfTests b).RouterRetired p := by
  refine (Fuses.selfTestLinks_keeps _ b).routerRetired
    (foldl_reaches (P := fun g => g.RouterRetired p) fails (fun g => ?_) (fun g y => (f.retireRouter_keeps g y).routerRetired) _)
  obtain ⟨tile, -, links⟩ := g.retireTile_bits hp true
  rw [good, decide_eq_false (by omega), Bool.or_self, if_neg Bool.false_ne_true]
  exact ⟨tile, links rfl⟩

/-! What the partition of a sweep leaves (R306). -/

/-- Fuses, retirements due, rectangles and residencies stay, and of every tile whether it runs and its barrier memberships. -/
structure State.CutKeeps (s t : State) : Prop where
  fuses : t.fuses = s.fuses
  retireDue : t.retireDue = s.retireDue
  closedRects : t.closedRects = s.closedRects
  res : t.res = s.res
  alive : ∀ q, (t.tile q).alive = (s.tile q).alive
  members : ∀ q, (t.tile q).members = (s.tile q).members

theorem State.CutKeeps.refl (s : State) : s.CutKeeps s := ⟨rfl, rfl, rfl, rfl, fun _ => rfl, fun _ => rfl⟩

theorem State.CutKeeps.trans {s t u : State} (a : s.CutKeeps t) (b : t.CutKeeps u) : s.CutKeeps u :=
  ⟨b.fuses.trans a.fuses, b.retireDue.trans a.retireDue, b.closedRects.trans a.closedRects, b.res.trans a.res,
    fun q => (b.alive q).trans (a.alive q), fun q => (b.members q).trans (a.members q)⟩

theorem State.CutKeeps.foldl {α : Type} {step : State → α → State} (one : ∀ (s : State) y, s.CutKeeps (step s y)) (l : List α) (s : State) :
    s.CutKeeps (l.foldl step s) :=
  List.foldlRecOn l step (.refl s) fun t h y _ => h.trans (one t y)

theorem State.tile_setTile_apply (s : State) (n : Nat) (t : Tile) (q : Nat) : (s.setTile n t).tile q = if q = n then t else s.tile q := by
  split
  · rename_i h; rw [h, State.tile_setTile]
  · rename_i h; rw [State.tile_setTile_other s t (Ne.symm h)]

theorem State.tile_updTile_apply (s : State) (n : Nat) (f : Tile → Tile) (q : Nat) :
    (s.updTile n f).tile q = if q = n then f (s.tile n) else s.tile q := State.tile_setTile_apply ..

theorem State.CutKeeps.setTile (s : State) (n : Nat) {t : Tile} (alive : t.alive = (s.tile n).alive) (members : t.members = (s.tile n).members) :
    s.CutKeeps (s.setTile n t) := by
  refine ⟨rfl, rfl, rfl, rfl, fun q => ?_, fun q => ?_⟩ <;> rw [State.tile_setTile_apply]
  all_goals split
  all_goals simp [*]

/-- Where a tile stays as it was but for parts that neither stop it nor touch its memberships. -/
theorem State.CutKeeps.updTile (s : State) (n : Nat) {f : Tile → Tile} (alive : ∀ t, (f t).alive = t.alive)
    (members : ∀ t, (f t).members = t.members) : s.CutKeeps (s.updTile n f) := .setTile s n (alive _) (members _)

theorem Tile.dropTeams_keeps (t : Tile) (n : Nat) : (t.dropTeams n).alive = t.alive ∧ (t.dropTeams n).members = t.members := by
  unfold Tile.dropTeams; split <;> exact ⟨rfl, rfl⟩

theorem haltSweep_cutKeeps (s : State) (n : Nat) (w : Sweep) : s.CutKeeps (haltSweep s n w) := by
  refine .foldl (fun s k => .updTile s k (fun t => ?_) fun t => ?_) _ s <;> split
  exacts [(t.dropTeams_keeps _).1, rfl, (t.dropTeams_keeps _).2, rfl]

theorem freeSweep_cutKeeps (s : State) (n : Nat) (w : Sweep) : s.CutKeeps (freeSweep s n w) := by
  have slots := State.CutKeeps.foldl (step := fun s k => s.updTile k fun t =>
    { t with sweepSlots := t.sweepSlots.filter fun p => p.2.sweep != n }) (fun s k => .updTile s k (fun _ => rfl) fun _ => rfl) w.tiles s
  exact ⟨slots.fuses, slots.retireDue, slots.closedRects, slots.res, slots.alive, slots.members⟩

theorem injectOrdered_cutKeeps (s : State) (tile port : Nat) (k : TokKind) (payload : Line) (status : BitVec 16) :
    s.CutKeeps (injectOrdered s tile port k payload status) := .setTile s tile rfl rfl

theorem State.injectBooked_cutKeeps (tile p n : Nat) (s : State) : s.CutKeeps (State.injectBooked tile p n s) := by
  induction n generalizing s with
  | zero => exact .refl s
  | succ n ih =>
    rw [State.injectBooked]
    split
    · refine .trans (.trans ?_ (injectOrdered_cutKeeps ..)) (ih _)
      exact .updTile s tile (fun _ => rfl) fun _ => rfl
    · exact .refl s

theorem State.book_cutKeeps (s : State) (tile p : Nat) (x : Option (TokKind × Line × BitVec 16)) : s.CutKeeps (s.book tile p x) :=
  .updTile s tile (fun _ => rfl) fun _ => rfl

theorem State.setChan_cutKeeps (s : State) (n : Nat) (c : Chan) : s.CutKeeps (s.setChan n c) :=
  ⟨rfl, rfl, rfl, rfl, fun _ => rfl, fun _ => rfl⟩

theorem State.putPort_cutKeeps (s : State) (tile p : Nat) (k : TokKind) (payload : Line) (status : BitVec 16) (after : List (Nat × Nat)) :
    s.CutKeeps (s.putPort tile p k payload status after) := by
  have closed : s.CutKeeps (if k = .eos then s.updTile tile fun t => t.setPort p { (s.tile tile).port p with closed := true } else s) := by
    split
    · exact .updTile s tile (fun _ => rfl) fun _ => rfl
    · exact .refl s
  refine closed.trans ?_
  unfold State.putPort
  dsimp only
  generalize (ite (k = .eos) _ s : State) = u
  split
  · exact (u.book_cutKeeps ..).trans (State.injectBooked_cutKeeps ..)
  · split
    · exact .refl u
    · split
      · exact .refl u
      · exact u.setChan_cutKeeps ..

theorem State.sendCompletion_cutKeeps (s : State) (tile actor : Nat) (tag : BitVec 6) : s.CutKeeps (s.sendCompletion tile actor tag) := by
  unfold State.sendCompletion
  split
  · exact .refl s
  · dsimp only
    split
    · exact .updTile s tile (fun _ => rfl) fun _ => rfl
    · exact s.putPort_cutKeeps ..

theorem sweepTag_cutKeeps (s : State) (w : Sweep) : s.CutKeeps (sweepTag s w) := by
  have tag := State.CutKeeps.updTile s w.tile (f := fun t => t.setTaskTag w.task w.tag) (fun _ => rfl) fun _ => rfl
  unfold sweepTag State.opDone
  dsimp only
  split
  · exact tag.trans (State.sendCompletion_cutKeeps ..)
  · exact tag

theorem sweepTrap_cutKeeps (s : State) (w : Sweep) (code : Byte) (val : Word) : s.CutKeeps (sweepTrap s w code val) :=
  .updTile s w.tile (fun _ => rfl) fun _ => rfl

theorem State.gWrite_cutKeeps (s : State) (a : Nat) (bs : List Byte) : s.CutKeeps (s.gWrite a bs) :=
  ⟨rfl, rfl, rfl, rfl, fun _ => rfl, fun _ => rfl⟩

theorem State.boardState_cutKeeps (s : State) (pa st : Nat) : s.CutKeeps (s.boardState pa st) := s.gWrite_cutKeeps ..

theorem execSweepPartition_cutKeeps {n : Nat} {s t : State} (h : execSweepPartition n s = .next t) : s.CutKeeps t := by
  unfold execSweepPartition at h
  split at h
  · cases h; exact .refl s
  · rename_i w _
    split at h
    · cases h
      exact ((((haltSweep_cutKeeps s n w).trans (freeSweep_cutKeeps ..)).trans (State.boardState_cutKeeps ..)).trans
        (sweepTrap_cutKeeps ..)).trans (sweepTag_cutKeeps ..)
    · cases h; exact .refl s

theorem partitionCut_cutKeeps (s : State) : s.CutKeeps (partitionCut s) := by
  refine .foldl (fun s n => ?_) _ s
  split
  · exact execSweepPartition_cutKeeps ‹_›
  · exact .refl s

/-! The death of a tile (R310, R393). -/

theorem Tile.raiseRel_masked (t : Tile) (g : Nat) (h : ∀ m ∈ t.members, m.mask = true) : ∀ m ∈ (t.raiseRel g).members, m.mask = true := by
  intro m hm
  obtain ⟨m', hm', rfl⟩ := List.mem_map.mp hm
  split <;> exact h m' hm'

/-- The release of a group keeps what a raised REL does not touch. -/
theorem execBarrierRelease_tile {P : Tile → Prop} (raise : ∀ t g, P t → P (t.raiseRel g)) {g q : Nat} {s t : State}
    (h : execBarrierRelease g s = .next t) (hq : P (s.tile q)) : P (t.tile q) := by
  unfold execBarrierRelease at h
  split at h <;> cases h
  · simp only [State.tile, AMap.getD, AMap.get?_mapVals] at hq ⊢
    cases e : AMap.get? s.tiles q
    · rwa [e] at hq
    · rw [e] at hq
      simp only [Option.map_some, Option.getD_some] at hq ⊢
      split
      · exact raise _ _ hq
      · exact hq
  · exact hq

theorem releaseGroups_tile {P : Tile → Prop} (raise : ∀ t g, P t → P (t.raiseRel g)) (gs : List Nat) {q : Nat} {s : State} (hq : P (s.tile q)) :
    P ((releaseGroups s gs).tile q) := by
  refine List.foldlRecOn gs _ (motive := fun s : State => P (s.tile q)) hq fun s hs g _ => ?_
  split
  · exact execBarrierRelease_tile raise ‹_› hs
  · exact hs

theorem releaseGroups_eq (s : State) (gs : List Nat) : releaseGroups s gs = { s with tiles := (releaseGroups s gs).tiles } := by
  refine List.foldlRecOn gs _ (motive := fun t : State => t = { s with tiles := t.tiles }) rfl fun t ht g _ => ?_
  split
  · rename_i u run
    unfold execBarrierRelease at run
    split at run <;> cases run
    · rw [ht]
    · exact ht
  · exact ht

/-- The one group of a list is released where it can be. -/
theorem releaseGroups_one {s t : State} {g : Nat} (h : execBarrierRelease g s = .next t) : releaseGroups s [g] = t := by
  rw [releaseGroups, List.foldl_cons, List.foldl_nil, h]

theorem maskTile_eq (s : State) (k : Nat) : maskTile s k = { s with tiles := (maskTile s k).tiles } := releaseGroups_eq ..

/-- The tile is stopped and masked in all its groups. -/
theorem maskTile_tile (s : State) (k : Nat) :
    ((maskTile s k).tile k).alive = false ∧ ∀ m ∈ ((maskTile s k).tile k).members, m.mask = true := by
  refine releaseGroups_tile (P := fun t => t.alive = false ∧ ∀ m ∈ t.members, m.mask = true)
    (fun t g h => ⟨h.1, t.raiseRel_masked g h.2⟩) _ ?_
  rw [State.tile_updTile]
  exact ⟨rfl, fun m hm => by obtain ⟨_, _, rfl⟩ := List.mem_map.mp hm; rfl⟩

/-- The residency of a tile's death: its abort is asked for (R393). -/
def Res.lost (r : Res) : Res := { r with abortAsked := true, tileLost := true }

/-- Marking a list of residencies marks each of them, however often the list names it, and nothing else. -/
theorem foldl_updRes_lost (hs : List Nat) (s : State) :
    hs.foldl (fun s h => s.updRes h Res.lost) s = { s with res := (hs.foldl (fun s h => s.updRes h Res.lost) s).res } :=
  List.foldlRecOn hs _ (motive := fun t : State => t = { s with res := t.res }) rfl fun t ht h _ => by rw [ht]; rfl

theorem State.resOf_updRes_other (s : State) {h m : Nat} (f : Res → Res) (hm : h ≠ m) : (s.updRes h f).resOf m = s.resOf m := by
  simp [State.updRes, State.setRes, State.resOf, hm]

theorem resOf_foldl_updRes_lost (hs : List Nat) (s : State) (h : Nat) :
    (hs.foldl (fun s h => s.updRes h Res.lost) s).resOf h = if h ∈ hs then (s.resOf h).lost else s.resOf h := by
  induction hs generalizing s with
  | nil => rfl
  | cons m hs ih =>
    rw [List.foldl_cons, ih]
    by_cases e : m = h
    · subst e
      rw [if_pos List.mem_cons_self, show (s.updRes m Res.lost).resOf m = (s.resOf m).lost from State.resOf_setRes ..]
      split <;> rfl
    · rw [State.resOf_updRes_other s _ e]
      simp [Ne.symm e]

/-- The residencies that a dead tile's rectangle holds. -/
def inRect (s : State) (i : Nat) : List Nat :=
  (AMap.keys s.res).filter fun h => liveRes (s.resOf h) && (match (s.resOf h).region with
    | some g => g.rect == i
    | none => false)

/-- A residency that lives in a rectangle is one of them. -/
theorem mem_inRect {s : State} {h : Nat} {g : Region} (live : liveRes (s.resOf h) = true) (region : (s.resOf h).region = some g) :
    h ∈ inRect s g.rect := by
  have known : h ∈ AMap.keys s.res := by
    cases e : AMap.get? s.res h with
    | some r => exact AMap.mem_keys_of_get? e
    | none =>
      rw [State.resOf, AMap.getD, e] at live
      exact absurd live (by decide)
  simp [inRect, known, live, region]

/-- A tile's death outside every rectangle masks the tile. -/
theorem killTile_none {s : State} {k : Nat}
    (h : (List.range s.rects.length).find? (fun i => rectHas (nthD s.rects i (0, 0, 0, 0)) k) = none) : killTile s k = maskTile s k := by
  simp only [killTile, h]

/-- In a rectangle, it also asks for the abort of what lives there, and closes the rectangle. -/
theorem killTile_some {s : State} {k i : Nat}
    (h : (List.range s.rects.length).find? (fun i => rectHas (nthD s.rects i (0, 0, 0, 0)) k) = some i) :
    killTile s k = { (inRect s i).foldl (fun s h => s.updRes h Res.lost) (maskTile s k) with closedRects := NSet.insert s.closedRects i } := by
  have same : ((inRect s i).foldl (fun s h => s.updRes h Res.lost) (maskTile s k)).closedRects = s.closedRects := by
    rw [foldl_updRes_lost, maskTile_eq]
  rw [← same]
  simp only [killTile, h] <;> rfl

/-- What a tile's death touches. -/
theorem killTile_eq (s : State) (k : Nat) : killTile s k =
    { s with tiles := (maskTile s k).tiles, res := (killTile s k).res, closedRects := (killTile s k).closedRects } := by
  cases h : (List.range s.rects.length).find? fun i => rectHas (nthD s.rects i (0, 0, 0, 0)) k with
  | none => rw [killTile_none h, maskTile_eq]
  | some i => rw [killTile_some h, foldl_updRes_lost, maskTile_eq]

/-- The first rectangle that holds the tile is closed, and the residencies that live in it are to abort. -/
theorem killTile_rect {s : State} {k i : Nat} (hi : i < s.rects.length) (has : rectHas (nthD s.rects i (0, 0, 0, 0)) k = true)
    (first : ∀ j, j < i → rectHas (nthD s.rects j (0, 0, 0, 0)) k = false) :
    NSet.mem (killTile s k).closedRects i = true ∧ ∀ h g, liveRes (s.resOf h) = true → (s.resOf h).region = some g → g.rect = i →
      (killTile s k).resOf h = (s.resOf h).lost := by
  have found : (List.range s.rects.length).find? (fun i => rectHas (nthD s.rects i (0, 0, 0, 0)) k) = some i :=
    List.find?_range_eq_some.mpr ⟨has, List.mem_range.mpr hi, fun j hj => by simp [first j hj]⟩
  rw [killTile_some found]
  refine ⟨(NSet.mem_insert ..).trans (by simp), fun h g live region rect => ?_⟩
  refine (resOf_foldl_updRes_lost (inRect s i) (maskTile s k) h).trans ?_
  rw [if_pos (rect ▸ mem_inRect live region), maskTile_eq]
  rfl

/-! Retirement (R389, R393). -/

/-- The module after a retirement but for the links that fail with it. -/
def retireBase (s : State) (x : RetireTarget) : State :=
  let s1 := match x with
    | .tile p _ => match s.logical p with
      | some k => killTile s k
      | none => s
    | .link _ => s
  { s1 with fuses := s1.fuses.retire x, retireDue := s1.retireDue.filter (· != x) }

theorem retireNow_eq (s : State) (x : RetireTarget) :
    retireNow s x = if (retiredLinks x).isEmpty then retireBase s x else partitionCut (reroute (retireBase s x)) := rfl

/-- A retirement of no tile of the array stops none. -/
theorem retireBase_unplaced {s : State} {x : RetireTarget} (h : ∀ p router, x = .tile p router → s.logical p = none) :
    retireBase s x = { s with fuses := s.fuses.retire x, retireDue := s.retireDue.filter (· != x) } := by
  cases x with
  | tile p router => simp only [retireBase, h p router rfl]
  | link l => rfl

/-- That of a tile in service is its death. -/
theorem retireBase_placed {s : State} {p k : Nat} (router : Bool) (h : s.logical p = some k) :
    retireBase s (.tile p router) =
      { killTile s k with fuses := s.fuses.retire (.tile p router), retireDue := s.retireDue.filter (· != .tile p router) } := by
  simp only [retireBase, h]
  rw [killTile_eq]

theorem retireBase_fuses (s : State) (x : RetireTarget) :
    (retireBase s x).fuses = s.fuses.retire x ∧ (retireBase s x).retireDue = s.retireDue.filter (· != x) := by
  cases x with
  | tile p router =>
    cases h : s.logical p with
    | none => rw [retireBase_unplaced (by rintro _ _ ⟨⟩; exact h)]; exact ⟨rfl, rfl⟩
    | some k => rw [retireBase_placed router h]; exact ⟨rfl, rfl⟩
  | link l => exact ⟨rfl, rfl⟩

/-- The links that fail with it change routes and sweeps, and no more of what a retirement leaves. -/
theorem retireNow_cutKeeps (s : State) (x : RetireTarget) : (retireBase s x).CutKeeps (retireNow s x) := by
  have route : (retireBase s x).CutKeeps (reroute (retireBase s x)) := ⟨rfl, rfl, rfl, rfl, fun _ => rfl, fun _ => rfl⟩
  rw [retireNow_eq]
  split
  · exact .refl _
  · exact route.trans (partitionCut_cutKeeps _)

/-- With no links, or no sweeps, the tiles are those of the retirement itself. -/
theorem retireNow_tiles {s : State} {p : Nat} {router : Bool} (unplaced : s.logical p = none) (h : router = false ∨ s.sweeps = []) :
    (retireNow s (.tile p router)).tiles = s.tiles := by
  rw [retireNow_eq, retireBase_unplaced (by rintro _ _ ⟨⟩; exact unplaced)]
  rcases h with rfl | h
  · rfl
  · split
    · rfl
    · simp [partitionCut, reroute, h, AMap.keys]

/-- The fuses and the retirements due after a retirement. -/
theorem retireNow_fuses (s : State) (x : RetireTarget) :
    (retireNow s x).fuses = s.fuses.retire x ∧ (retireNow s x).retireDue = s.retireDue.filter (· != x) := by
  obtain ⟨fuses, due⟩ := retireBase_fuses s x
  exact ⟨(retireNow_cutKeeps s x).fuses.trans fuses, (retireNow_cutKeeps s x).retireDue.trans due⟩

/-- What the retirement of a tile in service leaves is what its death leaves. -/
theorem retireNow_placed {s : State} {p k : Nat} (router : Bool) (place : s.logical p = some k) :
    (retireNow s (.tile p router)).closedRects = (killTile s k).closedRects ∧ (retireNow s (.tile p router)).res = (killTile s k).res ∧
      ∀ q, ((retireNow s (.tile p router)).tile q).alive = ((maskTile s k).tile q).alive ∧
        ((retireNow s (.tile p router)).tile q).members = ((maskTile s k).tile q).members := by
  have kept := retireNow_cutKeeps s (.tile p router)
  have tile (q : Nat) : (retireBase s (.tile p router)).tile q = (maskTile s k).tile q := by
    rw [retireBase_placed router place, killTile_eq]; rfl
  rw [retireBase_placed router place] at kept tile
  exact ⟨kept.closedRects, kept.res, fun q => ⟨(kept.alive q).trans (by rw [tile]), (kept.members q).trans (by rw [tile])⟩⟩

/-- A tile of one group: where the group can release with the tile masked, it does (R310). -/
theorem maskTile_one {s v : State} {k g : Nat} (groups : (s.tile k).members.map (·.group) = [g])
    (h : execBarrierRelease g (s.updTile k fun t => { t with members := t.members.map fun m => { m with mask := true }, alive := false }) =
      .next v) : maskTile s k = v := by
  rw [maskTile, groups, releaseGroups_one h]

/-- A retirement that is due: after a monitor double fault, or of a tile whose router fails (R366, R389). -/
theorem execTileRetirement_due {x : RetireTarget} {s : State} (due : (∃ p, x = .tile p true) ∨ x ∈ s.retireDue) :
    execTileRetirement x s = .next (retireNow s x) := by
  have listed : x ∈ s.retireDue → (s.retireDue.any (· == x)) = true := fun h => List.any_eq_true.mpr ⟨x, h, beq_self_eq_true x⟩
  cases x with
  | tile p router =>
    have : (router || s.retireDue.any (· == .tile p router)) = true := by
      rcases due with ⟨_, ⟨⟩⟩ | h
      · rfl
      · rw [listed h, Bool.or_true]
    simp only [execTileRetirement, this, if_true]
  | link l => simp only [execTileRetirement, listed (due.resolve_left nofun), if_true]

theorem execTileRetirement_idle {x : RetireTarget} {s : State} (idle : ¬((∃ p, x = .tile p true) ∨ x ∈ s.retireDue)) :
    execTileRetirement x s = .next s := by
  have unlisted : (s.retireDue.any (· == x)) = false :=
    List.any_eq_false.mpr fun y hy e => idle (.inr (beq_iff_eq.mp e ▸ hy))
  cases x with
  | tile p router =>
    cases router with
    | false => simp only [execTileRetirement, unlisted, Bool.or_self, Bool.false_eq_true, if_false]
    | true => exact absurd (.inl ⟨p, rfl⟩) idle
  | link l => simp only [execTileRetirement, unlisted, Bool.false_eq_true, if_false]

/-! Repair and naming (R15, R21, R392). -/

/-- The first bad tile of a field row lies beyond one of its first 12 positions just where no tile up to it is bad. -/
theorem Fuses.lt_firstBad (f : Fuses) (base : Nat) {j : Nat} (hj : j < 12) :
    j < f.firstBad base ↔ ∀ i, i ≤ j → f.bad (base + i) = false := by
  unfold Fuses.firstBad upto
  cases h : (List.range 13).find? fun i => f.bad (base + i) with
  | none =>
    rw [List.find?_range_eq_none] at h
    exact ⟨fun _ i hi => by simpa using h i (by omega), fun _ => by rw [Option.getD_none]; omega⟩
  | some m =>
    obtain ⟨bad, -, before⟩ := List.find?_range_eq_some.mp h
    refine ⟨fun hm i hi => by simpa using before i (by simp at hm; omega), fun good => ?_⟩
    by_contra hm
    rw [good m (by simpa using hm)] at bad
    exact Bool.noConfusion bad

/-- The tile of a logical position is its own where no tile of the field row up to it is bad, and else the next (R15). -/
theorem Fuses.mapped_iff (f : Fuses) (n p base : Nat) (hb : ((n / 144 / 12 * 12 + n % 144 / 12) * 12 + n / 144 % 12) * 13 = base) :
    p = f.mapped n ↔ ((∀ i, i ≤ n % 12 → f.bad (base + i) = false) → p = base + n % 12) ∧
      ((∃ i, i ≤ n % 12 ∧ f.bad (base + i) = true) → p = base + n % 12 + 1) := by
  have col : n % 144 % 12 = n % 12 := by omega
  have place : f.mapped n = base + if n % 12 < f.firstBad base then n % 12 else n % 12 + 1 := by simp only [Fuses.mapped, col, hb]
  rw [place]
  by_cases good : ∀ i, i ≤ n % 12 → f.bad (base + i) = false
  · have noBad : ¬∃ i, i ≤ n % 12 ∧ f.bad (base + i) = true := by simpa using good
    rw [if_pos ((f.lt_firstBad base (by omega)).mpr good)]
    exact ⟨fun h => ⟨fun _ => h, fun h' => absurd h' noBad⟩, fun h => h.1 good⟩
  · have someBad : ∃ i, i ≤ n % 12 ∧ f.bad (base + i) = true := by simpa using good
    rw [if_neg fun h => good ((f.lt_firstBad base (by omega)).mp h)]
    exact ⟨fun h => ⟨fun h' => absurd h' good, fun _ => h⟩, fun h => h.2 someBad⟩

theorem Fuses.mem_placed (f : Fuses) (n p : Nat) : (n, p) ∈ f.placed ↔ n < 12096 ∧ f.bad p = false ∧ p = f.mapped n := by
  simp only [Fuses.placed, upto, List.mem_filterMap, List.mem_range]
  constructor
  · rintro ⟨m, hm, h⟩
    split at h <;> cases h
    rename_i good
    exact ⟨hm, Bool.eq_false_iff.mpr good, rfl⟩
  · rintro ⟨hn, good, rfl⟩
    exact ⟨n, hn, if_neg (Bool.eq_false_iff.mp good)⟩

/-- Rectangles chosen one after another, up to n more, while a choice remains. -/
def chooseRects (best : List (Nat × Nat × Nat × Nat) → Option (Nat × Nat × Nat × Nat)) :
    Nat → List (Nat × Nat × Nat × Nat) → List (Nat × Nat × Nat × Nat)
  | 0, used => used
  | n + 1, used => match best used with
    | none => used
    | some r => chooseRects best n (used ++ [r])

/-- The module's rectangles are chosen by area. The choice is generalised before the two recursions are compared, since Lean would
otherwise evaluate it. -/
theorem rectsFrom_eq (f : Fuses) (phys : Array (Option Nat)) : rectsFrom f phys = chooseRects (bestRect f phys) := by
  delta rectsFrom rectsFrom._f chooseRects chooseRects._f
  generalize bestRect f phys = best
  rfl

theorem chooseRects_length (best : List (Nat × Nat × Nat × Nat) → Option (Nat × Nat × Nat × Nat)) (n : Nat)
    (used : List (Nat × Nat × Nat × Nat)) : (chooseRects best n used).length ≤ used.length + n := by
  induction n generalizing used with
  | zero => exact Nat.le_refl _
  | succ n ih =>
    rw [chooseRects]
    split
    · omega
    · exact (ih _).trans (by rw [List.length_append, List.length_singleton]; omega)

/-- A module has at most 64 rectangles (R21). -/
theorem Fuses.rects_length (f : Fuses) (phys : AMap Nat) : (f.rects phys).length ≤ 64 := by
  rw [Fuses.rects, rectsFrom_eq]
  exact chooseRects_length ..

/-- LETTER is the first grade whose count and rectangle the module reaches (R392). -/
theorem gradeOf_cases (live : Nat) (r : Nat × Nat × Nat × Nat) :
    (let grade := fun (n h w : Nat) => n ≤ live ∧ w ≤ r.2.2.2 ∧ h ≤ r.2.2.1
     let a := grade 11904 80 144
     let b := grade 11520 72 120
     let c := grade 10752 64 96
     (a → gradeOf live r = 0) ∧ (¬a → b → gradeOf live r = 1) ∧ (¬a → ¬b → c → gradeOf live r = 2) ∧ (¬a → ¬b → ¬c → gradeOf live r = 3)) := by
  intro grade a b c
  refine ⟨fun ha => if_pos ha, fun ha hb => ?_, fun ha hb hc => ?_, fun ha hb hc => ?_⟩
  · exact (if_neg ha).trans (if_pos hb)
  · exact (if_neg ha).trans ((if_neg hb).trans (if_pos hc))
  · exact (if_neg ha).trans ((if_neg hb).trans (if_neg hc))

/-! Bring-up (R409, R411). -/

/-- An image that the boot ROM does not accept (R394). -/
theorem accepts_rejects {f : Fuses} {x : Firmware} (h : x.version < f.secVersion ∨ Config.keyHash x.key ≠ f.rootKey) : accepts f x = false := by
  unfold accepts
  rcases h with h | h <;> simp [h]

/-- No image comes into service where none is offered that the boot ROM accepts. -/
theorem takeImage_rejects {s : State} {o : Option Firmware}
    (h : o = none ∨ ∃ x, o = some x ∧ (x.version < s.fuses.secVersion ∨ Config.keyHash x.key ≠ s.fuses.rootKey)) :
    takeImage s Firmware.blank o = none := by
  rcases h with rfl | ⟨x, rfl, bad⟩
  · rfl
  · simp [takeImage, accepts_rejects bad]

/-- An image in service stays. -/
theorem takeImage_held {s : State} {x : Firmware} (h : x ≠ Firmware.blank) (o : Option Firmware) : takeImage s x o = some (x, s.fuses) := if_pos h

/-- A failure code of recovery mode is none of the stages that pass. -/
theorem recoveryCode_range (s : State) : 0 < recoveryCode s ∧ recoveryCode s < 256 := by unfold recoveryCode; omega

/-- The tile monitor's and the dispatcher's images are in service. -/
def InService (s : State) : Prop := s.monitorImg ≠ Firmware.blank ∧ s.dispatchImg ≠ Firmware.blank

/-- A stage of bring-up that does not stop, with its images in service. -/
def bootStep (b : BootInput) (n : Nat) (s : State) : State :=
  match n with
  | 2 => { s with bootStage := 2, regulators := (upto 13104).map fun p => (p, 450) }
  | 4 => { s with bootStage := 4, hostUp := 3 }
  | 5 => { (bootNaming s b) with bootStage := 5 }
  | 6 => { (bootTiles s) with bootStage := 6 }
  | 7 => { (bootPod s b) with bootStage := 7 }
  | n => { s with bootStage := n }

theorem bootStep_inService (b : BootInput) (n : Nat) {s : State} (h : InService s) : InService (bootStep b n s) := by
  unfold bootStep; split <;> exact h

/-- The stage at which bring-up is to stop. -/
theorem bootFrom_stop {b : BootInput} {n c : Nat} (stop : b.stopAt = some (n, c)) (hc : c % 256 ≠ 0) (fuel : Nat) (s : State) :
    bootFrom b (fuel + 1) n s = { s with bootStage := n, bootFail := c % 256 } := by
  simp [bootFrom, stop, hc]

/-- A stage before it. -/
theorem bootFrom_pass {b : BootInput} {n : Nat} (pass : ∀ c, b.stopAt ≠ some (n, c)) (hn : 2 ≤ n ∧ n < 8) (fuel : Nat) {s : State}
    (serve : InService s) : bootFrom b (fuel + 1) n s = bootFrom b fuel (n + 1) (bootStep b n s) := by
  obtain ⟨monitor, dispatch⟩ := serve
  have stage : n = 2 ∨ n = 3 ∨ n = 4 ∨ n = 5 ∨ n = 6 ∨ n = 7 := by omega
  rcases e : b.stopAt with _ | ⟨k, c⟩
  · rcases stage with rfl | rfl | rfl | rfl | rfl | rfl <;>
      simp [bootFrom, e, bootStep, takeImage, monitor, dispatch]
  · have other : k ≠ n := fun h => pass c (by rw [e, h])
    rcases stage with rfl | rfl | rfl | rfl | rfl | rfl <;>
      simp [bootFrom, e, other, bootStep, takeImage, monitor, dispatch]

/-- Bring-up stops at the first stage that fails. -/
theorem bootFrom_stops {b : BootInput} {m c : Nat} (stop : b.stopAt = some (m, c)) (hc : c % 256 ≠ 0) (hm : m ≤ 8) (fuel n : Nat) {s : State}
    (hn : 2 ≤ n ∧ n ≤ m) (enough : m < n + fuel) (serve : InService s) :
    (bootFrom b fuel n s).bootStage = m ∧ (bootFrom b fuel n s).bootFail = c % 256 := by
  induction fuel generalizing n s with
  | zero => omega
  | succ fuel ih =>
    by_cases e : n = m
    · subst e
      rw [bootFrom_stop stop hc]
      exact ⟨rfl, rfl⟩
    · rw [bootFrom_pass (fun c h => e (by rw [stop] at h; cases h; rfl)) (by omega) fuel serve]
      exact ih (n + 1) (by omega) (by omega) (bootStep_inService b n serve)

/-- The module once every stage has passed. -/
def booted (b : BootInput) (s : State) : State :=
  { bootStep b 7 (bootStep b 6 (bootStep b 5 (bootStep b 4 (bootStep b 3 (bootStep b 2 s))))) with bootStage := 8 }

theorem bootFrom_booted {b : BootInput} (stop : b.stopAt = none) {s : State} (serve : InService s) : bootFrom b 8 2 s = booted b s := by
  have pass (n c : Nat) : b.stopAt ≠ some (n, c) := by rw [stop]; nofun
  have h2 := bootStep_inService b 2 serve
  have h3 := bootStep_inService b 3 h2
  have h4 := bootStep_inService b 4 h3
  have h5 := bootStep_inService b 5 h4
  have h6 := bootStep_inService b 6 h5
  rw [bootFrom_pass (pass 2) (by omega) 7 serve, bootFrom_pass (pass 3) (by omega) 6 h2, bootFrom_pass (pass 4) (by omega) 5 h3,
    bootFrom_pass (pass 5) (by omega) 4 h4, bootFrom_pass (pass 6) (by omega) 3 h5, bootFrom_pass (pass 7) (by omega) 2 h6]
  simp [bootFrom, stop, booted]

/-- Bring-up keeps the power and takes no time. -/
theorem bootFrom_keeps (b : BootInput) (fuel n : Nat) (s : State) :
    (bootFrom b fuel n s).powered = s.powered ∧ (bootFrom b fuel n s).now = s.now := by
  induction fuel generalizing n s with
  | zero => exact ⟨rfl, rfl⟩
  | succ fuel ih =>
    rw [bootFrom]; dsimp only
    split
    · exact ⟨rfl, rfl⟩
    · repeat' split
      all_goals simp [ih, bootNaming, bootTiles, bootPod, toRecovery]

/-! The module once booted. -/

/-- A link port in the state up, with its peer's numbers. -/
def upPort (x : Nat × Nat × Nat) : LinkPort :=
  { LinkPort.init with table := BitVec.ofNat 64 (x.2.1 % 64 * 2 ^ 58 + x.2.2 % 64 * 2 ^ 52 + 2) }

/-- The tile as its monitor begins, its clock set to the module's. -/
def bootTile (s : State) (step : Int) (n : Nat) : Tile :=
  { monitorTile n with count := s.refTime * 2 ^ 16 + step.toNat * 2 ^ 16, edgeAt := s.now }

/-- By how much TIME steps forward to the pod's (R271). -/
def podStep (b : BootInput) (s : State) : Int := if b.root then 0 else max 0 ((b.podTime.toNat : Int) - s.refTime)

/-- What the stages leave (R391, R403, R409 to R411). -/
theorem booted_eq (b : BootInput) (s : State) : booted b s =
    { s with
      bootStage := 8, hostUp := 3, module := b.module % 64, podRoot := b.root, refOff := s.refOff + podStep b s
      fuses := s.fuses.atBoot.selfTests b
      phys := (s.fuses.atBoot.selfTests b).placed
      live := (s.fuses.atBoot.selfTests b).placed.length
      rects := (s.fuses.atBoot.selfTests b).rects (s.fuses.atBoot.selfTests b).placed
      closedRects := []
      letter := gradeOf (s.fuses.atBoot.selfTests b).placed.length
        (nthD ((s.fuses.atBoot.selfTests b).rects (s.fuses.atBoot.selfTests b).placed) 0 (0, 0, 0, 0))
      tiles := (s.fuses.atBoot.selfTests b).placed.map fun x => (x.1, bootTile s (podStep b s) x.1)
      regulators := (upto 13104).map fun p => (p, supplyOf ((s.fuses.atBoot.selfTests b).ceiling p))
      grants := (s.fuses.atBoot.selfTests b).placed.foldl (fun m x => AMap.set m x.2 16) []
      links := (b.portsUp.filter fun x => decide (x.1 < 36)).foldl (fun m x => AMap.set m x.1 (upPort x)) []
      routes := (b.routes.filter fun x => decide (x.1 < 64)).foldl (fun m x => AMap.set m x.1 (x.2 &&& routeMask)) []
      onodes := (booted b s).onodes } := by
  simp only [booted, bootStep, bootPod, bootTiles, bootNaming, upPort, bootTile, podStep, State.refTime, AMap.mapVals, List.map_map,
    Function.comp_def]

theorem booted_fuses (b : BootInput) (s : State) : (booted b s).fuses = s.fuses.atBoot.selfTests b := by rw [booted_eq]
theorem booted_phys (b : BootInput) (s : State) : (booted b s).phys = (booted b s).fuses.placed := by rw [booted_eq]
theorem booted_live (b : BootInput) (s : State) : (booted b s).live = (booted b s).phys.length := by rw [booted_eq]
theorem booted_rects (b : BootInput) (s : State) : (booted b s).rects = (booted b s).fuses.rects (booted b s).phys := by rw [booted_eq]
theorem booted_closedRects (b : BootInput) (s : State) : (booted b s).closedRects = [] := by rw [booted_eq]
theorem booted_letter (b : BootInput) (s : State) :
    (booted b s).letter = gradeOf (booted b s).phys.length (nthD (booted b s).rects 0 (0, 0, 0, 0)) := by rw [booted_eq]
theorem booted_tiles (b : BootInput) (s : State) :
    (booted b s).tiles = (booted b s).phys.map fun x => (x.1, bootTile s (podStep b s) x.1) := by rw [booted_eq]
theorem booted_regulators (b : BootInput) (s : State) :
    (booted b s).regulators = (upto 13104).map fun p => (p, supplyOf ((booted b s).fuses.ceiling p)) := by rw [booted_eq]
theorem booted_grants (b : BootInput) (s : State) : (booted b s).grants = (booted b s).phys.foldl (fun m x => AMap.set m x.2 16) [] := by
  rw [booted_eq]
theorem booted_links (b : BootInput) (s : State) :
    (booted b s).links = (b.portsUp.filter fun x => decide (x.1 < 36)).foldl (fun m x => AMap.set m x.1 (upPort x)) [] := by rw [booted_eq]
theorem booted_routes (b : BootInput) (s : State) :
    (booted b s).routes = (b.routes.filter fun x => decide (x.1 < 64)).foldl (fun m x => AMap.set m x.1 (x.2 &&& routeMask)) [] := by
  rw [booted_eq]
theorem booted_stage (b : BootInput) (s : State) : (booted b s).bootStage = 8 ∧ (booted b s).hostUp = 3 := by rw [booted_eq]; exact ⟨rfl, rfl⟩
theorem booted_pod (b : BootInput) (s : State) : (booted b s).module = b.module % 64 ∧ (booted b s).podRoot = b.root := by
  rw [booted_eq]; exact ⟨rfl, rfl⟩

/-- A store to tile memory neither stops the tile nor touches its slots. -/
theorem Tile.writeTlm_keeps (t : Tile) (a : Nat) (bs : List Byte) : (t.writeTlm a bs).alive = t.alive ∧ (t.writeTlm a bs).slots = t.slots := by
  have stale : (t.keepStale a bs.length).alive = t.alive ∧ (t.keepStale a bs.length).slots = t.slots := by
    unfold Tile.keepStale; split <;> exact ⟨rfl, rfl⟩
  exact stale

/-- A live position's tile as bring-up leaves it: running, no slot loaded, its monitor in context 0. -/
theorem booted_tile {b : BootInput} {s : State} {n p : Nat} (h : (n, p) ∈ (booted b s).phys) :
    ((booted b s).tile n).alive = true ∧ ((booted b s).tile n).slots = [] ∧ (((booted b s).tile n).ctx 0).role = .monitor ∧
      (((booted b s).tile n).ctx 0).mode = .running ∧ (((booted b s).tile n).ctx 0).pcc = ⟨true, Config.monitorPcc n⟩ := by
  have tile : (booted b s).tile n = bootTile s (podStep b s) n := by
    rw [State.tile, booted_tiles]
    exact AMap.getD_of_get? (AMap.get?_map_key (fun x : Nat × Nat => x.1) (bootTile s (podStep b s)) h) _
  have ctx : (bootTile s (podStep b s) n).ctx 0 =
      { Ctx.init with role := .monitor, mode := .running, pcc := ⟨true, Config.monitorPcc n⟩ } := AMap.getD_set_same ..
  obtain ⟨alive, slots⟩ := Tile.init.writeTlm_keeps 0 ((Config.monitorText n).take (2 ^ 22))
  rw [tile, ctx]
  exact ⟨alive, slots, rfl, rfl, rfl⟩

/-- Each live tile begins with the least grant (R410). -/
theorem booted_grant {b : BootInput} {s : State} {n p : Nat} (h : (n, p) ∈ (booted b s).phys) : AMap.getD (booted b s).grants p 0 = 16 := by
  rw [booted_grants]
  obtain ⟨-, -, -, val⟩ := AMap.get?_foldl_set_mem (fun x : Nat × Nat => x.2) (fun _ => 16) ⟨_, h, rfl⟩ []
  exact AMap.getD_of_get? val 0

/-- The supply is 0.45 + 0.2 × CODE / 12 V, rounded up to 5 mV (R409). -/
theorem supplyOf_range (code : Nat) :
    supplyOf code % 5 = 0 ∧ 5400 + 200 * code ≤ 12 * supplyOf code ∧ 12 * supplyOf code < 5460 + 200 * code := by
  unfold supplyOf ceilDiv; omega

theorem booted_regulator (b : BootInput) (s : State) {p : Nat} (hp : p < 13104) :
    AMap.getD (booted b s).regulators p 0 = supplyOf ((booted b s).fuses.ceiling p) := by
  rw [booted_regulators]
  exact AMap.getD_of_get? (AMap.get?_map_key (fun p => p) (fun p => supplyOf ((booted b s).fuses.ceiling p)) (List.mem_range.mpr hp)) 0

/-- A pod's route word, as the pod's configuration gives it (R403). -/
theorem booted_route {b : BootInput} (distinct : (b.routes.map (·.1)).Nodup) (s : State) {x : Nat × Word} (hx : x ∈ b.routes) (low : x.1 < 64) :
    AMap.getD (booted b s).routes x.1 0 = x.2 &&& 0x3F00000FFFFFFFFF := by
  rw [booted_routes]
  obtain ⟨y, hy, key, val⟩ := AMap.get?_foldl_set_mem (fun x : Nat × Word => x.1) (fun x => x.2 &&& routeMask)
    (l := b.routes.filter fun x => decide (x.1 < 64)) ⟨x, List.mem_filter.mpr ⟨hx, decide_eq_true low⟩, rfl⟩ []
  have same : y = x := List.inj_on_of_nodup_map distinct (List.mem_of_mem_filter hy) hx key
  rw [← same]
  exact AMap.getD_of_get? (same ▸ val) 0

theorem upPort_state (x : Nat × Nat × Nat) : (upPort x).table.toNat % 4 = 2 := by
  simp only [upPort, BitVec.toNat_ofNat]
  omega

/-- The link ports that come up are in the state up, and the others down (R403). -/
theorem booted_link (b : BootInput) (s : State) (p : Nat) :
    ((booted b s).link p).table.toNat % 4 = if p < 36 ∧ (b.portsUp.any fun x => x.1 == p) = true then 2 else 0 := by
  rw [State.link, booted_links]
  split
  · rename_i h
    obtain ⟨x, hx, key⟩ := List.any_eq_true.mp h.2
    obtain ⟨y, -, -, val⟩ := AMap.get?_foldl_set_mem (fun x : Nat × Nat × Nat => x.1) upPort
      (l := b.portsUp.filter fun x => decide (x.1 < 36))
      ⟨x, List.mem_filter.mpr ⟨hx, decide_eq_true (beq_iff_eq.mp key ▸ h.1)⟩, beq_iff_eq.mp key⟩ []
    rw [AMap.getD_of_get? val, upPort_state]
  · rename_i h
    have down := AMap.get?_foldl_set_other (fun x : Nat × Nat × Nat => x.1) upPort (j := p) (l := b.portsUp.filter fun x => decide (x.1 < 36))
      (fun x hx key => h (by
        rw [List.mem_filter, decide_eq_true_iff] at hx
        exact ⟨key ▸ hx.2, List.any_eq_true.mpr ⟨x, hx.1, beq_iff_eq.mpr key⟩⟩)) []
    rw [AMap.getD, down]
    rfl

/-- The module's reference after bring-up: the root's goes on, and another's steps forward to the pod's time (R271). -/
theorem booted_refTime (b : BootInput) (s : State) :
    (b.root = true → (booted b s).refTime = s.refTime) ∧
      (b.root = false → (s.refTime : Int) = s.now + s.refOff + slewed s.refErr (s.now - s.refFrom) →
        (booted b s).refTime = max s.refTime b.podTime.toNat) := by
  have time : (booted b s).refTime = ((s.now : Int) + (s.refOff + podStep b s) + slewed s.refErr (s.now - s.refFrom)).toNat := by
    rw [booted_eq]; simp only [State.refTime]
  rw [time]
  refine ⟨fun root => ?_, fun other unclipped => ?_⟩
  · simp [podStep, root, State.refTime]
  · simp only [podStep, other, Bool.false_eq_true, if_false]
    omega

/-- The module as bring-up begins, its Delsis image in service. -/
def bootStart (s : State) : State := { s with powered := true, bootStage := 1 }

/-- A module that is off, or that a recovery image has sent back, begins bring-up. -/
theorem powerOn_starts {s : State} (off : s.powered = false ∨ s.bootStage = 0) : ¬(s.powered = true ∧ s.bootStage ≠ 0) := fun ⟨on, stage⟩ =>
  off.elim (fun h => Bool.false_ne_true (h.symm.trans on)) stage

/-- Bring-up without an image that the boot ROM accepts (R394, R411). -/
theorem execPowerOn_recovery {b : BootInput} {s : State} (off : s.powered = false ∨ s.bootStage = 0)
    (h : takeImage { s with powered := true } s.delsisImg b.images[0]? = none) :
    execPowerOn b s = .next (toRecovery { s with powered := true }) := by
  rw [execPowerOn, if_neg (powerOn_starts off)]
  simp only [h]

/-- Bring-up from an image that comes into service. -/
theorem execPowerOn_stages {b : BootInput} {s : State} (off : s.powered = false ∨ s.bootStage = 0) {d : Firmware} {f : Fuses}
    (h : takeImage { s with powered := true } s.delsisImg b.images[0]? = some (d, f)) :
    execPowerOn b s = .next (bootFrom b 8 2 { bootStart s with delsisImg := d, fuses := f }) := by
  rw [execPowerOn, if_neg (powerOn_starts off)]
  simp only [h, bootStart]

/-- With every image in service, the stages run from the fuses as they are. -/
theorem execPowerOn_inService {b : BootInput} {s : State} (off : s.powered = false ∨ s.bootStage = 0) (delsis : s.delsisImg ≠ Firmware.blank) :
    execPowerOn b s = .next (bootFrom b 8 2 (bootStart s)) := execPowerOn_stages off (takeImage_held delsis _)

/-- Bring-up switches the power on, takes no time and leaves memory. -/
theorem execPowerOn_keeps {b : BootInput} {s : State} (off : s.powered = false ∨ s.bootStage = 0) :
    ∃ t, execPowerOn b s = .next t ∧ t.powered = true ∧ t.now = s.now ∧ s.sameGmem t := by
  cases h : takeImage { s with powered := true } s.delsisImg b.images[0]? with
  | none => exact ⟨_, execPowerOn_recovery off h, rfl, rfl, fun _ => rfl⟩
  | some x =>
    obtain ⟨powered, now⟩ := bootFrom_keeps b 8 2 { bootStart s with delsisImg := x.1, fuses := x.2 }
    exact ⟨_, execPowerOn_stages off h, powered, now, fun a => by rw [bootFrom_gmem]; rfl⟩

/-! Power loss (R389, R409). -/

/-- The bytes of a memory that are kept read as before, and the others as blank. -/
theorem Memory.read_filter (m : Memory) (keep : Nat → Bool) (a : Nat) :
    Memory.read (m.filter fun c => keep c.1) a = if keep a then Memory.read m a else Memory.blank := by
  rw [Memory.read, AMap.getD, AMap.get?_filter_key]
  split <;> rfl

/-- Power loss resets the module but for its fuses and the memories beside it; between two fuses, the first retirement due has blown one. -/
theorem execPowerLoss_next (between : Bool) (s : State) : ∃ t, execPowerLoss between s = .next t ∧ t.powered = false ∧ t.bootStage = 0 ∧
    t.tiles = [] ∧ t.res = [] ∧ (between = false ∨ s.retireDue = [] → t.fuses = s.fuses) ∧
    (∀ x rest, between = true → s.retireDue = x :: rest → t.fuses = s.fuses.blowFirst x) ∧
    t.gmem = s.gmem.filter fun c => !(c.1 / 2 ^ 44 % 4 == 0 && c.1 / 2 ^ 46 == s.module) := by
  refine ⟨_, rfl, rfl, rfl, rfl, rfl, fun whole => ?_, fun x rest cut due => ?_, rfl⟩
  · cases between
    · rfl
    · simp only [whole.resolve_left nofun]
  · subst cut
    simp only [due]

/-- Each of the two leaves the counter. -/
theorem powerLoss_gcount {between : Bool} {s t : State} (whole : between = false ∨ s.retireDue = [] → t.fuses = s.fuses)
    (cut : ∀ x rest, between = true → s.retireDue = x :: rest → t.fuses = s.fuses.blowFirst x) : t.fuses.gcount = s.fuses.gcount := by
  cases between with
  | false => rw [whole (.inl rfl)]
  | true => cases due : s.retireDue with
    | nil => rw [whole (.inr due)]
    | cons x rest => rw [cut x rest rfl due, Fuses.blowFirst_gcount]

/-! Droops (R409). -/

theorem drooping_iff (s : State) (p : Nat) : drooping s p = true ↔ ∃ k, s.logical p = some k ∧ (s.tile k).drooped = true := by
  unfold drooping
  cases s.logical p <;> simp

/-- One more droop stop of a tile. -/
def countDroop (s : State) (p : Nat) : State := { s with droops := AMap.set s.droops p (sat32 (AMap.getD s.droops p 0 + 1)) }

theorem countDroop_getD (s : State) (p q : Nat) :
    AMap.getD (countDroop s p).droops q 0 = if q = p then min (AMap.getD s.droops p 0 + 1) 0xFFFFFFFF else AMap.getD s.droops q 0 := by
  rw [countDroop, AMap.getD, AMap.get?_set, sat32_succ]
  split <;> rfl

/-- A droop at a tile that is not in service is counted. -/
theorem execDroopStop_unplaced {s : State} {p : Nat} (hp : p < 13104) (unplaced : s.logical p = none) :
    execDroopStop p s = .next (countDroop s p) := by
  have run : drooping s p = false := by rw [drooping, unplaced]
  rw [execDroopStop, if_neg (by rw [run]; simp; omega)]
  simp only [unplaced, countDroop]

/-- One that runs also stops. -/
theorem execDroopStop_placed {s : State} {p k : Nat} (hp : p < 13104) (place : s.logical p = some k) (run : drooping s p = false) :
    execDroopStop p s = .next ((countDroop s p).updTile k fun t => { t with drooped := true }) := by
  rw [execDroopStop, if_neg (by rw [run]; simp; omega)]
  simp only [place, countDroop]

theorem execDroopRecovery_unplaced {s : State} {p : Nat} (unplaced : s.logical p = none) : execDroopRecovery p s = .next s := by
  rw [execDroopRecovery, unplaced]

theorem execDroopRecovery_placed {s : State} {p k : Nat} (place : s.logical p = some k) :
    execDroopRecovery p s = .next (s.updTile k fun t => { t with drooped := false }) := by
  rw [execDroopRecovery, place]

/-! The Cox (R410). -/

/-- The part of a rest that each of several demands gets; together they get no more than the rest. -/
theorem sum_parts_le (xs : List Nat) (rest total : Nat) : (xs.map fun x => x * rest / total).sum * total ≤ xs.sum * rest := by
  induction xs with
  | nil => simp
  | cons x xs ih =>
    rw [List.map_cons, List.sum_cons, List.sum_cons, Nat.add_mul, Nat.add_mul]
    exact Nat.add_le_add (Nat.div_mul_le_self ..) ih

/-- A demand is the least grant and what is demanded above it. -/
theorem sum_demands (ds : List Nat) : (ds.map (max 16)).sum = 16 * ds.length + (ds.map (· - 16)).sum := by
  induction ds with
  | nil => rfl
  | cons d ds ih => simp only [List.map_cons, List.sum_cons, List.length_cons, ih]; omega

/-- The grants of all demands lie within the budget, where the least grants do. -/
theorem sum_grants_le (ds : List Nat) (least : 16 * ds.length ≤ coxBudget) :
    (ds.map (grantFor ds.length (ds.map (max 16)).sum)).sum ≤ coxBudget := by
  generalize total_eq : (ds.map (max 16)).sum = total
  by_cases full : total ≤ coxBudget
  · refine (List.sum_le_sum (g := max 16) fun d _ => ?_).trans (total_eq ▸ full)
    rw [grantFor, if_pos full]
    exact Nat.min_le_right ..
  · have above : (ds.map (· - 16)).sum = total - 16 * ds.length := by rw [← total_eq, sum_demands]; omega
    have parts := sum_parts_le (ds.map (· - 16)) (coxBudget - 16 * ds.length) (total - 16 * ds.length)
    rw [above, Nat.mul_comm, List.map_map] at parts
    have shares := Nat.le_of_mul_le_mul_left parts (by omega)
    calc (ds.map (grantFor ds.length total)).sum
        ≤ (ds.map fun d => 16 + (d - 16) * (coxBudget - 16 * ds.length) / (total - 16 * ds.length)).sum :=
          List.sum_le_sum fun d _ => by rw [grantFor, if_neg full]; exact Nat.min_le_right ..
      _ = 16 * ds.length + (ds.map fun d => (d - 16) * (coxBudget - 16 * ds.length) / (total - 16 * ds.length)).sum := by
          rw [List.sum_map_add, List.map_const', List.sum_replicate, smul_eq_mul, Nat.mul_comm]
      _ ≤ 16 * ds.length + (coxBudget - 16 * ds.length) := Nat.add_le_add_left shares _
      _ = coxBudget := Nat.add_sub_cancel' least

/-- The total that the Cox adds up. -/
theorem foldl_demands (ds : List (Nat × Nat)) : ds.foldl (fun n x => n + max 16 x.2) 0 = ((ds.map (·.2)).map (max 16)).sum := by
  rw [List.sum_eq_foldl, List.foldl_map, List.foldl_map]

/-- The sum of the live tiles' demands, each at least 16. -/
def coxTotal (s : State) : Nat := (s.phys.map fun x => max 16 (Config.demand s.steps x.2)).sum

/-- The grant of a live tile. -/
def coxGrant (s : State) (p : Nat) : Nat := grantFor s.phys.length (coxTotal s) (Config.demand s.steps p)

/-- The grants after an epoch: those of the live tiles are new. -/
def coxGrants (s : State) : AMap Nat := s.phys.foldl (fun m x => AMap.set m x.2 (coxGrant s x.2)) s.grants

theorem execCoxEpoch_due {s : State} (due : s.lastEpoch + 4000 ≤ s.now) :
    execCoxEpoch s = .next { s with lastEpoch := s.lastEpoch + 4000, grants := coxGrants s } := by
  have total : (s.phys.map fun x => (x.2, Config.demand s.steps x.2)).foldl (fun n x => n + max 16 x.2) 0 = coxTotal s := by
    rw [foldl_demands, List.map_map, List.map_map]; rfl
  rw [execCoxEpoch, if_neg (Nat.not_lt.mpr due)]
  simp only [total, List.length_map, List.foldl_map]
  rfl

/-- Each live tile's grant is replaced, and no other (R410). -/
theorem coxGrants_getD (s : State) (p : Nat) :
    AMap.getD (coxGrants s) p 0 = if (s.phys.any fun x => x.2 == p) = true then coxGrant s p else AMap.getD s.grants p 0 := by
  unfold coxGrants
  split
  · rename_i h
    obtain ⟨x, hx, key⟩ := List.any_eq_true.mp h
    obtain ⟨y, -, same, val⟩ := AMap.get?_foldl_set_mem (fun x : Nat × Nat => x.2) (fun x => coxGrant s x.2)
      ⟨x, hx, beq_iff_eq.mp key⟩ s.grants
    exact AMap.getD_of_get? (same ▸ val) 0
  · rename_i h
    rw [AMap.getD, AMap.get?_foldl_set_other (fun x : Nat × Nat => x.2) (fun x => coxGrant s x.2)
      fun x hx key => h (List.any_eq_true.mpr ⟨x, hx, beq_iff_eq.mpr key⟩), AMap.getD]

/-- All grants of live tiles lie within the budget (R410). -/
theorem coxGrants_sum {s : State} (least : 16 * s.phys.length ≤ coxBudget) :
    (s.phys.map fun x => AMap.getD (coxGrants s) x.2 0).sum ≤ coxBudget := by
  have grants : (s.phys.map fun x => AMap.getD (coxGrants s) x.2 0) = s.phys.map fun x => coxGrant s x.2 :=
    List.map_congr_left fun x hx => by
      rw [coxGrants_getD, if_pos (List.any_eq_true.mpr ⟨x, hx, beq_self_eq_true x.2⟩)]
  have bound := sum_grants_le (s.phys.map fun x => Config.demand s.steps x.2) (by rwa [List.length_map])
  rw [List.length_map, List.map_map, List.map_map] at bound
  rw [grants]
  exact bound

/-! The events. -/

/-- Every event of power and retirement answers a next state. -/
theorem powerEvent_next (b : BootInput) (x : RetireTarget) (n : Nat) (y : Bool) (s : State) :
    ∀ i ∈ [Instr.powerOn b, .tileRetirement x, .hostRetire x, .linkStopsAnswering n, .powerLoss y, .droopStop n, .droopRecovery n, .coxEpoch],
      ∃ t, exec i s = .next t := by
  have on : ∃ t, execPowerOn b s = .next t := by
    unfold execPowerOn; split
    · exact ⟨_, rfl⟩
    · dsimp only; split <;> exact ⟨_, rfl⟩
  have stop : ∃ t, execDroopStop n s = .next t := by unfold execDroopStop; split <;> exact ⟨_, rfl⟩
  have epoch : ∃ t, execCoxEpoch s = .next t := by unfold execCoxEpoch; split <;> exact ⟨_, rfl⟩
  simp only [List.forall_mem_cons, List.not_mem_nil, false_imp_iff, implies_true, and_true]
  exact ⟨on, ⟨_, rfl⟩, ⟨_, rfl⟩, ⟨_, rfl⟩, ⟨_, rfl⟩, stop, ⟨_, rfl⟩, epoch⟩

/-- Settles O60, clause by clause: bring-up from its stages, retirement from the fuses it blows and the tile it stops, power loss, droops,
and the Cox's epoch. -/
theorem powerAndRetirement : Obligations.PowerAndRetirement := by
  unfold Obligations.PowerAndRetirement
  refine ⟨powerEvent_next, fun b s => ⟨fun on stage => if_pos ⟨on, stage⟩, fun off => ?boot⟩, fun x s => ?retire, fun between s => ?loss,
    fun p s => ?droop, fun s => ⟨fun early => if_pos early, fun due => ?cox⟩⟩
  case boot =>
    obtain ⟨t, run, powered, now, gmem⟩ := execPowerOn_keeps (b := b) off
    refine ⟨t, run, powered, now, gmem, fun blank bad => ?_, fun delsis monitor dispatch => ⟨fun n c stop hn hn' hc => ?_, fun through => ?_⟩⟩
    · have reject := takeImage_rejects (s := { s with powered := true }) bad
      rw [← blank] at reject
      obtain rfl := Host.Outcome.next.inj ((execPowerOn_recovery off reject).symm.trans run)
      exact ⟨rfl, (recoveryCode_range _).1, (recoveryCode_range _).2, rfl⟩
    · obtain rfl := Host.Outcome.next.inj ((execPowerOn_inService off delsis).symm.trans run)
      exact bootFrom_stops stop hc hn' 8 2 ⟨by omega, hn⟩ (by omega) ⟨monitor, dispatch⟩
    · have stages := execPowerOn_inService (b := b) off delsis
      rw [bootFrom_booted through (s := bootStart s) ⟨monitor, dispatch⟩] at stages
      obtain rfl := Host.Outcome.next.inj (stages.symm.trans run)
      have fuses : (booted b (bootStart s)).fuses = s.fuses.atBoot.selfTests b := booted_fuses ..
      intro r grade a b1 c
      have grades := gradeOf_cases (booted b (bootStart s)).phys.length r
      rw [← booted_letter] at grades
      obtain ⟨ga, gb, gc, gd⟩ := grades
      obtain ⟨root, pod⟩ := booted_refTime b (bootStart s)
      refine ⟨(booted_stage ..).1, (booted_stage ..).2, fuses, fun p bad => ?_, fun p fails hp good => ?_, fun distinct x hx low => ?_,
        fun n p => ?_, booted_live .., ?_, booted_closedRects .., ga, gb, gc, gd, fun n p hp => ⟨booted_grant hp, booted_tile hp⟩,
        fun p hp => ?_, (booted_pod ..).1, (booted_pod ..).2, booted_link b _, root, pod⟩
      · rw [fuses]; exact (Fuses.selfTests_keeps _ b).bad bad
      · rw [fuses]; exact Fuses.selfTests_router _ b fails hp good
      · exact booted_route distinct _ hx low
      · rw [booted_phys, Fuses.mem_placed, Fuses.mapped_iff _ n p _ rfl]
      · rw [booted_rects]; exact Fuses.rects_length ..
      · rw [booted_regulator b _ hp]; exact supplyOf_range _
  case retire =>
    intro due done
    have retires (i : Instr) (run : exec i s = .next (retireNow s x)) : done i := by
      obtain ⟨fuses, retireDue⟩ := retireNow_fuses s x
      obtain ⟨n, blows⟩ := s.fuses.retire_blows x
      refine ⟨_, run, fun _ => ?_, fun y hy other => ?_, ?_, ?_, ?_⟩
      · rw [retireDue, List.mem_filter]; simp
      · rw [retireDue, List.mem_filter]; exact ⟨hy, bne_iff_ne.mpr other⟩
      · rw [fuses]
        intro f g blown
        refine ⟨blows.tiles, blows.links, blows.lowered, blows.defects, blows.linkDefect, blows.secVersion, ?_, ?_⟩
        · rintro l rfl
          exact f.retire_link l
        · rintro p router rfl hp
          exact f.retire_tile hp router
      · rintro p router rfl unplaced h
        exact retireNow_tiles unplaced h
      · rintro p router k rfl place
        obtain ⟨closed, res, tile⟩ := retireNow_placed router place
        obtain ⟨dead, masked⟩ := maskTile_tile s k
        refine ⟨(tile k).1.trans dead, by rw [(tile k).2]; exact masked, fun g v groups release q => ?_, fun i hi has first => ?_⟩
        · rw [(tile q).2, maskTile_one groups release]
        · obtain ⟨shut, lost⟩ := killTile_rect hi has first
          refine ⟨by rw [closed]; exact shut, fun h g live region rect => ?_⟩
          have : (retireNow s (.tile p router)).resOf h = (s.resOf h).lost := by rw [State.resOf, res]; exact lost h g live region rect
          rw [this]
          exact ⟨rfl, rfl, rfl, region⟩
    refine ⟨fun d => retires _ (execTileRetirement_due d), execTileRetirement_idle, fun on => retires _ (congrArg _ (if_pos on)),
      fun off => congrArg _ (if_neg (by rw [off]; exact Bool.false_ne_true)),
      fun n link => ⟨fun use => retires _ ?_, fun bad => congrArg _ (if_pos bad)⟩⟩
    rw [link]
    exact congrArg _ (if_neg (by rw [use]; exact Bool.false_ne_true))
  case loss =>
    obtain ⟨t, run, powered, stage, tiles, res, whole, cut, gmem⟩ := execPowerLoss_next between s
    refine ⟨t, run, powered, stage, tiles, res, powerLoss_gcount whole cut, whole, fun p r rest on due hp => ?_, fun l rest on due mesh => ?_,
      fun a => ?_⟩
    · exact (cut _ _ on due).trans (if_pos hp)
    · exact (cut _ _ on due).trans (if_neg (by rw [mesh]; exact Bool.false_ne_true))
    · intro mine
      rw [gmem, Memory.read_filter _ fun a => !(a / 2 ^ 44 % 4 == 0 && a / 2 ^ 46 == s.module)]
      have own : (a / 2 ^ 44 % 4 == 0 && a / 2 ^ 46 == s.module) = true ↔ mine := by rw [Bool.and_eq_true, beq_iff_eq, beq_iff_eq]
      exact ⟨fun h => if_neg (by rw [own.mpr h]; exact Bool.false_ne_true), fun h => if_pos (by rw [Bool.eq_false_iff.mpr (h ∘ own.mp)]; rfl)⟩
  case droop =>
    intro stopped
    have stands : drooping s p = true ↔ stopped := drooping_iff s p
    refine ⟨fun h => ?_, fun hp run => ?_, fun unplaced => ?_, fun k place => ?_⟩
    · exact if_pos (h.imp_right stands.mpr)
    · cases place : s.logical p with
      | none => exact ⟨_, execDroopStop_unplaced hp place, rfl, countDroop_getD s p, fun _ => rfl, nofun⟩
      | some k =>
        refine ⟨_, execDroopStop_placed hp place (Bool.eq_false_iff.mpr (run ∘ stands.mp)), rfl, countDroop_getD s p, nofun, ?_⟩
        rintro _ q ⟨⟩
        exact State.tile_updTile_apply ..
    · exact execDroopRecovery_unplaced unplaced
    · exact ⟨_, execDroopRecovery_placed place, rfl, State.tile_updTile_apply s k _⟩
  case cox =>
    refine ⟨_, execCoxEpoch_due due, rfl, ?_⟩
    intro asked n total
    exact ⟨coxGrants_sum, coxGrants_getD s⟩

end Sys2Proof.Machine
end

section
/-!
O25, the status of a port (10 R250, 02 R39): the least room of a port's branches, and the fields of its status word.
-/

namespace Sys2Proof.Machine

/-! Guards. -/

theorem isPrimary_chanWho {s : State} (who : isPrimary s = true) (p : Nat) : chanWho s p = .ok () := by simp [chanWho, who]

theorem chanPort_ok {s : State} {p : Nat} {output : Bool} (declared : (s.here.port p).declared = true)
    (way : (s.here.port p).output = output) (actor : (s.here.port p).actor = s.me.actor) (unbound : (s.here.port p).stream = none)
    (active : (s.here.port p).count ≠ 0) : chanPort s p output = .ok (s.here.port p) := by
  simp [chanPort, declared, way, actor, unbound, active]

/-! Room (R39). -/

theorem foldl_min_eq {l : List Nat} {r n : Nat} (low : ∀ q ∈ l, r ≤ q) (hn : r ≤ n) (has : r = n ∨ r ∈ l) : l.foldl min n = r := by
  induction l generalizing n with
  | nil => simpa [eq_comm] using has
  | cons q l ih =>
    have hq : r ≤ q := low q List.mem_cons_self
    refine ih (fun x hx => low x (List.mem_cons_of_mem _ hx)) (Nat.le_min.mpr ⟨hn, hq⟩) ?_
    rcases has with rfl | has
    · exact .inl (Nat.min_eq_left hq).symm
    · exact (List.mem_cons.mp has).imp_left fun e => by subst e; exact (Nat.min_eq_right hn).symm

theorem minRoom_eq {l : List Nat} {r : Nat} (has : r ∈ l) (low : ∀ q ∈ l, r ≤ q) (top : r ≤ 256) : minRoom l = r :=
  foldl_min_eq low top (.inr has)

/-- The rooms that an output has: its credits where it is ordered, else those of its channel's branches (R39, R274). -/
def State.RoomsOf (s : State) (x : Port) (rooms : List Nat) : Prop :=
  (x.ordered = true ∧ rooms = x.credits) ∨
    (x.ordered = false ∧ ∃ id c, x.chan = some id ∧ s.chan? id = some c ∧ rooms = c.branches.map (·.room))

theorem State.RoomsOf.portRoom {s : State} {k p : Nat} {rooms : List Nat} (h : s.RoomsOf ((s.tile k).port p) rooms) :
    s.portRoom k p = minRoom rooms := by
  unfold State.portRoom
  rcases h with ⟨ordered, rfl⟩ | ⟨plain, id, c, chan, at_, rfl⟩
  · simp [ordered]
  · simp [plain, chan, at_, Chan.room]

/-! The queue (R250). -/

theorem Port.presentFrom_eq {x : Port} {fuel n avail : Nat} (le : avail ≤ fuel)
    (present : ∀ j, j < avail → (AMap.get? x.q (n + j)).isSome = true) (gap : avail < fuel → AMap.get? x.q (n + avail) = none) :
    x.presentFrom fuel n = avail := by
  induction fuel generalizing n avail with
  | zero => rw [Nat.le_zero.mp le]; rfl
  | succ fuel ih =>
    cases avail with
    | zero => rw [Port.presentFrom, show AMap.get? x.q n = none from gap (Nat.succ_pos _)]
    | succ avail =>
      obtain ⟨y, hy⟩ := Option.isSome_iff_exists.mp (present 0 (Nat.succ_pos _))
      rw [Port.presentFrom, show AMap.get? x.q n = some y from hy, ih (Nat.le_of_succ_le_succ le), Nat.add_comm]
      · exact fun j hj => by rw [Nat.add_assoc, Nat.add_comm 1]; exact present (j + 1) (Nat.succ_lt_succ hj)
      · exact fun hlt => by rw [Nat.add_assoc, Nat.add_comm 1]; exact gap (Nat.succ_lt_succ hlt)

/-- An EOS stands among the first k positions, with no gap before it. -/
theorem Port.eosAmong_iff (x : Port) (k n : Nat) : x.eosAmong k n = true ↔
    ∃ j z, j < k ∧ (∀ m, m < j → (AMap.get? x.q (n + m)).isSome = true) ∧ AMap.get? x.q (n + j) = some z ∧ z.kind = .eos := by
  induction k generalizing n with
  | zero => simp [Port.eosAmong]
  | succ k ih =>
    cases head : AMap.get? x.q n with
    | none =>
      simp only [Port.eosAmong, head, Bool.false_eq_true, false_iff]
      rintro ⟨j, z, -, before, at_, -⟩
      cases j with
      | zero => simp [head] at at_
      | succ j => simpa [head] using before 0 (Nat.succ_pos _)
    | some y =>
      have step : ∀ j, n + 1 + j = n + (j + 1) := by omega
      simp only [Port.eosAmong, head, Bool.or_eq_true, decide_eq_true_eq, ih, step]
      constructor
      · rintro (eos | ⟨j, z, hj, before, at_, eos⟩)
        · exact ⟨0, y, Nat.succ_pos _, nofun, head, eos⟩
        · refine ⟨j + 1, z, Nat.succ_lt_succ hj, fun m hm => ?_, at_, eos⟩
          cases m with
          | zero => simp [head]
          | succ m => exact before m (Nat.lt_of_succ_lt_succ hm)
      · rintro ⟨j, z, hj, before, at_, eos⟩
        cases j with
        | zero => exact .inl (by rw [Nat.add_zero, head] at at_; cases at_; exact eos)
        | succ j => exact .inr ⟨j, z, Nat.lt_of_succ_lt_succ hj, fun m hm => before (m + 1) (Nat.succ_lt_succ hm), at_, eos⟩

/-! The status word. -/

theorem toNat_append_eq {m n : Nat} (x : BitVec m) (y : BitVec n) : (x ++ y).toNat = x.toNat * 2 ^ n + y.toNat := by
  rw [BitVec.toNat_append, ← Nat.shiftLeft_add_eq_or_of_lt y.isLt, Nat.shiftLeft_eq]

theorem toNat_ite_bit (b : Bool) : (if b then 1#1 else 0#1).toNat = if b then 1 else 0 := by cases b <;> rfl

theorem chstWord_output {s : State} {p r : Nat} (output : (s.here.port p).output = true) (room : s.portRoom s.cur.tile p = r) :
    chstWord s p = BitVec.ofNat 64 (2 ^ 24 + doneOf s.me p % 16 * 2 ^ 20 + (s.here.port p).count % 16 * 2 ^ 16 + min 255 r * 2 ^ 8 +
      if (s.here.port p).closed then 2 ^ 4 else 0) := by
  apply BitVec.eq_of_toNat_eq
  simp only [chstWord, output, if_true, room, toNat_append_eq, BitVec.toNat_ofNat, toNat_ite_bit]
  split <;> omega

theorem chstWord_inert {s : State} {p : Nat} (input : (s.here.port p).output = false) (inert : (s.here.port p).count = 0) :
    chstWord s p = 0 := by
  simp [chstWord, input, inert]

/-- The fields that every input in use has: DONEC, DECL and AVAIL. -/
def chstCommon (s : State) (p avail : Nat) : Nat :=
  doneOf s.me p % 16 * 2 ^ 20 + (s.here.port p).count % 16 * 2 ^ 16 + min 255 avail * 2 ^ 8

section
variable {s : State} {p avail : Nat} (input : (s.here.port p).output = false) (active : (s.here.port p).count ≠ 0)
  (present : (s.here.port p).presentFrom (s.here.port p).depth ((s.here.port p).headAfter (doneOf s.me p)) = avail)
include input active present

theorem chstWord_empty (head : AMap.get? (s.here.port p).q ((s.here.port p).headAfter (doneOf s.me p)) = none) :
    chstWord s p = BitVec.ofNat 64 (chstCommon s p avail) := by
  have none_eos : (s.here.port p).eosAmong (s.here.port p).count ((s.here.port p).headAfter (doneOf s.me p)) = false := by
    obtain ⟨k, hk⟩ := Nat.exists_eq_succ_of_ne_zero active
    rw [hk, Port.eosAmong, head]
  apply BitVec.eq_of_toNat_eq
  simp only [chstWord, input, active, Bool.false_eq_true, if_false, none_eos, head, present, Option.isSome_none, BitVec.toNat_ofNat, chstCommon]
  refine (toNat_append_eq (m := 40 + 4 + 4 + 8 + 3 + 1 + 1) (n := 3) _ _).trans ?_
  simp only [toNat_append_eq, BitVec.toNat_ofNat]
  omega

theorem chstWord_head {y : QSlot} (head : AMap.get? (s.here.port p).q ((s.here.port p).headAfter (doneOf s.me p)) = some y) {e : Bool}
    (eos : (s.here.port p).eosAmong (s.here.port p).count ((s.here.port p).headAfter (doneOf s.me p)) = e) :
    chstWord s p = BitVec.ofNat 64 (chstCommon s p avail + (if e then 2 ^ 4 else 0) + 2 ^ 3 + y.kind.code.toNat) := by
  have kind := y.kind.code.isLt
  apply BitVec.eq_of_toNat_eq
  simp only [chstWord, input, active, Bool.false_eq_true, if_false, eos, head, present, Option.isSome_some, if_true, BitVec.toNat_ofNat, chstCommon]
  refine (toNat_append_eq (m := 40 + 4 + 4 + 8 + 3 + 1 + 1) (n := 3) _ _).trans ?_
  simp only [toNat_append_eq, BitVec.toNat_ofNat, toNat_ite_bit]
  split <;> omega

end

/-! The instructions. -/

theorem writesInt_of_exec {i : Instr} {s : State} {len : Nat} {d : BitVec 6} {v : Word}
    (run : exec i s = .next ((s.setMe (s.me.writeInt d v)).complete len)) : WritesInt i s len d v :=
  ⟨_, run, writesK_complete s len d _⟩

theorem room_writes {f : K3} {s : State} (ready : s.kReady [f.d] [] [f.d]) (who : isPrimary s = true)
    (out : chanPort s f.b.toNat true = .ok (s.here.port f.b.toNat)) :
    WritesInt (.room f) s 4 f.d (BitVec.ofNat 64 (s.portRoom s.cur.tile f.b.toNat)) := by
  refine writesInt_of_exec ?_
  change execRoom f s = _
  simp only [execRoom, guardK_ready ready, isPrimary_chanWho who, pnum, out]
  rfl

theorem chst_writes {f : K3} {s : State} (ready : s.kReady [f.d] [] [f.d]) (who : isPrimary s = true)
    (declared : (s.here.port f.b.toNat).declared = true) (actor : (s.here.port f.b.toNat).actor = s.me.actor)
    (unbound : (s.here.port f.b.toNat).stream = none) {w : Word} (word : chstWord s f.b.toNat = w) : WritesInt (.chst f) s 4 f.d w := by
  subst word
  refine writesInt_of_exec ?_
  change execChst f s = _
  simp only [execChst, guardK_ready ready, isPrimary_chanWho who, pnum, declared, actor, unbound]
  simp [Bind.bind, Except.bind, finishTry, pure, Except.pure, State.writeInt]

/-- Settles O25: ROOM reads the least room, and CHST a word whose fields are read off the port and its queue. -/
theorem portStatus : Obligations.PortStatus := by
  unfold Obligations.PortStatus
  intro f s ready who p x declared actor unbound
  have chst {w : Word} : chstWord s f.b.toNat = w → WritesInt (.chst f) s 4 f.d w := chst_writes ready who declared actor unbound
  refine ⟨fun rooms r output of has low top => ?_, fun input inert => chst (chstWord_inert input inert),
    fun input active => ?_⟩
  · have room : s.portRoom s.cur.tile p = r := (State.RoomsOf.portRoom of).trans (minRoom_eq has low top)
    refine ⟨fun active => ?_, chst (chstWord_output output room)⟩
    rw [← room]
    exact room_writes ready who (chanPort_ok declared output actor unbound active)
  · intro h avail le present gap common
    have count := Port.presentFrom_eq le present gap
    exact ⟨fun head => chst (chstWord_empty input active count head),
      fun y head e eos => chst (chstWord_head input active count head (Bool.eq_iff_iff.mpr ((Port.eosAmong_iff ..).trans eos.symm)))⟩

end Sys2Proof.Machine
end

section
/-!
What an instruction leaves when it completes (02 R65, 05 R143, R145), and what a read of tile memory and its check find and leave (R147,
R152, R381).
-/

namespace Sys2Proof.Machine

/-! Where a context goes on depends on its PCC and its loops alone. -/

/-- Two contexts that stand at the same place in the program and in its loops. -/
structure Ctx.SameFlow (c d : Ctx) : Prop where
  pcc : d.pcc = c.pcc
  loop0 : d.loop0 = c.loop0
  loop1 : d.loop1 = c.loop1
  rep : d.rep = c.rep

theorem Ctx.SameFlow.refl (c : Ctx) : c.SameFlow c := ⟨rfl, rfl, rfl, rfl⟩

section
variable {c d : Ctx}

theorem Ctx.SameFlow.setPc (h : c.SameFlow d) (a : Addr) : (c.setPc a).SameFlow (d.setPc a) :=
  ⟨by simp only [Ctx.setPc, h.pcc], h.loop0, h.loop1, h.rep⟩

theorem Ctx.SameFlow.setLoop0 (h : c.SameFlow d) (l : LoopLevel) : ({ c with loop0 := l }).SameFlow { d with loop0 := l } :=
  ⟨h.pcc, rfl, h.loop1, h.rep⟩

theorem Ctx.SameFlow.setLoop1 (h : c.SameFlow d) (l : LoopLevel) : ({ c with loop1 := l }).SameFlow { d with loop1 := l } :=
  ⟨h.pcc, h.loop0, rfl, h.rep⟩

theorem Ctx.SameFlow.setRep (h : c.SameFlow d) (r : RepBuf) : ({ c with rep := r }).SameFlow { d with rep := r } :=
  ⟨h.pcc, h.loop0, h.loop1, rfl⟩

theorem Ctx.SameFlow.endLoop0 (h : c.SameFlow d) (a : Addr) : (c.endLoop0 a).SameFlow (d.endLoop0 a) := by
  unfold Ctx.endLoop0
  rw [h.loop0]
  split
  · split
    · exact h.setLoop0 _
    · exact (h.setLoop0 _).setPc _
  · exact h

theorem Ctx.SameFlow.endLoops (h : c.SameFlow d) (a : Addr) : (c.endLoops a).SameFlow (d.endLoops a) := by
  unfold Ctx.endLoops
  rw [h.loop1]
  split
  · split
    · split
      · exact (h.setLoop1 _).endLoop0 a
      · exact (h.setLoop1 _).setPc _
    · exact h
  · exact h.endLoop0 a

theorem Ctx.SameFlow.endRep (h : c.SameFlow d) : c.endRep.SameFlow d.endRep := by
  unfold Ctx.endRep
  rw [h.rep]
  split
  · exact (h.setRep _).setPc _
  · exact (h.setRep _).endLoops _

theorem Ctx.SameFlow.advance (h : c.SameFlow d) (n : Nat) : (c.advance n).SameFlow (d.advance n) := by
  have pc : d.pc = c.pc := congrArg KReg.addr h.pcc
  have inRep : d.inRep = c.inRep := by simp only [Ctx.inRep, h.rep, pc]
  unfold Ctx.advance
  dsimp only
  rw [pc, inRep, h.rep]
  split
  · split
    · exact (h.setPc _).endRep
    · exact ⟨(h.setPc _).pcc, h.loop0, h.loop1, congrArg (fun r : RepBuf => { r with idx := r.idx + 1 }) h.rep⟩
  · exact (h.setPc _).endLoops _

end

/-- An instruction that completes goes on from where its context stood. -/
theorem goesOn_complete {s u : State} (h : s.me.SameFlow u.me) (len : Nat) : GoesOn s (u.complete len) len := by
  have flow := h.advance len
  have me : (u.complete len).me = { (u.me.countWins.advance len) with stalled := false } := State.me_complete u len
  rw [Ctx.countWins_advance] at me
  refine ⟨by rw [me]; exact flow.pcc, by rw [me]; exact flow.loop0, by rw [me]; exact flow.loop1, by rw [me]; exact flow.rep, fun free => ?_⟩
  rw [← Ctx.advance_unlooped free, Ctx.pc, me]
  exact congrArg KReg.addr flow.pcc

/-- What completing an instruction does to its context. -/
theorem me_complete_eq (u : State) (len : Nat) :
    (u.complete len).me = { u.me.advance len with wins := u.me.countWins.wins, stalled := false } := by
  rw [State.me_complete, Ctx.countWins_advance]

/-! Reading tile memory. -/

theorem Memory.readBytes_eq_map (m : Memory) (a n : Nat) : Memory.readBytes m a n = (List.range n).map fun j => Memory.read m (a + j) := by
  induction n generalizing a with
  | zero => rfl
  | succ n ih =>
    rw [Memory.readBytes, ih, List.range_succ_eq_map, List.map_cons, List.map_map]
    simp [Function.comp_def, Nat.add_assoc, Nat.add_comm 1]

theorem Tile.readTlm_eq_number (t : Tile) (a n : Nat) : t.readTlm a n = t.number a n := by
  simp only [Tile.readTlm, Memory.readN, Tile.number, Memory.readBytes_eq_map]

theorem NSet.mem_iff (s : NSet) (n : Nat) : NSet.mem s n = true ↔ n ∈ s := by simp [NSet.mem]

theorem NSet.mem_erase (s : NSet) (n m : Nat) : NSet.mem (NSet.erase s n) m = (NSet.mem s m && !(n == m)) := by
  rw [Bool.eq_iff_iff, Bool.and_eq_true, NSet.mem_iff, NSet.mem_iff, NSet.erase, List.mem_filter, Bool.beq_comm (a := n)]

theorem NSet.mem_foldl_erase (ws : List Nat) (s : NSet) (m : Nat) :
    NSet.mem (ws.foldl NSet.erase s) m = (NSet.mem s m && !ws.contains m) := by
  induction ws generalizing s with
  | nil => simp
  | cons w ws ih =>
    rw [List.foldl_cons, ih, NSet.mem_erase, List.contains_cons, Bool.beq_comm (a := w)]
    cases NSet.mem s m <;> simp

theorem NSet.mem_foldl_insert (ws : List Nat) (s : NSet) (m : Nat) :
    NSet.mem (ws.foldl NSet.insert s) m = (NSet.mem s m || ws.contains m) := by
  induction ws generalizing s with
  | nil => simp
  | cons w ws ih =>
    rw [List.foldl_cons, ih, NSet.mem_insert, List.contains_cons, Bool.beq_comm (a := w)]
    cases NSet.mem s m <;> simp

theorem NSet.filter_mem_eq_nil {ws : List Nat} {s : NSet} (h : (ws.filter (NSet.mem s)).length = 0) {w : Nat} (hw : w ∈ ws) : NSet.mem s w = false := by
  rw [List.length_eq_zero_iff, List.filter_eq_nil_iff] at h
  exact Bool.eq_false_iff.mpr (h w hw)

/-- A read changes a tile's check bits alone. -/
theorem Tile.touchRead_eq (t : Tile) (a n : Nat) : t.touchRead a n = { t with
    err1 := (t.touchRead a n).err1, err2 := (t.touchRead a n).err2, poison := (t.touchRead a n).poison
    corrected := (t.touchRead a n).corrected, uncorrected := (t.touchRead a n).uncorrected } := by
  unfold Tile.touchRead
  dsimp only
  split <;> rfl

/-- A word that held an uncorrectable error is poisoned after the read (R381). -/
theorem Tile.touchRead_spoilt (t : Tile) (a n w : Nat) : (t.touchRead a n).spoilt w = t.spoilt w := by
  unfold Tile.touchRead
  dsimp only
  split
  · rfl
  · simp only [Tile.spoilt, NSet.mem_foldl_erase, NSet.mem_foldl_insert]
    cases poisoned : NSet.mem t.poison w <;> cases err : NSet.mem t.err2 w <;> cases read : (wordsOf a n).contains w <;>
      simp_all [List.mem_filter]

/-- A single-bit error of a word read is corrected (R381). -/
theorem Tile.touchRead_err1 (t : Tile) (a n w : Nat) :
    NSet.mem (t.touchRead a n).err1 w = (NSet.mem t.err1 w && !(wordsOf a n).contains w) := by
  unfold Tile.touchRead
  dsimp only
  split
  case isTrue clean =>
    simp only [Bool.and_eq_true, decide_eq_true_eq] at clean
    by_cases read : w ∈ wordsOf a n
    · simp [NSet.filter_mem_eq_nil clean.1 read]
    · simp [read]
  case isFalse => exact NSet.mem_foldl_erase ..

theorem Tile.badWord_isSome (t : Tile) (a n : Nat) : (t.badWord a n).isSome = true ↔ ¬∀ w ∈ wordsOf a n, t.spoilt w = false := by
  simp [Tile.badWord, Tile.spoilt, imp_iff_not_or]

/-! The checks of an access to tile memory (R147). -/

theorem inBanks_of_bytes {b : BitVec 16} {a n : Nat} (h : ∀ j, j < n → b.getLsbD ((a + j) / 2 ^ 18) = true) : inBanks b a n = true := by
  rw [inBanks, Bool.or_eq_true]
  by_cases zero : n = 0
  · simp [zero]
  · refine .inr (List.all_eq_true.mpr fun i hi => ?_)
    have hi : i < (a + n - 1) / 2 ^ 18 - a / 2 ^ 18 + 1 := List.mem_range.mp hi
    have byte := h ((a / 2 ^ 18 + i) * 2 ^ 18 - a) (by omega)
    by_cases first : i = 0
    · subst first; simpa using h 0 (by omega)
    · rwa [show (a + ((a / 2 ^ 18 + i) * 2 ^ 18 - a)) / 2 ^ 18 = a / 2 ^ 18 + i by omega] at byte

theorem tlmCheck_none {s : State} {c : KReg} {a n : Nat} {need : List Perm} (ok : TlmOk s c a n need) :
    tlmCheck (grantOf s s.cur.tile s.me) c a n n need = none := by
  obtain ⟨tag, unsealed, tlm, perms, lower, upper, space, granted, aligned⟩ := ok
  have perms : need.all c.has = true := List.all_eq_true.mpr perms
  cases grant : grantOf s s.cur.tile s.me with
  | none => simp [tlmCheck, tag, KReg.isSealed, unsealed, tlm, perms, aligned, not_lt.mpr lower, not_lt.mpr upper]; exact space
  | some b =>
    have banks := inBanks_of_bytes (granted b grant)
    simp [tlmCheck, tag, KReg.isSealed, unsealed, tlm, perms, banks, aligned, not_lt.mpr lower, not_lt.mpr upper]; exact space

end Sys2Proof.Machine
end

section
/-!
O22, puts (10 R245, R248, R249, 11 R274, R275, R286): a put leaves one token on its port's channel, or one message at the injection port.
-/

namespace Sys2Proof.Machine

@[simp] theorem Tile.port_setPort (t : Tile) (p : Nat) (x : Port) : (t.setPort p x).port p = x := by
  simp [Tile.port, Tile.setPort, Tile.setSlot, Tile.slot]

theorem Tile.slot_setPort (t : Tile) (p : Nat) (x : Port) : (t.setPort p x).slot = { t.slot with ports := AMap.set t.slot.ports p x } := by
  simp [Tile.setPort, Tile.setSlot, Tile.slot]

theorem Tile.port_setPort_other (t : Tile) {p q : Nat} (x : Port) (h : p ≠ q) : (t.setPort p x).port q = t.port q := by
  simp [Tile.port, Tile.setPort, Tile.setSlot, Tile.slot, h]

theorem State.chan_setChan_other (s : State) {n m : Nat} (c : Chan) (h : n ≠ m) : (s.setChan n c).chan? m = s.chan? m := by
  simp [State.chan?, State.setChan, h]

/-! What a read of the step's tile leaves. -/

/-- The state with the check bits of the words of a list read in the step's tile. -/
structure ReadFrame (s s' : State) (read : List Nat) : Prop where
  outside : s' = { s with tiles := s'.tiles }
  tiles : ∀ q, q ≠ s.cur.tile → s'.tile q = s.tile q
  here : s'.here = { s.here with
    err1 := s'.here.err1, err2 := s'.here.err2, poison := s'.here.poison, corrected := s'.here.corrected, uncorrected := s'.here.uncorrected }
  spoilt : ∀ w, s'.here.spoilt w = s.here.spoilt w
  single : ∀ w, NSet.mem s'.here.err1 w = (NSet.mem s.here.err1 w && !read.contains w)
  unread : read = [] → s'.here.err2 = s.here.err2 ∧ s'.here.poison = s.here.poison ∧ s'.here.corrected = s.here.corrected ∧
    s'.here.uncorrected = s.here.uncorrected

theorem ReadFrame.refl (s : State) : ReadFrame s s [] :=
  ⟨rfl, fun _ _ => rfl, rfl, fun _ => rfl, by simp, fun _ => ⟨rfl, rfl, rfl, rfl⟩⟩

theorem readFrame_touchRead (s : State) (a : Nat) : ReadFrame s (s.setHere (s.here.touchRead a 64)) (wordsOf a 64) := by
  refine ⟨rfl, fun q hq => State.tile_setTile_other s _ hq.symm, ?_, fun w => ?_, fun w => ?_, fun none => ?_⟩
  · rw [State.here_setHere]; exact Tile.touchRead_eq ..
  · rw [State.here_setHere]; exact Tile.touchRead_spoilt ..
  · rw [State.here_setHere]; exact Tile.touchRead_err1 ..
  · simp [wordsOf, upto] at none

theorem ReadFrame.me {s s' : State} {read : List Nat} (h : ReadFrame s s' read) : s'.me = s.me := by
  have cur : s'.cur = s.cur := by rw [h.outside]
  rw [State.me, h.here, cur]; rfl

theorem ReadFrame.slot {s s' : State} {read : List Nat} (h : ReadFrame s s' read) : s'.here.slot = s.here.slot := by
  rw [h.here]; rfl

theorem ReadFrame.port {s s' : State} {read : List Nat} (h : ReadFrame s s' read) (p : Nat) : s'.here.port p = s.here.port p := by
  rw [h.here]; rfl

/-! What a put leaves, before its context goes on. -/

/-- The frame of a put on a port, in the terms of ChanFrame, with every context as it was. -/
structure PutFrame (s u : State) (port : Nat) (read : List Nat) : Prop where
  outside : u = { s with chans := u.chans, tiles := u.tiles }
  tiles : ∀ q, q ≠ s.cur.tile → u.tile q = s.tile q
  tile : u.here = { s.here with
    slots := u.here.slots, inject := u.here.inject, lastStamp := u.here.lastStamp, tileSeq := u.here.tileSeq
    err1 := u.here.err1, err2 := u.here.err2, poison := u.here.poison, corrected := u.here.corrected, uncorrected := u.here.uncorrected }
  spoilt : ∀ w, u.here.spoilt w = s.here.spoilt w
  single : ∀ w, NSet.mem u.here.err1 w = (NSet.mem s.here.err1 w && !read.contains w)
  unread : read = [] → u.here.err2 = s.here.err2 ∧ u.here.poison = s.here.poison ∧ u.here.corrected = s.here.corrected ∧
    u.here.uncorrected = s.here.uncorrected
  slots : ∀ m, m ≠ s.here.active → AMap.get? u.here.slots m = AMap.get? s.here.slots m
  slot : u.here.slot = { s.here.slot with ports := u.here.slot.ports }
  ports : ∀ p, p ≠ port → u.here.port p = s.here.port p
  plain : (s.here.port port).ordered = false → u.here.port port = s.here.port port ∧ u.here.inject = s.here.inject ∧
    u.here.lastStamp = s.here.lastStamp ∧ u.here.tileSeq = s.here.tileSeq

/-- The state of a put once its context has counted it and gone on. -/
def State.putOn (u : State) (port : Nat) : State := (u.setMe (u.me.bump port)).complete 4

theorem State.me_putOn (u : State) (port : Nat) : (u.putOn port).me =
    { u.me.advance 4 with donec := (u.me.bump port).donec, wins := u.me.countWins.wins, stalled := false } := by
  have flow : u.me.SameFlow (u.me.bump port) := ⟨rfl, rfl, rfl, rfl⟩
  obtain ⟨pcc, loop0, loop1, rep⟩ := flow.advance 4
  rw [State.putOn, me_complete_eq, State.me_setMe, Ctx.advance_only (u.me.bump port), Ctx.advance_only u.me, pcc, loop0, loop1, rep]
  rfl

theorem State.putOn_eq (u : State) (port : Nat) : u.putOn port = u.setMe (u.putOn port).me := by
  rw [State.putOn, State.me_complete, State.complete]; simp

theorem State.here_putOn (u : State) (port : Nat) : (u.putOn port).here = u.here.setCtx u.cur.ctx (u.putOn port).me := by
  conv => lhs; rw [State.putOn_eq]
  exact State.here_setMe ..

theorem State.chan_putOn (u : State) (port id : Nat) : (u.putOn port).chan? id = u.chan? id := rfl

theorem doneOf_putOn (u : State) (port p : Nat) :
    doneOf (u.putOn port).me p = if p = port then doneOf u.me port + 1 else doneOf u.me p := by
  rw [State.me_putOn, doneOf]
  split
  · rename_i e; subst e; exact AMap.getD_set_same ..
  · rename_i e; exact AMap.getD_set_other _ _ _ (Ne.symm e)

section
variable {s u : State} {port : Nat} {read : List Nat} (h : PutFrame s u port read)
include h

theorem PutFrame.cur : u.cur = s.cur := by rw [h.outside]

theorem PutFrame.me : u.me = s.me := by
  rw [State.me, h.cur, h.tile]; rfl

theorem PutFrame.tile_putOn (q : Nat) (hq : q ≠ s.cur.tile) : (u.putOn port).tile q = s.tile q := by
  rw [State.putOn_eq]
  exact (State.tile_setTile_other _ _ (by rw [h.cur]; exact hq.symm)).trans (h.tiles q hq)

theorem PutFrame.chanFrame : ChanFrame s (u.putOn port) port read [] where
  outside := by rw [State.putOn_eq, h.outside]; rfl
  tiles := h.tile_putOn
  ctxs q hq := by
    rw [State.here_putOn, Tile.ctx_setCtx_other _ _ (by rw [h.cur]; exact hq.symm), h.tile]; rfl
  ctx := by
    rw [State.me_putOn, h.me]; unfold Ctx.onlyScalar; dsimp only; rw [Ctx.advance_only]
  regs r _ := by rw [State.me_putOn, h.me, Ctx.advance_only]; rfl
  tile := by rw [State.here_putOn, h.tile]; rfl
  spoilt w := by rw [State.here_putOn]; exact h.spoilt w
  single w := by rw [State.here_putOn]; exact h.single w
  unread := by rw [State.here_putOn]; exact h.unread
  slots m hm := by rw [State.here_putOn]; exact h.slots m hm
  slot := by rw [State.here_putOn]; exact h.slot
  ports p hp := by rw [State.here_putOn]; exact h.ports p hp
  plain plain := by
    obtain ⟨port, inject, stamp, seq⟩ := h.plain plain
    rw [State.here_putOn]
    exact ⟨port.trans (by rw [← port]; rfl), inject, stamp, seq⟩

theorem PutFrame.sameTlm : s.sameTlm (u.putOn port) := by
  intro q a
  by_cases hq : q = s.cur.tile
  · have here : (u.putOn port).tile q = (u.putOn port).here := by rw [hq, ← h.cur]; rfl
    rw [here, State.here_putOn, Tile.setCtx_tlm, h.tile, hq]; rfl
  · rw [h.tile_putOn q hq]

theorem PutFrame.goesOn : GoesOn s (u.putOn port) 4 := by
  refine goesOn_complete ?_ 4
  rw [State.me_setMe, h.me]
  exact ⟨rfl, rfl, rfl, rfl⟩

theorem PutFrame.counted : doneOf (u.putOn port).me port = doneOf s.me port + 1 := by
  rw [doneOf_putOn, if_pos rfl, h.me]

theorem PutFrame.uncounted (p : Nat) (hp : p ≠ port) : doneOf (u.putOn port).me p = doneOf s.me p := by
  rw [doneOf_putOn, if_neg hp, h.me]

end

/-! A put on a channel. -/

theorem State.putPort_plain {s : State} {k p id : Nat} {kind : TokKind} {payload : Line} {after : List (Nat × Nat)} (notEos : kind ≠ .eos)
    (plain : ((s.tile k).port p).ordered = false) (chan : ((s.tile k).port p).chan = some id) :
    s.putPort k p kind payload 0 after = (s.chan? id).elim s fun c => s.setChan id (c.put kind payload 0 after) := by
  cases at_ : s.chan? id <;> simp [State.putPort, notEos, plain, chan, at_]

theorem ReadFrame.putFrame {s s' : State} {read : List Nat} (h : ReadFrame s s' read) (port : Nat) (cs : AMap Chan) :
    PutFrame s { s' with chans := cs } port read where
  outside := by rw [h.outside]
  tiles := h.tiles
  tile := by
    change s'.here = { s.here with
      slots := s'.here.slots, inject := s'.here.inject, lastStamp := s'.here.lastStamp, tileSeq := s'.here.tileSeq
      err1 := s'.here.err1, err2 := s'.here.err2, poison := s'.here.poison, corrected := s'.here.corrected, uncorrected := s'.here.uncorrected }
    rw [h.here]
  spoilt := h.spoilt
  single := h.single
  unread := h.unread
  slots m _ := by change AMap.get? s'.here.slots m = _; rw [h.here]
  slot := by change s'.here.slot = { s.here.slot with ports := s'.here.slot.ports }; rw [h.slot]
  ports p _ := h.port p
  plain _ := by
    change s'.here.port port = _ ∧ s'.here.inject = _ ∧ s'.here.lastStamp = _ ∧ s'.here.tileSeq = _
    rw [h.here]; exact ⟨rfl, rfl, rfl, rfl⟩

theorem Chan.put_branches_room (c : Chan) (k : TokKind) (payload : Line) (status : BitVec 16) (after : List (Nat × Nat)) :
    (c.put k payload status after).branches.map (·.room) = c.branches.map fun b => b.room - 1 := by
  unfold Chan.put Chan.enter Chan.takeRoom
  dsimp only
  split <;> rename_i eq
  · rw [List.map_eq_singleton_iff] at eq
    obtain ⟨b, hb, rfl⟩ := eq
    simp [hb]
  · simp

theorem Chan.put_flights {c : Chan} {b : Branch} (one : c.branches = [b]) (k : TokKind) (payload : Line) (status : BitVec 16)
    (after : List (Nat × Nat)) : (c.put k payload status after).branches.map (·.flights) =
      [b.flights ++ [{ tok := c.token k payload status c.seq, after := after }]] := by
  simp only [Chan.put, Chan.enter, Chan.takeRoom, one, List.map_cons, List.map_nil, Chan.token, roundField]

theorem Chan.put_forkQ {c : Chan} (many : c.branches.length ≠ 1) (k : TokKind) (payload : Line) (status : BitVec 16)
    (after : List (Nat × Nat)) : (c.put k payload status after).forkQ =
      c.forkQ ++ [{ tok := c.token k payload status c.seq, after := after }] := by
  unfold Chan.put Chan.enter Chan.takeRoom
  dsimp only
  split <;> rename_i eq
  · exact absurd (by simpa using congrArg List.length eq) many
  · rfl

theorem Chan.put_seq (c : Chan) (k : TokKind) (payload : Line) (status : BitVec 16) (after : List (Nat × Nat)) :
    (c.put k payload status after).seq = c.seq + 1 := rfl

theorem Chan.put_rounds (c : Chan) (k : TokKind) (payload : Line) (status : BitVec 16) (after : List (Nat × Nat)) :
    (c.put k payload status after).rounds = if k = .round then c.rounds + 1 else c.rounds := rfl

/-- A put on a port that sources a channel leaves one token there, and the frame of a CHAN instruction (R248). -/
theorem put_onChan {s s' : State} {read : List Nat} (h : ReadFrame s s' read) {p id : Nat} {kind : TokKind} (payload : Line)
    (after : List (Nat × Nat)) (notEos : kind ≠ .eos) (plain : (s.here.port p).ordered = false) (chan : (s.here.port p).chan = some id) :
    let t := putDone s' p kind payload 0 after
    (GoesOn s t 4 ∧ ChanFrame s t p read [] ∧ s.sameTlm t) ∧ (t.here.port p).closed = (s.here.port p).closed ∧
      TokenPut s t p id kind payload (fun c => roundField c kind 0) after := by
  have cur : s'.cur = s.cur := by rw [h.outside]
  have put : s'.putPort s'.cur.tile p kind payload 0 after = (s'.chan? id).elim s' fun c => s'.setChan id (c.put kind payload 0 after) :=
    State.putPort_plain notEos ((congrArg Port.ordered (h.port p)).trans plain) ((congrArg Port.chan (h.port p)).trans chan)
  have chans : s'.chans = s.chans := by rw [h.outside]
  obtain ⟨u, hu⟩ : ∃ u, s'.putPort s'.cur.tile p kind payload 0 after = u := ⟨_, rfl⟩
  have eq : u = { s' with chans := u.chans } := by rw [← hu, put]; cases s'.chan? id <;> rfl
  have frame : PutFrame s u p read := by rw [eq]; exact h.putFrame p u.chans
  have at_ : ∀ j, u.chan? j = if j = id then (s.chan? id).map (·.put kind payload 0 after) else s.chan? j := by
    intro j
    have same : ∀ j, s'.chan? j = s.chan? j := fun j => congrArg (AMap.get? · j) chans
    rw [← hu, put, same]
    cases hc : s.chan? id with
    | none =>
      change s'.chan? j = _
      rw [same]
      split
      · rename_i e; rw [e, hc]; rfl
      · rfl
    | some c =>
      change (s'.setChan id _).chan? j = _
      split
      · rename_i e; rw [e]; exact State.chan_setChan ..
      · rename_i e; exact (State.chan_setChan_other _ _ (Ne.symm e)).trans (same j)
  dsimp only
  rw [show putDone s' p kind payload 0 after = u.putOn p by rw [← hu]; rfl]
  refine ⟨⟨frame.goesOn, frame.chanFrame, frame.sameTlm⟩, ?_, ?_⟩
  · exact congrArg Port.closed ((congrArg (Tile.port · p) (State.here_putOn u p)).trans (frame.plain plain).1)
  · refine ⟨fun c hc => ?_, fun j hj => ?_, frame.counted, frame.uncounted⟩
    · refine ⟨_, c.token kind payload 0 c.seq, by rw [State.chan_putOn, at_, if_pos rfl, hc]; rfl, rfl, rfl, if_neg notEos, rfl, rfl, rfl, rfl,
        Chan.put_rounds .., Chan.put_branches_room .., fun b one => Chan.put_flights one .., fun many => Chan.put_forkQ many ..⟩
    · rw [State.chan_putOn, at_, if_neg hj]

/-! A put on an ordered output. -/

theorem nextStamp_here (s : State) : nextStamp s s.cur.tile = s.stampHere := by
  by_cases later : s.here.lastStamp.toNat < (BitVec.ofNat 64 (s.timeOf s.cur.tile)).toNat
  · exact (if_neg (Nat.not_le.mpr later)).trans (if_pos later).symm
  · exact (if_pos (Nat.le_of_not_lt later)).trans (if_neg later).symm

/-- What the port keeps of an ordered put. -/
def Port.orderedSent (x : Port) (stamp : Word) : Port :=
  { x with booked := [], oseq := x.oseq + 1, lastStamp := stamp, credits := x.credits.map (· - 1) }

/-- The message of an ordered put (R275). -/
def State.message (s : State) (port : Nat) (k : TokKind) (payload : Line) : Token :=
  { kind := k, line := (s.here.port port).line, payload := payload, round := 0, resid := s.here.slot.resid, seq := 0, port := port, scale := 0
    ohdr := some { osn := (s.here.port port).osn, stamp := s.stampHere, module := s.module, tile := (s.tileWord s.cur.tile).setWidth 22
                   seq := s.here.tileSeq.toNat, port := port } }

/-- The tile after an ordered put. -/
def State.orderedTile (s : State) (port : Nat) (k : TokKind) (payload : Line) : Tile :=
  let t := s.here.setPort port ((s.here.port port).orderedSent s.stampHere)
  { t with lastStamp := s.stampHere, tileSeq := s.here.tileSeq + 1, inject := s.here.inject ++ [s.message port k payload] }

theorem Tile.setPort_setPort (t : Tile) (p : Nat) (x y : Port) : (t.setPort p x).setPort p y = t.setPort p y := by
  simp [Tile.setPort, Tile.setSlot, Tile.slot, AMap.set_set]

theorem State.setTile_setTile (s : State) (k : Nat) (t u : Tile) : (s.setTile k t).setTile k u = s.setTile k u := by
  simp [State.setTile, AMap.set_set]

theorem State.putPort_ordered {s : State} {p : Nat} {kind : TokKind} (payload : Line) (after : List (Nat × Nat)) (notEos : kind ≠ .eos)
    (ordered : (s.here.port p).ordered = true) (free : (s.here.port p).booked = []) :
    s.putPort s.cur.tile p kind payload 0 after = s.setHere (s.orderedTile p kind payload) := by
  have ordered' : ((s.tile s.cur.tile).port p).ordered = true := ordered
  have free' : ((s.tile s.cur.tile).port p).booked = [] := free
  have book : (s.book s.cur.tile p (some (kind, payload, 0))).sendBooked s.cur.tile p =
      injectOrdered (s.setTile s.cur.tile (s.here.setPort p { s.here.port p with booked := [], oseq := (s.here.port p).oseq + 1 }))
        s.cur.tile p kind payload 0 := by
    simp [State.book, State.sendBooked, State.injectBooked, free', State.updTile, State.setTile_setTile, Tile.setPort_setPort, State.here]
  rw [State.putPort, if_neg notEos, if_pos ordered', book]
  have stamp : nextStamp (s.setTile s.cur.tile (s.here.setPort p { s.here.port p with booked := [], oseq := (s.here.port p).oseq + 1 }))
      s.cur.tile = s.stampHere := by
    rw [← nextStamp_here, nextStamp, nextStamp, State.timeOf, State.timeOf, State.tile_setTile]; rfl
  simp only [injectOrdered, State.tile_setTile, stamp, if_neg notEos, State.setTile_setTile, Tile.setPort_setPort, Tile.port_setPort, Tile.slot_setPort]
  simp only [State.setHere, State.orderedTile, State.message, tokenPayload, if_neg notEos, Port.orderedSent]
  rfl

theorem ReadFrame.orderedPut {s s' : State} {read : List Nat} (h : ReadFrame s s' read) (port : Nat) (k : TokKind) (payload : Line)
    (ordered : (s.here.port port).ordered = true) : PutFrame s (s'.setHere (s'.orderedTile port k payload)) port read where
  outside := by rw [h.outside]; rfl
  tiles q hq := by
    rw [State.setHere, State.tile_setTile_other _ _ (by rw [h.outside]; exact hq.symm)]
    exact h.tiles q hq
  tile := by
    rw [State.here_setHere, State.orderedTile, h.here]; rfl
  spoilt w := by rw [State.here_setHere]; exact h.spoilt w
  single w := by rw [State.here_setHere]; exact h.single w
  unread none := by rw [State.here_setHere]; exact h.unread none
  slots m hm := by
    have active : s'.here.active ≠ m := by rw [h.here]; exact hm.symm
    rw [State.here_setHere]
    exact (AMap.get?_set_other _ _ active).trans (by rw [h.here])
  slot := by
    rw [State.here_setHere]
    have slot : (s'.orderedTile port k payload).slot = _ := Tile.slot_setPort ..
    rw [slot, h.slot]
  ports p hp := by
    rw [State.here_setHere]
    exact (Tile.port_setPort_other _ _ hp.symm).trans (h.port p)
  plain plain := by rw [ordered] at plain; exact Bool.noConfusion plain

theorem ReadFrame.stampHere {s s' : State} {read : List Nat} (h : ReadFrame s s' read) : s'.stampHere = s.stampHere := by
  have cur : s'.cur = s.cur := by rw [h.outside]
  have time : s'.timeOf s'.cur.tile = s.timeOf s.cur.tile := by
    change s'.here.count / 2 ^ 16 = s.here.count / 2 ^ 16
    rw [h.here]
  rw [State.stampHere, State.stampHere, time, h.here]

theorem ReadFrame.message {s s' : State} {read : List Nat} (h : ReadFrame s s' read) (port : Nat) (k : TokKind) (payload : Line) :
    s'.message port k payload = s.message port k payload := by
  have tile : s'.tileWord s'.cur.tile = s.tileWord s.cur.tile := by rw [h.outside]; rfl
  have module : s'.module = s.module := by rw [h.outside]
  rw [State.message, State.message, h.stampHere, tile, module, h.port, h.slot, h.here]

/-- A put on an ordered output leaves one message at the injection port (R274, R275, R286). -/
theorem put_onOrdered {s s' : State} {read : List Nat} (h : ReadFrame s s' read) {p : Nat} {kind : TokKind} (payload : Line)
    (after : List (Nat × Nat)) (notEos : kind ≠ .eos) (ordered : (s.here.port p).ordered = true) (free : (s.here.port p).booked = []) :
    let t := putDone s' p kind payload 0 after
    (GoesOn s t 4 ∧ ChanFrame s t p read [] ∧ s.sameTlm t) ∧ (t.here.port p).closed = (s.here.port p).closed ∧ OrderedPut s t p kind payload := by
  have frame : PutFrame s (s'.setHere (s'.orderedTile p kind payload)) p read := h.orderedPut p kind payload ordered
  have done : putDone s' p kind payload 0 after = (s'.setHere (s'.orderedTile p kind payload)).putOn p := by
    rw [putDone, State.putPort_ordered payload after notEos (by rw [h.port]; exact ordered) (by rw [h.port]; exact free)]; rfl
  have here : ((s'.setHere (s'.orderedTile p kind payload)).putOn p).here = (s'.orderedTile p kind payload).setCtx
      (s'.setHere (s'.orderedTile p kind payload)).cur.ctx ((s'.setHere (s'.orderedTile p kind payload)).putOn p).me := by
    rw [State.here_putOn, State.here_setHere]
  have port : ((s'.setHere (s'.orderedTile p kind payload)).putOn p).here.port p = (s.here.port p).orderedSent s.stampHere := by
    rw [here, ← h.port, ← h.stampHere]; exact Tile.port_setPort ..
  dsimp only
  rw [done]
  refine ⟨⟨frame.goesOn, frame.chanFrame, frame.sameTlm⟩, by rw [port]; rfl, ⟨s.message p kind payload, ?_, rfl, rfl, rfl, rfl, rfl⟩,
    ?_, ?_, by rw [port]; rfl, ?_, frame.counted, frame.uncounted⟩
  · rw [here, ← h.message]
    change s'.here.inject ++ _ = _
    rw [h.here]
  · rw [here, ← h.stampHere]; rfl
  · rw [here]
    change s'.here.tileSeq + 1 = _
    rw [h.here]
  · change s'.chans = s.chans
    rw [h.outside]

/-! The put instructions. -/

section
variable {f : K3} {s : State} (ok : PutOk s f.b.toNat)
include ok

theorem PutOk.port : chanPort s (pnum f) true = .ok (s.here.port (pnum f)) := by
  obtain ⟨_, declared, output, actor, unbound, room, _⟩ := ok
  exact chanPort_ok declared output actor unbound (Nat.ne_zero_of_lt room)

theorem PutOk.sized {line : Bool} (size : (s.here.port (pnum f)).line = line) : chanSized s (pnum f) true line = .ok (s.here.port (pnum f)) := by
  simp [chanSized, isPrimary_chanWho ok.who, ok.port, size, Bind.bind, Except.bind, pure, Except.pure]

theorem PutOk.count : putCount s (pnum f) (s.here.port (pnum f)) = .ok () := by
  rw [putCount, pnum, ok.unclosed, decide_eq_false (Nat.not_le.mpr ok.room)]; rfl

theorem PutOk.ready : putReady s (pnum f) = .ok () := by
  refine (congrArg stallIf ?_).trans stallIf_false
  rw [Bool.or_eq_false_iff, Bool.or_eq_false_iff]
  refine ⟨⟨ok.acquired, by rw [pnum, ok.placed]; rfl⟩, List.any_eq_false.mpr fun e he => ?_⟩
  split
  · rename_i g hg
    by_cases at_ : g.vc.toNat = f.b.toNat
    · simp [ok.first e he g hg at_]
    · simp [pnum, at_]
  · exact Bool.false_ne_true

theorem exec_put (regs : s.kReady [f.a] [f.a] []) (word : (s.here.port f.b.toNat).line = false) :
    exec (.put f) s = .next (putDone s f.b.toNat .data ((s.me.readW f.a).setWidth 512) 0 []) := by
  change execPut f s = _
  simp only [execPut, guardK_ready regs, ok.sized word, ok.count, ok.ready, Bind.bind, Except.bind]
  rfl

theorem exec_putr (regs : s.kReady [f.a] [f.a] []) (word : (s.here.port f.b.toNat).line = false) (free : vmQueued s.me = false)
    {after : List (Nat × Nat)} (waits : releaseAfter s (if toOutlet s (s.here.port f.b.toNat) then 4 else 2) = after)
    (now : (s.here.port f.b.toNat).ordered = true → after = []) :
    exec (.putr f) s = .next (putDone s f.b.toNat .data ((s.me.readW f.a).setWidth 512) 0 after) := by
  have go : ((s.here.port (pnum f)).ordered && !after.isEmpty) = false := by
    cases ordered : (s.here.port (pnum f)).ordered with
    | false => rfl
    | true => rw [now ordered]; rfl
  have waits : releaseAfter s (if toOutlet s (s.here.port (pnum f)) then 4 else 2) = after := waits
  change execPutr f s = _
  simp only [execPutr, guardK_ready regs, ok.sized word, ok.count, ok.ready, free, Bind.bind, Except.bind, stallIf_false, waits, go]
  rfl

theorem stalls_putr (regs : s.kReady [f.a] [f.a] []) (word : (s.here.port f.b.toNat).line = false) (free : vmQueued s.me = false)
    (waits : releaseAfter s (if toOutlet s (s.here.port f.b.toNat) then 4 else 2) ≠ []) (ordered : (s.here.port f.b.toNat).ordered = true) :
    Stalls (.putr f) s := by
  have hold : ((s.here.port (pnum f)).ordered && !(releaseAfter s (if toOutlet s (s.here.port (pnum f)) then 4 else 2)).isEmpty) = true := by
    rw [Bool.and_eq_true, Bool.not_eq_true', Bool.eq_false_iff, Ne, List.isEmpty_iff]
    exact ⟨ordered, waits⟩
  change execPutr f s = _
  simp only [execPutr, guardK_ready regs, ok.sized word, ok.count, ok.ready, free, Bind.bind, Except.bind, stallIf_false, hold, stallIf_true]
  rfl

theorem exec_putl (regs : s.kReady [f.a] [f.a] []) (line : (s.here.port f.b.toNat).line = true) (free : s.tlmFree)
    (check : TlmOk s (s.me.readK f.a) (s.me.readK f.a).addr.toNat 64 [.r]) :
    exec (.putl f) s = .next (putDone (s.setHere (s.here.touchRead (s.me.readK f.a).addr.toNat 64)) f.b.toNat
      (if (s.here.badWord (s.me.readK f.a).addr.toNat 64).isSome then .poison else .data)
      (BitVec.ofNat 512 (s.here.number (s.me.readK f.a).addr.toNat 64)) 0 []) := by
  change execPutl f s = _
  simp only [execPutl, guardK_ready regs, ok.sized line, ok.count, ok.ready, tlmReady_ok free, Bind.bind, Except.bind, tlmCheck_none check,
    orTrap_none, Tile.readLine, Tile.readTlm_eq_number]
  rfl

theorem markOp_puts {k : TokKind} {fields : List (BitVec 6)} {noRound : Bool} (regs : s.kReady fields fields [])
    (may : noRound = true → (s.here.actor s.me.actor).roundA = false ∧ (s.here.port f.b.toNat).ordered = false) :
    markOp f s k fields noRound = .next (putDone s f.b.toNat k 0 0 []) := by
  have pass : (noRound && ((s.here.actor s.me.actor).roundA || (s.here.port (pnum f)).ordered)) = false := by
    cases noRound with
    | false => rfl
    | true =>
      obtain ⟨notAligned, plain⟩ := may rfl
      rw [notAligned, pnum, plain]; rfl
  simp only [markOp, guardK_ready regs, isPrimary_chanWho ok.who, ok.port, ok.count, ok.ready, Bind.bind, Except.bind, pass, trapIf_false]
  rfl

end

theorem State.kReady_none (s : State) : s.kReady [] [] [] := ⟨nofun, nofun, nofun⟩

/-- A put that marks (R249): the instruction and the kind of the token it forms, with what it needs to pass its checks. -/
theorem exec_marks {f : K3} {s : State} (ok : PutOk s f.b.toNat) {i : Instr} {k : TokKind}
    (is : (i = .putn f ∧ k = .null) ∨ (s.kReady [f.a] [f.a] [] ∧ ((i = .markNull f ∧ k = .null) ∨ (i = .markPoison f ∧ k = .poison) ∨
      (i = .markRound f ∧ k = .round ∧ (s.here.actor s.me.actor).roundA = false ∧ (s.here.port f.b.toNat).ordered = false)))) :
    k ≠ .eos ∧ (∀ c, roundField c k 0 = 0) ∧ exec i s = .next (putDone s f.b.toNat k 0 0 []) := by
  rcases is with ⟨rfl, rfl⟩ | ⟨regs, ⟨rfl, rfl⟩ | ⟨rfl, rfl⟩ | ⟨rfl, rfl, may⟩⟩
  · exact ⟨nofun, fun _ => rfl, markOp_puts ok s.kReady_none nofun⟩
  · exact ⟨nofun, fun _ => rfl, markOp_puts ok regs nofun⟩
  · exact ⟨nofun, fun _ => rfl, markOp_puts ok regs nofun⟩
  · exact ⟨nofun, fun _ => rfl, markOp_puts ok regs fun _ => may⟩

/-- Settles O22: each put instruction comes to one put on its port, on the port's channel or on its ordered stream. -/
theorem putsFormTokens : Obligations.PutsFormTokens := by
  unfold Obligations.PutsFormTokens
  intro f s ok p x v rounds goes open_ c a line whole
  have run {i : Instr} {read : List Nat} {does : State → Prop} {t : State} (e : exec i s = .next t)
      (frame : GoesOn s t 4 ∧ ChanFrame s t p read [] ∧ s.sameTlm t) (d : does t) : goes i read does := ⟨t, e, frame.1, frame.2.1, frame.2.2, d⟩
  have still : ReadFrame s s [] := .refl s
  have lineRead : ReadFrame s (s.setHere (s.here.touchRead a 64)) (wordsOf a 64) := readFrame_touchRead s a
  have sound : whole → (if (s.here.badWord a 64).isSome then TokKind.poison else .data) = .data := fun w =>
    if_neg (mt (Tile.badWord_isSome ..).mp (not_not_intro w))
  have spoilt : ¬whole → (if (s.here.badWord a 64).isSome then TokKind.poison else .data) = .poison := fun w =>
    if_pos ((Tile.badWord_isSome ..).mpr w)
  have notEos : (if (s.here.badWord a 64).isSome then TokKind.poison else .data) ≠ .eos := by split <;> nofun
  refine ⟨fun id chan plain => ⟨fun regs word => ⟨?put, fun free => ?putr⟩, ?putl, fun i k is => ?mark⟩,
    fun ordered => ⟨fun regs word => ⟨?oput, fun free => ⟨fun waits => ?ostall, fun now => ?oputr⟩⟩, ?oputl, fun i k is => ?omark⟩⟩
  case put =>
    have ⟨frame, put⟩ := put_onChan still (kind := .data) v [] nofun plain chan
    exact run (exec_put ok regs word) frame put
  case putr =>
    have ⟨frame, put⟩ := put_onChan still (kind := .data) v (releaseAfter s (if toOutlet s x then 4 else 2)) nofun plain chan
    exact run (exec_putr ok regs word free rfl fun o => by rw [plain] at o; exact Bool.noConfusion o) frame put
  case putl =>
    rintro ⟨regs, line, free, check⟩
    have ⟨frame, closed, put⟩ := put_onChan lineRead (BitVec.ofNat 512 (s.here.number a 64)) [] notEos plain chan
    refine run (exec_putl ok regs line free check) frame ⟨closed, fun w => ?_, fun w => ?_⟩
    · rw [sound w] at put ⊢; exact put
    · rw [spoilt w] at put ⊢; exact put
  case mark =>
    have ⟨kind, round, e⟩ := exec_marks ok (is.imp_right (And.imp_right (Or.imp_right (Or.imp_right fun ⟨i, k, r⟩ => ⟨i, k, r, plain⟩))))
    have ⟨frame, put⟩ := put_onChan still 0 [] kind plain chan
    refine run e frame ?_
    simpa only [round] using put
  case oput =>
    have ⟨frame, put⟩ := put_onOrdered still (kind := .data) v [] nofun ordered ok.placed
    exact run (exec_put ok regs word) frame put
  case ostall => exact stalls_putr ok regs word free waits ordered
  case oputr =>
    have ⟨frame, put⟩ := put_onOrdered still (kind := .data) v [] nofun ordered ok.placed
    exact run (exec_putr ok regs word free now fun _ => rfl) frame put
  case oputl =>
    rintro ⟨regs, line, free, check⟩
    have ⟨frame, closed, put⟩ := put_onOrdered lineRead (BitVec.ofNat 512 (s.here.number a 64)) [] notEos ordered ok.placed
    refine run (exec_putl ok regs line free check) frame ⟨closed, fun w => ?_, fun w => ?_⟩
    · rw [sound w] at put ⊢; exact put
    · rw [spoilt w] at put ⊢; exact put
  case omark =>
    have ⟨kind, _, e⟩ := exec_marks ok (is.imp_right (And.imp_right (Or.imp_right .inl)))
    have ⟨frame, put⟩ := put_onOrdered still 0 [] kind ordered ok.placed
    exact run e frame put

end Sys2Proof.Machine
end

section
/-!
O37, START (12 R289, R293, 02 R51): its checks, the helper it takes and what that helper begins with.
-/

namespace Sys2Proof.Machine

/-! Actors of a tile. -/

@[simp] theorem Tile.actor_setActor (t : Tile) (a : Nat) (x : Actor) : (t.setActor a x).actor a = x := by
  simp [Tile.actor, Tile.setActor, Tile.setSlot, Tile.slot]

theorem Tile.actor_setActor_other (t : Tile) {a b : Nat} (x : Actor) (h : a ≠ b) : (t.setActor a x).actor b = t.actor b := by
  simp [Tile.actor, Tile.setActor, Tile.setSlot, Tile.slot, h]

theorem isPrimary_iff (s : State) : isPrimary s = true ↔
    s.cur.ctx ≠ 0 ∧ s.me.role = .primary ∧ ∃ fr, (s.here.actor s.me.actor).live = some fr ∧ fr.primary = s.me.task := by
  unfold isPrimary
  cases live : (s.here.actor s.me.actor).live <;> simp [and_assoc]

/-! Helpers (R289). -/

theorem firstM_eq_find? {α β : Type} (p : α → Prop) [DecidablePred p] (f : α → β) (l : List α) :
    l.firstM (fun i => if p i then some (f i) else none) = (l.find? fun i => decide (p i)).map f := by
  induction l with
  | nil => rfl
  | cons x l ih =>
    rw [List.firstM, ih, List.find?_cons]
    by_cases h : p x <;> simp [h]

theorem Tile.freeHelper_eq (t : Tile) : t.freeHelper = ((List.range 10).find? fun i => decide ((t.ctx (i + 1)).mode = .free)).map (· + 1) :=
  firstM_eq_find? ..

theorem Tile.freeHelper_some {t : Tile} {h : Nat} (lo : 1 ≤ h) (hi : h ≤ 10) (free : (t.ctx h).mode = .free)
    (low : ∀ j, 1 ≤ j → j < h → (t.ctx j).mode ≠ .free) : t.freeHelper = some h := by
  have first : ((List.range 10).find? fun i => decide ((t.ctx (i + 1)).mode = .free)) = some (h - 1) := by
    rw [List.find?_range_eq_some]
    refine ⟨?_, List.mem_range.mpr (by omega), fun j hj => ?_⟩
    · rw [Nat.sub_add_cancel lo]; exact decide_eq_true free
    · simpa using low (j + 1) (by omega) (by omega)
  rw [Tile.freeHelper_eq, first, Option.map_some, Nat.sub_add_cancel lo]

theorem Tile.freeHelper_none {t : Tile} (busy : ∀ j, 1 ≤ j → j ≤ 10 → (t.ctx j).mode ≠ .free) : t.freeHelper = none := by
  have none : ((List.range 10).find? fun i => decide ((t.ctx (i + 1)).mode = .free)) = none := by
    rw [List.find?_eq_none]
    intro j hj
    simpa using busy (j + 1) (by omega) (Nat.succ_le_of_lt (List.mem_range.mp hj))
  rw [Tile.freeHelper_eq, none]; rfl

/-! The registers at fire (R51). -/

theorem AMap.get?_numbered (ks : List KReg) (n j : Nat) :
    AMap.get? ((List.range n).foldl (fun m i => AMap.set m (i + 1) (nthD ks i KReg.zero)) ([] : AMap KReg)) j =
      if 1 ≤ j ∧ j ≤ n then some (nthD ks (j - 1) KReg.zero) else none := by
  split
  · rename_i h
    obtain ⟨i, -, key, val⟩ := AMap.get?_foldl_set_mem (· + 1) (fun i => nthD ks i KReg.zero) (l := List.range n) (j := j)
      ⟨j - 1, List.mem_range.mpr (by omega), by omega⟩ []
    rw [val, ← key, Nat.add_sub_cancel]
  · rename_i h
    exact AMap.get?_foldl_set_other (· + 1) (fun i => nthD ks i KReg.zero)
      (fun i hi e => h (by have := List.mem_range.mp hi; omega)) []

/-! The context of a started helper (R293). -/

section
variable (t : Tile) (p : Ctx) (ka kb : KReg)

theorem readK_startedCtx_fire {i : Nat} (hi : i < 7) : (startedCtx t p ka kb).readK (BitVec.ofNat 6 (i + 1)) = nthD p.fireK i KReg.zero := by
  have num : (BitVec.ofNat 6 (i + 1)).toNat = i + 1 := by rw [BitVec.toNat_ofNat]; omega
  have nonzero : BitVec.ofNat 6 (i + 1) ≠ 0 := fun e => by have := congrArg BitVec.toNat e; rw [num] at this; simp at this
  rw [Ctx.readK, if_neg nonzero, num]
  refine (AMap.getD_set_other _ _ _ (by omega)).trans ?_
  rw [AMap.getD, AMap.get?_numbered, if_pos (by omega)]
  rfl

theorem readK_startedCtx_8 : (startedCtx t p ka kb).readK 8 = kb := by
  rw [Ctx.readK, if_neg (by decide)]
  exact AMap.getD_set_same _ _ _ _

theorem readK_startedCtx_high {r : BitVec 6} (hr : 8 < r.toNat) : (startedCtx t p ka kb).readK r = KReg.zero := by
  rw [Ctx.readK, if_neg fun e => by rw [e] at hr; exact Nat.not_lt_zero _ hr]
  refine (AMap.getD_set_other _ _ _ (Nat.ne_of_lt hr)).trans ?_
  rw [AMap.getD, AMap.get?_numbered, if_neg (by omega)]
  rfl

end

/-! START takes a helper. -/

/-- What a START that takes helper h leaves in a tile (R293), the primary in context c. -/
structure Started (t u : Tile) (c h : Nat) (ka kb : KReg) : Prop where
  primary : u.ctx c = { ((t.ctx c).countWins.advance 4) with starts := (t.ctx c).starts + 1, startAt := none, stalled := false }
  helper : u.ctx h = (startedCtx t (t.ctx c) ka kb).onHelper (t.ctx h)
  others : ∀ q, q ≠ c → q ≠ h → u.ctx q = t.ctx q
  task : u.nextTask = t.nextTask + 1
  live : (u.actor (t.ctx c).actor).live = (t.actor (t.ctx c).actor).live.map fun fr =>
    { fr with tasks := fr.tasks ++ [t.nextTask], starts := fr.starts + 1 }
  tlm : u.tlm = t.tlm

theorem startOn_started (s : State) (k c h : Nat) (ka kb : KReg) (ne : c ≠ h) :
    Started (s.tile k) ((startOn s k c h ka kb).tile k) c h ka kb ∧ (∀ q, q ≠ k → (startOn s k c h ka kb).tile q = s.tile q) ∧
      (startOn s k c h ka kb).gmem = s.gmem := by
  refine ⟨?_, fun q hq => State.tile_setTile_other _ _ hq.symm, rfl⟩
  rw [startOn, State.tile_setTile]
  refine ⟨Tile.ctx_setCtx .., (Tile.ctx_setCtx_other _ _ ne).trans (Tile.ctx_setCtx ..), fun q hc hh => ?_, rfl, ?_, rfl⟩
  · exact (Tile.ctx_setCtx_other _ _ hc.symm).trans (Tile.ctx_setCtx_other _ _ hh.symm)
  · exact congrArg Actor.live (Tile.actor_setActor ..)

/-- A state whose tiles have the same bytes of memory. -/
theorem sameTlm_of_tile {s t : State} {k : Nat} (at_ : (t.tile k).tlm = (s.tile k).tlm) (others : ∀ q, q ≠ k → t.tile q = s.tile q) :
    s.sameTlm t := by
  intro q a
  by_cases hq : q = k
  · rw [hq, at_]
  · rw [others q hq]

/-! The instruction. -/

section
variable {f : K3} {s : State} (ready : s.kReady [f.a, f.b] [f.a, f.b] []) (notRep : s.me.inRep = false)
include ready notRep

theorem startI_not_primary (who : isPrimary s = false) : Traps (.startI f) s 0x0A 0 := by
  change execStartI f s = _
  simp only [execStartI, guardK_ready ready, notInRep_ok _ notRep, who, Bind.bind, Except.bind, Bool.not_false, trapIf_true]
  rfl

variable (who : isPrimary s = true)
include who

theorem startI_untagged (tag : (s.me.readK f.a).tag = false) : Traps (.startI f) s 0x03 ((s.me.readK f.a).addr.setWidth 64) := by
  change execStartI f s = _
  simp only [execStartI, guardK_ready ready, notInRep_ok _ notRep, who, tag, Bind.bind, Except.bind, Bool.not_false, Bool.not_true, trapIf_true,
    trapIf_false]
  rfl

variable (tag : (s.me.readK f.a).tag = true)
include tag

theorem startI_sealed (sealed : (s.me.readK f.a).typ ≠ 0) : Traps (.startI f) s 0x06 ((s.me.readK f.a).addr.setWidth 64) := by
  have sealed : (s.me.readK f.a).isSealed = true := by simpa [KReg.isSealed] using sealed
  change execStartI f s = _
  simp only [execStartI, guardK_ready ready, notInRep_ok _ notRep, who, tag, sealed, Bind.bind, Except.bind, Bool.not_true, trapIf_true, trapIf_false]
  rfl

variable (unsealed : (s.me.readK f.a).isSealed = false)
include unsealed

theorem startI_unpermitted (perms : ((s.me.readK f.a).has .x && (s.me.readK f.a).has .tlm) = false) :
    Traps (.startI f) s 0x05 ((s.me.readK f.a).addr.setWidth 64) := by
  change execStartI f s = _
  simp only [execStartI, guardK_ready ready, notInRep_ok _ notRep, who, tag, unsealed, perms, Bind.bind, Except.bind, Bool.not_false, Bool.not_true,
    trapIf_true, trapIf_false]
  rfl

variable (perms : ((s.me.readK f.a).has .x && (s.me.readK f.a).has .tlm) = true)
include perms

theorem startI_unaligned (align : (s.me.readK f.a).addr.toNat % 4 ≠ 0) : Traps (.startI f) s 0x07 ((s.me.readK f.a).addr.setWidth 64) := by
  change execStartI f s = _
  simp only [execStartI, guardK_ready ready, notInRep_ok _ notRep, who, tag, unsealed, perms, decide_eq_true align, Bind.bind, Except.bind,
    Bool.not_true, trapIf_true, trapIf_false]
  rfl

variable (align : (s.me.readK f.a).addr.toNat % 4 = 0)
include align

theorem startI_outside (bounds : (s.me.readK f.a).top < ((s.me.readK f.a).addr.toNat : Int) + 4) :
    Traps (.startI f) s 0x04 ((s.me.readK f.a).addr.setWidth 64) := by
  change execStartI f s = _
  simp only [execStartI, guardK_ready ready, notInRep_ok _ notRep, who, tag, unsealed, perms, decide_eq_false (not_not.mpr align),
    decide_eq_true bounds, Bind.bind, Except.bind, Bool.not_true, trapIf_true, trapIf_false]
  rfl

variable (bounds : ((s.me.readK f.a).addr.toNat : Int) + 4 ≤ (s.me.readK f.a).top)
include bounds

theorem startI_undeclared (helps : (s.here.actor s.me.actor).help ≤ s.me.starts) : Traps (.startI f) s 0x17 0x150 := by
  change execStartI f s = _
  simp only [execStartI, guardK_ready ready, notInRep_ok _ notRep, who, tag, unsealed, perms, decide_eq_false (not_not.mpr align),
    decide_eq_false (not_lt.mpr bounds), decide_eq_true helps, Bind.bind, Except.bind, Bool.not_true, trapIf_true, trapIf_false]
  rfl

variable (helps : s.me.starts < (s.here.actor s.me.actor).help)
include helps

theorem startI_waits (wait : (vmQueued s.me || putrDue s) = true) : Stalls (.startI f) s := by
  change execStartI f s = _
  simp only [execStartI, guardK_ready ready, notInRep_ok _ notRep, who, tag, unsealed, perms, decide_eq_false (not_not.mpr align),
    decide_eq_false (not_lt.mpr bounds), decide_eq_false (not_le.mpr helps), wait, Bind.bind, Except.bind, Bool.not_true, trapIf_false, stallIf_true]
  rfl

variable (wait : (vmQueued s.me || putrDue s) = false) (fresh : s.me.startAt = none)
include wait fresh

theorem exec_start {h : Nat} (turn : (s.here.preReq || (AMap.vals s.here.ctxs).any fun c => c.startAt.isSome) = false)
    (helper : s.here.freeHelper = some h) :
    exec (.startI f) s = .next (startOn s s.cur.tile s.cur.ctx h (s.me.readK f.a) (s.me.readK f.b)) := by
  change execStartI f s = _
  simp only [execStartI, guardK_ready ready, notInRep_ok _ notRep, who, tag, unsealed, perms, decide_eq_false (not_not.mpr align),
    decide_eq_false (not_lt.mpr bounds), decide_eq_false (not_le.mpr helps), wait, fresh, turn, helper, Bind.bind, Except.bind, Bool.not_true,
    trapIf_false, stallIf_false]
  rfl

/-- A START that waits is queued behind those before it (R289). -/
def State.startQueued (s : State) (ka kb : KReg) : State :=
  (s.setMe { s.me with startAt := some (s.here.nextStart, ka, kb), stalled := true }).setHere
    { (s.setMe { s.me with startAt := some (s.here.nextStart, ka, kb), stalled := true }).here with nextStart := s.here.nextStart + 1 }

theorem exec_start_queued
    (turn : (if s.here.preReq || (AMap.vals s.here.ctxs).any fun c => c.startAt.isSome then none else s.here.freeHelper) = none) :
    exec (.startI f) s = .next (s.startQueued (s.me.readK f.a) (s.me.readK f.b)) := by
  change execStartI f s = _
  simp only [execStartI, guardK_ready ready, notInRep_ok _ notRep, who, tag, unsealed, perms, decide_eq_false (not_not.mpr align),
    decide_eq_false (not_lt.mpr bounds), decide_eq_false (not_le.mpr helps), wait, fresh, turn, Bind.bind, Except.bind, Bool.not_true,
    trapIf_false, stallIf_false]
  rfl

end

theorem AMap.any_vals {α : Type} (m : AMap α) (p : α → Bool) : (AMap.vals m).any p = true ↔ ∃ x ∈ m, p x.2 = true := by
  simp [AMap.vals]

theorem AMap.any_vals_false {α : Type} (m : AMap α) (p : α → Bool) : (AMap.vals m).any p = false ↔ ∀ x ∈ m, p x.2 = false := by
  simp [AMap.vals]

/-- No turn is free at once: a pre-emption is asked, a START waits already, or no helper is free. -/
theorem noTurn {t : Tile} (h : t.preReq = true ∨ (∃ p ∈ t.ctxs, p.2.startAt ≠ none) ∨ ∀ j, 1 ≤ j → j ≤ 10 → (t.ctx j).mode ≠ .free) :
    (if t.preReq || (AMap.vals t.ctxs).any fun c => c.startAt.isSome then none else t.freeHelper) = none := by
  obtain pre | ⟨p, hp, waits⟩ | busy := h
  · rw [pre]; rfl
  · rw [(AMap.any_vals _ _).mpr ⟨p, hp, Option.isSome_iff_ne_none.mpr waits⟩, Bool.or_true]; rfl
  · rw [Tile.freeHelper_none busy, ite_self]

theorem State.here_startQueued (s : State) (ka kb : KReg) : (s.startQueued ka kb).here =
    { s.here.setCtx s.cur.ctx { s.me with startAt := some (s.here.nextStart, ka, kb), stalled := true } with nextStart := s.here.nextStart + 1 } := by
  simp [State.startQueued]

theorem State.tile_startQueued_other (s : State) (ka kb : KReg) {q : Nat} (hq : q ≠ s.cur.tile) : (s.startQueued ka kb).tile q = s.tile q :=
  (State.tile_setTile_other _ _ hq.symm).trans (State.tile_setTile_other _ _ hq.symm)

theorem goesOn_of_flow {s t : State} {len : Nat} (h : (s.me.advance len).SameFlow t.me) : GoesOn s t len :=
  ⟨h.pcc, h.loop0, h.loop1, h.rep, fun free => by rw [← Ctx.advance_unlooped free]; exact congrArg KReg.addr h.pcc⟩

/-- Settles O37. -/
theorem startChecksAndStarts : Obligations.StartChecksAndStarts := by
  unfold Obligations.StartChecksAndStarts
  intro f s ready notRep ka v t0 ax primary ok4 pass
  have who : isPrimary s = true ↔ primary := isPrimary_iff s
  have perms : (ka.has .x && ka.has .tlm) = true ↔ ok4 := by rw [Bool.and_eq_true]
  have unsealed (typ : ka.typ = 0) : ka.isSealed = false := by simp [KReg.isSealed, typ]
  refine ⟨fun no => startI_not_primary ready notRep (by rwa [← who, Bool.not_eq_true] at no), fun prim =>
    ⟨startI_untagged ready notRep (who.mpr prim), startI_sealed ready notRep (who.mpr prim),
      fun tag typ no => startI_unpermitted ready notRep (who.mpr prim) tag (unsealed typ) (by rwa [← perms, Bool.not_eq_true] at no),
      fun tag typ ok => startI_unaligned ready notRep (who.mpr prim) tag (unsealed typ) (perms.mpr ok),
      fun tag typ ok => startI_outside ready notRep (who.mpr prim) tag (unsealed typ) (perms.mpr ok),
      fun tag typ ok => startI_undeclared ready notRep (who.mpr prim) tag (unsealed typ) (perms.mpr ok), ?_, ?_⟩⟩
  · rintro ⟨tag, typ, ok, align, bounds, helps⟩ wait
    exact startI_waits ready notRep (who.mpr prim) tag (unsealed typ) (perms.mpr ok) align bounds helps (by rwa [Bool.or_eq_true])
  rintro ⟨tag, typ, ok, align, bounds, helps⟩ queued due fresh live
  have wait : (vmQueued s.me || putrDue s) = false := by rw [queued, due]; rfl
  refine ⟨fun h pre none lo hi free low => ?_, fun turn => ?_⟩
  · have turn : (s.here.preReq || (AMap.vals s.here.ctxs).any fun c => c.startAt.isSome) = false := by
      rw [show s.here.preReq = false from pre, Bool.false_or, AMap.any_vals_false]
      exact fun p hp => by rw [none p hp]; rfl
    have ne : s.cur.ctx ≠ h := fun e => live (by rw [← e] at free; exact free)
    obtain ⟨⟨prim', helper, others, task, fire, tlm⟩, tiles, gmem⟩ := startOn_started s s.cur.tile s.cur.ctx h ka (s.me.readK f.b) ne
    refine ⟨_, exec_start ready notRep (who.mpr prim) tag (unsealed typ) (perms.mpr ok) align bounds helps wait fresh turn
      (Tile.freeHelper_some lo hi free low), ?_, ?_, ?_, ?_, task, fire, others, tiles, sameTlm_of_tile tlm tiles, ?_⟩
    · refine goesOn_of_flow ?_
      rw [show State.me _ = _ from prim', Ctx.countWins_advance]
      exact ⟨rfl, rfl, rfl, rfl⟩
    · rw [show State.me _ = _ from prim']; rfl
    · intro r
      rw [show State.me _ = _ from prim', Ctx.countWins_advance]
      have same : (s.me.advance 4).k = s.me.k := by rw [Ctx.advance_only]
      exact congrArg (fun k => if r = 0 then KReg.zero else AMap.getD k r.toNat KReg.zero) same
    · intro c
      rw [show c = _ from helper]
      exact ⟨rfl, rfl, rfl, rfl, rfl, rfl, fun i hi => readK_startedCtx_fire t0 s.me ka (s.me.readK f.b) hi,
        readK_startedCtx_8 t0 s.me ka (s.me.readK f.b), fun r hr => readK_startedCtx_high t0 s.me ka (s.me.readK f.b) hr, fun r => rfl,
        fun r hr => if_neg hr, rfl, rfl⟩
    · exact fun a => by rw [gmem]
  · refine ⟨_, exec_start_queued ready notRep (who.mpr prim) tag (unsealed typ) (perms.mpr ok) align bounds helps wait fresh (noTurn turn),
      ?_, ?_, fun q hq => ?_, sameTlm_of_tile (k := s.cur.tile) ?_ fun q => State.tile_startQueued_other _ _ _, fun a => rfl⟩
    · exact (congrArg (fun x : Tile => x.ctx s.cur.ctx) (State.here_startQueued ..)).trans (Tile.ctx_setCtx ..)
    · rw [State.here_startQueued]
    · rw [State.here_startQueued]
      exact Tile.ctx_setCtx_other _ _ hq.symm
    · exact (congrArg Tile.tlm (State.here_startQueued s ..)).trans rfl

end Sys2Proof.Machine
end

section
/-!
A helper's trap (02 R365, R366), and the dispatcher's choice (R289, R290, R298; O38).
-/

namespace Sys2Proof.Machine

/-! The trap of a helper. -/

theorem KReg.withAddr_rest (c : KReg) (a : Addr) : (c.withAddr a).bits.extractLsb' 48 80 = c.bits.extractLsb' 48 80 := by
  rw [KReg.withAddr]
  exact BitVec.extractLsb'_append_eq_left

theorem toNat_append_zeros {n : Nat} (x : BitVec n) (m : Nat) : (x ++ 0#m).toNat = x.toNat * 2 ^ m := by
  rw [BitVec.toNat_append]
  simp [Nat.shiftLeft_eq]

theorem lowestPend_least {p : BitVec 11} (h : p ≠ 0) : p.getLsbD (lowestPend p) = true ∧ ∀ j, j < lowestPend p → p.getLsbD j = false := by
  obtain ⟨i, hi, set⟩ : ∃ i, i < 11 ∧ p.getLsbD i = true := by
    by_contra none
    push Not at none
    refine h (BitVec.eq_of_getLsbD_eq fun i hi => ?_)
    simpa using none i hi
  cases found : (List.range 11).find? fun i => p.getLsbD i with
  | none => exact absurd set (List.find?_eq_none.mp found i (List.mem_range.mpr hi))
  | some low =>
    rw [lowestPend, upto, found, Option.getD_some]
    obtain ⟨bit, -, before⟩ := List.find?_range_eq_some.mp found
    exact ⟨bit, fun j hj => by simpa using before j hj⟩

/-- Context 0 is entered for the lowest pending frame (R366). -/
theorem Tile.enterMonitor_entered {t : Tile} (nest : t.nest = false) (pend : t.pend ≠ 0) :
    ∃ low, t.enterMonitor.pend.getLsbD low = true ∧ (∀ j, j < low → t.enterMonitor.pend.getLsbD j = false) ∧
      Entered (t.ctx 0) (t.enterMonitor.ctx 0) t t.enterMonitor low 0 (BitVec.ofNat 64 (t.ctx 0).pc.toNat) 0 := by
  have enter : (t.nest || t.pend == 0) = false := by rw [nest, Bool.false_or, beq_eq_false_iff_ne]; exact pend
  refine ⟨lowestPend t.pend, ?_⟩
  simp only [Tile.enterMonitor, enter, if_neg Bool.false_ne_true]
  obtain ⟨bit, before⟩ := lowestPend_least pend
  refine ⟨bit, before, ?_⟩
  have ctx0 : ∀ (c : Ctx) (n : Bool) (f : Nat), ({ t.setCtx 0 c with nest := n, fsel := f } : Tile).ctx 0 = c := fun c _ _ => Tile.ctx_setCtx t 0 c
  constructor
  case nest => rfl
  case fsel => rfl
  case entry =>
    rw [ctx0, Ctx.pc_setPc, ← BitVec.ofNat_toNat, toNat_append_zeros]; rfl
  case tag => rw [ctx0]; rfl
  case rest => rw [ctx0]; exact KReg.withAddr_rest _ _
  case others => rw [ctx0, BitVec.ofNat_toNat]; rfl

theorem Tile.enterMonitor_eq (t : Tile) :
    t.enterMonitor = { t with ctxs := t.enterMonitor.ctxs, nest := t.enterMonitor.nest, fsel := t.enterMonitor.fsel } := by
  unfold Tile.enterMonitor
  split <;> rfl

theorem Tile.enterMonitor_ctx_other (t : Tile) {q : Nat} (hq : q ≠ 0) : t.enterMonitor.ctx q = t.ctx q := by
  unfold Tile.enterMonitor
  split
  · rfl
  · exact Tile.ctx_setCtx_other _ _ hq.symm

theorem Tile.enterMonitor_nested {t : Tile} (nest : t.nest = true) : t.enterMonitor = t := by
  rw [Tile.enterMonitor, nest]; rfl

theorem State.noteTrap_eq (s : State) (k n : Nat) (code : Byte) (pc val : Word) :
    s.noteTrap k n code pc val = { s with res := (s.noteTrap k n code pc val).res } := by
  unfold State.noteTrap State.recordTrap
  split
  · rfl
  · dsimp only
    split <;> rfl

/-- The frame of a helper that traps (R365). -/
theorem helperTrap_trapped (s : State) (k : Nat) {n : Nat} (code : Byte) (val : Word) (pc : Addr) (lo : n ≠ 0) (hi : n ≤ 10) :
    HelperTrapped s (helperTrap s k n code val pc false) k n (code.setWidth 64) val pc := by
  set c := ((s.tile k).ctx n).framed (code.setWidth 64) val pc with hc
  set t1 : Tile := { (s.tile k).setCtx n c with pend := (s.tile k).pend ||| (1#11 <<< n) } with ht1
  have trap : helperTrap s k n code val pc false = (s.setTile k t1.enterMonitor).noteTrap k n code (pc.setWidth 64) val := by
    rw [ht1, hc, Ctx.framed, BitVec.ofNat_toNat, ← BitVec.or_zero (x := code.setWidth 64)]; rfl
  have tile : (helperTrap s k n code val pc false).tile k = t1.enterMonitor := by
    rw [trap, State.noteTrap_eq]
    exact State.tile_setTile _ _ _
  have other : ∀ q, q ≠ k → (helperTrap s k n code val pc false).tile q = s.tile q := fun q hq => by
    rw [trap, State.noteTrap_eq]
    exact State.tile_setTile_other _ _ hq.symm
  have mine : t1.ctx n = c := Tile.ctx_setCtx ..
  have zero : t1.ctx 0 = (s.tile k).ctx 0 := Tile.ctx_setCtx_other _ _ lo
  have pending : t1.pend ≠ 0 := fun e => by
    have bit : t1.pend.getLsbD n = true := by
      rw [ht1, BitVec.getLsbD_or, BitVec.getLsbD_shiftLeft]
      simp [show n < 11 by omega]
    rw [e] at bit
    simp at bit
  constructor
  case frame => rw [tile, Tile.enterMonitor_ctx_other _ lo, mine]
  case pend => rw [tile, Tile.enterMonitor_eq]
  case nested =>
    intro nest
    rw [tile, Tile.enterMonitor_nested (show t1.nest = true from nest)]
    exact ⟨nest, rfl, zero⟩
  case entered =>
    intro nest
    rw [tile, ← zero]
    obtain ⟨low, bit, before, entered⟩ := Tile.enterMonitor_entered (t := t1) nest pending
    exact ⟨low, bit, before, { entered with entry := entered.entry }⟩
  case ctxs =>
    intro q hn h0
    rw [tile, Tile.enterMonitor_ctx_other _ h0]
    exact Tile.ctx_setCtx_other _ _ hn.symm
  case tile => rw [tile, Tile.enterMonitor_eq]; rfl
  case tiles => exact other
  case others => rw [trap, State.noteTrap_eq]; rfl

/-! The first of a list by a key. -/

/-- A fold that keeps the element with the smaller key finds the least one. -/
theorem foldl_least {α : Type} {g : Option α → α → Option α} {f : α → Nat} (first : ∀ x, g none x = some x)
    (next : ∀ y x, g (some y) x = if f x < f y then some x else some y) {l : List α} {x : α} (mem : x ∈ l) (least : ∀ y ∈ l, y = x ∨ f x < f y) :
    l.foldl g none = some x := by
  suffices h : ∀ (l : List α) b, (∀ y ∈ l, y = x ∨ f x < f y) → (∀ y, b = some y → y = x ∨ f x < f y) → (x ∈ l ∨ b = some x) → l.foldl g b = some x from
    h l none least (by simp) (.inl mem)
  clear mem least
  intro l
  induction l with
  | nil => intro b _ _ found; simpa using found
  | cons y l ih =>
    intro b keys start found
    rw [List.foldl_cons]
    have y_key := keys y List.mem_cons_self
    refine ih _ (fun z hz => keys z (List.mem_cons_of_mem y hz)) ?_ ?_
    · cases b with
      | none => rw [first]; rintro z ⟨⟩; exact y_key
      | some w =>
        rw [next]
        split
        · rintro z ⟨⟩; exact y_key
        · exact start
    · cases b with
      | none => rw [first]; grind
      | some w =>
        rw [next]
        have := start w rfl
        grind

/-! The oldest stalled START, and the first task whose page wait is over (R289). -/

theorem firstStart_some {t : Tile} {c o : Nat} {ka kb : KReg} (start : (t.ctx c).startAt = some (o, ka, kb)) (mem : (c, t.ctx c) ∈ t.ctxs)
    (oldest : ∀ p ∈ t.ctxs, ∀ x, p.2.startAt = some x → p.1 ≠ c → o < x.1) (only : ∀ p ∈ t.ctxs, p.1 = c → p.2 = t.ctx c) :
    firstStart t = some (c, ka, kb) := by
  unfold firstStart
  dsimp only
  rw [foldl_least (x := (c, o, ka, kb)) (f := fun y => y.2.1) (fun _ => rfl) (fun _ _ => rfl)]
  · exact List.mem_filterMap.mpr ⟨_, mem, by rw [start]; rfl⟩
  · intro y hy
    obtain ⟨p, hp, at_⟩ := List.mem_filterMap.mp hy
    obtain ⟨x, hx, rfl⟩ := Option.map_eq_some_iff.mp at_
    by_cases same : p.1 = c
    · rw [only p hp same, start, Option.some_inj] at hx
      exact .inl (by rw [same, hx])
    · exact .inr (oldest p hp x hx same)

theorem firstStart_none {t : Tile} (idle : ∀ p ∈ t.ctxs, p.2.startAt = none) : firstStart t = none := by
  unfold firstStart
  dsimp only
  rw [List.filterMap_eq_nil_iff.mpr fun p hp => by rw [idle p hp]; rfl]
  rfl

/-- The waiters that may resume, each with the moment it became ready and its place. -/
theorem mem_readies {s : State} {k : Nat} {x : Nat × Nat} :
    x ∈ ((List.range (s.tile k).waiters.length).filterMap fun i => match (s.tile k).waiters[i]? with
      | some w => if s.heldCtx k w.ctx then none else w.ready.map fun k => (k, i)
      | none => none) ↔ ∃ w, (s.tile k).waiters[x.2]? = some w ∧ s.heldCtx k w.ctx = false ∧ w.ready = some x.1 := by
  rw [List.mem_filterMap]
  constructor
  · rintro ⟨i, -, h⟩
    split at h
    case h_2 => cases h
    case h_1 w hw =>
    split at h
    case isTrue => cases h
    case isFalse free =>
    obtain ⟨n, hn, rfl⟩ := Option.map_eq_some_iff.mp h
    exact ⟨w, hw, by simpa using free, hn⟩
  · rintro ⟨w, hw, free, ready⟩
    exact ⟨x.2, List.mem_range.mpr (List.getElem?_eq_some_iff.mp hw).1, by rw [hw]; simp [free, ready]⟩

theorem firstReady_some {s : State} {k i n : Nat} {w : Waiter} (hw : (s.tile k).waiters[i]? = some w) (free : s.heldCtx k w.ctx = false)
    (ready : w.ready = some n)
    (first : ∀ j u m, (s.tile k).waiters[j]? = some u → s.heldCtx k u.ctx = false → u.ready = some m → j ≠ i → n < m) :
    firstReady s k = some i := by
  unfold firstReady
  dsimp only
  rw [foldl_least (x := (n, i)) (f := fun y => y.1) (fun _ => rfl) (fun _ _ => rfl)]
  · exact mem_readies.mpr ⟨w, hw, free, ready⟩
  · rintro ⟨m, j⟩ hy
    obtain ⟨u, hu, free', ready'⟩ := mem_readies.mp hy
    by_cases same : j = i
    · obtain rfl := same
      obtain rfl := Option.some_inj.mp (hw.symm.trans hu)
      exact .inl (by rw [Option.some_inj.mp (ready.symm.trans ready')])
    · exact .inr (first j u m hu free' ready' same)

theorem firstReady_none {s : State} {k : Nat} (idle : ∀ w ∈ (s.tile k).waiters, w.ready = none ∨ s.heldCtx k w.ctx = true) :
    firstReady s k = none := by
  unfold firstReady
  dsimp only
  rw [List.filterMap_eq_nil_iff.mpr fun i hi => Option.eq_none_iff_forall_ne_some.mpr fun x at_ => ?_]
  · rfl
  · obtain ⟨w, hw, free, ready⟩ := mem_readies.mp (List.mem_filterMap.mpr ⟨i, hi, at_⟩)
    obtain no | held := idle w (List.mem_of_getElem? hw)
    · rw [no] at ready; cases ready
    · rw [held] at free; cases free

/-! The choice in class 3 (R290). -/

theorem foldl_max_le_iff {α : Type} (f : α → Nat) (l : List α) (b n : Nat) :
    l.foldl (fun m i => max m (f i)) b ≤ n ↔ b ≤ n ∧ ∀ i ∈ l, f i ≤ n := by
  induction l generalizing b with
  | nil => simp
  | cons x l ih => rw [List.foldl_cons, ih, max_le_iff, List.forall_mem_cons, and_assoc]

/-- The candidates of a tile. -/
def State.cands (s : State) (k : Nat) : List Nat := (upto 12).filter (isCandidate s k)

theorem State.mem_cands {s : State} {k i : Nat} : i ∈ s.cands k ↔ i < 12 ∧ isCandidate s k i = true := by
  simp [State.cands, upto]

/-- The candidates among which the dispatcher chooses (R290). -/
def State.candPool (s : State) (k : Nat) : List Nat :=
  let urgent := (s.cands k).filter fun i => decide (16 ≤ candPass (s.tile k) i)
  let top := (s.cands k).foldl (fun m i => max m (candPrio s k i)) 0
  if urgent.isEmpty then (s.cands k).filter fun i => candPrio s k i == top else urgent

theorem chooseCand_eq (s : State) (k : Nat) :
    chooseCand s k (s.cands k) = (ringFrom (s.tile k).ring).find? fun i => (s.candPool k).any (· == i) := rfl

theorem top_prio {s : State} {k j : Nat} (hj : j ∈ s.cands k) :
    candPrio s k j = (s.cands k).foldl (fun m i => max m (candPrio s k i)) 0 ↔ ∀ i ∈ s.cands k, candPrio s k i ≤ candPrio s k j := by
  have bound := ((foldl_max_le_iff (candPrio s k) (s.cands k) 0 _).mp le_rfl).2 j hj
  rw [eq_comm, ← bound.ge_iff_eq', foldl_max_le_iff]
  simp

theorem mem_candPool {s : State} {k j : Nat} : j ∈ s.candPool k ↔ inPool s k j := by
  unfold State.candPool inPool
  dsimp only
  split
  case isTrue calm =>
    have calm : ∀ i, i < 12 → isCandidate s k i = true → candPass (s.tile k) i < 16 := fun i hi cand => by
      simpa using List.filter_eq_nil_iff.mp (List.isEmpty_iff.mp calm) i (State.mem_cands.mpr ⟨hi, cand⟩)
    rw [List.mem_filter, beq_iff_eq, State.mem_cands]
    constructor
    · rintro ⟨⟨hj, cand⟩, prio⟩
      refine ⟨hj, cand, fun ⟨i, hi, c, u⟩ => absurd (calm i hi c) (not_lt.mpr u), fun _ i hi c => ?_⟩
      exact (top_prio (State.mem_cands.mpr ⟨hj, cand⟩)).mp prio i (State.mem_cands.mpr ⟨hi, c⟩)
    · rintro ⟨hj, cand, -, prio⟩
      refine ⟨⟨hj, cand⟩, (top_prio (State.mem_cands.mpr ⟨hj, cand⟩)).mpr fun i hi => ?_⟩
      obtain ⟨hi, c⟩ := State.mem_cands.mp hi
      exact prio calm i hi c
  case isFalse urgent =>
    obtain ⟨i, hi⟩ := List.exists_mem_of_ne_nil _ (mt List.isEmpty_iff.mpr urgent)
    obtain ⟨hi, late⟩ := List.mem_filter.mp hi
    obtain ⟨hi, c⟩ := State.mem_cands.mp hi
    have late := of_decide_eq_true late
    rw [List.mem_filter, decide_eq_true_eq, State.mem_cands]
    constructor
    · rintro ⟨⟨hj, cand⟩, pass⟩
      exact ⟨hj, cand, fun _ => pass, fun calm => absurd (calm i hi c) (not_lt.mpr late)⟩
    · rintro ⟨hj, cand, pass, -⟩
      exact ⟨⟨hj, cand⟩, pass ⟨i, hi, c, late⟩⟩

/-- The slot that stands at a place of the ring. -/
theorem ringFrom_place {t : Tile} {i : Nat} (hi : i < 12) : (t.ring + 1 + t.ringPlace i) % 12 = i := by
  unfold Tile.ringPlace; omega

theorem ringPlace_lt (t : Tile) (i : Nat) : t.ringPlace i < 12 := Nat.mod_lt _ (by decide)

theorem ringPlace_at {t : Tile} {n : Nat} (hn : n < 12) : t.ringPlace ((t.ring + 1 + n) % 12) = n := by
  unfold Tile.ringPlace; omega

theorem chooseCand_chosen {s : State} {k i : Nat} (chosen : Chosen s k i) : chooseCand s k (s.cands k) = some i := by
  obtain ⟨pool, first⟩ := chosen
  have place := ringFrom_place (t := s.tile k) pool.1
  have found : (List.range 12).find? (fun n => (s.candPool k).any (· == ((s.tile k).ring + 1 + n) % 12)) = some ((s.tile k).ringPlace i) := by
    rw [List.find?_range_eq_some]
    refine ⟨by rw [place, List.any_beq', List.contains_iff_mem]; exact mem_candPool.mpr pool, List.mem_range.mpr (ringPlace_lt _ _), fun n hn => ?_⟩
    rw [List.any_beq', Bool.not_eq_true', ← Bool.not_eq_true, List.contains_iff_mem]
    intro mem
    have := first _ (mem_candPool.mp mem)
    rw [ringPlace_at (hn.trans (ringPlace_lt _ _))] at this
    omega
  calc chooseCand s k (s.cands k)
    _ = ((List.range 12).find? _).map _ := by rw [chooseCand_eq, ringFrom, List.find?_map]; rfl
    _ = (some ((s.tile k).ringPlace i)).map _ := congrArg _ found
    _ = some i := by rw [Option.map_some, place]

theorem chooseCand_none {s : State} {k : Nat} (none : s.cands k = []) : chooseCand s k (s.cands k) = Option.none := by
  rw [none]
  exact List.find?_eq_none.mpr fun i _ => by simp

/-! The pass counts and the ring's place change nothing that a candidate is chosen by. -/

theorem Tile.foldl_passes_eq (step : Tile → Nat → Nat) (cs : List Nat) (t : Tile) :
    cs.foldl (fun t i => t.setPass i (step t i)) t = { t with passes := (cs.foldl (fun t i => t.setPass i (step t i)) t).passes } := by
  induction cs generalizing t with
  | nil => rfl
  | cons c cs ih => rw [List.foldl_cons, ih]; rfl

theorem Tile.passed_eq (t : Tile) (cs : List Nat) (i : Nat) : t.passed cs i = { t with passes := (t.passed cs i).passes, ring := i } := by
  rw [Tile.passed, Tile.foldl_passes_eq fun t j => if j = i then 0 else min 16 (candPass t j + 1)]

/-- The pass counts after a choice: 0 for the chosen one, one more for each other candidate (R290). -/
theorem candPass_passed {cs : List Nat} (nodup : cs.Nodup) (t : Tile) (i j : Nat) :
    candPass (t.passed cs i) j = if j ∈ cs then if j = i then 0 else min 16 (candPass t j + 1) else candPass t j := by
  suffices h : candPass (cs.foldl (fun t c => t.setPass c (if c = i then 0 else min 16 (candPass t c + 1))) t) j = _ from h
  induction cs generalizing t with
  | nil => rfl
  | cons c cs ih =>
    obtain ⟨fresh, nodup⟩ := List.nodup_cons.mp nodup
    rw [List.foldl_cons, ih nodup]
    by_cases same : j = c
    · subst same
      simp [fresh, candPass, Tile.setPass]
    · simp [same, candPass, Tile.setPass, AMap.getD_set_other _ _ _ (Ne.symm same)]

theorem State.cands_nodup (s : State) (k : Nat) : (s.cands k).Nodup := List.nodup_range.filter _

/-- A state whose candidates of a tile have been counted as passed over. -/
def State.countPassed (s : State) (k i : Nat) : State := s.updTile k fun t => t.passed (s.cands k) i

section
variable (s : State) (k i : Nat)

theorem State.tile_countPassed : (s.countPassed k i).tile k =
    { s.tile k with passes := ((s.tile k).passed (s.cands k) i).passes, ring := i } :=
  (State.tile_updTile _ _ _).trans (Tile.passed_eq ..)

theorem State.tile_countPassed_other {q : Nat} (hq : q ≠ k) : (s.countPassed k i).tile q = s.tile q :=
  State.tile_setTile_other _ _ hq.symm

theorem State.slot_countPassed (q : Nat) : ((s.countPassed k i).tile q).slot = (s.tile q).slot := by
  by_cases hq : q = k
  · rw [hq, State.tile_countPassed]; rfl
  · rw [State.tile_countPassed_other _ _ _ hq]

theorem actorFiring_countPassed (a : Nat) : actorFiring (s.countPassed k i) k a = actorFiring s k a := by
  have room (p : Nat) : (s.countPassed k i).portRoom k p = s.portRoom k p := by
    rw [State.portRoom, State.tile_countPassed]; rfl
  have rooms : (s.countPassed k i).roomsOk k a = s.roomsOk k a := by
    simp only [State.roomsOk, room, State.tile_countPassed]; rfl
  have todo : actorTodo (s.countPassed k i) k a = actorTodo s k a := by
    simp only [actorTodo, sourceTodo, actorOpen, rooms, State.tile_countPassed]; rfl
  simp only [actorFiring, todo, rooms, State.tile_countPassed]; rfl

theorem teamReady_countPassed (n : Nat) : teamReady (s.countPassed k i) k n = teamReady s k n := by
  have held (q a : Nat) : ((s.countPassed k i).tile q).actor a = (s.tile q).actor a := by
    rw [Tile.actor, State.slot_countPassed]; rfl
  have slots : ((s.countPassed k i).tile k).sweepSlots = (s.tile k).sweepSlots := by rw [State.tile_countPassed]
  simp only [teamReady, slots, held]; rfl

end

/-! The registers at fire (R51). -/

theorem KReg.addr_make (base len : Nat) (perms : List Perm) (a : Addr) : (KReg.make base len perms a).addr = a :=
  BitVec.extractLsb'_append_eq_right

theorem codeCap_addr (t : Tile) (entry : Addr) : (codeCap t entry).addr = entry := by
  unfold codeCap
  dsimp only
  split <;> exact KReg.addr_make ..

theorem getD_fireMap (ks : List KReg) (j : Nat) :
    AMap.getD (fireMap ks) j KReg.zero = if 1 ≤ j ∧ j ≤ ks.length then nthD ks (j - 1) KReg.zero else KReg.zero := by
  rw [AMap.getD, fireMap, AMap.get?_numbered]
  split <;> rfl

/-- A context whose k registers hold the values at fire. -/
theorem readK_fire {c : Ctx} {ks : List KReg} (h : c.k = fireMap ks) {r : BitVec 6} (pos : r ≠ 0) :
    c.readK r = if r.toNat ≤ ks.length then nthD ks (r.toNat - 1) KReg.zero else KReg.zero := by
  have : 1 ≤ r.toNat := Nat.pos_of_ne_zero fun e => pos (BitVec.eq_of_toNat_eq e)
  rw [Ctx.readK, if_neg pos, h, getD_fireMap]
  simp [this]

theorem readK_fire_high {c : Ctx} {ks : List KReg} (h : c.k = fireMap ks) {r : BitVec 6} (high : ks.length < r.toNat) : c.readK r = KReg.zero := by
  rw [readK_fire h fun e => by rw [e] at high; exact Nat.not_lt_zero _ high, if_neg (not_le.mpr high)]

/-! What a choice of class 3 leaves. -/

/-- What the dispatcher does for the candidate it chose (R289, R290). -/
def State.startCand (s u : State) (k h i : Nat) : State :=
  (if i < 8 then (match actorFiring u k i with
      | some (kind, entry, step) => startFiring u k i h kind entry step
      | none => u)
    else match teamReady u k (i - 8) with
      | some (x, w) => startTeam u k (i - 8) h x w
      | none => u).moved (s.handleOf k)

theorem dispatchThree_eq (s : State) (k h : Nat) :
    dispatchThree s k h = (chooseCand s k (s.cands k)).elim s fun i => s.startCand (s.countPassed k i) k h i := by
  unfold dispatchThree
  generalize hc : (upto 12).filter (isCandidate s k) = cs
  have hc : s.cands k = cs := hc
  simp only [State.countPassed, hc]
  cases chooseCand s k cs <;> rfl

theorem dispatchThree_none {s : State} {k h : Nat} (idle : s.cands k = []) : dispatchThree s k h = s := by
  rw [dispatchThree_eq, chooseCand_none idle]; rfl

theorem dispatchThree_firing {s : State} {k h i : Nat} (chosen : Chosen s k i) (actor : i < 8) {kind entry step}
    (fires : actorFiring s k i = some (kind, entry, step)) :
    dispatchThree s k h = (startFiring (s.countPassed k i) k i h kind entry step).moved (s.handleOf k) := by
  rw [dispatchThree_eq, chooseCand_chosen chosen, Option.elim_some, State.startCand, if_pos actor, actorFiring_countPassed, fires]

theorem dispatchThree_team {s : State} {k h i : Nat} (chosen : Chosen s k i) (team : 8 ≤ i) {x w} (ready : teamReady s k (i - 8) = some (x, w)) :
    dispatchThree s k h = (startTeam (s.countPassed k i) k (i - 8) h x w).moved (s.handleOf k) := by
  rw [dispatchThree_eq, chooseCand_chosen chosen, Option.elim_some, State.startCand, if_neg (not_lt.mpr team), teamReady_countPassed, ready]

/-- What a class-3 choice of slot i for helper h leaves of a tile. -/
structure ChoiceFrame (s t : State) (k h i : Nat) : Prop where
  ring : (t.tile k).ring = i
  chosen : candPass (t.tile k) i = 0
  passed : ∀ j, j < 12 → j ≠ i → candPass (t.tile k) j =
    if isCandidate s k j then min 16 (candPass (s.tile k) j + 1) else candPass (s.tile k) j
  ctxs : ∀ q, q ≠ h → (t.tile k).ctx q = (s.tile k).ctx q
  tiles : ∀ q, q ≠ k → t.tile q = s.tile q
  tlm : s.sameTlm t
  gmem : s.sameGmem t

theorem choiceFrame {s t : State} {k h i : Nat} {u : Tile} (chosen : Chosen s k i) (tile : t.tile k = u)
    (passes : u.passes = ((s.countPassed k i).tile k).passes) (ring : u.ring = i) (ctxs : ∀ q, q ≠ h → u.ctx q = (s.tile k).ctx q)
    (tlm : u.tlm = (s.tile k).tlm) (others : ∀ q, q ≠ k → t.tile q = (s.countPassed k i).tile q) (gmem : t.gmem = s.gmem) :
    ChoiceFrame s t k h i := by
  have others q (hq : q ≠ k) : t.tile q = s.tile q := (others q hq).trans (State.tile_countPassed_other _ _ _ hq)
  have pass j : candPass (t.tile k) j = candPass ((s.tile k).passed (s.cands k) i) j := by
    rw [tile, candPass, passes, State.tile_countPassed]; rfl
  constructor
  case ring => rw [tile, ring]
  case chosen => rw [pass, candPass_passed (s.cands_nodup k), if_pos (State.mem_cands.mpr ⟨chosen.1.1, chosen.1.2.1⟩), if_pos rfl]
  case passed =>
    intro j hj ne
    rw [pass, candPass_passed (s.cands_nodup k)]
    simp [State.mem_cands, hj, ne]
  case ctxs => rw [tile]; exact ctxs
  case tiles => exact others
  case tlm => exact sameTlm_of_tile (by rw [tile, tlm]) others
  case gmem => exact fun a => by rw [gmem]

/-! DISPATCH on a free helper of a live tile that no pre-emption halts. -/

theorem exec_dispatch_busy {s : State} {k h : Nat} (busy : ((s.tile k).ctx h).mode ≠ .free) : exec (.dispatch k h) s = .next s :=
  if_pos (.inr (.inr (.inl busy)))

section
variable {s : State} {k h : Nat} (lo : 1 ≤ h) (hi : h ≤ 10) (free : ((s.tile k).ctx h).mode = .free) (pre : (s.tile k).preReq = false)
  (alive : (s.tile k).alive = true)
include lo hi free pre alive

theorem dispatch_open : ¬(h = 0 ∨ 10 < h ∨ ((s.tile k).ctx h).mode ≠ .free ∨ (s.tile k).preReq = true ∨ (!(s.tile k).alive) = true) := by
  simp only [pre, alive, free]
  simp
  omega

theorem exec_dispatch_start {c : Nat} {ka kb : KReg} (start : firstStart (s.tile k) = some (c, ka, kb)) :
    exec (.dispatch k h) s = .next ((startOn s k c h ka kb).moved (s.handleOf k)) := by
  change execDispatch k h s = _
  simp only [execDispatch, if_neg (dispatch_open lo hi free pre alive), start]

theorem exec_dispatch_waiter {i : Nat} (idle : firstStart (s.tile k) = none) (ready : firstReady s k = some i) :
    exec (.dispatch k h) s = .next (resumeWaiter s k h i) := by
  change execDispatch k h s = _
  simp only [execDispatch, if_neg (dispatch_open lo hi free pre alive), idle, ready]

theorem exec_dispatch_three (idle : firstStart (s.tile k) = none) (none : firstReady s k = none) :
    exec (.dispatch k h) s = .next (dispatchThree s k h) := by
  change execDispatch k h s = _
  simp only [execDispatch, if_neg (dispatch_open lo hi free pre alive), idle, none]

end

theorem State.tile_moved (s : State) (h q : Nat) : (s.moved h).tile q = s.tile q := by rw [State.tile, State.moved_tiles]; rfl

/-- A task whose page wait is over has a helper again (R298). -/
def State.resumed (s : State) (k h i : Nat) (w : Waiter) : State :=
  s.setTile k { ((s.tile k).setCtx h ({ w.ctx with mode := .running }.onHelper ((s.tile k).ctx h))) with waiters := (s.tile k).waiters.eraseIdx i }

theorem resumeWaiter_eq {s : State} {k h i : Nat} {w : Waiter} (hw : (s.tile k).waiters[i]? = some w) :
    resumeWaiter s k h i =
      if w.denied then trapInto (s.resumed k h i w) k h codePageDenied (w.va.setWidth 64) w.ctx.pc false else s.resumed k h i w := by
  rw [resumeWaiter]
  simp only [hw]
  rfl

theorem dispatch_starts {s : State} {k h c : Nat} {ka kb : KReg} (ne : c ≠ h)
    (step : exec (.dispatch k h) s = .next ((startOn s k c h ka kb).moved (s.handleOf k))) :
    ∃ t, exec (.dispatch k h) s = .next t ∧ ((t.tile k).ctx h).mode = .running ∧ ((t.tile k).ctx h).role = .started ∧
      ((t.tile k).ctx h).pcc = ka ∧ ((t.tile k).ctx h).readK 8 = kb ∧ ((t.tile k).ctx c).startAt = none ∧
      ((t.tile k).ctx c).starts = ((s.tile k).ctx c).starts + 1 ∧
      (∀ q, q ≠ c → q ≠ h → (t.tile k).ctx q = (s.tile k).ctx q) ∧ (∀ q, q ≠ k → t.tile q = s.tile q) ∧ s.sameTlm t ∧ s.sameGmem t := by
  obtain ⟨⟨primary, helper, others, -, -, tlm⟩, tiles, gmem⟩ := startOn_started s k c h ka kb ne
  refine ⟨_, step, ?_⟩
  simp only [State.tile_moved, primary, helper]
  refine ⟨rfl, rfl, rfl, readK_startedCtx_8 (s.tile k) ((s.tile k).ctx c) ka kb, trivial, trivial, ?_⟩
  refine ⟨fun q hc hh => others q hc hh, fun q hq => tiles q hq, sameTlm_of_tile (k := k) ?_ fun q hq => ?_, fun a => ?_⟩
  · rw [State.tile_moved, tlm]
  · rw [State.tile_moved, tiles q hq]
  · rw [State.moved_gmem, gmem]

theorem dispatch_resumes {s : State} {k h i : Nat} {w : Waiter} (hw : (s.tile k).waiters[i]? = some w) (granted : w.denied = false)
    (step : exec (.dispatch k h) s = .next (resumeWaiter s k h i)) :
    ∃ t, exec (.dispatch k h) s = .next t ∧
      (t.tile k).ctx h = { w.ctx with
        mode := .running, mxq := ((s.tile k).ctx h).mxq, dmq := ((s.tile k).ctx h).dmq, lcq := ((s.tile k).ctx h).lcq } ∧
      (t.tile k).waiters = (s.tile k).waiters.eraseIdx i ∧ (∀ q, q ≠ h → (t.tile k).ctx q = (s.tile k).ctx q) ∧
      (∀ q, q ≠ k → t.tile q = s.tile q) ∧ s.sameTlm t ∧ s.sameGmem t := by
  rw [resumeWaiter_eq hw, granted, if_neg Bool.false_ne_true] at step
  have others q (hq : q ≠ k) : (s.resumed k h i w).tile q = s.tile q := State.tile_setTile_other _ _ hq.symm
  have tile : (s.resumed k h i w).tile k = _ := State.tile_setTile _ _ _
  refine ⟨_, step, ?_, ?_, fun q hq => ?_, others, sameTlm_of_tile ?_ others, fun a => rfl⟩
  · rw [tile]; exact Tile.ctx_setCtx _ _ _
  · rw [tile]
  · rw [tile]; exact Tile.ctx_setCtx_other _ _ hq.symm
  · rw [tile]; rfl

theorem dispatch_denies {s : State} {k h i : Nat} {w : Waiter} (hw : (s.tile k).waiters[i]? = some w) (denied : w.denied = true) (lo : 1 ≤ h)
    (hi : h ≤ 10) (step : exec (.dispatch k h) s = .next (resumeWaiter s k h i)) :
    ∃ m t, exec (.dispatch k h) s = .next t ∧ (m.tile k).waiters = (s.tile k).waiters.eraseIdx i ∧
      ((m.tile k).ctx h).pcc = w.ctx.pcc ∧ HelperTrapped m t k h 0x09 (w.va.setWidth 64) w.ctx.pc := by
  have helper : h ≠ 0 := by omega
  rw [resumeWaiter_eq hw, denied, if_pos rfl, trapInto, if_neg helper] at step
  have tile : (s.resumed k h i w).tile k = _ := State.tile_setTile _ _ _
  refine ⟨s.resumed k h i w, _, step, by rw [tile], ?_, helperTrap_trapped _ k codePageDenied _ _ helper hi⟩
  rw [tile]
  exact (congrArg Ctx.pcc (Tile.ctx_setCtx (s.tile k) h _)).trans rfl

/-- The primary helper of a firing of actor number i, x, at entry (R51). -/
structure FireRegs (x : Actor) (i task : Nat) (word : Word) (entry : Addr) (c : Ctx) : Prop where
  mode : c.mode = .running
  role : c.role = .primary
  actor : c.actor = i
  task : c.task = task
  pc : c.pc = entry
  regs : c.regs = x.regs
  k4 : c.readK 4 = KReg.int (BitVec.ofNat 64 x.firings)
  k5 : c.readK 5 = KReg.int word
  k6 : c.readK 6 = KReg.zero
  k2 : (c.readK 2).addr = BitVec.ofNat 48 x.stOff
  k7 : (c.readK 7).addr = BitVec.ofNat 48 x.scOff
  high : ∀ r : BitVec 6, 7 < r.toNat → c.readK r = KReg.zero
  tags : c.tags = 0
  fpc : c.fpc = 0x20

theorem primaryCtx_regs (s : State) (k i : Nat) (entry : Addr) (old : Ctx) :
    FireRegs ((s.tile k).actor i) i (s.tile k).nextTask (s.tileWord k) entry ((primaryCtx s k i entry).onHelper old) := by
  have fire : ((primaryCtx s k i entry).onHelper old).k = fireMap (firingRegs s k i) := rfl
  constructor
  case pc => exact codeCap_addr ..
  case k4 => exact readK_fire fire (by decide)
  case k5 => exact readK_fire fire (by decide)
  case k6 => exact readK_fire fire (by decide)
  case k2 => rw [readK_fire fire (by decide)]; exact KReg.addr_make ..
  case k7 => rw [readK_fire fire (by decide)]; exact KReg.addr_make ..
  case high => exact fun r hr => readK_fire_high fire hr
  all_goals rfl

/-- The tile in which a firing has started. -/
structure FiringStarted (t u : Tile) (i h : Nat) (word : Word) (kind : FireKind) (entry : Addr) (step : Option Punct) : Prop where
  regs : FireRegs (t.actor i) i t.nextTask word entry (u.ctx h)
  live : (u.actor i).live = some
    { kind := kind, index := (t.actor i).firings, primary := t.nextTask, tasks := [t.nextTask], starts := 0, donec := [] }
  pend : (u.actor i).pend = step
  task : u.nextTask = t.nextTask + 1
  ctxs : ∀ q, q ≠ h → u.ctx q = t.ctx q
  tlm : u.tlm = t.tlm

theorem startFiring_started (s : State) (k i h : Nat) (kind : FireKind) (entry : Addr) (step : Option Punct) :
    FiringStarted (s.tile k) ((startFiring s k i h kind entry step).tile k) i h (s.tileWord k) kind entry step ∧
      ((startFiring s k i h kind entry step).tile k).passes = (s.tile k).passes ∧
      ((startFiring s k i h kind entry step).tile k).ring = (s.tile k).ring := by
  have tile : (startFiring s k i h kind entry step).tile k = _ := State.tile_setTile _ _ _
  refine ⟨?_, by rw [tile]; rfl, by rw [tile]; rfl⟩
  constructor
  case regs => rw [tile]; exact Eq.mpr (congrArg _ (Tile.ctx_setCtx _ _ _)) (primaryCtx_regs s k i entry _)
  case live => rw [tile]; exact (congrArg Actor.live (Tile.actor_setActor (s.tile k) i _)).trans rfl
  case pend => rw [tile]; exact (congrArg Actor.pend (Tile.actor_setActor (s.tile k) i _)).trans rfl
  case task => rw [tile]
  case ctxs => intro q hq; rw [tile]; exact Tile.ctx_setCtx_other _ _ hq.symm
  case tlm => rw [tile]; rfl

theorem dispatch_fires {s : State} {k h i : Nat} (chosen : Chosen s k i) (actor : i < 8) {kind entry step}
    (fires : actorFiring s k i = some (kind, entry, step)) :
    FiringStarted (s.tile k) ((dispatchThree s k h).tile k) i h (s.tileWord k) kind entry step ∧ ChoiceFrame s (dispatchThree s k h) k h i := by
  rw [dispatchThree_firing chosen actor fires]
  set t := startFiring (s.countPassed k i) k i h kind entry step with ht
  obtain ⟨started, passes, ring⟩ := startFiring_started (s.countPassed k i) k i h kind entry step
  rw [← ht] at started passes ring
  have others q (hq : q ≠ k) : t.tile q = (s.countPassed k i).tile q := State.tile_setTile_other _ _ hq.symm
  have frame : ChoiceFrame s (t.moved (s.handleOf k)) k h i := by
    refine choiceFrame chosen (State.tile_moved ..) passes ?_ ?_ ?_ (fun q hq => (State.tile_moved ..).trans (others q hq)) ?_
    · rw [ring, State.tile_countPassed]
    · intro q hq; rw [started.ctxs q hq, State.tile_countPassed]; rfl
    · rw [started.tlm, State.tile_countPassed]
    · rw [State.moved_gmem]; rfl
  rw [State.tile_countPassed] at started
  rw [State.tile_moved]
  exact ⟨⟨started.regs, started.live, started.pend, started.task, started.ctxs, started.tlm⟩, frame⟩

/-- The helper on which a team of a sweep has started (R58). -/
structure TeamRegs (w : Sweep) (slot team : Nat) (word : Word) (c : Ctx) : Prop where
  mode : c.mode = .running
  role : c.role = .team
  actor : c.actor = w.actor
  inSlot : c.sweepSlot = slot
  runs : c.team = team
  pc : c.pc = recBody w.record
  regs : c.regs = w.regs
  k2 : c.readK 2 = w.k2
  k3 : c.readK 3 = w.param
  k4 : c.readK 4 = KReg.int (BitVec.ofNat 64 team)
  k5 : c.readK 5 = KReg.int word
  k7 : c.readK 7 = w.k7

/-- The tile in which a team has started. -/
structure TeamStarted (t u : Tile) (w : Sweep) (x : SweepSlot) (slot h team : Nat) (rest : List Nat) (word : Word) : Prop where
  regs : TeamRegs w slot team word (u.ctx h)
  slots : AMap.get? u.sweepSlots slot = some { x with released := rest, running := x.running ++ [team] }
  ctxs : ∀ q, q ≠ h → u.ctx q = t.ctx q
  tlm : u.tlm = t.tlm
  passes : u.passes = t.passes
  ring : u.ring = t.ring

theorem startTeam_started {s : State} {k slot h : Nat} {x : SweepSlot} {w : Sweep} {team : Nat} {rest : List Nat}
    (released : x.released = team :: rest) :
    TeamStarted (s.tile k) ((startTeam s k slot h x w).tile k) w x slot h team rest (s.tileWord k) ∧
      (∀ q, q ≠ k → (startTeam s k slot h x w).tile q = s.tile q) ∧ (startTeam s k slot h x w).gmem = s.gmem := by
  rw [startTeam, released]
  refine ⟨?_, fun q hq => State.tile_setTile_other _ _ hq.symm, rfl⟩
  rw [State.tile_setTile]
  constructor
  case regs =>
    refine Eq.mpr (congrArg (TeamRegs w slot team (s.tileWord k)) (Tile.ctx_setCtx (s.tile k) h _)) ?_
    constructor
    case pc => exact codeCap_addr ..
    case k2 => exact readK_fire (ks := teamRegs s k w team) rfl (by decide)
    case k3 => exact readK_fire (ks := teamRegs s k w team) rfl (by decide)
    case k4 => exact readK_fire (ks := teamRegs s k w team) rfl (by decide)
    case k5 => exact readK_fire (ks := teamRegs s k w team) rfl (by decide)
    case k7 => exact readK_fire (ks := teamRegs s k w team) rfl (by decide)
    all_goals rfl
  case slots => exact AMap.get?_set_same _ _ _
  case ctxs => exact fun q hq => Tile.ctx_setCtx_other _ _ hq.symm
  all_goals rfl

theorem dispatch_team {s : State} {k h i : Nat} (chosen : Chosen s k i) (slot : 8 ≤ i) {x : SweepSlot} {w : Sweep} {team : Nat} {rest : List Nat}
    (ready : teamReady s k (i - 8) = some (x, w)) (released : x.released = team :: rest) :
    TeamRegs w (i - 8) team (s.tileWord k) (((dispatchThree s k h).tile k).ctx h) ∧
      AMap.get? ((dispatchThree s k h).tile k).sweepSlots (i - 8) = some { x with released := rest, running := x.running ++ [team] } ∧
      ChoiceFrame s (dispatchThree s k h) k h i := by
  rw [dispatchThree_team chosen slot ready]
  obtain ⟨started, others, gmem⟩ := startTeam_started (s := s.countPassed k i) (k := k) (slot := i - 8) (h := h) (w := w) released
  refine ⟨?_, ?_, choiceFrame chosen (State.tile_moved ..) started.passes ?_ ?_ ?_ (fun q hq => (State.tile_moved ..).trans (others q hq)) ?_⟩
  · rw [State.tile_moved]; exact started.regs
  · rw [State.tile_moved]; exact started.slots
  · rw [started.ring, State.tile_countPassed]
  · intro q hq; rw [started.ctxs q hq, State.tile_countPassed]; rfl
  · rw [started.tlm, State.tile_countPassed]
  · rw [State.moved_gmem, gmem]; rfl

/-- Settles O38. -/
theorem dispatcherChoices : Obligations.DispatcherChoices := by
  unfold Obligations.DispatcherChoices
  intro k h s t0
  refine ⟨exec_dispatch_busy, fun lo hi free pre alive => ⟨fun c o ka kb ne start mem oldest only => ?_, fun none => ⟨?_, ?_⟩⟩⟩
  · exact dispatch_starts ne (exec_dispatch_start lo hi free pre alive (firstStart_some start mem oldest only))
  · rintro i w hw unheld ⟨n, ready, first⟩
    have step := exec_dispatch_waiter lo hi free pre alive (firstStart_none none) (firstReady_some hw unheld ready first)
    exact ⟨fun granted => dispatch_resumes hw granted step, fun denied => dispatch_denies hw denied lo hi step⟩
  · intro waiting
    have step := exec_dispatch_three lo hi free pre alive (firstStart_none none) (firstReady_none waiting)
    refine ⟨fun idle => ?_, fun i chosen => ⟨fun actor kind entry todo fires => ?_, fun slot x w team rest ready released => ?_⟩⟩
    · rw [step, dispatchThree_none]
      exact List.filter_eq_nil_iff.mpr fun i hi => by rw [idle i (List.mem_range.mp hi)]; exact Bool.false_ne_true
    · obtain ⟨⟨regs, live, pend, task, -, -⟩, frame⟩ := dispatch_fires (h := h) chosen actor fires
      exact ⟨_, _, step, ⟨regs.mode, regs.role, regs.actor, regs.task, regs.pc, regs.regs, regs.k4, regs.k5, regs.k6, regs.k2, regs.k7, regs.high,
        regs.tags, regs.fpc⟩, live, rfl, rfl, rfl, rfl, pend, task, frame.ring, frame.chosen, frame.passed, frame.ctxs, frame.tiles, frame.tlm,
        frame.gmem⟩
    · obtain ⟨regs, slots, frame⟩ := dispatch_team (h := h) chosen slot ready released
      exact ⟨_, _, step, ⟨regs.mode, regs.role, regs.actor, regs.inSlot, regs.runs, regs.pc, regs.regs, regs.k2, regs.k3, regs.k4, regs.k5,
        regs.k7⟩, slots, rfl, rfl, rfl, rfl, frame.ring, frame.chosen, frame.passed, frame.ctxs, frame.tlm, frame.gmem⟩

end Sys2Proof.Machine
end

section
/-!
O39, the hardware's own steps (02 R45 to R49, R52). The statement takes an actor's output from the list of a slot's ports and its channel
from the port that its number names. A port map is a plain list of numbered ports, of which a number names the first: where a number stands
twice, the output listed second is the actor's while its tokens go where the first one, here an ordered output, sends them.
-/

namespace Sys2Proof.Machine

/-- A channel without branches. -/
def bareChan : Chan :=
  { src := .inlet 0, resid := 0, handle := 0, slot := 0, num := 0, line := false, fmt := 0, seq := 0, rounds := 0, closed := false
    forkQ := [], reserved := [], branches := [] }

/-- An ordered port that names channel 0, and is declared of no actor. -/
def strayPort : Port := { Port.blank with ordered := true, chan := some 0 }

/-- A plain output of actor 0 with room for one token in a firing. -/
def plainOutput : Port := { Port.blank with declared := true, output := true, count := 1 }

/-- A firing of actor 0 whose last helper is done and which has put nothing. -/
def doneFiring : Firing := { kind := .fire, index := 0, primary := 0, tasks := [], starts := 0, donec := [] }

/-- Tile 0 lists port 1 twice: the ordered port, then the output of actor 0, whose firing is to end. -/
def twicePorted : State :=
  { State.reset with
    chans := [(0, bareChan)]
    tiles := [(0, { Tile.init with slots := [(Tile.init.active,
      { Slot.blank with ports := [(1, strayPort), (1, plainOutput)], actors := [(0, { Actor.blank with live := some doneFiring })] })] })] }

/-- The firing's end fills the output with one NULL, which becomes an ordered message: the channel's SEQ stays 0. -/
theorem twicePorted_seq (t : State) (h : exec (.firingEnd 0 0) twicePorted = .next t) : (t.chan? 0).map Chan.seq = some 0 := by
  have run : (match exec (.firingEnd 0 0) twicePorted with
      | .next u => (u.chan? 0).map Chan.seq
      | _ => some 0) = some 0 := by decide +kernel
  rwa [h] at run

/-- Refutes O39: a firing ends whose one output, plain and open, has room declared for one token; the channel that its number names does
not take the NULL. The counterexample needs a port map that lists a number twice. -/
theorem not_firingsAndPunctuation : ¬ Obligations.FiringsAndPunctuation := by
  intro holds
  obtain ⟨firings, -⟩ := holds
  obtain ⟨-, -, -, ends⟩ := firings 0 0 twicePorted
  obtain ⟨-, due⟩ := ends doneFiring rfl
  obtain ⟨t, run, -, -, -, -, -, fills, -⟩ := due rfl (by decide +kernel)
  obtain ⟨d, chan, seq⟩ := fills 1 plainOutput 0 bareChan (by decide +kernel) rfl rfl (by decide +kernel) (by decide +kernel)
  have stays := twicePorted_seq t run
  rw [chan, Option.map_some, seq] at stays
  exact absurd stays (by decide)

end Sys2Proof.Machine
end

section
/-!
What tokens under way change (02 R35 to R53): the queues, actors and operators of active slots, channels, the links that carry credits, and
of a residency its error record and the time of its last move. Registers, memory and the rest stay.
-/

namespace Sys2Proof.Machine

/-! The active slot of a tile. -/

@[simp] theorem Tile.slot_setSlot (t : Tile) (x : Slot) : (t.setSlot x).slot = x := by simp [Tile.slot, Tile.setSlot]

theorem AMap.getD_set {α : Type} (m : AMap α) (k : Nat) (v d : α) (j : Nat) :
    AMap.getD (AMap.set m k v) j d = if j = k then v else AMap.getD m j d := by
  rw [AMap.getD, AMap.get?_set, AMap.getD]
  by_cases h : j = k <;> simp [h]

theorem Tile.port_setPort_apply (t : Tile) (p : Nat) (x : Port) (q : Nat) : (t.setPort p x).port q = if q = p then x else t.port q := by
  by_cases h : q = p
  · rw [h, Tile.port_setPort, if_pos rfl]
  · rw [Tile.port_setPort_other _ _ (Ne.symm h), if_neg h]

theorem Tile.slot_setActor (t : Tile) (a : Nat) (x : Actor) : (t.setActor a x).slot = { t.slot with actors := AMap.set t.slot.actors a x } :=
  Tile.slot_setSlot ..

theorem Tile.port_setActor (t : Tile) (a : Nat) (x : Actor) (p : Nat) : (t.setActor a x).port p = t.port p := by
  rw [Tile.port, Tile.slot_setActor]; rfl

theorem Tile.slot_setOper (t : Tile) (n : Nat) (x : Oper) : (t.setOper n x).slot = { t.slot with opers := AMap.set t.slot.opers n x } :=
  Tile.slot_setSlot ..

@[simp] theorem Tile.oper_setOper (t : Tile) (n : Nat) (x : Oper) : (t.setOper n x).oper n = some x := by
  rw [Tile.oper, Tile.slot_setOper]
  exact AMap.get?_set_same ..

/-- A tile whose active slot's ports, actors and operators, and what its ordered outputs send, may have changed. -/
structure TokenTile (t u : Tile) : Prop where
  tile : u = { t with
    slots := u.slots, inject := u.inject, lastStamp := u.lastStamp, tileSeq := u.tileSeq, dropped := u.dropped, dropHdr := u.dropHdr }
  slot : u.slot = { t.slot with ports := u.slot.ports, actors := u.slot.actors, opers := u.slot.opers }
  slots : ∀ m, m ≠ t.active → AMap.get? u.slots m = AMap.get? t.slots m

theorem TokenTile.refl (t : Tile) : TokenTile t t := ⟨rfl, rfl, fun _ _ => rfl⟩

theorem TokenTile.active {t u : Tile} (h : TokenTile t u) : u.active = t.active := by rw [h.tile]

theorem TokenTile.ctxs {t u : Tile} (h : TokenTile t u) : u.ctxs = t.ctxs := by rw [h.tile]

theorem TokenTile.tlm {t u : Tile} (h : TokenTile t u) : u.tlm = t.tlm := by rw [h.tile]

theorem TokenTile.trans {t u v : Tile} (a : TokenTile t u) (b : TokenTile u v) : TokenTile t v :=
  ⟨by rw [b.tile, a.tile], by rw [b.slot, a.slot], fun m hm => by rw [b.slots m (by rwa [a.active]), a.slots m hm]⟩

theorem tokenTile_setSlot (t : Tile) {x : Slot} (h : x = { t.slot with ports := x.ports, actors := x.actors, opers := x.opers }) :
    TokenTile t (t.setSlot x) :=
  ⟨rfl, by rw [Tile.slot_setSlot]; exact h, fun _ hm => AMap.get?_set_other _ _ hm.symm⟩

theorem tokenTile_setPort (t : Tile) (p : Nat) (x : Port) : TokenTile t (t.setPort p x) := tokenTile_setSlot t rfl

theorem tokenTile_setActor (t : Tile) (a : Nat) (x : Actor) : TokenTile t (t.setActor a x) := tokenTile_setSlot t rfl

theorem tokenTile_setOper (t : Tile) (n : Nat) (x : Oper) : TokenTile t (t.setOper n x) := tokenTile_setSlot t rfl

/-- A step of tokens under way. -/
structure TokenStep (s t : State) : Prop where
  tiles : ∀ k, TokenTile (s.tile k) (t.tile k)
  res : ∀ h, t.resOf h = { s.resOf h with err := (t.resOf h).err, wdLast := (t.resOf h).wdLast }
  others : t = { s with tiles := t.tiles, chans := t.chans, res := t.res, links := t.links }

namespace TokenStep

theorem refl (s : State) : TokenStep s s := ⟨fun k => .refl (s.tile k), fun _ => rfl, rfl⟩

theorem trans {s t u : State} (a : TokenStep s t) (b : TokenStep t u) : TokenStep s u :=
  ⟨fun k => (a.tiles k).trans (b.tiles k), fun h => by rw [b.res h, a.res h], by rw [b.others, a.others]⟩

theorem foldl {α : Type} {step : State → α → State} (one : ∀ (s : State) y, TokenStep s (step s y)) (l : List α) (s : State) :
    TokenStep s (l.foldl step s) := by
  induction l generalizing s with
  | nil => exact refl s
  | cons y l ih => exact (one s y).trans (ih _)

theorem setTile (s : State) (k : Nat) {t : Tile} (h : TokenTile (s.tile k) t) : TokenStep s (s.setTile k t) := by
  refine ⟨fun q => ?_, fun _ => rfl, rfl⟩
  rw [State.tile_setTile_apply]
  split
  case isTrue e => rw [e]; exact h
  case isFalse => exact .refl _

theorem updTile (s : State) (k : Nat) {f : Tile → Tile} (h : TokenTile (s.tile k) (f (s.tile k))) : TokenStep s (s.updTile k f) := setTile s k h

theorem setChan (s : State) (n : Nat) (c : Chan) : TokenStep s (s.setChan n c) := ⟨fun k => .refl (s.tile k), fun _ => rfl, rfl⟩

theorem setLink (s : State) (n : Nat) (l : LinkPort) : TokenStep s (s.setLink n l) := ⟨fun k => .refl (s.tile k), fun _ => rfl, rfl⟩

theorem setRes (s : State) (h : Nat) {r : Res} (same : r = { s.resOf h with err := r.err, wdLast := r.wdLast }) : TokenStep s (s.setRes h r) := by
  refine ⟨fun k => .refl (s.tile k), fun m => ?_, rfl⟩
  by_cases e : h = m
  · rw [← e, State.resOf_setRes]; exact same
  · rw [State.resOf, State.setRes, AMap.getD_set_other _ _ _ e]; rfl

theorem moved (s : State) (h : Nat) : TokenStep s (s.moved h) := by
  unfold State.moved
  split
  · exact refl s
  case h_2 r hr => exact setRes s h (by rw [State.resOf, AMap.getD_of_get? hr])

theorem updErr (s : State) (h : Nat) (f : ErrRec → ErrRec) : TokenStep s (s.updErr h f) := setRes s h rfl

theorem countOpErr (s : State) (h : Nat) : TokenStep s (s.countOpErr h) := updErr ..

theorem countEcc (s : State) (h c u : Nat) : TokenStep s (s.countEcc h c u) := by
  unfold State.countEcc
  split
  · exact refl s
  · exact updErr ..

theorem freeSlots (s : State) (c i n : Nat) : TokenStep s (s.freeSlots c i n) := by
  unfold State.freeSlots
  split
  · exact refl s
  · split
    · exact refl s
    · exact setChan ..

theorem creditBack (k p : Nat) (s : State) (o : OHdr) : TokenStep s (creditBack k p s o) := by
  unfold Machine.creditBack
  split
  · exact refl s
  split
  · unfold State.gainCredit
    split
    · exact refl s
    · exact updTile s _ (tokenTile_setPort ..)
  · split
    · exact refl s
    · exact setLink ..

theorem consume (s : State) (k p n : Nat) : TokenStep s (s.consume k p n) := by
  unfold State.consume
  refine .trans ?_ (moved ..)
  refine .trans ?_ (foldl (creditBack k p) ..)
  split
  · exact (setTile s k (tokenTile_setPort ..)).trans (freeSlots ..)
  · exact setTile s k (tokenTile_setPort ..)

end TokenStep

theorem tokenTile_takeBanks (t : Tile) (p n : Nat) : TokenTile t (t.takeBanks p n) := by
  unfold Tile.takeBanks
  dsimp only
  split
  · exact .refl t
  · exact tokenTile_setActor ..

namespace TokenStep

theorem takeSlots (s : State) (k p n : Nat) : TokenStep s (s.takeSlots k p n) := (updTile s k (tokenTile_takeBanks ..)).trans (consume ..)

theorem drainPort (k p n : Nat) (s : State) : TokenStep s (drainPort k p n s) := by
  induction n generalizing s with
  | zero => exact refl s
  | succ n ih =>
    unfold Machine.drainPort
    dsimp only
    split
    · exact refl s
    · exact refl s
    · split
      · exact (takeSlots ..).trans (updTile _ k (tokenTile_setPort ..))
      · exact (takeSlots ..).trans (ih _)
    · split
      · exact updTile s k (tokenTile_setPort ..)
      · exact (takeSlots ..).trans (ih _)

theorem discardInert (k p n : Nat) (s : State) : TokenStep s (discardInert k p n s) := by
  induction n generalizing s with
  | zero => exact refl s
  | succ n ih =>
    unfold Machine.discardInert
    dsimp only
    split
    · exact (takeSlots ..).trans (ih _)
    · exact refl s

theorem dropToken (s : State) (k : Nat) (tok : Token) : TokenStep s (dropToken s k tok) := by
  unfold Machine.dropToken
  exact .trans (updTile s k ⟨rfl, rfl, fun _ _ => rfl⟩) (updErr ..)

theorem operFree (s : State) (k n : Nat) (o : Oper) (e : Nat) : TokenStep s (operFree s k n o e) := by
  unfold Machine.operFree
  split
  · exact refl s
  · split
    · exact refl s
    · split
      · exact freeSlots ..
      · exact refl s

theorem operTake (s : State) (k n : Nat) (o : Oper) (es : List Nat) : TokenStep s (operTake s k n o es) :=
  ((foldl (fun s e => operFree s k n o e) es s).trans (updTile _ k (tokenTile_setOper ..))).trans (moved ..)

theorem operError (s : State) (k n : Nat) : TokenStep s (operError s k n) := by
  refine .trans (updTile s k ?_) (countOpErr ..)
  split
  · exact tokenTile_setOper ..
  · exact .refl _

theorem operPut (s : State) (o : Oper) (e : Nat) (k : TokKind) (payload : Line) (status : BitVec 16) (round : Option (BitVec 16)) :
    TokenStep s (operPut s o e k payload status round) := by
  unfold Machine.operPut
  split
  · exact refl s
  · split
    · exact refl s
    · exact setChan ..

theorem operDrain (s : State) (k n e : Nat) : TokenStep s (operDrain s k n e) := by
  unfold Machine.operDrain
  split
  · exact refl s
  dsimp only
  split
  · exact refl s
  · exact refl s
  · exact operTake ..
  · split
    · exact updTile s k (tokenTile_setOper ..)
    · exact operTake ..

/-! What a step of tokens leaves. -/

section
variable {s t : State} (h : TokenStep s t)
include h

theorem gmem : t.gmem = s.gmem := by rw [h.others]

theorem ctx (k n : Nat) : (t.tile k).ctx n = (s.tile k).ctx n := by rw [Tile.ctx, (h.tiles k).ctxs]; rfl

theorem sameCtxs : s.sameCtxs t := fun k m => by
  rw [h.ctx]
  exact ⟨⟨fun _ => rfl, fun _ => rfl, fun _ => rfl, rfl⟩, rfl⟩

theorem sameTlm : s.sameTlm t := fun k a => by rw [(h.tiles k).tlm]

theorem sameGmem : s.sameGmem t := fun a => by rw [h.gmem]

theorem quiet : Quiet s t := ⟨h.sameCtxs, h.sameTlm, h.sameGmem⟩

end

end TokenStep

end Sys2Proof.Machine
end

section
/-!
Forks, credits, BANK tokens and router operators (02 R36, R39, R52 to R54, 10 R265): what each event does to its channel, queue or operator.
-/

namespace Sys2Proof.Machine

/-! One element of a list is replaced. -/

theorem setAt_getElem?_other {α : Type} (l : List α) {i j : Nat} (v : α) (h : j ≠ i) : (setAt l i v)[j]? = l[j]? := by
  induction l generalizing i j with
  | nil => rfl
  | cons x xs ih =>
    cases i with
    | zero => obtain ⟨j, rfl⟩ := Nat.exists_eq_succ_of_ne_zero h; rfl
    | succ i =>
      cases j with
      | zero => rfl
      | succ j => exact ih (i := i) (j := j) (by omega)

theorem Chan.branch_setBranch {c : Chan} {n : Nat} {b : Branch} (hb : c.branches[n]? = some b) (b' : Branch) :
    (c.setBranch n b').branches[n]? = some b' := setAt_getElem? _ _ _ (List.getElem?_eq_some_iff.mp hb).1

theorem Chan.branch_setBranch_other (c : Chan) {n j : Nat} (b' : Branch) (h : j ≠ n) :
    (c.setBranch n b').branches[j]? = c.branches[j]? := setAt_getElem?_other _ _ h

/-! Forks. -/

theorem exec_forkForward_unknown {s : State} {id : Nat} (hc : s.chan? id = none) : exec (.forkForward id) s = .next s := by
  change execForkForward id s = _
  simp only [execForkForward, hc]

theorem exec_forkForward_empty {s : State} {id : Nat} {c : Chan} (hc : s.chan? id = some c) (empty : c.forkQ = []) :
    exec (.forkForward id) s = .next s := by
  change execForkForward id s = _
  simp only [execForkForward, hc, empty]

/-- A channel whose oldest fork token has gone on to every branch. -/
def Chan.forked (c : Chan) (f : Flight) (rest : List Flight) : Chan :=
  { c with forkQ := rest, branches := c.branches.map fun b => { b with flights := b.flights ++ [f] } }

theorem exec_forkForward {s : State} {id : Nat} {c : Chan} {f : Flight} {rest : List Flight} (hc : s.chan? id = some c)
    (hq : c.forkQ = f :: rest) : exec (.forkForward id) s = .next (s.setChan id (c.forked f rest)) := by
  change execForkForward id s = _
  simp only [execForkForward, hc, hq]
  rfl

/-! Credits. -/

theorem State.giveRoom_eq {s : State} {id n : Nat} {c : Chan} {b : Branch} (hc : s.chan? id = some c) (hb : c.branches[n]? = some b) :
    s.giveRoom id n = s.setChan id (c.setBranch n { b with room := b.room + 1 }) := by
  simp only [State.giveRoom, hc, hb]

theorem TokenStep.giveRoom (s : State) (id n : Nat) : TokenStep s (s.giveRoom id n) := by
  unfold State.giveRoom
  split
  · exact .refl s
  · split
    · exact .refl s
    · exact .setChan ..

section
variable {s : State} {id n : Nat}

theorem exec_creditReturn_unknown (hc : s.chan? id = none) : exec (.creditReturn id n) s = .next s := by
  change execCreditReturn id n s = _
  simp only [execCreditReturn, hc]

variable {c : Chan} (hc : s.chan? id = some c)
include hc

theorem exec_creditReturn_noBranch (hb : c.branches[n]? = none) : exec (.creditReturn id n) s = .next s := by
  change execCreditReturn id n s = _
  simp only [execCreditReturn, hc, hb]

variable {b : Branch} (hb : c.branches[n]? = some b)
include hb

theorem exec_creditReturn_none (back : b.back = 0) : exec (.creditReturn id n) s = .next s := by
  change execCreditReturn id n s = _
  simp only [execCreditReturn, hc, hb, back, if_true]

theorem exec_creditReturn (back : b.back ≠ 0) (src : ∀ l st, c.src ≠ .fabric l st) :
    exec (.creditReturn id n) s =
      .next ((s.setChan id (c.setBranch n { b with back := b.back - 1 })).giveRoom (creditChan s id n c) n) := by
  change execCreditReturn id n s = _
  simp only [execCreditReturn, hc, hb, back, if_false]

theorem creditReturn_own (back : b.back ≠ 0) (src : ∀ l st, c.src ≠ .fabric l st) (own : creditChan s id n c = id) :
    ∃ t d, exec (.creditReturn id n) s = .next t ∧ Quiet s t ∧ (∀ j, j ≠ id → t.chan? j = s.chan? j) ∧ t.chan? id = some d ∧
      d.seq = c.seq ∧ d.branches[n]? = some { b with room := b.room + 1, back := b.back - 1 } ∧
      ∀ j, j ≠ n → d.branches[j]? = c.branches[j]? := by
  have taken := Chan.branch_setBranch hb { b with back := b.back - 1 }
  have room := State.giveRoom_eq (State.chan_setChan s id (c.setBranch n { b with back := b.back - 1 })) taken
  refine ⟨_, (c.setBranch n { b with back := b.back - 1 }).setBranch n { b with room := b.room + 1, back := b.back - 1 },
    exec_creditReturn hc hb back src, ((TokenStep.setChan ..).trans (.giveRoom ..)).quiet, fun j hj => ?_, ?_, rfl,
    Chan.branch_setBranch taken _, fun j hj => (Chan.branch_setBranch_other _ _ hj).trans (Chan.branch_setBranch_other _ _ hj)⟩
  rotate_left
  · rw [own, room]; exact State.chan_setChan ..
  · rw [own, room, State.chan_setChan_other _ _ (Ne.symm hj), State.chan_setChan_other _ _ (Ne.symm hj)]

theorem creditReturn_other {j : Nat} {a : Chan} {y : Branch} (back : b.back ≠ 0) (src : ∀ l st, c.src ≠ .fabric l st)
    (feeds : creditChan s id n c = j) (ne : j ≠ id) (ha : s.chan? j = some a) (hy : a.branches[n]? = some y) :
    ∃ t d z, exec (.creditReturn id n) s = .next t ∧ Quiet s t ∧ t.chan? id = some d ∧ d.branches[n]? = some { b with back := b.back - 1 } ∧
      t.chan? j = some z ∧ z.branches[n]? = some { y with room := y.room + 1 } := by
  have other := (State.chan_setChan_other s (c.setBranch n { b with back := b.back - 1 }) ne.symm).trans ha
  refine ⟨_, _, _, exec_creditReturn hc hb back src, ((TokenStep.setChan ..).trans (.giveRoom ..)).quiet, ?_,
    Chan.branch_setBranch hb _, ?_, Chan.branch_setBranch hy _⟩
  · rw [feeds, State.giveRoom_eq other hy, State.chan_setChan_other _ _ ne, State.chan_setChan]
  · rw [feeds, State.giveRoom_eq other hy, State.chan_setChan]

end

/-! BANK tokens. -/

theorem Memory.readN_mod (m : Memory) (a : Nat) {n : Nat} (h : 0 < n) : Memory.readN m a n % 256 = (Memory.read m a).toNat := by
  obtain ⟨n, rfl⟩ := Nat.exists_eq_succ_of_ne_zero (by omega : n ≠ 0)
  have := (Memory.read m a).isLt
  rw [Memory.readN, Memory.readBytes, leNat]
  omega

/-- The number of a bank stands in the low byte of the payload, whatever the size of the token. -/
theorem Tile.payload_mod (t : Tile) (p : Port) (n : Nat) : (t.payload p n).toNat % 16 = t.readTlm (p.slotAddr n) 1 % 16 := by
  have low := Memory.readN_mod t.tlm (p.slotAddr n) (n := if p.line then 64 else 8) (by split <;> decide)
  have one := Memory.readN_mod t.tlm (p.slotAddr n) (n := 1) (by decide)
  rw [Tile.payload, BitVec.toNat_ofNat, Nat.mod_mod_of_dvd _ (Nat.pow_dvd_pow 2 (m := 4) (n := 512) (by decide))]
  simp only [Tile.readTlm] at low one ⊢
  omega

/-- The actor that a BANK token reaches holds the bank from then on. -/
theorem inForce_takeBanks {t : Tile} {p : Nat} {y : QSlot} (head : AMap.get? (t.port p).q (t.port p).h = some y) (bank : y.kind = .bank) :
    ((t.takeBanks p 1).actor (t.port p).actor).inForce = (t.actor (t.port p).actor).inForce |||
      (1#16 <<< ((t.payload (t.port p) (t.port p).h).toNat % 16)) := by
  rw [Tile.payload_mod]
  simp only [Tile.takeBanks, upto, List.range_one, List.foldl_cons, List.foldl_nil, Nat.add_zero, head, bank, if_true]
  rw [show (0 : BitVec 16) = 0#16 from rfl, BitVec.zero_or]
  split
  case isTrue none_ => rw [none_, BitVec.or_zero]
  case isFalse => rw [Tile.actor_setActor]

theorem Tile.port_takeBanks (t : Tile) (p n q : Nat) : (t.takeBanks p n).port q = t.port q := by
  unfold Tile.takeBanks
  dsimp only
  split
  · rfl
  · exact Tile.port_setActor ..

/-- Credits that come back change nothing of a port but the counts of credits it holds, and no actor. -/
structure CreditsBack (s t : State) : Prop where
  port : ∀ k p, (t.tile k).port p = { (s.tile k).port p with credits := ((t.tile k).port p).credits }
  actor : ∀ k a, (t.tile k).actor a = (s.tile k).actor a

theorem CreditsBack.of_tiles {s t : State} (h : t.tiles = s.tiles) : CreditsBack s t := by
  have tile : ∀ k, t.tile k = s.tile k := fun k => by rw [State.tile, h]; rfl
  exact ⟨fun k p => by rw [tile], fun k a => by rw [tile]⟩

theorem CreditsBack.trans {s t u : State} (a : CreditsBack s t) (b : CreditsBack t u) : CreditsBack s u :=
  ⟨fun k p => by rw [b.port, a.port], fun k p => by rw [b.actor, a.actor]⟩

theorem Tile.actor_setPort (t : Tile) (p : Nat) (x : Port) (a : Nat) : (t.setPort p x).actor a = t.actor a := by
  rw [Tile.actor, Tile.setPort, Tile.slot_setSlot]; rfl

theorem creditsBack_creditBack (k p : Nat) (s : State) (o : OHdr) : CreditsBack s (creditBack k p s o) := by
  unfold creditBack
  split
  · exact .of_tiles rfl
  split
  · unfold State.gainCredit
    split
    · exact .of_tiles rfl
    case h_2 n _ =>
      refine ⟨fun q r => ?_, fun q a => ?_⟩ <;> rw [State.tile_updTile_apply]
      · split
        case isTrue e =>
          rw [e, Tile.port_setPort_apply]
          split
          case isTrue same => rw [same]
          case isFalse => rfl
        case isFalse => rfl
      · split
        case isTrue e => rw [e]; exact Tile.actor_setPort ..
        case isFalse => rfl
  · split <;> exact .of_tiles rfl

theorem creditsBack_foldl (k p : Nat) (os : List OHdr) (s : State) : CreditsBack s (os.foldl (creditBack k p) s) := by
  induction os generalizing s with
  | nil => exact .of_tiles rfl
  | cons o os ih => exact (creditsBack_creditBack k p s o).trans (ih _)

/-- A port whose first n slots are consumed. -/
def Port.consumed (x : Port) (n : Nat) : Port := { x with h := x.h + n, q := (upto n).foldl (fun m i => AMap.erase m (x.h + i)) x.q }

/-- Consuming the slots of a queue moves its head, and then credits come back. -/
theorem consume_credits (s : State) (k p n : Nat) :
    ∃ u : State, u.tile k = (s.tile k).setPort p (((s.tile k).port p).consumed n) ∧ CreditsBack u (s.consume k p n) := by
  unfold State.consume
  dsimp only
  refine ⟨_, ?_, (creditsBack_foldl k p _ _).trans (.of_tiles (State.moved_tiles ..))⟩
  split
  · rw [State.freeSlots_eq]; exact State.tile_setTile ..
  · exact State.tile_setTile ..

theorem consume_port (s : State) (k p n : Nat) :
    ∃ cr, ((s.consume k p n).tile k).port p = { ((s.tile k).port p).consumed n with credits := cr } := by
  obtain ⟨u, tile, back⟩ := consume_credits s k p n
  exact ⟨_, by rw [back.port, tile, Tile.port_setPort]⟩

theorem consume_actor (s : State) (k p n a : Nat) : ((s.consume k p n).tile k).actor a = (s.tile k).actor a := by
  obtain ⟨u, tile, back⟩ := consume_credits s k p n
  rw [back.actor, tile, Tile.actor_setPort]

theorem exec_bankTransfer_other {s : State} {k i : Nat}
    (h : ∀ y, AMap.get? ((s.tile k).port i).q ((s.tile k).port i).h = some y → y.kind ≠ .bank) : exec (.bankTransfer k i) s = .next s := by
  change execBankTransfer k i s = _
  unfold execBankTransfer
  dsimp only
  split
  · rfl
  case h_2 y hy => rw [if_neg (h y hy)]

theorem bankTransfer_joins {s : State} {k i : Nat} {y : QSlot} (head : AMap.get? ((s.tile k).port i).q ((s.tile k).port i).h = some y)
    (bank : y.kind = .bank) :
    let x := (s.tile k).port i
    ∃ t, exec (.bankTransfer k i) s = .next t ∧ Quiet s t ∧
      ((t.tile k).actor x.actor).inForce = ((s.tile k).actor x.actor).inForce ||| (1#16 <<< (((s.tile k).payload x x.h).toNat % 16)) ∧
      ((t.tile k).port i).h = x.h + 1 ∧ AMap.get? ((t.tile k).port i).q x.h = none := by
  intro x
  have run : exec (.bankTransfer k i) s = .next (s.takeSlots k i 1) := by
    change execBankTransfer k i s = _
    simp only [execBankTransfer, head, bank, if_true]
  have tile := State.tile_updTile s k fun t => t.takeBanks i 1
  obtain ⟨cr, port⟩ := consume_port (s.updTile k fun t => t.takeBanks i 1) k i 1
  rw [tile, Tile.port_takeBanks] at port
  have actor := consume_actor (s.updTile k fun t => t.takeBanks i 1) k i 1 x.actor
  rw [tile] at actor
  refine ⟨_, run, (TokenStep.takeSlots ..).quiet, ?_, congrArg Port.h port, ?_⟩
  · rw [State.takeSlots, actor]; exact inForce_takeBanks head bank
  · rw [State.takeSlots, port]; exact AMap.get?_erase_same ..

/-! Operators: the tokens taken. -/

/-- A channel with the same tokens on its branches and the same next SEQ. -/
structure Chan.SameTokens (c d : Chan) : Prop where
  seq : d.seq = c.seq
  line : d.line = c.line
  flights : d.branches.map (·.flights) = c.branches.map (·.flights)

theorem setAt_map {α β : Type} (f : α → β) (l : List α) (n : Nat) (v : α) (h : ∀ x, l[n]? = some x → f v = f x) :
    (setAt l n v).map f = l.map f := by
  induction l generalizing n with
  | nil => rfl
  | cons x xs ih =>
    cases n with
    | zero => rw [setAt, List.map_cons, List.map_cons, h x rfl]
    | succ n => rw [setAt, List.map_cons, List.map_cons, ih n h]

/-- A step that leaves every tile, and on every channel the tokens. -/
structure OnlyCredits (s t : State) : Prop where
  tile : ∀ k, t.tile k = s.tile k
  chan : ∀ id c, s.chan? id = some c → ∃ d, t.chan? id = some d ∧ c.SameTokens d

theorem OnlyCredits.refl (s : State) : OnlyCredits s s := ⟨fun _ => rfl, fun _ c h => ⟨c, h, rfl, rfl, rfl⟩⟩

theorem OnlyCredits.trans {s t u : State} (a : OnlyCredits s t) (b : OnlyCredits t u) : OnlyCredits s u := by
  refine ⟨fun k => (b.tile k).trans (a.tile k), fun id c hc => ?_⟩
  obtain ⟨d, hd, cd⟩ := a.chan id c hc
  obtain ⟨e, he, de⟩ := b.chan id d hd
  exact ⟨e, he, de.seq.trans cd.seq, de.line.trans cd.line, de.flights.trans cd.flights⟩

theorem onlyCredits_freeSlots (s : State) (id i n : Nat) : OnlyCredits s (s.freeSlots id i n) := by
  unfold State.freeSlots
  split
  · exact .refl s
  case h_2 c hc =>
    split
    · exact .refl s
    case h_2 b hb =>
      refine ⟨fun _ => rfl, fun j a ha => ?_⟩
      by_cases e : j = id
      · rw [e, hc] at ha
        injection ha with ha
        subst e ha
        exact ⟨_, State.chan_setChan .., rfl, rfl, setAt_map _ _ _ _ fun x hx => by rw [hb] at hx; injection hx with hx; rw [hx]⟩
      · exact ⟨a, (State.chan_setChan_other _ _ (Ne.symm e)).trans ha, rfl, rfl, rfl⟩

theorem onlyCredits_operFree (s : State) (k n : Nat) (o : Oper) (e : Nat) : OnlyCredits s (operFree s k n o e) := by
  unfold operFree
  split
  · exact .refl s
  · split
    · exact .refl s
    · split
      · exact onlyCredits_freeSlots ..
      · exact .refl s

theorem onlyCredits_operFrees (k n : Nat) (o : Oper) (es : List Nat) (s : State) :
    OnlyCredits s (es.foldl (fun s e => operFree s k n o e) s) := by
  induction es generalizing s with
  | nil => exact .refl s
  | cons e es ih => exact (onlyCredits_operFree s k n o e).trans (ih _)

theorem oper_operTake (s : State) (k i : Nat) (o : Oper) (es : List Nat) :
    ((operTake s k i o es).tile k).oper i = some (es.foldl Oper.clearInput o) := by
  rw [operTake, State.tile_moved, State.tile_updTile, Tile.oper_setOper]

theorem chan_operTake {s : State} {id : Nat} {c : Chan} (k i : Nat) (o : Oper) (es : List Nat) (hc : s.chan? id = some c) :
    ∃ d, (operTake s k i o es).chan? id = some d ∧ c.SameTokens d := by
  rw [operTake, State.chan?, State.moved_chans]
  exact (onlyCredits_operFrees k i o es s).chan id c hc

/-! Operators: the tokens put. -/

theorem tile_operPut (s : State) (o : Oper) (e : Nat) (kind : TokKind) (v : Line) (st : BitVec 16) (r : Option (BitVec 16)) (k : Nat) :
    (operPut s o e kind v st r).tile k = s.tile k := by
  unfold operPut
  split
  · rfl
  · split <;> rfl

theorem chan_operPut_other {s : State} {o : Oper} {e j : Nat} (h : AMap.get? o.chans e ≠ some j) (kind : TokKind) (v : Line)
    (st : BitVec 16) (r : Option (BitVec 16)) : (operPut s o e kind v st r).chan? j = s.chan? j := by
  unfold operPut
  split
  · rfl
  case h_2 n hn =>
    split
    · rfl
    · exact State.chan_setChan_other _ _ fun eq => h (by rw [hn, eq])

/-- A token other than an EOS put by an operator enters its channel with its kind and payload. -/
theorem entered_operPut {s : State} {o : Oper} {e id : Nat} {c d : Chan} {kind : TokKind} (v : Line) (r : Option (BitVec 16))
    (he : AMap.get? o.chans e = some id) (hd : s.chan? id = some d) (same : c.SameTokens d) (notEos : kind ≠ .eos) :
    EnteredChan (operPut s o e kind v 0 r) id c kind v := by
  simp only [operPut, he, hd]
  refine ⟨_, State.chan_setChan .., congrArg (· + 1) same.seq, fun b hb => ?_⟩
  have one : ∃ b', d.branches = [b'] ∧ b'.flights = b.flights := by
    have flights := same.flights
    rw [hb] at flights
    obtain ⟨b', hb', eq⟩ := List.map_eq_singleton_iff.mp flights
    exact ⟨b', hb', eq⟩
  obtain ⟨b', hb', flights⟩ := one
  refine ⟨{ d.token kind v 0 d.seq with round := r.getD (d.token kind v 0 d.seq).round }, rfl, if_neg notEos, same.seq, same.line, ?_⟩
  simp only [Chan.takeRoom, Chan.enter, hb', List.map_cons, List.map_nil, flights]

/-- An error of an operator moves no token. -/
theorem chan_operError (s : State) (k i j : Nat) : (operError s k i).chan? j = s.chan? j := rfl

theorem oper_operError {s : State} {k i : Nat} {o : Oper} (h : (s.tile k).oper i = some o) :
    ((operError s k i).tile k).oper i = some { o with errs := o.errs + 1 } := by
  have tile : (operError s k i).tile k = (s.tile k).setOper i { o with errs := o.errs + 1 } := by
    have counted : ∀ u : State, (u.countOpErr (s.handleOf k)).tile k = u.tile k := fun _ => rfl
    rw [operError, counted, State.tile_updTile]
    simp only [h]
  rw [tile, Tile.oper_setOper]

/-- The tokens of an operator's inputs are taken, as the obligation says it: its registers empty, its counts on, its errors counted. -/
def OperTook (t : State) (k i : Nat) (o : Oper) (errs : Nat) : Prop :=
  ∃ z, (t.tile k).oper i = some z ∧ z.in0 = none ∧ z.h0 = o.h0 + 1 ∧ (o.kind ≠ .carry → z.in1 = none ∧ z.h1 = o.h1 + 1) ∧ z.errs = o.errs + errs

/-- What an operator puts on an endpoint's channel. -/
def OperPuts (s t : State) (o : Oper) (e : Nat) (kind : TokKind) (v : Line) : Prop :=
  ∀ id c, AMap.get? o.chans e = some id → s.chan? id = some c → EnteredChan t id c kind v

theorem operTook_of_tile {t u : State} {k i : Nat} {o : Oper} {n : Nat} (tile : u.tile k = t.tile k) (h : OperTook t k i o n) : OperTook u k i o n := by
  rw [OperTook, tile]; exact h

theorem operTook_take (s : State) (k i : Nat) (o : Oper) : OperTook (operTake s k i o [0, 1]) k i o 0 :=
  ⟨_, oper_operTake .., rfl, rfl, fun _ => ⟨rfl, rfl⟩, rfl⟩

theorem operTook_take_carry (s : State) (k i : Nat) {o : Oper} (carry : o.kind = .carry) : OperTook (operTake s k i o [0]) k i o 0 :=
  ⟨_, oper_operTake .., rfl, rfl, fun h => absurd carry h, rfl⟩

theorem operTook_error {t : State} {k i : Nat} {o : Oper} (h : OperTook t k i o 0) : OperTook (operError t k i) k i o 1 := by
  obtain ⟨z, hz, in0, h0, in1, errs⟩ := h
  exact ⟨_, oper_operError hz, in0, h0, in1, congrArg (· + 1) errs⟩

section
variable {s : State} {k i : Nat} {o : Oper} {es : List Nat}

/-- One token goes out behind the tokens taken. -/
theorem operPuts_one (e : Nat) {kind : TokKind} (v : Line) (r : Option (BitVec 16)) (notEos : kind ≠ .eos) :
    OperPuts s (operPut (operTake s k i o es) o e kind v 0 r) o e kind v := fun _ _ he hc => by
  obtain ⟨d, hd, same⟩ := chan_operTake k i o es hc
  exact entered_operPut v r he hd same notEos

/-- Two tokens go out on two channels behind the tokens taken. -/
theorem operPuts_two {e f : Nat} (ne : AMap.get? o.chans e ≠ AMap.get? o.chans f) {a b : TokKind} (v w : Line) (q r : Option (BitVec 16))
    (ha : a ≠ .eos) (hb : b ≠ .eos) :
    let t := operPut (operPut (operTake s k i o es) o e a v 0 q) o f b w 0 r
    OperPuts s t o e a v ∧ OperPuts s t o f b w := by
  refine ⟨fun id c he hc => ?_, fun id c hf hc => ?_⟩
  · rw [EnteredChan, chan_operPut_other (by rw [← he]; exact ne.symm)]
    exact operPuts_one e v q ha id c he hc
  · obtain ⟨d, hd, same⟩ := chan_operTake k i o es hc
    exact entered_operPut w r hf ((chan_operPut_other (by rw [← hf]; exact ne) ..).trans hd) same hb

end

/-! Operators: what lets them fire. -/

structure OperFires (s : State) (k i : Nat) (kind : OperKind) (o : Oper) (toks : List Token) : Prop where
  oper : (s.tile k).oper i = some o
  kind : o.kind = kind
  counted : ∀ x ∈ toks, x.kind = .data ∨ x.kind = .null ∨ x.kind = .poison

theorem operFires_some {s : State} {k i : Nat} {kind : OperKind} {o : Oper} {toks : List Token}
    (h : operFires s k i kind = some (o, toks)) : OperFires s k i kind o toks := by
  unfold operFires at h
  split at h
  · cases h
  case h_2 o' ho =>
    split at h
    · cases h
    case h_2 hs _ =>
      split at h
      case isFalse => cases h
      case isTrue able =>
        obtain ⟨hk, -, -, all⟩ := able
        injection h with h
        injection h with e₁ e₂
        subst e₁ e₂
        refine ⟨ho, hk, fun x hx => ?_⟩
        have one := List.all_eq_true.mp all x hx
        revert one
        cases x.kind <;> simp [counts]

theorem notEos_of_counted {x : Token} (h : x.kind = .data ∨ x.kind = .null ∨ x.kind = .poison) : x.kind ≠ .eos := by
  rcases h with e | e | e <;> rw [e] <;> decide

/-! STEER. -/

theorem exec_steerOp_idle {s : State} {k i : Nat} (h : operFires s k i .steer = none) : exec (.steerOp k i) s = .next s := by
  change execSteerOp k i s = _
  simp only [execSteerOp, h]

/-- The output that a control token of STEER names. -/
def steerOut (c : Token) : Nat := if c.payload.getLsbD 0 then 3 else 2

/-- What STEER emits on a data token and a control token. -/
def steered (s : State) (k i : Nat) (o : Oper) (d c : Token) : State :=
  let s1 := operTake s k i o [0, 1]
  match c.kind with
  | .data => operPut (operPut s1 o (steerOut c) d.kind d.payload 0 (some d.round)) o (5 - steerOut c) .null 0 0 none
  | .null => operPut (operPut s1 o 2 .null 0 0 none) o 3 .null 0 0 none
  | _ => operError (operPut (operPut s1 o 2 .poison 0 0 none) o 3 .poison 0 0 none) k i

theorem exec_steerOp {s : State} {k i : Nat} {o : Oper} {d c : Token} (h : operFires s k i .steer = some (o, [d, c])) :
    exec (.steerOp k i) s = .next (steered s k i o d c) := by
  change execSteerOp k i s = _
  simp only [execSteerOp, h]
  rfl

theorem steerOut_ne {m : AMap Nat} (ne : AMap.get? m 2 ≠ AMap.get? m 3) (c : Token) : AMap.get? m (steerOut c) ≠ AMap.get? m (5 - steerOut c) := by
  unfold steerOut
  split
  · exact ne.symm
  · exact ne

theorem steerOp_steers {s : State} {k i : Nat} {o : Oper} {d c : Token} (h : operFires s k i .steer = some (o, [d, c]))
    (ne : AMap.get? o.chans 2 ≠ AMap.get? o.chans 3) :
    ∃ t, exec (.steerOp k i) s = .next t ∧ Quiet s t ∧ OperTook t k i o (if c.kind = .poison then 1 else 0) ∧
      (c.kind = .data → OperPuts s t o (steerOut c) d.kind d.payload ∧ OperPuts s t o (5 - steerOut c) .null 0) ∧
      (c.kind = .null → OperPuts s t o 2 .null 0 ∧ OperPuts s t o 3 .null 0) ∧
      (c.kind = .poison → OperPuts s t o 2 .poison 0 ∧ OperPuts s t o 3 .poison 0) := by
  have fires := operFires_some h
  have hd := notEos_of_counted (fires.counted d (by simp))
  have took := operTook_take s k i o
  have step := TokenStep.operTake s k i o [0, 1]
  refine ⟨_, exec_steerOp h, ?_⟩
  rcases fires.counted c (by simp) with e | e | e <;> simp only [steered, e, reduceCtorEq, if_true, if_false, false_implies, true_implies, and_true, true_and]
  · exact ⟨((step.trans (.operPut ..)).trans (.operPut ..)).quiet,
      operTook_of_tile ((tile_operPut ..).trans (tile_operPut ..)) took, operPuts_two (steerOut_ne ne c) _ _ _ _ hd (by decide)⟩
  · exact ⟨((step.trans (.operPut ..)).trans (.operPut ..)).quiet,
      operTook_of_tile ((tile_operPut ..).trans (tile_operPut ..)) took, operPuts_two ne _ _ _ _ (by decide) (by decide)⟩
  · exact ⟨(((step.trans (.operPut ..)).trans (.operPut ..)).trans (.operError ..)).quiet,
      operTook_error (operTook_of_tile ((tile_operPut ..).trans (tile_operPut ..)) took), operPuts_two ne _ _ _ _ (by decide) (by decide)⟩

/-! MERGE. -/

theorem exec_mergeOp_idle {s : State} {k i : Nat} (h : operFires s k i .merge = none) : exec (.mergeOp k i) s = .next s := by
  change execMergeOp k i s = _
  simp only [execMergeOp, h]

theorem mergeOp_merges {s : State} {k i : Nat} {o : Oper} {a b : Token} (h : operFires s k i .merge = some (o, [a, b])) :
    ∃ t, exec (.mergeOp k i) s = .next t ∧ Quiet s t ∧ OperTook t k i o (if a.kind = .data ∧ b.kind = .data then 1 else 0) ∧
      (a.kind = .data → b.kind = .data → OperPuts s t o 2 .poison 0) ∧ (a.kind = .null → b.kind = .null → OperPuts s t o 2 .null 0) ∧
      (a.kind = .data → b.kind = .null → OperPuts s t o 2 .data a.payload) ∧ (a.kind = .null → b.kind = .data → OperPuts s t o 2 .data b.payload) ∧
      (a.kind = .poison → OperPuts s t o 2 .poison a.payload) ∧ (a.kind ≠ .poison → b.kind = .poison → OperPuts s t o 2 .poison b.payload) := by
  have fires := operFires_some h
  have took := operTook_take s k i o
  have step := TokenStep.operTake s k i o [0, 1]
  change ∃ t, execMergeOp k i s = .next t ∧ _
  simp only [execMergeOp, h]
  refine ⟨_, rfl, ?_⟩
  rcases fires.counted a (by simp) with ea | ea | ea <;> rcases fires.counted b (by simp) with eb | eb | eb <;>
    simp only [ea, eb, reduceCtorEq, ne_eq, not_true_eq_false, not_false_eq_true, if_true, if_false, false_implies, true_implies, and_true, true_and, and_self, and_false]
  case inl.inl =>
    exact ⟨((step.trans (.operPut ..)).trans (.operError ..)).quiet, operTook_error (operTook_of_tile (tile_operPut ..) took), operPuts_one _ _ _ (by decide)⟩
  all_goals exact ⟨(step.trans (.operPut ..)).quiet, operTook_of_tile (tile_operPut ..) took, operPuts_one _ _ _ (by decide)⟩

/-! CARRY. -/

section
variable {s : State} {k i : Nat}

theorem exec_carryOp_unknown (h : (s.tile k).oper i = none) : exec (.carryOp k i) s = .next s := by
  change execCarryOp k i s = _
  simp only [execCarryOp, h]

variable {o : Oper} (ho : (s.tile k).oper i = some o)
include ho

theorem exec_carryOp_early (emitted : o.emitted = false) (h : ¬(o.kind = .carry ∧ operOpen s k o = true ∧ operRoom s o = true)) :
    exec (.carryOp k i) s = .next s := by
  change execCarryOp k i s = _
  simp only [execCarryOp, ho, emitted, if_true]
  rw [if_neg fun g => h ⟨g.1, g.2.2⟩]

theorem exec_carryOp_idle (emitted : o.emitted = true) (h : operFires s k i .carry = none) : exec (.carryOp k i) s = .next s := by
  change execCarryOp k i s = _
  simp [execCarryOp, ho, emitted, h]

theorem carryOp_first (emitted : o.emitted = false) (kind : o.kind = .carry) (open_ : operOpen s k o = true) (room : operRoom s o = true) :
    ∃ t, exec (.carryOp k i) s = .next t ∧ Quiet s t ∧ (t.tile k).oper i = some { o with emitted := true } ∧
      OperPuts s t o 1 .data (o.init.setWidth 512) := by
  change ∃ t, execCarryOp k i s = .next t ∧ _
  simp only [execCarryOp, ho]
  rw [if_pos ⟨kind, emitted, open_, room⟩]
  refine ⟨_, rfl, (((TokenStep.operPut ..).trans (.updTile _ k (tokenTile_setOper ..))).trans (.moved ..)).quiet, ?_, fun id c he hc => ?_⟩
  · rw [State.tile_moved, State.tile_updTile, Tile.oper_setOper]
  · rw [EnteredChan, State.chan?, State.moved_chans]
    exact entered_operPut _ _ he hc ⟨rfl, rfl, rfl⟩ (by decide)

theorem carryOp_passes {x : Token} (emitted : o.emitted = true) (h : operFires s k i .carry = some (o, [x])) :
    ∃ t, exec (.carryOp k i) s = .next t ∧ Quiet s t ∧ OperTook t k i o 0 ∧
      (x.kind = .null → o.nullRep = true → OperPuts s t o 1 .data (o.init.setWidth 512)) ∧
      (x.kind ≠ .null ∨ o.nullRep = false → OperPuts s t o 1 x.kind x.payload) := by
  have fires := operFires_some h
  have took := operTook_take_carry s k i fires.kind
  have step := TokenStep.operTake s k i o [0]
  change ∃ t, execCarryOp k i s = .next t ∧ _
  simp only [execCarryOp, ho, emitted, false_and, and_false, if_false, h, Bool.true_eq_false]
  refine ⟨_, rfl, ?_⟩
  split
  case isTrue rep =>
    exact ⟨(step.trans (.operPut ..)).quiet, operTook_of_tile (tile_operPut ..) took, fun _ _ => operPuts_one _ _ _ (by decide),
      fun other => other.elim (fun e => absurd rep.1 e) fun e => absurd rep.2 (by rw [e]; decide)⟩
  case isFalse other =>
    exact ⟨(step.trans (.operPut ..)).quiet, operTook_of_tile (tile_operPut ..) took, fun e n => absurd ⟨e, n⟩ other,
      fun _ => operPuts_one _ _ _ (notEos_of_counted (fires.counted x (by simp)))⟩

end

end Sys2Proof.Machine
end

section
/-!
Tokens arrive (02 R35, R39, R40, R42, 14 R348, 17 R398, R381): off the branch, and into the queue, register or outlet at its end.
-/

namespace Sys2Proof.Machine

/-! Off the branch. -/

theorem Chan.land_eq {c : Chan} {n : Nat} {b : Branch} (hb : c.branches[n]? = some b) (seq : Nat) :
    c.land n seq = c.setBranch n { b with flights := b.flights.filter fun f => f.tok.seq != seq } := by simp only [Chan.land, hb]

/-- The state in which a token has left its branch, and what the mesh links made of its handshakes is counted (R381). -/
def State.tokenOff (s : State) (id n seq : Nat) (c : Chan) (f : Flight) : State :=
  (s.countEcc c.handle f.corr (if f.bad then 1 else 0)).setChan id (c.land n seq)

theorem State.countEcc_eq (s : State) (h corr uncorr : Nat) : s.countEcc h corr uncorr = { s with res := (s.countEcc h corr uncorr).res } := by
  unfold State.countEcc
  split <;> rfl

theorem State.tile_updErr (s : State) (h : Nat) (f : ErrRec → ErrRec) (k : Nat) : (s.updErr h f).tile k = s.tile k := rfl

theorem State.tile_countOpErr (s : State) (h k : Nat) : (s.countOpErr h).tile k = s.tile k := rfl

theorem tile_tokenOff (s : State) (id n seq : Nat) (c : Chan) (f : Flight) (k : Nat) : (s.tokenOff id n seq c f).tile k = s.tile k := by
  rw [State.tokenOff, State.countEcc_eq]; rfl

theorem tokenStep_tokenOff (s : State) (id n seq : Nat) (c : Chan) (f : Flight) : TokenStep s (s.tokenOff id n seq c f) :=
  (TokenStep.countEcc ..).trans (.setChan ..)

/-- The counts of corrected and uncorrected errors of every residency are as they were. -/
structure SameCounts (s t : State) : Prop where
  corr : ∀ h, (t.resOf h).err.corr = (s.resOf h).err.corr
  uncorr : ∀ h, (t.resOf h).err.uncorr = (s.resOf h).err.uncorr

theorem SameCounts.of_res {s t : State} (h : t.res = s.res) : SameCounts s t :=
  ⟨fun m => by rw [State.resOf, h]; rfl, fun m => by rw [State.resOf, h]; rfl⟩

theorem SameCounts.trans {s t u : State} (a : SameCounts s t) (b : SameCounts t u) : SameCounts s u :=
  ⟨fun h => (b.corr h).trans (a.corr h), fun h => (b.uncorr h).trans (a.uncorr h)⟩

theorem sameCounts_setRes (s : State) (h : Nat) {r : Res} (corr : r.err.corr = (s.resOf h).err.corr) (uncorr : r.err.uncorr = (s.resOf h).err.uncorr) :
    SameCounts s (s.setRes h r) := by
  refine ⟨fun m => ?_, fun m => ?_⟩ <;> rw [State.resOf, State.setRes, AMap.getD_set] <;> split
  case refine_1.isTrue e => rw [e]; exact corr
  case refine_2.isTrue e => rw [e]; exact uncorr
  all_goals rfl

theorem sameCounts_moved (s : State) (h : Nat) : SameCounts s (s.moved h) := by
  unfold State.moved
  split
  · exact .of_res rfl
  case h_2 r hr =>
    have same : s.resOf h = r := AMap.getD_of_get? hr _
    exact sameCounts_setRes s h (by rw [same]) (by rw [same])

theorem sameCounts_updErr (s : State) (h : Nat) {f : ErrRec → ErrRec} (corr : ∀ e, (f e).corr = e.corr) (uncorr : ∀ e, (f e).uncorr = e.uncorr) :
    SameCounts s (s.updErr h f) := sameCounts_setRes s h (corr _) (uncorr _)

/-- A state with the same residencies, and then something of a residency moves. -/
theorem sameCounts_then_moved {s t : State} (res : t.res = s.res) (h : Nat) : SameCounts s (t.moved h) := (SameCounts.of_res res).trans (sameCounts_moved ..)

theorem sameCounts_dropToken (s : State) (k : Nat) (tok : Token) : SameCounts s (dropToken s k tok) := by
  unfold dropToken
  exact SameCounts.trans (.of_res (State.setTile_res ..)) (sameCounts_updErr _ _ (fun _ => rfl) fun _ => rfl)

/-- A token has left its branch, as the obligation says it. -/
def TokenLanded (s t : State) (id n seq : Nat) (c : Chan) (b : Branch) (f : Flight) : Prop :=
  ∃ d e, t.chan? id = some d ∧ d.branches[n]? = some e ∧ e.room = b.room ∧
    (∀ g ∈ e.flights, g.tok.seq ≠ seq) ∧ (∀ g ∈ b.flights, g.tok.seq ≠ seq → g ∈ e.flights) ∧
    (f.corr ≠ 0 ∨ f.bad = true → AMap.get? s.res c.handle ≠ none →
      (t.resOf c.handle).err.corr = sat32 ((s.resOf c.handle).err.corr + f.corr) ∧
      (t.resOf c.handle).err.uncorr = sat32 ((s.resOf c.handle).err.uncorr + if f.bad then 1 else 0))

theorem counts_tokenOff (s : State) (id n seq : Nat) {c : Chan} {f : Flight} (h : f.corr ≠ 0 ∨ f.bad = true) :
    ((s.tokenOff id n seq c f).resOf c.handle).err = { (s.resOf c.handle).err with
      corr := sat32 ((s.resOf c.handle).err.corr + f.corr), uncorr := sat32 ((s.resOf c.handle).err.uncorr + if f.bad then 1 else 0) } := by
  have some_ : ¬(f.corr = 0 ∧ (if f.bad then 1 else 0) = 0) := fun ⟨a, b⟩ => h.elim (fun g => g a) fun g => by rw [g] at b; cases b
  have same : (s.tokenOff id n seq c f).resOf c.handle = (s.countEcc c.handle f.corr (if f.bad then 1 else 0)).resOf c.handle := rfl
  rw [same, State.countEcc, if_neg some_, State.updErr, State.updRes, State.resOf_setRes]

theorem tokenLanded_of {s t : State} {id n seq : Nat} {c : Chan} {b : Branch} {f : Flight} (hb : c.branches[n]? = some b)
    (chans : t.chans = (s.tokenOff id n seq c f).chans) (counts : SameCounts (s.tokenOff id n seq c f) t) : TokenLanded s t id n seq c b f := by
  refine ⟨c.land n seq, { b with flights := b.flights.filter fun f => f.tok.seq != seq }, ?_, ?_, rfl, fun g hg => ?_, fun g hg ne => ?_,
    fun h _ => ?_⟩
  · rw [State.chan?, chans]; exact State.chan_setChan ..
  · rw [Chan.land_eq hb]; exact Chan.branch_setBranch hb _
  · exact bne_iff_ne.mp (List.mem_filter.mp hg).2
  · exact List.mem_filter.mpr ⟨hg, bne_iff_ne.mpr ne⟩
  · rw [counts.corr, counts.uncorr, counts_tokenOff s id n seq h]; exact ⟨rfl, rfl⟩

/-! Which tokens arrive. -/

section
variable {s : State} {id n seq : Nat}

theorem exec_tokenArrival_unknown (hc : s.chan? id = none) (h : id < 4194304) : exec (.tokenArrival id n seq) s = .next s := by
  change execTokenArrival id n seq s = _
  simp only [execTokenArrival, hc]
  rw [strayArrival, strayBase, if_pos h]

variable {c : Chan} (hc : s.chan? id = some c)
include hc

theorem exec_tokenArrival_noBranch (hb : c.branches[n]? = none) : exec (.tokenArrival id n seq) s = .next s := by
  change execTokenArrival id n seq s = _
  simp only [execTokenArrival, hc, hb]

variable {b : Branch} (hb : c.branches[n]? = some b)
include hb

theorem exec_tokenArrival_none (hf : b.flights.find? (fun f => f.tok.seq == seq) = none) : exec (.tokenArrival id n seq) s = .next s := by
  change execTokenArrival id n seq s = _
  simp only [execTokenArrival, hc, hb, hf]

variable {f : Flight} (hf : b.flights.find? (fun f => f.tok.seq == seq) = some f)
include hf

theorem exec_tokenArrival_waits (h : ¬(endLive s id n b.dst = true ∧ flightReady s f = true ∧ canLand s b seq = true)) :
    exec (.tokenArrival id n seq) s = .next s := by
  change execTokenArrival id n seq s = _
  have not : ¬(endLive s id n b.dst && flightReady s f && canLand s b seq) = true := by
    rw [Bool.and_eq_true, Bool.and_eq_true, and_assoc]; exact h
  simp only [execTokenArrival, hc, hb, hf]
  rw [if_neg not]

variable (go : endLive s id n b.dst = true ∧ flightReady s f = true ∧ canLand s b seq = true)
include go

theorem exec_tokenArrival_port {k p : Nat} (dst : b.dst = .port k p) :
    exec (.tokenArrival id n seq) s = .next (if (f.received s).tok.resid ≠ (s.tile k).slot.resid
      then dropToken (s.tokenOff id n seq c f) k { (f.received s).tok with port := p }
      else deliver (s.tokenOff id n seq c f) k p (seq + b.base) (f.received s).tok) := by
  obtain ⟨live, ready, land⟩ := go
  have tile : ∀ h a u q, (State.countEcc s h a u).tile q = s.tile q := fun h a u q => by rw [State.countEcc_eq]; rfl
  change execTokenArrival id n seq s = _
  simp only [execTokenArrival, hc, hb, hf]
  rw [live, ready, land, dst]
  simp only [tile]
  rfl

theorem exec_tokenArrival_outlet {k : Nat} (dst : b.dst = .outlet k) :
    exec (.tokenArrival id n seq) s =
      .next (((s.tokenOff id n seq c f).placeOutlet k (seq + b.base) (f.received s).tok).moved c.handle) := by
  obtain ⟨live, ready, land⟩ := go
  change execTokenArrival id n seq s = _
  simp only [execTokenArrival, hc, hb, hf]
  rw [live, ready, land, dst]
  rfl

theorem exec_tokenArrival_oper {k i e : Nat} {o : Oper} (dst : b.dst = .oper k i e) (resid : (f.received s).tok.resid = (s.tile k).slot.resid)
    (ho : (s.tile k).oper i = some o) :
    exec (.tokenArrival id n seq) s = .next ((operDrain ((s.tokenOff id n seq c f).updTile k fun y =>
      y.setOper i (o.accept e (f.received s).tok)) k i e).moved c.handle) := by
  obtain ⟨live, ready, land⟩ := go
  have tile : ∀ h a u q, (State.countEcc s h a u).tile q = s.tile q := fun h a u q => by rw [State.countEcc_eq]; rfl
  change execTokenArrival id n seq s = _
  simp only [execTokenArrival, hc, hb, hf]
  rw [live, ready, land, dst]
  simp only [tile, resid, ho, ne_eq, not_true_eq_false, if_false]
  rfl

end

theorem tok_received_good {f : Flight} (s : State) (h : f.bad = false) : (f.received s).tok = f.tok := by simp [Flight.received, h]

theorem tok_received_bad {f : Flight} (s : State) (h : f.bad = true) : (f.received s).tok.kind = .poison ∧ (f.received s).tok.resid = f.tok.resid := by
  simp [Flight.received, h]

/-! Into a queue. -/

/-- Keeping the old words of code changes no context but in what it fetches. -/
theorem Tile.keepStale_eq (t : Tile) (a n : Nat) : t.keepStale a n = { t with ctxs := (t.keepStale a n).ctxs } := by
  unfold Tile.keepStale
  split <;> rfl

theorem Tile.ctx_keepStale (t : Tile) (a n m : Nat) : ∃ st, (t.keepStale a n).ctx m = { t.ctx m with stale := st } := by
  unfold Tile.keepStale
  dsimp only
  split
  · simp only [Tile.ctx, AMap.getD, AMap.get?_mapVals]
    cases AMap.get? t.ctxs m with
    | none => exact ⟨_, rfl⟩
    | some c =>
      simp only [Option.map_some, Option.getD_some]
      split
      · exact ⟨_, rfl⟩
      · exact ⟨_, rfl⟩
  · exact ⟨_, rfl⟩

theorem Tile.slot_writeTlm (t : Tile) (a : Nat) (bs : List Byte) : (t.writeTlm a bs).slot = t.slot := by
  rw [Tile.writeTlm, Tile.keepStale_eq]; rfl

theorem Tile.tlm_writeTlm (t : Tile) (a : Nat) (bs : List Byte) : (t.writeTlm a bs).tlm = Memory.writeBytes t.tlm a bs := by
  rw [Tile.writeTlm, Tile.keepStale_eq]

theorem Tile.regs_writeTlm (t : Tile) (a : Nat) (bs : List Byte) (m : Nat) :
    (t.ctx m).sameRegs ((t.writeTlm a bs).ctx m) ∧ ((t.writeTlm a bs).ctx m).pcc = (t.ctx m).pcc := by
  obtain ⟨st, same⟩ := t.ctx_keepStale a bs.length m
  have ctx : (t.writeTlm a bs).ctx m = (t.keepStale a bs.length).ctx m := rfl
  rw [ctx, same]
  exact ⟨⟨fun _ => rfl, fun _ => rfl, fun _ => rfl, rfl⟩, rfl⟩

/-- The queue slot that a token makes. -/
def tokenSlot (x : Port) (p n : Nat) (tok : Token) : QSlot :=
  { kind := (portDecode x tok).1, line := tok.line, round := tok.round, resid := tok.resid, seq := n, port := p, scale := (portDecode x tok).2.2.1
    ohdr := tok.ohdr }

theorem leBytes_payload (x : Port) (v : Line) : (if x.line then lineBytes v else leBytes 8 v.toNat) = leBytes (if x.line then 64 else 8) v.toNat := by
  cases x.line <;> rfl

theorem placeToken_eq (t : Tile) (p n : Nat) (tok : Token) :
    t.placeToken p n tok = (t.writeTlm ((t.port p).slotAddr n) (leBytes (if (t.port p).line then 64 else 8) (portDecode (t.port p) tok).2.1.toNat)).setPort p
      { t.port p with q := AMap.set (t.port p).q n (tokenSlot (t.port p) p n tok) } := by
  rw [← leBytes_payload]; rfl

theorem port_placeToken (t : Tile) (p n : Nat) (tok : Token) :
    (t.placeToken p n tok).port p = { t.port p with q := AMap.set (t.port p).q n (tokenSlot (t.port p) p n tok) } := by
  rw [placeToken_eq, Tile.port_setPort]

theorem drainPort_no {s : State} {k p : Nat} (h : ((s.tile k).port p).drain = .no) (n : Nat) : drainPort k p n s = s := by
  cases n with
  | zero => rfl
  | succ n =>
    unfold drainPort
    simp only [h]

/-- The state in which a token stands in its queue, and an XE8 block that cannot be decoded is counted (R42, R114). -/
def placed (s : State) (k p n : Nat) (tok : Token) : State :=
  let u := s.updTile k fun t => t.placeToken p n tok
  (if (portDecode ((s.tile k).port p) tok).2.2.2 then u.countOpErr (s.handleOf k) else u).moved (s.handleOf k)

theorem deliver_placed {s : State} {k p n : Nat} {tok : Token} (drain : ((s.tile k).port p).drain = .no)
    (active : ((s.tile k).port p).count ≠ 0 ∨ ((s.tile k).port p).stream ≠ none) : deliver s k p n tok = placed s k p n tok := by
  have live : ((s.tile k).port p).inert = false := by
    unfold Port.inert
    rcases active with h | h
    · simp [h]
    · simp [Option.isNone_iff_eq_none, h]
  have stays : ∀ u : State, u.tile k = (s.tile k).placeToken p n tok → ∀ m, drainPort k p m u = u := fun u hu m =>
    drainPort_no (by rw [hu, port_placeToken]; exact drain) m
  unfold deliver placed
  simp only [live, Bool.false_eq_true, if_false]
  congr 1
  have at_ := State.tile_updTile s k fun t => t.placeToken p n tok
  split
  · exact stays _ ((State.tile_countOpErr ..).trans at_) _
  · exact stays _ at_ _

theorem tile_placed (s : State) (k p n : Nat) (tok : Token) (q : Nat) :
    (placed s k p n tok).tile q = if q = k then (s.tile k).placeToken p n tok else s.tile q := by
  unfold placed
  dsimp only
  rw [State.tile_moved]
  split
  · exact (State.tile_countOpErr ..).trans (State.tile_updTile_apply ..)
  · exact State.tile_updTile_apply ..

theorem placed_chans (s : State) (k p n : Nat) (tok : Token) : (placed s k p n tok).chans = s.chans := by
  unfold placed
  dsimp only
  rw [State.moved_chans]
  split <;> rfl

theorem placed_gmem (s : State) (k p n : Nat) (tok : Token) : (placed s k p n tok).gmem = s.gmem := by
  unfold placed
  dsimp only
  rw [State.moved_gmem]
  split <;> rfl

theorem sameCounts_placed (s : State) (k p n : Nat) (tok : Token) : SameCounts s (placed s k p n tok) := by
  unfold placed
  dsimp only
  refine .trans ?_ (sameCounts_moved ..)
  split
  · exact SameCounts.trans (t := s.updTile k fun t => t.placeToken p n tok) (.of_res (State.setTile_res ..))
      (sameCounts_updErr _ _ (fun _ => rfl) fun _ => rfl)
  · exact .of_res (State.setTile_res ..)

theorem placed_sameCtxs (s : State) (k p n : Nat) (tok : Token) : s.sameCtxs (placed s k p n tok) := fun q m => by
  rw [tile_placed]
  split
  case isTrue e => rw [e, placeToken_eq]; exact Tile.regs_writeTlm _ _ _ m
  case isFalse => exact ⟨⟨fun _ => rfl, fun _ => rfl, fun _ => rfl, rfl⟩, rfl⟩

theorem placed_tlm (s : State) (k p n : Nat) (tok : Token) (q z : Nat)
    (h : q ≠ k ∨ z < ((s.tile k).port p).slotAddr n ∨ ((s.tile k).port p).slotAddr n + (if ((s.tile k).port p).line then 64 else 8) ≤ z) :
    Memory.read ((placed s k p n tok).tile q).tlm z = Memory.read (s.tile q).tlm z := by
  rw [tile_placed]
  split
  case isFalse => rfl
  case isTrue e =>
    rw [placeToken_eq, e]
    refine (congrArg (Memory.read · z) (Tile.tlm_writeTlm ..)).trans (Memory.read_writeBytes_other _ _ _ _ ?_)
    rw [leBytes_length]
    exact h.resolve_left fun ne => ne e

theorem placed_payload (s : State) (k p n : Nat) (tok : Token) :
    ((placed s k p n tok).tile k).number (((s.tile k).port p).slotAddr n) (if ((s.tile k).port p).line then 64 else 8) =
      (portDecode ((s.tile k).port p) tok).2.1.toNat % 256 ^ (if ((s.tile k).port p).line then 64 else 8) := by
  rw [tile_placed, if_pos rfl, placeToken_eq, ← Tile.readTlm_eq_number]
  refine Eq.trans (congrArg (Memory.readN · _ _) (Tile.tlm_writeTlm ..)) (Memory.readN_writeN ..)

/-- A port without XE8 blocks takes a token as it is (R42). -/
theorem portDecode_plain {x : Port} (h : x.fmt ≠ 14) (tok : Token) : portDecode x tok = (tok.kind, tok.payload, x.scale, false) :=
  if_neg fun e => h e.1

/-! Into an outlet, and into an operator's register. -/

theorem outlet_placeOutlet (s : State) (k m : Nat) (tok : Token) (h : Nat) :
    ((s.placeOutlet k m tok).moved h).outlet k = (s.outlet k).place m tok tok.scale (msixPorts s k) := by
  have moved : ∀ u : State, (u.moved h).outlet k = u.outlet k := fun u => by rw [State.outlet, (TokenStep.moved u h).others]; rfl
  rw [moved, State.placeOutlet, State.outlet_setOutlet]

theorem operDrain_no {s : State} {k i e : Nat} {o : Oper} (ho : (s.tile k).oper i = some o) (d0 : o.drain0 = .no) (d1 : o.drain1 = .no) :
    operDrain s k i e = s := by
  unfold operDrain
  simp only [ho, d0, d1, ite_self]

theorem accept_drains (o : Oper) (e : Nat) (tok : Token) : (o.accept e tok).drain0 = o.drain0 ∧ (o.accept e tok).drain1 = o.drain1 := by
  unfold Oper.accept
  split <;> exact ⟨rfl, rfl⟩

/-! The arrivals that the obligation speaks of. -/

section
variable {s : State} {id n seq : Nat} {c : Chan} (hc : s.chan? id = some c) {b : Branch} (hb : c.branches[n]? = some b)
  {f : Flight} (hf : b.flights.find? (fun f => f.tok.seq == seq) = some f)
  (go : endLive s id n b.dst = true ∧ flightReady s f = true ∧ canLand s b seq = true)
include hc hb hf go

theorem tokenArrival_dropped {k p : Nat} (dst : b.dst = .port k p) (other : (f.received s).tok.resid ≠ (s.tile k).slot.resid) :
    ∃ t e, exec (.tokenArrival id n seq) s = .next t ∧ Quiet s t ∧ TokenLanded s t id n seq c b f ∧ (t.tile k).port p = (s.tile k).port p ∧
      (t.tile k).dropped = sat32 ((s.tile k).dropped + 1) ∧ (t.chan? id).bind (·.branches[n]?) = some e ∧ e.back = b.back := by
  have run := exec_tokenArrival_port hc hb hf go dst
  rw [if_pos other] at run
  have tile := tile_tokenOff s id n seq c f k
  have dropped : ∀ (u : State) tok, (dropToken u k tok).tile k =
      { u.tile k with dropped := sat32 ((u.tile k).dropped + 1), dropHdr := some (headerOf tok) } := fun u tok => by
    rw [dropToken, State.tile_updErr, State.tile_updTile]
  refine ⟨_, { b with flights := b.flights.filter fun f => f.tok.seq != seq }, run, ((tokenStep_tokenOff ..).trans (.dropToken ..)).quiet, tokenLanded_of hb rfl (sameCounts_dropToken ..), ?_, ?_, ?_, ?_⟩
  rotate_left 2
  · exact (congrArg (Option.bind · _) (State.chan_setChan ..)).trans ((congrArg (fun d : Chan => d.branches[n]?) (Chan.land_eq hb seq)).trans (Chan.branch_setBranch hb _))
  · rfl
  · rw [dropped, tile]; rfl
  · rw [dropped, tile]

theorem tokenArrival_queued {k p : Nat} (dst : b.dst = .port k p) (own : (f.received s).tok.resid = (s.tile k).slot.resid)
    (drain : ((s.tile k).port p).drain = .no) (active : ((s.tile k).port p).count ≠ 0 ∨ ((s.tile k).port p).stream ≠ none) :
    exec (.tokenArrival id n seq) s = .next (placed (s.tokenOff id n seq c f) k p (seq + b.base) (f.received s).tok) := by
  have run := exec_tokenArrival_port hc hb hf go dst
  rw [if_neg (not_not_intro own)] at run
  rw [run]
  rw [deliver_placed] <;> rw [tile_tokenOff]
  · exact drain
  · exact active

theorem tokenArrival_outlet {k : Nat} (dst : b.dst = .outlet k) :
    ∃ t, exec (.tokenArrival id n seq) s = .next t ∧ Quiet s t ∧ TokenLanded s t id n seq c b f ∧
      AMap.get? (t.outlet k).q (seq + b.base) = some { (f.received s).tok with seq := seq + b.base } ∧ (t.outlet k).h = (s.outlet k).h ∧
      ∀ j, j ≠ seq + b.base → AMap.get? (t.outlet k).q j = AMap.get? (s.outlet k).q j := by
  refine ⟨_, exec_tokenArrival_outlet hc hb hf go dst, ?_, tokenLanded_of hb ?_ ?_, ?_⟩
  · refine Quiet.of_tiles_gmem ?_ ?_
    · rw [State.moved_tiles, State.placeOutlet, State.tokenOff, State.countEcc_eq]; rfl
    · rw [State.moved_gmem, State.placeOutlet, State.tokenOff, State.countEcc_eq]; rfl
  · rw [State.moved_chans]; rfl
  · refine sameCounts_then_moved ?_ _
    rfl
  · have before : (s.tokenOff id n seq c f).outlet k = s.outlet k := by rw [State.tokenOff, State.countEcc_eq]; rfl
    rw [outlet_placeOutlet, before]
    exact ⟨AMap.get?_set_same .., rfl, fun j hj => AMap.get?_set_other _ _ (Ne.symm hj)⟩

theorem tokenArrival_oper {k i e : Nat} {o : Oper} (dst : b.dst = .oper k i e) (own : (f.received s).tok.resid = (s.tile k).slot.resid)
    (ho : (s.tile k).oper i = some o) (d0 : o.drain0 = .no) (d1 : o.drain1 = .no) :
    ∃ t, exec (.tokenArrival id n seq) s = .next t ∧ Quiet s t ∧ TokenLanded s t id n seq c b f ∧
      (t.tile k).oper i = some (if e = 0 then { o with in0 := some (f.received s).tok } else { o with in1 := some (f.received s).tok }) := by
  have accepted : (((s.tokenOff id n seq c f).updTile k fun y => y.setOper i (o.accept e (f.received s).tok)).tile k).oper i =
      some (o.accept e (f.received s).tok) := by rw [State.tile_updTile, Tile.oper_setOper]
  obtain ⟨a0, a1⟩ := accept_drains o e (f.received s).tok
  have run := exec_tokenArrival_oper hc hb hf go dst own ho
  rw [operDrain_no accepted (a0.trans d0) (a1.trans d1)] at run
  refine ⟨_, run, (((tokenStep_tokenOff ..).trans (.updTile _ k (tokenTile_setOper ..))).trans (.moved ..)).quiet, tokenLanded_of hb ?_ ?_, ?_⟩
  · rw [State.moved_chans]; rfl
  · exact sameCounts_then_moved (State.setTile_res ..) _
  · rw [State.tile_moved, accepted]; rfl

end

/-- Every event of tokens and operators has a next state. -/
theorem tokenEvent_next (id n seq k i : Nat) (s : State) : ∀ e ∈ [Instr.forkForward id, .creditReturn id n, .tokenArrival id n seq,
    .bankTransfer k i, .steerOp k i, .mergeOp k i, .carryOp k i], ∃ t, exec e s = .next t := by
  simp only [List.mem_cons, List.not_mem_nil, or_false, forall_eq_or_imp, forall_eq]
  refine ⟨?_, ?_, ?_, ?_, ?_, ?_, ?_⟩
  · change ∃ t, execForkForward id s = .next t
    unfold execForkForward
    repeat' split
    all_goals exact ⟨_, rfl⟩
  · change ∃ t, execCreditReturn id n s = .next t
    unfold execCreditReturn
    split
    · exact ⟨_, rfl⟩
    · split
      · exact ⟨_, rfl⟩
      · split <;> exact ⟨_, rfl⟩
  · change ∃ t, execTokenArrival id n seq s = .next t
    unfold execTokenArrival
    split
    · exact ⟨_, rfl⟩
    · split
      · exact ⟨_, rfl⟩
      · split
        · exact ⟨_, rfl⟩
        · split <;> exact ⟨_, rfl⟩
  · change ∃ t, execBankTransfer k i s = .next t
    unfold execBankTransfer
    dsimp only
    split
    · exact ⟨_, rfl⟩
    · split <;> exact ⟨_, rfl⟩
  · change ∃ t, execSteerOp k i s = .next t
    unfold execSteerOp
    split <;> exact ⟨_, rfl⟩
  · change ∃ t, execMergeOp k i s = .next t
    unfold execMergeOp
    split <;> exact ⟨_, rfl⟩
  · change ∃ t, execCarryOp k i s = .next t
    unfold execCarryOp
    split
    · exact ⟨_, rfl⟩
    · split
      · exact ⟨_, rfl⟩
      · split
        · exact ⟨_, rfl⟩
        · split <;> exact ⟨_, rfl⟩

/-- Settles O54: forks, credits, arrivals, BANK tokens and operators, one event after the other. -/
theorem tokensAndOperators : Obligations.TokensAndOperators := by
  refine ⟨tokenEvent_next, fun id n seq s => ⟨fun hc => ⟨exec_forkForward_unknown hc, exec_creditReturn_unknown hc, exec_tokenArrival_unknown hc⟩,
    fun c hc => ⟨exec_forkForward_empty hc, fun f rest hq => ?_, fun hb => ⟨exec_creditReturn_noBranch hc hb, exec_tokenArrival_noBranch hc hb⟩,
      fun b hb => ⟨exec_creditReturn_none hc hb, creditReturn_own hc hb, fun j a y => creditReturn_other hc hb, exec_tokenArrival_none hc hb,
        fun f hf => ⟨tok_received_good s, tok_received_bad s, exec_tokenArrival_waits hc hb hf,
          fun k p dst go => ⟨tokenArrival_dropped hc hb hf go dst, fun own drain active => ?_⟩,
          fun k dst go => tokenArrival_outlet hc hb hf go dst,
          fun k i e o dst go own ho d0 d1 => tokenArrival_oper hc hb hf go dst own ho d0 d1⟩⟩⟩⟩,
    fun k i s => ⟨⟨exec_bankTransfer_other, fun y => bankTransfer_joins⟩, exec_steerOp_idle, exec_mergeOp_idle, fun o d c => steerOp_steers,
      fun o a b => mergeOp_merges, exec_carryOp_unknown, fun o ho => ⟨exec_carryOp_early ho, carryOp_first ho, exec_carryOp_idle ho,
        fun x => carryOp_passes ho⟩⟩⟩
  · exact ⟨_, c.forked f rest, exec_forkForward hc hq, (TokenStep.setChan ..).quiet, fun j hj => State.chan_setChan_other _ _ (Ne.symm hj),
      State.chan_setChan .., rfl, rfl, by rw [Chan.forked, List.map_map]; rfl, by rw [Chan.forked, List.map_map]; rfl⟩
  · have off := tile_tokenOff s id n seq c f
    have step := tokenStep_tokenOff s id n seq c f
    refine ⟨_, tokenArrival_queued hc hb hf go dst own drain active, ?_, ?_, tokenLanded_of hb (placed_chans ..) (sameCounts_placed ..), ?_, ?_, ?_, ?_,
      ?_, ?_⟩
    · intro q m; rw [← off q]; exact placed_sameCtxs _ k p _ _ q m
    · intro z; rw [placed_gmem, step.gmem]
    · rw [tile_placed, if_pos rfl, off, port_placeToken]
    · refine ⟨tokenSlot ((s.tile k).port p) p (seq + b.base) (f.received s).tok, ?_, rfl, rfl, rfl, rfl, rfl, rfl, rfl, rfl⟩
      rw [tile_placed, if_pos rfl, off, port_placeToken]; exact AMap.get?_set_same ..
    · intro j hj
      rw [tile_placed, if_pos rfl, off, port_placeToken]; exact AMap.get?_set_other _ _ (Ne.symm hj)
    · have payload := placed_payload (s.tokenOff id n seq c f) k p (seq + b.base) (f.received s).tok
      rw [off] at payload; exact payload
    · intro q z out
      rw [placed_tlm _ _ _ _ _ q z (by rw [off]; exact out), off]
    · intro plain; rw [portDecode_plain plain]; exact ⟨rfl, rfl, rfl⟩

end Sys2Proof.Machine
end

section
/-!
Instructions that hand work to a unit (02 R78, 10 R236, R239): what their checks, translations and claims change before the work leaves.
-/

namespace Sys2Proof.Machine

/-! The checks of an access to global memory (R236). -/

theorem trapVal_addr (a : Addr) : (BitVec.ofNat 64 a.toNat) = a.setWidth 64 := by
  apply BitVec.eq_of_toNat_eq; simp

theorem globalCheck_none {c : KReg} {a n align : Nat} {need : List Perm} (h : GlobalOk c a n align need) : globalCheck c a n align need = none := by
  obtain ⟨tag, unsealed, shared, perms, lower, upper, aligned⟩ := h
  have perms : need.all c.has = true := List.all_eq_true.mpr perms
  simp [globalCheck, tag, KReg.isSealed, unsealed, shared, perms, aligned, not_lt.mpr lower, not_lt.mpr upper]

theorem globalCheck_bad {c : KReg} {a n align : Nat} {need : List Perm} {code : Byte} (h : GlobalBad c a n align need code) :
    globalCheck c a n align need = some (code, BitVec.ofNat 64 a) := by
  have perms : (c.has .global && need.all c.has) = true ↔ c.has .global = true ∧ ∀ p ∈ need, c.has p = true := by
    rw [Bool.and_eq_true, List.all_eq_true]
  have bounds : (decide ((a : Int) < c.base) || decide (c.top < (a : Int) + n)) = false ↔ c.base ≤ (a : Int) ∧ (a : Int) + n ≤ c.top := by
    rw [Bool.or_eq_false_iff, decide_eq_false_iff_not, decide_eq_false_iff_not, not_lt, not_lt]
  unfold globalCheck
  dsimp only
  rcases h with ⟨rfl, tag⟩ | ⟨rfl, tag, sealed⟩ | ⟨rfl, tag, typ, no⟩ | ⟨rfl, tag, typ, ok, no⟩ | ⟨rfl, tag, typ, ok, inside, align⟩
  · simp only [tag]; rfl
  · have sealed : c.isSealed = true := by simpa [KReg.isSealed] using sealed
    simp only [tag, sealed]; rfl
  · rw [← perms, Bool.not_eq_true] at no
    simp only [tag, KReg.isSealed, typ, no]; rfl
  · rw [← bounds, Bool.not_eq_false] at no
    simp only [tag, KReg.isSealed, typ, perms.mpr ok, no]; rfl
  · simp only [tag, KReg.isSealed, typ, perms.mpr ok, bounds.mpr inside, bne_iff_ne.mpr align]; rfl

@[simp] theorem orTrap_some (c : Byte) (v : Word) : orTrap (some (c, v)) = .error (.trap c v) := rfl

/-! What an instruction changes before it hands its work over. -/

/-- At issue: the translation caches and versions, the check bits of what is read and the puts of a firing. -/
structure IssueFrame (s t : State) : Prop where
  outside : t = { s with tiles := t.tiles, vers := t.vers, vpages := t.vpages }
  tiles : ∀ q, q ≠ s.cur.tile → t.tile q = s.tile q
  here : t.here = { s.here with
    ctxs := t.here.ctxs, slots := t.here.slots, waiters := t.here.waiters, tlb := t.here.tlb
    err1 := t.here.err1, err2 := t.here.err2, poison := t.here.poison, corrected := t.here.corrected, uncorrected := t.here.uncorrected }
  slot : t.here.slot = { s.here.slot with actors := t.here.slot.actors }
  ctx : ∀ m, t.here.ctx m = { s.here.ctx m with donec := (t.here.ctx m).donec }

namespace IssueFrame

theorem refl (s : State) : IssueFrame s s := ⟨rfl, fun _ _ => rfl, rfl, rfl, fun _ => rfl⟩

section
variable {s t : State} (h : IssueFrame s t)
include h

theorem cur : t.cur = s.cur := by rw [h.outside]

theorem gmem : t.gmem = s.gmem := by rw [h.outside]

theorem reqs : t.here.reqs = s.here.reqs := by rw [h.here]

theorem nextOp : t.here.nextOp = s.here.nextOp := by rw [h.here]

theorem me : t.me = { s.me with donec := t.me.donec } := by
  have at_ := h.ctx s.cur.ctx
  rw [State.me, h.cur]; exact at_

theorem resid : t.here.slot.resid = s.here.slot.resid := by rw [h.slot]

theorem placeTiles (r : List Word) : placeTiles t r = placeTiles s r := by
  have handle : t.handleOf t.cur.tile = s.handleOf s.cur.tile := by
    have slot := congrArg Slot.handle h.slot
    exact slot
  unfold Machine.placeTiles
  rw [handle, h.outside]; rfl

end

theorem trans {s t u : State} (a : IssueFrame s t) (b : IssueFrame t u) : IssueFrame s u := by
  refine ⟨by rw [b.outside, a.outside], fun q hq => ?_, by rw [b.here, a.here], by rw [b.slot, a.slot], fun m => ?_⟩
  · rw [b.tiles q (by rwa [a.cur]), a.tiles q hq]
  · rw [b.ctx m, a.ctx m]

theorem setHere {s : State} {t : Tile} (here : t = { s.here with
      ctxs := t.ctxs, slots := t.slots, waiters := t.waiters, tlb := t.tlb
      err1 := t.err1, err2 := t.err2, poison := t.poison, corrected := t.corrected, uncorrected := t.uncorrected })
    (slot : t.slot = { s.here.slot with actors := t.slot.actors })
    (ctx : ∀ m, t.ctx m = { s.here.ctx m with donec := (t.ctx m).donec }) : IssueFrame s (s.setHere t) :=
  ⟨rfl, fun _ hq => State.tile_setTile_other _ _ (Ne.symm hq), by rw [State.here_setHere]; exact here, by rw [State.here_setHere]; exact slot,
    by rw [State.here_setHere]; exact ctx⟩

theorem setMe {s : State} {c : Ctx} (h : c = { s.me with donec := c.donec }) : IssueFrame s (s.setMe c) := by
  refine setHere rfl rfl fun m => ?_
  by_cases e : s.cur.ctx = m
  · rw [← e, Tile.ctx_setCtx]; exact h
  · rw [Tile.ctx_setCtx_other _ _ e]

theorem touchRead (s : State) (a n : Nat) : IssueFrame s (s.setHere (s.here.touchRead a n)) := by
  have same : ∀ m, (s.here.touchRead a n).ctx m = s.here.ctx m := fun m => by rw [Tile.touchRead_eq]; rfl
  refine setHere (by rw [Tile.touchRead_eq]) (by rw [Tile.touchRead_eq]; rfl) fun m => by rw [same]

theorem setTlb (s : State) (tlb : List TlbEntry) : IssueFrame s (s.setHere { s.here with tlb := tlb }) :=
  setHere rfl rfl fun _ => rfl

theorem firstMapped (s : State) (k : Nat) (x : Space) (e : TlbEntry) : IssueFrame s (firstMapped s k x e) := by
  unfold Machine.firstMapped
  dsimp only
  split
  · exact refl s
  · exact ⟨rfl, fun _ _ => rfl, rfl, rfl, fun _ => rfl⟩

end IssueFrame

/-! A context of a task is updated. -/

theorem Tile.ctx_updTask (t : Tile) (task : Nat) (f : Ctx → Ctx) (m : Nat) :
    (t.updTask task f).ctx m = if (t.ctx m).task = task ∧ (t.ctx m).mode ≠ .free then f (t.ctx m) else t.ctx m := by
  cases h : AMap.get? t.ctxs m with
  | none =>
    have ctx : t.ctx m = Ctx.init := by rw [Tile.ctx, AMap.getD, h]; rfl
    rw [ctx, if_neg fun busy => busy.2 rfl, Tile.ctx, AMap.getD, Tile.updTask, AMap.get?_mapVals, h]; rfl
  | some c =>
    have ctx : t.ctx m = c := by rw [Tile.ctx, AMap.getD, h]; rfl
    rw [ctx, Tile.ctx, AMap.getD, Tile.updTask, AMap.get?_mapVals, h]; rfl

theorem IssueFrame.countPut (s : State) (p : Nat) : IssueFrame s (countPut s p) := by
  unfold Machine.countPut
  dsimp only
  split
  · exact setMe rfl
  · split
    · exact setMe rfl
    · split
      · refine setHere rfl rfl fun m => ?_
        rw [Tile.ctx_updTask]
        split <;> rfl
      · refine setHere rfl ?_ fun _ => rfl
        rw [Tile.slot_setActor]

/-! The completion token is claimed (R78). -/

/-- Whether the completion token can be claimed, with contexts, slots and waiting tasks as they were. -/
theorem TokenOk.claim {s t : State} {tok : BitVec 1} (ok : TokenOk s tok) (cur : t.cur = s.cur) (ctxs : t.here.ctxs = s.here.ctxs)
    (slots : t.here.slots = s.here.slots) (active : t.here.active = s.here.active) (waiters : t.here.waiters = s.here.waiters) :
    ∃ u, claimToken t (tok == 1) = .ok u ∧ IssueFrame t u := by
  by_cases h : tok = 1
  · obtain ⟨ctx, role, p, port, room, open_⟩ := ok h
    have slot : t.here.slot = s.here.slot := by rw [Tile.slot, slots, active]; rfl
    have me : t.me = s.me := by rw [State.me, cur, Tile.ctx, ctxs]; rfl
    have ports : ∀ q, t.here.port q = s.here.port q := fun q => by rw [Tile.port, slot]; rfl
    have actors : ∀ a, t.here.actor a = s.here.actor a := fun a => by rw [Tile.actor, slot]; rfl
    have compl : t.here.complPort t.me.actor = some p := by rw [Tile.complPort, slot, me]; exact port
    have donec : firingDonec t.here t.me = firingDonec s.here s.me := by
      have task : ∀ n, t.here.taskCtx n = s.here.taskCtx n := fun n => by rw [Tile.taskCtx, ctxs, waiters]; rfl
      unfold firingDonec
      simp only [me, actors, task]
    refine ⟨countPut t p, ?_, .countPut t p⟩
    rw [me] at compl donec
    rw [claimToken, h, me, cur, if_neg ctx]
    simp only [compl]
    rw [donec, ports, open_]
    simp [role, room]
  · exact ⟨t, by rw [claimToken, beq_false_of_ne h]; rfl, .refl t⟩

/-- Translations and reads leave what the claim looks at. -/
structure ReadOnly (s t : State) : Prop where
  frame : IssueFrame s t
  ctxs : t.here.ctxs = s.here.ctxs
  slots : t.here.slots = s.here.slots
  waiters : t.here.waiters = s.here.waiters

theorem ReadOnly.trans {s t u : State} (a : ReadOnly s t) (b : ReadOnly t u) : ReadOnly s u :=
  ⟨a.frame.trans b.frame, b.ctxs.trans a.ctxs, b.slots.trans a.slots, b.waiters.trans a.waiters⟩

theorem TokenOk.claimed {s t : State} {tok : BitVec 1} (ok : TokenOk s tok) (h : ReadOnly s t) :
    ∃ u, claimToken t (tok == 1) = .ok u ∧ IssueFrame s u := by
  obtain ⟨u, run, frame⟩ := ok.claim h.frame.cur h.ctxs h.slots (by rw [h.frame.here]) h.waiters
  exact ⟨u, run, h.frame.trans frame⟩

theorem readOnly_firstMapped (s : State) (k : Nat) (x : Space) (e : TlbEntry) : ReadOnly s (firstMapped s k x e) := by
  refine ⟨.firstMapped s k x e, ?_, ?_, ?_⟩
  all_goals
    unfold firstMapped
    dsimp only
    split <;> rfl

/-- An entry that a translation uses or fills stands first in the cache (R352). -/
theorem readOnly_tlbFill (s : State) (e : TlbEntry) : ReadOnly s (s.updTile s.cur.tile fun t => { t with tlb := tlbFill t.tlb e }) := by
  refine ⟨.setTlb s (tlbFill s.here.tlb e), ?_, ?_, ?_⟩
  all_goals
    refine Eq.trans (congrArg _ (State.here_setHere s { s.here with tlb := tlbFill s.here.tlb e })) ?_
    rfl

theorem readOnly_translate (s : State) (x : Space) (va : Nat) (r w ver : Bool) : ReadOnly s (translate s s.cur.tile x va r w ver).1 := by
  unfold translate
  dsimp only
  split
  · exact readOnly_tlbFill s _
  · split
    · exact ⟨.refl s, rfl, rfl, rfl⟩
    · exact ⟨.refl s, rfl, rfl, rfl⟩
    case h_3 e _ =>
      have mapped := readOnly_firstMapped s s.cur.tile x e
      have filled := mapped.trans (readOnly_tlbFill _ e)
      rw [mapped.frame.cur] at filled
      split
      · exact filled
      · exact filled

theorem readOnly_transIssue {s : State} {va : Addr} {r w ver : Bool} {p : State × PAddr} (h : transIssue s va r w ver = .ok p) :
    ReadOnly s p.1 := by
  unfold transIssue at h
  dsimp only at h
  split at h <;> cases h
  exact readOnly_translate ..

theorem readOnly_transPages {va n : Nat} {s : State} {p : State × List PAddr} (h : transPages va n s = .ok p) : ReadOnly s p.1 := by
  induction n generalizing va s p with
  | zero => cases h; exact ⟨.refl s, rfl, rfl, rfl⟩
  | succ n ih =>
    unfold transPages at h
    split at h
    · cases h
    case h_2 s1 pa first =>
      split at h
      · cases h
      case h_2 s2 ps rest =>
        cases h
        exact (readOnly_transIssue first).trans (ih (p := (s2, ps)) rest)

theorem readOnly_touchRead (s : State) (a n : Nat) : ReadOnly s (s.setHere (s.here.touchRead a n)) := by
  refine ⟨.touchRead s a n, ?_, ?_, ?_⟩ <;> rw [State.here_setHere, Tile.touchRead_eq]

/-! The work is handed over. -/

/-- After the claims at issue the unit takes the request, or the sweep, the context's tags follow, and the context goes on. -/
structure HandsOver (s u v : State) : Prop where
  issue : IssueFrame s u
  outside : v = { u with tiles := v.tiles, sweeps := v.sweeps, nextSweep := v.nextSweep }
  tiles : ∀ q, q ≠ u.cur.tile → v.tile q = u.tile q
  here : v.here = { u.here with ctxs := v.here.ctxs, reqs := v.here.reqs, nextOp := v.here.nextOp }
  ctxs : ∀ m, m ≠ u.cur.ctx → v.here.ctx m = u.here.ctx m
  ctx : v.here.ctx u.cur.ctx = { u.me with tags := (v.here.ctx u.cur.ctx).tags }

theorem State.tags_complete (v : State) (len : Nat) : (v.complete len).me.tags = v.me.tags := by
  rw [me_complete_eq, Ctx.advance_only]

section
variable {s u v : State} (h : HandsOver s u v)
include h

theorem HandsOver.cur : v.cur = s.cur := by rw [h.outside]; exact h.issue.cur

theorem HandsOver.me : v.me = { s.me with donec := v.me.donec, tags := v.me.tags } := by
  have at_ := h.ctx
  rw [h.issue.me, h.issue.cur] at at_
  rw [State.me, h.cur]; exact at_.trans (by rw [at_])

theorem HandsOver.tile_complete (q : Nat) (hq : q ≠ s.cur.tile) : (v.complete 8).tile q = s.tile q := by
  refine (State.tile_setTile_other _ _ (by rw [h.cur]; exact hq.symm)).trans ?_
  rw [h.tiles q (by rwa [h.issue.cur]), h.issue.tiles q hq]

theorem HandsOver.here_complete : (v.complete 8).here = v.here.setCtx s.cur.ctx (v.complete 8).me := by
  rw [State.me_complete, ← h.cur]; exact State.here_setMe ..

theorem HandsOver.handedOver : HandedOver s (v.complete 8) where
  goes := goesOn_complete (by rw [h.me]; exact ⟨rfl, rfl, rfl, rfl⟩) 8
  me := by
    rw [me_complete_eq, Ctx.advance_only, h.me]
    exact ⟨fun _ => rfl, fun _ => rfl, fun _ => rfl, rfl⟩
  ctxs q hq := by
    have ctx : (v.complete 8).here.ctx q = { s.here.ctx q with donec := (u.here.ctx q).donec } := by
      rw [h.here_complete, Tile.ctx_setCtx_other _ _ (Ne.symm hq), h.ctxs q (by rwa [h.issue.cur]), h.issue.ctx]
    rw [ctx]
    exact ⟨⟨fun _ => rfl, fun _ => rfl, fun _ => rfl, rfl⟩, rfl, rfl, rfl⟩
  tiles := h.tile_complete
  tlm q a := by
    by_cases hq : q = s.cur.tile
    · have here : (v.complete 8).tile q = (v.complete 8).here := by rw [hq, ← h.cur]; rfl
      rw [here, h.here_complete, hq, Tile.setCtx_tlm, h.here, h.issue.here]; rfl
    · rw [h.tile_complete q hq]
  gmem a := by rw [State.complete_gmem, h.outside]; exact congrArg (Memory.read · a) h.issue.gmem

end

end Sys2Proof.Machine
end

section
/-!
SWEEP, SWQ and SWABT at issue, and SWQ's answer (02 R57, 12 R300, R301, R304, R307).
-/

namespace Sys2Proof.Machine

/-! SWEEP (R301). -/

theorem transIssue_of_ok {s : State} {va : Addr} {r w ver : Bool} {p : PAddr}
    (h : (translate s s.cur.tile (ctxSpace s s.cur.tile s.cur.ctx) va.toNat r w ver).2 = .ok p) :
    transIssue s va r w ver = .ok ((translate s s.cur.tile (ctxSpace s s.cur.tile s.cur.ctx) va.toNat r w ver).1, p) := by
  simp only [transIssue, h]

theorem sweepHold_iff (s : State) (g : BitVec 6) :
    (tagBusy s s.cur.tile s.me.task g || vmQueued s.me || acquirePending s.here s.me) = false ↔
      tagBusy s s.cur.tile s.me.task g = false ∧ s.tlmFree := by
  rw [Bool.or_eq_false_iff, Bool.or_eq_false_iff, and_assoc, State.tlmFree]

section
variable {f : EW} {s : State} (ready : s.kReady [f.a, f.b] [f.a, f.b] [])
include ready

theorem sweep_team (team : s.me.role = .team) : Traps (.sweep f) s 0x17 0x260 := by
  change execSweep f s = _
  simp only [execSweep, guardK_ready ready, team, decide_true, trapIf_true, Bind.bind, Except.bind]
  rfl

variable (role : s.me.role ≠ .team)
include role

theorem sweep_stalls (busy : ¬(tagBusy s s.cur.tile s.me.task f.tag = false ∧ s.tlmFree)) : Stalls (.sweep f) s := by
  rw [← sweepHold_iff, Bool.not_eq_false] at busy
  change execSweep f s = _
  simp only [execSweep, guardK_ready ready, decide_eq_false role, busy, trapIf_false, stallIf_true, Bind.bind, Except.bind]
  rfl

variable (free : tagBusy s s.cur.tile s.me.task f.tag = false ∧ s.tlmFree)
  (inTlm : tlmCheck (grantOf s s.cur.tile s.me) (s.me.readK f.a) (s.me.readK f.a).addr.toNat 64 64 [.r] = none)
  (clean : s.here.badWord (s.me.readK f.a).addr.toNat 64 = none)
include free inTlm clean

theorem sweep_badRecord {m : Nat} (bad : recCheck (readDesc s.here (s.me.readK f.a).addr.toNat) = some m) :
    Traps (.sweep f) s 0x10 (BitVec.ofNat 64 m) := by
  change execSweep f s = _
  simp only [execSweep, guardK_ready ready, decide_eq_false role, (sweepHold_iff s f.tag).mpr free, trapIf_false, stallIf_false, inTlm, orTrap_none,
    clean, bad, trapIf_true, Bind.bind, Except.bind]
  rfl

variable (good : recCheck (readDesc s.here (s.me.readK f.a).addr.toNat) = none)
include good

theorem sweep_misplaced (place : placeOk s (readDesc s.here (s.me.readK f.a).addr.toNat) = false) :
    Traps (.sweep f) s 0x14 ((recW (readDesc s.here (s.me.readK f.a).addr.toNat) 2).extractLsb' 0 32 |>.setWidth 64) := by
  change execSweep f s = _
  simp only [execSweep, guardK_ready ready, decide_eq_false role, (sweepHold_iff s f.tag).mpr free, trapIf_false, stallIf_false, inTlm, orTrap_none,
    clean, good, place, Bool.not_false, trapIf_true, Bind.bind, Except.bind]
  rfl

variable (place : placeOk s (readDesc s.here (s.me.readK f.a).addr.toNat) = true)
include place

theorem sweep_badBoard {code : Byte} (bad : GlobalBad (s.me.readK f.b) (s.me.readK f.b).addr.toNat
      (boardLen (recW (readDesc s.here (s.me.readK f.a).addr.toNat) 0)) 64 [.r, .w] code) :
    Traps (.sweep f) s code ((s.me.readK f.b).addr.setWidth 64) := by
  change execSweep f s = _
  simp only [execSweep, guardK_ready ready, decide_eq_false role, (sweepHold_iff s f.tag).mpr free, trapIf_false, stallIf_false, inTlm, orTrap_none,
    clean, good, place, Bool.not_true, globalCheck_bad bad, orTrap_some, Bind.bind, Except.bind, trapVal_addr]
  rfl

/-- The parameter of a sweep, as its record holds it (R55). -/
def sweepParam (s : State) (a : Nat) : KReg := ⟨s.here.gtag (a + 32), BitVec.ofNat 128 (s.here.readTlm (a + 32) 16)⟩

/-- The launch is under way. -/
def launch (u : State) (w : Sweep) : State :=
  { u.setHere { u.here with nextOp := u.here.nextOp + 1 } with sweeps := AMap.set u.sweeps u.nextSweep w, nextSweep := u.nextSweep + 1 }

theorem exec_sweep (board : GlobalOk (s.me.readK f.b) (s.me.readK f.b).addr.toNat
      (boardLen (recW (readDesc s.here (s.me.readK f.a).addr.toNat) 0)) 64 [.r, .w]) {s1 : State} {ps : List PAddr}
    (pages : transPages (s.me.readK f.b).addr.toNat (((s.me.readK f.b).addr.toNat +
      boardLen (recW (readDesc s.here (s.me.readK f.a).addr.toNat) 0) - 1) / 2 ^ 16 - (s.me.readK f.b).addr.toNat / 2 ^ 16 + 1) s = .ok (s1, ps))
    {u : State} (claim : claimToken (s1.setHere (s1.here.touchRead (s.me.readK f.a).addr.toNat 64)) (f.tok == 1) = .ok u) :
    let w := newSweep u f (readDesc s.here (s.me.readK f.a).addr.toNat) (sweepParam s (s.me.readK f.a).addr.toNat) ps u.here.nextOp
    exec (.sweep f) s = .next (((launch u w).setMe ((launch u w).me.tagClear f.tag)).complete 8) := by
  change execSweep f s = _
  simp only [execSweep, guardK_ready ready, decide_eq_false role, (sweepHold_iff s f.tag).mpr free, trapIf_false, stallIf_false, inTlm, orTrap_none,
    clean, good, place, Bool.not_true, globalCheck_none board, pages, claim, pure, Except.pure, Bind.bind, Except.bind]
  rfl

end

theorem here_launch (u : State) (w : Sweep) : (launch u w).here = { u.here with nextOp := u.here.nextOp + 1 } := State.here_setHere ..

theorem me_launch (u : State) (w : Sweep) : (launch u w).me = u.me := by
  rw [State.me, here_launch]; rfl

theorem handsOver_launch {s u : State} (h : IssueFrame s u) (w : Sweep) (g : BitVec 6) :
    HandsOver s u ((launch u w).setMe ((launch u w).me.tagClear g)) := by
  have here : ((launch u w).setMe ((launch u w).me.tagClear g)).here = { u.here with nextOp := u.here.nextOp + 1 }.setCtx u.cur.ctx (u.me.tagClear g) := by
    rw [State.here_setMe, here_launch, me_launch]; rfl
  refine ⟨h, rfl, fun q hq => ?_, by rw [here]; rfl, fun m hm => ?_, ?_⟩
  · exact (State.tile_setTile_other _ _ (Ne.symm hq)).trans (State.tile_setTile_other _ _ (Ne.symm hq))
  · rw [here, Tile.ctx_setCtx_other _ _ (Ne.symm hm)]; rfl
  · rw [here, Tile.ctx_setCtx]; rfl

/-! SWQ and SWABT (R307). -/

/-- A request joins those under way. -/
def State.sent (u : State) (q : GReq) : State :=
  u.setHere { u.here with reqs := AMap.set u.here.reqs u.here.nextOp q, nextOp := u.here.nextOp + 1 }

theorem handsOver_sent {s u : State} (h : IssueFrame s u) (q : GReq) : HandsOver s u (u.sent q) := by
  have here : (u.sent q).here = { u.here with reqs := AMap.set u.here.reqs u.here.nextOp q, nextOp := u.here.nextOp + 1 } := State.here_setHere ..
  exact ⟨h, rfl, fun p hp => State.tile_setTile_other _ _ (Ne.symm hp), by rw [here], fun m _ => by rw [here]; rfl, by rw [here]; rfl⟩

theorem handsOver_tagClear_sent {s u : State} (h : IssueFrame s u) (q : GReq) (g : BitVec 6) : HandsOver s u ((u.setMe (u.me.tagClear g)).sent q) := by
  have here : ((u.setMe (u.me.tagClear g)).sent q).here =
      { u.here.setCtx u.cur.ctx (u.me.tagClear g) with reqs := AMap.set u.here.reqs u.here.nextOp q, nextOp := u.here.nextOp + 1 } := by
    rw [State.sent, State.here_setHere, State.here_setMe]; rfl
  refine ⟨h, rfl, fun p hp => ?_, by rw [here]; rfl, fun m hm => ?_, ?_⟩
  · exact (State.tile_setTile_other _ _ (Ne.symm hp)).trans (State.tile_setTile_other _ _ (Ne.symm hp))
  · rw [here]; exact Tile.ctx_setCtx_other _ _ (Ne.symm hm)
  · rw [here]
    have ctx := Tile.ctx_setCtx u.here u.cur.ctx (u.me.tagClear g)
    exact ctx.trans (by rw [show ({ u.here.setCtx u.cur.ctx (u.me.tagClear g) with
      reqs := AMap.set u.here.reqs u.here.nextOp q, nextOp := u.here.nextOp + 1 } : Tile).ctx u.cur.ctx = u.me.tagClear g from ctx]; rfl)

theorem reqs_complete {s u v : State} (h : HandsOver s u v) : (v.complete 8).here.reqs = v.here.reqs := by
  rw [h.here_complete]; rfl

theorem swRequest_eq {s u : State} (h : IssueFrame s u) (o : GOp) (f : EW) (va : Addr) (pa : PAddr) (data : Word) (dest : Option (BitVec 6))
    (order : BitVec 2) : swRequest u o f va pa data dest order =
      { op := o, task := s.me.task, ctxNo := s.cur.ctx, actor := s.me.actor, va := va, pa := pa, n := 8, data := data, cmp := 0
        dest := dest, async := dest.isNone, tok := dest.isNone && f.tok == 1, tag := if dest.isNone then some f.tag else none
        order := order, scope := 2, pc := s.me.pc, after := (swRequest u o f va pa data dest order).after
        performed := false, reply := none, win := false, seq := none, onlyRetry := false, resid := s.here.slot.resid } := by
  have task : u.me.task = s.me.task := by rw [h.me]
  have actor : u.me.actor = s.me.actor := by rw [h.me]
  have pc : u.me.pc = s.me.pc := by rw [h.me]; rfl
  simp only [swRequest, task, actor, pc, h.cur, h.resid]

/-- What the obligation says of a request that leaves. -/
def Sends (i : Instr) (s : State) (q : GReq) : Prop := ∃ t, exec i s = .next t ∧ HandedOver s t ∧
  (∃ after, AMap.get? t.here.reqs s.here.nextOp = some { q with after := after }) ∧
  (∀ j, j ≠ s.here.nextOp → AMap.get? t.here.reqs j = AMap.get? s.here.reqs j) ∧
  (match q.tag with
    | some g => tagCleared s t g
    | none => t.me.tags = s.me.tags)

theorem sends_of {s u v : State} (h : HandsOver s u v) {q q' : GReq} {i : Instr} (run : exec i s = .next (v.complete 8))
    (reqs : v.here.reqs = AMap.set s.here.reqs s.here.nextOp q') (request : ∃ after, q' = { q with after := after })
    (tags : match q.tag with
      | some g => v.me.tags = s.me.tags &&& ~~~(1#64 <<< g.toNat)
      | none => v.me.tags = s.me.tags) : Sends i s q := by
  obtain ⟨after, rfl⟩ := request
  refine ⟨_, run, h.handedOver, ⟨after, ?_⟩, fun j hj => ?_, ?_⟩
  · rw [reqs_complete h, reqs, AMap.get?_set_same]
  · rw [reqs_complete h, reqs, AMap.get?_set_other _ _ (Ne.symm hj)]
  · cases tag : q.tag with
    | none => rw [tag] at tags; exact (State.tags_complete ..).trans tags
    | some g => rw [tag] at tags; exact (State.tags_complete ..).trans tags

section
variable {f : EW} {s : State}

theorem swq_stalls (ready : s.kReady [f.d, f.a, f.b] [f.a, f.b] [f.d]) (hold : swHold s = true) : Stalls (.swq f) s := by
  change execSwq f s = _
  simp only [execSwq, guardK_ready ready, hold, stallIf_true, Bind.bind, Except.bind]
  rfl

theorem swq_traps (ready : s.kReady [f.d, f.a, f.b] [f.a, f.b] [f.d]) (hold : swHold s = false) {code : Byte}
    (bad : GlobalBad (s.me.readK f.a) (s.me.readK f.a).addr.toNat 64 64 [.r] code) :
    Traps (.swq f) s code ((s.me.readK f.a).addr.setWidth 64) := by
  change execSwq f s = _
  simp only [execSwq, guardK_ready ready, hold, stallIf_false, globalCheck_bad bad, orTrap_some, Bind.bind, Except.bind, trapVal_addr]
  rfl

theorem swq_sends (ready : s.kReady [f.d, f.a, f.b] [f.a, f.b] [f.d]) (hold : swHold s = false)
    (ok : GlobalOk (s.me.readK f.a) (s.me.readK f.a).addr.toNat 64 64 [.r]) {u : State} {p : PAddr}
    (pa : transIssue s (s.me.readK f.a).addr true false false = .ok (u, p)) :
    Sends (.swq f) s
      { op := .swq, task := s.me.task, ctxNo := s.cur.ctx, actor := s.me.actor, va := (s.me.readK f.a).addr, pa := p, n := 8
        data := (s.me.readK f.b).word, cmp := 0, dest := some f.d, async := false, tok := false, tag := none, order := 1, scope := 2, pc := s.me.pc
        after := [], performed := false, reply := none, win := false, seq := none, onlyRetry := false, resid := s.here.slot.resid } := by
  have frame : IssueFrame s u := (readOnly_transIssue pa).frame
  have run : exec (.swq f) s =
      .next ((u.sent (swRequest u .swq f (s.me.readK f.a).addr p (s.me.readK f.b).word (some f.d) 1)).complete 8) := by
    change execSwq f s = _
    simp only [execSwq, guardK_ready ready, hold, stallIf_false, globalCheck_none ok, orTrap_none, pa, Bind.bind, Except.bind]
    rfl
  refine sends_of (handsOver_sent frame _) run (q' := swRequest u .swq f (s.me.readK f.a).addr p (s.me.readK f.b).word (some f.d) 1) ?_
    ⟨_, swRequest_eq frame .swq f (s.me.readK f.a).addr p (s.me.readK f.b).word (some f.d) 1⟩ ?_
  · rw [State.sent, State.here_setHere, frame.reqs, frame.nextOp]
  · have me : (u.sent (swRequest u .swq f (s.me.readK f.a).addr p (s.me.readK f.b).word (some f.d) 1)).me = u.me := by
      rw [State.me, State.sent, State.here_setHere]; rfl
    exact (congrArg Ctx.tags me).trans (by rw [frame.me])

theorem swabt_stalls (ready : s.kReady [f.a] [f.a] []) (hold : swHold s = true ∨ tagBusy s s.cur.tile s.me.task f.tag = true) :
    Stalls (.swabt f) s := by
  have hold : (swHold s || tagBusy s s.cur.tile s.me.task f.tag) = true := by rwa [Bool.or_eq_true]
  change execSwabt f s = _
  simp only [execSwabt, guardK_ready ready, hold, stallIf_true, Bind.bind, Except.bind]
  rfl

theorem swabt_sends (ready : s.kReady [f.a] [f.a] []) (hold : swHold s = false) (free : tagBusy s s.cur.tile s.me.task f.tag = false)
    (ok : GlobalOk (s.me.readK f.a) (s.me.readK f.a).addr.toNat 64 64 [.r, .w]) {u : State} {p : PAddr}
    (pa : transIssue s (s.me.readK f.a).addr true true false = .ok (u, p)) (token : TokenOk s f.tok) :
    Sends (.swabt f) s
      { op := .swabt, task := s.me.task, ctxNo := s.cur.ctx, actor := s.me.actor, va := (s.me.readK f.a).addr, pa := p, n := 8
        data := s.here.slot.resid.setWidth 64, cmp := 0, dest := none, async := true, tok := f.tok == 1, tag := some f.tag, order := 0, scope := 2
        pc := s.me.pc, after := [], performed := false, reply := none, win := false, seq := none, onlyRetry := false
        resid := s.here.slot.resid } := by
  obtain ⟨v, claim, frame⟩ := token.claimed (readOnly_transIssue pa)
  have hold : (swHold s || tagBusy s s.cur.tile s.me.task f.tag) = false := by rw [hold, free]; rfl
  have run : exec (.swabt f) s = .next (((v.setMe (v.me.tagClear f.tag)).sent
      (swRequest v .swabt f (s.me.readK f.a).addr p (s.here.slot.resid.setWidth 64) none 0)).complete 8) := by
    rw [← frame.resid]
    change execSwabt f s = _
    simp only [execSwabt, guardK_ready ready, hold, stallIf_false, globalCheck_none ok, orTrap_none, pa, claim, Bind.bind, Except.bind]
    rfl
  refine sends_of (handsOver_tagClear_sent frame _ f.tag) run
    (q' := swRequest v .swabt f (s.me.readK f.a).addr p (s.here.slot.resid.setWidth 64) none 0) ?_
    ⟨_, swRequest_eq frame .swabt f (s.me.readK f.a).addr p (s.here.slot.resid.setWidth 64) none 0⟩ ?_
  · rw [State.sent, State.here_setHere, State.here_setMe, ← frame.reqs, ← frame.nextOp]; rfl
  · have me : ((v.setMe (v.me.tagClear f.tag)).sent (swRequest v .swabt f (s.me.readK f.a).addr p (s.here.slot.resid.setWidth 64) none 0)).me =
        v.me.tagClear f.tag := by
      rw [State.me, State.sent, State.here_setHere, State.here_setMe]
      exact Tile.ctx_setCtx ..
    exact (congrArg Ctx.tags me).trans (by rw [Ctx.tagClear, frame.me])

end

/-! SWQ's answer (R307). -/

theorem toNat_index (x : Word) (j : Nat) : (x.extractLsb' (16 * j) 16).toNat = x.toNat / 2 ^ (16 * j) % 2 ^ 16 := by
  rw [BitVec.extractLsb'_toNat, Nat.shiftRight_eq_div_pow]

theorem recExt_eq (r0 : Word) (j : Nat) :
    recExt r0 j = if j < (r0.extractLsb' 48 2).toNat then r0.toNat / 2 ^ (16 * j) % 2 ^ 16 else 1 := by
  rw [← toNat_index]; rfl

/-- What SWQ writes: the header's STATE and the team's retire bit. -/
theorem swqWord_eq (h : Word) (r : Bool) :
    (⟨false, ((h.extractLsb' 60 4 ++ 0#59) ++ (if r then 1#1 else 0#1)).setWidth 128⟩ : KReg) =
      ⟨false, BitVec.ofNat 128 (h.toNat / 2 ^ 60 * 2 ^ 60 + if r then 1 else 0)⟩ := by
  congr 1
  apply BitVec.eq_of_toNat_eq
  have top : (h.extractLsb' 60 4).toNat = h.toNat / 2 ^ 60 := by
    rw [BitVec.extractLsb'_toNat, Nat.shiftRight_eq_div_pow]
    have := h.isLt
    omega
  have := h.isLt
  rw [BitVec.toNat_setWidth, toNat_append_eq, toNat_append_eq, toNat_ite_bit, top, BitVec.toNat_ofNat]
  cases r <;> simp <;> omega

section
variable {s : State} {k id : Nat} {q : GReq} {h r0 : Word} {b : Byte} (hq : AMap.get? (s.tile k).reqs id = some q)
  (reply : q.reply = some (.swq h r0 b)) (ours : q.ctxNo = 0 ∨ q.resid = (s.tile k).slot.resid) (seq : q.seq = none) (tag : q.tag = none)
include hq reply ours seq tag

theorem exec_globalReply_swq : exec (.globalReply k id) s =
    .next ((s.updTile k fun t => (t.dropReq id).updTask q.task (swqReply q h r0 b)).moved (s.handleOf k)) := by
  have ours : q.ours (s.tile k) = true := by
    rw [GReq.ours, Bool.or_eq_true, beq_iff_eq, beq_iff_eq]; exact ours
  change execGlobalReply k id s = _
  simp only [execGlobalReply, hq, reply, ours, seq, replyTag, tag]
  rfl

theorem globalReply_swq : ∃ t, exec (.globalReply k id) s = .next t ∧ AMap.get? (t.tile k).reqs id = none ∧ s.sameTlm t ∧ s.sameGmem t ∧
    ∀ m, ((s.tile k).ctx m).task = q.task → ((s.tile k).ctx m).mode ≠ .free → (t.tile k).ctx m = swqReply q h r0 b ((s.tile k).ctx m) := by
  refine ⟨_, exec_globalReply_swq hq reply ours seq tag, ?_, fun p a => ?_, fun a => ?_, fun m task busy => ?_⟩
  · rw [State.tile_moved, State.tile_updTile]; exact AMap.get?_erase_same ..
  · rw [State.tile_moved, State.tile_updTile_apply]
    split
    case isTrue e => rw [e]; rfl
    case isFalse => rfl
  · rw [State.moved_gmem]; rfl
  · rw [State.tile_moved, State.tile_updTile, Tile.ctx_updTask, if_pos]
    · rfl
    · exact ⟨task, busy⟩

end

theorem swqReply_inside {q : GReq} {d : BitVec 6} (dest : q.dest = some d) {r0 : Word} {t : Nat} (index : swqIndex r0 q.data = some t) (h : Word)
    (b : Byte) (c : Ctx) : (swqReply q h r0 b c).readK d =
      wroteK d ⟨false, BitVec.ofNat 128 (h.toNat / 2 ^ 60 * 2 ^ 60 + if b.getLsbD (t % 8) then 1 else 0)⟩ := by
  rw [← swqWord_eq]
  simp only [swqReply, index, dest, Ctx.writeInt]
  exact Ctx.readK_writeK ..

theorem swqReply_outside {q : GReq} {r0 : Word} (index : swqIndex r0 q.data = none) (h : Word) (b : Byte) (c : Ctx) :
    swqReply q h r0 b c = { c with lates := c.lates ++ [lateNow codeEngineFault 0x360 q.pc] } := by
  simp only [swqReply, index]

end Sys2Proof.Machine
end

section
/-!
The end of an operation (02 R78, 10 R237): its tag is set wherever its task stands, and its completion token goes out. Late traps of a task.
-/

namespace Sys2Proof.Machine

/-! Tokens put on a port. -/

namespace TokenStep

theorem setPort (s : State) (k p : Nat) (x : Port) : TokenStep s (s.updTile k fun t => t.setPort p x) := updTile s k (tokenTile_setPort ..)

theorem injectOrdered (s : State) (k p : Nat) (kind : TokKind) (v : Line) (st : BitVec 16) : TokenStep s (injectOrdered s k p kind v st) := by
  refine setTile s k ⟨rfl, ?_, fun m hm => ?_⟩
  · exact (tokenTile_setPort (s.tile k) p _).slot
  · exact (tokenTile_setPort (s.tile k) p _).slots m hm

theorem injectBooked (k p n : Nat) (s : State) : TokenStep s (State.injectBooked k p n s) := by
  induction n generalizing s with
  | zero => exact refl s
  | succ n ih =>
    unfold State.injectBooked
    split
    · exact ((updTile s k (tokenTile_setPort ..)).trans (injectOrdered ..)).trans (ih _)
    · exact refl s

theorem book (s : State) (k p : Nat) (x : Option (TokKind × Line × BitVec 16)) : TokenStep s (s.book k p x) := updTile s k (tokenTile_setPort ..)

theorem sendBooked (s : State) (k p : Nat) : TokenStep s (s.sendBooked k p) := injectBooked ..

theorem putPort (s : State) (k p : Nat) (kind : TokKind) (v : Line) (st : BitVec 16) (after : List (Nat × Nat)) :
    TokenStep s (s.putPort k p kind v st after) := by
  have closed : TokenStep s (if kind = .eos then s.updTile k fun t => t.setPort p { (s.tile k).port p with closed := true } else s) := by
    split
    · exact setPort ..
    · exact refl s
  unfold State.putPort
  dsimp only
  split
  · exact (closed.trans (book ..)).trans (sendBooked ..)
  · split
    · exact closed
    · split
      · exact closed
      · exact closed.trans (setChan ..)

theorem sendCompletion (s : State) (k a : Nat) (g : BitVec 6) : TokenStep s (s.sendCompletion k a g) := by
  unfold State.sendCompletion
  split
  · exact refl s
  · dsimp only
    split
    · exact updTile s k (tokenTile_setActor ..)
    · exact putPort ..

end TokenStep

/-! Tags. -/

/-- A step that changes of the contexts only tags, which it sets; it makes no request, and leaves memory and sweeps. -/
structure TagStep (s t : State) : Prop where
  ctx : ∀ k m, (t.tile k).ctx m = { (s.tile k).ctx m with tags := ((t.tile k).ctx m).tags }
  set : ∀ k m i, ((s.tile k).ctx m).tags.getLsbD i = true → ((t.tile k).ctx m).tags.getLsbD i = true
  reqs : ∀ k id, AMap.get? (s.tile k).reqs id = none → AMap.get? (t.tile k).reqs id = none
  tlm : ∀ k, (t.tile k).tlm = (s.tile k).tlm
  gmem : t.gmem = s.gmem
  sweeps : t.sweeps = s.sweeps

namespace TagStep

theorem refl (s : State) : TagStep s s := ⟨fun _ _ => rfl, fun _ _ _ h => h, fun _ _ h => h, fun _ => rfl, rfl, rfl⟩

theorem trans {s t u : State} (a : TagStep s t) (b : TagStep t u) : TagStep s u :=
  ⟨fun k m => by rw [b.ctx, a.ctx], fun k m i h => b.set k m i (a.set k m i h), fun k id h => b.reqs k id (a.reqs k id h),
    fun k => (b.tlm k).trans (a.tlm k), b.gmem.trans a.gmem, b.sweeps.trans a.sweeps⟩

theorem foldl {α : Type} {step : State → α → State} (one : ∀ (s : State) y, TagStep s (step s y)) (l : List α) (s : State) :
    TagStep s (l.foldl step s) := by
  induction l generalizing s with
  | nil => exact refl s
  | cons y l ih => exact (one s y).trans (ih _)

theorem of_tokens {s t : State} (h : TokenStep s t) : TagStep s t :=
  ⟨fun k m => by rw [h.ctx], fun k m i g => by rwa [h.ctx], fun k id g => by rw [(h.tiles k).tile]; exact g, fun k => (h.tiles k).tlm,
    h.gmem, by rw [h.others]⟩

/-- A tile is replaced by one whose contexts differ in tags set. -/
theorem updTile (s : State) (k : Nat) {f : Tile → Tile} (ctx : ∀ m, (f (s.tile k)).ctx m = { (s.tile k).ctx m with tags := ((f (s.tile k)).ctx m).tags })
    (set : ∀ m i, ((s.tile k).ctx m).tags.getLsbD i = true → ((f (s.tile k)).ctx m).tags.getLsbD i = true)
    (reqs : ∀ id, AMap.get? (s.tile k).reqs id = none → AMap.get? (f (s.tile k)).reqs id = none) (tlm : (f (s.tile k)).tlm = (s.tile k).tlm) :
    TagStep s (s.updTile k f) := by
  refine ⟨fun q m => ?_, fun q m i => ?_, fun q id => ?_, fun q => ?_, rfl, rfl⟩ <;> rw [State.tile_updTile_apply] <;> split
  case refine_1.isTrue e => rw [e]; exact ctx m
  case refine_2.isTrue e => rw [e]; exact set m i
  case refine_3.isTrue e => rw [e]; exact reqs id
  case refine_4.isTrue e => rw [e]; exact tlm
  case refine_2.isFalse | refine_3.isFalse => exact fun h => h
  all_goals rfl

theorem dropReq (s : State) (k id : Nat) : TagStep s (s.updTile k fun t => t.dropReq id) := by
  refine updTile s k (fun _ => rfl) (fun _ _ h => h) (fun j h => ?_) rfl
  by_cases e : id = j
  · rw [e]; exact AMap.get?_erase_same ..
  · exact (AMap.get?_erase_other _ e).trans h

theorem setTaskTag (s : State) (k task : Nat) (g : BitVec 6) : TagStep s (s.updTile k fun t => t.setTaskTag task g) := by
  refine updTile s k (fun m => ?_) (fun m i h => ?_) (fun _ h => h) rfl <;> rw [Tile.setTaskTag, Tile.ctx_updTask] <;> split
  case refine_2.isTrue => rw [Ctx.tagSet, BitVec.getLsbD_or, h]; rfl
  case refine_2.isFalse => exact h
  all_goals rfl

theorem opDone (s : State) (k task a : Nat) (g : BitVec 6) (tok : Bool) : TagStep s (s.opDone k task a g tok) := by
  unfold State.opDone
  dsimp only
  split
  · exact (setTaskTag ..).trans (of_tokens (.sendCompletion ..))
  · exact setTaskTag ..

section
variable {s t : State} (h : TagStep s t)
include h

theorem sameCtxs : s.sameCtxs t := fun k m => by
  rw [h.ctx]
  exact ⟨⟨fun _ => rfl, fun _ => rfl, fun _ => rfl, rfl⟩, rfl⟩

theorem sameTlm : s.sameTlm t := fun k a => by rw [h.tlm]

theorem lates (k m : Nat) : ((t.tile k).ctx m).lates = ((s.tile k).ctx m).lates := by rw [h.ctx]

end

end TagStep

theorem getLsbD_tagSet (c : Ctx) (g : BitVec 6) : (c.tagSet g).tags.getLsbD g.toNat = true := by
  have := g.isLt
  rw [Ctx.tagSet, BitVec.getLsbD_or, BitVec.getLsbD_shiftLeft]
  simp [this]

/-- The tag of a completed operation is set. -/
theorem tagSet_opDone (s : State) (k task a : Nat) (g : BitVec 6) (tok : Bool) : TagSet s (s.opDone k task a g tok) k task g := by
  intro m own busy
  have set : (((s.updTile k fun t => t.setTaskTag task g).tile k).ctx m).tags.getLsbD g.toNat = true := by
    rw [State.tile_updTile, Tile.setTaskTag, Tile.ctx_updTask, if_pos]
    · exact getLsbD_tagSet ..
    · exact ⟨own, busy⟩
  unfold State.opDone
  dsimp only
  split
  · exact (TagStep.of_tokens (.sendCompletion ..)).set k m _ set
  · exact set

theorem TagSet.then {s t u : State} {k task : Nat} {g : BitVec 6} (a : TagSet s t k task g) (b : TagStep t u) : TagSet s u k task g :=
  fun m own busy => b.set k m _ (a m own busy)

/-- Whether a tag is set for a task depends on where the task stood. -/
theorem TagSet.of_ctx {s s' t : State} {k task : Nat} {g : BitVec 6} (h : TagSet s' t k task g)
    (same : ∀ m, ((s.tile k).ctx m).task = task → ((s.tile k).ctx m).mode ≠ .free →
      ((s'.tile k).ctx m).task = task ∧ ((s'.tile k).ctx m).mode ≠ .free) : TagSet s t k task g :=
  fun m own busy => h m (same m own busy).1 (same m own busy).2

end Sys2Proof.Machine
end

section
/-!
The events of a sweep (12 R301 to R303, R306, R307): launch, acceptance, notice, end, partition and abort.
-/

namespace Sys2Proof.Machine

/-! Storing to the scoreboard's header (R300). -/

theorem gRead_gWrite (s : State) (a n x : Nat) : (s.gWrite a (leBytes n x)).gRead a n = x % 256 ^ n := Memory.readN_writeN ..

theorem read_gWrite_other (s : State) (a : Nat) (bs : List Byte) {z : Nat} (h : z < a ∨ a + bs.length ≤ z) :
    Memory.read (s.gWrite a bs).gmem z = Memory.read s.gmem z := Memory.read_writeBytes_other _ _ _ _ h

theorem Memory.readN_congr {m m' : Memory} {a n : Nat} (h : ∀ i, i < n → Memory.read m (a + i) = Memory.read m' (a + i)) :
    Memory.readN m a n = Memory.readN m' a n := by
  rw [Memory.readN, Memory.readN, Memory.readBytes_congr h]

/-- A read apart from the bytes written reads as before. -/
theorem gRead_gWrite_other (s : State) (a : Nat) (bs : List Byte) {z n : Nat} (h : z + n ≤ a ∨ a + bs.length ≤ z) :
    (s.gWrite a bs).gRead z n = s.gRead z n := Memory.readN_congr fun i hi => read_gWrite_other s a bs (by omega)

theorem pow_word : 256 ^ 8 = 2 ^ 64 := by norm_num

/-- A word stored is what a read of it gives. -/
theorem gRead_gWrite_word (s : State) (a : Nat) {x : Nat} (h : x < 2 ^ 64) : (s.gWrite a (leBytes 8 x)).gRead a 8 = x := by
  rw [gRead_gWrite, pow_word, Nat.mod_eq_of_lt h]

theorem stateWord_lt {st x : Nat} (h : st < 16) (low : x < 2 ^ 60) : st * 2 ^ 60 + x < 2 ^ 64 := by omega

theorem gRead_boardState (s : State) (a : Nat) {st : Nat} (h : st < 16) :
    (s.boardState a st).gRead a 8 = st * 2 ^ 60 + s.gRead a 8 % 2 ^ 60 := by
  rw [State.boardState, gRead_gWrite_word _ _ (stateWord_lt h (Nat.mod_lt _ (Nat.two_pow_pos 60)))]

theorem read_boardState_other (s : State) (a st : Nat) {z : Nat} (h : z < a ∨ a + 8 ≤ z) :
    Memory.read (s.boardState a st).gmem z = Memory.read s.gmem z := read_gWrite_other _ _ _ (by rwa [leBytes_length])

theorem State.tile_gWrite (s : State) (a : Nat) (bs : List Byte) (k : Nat) : (s.gWrite a bs).tile k = s.tile k := rfl

theorem tile_boardState (s : State) (a st k : Nat) : (s.boardState a st).tile k = s.tile k := by rw [State.boardState, State.tile_gWrite]

theorem sweeps_boardState (s : State) (a st : Nat) : (s.boardState a st).sweeps = s.sweeps := by rw [State.boardState, State.gWrite]

/-! A list of tiles is updated, one after the other. -/

theorem tile_foldl_updTile_other (f : Tile → Tile) {l : List Nat} {k : Nat} (h : k ∉ l) (s : State) :
    (l.foldl (fun s k => s.updTile k f) s).tile k = s.tile k := by
  induction l generalizing s with
  | nil => rfl
  | cons a l ih =>
    rw [List.mem_cons, not_or] at h
    rw [List.foldl_cons, ih h.2, State.tile_updTile_apply, if_neg h.1]

theorem tile_foldl_updTile (f : Tile → Tile) {l : List Nat} (nodup : l.Nodup) {k : Nat} (h : k ∈ l) (s : State) :
    (l.foldl (fun s k => s.updTile k f) s).tile k = f (s.tile k) := by
  induction l generalizing s with
  | nil => cases h
  | cons a l ih =>
    obtain ⟨fresh, nodup⟩ := List.nodup_cons.mp nodup
    rw [List.foldl_cons]
    rcases List.mem_cons.mp h with e | h
    · rw [e, tile_foldl_updTile_other f fresh, State.tile_updTile]
    · rw [ih nodup h, State.tile_updTile_apply, if_neg fun e : k = a => fresh (e ▸ h)]

theorem foldl_updTile_eq (f : Tile → Tile) (l : List Nat) (s : State) :
    l.foldl (fun s k => s.updTile k f) s = { s with tiles := (l.foldl (fun s k => s.updTile k f) s).tiles } := by
  induction l generalizing s with
  | nil => rfl
  | cons a l ih => rw [List.foldl_cons, ih]; rfl

/-- What each single update keeps of its tile, the list keeps of every tile. -/
theorem tile_foldl_updTile_keeps {R : Tile → Tile → Prop} (refl : ∀ t, R t t) (trans : ∀ {t u v}, R t u → R u v → R t v) {f : Tile → Tile}
    (one : ∀ t, R t (f t)) (l : List Nat) (s : State) (k : Nat) : R (s.tile k) ((l.foldl (fun s k => s.updTile k f) s).tile k) := by
  induction l generalizing s with
  | nil => exact refl _
  | cons a l ih =>
    refine trans ?_ (ih _)
    rw [State.tile_updTile_apply]
    split
    case isTrue e => rw [e]; exact one _
    case isFalse => exact refl _

/-! Freeing and halting a sweep. -/

theorem freeSweep_tile (s : State) (n : Nat) (w : Sweep) (k : Nat) :
    (freeSweep s n w).tile k = { s.tile k with sweepSlots := ((freeSweep s n w).tile k).sweepSlots } :=
  tile_foldl_updTile_keeps (R := fun t u => u = { t with sweepSlots := u.sweepSlots }) (fun _ => rfl) (fun a b => by rw [b, a]) (fun _ => rfl)
    w.tiles s k

theorem freeSweep_eq (s : State) (n : Nat) (w : Sweep) : freeSweep s n w = { s with tiles := (freeSweep s n w).tiles, sweeps := AMap.erase s.sweeps n } := by
  unfold freeSweep
  dsimp only
  rw [foldl_updTile_eq]

theorem freeSweep_ctx (s : State) (n : Nat) (w : Sweep) (k m : Nat) : ((freeSweep s n w).tile k).ctx m = (s.tile k).ctx m := by
  rw [freeSweep_tile]; rfl

theorem freeSweep_gone (s : State) (n : Nat) (w : Sweep) : AMap.get? (freeSweep s n w).sweeps n = none := by
  rw [freeSweep_eq]; exact AMap.get?_erase_same ..

/-- A context as it was, or a team's that is halted. -/
def HaltedCtx (c d : Ctx) : Prop := d = c ∨ (c.role = .team ∧ d.mode = .free)

theorem HaltedCtx.refl (c : Ctx) : HaltedCtx c c := .inl rfl

theorem HaltedCtx.free {c d : Ctx} (h : HaltedCtx c d) (free : c.mode = .free) : d.mode = .free := h.elim (fun e => by rw [e, free]) fun g => g.2

theorem HaltedCtx.trans {c d e : Ctx} (a : HaltedCtx c d) (b : HaltedCtx d e) : HaltedCtx c e := by
  obtain rfl | ⟨team, free⟩ := a
  · exact b
  · exact .inr ⟨team, b.free free⟩

/-- What halting the teams of a sweep leaves of a tile. -/
structure HaltedTile (t u : Tile) : Prop where
  ctx : ∀ m, HaltedCtx (t.ctx m) (u.ctx m)
  rest : u = { t with pend := u.pend, ctxs := u.ctxs, waiters := u.waiters, sweepSlots := u.sweepSlots }

theorem HaltedTile.refl (t : Tile) : HaltedTile t t := ⟨fun _ => .refl _, rfl⟩

theorem HaltedTile.trans {t u v : Tile} (a : HaltedTile t u) (b : HaltedTile u v) : HaltedTile t v :=
  ⟨fun m => (a.ctx m).trans (b.ctx m), by rw [b.rest, a.rest]⟩

/-- A context of a team of the slot, running. -/
def teamOf (slot : Nat) (c : Ctx) : Bool := decide (c.role = .team) && c.sweepSlot == slot && decide (c.mode ≠ .free)

theorem ctx_dropTeams (t : Tile) (slot m : Nat) : (t.dropTeams slot).ctx m = if teamOf slot (t.ctx m) then (t.ctx m).freed else t.ctx m := by
  have ctxs : (t.dropTeams slot).ctxs = AMap.mapVals t.ctxs fun _ c => if teamOf slot c then c.freed else c := by
    unfold Tile.dropTeams
    dsimp only
    split <;> rfl
  rw [Tile.ctx, ctxs, AMap.getD, AMap.get?_mapVals, Tile.ctx, AMap.getD]
  cases AMap.get? t.ctxs m with
  | none => rfl
  | some c => rfl

theorem haltedTile_dropTeams (t : Tile) (slot : Nat) : HaltedTile t (t.dropTeams slot) := by
  refine ⟨fun m => ?_, ?_⟩
  · rw [ctx_dropTeams]
    split
    case isTrue mine =>
      rw [teamOf, Bool.and_eq_true, Bool.and_eq_true, decide_eq_true_eq] at mine
      exact .inr ⟨mine.1.1, rfl⟩
    case isFalse => exact .refl _
  · unfold Tile.dropTeams
    dsimp only
    split <;> rfl

/-- A tile's part of halting a sweep. -/
def Tile.haltTeams (t : Tile) (n : Nat) : Tile := (t.slotOfSweep n).elim t t.dropTeams

theorem haltSweep_eq (s : State) (n : Nat) (w : Sweep) : haltSweep s n w = w.tiles.foldl (fun s k => s.updTile k fun t => t.haltTeams n) s := by
  have one : (fun (t : Tile) => match t.slotOfSweep n with
      | some i => t.dropTeams i
      | none => t) = fun t => t.haltTeams n := by
    funext t
    unfold Tile.haltTeams
    cases t.slotOfSweep n <;> rfl
  rw [← one]; rfl

theorem haltedTile_haltTeams (n : Nat) (t : Tile) : HaltedTile t (t.haltTeams n) := by
  unfold Tile.haltTeams
  cases t.slotOfSweep n with
  | none => exact .refl t
  | some i => exact haltedTile_dropTeams t i

theorem haltSweep_tile (s : State) (n : Nat) (w : Sweep) (k : Nat) : HaltedTile (s.tile k) ((haltSweep s n w).tile k) := by
  rw [haltSweep_eq]
  exact tile_foldl_updTile_keeps HaltedTile.refl HaltedTile.trans (haltedTile_haltTeams n) w.tiles s k

theorem haltSweep_rest (s : State) (n : Nat) (w : Sweep) : haltSweep s n w = { s with tiles := (haltSweep s n w).tiles } := by
  rw [haltSweep_eq]; exact foldl_updTile_eq ..

theorem haltTeams_free {t : Tile} {n i m : Nat} (slot : t.slotOfSweep n = some i) (team : (t.ctx m).role = .team) (mine : (t.ctx m).sweepSlot = i) :
    ((t.haltTeams n).ctx m).mode = .free := by
  simp only [Tile.haltTeams, slot, Option.elim_some, ctx_dropTeams]
  by_cases free : (t.ctx m).mode = .free
  · split
    · rfl
    · exact free
  · rw [if_pos (by simp [teamOf, team, mine, free])]; rfl

/-- The teams of the sweep on a placement tile are halted. -/
theorem haltSweep_free {n i k m : Nat} (l : List Nat) (h : k ∈ l) (s : State) (slot : (s.tile k).slotOfSweep n = some i)
    (team : ((s.tile k).ctx m).role = .team) (mine : ((s.tile k).ctx m).sweepSlot = i) :
    (((l.foldl (fun s k => s.updTile k fun t => t.haltTeams n) s).tile k).ctx m).mode = .free := by
  induction l generalizing s with
  | nil => cases h
  | cons a l ih =>
    rw [List.foldl_cons]
    by_cases e : k = a
    · refine ((tile_foldl_updTile_keeps HaltedTile.refl HaltedTile.trans (haltedTile_haltTeams n) l _ k).ctx m).free ?_
      rw [← e, State.tile_updTile]
      exact haltTeams_free slot team mine
    · have same : (s.updTile a fun t => t.haltTeams n).tile k = s.tile k := by rw [State.tile_updTile_apply, if_neg e]
      exact ih ((List.mem_cons.mp h).resolve_left e) _ (by rw [same]; exact slot) (by rw [same]; exact team) (by rw [same]; exact mine)

/-! The late trap of a launch. -/

theorem sweepTrap_ctx (s : State) (w : Sweep) (code : Byte) (val : Word) (k m : Nat) : ((sweepTrap s w code val).tile k).ctx m =
    if k = w.tile ∧ ((s.tile k).ctx m).task = w.task ∧ ((s.tile k).ctx m).mode ≠ .free
      then { (s.tile k).ctx m with lates := ((s.tile k).ctx m).lates ++ [lateTag code val w.pc w.tag true] } else (s.tile k).ctx m := by
  rw [sweepTrap, State.tile_updTile_apply]
  by_cases e : k = w.tile
  · rw [if_pos e, Tile.ctx_updTask, e]
    simp only [true_and]
  · rw [if_neg e, if_neg fun h => e h.1]

theorem sweepTrap_tlm (s : State) (w : Sweep) (code : Byte) (val : Word) (k : Nat) : ((sweepTrap s w code val).tile k).tlm = (s.tile k).tlm := by
  rw [sweepTrap, State.tile_updTile_apply]
  split
  case isTrue e => rw [e]; rfl
  case isFalse => rfl

/-- The contexts of the task that launched a sweep. -/
def launchedBy (s : State) (w : Sweep) (m : Nat) : Prop := ((s.tile w.tile).ctx m).task = w.task ∧ ((s.tile w.tile).ctx m).mode ≠ .free

/-- The launching context has one late trap more. -/
def SweepLate (s t : State) (w : Sweep) (code : Byte) (val : Word) : Prop := ∀ m, launchedBy s w m → ∃ l, ((t.tile w.tile).ctx m).lates =
  ((s.tile w.tile).ctx m).lates ++ [l] ∧ l.code = code ∧ l.val = val ∧ l.pc = w.pc ∧ l.tag = some w.tag ∧ l.atDone = true

/-- A sweep that fails: it is over, its launching context has the late trap, and SWEEP's tag is set. -/
def sweepFails (s : State) (w : Sweep) (code : Byte) (val : Word) : State := sweepTag (sweepTrap s w code val) w

theorem tagStep_sweepTag (s : State) (w : Sweep) : TagStep s (sweepTag s w) := .opDone ..

section
variable {s u : State} {w : Sweep} (code : Byte) (val : Word)

theorem sweepFails_tagSet (same : ∀ m, launchedBy s w m → (u.tile w.tile).ctx m = (s.tile w.tile).ctx m) :
    TagSet s (sweepFails u w code val) w.tile w.task w.tag := by
  refine TagSet.of_ctx (s' := sweepTrap u w code val) (fun m => tagSet_opDone _ _ _ _ _ _ m) fun m own busy => ?_
  have ctx := same m ⟨own, busy⟩
  rw [sweepTrap_ctx, ctx]
  split
  · exact ⟨own, busy⟩
  · exact ⟨own, busy⟩

theorem sweepFails_late (same : ∀ m, launchedBy s w m → (u.tile w.tile).ctx m = (s.tile w.tile).ctx m) : SweepLate s (sweepFails u w code val) w code val := by
  intro m own
  refine ⟨lateTag code val w.pc w.tag true, ?_, rfl, rfl, rfl, rfl, rfl⟩
  rw [sweepFails, (tagStep_sweepTag ..).lates, sweepTrap_ctx, same m own, if_pos ⟨rfl, own⟩]

theorem sweepFails_sameCtxs (same : ∀ k m, (u.tile k).ctx m = (s.tile k).ctx m) : s.sameCtxs (sweepFails u w code val) := fun k m => by
  obtain ⟨regs, pcc⟩ := (tagStep_sweepTag (sweepTrap u w code val) w).sameCtxs k m
  have trap : ((s.tile k).ctx m).sameRegs (((sweepTrap u w code val).tile k).ctx m) ∧
      (((sweepTrap u w code val).tile k).ctx m).pcc = ((s.tile k).ctx m).pcc := by
    rw [sweepTrap_ctx, same]
    split <;> exact ⟨⟨fun _ => rfl, fun _ => rfl, fun _ => rfl, rfl⟩, rfl⟩
  obtain ⟨⟨k1, v1, m1, f1⟩, p1⟩ := trap
  obtain ⟨k2, v2, m2, f2⟩ := regs
  exact ⟨⟨fun r => (k2 r).trans (k1 r), fun r => (v2 r).trans (v1 r), fun r => (m2 r).trans (m1 r), f2.trans f1⟩, pcc.trans p1⟩

theorem sweepFails_tlm (k : Nat) : ((sweepFails u w code val).tile k).tlm = (u.tile k).tlm := by
  rw [sweepFails, (tagStep_sweepTag ..).tlm, sweepTrap_tlm]

theorem sweepFails_gmem : (sweepFails u w code val).gmem = u.gmem := (tagStep_sweepTag ..).gmem

theorem sweepFails_sweeps : (sweepFails u w code val).sweeps = u.sweeps := (tagStep_sweepTag ..).sweeps

end

end Sys2Proof.Machine
end

section
/-!
What the events of a sweep answer (12 R301 to R303, R306, R307).
-/

namespace Sys2Proof.Machine

/-! SWEEP_LAUNCH (R301). -/

/-- Whether the accesses that a launch waits for have performed (R225). -/
def sweepReady (s : State) (w : Sweep) : Bool := w.after.all fun id => match AMap.get? (s.tile w.tile).reqs id with
  | none => true
  | some q => q.performed

theorem sweepReady_iff (s : State) (w : Sweep) :
    sweepReady s w = true ↔ ∀ id ∈ w.after, ∀ q, AMap.get? (s.tile w.tile).reqs id = some q → q.performed = true := by
  rw [sweepReady, List.all_eq_true]
  refine forall₂_congr fun id _ => ?_
  cases AMap.get? (s.tile w.tile).reqs id with
  | none => simp
  | some q => simp

/-- The records in the scoreboard are those of the launch. -/
def sameRecord (s : State) (w : Sweep) : Bool :=
  s.gRead (w.header + 8) 8 == (recW w.record 0).toNat && s.gRead (w.header + 16) 8 == (recW w.record 1).toNat

/-- The STATE of the scoreboard's header. -/
def boardStateOf (s : State) (w : Sweep) : Nat := s.gRead w.header 8 / 2 ^ 60

/-- The scoreboard's header, after the word h, and its records as a launch writes them. -/
def writeBoard (s : State) (w : Sweep) (h : Nat) : State :=
  ((s.gWrite w.header (leBytes 8 (2 ^ 60 + w.resid.toNat * 2 ^ 48 + (h + 1) % 2 ^ 32))).gWrite (w.header + 8)
    (leBytes 8 (recW w.record 0).toNat)).gWrite (w.header + 16) (leBytes 8 (recW w.record 1).toNat)

/-- A launch that starts. -/
def launchStarted (s : State) (n : Nat) (w : Sweep) : State :=
  (writeBoard (s.moved (s.handleOf w.tile)) w (s.gRead w.header 8)).setSweep n { w with phase := .accepting }

/-- A launch that its scoreboard refuses. -/
def launchRefused (s : State) (n : Nat) (w : Sweep) (code : Byte) (val : Word) : State :=
  sweepFails (freeSweep (s.moved (s.handleOf w.tile)) n w) w code val

/-- The code and TRAPVAL of a refused launch: in progress, or another record. -/
def launchFault (st : Nat) : Byte × Word := if st = 1 then (codeEngineFault, swFault 1) else (codeSweepCycle, 7)

section
variable {s : State} {n : Nat} {w : Sweep} (hw : AMap.get? s.sweeps n = some w)
include hw

theorem exec_sweepLaunch_eq : exec (.sweepLaunch n) s =
    if w.phase = .launching ∧ sweepReady s w then
      if s.gBad w.header 24 then .next (launchRefused s n w codePoison (w.sbva.setWidth 64))
      else if boardStateOf s w = 0 ∨ ((boardStateOf s w = 2 ∨ boardStateOf s w = 3 ∨ boardStateOf s w = 4) ∧ sameRecord s w) then
        .next (launchStarted s n w)
      else .next (launchRefused s n w (launchFault (boardStateOf s w)).1 (launchFault (boardStateOf s w)).2)
    else .next s := by
  change execSweepLaunch n s = _
  simp only [execSweepLaunch, hw]
  rfl

theorem exec_sweepLaunch_idle (h : w.phase ≠ .launching ∨ ¬∀ id ∈ w.after, ∀ q, AMap.get? (s.tile w.tile).reqs id = some q → q.performed = true) :
    Idle (.sweepLaunch n) s := by
  rw [← sweepReady_iff] at h
  rw [Idle, exec_sweepLaunch_eq hw, if_neg fun g => h.elim (fun e => e g.1) fun e => e g.2]

variable (phase : w.phase = .launching) (ready : ∀ id ∈ w.after, ∀ q, AMap.get? (s.tile w.tile).reqs id = some q → q.performed = true)
include phase ready

theorem exec_sweepLaunch_bad (bad : s.gBad w.header 24 = true) :
    exec (.sweepLaunch n) s = .next (launchRefused s n w codePoison (w.sbva.setWidth 64)) := by
  rw [exec_sweepLaunch_eq hw, if_pos ⟨phase, (sweepReady_iff s w).mpr ready⟩, if_pos bad]

end

theorem launchRefused_ctx (s : State) (n : Nat) (w : Sweep) (k m : Nat) :
    ((freeSweep (s.moved (s.handleOf w.tile)) n w).tile k).ctx m = (s.tile k).ctx m := by rw [freeSweep_ctx, State.tile_moved]

theorem launchRefused_quiet (s : State) (n : Nat) (w : Sweep) (code : Byte) (val : Word) : Quiet s (launchRefused s n w code val) := by
  refine ⟨sweepFails_sameCtxs _ _ (launchRefused_ctx s n w), fun k a => ?_, fun a => ?_⟩
  · rw [launchRefused, sweepFails_tlm, freeSweep_tile, State.tile_moved]
  · rw [launchRefused, sweepFails_gmem, freeSweep_gmem, State.moved_gmem]

/-- A refused launch is over, with its tag set and its late trap. -/
theorem launchRefused_over (s : State) (n : Nat) (w : Sweep) (code : Byte) (val : Word) :
    let t := launchRefused s n w code val
    Quiet s t ∧ AMap.get? t.sweeps n = none ∧ TagSet s t w.tile w.task w.tag ∧ SweepLate s t w code val := by
  have ctx := launchRefused_ctx s n w
  exact ⟨launchRefused_quiet .., by rw [launchRefused, sweepFails_sweeps]; exact freeSweep_gone ..,
    sweepFails_tagSet _ _ fun m _ => ctx w.tile m, sweepFails_late _ _ fun m _ => ctx w.tile m⟩

theorem sameRecord_iff (s : State) (w : Sweep) : sameRecord s w = true ↔
    s.gRead (w.header + 8) 8 = (recW w.record 0).toNat ∧ s.gRead (w.header + 16) 8 = (recW w.record 1).toNat := by
  rw [sameRecord, Bool.and_eq_true, beq_iff_eq, beq_iff_eq]

theorem headerWord_lt (r : BitVec 12) {x : Nat} (h : x < 2 ^ 32) : 2 ^ 60 + r.toNat * 2 ^ 48 + x < 2 ^ 64 := by
  have := r.isLt
  omega

theorem tile_writeBoard (s : State) (w : Sweep) (h k : Nat) : (writeBoard s w h).tile k = s.tile k := by
  rw [writeBoard, State.tile_gWrite, State.tile_gWrite, State.tile_gWrite]

/-- What a launch leaves in the scoreboard. -/
theorem writeBoard_words (s : State) (w : Sweep) (h : Nat) :
    (writeBoard s w h).gRead w.header 8 = 2 ^ 60 + w.resid.toNat * 2 ^ 48 + (h + 1) % 2 ^ 32 ∧
    (writeBoard s w h).gRead (w.header + 8) 8 = (recW w.record 0).toNat ∧ (writeBoard s w h).gRead (w.header + 16) 8 = (recW w.record 1).toNat ∧
    ∀ z, z < w.header ∨ w.header + 24 ≤ z → Memory.read (writeBoard s w h).gmem z = Memory.read s.gmem z := by
  unfold writeBoard
  refine ⟨?_, ?_, gRead_gWrite_word _ _ (BitVec.isLt _), fun z out => ?_⟩
  · rw [gRead_gWrite_other _ _ _ (.inl (by omega)), gRead_gWrite_other _ _ _ (.inl (by omega)),
      gRead_gWrite_word _ _ (headerWord_lt _ (Nat.mod_lt _ (Nat.two_pow_pos 32)))]
  · rw [gRead_gWrite_other _ _ _ (.inl (by omega)), gRead_gWrite_word _ _ (BitVec.isLt _)]
  · rw [read_gWrite_other _ _ _ (by rw [leBytes_length]; omega), read_gWrite_other _ _ _ (by rw [leBytes_length]; omega),
      read_gWrite_other _ _ _ (by rw [leBytes_length]; omega)]

theorem State.tile_setSweep (s : State) (n : Nat) (w : Sweep) (k : Nat) : (s.setSweep n w).tile k = s.tile k := rfl

theorem State.gmem_setSweep (s : State) (n : Nat) (w : Sweep) : (s.setSweep n w).gmem = s.gmem := rfl

theorem State.sweeps_setSweep (s : State) (n : Nat) (w : Sweep) : AMap.get? (s.setSweep n w).sweeps n = some w := AMap.get?_set_same ..

theorem tile_launchStarted (s : State) (n : Nat) (w : Sweep) (k : Nat) : (launchStarted s n w).tile k = s.tile k := by
  rw [launchStarted, State.tile_setSweep, tile_writeBoard, State.tile_moved]

theorem gmem_launchStarted (s : State) (n : Nat) (w : Sweep) :
    (launchStarted s n w).gmem = (writeBoard (s.moved (s.handleOf w.tile)) w (s.gRead w.header 8)).gmem := by rw [launchStarted, State.gmem_setSweep]

theorem launchStarted_sweep (s : State) (n : Nat) (w : Sweep) : AMap.get? (launchStarted s n w).sweeps n = some { w with phase := .accepting } :=
  State.sweeps_setSweep ..

section
variable {s : State} {n : Nat} {w : Sweep} (hw : AMap.get? s.sweeps n = some w)
  (phase : w.phase = .launching) (ready : ∀ id ∈ w.after, ∀ q, AMap.get? (s.tile w.tile).reqs id = some q → q.performed = true)
  (sound : s.gBad w.header 24 = false)
include hw phase ready sound

theorem exec_sweepLaunch_starts (starts : boardStateOf s w = 0 ∨ ((boardStateOf s w = 2 ∨ boardStateOf s w = 3 ∨ boardStateOf s w = 4) ∧ sameRecord s w = true)) :
    exec (.sweepLaunch n) s = .next (launchStarted s n w) := by
  rw [exec_sweepLaunch_eq hw, if_pos ⟨phase, (sweepReady_iff s w).mpr ready⟩, if_neg (by rw [sound]; decide), if_pos starts]

theorem exec_sweepLaunch_refused (no : ¬(boardStateOf s w = 0 ∨ ((boardStateOf s w = 2 ∨ boardStateOf s w = 3 ∨ boardStateOf s w = 4) ∧ sameRecord s w = true))) :
    exec (.sweepLaunch n) s = .next (launchRefused s n w (launchFault (boardStateOf s w)).1 (launchFault (boardStateOf s w)).2) := by
  rw [exec_sweepLaunch_eq hw, if_pos ⟨phase, (sweepReady_iff s w).mpr ready⟩, if_neg (by rw [sound]; decide), if_neg no]

end

/-! SWEEP_LAUNCH_TOKEN (R301). -/

theorem mem_releaseTeam (w0 : Word) (t j : Nat) (l : List Nat) : j ∈ releaseTeam w0 t l ↔ j = t ∨ j ∈ l := by
  induction l with
  | nil => simp [releaseTeam]
  | cons u us ih =>
    unfold releaseTeam
    split
    · simp
    · rw [List.mem_cons, ih, List.mem_cons, or_left_comm]

theorem mem_foldl_releaseTeam (w0 : Word) (ts : List Nat) (j : Nat) (l : List Nat) :
    j ∈ ts.foldl (fun r t => releaseTeam w0 t r) l ↔ j ∈ ts ∨ j ∈ l := by
  induction ts generalizing l with
  | nil => simp
  | cons t ts ih => rw [List.foldl_cons, ih, mem_releaseTeam, List.mem_cons, or_left_comm, or_assoc]

/-- The teams of a tile that have not retired. -/
def openTeams (s : State) (w : Sweep) (k : Nat) : List Nat := (tileTeams s w k).filter fun j => !retired s w j

/-- How many predecessors of a team have not retired. -/
def openNear (s : State) (w : Sweep) (j : Nat) : List Nat := (teamNear w.record (-1) j).filter fun p => !retired s w p

/-- The slot of a tile that accepts, in which no team runs yet. -/
theorem rebuildSlot_fresh (s : State) (n : Nat) (w : Sweep) (k : Nat) : rebuildSlot s n w k [] =
    { sweep := n, left := (openTeams s w k).length, running := []
      counts := ((openTeams s w k).filter fun t => (openNear s w t).length != 0).foldl (fun m t => AMap.set m t (openNear s w t).length) []
      released := ((openTeams s w k).filter fun t => (openNear s w t).length == 0).foldl (fun r t => releaseTeam (recW w.record 0) t r) [] } := by
  simp only [rebuildSlot, openTeams, openNear, List.any_nil, Bool.not_false, Bool.and_true, List.filter_false]

theorem released_fresh (s : State) (n : Nat) (w : Sweep) (k j : Nat) :
    j ∈ (rebuildSlot s n w k []).released ↔ j ∈ openTeams s w k ∧ ∀ p ∈ teamNear w.record (-1) j, retired s w p = true := by
  rw [rebuildSlot_fresh]
  simp only [mem_foldl_releaseTeam, List.mem_filter, List.not_mem_nil, or_false, openNear, beq_iff_eq, List.length_eq_zero_iff, List.filter_eq_nil_iff,
    Bool.not_eq_true', Bool.not_eq_false]

theorem counts_fresh (s : State) (n : Nat) (w : Sweep) (k : Nat) {j : Nat} (h : j ∈ openTeams s w k) :
    AMap.getD (rebuildSlot s n w k []).counts j 0 = (openNear s w j).length := by
  rw [rebuildSlot_fresh, AMap.getD]
  by_cases zero : (openNear s w j).length = 0
  · rw [AMap.get?_foldl_set_other (fun t => t) (fun t => (openNear s w t).length), zero]
    · rfl
    · rintro x hx rfl
      have := (List.mem_filter.mp hx).2
      simp [zero] at this
  · obtain ⟨x, -, rfl, val⟩ := AMap.get?_foldl_set_mem (fun t => t) (fun t => (openNear s w t).length)
      (l := (openTeams s w k).filter fun t => (openNear s w t).length != 0) (j := j) ⟨j, List.mem_filter.mpr ⟨h, bne_iff_ne.mpr zero⟩, rfl⟩ []
    rw [val]; rfl

/-- The state in which a placement tile has accepted. -/
def sweepAccepted (s : State) (n : Nat) (w : Sweep) (k i : Nat) : State :=
  ((s.setTile k { s.tile k with sweepSlots := AMap.set (s.tile k).sweepSlots i (rebuildSlot s n w k []) }).setSweep n { w with
    accepted := w.accepted ++ [k]
    phase := if w.tiles.all (fun p => (w.accepted ++ [k]).any (· == p)) then .running else .accepting }).moved (s.handleOf w.tile)

section
variable {s : State} {n : Nat} {w : Sweep} (hw : AMap.get? s.sweeps n = some w) {k : Nat}
include hw

theorem exec_sweepLaunchToken_full (full : ∀ i, i < 4 → AMap.get? (s.tile k).sweepSlots i ≠ none) : Idle (.sweepLaunchToken n k) s := by
  have none_ : (upto 4).find? (fun i => (AMap.get? (s.tile k).sweepSlots i).isNone) = none := by
    rw [List.find?_eq_none]
    intro i hi
    rw [Option.isNone_iff_eq_none]
    exact full i (List.mem_range.mp hi)
  change execSweepLaunchToken n k s = _
  simp only [execSweepLaunchToken, hw, none_]

theorem exec_sweepLaunchToken_not (no : w.phase ≠ .accepting ∨ k ∉ w.tiles ∨ k ∈ w.accepted) : Idle (.sweepLaunchToken n k) s := by
  have no : ¬(w.phase = .accepting ∧ (w.tiles.any (· == k)) = true ∧ (!w.accepted.any (· == k)) = true) := by
    simp only [List.any_beq', List.contains_eq_mem, decide_eq_true_eq, Bool.not_eq_true', decide_eq_false_iff_not]
    rintro ⟨phase, tile, fresh⟩
    exact no.elim (fun e => e phase) fun e => e.elim (fun e => e tile) fresh
  change execSweepLaunchToken n k s = _
  simp only [execSweepLaunchToken, hw]
  split
  · rfl
  · rw [if_neg no]

theorem exec_sweepLaunchToken {i : Nat} (phase : w.phase = .accepting) (tile : k ∈ w.tiles) (fresh : k ∉ w.accepted) (hi : i < 4)
    (free : AMap.get? (s.tile k).sweepSlots i = none) (first : ∀ j, j < i → AMap.get? (s.tile k).sweepSlots j ≠ none) :
    exec (.sweepLaunchToken n k) s = .next (sweepAccepted s n w k i) := by
  have found : (upto 4).find? (fun i => (AMap.get? (s.tile k).sweepSlots i).isNone) = some i := by
    rw [upto, List.find?_range_eq_some]
    exact ⟨Option.isNone_iff_eq_none.mpr free, List.mem_range.mpr hi, fun j hj => by simpa using Option.ne_none_iff_isSome.mp (first j hj)⟩
  have yes : w.phase = .accepting ∧ (w.tiles.any (· == k)) = true ∧ (!w.accepted.any (· == k)) = true := by
    simp only [List.any_beq', List.contains_eq_mem, decide_eq_true_eq, Bool.not_eq_true', decide_eq_false_iff_not]
    exact ⟨phase, tile, fresh⟩
  change execSweepLaunchToken n k s = _
  simp only [execSweepLaunchToken, hw, found]
  rw [if_pos yes]
  rfl

end

theorem sweepAccepted_quiet (s : State) (n : Nat) (w : Sweep) (k i : Nat) : Quiet s (sweepAccepted s n w k i) := by
  have tile : ∀ q, (sweepAccepted s n w k i).tile q = { s.tile q with sweepSlots := ((sweepAccepted s n w k i).tile q).sweepSlots } := fun q => by
    have at_ : (sweepAccepted s n w k i).tile q = (s.setTile k { s.tile k with
        sweepSlots := AMap.set (s.tile k).sweepSlots i (rebuildSlot s n w k []) }).tile q := State.tile_moved ..
    rw [at_, State.tile_setTile_apply]
    split
    case isTrue e => rw [e]
    case isFalse => rfl
  refine ⟨fun q m => ?_, fun q a => ?_, fun a => ?_⟩
  · rw [tile]; exact ⟨⟨fun _ => rfl, fun _ => rfl, fun _ => rfl, rfl⟩, rfl⟩
  · rw [tile]
  · rw [sweepAccepted, State.moved_gmem]; rfl

theorem sweepAccepted_slot (s : State) (n : Nat) (w : Sweep) (k i : Nat) :
    AMap.get? ((sweepAccepted s n w k i).tile k).sweepSlots i = some (rebuildSlot s n w k []) := by
  have at_ : (sweepAccepted s n w k i).tile k = (s.setTile k { s.tile k with
      sweepSlots := AMap.set (s.tile k).sweepSlots i (rebuildSlot s n w k []) }).tile k := State.tile_moved ..
  rw [at_, State.tile_setTile]; exact AMap.get?_set_same ..

theorem State.moved_sweeps (s : State) (h : Nat) : (s.moved h).sweeps = s.sweeps := by rw [(TokenStep.moved s h).others]

theorem allAccepted_iff (w : Sweep) (k : Nat) :
    (if w.tiles.all (fun p => (w.accepted ++ [k]).any (· == p)) then SweepPhase.running else .accepting) = .running ↔
      ∀ p ∈ w.tiles, p ∈ w.accepted ++ [k] := by
  have all : (w.tiles.all fun p => (w.accepted ++ [k]).any (· == p)) = true ↔ ∀ p ∈ w.tiles, p ∈ w.accepted ++ [k] := by
    simp only [List.all_eq_true, List.any_beq', List.contains_eq_mem, decide_eq_true_eq]
  rw [← all]
  split
  case isTrue h => exact iff_of_true rfl h
  case isFalse h => exact iff_of_false (by decide) h

/-! RETIRE_NOTICE (R302). -/

/-- A tile's part of a notice. -/
def Tile.noticed (t : Tile) (n team : Nat) (w : Sweep) : Tile := match t.slotOfSweep n with
  | none => t
  | some i => match AMap.get? t.sweepSlots i with
    | none => t
    | some x => match AMap.get? x.counts team with
      | none => t
      | some c =>
        let x1 := if c ≤ 1 then { x with counts := AMap.erase x.counts team, released := releaseTeam (recW w.record 0) team x.released }
          else { x with counts := AMap.set x.counts team (c - 1) }
        { t with sweepSlots := AMap.set t.sweepSlots i x1 }

/-- The state in which a notice has come to every placement tile. -/
def sweepNoticed (s : State) (n team : Nat) (w : Sweep) : State :=
  w.tiles.foldl (fun s k => s.updTile k fun t => t.noticed n team w) ((s.setSweep n { w with notices := w.notices.erase team }).moved (s.handleOf w.tile))

theorem exec_retireNotice_eq {s : State} {n team : Nat} {w : Sweep} (hw : AMap.get? s.sweeps n = some w) : exec (.retireNotice n team) s =
    if w.phase = .running ∧ w.notices.any (· == team) then .next (sweepNoticed s n team w) else .next s := by
  change execRetireNotice n team s = _
  simp only [execRetireNotice, hw]
  rfl

theorem exec_retireNotice_idle {s : State} {n team : Nat} {w : Sweep} (hw : AMap.get? s.sweeps n = some w)
    (h : w.phase ≠ .running ∨ team ∉ w.notices) : Idle (.retireNotice n team) s := by
  rw [Idle, exec_retireNotice_eq hw, if_neg]
  simp only [List.any_beq', List.contains_eq_mem, decide_eq_true_eq]
  exact fun g => h.elim (fun e => e g.1) fun e => e g.2

theorem exec_retireNotice {s : State} {n team : Nat} {w : Sweep} (hw : AMap.get? s.sweeps n = some w) (phase : w.phase = .running)
    (notice : team ∈ w.notices) : exec (.retireNotice n team) s = .next (sweepNoticed s n team w) := by
  rw [exec_retireNotice_eq hw, if_pos]
  simp only [List.any_beq', List.contains_eq_mem, decide_eq_true_eq]
  exact ⟨phase, notice⟩

theorem noticed_slots (n team : Nat) (w : Sweep) (t : Tile) : t.noticed n team w = { t with sweepSlots := (t.noticed n team w).sweepSlots } := by
  unfold Tile.noticed
  split
  · rfl
  · split
    · rfl
    · split <;> rfl

theorem sweepNoticed_tile (s : State) (n team : Nat) (w : Sweep) (k : Nat) :
    (sweepNoticed s n team w).tile k = { s.tile k with sweepSlots := ((sweepNoticed s n team w).tile k).sweepSlots } := by
  have keeps := tile_foldl_updTile_keeps (R := fun t u => u = { t with sweepSlots := u.sweepSlots }) (fun _ => rfl) (fun a b => by rw [b, a])
    (noticed_slots n team w) w.tiles ((s.setSweep n { w with notices := w.notices.erase team }).moved (s.handleOf w.tile)) k
  rw [State.tile_moved] at keeps
  exact keeps

theorem sweepNoticed_rest (s : State) (n team : Nat) (w : Sweep) : (sweepNoticed s n team w).gmem = s.gmem ∧
    AMap.get? (sweepNoticed s n team w).sweeps n = some { w with notices := w.notices.erase team } := by
  rw [sweepNoticed, foldl_updTile_eq]
  refine ⟨State.moved_gmem .., ?_⟩
  change AMap.get? (State.moved _ _).sweeps n = _
  rw [State.moved_sweeps]; exact AMap.get?_set_same ..

theorem sweepNoticed_quiet (s : State) (n team : Nat) (w : Sweep) : Quiet s (sweepNoticed s n team w) := by
  refine ⟨fun k m => ?_, fun k a => ?_, fun a => ?_⟩
  · rw [sweepNoticed_tile]; exact ⟨⟨fun _ => rfl, fun _ => rfl, fun _ => rfl, rfl⟩, rfl⟩
  · rw [sweepNoticed_tile]
  · rw [(sweepNoticed_rest s n team w).1]

theorem sweepNoticed_count {s : State} {n team : Nat} {w : Sweep} (nodup : w.tiles.Nodup) {k i c : Nat} {y : SweepSlot} (hk : k ∈ w.tiles)
    (slot : (s.tile k).slotOfSweep n = some i) (hy : AMap.get? (s.tile k).sweepSlots i = some y) (hc : AMap.get? y.counts team = some c) :
    ∃ z, AMap.get? ((sweepNoticed s n team w).tile k).sweepSlots i = some z ∧ z.running = y.running ∧
      (c ≤ 1 → AMap.get? z.counts team = none ∧ ∀ j, j ∈ z.released ↔ j = team ∨ j ∈ y.released) ∧
      (1 < c → AMap.get? z.counts team = some (c - 1) ∧ z.released = y.released) := by
  have tile : (sweepNoticed s n team w).tile k = (s.tile k).noticed n team w := by
    rw [sweepNoticed, tile_foldl_updTile _ nodup hk, State.tile_moved]; rfl
  rw [tile]
  simp only [Tile.noticed, slot, hy, hc]
  refine ⟨_, AMap.get?_set_same .., ?_⟩
  split
  case isTrue le => exact ⟨rfl, fun _ => ⟨AMap.get?_erase_same .., fun j => mem_releaseTeam ..⟩, fun lt => absurd le (by omega)⟩
  case isFalse gt => exact ⟨rfl, fun le => absurd le gt, fun _ => ⟨AMap.get?_set_same .., rfl⟩⟩

/-! The ends of a sweep: SWEEP_END, SWEEP_PARTITION, SWEEP_ABORT_CONFIRM (R303, R306, R307). -/

/-- A sweep that is over, as the obligation says it. -/
def SweepOver (s t : State) (n : Nat) (w : Sweep) (state : Nat) : Prop :=
  AMap.get? t.sweeps n = none ∧ TagSet s t w.tile w.task w.tag ∧ s.sameTlm t ∧
    t.gRead w.header 8 = state * 2 ^ 60 + s.gRead w.header 8 % 2 ^ 60 ∧
    ∀ z, z < w.header ∨ w.header + 8 ≤ z → Memory.read t.gmem z = Memory.read s.gmem z

/-- The sweep's slots are freed and its STATE written. -/
def closed (s : State) (n : Nat) (w : Sweep) (st : Nat) : State := (freeSweep s n w).boardState w.header st

theorem tile_closed (s : State) (n : Nat) (w : Sweep) (st k : Nat) : (closed s n w st).tile k = (freeSweep s n w).tile k := tile_boardState ..

theorem ctx_closed (s : State) (n : Nat) (w : Sweep) (st k m : Nat) : ((closed s n w st).tile k).ctx m = (s.tile k).ctx m := by
  rw [tile_closed, freeSweep_ctx]

theorem sweepOver_of {s s' t : State} {n st : Nat} {w : Sweep} (lt : st < 16) (gmem' : s'.gmem = s.gmem) (tlm' : ∀ k, (s'.tile k).tlm = (s.tile k).tlm)
    (tag : TagSet s t w.tile w.task w.tag) (tlm : ∀ k, (t.tile k).tlm = ((closed s' n w st).tile k).tlm) (gmem : t.gmem = (closed s' n w st).gmem)
    (sweeps : t.sweeps = (closed s' n w st).sweeps) : SweepOver s t n w st := by
  have before : (freeSweep s' n w).gmem = s.gmem := by rw [freeSweep_gmem, gmem']
  refine ⟨?_, tag, fun k a => ?_, ?_, fun z out => ?_⟩
  · rw [sweeps, closed, sweeps_boardState]; exact freeSweep_gone ..
  · rw [tlm, tile_closed, freeSweep_tile, tlm']
  · rw [State.gRead, gmem, closed]
    refine (gRead_boardState _ _ lt).trans ?_
    rw [State.gRead, before]; rfl
  · rw [gmem, closed, read_boardState_other _ _ _ out, before]

theorem tagStep_moved (s : State) (h : Nat) : TagStep s (s.moved h) := .of_tokens (.moved ..)

/-- SWEEP's tag is set in a state whose contexts of the launching task stand as before. -/
theorem sweepTag_tagSet {s u : State} {w : Sweep} (same : ∀ m, launchedBy s w m → (u.tile w.tile).ctx m = (s.tile w.tile).ctx m) :
    TagSet s (sweepTag u w) w.tile w.task w.tag :=
  TagSet.of_ctx (fun m => tagSet_opDone _ _ _ _ _ _ m) fun m own busy => by rw [same m ⟨own, busy⟩]; exact ⟨own, busy⟩

section
variable {s : State} {n : Nat} {w : Sweep} (hw : AMap.get? s.sweeps n = some w)
include hw

theorem exec_sweepEnd_idle (h : sweepDone s n w = false) : Idle (.sweepEnd n) s := by
  change execSweepEnd n s = _
  simp only [execSweepEnd, hw, h]
  rfl

theorem exec_sweepEnd (h : sweepDone s n w = true) : exec (.sweepEnd n) s = .next ((sweepTag (closed s n w 2) w).moved (s.handleOf w.tile)) := by
  change execSweepEnd n s = _
  simp only [execSweepEnd, hw, h]
  rfl

theorem sweepEnd_over (h : sweepDone s n w = true) : ∃ t, exec (.sweepEnd n) s = .next t ∧ SweepOver s t n w 2 ∧ s.sameCtxs t ∧
    ∀ k m, ((t.tile k).ctx m).lates = ((s.tile k).ctx m).lates := by
  have step : TagStep (closed s n w 2) ((sweepTag (closed s n w 2) w).moved (s.handleOf w.tile)) := (tagStep_sweepTag ..).trans (tagStep_moved ..)
  have ctx := ctx_closed s n w 2
  refine ⟨_, exec_sweepEnd hw h, sweepOver_of (by decide) rfl (fun _ => rfl) ((sweepTag_tagSet fun m _ => ctx w.tile m).then (tagStep_moved ..)) step.tlm
    step.gmem step.sweeps, fun k m => ?_, fun k m => ?_⟩
  · rw [← ctx]; exact step.sameCtxs k m
  · rw [← ctx]; exact step.lates k m

theorem exec_sweepPartition_idle (h : (w.phase ≠ .accepting ∧ w.phase ≠ .running) ∨ cutOff s w = false) : Idle (.sweepPartition n) s := by
  have no : ¬((w.phase = .accepting ∨ w.phase = .running) ∧ cutOff s w = true) := by
    rintro ⟨phase, cut⟩
    rcases h with ⟨a, r⟩ | h
    · exact phase.elim a r
    · rw [h] at cut; cases cut
  change execSweepPartition n s = _
  simp only [execSweepPartition, hw]
  rw [if_neg no]

theorem exec_sweepPartition (phase : w.phase = .accepting ∨ w.phase = .running) (cut : cutOff s w = true) :
    exec (.sweepPartition n) s = .next (sweepFails (closed (haltSweep s n w) n w 4) w codeSweepPartition (w.sbva.setWidth 64)) := by
  change execSweepPartition n s = _
  simp only [execSweepPartition, hw]
  rw [if_pos ⟨phase, cut⟩]
  rfl

theorem sweepPartition_over (phase : w.phase = .accepting ∨ w.phase = .running) (cut : cutOff s w = true)
    (apart : ∀ m, launchedBy s w m → ((s.tile w.tile).ctx m).role ≠ .team) :
    ∃ t, exec (.sweepPartition n) s = .next t ∧ SweepOver s t n w 4 ∧ SweepLate s t w 0x11 (w.sbva.setWidth 64) ∧
      ∀ k i m, k ∈ w.tiles → (s.tile k).slotOfSweep n = some i → ((s.tile k).ctx m).role = .team → ((s.tile k).ctx m).sweepSlot = i →
        ((t.tile k).ctx m).mode = .free := by
  have halted := haltSweep_tile s n w
  have gmem : (haltSweep s n w).gmem = s.gmem := by rw [haltSweep_rest]
  have same : ∀ m, launchedBy s w m → ((closed (haltSweep s n w) n w 4).tile w.tile).ctx m = (s.tile w.tile).ctx m := fun m own => by
    rw [ctx_closed]
    exact ((halted w.tile).ctx m).resolve_right fun team => apart m own team.1
  refine ⟨_, exec_sweepPartition hw phase cut, sweepOver_of (by decide) gmem (fun k => by rw [(halted k).rest]) (sweepFails_tagSet _ _ same)
    (sweepFails_tlm _ _) (sweepFails_gmem _ _) (sweepFails_sweeps _ _), sweepFails_late _ _ same, fun k i m hk slot team mine => ?_⟩
  have free : (((closed (haltSweep s n w) n w 4).tile k).ctx m).mode = .free := by
    rw [ctx_closed, haltSweep_eq]; exact haltSweep_free w.tiles hk s slot team mine
  rw [sweepFails, (tagStep_sweepTag ..).ctx, sweepTrap_ctx, if_neg fun h => h.2.2 free]
  exact free

theorem exec_sweepAbortConfirm_idle (h : w.phase ≠ .aborting) : Idle (.sweepAbortConfirm n) s := by
  change execSweepAbortConfirm n s = _
  simp only [execSweepAbortConfirm, hw, h, if_false]

end

/-- A waiting SWABT is answered (R307). -/
def answerAbort (s : State) (a : Nat × Nat) : State := match AMap.get? (s.tile a.1).reqs a.2 with
  | none => s
  | some q => replyTag (s.updTile a.1 fun t => t.dropReq a.2) a.1 q

theorem tagStep_replyTag (s : State) (k : Nat) (q : GReq) : TagStep s (replyTag s k q) := by
  unfold replyTag
  split
  · exact .refl s
  · exact .opDone ..

theorem tagStep_answerAbort (s : State) (a : Nat × Nat) : TagStep s (answerAbort s a) := by
  unfold answerAbort
  split
  · exact .refl s
  · exact (TagStep.dropReq ..).trans (tagStep_replyTag ..)

theorem answerAbort_gone (s : State) (a : Nat × Nat) : AMap.get? ((answerAbort s a).tile a.1).reqs a.2 = none := by
  unfold answerAbort
  split
  case h_1 h => exact h
  case h_2 q h =>
    refine (tagStep_replyTag ..).reqs _ _ ?_
    rw [State.tile_updTile]; exact AMap.get?_erase_same ..

theorem exec_sweepAbortConfirm {s : State} {n : Nat} {w : Sweep} (hw : AMap.get? s.sweeps n = some w) (h : w.phase = .aborting) :
    exec (.sweepAbortConfirm n) s = .next (w.aborts.foldl answerAbort (sweepTag (closed s n w 3) w)) := by
  change execSweepAbortConfirm n s = _
  simp only [execSweepAbortConfirm, hw, h, if_true]
  rfl

theorem sweepAbortConfirm_over {s : State} {n : Nat} {w : Sweep} (hw : AMap.get? s.sweeps n = some w) (h : w.phase = .aborting) :
    ∃ t, exec (.sweepAbortConfirm n) s = .next t ∧ SweepOver s t n w 3 ∧ s.sameCtxs t ∧ ∀ p ∈ w.aborts, AMap.get? (t.tile p.1).reqs p.2 = none := by
  have answers : TagStep (sweepTag (closed s n w 3) w) (w.aborts.foldl answerAbort (sweepTag (closed s n w 3) w)) := .foldl tagStep_answerAbort ..
  have step := (tagStep_sweepTag (closed s n w 3) w).trans answers
  have ctx := ctx_closed s n w 3
  refine ⟨_, exec_sweepAbortConfirm hw h, sweepOver_of (by decide) rfl (fun _ => rfl) ((sweepTag_tagSet fun m _ => ctx w.tile m).then answers) step.tlm
    step.gmem step.sweeps, fun k m => ?_, fun p hp => ?_⟩
  · rw [← ctx]; exact step.sameCtxs k m
  · exact foldl_reaches hp (P := fun g => AMap.get? (g.tile p.1).reqs p.2 = none) (fun g => answerAbort_gone g p)
      (fun g y hg => (tagStep_answerAbort g y).reqs _ _ hg) _

/-! The obligation. -/

/-- Every event of a sweep has a next state. -/
theorem sweepEvent_next (n k team : Nat) (s : State) : ∀ i ∈ [Instr.sweepLaunch n, .sweepLaunchToken n k, .retireNotice n team, .sweepEnd n,
    .sweepPartition n, .sweepAbortConfirm n], ∃ t, exec i s = .next t := by
  simp only [List.mem_cons, List.not_mem_nil, or_false, forall_eq_or_imp, forall_eq]
  refine ⟨?_, ?_, ?_, ?_, ?_, ?_⟩
  · change ∃ t, execSweepLaunch n s = .next t
    unfold execSweepLaunch
    split
    · exact ⟨_, rfl⟩
    · dsimp only
      split
      · split
        · exact ⟨_, rfl⟩
        · split <;> exact ⟨_, rfl⟩
      · exact ⟨_, rfl⟩
  · change ∃ t, execSweepLaunchToken n k s = .next t
    unfold execSweepLaunchToken
    split
    · exact ⟨_, rfl⟩
    · dsimp only
      split
      · exact ⟨_, rfl⟩
      · split <;> exact ⟨_, rfl⟩
  · change ∃ t, execRetireNotice n team s = .next t
    unfold execRetireNotice
    split
    · exact ⟨_, rfl⟩
    · split <;> exact ⟨_, rfl⟩
  · change ∃ t, execSweepEnd n s = .next t
    unfold execSweepEnd
    split
    · exact ⟨_, rfl⟩
    · split <;> exact ⟨_, rfl⟩
  · change ∃ t, execSweepPartition n s = .next t
    unfold execSweepPartition
    split
    · exact ⟨_, rfl⟩
    · split <;> exact ⟨_, rfl⟩
  · change ∃ t, execSweepAbortConfirm n s = .next t
    unfold execSweepAbortConfirm
    split
    · exact ⟨_, rfl⟩
    · split <;> exact ⟨_, rfl⟩

/-- No event finds a sweep that is not under way. -/
theorem sweepEvent_unknown {n : Nat} {s : State} (h : AMap.get? s.sweeps n = none) (k team : Nat) : Idle (.sweepLaunch n) s ∧
    Idle (.sweepLaunchToken n k) s ∧ Idle (.retireNotice n team) s ∧ Idle (.sweepEnd n) s ∧ Idle (.sweepPartition n) s ∧ Idle (.sweepAbortConfirm n) s := by
  refine ⟨?_, ?_, ?_, ?_, ?_, ?_⟩
  · change execSweepLaunch n s = _; simp only [execSweepLaunch, h]
  · change execSweepLaunchToken n k s = _; simp only [execSweepLaunchToken, h]
  · change execRetireNotice n team s = _; simp only [execRetireNotice, h]
  · change execSweepEnd n s = _; simp only [execSweepEnd, h]
  · change execSweepPartition n s = _; simp only [execSweepPartition, h]
  · change execSweepAbortConfirm n s = _; simp only [execSweepAbortConfirm, h]

end Sys2Proof.Machine
end

section
/-! The sweeps' obligation is assembled (12 R300 to R307). -/

namespace Sys2Proof.Machine

section
variable {f : EW} {s : State}

theorem swq_settled (ready : s.kReady [f.d, f.a, f.b] [f.a, f.b] [f.d]) {q : GReq}
    (hq : q = { op := .swq, task := s.me.task, ctxNo := s.cur.ctx, actor := s.me.actor, va := (s.me.readK f.a).addr, pa := 0, n := 8
                data := (s.me.readK f.b).word, cmp := 0, dest := some f.d, async := false, tok := false, tag := none, order := 1, scope := 2
                pc := s.me.pc, after := [], performed := false, reply := none, win := false, seq := none, onlyRetry := false
                resid := s.here.slot.resid }) :
    (swHold s = true → Stalls (.swq f) s) ∧
    (swHold s = false → (∀ code, GlobalBad (s.me.readK f.a) (s.me.readK f.a).addr.toNat 64 64 [.r] code →
        Traps (.swq f) s code ((s.me.readK f.a).addr.setWidth 64)) ∧
      ∀ p, GlobalOk (s.me.readK f.a) (s.me.readK f.a).addr.toNat 64 64 [.r] →
        (translate s s.cur.tile (ctxSpace s s.cur.tile s.cur.ctx) (s.me.readK f.a).addr.toNat true false false).2 = .ok p →
        Sends (.swq f) s { q with pa := p }) := by
  subst hq
  exact ⟨swq_stalls ready, fun hold => ⟨fun code => swq_traps ready hold, fun p ok pa => swq_sends ready hold ok (transIssue_of_ok pa)⟩⟩

/-- The sweep that a SWEEP launches, in the terms of the state in which it issues. -/
theorem newSweep_issue {u : State} (frame : IssueFrame s u) (r : List Word) (param : KReg) (ps : List PAddr) (op : Nat) :
    let w := newSweep u f r param ps op
    w.phase = .launching ∧ w.tile = s.cur.tile ∧ w.task = s.me.task ∧ w.actor = s.me.actor ∧
      w.tag = f.tag ∧ w.tok = (f.tok == 1) ∧ w.resid = s.here.slot.resid ∧ w.record = r ∧ w.sbva = (s.me.readK f.b).addr ∧ w.pages = ps ∧
      w.tiles = placeTiles s r ∧ w.accepted = [] ∧ w.param = param := by
  refine ⟨rfl, congrArg (·.tile) frame.cur, ?_, ?_, rfl, rfl, frame.resid, rfl, ?_, rfl, frame.placeTiles r, rfl, rfl⟩
  · change u.me.task = _; rw [frame.me]
  · change u.me.actor = _; rw [frame.me]
  · change (u.me.readK f.b).addr = _; rw [frame.me]; rfl

theorem sweep_launches {r : List Word} (record : r = readDesc s.here (s.me.readK f.a).addr.toNat) (ready : s.kReady [f.a, f.b] [f.a, f.b] [])
    (role : s.me.role ≠ .team) (free : tagBusy s s.cur.tile s.me.task f.tag = false ∧ s.tlmFree)
    (inTlm : tlmCheck (grantOf s s.cur.tile s.me) (s.me.readK f.a) (s.me.readK f.a).addr.toNat 64 64 [.r] = none)
    (clean : s.here.badWord (s.me.readK f.a).addr.toNat 64 = none) (good : recCheck r = none) (place : placeOk s r = true)
    (board : GlobalOk (s.me.readK f.b) (s.me.readK f.b).addr.toNat (boardLen (recW r 0)) 64 [.r, .w]) {s1 : State} {ps : List PAddr}
    (pages : transPages (s.me.readK f.b).addr.toNat (((s.me.readK f.b).addr.toNat + boardLen (recW r 0) - 1) / 2 ^ 16 -
      (s.me.readK f.b).addr.toNat / 2 ^ 16 + 1) s = .ok (s1, ps)) (token : TokenOk s f.tok) :
    ∃ t w, exec (.sweep f) s = .next t ∧ HandedOver s t ∧ AMap.get? t.sweeps s.nextSweep = some w ∧
      (∀ m, m ≠ s.nextSweep → AMap.get? t.sweeps m = AMap.get? s.sweeps m) ∧ t.nextSweep = s.nextSweep + 1 ∧
      tagCleared s t f.tag ∧ w.phase = .launching ∧ w.tile = s.cur.tile ∧ w.task = s.me.task ∧ w.actor = s.me.actor ∧
      w.tag = f.tag ∧ w.tok = (f.tok == 1) ∧ w.resid = s.here.slot.resid ∧ w.record = r ∧ w.sbva = (s.me.readK f.b).addr ∧ w.pages = ps ∧
      w.tiles = placeTiles s r ∧ w.accepted = [] ∧ w.param = ⟨s.here.gtag ((s.me.readK f.a).addr.toNat + 32),
        BitVec.ofNat 128 (s.here.number ((s.me.readK f.a).addr.toNat + 32) 16)⟩ := by
  obtain ⟨u, claim, frame⟩ := token.claimed ((readOnly_transPages pages).trans (readOnly_touchRead s1 (s.me.readK f.a).addr.toNat 64))
  have run := exec_sweep ready role free inTlm clean (by rwa [← record]) (by rwa [← record]) (by rwa [← record]) (by rwa [← record]) claim
  rw [← record] at run
  have over_ := handsOver_launch frame
    (newSweep u f r (sweepParam s (s.me.readK f.a).addr.toNat) ps u.here.nextOp) f.tag
  have sweeps : u.sweeps = s.sweeps := by rw [frame.outside]
  have next : u.nextSweep = s.nextSweep := by rw [frame.outside]
  refine ⟨_, newSweep u f r (sweepParam s (s.me.readK f.a).addr.toNat) ps u.here.nextOp, run, over_.handedOver, ?_, fun m hm => ?_, ?_, ?_, ?_⟩
  · rw [← next]; exact AMap.get?_set_same ..
  · rw [← sweeps]; exact AMap.get?_set_other _ _ (by rw [next]; exact Ne.symm hm)
  · rw [← next]; rfl
  · refine (State.tags_complete ..).trans ?_
    rw [State.me_setMe, me_launch, Ctx.tagClear, frame.me]
  · have issued := newSweep_issue (f := f) frame r (sweepParam s (s.me.readK f.a).addr.toNat) ps u.here.nextOp
    rw [sweepParam, Tile.readTlm_eq_number] at issued
    rw [sweepParam, Tile.readTlm_eq_number]
    exact issued

end

/-- SWQ's answer, as the obligation says it. -/
theorem swqAnswered {k id d : Nat} {s : State} {q : GReq} {h r0 : Word} {b : Byte} (hq : AMap.get? (s.tile k).reqs id = some q)
    (reply : q.reply = some (.swq h r0 b)) (ours : q.ctxNo = 0 ∨ q.resid = (s.tile k).slot.resid) (seq : q.seq = none) (tag : q.tag = none)
    (dest : q.dest = some (BitVec.ofNat 6 d)) {idx : Nat → Nat} (hidx : ∀ j, idx j = (q.data.extractLsb' (16 * j) 16).toNat) {ext : Nat → Nat}
    (hext : ∀ j, ext j = recExt r0 j) :
    let inside := idx 0 < ext 0 ∧ idx 1 < ext 1 ∧ idx 2 < ext 2
    let team := idx 0 + ext 0 * (idx 1 + ext 1 * idx 2)
    ∃ t, exec (.globalReply k id) s = .next t ∧ AMap.get? (t.tile k).reqs id = none ∧ s.sameTlm t ∧ s.sameGmem t ∧
      ∀ m, ((s.tile k).ctx m).task = q.task → ((s.tile k).ctx m).mode ≠ .free →
        (inside → ((t.tile k).ctx m).readK (BitVec.ofNat 6 d) = wroteK (BitVec.ofNat 6 d)
          ⟨false, BitVec.ofNat 128 (h.toNat / 2 ^ 60 * 2 ^ 60 + if b.getLsbD (team % 8) then 1 else 0)⟩) ∧
        (¬inside → (∀ r, ((t.tile k).ctx m).readK r = ((s.tile k).ctx m).readK r) ∧
          ∃ l, ((t.tile k).ctx m).lates = ((s.tile k).ctx m).lates ++ [l] ∧ l.code = 0x17 ∧ l.val = 0x360 ∧ l.pc = q.pc ∧ l.tag = none) := by
  intro inside team
  obtain ⟨t, run, gone, tlm, gmem, ctx⟩ := globalReply_swq hq reply ours seq tag
  have index : swqIndex r0 q.data = if inside then some team else none := by
    simp only [swqIndex, ← hidx, ← hext]
    rfl
  refine ⟨t, run, gone, tlm, gmem, fun m task busy => ⟨fun yes => ?_, fun no => ?_⟩⟩
  · rw [ctx m task busy]
    exact swqReply_inside dest (index.trans (if_pos yes)) h b _
  · rw [ctx m task busy, swqReply_outside (index.trans (if_neg no))]
    exact ⟨fun _ => rfl, _, rfl, rfl, rfl, rfl, rfl⟩

/-- Settles O51: the instructions, SWQ's answer, and the six events, one after the other. -/
theorem sweeps : Obligations.Sweeps := by
  refine ⟨fun f s => ?_, fun k id d s q h r0 b hq reply ours seq tag dest => ?_, fun n k team s => ⟨sweepEvent_next n k team s,
    fun h => sweepEvent_unknown h k team, fun w hw => ?_⟩⟩
  · intro ka kb r va n w2 free pa sends q
    refine ⟨fun ready => ⟨sweep_team ready, sweep_stalls ready, fun role free inTlm clean => ⟨fun m => sweep_badRecord ready role free inTlm clean,
      sweep_misplaced ready role free inTlm clean, fun good place => ⟨fun code => sweep_badBoard ready role free inTlm clean good place,
        fun board s1 ps pages token => sweep_launches rfl ready role free inTlm clean good place board pages token⟩⟩⟩,
      fun ready => swq_settled ready rfl, fun ready => ⟨swabt_stalls ready, fun hold busy p ok trans token =>
        swabt_sends ready hold busy ok (transIssue_of_ok trans) token⟩⟩
  · exact swqAnswered hq reply ours seq tag dest (fun j => (toNat_index q.data j).symm) fun j => (recExt_eq r0 j).symm
  · intro a h w0 w1 launcher late ovr waits same st starts
    have record := sameRecord_iff s w
    have begins : starts ↔ (boardStateOf s w = 0 ∨ ((boardStateOf s w = 2 ∨ boardStateOf s w = 3 ∨ boardStateOf s w = 4) ∧ sameRecord s w = true)) := by
      rw [record]; rfl
    refine ⟨exec_sweepLaunch_idle hw, fun phase ready bad => ⟨_, exec_sweepLaunch_bad hw phase ready bad, launchRefused_over ..⟩,
      fun phase ready sound => ⟨fun go => ?_, fun no => ?_⟩, ⟨fun idle => ?_, fun phase tile fresh i hi free first => ?_⟩, exec_retireNotice_idle hw,
      fun phase notice nodup => ⟨_, exec_retireNotice hw phase notice, sweepNoticed_quiet .., (sweepNoticed_rest s n team w).2,
        fun i y c hk slot hy hc => sweepNoticed_count nodup hk slot hy hc⟩, exec_sweepEnd_idle hw, fun done => ?_,
      fun a r => exec_sweepPartition_idle hw (.inl ⟨a, r⟩), fun cut => exec_sweepPartition_idle hw (.inr cut), fun phase cut apart => ?_,
      exec_sweepAbortConfirm_idle hw, sweepAbortConfirm_over hw⟩
    · obtain ⟨header, rec0, rec1, others⟩ := writeBoard_words (s.moved (s.handleOf w.tile)) w (s.gRead w.header 8)
      have gmem := gmem_launchStarted s n w
      refine ⟨_, exec_sweepLaunch_starts hw phase ready sound (begins.mp go), fun q m => ?_, fun q z => by rw [tile_launchStarted], ?_, ?_, ?_,
        fun z out => ?_, launchStarted_sweep ..⟩
      · rw [tile_launchStarted]; exact ⟨⟨fun _ => rfl, fun _ => rfl, fun _ => rfl, rfl⟩, rfl⟩
      · rw [State.gRead, gmem]; exact header
      · rw [State.gRead, gmem]; exact rec0
      · rw [State.gRead, gmem]; exact rec1
      · rw [gmem, others z out, State.moved_gmem]
    · obtain ⟨quiet, gone, set, late_⟩ := launchRefused_over s n w (launchFault (boardStateOf s w)).1 (launchFault (boardStateOf s w)).2
      refine ⟨_, exec_sweepLaunch_refused hw phase ready sound (fun go => no (begins.mpr go)), quiet, gone, set, fun one => ?_, fun other => ?_⟩
      · have fault : launchFault (boardStateOf s w) = (codeEngineFault, swFault 1) := if_pos one
        rw [fault] at late_ ⊢
        exact late_
      · have fault : launchFault (boardStateOf s w) = (codeSweepCycle, 7) := if_neg other
        rw [fault] at late_ ⊢
        exact late_
    · obtain phase | tile | accepted | full := idle
      · exact exec_sweepLaunchToken_not hw (.inl phase)
      · exact exec_sweepLaunchToken_not hw (.inr (.inl tile))
      · exact exec_sweepLaunchToken_not hw (.inr (.inr accepted))
      · exact exec_sweepLaunchToken_full hw full
    · refine ⟨_, rebuildSlot s n w k [], { w with
          accepted := w.accepted ++ [k]
          phase := if w.tiles.all (fun p => (w.accepted ++ [k]).any (· == p)) then .running else .accepting },
        exec_sweepLaunchToken hw phase tile fresh hi free first, sweepAccepted_quiet .., sweepAccepted_slot .., ?_, ?_, ?_, released_fresh s n w k,
        fun j => counts_fresh s n w k, ?_, rfl, allAccepted_iff w k⟩
      · rw [rebuildSlot_fresh]
      · rw [rebuildSlot_fresh]
      · rw [rebuildSlot_fresh]; rfl
      · rw [sweepAccepted, State.moved_sweeps]; exact State.sweeps_setSweep ..
    · obtain ⟨t, run, over_, ctxs, lates⟩ := sweepEnd_over hw done
      exact ⟨t, run, over_, ctxs, lates k⟩
    · obtain ⟨t, run, over_, late_, halted⟩ := sweepPartition_over hw phase cut apart
      exact ⟨t, run, over_, late_, fun i m => halted k i m⟩

end Sys2Proof.Machine
end

section
/-!
The fault port (15 R384): a token that the dispatcher places joins the port's queue as its next token.
-/

namespace Sys2Proof.Machine

theorem State.sameCtxs.trans {s t u : State} (a : s.sameCtxs t) (b : t.sameCtxs u) : s.sameCtxs u := fun k m => by
  obtain ⟨⟨ka, va, ma, fa⟩, pa⟩ := a k m
  obtain ⟨⟨kb, vb, mb, fb⟩, pb⟩ := b k m
  exact ⟨⟨fun r => (kb r).trans (ka r), fun r => (vb r).trans (va r), fun r => (mb r).trans (ma r), fb.trans fa⟩, pb.trans pa⟩

/-- A state whose tiles have the contexts of another's. -/
theorem State.sameCtxs.of_ctx {s t : State} (h : ∀ k m, (t.tile k).ctx m = (s.tile k).ctx m) : s.sameCtxs t := fun k m => by
  rw [h]
  exact ⟨⟨fun _ => rfl, fun _ => rfl, fun _ => rfl, rfl⟩, rfl⟩

/-! A token in the slot of its SEQ. -/

/-- After a token stands in its slot, only what tokens under way change does (R40, R43, R48, R49). -/
theorem tokenStep_deliver (s : State) (k p n : Nat) (tok : Token) :
    TokenStep (s.updTile k fun t => t.placeToken p n tok) (deliver s k p n tok) := by
  unfold deliver
  dsimp only
  refine .trans ?_ (.moved ..)
  split <;> split
  · exact (TokenStep.countOpErr ..).trans (.discardInert ..)
  · exact TokenStep.discardInert ..
  · exact (TokenStep.countOpErr ..).trans (.drainPort ..)
  · exact TokenStep.drainPort ..

theorem sameCtxs_placeToken (s : State) (k p n : Nat) (tok : Token) : s.sameCtxs (s.updTile k fun t => t.placeToken p n tok) := fun q m => by
  rw [State.tile_updTile_apply]
  split
  case isTrue e => rw [e, placeToken_eq]; exact Tile.regs_writeTlm _ _ _ m
  case isFalse => exact ⟨⟨fun _ => rfl, fun _ => rfl, fun _ => rfl, rfl⟩, rfl⟩

theorem deliver_sameCtxs (s : State) (k p n : Nat) (tok : Token) : s.sameCtxs (deliver s k p n tok) :=
  (sameCtxs_placeToken s k p n tok).trans (tokenStep_deliver s k p n tok).sameCtxs

theorem resOf_deliver (s : State) (k p n : Nat) (tok : Token) (h : Nat) : (deliver s k p n tok).resOf h =
    { s.resOf h with err := ((deliver s k p n tok).resOf h).err, wdLast := ((deliver s k p n tok).resOf h).wdLast } :=
  (tokenStep_deliver s k p n tok).res h

/-- A token that a queue without a running drain takes (R40). -/
theorem placed_slot (s : State) (k p n : Nat) (tok : Token) :
    ((placed s k p n tok).tile k).port p =
      { (s.tile k).port p with q := AMap.set ((s.tile k).port p).q n (tokenSlot ((s.tile k).port p) p n tok) } := by
  rw [tile_placed, if_pos rfl, port_placeToken]

theorem number_lt_line {x : Port} (v : Line) : BitVec.ofNat 512 (v.toNat % 256 ^ (if x.line then 64 else 8)) =
    if x.line then v else (v.setWidth 64).setWidth 512 := by
  split
  · rw [show (256 : Nat) = 2 ^ 8 by rfl, ← Nat.pow_mul, Nat.mod_eq_of_lt v.isLt, BitVec.ofNat_toNat, BitVec.setWidth_eq]
  · rw [pow_word, ← BitVec.toNat_setWidth]
    exact BitVec.ofNat_toNat ..

/-- The payload that a port without XE8 blocks holds is the token's (R42). -/
theorem placed_plain (s : State) (k p n : Nat) (tok : Token) (plain : ((s.tile k).port p).fmt ≠ 14) :
    ((placed s k p n tok).tile k).payload (((placed s k p n tok).tile k).port p) n =
      if ((s.tile k).port p).line then tok.payload else (tok.payload.setWidth 64).setWidth 512 := by
  have same : ∀ q, Port.slotAddr { (s.tile k).port p with q := q } n = ((s.tile k).port p).slotAddr n := fun q => rfl
  rw [Tile.payload, placed_slot, same, Tile.readTlm_eq_number, placed_payload, portDecode_plain plain]
  exact number_lt_line _

/-! The queue's next token (R278, R384). -/

section
variable (s : State) (k p : Nat) (m : Token)

theorem joinQueue_sameCtxs : s.sameCtxs (joinQueue s k p m) :=
  (TokenStep.updTile s k (f := fun t => t.setPort p _) (tokenTile_setPort _ p _)).sameCtxs.trans (deliver_sameCtxs _ k p _ _)

theorem resOf_joinQueue (h : Nat) : (joinQueue s k p m).resOf h =
    { s.resOf h with err := ((joinQueue s k p m).resOf h).err, wdLast := ((joinQueue s k p m).resOf h).wdLast } := resOf_deliver ..

/-- What a token that joins a queue leaves at its port, as the obligation says it. -/
def Joined (x : Port) (u : Tile) (p : Nat) (kind : TokKind) (v : Line) : Prop :=
  let y := u.port p
  let j := max x.oseq x.h
  x.drain = .no → x.count ≠ 0 ∨ x.stream ≠ none → x.fmt ≠ 14 → y.oseq = j + 1 ∧ y.h = x.h ∧ (∃ z, AMap.get? y.q j = some z ∧ z.kind = kind) ∧
    u.payload y j = if x.line then v else (v.setWidth 64).setWidth 512

theorem joinQueue_joined : Joined ((s.tile k).port p) ((joinQueue s k p m).tile k) p m.kind m.payload := by
  intro drain active plain
  have at_ : ((s.updTile k fun t => t.setPort p { (s.tile k).port p with oseq := max ((s.tile k).port p).oseq ((s.tile k).port p).h + 1 }).tile k).port p =
      { (s.tile k).port p with oseq := max ((s.tile k).port p).oseq ((s.tile k).port p).h + 1 } := by
    rw [State.tile_updTile, Tile.port_setPort]
  have run : joinQueue s k p m = placed _ k p _ _ := deliver_placed (by rw [at_]; exact drain) (by rw [at_]; exact active)
  have slot := placed_slot (s.updTile k fun t => t.setPort p { (s.tile k).port p with oseq := max ((s.tile k).port p).oseq ((s.tile k).port p).h + 1 })
    k p (max ((s.tile k).port p).oseq ((s.tile k).port p).h) { m with seq := max ((s.tile k).port p).oseq ((s.tile k).port p).h, port := p }
  have pay := placed_plain (s.updTile k fun t => t.setPort p { (s.tile k).port p with oseq := max ((s.tile k).port p).oseq ((s.tile k).port p).h + 1 })
    k p (max ((s.tile k).port p).oseq ((s.tile k).port p).h) { m with seq := max ((s.tile k).port p).oseq ((s.tile k).port p).h, port := p }
    (by rw [at_]; exact plain)
  rw [at_] at slot pay
  have at' := (congrArg (fun u : State => (u.tile k).port p) run).trans slot
  change ((joinQueue s k p m).tile k).port p = _ at at'
  refine ⟨by rw [at'], by rw [at'], ⟨_, by rw [at']; exact AMap.get?_set_same .., ?_⟩, ?_⟩
  · exact congrArg (·.1) (portDecode_plain (x := { (s.tile k).port p with oseq := _ }) plain _)
  · exact (congrArg (fun u : State => (u.tile k).payload ((u.tile k).port p) _) run).trans pay

end

/-! The two events. -/

section
variable {h : Nat} {s : State}

theorem exec_faultToken_idle (none_ : (s.resOf h).image = none ∨ (s.resOf h).faultQ = [] ∨ (s.resOf h).state ≠ .running ∨ (s.resOf h).faultHold = true) :
    Idle (.faultToken h) s := by
  change execFaultToken h s = _
  unfold execFaultToken
  dsimp only
  split
  · rename_i ws w rest image queue
    have off : ¬((s.resOf h).state = .running ∧ (!(s.resOf h).faultHold) = true) := fun ⟨runs, free⟩ => by
      rcases none_ with e | e | e | e
      · rw [e] at image; cases image
      · rw [e] at queue; cases queue
      · exact e runs
      · rw [e] at free; cases free
    rw [if_neg off]
  · rfl

theorem exec_faultPortEos_over (e : (s.resOf h).faultQ ≠ [] ∨ (s.resOf h).faultEos = true) : Idle (.faultPortEos h) s := by
  change execFaultPortEos h s = _
  unfold execFaultPortEos
  dsimp only
  split
  · rename_i ws' g image' region
    have off : ¬((s.resOf h).state = .running ∧ (!(s.resOf h).faultHold) = true ∧ (!(s.resOf h).faultEos) = true ∧ (s.resOf h).faultQ = []) :=
      fun ⟨_, _, c, d⟩ => by
        rcases e with e | e
        · exact e d
        · rw [e] at c; cases c
    rw [if_neg off]
  · rfl

variable {ws : List Word} (image : (s.resOf h).image = some ws) (runs : (s.resOf h).state = .running) (free : (s.resOf h).faultHold = false) {k p : Nat} (port : faultPort s h ws = some (k, p))
include image runs free port

theorem exec_faultToken_full (full : ((s.tile k).port p).depth ≤ ((s.tile k).port p).q.length) : Idle (.faultToken h) s := by
  change execFaultToken h s = _
  cases queue : (s.resOf h).faultQ with
  | nil => simp only [execFaultToken, image, queue]
  | cons w rest =>
    simp only [execFaultToken, image, queue, runs, free, port, Bool.not_false, and_self, if_true, if_neg (Nat.not_lt.mpr full)]

theorem exec_faultToken (room : ¬((s.tile k).port p).depth ≤ ((s.tile k).port p).q.length) {w : Word} {rest : List Word}
    (queue : (s.resOf h).faultQ = w :: rest) : exec (.faultToken h) s =
      .next (joinQueue (s.updRes h fun r => { r with faultQ := rest }) k p (dispToken .data (w.setWidth 512) (s.resOf h).resid)) := by
  change execFaultToken h s = _
  simp only [execFaultToken, image, runs, free, port, queue, Bool.not_false, and_self, if_true, if_pos (Nat.lt_of_not_le room)]

/-- Whether nothing is left that feeds the fault port (R384). -/
def faultQuiet (s : State) (g : Region) (ws : List Word) (k p : Nat) : Prop :=
  othersEnded s g ws = true ∧ ∀ x ∈ (s.tile k).counted (fld (imgFault ws) 2 0), x.1 ≠ p →
    (x.2.state ((s.tile k).actor (fld (imgFault ws) 2 0)).roundA).1 = .ended

omit image runs free port in
theorem faultQuiet_iff (g : Region) : faultQuiet s g ws k p ↔
    (((s.tile k).counted (fld (imgFault ws) 2 0)).filter (fun x => x.1 != p)).all
        (fun x => decide ((x.2.state ((s.tile k).actor (fld (imgFault ws) 2 0)).roundA).1 = .ended)) = true ∧ othersEnded s g ws = true := by
  rw [faultQuiet, and_comm, List.all_eq_true]
  simp only [List.mem_filter, bne_iff_ne, decide_eq_true_eq, and_imp]

omit runs free in
theorem exec_faultPortEos_waits {g : Region} (region : (s.resOf h).region = some g)
    (wait : ¬faultQuiet s g ws k p ∨ ((s.tile k).port p).depth ≤ ((s.tile k).port p).q.length) : Idle (.faultPortEos h) s := by
  change execFaultPortEos h s = _
  simp only [execFaultPortEos, image, region]
  split
  · rename_i k' p' found
    split at found
    case isFalse => cases found
    case isTrue =>
    rw [port] at found
    cases found
    refine if_neg fun go => ?_
    obtain ⟨go, room⟩ := Bool.and_eq_true_iff.mp go
    rcases wait with w | w
    · exact w ((faultQuiet_iff g).mpr (Bool.and_eq_true_iff.mp go))
    · exact Nat.not_lt.mpr w (of_decide_eq_true room)
  · rfl

omit runs free in
theorem exec_faultPortEos_full (full : ((s.tile k).port p).depth ≤ ((s.tile k).port p).q.length) : Idle (.faultPortEos h) s := by
  cases region : (s.resOf h).region with
  | none => rw [faultPort, region] at port; cases port
  | some g => exact exec_faultPortEos_waits image port region (.inr full)

theorem exec_faultPortEos {g : Region} (region : (s.resOf h).region = some g) (room : ¬((s.tile k).port p).depth ≤ ((s.tile k).port p).q.length)
    (empty : (s.resOf h).faultQ = []) (eos : (s.resOf h).faultEos = false) (quiet : faultQuiet s g ws k p) : exec (.faultPortEos h) s =
      .next (joinQueue (s.updRes h fun r => { r with faultEos := true }) k p (dispToken .eos 0 (s.resOf h).resid)) := by
  have ready := Bool.and_eq_true_iff.mpr ⟨Bool.and_eq_true_iff.mpr ((faultQuiet_iff g).mp quiet), decide_eq_true (Nat.lt_of_not_le room)⟩
  change execFaultPortEos h s = _
  simp only [execFaultPortEos, image, region, runs, free, port, empty, eos, Bool.not_false, and_self, if_true]
  exact if_pos ready

theorem faultToken_placed (room : ¬((s.tile k).port p).depth ≤ ((s.tile k).port p).q.length) {w : Word} {rest : List Word}
    (queue : (s.resOf h).faultQ = w :: rest) : ∃ t, exec (.faultToken h) s = .next t ∧ s.sameCtxs t ∧ s.sameGmem t ∧
      (t.resOf h).faultQ = rest ∧ Joined ((s.tile k).port p) (t.tile k) p .data (w.setWidth 512) := by
  refine ⟨_, exec_faultToken image runs free port room queue, joinQueue_sameCtxs (s.updRes h _) k p _, fun a => ?_, ?_, joinQueue_joined (s.updRes h _) k p _⟩
  · rw [joinQueue_gmem]; rfl
  · rw [resOf_joinQueue, State.updRes, State.resOf_setRes]

theorem faultPortEos_placed {g : Region} (region : (s.resOf h).region = some g) (room : ¬((s.tile k).port p).depth ≤ ((s.tile k).port p).q.length)
    (empty : (s.resOf h).faultQ = []) (eos : (s.resOf h).faultEos = false) (quiet : faultQuiet s g ws k p) :
    ∃ t, exec (.faultPortEos h) s = .next t ∧ s.sameCtxs t ∧ s.sameGmem t ∧ (t.resOf h).faultEos = true ∧
      Joined ((s.tile k).port p) (t.tile k) p .eos 0 := by
  refine ⟨_, exec_faultPortEos image runs free port region room empty eos quiet, joinQueue_sameCtxs (s.updRes h _) k p _, fun a => ?_, ?_,
    joinQueue_joined (s.updRes h _) k p _⟩
  · rw [joinQueue_gmem]; rfl
  · rw [resOf_joinQueue, State.updRes, State.resOf_setRes]

end

end Sys2Proof.Machine
end

section
/-!
What a snapshot's holds leave (15 R371, R375): a helper that halts drains its vector queue and may trap; the ports keep their places and their
markers, a held actor stays held, and of a residency only its error record moves.
-/

namespace Sys2Proof.Machine

/-! Entries of a map. -/

theorem AMap.mem_of_get? {α : Type} {m : AMap α} {k : Nat} {v : α} (h : AMap.get? m k = some v) : (k, v) ∈ m := by
  induction m with
  | nil => cases h
  | cons x m ih =>
    simp only [AMap.get?] at h
    split at h
    case isTrue e => cases h; rw [← e]; exact List.mem_cons_self
    case isFalse => exact List.mem_cons_of_mem _ (ih h)

theorem AMap.mem_set {α : Type} {m : AMap α} {k : Nat} {v : α} {x : Nat × α} (h : x ∈ AMap.set m k v) : x = (k, v) ∨ x ∈ m := by
  induction m with
  | nil => exact .inl (List.mem_singleton.mp h)
  | cons y m ih =>
    simp only [AMap.set] at h
    split at h
    · rcases List.mem_cons.mp h with e | h
      · exact .inr (e ▸ List.mem_cons_self)
      · exact (ih h).imp_right (List.mem_cons_of_mem _)
    · split at h
      · exact (List.mem_cons.mp h).imp_right (List.mem_cons_of_mem _)
      · exact List.mem_cons.mp h

/-- With no key twice, every entry is the one that its key reads as. -/
theorem AMap.get?_of_mem {α : Type} {m : AMap α} (nodup : (m.map (·.1)).Nodup) {k : Nat} {v : α} (h : (k, v) ∈ m) : AMap.get? m k = some v := by
  induction m with
  | nil => cases h
  | cons x m ih =>
    obtain ⟨fresh, nodup⟩ := List.nodup_cons.mp nodup
    rcases List.mem_cons.mp h with e | h
    · rw [← e]; exact if_pos rfl
    · have ne : x.1 ≠ k := fun e => fresh (List.mem_map.mpr ⟨_, h, e.symm⟩)
      exact (if_neg ne).trans (ih nodup h)

/-- What one element of a list brings about where an invariant stands, and every later one keeps, stands at the end. -/
theorem foldl_reaches_of {σ α : Type} {step : σ → α → σ} {I P : σ → Prop} {l : List α} {x : α} (hx : x ∈ l) (inv : ∀ g, ∀ y ∈ l, I g → I (step g y))
    (made : ∀ g, I g → P (step g x)) (keep : ∀ g, ∀ y ∈ l, I g → P g → P (step g y)) {g : σ} (start : I g) : P (l.foldl step g) := by
  induction l generalizing g with
  | nil => cases hx
  | cons y l ih =>
    have later : ∀ z, z ∈ l → z ∈ y :: l := fun z => List.mem_cons_of_mem y
    rcases List.mem_cons.mp hx with rfl | hx
    · exact (List.foldlRecOn (motive := fun g => I g ∧ P g) l step ⟨inv g _ List.mem_cons_self start, made g start⟩
        fun g ⟨i, p⟩ y hy => ⟨inv g y (later y hy) i, keep g y (later y hy) i p⟩).2
    · exact ih hx (fun g z hz => inv g z (later z hz)) (fun g z hz => keep g z (later z hz)) (inv g y List.mem_cons_self start)

/-! What a hold keeps of a tile. -/

/-- The fields of a port that say which marker it takes. -/
structure Port.Fixed (x y : Port) : Prop where
  oseq : y.oseq = x.oseq
  h : y.h = x.h
  declared : y.declared = x.declared
  output : y.output = x.output
  ordered : y.ordered = x.ordered

theorem Port.Fixed.refl (x : Port) : Port.Fixed x x := ⟨rfl, rfl, rfl, rfl, rfl⟩

theorem Port.Fixed.trans {x y z : Port} (a : Port.Fixed x y) (b : Port.Fixed y z) : Port.Fixed x z :=
  ⟨b.oseq.trans a.oseq, b.h.trans a.h, b.declared.trans a.declared, b.output.trans a.output, b.ordered.trans a.ordered⟩

/-- Every entry of a port stands for one of before. -/
def PortsKept (m n : AMap Port) : Prop :=
  ∀ p w, AMap.get? m p = some w → (∀ x, (p, x) ∈ n → ∃ y, (p, y) ∈ m ∧ Port.Fixed y x) ∧ ∃ x, AMap.get? n p = some x

theorem PortsKept.refl (m : AMap Port) : PortsKept m m := fun _ w h => ⟨fun x hx => ⟨x, hx, .refl x⟩, w, h⟩

theorem PortsKept.trans {m n l : AMap Port} (a : PortsKept m n) (b : PortsKept n l) : PortsKept m l := fun p w h => by
  obtain ⟨old, w', now⟩ := a p w h
  obtain ⟨old', w'', now'⟩ := b p w' now
  refine ⟨fun x hx => ?_, w'', now'⟩
  obtain ⟨y, hy, fy⟩ := old' x hx
  obtain ⟨z, hz, fz⟩ := old y hy
  exact ⟨z, hz, fz.trans fy⟩

theorem portsKept_setPort (t : Tile) (p : Nat) {x : Port} (same : Port.Fixed (t.port p) x) : PortsKept t.slot.ports (t.setPort p x).slot.ports := by
  intro q w h
  rw [Tile.slot_setPort]
  refine ⟨fun y hy => ?_, ?_⟩
  · rcases AMap.mem_set hy with e | old
    · cases e
      refine ⟨w, AMap.mem_of_get? h, ?_⟩
      rw [Tile.port, AMap.getD_of_get? h] at same
      exact same
    · exact ⟨y, old, .refl y⟩
  · rw [AMap.get?_set]
    split
    · exact ⟨x, rfl⟩
    · exact ⟨w, h⟩

/-- What a hold leaves of a tile. -/
structure HoldTile (t u : Tile) : Prop where
  ports : PortsKept t.slot.ports u.slot.ports
  marker : ∀ p w, AMap.get? t.slot.ports p = some w → ∃ x, AMap.get? u.slot.ports p = some x ∧ x.marker = w.marker
  held : ∀ a, (t.actor a).held = true → (u.actor a).held = true

theorem HoldTile.of_slot {t u : Tile} (h : u.slot = t.slot) : HoldTile t u := by
  refine ⟨by rw [h]; exact .refl _, fun p w g => ⟨w, by rw [h]; exact g, rfl⟩, fun a g => ?_⟩
  rw [Tile.actor, h]; exact g

theorem HoldTile.refl (t : Tile) : HoldTile t t := .of_slot rfl

theorem HoldTile.trans {t u v : Tile} (a : HoldTile t u) (b : HoldTile u v) : HoldTile t v := by
  refine ⟨a.ports.trans b.ports, fun p w h => ?_, fun i h => b.held i (a.held i h)⟩
  obtain ⟨x, hx, mx⟩ := a.marker p w h
  obtain ⟨y, hy, my⟩ := b.marker p x hx
  exact ⟨y, hy, my.trans mx⟩

theorem holdTile_setPort (t : Tile) (p : Nat) {x : Port} (same : Port.Fixed (t.port p) x) (mark : x.marker = (t.port p).marker) :
    HoldTile t (t.setPort p x) := by
  refine ⟨portsKept_setPort t p same, fun q w h => ?_, fun a h => ?_⟩
  · rw [Tile.slot_setPort, AMap.get?_set]
    split
    case isTrue e =>
      rw [e] at h
      exact ⟨x, rfl, by rw [mark, Tile.port, AMap.getD_of_get? h]⟩
    case isFalse => exact ⟨w, h, rfl⟩
  · rw [Tile.actor, Tile.slot_setPort]; exact h

theorem holdTile_setActor (t : Tile) (a : Nat) {x : Actor} (held : (t.actor a).held = true → x.held = true) : HoldTile t (t.setActor a x) := by
  refine ⟨by rw [Tile.slot_setActor]; exact .refl _, fun q w h => ⟨w, by rw [Tile.slot_setActor]; exact h, rfl⟩, fun b h => ?_⟩
  by_cases e : a = b
  · subst e; rw [Tile.actor_setActor]; exact held h
  · rw [Tile.actor_setActor_other _ _ e]; exact h

theorem holdTile_setOper (t : Tile) (n : Nat) (x : Oper) : HoldTile t (t.setOper n x) := by
  refine ⟨by rw [Tile.slot_setOper]; exact .refl _, fun q w h => ⟨w, by rw [Tile.slot_setOper]; exact h, rfl⟩, fun a h => ?_⟩
  rw [Tile.actor, Tile.slot_setOper]; exact h

/-! What a hold keeps of the state. -/

/-- Tiles, channels and error records may have changed. -/
structure SnapFrame (s t : State) : Prop where
  res : ∀ h, t.resOf h = { s.resOf h with err := (t.resOf h).err }
  others : t = { s with tiles := t.tiles, chans := t.chans, res := t.res }

namespace SnapFrame

theorem refl (s : State) : SnapFrame s s := ⟨fun _ => rfl, rfl⟩

theorem trans {s t u : State} (a : SnapFrame s t) (b : SnapFrame t u) : SnapFrame s u :=
  ⟨fun h => by rw [b.res h, a.res h], by rw [b.others, a.others]⟩

theorem foldl {α : Type} {step : State → α → State} (one : ∀ (s : State) y, SnapFrame s (step s y)) (l : List α) (s : State) :
    SnapFrame s (l.foldl step s) := by
  induction l generalizing s with
  | nil => exact refl s
  | cons y l ih => exact (one s y).trans (ih _)

theorem setTile (s : State) (k : Nat) (t : Tile) : SnapFrame s (s.setTile k t) := ⟨fun _ => rfl, rfl⟩

theorem updTile (s : State) (k : Nat) (f : Tile → Tile) : SnapFrame s (s.updTile k f) := setTile ..

section
variable {s t : State} (h : SnapFrame s t)
include h

theorem gmem : t.gmem = s.gmem := by rw [h.others]

theorem resTiles (n : Nat) : t.resTiles n = s.resTiles n := by
  have region : (t.resOf n).region = (s.resOf n).region := by rw [h.res]
  unfold State.resTiles
  rw [region, h.others]
  rfl

end

end SnapFrame

/-- A step of holding. -/
structure HoldStep (s t : State) : Prop extends SnapFrame s t where
  tiles : ∀ k, HoldTile (s.tile k) (t.tile k)

namespace HoldStep

theorem refl (s : State) : HoldStep s s := ⟨.refl s, fun _ => .refl _⟩

theorem trans {s t u : State} (a : HoldStep s t) (b : HoldStep t u) : HoldStep s u :=
  ⟨a.toSnapFrame.trans b.toSnapFrame, fun k => (a.tiles k).trans (b.tiles k)⟩

theorem foldl {α : Type} {step : State → α → State} (one : ∀ (s : State) y, HoldStep s (step s y)) (l : List α) (s : State) :
    HoldStep s (l.foldl step s) := by
  induction l generalizing s with
  | nil => exact refl s
  | cons y l ih => exact (one s y).trans (ih _)

theorem setTile (s : State) (k : Nat) {t : Tile} (h : HoldTile (s.tile k) t) : HoldStep s (s.setTile k t) := by
  refine ⟨.setTile .., fun q => ?_⟩
  rw [State.tile_setTile_apply]
  split
  case isTrue e => rw [e]; exact h
  case isFalse => exact .refl _

theorem updTile (s : State) (k : Nat) {f : Tile → Tile} (h : HoldTile (s.tile k) (f (s.tile k))) : HoldStep s (s.updTile k f) := setTile s k h

theorem updSlot (s : State) (k : Nat) {f : Tile → Tile} (h : (f (s.tile k)).slot = (s.tile k).slot) : HoldStep s (s.updTile k f) :=
  setTile s k (.of_slot h)

theorem setChan (s : State) (n : Nat) (c : Chan) : HoldStep s (s.setChan n c) := ⟨⟨fun _ => rfl, rfl⟩, fun _ => .refl _⟩

theorem updErr (s : State) (h : Nat) (f : ErrRec → ErrRec) : HoldStep s (s.updErr h f) := by
  refine ⟨⟨fun m => ?_, rfl⟩, fun _ => .refl _⟩
  by_cases e : h = m
  · rw [← e]
    have at_ : (s.updErr h f).resOf h = { s.resOf h with err := f (s.resOf h).err } := by rw [State.updErr, State.updRes, State.resOf_setRes]
    rw [at_]
  · rw [State.resOf, State.updErr, State.updRes, State.setRes, AMap.getD_set_other _ _ _ e]; rfl

end HoldStep

/-! Vector queues. -/

theorem Tile.slot_setCtx (t : Tile) (n : Nat) (c : Ctx) : (t.setCtx n c).slot = t.slot := rfl

theorem Tile.slot_setSlotCtx (t : Tile) (n : Nat) (c : Ctx) : (t.setSlotCtx n c).slot = t.slot := by
  unfold Tile.setSlotCtx
  split
  · rfl
  · split <;> rfl

theorem Tile.slot_touchRead (t : Tile) (a n : Nat) : (t.touchRead a n).slot = t.slot := by rw [Tile.touchRead_eq]; rfl

theorem slot_vmLoadOne (t : Tile) (e : VqEntry) (p : Nat × Nat × Nat) : (vmLoadOne t e p).1.slot = t.slot := Tile.slot_touchRead ..

theorem slot_vmStoreOne (t : Tile) (c : Ctx) (e : VqEntry) (f : VW) (w : Nat) (p : Nat × Nat × Nat) : (vmStoreOne t c e f w p).1.slot = t.slot := by
  unfold vmStoreOne
  dsimp only
  split
  · split
    · exact Tile.slot_touchRead ..
    · exact (Tile.slot_writeTlm ..).trans (Tile.slot_touchRead ..)
  · split
    · exact Tile.slot_writeTlm ..
    · exact Tile.slot_writeTlm t _ _

theorem Tile.slot_vmStep (t : Tile) (n : Nat) : (t.vmStep n).slot = t.slot := by
  unfold Tile.vmStep
  dsimp only
  split
  · rfl
  · split
    · rw [Tile.slot_setSlotCtx]
      split
      · exact slot_vmStoreOne ..
      · exact slot_vmLoadOne ..
    · rfl

theorem Tile.slot_vmSteps (t : Tile) (n k : Nat) : (t.vmSteps n k).slot = t.slot := by
  induction k generalizing t with
  | zero => rfl
  | succ k ih => exact (ih _).trans (t.slot_vmStep n)

namespace HoldStep

theorem injectOrdered (s : State) (k p : Nat) (kind : TokKind) (v : Line) (st : BitVec 16) : HoldStep s (injectOrdered s k p kind v st) := by
  refine setTile s k (.trans (u := (s.tile k).setPort p _) (holdTile_setPort _ p (x := _) ?_ ?_) (.of_slot rfl))
  · exact ⟨rfl, rfl, rfl, rfl, rfl⟩
  · rfl

theorem injectBooked (k p n : Nat) (s : State) : HoldStep s (State.injectBooked k p n s) := by
  induction n generalizing s with
  | zero => exact refl s
  | succ n ih =>
    unfold State.injectBooked
    split
    · refine .trans (updTile s k (holdTile_setPort _ p ?_ ?_)) ((injectOrdered ..).trans (ih _))
      · exact ⟨rfl, rfl, rfl, rfl, rfl⟩
      · rfl
    · exact refl s

theorem fillPort (s : State) (k p n : Nat) (kind : TokKind) (v : Line) : HoldStep s (s.fillPort k p n kind v) := by
  unfold State.fillPort
  dsimp only
  split
  · unfold State.fillBooked
    refine .trans (updTile s k (holdTile_setPort _ p ?_ ?_)) (injectBooked ..)
    · exact ⟨rfl, rfl, rfl, rfl, rfl⟩
    · rfl
  · split
    · exact refl s
    · split
      · exact refl s
      · exact setChan ..

/-- A context and the operations without it: its tile's active slot stays (R159, R174). -/
theorem setSlotCtx (s : State) (k n : Nat) {t : Tile} (h : t.slot = (s.tile k).slot) (c : Ctx) : HoldStep s (s.setTile k (t.setSlotCtx n c)) :=
  setTile s k (.of_slot ((Tile.slot_setSlotCtx ..).trans h))

theorem vecRetire (s : State) (k n : Nat) : HoldStep s (vecRetire s k n) := by
  unfold Machine.vecRetire
  dsimp only
  split
  · exact refl s
  rename_i e rest queue
  have slot : (match e.group with
      | some g => { s.tile k with groups := AMap.erase (s.tile k).groups g }
      | none => s.tile k : Tile).slot = (s.tile k).slot := by split <;> rfl
  split
  · exact setSlotCtx s k n slot _
  · exact setSlotCtx s k n slot _
  · exact setSlotCtx s k n slot _
  · exact setSlotCtx s k n slot _
  · split
    · split
      · exact (setSlotCtx s k n slot _).trans (fillPort ..)
      · exact (setSlotCtx s k n slot _).trans (fillPort ..)
    · exact setSlotCtx s k n slot _

theorem vecFinish (s : State) (k n : Nat) : HoldStep s (vecFinish s k n) := (updSlot s k (Tile.slot_vmSteps ..)).trans (vecRetire ..)

theorem vecFinishN (s : State) (k n m : Nat) : HoldStep s (vecFinishN s k n m) := by
  induction m generalizing s with
  | zero => exact refl s
  | succ m ih => exact (vecFinish s k n).trans (ih _)

theorem vecDrain (s : State) (k n : Nat) : HoldStep s (vecDrain s k n) := by
  unfold Machine.vecDrain
  dsimp only
  split
  · exact (vecFinishN ..).trans (updSlot _ k (Tile.slot_setSlotCtx ..))
  · exact vecFinishN ..

/-! Halts. -/

theorem noteTrap (s : State) (k n : Nat) (code : Byte) (pc val : Word) : HoldStep s (s.noteTrap k n code pc val) := by
  unfold State.noteTrap State.recordTrap
  split
  · exact refl s
  · dsimp only
    split
    · exact refl s
    · exact updErr ..

theorem helperTrap (s : State) (k n : Nat) (code : Byte) (val : Word) (pc : Addr) (late : Bool) : HoldStep s (helperTrap s k n code val pc late) := by
  refine .trans (setTile s k (.of_slot ?_)) (noteTrap ..)
  rw [Tile.enterMonitor_eq]; rfl

theorem takeLate {s u : State} {k n : Nat} (hn : n ≠ 0) (h : takeLate s k n = some u) : HoldStep s u := by
  unfold Machine.takeLate at h
  dsimp only at h
  split at h
  · cases h
  · cases h
    rw [trapInto, if_neg hn]
    exact (updSlot s k rfl).trans (helperTrap ..)

theorem haltHelper (s : State) (k : Nat) {n : Nat} (hn : n ≠ 0) : HoldStep s (haltHelper s k n) := by
  unfold Machine.haltHelper
  dsimp only
  split
  · split
    case h_1 u late => exact (vecDrain ..).trans (takeLate hn late)
    case h_2 => exact (vecDrain ..).trans (updSlot _ k rfl)
  · exact refl s

theorem haltHeld (s : State) (k : Nat) {n : Nat} (hn : n ≠ 0) : HoldStep s (haltHeld s k n) := by
  unfold Machine.haltHeld
  split
  · exact haltHelper s k hn
  · exact refl s

theorem haltTile (s : State) (k : Nat) : HoldStep s (haltTile s k) := foldl (fun s i => haltHeld s k (Nat.succ_ne_zero i)) ..

theorem haltActor (s : State) (k a : Nat) : HoldStep s (haltActor s k a) := foldl haltTile ..

theorem preemptHalt (s : State) (k : Nat) : HoldStep s (preemptHalt s k) := by
  unfold Machine.preemptHalt
  split
  · exact refl s
  · dsimp only
    rw [List.foldl_map]
    exact (updSlot s k rfl).trans (foldl (fun s i => haltHelper s k (Nat.succ_ne_zero i)) ..)

theorem holdActor (s : State) (k a : Nat) : HoldStep s (holdActor s k a) := by
  unfold Machine.holdActor
  split
  · exact refl s
  · exact .trans (updTile s k (holdTile_setActor _ a fun _ => rfl)) (haltActor ..)

theorem holdOper (s : State) (k o : Nat) : HoldStep s (holdOper s k o) := by
  refine updTile s k ?_
  split
  · exact holdTile_setOper ..
  · exact .refl _

end HoldStep

theorem held_holdActor (s : State) (k a : Nat) : (((holdActor s k a).tile k).actor a).held = true := by
  unfold holdActor
  split
  case isTrue h => exact h
  case isFalse =>
    refine ((HoldStep.haltActor _ k a).tiles k).held a ?_
    rw [State.tile_updTile, Tile.actor_setActor]

end Sys2Proof.Machine
end

section
/-!
SNAP (15 R374 to R376): a snapshot begins with the markers of the inputs that no channel ends at, and a SNAP that arrives is held in the
marker cell of its input.
-/

namespace Sys2Proof.Machine

/-! A snapshot begins. -/

theorem SnapFrame.markPort (s : State) (k p : Nat) (m : Nat × Nat) : SnapFrame s (markPort s k p m) := by
  unfold Machine.markPort
  dsimp only
  split
  · exact .updTile ..
  · exact (SnapFrame.updTile ..).trans (HoldStep.holdActor ..).toSnapFrame

theorem HoldStep.holdUnreached (s : State) (g : Region) (es : List IEdge) : HoldStep s (holdUnreached s g es) := by
  refine foldl (fun s n => ?_) ..
  split
  · exact refl s
  · split
    · exact holdActor ..
    · exact holdOper ..
    · exact refl s

/-- The port at which a marker is placed holds it, also when the node's helpers have halted. -/
theorem markPort_mark (s : State) (k p : Nat) (m : Nat × Nat) :
    ∃ x, AMap.get? ((markPort s k p m).tile k).slot.ports p = some x ∧ x.marker = some m := by
  have set : AMap.get? ((s.updTile k fun t => t.setPort p { (s.tile k).port p with marker := some m }).tile k).slot.ports p =
      some { (s.tile k).port p with marker := some m } := by
    rw [State.tile_updTile, Tile.slot_setPort]; exact AMap.get?_set_same ..
  unfold markPort
  dsimp only
  split
  · exact ⟨_, set, rfl⟩
  · exact ((HoldStep.holdActor _ k _).tiles k).marker p _ set

/-- The entries of the ports of a tile stand for those of before, whichever port takes a marker. -/
theorem portsKept_markPort (s : State) (k p : Nat) (m : Nat × Nat) (q : Nat) :
    PortsKept (s.tile q).slot.ports ((markPort s k p m).tile q).slot.ports := by
  have set : PortsKept (s.tile q).slot.ports ((s.updTile k fun t => t.setPort p { (s.tile k).port p with marker := some m }).tile q).slot.ports := by
    rw [State.tile_updTile_apply]
    split
    case isTrue e => rw [e]; exact portsKept_setPort _ p ⟨rfl, rfl, rfl, rfl, rfl⟩
    case isFalse => exact .refl _
  unfold markPort
  dsimp only
  split
  · exact set
  · exact set.trans ((HoldStep.holdActor ..).tiles q).ports

section
variable (k p : Nat) (m : Nat × Nat)

/-- A port holds a marker. -/
def MarkedAt (s : State) : Prop := ∃ x, AMap.get? (s.tile k).slot.ports p = some x ∧ x.marker = some m

theorem MarkedAt.hold {k p : Nat} {m : Nat × Nat} {s t : State} (h : MarkedAt k p m s) (step : HoldStep s t) : MarkedAt k p m t := by
  obtain ⟨x, hx, mark⟩ := h
  obtain ⟨y, hy, same⟩ := (step.tiles k).marker p x hx
  exact ⟨y, hy, same.trans mark⟩

/-- Another marker, or the same one again, leaves it. -/
theorem MarkedAt.markPort {k p : Nat} {m : Nat × Nat} {s : State} (h : MarkedAt k p m s) (k' p' : Nat) (m' : Nat × Nat)
    (same : k' = k → p' = p → m' = m) : MarkedAt k p m (markPort s k' p' m') := by
  by_cases e : k' = k ∧ p' = p
  · obtain ⟨rfl, rfl⟩ := e
    rw [same rfl rfl]
    exact markPort_mark ..
  · have set : MarkedAt k p m (s.updTile k' fun t => t.setPort p' { (s.tile k').port p' with marker := some m' }) := by
      obtain ⟨x, hx, mark⟩ := h
      refine ⟨x, ?_, mark⟩
      rw [State.tile_updTile_apply]
      split
      case isTrue tile =>
        rw [Tile.slot_setPort, AMap.get?_set_other _ _ fun port => e ⟨tile.symm, port⟩, ← tile]
        exact hx
      case isFalse => exact hx
    unfold Machine.markPort
    dsimp only
    split
    · exact set
    · exact set.hold (HoldStep.holdActor ..)

end

/-- The entries of every tile's ports stand for those of a state before. -/
def PortsOf (s t : State) : Prop := ∀ k, PortsKept (s.tile k).slot.ports (t.tile k).slot.ports

theorem PortsOf.markPort {s t : State} (h : PortsOf s t) (k p : Nat) (m : Nat × Nat) : PortsOf s (markPort t k p m) :=
  fun q => (h q).trans (portsKept_markPort t k p m q)

/-- The ordered inputs of a tile take their markers. -/
def markOrdered (s : State) (k : Nat) : State :=
  ((s.tile k).slot.ports.filter fun p => p.2.declared && !p.2.output && p.2.ordered).foldl (fun s p => markPort s k p.1 (max p.2.oseq p.2.h, 0)) s

theorem portsOf_markOrdered {s t : State} (h : PortsOf s t) (k : Nat) : PortsOf s (markOrdered t k) :=
  List.foldlRecOn (motive := PortsOf s) _ _ h fun _ h p _ => h.markPort k p.1 _

theorem markOthers_eq (s : State) (h : Nat) (ws : List Word) : markOthers s h ws =
    let u := (s.resTiles h).foldl markOrdered s
    (faultPort u h ws).elim u fun x => markPort u x.1 x.2 (max ((u.tile x.1).port x.2).oseq ((u.tile x.1).port x.2).h, 0) := by
  unfold markOthers markOrdered
  dsimp only
  cases faultPort _ h ws <;> rfl

theorem SnapFrame.markOthers (s : State) (h : Nat) (ws : List Word) : SnapFrame s (markOthers s h ws) := by
  have ordered := foldl (step := markOrdered) (fun s k => foldl (fun s (p : Nat × Port) => markPort s k p.1 (max p.2.oseq p.2.h, 0)) _ s) (s.resTiles h) s
  rw [markOthers_eq]
  dsimp only
  cases faultPort _ h ws with
  | none => exact ordered
  | some x => exact ordered.trans (markPort ..)

section
variable {s : State} {k p : Nat} {w : Port} (nodup : ((s.tile k).slot.ports.map (·.1)).Nodup) (port : AMap.get? (s.tile k).slot.ports p = some w)
include nodup port

/-- Every entry of a port says where its queue stands as the one of the state before did. -/
theorem PortsOf.place {g : State} (h : PortsOf s g) {x : Port} (hx : (p, x) ∈ (g.tile k).slot.ports) : Port.Fixed w x := by
  obtain ⟨y, hy, same⟩ := (h k p w port).1 x hx
  have e : some w = some y := port.symm.trans (AMap.get?_of_mem nodup hy)
  cases e
  exact same

/-- The markers of a tile's ordered inputs leave a port's marker at the place where its queue stands. -/
theorem markedAt_markOrdered_keeps {g : State} (h : PortsOf s g) (q : Nat) (mark : MarkedAt k p (max w.oseq w.h, 0) g) :
    MarkedAt k p (max w.oseq w.h, 0) (markOrdered g q) := by
  refine List.foldlRecOn (motive := MarkedAt k p (max w.oseq w.h, 0)) _ _ mark fun u mark x hx => mark.markPort q x.1 _ fun tile same => ?_
  subst tile
  have entry := (List.mem_filter.mp hx).1
  rw [← Prod.mk.eta (p := x), same] at entry
  obtain ⟨oseq, h, -⟩ := PortsOf.place nodup port h entry
  rw [oseq, h]

theorem markedAt_markOrdered (declared : w.declared = true) (input : w.output = false) (ordered : w.ordered = true) {g : State} (h : PortsOf s g) :
    MarkedAt k p (max w.oseq w.h, 0) (markOrdered g k) := by
  obtain ⟨x, hx⟩ := (h k p w port).2
  have same := PortsOf.place nodup port h (AMap.mem_of_get? hx)
  have marks : (p, x) ∈ (g.tile k).slot.ports.filter fun p => p.2.declared && !p.2.output && p.2.ordered :=
    List.mem_filter.mpr ⟨AMap.mem_of_get? hx, by rw [same.declared, same.output, same.ordered, declared, input, ordered]; rfl⟩
  refine foldl_reaches_of (I := fun _ => True) marks (fun _ _ _ _ => trivial) (fun u _ => ?_) (fun u y hy _ mark => ?_) trivial
  · rw [same.oseq, same.h]; exact markPort_mark ..
  · refine mark.markPort k y.1 _ fun _ e => ?_
    have entry := (List.mem_filter.mp hy).1
    rw [← Prod.mk.eta (p := y), e] at entry
    obtain ⟨oseq, h, -⟩ := PortsOf.place nodup port h entry
    rw [oseq, h]

theorem markedAt_markOthers (declared : w.declared = true) (input : w.output = false) (ordered : w.ordered = true) {g : State} (h : PortsOf s g)
    {n : Nat} (tile : k ∈ g.resTiles n) (ws : List Word) : MarkedAt k p (max w.oseq w.h, 0) (markOthers g n ws) := by
  have marked : MarkedAt k p (max w.oseq w.h, 0) ((g.resTiles n).foldl markOrdered g) :=
    foldl_reaches_of (I := PortsOf s) tile (fun u q _ hu => portsOf_markOrdered hu q)
      (fun u hu => markedAt_markOrdered nodup port declared input ordered hu) (fun u q _ hu => markedAt_markOrdered_keeps nodup port hu q) h
  have kept : PortsOf s ((g.resTiles n).foldl markOrdered g) :=
    List.foldlRecOn (motive := PortsOf s) _ _ h fun u hu q _ => portsOf_markOrdered hu q
  rw [markOthers_eq]
  dsimp only
  cases faultPort _ n ws with
  | none => exact marked
  | some x =>
    refine marked.markPort x.1 x.2 _ fun t q => ?_
    obtain ⟨y, hy⟩ := (kept k p w port).2
    obtain ⟨oseq, h, -⟩ := PortsOf.place nodup port kept (AMap.mem_of_get? hy)
    rw [t, q, Tile.port, AMap.getD_of_get? hy, oseq, h]

end

section
variable {h : Nat} {s : State}

theorem exec_snapCmd_not (not : ¬((s.resOf h).state = .running ∧ (s.resOf h).snapping = false)) : Idle (.snapCmd h) s := by
  refine if_pos ?_
  by_cases e : (s.resOf h).state = .running
  · exact .inr (Bool.not_eq_false _ ▸ fun f => not ⟨e, f⟩)
  · exact .inl e

variable (may : (s.resOf h).state = .running ∧ (s.resOf h).snapping = false)
include may

theorem exec_snapCmd_waits (moving : (s.resOf h).moving ≠ none) :
    exec (.snapCmd h) s = .next (s.updRes h fun r => { r with snapDue := true }) := by
  change execSnapCmd h s = _
  rw [execSnapCmd, if_neg (by rw [may.1, may.2]; simp), if_pos (Option.isSome_iff_ne_none.mpr moving)]

theorem exec_snapCmd (still : (s.resOf h).moving = none) : exec (.snapCmd h) s = .next (snapBegin s h) := by
  change execSnapCmd h s = _
  rw [execSnapCmd, if_neg (by rw [may.1, may.2]; simp), if_neg (by rw [still]; simp)]

theorem exec_snapCmd_nowhere (still : (s.resOf h).moving = none) (none_ : (s.resOf h).image = none ∨ (s.resOf h).region = none) :
    Idle (.snapCmd h) s := by
  refine (exec_snapCmd may still).trans ?_
  rw [snapBegin]
  split
  case h_1 ws g image region => rcases none_ with e | e <;> simp [e] at image region
  case h_2 => rfl

/-- A snapshot begins: the residency's sources stop, and its ordered inputs hold their markers (R374, R376). -/
theorem snapCmd_begins (still : (s.resOf h).moving = none) (image : (s.resOf h).image ≠ none) (region : (s.resOf h).region ≠ none) :
    ∃ t, exec (.snapCmd h) s = .next t ∧ (t.resOf h).snapping = true ∧ (t.resOf h).snapDue = false ∧ (t.resOf h).faultHold = true ∧
      (t.resOf h).state = .running ∧ s.sameGmem t ∧ ∀ k ∈ s.resTiles h, ∀ p w, ((s.tile k).slot.ports.map (·.1)).Nodup →
        AMap.get? (s.tile k).slot.ports p = some w → w.declared = true → w.output = false → w.ordered = true →
        ((t.tile k).port p).marker = some (max w.oseq w.h, 0) := by
  obtain ⟨ws, image⟩ := Option.ne_none_iff_exists'.mp image
  obtain ⟨g, region⟩ := Option.ne_none_iff_exists'.mp region
  set s1 := s.updRes h fun r => { r with snapping := true, snapDue := false, faultHold := true } with hs1
  have res1 : s1.resOf h = { s.resOf h with snapping := true, snapDue := false, faultHold := true } := by
    rw [hs1, State.updRes, State.resOf_setRes]
  have begins : snapBegin s h = (roleSlots ws).foldl (fun s n => holdUnreached s g (slotEdges (imgRecs ws) n)) (markOthers s1 h ws) := by
    simp only [snapBegin, image, region, hs1]
  have holds : HoldStep (markOthers s1 h ws) (snapBegin s h) := begins ▸ .foldl (fun s n => .holdUnreached ..) ..
  have frame := (SnapFrame.markOthers s1 h ws).trans holds.toSnapFrame
  have res := frame.res h
  rw [res1] at res
  refine ⟨_, exec_snapCmd may still, by rw [res], by rw [res], by rw [res], by rw [res]; exact may.1, fun a => ?_, ?_⟩
  · rw [frame.gmem]; rfl
  · intro k tile p w nodup port declared input ordered
    have tile1 : k ∈ s1.resTiles h := by
      have region1 : (s1.resOf h).region = (s.resOf h).region := by rw [res1]
      rw [State.resTiles, region1]; exact tile
    obtain ⟨x, hx, mark⟩ := (markedAt_markOthers (s := s) nodup port declared input ordered (g := s1) (fun q => PortsKept.refl _) tile1 ws).hold holds
    rw [Tile.port, AMap.getD_of_get? hx]; exact mark

end

/-! A SNAP arrives. -/

theorem exec_snapArrival_unknown {id n : Nat} {s : State} (hc : s.chan? id = none) : Idle (.snapArrival id n) s := by
  change execSnapArrival id n s = _
  simp only [execSnapArrival, hc]

/-- The effect of a SNAP at the end of its branch (R375, R376). -/
def snapAt (s : State) (id n : Nat) (m : Nat × Nat) : End → State
  | .port k p | .stream k p => if ((s.tile k).port p).marker.isSome then s else markPort s k p m
  | .oper k i e => markOper s k i e m
  | .fabric _ _ => markBranch s id n m
  | _ => s

section
variable {s : State} {id n : Nat} {c : Chan} (hc : s.chan? id = some c) {b : Branch} (hb : c.branches[n]? = some b)
include hc hb

/-- Whether a SNAP goes out on a branch, and every token below it has arrived (R375). -/
def snapGoes (s : State) (id n : Nat) (c : Chan) (b : Branch) : Prop :=
  (s.resOf c.handle).snapping = true ∧ snapOut s id c = true ∧ b.flights = [] ∧ c.forkQ = [] ∧ endLive s id n b.dst = true

theorem exec_snapArrival_eq : exec (.snapArrival id n) s =
    .next (if (s.resOf c.handle).snapping && snapOut s id c && b.flights.isEmpty && c.forkQ.isEmpty && endLive s id n b.dst
      then snapAt s id n (c.seq + b.base, snapPayload c) b.dst else s) := by
  change execSnapArrival id n s = _
  simp only [execSnapArrival, hc, hb]
  split
  · cases b.dst <;> rfl
  · rfl

omit hc hb in
theorem snapGoes_iff : snapGoes s id n c b ↔
    ((s.resOf c.handle).snapping && snapOut s id c && b.flights.isEmpty && c.forkQ.isEmpty && endLive s id n b.dst) = true := by
  simp only [snapGoes, Bool.and_eq_true, List.isEmpty_iff, and_assoc]

theorem exec_snapArrival_not (not : ¬snapGoes s id n c b) : Idle (.snapArrival id n) s := by
  refine (exec_snapArrival_eq hc hb).trans ?_
  rw [if_neg (mt snapGoes_iff.mpr not)]

theorem exec_snapArrival (go : snapGoes s id n c b) :
    exec (.snapArrival id n) s = .next (snapAt s id n (c.seq + b.base, snapPayload c) b.dst) := by
  rw [exec_snapArrival_eq hc hb, if_pos (snapGoes_iff.mp go)]

theorem snapArrival_host {i : Nat} (dst : b.dst = .outlet i ∨ b.dst = .inlet i) : Idle (.snapArrival id n) s := by
  by_cases go : snapGoes s id n c b
  · refine (exec_snapArrival hc hb go).trans ?_
    rcases dst with e | e <;> rw [e] <;> rfl
  · exact exec_snapArrival_not hc hb go

variable (go : snapGoes s id n c b)
include go

theorem snapArrival_port {k p : Nat} (dst : b.dst = .port k p ∨ b.dst = .stream k p) :
    exec (.snapArrival id n) s = .next (if ((s.tile k).port p).marker.isSome then s else markPort s k p (c.seq + b.base, snapPayload c)) := by
  rw [exec_snapArrival hc hb go]
  rcases dst with e | e <;> rw [e] <;> rfl

theorem snapArrival_marked {k p : Nat} (dst : b.dst = .port k p ∨ b.dst = .stream k p) (mark : ((s.tile k).port p).marker ≠ none) :
    Idle (.snapArrival id n) s := by
  refine (snapArrival_port hc hb go dst).trans ?_
  rw [if_pos (Option.isSome_iff_ne_none.mpr mark)]

omit hc hb go in
theorem quiet_markPort {k p : Nat} (m : Nat × Nat) (stream : ((s.tile k).port p).stream ≠ none) : Quiet s (markPort s k p m) := by
  rw [markPort, if_pos (Option.isSome_iff_ne_none.mpr stream)]
  exact (TokenStep.setPort ..).quiet

omit hc hb go in
theorem held_markPort {k p : Nat} (m : Nat × Nat) (plain : ((s.tile k).port p).stream = none) :
    (((markPort s k p m).tile k).actor ((s.tile k).port p).actor).held = true := by
  rw [markPort, if_neg (by rw [plain]; simp)]
  exact held_holdActor ..

theorem snapArrival_marks {k p : Nat} (dst : b.dst = .port k p ∨ b.dst = .stream k p) (free : ((s.tile k).port p).marker = none) :
    ∃ t, exec (.snapArrival id n) s = .next t ∧ ((t.tile k).port p).marker = some (c.seq + b.base, snapPayload c) ∧
      (((s.tile k).port p).stream = none → ((t.tile k).actor ((s.tile k).port p).actor).held = true) ∧
      (((s.tile k).port p).stream ≠ none → Quiet s t) := by
  have run := snapArrival_port hc hb go dst
  rw [if_neg (by rw [free]; simp)] at run
  refine ⟨_, run, ?_, held_markPort _, quiet_markPort _⟩
  obtain ⟨x, hx, mark⟩ := markPort_mark s k p (c.seq + b.base, snapPayload c)
  rw [Tile.port, AMap.getD_of_get? hx]; exact mark

theorem snapArrival_fabric {l i : Nat} (dst : b.dst = .fabric l i) : ∃ t d, exec (.snapArrival id n) s = .next t ∧ Quiet s t ∧
    t.chan? id = some d ∧ d = { c with branches := d.branches } ∧
    d.branches[n]? = some { b with snap := some (c.seq + b.base, snapPayload c) } ∧ ∀ j, j ≠ n → d.branches[j]? = c.branches[j]? := by
  have run := exec_snapArrival hc hb go
  have marks : snapAt s id n (c.seq + b.base, snapPayload c) b.dst =
      s.setChan id (c.setBranch n { b with snap := some (c.seq + b.base, snapPayload c) }) := by
    have fabric : snapAt s id n (c.seq + b.base, snapPayload c) b.dst = markBranch s id n (c.seq + b.base, snapPayload c) := by rw [dst]; rfl
    rw [fabric]
    simp only [markBranch, hc, hb]
    rfl
  rw [marks] at run
  exact ⟨_, c.setBranch n { b with snap := some (c.seq + b.base, snapPayload c) }, run, (TokenStep.setChan ..).quiet, State.chan_setChan .., rfl,
    Chan.branch_setBranch hb _, fun j hj => Chan.branch_setBranch_other c _ hj⟩

theorem snapArrival_oper {k i e : Nat} {o : Oper} (dst : b.dst = .oper k i e) (ho : (s.tile k).oper i = some o) :
    ∃ t, exec (.snapArrival id n) s = .next t ∧ Quiet s t ∧ (t.tile k).oper i =
      some (if e = 0 then { o with marker0 := some (c.seq + b.base, snapPayload c), held := true }
        else { o with marker1 := some (c.seq + b.base, snapPayload c), held := true }) := by
  have run := exec_snapArrival hc hb go
  have marks : snapAt s id n (c.seq + b.base, snapPayload c) b.dst = s.updTile k fun t => t.setOper i
      (if e = 0 then { o with marker0 := some (c.seq + b.base, snapPayload c), held := true }
        else { o with marker1 := some (c.seq + b.base, snapPayload c), held := true }) := by
    rw [dst]
    simp only [snapAt, markOper, State.updTile, ho]
  rw [marks] at run
  refine ⟨_, run, (TokenStep.updTile s k (tokenTile_setOper ..)).quiet, ?_⟩
  rw [State.tile_updTile, Tile.oper_setOper]

end

end Sys2Proof.Machine
end

section
/-!
The region of a residency is freed (02 R62, 14 R352): its tiles are left empty, and of the residencies only error records move beside its own.
-/

namespace Sys2Proof.Machine

/-! Requests that still perform. -/

/-- Global memory and the error records of residencies may have changed. -/
structure HomeFrame (s t : State) : Prop where
  res : ∀ m, t.resOf m = { s.resOf m with err := (t.resOf m).err }
  others : t = { s with
    gmem := t.gmem, gpoison := t.gpoison, gerr1 := t.gerr1, gerr2 := t.gerr2, vers := t.vers, res := t.res }

namespace HomeFrame

theorem refl (s : State) : HomeFrame s s := ⟨fun _ => rfl, rfl⟩

theorem trans {s t u : State} (a : HomeFrame s t) (b : HomeFrame t u) : HomeFrame s u :=
  ⟨fun m => by rw [b.res m, a.res m], by rw [b.others, a.others]⟩

theorem foldl {α : Type} {step : State → α → State} (one : ∀ (s : State) y, HomeFrame s (step s y)) (l : List α) (s : State) :
    HomeFrame s (l.foldl step s) := by
  induction l generalizing s with
  | nil => exact refl s
  | cons y l ih => exact (one s y).trans (ih _)

/-- A state with the residencies of another. -/
theorem of_same {s t : State} (res : t.res = s.res) (others : t = { s with
    gmem := t.gmem, gpoison := t.gpoison, gerr1 := t.gerr1, gerr2 := t.gerr2, vers := t.vers, res := t.res }) : HomeFrame s t :=
  ⟨fun m => by rw [State.resOf, res]; rfl, others⟩

theorem countEcc (s : State) (h c u : Nat) : HomeFrame s (s.countEcc h c u) := by
  unfold State.countEcc
  split
  · exact refl s
  · exact ⟨(HoldStep.updErr s h _).res, rfl⟩

theorem hbmRead (s : State) (h a n : Nat) : HomeFrame s (s.hbmRead h a n) := by
  unfold State.hbmRead
  dsimp only
  split
  · exact refl s
  · refine trans ?_ (countEcc ..)
    exact of_same rfl rfl

theorem gWrite (s : State) (a : Nat) (bs : List Byte) : HomeFrame s (s.gWrite a bs) := of_same rfl rfl

theorem gPoison (s : State) (a n : Nat) : HomeFrame s (s.gPoison a n) := of_same rfl rfl

theorem homePerform (s : State) (k : Nat) (q : GReq) : HomeFrame s (homePerform s k q).1 := by
  have read : HomeFrame s (if q.reads then s.hbmRead (s.handleOf k) q.pa.toNat q.n else s) := by
    split
    · exact hbmRead ..
    · exact refl s
  refine read.trans ?_
  unfold Machine.homePerform
  dsimp only
  generalize (if q.reads then s.hbmRead (s.handleOf k) q.pa.toNat q.n else s) = u
  split
  · exact refl _
  · exact gWrite ..
  · exact (gWrite ..).trans (of_same rfl rfl)
  · exact refl _
  · split
    · exact refl _
    · exact refl _
  · exact gWrite ..
  · exact refl _
  · split
    · exact refl _
    · split
      · exact gWrite ..
      · exact refl _

theorem tile {s t : State} (h : HomeFrame s t) (k : Nat) : t.tile k = s.tile k := by rw [h.others]; rfl

end HomeFrame

/-! Tiles without their residency. -/

/-- A tile without slots, waiting tasks and busy helpers. -/
structure Tile.Vacant (t : Tile) : Prop where
  slots : t.slots = []
  waiters : t.waiters = []
  free : ∀ n, n ≠ 0 → (t.ctx n).mode = .free

theorem Tile.vacant_vacate (t : Tile) (resid : BitVec 12) : (t.vacate resid).Vacant := by
  refine ⟨rfl, rfl, fun n hn => ?_⟩
  have gone : AMap.get? (t.ctxs.filter fun p => p.1 == 0) n = none := by
    rw [AMap.get?_filter_key t.ctxs (· == 0), if_neg (by simpa using hn)]
  rw [Tile.ctx, AMap.getD, show (t.vacate resid).ctxs = t.ctxs.filter fun p => p.1 == 0 from rfl, gone]
  rfl

/-- The state in which a tile's requests have performed, and nothing of its residency is left on it. -/
def emptyTile (resid : BitVec 12) (s : State) (k : Nat) : State := (flushReqs s k).updTile k fun t => t.vacate resid

/-- What emptying tiles leaves. -/
structure EmptyFrame (s t : State) : Prop where
  res : ∀ m, t.resOf m = { s.resOf m with err := (t.resOf m).err }
  others : t = { s with
    gmem := t.gmem, gpoison := t.gpoison, gerr1 := t.gerr1, gerr2 := t.gerr2, vers := t.vers, res := t.res, tiles := t.tiles }

theorem EmptyFrame.trans {s t u : State} (a : EmptyFrame s t) (b : EmptyFrame t u) : EmptyFrame s u :=
  ⟨fun m => by rw [b.res m, a.res m], by rw [b.others, a.others]⟩

theorem EmptyFrame.of_home {s t : State} (h : HomeFrame s t) : EmptyFrame s t := ⟨h.res, by rw [h.others]⟩

theorem EmptyFrame.updTile (s : State) (k : Nat) (f : Tile → Tile) : EmptyFrame s (s.updTile k f) := ⟨fun _ => rfl, rfl⟩

/-- The requests of a tile that are on their way have performed. -/
def performed (s : State) (k : Nat) : State := (s.tile k).reqs.foldl (fun s p =>
  if p.2.performed || p.2.ctxNo == 0 || p.2.op == .swabt || paKind p.2.pa != 0 then s else (homePerform s k p.2).1) s

theorem homeFrame_performed (s : State) (k : Nat) : HomeFrame s (performed s k) := .foldl (fun s p => by
  split
  · exact .refl s
  · exact .homePerform ..) ..

theorem emptyTile_eq (resid : BitVec 12) (s : State) (k : Nat) : emptyTile resid s k =
    ((performed s k).updTile k fun t => { t with reqs := t.reqs.filter fun p => p.2.ctxNo == 0 }).updTile k fun t => t.vacate resid := rfl

theorem emptyFrame_emptyTile (resid : BitVec 12) (s : State) (k : Nat) : EmptyFrame s (emptyTile resid s k) := by
  rw [emptyTile_eq]
  exact ((EmptyFrame.of_home (homeFrame_performed s k)).trans (.updTile ..)).trans (.updTile ..)

theorem tile_emptyTile (resid : BitVec 12) (s : State) (k q : Nat) : (emptyTile resid s k).tile q =
    if q = k then ({ s.tile k with reqs := (s.tile k).reqs.filter fun p => p.2.ctxNo == 0 } : Tile).vacate resid else s.tile q := by
  have same := (homeFrame_performed s k).tile
  rw [emptyTile_eq, State.tile_updTile_apply, State.tile_updTile, same]
  split
  · rfl
  case isFalse ne => rw [State.tile_updTile_apply, if_neg ne, same]

/-- Every tile that is emptied is vacant. -/
theorem vacant_emptyTiles (resid : BitVec 12) {l : List Nat} {k : Nat} (h : k ∈ l) (s : State) : ((l.foldl (emptyTile resid) s).tile k).Vacant := by
  refine foldl_reaches (P := fun u : State => (u.tile k).Vacant) h (fun u => ?_) (fun u q vacant => ?_) s
  · rw [tile_emptyTile, if_pos rfl]; exact Tile.vacant_vacate ..
  · rw [tile_emptyTile]
    split
    · exact Tile.vacant_vacate ..
    · exact vacant

theorem emptyFrame_emptyTiles (resid : BitVec 12) (l : List Nat) (s : State) : EmptyFrame s (l.foldl (emptyTile resid) s) := by
  induction l generalizing s with
  | nil => exact ⟨fun _ => rfl, rfl⟩
  | cons k l ih => exact (emptyFrame_emptyTile resid s k).trans (ih _)

/-! The region is freed. -/

/-- A residency without its region, and the error record that it has then (R62, R381). -/
def Res.noRegion (r : Res) (err : ErrRec) : Res :=
  { r with err := err, region := none, faultQ := [], moving := none, snapping := false, armWait := none, armRefused := false, loaded := false, armed := false
           snapDue := false }

/-- Channels, host channels, groups, sweeps and links without what belongs to a residency. -/
def cutRes (s1 s : State) (h : Nat) : State :=
  let r := s.resOf h
  { s1 with
    chans := s1.chans.filter fun c => c.2.handle != h
    strays := s1.strays ++ straysOf s h
    sweeps := s1.sweeps.filter fun w => w.2.resid != r.resid
    rlines := s1.rlines.filter fun l => l.2.resid != r.resid
    groupTab := s1.groupTab.filter fun g => !(fld g.2.2 31 20 == r.resid.toNat && g.2.2.getLsbD 63)
    inlets := AMap.mapVals s1.inlets fun _ x => if (x.chan.map (· / 16384)) = some h then { x with chan := none } else x
    outlets := AMap.mapVals s1.outlets fun _ x => if (x.chan.map (· / 16384)) = some h then { x with chan := none } else x
    links := AMap.mapVals s1.links fun _ l => { l with streamResid := l.streamResid.filter fun p => p.2 != r.resid.toNat } }

theorem freeRegion_eq (s : State) (h : Nat) : freeRegion s h =
    let s1 := ((s.resTiles h).foldl (emptyTile (s.resOf h).resid) s).updRes h fun r => { r with err := s.errOf h }
    (cutRes s1 s h).updRes h fun r => { r with
      region := none, faultQ := [], moving := none, snapping := false, armWait := none, armRefused := false, loaded := false, armed := false, snapDue := false } :=
  rfl

theorem resOf_updRes_apply (s : State) (h : Nat) (f : Res → Res) (m : Nat) : (s.updRes h f).resOf m = if m = h then f (s.resOf h) else s.resOf m := by
  rw [State.resOf, State.updRes, State.setRes, AMap.getD_set]; rfl

theorem resOf_cutRes (s1 s : State) (h m : Nat) : (cutRes s1 s h).resOf m = s1.resOf m := rfl

section
variable (s : State) (h : Nat)

theorem resOf_freeRegion : (freeRegion s h).resOf h = (s.resOf h).noRegion (s.errOf h) := by
  have empty := (emptyFrame_emptyTiles (s.resOf h).resid (s.resTiles h) s).res h
  rw [freeRegion_eq, resOf_updRes_apply, if_pos rfl, resOf_cutRes, resOf_updRes_apply, if_pos rfl, empty]
  rfl

theorem resOf_freeRegion_other {m : Nat} (hm : m ≠ h) : (freeRegion s h).resOf m = { s.resOf m with err := ((freeRegion s h).resOf m).err } := by
  have empty := (emptyFrame_emptyTiles (s.resOf h).resid (s.resTiles h) s).res m
  have same : (freeRegion s h).resOf m = ((s.resTiles h).foldl (emptyTile (s.resOf h).resid) s).resOf m := by
    rw [freeRegion_eq, resOf_updRes_apply, if_neg hm, resOf_cutRes, resOf_updRes_apply, if_neg hm]
  rw [same]
  exact empty

/-- Without a region the other residencies stay. -/
theorem resOf_freeRegion_nowhere {m : Nat} (hm : m ≠ h) (region : (s.resOf h).region = none) : (freeRegion s h).resOf m = s.resOf m := by
  have tiles : s.resTiles h = [] := by rw [State.resTiles, region]
  rw [freeRegion_eq, resOf_updRes_apply, if_neg hm, resOf_cutRes, resOf_updRes_apply, if_neg hm, tiles]
  rfl

theorem vacant_freeRegion {k : Nat} (hk : k ∈ s.resTiles h) : ((freeRegion s h).tile k).Vacant := vacant_emptyTiles _ hk s

theorem freeRegion_sysWait : (freeRegion s h).sysWait = s.sysWait := by
  have same : (freeRegion s h).sysWait = ((s.resTiles h).foldl (emptyTile (s.resOf h).resid) s).sysWait := rfl
  rw [same, (emptyFrame_emptyTiles ..).others]

theorem queue_freeRegion (n : Nat) : ((freeRegion s h).outlet n).q = (s.outlet n).q := by
  have outlets : (freeRegion s h).outlets = AMap.mapVals ((s.resTiles h).foldl (emptyTile (s.resOf h).resid) s).outlets
      fun _ x => if (x.chan.map (· / 16384)) = some h then { x with chan := none } else x := rfl
  rw [State.outlet, outlets, (emptyFrame_emptyTiles ..).others, AMap.getD, AMap.get?_mapVals, State.outlet, AMap.getD]
  cases AMap.get? s.outlets n with
  | none => rfl
  | some x =>
    simp only [Option.map_some, Option.getD_some]
    split <;> rfl

end

end Sys2Proof.Machine
end

section
/-!
A snapshot completes and is restored (15 R374 to R380, 02 R62).
-/

namespace Sys2Proof.Machine

/-! A residency is Held. -/

theorem writeWords_eq (s : State) (pa : Nat) (ws : List Word) : writeWords s pa ws = { s with
    gmem := (writeWords s pa ws).gmem, gpoison := (writeWords s pa ws).gpoison, gerr1 := (writeWords s pa ws).gerr1
    gerr2 := (writeWords s pa ws).gerr2 } :=
  List.foldlRecOn (motive := fun t : State => t = { s with gmem := t.gmem, gpoison := t.gpoison, gerr1 := t.gerr1, gerr2 := t.gerr2 }) _ _ rfl
    fun t ht i _ => by rw [State.gWrite, ht]

theorem dropHeld_eq (s : State) (ms : List HeldMsg) : dropHeld s ms = { s with onodes := (dropHeld s ms).onodes } :=
  List.foldlRecOn (motive := fun t : State => t = { s with onodes := t.onodes }) _ _ rfl fun t ht m _ => by rw [State.setOnode, ht]

/-- A residency whose snapshot is complete, as the obligation says it (R374 step 6, R377). -/
def HeldWith (w t : State) (h : Nat) (g : Region) : Prop :=
  ∃ n, (t.resOf h).state = .held ∧ (t.resOf h).region = none ∧ (t.resOf h).snap = some n ∧ (t.resOf h).snapping = false ∧
    (t.resOf h).faultQ = (w.resOf h).faultQ ∧ n.gen = (w.resOf h).gen ∧ n.commit = (w.resOf h).commit ∧ n.region = g ∧
    n.tiles = (w.resTiles h).map (fun q => (q, w.tile q)) ∧ ∀ q ∈ w.resTiles h, (t.tile q).slots = []

/-- The state in which a residency's region has been freed, and its number, groups and links stay its own (R61, R376; log entry 27). -/
def keptAs (s u : State) (h : Nat) (n : Snapshot) : State :=
  { ((freeRegion u h).updRes h fun r => { r with state := .held, snap := some n, snapping := false, faultQ := (s.resOf h).faultQ }) with
    groupTab := s.groupTab, strays := s.strays, links := s.links }

theorem heldWith_keptAs {s u : State} {h : Nat} {g : Region} (n : Snapshot) (res : u.res = s.res) (rects : u.rects = s.rects)
    (gen : n.gen = (s.resOf h).gen) (commit : n.commit = (s.resOf h).commit) (region : n.region = g)
    (tiles : n.tiles = (s.resTiles h).map fun q => (q, s.tile q)) : HeldWith s (keptAs s u h n) h g := by
  have at_ : u.resOf h = s.resOf h := by rw [State.resOf, res]; rfl
  have resTiles : u.resTiles h = s.resTiles h := by
    rw [State.resTiles, at_, State.resTiles]
    unfold State.regionTiles State.regionTile
    rw [rects]
  have res : (keptAs s u h n).resOf h =
      { (u.resOf h).noRegion (u.errOf h) with state := .held, snap := some n, snapping := false, faultQ := (s.resOf h).faultQ } := by
    have same : (keptAs s u h n).resOf h = ((freeRegion u h).updRes h fun r =>
        { r with state := .held, snap := some n, snapping := false, faultQ := (s.resOf h).faultQ }).resOf h := rfl
    rw [same, resOf_updRes_apply, if_pos rfl, resOf_freeRegion]
  refine ⟨n, ?_, ?_, ?_, ?_, ?_, gen, commit, region, tiles, fun q hq => (vacant_freeRegion u h (by rw [resTiles]; exact hq)).slots⟩ <;> rw [res]
  rfl

theorem holdRes_held (s : State) (h : Nat) (g : Region) : HeldWith s (holdRes s h g) h g := by
  refine heldWith_keptAs (u := dropHeld (writeWords ..) _) _ ?_ ?_ rfl rfl rfl rfl
  · rw [dropHeld_eq, writeWords_eq]
  · rw [dropHeld_eq, writeWords_eq]

/-- Whether every tile of a residency is done, and nothing of it is under way (R374, R376). -/
def snapOver (s w : State) (h : Nat) : Prop :=
  (∀ q ∈ s.resTiles h, (w.tile q).snapDone = true) ∧ fabricsMarked w h = true ∧ ordQuiet w h = true

theorem holdIfDone_eq {s w : State} {h : Nat} (tiles : w.resTiles h = s.resTiles h) (g : Region) [Decidable (snapOver s w h)] :
    holdIfDone w h g = if snapOver s w h then holdRes w h g else w := by
  have iff_ : snapOver s w h ↔ ((w.resTiles h).all (fun k => (w.tile k).snapDone) && fabricsMarked w h && ordQuiet w h) = true := by
    rw [snapOver, Bool.and_eq_true, Bool.and_eq_true, List.all_eq_true, tiles, and_assoc]
  unfold holdIfDone
  by_cases c : snapOver s w h
  · rw [if_pos (iff_.mp c), if_pos c]
  · rw [if_neg (mt iff_.mpr c), if_neg c]

/-! The part of a tile. -/

section
variable {h k : Nat} {s : State}

theorem exec_snapshotTileComplete_not (not : ¬((s.resOf h).region ≠ none ∧ (s.resOf h).snapping = true ∧ k ∈ s.resTiles h)) :
    Idle (.snapshotTileComplete h k) s := by
  change execSnapshotTileComplete h k s = _
  unfold execSnapshotTileComplete
  dsimp only
  split
  · rfl
  · rename_i g region
    refine if_pos ?_
    by_contra c
    rw [not_or, Bool.not_eq_false, Bool.not_eq_false, List.any_eq_true] at c
    obtain ⟨snapping, q, hq, same⟩ := c
    exact not ⟨by rw [region]; exact Option.some_ne_none g, snapping, beq_iff_eq.mp same ▸ hq⟩

variable {g : Region} (region : (s.resOf h).region = some g) (snapping : (s.resOf h).snapping = true) (tile : k ∈ s.resTiles h)
include region snapping tile

theorem exec_snapshotTileComplete_eq : exec (.snapshotTileComplete h k) s =
    if (s.tile k).snapDone then .next (holdIfDone s h g)
    else if nodesComplete (s.tile k) then
      if ((preemptHalt s k).tile k).haltStands && !repliesDue (preemptHalt s k) k then
        .next (holdIfDone ((preemptHalt s k).updTile k fun t => { t.showHalted s.now with snapDone := true }) h g)
      else .next (preemptHalt s k)
    else .next s := by
  change execSnapshotTileComplete h k s = _
  have own : ¬((s.resOf h).snapping = false ∨ (s.resTiles h).any (· == k) = false) := by
    rw [snapping]; simpa using tile
  simp only [execSnapshotTileComplete, region, if_neg own]

/-- The tile is done already: the residency is Held with its last one. -/
theorem snapshotTileComplete_again (snapDone : (s.tile k).snapDone = true) :
    (¬snapOver s s h → Idle (.snapshotTileComplete h k) s) ∧
    (snapOver s s h → ∃ t, exec (.snapshotTileComplete h k) s = .next t ∧ HeldWith s t h g) := by
  classical
  have run := exec_snapshotTileComplete_eq region snapping tile
  rw [if_pos snapDone, holdIfDone_eq (s := s) rfl] at run
  refine ⟨fun c => ?_, fun c => ⟨_, run, ?_⟩⟩
  · rw [if_neg c] at run; exact run
  · rw [if_pos c]; exact holdRes_held ..

theorem exec_snapshotTileComplete_nodes (todo : (s.tile k).snapDone = false) (nodes : nodesComplete (s.tile k) = false) :
    Idle (.snapshotTileComplete h k) s := by
  refine (exec_snapshotTileComplete_eq region snapping tile).trans ?_
  rw [todo, nodes]; rfl

variable (todo : (s.tile k).snapDone = false) (nodes : nodesComplete (s.tile k) = true)
include todo nodes

theorem exec_snapshotTileComplete_halts
    (wait : ((preemptHalt s k).tile k).haltStands = false ∨ repliesDue (preemptHalt s k) k = true) :
    exec (.snapshotTileComplete h k) s = .next (preemptHalt s k) := by
  rw [exec_snapshotTileComplete_eq region snapping tile, todo, nodes]
  rcases wait with e | e <;> simp [e]

/-- A tile with its part of a snapshot done, halted as of now. -/
def Tile.partDone (y : Tile) (now : Nat) : Tile :=
  { y with snapDone := true, preHalted := true, preElapsed := if y.preHalted then y.preElapsed else min (now - y.preAt) 65535 }

omit region snapping tile todo nodes in
theorem partDone_eq (y : Tile) (now : Nat) : ({ y.showHalted now with snapDone := true } : Tile) = y.partDone now := by
  rw [Tile.partDone, Tile.showHalted]
  split
  case isTrue halted => rw [← halted]
  case isFalse => rfl

omit region snapping tile todo nodes in
theorem quiet_partDone (w : State) (k now : Nat) : Quiet w (w.updTile k fun t => t.partDone now) := by
  refine ⟨.of_ctx fun q m => ?_, fun q z => ?_, fun _ => rfl⟩ <;> rw [State.tile_updTile_apply] <;> split
  case refine_1.isTrue e => rw [e]; rfl
  case refine_2.isTrue e => rw [e]; rfl
  all_goals rfl

theorem snapshotTileComplete_done (halted : ((preemptHalt s k).tile k).haltStands = true) (answered : repliesDue (preemptHalt s k) k = false) :
    let w := preemptHalt s k
    ∃ v, Quiet w v ∧ v.tile k = (w.tile k).partDone w.now ∧ (∀ q, q ≠ k → v.tile q = w.tile q) ∧ v.res = w.res ∧
      (¬snapOver s v h → exec (.snapshotTileComplete h k) s = .next v) ∧
      (snapOver s v h → ∃ t, exec (.snapshotTileComplete h k) s = .next t ∧ HeldWith v t h g ∧ v.resTiles h = s.resTiles h) := by
  classical
  intro w
  have frame : SnapFrame s w := (HoldStep.preemptHalt s k).toSnapFrame
  have now : w.now = s.now := by rw [frame.others]
  set v := w.updTile k fun t => t.partDone w.now with hv
  have tiles : v.resTiles h = s.resTiles h := frame.resTiles h
  have run := exec_snapshotTileComplete_eq region snapping tile
  rw [todo, nodes, halted, answered, if_neg Bool.false_ne_true, if_pos rfl, if_pos (by rfl)] at run
  have done : (preemptHalt s k).updTile k (fun t => { t.showHalted s.now with snapDone := true }) = v := by
    rw [hv, now]; exact congrArg (fun f => State.updTile w k f) (funext fun t => partDone_eq t s.now)
  rw [done, holdIfDone_eq tiles] at run
  refine ⟨v, quiet_partDone .., State.tile_updTile .., fun q hq => (State.tile_updTile_apply ..).trans (if_neg hq), rfl, fun c => ?_, fun c => ⟨_, run, ?_, tiles⟩⟩
  · rw [if_neg c] at run; exact run
  · rw [if_pos c]; exact holdRes_held ..

end

end Sys2Proof.Machine
end

section
/-!
The placement of a restore (02 R62, 15 R379): the first free region of its shape, a fresh number, and the state that its snapshot holds.
-/

namespace Sys2Proof.Machine

/-! Steps that leave the residencies but for error records and the time of the last move. -/

/-- The residencies are as they were, but for their error records and the time of their last move. -/
structure ResKept (s t : State) : Prop where
  res : ∀ m, t.resOf m = { s.resOf m with err := (t.resOf m).err, wdLast := (t.resOf m).wdLast }

namespace ResKept

theorem refl (s : State) : ResKept s s := ⟨fun _ => rfl⟩

theorem trans {s t u : State} (a : ResKept s t) (b : ResKept t u) : ResKept s u := ⟨fun m => by rw [b.res m, a.res m]⟩

theorem foldl {α : Type} {step : State → α → State} (one : ∀ (s : State) y, ResKept s (step s y)) (l : List α) (s : State) :
    ResKept s (l.foldl step s) := by
  induction l generalizing s with
  | nil => exact refl s
  | cons y l ih => exact (one s y).trans (ih _)

theorem of_res {s t : State} (h : t.res = s.res) : ResKept s t := ⟨fun m => by rw [State.resOf, h]; rfl⟩

theorem updTile (s : State) (k : Nat) (f : Tile → Tile) : ResKept s (s.updTile k f) := of_res rfl

theorem setChan (s : State) (n : Nat) (c : Chan) : ResKept s (s.setChan n c) := of_res rfl

theorem setOnode (s : State) (n : Nat) (x : ONode) : ResKept s (s.setOnode n x) := of_res rfl

theorem setLink (s : State) (n : Nat) (l : LinkPort) : ResKept s (s.setLink n l) := of_res rfl

theorem sendFlit (s : State) (p typ vc n : Nat) (b : FlitBody) : ResKept s (s.sendFlit p typ vc n b) := setLink ..

theorem joinQueue (s : State) (k p : Nat) (m : Token) : ResKept s (joinQueue s k p m) := ⟨resOf_joinQueue s k p m⟩

theorem holdEos (s : State) (k p : Nat) (m : Token) : ResKept s (holdEos s k p m) := by
  unfold Machine.holdEos
  dsimp only
  split
  · exact updTile ..
  · exact (updTile ..).trans (joinQueue ..)

/-- A message is ejected into its ports, or dropped (R275, R280). -/
theorem eject (s : State) (k : Nat) (m : Token) : ResKept s (eject s k m) := by
  unfold Machine.eject
  dsimp only
  split
  · exact ⟨(TokenStep.dropToken ..).res⟩
  · refine foldl (fun s p => ?_) ..
    split
    · exact holdEos ..
    · exact joinQueue ..

theorem opDone (s : State) (k task a : Nat) (g : BitVec 6) (tok : Bool) : ResKept s (s.opDone k task a g tok) := by
  unfold State.opDone
  dsimp only
  split
  · exact (updTile ..).trans ⟨(TokenStep.sendCompletion ..).res⟩
  · exact updTile ..

theorem injectLeft (s : State) (n : Nat) (m : Token) : ResKept s (injectLeft s n m) := by
  unfold Machine.injectLeft
  dsimp only
  split
  · split
    · exact refl s
    · exact (updTile ..).trans (opDone ..)
  · exact refl s

theorem forwardMsg (s : State) (n k : Nat) (o : OOutput) (x : Nat × Token) : ResKept s (forwardMsg s n k o x) := by
  unfold Machine.forwardMsg
  dsimp only
  split
  · exact (setOnode ..).trans ((eject ..).trans (injectLeft ..))
  · split
    · exact (setOnode ..).trans ((sendFlit ..).trans (injectLeft ..))
    · refine .trans ?_ (injectLeft ..)
      exact of_res rfl

theorem forwardOut (n k fuel : Nat) (s : State) : ResKept s (forwardOut n k fuel s) := by
  induction fuel generalizing s with
  | zero => exact refl s
  | succ fuel ih =>
    unfold Machine.forwardOut
    split
    · exact refl s
    · split
      · exact refl s
      · exact (forwardMsg ..).trans (ih _)

theorem forwardNode (s : State) (n : Nat) : ResKept s (forwardNode s n) := by
  refine foldl (fun s k => ?_) ..
  split
  · exact refl s
  · exact forwardOut ..

theorem queueHeld (s : State) (k : Nat) (m : HeldMsg) : ResKept s (queueHeld s k m) := (setOnode ..).trans (forwardNode ..)

theorem requeue (s : State) (f : Nat → Nat) (ms : List HeldMsg) : ResKept s (requeue s f ms) := by
  refine foldl (fun u m => ?_) ..
  split
  · exact eject ..
  · exact queueHeld ..

theorem rebuildSweep (s : State) (n : Nat) (w : Sweep) : ResKept s (rebuildSweep s n w) := by
  refine foldl (fun s k => ?_) ..
  split
  · exact refl s
  · exact updTile ..

theorem payOwed (s : State) (k : Nat) : ResKept s (payOwed s k) :=
  foldl (fun _ a => (updTile ..).trans (foldl (fun s g => ⟨(TokenStep.sendCompletion s k a.1 g).res⟩) ..)) ..

theorem rebind (s : State) (id : Nat) (c : Chan) : ResKept s (rebind s id c) := by
  unfold Machine.rebind
  dsimp only
  refine .trans ?_ (foldl (fun s i => ?_) ..)
  · split
    · exact of_res rfl
    · exact of_res rfl
    · exact refl s
  · split
    · exact of_res rfl
    · exact of_res rfl
    · exact refl s

end ResKept

/-! A region and a number. -/

theorem freshResid_lt (s : State) : freshResid s < 4096 := by
  unfold freshResid
  cases found : (((upto 4095).map fun i => (s.nextResid + i - 1) % 4095 + 1).find? fun n =>
    !(AMap.vals s.res).any fun r => liveRes r && r.resid.toNat == n) with
  | none => exact Nat.zero_lt_succ _
  | some n =>
    obtain ⟨i, -, rfl⟩ := List.mem_map.mp (List.mem_of_find?_eq_some found)
    exact Nat.succ_lt_succ (Nat.mod_lt _ (by omega))

theorem toNat_freshResid (s : State) : (BitVec.ofNat 12 (freshResid s)).toNat = freshResid s := by
  rw [BitVec.toNat_ofNat]; exact Nat.mod_eq_of_lt (freshResid_lt s)

theorem resOf_assignRegion (s : State) (h : Nat) (g : Region) (m : Nat) : (assignRegion s h g).resOf m =
    if m = h then { s.resOf h with region := some g, resid := BitVec.ofNat 12 (freshResid s) } else s.resOf m := resOf_updRes_apply ..

/-- A restored residency, as the obligations say it (R62, R379). -/
structure Restored (s : State) (x : Res) (n : Snapshot) (g : Region) : Prop where
  state : x.state = .running
  region : x.region = some g
  resid : x.resid.toNat = freshResid s
  gen : x.gen = n.gen
  commit : x.commit = n.commit
  snap : x.snap = some n
  snapping : x.snapping = false
  restoring : x.restoring = false

theorem Restored.kept {s : State} {x : Res} {n : Snapshot} {g : Region} (h : Restored s x n g) {err : ErrRec} {last : Nat} :
    Restored s { x with err := err, wdLast := last } n g := ⟨h.state, h.region, h.resid, h.gen, h.commit, h.snap, h.snapping, h.restoring⟩

theorem restored_of {s u t : State} {h : Nat} {n : Snapshot} {g : Region} {f : Res → Res} (head : ResKept (assignRegion s h g) u)
    (tail : ResKept (u.updRes h f) t) (fields : ∀ r, f r = { r with
      state := .running, gen := n.gen, commit := n.commit, err := (f r).err, snap := some n, restoring := false, faultHold := (f r).faultHold
      senders := (f r).senders, snapping := false, wdLast := (f r).wdLast, result := (f r).result }) : Restored s (t.resOf h) n g := by
  have at_ : Restored s (f (u.resOf h)) n g := by
    have assigned := head.res h
    rw [resOf_assignRegion, if_pos rfl] at assigned
    rw [fields]
    constructor
    case region => rw [assigned]
    case resid => rw [assigned]; exact toNat_freshResid s
    all_goals rfl
  have now := tail.res h
  rw [resOf_updRes_apply, if_pos rfl] at now
  rw [now]
  exact at_.kept

theorem placeSnapshot_restored (s : State) (h : Nat) (ws : List Word) (n : Snapshot) (g : Region) :
    Restored s ((placeSnapshot s h ws n g).resOf h) n g := by
  unfold placeSnapshot
  refine restored_of (h := h) ?_ (.trans (.requeue ..) (.trans (.foldl (fun u k => ?_) ..) (.foldl (fun u p => ?_) ..))) fun r => rfl
  · exact (ResKept.foldl (fun u p => .updTile ..) ..).trans
      ((ResKept.foldl (fun u p => (ResKept.setChan u _ _).trans (.rebind ..)) ..).trans (.of_res rfl))
  · split
    · exact .rebuildSweep ..
    · exact .refl u
  · exact (ResKept.payOwed ..).trans (.updTile ..)

/-! What a residency's own state does not decide (R61, R62). -/

/-- Where a test finds no difference between an entry and what replaces it, it finds none in the map. -/
theorem AMap.any_set {α : Type} {m : AMap α} {k : Nat} {r v : α} (h : AMap.get? m k = some r) {f : Nat × α → Bool} (same : f (k, v) = f (k, r)) :
    (AMap.set m k v).any f = m.any f := by
  induction m with
  | nil => cases h
  | cons y m ih =>
    obtain ⟨j, x⟩ := y
    simp only [AMap.set]
    split
    case isTrue lt =>
      rw [AMap.get?, if_neg (by omega)] at h
      rw [List.any_cons, List.any_cons, ih h]
    case isFalse ge =>
      split
      case isTrue e =>
        rw [AMap.get?, if_pos e, Option.some.injEq] at h
        rw [List.any_cons, List.any_cons, same, e, h]
      case isFalse ne =>
        rw [List.any_cons, same]
        cases e : f (k, r) with
        | false => rfl
        | true => rw [Bool.true_or]; exact (List.any_eq_true.mpr ⟨_, AMap.mem_of_get? h, e⟩).symm

section
variable {s : State} {h : Nat} {r : Res} (known : AMap.get? s.res h = some r) {f : Res → Res}
include known

theorem resOf_known : s.resOf h = r := AMap.getD_of_get? known _

theorem vals_any_updRes (test : Res → Bool) (same : test (f r) = test r) :
    (AMap.vals (s.updRes h f).res).any test = (AMap.vals s.res).any test := by
  have res : (s.updRes h f).res = AMap.set s.res h (f r) := by rw [State.updRes, State.setRes, resOf_known known]
  rw [AMap.vals, List.any_map, res, AMap.vals, List.any_map]
  exact AMap.any_set known same

theorem findRegion_updRes (region : (f r).region = r.region) (rows cols : Nat) : findRegion (s.updRes h f) rows cols = findRegion s rows cols := by
  have used : ∀ g, (usedRegions (s.updRes h f)).any (regionsMeet g) = (usedRegions s).any (regionsMeet g) := fun g => by
    rw [usedRegions, List.any_filterMap, usedRegions, List.any_filterMap]
    exact vals_any_updRes known _ (by rw [region])
  unfold findRegion
  simp only [used]
  rfl

theorem groupsFree_updRes (ws : List Word) : groupsFree (s.updRes h f) h ws = groupsFree s h ws := by
  have res : (s.updRes h f).res = AMap.set s.res h (f r) := by rw [State.updRes, State.setRes, resOf_known known]
  unfold groupsFree
  rw [res]
  refine congrArg (List.all (imgGroups ws)) (funext fun g => congrArg (!((AMap.getD s.groupTab g (0, 0)).2.getLsbD 63) && ! ·) ?_)
  exact AMap.any_set known (by simp)

theorem freshResid_updRes (live : ∀ n, n ≠ 0 → (liveRes (f r) && (f r).resid.toNat == n) = (liveRes r && r.resid.toNat == n)) :
    freshResid (s.updRes h f) = freshResid s := by
  have next : (s.updRes h f).nextResid = s.nextResid := rfl
  unfold freshResid
  rw [next]
  refine congrArg (Option.getD · 0) (List.find?_congr fun n hn => ?_)
  obtain ⟨i, -, rfl⟩ := List.mem_map.mp hn
  rw [vals_any_updRes known _ (live _ (Nat.succ_ne_zero _))]

end

end Sys2Proof.Machine
end

section
/-!
RESTORE, and the fault tokens and snapshots together (15 R374 to R380, R384).
-/

namespace Sys2Proof.Machine

/-! A restore is placed, or waits. -/

section
variable {s : State} {h : Nat} {ws : List Word} (image : (s.resOf h).image = some ws)
include image

theorem tryPlace_nowhere (find : findRegion s (imgRows ws) (imgCols ws) = none) : tryPlace s h = s := by
  simp only [tryPlace, image, find]

/-- What a residency that waits for a region takes it for: its image, or its snapshot. -/
def placeable (s : State) (h : Nat) (ws : List Word) : Prop :=
  ((s.resOf h).state = .queued ∧ (s.resOf h).stageDue = false ∧ groupsFree s h ws = true) ∨
    ((s.resOf h).state = .held ∧ (s.resOf h).restoring = true ∧ (s.resOf h).snap ≠ none ∧ ((s.resOf h).resid ≠ 0 ∨ groupsFree s h ws = true))

theorem tryPlace_waits (not : ¬placeable s h ws) : tryPlace s h = s := by
  rw [placeable, not_or] at not
  obtain ⟨loads, restores⟩ := not
  simp only [tryPlace, image]
  split
  · rfl
  · rw [if_neg (by simpa using loads)]
    split
    case isFalse => rfl
    case isTrue c =>
      split
      · rename_i n snap
        exact absurd ⟨c.1, by simpa using c.2.1, by rw [snap]; exact Option.some_ne_none n, c.2.2⟩ restores
      · rfl

theorem tryPlace_restores {n : Snapshot} {g : Region} (state : (s.resOf h).state = .held) (restoring : (s.resOf h).restoring = true)
    (snap : (s.resOf h).snap = some n) (free : (s.resOf h).resid ≠ 0 ∨ groupsFree s h ws = true)
    (find : findRegion s (imgRows ws) (imgCols ws) = some g) : tryPlace s h = placeSnapshot s h ws n g := by
  simp only [tryPlace, image, find]
  rw [if_neg (by rw [state]; simp), if_pos ⟨state, by rw [restoring], free⟩, snap]

end

/-- Which residencies a RESTORE acts on (R379, R393, R400; log entry 27). -/
def mayRestore (s : State) (h : Nat) : Prop :=
  (s.resOf h).state = .held ∨
    ((s.resOf h).state = .aborted ∧ (s.resOf h).tileLost = true ∧ ∀ c ∈ boundChans (s.block h), boundElsewhere s h c = false)

theorem restorable_iff (s : State) (h : Nat) : restorable s h = true ↔ mayRestore s h := by
  simp only [restorable, mayRestore, Bool.or_eq_true, Bool.and_eq_true, decide_eq_true_eq, Bool.not_eq_true', List.any_eq_false, Bool.not_eq_true,
    and_assoc]

section
variable {s : State} {h : Nat}

theorem exec_restoreCmd_not (not : (s.resOf h).snap = none ∨ ¬mayRestore s h) : Idle (.restoreCmd h) s := by
  change execRestoreCmd h s = _
  unfold execRestoreCmd
  dsimp only
  split
  · rfl
  · rename_i n snap
    refine if_pos ?_
    rcases not with e | e
    · rw [snap] at e; cases e
    · rw [Bool.not_eq_true', ← Bool.not_eq_true, restorable_iff]; exact e

variable {n : Snapshot} (snap : (s.resOf h).snap = some n) (may : mayRestore s h)
include snap may

theorem exec_restoreCmd_refused (digest : snapDigest (readSnap s h n) ≠ n.digest) :
    exec (.restoreCmd h) s = .next (s.updRes h fun r => { r with result := BitVec.ofNat 64 (0x45 * 2 ^ 56) }) := by
  have result : (CfgFail.mk cfgSignature 0 0 0 0).word = BitVec.ofNat 64 (0x45 * 2 ^ 56) := by decide
  change execRestoreCmd h s = _
  simp only [execRestoreCmd, snap, (restorable_iff s h).mpr may, Bool.not_true, Bool.false_eq_true, if_false, if_pos digest, result]

theorem exec_restoreCmd (digest : snapDigest (readSnap s h n) = n.digest) :
    exec (.restoreCmd h) s = .next (tryPlace (s.updRes h Res.accept) h) := by
  change execRestoreCmd h s = _
  simp only [execRestoreCmd, snap, (restorable_iff s h).mpr may, Bool.not_true, Bool.false_eq_true, if_false, digest, ne_eq, not_true_eq_false]

omit may in
theorem known_of_snap : AMap.get? s.res h = some (s.resOf h) := by
  cases e : AMap.get? s.res h with
  | none => rw [State.resOf, AMap.getD, e] at snap; cases snap
  | some r => rw [State.resOf, AMap.getD_of_get? e]

theorem freshResid_accept : freshResid (s.updRes h Res.accept) = freshResid s := by
  refine freshResid_updRes (known_of_snap snap) fun m hm => ?_
  by_cases held : (s.resOf h).state = .held
  · simp [Res.accept, liveRes, held]
  · obtain ⟨aborted, -⟩ := may.resolve_left held
    simp [Res.accept, liveRes, aborted, hm.symm]

/-- Whether an accepted restore needs no groups, or finds them free (R61). -/
def restoreFree (s : State) (h : Nat) (ws : List Word) : Prop :=
  ((s.resOf h).state = .held ∧ (s.resOf h).resid ≠ 0) ∨ groupsFree s h ws = true

omit may in
theorem restoreFree_accept (ws : List Word) :
    ((s.updRes h Res.accept).resOf h).resid ≠ 0 ∨ groupsFree (s.updRes h Res.accept) h ws = true ↔ restoreFree s h ws := by
  rw [groupsFree_updRes (known_of_snap snap), resOf_updRes_apply, if_pos rfl, restoreFree, Res.accept]
  by_cases held : (s.resOf h).state = .held
  · simp [held]
  · simp [held]

variable (digest : snapDigest (readSnap s h n) = n.digest)
include digest

theorem restoreCmd_waits
    (wait : ∀ ws, (s.resOf h).image = some ws → findRegion s (imgRows ws) (imgCols ws) = none ∨ ¬restoreFree s h ws) :
    exec (.restoreCmd h) s = .next (s.updRes h Res.accept) := by
  have accepted : (s.updRes h Res.accept).resOf h = (s.resOf h).accept := by rw [resOf_updRes_apply, if_pos rfl]
  rw [exec_restoreCmd snap may digest]
  cases image : (s.resOf h).image with
  | none => simp only [tryPlace, accepted, Res.accept, image]
  | some ws =>
    have image' : ((s.updRes h Res.accept).resOf h).image = some ws := by rw [accepted]; exact image
    rcases wait ws image with none_ | busy
    · rw [tryPlace_nowhere image' (by rw [findRegion_updRes (known_of_snap snap) rfl]; exact none_)]
    · refine congrArg Host.Outcome.next (tryPlace_waits image' ?_)
      rintro (⟨queued, -⟩ | ⟨-, -, -, free⟩)
      · rw [accepted] at queued; cases queued
      · exact busy ((restoreFree_accept snap ws).mp free)

theorem restoreCmd_restores {ws : List Word} {g : Region} (image : (s.resOf h).image = some ws) (free : restoreFree s h ws)
    (find : findRegion s (imgRows ws) (imgCols ws) = some g) :
    ∃ t, exec (.restoreCmd h) s = .next t ∧ Restored s (t.resOf h) n g := by
  have accepted : (s.updRes h Res.accept).resOf h = (s.resOf h).accept := by rw [resOf_updRes_apply, if_pos rfl]
  have place : tryPlace (s.updRes h Res.accept) h = placeSnapshot (s.updRes h Res.accept) h ws n g :=
    tryPlace_restores (by rw [accepted]; exact image) (by rw [accepted]; rfl) (by rw [accepted]; rfl) (by rw [accepted]; exact snap)
      ((restoreFree_accept snap ws).mpr free) (by rw [findRegion_updRes (known_of_snap snap) rfl]; exact find)
  refine ⟨_, exec_restoreCmd snap may digest, ?_⟩
  rw [place]
  obtain ⟨state, region, resid, gen, commit, snap', snapping, restoring⟩ := placeSnapshot_restored (s.updRes h Res.accept) h ws n g
  exact ⟨state, region, resid.trans (freshResid_accept snap may), gen, commit, snap', snapping, restoring⟩

end

/-- A residency's own state changes neither registers nor memory. -/
theorem quiet_updRes (s : State) (h : Nat) (f : Res → Res) : Quiet s (s.updRes h f) := Quiet.of_tiles_gmem rfl rfl

/-- Every event of fault tokens and snapshots has a next state. -/
theorem snapEvent_next (h k n : Nat) (s : State) : ∀ i ∈ [Instr.faultToken h, .faultPortEos h, .snapCmd h, .snapshotTileComplete h k,
    .restoreCmd h, .snapArrival k n], ∃ t, exec i s = .next t := by
  simp only [List.mem_cons, List.not_mem_nil, or_false, forall_eq_or_imp, forall_eq]
  refine ⟨?_, ?_, ?_, ?_, ?_, ?_⟩
  · change ∃ t, execFaultToken h s = .next t
    unfold execFaultToken
    dsimp only
    repeat' split
    all_goals exact ⟨_, rfl⟩
  · change ∃ t, execFaultPortEos h s = .next t
    unfold execFaultPortEos
    dsimp only
    repeat' split
    all_goals exact ⟨_, rfl⟩
  · change ∃ t, execSnapCmd h s = .next t
    unfold execSnapCmd
    dsimp only
    repeat' split
    all_goals exact ⟨_, rfl⟩
  · change ∃ t, execSnapshotTileComplete h k s = .next t
    unfold execSnapshotTileComplete
    dsimp only
    repeat' split
    all_goals exact ⟨_, rfl⟩
  · change ∃ t, execRestoreCmd h s = .next t
    unfold execRestoreCmd
    dsimp only
    repeat' split
    all_goals exact ⟨_, rfl⟩
  · change ∃ t, execSnapArrival k n s = .next t
    unfold execSnapArrival
    repeat' split
    all_goals exact ⟨_, rfl⟩

/-- Settles O57: the fault port, SNAP, a tile's part of a snapshot, RESTORE, and SNAPs that arrive, one event after the other. -/
theorem faultTokensAndSnapshots : Obligations.FaultTokensAndSnapshots := by
  refine ⟨snapEvent_next, fun h s => ⟨exec_faultToken_idle, fun ws k p image runs free port => ⟨fun full =>
      ⟨exec_faultToken_full image runs free port full, exec_faultPortEos_full image port full⟩,
      fun room w rest queue => faultToken_placed image runs free port room queue, fun g region => ⟨fun wait => ?_,
        fun room empty eos quiet => faultPortEos_placed image runs free port region room empty eos quiet⟩⟩,
    ⟨exec_snapCmd_not, fun may moving => ?_, exec_snapCmd_nowhere, snapCmd_begins⟩, fun k => ⟨exec_snapshotTileComplete_not, ?_, ?_, ?_⟩,
    exec_restoreCmd_not, fun n snap may => ⟨fun differs => ?_, fun digest => ⟨fun wait => ?_, fun ws g image free find => ?_⟩⟩⟩,
    fun id n s => ⟨exec_snapArrival_unknown, fun c b hc hb => ⟨exec_snapArrival_not hc hb, fun k p dst go => ⟨snapArrival_marked hc hb go dst,
      snapArrival_marks hc hb go dst⟩, fun l i dst go => snapArrival_fabric hc hb go dst, fun i => snapArrival_host hc hb,
      fun k i e o dst go ho => snapArrival_oper hc hb go dst ho⟩⟩⟩
  case refine_1 =>
    rcases wait with e | e | e
    · exact exec_faultPortEos_over (.inl e)
    · exact exec_faultPortEos_over (.inr e)
    · exact exec_faultPortEos_waits image port region (.inl e)
  case refine_2 =>
    refine ⟨_, exec_snapCmd_waits may moving, quiet_updRes .., ?_, fun m hm => ?_⟩ <;> rw [resOf_updRes_apply]
    · exact if_pos rfl
    · exact if_neg hm
  case refine_3 =>
    rintro ⟨region, snapping, tile⟩ done
    obtain ⟨g, region⟩ := Option.ne_none_iff_exists'.mp region
    obtain ⟨waits, holds⟩ := snapshotTileComplete_again region snapping tile done
    refine ⟨waits, fun over_ => ?_⟩
    obtain ⟨t, run, n, state, none_, snap, free, queue, gen, commit, place, tiles, empty⟩ := holds over_
    exact ⟨t, run, n, state, none_, snap, free, queue, gen, commit, place ▸ region, tiles, empty⟩
  case refine_4 =>
    rintro ⟨region, snapping, tile⟩
    obtain ⟨g, region⟩ := Option.ne_none_iff_exists'.mp region
    exact exec_snapshotTileComplete_nodes region snapping tile
  case refine_5 =>
    rintro ⟨region, snapping, tile⟩ todo nodes w halt
    obtain ⟨g, region⟩ := Option.ne_none_iff_exists'.mp region
    cases halt
    refine ⟨exec_snapshotTileComplete_halts region snapping tile todo nodes, fun halted answered => ?_⟩
    obtain ⟨v, quiet, at_, others, res, waits, holds⟩ := snapshotTileComplete_done region snapping tile todo nodes halted answered
    refine ⟨v, quiet, at_, others, res, waits, fun over_ => ?_⟩
    obtain ⟨t, run, ⟨n, state, none_, snap, free, queue, gen, commit, place, tiles, empty⟩, same⟩ := holds over_
    rw [same] at tiles empty
    exact ⟨t, run, n, state, none_, snap, free, queue, gen, commit, place ▸ region, tiles, empty⟩
  case refine_6 =>
    exact ⟨_, exec_restoreCmd_refused snap may differs, quiet_updRes .., (resOf_updRes_apply ..).trans (if_pos rfl)⟩
  case refine_7 =>
    exact ⟨_, restoreCmd_waits snap may digest wait, quiet_updRes .., (resOf_updRes_apply ..).trans (if_pos rfl)⟩
  case refine_8 =>
    obtain ⟨t, run, state, region, resid, gen, commit, snap', snapping, restoring⟩ := restoreCmd_restores snap may digest image free find
    exact ⟨t, run, state, region, resid, gen, commit, snap', snapping, restoring⟩

end Sys2Proof.Machine
end

section
/-!
The end of a residency (02 R62, 17 R398, R399): its end record goes to the system outlet, and its region is freed.
-/

namespace Sys2Proof.Machine

/-! End records. -/

/-- What sending an end record leaves: the system outlet and its waiting records move. -/
theorem drainSys_eq (n : Nat) (s : State) : drainSys n s = { s with sysWait := (drainSys n s).sysWait, outlets := (drainSys n s).outlets } := by
  induction n generalizing s with
  | zero => rfl
  | succ n ih =>
    unfold drainSys
    dsimp only
    split
    · rfl
    · split
      · rw [ih]; rfl
      · rfl

theorem sendEnd_eq (s : State) (h : Nat) : sendEnd s h = { s with sysWait := (sendEnd s h).sysWait, outlets := (sendEnd s h).outlets } := by
  unfold sendEnd
  dsimp only
  rw [drainSys_eq]

/-- The end record as a token of the system outlet (R399). -/
def endToken (s : State) (h : Nat) : Token :=
  { kind := .data, line := true, payload := endRecord s h, round := 0, resid := 0, seq := 0, port := 0, scale := 0, ohdr := none }

theorem sendEnd_room {s : State} {h : Nat} (none_ : s.sysWait = []) (room : (s.outlet 0).q.length < 256) :
    sendEnd s h = ({ s with sysWait := [] }.placeOutlet 0 (max (s.outlet 0).next (s.outlet 0).h) (endToken s h)) := by
  have same : ({ s with sysWait := [endRecord s h] } : State).outlet 0 = s.outlet 0 := rfl
  unfold sendEnd
  rw [none_]
  simp only [List.nil_append, List.length_singleton, drainSys, same, if_pos room]
  rfl

theorem sendEnd_token {s : State} {h : Nat} (none_ : s.sysWait = []) (room : (s.outlet 0).q.length < 256) :
    (sendEnd s h).sysWait = [] ∧ AMap.get? ((sendEnd s h).outlet 0).q (max (s.outlet 0).next (s.outlet 0).h) =
      some { endToken s h with seq := max (s.outlet 0).next (s.outlet 0).h, scale := 0 } := by
  rw [sendEnd_room none_ room]
  refine ⟨rfl, ?_⟩
  rw [State.placeOutlet, State.outlet_setOutlet]
  exact AMap.get?_set_same ..

theorem RState.code_le (x : RState) : x.code ≤ 6 := by cases x <;> decide

/-- The two lowest words of an end record (R399). -/
theorem endRecord_words (s : State) (h : Nat) : (endRecord s h).toNat % 2 ^ 64 =
      h % 256 + (s.resOf h).resid.toNat * 2 ^ 8 + (s.resOf h).state.code * 2 ^ 20 ∧
    (endRecord s h).toNat / 2 ^ 64 % 2 ^ 64 = (s.resOf h).result.toNat := by
  have code := (s.resOf h).state.code_le
  have number := (s.resOf h).resid.isLt
  have result := (s.resOf h).result.isLt
  set r := s.resOf h with hr
  have record : (endRecord s h).toNat =
      (BitVec.ofNat 64 r.replay ++ r.err.w2 ++ r.err.w1 ++ r.err.w0).toNat * 2 ^ 128 + r.result.toNat * 2 ^ 64 +
        (h % 256 + r.resid.toNat * 2 ^ 8 + r.state.code * 2 ^ 20) := by
    rw [endRecord, BitVec.toNat_setWidth_of_le (by decide)]
    rw [← hr, toNat_append_eq, toNat_append_eq, BitVec.toNat_ofNat, Nat.mod_eq_of_lt (by omega)]
    omega
  rw [record]
  omega

/-! A residency ends. -/

/-- The residency after its end. -/
def Res.over (r : Res) (st : RState) (err : ErrRec) : Res :=
  ({ r with state := st, abortAsked := false, restoring := false, snap := if r.tileLost then r.snap else none } : Res).noRegion err

section
variable (u : State) (h : Nat) (st : RState)

/-- The state in which a residency has its last state. -/
def ending : State :=
  (releaseGroups u ((u.resTiles h).flatMap fun k => (u.tile k).members.map (·.group)).eraseDups).updRes h fun r =>
    { r with state := st, abortAsked := false, restoring := false, snap := if r.tileLost then r.snap else none }

theorem closeRes_eq : closeRes u h st = freeRegion (sendEnd (ending u h st) h) h := rfl

theorem resOf_ending (m : Nat) : (ending u h st).resOf m = if m = h then
    { u.resOf h with state := st, abortAsked := false, restoring := false, snap := if (u.resOf h).tileLost then (u.resOf h).snap else none }
    else u.resOf m := by
  rw [ending, resOf_updRes_apply, releaseGroups_eq]
  rfl

theorem ending_rest : (ending u h st).rects = u.rects ∧ (ending u h st).sysWait = u.sysWait ∧ (ending u h st).outlets = u.outlets := by
  rw [ending, releaseGroups_eq]
  exact ⟨rfl, rfl, rfl⟩

theorem resOf_sendEnd (s : State) (m : Nat) : (sendEnd s h).resOf m = s.resOf m := by rw [sendEnd_eq]; rfl

theorem resTiles_ending : (sendEnd (ending u h st) h).resTiles h = u.resTiles h := by
  have at_ : (sendEnd (ending u h st) h).resOf h =
      { u.resOf h with state := st, abortAsked := false, restoring := false, snap := if (u.resOf h).tileLost then (u.resOf h).snap else none } := by
    rw [resOf_sendEnd, resOf_ending, if_pos rfl]
  have rects : (sendEnd (ending u h st) h).rects = u.rects := by rw [sendEnd_eq]; exact (ending_rest u h st).1
  rw [State.resTiles, at_, State.resTiles]
  unfold State.regionTiles State.regionTile
  rw [rects]

theorem resOf_closeRes : (closeRes u h st).resOf h = (u.resOf h).over st ((sendEnd (ending u h st) h).errOf h) := by
  rw [closeRes_eq, resOf_freeRegion, resOf_sendEnd, resOf_ending, if_pos rfl]
  rfl

theorem resOf_closeRes_other {m : Nat} (hm : m ≠ h) : (closeRes u h st).resOf m = { u.resOf m with err := ((closeRes u h st).resOf m).err } := by
  have same := resOf_freeRegion_other (sendEnd (ending u h st) h) h hm
  rw [resOf_sendEnd, resOf_ending, if_neg hm] at same
  exact same

theorem resOf_closeRes_nowhere {m : Nat} (hm : m ≠ h) (region : (u.resOf h).region = none) : (closeRes u h st).resOf m = u.resOf m := by
  rw [closeRes_eq, resOf_freeRegion_nowhere _ _ hm, resOf_sendEnd, resOf_ending, if_neg hm]
  rw [resOf_sendEnd, resOf_ending, if_pos rfl]
  exact region

theorem vacant_closeRes {k : Nat} (hk : k ∈ u.resTiles h) : ((closeRes u h st).tile k).Vacant :=
  vacant_freeRegion (sendEnd (ending u h st) h) h (by rw [resTiles_ending]; exact hk)

/-- The record of the end stands in the system outlet, where there is room (R398, R399). -/
theorem endRecord_closeRes (none_ : u.sysWait = []) (room : (u.outlet 0).q.length < 256) : ∃ tok, (closeRes u h st).sysWait = [] ∧
    AMap.get? ((closeRes u h st).outlet 0).q (max (u.outlet 0).next (u.outlet 0).h) = some tok ∧ tok.kind = .data ∧ tok.line = true ∧
    tok.payload.toNat % 2 ^ 64 = h % 256 + (u.resOf h).resid.toNat * 2 ^ 8 + st.code * 2 ^ 20 ∧
    tok.payload.toNat / 2 ^ 64 % 2 ^ 64 = (u.resOf h).result.toNat := by
  obtain ⟨-, wait, outlets⟩ := ending_rest u h st
  have outlet : (ending u h st).outlet 0 = u.outlet 0 := by rw [State.outlet, outlets]; rfl
  obtain ⟨empty, token⟩ := sendEnd_token (s := ending u h st) (h := h) (wait.trans none_) (by rw [outlet]; exact room)
  obtain ⟨word0, word1⟩ := endRecord_words (ending u h st) h
  rw [resOf_ending, if_pos rfl] at word0 word1
  dsimp only at word0 word1
  rw [outlet] at token
  refine ⟨{ endToken (ending u h st) h with seq := max (u.outlet 0).next (u.outlet 0).h, scale := 0 }, (freeRegion_sysWait ..).trans empty, ?_, rfl, rfl,
    word0, word1⟩
  rw [closeRes_eq, queue_freeRegion]
  exact token

end

/-! The ends that the obligation speaks of. -/

/-- A residency is over with a state, as the obligation says it. -/
def IsOver (s t : State) (h : Nat) (st : RState) : Prop :=
  (t.resOf h).state = st ∧
    ((t.resOf h).region = none ∧ ∀ k ∈ s.resTiles h, (t.tile k).slots = [] ∧ (t.tile k).waiters = [] ∧ ∀ n, n ≠ 0 → ((t.tile k).ctx n).mode = .free) ∧
    (∀ m, m ≠ h → t.resOf m = { s.resOf m with err := (t.resOf m).err }) ∧
    (t.resOf h).snap = (if (s.resOf h).tileLost then (s.resOf h).snap else none) ∧
    (s.sysWait = [] → (s.outlet 0).q.length < 256 → ∃ tok, t.sysWait = [] ∧
      AMap.get? (t.outlet 0).q (max (s.outlet 0).next (s.outlet 0).h) = some tok ∧ tok.kind = .data ∧ tok.line = true ∧
      tok.payload.toNat % 2 ^ 64 = h % 256 + (t.resOf h).resid.toNat * 2 ^ 8 + st.code * 2 ^ 20 ∧
      tok.payload.toNat / 2 ^ 64 % 2 ^ 64 = (t.resOf h).result.toNat)

/-- What may have changed before a residency ends: tiles, groups, and of the residency what the end does not read. -/
structure BeforeEnd (s u : State) (h : Nat) : Prop where
  others : ∀ m, m ≠ h → u.resOf m = { s.resOf m with err := (u.resOf m).err }
  region : (u.resOf h).region = (s.resOf h).region
  tileLost : (u.resOf h).tileLost = (s.resOf h).tileLost
  snap : (u.resOf h).snap = (s.resOf h).snap
  rects : u.rects = s.rects
  sysWait : u.sysWait = s.sysWait
  outlets : u.outlets = s.outlets

theorem BeforeEnd.refl (s : State) (h : Nat) : BeforeEnd s s h := ⟨fun _ _ => rfl, rfl, rfl, rfl, rfl, rfl, rfl⟩

theorem BeforeEnd.trans {s t u : State} {h : Nat} (a : BeforeEnd s t h) (b : BeforeEnd t u h) : BeforeEnd s u h :=
  ⟨fun m hm => by rw [b.others m hm, a.others m hm], b.region.trans a.region, b.tileLost.trans a.tileLost, b.snap.trans a.snap,
    b.rects.trans a.rects, b.sysWait.trans a.sysWait, b.outlets.trans a.outlets⟩

/-- Tiles and the group table do not matter. -/
theorem BeforeEnd.of_rest {s u : State} (h : Nat) (res : u.res = s.res) (rects : u.rects = s.rects) (sysWait : u.sysWait = s.sysWait)
    (outlets : u.outlets = s.outlets) : BeforeEnd s u h := by
  have at_ : ∀ m, u.resOf m = s.resOf m := fun m => by rw [State.resOf, res]; rfl
  exact ⟨fun m _ => by rw [at_], by rw [at_], by rw [at_], by rw [at_], rects, sysWait, outlets⟩

theorem BeforeEnd.updRes (s : State) (h : Nat) {f : Res → Res} (region : (f (s.resOf h)).region = (s.resOf h).region)
    (tileLost : (f (s.resOf h)).tileLost = (s.resOf h).tileLost) (snap : (f (s.resOf h)).snap = (s.resOf h).snap) : BeforeEnd s (s.updRes h f) h := by
  have at_ : (s.updRes h f).resOf h = f (s.resOf h) := by rw [resOf_updRes_apply, if_pos rfl]
  exact ⟨fun m hm => by rw [resOf_updRes_apply, if_neg hm], by rw [at_, region], by rw [at_, tileLost], by rw [at_, snap], rfl, rfl, rfl⟩

theorem BeforeEnd.resTiles {s u : State} {h : Nat} (b : BeforeEnd s u h) : u.resTiles h = s.resTiles h := by
  unfold State.resTiles
  rw [b.region]
  unfold State.regionTiles State.regionTile
  rw [b.rects]

theorem isOver_closeRes {s u : State} {h : Nat} (b : BeforeEnd s u h) (st : RState) : IsOver s (closeRes u h st) h st := by
  have over_ := resOf_closeRes u h st
  have outlet : u.outlet 0 = s.outlet 0 := by rw [State.outlet, b.outlets]; rfl
  refine ⟨by rw [over_]; rfl, ⟨by rw [over_]; rfl, fun k hk => ?_⟩, fun m hm => ?_, by rw [over_, ← b.tileLost, ← b.snap]; rfl, fun none_ room => ?_⟩
  · obtain ⟨slots, waiters, free⟩ := vacant_closeRes u h st (k := k) (by rw [b.resTiles]; exact hk)
    exact ⟨slots, waiters, free⟩
  · rw [resOf_closeRes_other u h st hm, b.others m hm]
  · have record := endRecord_closeRes u h st (b.sysWait.trans none_) (by rw [outlet]; exact room)
    rw [outlet] at record
    rw [over_]
    exact record

/-- The state before a rejection ends its residency. -/
def rejecting (s : State) (h : Nat) (f : CfgFail) : State :=
  ((s.resTiles h).foldl (fun s k => s.updTile k fun t => { t with lastResult := f.word }) s).updRes h fun r => { r with result := f.word, stageDue := false }

theorem rejectRes_eq (s : State) (h : Nat) (f : CfgFail) : rejectRes s h f = closeRes (rejecting s h f) h .aborted := rfl

theorem beforeEnd_rejecting (s : State) (h : Nat) (f : CfgFail) : BeforeEnd s (rejecting s h f) h := by
  refine .trans (t := (s.resTiles h).foldl (fun s k => s.updTile k fun t => { t with lastResult := f.word }) s) ?_ (.updRes _ h rfl rfl rfl)
  refine .of_rest h ?_ ?_ ?_ ?_ <;> rw [foldl_updTile_eq]

theorem resOf_rejectRes (s : State) (h : Nat) (f : CfgFail) : ∃ err, (rejectRes s h f).resOf h =
    ({ s.resOf h with result := f.word, stageDue := false } : Res).over .aborted err := by
  have at_ : (rejecting s h f).resOf h = { s.resOf h with result := f.word, stageDue := false } := by
    rw [rejecting, resOf_updRes_apply, if_pos rfl, foldl_updTile_eq]; rfl
  exact ⟨_, by rw [rejectRes_eq, resOf_closeRes, at_]⟩

theorem isOver_rejectRes {s u : State} {h : Nat} (b : BeforeEnd s u h) (f : CfgFail) : IsOver s (rejectRes u h f) h .aborted :=
  isOver_closeRes (b.trans (beforeEnd_rejecting u h f)) .aborted

theorem result_rejectRes (s : State) (h : Nat) (f : CfgFail) : ((rejectRes s h f).resOf h).result = f.word := by
  obtain ⟨err, at_⟩ := resOf_rejectRes s h f
  rw [at_]; rfl

end Sys2Proof.Machine
end

section
/-!
Arming and re-arming (02 R54, 13 R330, R332): channels come into being, what stands on them arrives, and a tile switches to a role's slot.
-/

namespace Sys2Proof.Machine

/-! What arrivals keep. -/

/-- The active slot and the role of a tile are the same. -/
structure SameRole (t u : Tile) : Prop where
  active : u.active = t.active
  role : u.role = t.role

/-- What an arrival keeps of a tile. -/
structure SlotKept (t u : Tile) : Prop extends SameRole t u where
  state : u.slot.state = t.slot.state
  resid : u.slot.resid = t.slot.resid
  handle : u.slot.handle = t.slot.handle

theorem SlotKept.refl (t : Tile) : SlotKept t t := ⟨⟨rfl, rfl⟩, rfl, rfl, rfl⟩

theorem SlotKept.trans {t u v : Tile} (a : SlotKept t u) (b : SlotKept u v) : SlotKept t v :=
  ⟨⟨b.active.trans a.active, b.role.trans a.role⟩, b.state.trans a.state, b.resid.trans a.resid, b.handle.trans a.handle⟩

theorem SlotKept.of_tokens {t u : Tile} (h : TokenTile t u) : SlotKept t u :=
  ⟨⟨h.active, by rw [h.tile]⟩, by rw [h.slot], by rw [h.slot], by rw [h.slot]⟩

/-- Memory does not say which slot is active. -/
theorem Tile.writeTlm_eq (t : Tile) (a : Nat) (bs : List Byte) : t.writeTlm a bs = { t with
    tlm := (t.writeTlm a bs).tlm, gtags := (t.writeTlm a bs).gtags, ctxs := (t.writeTlm a bs).ctxs, poison := (t.writeTlm a bs).poison, err1 := (t.writeTlm a bs).err1
    err2 := (t.writeTlm a bs).err2 } := by
  rw [Tile.writeTlm, Tile.keepStale_eq]

theorem slotKept_writeTlm (t : Tile) (a : Nat) (bs : List Byte) : SlotKept t (t.writeTlm a bs) := by
  have slot := t.slot_writeTlm a bs
  exact ⟨⟨by rw [Tile.writeTlm_eq], by rw [Tile.writeTlm_eq]⟩, by rw [slot], by rw [slot], by rw [slot]⟩

theorem slotKept_placeToken (t : Tile) (p n : Nat) (tok : Token) : SlotKept t (t.placeToken p n tok) := by
  rw [placeToken_eq]
  exact (slotKept_writeTlm ..).trans (.of_tokens (tokenTile_setPort ..))

/-- A step after which every tile has its active slot still, and the residencies are as they were but for error records and the time of
their last move. -/
structure SlotsKept (s t : State) : Prop where
  tiles : ∀ k, SlotKept (s.tile k) (t.tile k)
  res : ResKept s t

namespace SlotsKept

theorem refl (s : State) : SlotsKept s s := ⟨fun _ => .refl _, .refl s⟩

theorem trans {s t u : State} (a : SlotsKept s t) (b : SlotsKept t u) : SlotsKept s u :=
  ⟨fun k => (a.tiles k).trans (b.tiles k), a.res.trans b.res⟩

theorem foldl {α : Type} {step : State → α → State} (one : ∀ (s : State) y, SlotsKept s (step s y)) (l : List α) (s : State) :
    SlotsKept s (l.foldl step s) := by
  induction l generalizing s with
  | nil => exact refl s
  | cons y l ih => exact (one s y).trans (ih _)

theorem of_tokens {s t : State} (h : TokenStep s t) : SlotsKept s t := ⟨fun k => .of_tokens (h.tiles k), ⟨h.res⟩⟩

theorem of_same {s t : State} (tiles : t.tiles = s.tiles) (res : t.res = s.res) : SlotsKept s t :=
  ⟨fun k => (show t.tile k = s.tile k by rw [State.tile, tiles]; rfl) ▸ .refl _, .of_res res⟩

theorem updTile (s : State) (k : Nat) {f : Tile → Tile} (h : SlotKept (s.tile k) (f (s.tile k))) : SlotsKept s (s.updTile k f) := by
  refine ⟨fun q => ?_, .updTile ..⟩
  rw [State.tile_updTile_apply]
  split
  case isTrue e => rw [e]; exact h
  case isFalse => exact .refl _

theorem deliver (s : State) (k p n : Nat) (tok : Token) : SlotsKept s (deliver s k p n tok) :=
  (updTile s k (slotKept_placeToken ..)).trans (of_tokens (tokenStep_deliver ..))

theorem dropToken (s : State) (k : Nat) (tok : Token) : SlotsKept s (dropToken s k tok) := of_tokens (.dropToken ..)

theorem strayArrival (s : State) (id : Nat) : SlotsKept s (strayArrival s id) := by
  unfold Machine.strayArrival
  split
  · exact refl s
  · split
    · exact refl s
    · rename_i k tok _
      have gone : SlotsKept s { s with strays := s.strays.eraseIdx (id - strayBase) } := of_same rfl rfl
      dsimp only
      split
      · exact gone
      · exact gone.trans (dropToken ..)

/-- A token arrives, wherever its branch leads (R35, R39, R348, R398, R406). -/
theorem tokenArrival {s t : State} {id n seq : Nat} (run : execTokenArrival id n seq s = .next t) : SlotsKept s t := by
  unfold execTokenArrival at run
  split at run
  · cases run; exact strayArrival ..
  rename_i c hc
  split at run
  · cases run; exact refl s
  rename_i b hb
  split at run
  · cases run; exact refl s
  rename_i f hf
  split at run
  case isFalse => cases run; exact refl s
  have off : SlotsKept s ((s.countEcc c.handle f.corr (if f.bad then 1 else 0)).setChan id (c.land n seq)) :=
    of_tokens ((TokenStep.countEcc ..).trans (.setChan ..))
  cases run
  refine off.trans ?_
  generalize (if f.bad then 1 else 0) = u
  dsimp only
  split
  · split
    · exact dropToken ..
    · exact deliver ..
  · split
    · exact dropToken ..
    · exact deliver ..
  · split
    · exact dropToken ..
    · split
      · exact refl _
      · exact of_tokens (((TokenStep.updTile _ _ (tokenTile_setOper ..)).trans (.operDrain ..)).trans (.moved ..))
  · refine .trans ?_ (of_tokens (.moved ..))
    exact of_same rfl rfl
  · split
    · exact of_same rfl rfl
    · exact of_tokens (.updErr ..)
  · exact refl _

theorem settleChan (s : State) (id : Nat) : SlotsKept s (settleChan s id) := by
  unfold Machine.settleChan
  split
  · exact refl s
  · refine foldl (fun s i => ?_) ..
    split
    · exact refl s
    · refine foldl (fun s f => ?_) ..
      split
      · exact tokenArrival ‹_›
      · exact refl s

theorem setChan (s : State) (n : Nat) (c : Chan) : SlotsKept s (s.setChan n c) := of_same rfl rfl

theorem bindEnds (s : State) (id : Nat) (c : Chan) : SlotsKept s (bindEnds s id c) := by
  unfold Machine.bindEnds
  dsimp only
  refine .trans ?_ (foldl (fun u i => ?_) ..)
  · split
    · exact of_same rfl rfl
    · exact of_same rfl rfl
    · exact refl s
  · split
    · exact of_same rfl rfl
    · exact of_same rfl rfl
    · exact refl u

theorem makeChans (s : State) (h : Nat) (g : Region) (ws : List Word) (resid : BitVec 12) : SlotsKept s (makeChans s h g ws resid) :=
  (foldl (fun u _ => (setChan u _ _).trans (bindEnds ..)) ..).trans (foldl (fun _ _ => settleChan ..) ..)

end SlotsKept

/-! A tile switches to a slot. -/

theorem role_freeClaims (t : Tile) (p : Nat → Bool) : SameRole t (t.freeClaims p) := ⟨rfl, rfl⟩

theorem role_zeroScratch (t : Tile) (a : Actor) : SameRole t (zeroScratch t a) := by
  unfold zeroScratch
  split
  · exact ⟨rfl, rfl⟩
  · exact (slotKept_writeTlm ..).toSameRole

theorem SameRole.trans {t u v : Tile} (a : SameRole t u) (b : SameRole u v) : SameRole t v := ⟨b.active.trans a.active, b.role.trans a.role⟩

theorem SameRole.foldl {α : Type} {step : Tile → α → Tile} (one : ∀ (t : Tile) y, SameRole t (step t y)) (l : List α) (t : Tile) :
    SameRole t (l.foldl step t) := by
  induction l generalizing t with
  | nil => exact ⟨rfl, rfl⟩
  | cons y l ih => exact (one t y).trans (ih _)

theorem role_putQueue (t : Tile) (l : List (Nat × List Byte × Bool)) : SameRole t (t.putQueue l) := by
  refine .foldl (fun t y => ?_) ..
  dsimp only
  split
  · exact (slotKept_writeTlm ..).toSameRole.trans ⟨rfl, rfl⟩
  · exact (slotKept_writeTlm ..).toSameRole

/-- Claims on other tiles end, and what of the state is no tile stays. -/
theorem tile_freeFar (s : State) (k a q : Nat) : (s.freeFar k a).tile q = s.tile q ∨ (s.freeFar k a).tile q = (s.tile q).freeClaims (· == farKey k a) := by
  simp only [State.tile, State.freeFar, AMap.getD, AMap.get?_mapVals]
  cases AMap.get? s.tiles q with
  | none => exact .inl rfl
  | some t =>
    simp only [Option.map_some, Option.getD_some]
    split
    · exact .inl rfl
    · exact .inr rfl

/-- A step of a switch: tiles have their active slot still, and the residencies stay. -/
structure RolesKept (s t : State) : Prop where
  tiles : ∀ k, SameRole (s.tile k) (t.tile k)
  res : t.res = s.res

namespace RolesKept

theorem refl (s : State) : RolesKept s s := ⟨fun _ => ⟨rfl, rfl⟩, rfl⟩

theorem trans {s t u : State} (a : RolesKept s t) (b : RolesKept t u) : RolesKept s u :=
  ⟨fun k => (a.tiles k).trans (b.tiles k), b.res.trans a.res⟩

theorem foldl {α : Type} {step : State → α → State} (one : ∀ (s : State) y, RolesKept s (step s y)) (l : List α) (s : State) :
    RolesKept s (l.foldl step s) := by
  induction l generalizing s with
  | nil => exact refl s
  | cons y l ih => exact (one s y).trans (ih _)

theorem freeFar (s : State) (k a : Nat) : RolesKept s (s.freeFar k a) := by
  refine ⟨fun q => ?_, rfl⟩
  rcases tile_freeFar s k a q with e | e <;> rw [e]
  · exact ⟨rfl, rfl⟩
  · exact role_freeClaims ..

theorem of_chans (s : State) (cs : AMap Chan) : RolesKept s { s with chans := cs } := ⟨fun _ => ⟨rfl, rfl⟩, rfl⟩

theorem freeSlots (s : State) (c i n : Nat) : RolesKept s (s.freeSlots c i n) := by
  unfold State.freeSlots
  split
  · exact refl s
  · split
    · exact refl s
    · exact of_chans ..

theorem passCredits (s : State) (x new : Port) : RolesKept s (passCredits s x new) := by
  unfold Machine.passCredits
  split
  · exact (of_chans s _).trans (of_chans ..)
  · exact refl s

theorem rebase (s : State) (x new : Port) : RolesKept s (rebase s x new) := by
  unfold Machine.rebase
  split
  · exact refl s
  split
  · exact refl s
  split
  · exact refl s
  dsimp only
  split
  · exact (of_chans s _).trans (freeSlots ..)
  · exact of_chans ..

end RolesKept

/-- The channels of carried ports pass over, and the slot's own open (R54). -/
def carryChans (s : State) (k dest : Nat) : State :=
  let t := s.tile k
  let new := (AMap.getD t.slots dest Slot.blank).fresh
  let carried := t.slot.ports.filter fun p => p.2.carried && (AMap.get? new.ports p.1).isSome
  let s1 := carried.foldl (fun s p =>
    let n := AMap.getD new.ports p.1 Port.blank
    if keepsChan s p.2.chan n.chan then s else if p.2.output then passCredits s p.2 n else rebase s p.2 n) s
  { s1 with chans := AMap.mapVals s1.chans fun _ c => match c.src with
    | .port q _ | .stream q _ => if q = k ∧ c.slot = dest ∧ c.handle = new.handle then { c with closed := false } else c
    | _ => c }

/-- The claims of a tile and its actors end (R201, R257). -/
def endClaims (s : State) (k : Nat) (old : Slot) : State :=
  ((AMap.keys old.actors).foldl (fun s a => s.freeFar k a) s).updTile k fun t => t.freeClaims fun _ => true

/-- The ports of the incoming slot, with the queues that are carried. -/
def carriedPorts (s : State) (k dest : Nat) : AMap Port :=
  let t := s.tile k
  let new := (AMap.getD t.slots dest Slot.blank).fresh
  (t.slot.ports.filter fun p => p.2.carried && (AMap.get? new.ports p.1).isSome).foldl (fun m p =>
    let n := AMap.getD new.ports p.1 Port.blank
    AMap.set m p.1 (carryPort p.2 n (keepsChan s p.2.chan n.chan))) new.ports

/-- The payloads of the queues that are carried, at their new addresses. -/
def carriedBytes (t : Tile) (dest : Nat) : List (Nat × List Byte × Bool) :=
  let new := (AMap.getD t.slots dest Slot.blank).fresh
  (t.slot.ports.filter fun p => p.2.carried && (AMap.get? new.ports p.1).isSome).flatMap fun p =>
    queueCopy t p.2 (AMap.getD new.ports p.1 Port.blank)

/-- The tile with its new active slot. -/
def Tile.enterSlot (t : Tile) (dest : Nat) (new : Slot) (moved : List (Nat × List Byte × Bool)) : Tile :=
  let slots := AMap.set t.slots t.active { t.slot with state := if t.slot.state = .empty then .empty else .loaded }
  ((AMap.vals new.actors).filter fun a => decide (a.firings = 0)).foldl zeroScratch
    (({ t with slots := AMap.set slots dest new, active := dest } : Tile).putQueue moved)

theorem switchSlot_eq (s : State) (k dest : Nat) : switchSlot s k dest = (endClaims (carryChans s k dest) k (s.tile k).slot).updTile k fun t =>
    t.enterSlot dest { (AMap.getD (s.tile k).slots dest Slot.blank).fresh with ports := carriedPorts s k dest } (carriedBytes (s.tile k) dest) := rfl

theorem rolesKept_carryChans (s : State) (k dest : Nat) : RolesKept s (carryChans s k dest) := by
  refine .trans (.foldl (fun u p => ?_) ..) (.of_chans ..)
  dsimp only
  split
  · exact .refl u
  · split
    · exact .passCredits ..
    · exact .rebase ..

theorem rolesKept_endClaims (s : State) (k : Nat) (old : Slot) : RolesKept s (endClaims s k old) := by
  unfold endClaims
  refine .trans (.foldl (fun u a => .freeFar u k a) _ s) ⟨fun q => ?_, rfl⟩
  rw [State.tile_updTile_apply]
  split
  case isTrue e => rw [e]; exact role_freeClaims ..
  case isFalse => exact ⟨rfl, rfl⟩

theorem active_enterSlot (t : Tile) (dest : Nat) (new : Slot) (moved : List (Nat × List Byte × Bool)) :
    (t.enterSlot dest new moved).active = dest ∧ (t.enterSlot dest new moved).role = t.role := by
  obtain ⟨active, role⟩ := (role_putQueue _ moved).trans (SameRole.foldl role_zeroScratch ((AMap.vals new.actors).filter fun a => decide (a.firings = 0)) _)
  exact ⟨active, role⟩

theorem switchSlot_active (s : State) (k dest : Nat) : ((switchSlot s k dest).tile k).active = dest := by
  rw [switchSlot_eq, State.tile_updTile]
  exact (active_enterSlot ..).1

theorem switchSlot_other (s : State) {k q : Nat} (dest : Nat) (hq : q ≠ k) : SameRole (s.tile q) ((switchSlot s k dest).tile q) := by
  rw [switchSlot_eq, State.tile_updTile_apply, if_neg hq]
  exact ((rolesKept_carryChans s k dest).trans (rolesKept_endClaims ..)).tiles q

theorem switchSlot_res (s : State) (k dest : Nat) : (switchSlot s k dest).res = s.res :=
  ((rolesKept_carryChans s k dest).trans (rolesKept_endClaims ..)).res

/-! A region re-arms. -/

/-- A tile goes back to the first role's slot (R332). -/
def rearmTile (f : Nat) (s : State) (k : Nat) : State :=
  (if (s.tile k).active = f then s else switchSlot s k f).updTile k fun t => { t with role := 0, slots := AMap.mapVals t.slots fun _ x => x.rearm }

theorem rearmTile_at (f : Nat) (s : State) (k : Nat) : ((rearmTile f s k).tile k).role = 0 ∧ ((rearmTile f s k).tile k).active = f := by
  rw [rearmTile, State.tile_updTile]
  refine ⟨rfl, ?_⟩
  split
  case isTrue e => exact e
  case isFalse => exact switchSlot_active s k f

theorem rearmTile_other (f : Nat) (s : State) {k q : Nat} (hq : q ≠ k) : SameRole (s.tile q) ((rearmTile f s k).tile q) := by
  rw [rearmTile, State.tile_updTile_apply, if_neg hq]
  split
  · exact ⟨rfl, rfl⟩
  · exact switchSlot_other s f hq

theorem rearmTile_res (f : Nat) (s : State) (k : Nat) : (rearmTile f s k).res = s.res := by
  rw [rearmTile]
  split
  · rfl
  · exact switchSlot_res s k f

/-- Every tile that re-arms stands at the first role. -/
theorem rearmTiles_at (f : Nat) {l : List Nat} {k : Nat} (h : k ∈ l) (s : State) :
    ((l.foldl (rearmTile f) s).tile k).role = 0 ∧ ((l.foldl (rearmTile f) s).tile k).active = f := by
  refine foldl_reaches (P := fun u : State => (u.tile k).role = 0 ∧ (u.tile k).active = f) h (fun u => rearmTile_at f u k)
    (fun u q ⟨role, active⟩ => ?_) s
  by_cases e : k = q
  · rw [← e]; exact rearmTile_at f u k
  · obtain ⟨active', role'⟩ := rearmTile_other f u e
    exact ⟨role'.trans role, active'.trans active⟩

theorem rearmTiles_res (f : Nat) (l : List Nat) (s : State) : (l.foldl (rearmTile f) s).res = s.res :=
  List.foldlRecOn (motive := fun u : State => u.res = s.res) _ _ rfl fun u h k _ => (rearmTile_res f u k).trans h

/-- The channels of a region that re-arms, and what arrives on them (R332). -/
def rearmChans (s : State) (h : Nat) (ws : List Word) : State :=
  let rs := imgRecs ws
  ((chanRecs rs).filter (·.slot == imgFirst ws)).foldl (fun s r => settleChan s (chanId h r.slot r.arg))
    ((chanRecs rs).foldl (fun s r => match s.chan? (chanId h r.slot r.arg) with
      | some c => s.setChan (chanId h r.slot r.arg) (rearmChan rs r c)
      | none => s) s)

theorem rearm_eq (s : State) (h : Nat) (ws : List Word) : rearm s h ws =
    (rearmChans ((s.resTiles h).foldl (rearmTile (imgFirst ws)) s) h ws).updRes h fun r => { r with
      replay := r.replay + 1, faultEos := false, wdLast := s.now } := rfl

theorem slotsKept_rearmChans (s : State) (h : Nat) (ws : List Word) : SlotsKept s (rearmChans s h ws) := by
  refine .trans (.foldl (fun u r => ?_) ..) (.foldl (fun u r => .settleChan ..) ..)
  split
  · exact .setChan ..
  · exact .refl u

end Sys2Proof.Machine
end

section
/-!
Placement and loading (02 R62, 13 R330, R336): the first free region, and the tiles with the slots of every role.
-/

namespace Sys2Proof.Machine

/-! Result words (R322). -/

theorem CfgFail.toNat_word {f : CfgFail} (code : f.code < 256) (kind : f.kind < 16) :
    f.word.toNat = f.code * 2 ^ 56 + f.kind * 2 ^ 52 + f.row % 256 * 2 ^ 44 + f.col % 256 * 2 ^ 36 + f.obj % 2 ^ 32 := by
  rw [CfgFail.word, BitVec.toNat_ofNat]
  exact Nat.mod_eq_of_lt (by omega)

theorem CfgFail.word_signature (row col obj : Nat) : (CfgFail.mk cfgSignature 1 row col obj).word.toNat / 2 ^ 56 = 0x45 := by
  rw [CfgFail.toNat_word (by decide : (0x45 : Nat) < 256) (by decide : (1 : Nat) < 16)]
  simp only [cfgSignature]
  omega

theorem CfgFail.word_signature_ne (row col obj : Nat) : (CfgFail.mk cfgSignature 1 row col obj).word ≠ 0 := fun e => by
  have code := CfgFail.word_signature row col obj
  rw [e] at code
  cases code

/-! A free region. -/

theorem firstSome_mem {α β : Type} {f : α → Option β} {l : List α} {y : β} (h : firstSome f l = some y) : ∃ x ∈ l, f x = some y := by
  induction l with
  | nil => cases h
  | cons x l ih =>
    rw [firstSome] at h
    split at h
    case h_1 z found => cases h; exact ⟨x, List.mem_cons_self, found⟩
    case h_2 =>
      obtain ⟨z, hz, found⟩ := ih h
      exact ⟨z, List.mem_cons_of_mem _ hz, found⟩

theorem firstSome_none {α β : Type} {f : α → Option β} {l : List α} (h : firstSome f l = none) : ∀ x ∈ l, f x = none := by
  induction l with
  | nil => intro x hx; cases hx
  | cons x l ih =>
    rw [firstSome] at h
    split at h
    case h_1 => cases h
    case h_2 none_ => exact List.forall_mem_cons.mpr ⟨none_, ih h⟩

/-- A region that is found meets no region in use (R62). -/
theorem findRegion_free {s : State} {rows cols : Nat} {g : Region} (h : findRegion s rows cols = some g) :
    ∀ z ∈ usedRegions s, regionsMeet g z = false := by
  obtain ⟨i, -, h⟩ := firstSome_mem h
  dsimp only at h
  split at h
  · cases h
  obtain ⟨a, -, h⟩ := firstSome_mem h
  obtain ⟨b, -, h⟩ := firstSome_mem h
  split at h
  case isTrue => cases h
  case isFalse free =>
    cases h
    exact List.any_eq_false.mp (Bool.not_eq_true _ ▸ free) |> fun f z hz => Bool.not_eq_true _ ▸ f z hz

section
variable {s : State} {h : Nat} {ws : List Word} (image : (s.resOf h).image = some ws)
include image

theorem tryPlace_loads {g : Region} (queued : (s.resOf h).state = .queued) (staged : (s.resOf h).stageDue = false) (free : groupsFree s h ws = true)
    (find : findRegion s (imgRows ws) (imgCols ws) = some g) :
    tryPlace s h = { ((assignRegion s h g).updRes h fun r => { r with state := .loading }) with vpages := AMap.erase s.vpages h } := by
  simp only [tryPlace, image, find]
  rw [if_pos ⟨queued, by rw [staged]; rfl, free⟩]

end

/-! Translation (R351) depends on memory alone. -/

theorem walk_congr {s t : State} (mem : t.gmem = s.gmem) (poison : t.gpoison = s.gpoison) (err2 : t.gerr2 = s.gerr2) (x : Space) (va : Nat) :
    walk t x va = walk s x va := by
  have read : ∀ a n, t.gRead a n = s.gRead a n := fun a n => by rw [State.gRead, mem]; rfl
  have bad : ∀ a n, t.gBad a n = s.gBad a n := fun a n => by rw [State.gBad, poison, err2]; rfl
  have from_ : ∀ n level table, walkFrom t x.mon x.resid va n level table = walkFrom s x.mon x.resid va n level table := by
    intro n
    induction n with
    | zero => intro level table; rfl
    | succ n ih =>
      intro level table
      simp only [walkFrom, read, bad, ih]
  exact from_ ..

theorem rangeState_congr {s t : State} (mem : t.gmem = s.gmem) (poison : t.gpoison = s.gpoison) (err2 : t.gerr2 = s.gerr2) (x : Space) (va n : Nat)
    (r w : Bool) : rangeState t x va n r w = rangeState s x va n r w := by
  simp only [rangeState, walk_congr mem poison err2]

/-! A tile loads the slots of the roles. -/

theorem slots_loadRec (t : Tile) (r : IRec) : (loadRec t r).slots = t.slots := by
  unfold loadRec
  split
  · dsimp only; rw [Tile.writeTlm_eq]
  · split
    · rfl
    · split <;> rfl

theorem slots_zeroScratch (t : Tile) (a : Actor) : (zeroScratch t a).slots = t.slots := by
  unfold zeroScratch
  split
  · rfl
  · rw [Tile.writeTlm_eq]

theorem slots_foldl {α : Type} {step : Tile → α → Tile} (one : ∀ (t : Tile) y, (step t y).slots = t.slots) (l : List α) (t : Tile) :
    (l.foldl step t).slots = t.slots :=
  List.foldlRecOn (motive := fun u : Tile => u.slots = t.slots) l step rfl fun u h y _ => (one u y).trans h

/-- Loading a slot puts the slot that the image declares in its place (R336). -/
theorem slots_loadFrom (t : Tile) (s : State) (ws : List Word) (h slot row col : Nat) (resid : BitVec 12) :
    (t.loadFrom s ws h slot row col resid).slots = AMap.set t.slots slot (loadSlot s (imgRecs ws) h slot row col resid) := by
  unfold Tile.loadFrom
  dsimp only
  split
  · rw [slots_foldl slots_zeroScratch, slots_foldl slots_loadRec]
  · rfl

/-- A slot of a residency stands at a place. -/
def SlotLoaded (t : Tile) (f h : Nat) (resid : BitVec 12) : Prop :=
  t.lastResult = 0 → (AMap.getD t.slots f Slot.blank).resid = resid ∧ (AMap.getD t.slots f Slot.blank).handle = h

/-- The slots of the roles, loaded up to a read error (R330 step 3). -/
def loadRoles (s : State) (k h : Nat) (ws : List Word) (i j : Nat) (resid : BitVec 12) : State :=
  (roleSlots ws).foldl (fun s n => if (s.tile k).lastResult = 0 then loadChecked s k h n i j resid ws else s) s

/-- A load ends with the slot in its place, or with a read error. -/
theorem loadChecked_tile (s : State) (k h slot row col : Nat) (resid : BitVec 12) (ws : List Word) :
    ((loadChecked s k h slot row col resid ws).tile k).lastResult ≠ 0 ∨
      ((loadChecked s k h slot row col resid ws).tile k).slots = AMap.set (s.tile k).slots slot (loadSlot s (imgRecs ws) h slot row col resid) := by
  unfold loadChecked
  dsimp only
  split
  · left
    rw [State.tile_updTile]
    exact CfgFail.word_signature_ne _ _ _
  · right
    rw [State.tile_updTile]
    exact slots_loadFrom ..

theorem loadChecked_eq (s : State) (k h slot row col : Nat) (resid : BitVec 12) (ws : List Word) :
    ∃ t, loadChecked s k h slot row col resid ws = s.setTile k t := by
  unfold loadChecked
  dsimp only
  split <;> exact ⟨_, rfl⟩

theorem slotLoaded_loadRoles {ws : List Word} {f : Nat} (hf : f ∈ roleSlots ws) (s : State) (k h i j : Nat) (resid : BitVec 12) :
    SlotLoaded ((loadRoles s k h ws i j resid).tile k) f h resid := by
  refine foldl_reaches (P := fun u : State => SlotLoaded (u.tile k) f h resid) hf (fun u => ?_) (fun u n loaded => ?_) s <;> split
  case refine_1.isTrue =>
    intro ok
    rw [((loadChecked_tile u k h f i j resid ws).resolve_left (not_not_intro ok)), AMap.getD_set_same]
    exact ⟨rfl, rfl⟩
  case refine_1.isFalse bad => exact fun ok => absurd ok bad
  case refine_2.isTrue ok =>
    intro ok'
    rw [((loadChecked_tile u k h n i j resid ws).resolve_left (not_not_intro ok')), AMap.getD_set]
    split
    case isTrue e => rw [← e]; exact ⟨rfl, rfl⟩
    case isFalse => exact loaded ok
  case refine_2.isFalse => exact loaded

theorem loadRoles_eq (s : State) (k h : Nat) (ws : List Word) (i j : Nat) (resid : BitVec 12) :
    loadRoles s k h ws i j resid = { s with tiles := (loadRoles s k h ws i j resid).tiles } ∧
      ∀ q, q ≠ k → (loadRoles s k h ws i j resid).tile q = s.tile q := by
  refine List.foldlRecOn (motive := fun u : State => u = { s with tiles := u.tiles } ∧ ∀ q, q ≠ k → u.tile q = s.tile q) _ _ ⟨rfl, fun _ _ => rfl⟩
    fun u ⟨same, others⟩ n _ => ?_
  split
  · obtain ⟨t, run⟩ := loadChecked_eq u k h n i j resid ws
    rw [run]
    exact ⟨by rw [State.setTile, same], fun q hq => (State.tile_setTile_other _ _ hq.symm).trans (others q hq)⟩
  · exact ⟨same, others⟩

/-- A tile of a region loads (R330 step 3). -/
def loadTile (h : Nat) (g : Region) (ws : List Word) (resid : BitVec 12) (i : Nat) (s : State) (j : Nat) : State :=
  let k := s.regionTile g i j
  (loadRoles (s.updTile k fun t => { t with slots := [], active := 0, lastResult := 0, accs := [], fabric := Fabric.init }) k h ws i j resid).updTile k
    fun t =>
      let f := imgFirst ws
      if t.lastResult = 0 then { t with slots := AMap.set t.slots f (AMap.getD t.slots f Slot.blank).fresh, active := f } else t

theorem loadTiles_folds (s : State) (h : Nat) (g : Region) (ws : List Word) (resid : BitVec 12) :
    loadTiles s h g ws resid = (upto g.rows).foldl (fun s i => (upto g.cols).foldl (loadTile h g ws resid i) s) s := rfl

/-- A tile with the first role's slot active, where its loads have gone well. -/
def RoleActive (t : Tile) (f h : Nat) (resid : BitVec 12) : Prop :=
  t.lastResult = 0 → t.active = f ∧ t.slot.state = .active ∧ t.slot.resid = resid ∧ t.slot.handle = h

section
variable {h : Nat} {g : Region} {ws : List Word} {resid : BitVec 12}

theorem loadTile_eq (i : Nat) (s : State) (j : Nat) : loadTile h g ws resid i s j = { s with tiles := (loadTile h g ws resid i s j).tiles } ∧
    ∀ q, q ≠ s.regionTile g i j → (loadTile h g ws resid i s j).tile q = s.tile q := by
  obtain ⟨same, others⟩ := loadRoles_eq (s.updTile (s.regionTile g i j) fun t =>
    { t with slots := [], active := 0, lastResult := 0, accs := [], fabric := Fabric.init }) (s.regionTile g i j) h ws i j resid
  unfold loadTile
  dsimp only
  refine ⟨by rw [State.updTile, State.setTile, same]; rfl, fun q hq => ?_⟩
  rw [State.tile_updTile_apply, if_neg hq, others q hq, State.tile_updTile_apply, if_neg hq]

theorem roleActive_loadTile (first : imgFirst ws ∈ roleSlots ws) (i : Nat) (s : State) (j : Nat) :
    RoleActive ((loadTile h g ws resid i s j).tile (s.regionTile g i j)) (imgFirst ws) h resid := by
  have loaded := slotLoaded_loadRoles first (s.updTile (s.regionTile g i j) fun t =>
    { t with slots := [], active := 0, lastResult := 0, accs := [], fabric := Fabric.init }) (s.regionTile g i j) h i j resid
  unfold loadTile
  dsimp only
  rw [State.tile_updTile]
  generalize State.tile _ (s.regionTile g i j) = t at loaded ⊢
  split
  case isFalse bad => exact fun ok => absurd ok bad
  case isTrue ok =>
    obtain ⟨resid', handle⟩ := loaded ok
    intro _
    have slot : Tile.slot { t with slots := AMap.set t.slots (imgFirst ws) (AMap.getD t.slots (imgFirst ws) Slot.blank).fresh, active := imgFirst ws } =
        (AMap.getD t.slots (imgFirst ws) Slot.blank).fresh := AMap.getD_set_same ..
    exact ⟨rfl, by rw [slot]; rfl, by rw [slot]; exact resid', by rw [slot]; exact handle⟩

/-- A tile that has loaded, or does not load now. -/
theorem roleActive_loadTile_keeps (first : imgFirst ws ∈ roleSlots ws) (i : Nat) (s : State) (j k : Nat)
    (before : RoleActive (s.tile k) (imgFirst ws) h resid) : RoleActive ((loadTile h g ws resid i s j).tile k) (imgFirst ws) h resid := by
  by_cases e : k = s.regionTile g i j
  · rw [e]; exact roleActive_loadTile first i s j
  · rw [(loadTile_eq i s j).2 k e]; exact before

/-- What loading changes is tiles. -/
def OnlyTiles (s t : State) : Prop := t = { s with tiles := t.tiles }

theorem OnlyTiles.loadTile {s t : State} (b : OnlyTiles s t) (i j : Nat) : OnlyTiles s (loadTile h g ws resid i t j) := by
  have a := (loadTile_eq (h := h) (g := g) (ws := ws) (resid := resid) i t j).1
  unfold OnlyTiles at b ⊢
  rw [a, b]

theorem OnlyTiles.loadRow {s t : State} (b : OnlyTiles s t) (i : Nat) (l : List Nat) : OnlyTiles s (l.foldl (Machine.loadTile h g ws resid i) t) :=
  List.foldlRecOn (motive := OnlyTiles s) _ _ b fun _ a j _ => a.loadTile i j

theorem onlyTiles_loadTiles (s : State) : OnlyTiles s (loadTiles s h g ws resid) :=
  List.foldlRecOn (motive := OnlyTiles s) _ _ rfl fun _ a i _ => a.loadRow i _

theorem OnlyTiles.regionTile {s t : State} (b : OnlyTiles s t) (i j : Nat) : t.regionTile g i j = s.regionTile g i j := by rw [b]; rfl

theorem OnlyTiles.resTiles {s t : State} (b : OnlyTiles s t) (n : Nat) : t.resTiles n = s.resTiles n := by rw [b]; rfl

/-- Every tile of the region has the first role's slot active, where its loads have gone well. -/
theorem roleActive_loadTiles (first : imgFirst ws ∈ roleSlots ws) (s : State) {i j : Nat} (hi : i < g.rows) (hj : j < g.cols) :
    RoleActive ((loadTiles s h g ws resid).tile (s.regionTile g i j)) (imgFirst ws) h resid := by
  have row : ∀ u, OnlyTiles s u → RoleActive (((upto g.cols).foldl (loadTile h g ws resid i) u).tile (s.regionTile g i j)) (imgFirst ws) h resid :=
    fun u hu => foldl_reaches_of (I := OnlyTiles s) (P := fun u : State => RoleActive (u.tile (s.regionTile g i j)) (imgFirst ws) h resid)
      (List.mem_range.mpr hj) (fun u y _ hu => hu.loadTile i y)
      (fun u hu => by rw [← hu.regionTile]; exact roleActive_loadTile first i u j)
      (fun u y _ _ before => roleActive_loadTile_keeps first i u y _ before) hu
  refine foldl_reaches_of (I := OnlyTiles s) (P := fun u : State => RoleActive (u.tile (s.regionTile g i j)) (imgFirst ws) h resid)
    (List.mem_range.mpr hi) (fun u y _ hu => hu.loadRow y _) row (fun u y _ _ before => ?_) rfl
  exact List.foldlRecOn (motive := fun u : State => RoleActive (u.tile (s.regionTile g i j)) (imgFirst ws) h resid) _ _ before
    fun u before z _ => roleActive_loadTile_keeps first y u z _ before

/-- No read error: every tile's loads have gone well. -/
theorem loadError_none {s : State} (none_ : loadError s h = none) {k : Nat} (hk : k ∈ s.resTiles h) : (s.tile k).lastResult = 0 := by
  have here := firstSome_none none_ k hk
  dsimp only at here
  split at here
  case isTrue e => exact e
  case isFalse => cases here

end

theorem mem_regionTiles (s : State) (g : Region) {i j : Nat} (hi : i < g.rows) (hj : j < g.cols) : s.regionTile g i j ∈ s.regionTiles g :=
  List.mem_flatMap.mpr ⟨i, List.mem_range.mpr hi, List.mem_map.mpr ⟨j, List.mem_range.mpr hj, rfl⟩⟩

end Sys2Proof.Machine
end

section
/-!
The life of a residency (02 R62, 13 R322, R330 to R333, 17 R399, R400).
-/

namespace Sys2Proof.Machine

/-! How the obligation speaks of an end. -/

/-- An event ends a residency with a state. -/
def EndsBy (i : Instr) (s : State) (h : Nat) (st : RState) (does : Res → Prop) : Prop :=
  ∃ t, exec i s = .next t ∧ (t.resOf h).state = st ∧
    ((t.resOf h).region = none ∧ ∀ k ∈ s.resTiles h, (t.tile k).slots = [] ∧ (t.tile k).waiters = [] ∧ ∀ n, n ≠ 0 → ((t.tile k).ctx n).mode = .free) ∧
    (∀ m, m ≠ h → t.resOf m = { s.resOf m with err := (t.resOf m).err }) ∧ does (t.resOf h) ∧
    (t.resOf h).snap = (if (s.resOf h).tileLost then (s.resOf h).snap else none) ∧
    (s.sysWait = [] → (s.outlet 0).q.length < 256 → ∃ tok, t.sysWait = [] ∧
      AMap.get? (t.outlet 0).q (max (s.outlet 0).next (s.outlet 0).h) = some tok ∧ tok.kind = .data ∧ tok.line = true ∧
      tok.payload.toNat % 2 ^ 64 = h % 256 + (t.resOf h).resid.toNat * 2 ^ 8 + st.code * 2 ^ 20 ∧
      tok.payload.toNat / 2 ^ 64 % 2 ^ 64 = (t.resOf h).result.toNat)

theorem EndsBy.of {i : Instr} {s t : State} {h : Nat} {st : RState} {does : Res → Prop} (run : exec i s = .next t) (o : IsOver s t h st)
    (d : does (t.resOf h)) : EndsBy i s h st does :=
  let ⟨state, freed, others, snap, record⟩ := o
  ⟨t, run, state, freed, others, d, snap, record⟩

/-- An event closes the residency as it stands. -/
theorem endsBy_close {i : Instr} {s : State} {h : Nat} {st : RState} {does : Res → Prop} (run : exec i s = .next (closeRes s h st))
    (d : ∀ err, does ((s.resOf h).over st err)) : EndsBy i s h st does :=
  .of run (isOver_closeRes (.refl s h) st) (by rw [resOf_closeRes]; exact d _)

/-- An event rejects the residency's image. -/
theorem endsBy_reject {i : Instr} {s u : State} {h : Nat} {does : Res → Prop} {f : CfgFail} (b : BeforeEnd s u h)
    (run : exec i s = .next (rejectRes u h f)) (d : ∀ r : Res, r.result = f.word → does r) : EndsBy i s h .aborted does :=
  .of run (isOver_rejectRes b f) (d _ (result_rejectRes u h f))

/-- The other residencies are as they were. -/
def RestKept (s t : State) (h : Nat) : Prop := ∀ m, m ≠ h → t.resOf m = s.resOf m

theorem restKept_updRes (s : State) (h : Nat) (f : Res → Res) : RestKept s (s.updRes h f) h := fun _ hm => (resOf_updRes_apply ..).trans (if_neg hm)

theorem resOf_updRes_same (s : State) (h : Nat) (f : Res → Res) : (s.updRes h f).resOf h = f (s.resOf h) := (resOf_updRes_apply ..).trans (if_pos rfl)

/-- An event sets fields of a residency. -/
theorem calm_updRes {i : Instr} {s : State} {h : Nat} {f : Res → Res} (run : exec i s = .next (s.updRes h f)) :
    ∃ t, exec i s = .next t ∧ (Quiet s t ∧ RestKept s t h) ∧ t.resOf h = f (s.resOf h) :=
  ⟨_, run, ⟨quiet_updRes .., restKept_updRes s h f⟩, resOf_updRes_same ..⟩

section
variable {h : Nat} {s : State}

/-! GO, ABORT and COMMIT (R333, R400). -/

/-- A residency whose image is submitted (R400). -/
def Res.submitted (r : Res) : Res :=
  { r with state := .queued, used := true, resid := 0, region := none, result := 0, abortAsked := false, tileLost := false, snap := none, err := ErrRec.init, senders := []
           stageDue := r.image.isNone }

theorem exec_goCmd_not (not : liveRes (s.resOf h) = true ∨ s.bootStage ≠ 8) : Idle (.goCmd h) s := if_pos not

theorem exec_goCmd (idle : liveRes (s.resOf h) = false) (boot : s.bootStage = 8) : exec (.goCmd h) s =
    .next ((hostConflict s h).elim (s.updRes h Res.submitted) fun c => rejectRes (s.updRes h Res.submitted) h ⟨cfgShape, 7, 0, 0, c⟩) := by
  change execGoCmd h s = _
  rw [execGoCmd, if_neg (by rw [idle, boot]; simp)]
  change (match hostConflict s h with
    | some c => Host.Outcome.next (rejectRes (s.updRes h Res.submitted) h ⟨cfgShape, 7, 0, 0, c⟩)
    | none => Host.Outcome.next (s.updRes h Res.submitted)) = _
  cases hostConflict s h <;> rfl

theorem goCmd_submits (idle : liveRes (s.resOf h) = false) (boot : s.bootStage = 8) (free : hostConflict s h = none) :
    ∃ t, exec (.goCmd h) s = .next t ∧ (Quiet s t ∧ RestKept s t h) ∧ t.resOf h = (s.resOf h).submitted := by
  refine calm_updRes (f := Res.submitted) ?_
  rw [exec_goCmd idle boot, free]; rfl

theorem goCmd_conflict (idle : liveRes (s.resOf h) = false) (boot : s.bootStage = 8) {c : Nat} (conflict : hostConflict s h = some c) :
    ∃ t, exec (.goCmd h) s = .next t ∧ (t.resOf h).state = .aborted ∧ RestKept s t h ∧
      (t.resOf h).result = BitVec.ofNat 64 (cfgShape * 2 ^ 56 + 7 * 2 ^ 52 + c % 2 ^ 32) := by
  set u := s.updRes h Res.submitted with hu
  set f : CfgFail := ⟨cfgShape, 7, 0, 0, c⟩ with hf
  have nowhere : (u.resOf h).region = none := by rw [hu, resOf_updRes_same]; rfl
  have tiles : u.resTiles h = [] := by rw [State.resTiles, nowhere]
  have before : rejecting u h f = u.updRes h fun r => { r with result := f.word, stageDue := false } := by
    rw [rejecting, tiles]; rfl
  have word : f.word = BitVec.ofNat 64 (cfgShape * 2 ^ 56 + 7 * 2 ^ 52 + c % 2 ^ 32) := by simp [CfgFail.word, hf]
  refine ⟨rejectRes u h f, by rw [exec_goCmd idle boot, conflict]; rfl, ?_, fun m hm => ?_, by rw [result_rejectRes, word]⟩
  · obtain ⟨err, at_⟩ := resOf_rejectRes u h f
    rw [at_]; rfl
  · rw [rejectRes_eq, before, resOf_closeRes_nowhere _ _ _ hm, resOf_updRes_apply, if_neg hm, hu, resOf_updRes_apply, if_neg hm]
    rw [resOf_updRes_same]; exact nowhere

theorem exec_abortCmd_not (idle : liveRes (s.resOf h) = false) : Idle (.abortCmd h) s := by
  change Host.Outcome.next (if liveRes (s.resOf h) then _ else s) = _
  rw [idle]; rfl

theorem exec_abortCmd (live : liveRes (s.resOf h) = true) : exec (.abortCmd h) s = .next (s.updRes h fun r => { r with abortAsked := true }) := by
  change Host.Outcome.next (if liveRes (s.resOf h) then _ else s) = _
  rw [live]; rfl

theorem exec_commitParams_not (deaf : hostAnswered s = false) : Idle (.commitParams h) s := by
  change Host.Outcome.next (if hostAnswered s then _ else s) = _
  rw [deaf]; rfl

theorem exec_commitParams (answers : hostAnswered s = true) : exec (.commitParams h) s = .next (s.updRes h fun r => { r with commit := true }) := by
  change Host.Outcome.next (if hostAnswered s then _ else s) = _
  rw [answers]; rfl

/-! Staging (R322). -/

theorem exec_imageStaging_not (not : (s.resOf h).state ≠ .queued ∨ (s.resOf h).stageDue = false) : Idle (.imageStaging h) s := by
  refine if_neg fun ⟨queued, due⟩ => ?_
  rcases not with e | e
  · exact e queued
  · rw [e] at due; cases due

/-- The check that fails at staging, if any (R322; log entry 24). -/
def stagingFails (s : State) (h : Nat) : Option CfgFail :=
  let ws := readImage s (s.block h).image.toNat
  if s.gBad (s.block h).image.toNat (8 * ws.length) then some (CfgFail.mk cfgSignature 1 0 0 ((imgLen ws + 2 ^ 32 - 415) % 2 ^ 32)) else stageCheck s ws

theorem exec_imageStaging (queued : (s.resOf h).state = .queued) (due : (s.resOf h).stageDue = true) : exec (.imageStaging h) s =
    .next ((stagingFails s h).elim (s.updRes h fun r => { r with image := some (readImage s (s.block h).image.toNat), stageDue := false }) (rejectRes s h)) := by
  change execImageStaging h s = _
  rw [execImageStaging, if_pos ⟨queued, due⟩]
  change (match stagingFails s h with
    | some f => Host.Outcome.next (rejectRes s h f)
    | none => Host.Outcome.next (s.updRes h fun r => { r with image := some (readImage s (s.block h).image.toNat), stageDue := false })) = _
  cases stagingFails s h <;> rfl

theorem imageStaging_rejects (queued : (s.resOf h).state = .queued) (due : (s.resOf h).stageDue = true) {f : CfgFail}
    (fails : stagingFails s h = some f) : EndsBy (.imageStaging h) s h .aborted fun x => x.result = f.word :=
  endsBy_reject (.refl s h) (by rw [exec_imageStaging queued due, fails]; rfl) fun _ e => e

/-! Start, end and abort (R62, R399). -/

theorem exec_residencyStart_not (not : (s.resOf h).state ≠ .armed) : Idle (.residencyStart h) s := congrArg Host.Outcome.next (if_neg not)

theorem exec_residencyStart (armed : (s.resOf h).state = .armed) :
    exec (.residencyStart h) s = .next (s.updRes h fun r => { r with state := .running, wdLast := s.now }) := congrArg Host.Outcome.next (if_pos armed)

theorem exec_residencyAbort_not (not : liveRes (s.resOf h) = false ∨ (s.resOf h).abortAsked = false) : Idle (.residencyAbort h) s := by
  refine congrArg Host.Outcome.next (if_neg fun ⟨live, asked⟩ => ?_)
  rcases not with e | e
  · rw [e] at live; cases live
  · rw [e] at asked; cases asked

theorem exec_residencyAbort (live : liveRes (s.resOf h) = true) (asked : (s.resOf h).abortAsked = true) :
    exec (.residencyAbort h) s = .next (closeRes s h .aborted) := congrArg Host.Outcome.next (if_pos ⟨live, asked⟩)

/-! Without an image nothing is placed, armed or drained. -/

theorem exec_noImage (image : (s.resOf h).image = none) :
    Idle (.residencyDispatch h) s ∧ Idle (.arming h) s ∧ Idle (.residencyEnd h) s ∧ Idle (.replayRearm h) s := by
  refine ⟨?_, ?_, ?_, ?_⟩
  · change Host.Outcome.next (tryPlace s h) = _
    simp only [tryPlace, image]
  · change execArming h s = _
    simp only [execArming, image]
  · change execResidencyEnd h s = _
    simp only [execResidencyEnd, image]
  · change execReplayRearm h s = _
    simp only [execReplayRearm, image]

variable {ws : List Word} (image : (s.resOf h).image = some ws)
include image

theorem exec_residencyEnd_eq : exec (.residencyEnd h) s =
    .next (if resDrained s h ∧ !imgPersist ws ∧ !(s.resOf h).abortAsked then closeRes s h .ended else s) := by
  change execResidencyEnd h s = _
  simp only [execResidencyEnd, image]

theorem exec_residencyEnd_not (not : ¬(resDrained s h = true ∧ imgPersist ws = false ∧ (s.resOf h).abortAsked = false)) :
    Idle (.residencyEnd h) s := by
  refine (exec_residencyEnd_eq image).trans (congrArg _ (if_neg ?_))
  rw [Bool.not_eq_true', Bool.not_eq_true']; exact not

theorem exec_residencyEnd (ends : resDrained s h = true ∧ imgPersist ws = false ∧ (s.resOf h).abortAsked = false) :
    exec (.residencyEnd h) s = .next (closeRes s h .ended) := by
  refine (exec_residencyEnd_eq image).trans (congrArg _ (if_pos ?_))
  rw [Bool.not_eq_true', Bool.not_eq_true']; exact ends

/-! Placement (R62). -/

theorem residencyDispatch_loads {g : Region} (queued : (s.resOf h).state = .queued) (staged : (s.resOf h).stageDue = false)
    (free : groupsFree s h ws = true) (find : findRegion s (imgRows ws) (imgCols ws) = some g) :
    ∃ t, exec (.residencyDispatch h) s = .next t ∧ (Quiet s t ∧ RestKept s t h) ∧ (t.resOf h).state = .loading ∧ (t.resOf h).region = some g ∧
      (t.resOf h).resid.toNat = freshResid s ∧ ∀ z ∈ usedRegions s, regionsMeet g z = false := by
  have place := tryPlace_loads image queued staged free find
  set t : State := { ((assignRegion s h g).updRes h fun r => { r with state := .loading }) with vpages := AMap.erase s.vpages h } with ht
  have at_ : t.resOf h = { s.resOf h with region := some g, resid := BitVec.ofNat 12 (freshResid s), state := .loading } := by
    have same : t.resOf h = ((assignRegion s h g).updRes h fun r => { r with state := .loading }).resOf h := rfl
    rw [same, resOf_updRes_same, resOf_assignRegion, if_pos rfl]
  refine ⟨t, congrArg Host.Outcome.next place, ⟨Quiet.of_tiles_gmem rfl rfl, fun m hm => ?_⟩, by rw [at_], by rw [at_], ?_, findRegion_free find⟩
  · have same : t.resOf m = ((assignRegion s h g).updRes h fun r => { r with state := .loading }).resOf m := rfl
    rw [same, resOf_updRes_apply, if_neg hm, resOf_assignRegion, if_neg hm]
  · rw [at_]; exact toNat_freshResid s

theorem residencyDispatch_restores {g : Region} {n : Snapshot} (state : (s.resOf h).state = .held) (restoring : (s.resOf h).restoring = true)
    (snap : (s.resOf h).snap = some n) (free : (s.resOf h).resid ≠ 0 ∨ groupsFree s h ws = true)
    (find : findRegion s (imgRows ws) (imgCols ws) = some g) :
    ∃ t, exec (.residencyDispatch h) s = .next t ∧ Restored s (t.resOf h) n g := by
  refine ⟨placeSnapshot s h ws n g, congrArg Host.Outcome.next (tryPlace_restores image state restoring snap free find), placeSnapshot_restored ..⟩

end

/-! Arming (R330). -/

section
variable (s : State) (h : Nat) (g : Region) (ws : List Word)

/-- The tiles of the region with their slots. -/
def armLoaded : State := if (s.resOf h).loaded then s else loadTiles s h g ws (s.resOf h).resid

/-- The groups with the residency's number. -/
def armGroups : State := if (s.resOf h).loaded then armLoaded s h g ws
  else (writeGroups (armLoaded s h g ws) g ws (s.resOf h).resid.toNat).updRes h fun r => { r with loaded := true }

theorem onlyTiles_armLoaded : OnlyTiles s (armLoaded s h g ws) := by
  unfold armLoaded
  split
  · rfl
  · exact onlyTiles_loadTiles s

theorem resOf_armLoaded (m : Nat) : (armLoaded s h g ws).resOf m = s.resOf m := by rw [onlyTiles_armLoaded s h g ws]; rfl

theorem armGroups_eq : armGroups s h g ws = { s with
    tiles := (armLoaded s h g ws).tiles, groupTab := (armGroups s h g ws).groupTab, res := (armGroups s h g ws).res } := by
  have tiles := onlyTiles_armLoaded s h g ws
  rw [OnlyTiles] at tiles
  unfold armGroups
  split
  · exact tiles.trans (by rw [tiles])
  · rw [tiles]; rfl

theorem resOf_armGroups (m : Nat) : (armGroups s h g ws).resOf m = if m = h then { s.resOf h with loaded := true } else s.resOf m := by
  unfold armGroups
  split
  case isTrue loaded =>
    rw [resOf_armLoaded]
    split
    case isTrue e => rw [e, ← loaded]
    case isFalse => rfl
  case isFalse =>
    have same : ∀ u : State, (writeGroups u g ws (s.resOf h).resid.toNat).resOf = u.resOf := fun _ => rfl
    rw [resOf_updRes_apply, same, resOf_armLoaded, resOf_armLoaded]

theorem beforeEnd_armLoaded : BeforeEnd s (armLoaded s h g ws) h := by
  have tiles := onlyTiles_armLoaded s h g ws
  rw [OnlyTiles] at tiles
  refine .of_rest h ?_ ?_ ?_ ?_ <;> rw [tiles]

theorem beforeEnd_armGroups : BeforeEnd s (armGroups s h g ws) h := by
  have at_ := resOf_armGroups s h g ws
  refine ⟨fun m hm => by rw [at_, if_neg hm], ?_, ?_, ?_, ?_, ?_, ?_⟩
  · rw [at_, if_pos rfl]
  · rw [at_, if_pos rfl]
  · rw [at_, if_pos rfl]
  all_goals rw [armGroups_eq]

theorem rangeState_armGroups (x : Space) (va n : Nat) (r w : Bool) : rangeState (armGroups s h g ws) x va n r w = rangeState s x va n r w := by
  refine rangeState_congr ?_ ?_ ?_ .. <;> rw [armGroups_eq]

end

theorem writeParam_eq (s : State) (x : Space) (va : Nat) (ws : List Word) : writeParam s x va ws = { s with
    gmem := (writeParam s x va ws).gmem, gpoison := (writeParam s x va ws).gpoison, gerr1 := (writeParam s x va ws).gerr1
    gerr2 := (writeParam s x va ws).gerr2 } :=
  List.foldlRecOn (motive := fun t : State => t = { s with gmem := t.gmem, gpoison := t.gpoison, gerr1 := t.gerr1, gerr2 := t.gerr2 }) _ _ rfl
    fun t ht i _ => by rw [State.gWrite, ht]

section
variable {h : Nat} {s : State}

theorem exec_arming_not
    (not : (s.resOf h).state ≠ .loading ∨ (s.resOf h).armWait ≠ none ∨ (s.resOf h).region = none) : Idle (.arming h) s := by
  change execArming h s = _
  unfold execArming
  dsimp only
  split
  · rename_i ws' g image' region
    refine if_pos ?_
    rcases not with e | e | e
    · exact .inl e
    · exact .inr (Option.isSome_iff_ne_none.mpr e)
    · rw [e] at region; cases region
  · rfl

variable {ws : List Word} {g : Region} (image : (s.resOf h).image = some ws) (region : (s.resOf h).region = some g)
  (loading : (s.resOf h).state = .loading) (still : (s.resOf h).armWait = none)
include image region loading still

theorem arming_placeFails (fresh : (s.resOf h).loaded = false) {e : CfgFail} (fails : placeCheck s ws g (s.block h) = some e) :
    EndsBy (.arming h) s h .aborted fun x => x.result = e.word := by
  refine endsBy_reject (.refl s h) (f := e) ?_ fun _ e => e
  change execArming h s = _
  simp only [execArming, image, region, loading, still, fresh, fails, ne_eq, not_true_eq_false, Option.isSome_none, Bool.false_eq_true, or_self, if_false]

variable (places : (s.resOf h).loaded = true ∨ placeCheck s ws g (s.block h) = none)
include places

omit image region loading still in
theorem placeCheck_passes : (if (s.resOf h).loaded then none else placeCheck s ws g (s.block h)) = none := by
  rcases places with e | e
  · rw [e]; rfl
  · rw [e, ite_self]

theorem arming_loadFails {w : Word} (fails : loadError (armLoaded s h g ws) h = some w) :
    EndsBy (.arming h) s h .aborted fun x => x.result = w := by
  have run : exec (.arming h) s = .next (closeRes ((armLoaded s h g ws).updRes h fun r => { r with result := w }) h .aborted) := by
    change execArming h s = _
    rw [armLoaded] at fails ⊢
    simp only [execArming, image, region, loading, still, placeCheck_passes places, fails, ne_eq, not_true_eq_false, Option.isSome_none,
      Bool.false_eq_true, or_self, if_false]
  refine .of run (isOver_closeRes ((beforeEnd_armLoaded s h g ws).trans (.updRes _ h rfl rfl rfl)) .aborted) ?_
  rw [resOf_closeRes, resOf_updRes_same]
  rfl

variable (loads : loadError (armLoaded s h g ws) h = none)
include loads

/-- What arming does with the parameter page (R330 step 5). -/
def armParams (s : State) (h : Nat) (g : Region) (ws : List Word) : CopyState → State
  | .refused => rejectRes (armGroups s h g ws) h ⟨cfgBounds, 0, 0, 0, 0⟩
  | .wait a => (armGroups s h g ws).updRes h fun r => { r with armWait := some a }
  | .ready =>
    let x := resSpace s h
    let va := (s.block h).paramva.toNat
    let body := ((imgRecs ws).filter (·.typ == tParam)).flatMap (·.body)
    let s3 := writeParam (writeParam (armGroups s h g ws) x va body) x (va + imgParams ws) body
    (makeChans s3 h g ws (s.resOf h).resid).updRes h (armRes s3)

theorem exec_arming : exec (.arming h) s = .next (armParams s h g ws (if (s.resOf h).armRefused then .refused
    else rangeState s (resSpace s h) (s.block h).paramva.toNat (2 * imgParams ws) false true)) := by
  have page := rangeState_armGroups s h g ws (resSpace s h) (s.block h).paramva.toNat (2 * imgParams ws) false true
  change execArming h s = _
  rw [← page]
  rw [armLoaded] at loads
  simp only [execArming, image, region, loading, still, placeCheck_passes places, loads, ne_eq, not_true_eq_false, Option.isSome_none,
    Bool.false_eq_true, or_self, if_false]
  change (match (if (s.resOf h).armRefused then CopyState.refused
    else rangeState (armGroups s h g ws) (resSpace s h) (s.block h).paramva.toNat (2 * imgParams ws) false true) with
    | .refused => Host.Outcome.next (armParams s h g ws .refused)
    | .wait a => .next (armParams s h g ws (.wait a))
    | .ready => .next (armParams s h g ws .ready)) = _
  cases (if (s.resOf h).armRefused then CopyState.refused
    else rangeState (armGroups s h g ws) (resSpace s h) (s.block h).paramva.toNat (2 * imgParams ws) false true) <;> rfl

theorem arming_refused (page : (s.resOf h).armRefused = true ∨
      rangeState s (resSpace s h) (s.block h).paramva.toNat (2 * imgParams ws) false true = .refused) :
    EndsBy (.arming h) s h .aborted fun x => x.result = BitVec.ofNat 64 (cfgBounds * 2 ^ 56) := by
  have word : (CfgFail.mk cfgBounds 0 0 0 0).word = BitVec.ofNat 64 (cfgBounds * 2 ^ 56) := by decide
  refine endsBy_reject (beforeEnd_armGroups s h g ws) (f := ⟨cfgBounds, 0, 0, 0, 0⟩) ?_ fun _ e => e.trans word
  rw [exec_arming image region loading still places loads]
  rcases page with e | e
  · rw [e]; rfl
  · rw [e, ite_self]; rfl

theorem arming_waits (asked : (s.resOf h).armRefused = false) {a : Addr}
    (page : rangeState s (resSpace s h) (s.block h).paramva.toNat (2 * imgParams ws) false true = .wait a) :
    ∃ t, exec (.arming h) s = .next t ∧ RestKept s t h ∧ t.tiles = (armLoaded s h g ws).tiles ∧
      t.resOf h = { s.resOf h with loaded := true, armWait := some a } := by
  have run := exec_arming image region loading still places loads
  rw [asked, page] at run
  refine ⟨(armGroups s h g ws).updRes h fun r => { r with armWait := some a }, run, fun m hm => ?_, ?_, ?_⟩
  · rw [resOf_updRes_apply, if_neg hm, resOf_armGroups, if_neg hm]
  · have same : ((armGroups s h g ws).updRes h fun r => { r with armWait := some a }).tiles = (armGroups s h g ws).tiles := rfl
    rw [same, armGroups_eq]
  · rw [resOf_updRes_same, resOf_armGroups, if_pos rfl]

/-- The residency arms: its channels stand, and every tile of its region has its active slot still (R330, R62). -/
theorem arming_arms (asked : (s.resOf h).armRefused = false)
    (page : rangeState s (resSpace s h) (s.block h).paramva.toNat (2 * imgParams ws) false true = .ready) :
    ∃ t, exec (.arming h) s = .next t ∧ t.resOf h = armRes s { s.resOf h with loaded := true } ∧
      ∀ k, SlotKept ((armLoaded s h g ws).tile k) (t.tile k) := by
  have run := exec_arming image region loading still places loads
  rw [asked, page] at run
  set body := ((imgRecs ws).filter (·.typ == tParam)).flatMap (·.body)
  set s3 := writeParam (writeParam (armGroups s h g ws) (resSpace s h) (s.block h).paramva.toNat body) (resSpace s h)
    ((s.block h).paramva.toNat + imgParams ws) body with hs3
  have same : ∀ m, s3.resOf m = (armGroups s h g ws).resOf m := fun m => by rw [hs3, writeParam_eq, writeParam_eq (armGroups s h g ws)]; rfl
  have tiles : ∀ k, s3.tile k = (armLoaded s h g ws).tile k := fun k => by
    rw [hs3, writeParam_eq, writeParam_eq (armGroups s h g ws), armGroups_eq]; rfl
  have now : s3.now = s.now := by rw [hs3, writeParam_eq, writeParam_eq (armGroups s h g ws), armGroups_eq]
  have chans := SlotsKept.makeChans s3 h g ws (s.resOf h).resid
  refine ⟨(makeChans s3 h g ws (s.resOf h).resid).updRes h (armRes s3), run, ?_, fun k => ?_⟩
  · rw [resOf_updRes_same, chans.res.res, same, resOf_armGroups, if_pos rfl, armRes, armRes, now]
  · rw [← tiles]; exact chans.tiles k

end

/-! Replays (R332, R333). -/

/-- Whether a drained persistent residency re-arms now. -/
def rearms (s : State) (h : Nat) (ws : List Word) : Prop :=
  resDrained s h = true ∧ imgPersist ws = true ∧ (s.resOf h).abortAsked = false ∧ (s.resOf h).armWait = none

/-- A residency that has re-armed, as the obligation says it. -/
def Rearmed (s t : State) (h : Nat) (ws : List Word) (gen : Nat) : Prop :=
  (t.resOf h).replay = (s.resOf h).replay + 1 ∧ (t.resOf h).state = .running ∧ (t.resOf h).gen = gen ∧ (t.resOf h).faultEos = false ∧
    (t.resOf h).commit = false ∧ ∀ k ∈ s.resTiles h, (t.tile k).role = 0 ∧ (t.tile k).active = imgFirst ws

theorem copyParams_eq (s : State) (x : Space) (a b n : Nat) : copyParams s x a b n = { s with
    gmem := (copyParams s x a b n).gmem, gpoison := (copyParams s x a b n).gpoison, gerr1 := (copyParams s x a b n).gerr1
    gerr2 := (copyParams s x a b n).gerr2 } :=
  List.foldlRecOn (motive := fun t : State => t = { s with gmem := t.gmem, gpoison := t.gpoison, gerr1 := t.gerr1, gerr2 := t.gerr2 }) _ _ rfl
    fun t ht i _ => by
      dsimp only
      split
      · rw [State.gPoison, State.gWrite, ht]
      · rw [State.gWrite, ht]

theorem running_of_drained {s : State} {h : Nat} (drained : resDrained s h = true) : (s.resOf h).state = .running := by
  unfold resDrained at drained
  dsimp only at drained
  split at drained
  · cases drained
  · simp only [Bool.and_eq_true, decide_eq_true_eq] at drained
    exact drained.1.1.1.1

/-- A region that re-arms has its tiles at the first role (R332). -/
theorem rearm_rearms (s : State) (h : Nat) (ws : List Word) : (rearm s h ws).resOf h = { s.resOf h with
      replay := (s.resOf h).replay + 1, faultEos := false, err := ((rearm s h ws).resOf h).err, wdLast := ((rearm s h ws).resOf h).wdLast } ∧
    ∀ k ∈ s.resTiles h, ((rearm s h ws).tile k).role = 0 ∧ ((rearm s h ws).tile k).active = imgFirst ws := by
  have chans := slotsKept_rearmChans ((s.resTiles h).foldl (rearmTile (imgFirst ws)) s) h ws
  have before : ((s.resTiles h).foldl (rearmTile (imgFirst ws)) s).resOf h = s.resOf h := by rw [State.resOf, rearmTiles_res]; rfl
  constructor
  · rw [rearm_eq, resOf_updRes_same, chans.res.res, before]
  · intro k hk
    obtain ⟨role, active⟩ := rearmTiles_at (imgFirst ws) hk s
    have same := (chans.tiles k).toSameRole
    exact ⟨same.role.trans role, same.active.trans active⟩

theorem rearmed_of {s u : State} {h : Nat} {ws : List Word} (tiles : u.resTiles h = s.resTiles h) (replay : (u.resOf h).replay = (s.resOf h).replay)
    (runs : (u.resOf h).state = .running) (commit : (u.resOf h).commit = false) : Rearmed s (rearm u h ws) h ws (u.resOf h).gen := by
  obtain ⟨res, roles⟩ := rearm_rearms u h ws
  refine ⟨?_, ?_, ?_, ?_, ?_, fun k hk => roles k (by rw [tiles]; exact hk)⟩ <;> rw [res]
  · exact congrArg (· + 1) replay
  · exact runs
  · exact commit

section
variable {h : Nat} {s : State} {ws : List Word} (image : (s.resOf h).image = some ws)
include image

theorem exec_replayRearm_not (not : ¬rearms s h ws) : Idle (.replayRearm h) s := by
  have wait : (!(resDrained s h && imgPersist ws && !(s.resOf h).abortAsked) || (s.resOf h).armWait.isSome) = true := by
    by_contra c
    refine not ?_
    simpa [rearms, and_assoc] using c
  change execReplayRearm h s = _
  simp only [execReplayRearm, image, wait, if_true]

variable (again : rearms s h ws)
include again

omit image in
theorem rearms_goes : ¬(!(resDrained s h && imgPersist ws && !(s.resOf h).abortAsked) || (s.resOf h).armWait.isSome) = true := by
  obtain ⟨drained, persists, asked, still⟩ := again
  simp [drained, persists, asked, still]

theorem exec_replayRearm (plain : (s.resOf h).commit = false) : exec (.replayRearm h) s = .next (rearm s h ws) := by
  change execReplayRearm h s = _
  simp only [execReplayRearm, image, if_neg (rearms_goes again), plain, Bool.false_eq_true, if_false]

theorem replayRearm_again (plain : (s.resOf h).commit = false) :
    ∃ t, exec (.replayRearm h) s = .next t ∧ Rearmed s t h ws (s.resOf h).gen :=
  ⟨_, exec_replayRearm image again plain, rearmed_of rfl rfl (running_of_drained again.1) plain⟩

variable (commit : (s.resOf h).commit = true)
include commit

/-- The state in which COMMIT has been acted on (R333). -/
def committed (s : State) (h : Nat) (ws : List Word) : State :=
  let n := imgParams ws
  let va := (s.block h).paramva.toNat
  let g := (s.resOf h).gen + 1
  (copyParams s (resSpace s h) (va + g % 2 * n) (va + (g + 1) % 2 * n) n).updRes h fun r => { r with gen := g, commit := false }

theorem exec_replayRearm_commit : exec (.replayRearm h) s =
    match (if (s.resOf h).armRefused then .refused
      else rangeState s (resSpace s h) (s.block h).paramva.toNat (2 * imgParams ws) true true) with
    | .refused => .next (closeRes s h .aborted)
    | .wait a => .next (s.updRes h fun r => { r with armWait := some a })
    | .ready => .next (rearm (committed s h ws) h ws) := by
  change execReplayRearm h s = _
  simp only [execReplayRearm, image, if_neg (rearms_goes again), commit, if_true]
  rfl

theorem replayRearm_refused (page : (s.resOf h).armRefused = true ∨
      rangeState s (resSpace s h) (s.block h).paramva.toNat (2 * imgParams ws) true true = .refused) :
    exec (.replayRearm h) s = .next (closeRes s h .aborted) := by
  rw [exec_replayRearm_commit image again commit]
  rcases page with e | e
  · rw [e]; rfl
  · rw [e, ite_self]

variable (asked : (s.resOf h).armRefused = false)
include asked

theorem replayRearm_waits {a : Addr} (page : rangeState s (resSpace s h) (s.block h).paramva.toNat (2 * imgParams ws) true true = .wait a) :
    exec (.replayRearm h) s = .next (s.updRes h fun r => { r with armWait := some a }) := by
  rw [exec_replayRearm_commit image again commit, asked, page]; rfl

theorem replayRearm_commits (page : rangeState s (resSpace s h) (s.block h).paramva.toNat (2 * imgParams ws) true true = .ready) :
    ∃ t, exec (.replayRearm h) s = .next t ∧ Rearmed s t h ws ((s.resOf h).gen + 1) := by
  have run := exec_replayRearm_commit image again commit
  rw [asked, page] at run
  have at_ : (committed s h ws).resOf h = { s.resOf h with gen := (s.resOf h).gen + 1, commit := false } := by
    rw [committed, resOf_updRes_same, copyParams_eq]; rfl
  have tiles : (committed s h ws).resTiles h = s.resTiles h := by
    have rects : (committed s h ws).rects = s.rects := by
      have same : (committed s h ws).rects = (copyParams s (resSpace s h) ((s.block h).paramva.toNat + ((s.resOf h).gen + 1) % 2 * imgParams ws)
        ((s.block h).paramva.toNat + ((s.resOf h).gen + 1 + 1) % 2 * imgParams ws) (imgParams ws)).rects := rfl
      rw [same, copyParams_eq]
    rw [State.resTiles, at_, State.resTiles]
    unfold State.regionTiles State.regionTile
    rw [rects]
  have armed := rearmed_of (ws := ws) tiles (by rw [at_]) (by rw [at_]; exact running_of_drained again.1) (by rw [at_])
  rw [at_] at armed
  exact ⟨_, run, armed⟩

end

end Sys2Proof.Machine
end

section
/-!
The life of a residency: the obligation.
-/

namespace Sys2Proof.Machine

/-- Every event of a residency's life has a next state. -/
theorem residencyEvent_next (h : Nat) (s : State) : ∀ i ∈ [Instr.goCmd h, .abortCmd h, .commitParams h, .imageStaging h, .residencyDispatch h,
    .arming h, .residencyStart h, .residencyEnd h, .residencyAbort h, .replayRearm h], ∃ t, exec i s = .next t := by
  simp only [List.mem_cons, List.not_mem_nil, or_false, forall_eq_or_imp, forall_eq]
  refine ⟨?_, ⟨_, rfl⟩, ⟨_, rfl⟩, ?_, ⟨_, rfl⟩, ?_, ⟨_, rfl⟩, ⟨_, rfl⟩, ⟨_, rfl⟩, ?_⟩
  · change ∃ t, execGoCmd h s = .next t
    unfold execGoCmd
    dsimp only
    repeat' split
    all_goals exact ⟨_, rfl⟩
  · change ∃ t, execImageStaging h s = .next t
    unfold execImageStaging
    dsimp only
    repeat' split
    all_goals exact ⟨_, rfl⟩
  · change ∃ t, execArming h s = .next t
    unfold execArming
    dsimp only
    split
    · split
      · exact ⟨_, rfl⟩
      · split
        · exact ⟨_, rfl⟩
        · split
          · exact ⟨_, rfl⟩
          · split <;> exact ⟨_, rfl⟩
    · exact ⟨_, rfl⟩
  · change ∃ t, execReplayRearm h s = .next t
    unfold execReplayRearm
    dsimp only
    split
    · exact ⟨_, rfl⟩
    · split
      · exact ⟨_, rfl⟩
      · split
        · split <;> exact ⟨_, rfl⟩
        · exact ⟨_, rfl⟩

section
variable {s : State} {h : Nat} {ws : List Word} {g : Region}

/-- An armed residency, as the obligation says it. -/
theorem armed_fields (r : Res) : let x := armRes s r
    x.state = .armed ∧ x.gen = 0 ∧ x.replay = 0 ∧ x.result = 0 ∧ x.region = r.region ∧ x.resid = r.resid ∧ x.faultQ = [] ∧ x.wdEn = true ∧
      x.wdTicks = 0x61A80 := ⟨rfl, rfl, rfl, rfl, rfl, rfl, rfl, rfl, rfl⟩

/-- On a tile of the region the first role's slot is active, as it was loaded (R330 step 3). -/
theorem armed_tile {t : State} (region : (s.resOf h).region = some g) (kept : ∀ k, SlotKept ((armLoaded s h g ws).tile k) (t.tile k))
    (loads : loadError (armLoaded s h g ws) h = none) (fresh : (s.resOf h).loaded = false) (first : imgFirst ws ∈ roleSlots ws) {i j : Nat}
    (hi : i < g.rows) (hj : j < g.cols) :
    let y := t.tile (s.regionTile g i j)
    y.active = imgFirst ws ∧ y.slot.state = .active ∧ y.slot.resid = (s.resOf h).resid ∧ y.slot.handle = h := by
  have same := kept (s.regionTile g i j)
  have tiles := (onlyTiles_armLoaded s h g ws).resTiles h
  have mine : s.regionTile g i j ∈ (armLoaded s h g ws).resTiles h := by
    rw [tiles, State.resTiles, region]; exact mem_regionTiles s g hi hj
  have ok := loadError_none loads mine
  have loaded : armLoaded s h g ws = loadTiles s h g ws (s.resOf h).resid := by rw [armLoaded, fresh]; rfl
  rw [loaded] at same ok
  obtain ⟨active, state, resid, handle⟩ := roleActive_loadTiles first s hi hj ok
  exact ⟨same.active.trans active, same.state.trans state, same.resid.trans resid, same.handle.trans handle⟩

end

/-- Settles O56: submission, staging, placement, arming, start, end, abort and re-arm, one event after the other. -/
theorem residencyLife : Obligations.ResidencyLife := by
  refine fun h s => ⟨residencyEvent_next h s, exec_goCmd_not, fun idle boot => ⟨fun free => ?go, fun c => goCmd_conflict idle boot⟩, exec_abortCmd_not,
    fun live => calm_updRes (exec_abortCmd live), exec_commitParams_not, fun answers => calm_updRes (exec_commitParams answers),
    ⟨exec_imageStaging_not, fun queued due => ⟨fun bad => ?bad, fun good f fails => ?fails, fun good none_ => ?staged⟩⟩, exec_noImage,
    exec_residencyStart_not, fun armed => calm_updRes (exec_residencyStart armed), exec_residencyAbort_not,
    fun live asked => endsBy_close (does := fun x => x.resid = (s.resOf h).resid ∧ x.abortAsked = false) (exec_residencyAbort live asked) fun _ => ⟨rfl, rfl⟩, fun ws image => ⟨fun none_ => ?nowhere, fun loads restores => ?waits,
      fun g m held restoring snap free find => ?restores, fun g queued staged free find => residencyDispatch_loads image queued staged free find,
      exec_arming_not, fun g region loading still => ⟨fun e fresh fails => arming_placeFails image region loading still fresh fails,
        fun places => ⟨fun w fails => arming_loadFails image region loading still places fails, fun loads => ⟨fun page => ?refused,
          fun a asked page => arming_waits image region loading still places loads asked page, fun asked page => ?arms⟩⟩⟩,
      ⟨exec_residencyEnd_not image, fun ends => endsBy_close
        (does := fun x => x.resid = (s.resOf h).resid ∧ x.replay = (s.resOf h).replay) (exec_residencyEnd image ends) fun _ => ⟨rfl, rfl⟩⟩,
      ⟨exec_replayRearm_not image, fun again plain => replayRearm_again image again plain,
        fun again commit page => endsBy_close (does := fun x => x.replay = (s.resOf h).replay)
          (replayRearm_refused image again commit page) fun _ => rfl,
        fun again commit asked => ⟨fun page => replayRearm_commits image again commit asked page,
          fun a page => calm_updRes (replayRearm_waits image again commit asked page)⟩⟩⟩⟩
  case go =>
    obtain ⟨t, run, calm, at_⟩ := goCmd_submits idle boot free
    refine ⟨t, run, calm, ?_⟩
    rw [at_]
    exact ⟨rfl, rfl, rfl, rfl, rfl, rfl, rfl, rfl, rfl, rfl, rfl⟩
  case bad =>
    have fails : stagingFails s h = some ⟨cfgSignature, 1, 0, 0, (imgLen (readImage s (s.block h).image.toNat) + 2 ^ 32 - 415) % 2 ^ 32⟩ := if_pos bad
    refine endsBy_reject (does := fun x => x.result.toNat / 2 ^ 56 = 0x45) (.refl s h) (by rw [exec_imageStaging queued due, fails]; rfl) fun x e => ?_
    rw [e]; exact CfgFail.word_signature ..
  case fails => exact imageStaging_rejects queued due (by rw [stagingFails, if_neg (by rw [good]; decide)]; exact fails)
  case staged =>
    refine calm_updRes (f := fun r => { r with image := some _, stageDue := false }) ?_
    rw [exec_imageStaging queued due, stagingFails, if_neg (by rw [good]; decide), none_]; rfl
  case nowhere => exact congrArg Host.Outcome.next (tryPlace_nowhere image none_)
  case waits =>
    refine congrArg Host.Outcome.next (tryPlace_waits image ?_)
    rintro (c | c)
    · exact loads c
    · exact restores c
  case restores =>
    obtain ⟨t, run, state, region, resid, gen, commit, -, -, restoring⟩ := residencyDispatch_restores image held restoring snap free find
    exact ⟨t, run, state, region, resid, restoring, gen, commit⟩
  case refused => exact arming_refused image region loading still places loads page
  case arms =>
    obtain ⟨t, run, at_, kept⟩ := arming_arms image region loading still places loads asked page
    obtain ⟨state, gen, replay, result, place, resid, queue, dog, ticks⟩ := armed_fields (s := s) { s.resOf h with loaded := true }
    refine ⟨t, run, ?_, fun i j hi hj => ?_⟩
    · rw [at_]; exact ⟨state, gen, replay, result, place.trans region, resid, queue, dog, ticks⟩
    · have same := kept (s.regionTile g i j)
      exact ⟨same.active, same.state, same.resid, same.handle, fun fresh first => armed_tile region kept loads fresh first hi hj⟩

end Sys2Proof.Machine
end

section
/-!
The switch of a tile to a configuration slot (02 R54): which bytes it writes, and what the ports that are carried become.
-/

namespace Sys2Proof.Machine

/-! Memory writes of a tile. -/

/-- What writes to a tile's memory change of the tile: memory with its marks, and what its contexts have fetched of what was there. -/
structure MemTile (t u : Tile) : Prop where
  tile : u = { t with
    tlm := u.tlm, gtags := u.gtags, ctxs := u.ctxs, poison := u.poison, err1 := u.err1, err2 := u.err2 }
  ctx : ∀ m, ∃ st, u.ctx m = { t.ctx m with stale := st }

namespace MemTile

theorem refl (t : Tile) : MemTile t t := ⟨rfl, fun m => ⟨(t.ctx m).stale, rfl⟩⟩

theorem trans {t u v : Tile} (a : MemTile t u) (b : MemTile u v) : MemTile t v := by
  refine ⟨by rw [b.tile, a.tile], fun m => ?_⟩
  obtain ⟨x, hx⟩ := a.ctx m
  obtain ⟨y, hy⟩ := b.ctx m
  exact ⟨y, by rw [hy, hx]⟩

theorem foldl {α : Type} {step : Tile → α → Tile} (one : ∀ (t : Tile) y, MemTile t (step t y)) (l : List α) (t : Tile) : MemTile t (l.foldl step t) := by
  induction l generalizing t with
  | nil => exact refl t
  | cons y l ih => exact (one t y).trans (ih _)

theorem writeTlm (t : Tile) (a : Nat) (bs : List Byte) : MemTile t (t.writeTlm a bs) :=
  ⟨t.writeTlm_eq a bs, fun m => t.ctx_keepStale a bs.length m⟩

theorem zeroScratch (t : Tile) (a : Actor) : MemTile t (zeroScratch t a) := by
  unfold Machine.zeroScratch
  split
  · exact refl t
  · exact writeTlm ..

theorem putQueue (t : Tile) (l : List (Nat × List Byte × Bool)) : MemTile t (t.putQueue l) := by
  refine foldl (fun t y => ?_) ..
  dsimp only
  split
  · exact (writeTlm ..).trans ⟨rfl, fun m => ⟨_, rfl⟩⟩
  · exact writeTlm ..

section
variable {t u : Tile} (h : MemTile t u)
include h

theorem slots : u.slots = t.slots := by rw [h.tile]
theorem active : u.active = t.active := by rw [h.tile]
theorem fabric : u.fabric = t.fabric := by rw [h.tile]

theorem regs (m : Nat) : (t.ctx m).sameRegs (u.ctx m) ∧ (u.ctx m).pcc = (t.ctx m).pcc := by
  obtain ⟨st, same⟩ := h.ctx m
  rw [same]
  exact ⟨⟨fun _ => rfl, fun _ => rfl, fun _ => rfl, rfl⟩, rfl⟩

end

end MemTile

/-! Bytes that a switch writes. -/

/-- The state of a queue's bytes once one entry has been written. -/
def Tile.putEntry (t : Tile) (y : Nat × List Byte × Bool) : Tile :=
  let t1 := t.writeTlm y.1 y.2.1
  if y.2.2 then t1.poisonTlm y.1 y.2.1.length else t1

theorem tlm_putEntry (t : Tile) (y : Nat × List Byte × Bool) : (t.putEntry y).tlm = Memory.writeBytes t.tlm y.1 y.2.1 := by
  unfold Tile.putEntry
  dsimp only
  split
  · exact Tile.tlm_writeTlm ..
  · exact Tile.tlm_writeTlm ..

theorem putQueue_eq (t : Tile) (l : List (Nat × List Byte × Bool)) : t.putQueue l = l.foldl Tile.putEntry t := rfl

theorem read_putQueue_other {l : List (Nat × List Byte × Bool)} {a : Nat} (out : ∀ y ∈ l, a < y.1 ∨ y.1 + y.2.1.length ≤ a) (t : Tile) :
    Memory.read (t.putQueue l).tlm a = Memory.read t.tlm a := by
  rw [putQueue_eq]
  refine List.foldlRecOn (motive := fun u : Tile => Memory.read u.tlm a = Memory.read t.tlm a) _ _ rfl fun u h y hy => ?_
  rw [tlm_putEntry, Memory.read_writeBytes_other _ _ _ _ (out y hy), h]

theorem tlm_zeroScratch (t : Tile) (x : Actor) : (zeroScratch t x).tlm = Memory.writeBytes t.tlm x.scOff (List.replicate x.scLen 0) := by
  unfold zeroScratch
  split
  case isTrue e => rw [e]; rfl
  case isFalse => exact Tile.tlm_writeTlm ..

theorem read_zeroScratch (t : Tile) (x : Actor) (a : Nat) : Memory.read (zeroScratch t x).tlm a =
    if x.scOff ≤ a ∧ a < x.scOff + x.scLen then 0 else Memory.read t.tlm a := by
  rw [tlm_zeroScratch]
  split
  case isTrue inside =>
    obtain ⟨i, rfl⟩ := Nat.exists_eq_add_of_le inside.1
    rw [Memory.read_writeBytes_at _ _ _ _ (by rw [List.length_replicate]; omega), List.getElem_replicate]
  case isFalse out =>
    refine Memory.read_writeBytes_other _ _ _ _ ?_
    rw [List.length_replicate]; omega

theorem read_zeroScratches_other {l : List Actor} {a : Nat} (out : ∀ x ∈ l, ¬(x.scOff ≤ a ∧ a < x.scOff + x.scLen)) (t : Tile) :
    Memory.read (l.foldl zeroScratch t).tlm a = Memory.read t.tlm a := by
  refine List.foldlRecOn (motive := fun u : Tile => Memory.read u.tlm a = Memory.read t.tlm a) _ _ rfl fun u h x hx => ?_
  rw [read_zeroScratch, if_neg (out x hx), h]

theorem read_zeroScratches {l : List Actor} {a : Nat} {x : Actor} (hx : x ∈ l) (inside : x.scOff ≤ a ∧ a < x.scOff + x.scLen) (t : Tile) :
    Memory.read (l.foldl zeroScratch t).tlm a = 0 := by
  refine foldl_reaches (P := fun u : Tile => Memory.read u.tlm a = 0) hx (fun u => ?_) (fun u y h => ?_) t
  · rw [read_zeroScratch, if_pos inside]
  · rw [read_zeroScratch, h, ite_self]

/-! What the claims of a slot leave. -/

theorem carryChans_eq (s : State) (k dest : Nat) : carryChans s k dest = { s with chans := (carryChans s k dest).chans } := by
  have folded : ∀ (l : List (Nat × Port)) (new : Slot) (u : State), (∃ cs, u = { s with chans := cs }) → ∃ cs, l.foldl (fun s' p =>
      let n := AMap.getD new.ports p.1 Port.blank
      if keepsChan s' p.2.chan n.chan then s' else if p.2.output then passCredits s' p.2 n else rebase s' p.2 n) u = { s with chans := cs } := by
    intro l new u hu
    refine List.foldlRecOn (motive := fun u : State => ∃ cs, u = { s with chans := cs }) l _ hu fun u hu p _ => ?_
    obtain ⟨cs, rfl⟩ := hu
    dsimp only
    split
    · exact ⟨_, rfl⟩
    · split
      · unfold passCredits
        split <;> exact ⟨_, rfl⟩
      · unfold rebase
        split
        · exact ⟨_, rfl⟩
        split
        · exact ⟨_, rfl⟩
        split
        · exact ⟨_, rfl⟩
        dsimp only
        split
        · unfold State.freeSlots
          split
          · exact ⟨_, rfl⟩
          · split <;> exact ⟨_, rfl⟩
        · exact ⟨_, rfl⟩
  obtain ⟨cs, h⟩ := folded ((s.tile k).slot.ports.filter fun p => p.2.carried &&
    (AMap.get? (AMap.getD (s.tile k).slots dest Slot.blank).fresh.ports p.1).isSome) (AMap.getD (s.tile k).slots dest Slot.blank).fresh s ⟨s.chans, rfl⟩
  unfold carryChans
  dsimp only at h ⊢
  rw [h]

/-- What the end of claims leaves of a tile: memory and contexts. -/
structure ClaimTile (t u : Tile) : Prop where
  tile : u = { t with slots := u.slots, fabric := u.fabric }

theorem claimTile_freeClaims (t : Tile) (p : Nat → Bool) : ClaimTile t (t.freeClaims p) := ⟨rfl⟩

theorem ClaimTile.trans {t u v : Tile} (a : ClaimTile t u) (b : ClaimTile u v) : ClaimTile t v := ⟨by rw [b.tile, a.tile]⟩

theorem tile_freeFar_own (s : State) (k a : Nat) : (s.freeFar k a).tile k = s.tile k := by
  simp only [State.tile, State.freeFar, AMap.getD, AMap.get?_mapVals]
  cases AMap.get? s.tiles k with
  | none => rfl
  | some t => simp only [Option.map_some, Option.getD_some, if_true]

/-- The claims on other tiles of the actors of a slot. -/
def farClaims (s : State) (k : Nat) (old : Slot) : State := (AMap.keys old.actors).foldl (fun s a => s.freeFar k a) s

theorem farClaims_spec (s : State) (k : Nat) (old : Slot) : farClaims s k old = { s with tiles := (farClaims s k old).tiles } ∧
    (farClaims s k old).tile k = s.tile k ∧ ∀ q, ClaimTile (s.tile q) ((farClaims s k old).tile q) := by
  refine List.foldlRecOn (motive := fun u : State => u = { s with tiles := u.tiles } ∧ u.tile k = s.tile k ∧ ∀ q, ClaimTile (s.tile q) (u.tile q)) _ _
    ⟨rfl, rfl, fun _ => ⟨rfl⟩⟩ fun u ⟨same, own, others⟩ a _ => ⟨by rw [State.freeFar, same], (tile_freeFar_own ..).trans own, fun q => ?_⟩
  rcases tile_freeFar u k a q with e | e <;> rw [e]
  · exact others q
  · exact (others q).trans (claimTile_freeClaims ..)

theorem endClaims_eq (s : State) (k : Nat) (old : Slot) : endClaims s k old = (farClaims s k old).updTile k fun t => t.freeClaims fun _ => true := rfl

/-- The slot that a tile enters (R54). -/
def newSlot (s : State) (k dest : Nat) : Slot :=
  { (AMap.getD (s.tile k).slots dest Slot.blank).fresh with ports := carriedPorts s k dest }

theorem tile_switchSlot (s : State) (k dest q : Nat) : (switchSlot s k dest).tile q =
    if q = k then ((s.tile k).freeClaims fun _ => true).enterSlot dest (newSlot s k dest) (carriedBytes (s.tile k) dest)
    else (farClaims (carryChans s k dest) k (s.tile k).slot).tile q := by
  obtain ⟨-, own, -⟩ := farClaims_spec (carryChans s k dest) k (s.tile k).slot
  have tiles : (carryChans s k dest).tile k = s.tile k := by rw [carryChans_eq]; rfl
  rw [switchSlot_eq, endClaims_eq, State.tile_updTile_apply, State.tile_updTile, own, tiles]
  split
  · rfl
  case isFalse ne => rw [State.tile_updTile_apply, if_neg ne]

theorem claimTile_switchSlot (s : State) (k dest : Nat) {q : Nat} (hq : q ≠ k) : ClaimTile (s.tile q) ((switchSlot s k dest).tile q) := by
  obtain ⟨-, -, others⟩ := farClaims_spec (carryChans s k dest) k (s.tile k).slot
  have tiles : (carryChans s k dest).tile q = s.tile q := by rw [carryChans_eq]; rfl
  rw [tile_switchSlot, if_neg hq]
  rw [← tiles]
  exact others q

theorem switchSlot_rest (s : State) (k dest : Nat) : switchSlot s k dest = { s with
    tiles := (switchSlot s k dest).tiles, chans := (switchSlot s k dest).chans } := by
  obtain ⟨same, -, -⟩ := farClaims_spec (carryChans s k dest) k (s.tile k).slot
  rw [switchSlot_eq, endClaims_eq, same, carryChans_eq]
  rfl

end Sys2Proof.Machine
end

section
/-!
A switch as the obligation says it: bytes, the active slot, claims, and carried queues.
-/

namespace Sys2Proof.Machine

/-- The bytes that a switch may write: the scratch of actors that have not fired, and where carried queues move to. -/
def SwitchWrites (x new : Slot) (a : Nat) : Prop :=
  (∃ y ∈ AMap.vals new.actors, y.firings = 0 ∧ y.scOff ≤ a ∧ a < y.scOff + y.scLen) ∨
  ∃ p o b n z, (p, o) ∈ x.ports ∧ o.carried = true ∧ o.output = false ∧ AMap.get? new.ports p = some b ∧ o.qaddr ≠ b.qaddr ∧
    (n, z) ∈ o.q ∧ b.slotAddr n ≤ a ∧ a < b.slotAddr n + (if o.line then 64 else 8)

/-- A port that is carried to the new slot. -/
def CarriedTo (x : Tile) (new : Slot) (u : Tile) (p : Nat) (a b : Port) : Prop :=
  let y := u.port p
  y.q = a.q ∧ y.h = a.h ∧ y.closed = false ∧ y.count = b.count ∧ y.qaddr = b.qaddr ∧
  (∀ n z, x.slot.ports = [(p, a)] → (∀ y ∈ AMap.vals new.actors, y.scLen = 0) → a.output = false → a.line = b.line →
    a.depth = b.depth → a.q = [(n, z)] → u.payload y n = x.payload a n)

/-- A tile has switched. -/
def Switched (s t : State) (k dest : Nat) : Prop :=
  let x := s.tile k
  let new := AMap.getD x.slots dest Slot.blank
  s.sameGmem t ∧ (∀ q, q ≠ k → ∀ a, Memory.read (t.tile q).tlm a = Memory.read (s.tile q).tlm a) ∧
    (∀ a, ¬SwitchWrites x.slot new a → Memory.read (t.tile k).tlm a = Memory.read x.tlm a) ∧
    (∀ y ∈ AMap.vals new.actors, y.firings = 0 → ∀ a, y.scOff ≤ a → a < y.scOff + y.scLen → Memory.read (t.tile k).tlm a = 0) ∧
    (t.tile k).active = dest ∧ (t.tile k).slot.state = .active ∧ (t.tile k).slot.resid = new.resid ∧
    (t.tile k).fabric.owner = none ∧ (t.tile k).fabric.iOwner = none ∧
    (dest ≠ x.active → ∀ n z, AMap.get? (AMap.getD (t.tile k).slots x.active Slot.blank).streams n = some z → z.claim = none) ∧
    ∀ p a b, (x.slot.ports.map (·.1)).Nodup → AMap.get? x.slot.ports p = some a → a.carried = true → AMap.get? new.ports p = some b →
      CarriedTo x new (t.tile k) p a b

theorem filter_none {α : Type} (o : Option α) : (o.filter fun _ => !true) = none := by cases o <;> rfl

/-! The new slot. -/

theorem actors_fresh (x : Slot) {y : Actor} : y ∈ AMap.vals x.fresh.actors ↔
    ∃ a ∈ AMap.vals x.actors, y = { a with ended := false, pend := none, fired := false } := by
  have vals : AMap.vals x.fresh.actors = (AMap.vals x.actors).map fun a => { a with ended := false, pend := none, fired := false } := by
    simp only [AMap.vals, Slot.fresh, AMap.mapVals, List.map_map]; rfl
  rw [vals, List.mem_map]
  exact ⟨fun ⟨a, h, e⟩ => ⟨a, h, e.symm⟩, fun ⟨a, h, e⟩ => ⟨a, h, e.symm⟩⟩

theorem port_fresh (x : Slot) (p : Nat) : AMap.get? x.fresh.ports p = (AMap.get? x.ports p).map fun b => { b with closed := false, drain := .no } :=
  AMap.get?_mapVals (β := Port) x.ports (fun _ b => { b with closed := false, drain := .no }) p

/-- The actors of the incoming slot whose scratch is zeroed. -/
def unfired (x : Slot) : List Actor := (AMap.vals x.fresh.actors).filter fun a => decide (a.firings = 0)

theorem mem_unfired {x : Slot} {y : Actor} (h : y ∈ unfired x) : ∃ a ∈ AMap.vals x.actors, a.firings = 0 ∧ y.scOff = a.scOff ∧ y.scLen = a.scLen := by
  obtain ⟨mem, fired⟩ := List.mem_filter.mp h
  obtain ⟨a, ha, rfl⟩ := (actors_fresh x).mp mem
  exact ⟨a, ha, of_decide_eq_true fired, rfl, rfl⟩

theorem unfired_mem {x : Slot} {a : Actor} (h : a ∈ AMap.vals x.actors) (fired : a.firings = 0) :
    { a with ended := false, pend := none, fired := false } ∈ unfired x :=
  List.mem_filter.mpr ⟨(actors_fresh x).mpr ⟨a, h, rfl⟩, decide_eq_true fired⟩

section
variable (s : State) (k dest : Nat)

/-- The slot that a tile is to enter, as it stands. -/
def incoming : Slot := AMap.getD (s.tile k).slots dest Slot.blank

/-- The ports of the outgoing slot that the incoming one takes over. -/
def carriedOver : List (Nat × Port) :=
  (s.tile k).slot.ports.filter fun p => p.2.carried && (AMap.get? (incoming s k dest).fresh.ports p.1).isSome

theorem carriedBytes_eq : carriedBytes (s.tile k) dest = (carriedOver s k dest).flatMap fun p =>
    queueCopy (s.tile k) p.2 (AMap.getD (incoming s k dest).fresh.ports p.1 Port.blank) := rfl

variable {s k dest} in
/-- What is written for a carried queue stands where the incoming slot's queue lies. -/
theorem mem_carriedBytes {y : Nat × List Byte × Bool} (h : y ∈ carriedBytes (s.tile k) dest) :
    ∃ p o b n z, (p, o) ∈ (s.tile k).slot.ports ∧ o.carried = true ∧ o.output = false ∧ AMap.get? (incoming s k dest).ports p = some b ∧
      o.qaddr ≠ b.qaddr ∧ (n, z) ∈ o.q ∧ y.1 = b.slotAddr n ∧ y.2.1.length = (if o.line then 64 else 8) := by
  rw [carriedBytes_eq] at h
  obtain ⟨⟨p, o⟩, hp, hy⟩ := List.mem_flatMap.mp h
  obtain ⟨mem, carried⟩ := List.mem_filter.mp hp
  obtain ⟨carried, found⟩ := Bool.and_eq_true_iff.mp carried
  obtain ⟨b, hb⟩ := Option.isSome_iff_exists.mp found
  rw [port_fresh, Option.map_eq_some_iff] at hb
  obtain ⟨b, hb, -⟩ := hb
  have new : AMap.getD (incoming s k dest).fresh.ports p Port.blank = { b with closed := false, drain := .no } :=
    AMap.getD_of_get? (by rw [port_fresh, hb]; rfl) _
  rw [queueCopy, new] at hy
  dsimp only at hy
  split at hy
  · cases hy
  case isFalse moves =>
    rw [Bool.or_eq_true, not_or, Bool.not_eq_true, beq_iff_eq] at moves
    obtain ⟨⟨n, z⟩, hz, rfl⟩ := List.mem_map.mp hy
    refine ⟨p, o, b, n, z, mem, carried, moves.1, hb, moves.2, hz, rfl, ?_⟩
    rw [leBytes_length]

/-- The tile after the switch, before its memory is written. -/
def entered (t : Tile) (dest : Nat) (new : Slot) : Tile :=
  { t with
    slots := AMap.set (AMap.set t.slots t.active { t.slot with state := if t.slot.state = .empty then .empty else .loaded }) dest new
    active := dest }

theorem enterSlot_eq (t : Tile) (new : Slot) (moved : List (Nat × List Byte × Bool)) : t.enterSlot dest new moved =
    ((AMap.vals new.actors).filter fun a => decide (a.firings = 0)).foldl zeroScratch ((entered t dest new).putQueue moved) := rfl

theorem memTile_enterSlot (t : Tile) (new : Slot) (moved : List (Nat × List Byte × Bool)) :
    MemTile (entered t dest new) (t.enterSlot dest new moved) := (MemTile.putQueue ..).trans (.foldl MemTile.zeroScratch ..)

/-- The tile with its claims ended, about to enter its new slot. -/
def leaving : Tile := (s.tile k).freeClaims fun _ => true

theorem switchSlot_at : (switchSlot s k dest).tile k = (leaving s k).enterSlot dest (newSlot s k dest) (carriedBytes (s.tile k) dest) :=
  (tile_switchSlot s k dest k).trans (if_pos rfl)

theorem memTile_switchSlot : MemTile (entered (leaving s k) dest (newSlot s k dest)) ((switchSlot s k dest).tile k) := by
  rw [switchSlot_at]; exact memTile_enterSlot ..

theorem slot_switchSlot : ((switchSlot s k dest).tile k).slot = newSlot s k dest := by
  have mem := memTile_switchSlot s k dest
  rw [Tile.slot, mem.slots, mem.active]
  exact AMap.getD_set_same ..

theorem switchSlot_tlm (a : Nat) : Memory.read ((switchSlot s k dest).tile k).tlm a =
    Memory.read ((unfired (incoming s k dest)).foldl zeroScratch
      ((entered (leaving s k) dest (newSlot s k dest)).putQueue (carriedBytes (s.tile k) dest))).tlm a := by
  rw [switchSlot_at]; rfl

variable {s k dest} in
theorem switchSlot_unwritten {a : Nat} (out : ¬SwitchWrites (s.tile k).slot (incoming s k dest) a) :
    Memory.read ((switchSlot s k dest).tile k).tlm a = Memory.read (s.tile k).tlm a := by
  rw [switchSlot_tlm, read_zeroScratches_other, read_putQueue_other]
  · rfl
  · intro y hy
    by_contra c
    obtain ⟨p, o, b, n, z, mem, carried, input, port, moves, entry, start, len⟩ := mem_carriedBytes hy
    exact out (.inr ⟨p, o, b, n, z, mem, carried, input, port, moves, entry, by omega, by omega⟩)
  · intro y hy inside
    obtain ⟨b, hb, fired, off, len⟩ := mem_unfired hy
    exact out (.inl ⟨b, hb, fired, by omega, by omega⟩)

variable {s k dest} in
theorem switchSlot_zeroed {y : Actor} (hy : y ∈ AMap.vals (incoming s k dest).actors) (fired : y.firings = 0) {a : Nat} (lo : y.scOff ≤ a)
    (hi : a < y.scOff + y.scLen) : Memory.read ((switchSlot s k dest).tile k).tlm a = 0 := by
  rw [switchSlot_tlm]
  exact read_zeroScratches (unfired_mem hy fired) ⟨lo, hi⟩ _

variable {s k dest} in
/-- The old slot's streams are free (R257). -/
theorem switchSlot_claims (other : dest ≠ (s.tile k).active) {n : Nat} {z : Stream}
    (hz : AMap.get? (AMap.getD ((switchSlot s k dest).tile k).slots (s.tile k).active Slot.blank).streams n = some z) : z.claim = none := by
  have mem := memTile_switchSlot s k dest
  have old : AMap.getD ((switchSlot s k dest).tile k).slots (s.tile k).active Slot.blank =
      { (leaving s k).slot with state := if (leaving s k).slot.state = .empty then .empty else .loaded } := by
    rw [mem.slots]
    exact (AMap.getD_set_other _ _ _ other).trans (AMap.getD_set_same ..)
  have streams : (leaving s k).slot.streams = AMap.mapVals (s.tile k).slot.streams fun _ x => { x with claim := x.claim.filter fun _ => !true } := by
    rw [leaving, Tile.freeClaims, Tile.slot_setSlot]; rfl
  rw [old, streams, AMap.get?_mapVals, Option.map_eq_some_iff] at hz
  obtain ⟨x, -, rfl⟩ := hz
  cases x.claim <;> rfl

end

/-! Carried ports. -/

theorem leNat_lt (l : List Byte) : leNat l < 256 ^ l.length := by
  induction l with
  | nil => exact Nat.one_pos
  | cons b l ih =>
    have := b.isLt
    rw [leNat, List.length_cons, Nat.pow_succ]
    omega

theorem Memory.readN_lt (m : Memory) (a n : Nat) : Memory.readN m a n < 256 ^ n := by
  have bound := leNat_lt (Memory.readBytes m a n)
  rwa [readBytes_length] at bound

/-- A payload is the bytes of its queue entry and no more. -/
theorem payload_mod (t : Tile) (x : Port) (n : Nat) : (t.payload x n).toNat % 256 ^ (if x.line then 64 else 8) =
    t.readTlm (x.slotAddr n) (if x.line then 64 else 8) := by
  have small : t.readTlm (x.slotAddr n) (if x.line then 64 else 8) < 256 ^ (if x.line then 64 else 8) := Memory.readN_lt ..
  have wide : 256 ^ (if x.line then 64 else 8) ≤ 2 ^ 512 := by
    rw [show (256 : Nat) = 2 ^ 8 by rfl, ← Nat.pow_mul]
    exact Nat.pow_le_pow_right Nat.two_pos (by split <;> omega)
  rw [Tile.payload, BitVec.toNat_ofNat, Nat.mod_eq_of_lt (small.trans_le wide), Nat.mod_eq_of_lt small]

section
variable {s : State} {k dest p : Nat} {a b : Port} (nodup : ((s.tile k).slot.ports.map (·.1)).Nodup) (old : AMap.get? (s.tile k).slot.ports p = some a)
  (carried : a.carried = true) (new : AMap.get? (incoming s k dest).ports p = some b)
include nodup old carried new

omit nodup old carried in
theorem incoming_fresh : AMap.getD (incoming s k dest).fresh.ports p Port.blank = { b with closed := false, drain := .no } :=
  AMap.getD_of_get? (by rw [port_fresh, new]; rfl) _

omit nodup in
theorem mem_carriedOver : (p, a) ∈ carriedOver s k dest :=
  List.mem_filter.mpr ⟨AMap.mem_of_get? old, by rw [carried, port_fresh, new]; rfl⟩

theorem port_switchSlot : ∃ keep, ((switchSlot s k dest).tile k).port p = carryPort a { b with closed := false, drain := .no } keep := by
  have ports : (newSlot s k dest).ports = (carriedOver s k dest).foldl (fun m x => AMap.set m x.1 (carryPort x.2
      (AMap.getD (incoming s k dest).fresh.ports x.1 Port.blank)
      (keepsChan s x.2.chan (AMap.getD (incoming s k dest).fresh.ports x.1 Port.blank).chan))) (incoming s k dest).fresh.ports := rfl
  obtain ⟨x, hx, key, at_⟩ := AMap.get?_foldl_set_mem (fun x : Nat × Port => x.1) (fun x => carryPort x.2
      (AMap.getD (incoming s k dest).fresh.ports x.1 Port.blank)
      (keepsChan s x.2.chan (AMap.getD (incoming s k dest).fresh.ports x.1 Port.blank).chan))
    ⟨(p, a), mem_carriedOver old carried new, rfl⟩ (incoming s k dest).fresh.ports
  have same : x.2 = a := by
    have entry := (List.mem_filter.mp hx).1
    rw [← Prod.mk.eta (p := x), key] at entry
    have e := (AMap.get?_of_mem nodup entry).symm.trans old
    exact Option.some.inj e
  refine ⟨keepsChan s a.chan (AMap.getD (incoming s k dest).fresh.ports p Port.blank).chan, ?_⟩
  rw [Tile.port, slot_switchSlot, ports, AMap.getD, at_, Option.getD_some, same, key, incoming_fresh new]

/-- The one queue that is carried holds its one token, at its new place too (R38, R54). -/
theorem payload_switchSlot {n : Nat} {z : QSlot} (only : (s.tile k).slot.ports = [(p, a)])
    (dry : ∀ y ∈ AMap.vals (incoming s k dest).actors, y.scLen = 0) (input : a.output = false) (line : a.line = b.line) (depth : a.depth = b.depth)
    (one : a.q = [(n, z)]) : ((switchSlot s k dest).tile k).payload (((switchSlot s k dest).tile k).port p) n = (s.tile k).payload a n := by
  obtain ⟨keep, port⟩ := port_switchSlot nodup old carried new
  have moved : carriedBytes (s.tile k) dest = queueCopy (s.tile k) a { b with closed := false, drain := .no } := by
    have all : carriedOver s k dest = [(p, a)] := by
      have kept := mem_carriedOver old carried new
      rw [carriedOver, only] at kept ⊢
      exact List.filter_eq_self.mpr fun y hy => by
        rw [List.mem_singleton.mp hy]; exact (List.mem_filter.mp kept).2
    rw [carriedBytes_eq, all, List.flatMap_singleton, incoming_fresh new]
  have tlm (i : Nat) : Memory.read ((switchSlot s k dest).tile k).tlm i =
      Memory.read ((entered (leaving s k) dest (newSlot s k dest)).putQueue (carriedBytes (s.tile k) dest)).tlm i := by
    rw [switchSlot_tlm, read_zeroScratches_other]
    intro y hy inside
    obtain ⟨c, hc, -, -, len⟩ := mem_unfired hy
    have := dry c hc
    omega
  have place : ((switchSlot s k dest).tile k).payload (((switchSlot s k dest).tile k).port p) n =
      BitVec.ofNat 512 (Memory.readN ((switchSlot s k dest).tile k).tlm (b.slotAddr n) (if a.line then 64 else 8)) := by
    rw [port, line, carryPort]; dsimp only; split <;> rfl
  rw [place]
  by_cases same : a.qaddr = b.qaddr
  · have still : b.slotAddr n = a.slotAddr n := by rw [Port.slotAddr, Port.slotAddr, same, line, depth]
    have nothing : queueCopy (s.tile k) a { b with closed := false, drain := .no } = [] :=
      if_pos (by rw [Bool.or_eq_true, beq_iff_eq]; exact .inr same)
    rw [still, Tile.payload, Tile.readTlm]
    refine congrArg _ (Memory.readN_congr fun i _ => ?_)
    rw [tlm, moved, nothing]
    rfl
  · have written : ((entered (leaving s k) dest (newSlot s k dest)).putQueue (carriedBytes (s.tile k) dest)).tlm =
        Memory.writeBytes (s.tile k).tlm (b.slotAddr n) (leBytes (if a.line then 64 else 8) ((s.tile k).payload a n).toNat) := by
      have copy : queueCopy (s.tile k) a { b with closed := false, drain := .no } =
          [(b.slotAddr n, leBytes (if a.line then 64 else 8) ((s.tile k).payload a n).toNat,
            ((s.tile k).badWord (a.slotAddr n) (if a.line then 64 else 8)).isSome)] := by
        rw [queueCopy, one]
        exact if_neg (by rw [Bool.or_eq_true, beq_iff_eq, input]; exact fun h => h.elim Bool.noConfusion same)
      rw [moved, copy]
      exact tlm_putEntry ..
    rw [Memory.readN_congr fun i _ => tlm _, written, Memory.readN_writeN, payload_mod]
    rfl

end

/-- The switch, as the obligation says it. -/
theorem switched_switchSlot (s : State) (k dest : Nat) : Switched s (switchSlot s k dest) k dest := by
  have mem := memTile_switchSlot s k dest
  refine ⟨fun a => by rw [switchSlot_rest], fun q hq a => ?_, fun a => switchSlot_unwritten, fun y hy fired a => switchSlot_zeroed hy fired,
    switchSlot_active s k dest, ?_, ?_, ?_, ?_, fun other n z => switchSlot_claims other, fun p a b nodup old carried new => ?_⟩
  · rw [(claimTile_switchSlot s k dest hq).tile]
  · rw [slot_switchSlot]; rfl
  · rw [slot_switchSlot]; rfl
  · rw [mem.fabric]
    exact filter_none _
  · rw [mem.fabric]
    exact filter_none _
  · obtain ⟨keep, port⟩ := port_switchSlot nodup old carried new
    refine ⟨?_, ?_, ?_, ?_, ?_, fun n z only dry input line depth one => payload_switchSlot nodup old carried new only dry input line depth one⟩ <;>
      rw [port, carryPort] <;> dsimp only <;> split <;> rfl

end Sys2Proof.Machine
end

section
/-!
CSLOT, and CONFIG_SLOT_SWITCH, which a CSLOT or the next role waits for (02 R54, 13 R335).
-/

namespace Sys2Proof.Machine

/-! What surrounds a switch. -/

/-- Steps after a switch leave of it: memory, and the slots and claims of the tile. -/
structure AfterSwitch (k : Nat) (t u : State) : Prop where
  gmem : u.gmem = t.gmem
  tlm : ∀ q, (u.tile q).tlm = (t.tile q).tlm
  slots : (u.tile k).slots = (t.tile k).slots
  active : (u.tile k).active = (t.tile k).active
  fabric : (u.tile k).fabric = (t.tile k).fabric

namespace AfterSwitch

theorem trans {k : Nat} {s t u : State} (a : AfterSwitch k s t) (b : AfterSwitch k t u) : AfterSwitch k s u :=
  ⟨b.gmem.trans a.gmem, fun q => (b.tlm q).trans (a.tlm q), b.slots.trans a.slots, b.active.trans a.active, b.fabric.trans a.fabric⟩

theorem setTile {k q : Nat} (s : State) {t : Tile} (tlm : t.tlm = (s.tile q).tlm) (slots : t.slots = (s.tile q).slots)
    (active : t.active = (s.tile q).active) (fabric : t.fabric = (s.tile q).fabric) : AfterSwitch k s (s.setTile q t) := by
  refine ⟨rfl, fun m => ?_, ?_, ?_, ?_⟩ <;> rw [State.tile_setTile_apply] <;> split
  case refine_1.isTrue e => rw [e, tlm]
  case refine_2.isTrue e => rw [e, slots]
  case refine_3.isTrue e => rw [e, active]
  case refine_4.isTrue e => rw [e, fabric]
  all_goals rfl

theorem setTaskTag (k : Nat) (s : State) (q task : Nat) (g : BitVec 6) : AfterSwitch k s (s.updTile q fun t => t.setTaskTag task g) :=
  setTile s rfl rfl rfl rfl

theorem complete (k : Nat) (s : State) (len : Nat) : AfterSwitch k s (s.complete len) := setTile s rfl rfl rfl rfl

theorem moved (k : Nat) (s : State) (h : Nat) : AfterSwitch k s (s.moved h) :=
  ⟨State.moved_gmem .., fun q => by rw [State.tile_moved], by rw [State.tile_moved], by rw [State.tile_moved], by rw [State.tile_moved]⟩

theorem slot {k : Nat} {t u : State} (a : AfterSwitch k t u) : (u.tile k).slot = (t.tile k).slot := by
  rw [Tile.slot, a.slots, a.active]; rfl

end AfterSwitch

theorem Switched.right {s t u : State} {k dest : Nat} (h : Switched s t k dest) (a : AfterSwitch k t u) : Switched s u k dest := by
  obtain ⟨gmem, others, kept, zeroed, active, state, resid, owner, iOwner, claims, ports⟩ := h
  have port (p : Nat) : (u.tile k).port p = (t.tile k).port p := by rw [Tile.port, a.slot]; rfl
  refine ⟨fun x => by rw [a.gmem]; exact gmem x, fun q hq x => by rw [a.tlm]; exact others q hq x, fun x out => by rw [a.tlm]; exact kept x out,
    fun y hy fired x lo hi => by rw [a.tlm]; exact zeroed y hy fired x lo hi, by rw [a.active]; exact active, by rw [a.slot]; exact state,
    by rw [a.slot]; exact resid, by rw [a.fabric]; exact owner, by rw [a.fabric]; exact iOwner, fun other n z => by rw [a.slots]; exact claims other n z,
    fun p x y nodup old carried new => ?_⟩
  obtain ⟨q, h, closed, count, qaddr, payload⟩ := ports p x y nodup old carried new
  unfold CarriedTo
  dsimp only
  rw [port]
  refine ⟨q, h, closed, count, qaddr, fun n z only dry input line depth one => ?_⟩
  rw [Tile.payload, Tile.readTlm, a.tlm]
  exact payload n z only dry input line depth one

/-- A state before a switch: as `s`, but the outgoing slot's queues that are not carried may be empty. -/
structure BeforeSwitch (k dest : Nat) (s t : State) : Prop where
  gmem : t.gmem = s.gmem
  tlm : ∀ q, (t.tile q).tlm = (s.tile q).tlm
  active : (t.tile k).active = (s.tile k).active
  new : incoming t k dest = incoming s k dest
  ports : (t.tile k).slot.ports = (s.tile k).slot.discard.ports

/-- What becomes of a port's queue when its slot is discarded (R335). -/
def Port.discard (p : Port) : Port := if p.carried || p.output then p else { p with q := [] }

theorem Port.discard_carried {p : Port} (h : p.carried = true) : p.discard = p := by rw [Port.discard, h]; rfl

theorem Port.carried_discard (p : Port) : p.discard.carried = p.carried := by
  unfold Port.discard
  split <;> rfl

theorem discard_ports (x : Slot) : x.discard.ports = AMap.mapVals x.ports fun _ p => p.discard := rfl

theorem Switched.left {s s' t : State} {k dest : Nat} (h : Switched s' t k dest) (b : BeforeSwitch k dest s s') : Switched s t k dest := by
  obtain ⟨gmem, others, kept, zeroed, active, state, resid, owner, iOwner, claims, ports⟩ := h
  have new : AMap.getD (s'.tile k).slots dest Slot.blank = AMap.getD (s.tile k).slots dest Slot.blank := b.new
  rw [new] at kept zeroed resid ports
  rw [b.active] at claims
  refine ⟨fun x => by rw [gmem, b.gmem], fun q hq x => by rw [others q hq, b.tlm], fun x out => ?_, zeroed, active, state, resid, owner, iOwner, claims,
    fun p x y nodup old carried new => ?_⟩
  · rw [kept x fun w => out ?_, b.tlm]
    rcases w with w | ⟨p, o, y, n, z, mem, carried, rest⟩
    · exact .inl w
    · rw [b.ports, discard_ports] at mem
      obtain ⟨⟨p', o'⟩, entry, e⟩ := List.mem_map.mp mem
      obtain ⟨rfl, discarded⟩ := Prod.mk.inj e
      have carried' : o'.carried = true := by rw [← Port.carried_discard]; exact (congrArg Port.carried discarded).trans carried
      obtain rfl : o' = o := (Port.discard_carried carried').symm.trans discarded
      exact .inr ⟨p', o', y, n, z, entry, carried', rest⟩
  · have keys : ((s'.tile k).slot.ports.map (·.1)).Nodup := by
      rw [b.ports, discard_ports, AMap.mapVals, List.map_map]; exact nodup
    have found : AMap.get? (s'.tile k).slot.ports p = some x := by
      rw [b.ports, discard_ports, AMap.get?_mapVals, old, Option.map_some, Port.discard_carried carried]
    obtain ⟨q, h, closed, count, qaddr, payload⟩ := ports p x y keys found carried new
    refine ⟨q, h, closed, count, qaddr, fun n z only dry input line depth one => ?_⟩
    have only : (s'.tile k).slot.ports = [(p, x)] := by
      rw [b.ports, discard_ports, only, AMap.mapVals, List.map_singleton, Port.discard_carried carried]
    rw [payload n z only dry input line depth one, Tile.payload, Tile.readTlm, b.tlm]
    rfl

/-! A task's tag is set in its context. -/

theorem Ctx.tags_claimed (c : Ctx) (g : BitVec 6) : ((c.tagClear g).tagSet g).tags = c.tags ||| (1#64 <<< g.toNat) := by
  refine BitVec.eq_of_getLsbD_eq fun i hi => ?_
  simp only [Ctx.tagSet, Ctx.tagClear, BitVec.getLsbD_or, BitVec.getLsbD_and, BitVec.getLsbD_not, hi, decide_true, Bool.true_and]
  cases c.tags.getLsbD i <;> cases (1#64 <<< g.toNat).getLsbD i <;> rfl

theorem State.me_setTaskTag {u : State} (busy : u.me.mode ≠ .free) (g : BitVec 6) :
    (u.updTile u.cur.tile fun t => t.setTaskTag u.me.task g).me = u.me.tagSet g := by
  have tile : (u.updTile u.cur.tile fun t => t.setTaskTag u.me.task g).here = u.here.setTaskTag u.me.task g := State.tile_updTile ..
  rw [State.me, tile, Tile.setTaskTag, Tile.ctx_updTask]
  exact if_pos ⟨rfl, busy⟩

theorem tagged_setTaskTag (s : State) (k m : Nat) (g : BitVec 6) (busy : ((s.tile k).ctx m).mode ≠ .free) :
    (((s.updTile k fun t => t.setTaskTag (t.ctx m).task g).tile k).ctx m).tags.getLsbD g.toNat = true := by
  rw [State.tile_updTile, Tile.setTaskTag, Tile.ctx_updTask, if_pos ⟨rfl, busy⟩]
  exact getLsbD_tagSet ..

/-! CSLOT (R335). -/

/-- What an instruction that only claims a tag and hands its work on leaves of the executing context. -/
structure WorkFrame (s v : State) : Prop where
  me : v.me = { s.me with tags := v.me.tags, stale := v.me.stale }
  gmem : v.gmem = s.gmem

/-- What the obligation says of every instruction that completes. -/
def WorkDone (s t : State) : Prop := GoesOn s t 8 ∧ s.me.sameRegs t.me ∧ s.sameGmem t

theorem WorkFrame.done {s v : State} (h : WorkFrame s v) : WorkDone s (v.complete 8) := by
  refine ⟨goesOn_complete (by rw [h.me]; exact ⟨rfl, rfl, rfl, rfl⟩) 8, ?_, fun a => by rw [State.complete_gmem, h.gmem]⟩
  rw [me_complete_eq, Ctx.advance_only, h.me]
  exact ⟨fun _ => rfl, fun _ => rfl, fun _ => rfl, rfl⟩

/-- The state once the tag of the instruction is claimed. -/
def State.issued (s : State) (g : BitVec 6) : State := s.setMe (s.me.tagClear g)

theorem claimTag_free {s : State} {g : BitVec 6} (free : tagBusy s s.cur.tile s.me.task g = false) : claimTag s g = .ok (s.issued g) := by
  rw [claimTag, free]; rfl

theorem State.me_issued (s : State) (g : BitVec 6) : (s.issued g).me = s.me.tagClear g := State.me_setMe ..

theorem State.here_issued (s : State) (g : BitVec 6) : (s.issued g).here = s.here.setCtx s.cur.ctx (s.me.tagClear g) := State.here_setMe ..

/-- The operation is done where its task stands: its tag is set. -/
def State.doneMe (v s : State) (g : BitVec 6) : State := v.opDone s.cur.tile s.me.task s.me.actor g false

theorem AfterSwitch.issued (k : Nat) (s : State) (g : BitVec 6) : AfterSwitch k s (s.issued g) := setTile s rfl rfl rfl rfl

theorem AfterSwitch.doneMe (k : Nat) (v s : State) (g : BitVec 6) : AfterSwitch k v (v.doneMe s g) := setTaskTag ..

section
variable {s v : State} (cur : v.cur = s.cur)
include cur

theorem me_doneMe {g : BitVec 6} (task : v.me.task = s.me.task) (busy : v.me.mode ≠ .free) : (v.doneMe s g).me = v.me.tagSet g := by
  rw [State.doneMe, ← cur, ← task]
  exact State.me_setTaskTag busy g

theorem here_doneMe (g : BitVec 6) : (v.doneMe s g).here = v.here.setTaskTag s.me.task g := by
  have at_ : (v.doneMe s g).here = (v.doneMe s g).tile s.cur.tile := by rw [← cur]; rfl
  rw [at_, State.here, cur]
  exact State.tile_updTile v s.cur.tile fun t => t.setTaskTag s.me.task g

theorem here_done (g : BitVec 6) : ((v.doneMe s g).complete 8).here =
    (v.here.setTaskTag s.me.task g).setCtx s.cur.ctx ((v.doneMe s g).complete 8).me := by
  rw [← here_doneMe cur, State.me_complete, ← cur]
  exact State.here_setMe ..

end

theorem discardSlot_ctx (t : Tile) (m : Nat) : t.discardSlot.ctx m =
    if m ≠ 0 ∧ ((t.ctx m).role = .primary ∨ (t.ctx m).role = .started) then Ctx.init else t.ctx m := by
  have ctxs : t.discardSlot.ctxs = AMap.mapVals t.ctxs fun n c =>
    if n ≠ 0 ∧ (decide (c.role = .primary) || decide (c.role = .started)) = true then Ctx.init else c := rfl
  rw [Tile.ctx, AMap.getD, ctxs, AMap.get?_mapVals, Tile.ctx, AMap.getD]
  cases AMap.get? t.ctxs m with
  | none => exact (ite_self _).symm
  | some c => simp only [Option.map_some, Option.getD_some, Bool.or_eq_true, decide_eq_true_eq]

section
variable {f : EW} {s : State}

theorem cslot_busy (busy : tagBusy s s.cur.tile s.me.task f.tag = true) : Stalls (.cslot f) s := by
  change execCslot f s = _
  simp only [execCslot, claimTag, busy, Bind.bind, Except.bind]
  rfl

variable (free : tagBusy s s.cur.tile s.me.task f.tag = false)
include free

theorem exec_cslot_here (tok : f.tok = 0) (own : f.c.toNat = s.here.active) :
    exec (.cslot f) s = .next (((s.issued f.tag).doneMe s f.tag).complete 8) := by
  change execCslot f s = _
  simp only [execCslot, claimTag_free free, own, tok, if_true, Bind.bind, Except.bind]
  rfl

variable (other : f.c.toNat ≠ s.here.active)
include other

theorem cslot_empty (empty : (AMap.getD s.here.slots f.c.toNat Slot.blank).state = .empty) : Traps (.cslot f) s 0x17 (BitVec.ofNat 64 (256 * 1 + 0x70)) := by
  change execCslot f s = _
  simp only [execCslot, claimTag_free free, if_neg other, empty, decide_true, trapIf_true, Bind.bind, Except.bind]
  rfl

variable (full : (AMap.getD s.here.slots f.c.toNat Slot.blank).state ≠ .empty)
include full

theorem cslot_waits (drain : f.imm.getLsbD 0 = false) (waiting : s.here.switchTo ≠ none) : Stalls (.cslot f) s := by
  change execCslot f s = _
  simp only [execCslot, claimTag_free free, if_neg other, decide_eq_false full, drain, Option.isSome_iff_ne_none.mpr waiting, trapIf_false,
    Bool.not_false, Bool.and_self, stallIf_true, Bind.bind, Except.bind]
  rfl

variable (tok : f.tok = 0)
include tok

theorem exec_cslot_drain (drain : f.imm.getLsbD 0 = false) (idle : s.here.switchTo = none) : exec (.cslot f) s =
    .next (((s.issued f.tag).setHere { (s.issued f.tag).here with switchTo := some (f.c.toNat, some f.tag) }).complete 8) := by
  change execCslot f s = _
  simp only [execCslot, claimTag_free free, if_neg other, decide_eq_false full, drain, idle, tok, trapIf_false, Option.isSome_none, Bool.and_false,
    stallIf_false, Bind.bind, Except.bind]
  rfl

theorem exec_cslot_discard (discard : f.imm.getLsbD 0 = true) : exec (.cslot f) s =
    .next (((switchSlot ((s.issued f.tag).setHere (s.issued f.tag).here.discardSlot) s.cur.tile f.c.toNat).doneMe s f.tag).complete 8) := by
  change execCslot f s = _
  simp only [execCslot, claimTag_free free, if_neg other, decide_eq_false full, discard, tok, trapIf_false, Bool.not_true, Bool.false_and,
    stallIf_false, if_true, Bind.bind, Except.bind]
  rfl

end

/-! What CSLOT leaves. -/

/-- A CSLOT that is done at once sets its tag. -/
theorem cslot_here {s : State} {g : BitVec 6} (busy : s.me.mode ≠ .free) :
    let t := ((s.issued g).doneMe s g).complete 8
    WorkDone s t ∧ s.sameTlm t ∧ t.me.tags = s.me.tags ||| (1#64 <<< g.toNat) ∧ t.here.active = s.here.active := by
  have me : ((s.issued g).doneMe s g).me = (s.me.tagClear g).tagSet g := by
    have cur : (s.issued g).cur = s.cur := rfl
    rw [me_doneMe cur (by rw [State.me_issued]; rfl) (by rw [State.me_issued]; exact busy), State.me_issued]
  have after : AfterSwitch s.cur.tile s (((s.issued g).doneMe s g).complete 8) :=
    ((AfterSwitch.issued ..).trans (.doneMe ..)).trans (.complete ..)
  refine ⟨WorkFrame.done ⟨by rw [me]; rfl, rfl⟩, fun q a => by rw [after.tlm], ?_, after.active⟩
  rw [State.tags_complete, me, Ctx.tags_claimed]

/-- A CSLOT waits for the drain of the active slot, its tag outstanding. -/
theorem cslot_drain (s : State) (g : BitVec 6) (dest : Nat) :
    let t := ((s.issued g).setHere { (s.issued g).here with switchTo := some (dest, some g) }).complete 8
    WorkDone s t ∧ s.sameTlm t ∧ tagCleared s t g ∧ t.here.switchTo = some (dest, some g) ∧ t.here.active = s.here.active := by
  have me : ((s.issued g).setHere { (s.issued g).here with switchTo := some (dest, some g) }).me = s.me.tagClear g := by
    rw [State.me, State.here_setHere, ← State.me_issued]; rfl
  have waits : AfterSwitch s.cur.tile (s.issued g) ((s.issued g).setHere { (s.issued g).here with switchTo := some (dest, some g) }) :=
    .setTile _ rfl rfl rfl rfl
  have after : AfterSwitch s.cur.tile s (((s.issued g).setHere { (s.issued g).here with switchTo := some (dest, some g) }).complete 8) :=
    ((AfterSwitch.issued ..).trans waits).trans (.complete ..)
  refine ⟨WorkFrame.done ⟨by rw [me]; rfl, rfl⟩, fun q a => by rw [after.tlm], ?_, ?_, after.active⟩
  · rw [tagCleared, State.tags_complete, me]; rfl
  · rw [State.complete, State.here_setMe, Tile.setCtx, State.here_setHere]

section
variable (s : State) (g : BitVec 6)

/-- The state that a discarding CSLOT switches. -/
def State.discarded : State := (s.issued g).setHere (s.issued g).here.discardSlot

theorem here_discarded : (s.discarded g).here = (s.here.setCtx s.cur.ctx (s.me.tagClear g)).discardSlot := by
  rw [State.discarded, State.here_setHere, State.here_issued]

theorem beforeSwitch_discarded {dest : Nat} (other : dest ≠ s.here.active) : BeforeSwitch s.cur.tile dest s (s.discarded g) := by
  have here : (s.discarded g).tile s.cur.tile = _ := here_discarded s g
  refine ⟨rfl, fun q => ?_, ?_, ?_, ?_⟩
  · by_cases hq : q = s.cur.tile
    · rw [hq, here]; rfl
    · rw [State.discarded, State.issued, State.setMe, State.setHere, State.setHere, State.tile_setTile_apply, State.tile_setTile_apply,
        if_neg hq]
      exact congrArg Tile.tlm (if_neg hq)
  · rw [here]; rfl
  · rw [incoming, here]
    exact AMap.getD_set_other _ _ _ (Ne.symm other)
  · rw [here, Tile.discardSlot, Tile.slot_setSlot]; rfl

theorem switchTo_switchSlot (s : State) (k dest : Nat) : ((switchSlot s k dest).tile k).switchTo = (s.tile k).switchTo := by
  rw [(memTile_switchSlot s k dest).tile]; rfl

theorem ctx_switchSlot (s : State) (k dest m : Nat) : ∃ st, ((switchSlot s k dest).tile k).ctx m = { (s.tile k).ctx m with stale := st } :=
  (memTile_switchSlot s k dest).ctx m

variable {s g}

theorem cslot_discard (ctx : s.cur.ctx = 0) (busy : s.me.mode ≠ .free) {dest : Nat} (other : dest ≠ s.here.active) :
    let t := ((switchSlot (s.discarded g) s.cur.tile dest).doneMe s g).complete 8
    WorkDone s t ∧ Switched s t s.cur.tile dest ∧ t.me.tags = s.me.tags ||| (1#64 <<< g.toNat) ∧ t.here.switchTo = s.here.switchTo ∧
      ∀ m, m ≠ 0 → (s.here.ctx m).role = .primary ∨ (s.here.ctx m).role = .started → (t.here.ctx m).mode = .free := by
  have cur : (switchSlot (s.discarded g) s.cur.tile dest).cur = s.cur := by rw [switchSlot_rest]; rfl
  have gmem : (switchSlot (s.discarded g) s.cur.tile dest).gmem = s.gmem := by rw [switchSlot_rest]; rfl
  have ctxs (m : Nat) : ∃ st, (switchSlot (s.discarded g) s.cur.tile dest).here.ctx m = { (s.discarded g).here.ctx m with stale := st } := by
    rw [State.here, cur]; exact ctx_switchSlot ..
  have target : (switchSlot (s.discarded g) s.cur.tile dest).here.switchTo = s.here.switchTo := by
    rw [State.here, cur, switchTo_switchSlot]
    exact (congrArg Tile.switchTo (here_discarded s g)).trans rfl
  have switched := fun u after => (Switched.right (switched_switchSlot (s.discarded g) s.cur.tile dest) (u := u) after).left
    (beforeSwitch_discarded s g other)
  generalize switchSlot (s.discarded g) s.cur.tile dest = v at *
  have own : (s.discarded g).here.ctx 0 = s.me.tagClear g := by
    rw [here_discarded, discardSlot_ctx, if_neg fun h => h.1 rfl, ctx, Tile.ctx_setCtx]
  obtain ⟨stale, kept⟩ := ctxs 0
  have kept : v.me = { s.me.tagClear g with stale := stale } := by
    rw [State.me, cur, ctx, kept, own]
  have me : (v.doneMe s g).me = { (s.me.tagClear g).tagSet g with stale := stale } := by
    rw [me_doneMe cur (by rw [kept]; rfl) (by rw [kept]; exact busy), kept]; rfl
  refine ⟨WorkFrame.done ⟨by rw [me]; rfl, gmem⟩, switched _ ((AfterSwitch.doneMe ..).trans (.complete ..)), ?_, ?_, fun m hm role => ?_⟩
  · rw [State.tags_complete, me]; exact Ctx.tags_claimed ..
  · rw [here_done cur]; exact target
  · have ne : s.cur.ctx ≠ m := by rw [ctx]; exact hm.symm
    obtain ⟨st, freed⟩ := ctxs m
    rw [here_discarded, discardSlot_ctx, Tile.ctx_setCtx_other _ _ ne, if_pos ⟨hm, role⟩] at freed
    rw [here_done cur, Tile.ctx_setCtx_other _ _ ne, Tile.setTaskTag, Tile.ctx_updTask, freed]
    split <;> rfl

end

/-! What the obligation says of CSLOT. -/

/-- The clauses of CSLOT (R335). -/
theorem cslot_clauses (f : EW) (s : State) (ctx : s.cur.ctx = 0) :
    let n := f.c.toNat
    let x := AMap.getD s.here.slots n Slot.blank
    let busy := tagBusy s s.cur.tile s.me.task f.tag
    (busy = true → Stalls (.cslot f) s) ∧
    (busy = false → f.tok = 0 →
      (n = s.here.active → s.me.mode ≠ .free → ∃ t, exec (.cslot f) s = .next t ∧ WorkDone s t ∧ s.sameTlm t ∧
        t.me.tags = s.me.tags ||| (1#64 <<< f.tag.toNat) ∧ t.here.active = n) ∧
      (n ≠ s.here.active → x.state = .empty → Traps (.cslot f) s 0x17 (BitVec.ofNat 64 (256 * 1 + 0x70))) ∧
      (n ≠ s.here.active → x.state ≠ .empty →
        (f.imm.getLsbD 0 = false → s.here.switchTo ≠ none → Stalls (.cslot f) s) ∧
        (f.imm.getLsbD 0 = false → s.here.switchTo = none → ∃ t, exec (.cslot f) s = .next t ∧ WorkDone s t ∧ s.sameTlm t ∧ tagCleared s t f.tag ∧
          t.here.switchTo = some (n, some f.tag) ∧ t.here.active = s.here.active) ∧
        (f.imm.getLsbD 0 = true → s.me.mode ≠ .free → ∃ t, exec (.cslot f) s = .next t ∧ WorkDone s t ∧ Switched s t s.cur.tile n ∧
          t.me.tags = s.me.tags ||| (1#64 <<< f.tag.toNat) ∧ t.here.switchTo = s.here.switchTo ∧
          ∀ m, m ≠ 0 → (s.here.ctx m).role = .primary ∨ (s.here.ctx m).role = .started → (t.here.ctx m).mode = .free))) := by
  refine ⟨cslot_busy, fun free tok => ⟨fun own busy => ?_, fun other empty => cslot_empty free other empty, fun other full =>
    ⟨cslot_waits free other full, fun drain idle => ?_, fun discard busy => ?_⟩⟩⟩
  · obtain ⟨done, tlm, tags, active⟩ := cslot_here busy (s := s) (g := f.tag)
    exact ⟨_, exec_cslot_here free tok own, done, tlm, tags, active.trans own.symm⟩
  · exact ⟨_, exec_cslot_drain free other full tok drain idle, cslot_drain ..⟩
  · exact ⟨_, exec_cslot_discard free other full tok discard, cslot_discard ctx busy other⟩

/-! CONFIG_SLOT_SWITCH (R54). -/

section
variable {k : Nat} {s : State}

theorem configSlotSwitch_idle (h : nextSlot s k = none ∨ (∃ dest tag, nextSlot s k = some (dest, tag) ∧ (tag = none ∨ dest ≠ (s.tile k).active) ∧
      (slotDrained (s.tile k) = false ∨ (s.tile k).preReq = true))) : Idle (.configSlotSwitch k) s := by
  change execConfigSlotSwitch k s = _
  unfold execConfigSlotSwitch
  rcases h with none_ | ⟨dest, tag, next, waits, still⟩
  · rw [none_]
  · rw [next]
    have not_here : (tag.isSome && dest == (s.tile k).active) = false := by
      rcases waits with rfl | ne
      · rfl
      · rw [beq_false_of_ne ne, Bool.and_false]
    have not_yet : (slotDrained (s.tile k) && !(s.tile k).preReq) = false := by
      rcases still with h | h <;> rw [h]
      · rfl
      · exact Bool.and_false _
    simp only [not_here, not_yet, Bool.false_eq_true, if_false]

variable {dest : Nat} {tag : Option (BitVec 6)} (next : nextSlot s k = some (dest, tag))
include next

/-- A tag that a CSLOT names is set in the task that waits for it. -/
def State.tagSwitched (s : State) (k : Nat) (tag : Option (BitVec 6)) : State :=
  match tag with
  | some g => s.updTile k fun t => t.setTaskTag (t.ctx 0).task g
  | none => s

omit next in
theorem after_tagSwitched (k : Nat) (s : State) (tag : Option (BitVec 6)) : AfterSwitch k s (s.tagSwitched k tag) := by
  cases tag with
  | none => exact ⟨rfl, fun _ => rfl, rfl, rfl, rfl⟩
  | some g => exact .setTile s rfl rfl rfl rfl

omit next in
theorem tagStep_tagSwitched (k : Nat) (s : State) (tag : Option (BitVec 6)) : TagStep s (s.tagSwitched k tag) := by
  cases tag with
  | none => exact .refl s
  | some g => exact .setTaskTag s k _ g

omit next in
theorem tagged_tagSwitched {g : BitVec 6} (named : tag = some g) (busy : ((s.tile k).ctx 0).mode ≠ .free) :
    (((s.tagSwitched k tag).tile k).ctx 0).tags.getLsbD g.toNat = true := by
  subst named
  exact tagged_setTaskTag s k 0 g busy

omit next in
theorem tile_tagSwitched (s : State) (k : Nat) (tag : Option (BitVec 6)) : (s.tagSwitched k tag).tile k = { s.tile k with
    ctxs := ((s.tagSwitched k tag).tile k).ctxs, waiters := ((s.tagSwitched k tag).tile k).waiters } := by
  cases tag with
  | none => rfl
  | some g => rw [State.tagSwitched, State.tile_updTile]; rfl

/-- The tile with its wait for a switch ended. -/
def State.arrived (s : State) (k : Nat) : State := s.updTile k fun t => { t with switchTo := none }

theorem exec_configSlotSwitch_here (named : tag ≠ none) (own : dest = (s.tile k).active) :
    exec (.configSlotSwitch k) s = .next ((s.arrived k).tagSwitched k tag) := by
  obtain ⟨g, rfl⟩ := Option.ne_none_iff_exists'.mp named
  change execConfigSlotSwitch k s = _
  simp only [execConfigSlotSwitch, next, own, Option.isSome_some, beq_self_eq_true, Bool.and_self, if_true]
  rfl

/-- The tile has switched; its role follows unless a CSLOT named the slot. -/
def State.switchedTo (s : State) (k dest : Nat) (tag : Option (BitVec 6)) : State :=
  (switchSlot s k dest).updTile k fun t => { t with switchTo := none, role := if tag.isNone then t.role + 1 else t.role }

theorem exec_configSlotSwitch (waits : tag = none ∨ dest ≠ (s.tile k).active) (drained : slotDrained (s.tile k) = true) (calm : (s.tile k).preReq = false) :
    ∃ h, exec (.configSlotSwitch k) s = .next (((s.switchedTo k dest tag).tagSwitched k tag).moved h) := by
  have not_here : (tag.isSome && dest == (s.tile k).active) = false := by
    rcases waits with rfl | ne
    · rfl
    · rw [beq_false_of_ne ne, Bool.and_false]
  refine ⟨((s.switchedTo k dest tag).tagSwitched k tag).handleOf k, ?_⟩
  change execConfigSlotSwitch k s = _
  simp only [execConfigSlotSwitch, next, not_here, drained, calm, Bool.not_false, Bool.and_self, Bool.false_eq_true, if_false, if_true]
  cases tag <;> rfl

end

theorem sameCtxs_switchSlot (s : State) (k dest : Nat) : s.sameCtxs (switchSlot s k dest) := fun q m => by
  by_cases hq : q = k
  · obtain ⟨st, same⟩ := ctx_switchSlot s k dest m
    rw [hq, same]
    exact ⟨⟨fun _ => rfl, fun _ => rfl, fun _ => rfl, rfl⟩, rfl⟩
  · rw [(claimTile_switchSlot s k dest hq).tile]
    exact ⟨⟨fun _ => rfl, fun _ => rfl, fun _ => rfl, rfl⟩, rfl⟩

theorem sameCtxs_switchedTo (s : State) (k dest : Nat) (tag : Option (BitVec 6)) : s.sameCtxs (s.switchedTo k dest tag) := by
  refine (sameCtxs_switchSlot s k dest).trans (.of_ctx fun q m => ?_)
  rw [State.switchedTo, State.tile_updTile_apply]
  split
  case isTrue e => rw [e]; rfl
  case isFalse => rfl

theorem role_switchSlot (s : State) (k dest : Nat) : ((switchSlot s k dest).tile k).role = (s.tile k).role := by
  rw [(memTile_switchSlot s k dest).tile]; rfl

theorem configSlotSwitch_next (k : Nat) (s : State) : ∃ t, exec (.configSlotSwitch k) s = .next t := by
  change ∃ t, execConfigSlotSwitch k s = .next t
  unfold execConfigSlotSwitch
  split
  · exact ⟨_, rfl⟩
  split
  · exact ⟨_, rfl⟩
  split <;> exact ⟨_, rfl⟩

/-- The clauses of CONFIG_SLOT_SWITCH. -/
theorem configSlotSwitch_clauses (k : Nat) (s : State) :
    let x := s.tile k
    let idle := nextSlot s k = none ∨ (∃ dest tag, nextSlot s k = some (dest, tag) ∧ (tag = none ∨ dest ≠ x.active) ∧
      (slotDrained x = false ∨ x.preReq = true))
    let tagged := fun (t : State) (tag : Option (BitVec 6)) => ∀ g, tag = some g → (x.ctx 0).mode ≠ .free →
      ((t.tile k).ctx 0).tags.getLsbD g.toNat = true
    (idle → Idle (.configSlotSwitch k) s) ∧
    (∀ dest tag, nextSlot s k = some (dest, tag) → tag ≠ none → dest = x.active → ∃ t, exec (.configSlotSwitch k) s = .next t ∧
      Quiet s t ∧ (t.tile k).switchTo = none ∧ (t.tile k).slot = x.slot ∧ tagged t tag) ∧
    (∀ dest tag, nextSlot s k = some (dest, tag) → tag = none ∨ dest ≠ x.active → slotDrained x = true → x.preReq = false →
      ∃ t, exec (.configSlotSwitch k) s = .next t ∧ s.sameCtxs t ∧ Switched s t k dest ∧ (t.tile k).switchTo = none ∧
        (t.tile k).role = (if tag = none then x.role + 1 else x.role) ∧ tagged t tag) := by
  refine ⟨configSlotSwitch_idle, fun dest tag next named own => ⟨_, exec_configSlotSwitch_here next named own, ?_, ?_, ?_, fun g hg busy => ?_⟩,
    fun dest tag next waits drained calm => ?_⟩
  · have arrived : TagStep s (s.arrived k) := .updTile s k (fun _ => rfl) (fun _ _ h => h) (fun _ h => h) rfl
    have step := arrived.trans (tagStep_tagSwitched k (s.arrived k) tag)
    exact ⟨step.sameCtxs, step.sameTlm, fun a => by rw [step.gmem]⟩
  · rw [tile_tagSwitched, State.arrived, State.tile_updTile]
  · rw [(after_tagSwitched k (s.arrived k) tag).slot, State.arrived, State.tile_updTile]; rfl
  · refine tagged_tagSwitched hg ?_
    rw [State.arrived, State.tile_updTile]; exact busy
  · obtain ⟨h, run⟩ := exec_configSlotSwitch next waits drained calm
    have arrived : AfterSwitch k (switchSlot s k dest) (s.switchedTo k dest tag) := .setTile _ rfl rfl rfl rfl
    have tile : (s.switchedTo k dest tag).tile k = { (switchSlot s k dest).tile k with
        switchTo := none, role := if tag.isNone then ((switchSlot s k dest).tile k).role + 1 else ((switchSlot s k dest).tile k).role } :=
      State.tile_updTile ..
    refine ⟨_, run, ?_, ?_, ?_, ?_, fun g hg busy => ?_⟩
    · exact (sameCtxs_switchedTo s k dest tag).trans ((tagStep_tagSwitched k _ tag).sameCtxs.trans (TagStep.of_tokens (.moved ..)).sameCtxs)
    · exact (switched_switchSlot s k dest).right (arrived.trans ((after_tagSwitched ..).trans (.moved ..)))
    · rw [State.tile_moved, tile_tagSwitched, tile]
    · rw [State.tile_moved, tile_tagSwitched, tile, ← role_switchSlot s k dest]
      cases tag <;> rfl
    · rw [State.tile_moved]
      refine tagged_tagSwitched hg ?_
      obtain ⟨st, same⟩ := ctx_switchSlot s k dest 0
      rw [tile]
      exact (congrArg Ctx.mode same).trans_ne busy

end Sys2Proof.Machine
end

section
/-!
RLOAD and RQUERY (13 R334, R336, R337).
-/

namespace Sys2Proof.Machine

/-! What a load leaves of the contexts. -/

/-- The contexts are as they were but for what they have fetched of memory that is written. -/
def StaleCtx (t u : Tile) : Prop := ∀ m, ∃ st, u.ctx m = { t.ctx m with stale := st }

namespace StaleCtx

theorem refl (t : Tile) : StaleCtx t t := fun m => ⟨(t.ctx m).stale, rfl⟩

theorem trans {t u v : Tile} (a : StaleCtx t u) (b : StaleCtx u v) : StaleCtx t v := fun m => by
  obtain ⟨x, hx⟩ := a m
  obtain ⟨y, hy⟩ := b m
  exact ⟨y, by rw [hy, hx]⟩

theorem foldl {α : Type} {step : Tile → α → Tile} (one : ∀ (t : Tile) y, StaleCtx t (step t y)) (l : List α) (t : Tile) : StaleCtx t (l.foldl step t) :=
  List.foldlRecOn (motive := StaleCtx t) l step (refl t) fun u h y _ => h.trans (one u y)

theorem loadRec (t : Tile) (r : IRec) : StaleCtx t (loadRec t r) := by
  unfold Machine.loadRec
  split
  · exact (MemTile.writeTlm ..).ctx
  split
  · exact refl t
  split <;> exact refl t

theorem loadFrom (t : Tile) (s : State) (ws : List Word) (h slot row col : Nat) (resid : BitVec 12) : StaleCtx t (t.loadFrom s ws h slot row col resid) := by
  unfold Tile.loadFrom
  dsimp only
  split
  · have recs := foldl loadRec ((imgRecs ws).filter fun r => !r.slotBound && r.on row col) { t with
      slots := AMap.set t.slots slot (loadSlot s (imgRecs ws) h slot row col resid)
      exec := 0, placed := 0, members := loadMembers (imgRecs ws) row col !t.alive, role := 0 }
    exact StaleCtx.trans recs (foldl (fun t a => (MemTile.zeroScratch t a).ctx) _ _)
  · exact refl t

end StaleCtx

theorem tlm_loadFrom {ws : List Word} {slot : Nat} (later : slot ≠ imgFirst ws) (t : Tile) (s : State) (h row col : Nat) (resid : BitVec 12) :
    (t.loadFrom s ws h slot row col resid).tlm = t.tlm := by
  unfold Tile.loadFrom
  dsimp only
  rw [if_neg later]

/-- What a slot is loaded as depends on the output table alone. -/
theorem loadSlot_congr {s t : State} (same : t.otable = s.otable) (rs : List IRec) (h slot row col : Nat) (resid : BitVec 12) :
    loadSlot t rs h slot row col resid = loadSlot s rs h slot row col resid := by
  have credits (w : Word) : orderedCredits t w = orderedCredits s w := by rw [orderedCredits, same]; rfl
  simp only [loadSlot, loadPort, credits]

/-! What a load does. -/

section
variable {s : State} {k h slot row col : Nat} {resid : BitVec 12} {ws : List Word}

/-- No word that the load reads is bad. -/
def LoadClean (s : State) (h slot row col : Nat) (ws : List Word) : Prop :=
  ∀ i ∈ loadReads ws slot row col, ¬s.gBad ((s.block h).image.toNat + 8 * i) 8 = true

theorem loadChecked_good (clean : LoadClean s h slot row col ws) : loadChecked s k h slot row col resid ws =
    s.updTile k fun t => { t.loadFrom s ws h slot row col resid with lastResult := 0 } := by
  have none_ : ((loadReads ws slot row col).find? fun i => s.gBad ((s.block h).image.toNat + 8 * i) 8) = none := List.find?_eq_none.mpr clean
  unfold loadChecked
  dsimp only
  rw [none_]

theorem loadChecked_bad (bad : ∃ i ∈ loadReads ws slot row col, s.gBad ((s.block h).image.toNat + 8 * i) 8 = true) :
    ∃ w : Word, w.toNat / 2 ^ 56 = 0x45 ∧ loadChecked s k h slot row col resid ws =
      s.updTile k fun t => { t with slots := AMap.set t.slots slot Slot.blank, lastResult := w } := by
  obtain ⟨i, found⟩ := Option.isSome_iff_exists.mp (List.find?_isSome.mpr bad)
  unfold loadChecked
  dsimp only
  rw [found]
  exact ⟨_, CfgFail.word_signature .., rfl⟩

variable (s k h slot row col resid ws) in
/-- A load, with or without a read error, changes the slot and, with the first role, the tile's memory and tables. -/
theorem loadChecked_spec : ∃ u : Tile, loadChecked s k h slot row col resid ws = s.setTile k u ∧ StaleCtx (s.tile k) u ∧
    (slot ≠ imgFirst ws → u.tlm = (s.tile k).tlm) ∧ (∀ m, m ≠ slot → AMap.get? u.slots m = AMap.get? (s.tile k).slots m) ∧
    (LoadClean s h slot row col ws → u.lastResult = 0 ∧ AMap.get? u.slots slot = some (loadSlot s (imgRecs ws) h slot row col resid)) ∧
    ((∃ i ∈ loadReads ws slot row col, s.gBad ((s.block h).image.toNat + 8 * i) 8 = true) →
      AMap.get? u.slots slot = some Slot.blank ∧ u.lastResult.toNat / 2 ^ 56 = 0x45) := by
  by_cases clean : LoadClean s h slot row col ws
  · refine ⟨_, loadChecked_good clean, ?_, fun later => tlm_loadFrom later .., fun m hm => ?_, fun _ => ⟨rfl, ?_⟩, fun ⟨i, hi, bad⟩ => absurd bad (clean i hi)⟩
    · exact fun m => StaleCtx.loadFrom _ _ _ _ _ _ _ _ m
    · dsimp only
      rw [slots_loadFrom]
      exact AMap.get?_set_other _ _ (Ne.symm hm)
    · dsimp only
      rw [slots_loadFrom]
      exact AMap.get?_set_same ..
  · have bad : ∃ i ∈ loadReads ws slot row col, s.gBad ((s.block h).image.toNat + 8 * i) 8 = true := by
      rw [LoadClean] at clean
      push Not at clean
      exact clean
    obtain ⟨w, code, run⟩ := loadChecked_bad (k := k) (resid := resid) bad
    exact ⟨_, run, .refl _, fun _ => rfl, fun m hm => AMap.get?_set_other _ _ (Ne.symm hm), fun c => absurd c clean,
      fun _ => ⟨AMap.get?_set_same .., code⟩⟩

end

/-! The translations before a load. -/

section
variable {s q : State} (h : ReadOnly s q)
include h

theorem ReadOnly.me : q.me = s.me := by rw [State.me, h.frame.cur, Tile.ctx, h.ctxs]; rfl

theorem ReadOnly.here : q.here = { s.here with tlb := q.here.tlb, err1 := q.here.err1, err2 := q.here.err2, poison := q.here.poison
                                               corrected := q.here.corrected, uncorrected := q.here.uncorrected } := by
  have here := h.frame.here
  rw [h.ctxs, h.slots, h.waiters] at here
  exact here

theorem ReadOnly.sameBusy (g : BitVec 6) : tagBusy q q.cur.tile q.me.task g = tagBusy s s.cur.tile s.me.task g := by
  have tile : q.tile q.cur.tile = q.here := rfl
  have sweeps : q.sweeps = s.sweeps := by rw [h.frame.outside]
  unfold tagBusy
  rw [tile, h.here, h.me, sweeps, h.frame.cur]
  rfl

theorem ReadOnly.stagedAt (pa : PAddr) : stagedAt q pa = stagedAt s pa := by
  rw [h.frame.outside]; rfl

end

theorem readOnly_pagesIssue {va : Addr} {pa : PAddr} {n : Nat} {l : List Nat} {s : State} {t : State} (h : pagesIssue s va pa n l = .ok t) : ReadOnly s t := by
  induction l generalizing s with
  | nil => cases h; exact ⟨.refl _, rfl, rfl, rfl⟩
  | cons x l ih =>
    rw [pagesIssue] at h
    cases first : transIssue s (BitVec.ofNat 48 x) true false false with
    | error e => rw [first] at h; cases h
    | ok p =>
      rw [first] at h
      dsimp only [Bind.bind, Except.bind] at h
      by_cases off : p.2.toNat ≠ pa.toNat + (x - va.toNat)
      · rw [decide_eq_true off, trapIf_true] at h
        cases h
      · rw [decide_eq_false off, trapIf_false] at h
        exact (readOnly_transIssue first).trans (ih h)

/-! RLOAD (R336). -/

/-- A load word names bits that must be 0. -/
def rloadOdd (v : Word) : Prop := v.toNat / 2 ^ 60 ≠ 0 ∨ v.toNat / 2 ^ 16 % 2 ^ 32 ≠ 0

theorem rloadOdd_iff (v : Word) : (decide (fld v 63 60 ≠ 0) || decide (fld v 47 16 ≠ 0)) = true ↔ rloadOdd v := by
  have top : fld v 63 60 = v.toNat / 2 ^ 60 := by
    have := v.isLt
    rw [fld]
    omega
  have middle : fld v 47 16 = v.toNat / 2 ^ 16 % 2 ^ 32 := rfl
  rw [Bool.or_eq_true, decide_eq_true_eq, decide_eq_true_eq, top, middle, rloadOdd]

/-- The slot that a load names is in use. -/
def rloadInUse (s : State) (n : Nat) : Prop := n = s.here.active ∧ s.here.slot.state ≠ .empty ∧ s.running s.here.slot.handle = true

theorem rloadInUse_iff (s : State) (n : Nat) :
    (decide (n = s.here.active) && decide (s.here.slot.state ≠ .empty) && s.running s.here.slot.handle) = true ↔ rloadInUse s n := by
  rw [Bool.and_eq_true, Bool.and_eq_true, decide_eq_true_eq, decide_eq_true_eq, rloadInUse, and_assoc]

theorem extract_resid (v : Word) : v.extractLsb' 48 12 = BitVec.ofNat 12 (v.toNat / 2 ^ 48) := by
  apply BitVec.eq_of_toNat_eq
  rw [BitVec.extractLsb'_toNat, BitVec.toNat_ofNat, Nat.shiftRight_eq_div_pow]

section
variable {f : EW} {s : State} (ready : s.kReady [f.a, f.b] [f.a, f.b] [])
include ready

theorem rload_odd (odd : rloadOdd (s.me.readW f.b)) : Traps (.rload f) s 0x17 (BitVec.ofNat 64 (256 * 3 + 0x70)) := by
  change execRload f s = _
  simp only [execRload, guardK_ready ready, (rloadOdd_iff _).mpr odd, trapIf_true, Bind.bind, Except.bind]
  rfl

variable (even : ¬rloadOdd (s.me.readW f.b))
include even

theorem rload_inUse (inUse : rloadInUse s f.c.toNat) : Traps (.rload f) s 0x17 (BitVec.ofNat 64 (256 * 2 + 0x70)) := by
  rw [← rloadOdd_iff, Bool.not_eq_true] at even
  change execRload f s = _
  simp only [execRload, guardK_ready ready, even, (rloadInUse_iff ..).mpr inUse, trapIf_true, trapIf_false, Bind.bind, Except.bind]
  rfl

variable (free : ¬rloadInUse s f.c.toNat)
include free

theorem rload_bad {code : Byte} (bad : GlobalBad (s.me.readK f.a) (s.me.readK f.a).addr.toNat 8 8 [.r] code) :
    Traps (.rload f) s code ((s.me.readK f.a).addr.setWidth 64) := by
  rw [← rloadOdd_iff, Bool.not_eq_true] at even
  rw [← rloadInUse_iff, Bool.not_eq_true] at free
  change execRload f s = _
  simp only [execRload, guardK_ready ready, even, free, trapIf_false, globalCheck_bad bad, orTrap_some, Bind.bind, Except.bind, trapVal_addr]
  rfl

variable {s1 : State} {pa : PAddr} (ok : GlobalOk (s.me.readK f.a) (s.me.readK f.a).addr.toNat 8 8 [.r])
  (first : transIssue s (s.me.readK f.a).addr true false false = .ok (s1, pa))
include ok first

theorem rload_unstaged (none_ : stagedAt s pa = none) : Traps (.rload f) s 0x17 (BitVec.ofNat 64 (256 * 4 + 0x70)) := by
  rw [← (readOnly_transIssue first).stagedAt] at none_
  rw [← rloadOdd_iff, Bool.not_eq_true] at even
  rw [← rloadInUse_iff, Bool.not_eq_true] at free
  change execRload f s = _
  simp only [execRload, guardK_ready ready, even, free, trapIf_false, globalCheck_none ok, orTrap_none, first, none_, Bind.bind, Except.bind]
  rfl

variable {h : Nat} {ws : List Word} (staged : stagedAt s pa = some h) (image : (s.resOf h).image = some ws)
  (whole : GlobalOk (s.me.readK f.a) (s.me.readK f.a).addr.toNat (8 * imgLen ws) 8 [.r])
include staged image whole

/-- RLOAD once its image is found: the translations of its further pages, the tag, the load. -/
theorem exec_rload_staged : exec (.rload f) s = finishTry s (do
    let q ← pagesIssue s1 (s.me.readK f.a).addr pa (imgLen ws) (imgPages (s.me.readK f.a).addr (imgLen ws))
    let u ← claimTag q f.tag
    let v ← claimToken u (f.tok == 1)
    let w := loadChecked v s.cur.tile h f.c.toNat (fld (s.me.readW f.b) 15 8) (fld (s.me.readW f.b) 7 0) ((s.me.readW f.b).extractLsb' 48 12) ws
    pure ((w.opDone s.cur.tile s.me.task s.me.actor f.tag (f.tok == 1)).complete 8)) := by
  have same : ReadOnly s s1 := readOnly_transIssue first
  rw [← same.stagedAt] at staged
  have image : (s1.resOf h).image = some ws := by
    have res : s1.resOf h = s.resOf h := by rw [same.frame.outside]; rfl
    rw [res]; exact image
  rw [← rloadOdd_iff, Bool.not_eq_true] at even
  rw [← rloadInUse_iff, Bool.not_eq_true] at free
  change execRload f s = _
  simp only [execRload, guardK_ready ready, even, free, trapIf_false, globalCheck_none ok, orTrap_none, first, staged, image, globalCheck_none whole,
    Bind.bind, Except.bind]

/-- What k[a] names is not the staged image all through. -/
theorem rload_astray {p : Nat} {rest : List Nat} (pages : imgPages (s.me.readK f.a).addr (imgLen ws) = p :: rest) {s2 : State} {q : PAddr}
    (second : transIssue s1 (BitVec.ofNat 48 p) true false false = .ok (s2, q))
    (astray : q.toNat ≠ pa.toNat + (p - (s.me.readK f.a).addr.toNat)) : Traps (.rload f) s 0x17 (BitVec.ofNat 64 (256 * 4 + 0x70)) := by
  rw [Traps, exec_rload_staged ready even free ok first staged image whole, pages]
  simp only [pagesIssue, second, decide_eq_true astray, trapIf_true, Bind.bind, Except.bind]
  rfl

variable {q : State} (pages : pagesIssue s1 (s.me.readK f.a).addr pa (imgLen ws) (imgPages (s.me.readK f.a).addr (imgLen ws)) = .ok q)
include pages

theorem rload_busy (busy : tagBusy s s.cur.tile s.me.task f.tag = true) : Stalls (.rload f) s := by
  rw [← ((readOnly_transIssue first).trans (readOnly_pagesIssue pages)).sameBusy] at busy
  rw [Stalls, exec_rload_staged ready even free ok first staged image whole, pages]
  simp only [claimTag, busy, Bind.bind, Except.bind]
  rfl

theorem exec_rload (idle : tagBusy s s.cur.tile s.me.task f.tag = false) (tok : f.tok = 0) : exec (.rload f) s =
    .next (((loadChecked (q.issued f.tag) s.cur.tile h f.c.toNat (fld (s.me.readW f.b) 15 8) (fld (s.me.readW f.b) 7 0)
      ((s.me.readW f.b).extractLsb' 48 12) ws).doneMe s f.tag).complete 8) := by
  rw [← ((readOnly_transIssue first).trans (readOnly_pagesIssue pages)).sameBusy] at idle
  rw [exec_rload_staged ready even free ok first staged image whole, pages]
  simp only [claimTag_free idle, tok, Bind.bind, Except.bind]
  rfl

end

/-! What RLOAD leaves. -/

/-- A load has completed (R336). -/
structure Loaded (s t : State) (g : BitVec 6) (h n row col : Nat) (resid : BitVec 12) (ws : List Word) : Prop where
  done : WorkDone s t
  tags : t.me.tags = s.me.tags ||| (1#64 <<< g.toNat)
  tlm : n ≠ imgFirst ws → s.sameTlm t
  others : ∀ m, m ≠ n → AMap.get? t.here.slots m = AMap.get? s.here.slots m
  good : LoadClean s h n row col ws → t.here.lastResult = 0 ∧ AMap.get? t.here.slots n = some (loadSlot s (imgRecs ws) h n row col resid)
  bad : (∃ i ∈ loadReads ws n row col, s.gBad ((s.block h).image.toNat + 8 * i) 8 = true) →
    AMap.get? t.here.slots n = some Slot.blank ∧ t.here.lastResult.toNat / 2 ^ 56 = 0x45

theorem ReadOnly.here_issued {s q : State} (h : ReadOnly s q) (g : BitVec 6) : ∃ tlb err1 err2 poison c u, (q.issued g).tile s.cur.tile =
    { s.here with tlb := tlb, err1 := err1, err2 := err2, poison := poison, corrected := c, uncorrected := u }.setCtx s.cur.ctx (s.me.tagClear g) := by
  refine ⟨q.here.tlb, q.here.err1, q.here.err2, q.here.poison, q.here.corrected, q.here.uncorrected, ?_⟩
  have at_ : (q.issued g).tile s.cur.tile = (q.issued g).here := by rw [← h.frame.cur]; rfl
  rw [at_, State.here_issued, h.me, h.frame.cur, ← h.here]

theorem loaded_rload {s q : State} {g : BitVec 6} {h n row col : Nat} {resid : BitVec 12} {ws : List Word} (same : ReadOnly s q) (busy : s.me.mode ≠ .free) :
    Loaded s (((loadChecked (q.issued g) s.cur.tile h n row col resid ws).doneMe s g).complete 8) g h n row col resid ws := by
  obtain ⟨u, run, stale, tlm, others, good, bad⟩ := loadChecked_spec (q.issued g) s.cur.tile h n row col resid ws
  rw [run]
  obtain ⟨tlb, err1, err2, poison, c, e, before⟩ := same.here_issued g
  have cur : ((q.issued g).setTile s.cur.tile u).cur = s.cur := same.frame.cur
  have here : ((q.issued g).setTile s.cur.tile u).here = u := by rw [State.here, cur, State.tile_setTile]
  have outside : q.issued g = { s with tiles := (q.issued g).tiles, vers := q.vers, vpages := q.vpages } := by
    rw [State.issued, State.setMe, State.setHere, State.setTile, same.frame.outside]
  obtain ⟨st, kept⟩ := stale s.cur.ctx
  rw [before, Tile.ctx_setCtx] at kept
  have me : ((q.issued g).setTile s.cur.tile u).me = { s.me.tagClear g with stale := st } := by
    rw [State.me, here, cur, kept]
  have marked : (((q.issued g).setTile s.cur.tile u).doneMe s g).me = { (s.me.tagClear g).tagSet g with stale := st } := by
    rw [me_doneMe cur (by rw [me]; rfl) (by rw [me]; exact busy), me]; rfl
  have bads (a : Nat) : (q.issued g).gBad a 8 = s.gBad a 8 := by rw [outside]; rfl
  have block : (q.issued g).block h = s.block h := by rw [outside]; rfl
  have slots : ((q.issued g).tile s.cur.tile).slots = s.here.slots := by rw [before]; rfl
  have after := (AfterSwitch.doneMe s.cur.tile ((q.issued g).setTile s.cur.tile u) s g).trans (.complete _ _ 8)
  refine ⟨WorkFrame.done ⟨by rw [marked]; rfl, ?_⟩, ?_, fun later k a => ?_, fun m hm => ?_, fun clean => ?_, fun dirty => ?_⟩
  · exact same.frame.gmem
  · rw [State.tags_complete, marked]; exact Ctx.tags_claimed ..
  · rw [after.tlm, State.tile_setTile_apply]
    split
    case isTrue own => rw [own, tlm later, before]; rfl
    case isFalse far =>
      rw [State.issued, State.setMe, State.setHere, State.tile_setTile_other _ _ (by rw [same.frame.cur]; exact Ne.symm far), same.frame.tiles k far]
  · rw [here_done cur, here]
    exact (others m hm).trans (by rw [slots])
  · rw [here_done cur, here]
    obtain ⟨result, slot⟩ := good fun i hi => by rw [bads, block]; exact clean i hi
    exact ⟨result, slot.trans (by rw [loadSlot_congr (s := s) (by rw [outside])])⟩
  · rw [here_done cur, here]
    exact bad (by simpa only [bads, block] using dirty)

/-- A page of an image is translated (R236). -/
theorem transIssue_at {u : State} {k : Nat} (tile : u.cur.tile = k) (ctx : u.cur.ctx = 0) {va : Addr} {p : PAddr}
    (h : (translate u k (ctxSpace u k 0) va.toNat true false false).2 = .ok p) :
    transIssue u va true false false = .ok ((translate u k (ctxSpace u k 0) va.toNat true false false).1, p) := by
  subst tile
  rw [← ctx] at h ⊢
  exact transIssue_of_ok h

/-- The clauses of RLOAD (R336). -/
theorem rload_clauses (f : EW) (s : State) (ctx : s.cur.ctx = 0) :
    let n := f.c.toNat
    let busy := tagBusy s s.cur.tile s.me.task f.tag
    let fault := fun (r : Nat) => Traps (.rload f) s 0x17 (BitVec.ofNat 64 (256 * r + 0x70))
    let c := s.me.readK f.a
    let v := s.me.readW f.b
    let va := c.addr.toNat
    let row := v.toNat / 2 ^ 8 % 2 ^ 8
    let col := v.toNat % 2 ^ 8
    s.kReady [f.a, f.b] [f.a, f.b] [] →
      (rloadOdd v → fault 3) ∧
      (¬rloadOdd v → rloadInUse s n → fault 2) ∧
      (¬rloadOdd v → ¬rloadInUse s n → (∀ code, GlobalBad c va 8 8 [.r] code → Traps (.rload f) s code (c.addr.setWidth 64)) ∧
        ∀ pa, GlobalOk c va 8 8 [.r] → (translate s s.cur.tile (ctxSpace s s.cur.tile 0) va true false false).2 = .ok pa →
          let s1 := (translate s s.cur.tile (ctxSpace s s.cur.tile 0) va true false false).1
          (stagedAt s pa = none → fault 4) ∧
          (∀ h ws, stagedAt s pa = some h → (s.resOf h).image = some ws → GlobalOk c va (8 * imgLen ws) 8 [.r] →
            (∀ p rest, imgPages c.addr (imgLen ws) = p :: rest → ∀ q, (translate s1 s.cur.tile (ctxSpace s1 s.cur.tile 0)
              (BitVec.ofNat 48 p).toNat true false false).2 = .ok q → q.toNat ≠ pa.toNat + (p - va) → fault 4) ∧
            ((∃ s2, pagesIssue s1 c.addr pa (imgLen ws) (imgPages c.addr (imgLen ws)) = .ok s2) →
            (busy = true → Stalls (.rload f) s) ∧
            (busy = false → f.tok = 0 → s.me.mode ≠ .free → ∃ t, exec (.rload f) s = .next t ∧
              Loaded s t f.tag h n row col (BitVec.ofNat 12 (v.toNat / 2 ^ 48)) ws)))) := by
  intro n busy fault c v va row col ready
  refine ⟨rload_odd ready, rload_inUse ready, fun even free => ⟨fun code bad => rload_bad ready even free bad, fun pa ok found => ?_⟩⟩
  have first := transIssue_at rfl ctx found
  have same : ReadOnly s _ := readOnly_transIssue first
  refine ⟨rload_unstaged ready even free ok first, fun h ws staged image whole => ⟨fun p rest pages q second astray => ?_, fun ⟨q, pages⟩ =>
    ⟨rload_busy ready even free ok first staged image whole pages, fun idle tok live => ?_⟩⟩⟩
  · have second := transIssue_at (congrArg Cur.tile same.frame.cur) ((congrArg Cur.ctx same.frame.cur).trans ctx) second
    exact rload_astray ready even free ok first staged image whole pages second astray
  · refine ⟨_, exec_rload ready even free ok first staged image whole pages idle tok, ?_⟩
    rw [extract_resid]
    have col_eq : fld v 7 0 = col := by
      change v.toNat / 2 ^ 0 % 2 ^ 8 = v.toNat % 2 ^ 8
      rw [Nat.pow_zero, Nat.div_one]
    change Loaded s (((loadChecked _ _ _ _ (fld v 15 8) (fld v 7 0) _ _).doneMe s f.tag).complete 8) f.tag h n row col _ ws
    rw [col_eq]
    exact loaded_rload (same.trans (readOnly_pagesIssue pages)) live

/-! RQUERY (R337). -/

/-- SEL 0: a slot that a tile is to leave is switching. -/
theorem rquery_state (s : State) (n : Nat) : rquery s n 0 =
    let x := AMap.getD s.here.slots n Slot.blank
    let st := if s.here.switchTo.isSome ∧ n = s.here.active then SlotState.switching else x.state
    BitVec.ofNat 64 (st.code * 2 ^ 60 + x.resid.toNat * 2 ^ 48 + x.words % 2 ^ 32) := rfl

section
variable {f : EW} {s : State} (ready : s.kReady [f.d] [] [f.d])
include ready

theorem rquery_writes {w : Word} (word : rquery s f.c.toNat f.imm.toNat = w) : WritesInt (.rquery f) s 8 f.d w := by
  refine writesInt_of_exec ?_
  change execRquery f s = _
  simp only [execRquery, guardK_ready ready, word, Bind.bind, Except.bind]
  rfl

/-- The clauses of RQUERY. -/
theorem rquery_clauses :
    let n := f.c.toNat
    let x := AMap.getD s.here.slots n Slot.blank
    (f.imm = 0 → s.here.switchTo = none ∨ n ≠ s.here.active →
      WritesInt (.rquery f) s 8 f.d (BitVec.ofNat 64 (x.state.code * 2 ^ 60 + x.resid.toNat * 2 ^ 48 + x.words % 2 ^ 32))) ∧
    (f.imm = 0 → s.here.switchTo ≠ none → n = s.here.active →
      WritesInt (.rquery f) s 8 f.d (BitVec.ofNat 64 (4 * 2 ^ 60 + x.resid.toNat * 2 ^ 48 + x.words % 2 ^ 32))) ∧
    (f.imm = 1 → x.state = .empty → WritesInt (.rquery f) s 8 f.d 0) ∧
    (f.imm = 1 → x.state ≠ .empty → WritesInt (.rquery f) s 8 f.d (BitVec.ofNat 64 ((s.resOf x.handle).state.code * 2 ^ 60 +
      (s.resOf x.handle).resid.toNat * 2 ^ 48 + (s.resOf x.handle).gen % 2 ^ 16 * 2 ^ 32 + (s.resOf x.handle).replay % 2 ^ 32))) ∧
    (f.imm = 2 → WritesInt (.rquery f) s 8 f.d s.here.lastResult) := by
  refine ⟨fun sel still => rquery_writes ready ?_, fun sel wait own => rquery_writes ready ?_, fun sel empty => rquery_writes ready ?_,
    fun sel full => rquery_writes ready ?_, fun sel => rquery_writes ready ?_⟩ <;> rw [sel]
  · have no : ¬(s.here.switchTo.isSome = true ∧ f.c.toNat = s.here.active) := fun ⟨some_, own⟩ =>
      still.elim (Option.isSome_iff_ne_none.mp some_) fun ne => ne own
    exact (rquery_state ..).trans (by dsimp only; rw [if_neg no])
  · exact (rquery_state ..).trans (by dsimp only; rw [if_pos ⟨Option.isSome_iff_ne_none.mpr wait, own⟩]; rfl)
  · exact if_pos empty
  · exact if_neg full
  · rfl

end

end Sys2Proof.Machine
end

section
/-!
TRANSLATION_WALK (14 R298, R351 to R353): what a context, a copy or a stream finds once its walk is over.
-/

namespace Sys2Proof.Machine

/-! Walks and the cache (R351, R352). -/

/-- A leaf maps the address that was walked. -/
theorem leaf_covers {s : State} {x : Space} {va : Nat} {e : TlbEntry} (h : walk s x va = .leaf e) : e.covers x.resid va = true := by
  have from_ (n level table : Nat) (found : walkFrom s x.mon x.resid va n level table = .leaf e) : e.covers x.resid va = true := by
    induction n generalizing level table with
    | zero => cases found
    | succ n ih =>
      rw [walkFrom] at found
      split at found
      · cases found
      split at found
      · cases found
      split at found
      · cases found
      split at found
      · cases found
        rw [TlbEntry.covers, Bool.and_eq_true, beq_iff_eq, beq_iff_eq]
        exact ⟨rfl, rfl⟩
      · exact ih _ _ found
  exact from_ _ _ _ h

/-- The cache of a tile holds an entry, used or filled. -/
def State.filled (s : State) (k : Nat) (e : TlbEntry) : State := s.updTile k fun t => { t with tlb := tlbFill t.tlb e }

theorem tlbHit_filled (s : State) (k : Nat) {x : Space} {va : Nat} {r w ver : Bool} {e : TlbEntry} (covers : e.covers x.resid va = true)
    (allows : e.allows r w ver = true) : tlbHit ((s.filled k e).tile k) x va r w ver = true := by
  have tile : (s.filled k e).tile k = { s.tile k with tlb := tlbFill (s.tile k).tlb e } := State.tile_updTile ..
  rw [tile, tlbHit, tlbFill, List.any_cons, covers, allows]
  rfl

theorem quiet_filled (s : State) (k : Nat) (e : TlbEntry) : Quiet s (s.filled k e) := by
  have tile (q : Nat) : ((s.filled k e).tile q).ctxs = (s.tile q).ctxs ∧ ((s.filled k e).tile q).tlm = (s.tile q).tlm := by
    rw [State.filled, State.tile_updTile_apply]
    split
    case isTrue own => rw [own]; exact ⟨rfl, rfl⟩
    case isFalse => exact ⟨rfl, rfl⟩
  exact ⟨.of_ctx fun q m => by rw [Tile.ctx, (tile q).1]; rfl, fun q a => by rw [(tile q).2], fun _ => rfl⟩

theorem quiet_firstMapped (s : State) (k : Nat) (x : Space) (e : TlbEntry) : Quiet s (firstMapped s k x e) := by
  refine Quiet.of_tiles_gmem ?_ ?_ <;> unfold firstMapped <;> dsimp only <;> split <;> rfl

theorem Quiet.trans {s t u : State} (a : Quiet s t) (b : Quiet t u) : Quiet s u :=
  ⟨a.ctxs.trans b.ctxs, fun k z => (b.tlm k z).trans (a.tlm k z), fun z => (b.gmem z).trans (a.gmem z)⟩

/-- The versions of a V page that is mapped for the first time (R228). -/
theorem version_firstMapped {s : State} {k : Nat} {x : Space} {e : TlbEntry} (ver : e.ver = true) (own : x.mon = false)
    (unseen : NSet.mem (AMap.getD s.vpages (s.handleOf k) []) e.pa.toNat = false) {l : Nat} (lo : paLine e.pa.toNat ≤ l)
    (hi : l < paLine e.pa.toNat + 2 ^ pageShift e.level / 64) : (firstMapped s k x e).version l = 0 := by
  have vers : (firstMapped s k x e).vers =
      s.vers.filter fun p => !(decide (paLine e.pa.toNat ≤ p.1) && decide (p.1 < paLine e.pa.toNat + 2 ^ pageShift e.level / 64)) := by
    unfold firstMapped
    dsimp only
    rw [ver, own, unseen]
    rfl
  have gone := AMap.get?_filter_key s.vers
    (fun a => !(decide (paLine e.pa.toNat ≤ a) && decide (a < paLine e.pa.toNat + 2 ^ pageShift e.level / 64))) l
  simp only [lo, hi, decide_true, Bool.and_self, Bool.not_true, Bool.false_eq_true, if_false] at gone
  rw [State.version, vers, AMap.getD, gone]
  rfl

/-! A context's walk (R298, R351). -/

section
variable {k n : Nat} {va : Addr} {s : State} {i : Instr} {f : GW} {g : GForm} (mode : ((s.tile k).ctx n).mode = .running)
  (live : ((s.tile k).ctx n).halted = false) (fetch : fetchNext (s.tile k) n ((s.tile k).ctx n) = .instr i)
  (form : gFormOf { s with cur := ⟨k, n⟩ } i = some (f, g)) (addr : gAddr (((s.tile k).ctx n).readK f.a) f g.n = va)
include mode live fetch form addr

omit addr in
theorem ctxWalk_hit (hit : tlbHit (s.tile k) (ctxSpace s k n) va.toNat g.r g.w g.ver = true) : Idle (.translationWalk k (.ctx n) va) s := by
  change ctxWalk s k n va = _
  unfold ctxWalk
  dsimp only
  rw [if_pos ⟨mode, live⟩, fetch]
  dsimp only
  rw [form]
  exact if_pos (.inr hit)

theorem ctxWalk_fills {e : TlbEntry} (miss : tlbHit (s.tile k) (ctxSpace s k n) va.toNat g.r g.w g.ver = false)
    (leaf : walk s (ctxSpace s k n) va.toNat = .leaf e) (allows : e.allows g.r g.w g.ver = true) :
    exec (.translationWalk k (.ctx n) va) s = .next ((firstMapped s k (ctxSpace s k n) e).filled k e) := by
  change ctxWalk s k n va = _
  have on : ¬(gAddr (((s.tile k).ctx n).readK f.a) f g.n ≠ va ∨ tlbHit (s.tile k) (ctxSpace s k n) va.toNat g.r g.w g.ver = true) := by
    rw [miss]; exact fun h => h.elim (fun ne => ne addr) Bool.noConfusion
  unfold ctxWalk
  dsimp only
  rw [if_pos ⟨mode, live⟩, fetch]
  dsimp only
  rw [form]
  refine (if_neg on).trans ?_
  rw [leaf]
  exact if_pos allows

end

/-! A copy's walk (R258). -/

theorem translate_miss {s : State} {k : Nat} {x : Space} {va : Nat} {r w ver : Bool} (miss : tlbHit (s.tile k) x va r w ver = false) :
    (walk s x va = .wait → translate s k x va r w ver = (s, .wait)) ∧
    (∀ e, walk s x va = .leaf e → e.allows r w ver = true → translate s k x va r w ver = ((firstMapped s k x e).filled k e, .ok (e.physical va))) := by
  have no : ((s.tile k).tlb.find? fun e => e.covers x.resid va && e.allows r w ver) = none :=
    List.find?_eq_none.mpr fun e he => by
      rw [Bool.not_eq_true]
      exact (Bool.not_eq_true _).mp (List.any_eq_false.mp miss e he)
  refine ⟨fun wait => ?_, fun e leaf allows => ?_⟩ <;> unfold translate <;> dsimp only <;> rw [no]
  · dsimp only
    rw [wait]
  · dsimp only
    rw [leaf]
    exact if_pos allows

section
variable {k n : Nat} {va : Addr} {s : State} {y : EngCmd} {rest : List EngCmd} {w : Bool} (queue : ((s.tile k).ctx n).dmq = y :: rest)
  (moves : y.waiting = none) (here : copyVa y w = some va.toNat) (reads : w = false → copyVa y true ≠ some va.toNat)
  (miss : tlbHit (s.tile k) (ctxSpace s k n) va.toNat (!w) w false = false)
include queue moves here reads miss

theorem copyWalk_eq : copyWalk s k n va =
    match (translate s k (ctxSpace s k n) va.toNat (!w) w false).2 with
    | .ok _ => (translate s k (ctxSpace s k n) va.toNat (!w) w false).1
    | .wait => s.updTile k fun t => t.setDmHead n (y.waitAt va)
    | .perm => copyStop (translate s k (ctxSpace s k n) va.toNat (!w) w false).1 k n y y.ew codeCapPerm va
    | .denied => copyStop (if n = 0 then (translate s k (ctxSpace s k n) va.toNat (!w) w false).1 else
        deniedToken (translate s k (ctxSpace s k n) va.toNat (!w) w false).1
          ((translate s k (ctxSpace s k n) va.toNat (!w) w false).1.handleOf k) va) k n y y.ew codePageDenied va := by
  have side : (copyVa y true == some va.toNat) = w := by
    cases w with
    | true => exact beq_iff_eq.mpr here
    | false => exact beq_false_of_ne (reads rfl)
  have named : (w || copyVa y false == some va.toNat) = true := by
    cases w with
    | true => rfl
    | false => exact beq_iff_eq.mpr here
  unfold copyWalk
  rw [queue]
  dsimp only
  rw [side, named, moves, miss]
  rfl

theorem copyWalk_waits (wait : walk s (ctxSpace s k n) va.toNat = .wait) :
    exec (.translationWalk k (.dcopy n) va) s = .next (s.updTile k fun t => t.setDmHead n (y.waitAt va)) := by
  change Host.Outcome.next (copyWalk s k n va) = _
  rw [copyWalk_eq queue moves here reads miss, (translate_miss miss).1 wait]

theorem copyWalk_fills {e : TlbEntry} (leaf : walk s (ctxSpace s k n) va.toNat = .leaf e) (allows : e.allows (!w) w false = true) :
    exec (.translationWalk k (.dcopy n) va) s = .next ((firstMapped s k (ctxSpace s k n) e).filled k e) := by
  change Host.Outcome.next (copyWalk s k n va) = _
  rw [copyWalk_eq queue moves here reads miss, (translate_miss miss).2 e leaf allows]

end

theorem ctx_setDmHead (t : Tile) (n : Nat) (y : EngCmd) (m : Nat) :
    (t.setDmHead n y).ctx m = if m = n then { t.ctx n with dmq := y :: (t.ctx n).dmq.drop 1 } else t.ctx m := by
  rw [Tile.setDmHead, Tile.setHead]
  split
  case isTrue e => rw [e, Tile.ctx_setCtx]; rfl
  case isFalse ne => rw [Tile.ctx_setCtx_other _ _ (Ne.symm ne)]

theorem quiet_setDmHead (s : State) (k n : Nat) (y : EngCmd) : Quiet s (s.updTile k fun t => t.setDmHead n y) := by
  refine ⟨fun q m => ?_, fun q z => ?_, fun _ => rfl⟩ <;> rw [State.tile_updTile_apply] <;> split
  case refine_1.isTrue e =>
    rw [e, ctx_setDmHead]
    split
    case isTrue own => rw [own]; exact ⟨⟨fun _ => rfl, fun _ => rfl, fun _ => rfl, rfl⟩, rfl⟩
    case isFalse => exact ⟨⟨fun _ => rfl, fun _ => rfl, fun _ => rfl, rfl⟩, rfl⟩
  case refine_1.isFalse => exact ⟨⟨fun _ => rfl, fun _ => rfl, fun _ => rfl, rfl⟩, rfl⟩
  case refine_2.isTrue e => rw [e]; rfl
  case refine_2.isFalse => rfl

/-! A stream's walk (R263, R353). -/

section
variable {k n : Nat} {va : Addr} {s : State} (live : streamLive s k ((s.tile k).stream n) = true)
  (more : ((s.tile k).stream n).pos < descTotal ((s.tile k).stream n).desc)
  (here : descAddr ((s.tile k).stream n).desc ((s.tile k).stream n).pos = va.toNat) (cold : ((s.tile k).stream n).tlb = none)
include live more here cold

/-- A stream's entry changes. -/
def State.restream (s : State) (k n : Nat) (st : Stream) : State := s.updTile k fun t => t.setStream n st

theorem streamWalk_eq : streamWalk s k n va =
    match (streamTrans s k ((s.tile k).stream n) va.toNat (descDir ((s.tile k).stream n).desc == 1)).2 with
    | .ok _ => s.restream k n (streamTrans s k ((s.tile k).stream n) va.toNat (descDir ((s.tile k).stream n).desc == 1)).1
    | x => streamStop s k n va.toNat x := by
  unfold streamWalk
  dsimp only
  rw [live, here, cold, decide_eq_false (Nat.not_le.mpr more)]
  simp only [bne_self_eq_false, Option.any_none, Bool.not_true, Bool.or_self, Bool.false_eq_true, if_false]
  rfl

theorem streamWalk_waits (wait : walk s (streamSpace s k ((s.tile k).stream n)) va.toNat = .wait) :
    exec (.translationWalk k (.stream n) va) s = .next (s.restream k n { (s.tile k).stream n with waiting := some va }) := by
  have trans : (streamTrans s k ((s.tile k).stream n) va.toNat (descDir ((s.tile k).stream n).desc == 1)).2 = .wait := by
    unfold streamTrans
    dsimp only
    rw [cold, Option.filter_none, wait]
  change Host.Outcome.next (streamWalk s k n va) = _
  rw [streamWalk_eq live more here cold, trans]
  change Host.Outcome.next (s.updTile k fun t => t.setStream n { t.stream n with waiting := some (BitVec.ofNat 48 va.toNat) }) = _
  rw [BitVec.ofNat_toNat, BitVec.setWidth_eq]
  rfl

theorem streamWalk_fills {e : TlbEntry} (leaf : walk s (streamSpace s k ((s.tile k).stream n)) va.toNat = .leaf e)
    (allows : e.allows (!(descDir ((s.tile k).stream n).desc == 1)) (descDir ((s.tile k).stream n).desc == 1) false = true) :
    exec (.translationWalk k (.stream n) va) s = .next (s.restream k n { (s.tile k).stream n with tlb := some e }) := by
  have trans : streamTrans s k ((s.tile k).stream n) va.toNat (descDir ((s.tile k).stream n).desc == 1) =
      ({ (s.tile k).stream n with tlb := some e }, .ok (e.physical va.toNat)) := by
    unfold streamTrans
    dsimp only
    rw [cold, Option.filter_none, leaf]
    dsimp only
    rw [allows]
    rfl
  change Host.Outcome.next (streamWalk s k n va) = _
  rw [streamWalk_eq live more here cold, trans]

end

theorem stream_restream (s : State) (k n : Nat) (st : Stream) : ((s.restream k n st).tile k).stream n = st := by
  rw [State.restream, State.tile_updTile, Tile.setStream, Tile.stream, Tile.slot_setSlot]
  exact AMap.getD_set_same ..

theorem quiet_restream (s : State) (k n : Nat) (st : Stream) : Quiet s (s.restream k n st) := by
  refine ⟨.of_ctx fun q m => ?_, fun q z => ?_, fun _ => rfl⟩ <;> rw [State.restream, State.tile_updTile_apply] <;> split
  case refine_1.isTrue e => rw [e]; rfl
  case refine_2.isTrue e => rw [e]; rfl
  all_goals rfl

/-! What the obligation says of walks. -/

theorem translationWalk_clauses (k n : Nat) (va : Addr) (s : State) :
    let c := (s.tile k).ctx n
    let x := ctxSpace s k n
    let hit := fun (t : State) (r w ver : Bool) => tlbHit (t.tile k) x va.toNat r w ver
    (∀ i f g, c.mode = .running → c.halted = false → fetchNext (s.tile k) n c = .instr i →
      gFormOf { s with cur := ⟨k, n⟩ } i = some (f, g) → gAddr (c.readK f.a) f g.n = va →
      (hit s g.r g.w g.ver = true → Idle (.translationWalk k (.ctx n) va) s) ∧
      (∀ e, hit s g.r g.w g.ver = false → walk s x va.toNat = .leaf e → e.allows g.r g.w g.ver = true →
        ∃ t, exec (.translationWalk k (.ctx n) va) s = .next t ∧ Quiet s t ∧ hit t g.r g.w g.ver = true ∧
          (e.ver = true → x.mon = false → NSet.mem (AMap.getD s.vpages (s.handleOf k) []) e.pa.toNat = false →
            ∀ l, paLine e.pa.toNat ≤ l → l < paLine e.pa.toNat + 2 ^ pageShift e.level / 64 → t.version l = 0))) ∧
    (∀ y rest w, c.dmq = y :: rest → y.waiting = none → copyVa y w = some va.toNat → (w = false → copyVa y true ≠ some va.toNat) →
      hit s (!w) w false = false →
      (walk s x va.toNat = .wait → ∃ t, exec (.translationWalk k (.dcopy n) va) s = .next t ∧ Quiet s t ∧
        ((t.tile k).ctx n).dmq = y.waitAt va :: rest) ∧
      (∀ e, walk s x va.toNat = .leaf e → e.allows (!w) w false = true → ∃ t, exec (.translationWalk k (.dcopy n) va) s = .next t ∧
        Quiet s t ∧ hit t (!w) w false = true)) ∧
    (let st := (s.tile k).stream n
     let w := descDir st.desc == 1
     streamLive s k st = true → st.pos < descTotal st.desc → descAddr st.desc st.pos = va.toNat → st.tlb = none →
      (walk s (streamSpace s k st) va.toNat = .wait → ∃ t, exec (.translationWalk k (.stream n) va) s = .next t ∧ Quiet s t ∧
        (t.tile k).stream n = { st with waiting := some va }) ∧
      (∀ e, walk s (streamSpace s k st) va.toNat = .leaf e → e.allows (!w) w false = true →
        ∃ t, exec (.translationWalk k (.stream n) va) s = .next t ∧ Quiet s t ∧ (t.tile k).stream n = { st with tlb := some e })) := by
  have fills (e : TlbEntry) : Quiet s ((firstMapped s k (ctxSpace s k n) e).filled k e) := (quiet_firstMapped ..).trans (quiet_filled ..)
  refine ⟨fun i f g mode live fetch form addr => ⟨ctxWalk_hit mode live fetch form, fun e miss leaf allows => ?_⟩,
    fun y rest w queue moves here reads miss => ⟨fun wait => ?_, fun e leaf allows => ?_⟩,
    fun live more here cold => ⟨fun wait => ?_, fun e leaf allows => ?_⟩⟩
  · exact ⟨_, ctxWalk_fills mode live fetch form addr miss leaf allows, fills e, tlbHit_filled _ _ (leaf_covers leaf) allows,
      fun ver own unseen l lo hi => version_firstMapped ver own unseen lo hi⟩
  · refine ⟨_, copyWalk_waits queue moves here reads miss wait, quiet_setDmHead .., ?_⟩
    rw [State.tile_updTile, ctx_setDmHead, if_pos rfl, queue]
    rfl
  · exact ⟨_, copyWalk_fills queue moves here reads miss leaf allows, fills e, tlbHit_filled _ _ (leaf_covers leaf) allows⟩
  · exact ⟨_, streamWalk_waits live more here cold wait, quiet_restream .., stream_restream ..⟩
  · exact ⟨_, streamWalk_fills live more here cold leaf allows, quiet_restream .., stream_restream ..⟩

end Sys2Proof.Machine
end

section
/-!
PAGER_MAP, PAGE_DENIED and TLB_INVALIDATE (13 R330, 14 R298, R299, R354): who waits on a page goes on, or is refused, and what leaves the caches.
-/

namespace Sys2Proof.Machine

/-! Waiting tasks. -/

/-- The tasks that wait are the same, in the same order, whatever their contexts have become. -/
def WaitersKept (ws ws' : List Waiter) : Prop :=
  ∀ (i : Nat) (w : Waiter), ws[i]? = some w → ∃ w' : Waiter, ws'[i]? = some w' ∧ w'.va = w.va ∧ w'.ready = w.ready ∧ w'.denied = w.denied

theorem WaitersKept.refl (ws : List Waiter) : WaitersKept ws ws := fun _ w h => ⟨w, h, rfl, rfl, rfl⟩

theorem WaitersKept.trans {a b c : List Waiter} (h : WaitersKept a b) (g : WaitersKept b c) : WaitersKept a c := fun i w hw => by
  obtain ⟨x, hx, va, ready, denied⟩ := h i w hw
  obtain ⟨y, hy, va', ready', denied'⟩ := g i x hx
  exact ⟨y, hy, va'.trans va, ready'.trans ready, denied'.trans denied⟩

theorem WaitersKept.updTask (t : Tile) (task : Nat) (f : Ctx → Ctx) : WaitersKept t.waiters (t.updTask task f).waiters := fun i w hw => by
  refine ⟨if w.ctx.task = task then { w with ctx := f w.ctx } else w, ?_, ?_⟩
  · rw [Tile.updTask, List.getElem?_map, hw]; rfl
  · split <;> exact ⟨rfl, rfl, rfl⟩

/-- Of the tasks that waited, those on a page may have become ready, all of them where `all`; each stands to what it was as `mark` says. -/
def Woken (go : Addr → Prop) (mark : Waiter → Waiter → Prop) (all : Prop) (ws ws' : List Waiter) : Prop :=
  ∀ (i : Nat) (w : Waiter), ws[i]? = some w → ∃ w' : Waiter, ws'[i]? = some w' ∧ w'.va = w.va ∧ mark w w' ∧ (w'.ready = w.ready ∨ w.ready = none ∧ go w.va ∧ w'.ready ≠ none) ∧
    (all → go w.va → w'.ready ≠ none)

section
variable {go : Addr → Prop} {mark : Waiter → Waiter → Prop} {all : Prop} {ws ws1 : List Waiter}

theorem Woken.start (ws : List Waiter) (same : ∀ w, mark w w) : Woken go mark False ws ws := fun _ w h => ⟨w, h, rfl, same w, .inl rfl, False.elim⟩

/-- One pass of the tasks of a tile. -/
theorem readyWaiters_spec (p : Waiter → Bool) (f : Waiter → Waiter) (n : Nat) (ws : List Waiter) (i : Nat) {w : Waiter} (h : ws[i]? = some w) :
    ∃ w', (readyWaiters p f n ws).1[i]? = some w' ∧ ((w.ready = none ∧ p w = true ∧ ∃ m, w' = { f w with ready := some m }) ∨
      (¬(w.ready = none ∧ p w = true) ∧ w' = w)) := by
  induction ws generalizing n i with
  | nil => cases h
  | cons x xs ih =>
    have test : (x.ready.isNone && p x) = true ↔ x.ready = none ∧ p x = true := by rw [Bool.and_eq_true, Option.isNone_iff_eq_none]
    rw [readyWaiters]
    split
    case isTrue picked =>
      cases i with
      | zero =>
        obtain rfl : x = w := Option.some.inj h
        exact ⟨_, rfl, .inl ⟨(test.mp picked).1, (test.mp picked).2, n, rfl⟩⟩
      | succ i => exact ih (n + 1) i h
    case isFalse left =>
      cases i with
      | zero =>
        obtain rfl : x = w := Option.some.inj h
        exact ⟨x, rfl, .inr ⟨fun e => left (test.mpr e), rfl⟩⟩
      | succ i => exact ih n i h

theorem Woken.wake (h : Woken go mark all ws ws1) {p : Waiter → Bool} {f : Waiter → Waiter} (n : Nat) (picks : ∀ w, p w = true ↔ go w.va)
    (still : ∀ w, (f w).va = w.va) (marks : ∀ w w1 m, mark w w1 → mark w { f w1 with ready := some m }) :
    Woken go mark True ws (readyWaiters p f n ws1).1 := fun i w hw => by
  obtain ⟨w1, h1, va, marked, ready, -⟩ := h i w hw
  obtain ⟨w2, h2, step⟩ := readyWaiters_spec p f n ws1 i h1
  refine ⟨w2, h2, ?_⟩
  rcases step with ⟨waits, picked, m, rfl⟩ | ⟨kept, rfl⟩
  · have gone : go w.va := by rw [← va]; exact (picks w1).mp picked
    have waited : w.ready = none := ready.elim (fun e => e.symm.trans waits) fun e => e.1
    exact ⟨(still w1).trans va, marks w w1 m marked, .inr ⟨waited, gone, Option.some_ne_none m⟩, fun _ _ => Option.some_ne_none m⟩
  · exact ⟨va, marked, ready, fun _ gone waits => kept ⟨waits, (picks w2).mpr (by rw [va]; exact gone)⟩⟩

theorem Woken.keep (h : Woken go mark all ws ws1) {ws2 : List Waiter} (kept : WaitersKept ws1 ws2)
    (marks : ∀ w w1 w2, mark w w1 → w2.ready = w1.ready → w2.denied = w1.denied → mark w w2) : Woken go mark all ws ws2 := fun i w hw => by
  obtain ⟨w1, h1, va, marked, ready, done⟩ := h i w hw
  obtain ⟨w2, h2, va2, ready2, denied2⟩ := kept i w1 h1
  exact ⟨w2, h2, va2.trans va, marks w w1 w2 marked ready2 denied2, by rw [ready2]; exact ready, by rw [ready2]; exact done⟩

theorem Woken.weaken (h : Woken go mark all ws ws1) : Woken go mark False ws ws1 := fun i w hw => by
  obtain ⟨w1, h1, va, marked, ready, -⟩ := h i w hw
  exact ⟨w1, h1, va, marked, ready, False.elim⟩

/-- What the obligation says of a tile's waiting tasks. -/
theorem Woken.ready (h : Woken go mark True ws ws1) {i : Nat} {w : Waiter} (hw : ws[i]? = some w) : ∃ w', ws1[i]? = some w' ∧ w'.va = w.va ∧
    (w'.ready ≠ none ↔ w.ready ≠ none ∨ go w.va) ∧ (w.ready = none → go w.va → w'.ready ≠ none ∧ mark w w') := by
  obtain ⟨w', h', va, marked, ready, done⟩ := h i w hw
  refine ⟨w', h', va, ⟨fun now => ?_, fun e => ?_⟩, fun _ gone => ⟨done trivial gone, marked⟩⟩
  · rcases ready with same | ⟨-, gone, -⟩
    · exact .inl (by rw [← same]; exact now)
    · exact .inr gone
  · rcases e with before | gone
    · rcases ready with same | ⟨none_, -⟩
      · rw [same]; exact before
      · exact absurd none_ before
    · exact done trivial gone

end

/-! Steps that move no register and no byte. -/

/-- A step of a page's arrival or refusal. -/
structure PageStep (s t : State) : Prop where
  quiet : Quiet s t
  armWait : ∀ h, (t.resOf h).armWait = (s.resOf h).armWait

namespace PageStep

theorem refl (s : State) : PageStep s s := ⟨Quiet.of_tiles_gmem rfl rfl, fun _ => rfl⟩

theorem trans {s t u : State} (a : PageStep s t) (b : PageStep t u) : PageStep s u :=
  ⟨a.quiet.trans b.quiet, fun h => (b.armWait h).trans (a.armWait h)⟩

theorem updTile (s : State) (k : Nat) {f : Tile → Tile} (regs : ∀ t m, ((t : Tile).ctx m).sameRegs ((f t).ctx m) ∧ ((f t).ctx m).pcc = (t.ctx m).pcc)
    (tlm : ∀ t, (f t).tlm = t.tlm) : PageStep s (s.updTile k f) := by
  refine ⟨⟨fun q m => ?_, fun q z => ?_, fun _ => rfl⟩, fun _ => rfl⟩ <;> rw [State.tile_updTile_apply] <;> split
  case refine_1.isTrue e => rw [e]; exact regs ..
  case refine_1.isFalse => exact ⟨⟨fun _ => rfl, fun _ => rfl, fun _ => rfl, rfl⟩, rfl⟩
  case refine_2.isTrue e => rw [e, tlm]
  case refine_2.isFalse => rfl

end PageStep

/-- A step that also leaves the tasks that wait. -/
structure UnitStep (s t : State) : Prop extends PageStep s t where
  waiters : ∀ k, WaitersKept (s.tile k).waiters (t.tile k).waiters

namespace UnitStep

theorem refl (s : State) : UnitStep s s := ⟨.refl s, fun _ => .refl _⟩

theorem trans {s t u : State} (a : UnitStep s t) (b : UnitStep t u) : UnitStep s u :=
  ⟨a.toPageStep.trans b.toPageStep, fun k => (a.waiters k).trans (b.waiters k)⟩

theorem foldl {α : Type} {step : State → α → State} (one : ∀ (s : State) y, UnitStep s (step s y)) (l : List α) (s : State) :
    UnitStep s (l.foldl step s) := List.foldlRecOn (motive := UnitStep s) l step (refl s) fun u h y _ => h.trans (one u y)

theorem of_tokens {s t : State} (h : TokenStep s t) : UnitStep s t :=
  ⟨⟨h.quiet, fun m => by rw [h.res]⟩, fun k => by rw [(h.tiles k).tile]; exact .refl _⟩

theorem updTile (s : State) (k : Nat) {f : Tile → Tile} (regs : ∀ t m, ((t : Tile).ctx m).sameRegs ((f t).ctx m) ∧ ((f t).ctx m).pcc = (t.ctx m).pcc)
    (tlm : ∀ t, (f t).tlm = t.tlm) (waiters : ∀ t, WaitersKept t.waiters (f t).waiters) : UnitStep s (s.updTile k f) := by
  refine ⟨.updTile s k regs tlm, fun q => ?_⟩
  rw [State.tile_updTile_apply]
  split
  case isTrue e => rw [e]; exact waiters _
  case isFalse => exact .refl _

theorem updRes (s : State) (h : Nat) {f : Res → Res} (same : ∀ r, (f r).armWait = r.armWait) : UnitStep s (s.updRes h f) := by
  refine ⟨⟨quiet_updRes .., fun m => ?_⟩, fun _ => .refl _⟩
  rw [resOf_updRes_apply]
  split
  case isTrue e => rw [same, e]
  case isFalse => rfl

theorem faultToken (s : State) (h : Nat) (w : Word) : UnitStep s (s.faultToken h w) := by
  unfold State.faultToken
  dsimp only
  split
  · exact updRes s h fun _ => rfl
  · exact updRes s h fun _ => rfl

theorem deniedToken (s : State) (h : Nat) (va : Addr) : UnitStep s (deniedToken s h va) := faultToken ..

theorem updTask (s : State) (k task : Nat) {f : Ctx → Ctx} (regs : ∀ c, (c : Ctx).sameRegs (f c) ∧ (f c).pcc = c.pcc) :
    UnitStep s (s.updTile k fun t => t.updTask task f) := by
  refine updTile s k (fun t m => ?_) (fun _ => rfl) fun t => .updTask t task f
  rw [Tile.ctx_updTask]
  split
  · exact regs _
  · exact ⟨⟨fun _ => rfl, fun _ => rfl, fun _ => rfl, rfl⟩, rfl⟩

theorem opDone (s : State) (k task a : Nat) (g : BitVec 6) (tok : Bool) : UnitStep s (s.opDone k task a g tok) := by
  have tag : UnitStep s (s.updTile k fun t => t.setTaskTag task g) :=
    updTask s k task fun _ => ⟨⟨fun _ => rfl, fun _ => rfl, fun _ => rfl, rfl⟩, rfl⟩
  unfold State.opDone
  dsimp only
  split
  · exact tag.trans (of_tokens (.sendCompletion ..))
  · exact tag

theorem setStream (s : State) (k n : Nat) (st : Tile → Stream) : UnitStep s (s.updTile k fun t => t.setStream n (st t)) :=
  updTile s k (fun _ _ => ⟨⟨fun _ => rfl, fun _ => rfl, fun _ => rfl, rfl⟩, rfl⟩) (fun _ => rfl) fun _ => .refl _

theorem goDone (s : State) (k n : Nat) : UnitStep s (goDone s k n) := by
  unfold Machine.goDone
  dsimp only
  split
  · exact (setStream ..).trans (opDone ..)
  · exact setStream ..

theorem streamDenied (s : State) (k n va : Nat) (perm : Bool) : UnitStep s (streamDenied s k n va perm) := by
  unfold Machine.streamDenied
  dsimp only
  split
  · exact (goDone ..).trans (setStream ..)
  · exact (faultToken ..).trans ((goDone ..).trans (setStream ..))

theorem setDmHead (s : State) (k n : Nat) (y : EngCmd) : UnitStep s (s.updTile k fun t => t.setDmHead n y) :=
  ⟨⟨quiet_setDmHead .., fun _ => rfl⟩, fun q => by
    rw [State.tile_updTile_apply]
    split
    case isTrue e => rw [e]; exact .refl _
    case isFalse => exact .refl _⟩

theorem copyEnd (s : State) (k n : Nat) (x : EngCmd) (f : EW) : UnitStep s (copyEnd s k n x f) := by
  have regs (t : Tile) (m : Nat) : (t.ctx m).sameRegs ((t.popCmd .dm n).ctx m) ∧ ((t.popCmd .dm n).ctx m).pcc = (t.ctx m).pcc := by
    by_cases e : n = m
    · have ctx : (t.popCmd .dm n).ctx m = { t.ctx m with dmq := (t.ctx m).dmq.drop 1 } := by rw [← e]; exact Tile.ctx_setCtx ..
      rw [ctx]; exact ⟨⟨fun _ => rfl, fun _ => rfl, fun _ => rfl, rfl⟩, rfl⟩
    · have ctx : (t.popCmd .dm n).ctx m = t.ctx m := Tile.ctx_setCtx_other _ _ e
      rw [ctx]; exact ⟨⟨fun _ => rfl, fun _ => rfl, fun _ => rfl, rfl⟩, rfl⟩
  have pop : UnitStep s (s.updTile k fun t => t.popCmd .dm n) := updTile s k regs (fun _ => rfl) fun _ => .refl _
  have done (u : State) : UnitStep u (cmdDone u k x f) := (opDone ..).trans (of_tokens (.moved ..))
  refine UnitStep.trans ?_ (done _)
  cases stopped : x.stopped with
  | none => exact pop
  | some y =>
    refine updTile s k (fun t m => ?_) (fun _ => rfl) fun t => .updTask (t.popCmd .dm n) x.task (copyLate x f y)
    dsimp only
    rw [Tile.ctx_updTask]
    split
    · exact regs t m
    · exact regs t m

theorem copyStop (s : State) (k n : Nat) (x : EngCmd) (f : EW) (code : Byte) (va : Addr) : UnitStep s (copyStop s k n x f code va) := by
  unfold Machine.copyStop Machine.copyLast
  split
  · exact setDmHead ..
  · exact copyEnd ..

end UnitStep

end Sys2Proof.Machine
end

section
/-!
The events of PAGER_MAP, PAGE_DENIED and TLB_INVALIDATE, and what the obligation says of slots and translation.
-/

namespace Sys2Proof.Machine

/-! PAGER_MAP (R298, R330). -/

/-- The pager's writes. -/
def pagerWrites (s : State) (entries : List (PAddr × Word)) : State := entries.foldl (fun s e => s.gWrite e.1.toNat (leBytes 8 e.2.toNat)) s

theorem pagerWrites_eq (s : State) (entries : List (PAddr × Word)) : pagerWrites s entries = { s with
    gmem := (pagerWrites s entries).gmem, gpoison := (pagerWrites s entries).gpoison, gerr1 := (pagerWrites s entries).gerr1
    gerr2 := (pagerWrites s entries).gerr2 } :=
  List.foldlRecOn (motive := fun u : State => u = { s with gmem := u.gmem, gpoison := u.gpoison, gerr1 := u.gerr1, gerr2 := u.gerr2 }) entries _ rfl
    fun u h e _ => by rw [State.gWrite, h]

theorem ctx_wakeCmds (s : State) (k : Nat) (t : Tile) (m : Nat) : ∃ q, (wakeCmds s k t).ctx m = { t.ctx m with dmq := q } := by
  rw [wakeCmds, Tile.ctx, AMap.getD, AMap.get?_mapVals, Tile.ctx, AMap.getD]
  cases AMap.get? t.ctxs m with
  | none => exact ⟨_, rfl⟩
  | some c => exact ⟨_, rfl⟩

/-- What PAGER_MAP does to one tile. -/
def wokenTile (s : State) (h k : Nat) (t : Tile) : Tile :=
  (wakeStreams s k (wakeCmds s k t)).wake (fun w => mapped s (resSpace s h) w.va) fun w => w

theorem pageStep_wakeTile (h : Nat) (s : State) (k : Nat) : PageStep s (wakeTile h s k) := by
  refine PageStep.updTile s k (f := wokenTile s h k) (fun t m => ?_) fun _ => rfl
  obtain ⟨q, same⟩ := ctx_wakeCmds s k t m
  have ctx : (wokenTile s h k t).ctx m = { t.ctx m with dmq := q } := same
  rw [ctx]
  exact ⟨⟨fun _ => rfl, fun _ => rfl, fun _ => rfl, rfl⟩, rfl⟩

theorem waiters_wakeTile (h : Nat) (s : State) (k q : Nat) : ((wakeTile h s q).tile k).waiters = if k = q then
    (readyWaiters (fun w => mapped s (resSpace s h) w.va) (fun w => w) (s.tile q).nextReady (s.tile q).waiters).1 else (s.tile k).waiters := by
  rw [wakeTile, State.tile_updTile_apply]
  split <;> rfl

/-- A task that goes on is the same task. -/
def SameTask (w w' : Waiter) : Prop := w'.ctx = w.ctx ∧ w'.denied = w.denied

theorem mapped_iff (s : State) (x : Space) (va : Addr) : mapped s x va = true ↔ walk s x va.toNat ≠ .wait := bne_iff_ne

theorem OnlyTiles.walk {s u : State} (o : OnlyTiles s u) (x : Space) (va : Nat) : walk u x va = Machine.walk s x va :=
  walk_congr (by rw [o]) (by rw [o]) (by rw [o]) x va

theorem OnlyTiles.resSpace {s u : State} (o : OnlyTiles s u) (h : Nat) : resSpace u h = Machine.resSpace s h := by rw [o]; rfl

/-- Every tile's waiting tasks go on where their walk no longer waits. -/
theorem woken_wakeTiles {h k : Nat} (s : State) (hk : k ∈ s.resTiles h) :
    let u := (s.resTiles h).foldl (wakeTile h) s
    OnlyTiles s u ∧ PageStep s u ∧ Woken (fun a => walk s (resSpace s h) a.toNat ≠ .wait) SameTask True (s.tile k).waiters (u.tile k).waiters := by
  have picks {u : State} (o : OnlyTiles s u) (w : Waiter) : mapped u (resSpace u h) w.va = true ↔ walk s (resSpace s h) w.va.toNat ≠ .wait := by
    rw [mapped_iff, o.walk, o.resSpace]
  have only {u : State} (o : OnlyTiles s u) (q : Nat) : OnlyTiles s (wakeTile h u q) := by
    unfold OnlyTiles at o ⊢
    rw [wakeTile, State.updTile, State.setTile, o]
  have waked {all : Prop} {u : State} (o : OnlyTiles s u)
      (b : Woken (fun a => walk s (resSpace s h) a.toNat ≠ .wait) SameTask all (s.tile k).waiters (u.tile k).waiters) :
      Woken (fun a => walk s (resSpace s h) a.toNat ≠ .wait) SameTask True (s.tile k).waiters ((wakeTile h u k).tile k).waiters := by
    rw [waiters_wakeTile, if_pos rfl]
    exact b.wake _ (picks o) (fun _ => rfl) fun _ _ _ h => h
  have others {q : Nat} (ne : k ≠ q) (u : State) : ((wakeTile h u q).tile k).waiters = (u.tile k).waiters := (waiters_wakeTile h u k q).trans (if_neg ne)
  refine ⟨List.foldlRecOn (motive := OnlyTiles s) _ _ rfl fun u o q _ => only o q,
    List.foldlRecOn (motive := PageStep s) _ _ (.refl s) fun u a q _ => a.trans (pageStep_wakeTile h u q), ?_⟩
  refine foldl_reaches_of
    (I := fun u : State => OnlyTiles s u ∧ Woken (fun a => walk s (resSpace s h) a.toNat ≠ .wait) SameTask False (s.tile k).waiters (u.tile k).waiters)
    (P := fun u : State => Woken (fun a => walk s (resSpace s h) a.toNat ≠ .wait) SameTask True (s.tile k).waiters (u.tile k).waiters)
    hk (fun u q _ inv => ⟨only inv.1 q, ?_⟩) (fun u inv => waked inv.1 inv.2) (fun u q _ inv before => ?_)
    ⟨rfl, .start _ fun _ => ⟨rfl, rfl⟩⟩
  · by_cases e : k = q
    · rw [← e]; exact (waked inv.1 inv.2).weaken
    · rw [others e]; exact inv.2
  · by_cases e : k = q
    · rw [← e]; exact waked inv.1 before
    · rw [others e]; exact before

/-- The residency that is arming no longer waits for a page that is mapped. -/
def armMapped (s : State) (h : Nat) (x : Space) : State :=
  match (s.resOf h).armWait with
  | some a => if mapped s x a then s.updRes h fun r => { r with armWait := none } else s
  | none => s

theorem exec_pagerMap (h : Nat) (va : Addr) (entries : List (PAddr × Word)) (s : State) : exec (.pagerMap h va entries) s =
    .next ((armMapped (((pagerWrites s entries).resTiles h).foldl (wakeTile h) (pagerWrites s entries)) h (resSpace s h)).moved h) := rfl

/-- Arming changes of a state only whom it waits for. -/
theorem armMapped_spec (s : State) (h : Nat) (x : Space) : armMapped s h x = { s with res := (armMapped s h x).res } ∧
    ∀ a, (s.resOf h).armWait = some a → (((armMapped s h x).resOf h).armWait = none ↔ walk s x a.toNat ≠ .wait) := by
  unfold armMapped
  split
  case h_1 a wait =>
    split
    case isTrue yes =>
      refine ⟨rfl, fun b hb => ?_⟩
      obtain rfl : a = b := Option.some.inj (wait.symm.trans hb)
      rw [resOf_updRes_same]
      exact ⟨fun _ => (mapped_iff ..).mp yes, fun _ => rfl⟩
    case isFalse no =>
      refine ⟨rfl, fun b hb => ?_⟩
      obtain rfl : a = b := Option.some.inj (wait.symm.trans hb)
      rw [mapped_iff] at no
      exact ⟨fun none_ => absurd (wait.symm.trans none_) (Option.some_ne_none a), fun go => absurd go no⟩
  case h_2 none_ => exact ⟨rfl, fun b hb => absurd (hb.symm.trans none_) (Option.some_ne_none b)⟩

theorem pagerMap_clauses {h k : Nat} (va : Addr) (s : State) (hk : k ∈ s.resTiles h) (entries : List (PAddr × Word)) :
    ∃ t, exec (.pagerMap h va entries) s = .next t ∧ s.sameCtxs t ∧ s.sameTlm t ∧
      Woken (fun a => walk t (resSpace s h) a.toNat ≠ .wait) SameTask True (s.tile k).waiters (t.tile k).waiters ∧
      (∀ a, (s.resOf h).armWait = some a → ((t.resOf h).armWait = none ↔ walk t (resSpace s h) a.toNat ≠ .wait)) ∧
      (∀ pa e, entries = [(pa, e)] → t.gRead pa.toNat 8 = e.toNat ∧
        ∀ z, z < pa.toNat ∨ pa.toNat + 8 ≤ z → Memory.read t.gmem z = Memory.read s.gmem z) := by
  refine ⟨_, exec_pagerMap h va entries s, ?_⟩
  have pager := pagerWrites_eq s entries
  have tiles (q : Nat) : (pagerWrites s entries).tile q = s.tile q := by rw [pager]; rfl
  have space : resSpace (pagerWrites s entries) h = resSpace s h := by rw [pager]; rfl
  have res : (pagerWrites s entries).resOf h = s.resOf h := by rw [pager]; rfl
  have word {pa : PAddr} {e : Word} (one : entries = [(pa, e)]) : pagerWrites s entries = s.gWrite pa.toNat (leBytes 8 e.toNat) := by rw [one]; rfl
  have region : (pagerWrites s entries).resTiles h = s.resTiles h := by rw [pager]; rfl
  rw [← region] at hk
  generalize pagerWrites s entries = s1 at *
  obtain ⟨only, step, woken⟩ := woken_wakeTiles s1 hk
  rw [space, tiles] at woken
  generalize (s1.resTiles h).foldl (wakeTile h) s1 = u at *
  obtain ⟨arms, waits⟩ := armMapped_spec u h (resSpace s h)
  generalize armMapped u h (resSpace s h) = v at *
  have moved := TokenStep.moved v h
  have same (q : Nat) : (v.moved h).tile q = u.tile q := by rw [State.tile_moved, arms]; rfl
  have gmem : (v.moved h).gmem = s1.gmem := by rw [moved.others, arms, only]
  have walks (a : Nat) : walk (v.moved h) (resSpace s h) a = walk s1 (resSpace s h) a :=
    walk_congr gmem (by rw [moved.others, arms, only]) (by rw [moved.others, arms, only]) _ a
  have calm := step.quiet
  refine ⟨fun q m => ?_, fun q z => ?_, ?_, fun a wait => ?_, fun pa e one => ⟨?_, fun z out => ?_⟩⟩
  · rw [same, ← tiles q]; exact calm.ctxs q m
  · rw [same, ← tiles q]; exact calm.tlm q z
  · simp only [walks]
    rw [same]; exact woken
  · have before : (u.resOf h).armWait = some a := by rw [step.armWait, res]; exact wait
    rw [moved.res, walks, ← only.walk]
    exact waits a before
  · have read := gRead_gWrite_word s pa.toNat e.isLt
    rw [State.gRead] at read
    rw [State.gRead, gmem, word one]
    exact read
  · rw [gmem, word one]
    exact read_gWrite_other s pa.toNat _ (by rw [leBytes_length]; exact out)

/-! PAGE_DENIED (R299, R330). -/

theorem samePage_iff (a b : Addr) : samePage a b = true ↔ a.toNat / 2 ^ 16 = b.toNat / 2 ^ 16 := beq_iff_eq

/-- A task is as it was, or has been refused its page. -/
def Refused (w w' : Waiter) : Prop := w'.ready = w.ready ∨ w'.denied = true

/-- A tile's tasks are refused the page they wait on. -/
def refuseTile (va : Addr) (t : Tile) : Tile := t.wake (fun w => samePage w.va va) fun w => { w with denied := true }

/-- The fault tokens of the tasks that wait for the page themselves. -/
def refusalTokens (va : Addr) (s : State) (q : Nat) : State :=
  ((s.tile q).waiters.filter fun w => w.ready.isNone && samePage w.va va && !waitsOnUnit (s.tile q) w va).foldl
    (fun u w => deniedToken u (s.tile q).slot.handle w.va) s

theorem denyTile_steps (va : Addr) (s : State) (q : Nat) : ∃ s1, UnitStep s s1 ∧ UnitStep (s1.updTile q (refuseTile va)) (denyTile va s q) := by
  refine ⟨refusalTokens va s q, UnitStep.foldl (fun u w => UnitStep.deniedToken u _ _) _ _, ?_⟩
  unfold denyTile
  dsimp only
  refine UnitStep.trans (.foldl (fun u c => ?_) _ _) (.foldl (fun u c => ?_) _ _)
  · split
    · split
      · split
        · exact (UnitStep.deniedToken ..).trans (.copyStop ..)
        · exact .refl u
      · exact .refl u
    · exact .refl u
  · split
    · split
      · exact .streamDenied ..
      · exact .refl u
    · exact .refl u

theorem pageStep_refuse (va : Addr) (s : State) (q : Nat) : PageStep s (s.updTile q (refuseTile va)) :=
  .updTile s q (fun _ _ => ⟨⟨fun _ => rfl, fun _ => rfl, fun _ => rfl, rfl⟩, rfl⟩) fun _ => rfl

theorem pageStep_denyTile (va : Addr) (s : State) (q : Nat) : PageStep s (denyTile va s q) := by
  obtain ⟨s1, before, after⟩ := denyTile_steps va s q
  exact before.toPageStep.trans ((pageStep_refuse va s1 q).trans after.toPageStep)

section
variable {va : Addr} {all : Prop} {ws : List Waiter} {s : State} {k : Nat}
  (h : Woken (fun a => a.toNat / 2 ^ 16 = va.toNat / 2 ^ 16) Refused all ws (s.tile k).waiters)
include h

theorem Woken.unitStep {t : State} (step : UnitStep s t) : Woken (fun a => a.toNat / 2 ^ 16 = va.toNat / 2 ^ 16) Refused all ws (t.tile k).waiters :=
  h.keep (step.waiters k) fun _ _ _ marked ready denied => marked.imp (fun e => ready.trans e) fun e => denied.trans e

theorem Woken.denyTile : Woken (fun a => a.toNat / 2 ^ 16 = va.toNat / 2 ^ 16) Refused True ws ((denyTile va s k).tile k).waiters := by
  obtain ⟨s1, before, after⟩ := denyTile_steps va s k
  refine Woken.unitStep ?_ after
  rw [State.tile_updTile]
  exact (h.unitStep before).wake _ (fun w => samePage_iff w.va va) (fun _ => rfl) fun _ _ _ _ => .inr rfl

theorem Woken.denyOther {q : Nat} (ne : k ≠ q) :
    Woken (fun a => a.toNat / 2 ^ 16 = va.toNat / 2 ^ 16) Refused all ws ((Machine.denyTile va s q).tile k).waiters := by
  obtain ⟨s1, before, after⟩ := denyTile_steps va s q
  refine Woken.unitStep ?_ after
  rw [State.tile_updTile_apply, if_neg ne]
  exact h.unitStep before

end

/-- Every tile's tasks on the page are refused. -/
theorem woken_denyTiles (va : Addr) {k : Nat} {l : List Nat} (s : State) (hk : k ∈ l) :
    Woken (fun a => a.toNat / 2 ^ 16 = va.toNat / 2 ^ 16) Refused True (s.tile k).waiters ((l.foldl (denyTile va) s).tile k).waiters := by
  refine foldl_reaches_of
    (I := fun u : State => Woken (fun a => a.toNat / 2 ^ 16 = va.toNat / 2 ^ 16) Refused False (s.tile k).waiters (u.tile k).waiters)
    (P := fun u : State => Woken (fun a => a.toNat / 2 ^ 16 = va.toNat / 2 ^ 16) Refused True (s.tile k).waiters (u.tile k).waiters)
    hk (fun u q _ inv => ?_) (fun u inv => inv.denyTile) (fun u q _ _ before => ?_) (.start _ fun _ => .inl rfl)
  · by_cases e : k = q
    · rw [← e]; exact inv.denyTile.weaken
    · exact inv.denyOther e
  · by_cases e : k = q
    · rw [← e]; exact before.denyTile
    · exact before.denyOther e

/-- The residency that is arming is refused its page. -/
def armRefused (s : State) (h : Nat) (va : Addr) : State :=
  match (s.resOf h).armWait with
  | some a => if samePage a va then s.updRes h fun r => { r with armWait := none, armRefused := true } else s
  | none => s

theorem exec_pageDenied (h : Nat) (va : Addr) (s : State) :
    exec (.pageDenied h va) s = .next (armRefused (((s.resTiles h).foldl (denyTile va) s).moved h) h va) := rfl

theorem armRefused_spec (s : State) (h : Nat) (va : Addr) : armRefused s h va = { s with res := (armRefused s h va).res } ∧
    ∀ a, (s.resOf h).armWait = some a → a.toNat / 2 ^ 16 = va.toNat / 2 ^ 16 →
      ((armRefused s h va).resOf h).armWait = none ∧ ((armRefused s h va).resOf h).armRefused = true := by
  unfold armRefused
  split
  case h_1 a wait =>
    split
    case isTrue yes => exact ⟨rfl, fun _ _ _ => by rw [resOf_updRes_same]; exact ⟨rfl, rfl⟩⟩
    case isFalse no =>
      refine ⟨rfl, fun b hb page => absurd ((samePage_iff ..).mpr page) ?_⟩
      obtain rfl : a = b := Option.some.inj (wait.symm.trans hb)
      exact no
  case h_2 none_ => exact ⟨rfl, fun b hb => absurd (hb.symm.trans none_) (Option.some_ne_none b)⟩

theorem pageDenied_clauses {h k : Nat} (va : Addr) (s : State) (hk : k ∈ s.resTiles h) :
    ∃ t, exec (.pageDenied h va) s = .next t ∧ Quiet s t ∧
      Woken (fun a => a.toNat / 2 ^ 16 = va.toNat / 2 ^ 16) Refused True (s.tile k).waiters (t.tile k).waiters ∧
      ∀ a, (s.resOf h).armWait = some a → a.toNat / 2 ^ 16 = va.toNat / 2 ^ 16 → (t.resOf h).armWait = none ∧ (t.resOf h).armRefused = true := by
  refine ⟨_, exec_pageDenied h va s, ?_⟩
  have step : PageStep s ((s.resTiles h).foldl (denyTile va) s) :=
    List.foldlRecOn (motive := PageStep s) _ _ (.refl s) fun u a q _ => a.trans (pageStep_denyTile va u q)
  have woken := woken_denyTiles va s hk
  generalize (s.resTiles h).foldl (denyTile va) s = u at *
  have moved := TokenStep.moved u h
  obtain ⟨arms, refused⟩ := armRefused_spec (u.moved h) h va
  refine ⟨step.quiet.trans (moved.quiet.trans (.of_tiles_gmem (by rw [arms]) (by rw [arms]))), ?_, fun a wait page => refused a ?_ page⟩
  · have same : (armRefused (u.moved h) h va).tile k = u.tile k := by rw [← State.tile_moved u h, arms]; rfl
    rw [same]; exact woken
  · rw [moved.res, step.armWait]; exact wait

/-! TLB_INVALIDATE (R354). -/

/-- A page's entry. -/
def PageEntry (resid : BitVec 12) (va level : Nat) (e : TlbEntry) : Prop := e.resid = resid ∧ e.level = level ∧ e.vpn = va / 2 ^ pageShift level

/-- An entry stands in a tile's cache, or in a stream. -/
def Holds (t : Tile) (place : Option Nat) (e : TlbEntry) : Prop :=
  match place with
  | none => e ∈ t.tlb
  | some n => (t.stream n).tlb = some e

section
variable {resid : BitVec 12} {va level : Nat}

theorem not_pageEntry (e : TlbEntry) : (!(e.resid == resid && e.level == level && e.vpn == va / 2 ^ pageShift level)) = true ↔
    ¬PageEntry resid va level e := by
  rw [Bool.not_eq_true', ← Bool.not_eq_true, Bool.and_eq_true, Bool.and_eq_true, beq_iff_eq, beq_iff_eq, beq_iff_eq, PageEntry, and_assoc]

theorem stream_dropPage (t : Tile) (n : Nat) : (t.dropPage resid va level).stream n = { t.stream n with
    tlb := (t.stream n).tlb.filter fun e => !(e.resid == resid && e.level == level && e.vpn == va / 2 ^ pageShift level) } := by
  rw [Tile.dropPage, Tile.stream, Tile.slot_setSlot, AMap.getD, AMap.get?_mapVals, Tile.stream, AMap.getD]
  change Option.getD (Option.map _ (AMap.get? t.slot.streams n)) _ = _
  cases AMap.get? t.slot.streams n with
  | none => rfl
  | some st => rfl

theorem holds_dropPage (t : Tile) (place : Option Nat) (e : TlbEntry) :
    Holds (t.dropPage resid va level) place e ↔ Holds t place e ∧ ¬PageEntry resid va level e := by
  cases place with
  | none =>
    change e ∈ t.tlb.filter _ ↔ e ∈ t.tlb ∧ _
    rw [List.mem_filter, not_pageEntry]
  | some n =>
    change ((t.dropPage resid va level).stream n).tlb = some e ↔ (t.stream n).tlb = some e ∧ _
    rw [stream_dropPage]
    dsimp only
    rw [Option.filter_eq_some_iff, not_pageEntry]

/-- Every tile of a list has dropped the page. -/
def dropPages (resid : BitVec 12) (va level : Nat) (l : List Nat) (s : State) : State :=
  l.foldl (fun s n => s.updTile n fun t => t.dropPage resid va level) s

theorem holds_dropPages {k : Nat} {l : List Nat} (s : State) (hk : k ∈ l) (place : Option Nat) (e : TlbEntry) :
    Holds ((dropPages resid va level l s).tile k) place e ↔ Holds (s.tile k) place e ∧ ¬PageEntry resid va level e := by
  have drop (u : State) (q : Nat) : Holds ((u.updTile q fun t => t.dropPage resid va level).tile k) place e ↔
      Holds (u.tile k) place e ∧ (k = q → ¬PageEntry resid va level e) := by
    rw [State.tile_updTile_apply]
    split
    case isTrue own => rw [holds_dropPage, own]; exact and_congr_right fun _ => ⟨fun h _ => h, fun h => h rfl⟩
    case isFalse ne => exact ⟨fun h => ⟨h, fun own => absurd own ne⟩, fun h => h.1⟩
  refine foldl_reaches_of
    (I := fun u : State => (Holds (u.tile k) place e → Holds (s.tile k) place e) ∧
      (Holds (s.tile k) place e ∧ ¬PageEntry resid va level e → Holds (u.tile k) place e))
    (P := fun u : State => Holds (u.tile k) place e ↔ Holds (s.tile k) place e ∧ ¬PageEntry resid va level e)
    hk (fun u q _ ⟨down, up⟩ => ?_) (fun u ⟨down, up⟩ => ?_) (fun u q _ _ before => ?_) ⟨id, And.left⟩ <;> rw [drop]
  · exact ⟨fun h => down h.1, fun h => ⟨up h, fun _ => h.2⟩⟩
  · exact ⟨fun h => ⟨down h.1, h.2 rfl⟩, fun h => ⟨up h, fun _ => h.2⟩⟩
  · rw [before]
    exact ⟨fun h => h.1, fun h => ⟨h, fun _ => h.2⟩⟩

theorem quiet_dropPages (l : List Nat) (s : State) : Quiet s (dropPages resid va level l s) := by
  refine (List.foldlRecOn (motive := PageStep s) l _ (.refl s) fun u a q _ => a.trans ?_).quiet
  exact .updTile u q (fun _ _ => ⟨⟨fun _ => rfl, fun _ => rfl, fun _ => rfl, rfl⟩, rfl⟩) fun _ => rfl

end

theorem tlbInvalidate_clauses {h k : Nat} (va : Addr) (s : State) (hk : k ∈ s.resTiles h) (level : Nat) :
    let gone := PageEntry (s.resOf h).resid va.toNat level
    let key : Inval := ⟨h, va.toNat, level⟩
    ∃ t, exec (.tlbInvalidate h va level) s = .next t ∧ Quiet s t ∧
      (∀ e, e ∈ (t.tile k).tlb ↔ e ∈ (s.tile k).tlb ∧ ¬gone e) ∧
      (∀ n e, ((t.tile k).stream n).tlb = some e ↔ ((s.tile k).stream n).tlb = some e ∧ ¬gone e) ∧
      (∀ y, y ≠ key → (y ∈ t.invals ↔ y ∈ s.invals)) ∧
      (key ∈ t.invals ↔ sweepHolds s (s.resOf h).resid va.toNat level = true ∨
        ∃ n ∈ s.resTiles h, pageBusy (s.tile n) (s.resOf h).resid va.toNat level = true) := by
  intro gone key
  have busy : (sweepHolds s (s.resOf h).resid va.toNat level || (s.resTiles h).any fun n => pageBusy (s.tile n) (s.resOf h).resid va.toNat level) = true ↔
      sweepHolds s (s.resOf h).resid va.toNat level = true ∨ ∃ n ∈ s.resTiles h, pageBusy (s.tile n) (s.resOf h).resid va.toNat level = true := by
    rw [Bool.or_eq_true, List.any_eq_true]
  have rest (y : Inval) : y ∈ s.invals.filter (· ≠ key) ↔ y ∈ s.invals ∧ y ≠ key := by rw [List.mem_filter, decide_eq_true_eq]
  refine ⟨_, rfl, (quiet_dropPages (s.resTiles h) s).trans (.of_tiles_gmem rfl rfl), fun e => holds_dropPages s hk none e,
    fun n e => holds_dropPages s hk (some n) e, fun y hy => ?_, ?_⟩
  · dsimp only
    split
    · rw [List.mem_append, List.mem_singleton, rest]
      exact ⟨fun h => h.elim And.left fun e => absurd e hy, fun h => .inl ⟨h, hy⟩⟩
    · rw [rest]
      exact ⟨And.left, fun h => ⟨h, hy⟩⟩
  · dsimp only
    rw [← busy]
    split
    case isTrue yes => exact ⟨fun _ => yes, fun _ => List.mem_append_right _ (List.mem_singleton.mpr rfl)⟩
    case isFalse no =>
      rw [rest]
      exact ⟨fun h => absurd rfl h.2, fun h => absurd h no⟩

end Sys2Proof.Machine
end

section
/-!
Configuration slots and translation (02 R54, 13 R334 to R337, 14 R298, R351 to R354): what the obligation says of them.
-/

namespace Sys2Proof.Machine

/-- Every event of slots and translation has a next state. -/
theorem slotEvent_next (k h : Nat) (va : Addr) (level : Nat) (entries : List (PAddr × Word)) (c : Client) (s : State) :
    (∃ t, exec (.configSlotSwitch k) s = .next t) ∧ (∃ t, exec (.pagerMap h va entries) s = .next t) ∧
    (∃ t, exec (.pageDenied h va) s = .next t) ∧ (∃ t, exec (.tlbInvalidate h va level) s = .next t) ∧
    (∀ n, c = .dcopy n ∨ c = .stream n → ∃ t, exec (.translationWalk k c va) s = .next t) := by
  refine ⟨configSlotSwitch_next k s, ⟨_, exec_pagerMap h va entries s⟩, ⟨_, exec_pageDenied h va s⟩, ⟨_, rfl⟩, fun n client => ?_⟩
  rcases client with rfl | rfl
  · exact ⟨_, rfl⟩
  · exact ⟨_, rfl⟩

/-- A refused task says so. -/
theorem Refused.denied {w w' : Waiter} (h : Refused w w') (waits : w.ready = none) (now : w'.ready ≠ none) : w'.denied = true :=
  h.resolve_left fun same => now (same.trans waits)

/-- Settles O53: a switch leaves what it does not move, RLOAD and RQUERY follow their checks, and a page's arrival, refusal or end reaches
every tile of the residency. -/
theorem slotsAndTranslation : Obligations.SlotsAndTranslation := by
  refine ⟨fun k h va level entries c s => slotEvent_next k h va level entries c s, fun f s ctx => ?_, fun k s => configSlotSwitch_clauses k s,
    fun k n va s => translationWalk_clauses k n va s, fun h k va s hk => ⟨fun entries => ?_, ?_, fun level => tlbInvalidate_clauses va s hk level⟩⟩
  · obtain ⟨busy, free⟩ := cslot_clauses f s ctx
    refine ⟨busy, fun idle tok => ?_, fun ready => ?_, fun ready => rquery_clauses ready⟩
    · obtain ⟨here, empty, other⟩ := free idle tok
      exact ⟨here, empty, other⟩
    · obtain ⟨odd, inUse, load⟩ := rload_clauses f s ctx ready
      refine ⟨odd, inUse, fun even out => ?_⟩
      obtain ⟨bad, found⟩ := load even out
      refine ⟨bad, fun pa ok at_ => ?_⟩
      obtain ⟨unstaged, staged⟩ := found pa ok at_
      refine ⟨unstaged, fun m ws stage image whole => ?_⟩
      obtain ⟨astray, goes⟩ := staged m ws stage image whole
      refine ⟨astray, fun pages => ⟨(goes pages).1, fun idle tok live => ?_⟩⟩
      obtain ⟨t, run, done⟩ := (goes pages).2 idle tok live
      exact ⟨t, run, done.done, done.tags, done.tlm, done.others, done.good, done.bad⟩
  · obtain ⟨t, run, ctxs, tlm, woken, arm, mem⟩ := pagerMap_clauses va s hk entries
    refine ⟨t, run, ctxs, tlm, fun i w hw => ?_, arm, mem⟩
    obtain ⟨w', found, page, ready, mark⟩ := woken.ready hw
    exact ⟨w', found, page, ready, fun waits go => (mark waits go).2⟩
  · obtain ⟨t, run, quiet, woken, arm⟩ := pageDenied_clauses va s hk
    refine ⟨t, run, quiet, fun i w hw => ?_, arm⟩
    obtain ⟨w', found, page, ready, mark⟩ := woken.ready hw
    exact ⟨w', found, page, ready, fun waits go => (mark waits go).2.denied waits (mark waits go).1⟩

end Sys2Proof.Machine
end

section
/-!
O1, O2 and O3, the encoding (03 R64, R65, R69 to R77, R85 to R91): the words of a well-formed instruction have it as their candidate, and a
candidate's words are those it was read from.
-/

namespace Sys2Proof

/-! Words and bytes (R5). -/

/-- The bytes of a word, put together, are the word. -/
theorem wordOfBytes_bytesOfWord (w : BitVec 32) :
    wordOfBytes (w.extractLsb' 0 8) (w.extractLsb' 8 8) (w.extractLsb' 16 8) (w.extractLsb' 24 8) = w := by
  unfold wordOfBytes
  simp (disch := omega) only [BitVec.extractLsb'_append_extractLsb'_eq_extractLsb']
  exact extract_all w

/-- The bytes of the word that four bytes make are those bytes. -/
theorem bytesOfWord_wordOfBytes (b0 b1 b2 b3 : Byte) : bytesOfWord (wordOfBytes b0 b1 b2 b3) = [b0, b1, b2, b3] := by
  simp (disch := omega) only [bytesOfWord, wordOfBytes, extract_append_hi, extract_append_lo, extract_all, Nat.reduceSub]

/-- A 32-bit instruction takes four bytes (R64). -/
theorem decodeBytes_short {w : BitVec 32} (short : isLong w = some false) (rest : List Byte) :
    decodeBytes (bytesOfWord w ++ rest) = (decodeA w).map fun i => (i, rest) := by
  simp only [bytesOfWord, decodeBytes, List.cons_append, List.nil_append, wordOfBytes_bytesOfWord, short]

/-- A 64-bit instruction takes eight bytes (R64). -/
theorem decodeBytes_long {w0 : BitVec 32} (long : isLong w0 = some true) (w1 : BitVec 32) (rest : List Byte) :
    decodeBytes (bytesOfWord w0 ++ (bytesOfWord w1 ++ rest)) = (decodeB w0 w1).map fun i => (i, rest) := by
  simp only [bytesOfWord, decodeBytes, List.cons_append, List.nil_append, wordOfBytes_bytesOfWord, long]

/-- What bytes decode to is what their first word decodes to, or their first two. -/
theorem decodeBytes_cases {bs : List Byte} {i : Instr} {rest : List Byte} (h : decodeBytes bs = .ok (i, rest)) :
    (∃ w, isLong w = some false ∧ decodeA w = .ok i ∧ bs = bytesOfWord w ++ rest) ∨
      ∃ w0 w1, isLong w0 = some true ∧ decodeB w0 w1 = .ok i ∧ bs = bytesOfWord w0 ++ (bytesOfWord w1 ++ rest) := by
  have ok {x : Except DecodeError Instr} {r : List Byte} (e : x.map (fun j => (j, r)) = .ok (i, rest)) : x = .ok i ∧ r = rest := by
    cases x with
    | error _ => cases e
    | ok j => cases e; exact ⟨rfl, rfl⟩
  unfold decodeBytes at h
  split at h
  · next b0 b1 b2 b3 after =>
    dsimp only at h
    split at h
    · cases h
    · next short =>
      obtain ⟨dec, rfl⟩ := ok h
      exact .inl ⟨_, short, dec, by rw [bytesOfWord_wordOfBytes]; rfl⟩
    · next long =>
      obtain ⟨dec, rfl⟩ := ok h
      exact .inr ⟨_, _, long, dec, by rw [bytesOfWord_wordOfBytes, bytesOfWord_wordOfBytes]; rfl⟩
    · cases h
  · cases h

/-- The instruction that decodes is a well-formed candidate (R85 step 6). -/
theorem checked_eq_ok {o : Option Instr} {i : Instr} : checked o = .ok i ↔ o = some i ∧ i.WellFormed := by
  cases o with
  | none => simp [checked]
  | some j =>
    by_cases wf : j.wf = true
    · simp only [checked, wf, if_true, Except.ok.injEq, Option.some.injEq]
      exact ⟨fun e => ⟨e, e ▸ wf⟩, fun e => e.1⟩
    · simp only [checked, wf, Option.some.injEq]
      exact ⟨fun e => by simp at e, fun e => absurd (e.1 ▸ e.2) wf⟩

theorem reserved_packKR (f : KR) : (packKR f).extractLsb' 21 11 = 0#11 := by
  simp (disch := omega) only [packKR, extract_append_hi, extract_all, Nat.reduceSub]

/-! The major opcodes that hold a list of functions (R88 to R91). -/

theorem rawA_sysList (fn : BitVec 6) (f : K3) : rawA (packK3 fn 0#6 f) = sysList fn.toNat f := by
  simp [rawA, major_packK3, fnOf_packK3, k3Of_packK3]

theorem rawA_intList (fn : BitVec 6) (f : K3) : rawA (packK3 fn 1#6 f) = intList fn.toNat f := by
  simp [rawA, major_packK3, fnOf_packK3, k3Of_packK3]

theorem rawA_capList (fn : BitVec 6) (f : K3) : rawA (packK3 fn 48#6 f) = capList fn.toNat f := by
  simp [rawA, major_packK3, fnOf_packK3, k3Of_packK3]

theorem rawA_chanList (fn : BitVec 6) (f : K3) : rawA (packK3 fn 56#6 f) = chanList fn.toNat f := by
  simp [rawA, major_packK3, fnOf_packK3, k3Of_packK3]

theorem rawA_tagList (fn : BitVec 6) (f : K3) : rawA (packK3 fn 57#6 f) = tagList fn.toNat f := by
  simp [rawA, major_packK3, fnOf_packK3, k3Of_packK3]

theorem rawA_barList (fn : BitVec 6) (f : K3) : rawA (packK3 fn 58#6 f) = barList fn.toNat f := by
  simp [rawA, major_packK3, fnOf_packK3, k3Of_packK3]

theorem rawA_startList (fn : BitVec 6) (f : K3) : rawA (packK3 fn 61#6 f) = startList fn.toNat f := by
  simp [rawA, major_packK3, fnOf_packK3, k3Of_packK3]

theorem rawB_viList (fn : BitVec 6) (f : VW) : rawB (bWord0 1#6 fn f.d f.a f.b) (vwWord1 f) = viList fn.toNat f := by
  simp [rawB, major_bWord0, bfnOf_bWord0, vwOf_words]

theorem rawB_vfList (fn : BitVec 6) (f : VW) : rawB (bWord0 2#6 fn f.d f.a f.b) (vwWord1 f) = vfList fn.toNat f := by
  simp [rawB, major_bWord0, bfnOf_bWord0, vwOf_words]

theorem rawB_vsfList (fn : BitVec 6) (f : VW) : rawB (bWord0 3#6 fn f.d f.a f.b) (vwWord1 f) = vsfList fn.toNat f := by
  simp [rawB, major_bWord0, bfnOf_bWord0, vwOf_words]

theorem rawB_vcvList (fn : BitVec 6) (f : VW) : rawB (bWord0 4#6 fn f.d f.a f.b) (vwWord1 f) = vcvList fn.toNat f := by
  simp [rawB, major_bWord0, bfnOf_bWord0, vwOf_words]

theorem rawB_vrList (fn : BitVec 6) (f : VW) : rawB (bWord0 5#6 fn f.d f.a f.b) (vwWord1 f) = vrList fn.toNat f := by
  simp [rawB, major_bWord0, bfnOf_bWord0, vwOf_words]

theorem rawB_vmList (fn : BitVec 6) (f : VW) : rawB (bWord0 6#6 fn f.d f.a f.b) (vwWord1 f) = vmList fn.toNat f := by
  simp [rawB, major_bWord0, bfnOf_bWord0, vwOf_words]

theorem rawB_vcList (fn : BitVec 6) (f : VW) : rawB (bWord0 7#6 fn f.d f.a f.b) (vwWord1 f) = vcList fn.toNat f := by
  simp [rawB, major_bWord0, bfnOf_bWord0, vwOf_words]

theorem rawB_gmList (fn : BitVec 6) (f : GW) : rawB (bWord0 16#6 fn f.d f.a f.b) (gwWord1 f) = gmList fn.toNat f := by
  simp [rawB, major_bWord0, bfnOf_bWord0, gwOf_words]

theorem rawB_gaList (fn : BitVec 6) (f : GW) : rawB (bWord0 17#6 fn f.d f.a f.b) (gwWord1 f) = gaList fn.toNat f := by
  simp [rawB, major_bWord0, bfnOf_bWord0, gwOf_words]

theorem rawB_gvList (fn : BitVec 6) (f : GW) : rawB (bWord0 18#6 fn f.d f.a f.b) (gwWord1 f) = gvList fn.toNat f := by
  simp [rawB, major_bWord0, bfnOf_bWord0, gwOf_words]

theorem rawB_mxList (fn : BitVec 6) (f : EW) : rawB (bWord0 24#6 fn f.d f.a f.b) (ewWord1 f) = mxList fn.toNat f := by
  simp [rawB, major_bWord0, bfnOf_bWord0, ewOf_words]

theorem rawB_dmList (fn : BitVec 6) (f : EW) : rawB (bWord0 25#6 fn f.d f.a f.b) (ewWord1 f) = dmList fn.toNat f := by
  simp [rawB, major_bWord0, bfnOf_bWord0, ewOf_words]

theorem rawB_lcList (fn : BitVec 6) (f : EW) : rawB (bWord0 26#6 fn f.d f.a f.b) (ewWord1 f) = lcList fn.toNat f := by
  simp [rawB, major_bWord0, bfnOf_bWord0, ewOf_words]

theorem rawB_swList (fn : BitVec 6) (f : EW) : rawB (bWord0 32#6 fn f.d f.a f.b) (ewWord1 f) = swList fn.toNat f := by
  simp [rawB, major_bWord0, bfnOf_bWord0, ewOf_words]

theorem rawB_ocList (fn : BitVec 6) (f : EW) : rawB (bWord0 33#6 fn f.d f.a f.b) (ewWord1 f) = ocList fn.toNat f := by
  simp [rawB, major_bWord0, bfnOf_bWord0, ewOf_words]

theorem rawB_rcList (fn : BitVec 6) (f : EW) : rawB (bWord0 34#6 fn f.d f.a f.b) (ewWord1 f) = rcList fn.toNat f := by
  simp [rawB, major_bWord0, bfnOf_bWord0, ewOf_words]

/-! Reading back what was encoded. -/

/-- The length bits of an instruction's words count them, and the words have it as their candidate (R85 steps 2 to 5). -/
def Instr.Read (i : Instr) : Prop := match encode i with
  | [] => True
  | [w] => isLong w = some false ∧ rawA w = some i
  | [w0, w1] => isLong w0 = some true ∧ rawB w0 w1 = some i
  | _ => False

/-- A well-formed instruction is the candidate of its own words. The shifts, MARK's kinds, MINIT and LTAB share a function code, and their
own field rules tell them apart. -/
theorem Instr.WellFormed.read {i : Instr} (wf : i.WellFormed) : i.Read := by
  cases i
  case nop f | doneI f | retireI f | trapI f | eret f | brk f | fence f | ifence f => exact ⟨isLong_short (length_packK3 _ _ f), rawA_sysList _ f⟩
  case add f | sub f | mul f | mulh f | mulhu f | div f | divu f | rem f | remu f | andR f | orR f | xorR f | andn f | orn f | shl f
      | shr f | sra f | ror f | minR f | maxR f | minu f | maxu f | slt f | sltu f | seq f | sne f | clz f | ctz f | popc f | addw f
      | subw f | mulw f | sext f | zext f => exact ⟨isLong_short (length_packK3 _ _ f), rawA_intList _ f⟩
  case cinc f | csetb f | csetbx f | candp f | cgeta f | cgetb f | cgett f | cgetp f | cgetty f | ctag f | cclr f | cseal f
      | cunseal f | cmov f | csub f | ceq f => exact ⟨isLong_short (length_packK3 _ _ f), rawA_capList _ f⟩
  case put f | putr f | putl f | take f | takel f | peek f | putn f | room f | chst f => exact ⟨isLong_short (length_packK3 _ _ f), rawA_chanList _ f⟩
  case waitany f | waitall f | ffr f | tagclr f | tagrd f => exact ⟨isLong_short (length_packK3 _ _ f), rawA_tagList _ f⟩
  case barrive f | barwait f | bartest f | barleave f => exact ⟨isLong_short (length_packK3 _ _ f), rawA_barList _ f⟩
  case startI f => exact ⟨isLong_short (length_packK3 _ _ f), rawA_startList _ f⟩
  case addi f | andi f | ori f | xori f | slti f | sltui f | muli f | jalr f | loopI f | ldb f | ldbu f | ldh f | ldhu f | ldw f
      | ldwu f | ldd f | ldc f | cinci f | csetbi f | mfs f | mts f =>
        exact ⟨isLong_short (length_packKI _ f), by simp [rawA, major_packKI, kiOf_packKI]⟩
  case beq f | bne f | blt f | bge f | bltu f | bgeu f => exact ⟨isLong_short (length_packKB _ f), by simp [rawA, major_packKB, kbOf_packKB]⟩
  case stb f | sth f | stw f | std f | stc f => exact ⟨isLong_short (length_packKS _ f), by simp [rawA, major_packKS, ksOf_packKS]⟩
  case jump f | jal f => exact ⟨isLong_short (length_packKJ _ f), by simp [rawA, major_packKJ, kjOf_packKJ]⟩
  case lih f => exact ⟨isLong_short (length_packKU _ f), by simp [rawA, major_packKU, kuOf_packKU]⟩
  case repI f => exact ⟨isLong_short (length_packKR f), by simp [rawA, major_packKR, krOf_packKR, reserved_packKR]⟩
  case li f => exact ⟨isLong_long (length_liWord0 f), by simp [rawB, major_liWord0, reserved_liWord0, liOf_words]⟩
  case shli f | shri f | srai f | rori f =>
    have sel := beq_iff_eq.mp wf
    exact ⟨isLong_short (length_packKI _ f), by simp [rawA, major_packKI, kiOf_packKI, shiList, sel]⟩
  case markNull f | markRound f | markEos f | markPoison f =>
    obtain ⟨-, kind⟩ := Bool.and_eq_true_iff.mp wf
    exact ⟨isLong_short (length_packK3 _ _ f), (rawA_chanList _ f).trans (by simp [chanList, eq_of_beq kind])⟩
  case vadd f | vsub f | vmul f | vmulh f | vmin f | vmax f | vminu f | vmaxu f | vand f | vor f | vxor f | vshl f | vshr f | vsra f
      | vabs f | vneg f | vadds f | vsubs f => exact ⟨isLong_long (length_bWord0 _ _ _ _ _), rawB_viList _ f⟩
  case vfadd f | vfsub f | vfmul f | vfma f | vfms f | vfnma f | vfmin f | vfmax f | vfabs f | vfneg f | vfcps f =>
    exact ⟨isLong_long (length_bWord0 _ _ _ _ _), rawB_vfList _ f⟩
  case vrsqrte f | vrcpe f | vexp2e f | vlog2e f => exact ⟨isLong_long (length_bWord0 _ _ _ _ _), rawB_vsfList _ f⟩
  case vcvt f | vcvto f | vpack f | vunpack f | vmxq f | vmxd f => exact ⟨isLong_long (length_bWord0 _ _ _ _ _), rawB_vcvList _ f⟩
  case vredadd f | vredmax f | vredmin f | vfredadd f | vbcst f | vshuf f | vslide f | viota f =>
    exact ⟨isLong_long (length_bWord0 _ _ _ _ _), rawB_vrList _ f⟩
  case vld f | vst f | vlds f | vsts f | vldx f | vstx f | vldb f => exact ⟨isLong_long (length_bWord0 _ _ _ _ _), rawB_vmList _ f⟩
  case vcmpeq f | vcmpne f | vcmplt f | vcmple f | vfcmpeq f | vfcmplt f | vfcmple f | vfclass f | mand f | mor f | mxor f | mnot f
      | mpopc f | vsel f | vmovk f | vmovx f => exact ⟨isLong_long (length_bWord0 _ _ _ _ _), rawB_vcList _ f⟩
  case gld f | gst f | glda f | gstr f => exact ⟨isLong_long (length_bWord0 _ _ _ _ _), rawB_gmList _ f⟩
  case gaadd f | gamin f | gamax f | gaand f | gaor f | gaxor f | gaswp f | gacas f | gafadd f =>
    exact ⟨isLong_long (length_bWord0 _ _ _ _ _), rawB_gaList _ f⟩
  case gldv f | gstv f | gvq f => exact ⟨isLong_long (length_bWord0 _ _ _ _ _), rawB_gvList _ f⟩
  case mma f | mrel f | mzero f | mshape f | mrd f => exact ⟨isLong_long (length_bWord0 _ _ _ _ _), rawB_mxList _ f⟩
  case dcopy f | dscfg f | dsgo f | dsstop f | dbank f => exact ⟨isLong_long (length_bWord0 _ _ _ _ _), rawB_dmList _ f⟩
  case lwire f | lsel f | leval f | lslice f | lunslice f | lpld f | lpst f | lpcnt f =>
    exact ⟨isLong_long (length_bWord0 _ _ _ _ _), rawB_lcList _ f⟩
  case sweep f | swq f | swabt f => exact ⟨isLong_long (length_bWord0 _ _ _ _ _), rawB_swList _ f⟩
  case osend f | owm f => exact ⟨isLong_long (length_bWord0 _ _ _ _ _), rawB_ocList _ f⟩
  case cslot f | rload f | rquery f => exact ⟨isLong_long (length_bWord0 _ _ _ _ _), rawB_rcList _ f⟩
  case minit f =>
    obtain ⟨⟨⟨⟨-, -⟩, low⟩, -⟩, -⟩ := by simpa only [Instr.WellFormed, Instr.wf, Bool.and_eq_true, decide_eq_true_eq] using wf
    have clear : f.imm.getLsbD 11 = false := Nat.testBit_lt_two_pow low
    exact ⟨isLong_long (length_bWord0 _ _ _ _ _), (rawB_mxList _ f).trans (by simp only [mxList, clear]; rfl)⟩
  case minitPort f =>
    obtain ⟨⟨⟨⟨⟨-, bit⟩, -⟩, -⟩, -⟩, -⟩ := by simpa only [Instr.WellFormed, Instr.wf, Bool.and_eq_true] using wf
    exact ⟨isLong_long (length_bWord0 _ _ _ _ _), (rawB_mxList _ f).trans (by simp only [mxList, bit]; rfl)⟩
  case ltab f =>
    obtain ⟨⟨⟨low, -⟩, -⟩, -⟩ := by simpa only [Instr.WellFormed, Instr.wf, Bool.and_eq_true, decide_eq_true_eq] using wf
    have clear : f.imm.getLsbD 10 = false := Nat.testBit_lt_two_pow low
    exact ⟨isLong_long (length_bWord0 _ _ _ _ _), (rawB_lcList _ f).trans (by simp only [lcList, clear]; rfl)⟩
  case ltabStream f =>
    obtain ⟨⟨⟨⟨⟨bit, -⟩, -⟩, -⟩, -⟩, -⟩ := by simpa only [Instr.WellFormed, Instr.wf, Bool.and_eq_true] using wf
    exact ⟨isLong_long (length_bWord0 _ _ _ _ _), (rawB_lcList _ f).trans (by simp only [lcList, bit]; rfl)⟩
  all_goals trivial

/-! The words that the fields of a word make (R69 to R77). -/

section
variable {w : BitVec 32} (short : w.extractLsb' 0 2 = 0#2)
include short

theorem packK3_k3Of {m : Nat} (major : (w.extractLsb' 2 6).toNat = m) : packK3 (BitVec.ofNat 6 (fnOf w)) (BitVec.ofNat 6 m) (k3Of w) = w := by
  rw [← major, fnOf, BitVec.ofNat_toNat, BitVec.ofNat_toNat, BitVec.setWidth_eq, BitVec.setWidth_eq, packK3, k3Of, ← short]
  simp (disch := omega) only [BitVec.extractLsb'_append_extractLsb'_eq_extractLsb']
  exact extract_all w

theorem packKI_kiOf {m : Nat} (major : (w.extractLsb' 2 6).toNat = m) : packKI (BitVec.ofNat 6 m) (kiOf w) = w := by
  rw [← major, BitVec.ofNat_toNat, BitVec.setWidth_eq, packKI, kiOf, ← short]
  simp (disch := omega) only [BitVec.extractLsb'_append_extractLsb'_eq_extractLsb']
  exact extract_all w

theorem packKB_kbOf {m : Nat} (major : (w.extractLsb' 2 6).toNat = m) : packKB (BitVec.ofNat 6 m) (kbOf w) = w := by
  rw [← major, BitVec.ofNat_toNat, BitVec.setWidth_eq, packKB, kbOf, ← short]
  simp (disch := omega) only [BitVec.extractLsb'_append_extractLsb'_eq_extractLsb']
  exact extract_all w

theorem packKS_ksOf {m : Nat} (major : (w.extractLsb' 2 6).toNat = m) : packKS (BitVec.ofNat 6 m) (ksOf w) = w := by
  rw [← major, BitVec.ofNat_toNat, BitVec.setWidth_eq, packKS, ksOf, ← short]
  simp (disch := omega) only [BitVec.extractLsb'_append_extractLsb'_eq_extractLsb']
  exact extract_all w

theorem packKJ_kjOf {m : Nat} (major : (w.extractLsb' 2 6).toNat = m) : packKJ (BitVec.ofNat 6 m) (kjOf w) = w := by
  rw [← major, BitVec.ofNat_toNat, BitVec.setWidth_eq, packKJ, kjOf, ← short]
  simp (disch := omega) only [BitVec.extractLsb'_append_extractLsb'_eq_extractLsb']
  exact extract_all w

theorem packKU_kuOf {m : Nat} (major : (w.extractLsb' 2 6).toNat = m) : packKU (BitVec.ofNat 6 m) (kuOf w) = w := by
  rw [← major, BitVec.ofNat_toNat, BitVec.setWidth_eq, packKU, kuOf, ← short]
  simp (disch := omega) only [BitVec.extractLsb'_append_extractLsb'_eq_extractLsb']
  exact extract_all w

theorem packKR_krOf (major : (w.extractLsb' 2 6).toNat = 26) (reserved : w.extractLsb' 21 11 = 0#11) : packKR (krOf w) = w := by
  have major : w.extractLsb' 2 6 = 26#6 := BitVec.eq_of_toNat_eq major
  rw [packKR, krOf, ← short, ← major, ← reserved]
  simp (disch := omega) only [BitVec.extractLsb'_append_extractLsb'_eq_extractLsb']
  exact extract_all w

end

section
variable {w0 : BitVec 32} (long : w0.extractLsb' 0 2 = 1#2)
include long

theorem liWord0_liOf (w1 : BitVec 32) (major : (w0.extractLsb' 2 6).toNat = 0) (reserved : w0.extractLsb' 12 2 = 0#2) :
    liWord0 (liOf w0 w1) = w0 := by
  have major : w0.extractLsb' 2 6 = 0#6 := BitVec.eq_of_toNat_eq major
  rw [liWord0, liOf, ← long, ← major, ← reserved]
  simp (disch := omega) only [extract_append_hi, extract_append_lo, extract_all, Nat.reduceSub,
    BitVec.extractLsb'_append_extractLsb'_eq_extractLsb']

theorem bWord0_fields {m : Nat} (major : (w0.extractLsb' 2 6).toNat = m) :
    bWord0 (BitVec.ofNat 6 m) (BitVec.ofNat 6 (bfnOf w0)) (w0.extractLsb' 14 6) (w0.extractLsb' 20 6) (w0.extractLsb' 26 6) = w0 := by
  rw [← major, bfnOf, BitVec.ofNat_toNat, BitVec.ofNat_toNat, BitVec.setWidth_eq, BitVec.setWidth_eq, bWord0, ← long]
  simp (disch := omega) only [BitVec.extractLsb'_append_extractLsb'_eq_extractLsb']
  exact extract_all w0

end

theorem liWord1_liOf (w0 w1 : BitVec 32) : liWord1 (liOf w0 w1) = w1 := by
  simp (disch := omega) only [liWord1, liOf, extract_append_lo, extract_all]

theorem vwWord1_vwOf (w0 w1 : BitVec 32) : vwWord1 (vwOf w0 w1) = w1 := by
  rw [vwWord1, vwOf]
  simp (disch := omega) only [BitVec.extractLsb'_append_extractLsb'_eq_extractLsb']
  exact extract_all w1

theorem gwWord1_gwOf (w0 w1 : BitVec 32) : gwWord1 (gwOf w0 w1) = w1 := by
  rw [gwWord1, gwOf]
  simp (disch := omega) only [BitVec.extractLsb'_append_extractLsb'_eq_extractLsb']
  exact extract_all w1

theorem ewWord1_ewOf (w0 w1 : BitVec 32) : ewWord1 (ewOf w0 w1) = w1 := by
  rw [ewWord1, ewOf]
  simp (disch := omega) only [BitVec.extractLsb'_append_extractLsb'_eq_extractLsb']
  exact extract_all w1

/-! The candidates of each list of functions, encoded (R89, R91). -/

theorem encode_sysList {fn : Nat} {f : K3} {i : Instr} (h : sysList fn f = some i) : encode i = [packK3 (BitVec.ofNat 6 fn) 0#6 f] := by
  unfold sysList at h
  split at h <;> cases h <;> rfl

theorem encode_intList {fn : Nat} {f : K3} {i : Instr} (h : intList fn f = some i) : encode i = [packK3 (BitVec.ofNat 6 fn) 1#6 f] := by
  unfold intList at h
  split at h <;> cases h <;> rfl

theorem encode_capList {fn : Nat} {f : K3} {i : Instr} (h : capList fn f = some i) : encode i = [packK3 (BitVec.ofNat 6 fn) 48#6 f] := by
  unfold capList at h
  split at h <;> cases h <;> rfl

theorem encode_chanList {fn : Nat} {f : K3} {i : Instr} (h : chanList fn f = some i) : encode i = [packK3 (BitVec.ofNat 6 fn) 56#6 f] := by
  unfold chanList at h
  split at h
  case h_10 => split at h <;> cases h <;> rfl
  all_goals cases h <;> rfl

theorem encode_tagList {fn : Nat} {f : K3} {i : Instr} (h : tagList fn f = some i) : encode i = [packK3 (BitVec.ofNat 6 fn) 57#6 f] := by
  unfold tagList at h
  split at h <;> cases h <;> rfl

theorem encode_barList {fn : Nat} {f : K3} {i : Instr} (h : barList fn f = some i) : encode i = [packK3 (BitVec.ofNat 6 fn) 58#6 f] := by
  unfold barList at h
  split at h <;> cases h <;> rfl

theorem encode_startList {fn : Nat} {f : K3} {i : Instr} (h : startList fn f = some i) : encode i = [packK3 (BitVec.ofNat 6 fn) 61#6 f] := by
  unfold startList at h
  split at h <;> cases h
  rfl

theorem encode_viList {fn : Nat} {f : VW} {i : Instr} (h : viList fn f = some i) :
    encode i = [bWord0 1#6 (BitVec.ofNat 6 fn) f.d f.a f.b, vwWord1 f] := by
  unfold viList at h
  split at h <;> cases h <;> rfl

theorem encode_vfList {fn : Nat} {f : VW} {i : Instr} (h : vfList fn f = some i) :
    encode i = [bWord0 2#6 (BitVec.ofNat 6 fn) f.d f.a f.b, vwWord1 f] := by
  unfold vfList at h
  split at h <;> cases h <;> rfl

theorem encode_vsfList {fn : Nat} {f : VW} {i : Instr} (h : vsfList fn f = some i) :
    encode i = [bWord0 3#6 (BitVec.ofNat 6 fn) f.d f.a f.b, vwWord1 f] := by
  unfold vsfList at h
  split at h <;> cases h <;> rfl

theorem encode_vcvList {fn : Nat} {f : VW} {i : Instr} (h : vcvList fn f = some i) :
    encode i = [bWord0 4#6 (BitVec.ofNat 6 fn) f.d f.a f.b, vwWord1 f] := by
  unfold vcvList at h
  split at h <;> cases h <;> rfl

theorem encode_vrList {fn : Nat} {f : VW} {i : Instr} (h : vrList fn f = some i) :
    encode i = [bWord0 5#6 (BitVec.ofNat 6 fn) f.d f.a f.b, vwWord1 f] := by
  unfold vrList at h
  split at h <;> cases h <;> rfl

theorem encode_vmList {fn : Nat} {f : VW} {i : Instr} (h : vmList fn f = some i) :
    encode i = [bWord0 6#6 (BitVec.ofNat 6 fn) f.d f.a f.b, vwWord1 f] := by
  unfold vmList at h
  split at h <;> cases h <;> rfl

theorem encode_vcList {fn : Nat} {f : VW} {i : Instr} (h : vcList fn f = some i) :
    encode i = [bWord0 7#6 (BitVec.ofNat 6 fn) f.d f.a f.b, vwWord1 f] := by
  unfold vcList at h
  split at h <;> cases h <;> rfl

theorem encode_gmList {fn : Nat} {f : GW} {i : Instr} (h : gmList fn f = some i) :
    encode i = [bWord0 16#6 (BitVec.ofNat 6 fn) f.d f.a f.b, gwWord1 f] := by
  unfold gmList at h
  split at h <;> cases h <;> rfl

theorem encode_gaList {fn : Nat} {f : GW} {i : Instr} (h : gaList fn f = some i) :
    encode i = [bWord0 17#6 (BitVec.ofNat 6 fn) f.d f.a f.b, gwWord1 f] := by
  unfold gaList at h
  split at h <;> cases h <;> rfl

theorem encode_gvList {fn : Nat} {f : GW} {i : Instr} (h : gvList fn f = some i) :
    encode i = [bWord0 18#6 (BitVec.ofNat 6 fn) f.d f.a f.b, gwWord1 f] := by
  unfold gvList at h
  split at h <;> cases h <;> rfl

theorem encode_mxList {fn : Nat} {f : EW} {i : Instr} (h : mxList fn f = some i) :
    encode i = [bWord0 24#6 (BitVec.ofNat 6 fn) f.d f.a f.b, ewWord1 f] := by
  unfold mxList at h
  split at h
  case h_2 =>
    cases h
    split <;> rfl
  all_goals cases h <;> rfl

theorem encode_dmList {fn : Nat} {f : EW} {i : Instr} (h : dmList fn f = some i) :
    encode i = [bWord0 25#6 (BitVec.ofNat 6 fn) f.d f.a f.b, ewWord1 f] := by
  unfold dmList at h
  split at h <;> cases h <;> rfl

theorem encode_lcList {fn : Nat} {f : EW} {i : Instr} (h : lcList fn f = some i) :
    encode i = [bWord0 26#6 (BitVec.ofNat 6 fn) f.d f.a f.b, ewWord1 f] := by
  unfold lcList at h
  split at h
  case h_1 =>
    cases h
    split <;> rfl
  all_goals cases h <;> rfl

theorem encode_swList {fn : Nat} {f : EW} {i : Instr} (h : swList fn f = some i) :
    encode i = [bWord0 32#6 (BitVec.ofNat 6 fn) f.d f.a f.b, ewWord1 f] := by
  unfold swList at h
  split at h <;> cases h <;> rfl

theorem encode_ocList {fn : Nat} {f : EW} {i : Instr} (h : ocList fn f = some i) :
    encode i = [bWord0 33#6 (BitVec.ofNat 6 fn) f.d f.a f.b, ewWord1 f] := by
  unfold ocList at h
  split at h <;> cases h <;> rfl

theorem encode_rcList {fn : Nat} {f : EW} {i : Instr} (h : rcList fn f = some i) :
    encode i = [bWord0 34#6 (BitVec.ofNat 6 fn) f.d f.a f.b, ewWord1 f] := by
  unfold rcList at h
  split at h <;> cases h <;> rfl

theorem encode_shiList {f : KI} {i : Instr} (h : shiList f = some i) : encode i = [packKI 6#6 f] := by
  unfold shiList at h
  split at h <;> cases h <;> rfl

/-- The candidate of a 32-bit word has that word as its encoding (R88, R89). -/
theorem encode_rawA {w : BitVec 32} {i : Instr} (short : w.extractLsb' 0 2 = 0#2) (h : rawA w = some i) : encode i = [w] := by
  unfold rawA at h
  split at h
  case h_1 _ major => rw [encode_sysList h, packK3_k3Of short major]
  case h_2 _ major => rw [encode_intList h, packK3_k3Of short major]
  case h_36 _ major => rw [encode_capList h, packK3_k3Of short major]
  case h_39 _ major => rw [encode_chanList h, packK3_k3Of short major]
  case h_40 _ major => rw [encode_tagList h, packK3_k3Of short major]
  case h_41 _ major => rw [encode_barList h, packK3_k3Of short major]
  case h_44 _ major => rw [encode_startList h, packK3_k3Of short major]
  case h_3 _ major | h_4 _ major | h_5 _ major | h_6 _ major | h_8 _ major | h_9 _ major | h_10 _ major | h_20 _ major | h_21 _ major
      | h_23 _ major | h_24 _ major | h_25 _ major | h_26 _ major | h_27 _ major | h_28 _ major | h_29 _ major | h_30 _ major
      | h_37 _ major | h_38 _ major | h_42 _ major | h_43 _ major => cases h; exact congrArg (fun x => [x]) (packKI_kiOf short major)
  case h_7 _ major => rw [encode_shiList h, packKI_kiOf short major]
  case h_11 _ major => cases h; exact congrArg (fun x => [x]) (packKU_kuOf short major)
  case h_12 _ major | h_13 _ major | h_14 _ major | h_15 _ major | h_16 _ major | h_17 _ major =>
    cases h
    exact congrArg (fun x => [x]) (packKB_kbOf short major)
  case h_18 _ major | h_19 _ major => cases h; exact congrArg (fun x => [x]) (packKJ_kjOf short major)
  case h_22 _ major =>
    split at h
    · next reserved => cases h; exact congrArg (fun x => [x]) (packKR_krOf short major reserved)
    · cases h
  case h_31 _ major | h_32 _ major | h_33 _ major | h_34 _ major | h_35 _ major => cases h; exact congrArg (fun x => [x]) (packKS_ksOf short major)
  case h_45 => cases h

/-- The candidate of two words has them as its encoding (R90, R91). -/
theorem encode_rawB {w0 w1 : BitVec 32} {i : Instr} (long : w0.extractLsb' 0 2 = 1#2) (h : rawB w0 w1 = some i) : encode i = [w0, w1] := by
  have word0 {m : Nat} (major : (w0.extractLsb' 2 6).toNat = m) := bWord0_fields long major
  unfold rawB at h
  split at h
  case h_1 _ major =>
    split at h
    · next reserved => cases h; rw [encode, liWord0_liOf long w1 major reserved, liWord1_liOf]
    · cases h
  case h_2 _ major => rw [encode_viList h, vwWord1_vwOf]; exact congrArg (fun x => [x, w1]) (word0 major)
  case h_3 _ major => rw [encode_vfList h, vwWord1_vwOf]; exact congrArg (fun x => [x, w1]) (word0 major)
  case h_4 _ major => rw [encode_vsfList h, vwWord1_vwOf]; exact congrArg (fun x => [x, w1]) (word0 major)
  case h_5 _ major => rw [encode_vcvList h, vwWord1_vwOf]; exact congrArg (fun x => [x, w1]) (word0 major)
  case h_6 _ major => rw [encode_vrList h, vwWord1_vwOf]; exact congrArg (fun x => [x, w1]) (word0 major)
  case h_7 _ major => rw [encode_vmList h, vwWord1_vwOf]; exact congrArg (fun x => [x, w1]) (word0 major)
  case h_8 _ major => rw [encode_vcList h, vwWord1_vwOf]; exact congrArg (fun x => [x, w1]) (word0 major)
  case h_9 _ major => rw [encode_gmList h, gwWord1_gwOf]; exact congrArg (fun x => [x, w1]) (word0 major)
  case h_10 _ major => rw [encode_gaList h, gwWord1_gwOf]; exact congrArg (fun x => [x, w1]) (word0 major)
  case h_11 _ major => rw [encode_gvList h, gwWord1_gwOf]; exact congrArg (fun x => [x, w1]) (word0 major)
  case h_12 _ major => rw [encode_mxList h, ewWord1_ewOf]; exact congrArg (fun x => [x, w1]) (word0 major)
  case h_13 _ major => rw [encode_dmList h, ewWord1_ewOf]; exact congrArg (fun x => [x, w1]) (word0 major)
  case h_14 _ major => rw [encode_lcList h, ewWord1_ewOf]; exact congrArg (fun x => [x, w1]) (word0 major)
  case h_15 _ major => rw [encode_swList h, ewWord1_ewOf]; exact congrArg (fun x => [x, w1]) (word0 major)
  case h_16 _ major => rw [encode_ocList h, ewWord1_ewOf]; exact congrArg (fun x => [x, w1]) (word0 major)
  case h_17 _ major => rw [encode_rcList h, ewWord1_ewOf]; exact congrArg (fun x => [x, w1]) (word0 major)
  case h_18 => cases h

/-! Decoded words. -/

theorem isLong_eq_false {w : BitVec 32} (h : isLong w = some false) : w.extractLsb' 0 2 = 0#2 := by
  unfold isLong at h
  split at h
  · next bits => exact BitVec.eq_of_toNat_eq bits
  all_goals cases h

theorem isLong_eq_true {w : BitVec 32} (h : isLong w = some true) : w.extractLsb' 0 2 = 1#2 := by
  unfold isLong at h
  split at h
  case h_2 bits => exact BitVec.eq_of_toNat_eq bits
  all_goals cases h

end Sys2Proof

namespace Sys2Proof.Machine

/-- Settles O1: the length bits give the number of words back, and the words have the instruction as their candidate. -/
theorem encodeDecode : Obligations.EncodeDecode := by
  intro i rest wf enc
  have read : i.Read := wf.read
  have checkedOk {o : Option Instr} (h : o = some i) : checked o = .ok i := checked_eq_ok.mpr ⟨h, wf⟩
  unfold Instr.Read at read
  unfold encodeBytes
  split at read
  · next none => simp [Instr.isEncoded, none] at enc
  · next w one =>
    obtain ⟨short, raw⟩ := read
    rw [one, List.flatMap_singleton, decodeBytes_short short, decodeA, checkedOk raw]
    rfl
  · next w0 w1 two =>
    obtain ⟨long, raw⟩ := read
    rw [two, List.flatMap_cons, List.flatMap_singleton, List.append_assoc, decodeBytes_long long, decodeB, checkedOk raw]
    rfl
  · exact read.elim

/-- Settles O2: what decodes is a candidate that passes its own field rules, and a candidate's encoding is the words it was read from. -/
theorem decodeEncode : Obligations.DecodeEncode := by
  intro bs i rest h
  rcases decodeBytes_cases h with ⟨w, short, dec, rfl⟩ | ⟨w0, w1, long, dec, rfl⟩
  · obtain ⟨raw, wf⟩ := checked_eq_ok.mp dec
    refine ⟨wf, ?_⟩
    rw [encodeBytes, encode_rawA (isLong_eq_false short) raw, List.flatMap_singleton]
  · obtain ⟨raw, wf⟩ := checked_eq_ok.mp dec
    refine ⟨wf, ?_⟩
    rw [encodeBytes, encode_rawB (isLong_eq_true long) raw, List.flatMap_cons, List.flatMap_singleton, List.append_assoc]

/-- Settles O3: each word evaluates to the instruction beside it. -/
theorem decodeWords : Obligations.DecodeWords :=
  ⟨rfl, rfl, rfl, rfl, rfl, rfl, rfl, rfl, rfl, rfl, rfl, rfl, rfl, rfl, rfl, rfl⟩

end Sys2Proof.Machine
end

section
/-!
O7, the INT instructions (05 R131, R133, R134): the result of each operation of the model as the table of the spec gives it.
-/

namespace Sys2Proof.Machine

/-! Products (R133). -/

theorem mul_eq_ofNat (x y : Word) : x * y = BitVec.ofNat 64 (x.toNat * y.toNat) :=
  BitVec.eq_of_toNat_eq (by rw [BitVec.toNat_mul, BitVec.toNat_ofNat])

/-- The high half of a 128-bit product, of the integers that its factors stand for. -/
theorem mulHigh_ofInt (a b : Int) : mulHigh (BitVec.ofInt 128 a) (BitVec.ofInt 128 b) = BitVec.ofInt 64 (a * b / 2 ^ 64) := by
  rw [mulHigh, ← BitVec.ofInt_mul]
  generalize a * b = p
  apply BitVec.eq_of_toNat_eq
  rw [BitVec.extractLsb'_toNat, BitVec.toNat_ofInt, BitVec.toNat_ofInt, Nat.shiftRight_eq_div_pow]
  omega

theorem mulHigh_signed (x y : Word) : mulHigh (x.signExtend 128) (y.signExtend 128) = BitVec.ofInt 64 (x.toInt * y.toInt / 2 ^ 64) :=
  mulHigh_ofInt x.toInt y.toInt

theorem mulHigh_unsigned (x y : Word) : mulHigh (x.setWidth 128) (y.setWidth 128) = BitVec.ofNat 64 (x.toNat * y.toNat / 2 ^ 64) := by
  rw [← BitVec.ofNat_toNat, ← BitVec.ofNat_toNat, ← BitVec.ofInt_natCast, ← BitVec.ofInt_natCast, mulHigh_ofInt, ← BitVec.ofInt_natCast]
  push_cast
  rfl

/-! Quotients and remainders (R134). -/

theorem toInt_eq_zero_iff (y : Word) : y.toInt = 0 ↔ y = 0 := by
  rw [← BitVec.toInt_inj]; rfl

theorem toNat_eq_zero_iff (y : Word) : y.toNat = 0 ↔ y = 0 := by
  rw [← BitVec.toNat_inj]; rfl

/-- The one quotient that overflows (R106). -/
theorem overflows_iff (x y : Word) : (x.toInt = -2 ^ 63 ∧ y.toInt = -1) ↔ (x = BitVec.intMin 64 ∧ y = BitVec.allOnes 64) := by
  rw [← BitVec.toInt_inj, ← BitVec.toInt_inj (x := y)]
  rfl

theorem divQ_eq (x y : Word) : divQ x y = if y.toInt = 0 then BitVec.ofInt 64 (2 ^ 64 - 1)
    else if x.toInt = -2 ^ 63 ∧ y.toInt = -1 then BitVec.ofInt 64 (-2 ^ 63) else BitVec.ofInt 64 (x.toInt.tdiv y.toInt) := by
  simp only [toInt_eq_zero_iff, overflows_iff]
  rfl

theorem divR_eq (x y : Word) : divR x y = if y.toInt = 0 then x
    else if x.toInt = -2 ^ 63 ∧ y.toInt = -1 then 0 else BitVec.ofInt 64 (x.toInt - x.toInt.tdiv y.toInt * y.toInt) := by
  simp only [toInt_eq_zero_iff, overflows_iff]
  rfl

theorem divUQ_eq (x y : Word) :
    divUQ x y = if y.toNat = 0 then BitVec.ofNat 64 (2 ^ 64 - 1) else BitVec.ofNat 64 (x.toNat / y.toNat) := by
  simp only [toNat_eq_zero_iff]
  rfl

theorem divUR_eq (x y : Word) : divUR x y = if y.toNat = 0 then x else BitVec.ofNat 64 (x.toNat % y.toNat) := by
  simp only [toNat_eq_zero_iff]
  rfl

/-! Shifts (R133). -/

theorem shl_eq_ofNat (x y : Word) : x <<< sh y = BitVec.ofNat 64 (x.toNat * 2 ^ (y.toNat % 64)) :=
  BitVec.eq_of_toNat_eq (by rw [BitVec.toNat_shiftLeft, BitVec.toNat_ofNat, Nat.shiftLeft_eq, sh])

theorem shr_eq_ofNat (x y : Word) : x >>> sh y = BitVec.ofNat 64 (x.toNat / 2 ^ (y.toNat % 64)) := by
  rw [← Nat.shiftRight_eq_div_pow, ← sh, ← BitVec.toNat_ushiftRight, BitVec.ofNat_toNat, BitVec.setWidth_eq]

theorem sra_eq_ofInt (x y : Word) : x.sshiftRight (sh y) = BitVec.ofInt 64 (x.toInt / 2 ^ (y.toNat % 64)) := by
  rw [BitVec.sshiftRight, Int.shiftRight_eq_div_pow, sh]
  push_cast
  rfl

/-! Minima and maxima (R133). -/

theorem min_eq_ofInt (x y : Word) : (if x.toInt ≤ y.toInt then x else y) = BitVec.ofInt 64 (min x.toInt y.toInt) := by
  rw [min_def, apply_ite (BitVec.ofInt 64), BitVec.ofInt_toInt, BitVec.ofInt_toInt]

theorem max_eq_ofInt (x y : Word) : (if x.toInt ≤ y.toInt then y else x) = BitVec.ofInt 64 (max x.toInt y.toInt) := by
  rw [max_def, apply_ite (BitVec.ofInt 64), BitVec.ofInt_toInt, BitVec.ofInt_toInt]

theorem ofNat_toNat_word (x : Word) : BitVec.ofNat 64 x.toNat = x := by rw [BitVec.ofNat_toNat, BitVec.setWidth_eq]

theorem min_eq_ofNat (x y : Word) : (if x.toNat ≤ y.toNat then x else y) = BitVec.ofNat 64 (min x.toNat y.toNat) := by
  rw [min_def, apply_ite (BitVec.ofNat 64), ofNat_toNat_word, ofNat_toNat_word]

theorem max_eq_ofNat (x y : Word) : (if x.toNat ≤ y.toNat then y else x) = BitVec.ofNat 64 (max x.toNat y.toNat) := by
  rw [max_def, apply_ite (BitVec.ofNat 64), ofNat_toNat_word, ofNat_toNat_word]

/-! Comparisons, and results of 32 bits (R133). -/

theorem bool64_decide (p : Prop) [Decidable p] : bool64 (decide p) = if p then 1 else 0 := by
  by_cases h : p <;> simp [bool64, h]

theorem bool64_beq (x y : Word) : bool64 (x == y) = if x = y then 1 else 0 := by
  by_cases h : x = y <;> simp [bool64, h]

theorem bool64_bne (x y : Word) : bool64 (x != y) = if x = y then 0 else 1 := by
  by_cases h : x = y <;> simp [bool64, h]

theorem sext32_eq (x : Word) : sext32 x = (x.setWidth 32).signExtend 64 := by
  rw [sext32, BitVec.setWidth_eq_extractLsb' (by decide)]

/-- SEXT's width codes (R133). -/
theorem sextW_eq {code w : Nat} (h : (code, w) ∈ [(0, 8), (1, 16), (2, 32)]) (x : Word) :
    sextW (BitVec.ofNat 6 code) x = (x.setWidth w).signExtend 64 := by
  simp only [List.mem_cons, Prod.mk.injEq, List.not_mem_nil, or_false] at h
  rcases h with ⟨rfl, rfl⟩ | ⟨rfl, rfl⟩ | ⟨rfl, rfl⟩ <;> rw [BitVec.setWidth_eq_extractLsb' (by decide)] <;> rfl

/-- ZEXT's width codes (R133). -/
theorem zextW_eq {code w : Nat} (h : (code, w) ∈ [(0, 8), (1, 16), (2, 32)]) (x : Word) :
    zextW (BitVec.ofNat 6 code) x = (x.setWidth w).setWidth 64 := by
  simp only [List.mem_cons, Prod.mk.injEq, List.not_mem_nil, or_false] at h
  rcases h with ⟨rfl, rfl⟩ | ⟨rfl, rfl⟩ | ⟨rfl, rfl⟩ <;> rw [BitVec.setWidth_eq_extractLsb' (x := x) (by decide)] <;> rfl

/-! Bit counts (R133). -/

theorem eq_zero_of_bits {x : Word} (h : ∀ j, j < 64 → x.getLsbD j = false) : x = 0 :=
  BitVec.eq_of_getLsbD_eq fun i hi => by rw [h i hi]; simp

/-- The number of clear bits above the highest set one. -/
theorem leadingZeros_eq {x : Word} {n : Nat} (le : n ≤ 64) (clear : ∀ j, 64 - n ≤ j → j < 64 → x.getLsbD j = false)
    (set : n < 64 → x.getLsbD (63 - n) = true) : leadingZeros x = BitVec.ofNat 64 n := by
  rcases Nat.lt_or_eq_of_le le with lt | rfl
  · have bit : x.toNat.testBit (63 - n) = true := set lt
    have ne : x.toNat ≠ 0 := fun z => by simp [z] at bit
    have below : x.toNat < 2 ^ (63 - n + 1) := Nat.lt_pow_two_of_testBit _ fun i hi => by
      by_cases small : i < 64
      · exact clear i (by omega) small
      · exact BitVec.getLsbD_of_ge x i (by omega)
    have log : Nat.log2 x.toNat = 63 - n := (Nat.log2_eq_iff ne).mpr ⟨Nat.ge_two_pow_of_testBit bit, below⟩
    rw [leadingZeros, if_neg (fun z => ne ((toNat_eq_zero_iff x).mpr z)), log, show 63 - (63 - n) = n by omega]
  · rw [eq_zero_of_bits fun j hj => clear j (by omega) hj]; rfl

/-- A word and its negative share its lowest set bit alone. -/
theorem and_neg_eq_twoPow {x : Word} {n : Nat} (clear : ∀ j, j < n → x.getLsbD j = false) (set : x.getLsbD n = true) :
    x &&& -x = BitVec.twoPow 64 n := by
  have lt : n < 64 := BitVec.lt_of_getLsbD set
  refine BitVec.eq_of_getLsbD_eq fun i hi => ?_
  rw [BitVec.getLsbD_and, BitVec.getLsbD_neg, BitVec.getLsbD_twoPow]
  rcases Nat.lt_trichotomy i n with below | rfl | above
  · simp [clear i below, Nat.ne_of_gt below]
  · have none : ¬∃ j < i, x.getLsbD j = true := fun ⟨j, hj, bit⟩ => by simp [clear j hj] at bit
    simp [set, hi, none]
  · have some : ∃ j < i, x.getLsbD j = true := ⟨n, above, set⟩
    simp [hi, some, Nat.ne_of_lt above]

/-- The number of clear bits below the lowest set one. -/
theorem trailingZeros_eq {x : Word} {n : Nat} (le : n ≤ 64) (clear : ∀ j, j < n → x.getLsbD j = false)
    (set : n < 64 → x.getLsbD n = true) : trailingZeros x = BitVec.ofNat 64 n := by
  rcases Nat.lt_or_eq_of_le le with lt | rfl
  · have ne : x ≠ 0 := fun z => by have bit := set lt; simp [z] at bit
    rw [trailingZeros, if_neg ne, and_neg_eq_twoPow clear (set lt), BitVec.toNat_twoPow,
      Nat.mod_eq_of_lt (Nat.pow_lt_pow_right (by decide) lt), Nat.log2_two_pow]
  · rw [eq_zero_of_bits clear]; rfl

/-- The count of one bits is the number of set positions. -/
theorem popc_eq_length (n x : Nat) : popc n x = ((List.range n).filter x.testBit).length := by
  induction n generalizing x with
  | zero => rfl
  | succ n ih =>
    have shift : x.testBit ∘ Nat.succ = (x / 2).testBit := funext fun i => Nat.testBit_succ x i
    rw [popc, ih, List.range_succ_eq_map, List.filter_cons, List.filter_map, shift, Nat.testBit_zero]
    rcases Nat.mod_two_eq_zero_or_one x with even | odd
    · simp [even]
    · simp [odd, Nat.add_comm]

theorem popc_word (x : Word) : BitVec.ofNat 64 (popc 64 x.toNat) = BitVec.ofNat 64 ((List.range 64).filter x.getLsbD).length := by
  rw [popc_eq_length]; rfl

/-! The instructions (R133). -/

section
variable {f : K3} {s : State} {i : Instr} {v : Word}

theorem intOp_writes {g : Word → Word → Word} (ready : s.kReady [f.d, f.a, f.b] [f.a, f.b] [f.d]) (o : Out) (run : exec i s = o)
    (form : o = intOp f s g) (value : g (s.me.readW f.a) (s.me.readW f.b) = v) : WritesInt i s 4 f.d v :=
  writesInt_of_exec (by rw [run, form, intOp, guardK_ready ready, ← value]; rfl)

theorem intOp1_writes {g : Word → Word} (ready : s.kReady [f.d, f.a] [f.a] [f.d]) (o : Out) (run : exec i s = o) (form : o = intOp1 f s g)
    (value : g (s.me.readW f.a) = v) : WritesInt i s 4 f.d v :=
  writesInt_of_exec (by rw [run, form, intOp1, guardK_ready ready, ← value]; rfl)

end

/-- Settles O7: each instruction is one of two forms, and its result the spec's. -/
theorem integerInstructions : Obligations.IntegerInstructions := by
  intro f s x y
  refine ⟨fun ready => ?_, fun ready => ?_⟩
  · have writes {i : Instr} {g : Word → Word → Word} {v : Word} (o : Out) : exec i s = o → o = intOp f s g → g x y = v → WritesInt i s 4 f.d v :=
      intOp_writes ready o
    refine ⟨writes (execAdd f s) rfl rfl rfl, writes (execSub f s) rfl rfl rfl, writes (execMul f s) rfl rfl ?mul,
      writes (execMulh f s) rfl rfl ?mulh, writes (execMulhu f s) rfl rfl ?mulhu, writes (execDiv f s) rfl rfl ?div,
      writes (execDivu f s) rfl rfl ?divu, writes (execRem f s) rfl rfl ?rem, writes (execRemu f s) rfl rfl ?remu,
      writes (execAndR f s) rfl rfl rfl, writes (execOrR f s) rfl rfl rfl, writes (execXorR f s) rfl rfl rfl,
      writes (execAndn f s) rfl rfl rfl, writes (execOrn f s) rfl rfl rfl, writes (execShl f s) rfl rfl ?shl,
      writes (execShr f s) rfl rfl ?shr, writes (execSra f s) rfl rfl ?sra, writes (execRor f s) rfl rfl rfl,
      writes (execMinR f s) rfl rfl ?min, writes (execMaxR f s) rfl rfl ?max, writes (execMinu f s) rfl rfl ?minu,
      writes (execMaxu f s) rfl rfl ?maxu, writes (execSlt f s) rfl rfl ?slt, writes (execSltu f s) rfl rfl ?sltu,
      writes (execSeq f s) rfl rfl ?seq, writes (execSne f s) rfl rfl ?sne, writes (execAddw f s) rfl rfl ?addw,
      writes (execSubw f s) rfl rfl ?subw, writes (execMulw f s) rfl rfl ?mulw⟩
    case mul => exact mul_eq_ofNat x y
    case mulh => exact mulHigh_signed x y
    case mulhu => exact mulHigh_unsigned x y
    case div => exact divQ_eq x y
    case divu => exact divUQ_eq x y
    case rem => exact divR_eq x y
    case remu => exact divUR_eq x y
    case shl => exact shl_eq_ofNat x y
    case shr => exact shr_eq_ofNat x y
    case sra => exact sra_eq_ofInt x y
    case min => exact min_eq_ofInt x y
    case max => exact max_eq_ofInt x y
    case minu => exact min_eq_ofNat x y
    case maxu => exact max_eq_ofNat x y
    case slt | sltu => exact bool64_decide _
    case seq => exact bool64_beq x y
    case sne => exact bool64_bne x y
    case addw | subw | mulw => exact sext32_eq _
  · have writes {i : Instr} {g : Word → Word} {v : Word} (o : Out) : exec i s = o → o = intOp1 f s g → g x = v → WritesInt i s 4 f.d v :=
      intOp1_writes ready o
    refine ⟨fun n le clear set => writes (execClz f s) rfl rfl ?clz, fun n le clear set => writes (execCtz f s) rfl rfl ?ctz,
      writes (execPopc f s) rfl rfl ?popc, fun code w row hb => ⟨writes (execSext f s) rfl rfl ?sext, writes (execZext f s) rfl rfl ?zext⟩⟩
    case clz => exact leadingZeros_eq le clear set
    case ctz => exact trailingZeros_eq le clear set
    case popc => exact popc_word x
    case sext => rw [hb]; exact sextW_eq row x
    case zext => rw [hb]; exact zextW_eq row x

end Sys2Proof.Machine
end

section
/-!
O6, what reset leaves (04 R117, 11 R269, 12 R295, 17 R411), and O18, the register numbers out of range (03 R68, R86).
-/

namespace Sys2Proof.Machine

/-! Reset. -/

theorem State.tile_reset (k : Nat) : State.reset.tile k = Tile.init := rfl

/-- Every context of a tile has its registers at their reset values; context 0 is the monitor's. -/
theorem Tile.ctx_init (n : Nat) : ∃ r, Tile.init.ctx n = { Ctx.init with role := r } := by
  by_cases zero : 0 = n
  · exact ⟨.monitor, by subst zero; rfl⟩
  · exact ⟨.primary, congrArg (Option.getD · Ctx.init) (if_neg zero)⟩

/-- Settles O6: reset lists no tile, no register and no byte, so each reads as its default. -/
theorem resetState : Obligations.ResetState := by
  refine ⟨State.reset_gmem_wf, rfl, rfl, rfl, rfl, fun _ => Nat.zero_div _, fun k n => ?_⟩
  obtain ⟨role, ctx⟩ := Tile.ctx_init n
  have readK (r : BitVec 6) : ({ Ctx.init with role := role } : Ctx).readK r = KReg.zero := ite_self _
  rw [State.tile_reset, ctx]
  have fpc : fpcRm 0x20 = 1 ∧ fpcFtz 0x20 = false ∧ fpcDaz 0x20 = false ∧ fpcFlags 0x20 = 0 := by decide
  obtain ⟨rm, ftz, daz, flags⟩ := fpc
  exact ⟨rm, ftz, daz, flags, rfl, readK 0, fun r => by rw [readK]; exact ⟨rfl, by decide⟩, rfl⟩

/-! Register numbers. -/

/-- An instruction checks the k fields of a list, in order, before anything else (R85 step 7). -/
def GuardsFirst (i : Instr) (s : State) (fields : List (BitVec 6)) : Prop :=
  ∃ reads writes rest, exec i s = finishTry s (guardK s fields reads writes >>= rest)

section
variable {i : Instr} {s : State} {fields : List (BitVec 6)}

theorem GuardsFirst.of {reads writes : List (BitVec 6)} {rest : Unit → Try State} (o : Out) (run : exec i s = o)
    (form : o = finishTry s (guardK s fields reads writes >>= rest)) : GuardsFirst i s fields :=
  ⟨reads, writes, rest, run.trans form⟩

theorem Ctx.kOk_eq_false_iff (c : Ctx) (r : BitVec 6) : c.kOk r = false ↔ r ≠ 0 ∧ c.regs ≤ r.toNat := by
  simp [Ctx.kOk]

theorem rangeCheck_bad {c : Ctx} {r : BitVec 6} (first : fields.find? (fun r => !c.kOk r) = some r) :
    rangeCheck c fields = .error (.trap codeRegRange (r.setWidth 64)) := by
  rw [rangeCheck, first]

/-- The first field out of range is the TRAPVAL of REG_RANGE (R86). -/
theorem GuardsFirst.traps (h : GuardsFirst i s fields) {r : BitVec 6} (first : fields.find? (fun r => !s.me.kOk r) = some r) :
    Traps i s 0x02 (BitVec.ofNat 64 r.toNat) := by
  obtain ⟨reads, writes, rest, run⟩ := h
  rw [Traps, run, guardK, rangeCheck_bad first, BitVec.ofNat_toNat]
  rfl

end

section
variable {i : Instr} {s : State} {a b d : BitVec 6}

/-- What O18 says of the fields of a list. -/
theorem GuardsFirst.two (h : GuardsFirst i s [d, a]) :
    ((d ≠ 0 ∧ s.me.regs ≤ d.toNat) → Traps i s 0x02 (BitVec.ofNat 64 d.toNat)) ∧
    (¬(d ≠ 0 ∧ s.me.regs ≤ d.toNat) → (a ≠ 0 ∧ s.me.regs ≤ a.toNat) → Traps i s 0x02 (BitVec.ofNat 64 a.toNat)) := by
  simp only [← Ctx.kOk_eq_false_iff]
  exact ⟨fun bad => h.traps (by simp [bad]), fun ok bad => h.traps (by simp_all)⟩

theorem GuardsFirst.three (h : GuardsFirst i s [d, a, b]) :
    ((d ≠ 0 ∧ s.me.regs ≤ d.toNat) → Traps i s 0x02 (BitVec.ofNat 64 d.toNat)) ∧
    (¬(d ≠ 0 ∧ s.me.regs ≤ d.toNat) → (a ≠ 0 ∧ s.me.regs ≤ a.toNat) → Traps i s 0x02 (BitVec.ofNat 64 a.toNat)) ∧
    (¬(d ≠ 0 ∧ s.me.regs ≤ d.toNat) → ¬(a ≠ 0 ∧ s.me.regs ≤ a.toNat) → (b ≠ 0 ∧ s.me.regs ≤ b.toNat) →
      Traps i s 0x02 (BitVec.ofNat 64 b.toNat)) := by
  simp only [← Ctx.kOk_eq_false_iff]
  exact ⟨fun bad => h.traps (by simp [bad]), fun ok bad => h.traps (by simp_all), fun ok ok' bad => h.traps (by simp_all)⟩

end

theorem guardsFirst_dab (f : K3) (s : State) : ∀ i ∈ ([.add f, .sub f, .mul f, .mulh f, .mulhu f, .div f, .divu f, .rem f, .remu f,
    .andR f, .orR f, .xorR f, .andn f, .orn f, .shl f, .shr f, .sra f, .ror f, .minR f, .maxR f, .minu f, .maxu f, .slt f, .sltu f, .seq f,
    .sne f, .addw f, .subw f, .mulw f, .cinc f, .csetb f, .csetbx f, .candp f, .cseal f, .cunseal f, .csub f, .ceq f] : List Instr),
      GuardsFirst i s [f.d, f.a, f.b] := by
  simp only [List.forall_mem_cons, List.not_mem_nil, false_imp_iff, implies_true, and_true]
  exact ⟨.of (execAdd f s) rfl rfl, .of (execSub f s) rfl rfl, .of (execMul f s) rfl rfl, .of (execMulh f s) rfl rfl,
    .of (execMulhu f s) rfl rfl, .of (execDiv f s) rfl rfl, .of (execDivu f s) rfl rfl, .of (execRem f s) rfl rfl,
    .of (execRemu f s) rfl rfl, .of (execAndR f s) rfl rfl, .of (execOrR f s) rfl rfl, .of (execXorR f s) rfl rfl,
    .of (execAndn f s) rfl rfl, .of (execOrn f s) rfl rfl, .of (execShl f s) rfl rfl, .of (execShr f s) rfl rfl, .of (execSra f s) rfl rfl,
    .of (execRor f s) rfl rfl, .of (execMinR f s) rfl rfl, .of (execMaxR f s) rfl rfl, .of (execMinu f s) rfl rfl,
    .of (execMaxu f s) rfl rfl, .of (execSlt f s) rfl rfl, .of (execSltu f s) rfl rfl, .of (execSeq f s) rfl rfl,
    .of (execSne f s) rfl rfl, .of (execAddw f s) rfl rfl, .of (execSubw f s) rfl rfl, .of (execMulw f s) rfl rfl,
    .of (execCinc f s) rfl rfl, .of (execCsetb f s) rfl rfl, .of (execCsetbx f s) rfl rfl, .of (execCandp f s) rfl rfl,
    .of (execCseal f s) rfl rfl, .of (execCunseal f s) rfl rfl, .of (execCsub f s) rfl rfl, .of (execCeq f s) rfl rfl⟩

theorem guardsFirst_da (f : K3) (s : State) : ∀ i ∈ ([.clz f, .ctz f, .popc f, .sext f, .zext f, .cgeta f, .cgetb f, .cgett f, .cgetp f,
    .cgetty f, .ctag f, .cclr f, .cmov f] : List Instr), GuardsFirst i s [f.d, f.a] := by
  simp only [List.forall_mem_cons, List.not_mem_nil, false_imp_iff, implies_true, and_true]
  exact ⟨.of (execClz f s) rfl rfl, .of (execCtz f s) rfl rfl, .of (execPopc f s) rfl rfl, .of (execSext f s) rfl rfl,
    .of (execZext f s) rfl rfl, .of (execCgeta f s) rfl rfl, .of (execCgetb f s) rfl rfl, .of (execCgett f s) rfl rfl,
    .of (execCgetp f s) rfl rfl, .of (execCgetty f s) rfl rfl, .of (execCtag f s) rfl rfl, .of (execCclr f s) rfl rfl,
    .of (execCmov f s) rfl rfl⟩

theorem guardsFirst_imm (f : KI) (s : State) : ∀ i ∈ ([.addi f, .andi f, .ori f, .xori f, .shli f, .shri f, .srai f, .rori f, .slti f,
    .sltui f, .muli f, .ldb f, .ldbu f, .ldh f, .ldhu f, .ldw f, .ldwu f, .ldd f, .ldc f, .cinci f, .csetbi f, .jalr f] : List Instr),
      GuardsFirst i s [f.d, f.a] := by
  simp only [List.forall_mem_cons, List.not_mem_nil, false_imp_iff, implies_true, and_true]
  exact ⟨.of (execAddi f s) rfl rfl, .of (execAndi f s) rfl rfl, .of (execOri f s) rfl rfl, .of (execXori f s) rfl rfl,
    .of (execShli f s) rfl rfl, .of (execShri f s) rfl rfl, .of (execSrai f s) rfl rfl, .of (execRori f s) rfl rfl,
    .of (execSlti f s) rfl rfl, .of (execSltui f s) rfl rfl, .of (execMuli f s) rfl rfl, .of (execLdb f s) rfl rfl,
    .of (execLdbu f s) rfl rfl, .of (execLdh f s) rfl rfl, .of (execLdhu f s) rfl rfl, .of (execLdw f s) rfl rfl,
    .of (execLdwu f s) rfl rfl, .of (execLdd f s) rfl rfl, .of (execLdc f s) rfl rfl, .of (execCinci f s) rfl rfl,
    .of (execCsetbi f s) rfl rfl, .of (execJalr f s) rfl rfl⟩

theorem guardsFirst_store (f : KS) (s : State) :
    ∀ i ∈ ([.stb f, .sth f, .stw f, .std f, .stc f] : List Instr), GuardsFirst i s [f.value, f.base] := by
  simp only [List.forall_mem_cons, List.not_mem_nil, false_imp_iff, implies_true, and_true]
  exact ⟨.of (execStb f s) rfl rfl, .of (execSth f s) rfl rfl, .of (execStw f s) rfl rfl, .of (execStd f s) rfl rfl,
    .of (execStc f s) rfl rfl⟩

/-- Settles O18: each of these instructions checks its fields first, in the order of R86. -/
theorem fieldOutOfRange : Obligations.FieldOutOfRange := fun s =>
  ⟨fun f i hi => (guardsFirst_dab f s i hi).three, fun f i hi => (guardsFirst_da f s i hi).two, fun f i hi => (guardsFirst_imm f s i hi).two,
    fun f i hi => (guardsFirst_store f s i hi).two⟩

end Sys2Proof.Machine
end

section
/-!
Traps as they are taken (15 R364 to R366), and the two events of the fetch (O30: 03 R86, R87, 06 R161, 14 R344).
-/

namespace Sys2Proof.Machine

/-! A context whose vector queue has drained (R161, R174). -/

theorem Tile.slotCtx_ctx (t : Tile) {n : Nat} (hn : n ≤ 10) : t.slotCtx n = t.ctx n := if_pos (by omega)

theorem Tile.setSlotCtx_ctx (t : Tile) {n : Nat} (hn : n ≤ 10) (c : Ctx) : t.setSlotCtx n c = t.setCtx n c := if_pos (by omega)

/-- No vector instruction is queued, and no failed load waits to be named. -/
structure Ctx.Drained (c : Ctx) : Prop where
  queue : c.vq = []
  lates : ∀ l ∈ c.lates, l.vd = none
  wins : ∀ w ∈ c.wins, w.cls = .v → w.arrived = true → w.fail = 0

theorem Ctx.settled.drained {c : Ctx} (h : c.settled) : c.Drained := ⟨h.1, fun l hl => (h.2.1 l hl).1, h.2.2⟩

theorem Ctx.settled.notDue {c : Ctx} (h : c.settled) : ∀ l ∈ c.lates, l.due = false := fun l hl => (h.2.1 l hl).2

/-- The drain of a context that has drained changes nothing. -/
theorem vecDrain_drained {s : State} {k n : Nat} (hn : n ≤ 10) (h : ((s.tile k).ctx n).Drained) : vecDrain s k n = s := by
  have loads : ((s.tile k).ctx n).lates.any (·.vd.isSome) = false := List.any_eq_false.mpr fun l hl => by simp [h.lates l hl]
  have wins : ((s.tile k).ctx n).wins.any Win.badLoad = false := List.any_eq_false.mpr fun w hw bad => by
    obtain ⟨⟨cls, arrived⟩, fail⟩ : (w.cls = .v ∧ w.arrived = true) ∧ w.fail ≠ 0 := by simpa [Win.badLoad] using bad
    exact fail (h.wins w hw cls arrived)
  simp [vecDrain, Tile.slotCtx_ctx _ hn, h.queue, vecFinishN, loads, wins]

theorem takeLate_none {s : State} {k n : Nat} (h : ∀ l ∈ ((s.tile k).ctx n).lates, l.due = false) : takeLate s k n = none := by
  have none : ((s.tile k).ctx n).lates.find? LateTrap.due = none := List.find?_eq_none.mpr fun l hl => by simp [h l hl]
  rw [takeLate, none]

/-! A trap is taken (R364 to R366). -/

theorem causeWord_eq_ofNat (code : Byte) (late : Bool) : causeWord code late = BitVec.ofNat 64 ((if late then 0x100 else 0) + code.toNat) := by
  cases late with
  | false => exact (BitVec.or_zero ..).trans (by simp [BitVec.ofNat_toNat])
  | true =>
    refine BitVec.eq_of_toNat_eq ?_
    have small : code.toNat < 2 ^ 8 := code.isLt
    rw [causeWord, if_pos rfl, if_pos rfl, BitVec.or_comm, BitVec.toNat_or, BitVec.toNat_setWidth, BitVec.toNat_ofNat]
    have low : code.toNat % 2 ^ 64 = code.toNat := Nat.mod_eq_of_lt (by omega)
    have or : 2 ^ 8 * 1 + code.toNat = 2 ^ 8 * 1 ||| code.toNat := Nat.two_pow_add_eq_or_of_lt small 1
    rw [low, show (0x100 : Word).toNat ||| code.toNat = 2 ^ 8 * 1 ||| code.toNat from rfl, ← or]
    omega

theorem Tile.pend_framed_ne_zero {t : Tile} {n : Nat} (hi : n ≤ 10) : t.pend ||| (1#11 <<< n) ≠ 0 := fun e => by
  have bit : (t.pend ||| (1#11 <<< n)).getLsbD n = true := by
    rw [BitVec.getLsbD_or, BitVec.getLsbD_shiftLeft]
    simp [show n < 11 by omega]
  rw [e] at bit
  simp at bit

/-- The tile of a helper that has trapped, before context 0 is entered (R365). -/
def Tile.withFrame (t : Tile) (n : Nat) (cause val : Word) (pc : Addr) : Tile :=
  { t.setCtx n ((t.ctx n).framed cause val pc) with pend := t.pend ||| (1#11 <<< n) }

/-- A helper's trap of any cause, late or not: its frame, its PEND bit, and context 0's entry (R365). -/
theorem helperTrap_trapped_cause (s : State) (k : Nat) {n : Nat} (code : Byte) (val : Word) (pc : Addr) (late : Bool) (lo : n ≠ 0) (hi : n ≤ 10) :
    HelperTrapped s (helperTrap s k n code val pc late) k n (causeWord code late) val pc := by
  have trap : helperTrap s k n code val pc late =
      (s.setTile k ((s.tile k).withFrame n (causeWord code late) val pc).enterMonitor).noteTrap k n code (pc.setWidth 64) val := by
    rw [Tile.withFrame, Ctx.framed, BitVec.ofNat_toNat]; rfl
  generalize ht1 : (s.tile k).withFrame n (causeWord code late) val pc = t1 at trap
  have tile : (helperTrap s k n code val pc late).tile k = t1.enterMonitor := by
    rw [trap, State.noteTrap_eq]
    exact State.tile_setTile _ _ _
  have mine : t1.ctx n = ((s.tile k).ctx n).framed (causeWord code late) val pc := by rw [← ht1]; exact Tile.ctx_setCtx ..
  have others : ∀ q, q ≠ n → t1.ctx q = (s.tile k).ctx q := fun q hq => by rw [← ht1]; exact Tile.ctx_setCtx_other _ _ hq.symm
  have rest : t1 = { s.tile k with ctxs := t1.ctxs, pend := t1.pend } := by rw [← ht1]; rfl
  have nest : t1.nest = (s.tile k).nest := by rw [rest]
  have pend : t1.pend = (s.tile k).pend ||| (1#11 <<< n) := by rw [← ht1]; rfl
  constructor
  case frame => rw [tile, Tile.enterMonitor_ctx_other _ lo, mine]
  case pend => rw [tile, Tile.enterMonitor_eq, pend]
  case nested =>
    intro set
    rw [tile, Tile.enterMonitor_nested (nest.trans set), others 0 lo.symm]
    exact ⟨nest.trans set, by rw [rest], rfl⟩
  case entered =>
    intro clear
    rw [tile, ← others 0 lo.symm]
    obtain ⟨low, bit, before, entered⟩ := Tile.enterMonitor_entered (nest.trans clear) (pend ▸ Tile.pend_framed_ne_zero hi)
    exact ⟨low, bit, before, { entered with entry := by rw [entered.entry, rest] }⟩
  case ctxs =>
    intro q hn h0
    rw [tile, Tile.enterMonitor_ctx_other _ h0, others q hn]
  case tile => rw [tile, Tile.enterMonitor_eq, rest]
  case tiles =>
    intro q hq
    rw [trap, State.noteTrap_eq]
    exact State.tile_setTile_other _ _ hq.symm
  case others => rw [trap, State.noteTrap_eq]; rfl

theorem State.tile_retireDue (s : State) (l : List RetireTarget) (k : Nat) : ({ s with retireDue := l } : State).tile k = s.tile k := rfl

/-- A trap of context 0: its handler is entered, or with NEST 1 the tile processor stops (R366). -/
theorem monitorTrap_trapped (s : State) (k : Nat) (code : Byte) (val : Word) (pc : Addr) (late : Bool) :
    MonitorTrapped s (monitorTrap s k code val pc late) k (causeWord code late) val pc := by
  constructor
  case entered =>
    intro nest
    rw [monitorTrap, nest, if_neg Bool.false_ne_true, State.tile_setTile]
    refine ⟨?_, rfl, fun q hq => Tile.ctx_setCtx_other _ _ hq.symm, rfl⟩
    rw [show ∀ (c : Ctx) (b : Bool) (f : Nat), ({ (s.tile k).setCtx 0 c with nest := b, fsel := f } : Tile).ctx 0 = c from
      fun c _ _ => Tile.ctx_setCtx _ 0 c]
    exact { nest := rfl, fsel := rfl, entry := by rw [Ctx.pc_setPc, ← BitVec.ofNat_toNat, toNat_append_zeros]; rfl, tag := rfl
            rest := KReg.withAddr_rest _ _, others := by rw [BitVec.ofNat_toNat]; rfl }
  case double =>
    intro nest
    rw [show monitorTrap s k code val pc late = _ from if_pos nest]
    exact ⟨(State.tile_retireDue ..).trans (State.tile_setTile ..), rfl, _, rfl, _, rfl⟩
  case tiles =>
    intro q hq
    unfold monitorTrap
    dsimp only
    split
    · exact State.tile_setTile_other _ _ hq.symm
    · exact State.tile_setTile_other _ _ hq.symm

/-- A trap that is taken, of a helper or of context 0. -/
theorem trapInto_trapped (s : State) (k : Nat) {n : Nat} (hn : n ≤ 10) (code : Byte) (val : Word) (pc : Addr) (late : Bool) :
    (n ≠ 0 → HelperTrapped s (trapInto s k n code val pc late) k n (causeWord code late) val pc) ∧
    (n = 0 → MonitorTrapped s (trapInto s k n code val pc late) k (causeWord code late) val pc) := by
  refine ⟨fun helper => ?_, fun zero => ?_⟩
  · rw [trapInto, if_neg helper]
    exact helperTrap_trapped_cause s k code val pc late helper hn
  · rw [trapInto, if_pos zero]
    exact monitorTrap_trapped s k code val pc late

/-- Once the drain has left the context settled, the trap is the one raised (R161, R365). -/
theorem raiseTrap_of_drain {s d : State} (drain : vecDrain s s.cur.tile s.cur.ctx = d) (settled : d.settled) (cur : d.cur = s.cur) (code : Byte)
    (val : Word) (pc : Addr) : Trapped d (raiseTrap s code val pc) code val pc := by
  obtain ⟨hn, quiet⟩ := settled
  have raise : raiseTrap s code val pc = trapInto d d.cur.tile d.cur.ctx code val pc false := by
    rw [raiseTrap, drain, ← cur, takeLate_none quiet.notDue]
  have cause : causeWord code false = BitVec.ofNat 64 code.toNat := by rw [causeWord_eq_ofNat]; simp
  obtain ⟨helper, monitor⟩ := trapInto_trapped d d.cur.tile hn code val pc false
  rw [raise]
  exact ⟨cause ▸ helper, cause ▸ monitor⟩

theorem vecDrain_settled {s : State} (settled : s.settled) : vecDrain s s.cur.tile s.cur.ctx = s := vecDrain_drained settled.1 settled.2.drained

theorem raiseTrap_settled {s : State} (settled : s.settled) (code : Byte) (val : Word) (pc : Addr) :
    Trapped s (raiseTrap s code val pc) code val pc :=
  raiseTrap_of_drain (vecDrain_settled settled) settled rfl code val pc

/-! The events of the fetch (R86, R344). -/

theorem exec_unusedEncoding (w0 : BitVec 32) (w1 : Option (BitVec 32)) (s : State) : exec (.unusedEncoding w0 w1) s =
    .next (raiseTrap s 0x01 (BitVec.ofNat 64 ((w1.getD 0).toNat * 2 ^ 32 + w0.toNat)) s.me.pc) := by
  have words : ((w1.getD 0) ++ w0 : Word) = BitVec.ofNat 64 ((w1.getD 0).toNat * 2 ^ 32 + w0.toNat) := by
    rw [← toNat_append_eq, ofNat_toNat_word]
  rw [← words]; rfl

theorem exec_fetchFault {code : Nat} (plain : code ≠ 0x0D) (p : Addr) (w : Option (BitVec 32)) (s : State) :
    exec (.fetchFault code p w) s = .next (raiseTrap s (BitVec.ofNat 8 code) (BitVec.ofNat 64 p.toNat) s.me.pc) := by
  have run : exec (.fetchFault code p w) s = execFetchFault code p w s := rfl
  rw [run, execFetchFault, if_neg (show code ≠ codeEcc.toNat from plain), BitVec.ofNat_toNat]; rfl

/-- An uncorrectable word is marked as read before its fetch traps (R381). -/
theorem exec_fetchFault_ecc (p : Addr) (w : Option (BitVec 32)) (s : State) : exec (.fetchFault 0x0D p w) s =
    let m := s.setHere (s.here.touchRead p.toNat 4)
    .next (raiseTrap m 0x0D (BitVec.ofNat 64 p.toNat) m.me.pc) := by
  have run : exec (.fetchFault 0x0D p w) s = execFetchFault 0x0D p w s := rfl
  rw [run, execFetchFault, if_pos (show 0x0D = codeEcc.toNat from rfl), BitVec.ofNat_toNat]; rfl

@[simp] theorem Tile.ctx_touchRead (t : Tile) (a n q : Nat) : (t.touchRead a n).ctx q = t.ctx q := by rw [Tile.touchRead_eq]; rfl

theorem State.me_touchRead (s : State) (a n : Nat) : (s.setHere (s.here.touchRead a n)).me = s.me := by
  rw [State.me, State.here_setHere]
  exact Tile.ctx_touchRead ..

theorem State.touchRead_sameTlm (s : State) (a n : Nat) : s.sameTlm (s.setHere (s.here.touchRead a n)) := by
  intro q b
  by_cases h : s.cur.tile = q
  · subst h
    rw [State.setHere, State.tile_setTile, Tile.touchRead_eq]; rfl
  · rw [State.setHere, State.tile_setTile_other _ _ h]

/-- Settles O30: both events raise a trap at the context's PCC, once its vector queue has drained. -/
theorem illegalAndFetchTraps : Obligations.IllegalAndFetchTraps := by
  refine ⟨fun s w0 w1 settled => ⟨_, exec_unusedEncoding w0 w1 s, raiseTrap_settled settled ..⟩,
    fun s code p w settled _ plain => ⟨_, exec_fetchFault plain p w s, raiseTrap_settled settled ..⟩, fun s p w settled => ?_,
    fun s w0 w1 d drain settled cur => ⟨_, exec_unusedEncoding w0 w1 s, raiseTrap_of_drain drain.symm settled cur ..⟩⟩
  have me := State.me_touchRead s p.toNat 4
  have settled' : (s.setHere (s.here.touchRead p.toNat 4)).settled := ⟨settled.1, me ▸ settled.2⟩
  exact ⟨s.setHere (s.here.touchRead p.toNat 4), _, exec_fetchFault_ecc p w s, by rw [me]; exact raiseTrap_settled settled' .., rfl,
    fun q => by rw [State.here_setHere, Tile.ctx_touchRead],
    State.touchRead_sameTlm s p.toNat 4, fun _ => rfl⟩

end Sys2Proof.Machine
end

section
/-!
ERET (15 R369, R371, R375; O35).
-/

namespace Sys2Proof.Machine

/-! An instruction that completes and stores nothing. -/

theorem State.complete_eq_setMe (s : State) (len : Nat) : s.complete len = s.setMe (s.complete len).me := by rw [State.me_complete, State.complete]

theorem State.here_complete (s : State) (len : Nat) : (s.complete len).here = s.here.setCtx s.cur.ctx (s.complete len).me :=
  (congrArg State.here (s.complete_eq_setMe len)).trans (State.here_setHere ..)

theorem State.onlyScalar_complete (s : State) (len : Nat) : s.me.onlyScalar (s.complete len).me := by
  rw [me_complete_eq, Ctx.advance_only, Ctx.onlyScalar]

theorem State.readK_complete (s : State) (len : Nat) (r : BitVec 6) : (s.complete len).me.readK r = s.me.readK r := by
  rw [me_complete_eq, Ctx.advance_only]; rfl

theorem State.goesOn_complete_self (s : State) (len : Nat) : GoesOn s (s.complete len) len := goesOn_complete (.refl _) len

theorem State.scalarFrame_complete (s : State) (len : Nat) : ScalarFrame s (s.complete len) [] :=
  ⟨s.complete_eq_setMe len, s.onlyScalar_complete len, fun r _ => s.readK_complete len r, s.setMe_sameTlm _, s.setMe_sameGmem _⟩

theorem passesOver_complete {i : Instr} {s : State} {len : Nat} (run : exec i s = .next (s.complete len)) : PassesOver i s len :=
  ⟨_, run, s.goesOn_complete_self len, s.scalarFrame_complete len⟩

theorem GoesOn.of_me {s t u : State} {len : Nat} (h : GoesOn s t len) (me : u.me = t.me) : GoesOn s u len := by
  obtain ⟨pcc, loop0, loop1, rep, next⟩ := h
  exact ⟨me ▸ pcc, me ▸ loop0, me ▸ loop1, me ▸ rep, me ▸ next⟩

/-- ERET with ABORT: the frame's trap is recorded, helper n is freed and the residency is asked to abort. -/
def State.eretAborted (s : State) (n : Nat) : State :=
  let c := s.here.ctx n
  let s1 := s.recordTrap s.cur.tile n (c.cause.setWidth 8) c.trappc c.trapval
  let s2 := s1.setHere (s1.here.eretAbort n)
  s2.updRes (s2.handleOf s.cur.tile) fun r => { r with abortAsked := true }

/-- ERET without ABORT: helper n runs again, or halts at once where a snapshot holds it. -/
def State.eretResumed (s : State) (n : Nat) : State := haltHeld (s.setHere (s.here.eretResume n)) s.cur.tile n

section
variable {f : K3} {s : State}

theorem exec_eret_eq (f : K3) (s : State) : exec (.eret f) s = execEret f s := rfl

theorem extractLsb'_5_59_eq_zero_iff (v : Word) : v.extractLsb' 5 59 = 0 ↔ v.toNat < 32 := by
  have zero : (0 : BitVec 59).toNat = 0 := rfl
  rw [← BitVec.toNat_inj, BitVec.extractLsb'_toNat, Nat.shiftRight_eq_div_pow, zero]
  omega

/-- What ERET does in context 0, its register ready and no REP pass under way. -/
theorem exec_eret (ready : s.kReady [f.a] [f.a] []) (zero : s.cur.ctx = 0) (rep : s.me.inRep = false) {v : Word} (hv : s.me.readW f.a = v)
    {n : Nat} (hn : v.toNat % 16 = n) : exec (.eret f) s = .next (
      if 32 ≤ v.toNat ∨ 10 < n ∨ (n ≠ 0 ∧ s.here.pend.getLsbD n = false) then s.complete 4
      else if n = 0 then eretZero s
      else if v.getLsbD 4 then (s.complete 4).eretAborted n
      else (s.complete 4).eretResumed n) := by
  have low : (v.extractLsb' 0 4).toNat = n := by rw [← hn, BitVec.extractLsb'_toNat]; simp
  have high : v.extractLsb' 5 59 ≠ 0 ↔ 32 ≤ v.toNat := by rw [ne_eq, extractLsb'_5_59_eq_zero_iff]; omega
  have monitor : decide (s.cur.ctx ≠ 0) = false := decide_eq_false (not_not.mpr zero)
  simp only [exec_eret_eq, execEret, guardK_ready ready, monitor, trapIf_false, notInRep_ok _ rep, hv, low, high, Bind.bind, Except.bind]
  by_cases passes : 32 ≤ v.toNat ∨ 10 < n ∨ (n ≠ 0 ∧ s.here.pend.getLsbD n = false)
  · rw [if_pos passes, if_pos passes]; rfl
  · rw [if_neg passes, if_neg passes]
    by_cases self : n = 0
    · rw [if_pos self, if_pos self]; rfl
    · rw [if_neg self, if_neg self]
      cases v.getLsbD 4 <;> rfl

end

/-! Context 0 goes back (n = 0). -/

/-- Context 0 as it goes back to frame 0's TRAPPC. -/
def Ctx.returned (c : Ctx) : Ctx := { c.countWins with stalled := false }.setPc (c.trappc.setWidth 48)

/-- The tile of context 0 as it goes back, before a frame that is pending has it entered again. -/
def State.backTile (s : State) : Tile := { s.here.setCtx 0 s.me.returned with nest := false }

section
variable {s : State}

theorem State.ctx_backTile (s : State) : s.backTile.ctx 0 = s.me.returned := Tile.ctx_setCtx ..

theorem eretZero_eq (zero : s.cur.ctx = 0) : eretZero s = s.setHere s.backTile.enterMonitor := by
  have me : s.here.ctx 0 = s.me := congrArg s.here.ctx zero.symm
  rw [eretZero, State.setMe, State.setHere_setHere, State.here_setHere, Tile.eretSelf, zero, Tile.ctx_setCtx, Tile.setCtx_setCtx]
  rfl

theorem here_eretZero (zero : s.cur.ctx = 0) : (eretZero s).here = s.backTile.enterMonitor := by
  rw [eretZero_eq zero, State.here_setHere]

theorem me_eretZero (zero : s.cur.ctx = 0) : (eretZero s).me = s.backTile.enterMonitor.ctx 0 := by
  rw [eretZero_eq zero, State.me, State.here_setHere]
  exact congrArg _ zero

theorem Ctx.pc_returned (c : Ctx) : c.returned.pc = c.trappc.setWidth 48 := Ctx.pc_setPc ..

theorem Tile.enterMonitor_calm {t : Tile} (pend : t.pend = 0) : t.enterMonitor = t := by
  rw [Tile.enterMonitor, pend]
  exact if_pos (Bool.or_true _)

end

/-! A helper resumes or is freed (n ≥ 1). -/

/-- Context n in place of the helper whose PEND bit clears. -/
def Tile.unframed (t : Tile) (n : Nat) (c : Ctx) : Tile := { t.setCtx n c with pend := t.pend &&& ~~~(1#11 <<< n) }

/-- A context that runs again from its frame, or stands halted at its PC while a pre-emption halt is in force. -/
def Ctx.resumed (c : Ctx) (pre : Bool) : Ctx :=
  let c0 := { c with mode := .running, stalled := false }
  if pre then { c0 with halted := true, cause := 0x18, trappc := BitVec.ofNat 64 c.pc.toNat, trapval := 0 } else { c0 with halted := false }

/-- A context that halts at its boundary (R371). -/
def Ctx.haltedAt (c : Ctx) : Ctx :=
  { c with halted := true, stalled := false, startAt := none, cause := 0x18, trappc := BitVec.ofNat 64 c.pc.toNat, trapval := 0 }

theorem Tile.eretResume_eq (t : Tile) (n : Nat) : t.eretResume n = t.unframed n ((t.ctx n).resumed t.preReq) := by
  rw [Tile.eretResume, Tile.unframed, Ctx.resumed, BitVec.ofNat_toNat]; rfl

theorem Tile.ctx_unframed (t : Tile) (n : Nat) (c : Ctx) : (t.unframed n c).ctx n = c := Tile.ctx_setCtx ..

theorem Tile.ctx_unframed_other (t : Tile) {n q : Nat} (c : Ctx) (hq : q ≠ n) : (t.unframed n c).ctx q = t.ctx q := Tile.ctx_setCtx_other _ _ hq.symm

theorem Tile.setCtx_unframed (t : Tile) (n : Nat) (c d : Ctx) : (t.unframed n c).setCtx n d = t.unframed n d :=
  congrArg (fun u : Tile => ({ u with pend := t.pend &&& ~~~(1#11 <<< n) } : Tile)) (Tile.setCtx_setCtx t n c d)

theorem haltHelper_settled {s : State} {k n : Nat} (hn : n ≤ 10) (running : ((s.tile k).ctx n).mode = .running)
    (awake : ((s.tile k).ctx n).halted = false) (settled : ((s.tile k).ctx n).settled) :
    haltHelper s k n = s.setTile k ((s.tile k).setCtx n ((s.tile k).ctx n).haltedAt) := by
  have go : haltHelper s k n = _ := if_pos ⟨running, awake⟩
  rw [go, vecDrain_drained hn settled.drained, takeLate_none settled.notDue, Ctx.haltedAt, BitVec.ofNat_toNat]; rfl

theorem haltHelper_halted {s : State} {k n : Nat} (halted : ((s.tile k).ctx n).halted = true) : haltHelper s k n = s :=
  if_neg fun ⟨_, awake⟩ => Bool.noConfusion (awake.symm.trans halted)

section
variable {s : State} {n : Nat}

/-- What a helper is after ERET without ABORT (R369, R371, R375). -/
def State.resumedCtx (s : State) (n : Nat) : Ctx :=
  let c := (s.here.ctx n).resumed s.here.preReq
  if s.here.preReq = false ∧ s.heldCtx s.cur.tile (s.here.ctx n) = true then c.haltedAt else c

theorem State.tile_setHere (s : State) (t : Tile) : (s.setHere t).tile s.cur.tile = t := State.tile_setTile ..

/-- Who works for a held actor depends on the tiles' slots and sweeps alone. -/
theorem heldCtx_setHere (s : State) {x : Tile} (actor : ∀ i, x.actor i = s.here.actor i) (sweeps : x.sweepSlots = s.here.sweepSlots) (c : Ctx) :
    (s.setHere x).heldCtx s.cur.tile c = s.heldCtx s.cur.tile c := by
  have actors : ∀ k i, ((s.setHere x).tile k).actor i = (s.tile k).actor i := fun k i => by
    by_cases mine : s.cur.tile = k
    · subst mine
      rw [State.tile_setHere]
      exact actor i
    · exact congrArg (Tile.actor · i) (State.tile_setTile_other s _ mine)
  have slots : ((s.setHere x).tile s.cur.tile).sweepSlots = s.here.sweepSlots := by rw [State.tile_setHere, sweeps]
  simp only [State.heldCtx, actors, slots]
  rfl

theorem Ctx.resumed_eq (c : Ctx) (pre : Bool) : c.resumed pre = { c with
    mode := .running, stalled := false, halted := pre
    cause := (c.resumed pre).cause, trappc := (c.resumed pre).trappc, trapval := (c.resumed pre).trapval } := by
  cases pre <;> rfl

theorem heldCtx_resumed (s : State) (k : Nat) (c : Ctx) (pre : Bool) : s.heldCtx k (c.resumed pre) = s.heldCtx k c := by
  rw [Ctx.resumed_eq]; rfl

theorem Ctx.settled.resumed {c : Ctx} (h : c.settled) (pre : Bool) : (c.resumed pre).settled := by
  rw [Ctx.resumed_eq]
  exact h

theorem eretResumed_eq (hn : n ≤ 10) (quiet : s.heldCtx s.cur.tile (s.here.ctx n) = false ∨ (s.here.ctx n).settled) :
    s.eretResumed n = s.setHere (s.here.unframed n (s.resumedCtx n)) := by
  have at_n : ((s.setHere (s.here.unframed n ((s.here.ctx n).resumed s.here.preReq))).tile s.cur.tile).ctx n = (s.here.ctx n).resumed s.here.preReq :=
    (congrArg (Tile.ctx · n) (State.tile_setTile ..)).trans (Tile.ctx_unframed ..)
  rw [State.eretResumed, haltHeld, Tile.eretResume_eq, at_n, heldCtx_setHere s (x := s.here.unframed n _) (fun _ => rfl) rfl, heldCtx_resumed,
    State.resumedCtx]
  cases held : s.heldCtx s.cur.tile (s.here.ctx n) with
  | false => simp
  | true =>
    rw [if_pos rfl]
    cases pre : s.here.preReq with
    | true => rw [if_neg (by simp)]; exact haltHelper_halted (by rw [pre] at at_n; rw [at_n]; rfl)
    | false =>
      rw [pre] at at_n
      have settled := quiet.resolve_left (by simp [held])
      rw [if_pos ⟨rfl, rfl⟩, haltHelper_settled hn (by rw [at_n]; rfl) (by rw [at_n]; rfl) (by rw [at_n]; exact settled.resumed _), at_n]
      exact (State.setHere_setHere s _ _).trans (congrArg s.setHere (by rw [State.tile_setHere, Tile.setCtx_unframed]))

end

section
variable {s : State} {n : Nat}

/-- What ERET keeps of its tile when it puts a context in place of a pending helper. -/
theorem unframed_complete (zero : s.cur.ctx = 0) (one : 1 ≤ n) (c : Ctx) :
    let u := s.complete 4
    let x := u.here.unframed n c
    x.ctx 0 = u.me ∧ x.ctx n = c ∧ x.pend = s.here.pend &&& ~~~(1#11 <<< n) ∧ (∀ q, q ≠ 0 → q ≠ n → x.ctx q = s.here.ctx q) ∧
      x = { s.here with pend := x.pend, ctxs := x.ctxs } := by
  intro u x
  have here : u.here = s.here.setCtx 0 u.me := zero ▸ State.here_complete s 4
  refine ⟨?_, Tile.ctx_unframed .., ?_, fun q h0 hq => ?_, ?_⟩
  · exact (Tile.ctx_unframed_other _ _ (by omega)).trans (by rw [here, Tile.ctx_setCtx])
  · rw [show x = _ from congrArg (Tile.unframed · n c) here]; rfl
  · exact (Tile.ctx_unframed_other _ _ hq).trans (by rw [here, Tile.ctx_setCtx_other _ _ h0.symm])
  · rw [show x = _ from congrArg (Tile.unframed · n c) here]; rfl

end

section
variable {f : K3} {s : State} {n : Nat}

theorem eret_out_of_range (bad : s.me.kOk f.a = false) : Traps (.eret f) s 0x02 (BitVec.ofNat 64 f.a.toNat) :=
  (GuardsFirst.of (fields := [f.a]) (execEret f s) rfl rfl).traps (by simp [bad])

theorem eret_helper (helper : s.cur.ctx ≠ 0) (ready : s.kReady [f.a] [f.a] []) : Traps (.eret f) s 0x01 (wordsVal (.eret f)) := by
  rw [Traps, exec_eret_eq, execEret, guardK_ready ready, decide_eq_true helper]; rfl

theorem eret_inRep (zero : s.cur.ctx = 0) (ready : s.kReady [f.a] [f.a] []) (rep : s.me.inRep = true) :
    Traps (.eret f) s 0x01 (wordsVal (.eret f)) := by
  have monitor : decide (s.cur.ctx ≠ 0) = false := decide_eq_false (not_not.mpr zero)
  rw [Traps, exec_eret_eq, execEret, guardK_ready ready, monitor, notInRep, rep]; rfl

/-- Context 0 goes back to frame 0's TRAPPC when no frame is pending. -/
theorem eretZero_calm (zero : s.cur.ctx = 0) (calm : s.here.pend = 0) :
    (eretZero s).here = s.backTile ∧ (eretZero s).me = s.me.returned ∧ eretZero s = s.setHere s.backTile := by
  have calm : s.backTile.enterMonitor = s.backTile := Tile.enterMonitor_calm calm
  exact ⟨calm ▸ here_eretZero zero, by rw [me_eretZero zero, calm, State.ctx_backTile], calm ▸ eretZero_eq zero⟩

theorem eret_self_calm (zero : s.cur.ctx = 0) (calm : s.here.pend = 0) (t : State) (ht : t = eretZero s) :
    t.here.nest = false ∧ t.me.pc = s.me.trappc.setWidth 48 ∧ t.me.pcc.tag = s.me.pcc.tag ∧
      t.me.pcc.bits.extractLsb' 48 80 = s.me.pcc.bits.extractLsb' 48 80 ∧
      s.me.onlyScalar t.me ∧ (∀ r, t.me.readK r = s.me.readK r) ∧ t.me.loop0 = s.me.loop0 ∧ t.me.loop1 = s.me.loop1 ∧
      t.here = { s.here with nest := false, ctxs := t.here.ctxs } ∧ t = s.setHere t.here := by
  obtain ⟨here, me, set⟩ := eretZero_calm zero calm
  rw [ht, me, here]
  exact ⟨rfl, Ctx.pc_returned _, rfl, KReg.withAddr_rest .., rfl, fun _ => rfl, rfl, rfl, rfl, set⟩

/-- Context 0 is entered again for the lowest frame that is pending. -/
theorem eret_self_pending (zero : s.cur.ctx = 0) (pending : s.here.pend ≠ 0) (t : State) (ht : t = eretZero s) :
    t.here.nest = true ∧ s.here.pend.getLsbD t.here.fsel = true ∧
      (∀ j, j < t.here.fsel → s.here.pend.getLsbD j = false) ∧ t.me.cause = 0 ∧
      t.me.trappc = BitVec.ofNat 64 (s.me.trappc.toNat % 2 ^ 48) ∧ t.me.pc = BitVec.ofNat 48 (s.here.trapvec.toNat * 4) ∧
      (∀ r, t.me.readK r = s.me.readK r) ∧ t = s.setHere t.here := by
  obtain ⟨low, bit, before, nest, fsel, entry, -, -, others⟩ := Tile.enterMonitor_entered (t := s.backTile) rfl pending
  have pend : s.backTile.enterMonitor.pend = s.here.pend := by rw [Tile.enterMonitor_eq]; rfl
  rw [pend] at bit before
  rw [State.ctx_backTile, Ctx.pc_returned, BitVec.toNat_setWidth] at others
  rw [ht, me_eretZero zero, here_eretZero zero, fsel]
  exact ⟨nest, bit, before, congrArg Ctx.cause others, congrArg Ctx.trappc others, entry, fun r => (congrArg (Ctx.readK · r) others).trans rfl,
    eretZero_eq zero⟩

theorem eret_resumes (zero : s.cur.ctx = 0) (one : 1 ≤ n) (ten : n ≤ 10)
    (quiet : s.heldCtx s.cur.tile (s.here.ctx n) = false ∨ (s.here.ctx n).settled) (t : State) (ht : t = (s.complete 4).eretResumed n) :
    GoesOn s t 4 ∧ t.here.pend = s.here.pend &&& ~~~(1#11 <<< n) ∧ t.here.ctx n = s.resumedCtx n ∧
      (∀ q, q ≠ 0 → q ≠ n → t.here.ctx q = s.here.ctx q) ∧ s.me.onlyScalar t.me ∧ (∀ r, t.me.readK r = s.me.readK r) ∧
      t.here = { s.here with pend := t.here.pend, ctxs := t.here.ctxs } ∧ t = s.setHere t.here := by
  have here : (s.complete 4).here = s.here.setCtx 0 (s.complete 4).me := zero ▸ State.here_complete s 4
  have ctx : (s.complete 4).here.ctx n = s.here.ctx n := by rw [here, Tile.ctx_setCtx_other _ _ (by omega)]
  have held : (s.complete 4).heldCtx s.cur.tile (s.here.ctx n) = s.heldCtx s.cur.tile (s.here.ctx n) :=
    heldCtx_setHere s (x := s.here.setCtx s.cur.ctx _) (fun _ => rfl) rfl _
  have same : (s.complete 4).resumedCtx n = s.resumedCtx n := by
    rw [State.resumedCtx, State.resumedCtx, ctx, show (s.complete 4).here.preReq = s.here.preReq from (congrArg Tile.preReq here).trans rfl,
      show (s.complete 4).heldCtx (s.complete 4).cur.tile _ = _ from held]
  have resumed := eretResumed_eq (s := s.complete 4) ten (by rwa [ctx, show (s.complete 4).heldCtx (s.complete 4).cur.tile _ = _ from held])
  rw [same] at resumed
  obtain ⟨me, mine, pend, others, frame⟩ := unframed_complete zero one (s.resumedCtx n)
  have at_here : t.here = (s.complete 4).here.unframed n (s.resumedCtx n) := by rw [ht, resumed, State.here_setHere]
  have at_me : t.me = (s.complete 4).me := by
    rw [ht, resumed, ← me, State.me, State.here_setHere]
    exact congrArg _ zero
  rw [at_here, at_me]
  exact ⟨(s.goesOn_complete_self 4).of_me at_me, pend, mine, others, s.onlyScalar_complete 4, s.readK_complete 4, frame,
    by rw [ht, resumed]; exact State.setHere_setHere ..⟩

theorem State.recordTrap_eq (s : State) (k n : Nat) (code : Byte) (pc val : Word) :
    s.recordTrap k n code pc val = { s with res := (s.recordTrap k n code pc val).res } := by
  unfold State.recordTrap
  dsimp only
  split <;> rfl

theorem eretAborted_eq (u : State) (n : Nat) : ∃ r, u.eretAborted n = { u.setHere (u.here.unframed n (u.here.ctx n).freed) with res := r } ∧
    ((u.eretAborted n).resOf u.here.slot.handle).abortAsked = true := by
  have handle : ∀ r, ({ u with res := r } : State).setHere (u.here.unframed n (u.here.ctx n).freed) =
      { u.setHere (u.here.unframed n (u.here.ctx n).freed) with res := r } := fun _ => rfl
  have slot : (u.setHere (u.here.unframed n (u.here.ctx n).freed)).handleOf u.cur.tile = u.here.slot.handle := by
    rw [State.handleOf, State.tile_setHere]; rfl
  rw [State.eretAborted, State.recordTrap_eq]
  refine ⟨_, rfl, ?_⟩
  rw [← slot]
  exact congrArg Res.abortAsked (State.resOf_setRes ..)

theorem eret_aborts (zero : s.cur.ctx = 0) (one : 1 ≤ n) (t : State) (ht : t = (s.complete 4).eretAborted n) :
    GoesOn s t 4 ∧ t.here.pend = s.here.pend &&& ~~~(1#11 <<< n) ∧ (t.here.ctx n).mode = .free ∧
      (∀ q, q ≠ 0 → q ≠ n → t.here.ctx q = s.here.ctx q) ∧ (t.resOf s.here.slot.handle).abortAsked = true ∧
      (∀ r, t.me.readK r = s.me.readK r) ∧ t.here = { s.here with pend := t.here.pend, ctxs := t.here.ctxs } ∧ s.sameGmem t := by
  obtain ⟨r, eq, asked⟩ := eretAborted_eq (s.complete 4) n
  obtain ⟨me, mine, pend, others, frame⟩ := unframed_complete zero one ((s.complete 4).here.ctx n).freed
  have at_here : t.here = (s.complete 4).here.unframed n ((s.complete 4).here.ctx n).freed := by
    rw [ht, eq]
    exact State.here_setHere ..
  have at_me : t.me = (s.complete 4).me := by
    rw [← me, ← at_here, ht, eq]
    exact congrArg _ zero
  have slot : (s.complete 4).here.slot = s.here.slot := by rw [State.here_complete]; rfl
  rw [slot, ← ht] at asked
  rw [at_here, at_me]
  exact ⟨(s.goesOn_complete_self 4).of_me at_me, pend, by rw [mine]; rfl, others, asked, s.readK_complete 4, frame, fun a => by rw [ht, eq]; rfl⟩

end

/-- Settles O35: the checks of ERET in their order, then each of its three returns by the frame that it takes up. -/
theorem returnFromTrap : Obligations.ReturnFromTrap := by
  intro f s v n
  refine ⟨fun named out => eret_out_of_range ((Ctx.kOk_eq_false_iff ..).mpr ⟨named, out⟩), fun helper ready => eret_helper helper ready,
    fun zero ready => ⟨eret_inRep zero ready, fun rep => ?_⟩⟩
  have run := exec_eret ready zero rep (v := v) rfl (n := n) rfl
  refine ⟨fun passes => passesOver_complete (by rw [run, if_pos passes]), fun small self calm => ?_, fun small self pending => ?_,
    fun small one ten framed => ?_⟩
  · rw [if_neg (by simp [self]; omega), if_pos self] at run
    exact ⟨_, run, eret_self_calm zero calm _ rfl⟩
  · rw [if_neg (by simp [self]; omega), if_pos self] at run
    exact ⟨_, run, eret_self_pending zero pending _ rfl⟩
  rw [if_neg (by simp [framed]; omega), if_neg (by omega)] at run
  refine ⟨fun resume quiet => ?_, fun abort => ?_⟩
  · rw [if_neg (Bool.eq_false_iff.mp resume)] at run
    obtain ⟨goes, pend, ctx, rest⟩ := eret_resumes zero one ten quiet _ rfl
    refine ⟨_, run, goes, pend, ⟨fun pre => ?_, fun pre held => ?_, fun pre held => ?_⟩, rest⟩
    · rw [ctx, State.resumedCtx, pre]; rfl
    · rw [ctx, State.resumedCtx, if_pos ⟨pre, held⟩, pre]; rfl
    · rw [ctx, State.resumedCtx, if_neg (by simp [held]), pre]; rfl
  · rw [if_pos abort] at run
    exact ⟨_, run, eret_aborts zero one _ rfl⟩

end Sys2Proof.Machine
end

section
/-!
A context's turn: fetch, decode and execute (03 R65, R85, 14 R344; O4).
-/

namespace Sys2Proof.Machine

/-! The instruction that stands at a PCC, outside a REP pass. -/

theorem ofNat_leNat_bytesOfWord (w : BitVec 32) : BitVec.ofNat 32 (leNat (bytesOfWord w)) = w := by
  refine BitVec.eq_of_toNat_eq ?_
  simp only [bytesOfWord, leNat, BitVec.toNat_ofNat, BitVec.extractLsb'_toNat, Nat.shiftRight_eq_div_pow]
  omega

theorem fetchWord_of_bytes {t : Tile} {c : Ctx} {a : Nat} {w : BitVec 32} (fresh : c.stale = [])
    (bytes : (List.range 4).map (fun j => Memory.read t.tlm (a + j)) = bytesOfWord w) : fetchWord t c a = w := by
  rw [fetchWord, fresh]
  change BitVec.ofNat 32 (t.readTlm a 4) = w
  rw [Tile.readTlm_eq_number, Tile.number, bytes, ofNat_leNat_bytesOfWord]

theorem repV_zero (x : BitVec 6) : repV 0 0 x = x := by
  unfold repV
  split
  · rename_i named
    have high : x.toNat < 32 := by simp at named; omega
    rw [Nat.mul_zero, Nat.add_zero, Nat.mod_eq_of_lt high, BitVec.ofNat_toNat, BitVec.setWidth_eq]
  · rfl

/-- Outside a REP the fields name the registers they hold (R84). -/
theorem Instr.repShift_zero (i : Instr) : i.repShift 0 0 = i := by
  unfold Instr.repShift
  split <;> simp [repV_zero]

section
variable {t : Tile} {c : Ctx} {n m : Nat} {i : Instr}

theorem Ctx.inRep_inactive (idle : c.rep.active = false) : c.inRep = false := by simp [Ctx.inRep, idle]

theorem Ctx.repPass_inactive (idle : c.rep.active = false) : c.repPass = (0, 0) := by simp [Ctx.repPass, Ctx.inRep_inactive idle]

theorem Ctx.recordRep_inactive (idle : c.rep.active = false) : c.recordRep t = c := by simp [Ctx.recordRep, Ctx.inRep_inactive idle]

/-- A word that passes the fetch check is the one in memory, outside a REP pass. -/
theorem wordAt_fetched (idle : c.rep.active = false) {a : Nat} (passes : fetchCheck t c a = none) : wordAt t c a = .ok (fetchWord t c a) := by
  simp [wordAt, Ctx.inRep_inactive idle, passes]

theorem isRc_elsewhere (own : isRc i = true → n = 0) : (isRc i && n != 0) = false := by
  cases rc : isRc i with
  | false => rfl
  | true => simp [own rc]

theorem decodeAs_short {w : BitVec 32} (word : decodeA w = .ok i) (own : isRc i = true → n = 0) : decodeAs n 0 0 w none = .instr i := by
  simp [decodeAs, word, isRc_elsewhere own, Instr.repShift_zero]

theorem decodeAs_long {w0 w1 : BitVec 32} (words : decodeB w0 w1 = .ok i) (own : isRc i = true → n = 0) :
    decodeAs n 0 0 w0 (some w1) = .instr i := by
  simp [decodeAs, words, isRc_elsewhere own, Instr.repShift_zero]

/-- The instruction that the bytes at the PCC decode to. -/
theorem fetchAt_decoded (idle : c.rep.active = false) (fresh : c.stale = []) (len : m = 4 ∨ m = 8)
    (passes : ∀ j, j < m → j % 4 = 0 → fetchCheck t c (c.pc.toNat + j) = none)
    (decodes : decodeBytes ((List.range m).map fun j => Memory.read t.tlm (c.pc.toNat + j)) = .ok (i, [])) (own : isRc i = true → n = 0) :
    fetchAt t n c = .instr i := by
  have first := wordAt_fetched idle (passes 0 (by omega) rfl)
  obtain ⟨w, short, word, bytes⟩ | ⟨w0, w1, long, words, bytes⟩ := decodeBytes_cases decodes
  · obtain rfl : m = 4 := by
      have := congrArg List.length bytes
      simp [bytesOfWord] at this
      omega
    have fetched : fetchWord t c c.pc.toNat = w := fetchWord_of_bytes fresh (by simpa using bytes)
    rw [Nat.add_zero, fetched] at first
    simp only [fetchAt, first, short, Ctx.repPass_inactive idle]
    exact decodeAs_short word own
  · obtain rfl : m = 8 := by
      have := congrArg List.length bytes
      simp [bytesOfWord] at this
      omega
    obtain ⟨low, high⟩ := List.append_inj (s₁ := (List.range 4).map fun j => Memory.read t.tlm (c.pc.toNat + j))
      (t₁ := (List.range 4).map fun j => Memory.read t.tlm (c.pc.toNat + 4 + j)) (s₂ := bytesOfWord w0) (t₂ := bytesOfWord w1)
      (by simpa [List.range_succ, Nat.add_assoc] using bytes) rfl
    have second := wordAt_fetched idle (passes 4 (by omega) rfl)
    rw [Nat.add_zero, fetchWord_of_bytes fresh low] at first
    rw [fetchWord_of_bytes fresh high] at second
    simp only [fetchAt, first, long, second, Ctx.repPass_inactive idle]
    exact decodeAs_long words own

end

/-! The clocks, and the reading of an instruction's words. -/

/-- A tile after edges of its clock and reads of its memory: its count of time and its check bits alone differ. -/
def Tile.passedTo (a b : Tile) : Prop :=
  b = { a with
    count := b.count, period := b.period, timeErr := b.timeErr, edgeAt := b.edgeAt, err1 := b.err1, err2 := b.err2, poison := b.poison
    corrected := b.corrected, uncorrected := b.uncorrected }

theorem Tile.edge_clockedTo (t : Tile) (now : Nat) : t.clockedTo (t.edge now) := rfl

theorem Tile.clockedTo.trans {a b c : Tile} (h : a.clockedTo b) (g : b.clockedTo c) : a.clockedTo c := by
  unfold Tile.clockedTo at h g ⊢
  rw [g, h]

theorem Tile.clockedTo.passedTo {a b : Tile} (h : a.clockedTo b) : a.passedTo b := by
  unfold Tile.clockedTo at h
  unfold Tile.passedTo
  rw [h]

theorem Tile.passedTo.trans {a b c : Tile} (h : a.passedTo b) (g : b.passedTo c) : a.passedTo c := by
  unfold Tile.passedTo at h g ⊢
  rw [g, h]

theorem Tile.fetchedTile_passedTo (t : Tile) (c : Ctx) (p : Nat) : t.passedTo (fetchedTile t c p) := by
  unfold fetchedTile
  split
  · unfold Tile.passedTo
    rw [Tile.touchRead_eq]
  · rfl

theorem AMap.getD_mapVals_cases {α : Type} (m : AMap α) (f : Nat → α → α) (k : Nat) (d : α) :
    AMap.getD (AMap.mapVals m f) k d = f k (AMap.getD m k d) ∨ AMap.getD (AMap.mapVals m f) k d = d ∧ AMap.getD m k d = d := by
  simp only [AMap.getD, AMap.get?_mapVals]
  cases AMap.get? m k with
  | none => exact .inr ⟨rfl, rfl⟩
  | some x => exact .inl rfl

/-- A passage of time changes no tile but its clock (R27, R270). -/
theorem tick_clockedTo (s : State) (k : Nat) : (s.tile k).clockedTo ((tick s).tile k) := by
  obtain h | ⟨new, old⟩ := AMap.getD_mapVals_cases s.tiles
    (fun k t => t.clock (tick s).now (t.edgesTo (tick s).now (Config.edges k s.steps))) k Tile.init
  · rw [show (tick s).tile k = _ from h]; rfl
  · rw [show (tick s).tile k = _ from new, show s.tile k = _ from old]; rfl

theorem tick_resOf (s : State) (h : Nat) : (tick s).resOf h = { s.resOf h with wdLast := ((tick s).resOf h).wdLast } := by
  obtain e | ⟨new, old⟩ := AMap.getD_mapVals_cases s.res
    (fun h r => { r with wdLast := if stirring s h then (tick s).now else r.wdLast }) h Res.init
  · rw [show (tick s).resOf h = _ from e]; rfl
  · rw [show (tick s).resOf h = _ from new, show s.resOf h = _ from old]

section
variable {s : State} {k n m : Nat} {i : Instr}

/-- The tile on whose edge a context takes its turn. -/
def State.turnState (s : State) (later : List Turn) (k : Nat) : State :=
  { tick s with agenda := later }.updTile k fun t => t.edge (tick s).now

theorem turnState_clockedTo (s : State) (later : List Turn) (k q : Nat) : (s.tile q).clockedTo ((s.turnState later k).tile q) := by
  by_cases mine : k = q
  · subst mine
    rw [State.turnState, State.tile_updTile]
    exact (tick_clockedTo s k).trans (Tile.edge_clockedTo ..)
  · rw [State.turnState, State.updTile, State.tile_setTile_other _ _ mine]
    exact tick_clockedTo s q

/-- Where nothing comes first, a context's turn runs what it fetched. -/
theorem step_issue {later : List Turn} (agenda : s.agenda = .issue k n :: later) (issues : canIssue (s.tile k) n = true)
    (first : beforeIssue (s.turnState later k) k n = none)
    (fetched : fetchNext ((s.turnState later k).tile k) n (((s.turnState later k).tile k).ctx n) = .instr i) :
    step s = thenNext (exec i (onTurn (s.turnState later k) k n)) fun u => afterTurn u k n := by
  have goes : canIssue ({ tick s with agenda := later }.tile k) n = true := by
    rw [show ({ tick s with agenda := later } : State).tile k = (tick s).tile k from rfl, tick_clockedTo s k]
    exact issues
  have run : step s = stepTurn { tick s with agenda := later } k n := by rw [step, agenda]
  rw [run, stepTurn, if_pos goes]
  refine congrArg (thenNext · _) ?_
  change runTurn (s.turnState later k) k n _ = _
  rw [runTurn, first, fetched]; rfl

end

/-! A turn in which nothing precedes the instruction. -/

theorem beforeIssue_none {s : State} {k n : Nat} {i : Instr} (fetched : fetchNext (s.tile k) n ((s.tile k).ctx n) = .instr i)
    (late : ((s.tile k).ctx n).lates.any LateTrap.due = false)
    (wins : ∀ w ∈ ((s.tile k).ctx n).wins, winReady (s.tile k) ((s.tile k).ctx n) w = false) : beforeIssue s k n = none := by
  have stands : n = 0 → standsInstr (s.tile k) 0 = true := fun zero => by
    subst zero
    simp [standsInstr, fetched]
  have service : (n == 0 && serviceDue (s.tile k) (standsInstr (s.tile k) 0)) = false := by
    by_cases zero : n = 0
    · simp [serviceDue, stands zero]
    · simp [zero]
  simp only [beforeIssue, service, late, Bool.false_eq_true, if_false]
  split
  case h_1 i found =>
    have ready := List.find?_some found
    split at ready
    case h_1 w at_i => exact absurd ready (by simp [wins w (List.mem_of_getElem? at_i)])
    case h_2 => cases ready
  case h_2 => rfl

theorem fetchNext_text {t : Tile} {n : Nat} {c : Ctx} (text : n = 0 ∨ c.pc.toNat ≠ Config.stub (decide (c.role = .team))) :
    fetchNext t n c = fetchAt t n c := by
  have no : (n != 0 && c.pc.toNat == Config.stub (decide (c.role = .team))) = false := by
    obtain zero | away := text
    · simp [zero]
    · simp [away]
  rw [fetchNext, no]; rfl

/-- The tile of a turn, after the reading of the instruction's words. -/
def Tile.fetching (t : Tile) (c : Ctx) : Tile :=
  let t1 := fetchedTile t c c.pc.toNat
  if isLong (fetchWord t c c.pc.toNat) = some true then fetchedTile t1 c (c.pc.toNat + 4) else t1

theorem Tile.fetching_passedTo (t : Tile) (c : Ctx) : t.passedTo (t.fetching c) := by
  unfold Tile.fetching
  split
  · exact (Tile.fetchedTile_passedTo ..).trans (Tile.fetchedTile_passedTo ..)
  · exact Tile.fetchedTile_passedTo ..

theorem onTurn_eq {s : State} {k n : Nat} (idle : ((s.tile k).ctx n).rep.active = false) : onTurn s k n =
    { s.setTile k { ((s.tile k).fetching ((s.tile k).ctx n)).setCtx n ((s.tile k).ctx n) with lastCtx := n } with cur := ⟨k, n⟩ } := by
  rw [← Ctx.recordRep_inactive (t := s.tile k) idle, onTurn]
  simp only [Ctx.recordRep_inactive idle]
  rfl

/-- What a context's turn finds: the context is the current one, and all else is as it stood, but the clocks and the check bits. -/
theorem onTurn_finds {s : State} {k n : Nat} (idle : ((s.tile k).ctx n).rep.active = false) :
    let t := onTurn s k n
    t.me = (s.tile k).ctx n ∧ (∀ q, q ≠ n → t.here.ctx q = (s.tile k).ctx q) ∧ (∀ q, q ≠ k → t.tile q = s.tile q) ∧
      t.here.slots = (s.tile k).slots ∧ t.here.reqs = (s.tile k).reqs ∧ s.sameTlm t := by
  intro t
  have passed := Tile.fetching_passedTo (s.tile k) ((s.tile k).ctx n)
  have ht : t = _ := onTurn_eq idle
  generalize (s.tile k).fetching ((s.tile k).ctx n) = u at passed ht
  have here : t.tile k = { u.setCtx n ((s.tile k).ctx n) with lastCtx := n } := by rw [ht]; exact State.tile_setTile ..
  have at_here : t.here = { u.setCtx n ((s.tile k).ctx n) with lastCtx := n } := by rw [← here, ht]; rfl
  have others : ∀ q, q ≠ k → t.tile q = s.tile q := fun q hq => by rw [ht]; exact State.tile_setTile_other _ _ hq.symm
  have ctx : ∀ q, u.ctx q = (s.tile k).ctx q := fun q => by rw [passed]; rfl
  refine ⟨?_, fun q hq => ?_, others, ?_, ?_, ?_⟩
  · rw [State.me, at_here, ht]
    exact Tile.ctx_setCtx ..
  · rw [at_here, ← ctx q]
    exact Tile.ctx_setCtx_other _ _ hq.symm
  · rw [at_here, passed]; rfl
  · rw [at_here, passed]; rfl
  · refine sameTlm_of_tile (k := k) ?_ others
    rw [here, passed]; rfl

theorem sameTlm_turnState (s : State) (later : List Turn) (k : Nat) : s.sameTlm (s.turnState later k) := fun q a => by
  rw [turnState_clockedTo s later k q]

/-- Settles O4: what a turn does before its instruction leaves tile memory and the context as they were, so the fetch finds the same bytes. -/
theorem stepRunsDecoded : Obligations.StepRunsDecoded := by
  intro s k n later m i agenda issues late wins idle fresh text len passes decodes own
  have turn := turnState_clockedTo s later k k
  generalize hu : s.turnState later k = u at turn
  have fetched : fetchNext (u.tile k) n ((u.tile k).ctx n) = .instr i := by
    have same : fetchNext (u.tile k) n ((u.tile k).ctx n) = fetchNext (s.tile k) n ((s.tile k).ctx n) := by rw [turn]; rfl
    rw [same, fetchNext_text text]
    exact fetchAt_decoded idle fresh len passes decodes own
  have ctx : ∀ q, (u.tile k).ctx q = (s.tile k).ctx q := fun q => by rw [turn]; rfl
  have first : beforeIssue u k n = none := beforeIssue_none fetched (by rw [ctx]; exact late) (by rw [turn]; exact wins)
  obtain ⟨me, same, others, slots, reqs, tlm⟩ := onTurn_finds (s := u) (k := k) (n := n) (by rw [ctx]; exact idle)
  have kept : ∀ q, (s.tile q).clockedTo (u.tile q) := fun q => hu ▸ turnState_clockedTo s later k q
  refine ⟨onTurn u k n, ?_, rfl, by rw [← hu]; rfl, by rw [← hu]; rfl, by rw [← hu]; rfl, by rw [me, ctx],
    fun q hq => by rw [same q hq, ctx], fun q hq => others q hq ▸ kept q, by rw [slots, turn], by rw [reqs, turn],
    by rw [← hu]; rfl, fun h => ?_, by rw [← hu]; rfl,
    fun q a => (tlm q a).trans ?_, fun a => by rw [← hu]; rfl⟩
  · rw [← hu] at first fetched ⊢
    exact step_issue agenda issues first fetched
  · rw [← hu]
    exact tick_resOf s h
  · rw [← hu]
    exact sameTlm_turnState s later k q a

end Sys2Proof.Machine
end

section
/-!
The vector unit: what the completion of a context's oldest instruction leaves as it was (06 R158 to R161, R174).
-/

namespace Sys2Proof.Machine

/-! A reserved place is filled: tokens move, and nothing else. -/

theorem TokenStep.fillPort (s : State) (k p q : Nat) (kind : TokKind) (v : Line) : TokenStep s (s.fillPort k p q kind v) := by
  unfold State.fillPort
  dsimp only
  split
  · exact (TokenStep.updTile s k (tokenTile_setPort ..)).trans (TokenStep.sendBooked ..)
  · split
    · exact .refl s
    · split
      · exact .refl s
      · exact .setChan ..

/-! The accesses of a vector memory instruction. -/

theorem memTile_vmLoadOne (t : Tile) (e : VqEntry) (p : Nat × Nat × Nat) (q : Nat) : (vmLoadOne t e p).1.ctx q = t.ctx q := Tile.ctx_touchRead ..

theorem ctx_vmStoreOne (t : Tile) (c : Ctx) (e : VqEntry) (f : VW) (w : Nat) (p : Nat × Nat × Nat) (q : Nat) :
    ∃ st, (vmStoreOne t c e f w p).1.ctx q = { t.ctx q with stale := st } := by
  unfold vmStoreOne
  dsimp only
  split
  · split
    · exact ⟨_, Tile.ctx_touchRead ..⟩
    · rw [← Tile.ctx_touchRead t (p.2.1 / 8 * 8) 8 q]
      exact (MemTile.writeTlm ..).ctx q
  · split
    · exact (MemTile.writeTlm ..).ctx q
    · exact (MemTile.writeTlm t p.2.1 _).ctx q

/-- An access changes the head of the queue, and what the context has fetched of bytes that are written. -/
theorem ctx_vmStep (t : Tile) {n : Nat} (hn : n ≤ 10) : ∃ q st, (t.vmStep n).ctx n = { t.ctx n with vq := q, stale := st } ∧
    q.tail = (t.ctx n).vq.tail ∧ q.length = (t.ctx n).vq.length := by
  have same : ∃ q st, t.ctx n = { t.ctx n with vq := q, stale := st } ∧ q.tail = (t.ctx n).vq.tail ∧ q.length = (t.ctx n).vq.length :=
    ⟨_, _, rfl, rfl, rfl⟩
  unfold Tile.vmStep
  dsimp only
  simp only [Tile.slotCtx_ctx _ hn, Tile.setSlotCtx_ctx _ hn]
  split
  · exact same
  case h_2 e rest queue =>
    split
    case h_1 f w store p _ _ =>
      rw [Tile.ctx_setCtx, queue]
      cases store with
      | true =>
        obtain ⟨st, ctx⟩ := ctx_vmStoreOne t (t.ctx n) e f w p n
        rw [if_pos rfl, ctx]
        exact ⟨_, st, rfl, rfl, rfl⟩
      | false =>
        rw [if_neg Bool.false_ne_true, memTile_vmLoadOne]
        exact ⟨_, _, rfl, rfl, rfl⟩
    case h_2 => exact same

theorem ctx_vmSteps (t : Tile) {n : Nat} (hn : n ≤ 10) (m : Nat) : ∃ q st, (t.vmSteps n m).ctx n = { t.ctx n with vq := q, stale := st } ∧
    q.tail = (t.ctx n).vq.tail ∧ q.length = (t.ctx n).vq.length := by
  induction m generalizing t with
  | zero => exact ⟨_, _, rfl, rfl, rfl⟩
  | succ m ih =>
    obtain ⟨q, st, ctx, tail, length⟩ := ctx_vmStep t hn
    obtain ⟨q', st', ctx', tail', length'⟩ := ih (t.vmStep n)
    rw [ctx] at ctx' tail' length'
    exact ⟨q', st', ctx', tail'.trans tail, length'.trans length⟩

/-! What a completion does to its context. -/

/-- Whether the window of an entry holds its result of a class (R79). -/
def VqEntry.holds (e : VqEntry) (cls : RegClass) : Bool := e.win && decide (vecDest e.instr = cls)

def Ctx.giveV (c : Ctx) (e : VqEntry) (p : BitVec 6 × Line) : Ctx :=
  if e.holds .v then c.winArrive e.op p.2 false 0 0 else c.writeV p.1.toNat p.2

def Ctx.giveM (c : Ctx) (e : VqEntry) (p : BitVec 6 × BitVec 16) : Ctx :=
  if e.holds .m then c.winArrive e.op (p.2.setWidth 512) false 0 0 else c.writeM p.1.toNat p.2

def Ctx.giveK (c : Ctx) (e : VqEntry) (p : BitVec 6 × Word) : Ctx :=
  if e.holds .k then c.winArrive e.op (p.2.setWidth 512) false 0 0 else c.writeInt p.1 p.2

/-- What a completion writes: each result in its turn, then the flags. -/
theorem Ctx.applyVOut_eq (c : Ctx) (e : VqEntry) (o : VOut) : c.applyVOut e o =
    let d := o.v.elim c (c.giveV e)
    let d := o.m.elim d (d.giveM e)
    let d := o.k.elim d (d.giveK e)
    { d with fpc := d.fpc ||| o.flags.setWidth 64 } := by
  obtain ⟨v, m, k, flags, ovr⟩ := o
  cases v <;> cases m <;> cases k <;> rfl

/-- A completion changes registers, windows and FPC. -/
structure Ctx.Delivers (c d : Ctx) : Prop where
  ctx : d = { c with v := d.v, m := d.m, k := d.k, wins := d.wins, fpc := d.fpc }

namespace Ctx.Delivers

theorem refl (c : Ctx) : c.Delivers c := ⟨rfl⟩

theorem trans {c d e : Ctx} (a : c.Delivers d) (b : d.Delivers e) : c.Delivers e := ⟨by rw [b.ctx, a.ctx]⟩

theorem winArrive (c : Ctx) (op : Nat) (x : Line) (b : Bool) (fail : Byte) (v : Word) : c.Delivers (c.winArrive op x b fail v) := ⟨rfl⟩

theorem writeV (c : Ctx) (r : Nat) (x : Line) : c.Delivers (c.writeV r x) := ⟨rfl⟩

theorem writeM (c : Ctx) (r : Nat) (x : BitVec 16) : c.Delivers (c.writeM r x) := ⟨by unfold Ctx.writeM; split <;> rfl⟩

theorem writeK (c : Ctx) (r : BitVec 6) (x : KReg) : c.Delivers (c.writeK r x) := ⟨by unfold Ctx.writeK; split <;> rfl⟩

theorem writeInt (c : Ctx) (r : BitVec 6) (x : Word) : c.Delivers (c.writeInt r x) := writeK ..

theorem elim {α : Type} {c : Ctx} {f : α → Ctx} (h : ∀ x, c.Delivers (f x)) (o : Option α) : c.Delivers (o.elim c f) := by
  cases o with
  | none => exact refl c
  | some x => exact h x

theorem giveV (c : Ctx) (e : VqEntry) (p : BitVec 6 × Line) : c.Delivers (c.giveV e p) := by
  unfold Ctx.giveV
  split
  · exact winArrive ..
  · exact writeV ..

theorem giveM (c : Ctx) (e : VqEntry) (p : BitVec 6 × BitVec 16) : c.Delivers (c.giveM e p) := by
  unfold Ctx.giveM
  split
  · exact winArrive ..
  · exact writeM ..

theorem giveK (c : Ctx) (e : VqEntry) (p : BitVec 6 × Word) : c.Delivers (c.giveK e p) := by
  unfold Ctx.giveK
  split
  · exact winArrive ..
  · exact writeInt ..

theorem applyVOut (c : Ctx) (e : VqEntry) (o : VOut) : c.Delivers (c.applyVOut e o) := by
  rw [Ctx.applyVOut_eq]
  exact (((elim (giveV c e) _).trans (elim (giveM _ e) _)).trans (elim (giveK _ e) _)).trans ⟨rfl⟩

end Ctx.Delivers

/-! The oldest instruction leaves its queue. -/

/-- A tile whose lane group of an entry is free again. -/
def Tile.ungrouped (t : Tile) (e : VqEntry) : Tile := { t with groups := e.group.elim t.groups (AMap.erase t.groups) }

/-- A context that has retired the oldest of its queue: the others stay queued, and late traps are only added. -/
structure Ctx.Retired (c d : Ctx) (rest : List VqEntry) : Prop where
  queue : d.vq = rest
  lates : ∃ l, d.lates = c.lates ++ l

theorem Ctx.Delivers.retired {c d : Ctx} (h : c.Delivers d) : c.Retired d c.vq := ⟨by rw [h.ctx], [], by rw [h.ctx]; exact (List.append_nil _).symm⟩

theorem vecRetire_retired {s : State} {k n : Nat} (hn : n ≤ 10) {e : VqEntry} {rest : List VqEntry} (head : ((s.tile k).ctx n).vq = e :: rest) :
    ((s.tile k).ctx n).Retired (((vecRetire s k n).tile k).ctx n) rest := by
  unfold vecRetire
  simp only [Tile.slotCtx_ctx _ hn, Tile.setSlotCtx_ctx _ hn, head]
  have set : ∀ (t : Tile) (d : Ctx), ((s.setTile k (t.setCtx n d)).tile k).ctx n = d := fun t d => by rw [State.tile_setTile, Tile.ctx_setCtx]
  have add : ∀ (d : Ctx) l, d.vq = rest → d.lates = ((s.tile k).ctx n).lates ++ l → ((s.tile k).ctx n).Retired d rest := fun d l q h => ⟨q, l, h⟩
  have gives : ∀ d, Ctx.Delivers { (s.tile k).ctx n with vq := rest } d → ((s.tile k).ctx n).Retired d rest := fun d h =>
    add d [] (by rw [h.ctx]) (by rw [h.ctx]; exact (List.append_nil _).symm)
  split
  · rw [set]
    split
    · exact gives _ (.winArrive ..)
    · exact gives _ (.writeV ..)
  · rw [set]
    split
    · exact gives _ (.winArrive ..)
    · exact add _ _ rfl rfl
  · rw [set]
    exact gives _ (.refl _)
  · rw [set]
    exact add _ _ rfl rfl
  · split
    · split
      · rw [(TokenStep.fillPort ..).ctx, set]
        exact gives _ (.applyVOut ..)
      · rw [(TokenStep.fillPort ..).ctx, set]
        exact gives _ (.applyVOut ..)
    · rw [set]
      exact gives _ (.applyVOut ..)

theorem vecFinish_eq (s : State) (k n : Nat) :
    vecFinish s k n = vecRetire (s.setTile k ((s.tile k).vmSteps n ((s.tile k).slotCtx n).vmLeft)) k n := rfl

theorem vecFinish_retired {s : State} {k n : Nat} (hn : n ≤ 10) :
    ((s.tile k).ctx n).Retired (((vecFinish s k n).tile k).ctx n) ((s.tile k).ctx n).vq.tail := by
  rw [vecFinish_eq]
  generalize ((s.tile k).slotCtx n).vmLeft = m
  obtain ⟨q, st, ctx, tail, length⟩ := ctx_vmSteps (s.tile k) hn m
  have at_n : ((s.setTile k ((s.tile k).vmSteps n m)).tile k).ctx n = { (s.tile k).ctx n with vq := q, stale := st } := by
    rw [State.tile_setTile, ctx]
  cases q with
  | nil =>
    have none : ((s.tile k).ctx n).vq = [] := List.length_eq_zero_iff.mp length.symm
    have stays : vecRetire (s.setTile k ((s.tile k).vmSteps n m)) k n = s.setTile k ((s.tile k).vmSteps n m) := by
      simp [vecRetire, Tile.slotCtx_ctx _ hn, ctx]
    rw [stays, at_n, none]
    exact ⟨rfl, [], (List.append_nil _).symm⟩
  | cons e rest =>
    obtain ⟨queue, l, lates⟩ := vecRetire_retired (s := s.setTile k ((s.tile k).vmSteps n m)) hn (e := e) (rest := rest) (by rw [at_n])
    rw [at_n] at lates
    exact ⟨queue.trans tail, l, lates⟩

theorem vecFinishN_retired {s : State} {k n : Nat} (hn : n ≤ 10) (m : Nat) :
    ((s.tile k).ctx n).Retired (((vecFinishN s k n m).tile k).ctx n) (((s.tile k).ctx n).vq.drop m) := by
  induction m generalizing s with
  | zero => exact ⟨rfl, [], (List.append_nil _).symm⟩
  | succ m ih =>
    obtain ⟨queue, l, lates⟩ := vecFinish_retired (s := s) (k := k) hn
    obtain ⟨queue', l', lates'⟩ := ih (s := vecFinish s k n)
    refine ⟨queue'.trans (by rw [queue, ← List.drop_one, List.drop_drop, Nat.add_comm]), l ++ l', ?_⟩
    rw [← List.append_assoc, ← lates]
    exact lates'

theorem foldl_raiseWin (ws : List Win) (c : Ctx) : (ws.foldl Ctx.raiseWin c).vq = c.vq ∧ ∀ l ∈ c.lates, l ∈ (ws.foldl Ctx.raiseWin c).lates := by
  induction ws generalizing c with
  | nil => exact ⟨rfl, fun _ h => h⟩
  | cons w ws ih =>
    obtain ⟨queue, lates⟩ := ih (c.raiseWin w)
    exact ⟨queue, fun l h => lates l (List.mem_append_left _ h)⟩

theorem Ctx.loadsDue_keeps (c : Ctx) : c.loadsDue.vq = c.vq ∧ ∀ l ∈ c.lates, { l with vd := none } ∈ c.loadsDue.lates := by
  obtain ⟨queue, lates⟩ := foldl_raiseWin (c.wins.filter Win.badLoad) { c with lates := c.lates.map fun l => { l with vd := none } }
  exact ⟨queue, fun l h => lates _ (List.mem_map_of_mem h)⟩

theorem LateTrap.due_unnamed {l : LateTrap} (due : l.due = true) : ({ l with vd := none } : LateTrap).due = true := by
  simp_all [LateTrap.due]

/-- The drain leaves no vector instruction queued, and drops no late trap that is due (R161). -/
theorem vecDrain_empties (s : State) {k n : Nat} (hn : n ≤ 10) : (((vecDrain s k n).tile k).ctx n).vq = [] ∧
    ∀ l ∈ ((s.tile k).ctx n).lates, l.due = true → ∃ x ∈ (((vecDrain s k n).tile k).ctx n).lates, x.due = true := by
  obtain ⟨queue, l, lates⟩ := vecFinishN_retired (s := s) (k := k) hn ((s.tile k).ctx n).vq.length
  rw [List.drop_length] at queue
  unfold vecDrain
  simp only [Tile.slotCtx_ctx _ hn]
  generalize vecFinishN s k n ((s.tile k).ctx n).vq.length = u at queue lates
  split
  · rw [State.tile_updTile, Tile.setSlotCtx_ctx _ hn, Tile.ctx_setCtx]
    obtain ⟨vq, kept⟩ := Ctx.loadsDue_keeps ((u.tile k).ctx n)
    exact ⟨vq.trans queue, fun x hx due => ⟨_, kept x (by rw [lates]; exact List.mem_append_left _ hx), LateTrap.due_unnamed due⟩⟩
  · exact ⟨queue, fun x hx due => ⟨x, by rw [lates]; exact List.mem_append_left _ hx, due⟩⟩

end Sys2Proof.Machine
end

section
/-!
The vector unit's own events: LANE_GROUP_BIND (12 R295, R296), WINDOW_CLOSE (03 R79, R81), TRAP_TAKEN (15 R365); O44.
-/

namespace Sys2Proof.Machine

/-! Late traps are taken. -/

section
variable {s : State} {k n : Nat}

theorem trapInto_vq (hn : n ≤ 10) (code : Byte) (val : Word) (pc : Addr) (late : Bool) :
    (((trapInto s k n code val pc late).tile k).ctx n).vq = ((s.tile k).ctx n).vq := by
  obtain ⟨helper, monitor⟩ := trapInto_trapped s k hn code val pc late
  by_cases zero : n = 0
  · obtain ⟨entered, double, -⟩ := monitor zero
    subst zero
    cases nest : (s.tile k).nest with
    | false => rw [(entered nest).1.others]
    | true => rw [(double nest).1]; rfl
  · rw [(helper zero).frame]; rfl

theorem erase_first {l : LateTrap} {before after : List LateTrap} (first : ∀ x ∈ before, x.due = false) (due : l.due = true) :
    (before ++ l :: after).erase l = before ++ after := by
  have new : l ∉ before := fun mem => Bool.noConfusion ((first l mem).symm.trans due)
  rw [List.erase_append_right _ new, List.erase_cons_head]

theorem find_first {l : LateTrap} {before after : List LateTrap} (first : ∀ x ∈ before, x.due = false) (due : l.due = true) :
    (before ++ l :: after).find? LateTrap.due = some l := by
  rw [List.find?_append, List.find?_eq_none.mpr fun x hx => by simp [first x hx]]
  simp [due]

/-- The oldest late trap that is due is the one taken (R365). -/
theorem takeLate_first {l : LateTrap} {before after : List LateTrap} (lates : ((s.tile k).ctx n).lates = before ++ l :: after)
    (first : ∀ x ∈ before, x.due = false) (due : l.due = true) : takeLate s k n = some
      (trapInto (s.setTile k ((s.tile k).setCtx n { (s.tile k).ctx n with lates := before ++ after })) k n l.code l.val l.pc l.late) := by
  rw [takeLate, lates, find_first first due, ← erase_first (after := after) first due]; rfl

theorem takeLate_vq (hn : n ≤ 10) (due : ∃ x ∈ ((s.tile k).ctx n).lates, x.due = true) :
    ∃ t, takeLate s k n = some t ∧ ((t.tile k).ctx n).vq = ((s.tile k).ctx n).vq := by
  obtain ⟨l, found⟩ := Option.isSome_iff_exists.mp (List.find?_isSome.mpr due)
  rw [takeLate, found]
  refine ⟨_, rfl, (trapInto_vq hn ..).trans ?_⟩
  rw [State.tile_updTile, Tile.ctx_setCtx]

theorem lateTaken_none (no : ∀ l ∈ ((s.tile k).ctx n).lates, l.due = false) : lateTaken s k n = none := by
  have none : ((s.tile k).ctx n).lates.any LateTrap.due = false := List.any_eq_false.mpr fun l hl => by simp [no l hl]
  rw [lateTaken, none]; rfl

theorem lateTaken_due {l : LateTrap} (mem : l ∈ ((s.tile k).ctx n).lates) (due : l.due = true) :
    lateTaken s k n = takeLate (vecDrain s k n) k n := if_pos (List.any_eq_true.mpr ⟨l, mem, due⟩)

theorem lateTaken_first (hn : n ≤ 10) (drained : ((s.tile k).ctx n).Drained) {l : LateTrap} {before after : List LateTrap}
    (lates : ((s.tile k).ctx n).lates = before ++ l :: after) (first : ∀ x ∈ before, x.due = false) (due : l.due = true) :
    lateTaken s k n =
      some (trapInto (s.setTile k ((s.tile k).setCtx n { (s.tile k).ctx n with lates := before ++ after })) k n l.code l.val l.pc l.late) := by
  rw [lateTaken_due (by rw [lates]; simp) due, vecDrain_drained hn drained, takeLate_first lates first due]

theorem Ctx.goesOn_eq_true {c : Ctx} (running : c.mode = .running) (awake : c.halted = false) : c.goesOn = true := by
  simp [Ctx.goesOn, running, awake]

theorem Ctx.goesOn_eq_false {c : Ctx} (stopped : c.mode ≠ .running ∨ c.halted = true) : c.goesOn = false := by
  obtain mode | halted := stopped
  · simp [Ctx.goesOn, mode]
  · simp [Ctx.goesOn, halted]

/-! TRAP_TAKEN. -/

theorem exec_trapTaken_not (not : (∀ l ∈ ((s.tile k).ctx n).lates, l.due = false) ∨ ((s.tile k).ctx n).mode ≠ .running ∨ ((s.tile k).ctx n).halted = true) :
    exec (.trapTaken k n) s = .next s := by
  have run : exec (.trapTaken k n) s = execTrapTaken k n s := rfl
  rw [run, execTrapTaken]
  obtain none | stopped := not
  · rw [lateTaken_none none, ite_self]
  · rw [Ctx.goesOn_eq_false stopped]; rfl

theorem exec_trapTaken (running : ((s.tile k).ctx n).mode = .running) (awake : ((s.tile k).ctx n).halted = false) {t : State}
    (taken : lateTaken s k n = some t) : exec (.trapTaken k n) s = .next t := by
  have run : exec (.trapTaken k n) s = execTrapTaken k n s := rfl
  rw [run, execTrapTaken, if_pos (Ctx.goesOn_eq_true running awake), taken]

/-! WINDOW_CLOSE. -/

variable {i : Nat} {w : Win}

theorem exec_windowClose_none (none : ((s.tile k).ctx n).wins[i]? = none) : exec (.windowClose k n i) s = .next s := by
  have run : exec (.windowClose k n i) s = execWindowClose k n i s := rfl
  rw [run, execWindowClose]
  simp only [none]

theorem exec_windowClose_not (at_ : ((s.tile k).ctx n).wins[i]? = some w)
    (not : w.left ≠ 0 ∨ w.arrived = false ∨ ((s.tile k).ctx n).mode ≠ .running ∨ ((s.tile k).ctx n).halted = true) :
    exec (.windowClose k n i) s = .next s := by
  have run : exec (.windowClose k n i) s = execWindowClose k n i s := rfl
  have closed : (winReady (s.tile k) ((s.tile k).ctx n) w && ((s.tile k).ctx n).goesOn) = false := by
    obtain left | arrived | stopped := not
    · rw [winReady, beq_false_of_ne left]; rfl
    · simp [winReady, arrived]
    · simp [Ctx.goesOn_eq_false stopped]
  rw [run, execWindowClose]
  simp only [at_, closed]
  rfl

/-- The state in which a window that is ready has closed. -/
def State.windowClosed (s : State) (k n : Nat) (w : Win) : State := s.setTile k ((s.tile k).setCtx n (((s.tile k).ctx n).closeWin w))

theorem ctx_windowClosed (s : State) (k n : Nat) (w : Win) : ((s.windowClosed k n w).tile k).ctx n = ((s.tile k).ctx n).closeWin w := by
  rw [State.windowClosed, State.tile_setTile, Tile.ctx_setCtx]

/-- A window of a running context may close. -/
structure WinCloses (s : State) (k n i : Nat) (w : Win) : Prop where
  at_ : ((s.tile k).ctx n).wins[i]? = some w
  left : w.left = 0
  arrived : w.arrived = true
  free : Ctx.winBusy (s.tile k) ((s.tile k).ctx n) w = false
  calm : ∀ l ∈ ((s.tile k).ctx n).lates, l.due = false
  running : ((s.tile k).ctx n).mode = .running
  awake : ((s.tile k).ctx n).halted = false

theorem exec_windowClose (h : WinCloses s k n i w) :
    exec (.windowClose k n i) s = .next ((lateTaken (s.windowClosed k n w) k n).getD (s.windowClosed k n w)) := by
  have run : exec (.windowClose k n i) s = execWindowClose k n i s := rfl
  have ready : (winReady (s.tile k) ((s.tile k).ctx n) w && ((s.tile k).ctx n).goesOn) = true := by
    simp [winReady, h.left, h.arrived, h.free, Ctx.goesOn_eq_true h.running h.awake]
  rw [run, execWindowClose]
  simp only [h.at_, ready, if_true]
  cases taken : lateTaken (s.windowClosed k n w) k n with
  | none => rw [State.windowClosed] at taken; simp only [taken]; rfl
  | some t => rw [State.windowClosed] at taken; simp only [taken]; rfl

/-- The failure of a window's operation, as the late trap that it raises. -/
def Win.lateTrap (w : Win) : LateTrap := { code := w.fail, val := w.failVal, pc := w.pc, tag := none, vd := none, late := true, atDone := true }

theorem Ctx.closeWin_failed {c : Ctx} (fail : w.fail ≠ 0) : c.closeWin w = { c with wins := c.wins.erase w, lates := c.lates ++ [w.lateTrap] } := by
  rw [Ctx.closeWin, if_pos (bne_iff_ne.mpr fail)]; rfl

/-- A failed window drains the vector queue (R161). -/
theorem windowClose_drains (h : WinCloses s k n i w) (fail : w.fail ≠ 0) (hn : n ≤ 10) :
    ∃ t, exec (.windowClose k n i) s = .next t ∧ ((t.tile k).ctx n).vq = [] := by
  have mem : w.lateTrap ∈ (((s.windowClosed k n w).tile k).ctx n).lates := by rw [ctx_windowClosed, Ctx.closeWin_failed fail]; simp
  obtain ⟨empty, kept⟩ := vecDrain_empties (s.windowClosed k n w) (k := k) hn
  obtain ⟨t, taken, vq⟩ := takeLate_vq hn (kept _ mem rfl)
  exact ⟨t, by rw [exec_windowClose h, lateTaken_due mem rfl, taken]; rfl, vq.trans empty⟩

/-- A failed window of a context whose queue has drained traps late (R81). -/
theorem windowClose_traps (h : WinCloses s k n i w) (fail : w.fail ≠ 0) (hn : n ≤ 10)
    (settled : { (s.tile k).ctx n with wins := ((s.tile k).ctx n).wins.erase w }.settled) : ∃ m, (m.tile k).ctx n =
      { (s.tile k).ctx n with wins := ((s.tile k).ctx n).wins.erase w } ∧
      exec (.windowClose k n i) s = .next (trapInto m k n w.fail w.failVal w.pc true) := by
  have closed := ctx_windowClosed s k n w
  rw [Ctx.closeWin_failed fail] at closed
  have drained : (((s.windowClosed k n w).tile k).ctx n).Drained := by
    rw [closed]
    obtain ⟨queue, lates, wins⟩ := settled.drained
    exact ⟨queue, fun l hl => (List.mem_append.mp hl).elim (lates l) fun e => by rw [List.mem_singleton.mp e]; rfl, wins⟩
  have taken := lateTaken_first (s := s.windowClosed k n w) (k := k) (before := ((s.tile k).ctx n).lates) (l := w.lateTrap) (after := []) hn drained
    (by rw [closed]) h.calm rfl
  refine ⟨_, ?_, by rw [exec_windowClose h, taken]; rfl⟩
  rw [State.tile_setTile, Tile.ctx_setCtx, closed, List.append_nil]

end

/-! What a window writes as it closes. -/

/-- A window whose operation did not fail writes its register and is gone. -/
structure Ctx.Closes (c d : Ctx) (w : Win) : Prop where
  wins : d.wins = c.wins.erase w
  lates : d.lates = c.lates
  pcc : d.pcc = c.pcc
  k : w.cls = .k → d.readK w.dest = wroteK w.dest ⟨w.resultTag, w.result.setWidth 128⟩
  v : w.cls = .v → d.readV w.dest.toNat = w.result
  m : w.cls = .m → w.dest ≠ 0 → d.readM w.dest.toNat = w.result.setWidth 16
  otherK : ∀ r, w.cls ≠ .k ∨ r ≠ w.dest → d.readK r = c.readK r
  otherV : ∀ r : BitVec 6, w.cls ≠ .v ∨ r ≠ w.dest → d.readV r.toNat = c.readV r.toNat
  otherM : ∀ r : BitVec 6, w.cls ≠ .m ∨ r ≠ w.dest → d.readM r.toNat = c.readM r.toNat

theorem toNat_ne_of_ne {r q : BitVec 6} (h : r ≠ q) : q.toNat ≠ r.toNat := fun e => h (BitVec.eq_of_toNat_eq e.symm)

theorem Ctx.closeWin_closes (c : Ctx) {w : Win} (fail : w.fail = 0) : c.Closes (c.closeWin w) w := by
  cases cls : w.cls with
  | k =>
    have d : c.closeWin w = { c with wins := c.wins.erase w }.writeK w.dest ⟨w.resultTag, w.result.setWidth 128⟩ := by simp [Ctx.closeWin, fail, cls]
    rw [d]
    refine ⟨by simp, by simp, by simp, fun _ => Ctx.readK_writeK .., by simp [cls], by simp [cls], fun r other => ?_, fun r _ => by simp [Ctx.readV],
      fun r _ => by simp [Ctx.readM]⟩
    exact Ctx.readK_writeK_other _ _ (other.resolve_left (not_not.mpr cls)).symm
  | v =>
    have d : c.closeWin w = { c with wins := c.wins.erase w }.writeV w.dest.toNat w.result := by simp [Ctx.closeWin, fail, cls]
    rw [d]
    refine ⟨rfl, rfl, rfl, by simp [cls], fun _ => Ctx.readV_writeV .., by simp [cls], fun r _ => rfl, fun r other => ?_, fun r _ => rfl⟩
    exact Ctx.readV_writeV_other _ _ (toNat_ne_of_ne (other.resolve_left (not_not.mpr cls)))
  | m =>
    have d : c.closeWin w = { c with wins := c.wins.erase w }.writeM w.dest.toNat (w.result.setWidth 16) := by simp [Ctx.closeWin, fail, cls]
    rw [d]
    refine ⟨by simp, by simp, by simp, by simp [cls], by simp [cls], fun _ named => ?_,
      fun r _ => by simp [Ctx.readK], fun r _ => by simp [Ctx.readV],
      fun r other => ?_⟩
    · rw [Ctx.readM_writeM, if_neg]
      exact fun e => named (BitVec.eq_of_toNat_eq e)
    · exact Ctx.readM_writeM_other _ _ (toNat_ne_of_ne (other.resolve_left (not_not.mpr cls)))
  | none =>
    have d : c.closeWin w = { c with wins := c.wins.erase w } := by simp [Ctx.closeWin, fail, cls]
    rw [d]
    exact ⟨rfl, rfl, rfl, by simp [cls], by simp [cls], by simp [cls], fun _ _ => rfl, fun _ _ => rfl, fun _ _ => rfl⟩

/-! The arbiter (R296). -/

/-- A context that stands without deficit and credit at the arbiter. -/
def Tile.cleared (t : Tile) (n : Nat) : Prop := AMap.getD t.deficit n 0 = 0 ∧ t.credited.getLsbD n = false

/-- The tile after the pointer has passed a context with no head. -/
def Tile.passVec (t : Tile) : Tile :=
  { t with
    deficit := AMap.erase t.deficit (t.vptr % 11), credited := t.credited &&& ~~~(1#11 <<< (t.vptr % 11)), vptr := (t.vptr % 11 + 1) % 11 }

theorem Tile.passVec_cleared (t : Tile) (n : Nat) (h : n = t.vptr % 11 ∨ t.cleared n) : t.passVec.cleared n := by
  have low : n = t.vptr % 11 → n < 11 := fun e => by omega
  refine ⟨?_, ?_⟩
  · change AMap.getD (AMap.erase t.deficit (t.vptr % 11)) n 0 = 0
    by_cases e : t.vptr % 11 = n
    · rw [AMap.getD, ← e, AMap.get?_erase_same]; rfl
    · rw [AMap.getD, AMap.get?_erase_other _ e]
      exact (h.resolve_left (Ne.symm e)).1
  · change (t.credited &&& ~~~(1#11 <<< (t.vptr % 11))).getLsbD n = false
    obtain e | ⟨-, clear⟩ := h
    · subst e
      simp
    · simp [clear]

theorem Tile.arbitrate_pass {t : Tile} (idle : (t.ctx (t.vptr % 11)).vecHead = none) (g m : Nat) :
    t.arbitrate g (m + 1) = t.passVec.arbitrate g m := by
  rw [Tile.arbitrate]
  simp only [idle]
  rfl

/-- With no head in any queue the pointer goes round and clears what it passes (log entry 16). -/
theorem Tile.arbitrate_idle (g m : Nat) : ∀ t : Tile, (∀ n, n < 11 → (t.ctx n).vecHead = none) →
    t.arbitrate g m = { t with
      deficit := (t.arbitrate g m).deficit, credited := (t.arbitrate g m).credited, vptr := (t.arbitrate g m).vptr } ∧
    (0 < m → (t.arbitrate g m).vptr = (t.vptr + m) % 11) ∧
    ∀ n, t.cleared n ∨ (∃ i, i < m ∧ n = (t.vptr + i) % 11) → (t.arbitrate g m).cleared n := by
  induction m with
  | zero => exact fun t _ => ⟨rfl, nofun, fun n h => h.resolve_right fun ⟨i, lt, _⟩ => Nat.not_lt_zero i lt⟩
  | succ m ih =>
    intro t idle
    obtain ⟨frame, pointer, clears⟩ := ih t.passVec idle
    have place : t.passVec.vptr = (t.vptr % 11 + 1) % 11 := rfl
    rw [Tile.arbitrate_pass (idle _ (Nat.mod_lt _ (by omega)))]
    refine ⟨by rw [frame]; rfl, fun _ => ?_, fun n h => clears n ?_⟩
    · by_cases last : m = 0
      · subst last
        exact place.trans (by omega)
      · rw [pointer (by omega), place]
        omega
    · obtain clear | ⟨i, lt, e⟩ := h
      · exact .inl (t.passVec_cleared n (.inr clear))
      · cases i with
        | zero => exact .inl (t.passVec_cleared n (.inl e))
        | succ i => exact .inr ⟨i, by omega, by rw [e, place]; omega⟩

theorem Tile.vecWaiting_false {t : Tile} (idle : ∀ n, n < 11 → (t.ctx n).vecHead = none) : t.vecWaiting = false :=
  List.any_eq_false.mpr fun n hn => by simp [idle n (List.mem_range.mp hn)]

theorem Tile.vecWaiting_true {t : Tile} {n : Nat} (hn : n < 11) {e : VqEntry} (head : (t.ctx n).vecHead = some e) : t.vecWaiting = true :=
  List.any_eq_true.mpr ⟨n, List.mem_range.mpr hn, by rw [head]; rfl⟩

theorem Ctx.vecHead_none {c : Ctx} (bound : ∀ e ∈ c.vq, e.group ≠ none) : c.vecHead = none :=
  List.find?_eq_none.mpr fun e he => by simpa using bound e he

theorem Ctx.vecHead_some {c : Ctx} {e : VqEntry} {before after : List VqEntry} (queue : c.vq = before ++ e :: after)
    (bound : ∀ x ∈ before, x.group ≠ none) (free : e.group = none) : c.vecHead = some e := by
  rw [Ctx.vecHead, queue, List.find?_append, List.find?_eq_none.mpr fun x hx => by simpa using bound x hx]
  simp [free]

section
variable {s : State} {k g n : Nat}

theorem map_eq_self {α : Type} {f : α → α} {l : List α} (h : ∀ x ∈ l, f x = x) : l.map f = l := (List.map_congr_left h).trans (List.map_id l)

/-- Binding the head of a context marks it and takes the group. -/
theorem Tile.bindHead_eq {t : Tile} {e : VqEntry} (head : (t.ctx n).vecHead = some e) : t.bindHead n g =
    { t.setCtx n { t.ctx n with vq := (t.ctx n).vq.map fun x => if x.op = e.op then { x with group := some g } else x } with
      groups := AMap.set t.groups g (n, e.op) } := by
  rw [Tile.bindHead]
  simp only [head]
  rfl

theorem exec_laneGroupBind_not (busy : 4 ≤ g ∨ AMap.get? (s.tile k).groups g ≠ none) : exec (.laneGroupBind k g) s = .next s := by
  have run : exec (.laneGroupBind k g) s = execLaneGroupBind k g s := rfl
  rw [run]
  refine if_neg fun ⟨low, free⟩ => ?_
  obtain high | taken := busy
  · omega
  · exact taken (Option.isNone_iff_eq_none.mp free)

theorem exec_laneGroupBind (low : g < 4) (free : AMap.get? (s.tile k).groups g = none) : exec (.laneGroupBind k g) s =
    .next (s.setTile k ((s.tile k).arbitrate g (if (s.tile k).vecWaiting then 64 else 11))) :=
  if_pos ⟨low, Option.isNone_iff_eq_none.mpr free⟩

/-- With every entry bound, every deficit and credit becomes 0 and the pointer stays. -/
theorem laneGroupBind_idle (low : g < 4) (free : AMap.get? (s.tile k).groups g = none)
    (bound : ∀ n, n < 11 → ∀ e ∈ ((s.tile k).ctx n).vq, e.group ≠ none) :
    ∃ t, exec (.laneGroupBind k g) s = .next t ∧ (∀ n, n < 11 → (t.tile k).cleared n) ∧ (t.tile k).vptr = (s.tile k).vptr % 11 ∧
      t.tile k = { s.tile k with deficit := (t.tile k).deficit, credited := (t.tile k).credited, vptr := (t.tile k).vptr } ∧
      (∀ q, q ≠ k → t.tile q = s.tile q) ∧ t = { s with tiles := t.tiles } := by
  have idle : ∀ n, n < 11 → ((s.tile k).ctx n).vecHead = none := fun n hn => Ctx.vecHead_none (bound n hn)
  obtain ⟨frame, pointer, clears⟩ := Tile.arbitrate_idle g 11 (s.tile k) idle
  have run := exec_laneGroupBind low free
  rw [Tile.vecWaiting_false idle, if_neg Bool.false_ne_true] at run
  refine ⟨_, run, fun n hn => ?_, ?_, ?_, fun q hq => State.tile_setTile_other _ _ hq.symm, rfl⟩
  · rw [State.tile_setTile]
    exact clears n (.inr ⟨(n + 11 - (s.tile k).vptr % 11) % 11, by omega, by omega⟩)
  · rw [State.tile_setTile, pointer (by omega)]
    omega
  · rw [State.tile_setTile]
    exact frame

/-- The head of the context at the pointer is bound once its deficit covers the cost. -/
theorem laneGroupBind_binds (low : g < 4) (free : AMap.get? (s.tile k).groups g = none) {e : VqEntry} {before after : List VqEntry}
    (at_ : n = (s.tile k).vptr % 11) (queue : ((s.tile k).ctx n).vq = before ++ e :: after) (bound : ∀ x ∈ before, x.group ≠ none)
    (unbound : e.group = none) (only : ∀ x ∈ before ++ after, x.op ≠ e.op) {d : Nat}
    (deficit : (if (s.tile k).credited.getLsbD n then AMap.getD (s.tile k).deficit n 0
      else min (AMap.getD (s.tile k).deficit n 0 + 4 * ((s.tile k).ctx n).vqw.toNat) (4 * ((s.tile k).ctx n).vqw.toNat + 15)) = d)
    (covers : vecCost e.instr ≤ d) :
    ∃ t, exec (.laneGroupBind k g) s = .next t ∧ AMap.get? (t.tile k).groups g = some (n, e.op) ∧
      ((t.tile k).ctx n).vq = before ++ { e with group := some g } :: after ∧
      AMap.getD (t.tile k).deficit n 0 = d - vecCost e.instr ∧ (t.tile k).vptr = (s.tile k).vptr ∧ (t.tile k).credited.getLsbD n = true ∧
      (∀ q, q ≠ n → (t.tile k).ctx q = (s.tile k).ctx q) ∧ (∀ q, q ≠ g → AMap.get? (t.tile k).groups q = AMap.get? (s.tile k).groups q) ∧
      (∀ q, q ≠ k → t.tile q = s.tile q) ∧ s.sameTlm t ∧ s.sameGmem t := by
  have head := Ctx.vecHead_some queue bound unbound
  have run := exec_laneGroupBind low free
  rw [Tile.vecWaiting_true (by omega) head, if_pos rfl, Tile.arbitrate] at run
  have bind : ∀ df cr, ({ s.tile k with deficit := df, credited := cr } : Tile).bindHead n g = _ := fun df cr =>
    Tile.bindHead_eq (t := { s.tile k with deficit := df, credited := cr }) head
  simp only [← at_, head, deficit, if_pos covers, bind] at run
  have marked : ((s.tile k).ctx n).vq.map (fun x => if x.op = e.op then { x with group := some g } else x) =
      before ++ { e with group := some g } :: after := by
    rw [queue, List.map_append, List.map_cons, if_pos rfl]
    congr 1
    · exact map_eq_self fun x hx => if_neg (only x (List.mem_append_left _ hx))
    · congr 1
      exact map_eq_self fun x hx => if_neg (only x (List.mem_append_right _ hx))
  have low11 : n < 11 := by omega
  have credit : ((s.tile k).credited ||| (1#11 <<< n)).getLsbD n = true := by simp [low11]
  refine ⟨_, run, ?_, ?_, ?_, ?_, ?_, fun q hq => ?_, fun q hq => ?_, fun q hq => State.tile_setTile_other _ _ hq.symm, ?_, fun _ => rfl⟩
  · rw [State.tile_setTile]
    exact AMap.get?_set_same ..
  · rw [State.tile_setTile]
    exact (congrArg Ctx.vq (Tile.ctx_setCtx ..)).trans marked
  · rw [State.tile_setTile]
    exact (AMap.getD_set ..).trans (if_pos rfl)
  · rw [State.tile_setTile]; rfl
  · rw [State.tile_setTile]
    exact credit
  · rw [State.tile_setTile]
    exact Tile.ctx_setCtx_other _ _ hq.symm
  · rw [State.tile_setTile]
    exact AMap.get?_set_other _ _ hq.symm
  · refine sameTlm_of_tile (k := k) ?_ fun q hq => State.tile_setTile_other _ _ hq.symm
    rw [State.tile_setTile]; rfl

end

/-- Settles O44: each event by the condition under which it acts and the one under which it does nothing. -/
theorem vectorUnitEvents : Obligations.VectorUnitEvents := by
  refine ⟨fun k g s => ⟨exec_laneGroupBind_not, laneGroupBind_idle, fun low free n e before after at_ queue bound unbound only covers => ?_⟩,
    fun k n i s => ⟨exec_windowClose_none, fun w at_ => ⟨exec_windowClose_not at_, fun left arrived free calm running awake => ?_⟩⟩,
    fun k n s => ⟨exec_trapTaken_not, fun l before after lates first due queue named wins hn running awake => ?_⟩⟩
  · exact laneGroupBind_binds low free at_ queue bound unbound only rfl covers
  · have h : WinCloses s k n i w := ⟨at_, left, arrived, free, calm, running, awake⟩
    refine ⟨fun fail => ?_, fun fail hn => windowClose_drains h fail hn, fun fail hn settled => ?_⟩
    · have closes := Ctx.closeWin_closes ((s.tile k).ctx n) fail
      have calm' : ∀ l ∈ (((s.windowClosed k n w).tile k).ctx n).lates, l.due = false := by rw [ctx_windowClosed, closes.lates]; exact calm
      refine ⟨s.windowClosed k n w, by rw [exec_windowClose h, lateTaken_none calm']; rfl, ?_⟩
      rw [ctx_windowClosed]
      refine ⟨closes.wins, closes.lates, closes.pcc, closes.k, closes.v, closes.m, closes.otherK, closes.otherV, closes.otherM, fun q hq => ?_, ?_,
        fun _ => rfl⟩
      · rw [State.windowClosed, State.tile_setTile, Tile.ctx_setCtx_other _ _ hq.symm]
      · refine sameTlm_of_tile (k := k) ?_ fun q hq => State.tile_setTile_other _ _ hq.symm
        rw [State.windowClosed, State.tile_setTile]; rfl
    · obtain ⟨m, ctx, run⟩ := windowClose_traps h fail hn settled
      obtain ⟨helper, monitor⟩ := trapInto_trapped m k hn w.fail w.failVal w.pc true
      rw [causeWord_eq_ofNat] at helper monitor
      exact ⟨m, _, run, ctx, fun one => helper (by omega), monitor⟩
  · have taken := lateTaken_first hn ⟨queue, named, wins⟩ lates first due
    obtain ⟨helper, monitor⟩ := trapInto_trapped (s.setTile k ((s.tile k).setCtx n { (s.tile k).ctx n with lates := before ++ after })) k hn
      l.code l.val l.pc l.late
    rw [causeWord_eq_ofNat] at helper monitor
    exact ⟨_, _, exec_trapTaken running awake taken, rfl, helper, monitor⟩

end Sys2Proof.Machine
end

section
/-!
O40, the issue of vector instructions (06 R158, R167). The statement takes the place of a VCVTO with TOK from the channel that its port names,
also where the port is of an ordered stream: there the token takes a place among the stream's messages, and the channel stays as it was.
-/

namespace Sys2Proof.Machine

/-- An open output of actor 0 with room for one token in a firing, which is of an ordered stream and names channel 0 too. -/
def orderedChanPort : Port := { Port.blank with declared := true, output := true, count := 1, ordered := true, chan := some 0 }

/-- Tile 0 runs a firing of actor 0 on helper 1, with that port as port 0. -/
def orderedChanState : State :=
  { State.reset with
    cur := ⟨0, 1⟩
    chans := [(0, bareChan)]
    tiles := [(0, { Tile.init with
      ctxs := [(1, { Ctx.init with mode := .running, role := .primary })]
      slots := [(Tile.init.active, { Slot.blank with
        ports := [(0, orderedChanPort)], actors := [(0, { Actor.blank with live := some doneFiring })] })] })] }

/-- A VCVTO from FP32 to UINT8 with TOK on port 0. -/
def tokenCvto : VW := { d := 1, a := 1, b := 0, vc := 0, etype := 2, mask := 0, rm := 0, sat := 0, la := 0, imm := 0x87 }

/-- The channel's SEQ stays 0. -/
theorem tokenCvto_seq (t : State) (h : exec (.vcvto tokenCvto) orderedChanState = .next t) : (t.chan? 0).map Chan.seq = some 0 := by
  have run : (match exec (.vcvto tokenCvto) orderedChanState with
      | .next u => (u.chan? 0).map Chan.seq
      | _ => some 0) = some 0 := by decide +kernel
  rwa [h] at run

theorem tokenCvto_putOk : PutOk orderedChanState 0 := by
  have queue : orderedChanState.me.vq = [] := by decide +kernel
  exact { who := by decide +kernel, declared := by decide +kernel, output := by decide +kernel, actor := by decide +kernel
          unbound := by decide +kernel, room := by decide +kernel, unclosed := by decide +kernel, acquired := by decide +kernel
          placed := by decide +kernel, first := by rw [queue]; exact fun _ h => nomatch h }

theorem vcvto_mem (f : VW) : .vcvto f ∈ vectorInstrs f := List.mem_iff_getElem?.mpr ⟨34, rfl⟩

/-- Refutes O40: a VCVTO with TOK may put on a port that names a channel, and takes no SEQ of it. The counterexample needs a port that is of an
ordered stream and names a channel. -/
theorem not_vectorIssue : ¬ Obligations.VectorIssue := by
  intro holds
  have lates : orderedChanState.me.lates = [] := by decide +kernel
  have wins : orderedChanState.me.wins = [] := by decide +kernel
  obtain ⟨-, -, issues⟩ := holds tokenCvto orderedChanState (.vcvto tokenCvto) ⟨tokenCvto, .v, .v, .k, false⟩ (vcvto_mem _) rfl
  obtain ⟨-, enters⟩ := issues (by decide +kernel) (by rw [lates]; exact fun _ h => nomatch h) (by rw [wins]; exact fun _ h => nomatch h) (.inl rfl)
  obtain ⟨-, -, -, -, -, takes, -⟩ := enters (by decide +kernel)
  obtain ⟨t, e, d, run, -, -, -, chan, seq, -⟩ := takes 0 bareChan ⟨by decide, rfl⟩ tokenCvto_putOk (by decide +kernel) (by decide +kernel)
  have stays := tokenCvto_seq t run
  rw [chan, Option.map_some, seq] at stays
  exact absurd stays (by decide)

end Sys2Proof.Machine
end

section
/-!
Replies at the tile (09 R229, 10 R237, R240, R244, R348): the value or the failure reaches the context that runs the request's task, the
request is over, its tag is set and its token sent. A reply of another residency is dropped and counted.
-/

namespace Sys2Proof.Machine

/-! Tokens put and places filled on a channel. -/

theorem State.chan?_congr {s t : State} (h : t.chans = s.chans) (n : Nat) : t.chan? n = s.chan? n := by rw [State.chan?, h]; rfl

theorem Tile.complPort_congr {t u : Tile} (h : u.slot = t.slot) (a : Nat) : u.complPort a = t.complPort a := by rw [Tile.complPort, h]; rfl

theorem Tile.port_congr {t u : Tile} (h : u.slot = t.slot) (p : Nat) : u.port p = t.port p := by rw [Tile.port, h]; rfl

/-- A completion token takes the next SEQ of its channel. -/
theorem chan_sendCompletion {s : State} {k a p n : Nat} {c : Chan} (g : BitVec 6) (port : (s.tile k).complPort a = some p)
    (free : ((s.tile k).actor a).held = false) (plain : ((s.tile k).port p).ordered = false) (chan : ((s.tile k).port p).chan = some n)
    (here : s.chan? n = some c) : ∃ d, (s.sendCompletion k a g).chan? n = some d ∧ d.seq = c.seq + 1 := by
  have sent : s.sendCompletion k a g = s.setChan n (c.put .data (g.setWidth 512) 0 []) := by
    simp only [State.sendCompletion, port, free, State.putPort_plain (kind := .data) (by decide) plain chan, here]
    rfl
  exact ⟨_, sent ▸ State.chan_setChan .., Chan.put_seq ..⟩

theorem State.fillPort_plain {s : State} {k p m : Nat} {c : Chan} (n : Nat) (kind : TokKind) (x : Line)
    (plain : ((s.tile k).port p).ordered = false) (chan : ((s.tile k).port p).chan = some m) (here : s.chan? m = some c) :
    s.fillPort k p n kind x = s.setChan m (c.fill n kind x) := by
  simp only [State.fillPort, plain, chan, here]
  rfl

theorem Chan.enter_seq (c : Chan) (f : Flight) : (c.enter f).seq = c.seq := by
  unfold Chan.enter
  split <;> rfl

theorem Chan.fill_seq (c : Chan) (n : Nat) (kind : TokKind) (x : Line) : (c.fill n kind x).seq = c.seq := Chan.enter_seq ..

theorem Chan.enter_single {c : Chan} {b : Branch} (one : c.branches = [b]) (f : Flight) :
    (c.enter f).branches = [{ b with flights := b.flights ++ [f] }] := by
  simp only [Chan.enter, one]

/-- The token that fills a place: it has the place's SEQ and the round number fixed at issue. -/
def Chan.fillToken (c : Chan) (n : Nat) (kind : TokKind) (x : Line) : Token :=
  ({ c with rounds := AMap.getD c.reserved n c.rounds } : Chan).token kind x 0 n

theorem Chan.fill_branches {c : Chan} {b : Branch} (one : c.branches = [b]) (n : Nat) (kind : TokKind) (x : Line) :
    (c.fill n kind x).branches.map (·.flights) = [b.flights ++ [{ tok := c.fillToken n kind x, after := [] }]] :=
  congrArg (List.map Branch.flights) (Chan.enter_single one _)

theorem Chan.fillToken_payload (c : Chan) (n : Nat) {kind : TokKind} (notEos : kind ≠ .eos) (x : Line) : (c.fillToken n kind x).payload = x :=
  if_neg notEos

theorem Chan.fillToken_round (c : Chan) (n : Nat) (x : Line) :
    (c.fillToken n .data x).round = BitVec.ofNat 16 (AMap.getD c.reserved n c.rounds) := rfl

theorem Chan.fill_single {c : Chan} {b : Branch} (one : c.branches = [b]) (n : Nat) {kind : TokKind} (notEos : kind ≠ .eos) (x : Line) :
    ∃ tok : Token, tok.kind = kind ∧ tok.payload = x ∧ tok.seq = n ∧
      (kind = .data → tok.round = BitVec.ofNat 16 (AMap.getD c.reserved n c.rounds)) ∧
      (c.fill n kind x).branches.map (·.flights) = [b.flights ++ [{ tok := tok, after := [] }]] := by
  refine ⟨c.fillToken n kind x, rfl, c.fillToken_payload n notEos x, rfl, ?_, Chan.fill_branches one ..⟩
  rintro rfl
  exact c.fillToken_round n x

/-! Tag and token of an answered request. -/

/-- The tag of a request set. -/
def GReq.tagged (q : GReq) (t : Tile) : Tile := q.tag.elim t (t.setTaskTag q.task)

def GReq.tagBits (q : GReq) (tags : Word) : Word := q.tag.elim tags fun g => tags ||| (1#64 <<< g.toNat)

theorem GReq.tagged_ctx (q : GReq) (t : Tile) (m : Nat) : (q.tagged t).ctx m =
    if (t.ctx m).task = q.task ∧ (t.ctx m).mode ≠ .free then { t.ctx m with tags := q.tagBits (t.ctx m).tags } else t.ctx m := by
  cases tag : q.tag with
  | none => rw [GReq.tagged, GReq.tagBits, tag]; exact (ite_self _).symm
  | some g => rw [GReq.tagged, GReq.tagBits, tag]; exact Tile.ctx_updTask ..

theorem GReq.tagged_reqs (q : GReq) (t : Tile) : (q.tagged t).reqs = t.reqs := by
  unfold GReq.tagged; cases q.tag <;> rfl

theorem GReq.tagged_tlm (q : GReq) (t : Tile) : (q.tagged t).tlm = t.tlm := by
  unfold GReq.tagged; cases q.tag <;> rfl

theorem replyTag_untagged {q : GReq} (tag : q.tag = none) (s : State) (k : Nat) : replyTag s k q = s := by
  simp only [replyTag, tag]

theorem replyTag_tagged {q : GReq} {g : BitVec 6} (tag : q.tag = some g) (s : State) (k : Nat) :
    replyTag s k q = s.opDone k q.task q.actor g (q.tok && q.seq.isNone) := by
  simp only [replyTag, tag]

theorem TagStep.replyTag (s : State) (k : Nat) (q : GReq) : TagStep s (replyTag s k q) := by
  cases tag : q.tag with
  | none => rw [replyTag_untagged tag]; exact .refl s
  | some g => rw [replyTag_tagged tag]; exact .opDone ..

/-- After its tag is set, only tokens move for a request. -/
theorem TokenStep.replyTag (s : State) (k : Nat) (q : GReq) : TokenStep (s.updTile k q.tagged) (replyTag s k q) := by
  cases tag : q.tag with
  | none =>
    have same : q.tagged (s.tile k) = s.tile k := by rw [GReq.tagged, tag]; rfl
    rw [replyTag_untagged tag, State.updTile, same]
    refine ⟨fun j => ?_, fun _ => rfl, rfl⟩
    rw [State.tile_setTile_apply]
    split
    case isTrue e => rw [e]; exact .refl _
    case isFalse => exact .refl _
  | some g =>
    have same : s.updTile k q.tagged = s.updTile k fun t => t.setTaskTag q.task g := by
      rw [State.updTile, GReq.tagged, tag]; rfl
    rw [replyTag_tagged tag, same, State.opDone]
    split
    · exact .sendCompletion ..
    · exact .refl _

/-- The token of a place goes out as the place's fill, not when the tag is set. -/
theorem replyTag_chans {q : GReq} {n : Nat} (place : q.seq = some n) (s : State) (k : Nat) : (replyTag s k q).chans = s.chans := by
  cases tag : q.tag with
  | none => rw [replyTag_untagged tag]
  | some g => rw [replyTag_tagged tag, place, Option.isNone_some, Bool.and_false]; rfl

/-- A completion token that a request asks for takes the next SEQ of the completion port's channel. -/
theorem chan_replyTag {s : State} {k p n : Nat} {q : GReq} {c : Chan} (tok : q.tok = true) (tag : q.tag ≠ none) (place : q.seq = none)
    (port : (s.tile k).complPort q.actor = some p) (free : ((s.tile k).actor q.actor).held = false)
    (plain : ((s.tile k).port p).ordered = false) (chan : ((s.tile k).port p).chan = some n) (here : s.chan? n = some c) :
    ∃ d, (replyTag s k q).chan? n = some d ∧ d.seq = c.seq + 1 := by
  obtain ⟨g, tag⟩ := Option.ne_none_iff_exists'.mp tag
  rw [replyTag_tagged tag, tok, place, Option.isNone_none, Bool.and_true, State.opDone]
  have slot : ((s.updTile k fun t => t.setTaskTag q.task g).tile k).slot = (s.tile k).slot := by rw [State.tile_updTile]; rfl
  exact chan_sendCompletion g ((Tile.complPort_congr slot _).trans port) (by rw [Tile.actor, slot]; exact free)
    (by rw [Tile.port_congr slot]; exact plain) (by rw [Tile.port_congr slot]; exact chan) here

/-! What a reply does to a context. -/

/-- A reply changes of its context k registers, windows and late traps. -/
def Ctx.answered (c d : Ctx) : Prop := d = { c with k := d.k, wins := d.wins, lates := d.lates }

theorem Ctx.answered_writeInt (c : Ctx) (r : BitVec 6) (v : Word) : c.answered (c.writeInt r v) := by
  unfold Ctx.writeInt Ctx.writeK
  split <;> rfl

theorem replyCtx_answered (id : Nat) (q : GReq) (r : Reply) (c : Ctx) : c.answered (replyCtx id q r c) := by
  cases r with
  | data v =>
    unfold replyCtx
    dsimp only
    split
    · rfl
    · split
      · exact Ctx.answered_writeInt ..
      · rfl
  | poison | passed =>
    unfold replyCtx
    dsimp only
    split <;> rfl
  | ack | retry | swq _ _ _ => rfl

theorem replyCtx_poison (id : Nat) {q : GReq} (plain : q.win = false) (c : Ctx) :
    replyCtx id q .poison c = { c with lates := c.lates ++ [replyTrap q codePoison] } :=
  if_neg (by rw [plain]; exact Bool.false_ne_true)

theorem replyCtx_passed (id : Nat) {q : GReq} (plain : q.win = false) (c : Ctx) :
    replyCtx id q .passed c = { c with lates := c.lates ++ [replyTrap q codeVersionPassed] } :=
  if_neg (by rw [plain]; exact Bool.false_ne_true)

theorem replyCtx_readK {id : Nat} {q : GReq} {r : Reply} (failed : r = .poison ∨ r = .passed) (c : Ctx) (j : BitVec 6) :
    (replyCtx id q r c).readK j = c.readK j := by
  have same : (replyCtx id q r c).k = c.k := by
    unfold replyCtx
    rcases failed with rfl | rfl <;> dsimp only <;> split <;> rfl
  rw [Ctx.readK, same]; rfl

theorem replyCtx_window (id : Nat) {q : GReq} (win : q.win = true) (v : Word) (c : Ctx) :
    replyCtx id q (.data v) c = c.winArrive id (v.setWidth 512) false 0 0 :=
  if_pos win

theorem replyCtx_write (id : Nat) {q : GReq} (win : q.win = false) (v : Word) (c : Ctx) :
    replyCtx id q (.data v) c = q.dest.elim c (c.writeInt · v) := by
  unfold replyCtx
  rw [win]
  cases q.dest <;> rfl

/-! The end of a request. -/

/-- What the reply does to the contexts that run the request's task. -/
def GReq.answer (q : GReq) (id : Nat) : Reply → Ctx → Ctx
  | .swq h r0 b => swqReply q h r0 b
  | .passed => if q.seq.isSome then fun c => c else replyCtx id q .passed
  | r => replyCtx id q r

/-- The state in which a request is gone and its contexts have their answer. -/
def State.answer (s : State) (k id : Nat) (q : GReq) (f : Ctx → Ctx) : State := s.updTile k fun t => (t.dropReq id).updTask q.task f

/-- The request is over: its tile lists it no more, its task has the answer, and its tag is set. -/
structure RequestOver (s t : State) (k id : Nat) (q : GReq) (f : Ctx → Ctx) : Prop where
  gone : AMap.get? (t.tile k).reqs id = none
  others : ∀ j, j ≠ id → AMap.get? (t.tile k).reqs j = AMap.get? (s.tile k).reqs j
  tlm : s.sameTlm t
  gmem : s.sameGmem t
  apart : ∀ m, ¬(((s.tile k).ctx m).task = q.task ∧ ((s.tile k).ctx m).mode ≠ .free) → (t.tile k).ctx m = (s.tile k).ctx m
  ctx : ∀ m, ((s.tile k).ctx m).task = q.task ∧ ((s.tile k).ctx m).mode ≠ .free →
    (t.tile k).ctx m = { f ((s.tile k).ctx m) with tags := q.tagBits ((s.tile k).ctx m).tags }
  sends : ∀ p n c, q.tok = true → q.tag ≠ none → q.seq = none → (s.tile k).complPort q.actor = some p →
    ((s.tile k).actor q.actor).held = false → ((s.tile k).port p).ordered = false → ((s.tile k).port p).chan = some n →
    s.chan? n = some c → ∃ d, t.chan? n = some d ∧ d.seq = c.seq + 1

/-- What an answered request leaves, given a tile that has lost it and whose contexts have the answer. -/
theorem requestOver {s : State} {k id h : Nat} {q : GReq} {f : Ctx → Ctx} {u : Tile} (reqs : u.reqs = AMap.erase (s.tile k).reqs id)
    (tlm : u.tlm = (s.tile k).tlm) (slot : u.slot = (s.tile k).slot)
    (ctx : ∀ m, u.ctx m = if ((s.tile k).ctx m).task = q.task ∧ ((s.tile k).ctx m).mode ≠ .free then f ((s.tile k).ctx m) else (s.tile k).ctx m)
    (keeps : ∀ c, (c : Ctx).answered (f c)) : RequestOver s ((replyTag (s.setTile k u) k q).moved h) k id q f := by
  have steps : TokenStep (s.setTile k (q.tagged u)) ((replyTag (s.setTile k u) k q).moved h) := by
    refine .trans ?_ (.moved ..)
    have tokens := TokenStep.replyTag (s.setTile k u) k q
    rwa [State.updTile, State.tile_setTile, State.setTile_setTile] at tokens
  have tile : (s.setTile k (q.tagged u)).tile k = q.tagged u := State.tile_setTile ..
  have there : ((((replyTag (s.setTile k u) k q).moved h)).tile k).reqs = u.reqs := by
    rw [(steps.tiles k).tile, tile]; exact GReq.tagged_reqs ..
  refine ⟨?_, fun j hj => ?_, fun j a => ?_, steps.sameGmem, fun m apart => ?_, fun m runs => ?_,
    fun p n c tok tag place port free plain chan here => ?_⟩
  · rw [there, reqs]; exact AMap.get?_erase_same ..
  · rw [there, reqs]; exact AMap.get?_erase_other _ (Ne.symm hj)
  · rw [(steps.tiles j).tlm, State.tile_setTile_apply]
    split
    case isTrue e => rw [GReq.tagged_tlm, tlm, e]
    case isFalse => rfl
  · rw [steps.ctx, tile, GReq.tagged_ctx, ctx, if_neg apart, if_neg apart]
  · have kept := keeps ((s.tile k).ctx m)
    have still : (f ((s.tile k).ctx m)).task = q.task ∧ (f ((s.tile k).ctx m)).mode ≠ .free := by rw [kept]; exact runs
    rw [steps.ctx, tile, GReq.tagged_ctx, ctx, if_pos runs, if_pos still, show (f ((s.tile k).ctx m)).tags = ((s.tile k).ctx m).tags by rw [kept]]
  · have slot' : ((s.setTile k u).tile k).slot = (s.tile k).slot := by rw [State.tile_setTile, slot]
    obtain ⟨d, chan, seq⟩ := chan_replyTag (s := s.setTile k u) (c := c) tok tag place ((Tile.complPort_congr slot' _).trans port)
      (by rw [Tile.actor, slot']; exact free) (by rw [Tile.port_congr slot']; exact plain) (by rw [Tile.port_congr slot']; exact chan) here
    exact ⟨d, (State.chan?_congr (State.moved_chans ..) n).trans chan, seq⟩

theorem requestOver_answer {s : State} {k id h : Nat} {q : GReq} {f : Ctx → Ctx} (keeps : ∀ c, (c : Ctx).answered (f c)) :
    RequestOver s ((replyTag (s.answer k id q f) k q).moved h) k id q f :=
  requestOver rfl rfl rfl (fun _ => Tile.ctx_updTask ..) keeps

theorem requestOver_store {s : State} {k id h : Nat} {q : GReq} :
    RequestOver s ((replyTag (s.updTile k fun t => t.dropReq id) k q).moved h) k id q (fun c => c) :=
  requestOver rfl rfl rfl (fun _ => (ite_self _).symm) fun _ => rfl

/-! The three events. -/

theorem GReq.ours_iff (q : GReq) (t : Tile) : q.ours t = true ↔ q.ctxNo = 0 ∨ q.resid = t.slot.resid := by
  rw [GReq.ours, Bool.or_eq_true, beq_iff_eq, beq_iff_eq]

theorem execGlobalReply_waits {k id : Nat} {s : State} {q : GReq} (found : AMap.get? (s.tile k).reqs id = some q)
    (h : q.reply = none ∨ q.reply = some .ack ∨ q.reply = some .retry) : exec (.globalReply k id) s = .next s := by
  have run : exec (.globalReply k id) s = execGlobalReply k id s := rfl
  rw [run, execGlobalReply]
  rcases h with h | h | h <;> simp only [found, h]

theorem execGlobalReply_dropped {k id : Nat} {s : State} {q : GReq} (found : AMap.get? (s.tile k).reqs id = some q)
    (other : ¬(q.ctxNo = 0 ∨ q.resid = (s.tile k).slot.resid)) (some_ : q.reply ≠ none) (notAck : q.reply ≠ some .ack)
    (notRetry : q.reply ≠ some .retry) : exec (.globalReply k id) s = .next (dropReply s k id q) := by
  have run : exec (.globalReply k id) s = execGlobalReply k id s := rfl
  have ours : q.ours (s.tile k) = false := Bool.eq_false_iff.mpr fun h => other ((q.ours_iff _).mp h)
  obtain ⟨r, reply⟩ := Option.ne_none_iff_exists'.mp some_
  rw [run, execGlobalReply, found]
  dsimp only
  rw [reply, ours]
  cases r with
  | ack => exact absurd reply notAck
  | retry => exact absurd reply notRetry
  | _ => rfl

theorem execGlobalReply_answers {k id : Nat} {s : State} {q : GReq} {r : Reply} (found : AMap.get? (s.tile k).reqs id = some q)
    (ours : q.ctxNo = 0 ∨ q.resid = (s.tile k).slot.resid) (reply : q.reply = some r) (notAck : r ≠ .ack) (notRetry : r ≠ .retry) :
    let s' := s.answer k id q (q.answer id r)
    exec (.globalReply k id) s = .next ((replyTag (q.seq.elim s' fun n => gldvFill s' k q n r) k q).moved (s.handleOf k)) := by
  have run : exec (.globalReply k id) s = execGlobalReply k id s := rfl
  rw [run, execGlobalReply, found]
  dsimp only
  rw [reply, (q.ours_iff _).mpr ours, GReq.answer.eq_def]
  cases r with
  | ack => exact absurd rfl notAck
  | retry => exact absurd rfl notRetry
  | _ => cases q.seq <;> rfl

theorem execStoreAck_waits {k id : Nat} {s : State} {q : GReq} (found : AMap.get? (s.tile k).reqs id = some q) (h : q.reply ≠ some .ack) :
    exec (.storeAck k id) s = .next s := by
  have run : exec (.storeAck k id) s = execStoreAck k id s := rfl
  rw [run, execStoreAck, found]
  dsimp only
  rw [if_neg fun c => h c.2, if_neg fun c => h c.1]

theorem execStoreAck_dropped {k id : Nat} {s : State} {q : GReq} (found : AMap.get? (s.tile k).reqs id = some q)
    (other : ¬(q.ctxNo = 0 ∨ q.resid = (s.tile k).slot.resid)) (h : q.reply = some .ack) :
    exec (.storeAck k id) s = .next (dropReply s k id q) := by
  have run : exec (.storeAck k id) s = execStoreAck k id s := rfl
  have ours : q.ours (s.tile k) = false := Bool.eq_false_iff.mpr fun h => other ((q.ours_iff _).mp h)
  rw [run, execStoreAck, found]
  exact if_pos ⟨by rw [ours]; rfl, h⟩

theorem execStoreAck_ends {k id : Nat} {s : State} {q : GReq} (found : AMap.get? (s.tile k).reqs id = some q)
    (ours : q.ctxNo = 0 ∨ q.resid = (s.tile k).slot.resid) (h : q.reply = some .ack) (op : q.op ≠ .retireOr) :
    exec (.storeAck k id) s = .next ((replyTag (s.updTile k fun t => t.dropReq id) k q).moved (s.handleOf k)) := by
  have run : exec (.storeAck k id) s = execStoreAck k id s := rfl
  rw [run, execStoreAck, found]
  dsimp only
  rw [if_neg fun c => ?_, if_pos ⟨h, op⟩]
  rw [(q.ours_iff _).mpr ours] at c
  exact Bool.false_ne_true c.1

theorem execRetryReply_waits {k id : Nat} {s : State} {q : GReq} (found : AMap.get? (s.tile k).reqs id = some q) (h : q.reply ≠ some .retry) :
    exec (.retryReply k id) s = .next s := by
  have run : exec (.retryReply k id) s = execRetryReply k id s := rfl
  rw [run, execRetryReply, found]
  exact if_neg h

/-- A RETRY: the request stands as it did before it was performed (R229). -/
theorem execRetryReply_again {k id : Nat} {s : State} {q : GReq} (found : AMap.get? (s.tile k).reqs id = some q) (h : q.reply = some .retry) :
    ∃ t, exec (.retryReply k id) s = .next t ∧
      AMap.get? (t.tile k).reqs id = some { q with reply := none, performed := false, onlyRetry := true } ∧
      (∀ j, j ≠ id → AMap.get? (t.tile k).reqs j = AMap.get? (s.tile k).reqs j) ∧ (∀ m, (t.tile k).ctx m = (s.tile k).ctx m) ∧
      s.sameTlm t ∧ s.sameGmem t := by
  have run : exec (.retryReply k id) s = execRetryReply k id s := rfl
  rw [run, execRetryReply, found]
  dsimp only
  rw [if_pos h]
  obtain ⟨u, moved, same⟩ : ∃ u, (if q.onlyRetry = true then s else s.moved (s.handleOf k)) = u ∧ TokenStep s u ∧ u.tile k = s.tile k := by
    refine ⟨_, rfl, ?_⟩
    split
    · exact ⟨.refl s, rfl⟩
    · exact ⟨.moved .., State.tile_moved ..⟩
  obtain ⟨steps, tile⟩ := same
  rw [moved]
  refine ⟨_, rfl, ?_, fun j hj => ?_, fun m => ?_, fun j a => ?_, steps.sameGmem⟩
  · rw [State.tile_updTile]; exact AMap.get?_set_same ..
  · rw [State.tile_updTile, Tile.setReq, tile]; exact AMap.get?_set_other _ _ hj.symm
  · rw [State.tile_updTile, tile]; rfl
  · rw [← steps.sameTlm, State.tile_updTile_apply]
    split
    case isTrue e => rw [e]; rfl
    case isFalse => rfl

def Tile.replyDropped (t : Tile) (id : Nat) (q : GReq) : Tile :=
  { t.dropReq id with dropped := sat32 (t.dropped + 1), dropHdr := some (q.resid ++ 0#25 ++ TokKind.sys.code ++ 0#8) }

theorem dropReply_tile (s : State) (k id : Nat) (q : GReq) (j : Nat) :
    (dropReply s k id q).tile j = if j = k then (s.tile k).replyDropped id q else s.tile j :=
  State.tile_updTile_apply s k (fun t => t.replyDropped id q) j

/-- A dropped reply: the request is gone, the drop is counted, and no context and no token is touched (R348, R383). -/
theorem dropReply_frame (s : State) (k id : Nat) (q : GReq) :
    AMap.get? ((dropReply s k id q).tile k).reqs id = none ∧ ((dropReply s k id q).tile k).dropped = sat32 ((s.tile k).dropped + 1) ∧
      ((dropReply s k id q).resOf (s.tile k).slot.handle).err.dropped = sat32 ((s.resOf (s.tile k).slot.handle).err.dropped + 1) ∧
      (∀ m, ((dropReply s k id q).tile k).ctx m = (s.tile k).ctx m) ∧ (dropReply s k id q).chans = s.chans ∧
      s.sameTlm (dropReply s k id q) ∧ s.sameGmem (dropReply s k id q) := by
  refine ⟨?_, ?_, ?_, fun m => ?_, rfl, fun j a => ?_, fun _ => rfl⟩
  · rw [dropReply_tile, if_pos rfl]; exact AMap.get?_erase_same ..
  · rw [dropReply_tile, if_pos rfl]; rfl
  · rw [dropReply, State.updErr, State.handleOf, resOf_updRes_apply, if_pos rfl]; rfl
  · rw [dropReply_tile, if_pos rfl]; rfl
  · rw [dropReply_tile]
    split
    case isTrue e => rw [e]; rfl
    case isFalse => rfl

/-! The token of a token-form load (R244). -/

/-- The token that a reply makes of a place. -/
def Reply.token : Reply → Option (TokKind × Line)
  | .data v => some (.data, v.setWidth 512)
  | .passed => some (.poison, codeVersionPassed.setWidth 512)
  | .poison => some (.poison, codePoison.setWidth 512)
  | _ => none

theorem gldvFill_fills {s : State} {k p n m : Nat} {q : GReq} {c : Chan} {r : Reply} {kind : TokKind} {x : Line} (own : q.actor < 8)
    (port : (s.tile k).complPort q.actor = some p) (plain : ((s.tile k).port p).ordered = false) (chan : ((s.tile k).port p).chan = some m)
    (here : s.chan? m = some c) (tok : r.token = some (kind, x)) :
    TokenStep s (gldvFill s k q n r) ∧ (gldvFill s k q n r).chan? m = some (c.fill n kind x) := by
  have home : q.homeTile k = k := if_pos own
  have port' : (s.tile k).complPort (q.actor % 8) = some p := by rwa [Nat.mod_eq_of_lt own]
  have fills (kind : TokKind) (x : Line) : TokenStep s (s.fillPort k p n kind x) ∧ (s.fillPort k p n kind x).chan? m = some (c.fill n kind x) :=
    ⟨.fillPort .., by rw [State.fillPort_plain n kind x plain chan here, State.chan_setChan]⟩
  unfold gldvFill
  dsimp only
  rw [home, port']
  cases r with
  | data v => cases tok; exact fills ..
  | poison => cases tok; exact fills ..
  | passed =>
    cases tok
    obtain ⟨steps, filled⟩ := fills .poison (codeVersionPassed.setWidth 512)
    exact ⟨steps.trans (.updErr ..), filled⟩
  | ack | retry | swq _ _ _ => cases tok

/-- The token of a place goes out, the request is over, and a passed version makes no late trap. -/
theorem reply_fillsPlace {k id n p m : Nat} {s : State} {q : GReq} {c : Chan} {r : Reply} {kind : TokKind} {x : Line}
    (found : AMap.get? (s.tile k).reqs id = some q) (ours : q.ctxNo = 0 ∨ q.resid = (s.tile k).slot.resid) (place : q.seq = some n)
    (own : q.actor < 8) (port : (s.tile k).complPort q.actor = some p) (plain : ((s.tile k).port p).ordered = false)
    (chan : ((s.tile k).port p).chan = some m) (here : s.chan? m = some c) (reply : q.reply = some r) (tok : r.token = some (kind, x)) :
    ∃ t d, exec (.globalReply k id) s = .next t ∧ t.chan? m = some d ∧ d.seq = c.seq ∧ d.reserved = AMap.erase c.reserved n ∧
      AMap.get? (t.tile k).reqs id = none ∧ s.sameTlm t ∧ s.sameGmem t ∧
      (q.reply = some .passed → ∀ j, ((t.tile k).ctx j).lates = ((s.tile k).ctx j).lates) ∧
      ∀ b, c.branches = [b] → ∃ tok : Token, tok.kind = kind ∧ tok.payload = x ∧ tok.seq = n ∧
        (kind = .data → tok.round = BitVec.ofNat 16 (AMap.getD c.reserved n c.rounds)) ∧
        d.branches.map (·.flights) = [b.flights ++ [{ tok := tok, after := [] }]] := by
  have notAck : r ≠ .ack := by rintro rfl; cases tok
  have notRetry : r ≠ .retry := by rintro rfl; cases tok
  have notEos : kind ≠ .eos := by
    cases r <;> cases tok <;> decide
  have run := execGlobalReply_answers found ours reply notAck notRetry
  simp only [place, Option.elim_some] at run
  obtain ⟨s', answer⟩ : ∃ s', s.answer k id q (q.answer id r) = s' := ⟨_, rfl⟩
  have tile (j : Nat) : s'.tile j = if j = k then ((s.tile k).dropReq id).updTask q.task (q.answer id r) else s.tile j := by
    rw [← answer]; exact State.tile_updTile_apply ..
  have slot : (s'.tile k).slot = (s.tile k).slot := by rw [tile, if_pos rfl]; rfl
  rw [answer] at run
  obtain ⟨steps, filled⟩ := gldvFill_fills (s := s') (n := n) (c := c) own ((Tile.complPort_congr slot _).trans port)
    (by rw [Tile.port_congr slot]; exact plain) (by rw [Tile.port_congr slot]; exact chan) (by rw [← answer]; exact here) tok
  have tags : TagStep s' ((replyTag (gldvFill s' k q n r) k q).moved (s.handleOf k)) :=
    ((TagStep.of_tokens steps).trans (.replyTag ..)).trans (.of_tokens (.moved ..))
  refine ⟨_, c.fill n kind x, run, ?_, Chan.fill_seq .., rfl, tags.reqs k id ?_, fun j a => ?_, fun a => ?_, fun passed j => ?_,
    fun b one => Chan.fill_single one n notEos x⟩
  · rw [State.chan?_congr (State.moved_chans ..), State.chan?_congr (replyTag_chans place ..)]; exact filled
  · rw [tile, if_pos rfl]; exact AMap.get?_erase_same ..
  · rw [tags.tlm, tile]
    split
    case isTrue e => rw [e]; rfl
    case isFalse => rfl
  · rw [tags.gmem, ← answer]; rfl
  · have same : q.answer id r = fun c => c := by
      rw [Option.some.inj (reply.symm.trans passed)]
      exact if_pos (by rw [place]; rfl)
    rw [tags.lates, tile, if_pos rfl, same, Tile.ctx_updTask, ite_self]; rfl

/-! A reply without a place. -/

theorem execGlobalReply_over {k id : Nat} {s : State} {q : GReq} {r : Reply} (found : AMap.get? (s.tile k).reqs id = some q)
    (ours : q.ctxNo = 0 ∨ q.resid = (s.tile k).slot.resid) (reply : q.reply = some r) (place : q.seq = none)
    (kind : (∃ v, r = .data v) ∨ r = .poison ∨ r = .passed) :
    ∃ t, exec (.globalReply k id) s = .next t ∧ RequestOver s t k id q (replyCtx id q r) := by
  have answer : q.answer id r = replyCtx id q r := by
    rcases kind with ⟨v, rfl⟩ | rfl | rfl
    · rfl
    · rfl
    · exact if_neg (by rw [place]; exact Bool.false_ne_true)
  have run := execGlobalReply_answers found ours reply (by rcases kind with ⟨v, rfl⟩ | rfl | rfl <;> exact Reply.noConfusion)
    (by rcases kind with ⟨v, rfl⟩ | rfl | rfl <;> exact Reply.noConfusion)
  rw [place, answer] at run
  exact ⟨_, run, requestOver_answer (replyCtx_answered id q r)⟩

/-- A late trap of an answered request stands last among those of its context. -/
theorem replyCtx_late {id : Nat} {q : GReq} {r : Reply} {code : Byte} (failed : (r = .poison ∧ code = codePoison) ∨ (r = .passed ∧ code = codeVersionPassed))
    (plain : q.win = false) (c : Ctx) : (replyCtx id q r c).lates = c.lates ++ [replyTrap q code] := by
  rcases failed with ⟨rfl, rfl⟩ | ⟨rfl, rfl⟩
  · exact congrArg Ctx.lates (replyCtx_poison id plain c)
  · exact congrArg Ctx.lates (replyCtx_passed id plain c)

theorem Ctx.readK_retag (c : Ctx) (tags : Word) (r : BitVec 6) : ({ c with tags := tags } : Ctx).readK r = c.readK r := rfl

/-- Settles O47: each event is one end of the request, and the contexts of its task are read through the reply's effect on them. -/
theorem globalMemoryReplies : Obligations.GlobalMemoryReplies := by
  unfold Obligations.GlobalMemoryReplies
  intro k id s q found ctx runs bit ovr ours dropped
  have bits (n : Nat) : q.tagBits ((s.tile k).ctx n).tags = bit n := by
    unfold GReq.tagBits bit
    cases q.tag <;> rfl
  have passed : (codeVersionPassed.setWidth 512 : Line) = 0x15 := by simp [codeVersionPassed]
  have poison : (codePoison.setWidth 512 : Line) = 0x0C := by simp [codePoison]
  have closed {t : State} {f : Ctx → Ctx} (done : RequestOver s t k id q f) (keeps : ∀ c, (c : Ctx).answered (f c)) : ovr t := by
    refine ⟨done.gone, done.others, done.tlm, done.gmem, done.apart, fun m runs => ⟨?_, ?_⟩, ?_⟩
    · rw [done.ctx m runs]; exact bits m
    · rw [done.ctx m runs, keeps]
    · rintro p o n c tok tag place port rfl free plain chan here
      exact done.sends p n c tok tag place port free plain chan here
  refine ⟨fun other => ⟨fun some_ notAck notRetry => ?_, fun ack => ?_⟩, execGlobalReply_waits found, fun v ours reply place => ?_,
    fun n p m c ours place own port plain chan here => ⟨fun v reply => ?_, fun reply => ?_, fun reply => ?_⟩, fun code failed ours place => ?_,
    execStoreAck_waits found, fun ours ack op => ?_, execRetryReply_waits found, execRetryReply_again found⟩
  · exact ⟨_, execGlobalReply_dropped found other some_ notAck notRetry, dropReply_frame ..⟩
  · exact ⟨_, execStoreAck_dropped found other ack, dropReply_frame ..⟩
  · obtain ⟨t, run, done⟩ := execGlobalReply_over found ours reply place (.inl ⟨v, rfl⟩)
    refine ⟨t, run, ?_, fun n runs win => ⟨?_, fun d dest => ?_, fun r dest => ?_⟩, fun n runs win => ⟨fun r => ?_, ?_⟩⟩
    · exact closed done (replyCtx_answered id q _)
    · rw [done.ctx n runs, replyCtx_write id win]
      cases q.dest with
      | none => rfl
      | some d => exact Ctx.writeInt_lates ..
    · rw [done.ctx n runs, replyCtx_write id win, dest]
      exact Ctx.readK_writeK ..
    · rw [done.ctx n runs, replyCtx_write id win, Ctx.readK_retag]
      cases dest' : q.dest with
      | none => rfl
      | some d => exact Ctx.readK_writeK_other _ _ fun e => dest (by rw [dest', e])
    · rw [done.ctx n runs, replyCtx_window id win]; rfl
    · rw [done.ctx n runs, replyCtx_window id win]; rfl
  · exact reply_fillsPlace found ours place own port plain chan here reply rfl
  · rw [← passed]; exact reply_fillsPlace found ours place own port plain chan here reply rfl
  · rw [← poison]; exact reply_fillsPlace found ours place own port plain chan here reply rfl
  · obtain ⟨r, reply, failed⟩ : ∃ r, q.reply = some r ∧ ((r = .poison ∧ code = codePoison) ∨ (r = .passed ∧ code = codeVersionPassed)) := by
      rcases failed with ⟨reply, code⟩ | ⟨reply, code⟩
      · exact ⟨_, reply, .inl ⟨rfl, code⟩⟩
      · exact ⟨_, reply, .inr ⟨rfl, code⟩⟩
    have kind : r = .poison ∨ r = .passed := failed.imp And.left And.left
    obtain ⟨t, run, done⟩ := execGlobalReply_over found ours reply place (.inr kind)
    refine ⟨t, run, closed done (replyCtx_answered id q _), fun n runs => ⟨fun r => ?_,
      fun plain => ⟨replyTrap q code, ?_, rfl, rfl, rfl, rfl, rfl, rfl⟩⟩⟩
    · rw [done.ctx n runs, Ctx.readK_retag]; exact replyCtx_readK kind ..
    · rw [done.ctx n runs]; exact replyCtx_late failed plain _
  · have done := requestOver_store (s := s) (k := k) (id := id) (h := s.handleOf k) (q := q)
    refine ⟨_, execStoreAck_ends found ours ack op, closed done fun _ => rfl, fun n runs r => ?_⟩
    rw [done.ctx n runs, Ctx.readK_retag]

end Sys2Proof.Machine
end

section
/-!
The issue of a global memory instruction (10 R236 to R244): holds, capability, translation, completion token, and the request that leaves.
-/

namespace Sys2Proof.Machine

/-! What precedes the request. -/

/-- At issue a context may have claimed puts and taken a place on an output; requests, registers and memory are as they were. -/
structure Prepared (s u : State) : Prop where
  cur : u.cur = s.cur
  module : u.module = s.module
  tiles : ∀ q, q ≠ s.cur.tile → u.tile q = s.tile q
  tlm : u.here.tlm = s.here.tlm
  gmem : u.gmem = s.gmem
  reqs : u.here.reqs = s.here.reqs
  nextOp : u.here.nextOp = s.here.nextOp
  ctx : ∀ m, u.here.ctx m = { s.here.ctx m with donec := (u.here.ctx m).donec }

namespace Prepared

theorem of_issue {s u : State} (h : IssueFrame s u) : Prepared s u :=
  ⟨h.cur, by rw [h.outside], h.tiles, by rw [h.here], h.gmem, h.reqs, h.nextOp, h.ctx⟩

theorem me {s u : State} (h : Prepared s u) : u.me = { s.me with donec := u.me.donec } := by
  have at_ := h.ctx s.cur.ctx
  rw [State.me, h.cur]; exact at_

theorem setChan {s u : State} (h : Prepared s u) (n : Nat) (c : Chan) : Prepared s (u.setChan n c) :=
  ⟨h.cur, h.module, h.tiles, h.tlm, h.gmem, h.reqs, h.nextOp, h.ctx⟩

theorem setPort {s u : State} (h : Prepared s u) (p : Nat) (x : Port) : Prepared s (u.setHere (u.here.setPort p x)) := by
  have here : (u.setHere (u.here.setPort p x)).here = u.here.setPort p x := State.here_setHere ..
  refine ⟨h.cur, h.module, fun q hq => ?_, by rw [here]; exact h.tlm, h.gmem, by rw [here]; exact h.reqs, by rw [here]; exact h.nextOp,
    fun m => by rw [here]; exact h.ctx m⟩
  exact (State.tile_setTile_other _ _ (by rw [h.cur]; exact hq.symm)).trans (h.tiles q hq)

theorem gldvReserve {s u : State} (h : Prepared s u) : Prepared s (gldvReserve u).1 := by
  unfold Machine.gldvReserve
  split
  · exact h
  · unfold State.reservePort
    dsimp only
    split
    · exact h.setPort ..
    · split
      · exact h
      · split
        · exact h
        · exact h.setChan ..

end Prepared

/-! The request leaves. -/

/-- The context once its request is under way: the tag that it names is clear, its window is open, and it goes on. -/
def Ctx.issued (c : Ctx) (f : GW) (op : Nat) (pc : Addr) : Ctx :=
  let c1 := if f.async = 1 ∨ f.tok = 1 then c.tagClear f.tag else c
  ({ c1.advance 8 with wins := c1.countWins.wins, stalled := false } : Ctx).openWin f.la .k f.d op pc

/-- What is sent, and by which state of the context. -/
theorem gSend_eq (u : State) (f : GW) (g : GForm) (va : Addr) (pa : PAddr) :
    let r := if tokenForm u f g then gldvReserve u else (u, none)
    gSend u f g va pa = (r.1.sent (gRequest r.1 f g va pa r.2)).setMe (r.1.me.issued f r.1.here.nextOp u.me.pc) := by
  intro r
  have me (v : State) (q : GReq) : (v.sent q).me = v.me := by
    rw [State.me, State.sent, State.here_setHere]; rfl
  have send : gSend u f g va pa =
      let v := r.1.sent (gRequest r.1 f g va pa r.2)
      let w := if f.async = 1 ∨ f.tok = 1 then v.setMe (v.me.tagClear f.tag) else v
      (w.complete 8).setMe ((w.complete 8).me.openWin f.la .k f.d r.1.here.nextOp u.me.pc) := rfl
  rw [send]
  dsimp only
  rw [State.complete_eq_setMe, State.setMe_setMe, State.me_setMe, me_complete_eq, Ctx.issued]
  by_cases tagged : f.async = 1 ∨ f.tok = 1
  · rw [if_pos tagged, if_pos tagged, State.setMe_setMe, State.me_setMe, me]
  · rw [if_neg tagged, if_neg tagged, me]

/-- The issue of a request leaves of its context's state all but tags, windows and where it stands. -/
theorem Ctx.issued_regs (c : Ctx) (f : GW) (op : Nat) (pc : Addr) : c.sameRegs (c.issued f op pc) := by
  have tagged : ∃ tags, (if f.async = 1 ∨ f.tok = 1 then c.tagClear f.tag else c) = { c with tags := tags } := by
    split
    · exact ⟨_, rfl⟩
    · exact ⟨c.tags, rfl⟩
  obtain ⟨tags, tagged⟩ := tagged
  unfold Ctx.issued
  dsimp only
  rw [tagged, Ctx.advance_only]
  unfold Ctx.openWin
  split
  · exact ⟨fun _ => rfl, fun _ => rfl, fun _ => rfl, rfl⟩
  · exact ⟨fun _ => rfl, fun _ => rfl, fun _ => rfl, rfl⟩

theorem Ctx.issued_tags (c : Ctx) (f : GW) (op : Nat) (pc : Addr) :
    (c.issued f op pc).tags = if f.async = 1 ∨ f.tok = 1 then c.tags &&& ~~~(1#64 <<< f.tag.toNat) else c.tags := by
  unfold Ctx.issued
  dsimp only
  rw [Ctx.advance_only]
  unfold Ctx.openWin
  split <;> split <;> rfl

/-- The windows are counted, and the new one stands last. -/
theorem Ctx.issued_wins (c : Ctx) (f : GW) (op : Nat) (pc : Addr) : (f.la = 0 → (c.issued f op pc).wins = c.countWins.wins) ∧
    (f.la ≠ 0 → ∃ w : Win, (c.issued f op pc).wins = c.countWins.wins ++ [w] ∧ w.cls = .k ∧ w.dest = f.d ∧ w.left = f.la ∧
      w.arrived = false ∧ w.op = op) := by
  have counted : (if f.async = 1 ∨ f.tok = 1 then c.tagClear f.tag else c).countWins.wins = c.countWins.wins := by
    split <;> rfl
  unfold Ctx.issued
  dsimp only
  rw [counted]
  unfold Ctx.openWin
  refine ⟨fun none => ?_, fun some_ => ?_⟩
  · rw [if_pos none]
  · rw [if_neg some_]; exact ⟨_, rfl, rfl, rfl, rfl, rfl, rfl⟩

theorem Ctx.issued_flow (c : Ctx) (f : GW) (op : Nat) (pc : Addr) : (c.advance 8).SameFlow (c.issued f op pc) := by
  have tagged : c.SameFlow (if f.async = 1 ∨ f.tok = 1 then c.tagClear f.tag else c) := by
    split <;> exact ⟨rfl, rfl, rfl, rfl⟩
  obtain ⟨pcc, loop0, loop1, rep⟩ := tagged.advance 8
  unfold Ctx.issued
  dsimp only
  unfold Ctx.openWin
  split
  · exact ⟨pcc, loop0, loop1, rep⟩
  · exact ⟨pcc, loop0, loop1, rep⟩

/-- After the claims at issue the request joins those under way, and its context goes on. -/
theorem handedOver_issued {s u : State} (h : Prepared s u) (f : GW) (q : GReq) (op : Nat) (pc : Addr) :
    HandedOver s ((u.sent q).setMe (u.me.issued f op pc)) := by
  have me : ((u.sent q).setMe (u.me.issued f op pc)).me = u.me.issued f op pc := State.me_setMe ..
  have sent : (u.sent q).here = { u.here with reqs := AMap.set u.here.reqs u.here.nextOp q, nextOp := u.here.nextOp + 1 } := State.here_setHere ..
  have here : ((u.sent q).setMe (u.me.issued f op pc)).here = (u.sent q).here.setCtx s.cur.ctx (u.me.issued f op pc) := by
    rw [← h.cur]; exact State.here_setMe ..
  have others (q' : Nat) (hq : q' ≠ s.cur.tile) : ((u.sent q).setMe (u.me.issued f op pc)).tile q' = s.tile q' := by
    rw [← h.cur] at hq
    refine (State.tile_setTile_other _ _ (Ne.symm hq)).trans ((State.tile_setTile_other _ _ (Ne.symm hq)).trans (h.tiles q' ?_))
    rwa [← h.cur]
  have flow : s.me.SameFlow u.me := by rw [h.me]; exact ⟨rfl, rfl, rfl, rfl⟩
  refine ⟨goesOn_of_flow ?_, ?_, fun m hm => ?_, others, fun k a => ?_, fun a => congrArg (Memory.read · a) h.gmem⟩
  · obtain ⟨pcc, loop0, loop1, rep⟩ := flow.advance 8
    obtain ⟨pcc', loop0', loop1', rep'⟩ := u.me.issued_flow f op pc
    rw [me]
    exact ⟨pcc'.trans pcc, loop0'.trans loop0, loop1'.trans loop1, rep'.trans rep⟩
  · obtain ⟨k, v, m, fpc⟩ := u.me.issued_regs f op pc
    rw [me]
    rw [h.me] at k v m fpc
    rw [h.me]
    exact ⟨k, v, m, fpc⟩
  · have ctx : ((u.sent q).setMe (u.me.issued f op pc)).here.ctx m = { s.here.ctx m with donec := (u.here.ctx m).donec } := by
      rw [here, Tile.ctx_setCtx_other _ _ (Ne.symm hm), sent]; exact h.ctx m
    rw [ctx]
    exact ⟨⟨fun _ => rfl, fun _ => rfl, fun _ => rfl, rfl⟩, rfl, rfl, rfl⟩
  · by_cases hk : k = s.cur.tile
    · have tlm : ((u.sent q).setMe (u.me.issued f op pc)).here.tlm = s.here.tlm := by rw [here, sent]; exact h.tlm
      rw [hk]
      rw [show ((u.sent q).setMe (u.me.issued f op pc)).tile s.cur.tile = ((u.sent q).setMe (u.me.issued f op pc)).here by
        rw [← h.cur]; rfl, tlm]
      rfl
    · rw [others k hk]

theorem reqs_issued {s u : State} (h : Prepared s u) (f : GW) (q : GReq) (op : Nat) (pc : Addr) :
    ((u.sent q).setMe (u.me.issued f op pc)).here.reqs = AMap.set s.here.reqs s.here.nextOp q ∧
      ((u.sent q).setMe (u.me.issued f op pc)).here.nextOp = s.here.nextOp + 1 := by
  rw [State.here_setMe, ← h.reqs, ← h.nextOp]
  have sent : (u.sent q).here = { u.here with reqs := AMap.set u.here.reqs u.here.nextOp q, nextOp := u.here.nextOp + 1 } := State.here_setHere ..
  rw [sent]
  exact ⟨rfl, rfl⟩

/-! What a request waits for (R222). -/

theorem mem_accessAfter {s u : State} (h : Prepared s u) {pa : PAddr} {f : GW} {store : Bool} {p : Nat × GReq} (listed : p ∈ s.here.reqs)
    (own : p.2.task = s.me.task) (open_ : p.2.performed = false)
    (orders : p.2.pa.toNat / 64 = pa.toNat / 64 ∨ (f.order.getLsbD 1 = true ∧ homeScope s p.2.pa ≤ f.scope.toNat)) :
    p.1 ∈ accessAfter u pa f store := by
  have task : u.me.task = s.me.task := by rw [h.me]
  have home : homeScope u p.2.pa = homeScope s p.2.pa := by rw [homeScope, h.module]; rfl
  have before : ordersBefore u u.me p pa (f.order.getLsbD 1) f.scope.toNat store = true := by
    unfold ordersBefore
    dsimp only
    rw [task, own, open_, home]
    rcases orders with line | ⟨release, scope⟩
    · simp [paLine, line]
    · simp [release, scope]
  unfold accessAfter
  dsimp only
  refine List.mem_map.mpr ⟨p, List.mem_filter.mpr ⟨by rw [h.reqs]; exact listed, ?_⟩, rfl⟩
  rw [before]; rfl

/-! The attempt, check by check. -/

/-- What a request still has to find once the capability passes: the page, the completion token, and in the token form the place. -/
def gReach (f : GW) (g : GForm) (va : Addr) (s : State) : Try State := do
  let r ← transIssue s va g.r g.w g.ver
  let s1 ← claimToken r.1 (f.tok == 1)
  (if tokenForm s f g then s.here.complPort s.me.actor else none).elim (pure ()) (putReady s)
  pure (gSend s1 f g va r.2)

section
variable {f : GW} {g : GForm} {s : State} (ready : s.kReady g.fields g.reads g.dest.toList) (window : windowFree s f.la .k f.d)
  (form : g.op = .ldv → s.cur.ctx ≠ 0 → f.async = 1 ∧ f.tok = 1 ∧ f.d = 0) (team : s.me.role = .team → f.tok ≠ 1 ∧ g.op ≠ .ldv)

include window in
theorem prepWin_free : prepWin s f.la .k f.d = .ok s := by
  unfold prepWin
  rcases window with none | ⟨few, apart⟩
  · rw [if_pos none]; rfl
  · by_cases unwindowed : f.la = 0
    · rw [if_pos unwindowed]; rfl
    · have absent : s.me.wins.find? (fun w => decide (w.cls = RegClass.k) && w.dest == f.d) = none :=
        List.find?_eq_none.mpr fun (w : Win) hw (same : (decide (w.cls = RegClass.k) && w.dest == f.d) = true) => by
          rw [Bool.and_eq_true, decide_eq_true_eq, beq_iff_eq] at same
          exact apart w hw same.1 same.2
      rw [if_neg unwindowed, absent]
      exact if_pos few

include ready form team in
theorem gBody_ready : gBody f g s = (stallIf (gHold s f g.op.stores) >>= fun _ =>
    orTrap (globalCheck (s.me.readK f.a) (gAddr (s.me.readK f.a) f g.n).toNat g.n g.n g.need) >>= fun _ =>
    gReach f g (gAddr (s.me.readK f.a) f g.n) s) := by
  have noTeam : (decide (s.me.role = .team) && (f.tok == 1 || decide (g.op = .ldv))) = false := by
    by_cases role : s.me.role = .team
    · obtain ⟨tok, op⟩ := team role
      rw [beq_false_of_ne tok, decide_eq_false op]
      exact Bool.and_false _
    · rw [decide_eq_false role]; rfl
  have formed : (decide (g.op = .ldv) && s.cur.ctx != 0 && !(f.async == 1 && f.tok == 1)) = false := by
    by_cases ldv : g.op = .ldv ∧ s.cur.ctx ≠ 0
    · obtain ⟨async, tok, -⟩ := form ldv.1 ldv.2
      simp [async, tok]
    · rw [Bool.and_eq_false_iff]
      exact .inl (Bool.eq_false_iff.mpr fun both => ldv (by simpa using both))
  have guard := guardK_ready ready
  unfold gBody gReach
  simp only [noTeam, formed, trapIf_false]
  generalize (if tokenForm s f g then s.here.complPort s.me.actor else none) = place
  cases dest : g.dest with
  | none =>
    rw [dest] at guard
    simp only [show Option.toList (none : Option (BitVec 6)) = [] from rfl] at guard
    simp only [guard]
    cases place <;> rfl
  | some d =>
    rw [dest] at guard
    simp only [show (some d).toList = [d] from rfl] at guard
    simp only [guard]
    cases place <;> rfl

include ready window in
theorem gIssue_body : gIssue f g s = finishTry s (gBody f g s) := by
  have range : rangeCheck s.me g.fields = .ok () := by
    have absent : g.fields.find? (fun r => !s.me.kOk r) = none := List.find?_eq_none.mpr fun r hr => by rw [ready.1 r hr]; exact Bool.false_ne_true
    rw [rangeCheck, absent]
  unfold gIssue issueLong
  rw [range]
  dsimp only
  rw [prepWin_free window]

include ready window form team

theorem gIssue_stalls (hold : gHold s f g.op.stores = true) : gIssue f g s = .next s.stallMe := by
  rw [gIssue_body ready window, gBody_ready ready form team, hold]; rfl

variable (free : gHold s f g.op.stores = false)
include free

theorem gIssue_traps {code : Byte} (bad : GlobalBad (s.me.readK f.a) (gAddr (s.me.readK f.a) f g.n).toNat g.n g.n g.need code) :
    gIssue f g s = .next (raiseTrap s code ((gAddr (s.me.readK f.a) f g.n).setWidth 64) s.me.pc) := by
  rw [gIssue_body ready window, gBody_ready ready form team, free, globalCheck_bad bad, trapVal_addr]; rfl

theorem gIssue_reaches (ok : GlobalOk (s.me.readK f.a) (gAddr (s.me.readK f.a) f g.n).toNat g.n g.n g.need) :
    gIssue f g s = finishTry s (gReach f g (gAddr (s.me.readK f.a) f g.n) s) := by
  rw [gIssue_body ready window, gBody_ready ready form team, free, globalCheck_none ok]; rfl

end

/-! The translation's outcomes (R351). -/

section
variable {f : GW} {g : GForm} {va : Addr} {s : State}

theorem gReach_page (wait : (translate s s.cur.tile (ctxSpace s s.cur.tile s.cur.ctx) va.toNat g.r g.w g.ver).2 = .wait) :
    finishTry s (gReach f g va s) = .next (pageWait s va) := by
  have missing : transIssue s va g.r g.w g.ver = .error (.page va) := by simp only [transIssue, wait]
  rw [gReach, missing]; rfl

theorem gReach_perm (perm : (translate s s.cur.tile (ctxSpace s s.cur.tile s.cur.ctx) va.toNat g.r g.w g.ver).2 = .perm) :
    finishTry s (gReach f g va s) = .next (raiseTrap s 0x05 (va.setWidth 64) s.me.pc) := by
  have refused : transIssue s va g.r g.w g.ver = .error (.trap codeCapPerm (va.setWidth 64)) := by simp only [transIssue, perm]
  rw [gReach, refused]; rfl

/-- The fault token of a refused page, which context 0 has none of. -/
def State.pageDenied (s : State) (va : Addr) : State := if s.cur.ctx = 0 then s else deniedToken s (s.handleOf s.cur.tile) va

theorem gReach_denied (denied : (translate s s.cur.tile (ctxSpace s s.cur.tile s.cur.ctx) va.toNat g.r g.w g.ver).2 = .denied) :
    finishTry s (gReach f g va s) = .next (raiseTrap (s.pageDenied va) 0x09 (va.setWidth 64) s.me.pc) := by
  have refused : transIssue s va g.r g.w g.ver = .error (.become (raiseTrap (s.pageDenied va) codePageDenied (va.setWidth 64) s.me.pc)) := by
    simp only [transIssue, denied, State.pageDenied]
  rw [gReach, refused]; rfl

theorem State.pageDenied_frame (s : State) (va : Addr) : (s.pageDenied va).cur = s.cur ∧ (s.pageDenied va).tiles = s.tiles ∧
    (s.pageDenied va).gmem = s.gmem := by
  unfold State.pageDenied deniedToken State.faultToken
  dsimp only
  split
  · exact ⟨rfl, rfl, rfl⟩
  · split <;> exact ⟨rfl, rfl, rfl⟩

/-- A task that waits on the pager, its program counter at the waiting instruction (R298). -/
def Ctx.paged (c : Ctx) (va : Addr) : Ctx :=
  { c with stalled := false, cause := codePageWait.setWidth 64, trappc := c.pc.setWidth 64, trapval := va.setWidth 64 }

def Ctx.pageWaiter (c : Ctx) (va : Addr) : Waiter := { ctx := (c.paged va).noQueues, va := va, ready := none, denied := false }

theorem Ctx.pageWaiter_keeps (c : Ctx) (va : Addr) :
    (c.pageWaiter va).ctx.pcc = c.pcc ∧ (c.pageWaiter va).ctx.task = c.task ∧ c.sameRegs (c.pageWaiter va).ctx :=
  ⟨rfl, rfl, fun _ => rfl, fun _ => rfl, fun _ => rfl, rfl⟩

/-- A page wait: the task leaves its helper and waits with its registers (R298). -/
theorem pageWait_waits (helper : s.cur.ctx ≠ 0) (settled : s.settled) : ∃ w, (pageWait s va).here.waiters = s.here.waiters ++ [w] ∧ w.va = va ∧
    w.ready = none ∧ w.ctx.pcc = s.me.pcc ∧ w.ctx.task = s.me.task ∧ s.me.sameRegs w.ctx ∧ (pageWait s va).me.mode = .free ∧
    s.sameTlm (pageWait s va) ∧ s.sameGmem (pageWait s va) := by
  have late : takeLate s s.cur.tile s.cur.ctx = none := takeLate_none settled.2.notDue
  obtain ⟨t, leaves, waiters, ctx, tlm⟩ : ∃ t : Tile, pageWait s va = s.setHere t ∧
      t.waiters = s.here.waiters ++ [s.me.pageWaiter va] ∧
      t.ctx s.cur.ctx = s.me.freed ∧ t.tlm = s.here.tlm := by
    rw [pageWait, if_neg helper, vecDrain_settled settled]
    dsimp only
    rw [late]
    exact ⟨_, rfl, rfl, Tile.ctx_setCtx s.here s.cur.ctx s.me.freed, rfl⟩
  rw [leaves, State.here_setHere]
  obtain ⟨pcc, task, regs⟩ := s.me.pageWaiter_keeps va
  refine ⟨s.me.pageWaiter va, waiters, rfl, rfl, pcc, task, regs, ?_, fun k a => ?_, fun _ => rfl⟩
  · rw [State.me, State.here_setHere]
    exact congrArg Ctx.mode ctx
  · by_cases hk : k = s.cur.tile
    · rw [hk, show (s.setHere t).tile s.cur.tile = t from State.here_setHere .., tlm]; rfl
    · rw [show (s.setHere t).tile k = s.tile k from State.tile_setTile_other _ _ (Ne.symm hk)]

/-- In the token form the place is free to be taken. -/
theorem gldv_place (place : g.op = .ldv → s.cur.ctx ≠ 0 → acquirePending s.here s.me = false ∧ ∀ p, s.here.complPort s.me.actor = some p →
      (s.here.port p).booked = [] ∧ ∀ e ∈ s.me.vq, ∀ v, e.instr = .vcvto v → v.vc.toNat = p → e.seq = none) :
    (if tokenForm s f g then s.here.complPort s.me.actor else none).elim (pure ()) (putReady s) = .ok () := by
  by_cases form : tokenForm s f g = true
  case neg => rw [if_neg form]; rfl
  case pos =>
    rw [if_pos form]
    have helper : g.op = .ldv ∧ s.cur.ctx ≠ 0 := by
      unfold tokenForm at form
      simp only [Bool.and_eq_true, decide_eq_true_eq, bne_iff_ne] at form
      exact ⟨form.1.1.1, form.1.1.2⟩
    obtain ⟨acquired, ports⟩ := place helper.1 helper.2
    cases port : s.here.complPort s.me.actor with
    | none => rfl
    | some p =>
      obtain ⟨booked, first⟩ := ports p port
      refine (congrArg stallIf ?_).trans stallIf_false
      rw [Bool.or_eq_false_iff, Bool.or_eq_false_iff]
      refine ⟨⟨acquired, by rw [booked]; rfl⟩, List.any_eq_false.mpr fun e he => ?_⟩
      split
      · rename_i v hv
        by_cases at_ : v.vc.toNat = p
        · simp [first e he v hv at_]
        · simp [at_]
      · exact Bool.false_ne_true

/-- A request that finds all it needs leaves. -/
theorem gReach_sends {pa : PAddr} (found : (translate s s.cur.tile (ctxSpace s s.cur.tile s.cur.ctx) va.toNat g.r g.w g.ver).2 = .ok pa)
    (token : TokenOk s f.tok)
    (place : g.op = .ldv → s.cur.ctx ≠ 0 → acquirePending s.here s.me = false ∧ ∀ p, s.here.complPort s.me.actor = some p →
      (s.here.port p).booked = [] ∧ ∀ e ∈ s.me.vq, ∀ v, e.instr = .vcvto v → v.vc.toNat = p → e.seq = none) :
    ∃ u seq, Prepared s u ∧ finishTry s (gReach f g va s) =
      .next ((u.sent (gRequest u f g va pa seq)).setMe (u.me.issued f s.here.nextOp s.me.pc)) := by
  have reach := transIssue_of_ok found
  obtain ⟨u, claim, frame⟩ := token.claimed (readOnly_transIssue reach)
  have issue := Prepared.of_issue frame
  have pc : u.me.pc = s.me.pc := by rw [issue.me]; rfl
  have sends : gReach f g va s = .ok (gSend u f g va pa) := by
    unfold gReach
    rw [reach]
    simp only [Bind.bind, Except.bind, claim, gldv_place (f := f) place]
    rfl
  rw [sends]
  obtain ⟨r, reserve⟩ : ∃ r, (if tokenForm u f g then gldvReserve u else (u, none)) = r := ⟨_, rfl⟩
  have prepared : Prepared s r.1 := by
    rw [← reserve]
    split
    · exact issue.gldvReserve
    · exact issue
  have send := gSend_eq u f g va pa
  rw [reserve] at send
  refine ⟨r.1, r.2, prepared, ?_⟩
  rw [← pc, ← prepared.nextOp, ← send]
  rfl

end

/-! The forms (R241 to R243). -/

theorem version_eq (b : Word) : (b.extractLsb' 0 16).setWidth 64 = BitVec.ofNat 64 (b.toNat % 2 ^ 16) := by
  apply BitVec.eq_of_toNat_eq
  rw [BitVec.toNat_setWidth, BitVec.extractLsb'_toNat, Nat.shiftRight_zero, BitVec.toNat_ofNat]

/-- GLDV outside the token form of a helper is issued as every other form. -/
theorem execGldv_issue {f : GW} {s : State} (form : s.cur.ctx ≠ 0 → f.async = 1 ∧ f.tok = 1 ∧ f.d = 0) :
    exec (.gldv f) s = gIssue f (gldvForm f s) s := by
  have run : exec (.gldv f) s = execGldv f s := rfl
  rw [run, execGldv, if_neg]
  rintro ⟨helper, -, -, d⟩
  exact d (form helper).2.2

/-- What the request carries. -/
theorem gRequest_prepared {s u : State} (h : Prepared s u) (f : GW) (g : GForm) (va : Addr) (pa : PAddr) (seq : Option Nat) :
    (gRequest u f g va pa seq).task = s.me.task ∧ (gRequest u f g va pa seq).pc = s.me.pc := by
  rw [gRequest, h.me]
  exact ⟨rfl, rfl⟩

/-- Settles O45: every form is issued by one function, whose checks, translation and request are taken in turn. -/
theorem globalMemoryIssue : Obligations.GlobalMemoryIssue := by
  unfold Obligations.GlobalMemoryIssue
  intro f s n d b low vers plain atomic versioned r listed i g c va need tagged x ready window form team
  have issued : exec i s = gIssue f g s := by
    have version := version_eq b
    rcases List.mem_append.mp listed with unversioned | listed
    · simp only [plain, atomic, List.map_cons, List.map_nil, List.cons_append, List.nil_append, List.mem_cons, List.not_mem_nil, or_false]
        at unversioned
      rcases unversioned with rfl | rfl | rfl | rfl | rfl | rfl | rfl | rfl | rfl | rfl | rfl | rfl | rfl <;> rfl
    · simp only [versioned, List.mem_cons, List.not_mem_nil, or_false] at listed
      rcases listed with rfl | rfl | rfl
      · refine (execGldv_issue (form rfl)).trans ?_
        rw [gldvForm, version]; rfl
      · have run : exec (.gstv f) s = gIssue f (gstvForm f s) s := rfl
        refine run.trans ?_
        rw [gstvForm, version]; rfl
      · rfl
  clear_value i g
  refine ⟨fun hold => issued.trans (gIssue_stalls ready window form team hold), fun free => ⟨fun code bad => ?_, fun ok => ?_⟩⟩
  · exact issued.trans (gIssue_traps ready window form team free bad)
  have reach : exec i s = finishTry s (gReach f g va s) := issued.trans (gIssue_reaches ready window form team free ok)
  refine ⟨fun wait zero => ?_, fun wait helper settled => ?_, fun perm => reach.trans (gReach_perm perm), fun denied settled => ?_,
    fun pa found token place => ?_⟩
  · refine (reach.trans (gReach_page wait)).trans ?_
    rw [pageWait, if_pos zero]; rfl
  · obtain ⟨w, waits⟩ := pageWait_waits (va := va) helper settled
    exact ⟨_, w, reach.trans (gReach_page wait), waits⟩
  · obtain ⟨cur, tiles, gmem⟩ := s.pageDenied_frame va
    have tile (k : Nat) : (s.pageDenied va).tile k = s.tile k := by rw [State.tile, tiles]; rfl
    have here : (s.pageDenied va).here = s.here := by rw [State.here, tile, cur]; rfl
    have me : (s.pageDenied va).me = s.me := by rw [State.me, here, cur]; rfl
    have settled' : (s.pageDenied va).settled := by rw [State.settled, me, cur]; exact settled
    exact ⟨_, _, reach.trans (gReach_denied denied), raiseTrap_settled settled' .., cur, here, fun k a => by rw [tile], fun a => by rw [gmem]⟩
  · obtain ⟨u, seq, prepared, sends⟩ := gReach_sends (f := f) (g := g) found token place
    obtain ⟨task, pc⟩ := gRequest_prepared prepared f g va pa seq
    obtain ⟨reqs, nextOp⟩ := reqs_issued prepared f (gRequest u f g va pa seq) s.here.nextOp s.me.pc
    have me : ((u.sent (gRequest u f g va pa seq)).setMe (u.me.issued f s.here.nextOp s.me.pc)).me = u.me.issued f s.here.nextOp s.me.pc :=
      State.me_setMe ..
    have tags := u.me.issued_tags f s.here.nextOp s.me.pc
    have wins := u.me.issued_wins f s.here.nextOp s.me.pc
    rw [← me, show u.me.tags = s.me.tags by rw [prepared.me]] at tags
    rw [← me, show u.me.countWins.wins = s.me.countWins.wins by rw [prepared.me]; rfl] at wins
    refine ⟨_, gRequest u f g va pa seq, reach.trans sends, handedOver_issued prepared .., by rw [reqs, AMap.get?_set_same], rfl, task, rfl, rfl,
      rfl, rfl, rfl, rfl, rfl, rfl, rfl, rfl, fun t => if_pos t, fun t => if_neg t, pc, rfl, rfl, rfl,
      fun p listed own open_ line => mem_accessAfter prepared listed own open_ (.inl line),
      fun release p listed own open_ scope => mem_accessAfter prepared listed own open_ (.inr ⟨release, scope⟩),
      fun j hj => by rw [reqs, AMap.get?_set_other _ _ (Ne.symm hj)], nextOp, fun t => tags.trans (if_pos t), fun t => tags.trans (if_neg t), wins⟩

end Sys2Proof.Machine
end

section
/-!
The completion of a vector instruction that accesses no memory (03 R79, 06 R158, R159): what it writes goes to its registers, or its result
to its lookahead window.
-/

namespace Sys2Proof.Machine

/-! What a completion writes. -/

theorem VqEntry.holds_own {e : VqEntry} {cls : RegClass} (h : vecDest e.instr = cls) : e.holds cls = e.win := by
  rw [VqEntry.holds, decide_eq_true h, Bool.and_true]

theorem VqEntry.holds_other {e : VqEntry} {cls : RegClass} (h : vecDest e.instr ≠ cls) : e.holds cls = false := by
  rw [VqEntry.holds, decide_eq_false h, Bool.and_false]

namespace Ctx

theorem giveV_readM (c : Ctx) (e : VqEntry) (p : BitVec 6 × Line) (q : Nat) : (c.giveV e p).readM q = c.readM q := by
  unfold Ctx.giveV; split <;> rfl

theorem giveV_readK (c : Ctx) (e : VqEntry) (p : BitVec 6 × Line) (q : BitVec 6) : (c.giveV e p).readK q = c.readK q := by
  unfold Ctx.giveV; split <;> rfl

theorem giveM_readV (c : Ctx) (e : VqEntry) (p : BitVec 6 × BitVec 16) (q : Nat) : (c.giveM e p).readV q = c.readV q := by
  unfold Ctx.giveM Ctx.writeM
  split
  · rfl
  · split <;> rfl

theorem giveM_readK (c : Ctx) (e : VqEntry) (p : BitVec 6 × BitVec 16) (q : BitVec 6) : (c.giveM e p).readK q = c.readK q := by
  unfold Ctx.giveM Ctx.writeM
  split
  · rfl
  · split <;> rfl

theorem giveK_readV (c : Ctx) (e : VqEntry) (p : BitVec 6 × Word) (q : Nat) : (c.giveK e p).readV q = c.readV q := by
  unfold Ctx.giveK Ctx.writeInt Ctx.writeK
  split
  · rfl
  · split <;> rfl

theorem giveK_readM (c : Ctx) (e : VqEntry) (p : BitVec 6 × Word) (q : Nat) : (c.giveK e p).readM q = c.readM q := by
  unfold Ctx.giveK Ctx.writeInt Ctx.writeK
  split
  · rfl
  · split <;> rfl

theorem giveV_readV_other (c : Ctx) (e : VqEntry) {p : BitVec 6 × Line} {q : BitVec 6} (h : q ≠ p.1) :
    (c.giveV e p).readV q.toNat = c.readV q.toNat := by
  unfold Ctx.giveV
  split
  · rfl
  · exact Ctx.readV_writeV_other _ _ (toNat_ne_of_ne h)

theorem giveM_readM_other (c : Ctx) (e : VqEntry) {p : BitVec 6 × BitVec 16} {q : BitVec 6} (h : q ≠ p.1) :
    (c.giveM e p).readM q.toNat = c.readM q.toNat := by
  unfold Ctx.giveM
  split
  · rfl
  · exact Ctx.readM_writeM_other _ _ (toNat_ne_of_ne h)

theorem giveK_readK_other (c : Ctx) (e : VqEntry) {p : BitVec 6 × Word} {q : BitVec 6} (h : q ≠ p.1) : (c.giveK e p).readK q = c.readK q := by
  unfold Ctx.giveK
  split
  · rfl
  · exact Ctx.readK_writeK_other _ _ (Ne.symm h)

/-! The registers that an output names are all that a completion writes. -/

theorem applyVOut_readV (c : Ctx) (e : VqEntry) {o : VOut} {q : BitVec 6} (h : q ∉ (o.v.map Prod.fst).toList) :
    (c.applyVOut e o).readV q.toNat = c.readV q.toNat := by
  obtain ⟨v, m, k, fl, ovr⟩ := o
  rw [Ctx.applyVOut_eq]
  have hv : (v.elim c (c.giveV e)).readV q.toNat = c.readV q.toNat := by
    cases v with
    | none => rfl
    | some p => exact giveV_readV_other c e fun eq => h (by simp [eq])
  have hm (d : Ctx) : (m.elim d (d.giveM e)).readV q.toNat = d.readV q.toNat := by
    cases m with
    | none => rfl
    | some p => exact giveM_readV ..
  have hk (d : Ctx) : (k.elim d (d.giveK e)).readV q.toNat = d.readV q.toNat := by
    cases k with
    | none => rfl
    | some p => exact giveK_readV ..
  exact (hk _).trans ((hm _).trans hv)

theorem applyVOut_readM (c : Ctx) (e : VqEntry) {o : VOut} {q : BitVec 6} (h : q ∉ (o.m.map Prod.fst).toList) :
    (c.applyVOut e o).readM q.toNat = c.readM q.toNat := by
  obtain ⟨v, m, k, fl, ovr⟩ := o
  rw [Ctx.applyVOut_eq]
  have hv : (v.elim c (c.giveV e)).readM q.toNat = c.readM q.toNat := by
    cases v with
    | none => rfl
    | some p => exact giveV_readM ..
  have hm (d : Ctx) : (m.elim d (d.giveM e)).readM q.toNat = d.readM q.toNat := by
    cases m with
    | none => rfl
    | some p => exact giveM_readM_other d e fun eq => h (by simp [eq])
  have hk (d : Ctx) : (k.elim d (d.giveK e)).readM q.toNat = d.readM q.toNat := by
    cases k with
    | none => rfl
    | some p => exact giveK_readM ..
  exact (hk _).trans ((hm _).trans hv)

theorem applyVOut_readK (c : Ctx) (e : VqEntry) {o : VOut} {q : BitVec 6} (h : q ∉ (o.k.map Prod.fst).toList) :
    (c.applyVOut e o).readK q = c.readK q := by
  obtain ⟨v, m, k, fl, ovr⟩ := o
  rw [Ctx.applyVOut_eq]
  have hv : (v.elim c (c.giveV e)).readK q = c.readK q := by
    cases v with
    | none => rfl
    | some p => exact giveV_readK ..
  have hm (d : Ctx) : (m.elim d (d.giveM e)).readK q = d.readK q := by
    cases m with
    | none => rfl
    | some p => exact giveM_readK ..
  have hk (d : Ctx) : (k.elim d (d.giveK e)).readK q = d.readK q := by
    cases k with
    | none => rfl
    | some p => exact giveK_readK_other d e fun eq => h (by simp [eq])
  exact (hk _).trans ((hm _).trans hv)

theorem applyVOut_fpc (c : Ctx) (e : VqEntry) (o : VOut) : (c.applyVOut e o).fpc = c.fpc ||| o.flags.setWidth 64 := by
  obtain ⟨v, m, k, fl, ovr⟩ := o
  rw [Ctx.applyVOut_eq]
  have hv : (v.elim c (c.giveV e)).fpc = c.fpc := by
    cases v with
    | none => rfl
    | some p => dsimp only [Option.elim]; unfold Ctx.giveV; split <;> rfl
  have hm (d : Ctx) : (m.elim d (d.giveM e)).fpc = d.fpc := by
    cases m with
    | none => rfl
    | some p =>
      dsimp only [Option.elim]
      unfold Ctx.giveM Ctx.writeM
      split
      · rfl
      · split <;> rfl
  have hk (d : Ctx) : (k.elim d (d.giveK e)).fpc = d.fpc := by
    cases k with
    | none => rfl
    | some p =>
      dsimp only [Option.elim]
      unfold Ctx.giveK Ctx.writeInt Ctx.writeK
      split
      · rfl
      · split <;> rfl
  exact congrArg (· ||| fl.setWidth 64) ((hk _).trans ((hm _).trans hv))

/-! Each result reaches its register or its window. -/

/-- A v result, with or without a k result that no window holds. -/
theorem applyVOut_hasV {e : VqEntry} (cls : vecDest e.instr = .v) (c : Ctx) {o : VOut} {r : BitVec 6} {x : Line} (v : o.v = some (r, x))
    (m : o.m = none) : c.hasV (c.applyVOut e o) e r x := by
  obtain ⟨v', m', k, fl, ovr⟩ := o
  cases v; cases m
  have writes (d : Ctx) : (k.elim d (d.giveK e)).wins = d.wins ∧ ∀ q, (k.elim d (d.giveK e)).readV q = d.readV q := by
    cases k with
    | none => exact ⟨rfl, fun _ => rfl⟩
    | some p =>
      refine ⟨?_, giveK_readV d e p⟩
      dsimp only [Option.elim]
      rw [Ctx.giveK, VqEntry.holds_other (by rw [cls]; decide), if_neg Bool.false_ne_true]
      unfold Ctx.writeInt Ctx.writeK
      split <;> rfl
  rw [Ctx.applyVOut_eq]
  obtain ⟨wins, reads⟩ := writes (c.giveV e (r, x))
  refine ⟨fun plain => ⟨?_, ?_⟩, fun win => ⟨fun q => ?_, ?_⟩⟩
  · refine (reads _).trans ?_
    rw [Ctx.giveV, VqEntry.holds_own cls, plain, if_neg Bool.false_ne_true]; exact Ctx.readV_writeV ..
  · refine wins.trans ?_
    rw [Ctx.giveV, VqEntry.holds_own cls, plain, if_neg Bool.false_ne_true]; rfl
  · refine (reads _).trans ?_
    rw [Ctx.giveV, VqEntry.holds_own cls, win, if_pos rfl]; rfl
  · refine wins.trans ?_
    rw [Ctx.giveV, VqEntry.holds_own cls, win, if_pos rfl]; rfl

theorem applyVOut_hasM {e : VqEntry} (cls : vecDest e.instr = .m) (c : Ctx) (r : BitVec 6) (x : BitVec 16) (fl : Flags) :
    c.hasM (c.applyVOut e { m := some (r, x), flags := fl }) e r x := by
  rw [Ctx.applyVOut_eq]
  dsimp only [Option.elim]
  rw [Ctx.giveM, VqEntry.holds_own cls]
  refine ⟨fun plain => ?_, fun win => ?_⟩
  · rw [plain, if_neg Bool.false_ne_true]
    refine ⟨?_, ?_⟩
    · refine (Ctx.readM_writeM c r.toNat x).trans ?_
      by_cases zero : r = 0
      · rw [zero]; rfl
      · rw [if_neg zero, if_neg fun eq : r.toNat = 0 => zero (BitVec.eq_of_toNat_eq eq)]
    · change (c.writeM r.toNat x).wins = c.wins
      unfold Ctx.writeM
      split <;> rfl
  · rw [win, if_pos rfl]
    exact ⟨fun _ => rfl, rfl⟩

theorem applyVOut_hasK {e : VqEntry} (cls : vecDest e.instr = .k) (c : Ctx) (r : BitVec 6) (x : Word) :
    c.hasK (c.applyVOut e { k := some (r, x) }) e r x := by
  rw [Ctx.applyVOut_eq]
  dsimp only [Option.elim]
  rw [Ctx.giveK, VqEntry.holds_own cls]
  refine ⟨fun plain => ?_, fun win => ?_⟩
  · rw [plain, if_neg Bool.false_ne_true]
    refine ⟨Ctx.readK_writeK .., ?_⟩
    change (c.writeInt r x).wins = c.wins
    unfold Ctx.writeInt Ctx.writeK
    split <;> rfl
  · rw [win, if_pos rfl]
    exact ⟨fun _ => rfl, rfl⟩

end Ctx

/-! The completion. -/

/-- The state in which the oldest instruction has left its queue and its output is written. -/
def State.vecWritten (s : State) (k n : Nat) (e : VqEntry) (rest : List VqEntry) (o : VOut) : State :=
  s.setTile k (((s.tile k).ungrouped e).setCtx n (({ (s.tile k).ctx n with vq := rest } : Ctx).applyVOut e o))

section
variable {s : State} {k n g : Nat} {e : VqEntry} {rest : List VqEntry}

theorem State.ctx_vecWritten (s : State) (k n : Nat) (e : VqEntry) (rest : List VqEntry) (o : VOut) :
    ((s.vecWritten k n e rest o).tile k).ctx n = ({ (s.tile k).ctx n with vq := rest } : Ctx).applyVOut e o := by
  rw [State.vecWritten, State.tile_setTile]; exact Tile.ctx_setCtx ..

/-- A completion that has written, and whose token if any is sent: the frame. -/
theorem vecDone_written {o : VOut} {t : State} (steps : TokenStep (s.vecWritten k n e rest o) t) (tiles : ∀ q, q ≠ k → t.tile q = s.tile q)
    (outside : e.seq = none → t = { s with tiles := t.tiles }) :
    VecDone s t k n e rest (o.v.map Prod.fst).toList (o.m.map Prod.fst).toList (o.k.map Prod.fst).toList := by
  have ctx : (t.tile k).ctx n = ({ (s.tile k).ctx n with vq := rest } : Ctx).applyVOut e o := (steps.ctx k n).trans (s.ctx_vecWritten ..)
  have delivers := Ctx.Delivers.applyVOut ({ (s.tile k).ctx n with vq := rest } : Ctx) e o
  have written : (s.vecWritten k n e rest o).tile k =
      ((s.tile k).ungrouped e).setCtx n (({ (s.tile k).ctx n with vq := rest } : Ctx).applyVOut e o) :=
    State.tile_setTile ..
  have tlm : s.sameTlm t := fun q a => by
    by_cases hq : q = k
    · rw [(steps.tiles q).tlm, hq, written]; rfl
    · rw [tiles q hq]
  refine ⟨by rw [ctx, delivers.ctx], fun g hg => ?_, fun r hr => by rw [ctx]; exact Ctx.applyVOut_readV _ e hr,
    fun r hr => by rw [ctx]; exact Ctx.applyVOut_readM _ e hr, fun r hr => by rw [ctx]; exact Ctx.applyVOut_readK _ e hr,
    by rw [ctx, delivers.ctx]; exact ⟨rfl, rfl⟩, fun q hq => ?_, tiles, outside, tlm, fun a => by rw [steps.gmem]; rfl⟩
  · rw [(steps.tiles k).tile, written]
    change AMap.get? (e.group.elim (s.tile k).groups (AMap.erase (s.tile k).groups)) g = none
    rw [hg]; exact AMap.get?_erase_same ..
  · rw [steps.ctx, written, Tile.ctx_setCtx_other _ _ (Ne.symm hq)]; rfl

variable (noVm : vmShape e.instr = none)
include noVm

theorem vmAccesses_none (c : Ctx) : vmAccesses c e = [] := by
  unfold vmAccesses
  split <;> simp_all [vmShape]

variable (hn : n ≤ 10) (group : e.group = some g) (queue : ((s.tile k).ctx n).vq = e :: rest)
include hn queue

theorem vecRetire_plain (noToken : e.seq = none ∨ ∀ f, e.instr ≠ .vcvto f) :
    vecRetire (s.setTile k (s.tile k)) k n = s.vecWritten k n e rest (vecOut e ((s.tile k).ctx n)) := by
  unfold vecRetire State.vecWritten Tile.ungrouped
  simp only [State.tile_setTile, Tile.slotCtx_ctx _ hn, Tile.setSlotCtx_ctx _ hn, queue, noVm, State.setTile_setTile]
  cases e.group
  all_goals
    split
    case h_1 seq instr =>
      rcases noToken with none | not
      · exact absurd (seq.symm.trans none) (by simp)
      · exact absurd instr (not _)
    case h_2 => rfl

theorem vecRetire_token {f : VW} {q : Nat} (instr : e.instr = .vcvto f) (seq : e.seq = some q) :
    vecRetire (s.setTile k (s.tile k)) k n = (s.vecWritten k n e rest (vecOut e ((s.tile k).ctx n))).fillPort k f.vc.toNat q
      (if (vecOut e ((s.tile k).ctx n)).ovr = 0 then .null else .data)
      (if (vecOut e ((s.tile k).ctx n)).ovr = 0 then 0 else BitVec.ofNat 512 (vecOut e ((s.tile k).ctx n)).ovr) := by
  unfold vecRetire State.vecWritten Tile.ungrouped
  simp only [State.tile_setTile, Tile.slotCtx_ctx _ hn, Tile.setSlotCtx_ctx _ hn, queue, noVm, State.setTile_setTile]
  cases e.group
  all_goals
    simp only [seq, instr]
    split <;> rfl

include group

theorem exec_vectorComplete_retires : exec (.vectorComplete k n) s = .next (vecRetire (s.setTile k (s.tile k)) k n) := by
  have run : exec (.vectorComplete k n) s = execVectorComplete k n s := rfl
  have left : ((s.tile k).slotCtx n).vmLeft = 0 := by
    rw [Tile.slotCtx_ctx _ hn, Ctx.vmLeft, queue]
    exact (congrArg (List.length · - e.done) (vmAccesses_none noVm _)).trans (Nat.zero_sub _)
  rw [run, execVectorComplete, queue]
  dsimp only
  rw [group, Option.isSome_some, if_pos rfl, vecAdvance, left, if_pos (Nat.zero_le 1), vecFinish_eq, left]
  rfl

/-- An instruction that sends no token: it has completed once its output is written. -/
theorem vecRuns_written (noToken : e.seq = none ∨ ∀ f, e.instr ≠ .vcvto f) {o : VOut} (out : vecOut e ((s.tile k).ctx n) = o)
    {does : State → Ctx → Prop} (h : ∀ t, does t (({ (s.tile k).ctx n with vq := rest } : Ctx).applyVOut e o)) :
    VecRuns s k n e rest (o.v.map Prod.fst).toList (o.m.map Prod.fst).toList (o.k.map Prod.fst).toList o.flags does := by
  subst out
  refine ⟨_, exec_vectorComplete_retires noVm hn group queue, ?_⟩
  rw [vecRetire_plain noVm hn queue noToken, State.ctx_vecWritten]
  refine ⟨vecDone_written (.refl _) (fun q hq => State.tile_setTile_other _ _ (Ne.symm hq)) fun _ => rfl, Ctx.applyVOut_fpc .., h _⟩

/-- An instruction whose one result is a v register's. -/
theorem vecRuns_v (cls : vecDest e.instr = .v) (noToken : e.seq = none ∨ ∀ f, e.instr ≠ .vcvto f) {r : BitVec 6} {x : Line} {fl : Flags}
    (out : vecOut e ((s.tile k).ctx n) = { v := some (r, x), flags := fl }) {P : Line → Prop} (h : P x) :
    VecRuns s k n e rest [r] [] [] fl fun _ d => ∃ x, ((s.tile k).ctx n).hasV d e r x ∧ P x :=
  vecRuns_written noVm hn group queue noToken out fun _ => ⟨x, Ctx.applyVOut_hasV cls { (s.tile k).ctx n with vq := rest } rfl rfl, h⟩

/-- An instruction whose one result is an m register's. -/
theorem vecRuns_m (cls : vecDest e.instr = .m) (noToken : e.seq = none ∨ ∀ f, e.instr ≠ .vcvto f) {r : BitVec 6} {x : BitVec 16} {fl : Flags}
    (out : vecOut e ((s.tile k).ctx n) = { m := some (r, x), flags := fl }) {P : BitVec 16 → Prop} (h : P x) :
    VecRuns s k n e rest [] [r] [] fl fun _ d => ∃ x, ((s.tile k).ctx n).hasM d e r x ∧ P x :=
  vecRuns_written noVm hn group queue noToken out fun _ => ⟨x, Ctx.applyVOut_hasM cls { (s.tile k).ctx n with vq := rest } r x fl, h⟩

/-- An instruction whose one result is a k register's. -/
theorem vecRuns_k (cls : vecDest e.instr = .k) (noToken : e.seq = none ∨ ∀ f, e.instr ≠ .vcvto f) {r : BitVec 6} {x : Word}
    (out : vecOut e ((s.tile k).ctx n) = { k := some (r, x) }) :
    VecRuns s k n e rest [] [] [r] 0 fun _ d => ((s.tile k).ctx n).hasK d e r x :=
  vecRuns_written noVm hn group queue noToken out fun _ => Ctx.applyVOut_hasK cls { (s.tile k).ctx n with vq := rest } r x

end

end Sys2Proof.Machine
end

section
/-!
The elements of a line (06 R155 to R157): what a completion makes of each, under its mask.
-/

namespace Sys2Proof.Machine

/-! Element types. -/

theorem widthOf_eq (e : BitVec 4) : widthOf e = etypeWidth e := by revert e; decide

theorem isSigned_eq (e : BitVec 4) : isSigned e = isSint e := by revert e; decide

theorem etypeWidth_cases (e : BitVec 4) : etypeWidth e = 8 ∨ etypeWidth e = 16 ∨ etypeWidth e = 32 ∨ etypeWidth e = 64 := by revert e; decide

/-! Elements and lines. -/

theorem elem_lt (x : Line) (w i : Nat) : elem x w i < 2 ^ w := Nat.mod_lt _ (Nat.two_pow_pos w)

theorem ofElems_elem (w : Nat) (xs : List Nat) (j : Nat) : ofElems w xs / 2 ^ (w * j) % 2 ^ w = xs.getD j 0 % 2 ^ w := by
  have pos : 0 < 2 ^ w := Nat.two_pow_pos w
  induction xs generalizing j with
  | nil => simp [ofElems]
  | cons x xs ih =>
    cases j with
    | zero => simp [ofElems]
    | succ j =>
      have shift : ofElems w (x :: xs) / 2 ^ (w * (j + 1)) = ofElems w xs / 2 ^ (w * j) := by
        rw [Nat.mul_succ, Nat.pow_add', ← Nat.div_div_eq_div_mul, ofElems, Nat.add_mul_div_left _ _ pos, Nat.mod_div_self, Nat.zero_add]
      rw [shift, ih]; rfl

/-- An element below the line's end is the number it was made from. -/
theorem elem_lineOf {w j : Nat} (fits : w * (j + 1) ≤ 512) (xs : List Nat) : elem (lineOf w xs) w j = xs.getD j 0 % 2 ^ w := by
  rw [← ofElems_elem, elem, lineOf, BitVec.toNat_ofNat]
  apply Nat.eq_of_testBit_eq
  intro i
  simp only [Nat.testBit_mod_two_pow, Nat.testBit_div_two_pow]
  by_cases low : i < w
  · have below : i + w * j < 512 := by rw [Nat.mul_succ] at fits; omega
    simp [below]
  · simp [low]

theorem mul_succ_le_of_lt_div {w j n : Nat} (h : j < n / w) : w * (j + 1) ≤ n :=
  (Nat.mul_le_mul_left w h).trans (Nat.mul_div_le n w)

theorem getD_map_range {α : Type} (f : Nat → α) {n j : Nat} (h : j < n) (d : α) : ((List.range n).map f).getD j d = f j := by
  simp [List.getD, h]

theorem elem_lineOf_map (w : Nat) (f : Nat → Nat) {j : Nat} (h : j < 512 / w) :
    elem (lineOf w ((upto (512 / w)).map f)) w j = f j % 2 ^ w := by
  rw [elem_lineOf (mul_succ_le_of_lt_div h), upto, getD_map_range f h]

/-! Flags are ORed. -/

theorem foldl_or_ite {l : List Nat} {p : Nat → Bool} {fl : Nat → Flags} {init : Flags} :
    l.foldl (fun x j => x ||| (if p j then fl j else 0)) init = (l.filter p).foldl (fun x j => x ||| fl j) init := by
  rw [List.foldl_filter]
  congr 1
  funext x j
  split
  · rfl
  · exact BitVec.or_zero

theorem foldl_or_zero (l : List Nat) : l.foldl (fun x _ => x ||| (0 : Flags)) 0 = 0 := by
  induction l with
  | nil => rfl
  | cons y l ih => exact (congrArg (l.foldl _) BitVec.or_zero).trans ih

/-! Activity. -/

theorem mask_bit_lt {w j : Nat} (hw : w = 8 ∨ w = 16 ∨ w = 32 ∨ w = 64) (h : j < 512 / w) : (if w = 64 then j else j * w / 32) < 16 := by
  rcases hw with rfl | rfl | rfl | rfl <;> simp at h ⊢ <;> omega

theorem isActive_eq (c : Ctx) (f : VW) {w j : Nat} (bit : (if w = 64 then j else j * w / 32) < 16) :
    isActive (c.mask f) w j = decide (c.activeAt f w j) := by
  have active : isActive (c.mask f) w j = (c.mask f).getLsbD (if w = 64 then j else j * w / 32) := by
    unfold isActive; split <;> rfl
  rw [active]
  by_cases zero : f.mask = 0
  · have all : (c.mask f).getLsbD (if w = 64 then j else j * w / 32) = true := by
      rw [Ctx.mask, zero]
      generalize (if w = 64 then j else j * w / 32) = i at bit
      change (0xFFFF : BitVec 16).getLsbD i = true
      interval_cases i <;> rfl
    rw [all, decide_eq_true (.inl zero)]
  · have reads : c.activeAt f w j ↔ (c.readM f.mask.toNat).getLsbD (if w = 64 then j else j * w / 32) = true := or_iff_right zero
    rw [Bool.eq_iff_iff, decide_eq_true_iff, reads]; rfl

section
variable {w : Nat} (hw : w = 8 ∨ w = 16 ∨ w = 32 ∨ w = 64)
include hw

theorem isActive_elem (c : Ctx) (f : VW) {j : Nat} (h : j < 512 / w) : isActive (c.mask f) w j = decide (c.activeAt f w j) :=
  isActive_eq c f (mask_bit_lt hw h)

theorem filter_isActive (c : Ctx) (f : VW) : (upto (512 / w)).filter (isActive (c.mask f) w) = c.actives f w :=
  List.filter_congr fun _ hj => isActive_elem hw c f (List.mem_range.mp hj)

/-- The element operation of R157, element by element. -/
theorem eachElem_vmap (c : Ctx) (f : VW) (op : Nat → Nat × Flags) :
    c.eachElem f w (vmap (c.mask f) w (c.readV f.d.toNat) op).1 fun j => (op j).1 := by
  intro j hj
  have line : elem (vmap (c.mask f) w (c.readV f.d.toNat) op).1 w j =
      (if isActive (c.mask f) w j then op j else (elem (c.readV f.d.toNat) w j, 0)).1 % 2 ^ w := by
    rw [vmap, List.map_map]; exact elem_lineOf_map w _ hj
  rw [line, isActive_elem hw c f hj]
  refine ⟨fun active => ?_, fun inactive => ?_⟩
  · rw [decide_eq_true active]; rfl
  · rw [decide_eq_false inactive]; exact Nat.mod_eq_of_lt (elem_lt ..)

/-- The flags of the active elements, ORed (R156). -/
theorem flags_vmap (c : Ctx) (f : VW) (op : Nat → Nat × Flags) :
    (vmap (c.mask f) w (c.readV f.d.toNat) op).2 = (c.actives f w).foldl (fun x j => x ||| (op j).2) 0 := by
  rw [vmap, List.foldl_map, ← filter_isActive hw, ← foldl_or_ite]
  refine congrArg (fun step => (upto (512 / w)).foldl step 0) (funext fun x => funext fun j => ?_)
  split <;> rfl

end

/-! Integers as elements (R105, R157). -/

theorem intVal_eq {w x : Nat} (signed : Bool) (pos : 0 < w) (h : x < 2 ^ w) : intVal signed w x = elemInt signed w x := by
  cases signed with
  | false => simp [intVal, elemInt]
  | true =>
    have half : 2 ^ w = 2 * 2 ^ (w - 1) := by rw [← Nat.pow_succ']; congr 1; omega
    have reads : elemInt true w x = if 2 * x < 2 ^ w then (x : Int) else (x : Int) - (2 ^ w : Nat) := by
      rw [elemInt, if_pos rfl, BitVec.toInt_eq_toNat_cond, BitVec.toNat_ofNat, Nat.mod_eq_of_lt h]
    rw [reads, intVal, Bool.true_and]
    by_cases low : 2 ^ (w - 1) ≤ x
    · rw [decide_eq_true low, if_pos rfl, if_neg (by omega)]; push_cast; rfl
    · rw [decide_eq_false low, if_neg Bool.false_ne_true, if_pos (by omega)]

theorem wrapInt_eq (w : Nat) (v : Int) : wrapInt w v = (BitVec.ofInt w v).toNat := by
  rw [wrapInt, BitVec.toNat_ofInt]; push_cast; rfl

theorem clampInt_eq {w : Nat} (signed : Bool) (v : Int) : (clampInt signed w v).1 =
    max (if signed then -2 ^ (w - 1) else 0) (min (if signed then 2 ^ (w - 1) - 1 else 2 ^ w - 1) v) := by
  have one : (0 : Int) < 2 ^ (w - 1) := by positivity
  have all : (0 : Int) < 2 ^ w := by positivity
  have order : intMin signed w ≤ intMax signed w := by
    cases signed
    · simp only [intMin, intMax, Bool.false_eq_true, if_false]; omega
    · simp only [intMin, intMax, if_true]; omega
  change (clampInt signed w v).1 = max (intMin signed w) (min (intMax signed w) v)
  unfold clampInt
  split
  · simp only; omega
  · split
    · simp only; omega
    · simp only; omega

/-- The bits of an exact result, clamped or not. -/
theorem wrapInt_elemBits {w : Nat} (signed clamp : Bool) (v : Int) :
    wrapInt w (if clamp then (clampInt signed w v).1 else v) = elemBits signed clamp w v := by
  rw [wrapInt_eq, elemBits, clampInt_eq signed]

theorem wrapInt_plain (signed : Bool) (w : Nat) (v : Int) : wrapInt w v = elemBits signed false w v := wrapInt_eq w v

/-! An instruction that computes element by element. -/

section
variable {s : State} {k n g : Nat} {e : VqEntry} {rest : List VqEntry} {f : VW} (noVm : vmShape e.instr = none) (hn : n ≤ 10)
  (group : e.group = some g) (queue : ((s.tile k).ctx n).vq = e :: rest) (cls : vecDest e.instr = .v)
  (noToken : e.seq = none ∨ ∀ f, e.instr ≠ .vcvto f) {w : Nat} (hw : w = 8 ∨ w = 16 ∨ w = 32 ∨ w = 64)
include noVm hn group queue cls noToken hw

theorem vecEach_of {op : Nat → Nat × Flags} (out : vecOut e ((s.tile k).ctx n) =
      { v := some (f.d, (vmap (((s.tile k).ctx n).mask f) w (((s.tile k).ctx n).readV f.d.toNat) op).1)
        flags := (vmap (((s.tile k).ctx n).mask f) w (((s.tile k).ctx n).readV f.d.toNat) op).2 }) :
    VecEach s k n e rest f w (fun j => (op j).1) fun j => (op j).2 := by
  rw [flags_vmap hw] at out
  exact vecRuns_v noVm hn group queue cls noToken out (P := fun x => Ctx.eachElem _ f w x _) (eachElem_vmap hw _ f op)

/-- One that raises no flag. -/
theorem vecEach_quiet {v : Nat → Nat} (out : vecOut e ((s.tile k).ctx n) =
      { v := some (f.d, (vmap (((s.tile k).ctx n).mask f) w (((s.tile k).ctx n).readV f.d.toNat) fun j => (v j, 0)).1) }) :
    VecEach s k n e rest f w v fun _ => 0 := by
  have runs := vecRuns_v (fl := 0) noVm hn group queue cls noToken out (P := fun x => Ctx.eachElem _ f w x v)
    (eachElem_vmap hw ((s.tile k).ctx n) f fun j => (v j, 0))
  rw [← foldl_or_zero (((s.tile k).ctx n).actives f w)] at runs
  exact runs

end

end Sys2Proof.Machine
end

section
/-!
Permutations, reductions, sign operations, classes, compares, mask operations and moves (06 R163, R171, R172, R175, R176).
-/

namespace Sys2Proof.Machine

/-! What one instruction of the queue computes. -/

/-- An instruction that accesses no memory and sends no token. -/
structure QuietInstr (i : Instr) : Prop where
  noVm : vmShape i = none
  noToken : ∀ f, i ≠ .vcvto f

section
variable {s : State} {k n g : Nat} {e : VqEntry} {rest : List VqEntry} {f : VW} (hn : n ≤ 10) (group : e.group = some g)
  (queue : ((s.tile k).ctx n).vq = e :: rest) {i : Instr} (instr : e.instr = i) (quiet : QuietInstr i)
include hn group queue instr quiet

theorem runs_v (cls : vecDest i = .v) {r : BitVec 6} {x : Line} {fl : Flags}
    (out : vecOut { e with instr := i } ((s.tile k).ctx n) = { v := some (r, x), flags := fl }) {P : Line → Prop} (h : P x) :
    VecRuns s k n e rest [r] [] [] fl fun _ d => ∃ x, ((s.tile k).ctx n).hasV d e r x ∧ P x := by
  subst instr
  exact vecRuns_v quiet.noVm hn group queue cls (.inr quiet.noToken) out h

theorem runs_m (cls : vecDest i = .m) {r : BitVec 6} {x : BitVec 16} {fl : Flags}
    (out : vecOut { e with instr := i } ((s.tile k).ctx n) = { m := some (r, x), flags := fl }) {P : BitVec 16 → Prop} (h : P x) :
    VecRuns s k n e rest [] [r] [] fl fun _ d => ∃ x, ((s.tile k).ctx n).hasM d e r x ∧ P x := by
  subst instr
  exact vecRuns_m quiet.noVm hn group queue cls (.inr quiet.noToken) out h

theorem runs_mask (cls : vecDest i = .m) {r : BitVec 6} {x : BitVec 16}
    (out : vecOut { e with instr := i } ((s.tile k).ctx n) = { m := some (r, x) }) :
    VecRuns s k n e rest [] [r] [] 0 fun _ d => ((s.tile k).ctx n).hasM d e r x := by
  subst instr
  exact vecRuns_written quiet.noVm hn group queue (.inr quiet.noToken) out fun _ =>
    Ctx.applyVOut_hasM cls { (s.tile k).ctx n with vq := rest } r x 0

theorem runs_k (cls : vecDest i = .k) {r : BitVec 6} {x : Word}
    (out : vecOut { e with instr := i } ((s.tile k).ctx n) = { k := some (r, x) }) :
    VecRuns s k n e rest [] [] [r] 0 fun _ d => ((s.tile k).ctx n).hasK d e r x := by
  subst instr
  exact vecRuns_k quiet.noVm hn group queue cls (.inr quiet.noToken) out

variable (cls : vecDest i = .v)
include cls

/-- A permutation. -/
theorem each_perm {op : Nat → Nat} (out : vecOut { e with instr := i } ((s.tile k).ctx n) = permOut ((s.tile k).ctx n) f op) :
    VecEach s k n e rest f (widthOf f.etype) op fun _ => 0 := by
  subst instr
  exact vecEach_quiet quiet.noVm hn group queue cls (.inr quiet.noToken) (by rw [widthOf_eq]; exact etypeWidth_cases _) out

/-- A float instruction on the bits of its operands. -/
theorem each_float {op : Fmt → Nat → Nat → Nat → Nat × Flags}
    (out : vecOut { e with instr := i } ((s.tile k).ctx n) = vfOut ((s.tile k).ctx n) f op) :
    let c := (s.tile k).ctx n
    let r := fun j => op (fmtOf f.etype) (elem (c.readV f.a.toNat) (widthOf f.etype) j) (elem (c.readV f.b.toNat) (widthOf f.etype) j)
      (elem (c.readV f.vc.toNat) (widthOf f.etype) j)
    VecEach s k n e rest f (widthOf f.etype) (fun j => (r j).1) fun j => (r j).2 := by
  subst instr
  exact vecEach_of quiet.noVm hn group queue cls (.inr quiet.noToken) (by rw [widthOf_eq]; exact etypeWidth_cases _) out

/-- A reduction: element 0 is the result, the others are zero. -/
theorem runs_first {fl : Flags} {w v : Nat} (small : w ≤ 512)
    (out : vecOut { e with instr := i } ((s.tile k).ctx n) = { v := some (f.d, lineOf w [v]), flags := fl }) :
    VecRuns s k n e rest [f.d] [] [] fl fun _ d => ∃ r, ((s.tile k).ctx n).hasV d e f.d r ∧
      (elem r w 0 = v % 2 ^ w ∧ ∀ j, 0 < j → j < 512 / w → elem r w j = 0) := by
  refine runs_v hn group queue instr quiet cls out (P := fun r => elem r w 0 = v % 2 ^ w ∧ ∀ j, 0 < j → j < 512 / w → elem r w j = 0)
    ⟨?_, fun j pos hj => ?_⟩
  · rw [elem_lineOf (by omega)]; rfl
  · rw [elem_lineOf (mul_succ_le_of_lt_div hj)]
    cases j with
    | zero => exact absurd pos (Nat.lt_irrefl 0)
    | succ j => rfl

end

/-! Compares (R175). -/

/-- A number made of bits. -/
theorem testBit_ofElems (bs : List Bool) (j : Nat) : (ofElems 1 (bs.map fun b => if b then 1 else 0)).testBit j = bs.getD j false := by
  have bit := ofElems_elem 1 (bs.map fun b => if b then 1 else 0) j
  rw [Nat.one_mul, pow_one] at bit
  have at_ : (bs.map fun b => if b then 1 else 0).getD j 0 = if bs.getD j false then 1 else 0 :=
    List.getD_map _ false (fun b : Bool => if b then 1 else 0)
  rw [Nat.testBit_eq_decide_div_mod_eq, bit, at_]
  cases bs.getD j false <;> rfl

theorem getLsbD_ofElems (n : Nat) (bs : List Bool) (j : Nat) :
    (BitVec.ofNat n (ofElems 1 (bs.map fun b => if b then 1 else 0))).getLsbD j = (decide (j < n) && bs.getD j false) := by
  rw [BitVec.getLsbD_ofNat, testBit_ofElems]

/-- The element that lane j of a compare tests. -/
def laneElem (f : VW) (w j : Nat) : Nat := if w = 64 then j else j * (32 / w) + f.imm.toNat % 4

/-- The lanes of a compare that are active. -/
def Ctx.testedLanes (c : Ctx) (f : VW) (w : Nat) : List Nat :=
  (List.range (if w = 64 then 8 else 16)).filter fun j => decide (c.activeAt f w (laneElem f w j))

/-- A compare's mask: one bit per lane, the others kept (R175). -/
def Ctx.compares (c : Ctx) (f : VW) (w : Nat) (p : Nat → Bool) (r : BitVec 16) : Prop := ∀ j, j < 16 →
  (w = 64 → 8 ≤ j → r.getLsbD j = false) ∧
  (w ≠ 64 ∨ j < 8 → c.activeAt f w (laneElem f w j) → r.getLsbD j = p (laneElem f w j)) ∧
  (w ≠ 64 ∨ j < 8 → ¬c.activeAt f w (laneElem f w j) → r.getLsbD j = (c.readM f.d.toNat).getLsbD j)

/-- What lane j of a compare adds: its bit and its flags. -/
def cmpLane (c : Ctx) (f : VW) (w : Nat) (p : Nat → Bool) (fl : Nat → Flags) (j : Nat) : Bool × Flags :=
  if w = 64 && decide (8 ≤ j) then (false, 0)
  else if isActive (c.mask f) w (laneElem f w j) then (p (laneElem f w j), fl (laneElem f w j)) else ((c.readM f.d.toNat).getLsbD j, 0)

theorem imm_part (f : VW) : (f.imm.extractLsb' 0 2).toNat = f.imm.toNat % 4 := by
  rw [BitVec.extractLsb'_toNat, Nat.shiftRight_zero]

theorem cmpOut_eq {c : Ctx} {f : VW} {op : Nat → Nat → Bool × Flags} {p : Nat → Bool} {fl : Nat → Flags}
    (tests : ∀ i, op (elem (c.readV f.a.toNat) (widthOf f.etype) i) (elem (c.readV f.b.toNat) (widthOf f.etype) i) = (p i, fl i)) :
    cmpOut c f op =
      { m := some (f.d, BitVec.ofNat 16 (ofElems 1 (((List.range 16).map fun j => (cmpLane c f (widthOf f.etype) p fl j).1).map
          fun b => if b then 1 else 0)))
        flags := (List.range 16).foldl (fun x j => x ||| (cmpLane c f (widthOf f.etype) p fl j).2) 0 } := by
  have lanes : cmpLane c f (widthOf f.etype) p fl = fun j => if widthOf f.etype = 64 && decide (8 ≤ j) then (false, 0)
      else if isActive (c.mask f) (widthOf f.etype) (laneElem f (widthOf f.etype) j) then
        op (elem (c.readV f.a.toNat) (widthOf f.etype) (laneElem f (widthOf f.etype) j))
          (elem (c.readV f.b.toNat) (widthOf f.etype) (laneElem f (widthOf f.etype) j))
      else ((c.readM f.d.toNat).getLsbD j, 0) := by
    funext j
    rw [cmpLane, tests]
  rw [lanes]
  unfold laneElem
  rw [← imm_part, List.map_map]
  unfold cmpOut
  dsimp only
  rw [List.map_map, List.foldl_map]
  rfl

section
variable {w : Nat} (hw : w = 8 ∨ w = 16 ∨ w = 32 ∨ w = 64) {f : VW} (part : f.imm.toNat % 4 < max 1 (32 / w))
include hw part

/-- The mask bit of a lane's element is the lane's own. -/
theorem laneElem_bit {j : Nat} (hj : j < 16) (lane : w ≠ 64 ∨ j < 8) : (if w = 64 then laneElem f w j else laneElem f w j * w / 32) < 16 := by
  unfold laneElem
  generalize f.imm.toNat % 4 = q at part
  rcases hw with rfl | rfl | rfl | rfl <;> simp at part lane ⊢ <;> omega

theorem compares_lanes (c : Ctx) (p : Nat → Bool) (fl : Nat → Flags) :
    c.compares f w p (BitVec.ofNat 16 (ofElems 1 (((List.range 16).map fun j => (cmpLane c f w p fl j).1).map fun b => if b then 1 else 0))) := by
  intro j hj
  have bit : (BitVec.ofNat 16 (ofElems 1 (((List.range 16).map fun j => (cmpLane c f w p fl j).1).map fun b => if b then 1 else 0))).getLsbD j =
      (cmpLane c f w p fl j).1 := by
    rw [getLsbD_ofElems, decide_eq_true hj, Bool.true_and, getD_map_range _ hj]
  rw [bit, cmpLane]
  refine ⟨fun wide high => ?_, fun lane active => ?_, fun lane inactive => ?_⟩
  · rw [decide_eq_true wide, decide_eq_true high]; rfl
  all_goals
    have inside : (decide (w = 64) && decide (8 ≤ j)) = false := by
      rcases lane with narrow | low
      · rw [decide_eq_false narrow]; rfl
      · rw [decide_eq_false (Nat.not_le.mpr low), Bool.and_false]
    rw [inside, if_neg Bool.false_ne_true, isActive_eq c f (laneElem_bit hw part hj lane)]
  · rw [decide_eq_true active]; rfl
  · rw [decide_eq_false inactive]; rfl

theorem flags_lanes (c : Ctx) (p : Nat → Bool) (fl : Nat → Flags) :
    (List.range 16).foldl (fun x j => x ||| (cmpLane c f w p fl j).2) 0 =
      (c.testedLanes f w).foldl (fun x j => x ||| fl (laneElem f w j)) 0 := by
  have tested : c.testedLanes f w = (List.range 16).filter fun j =>
      !(decide (w = 64) && decide (8 ≤ j)) && isActive (c.mask f) w (laneElem f w j) := by
    have lanes : List.range (if w = 64 then 8 else 16) = (List.range 16).filter fun j => !(decide (w = 64) && decide (8 ≤ j)) := by
      by_cases wide : w = 64
      · rw [if_pos wide, decide_eq_true wide]; rfl
      · rw [if_neg wide, decide_eq_false wide]; rfl
    rw [Ctx.testedLanes, lanes, List.filter_filter]
    refine List.filter_congr fun j hj => ?_
    rw [Bool.and_comm]
    cases inside : decide (w = 64) && decide (8 ≤ j) with
    | true => rfl
    | false =>
      have lane : w ≠ 64 ∨ j < 8 := by
        simp only [Bool.and_eq_false_iff, decide_eq_false_iff_not] at inside
        omega
      rw [isActive_eq c f (laneElem_bit hw part (List.mem_range.mp hj) lane)]
  rw [tested, ← foldl_or_ite]
  refine congrArg (fun step => (List.range 16).foldl step 0) (funext fun x => funext fun j => ?_)
  rw [cmpLane]
  cases decide (w = 64) && decide (8 ≤ j) <;> cases isActive (c.mask f) w (laneElem f w j) <;> rfl

end

section
variable {s : State} {k n g : Nat} {e : VqEntry} {rest : List VqEntry} {f : VW} (hn : n ≤ 10) (group : e.group = some g)
  (queue : ((s.tile k).ctx n).vq = e :: rest) {i : Instr} (instr : e.instr = i) (quiet : QuietInstr i)
include hn group queue instr quiet

theorem runs_compare (cls : vecDest i = .m) {op : Nat → Nat → Bool × Flags} (p : Nat → Bool) (fl : Nat → Flags)
    (out : vecOut { e with instr := i } ((s.tile k).ctx n) = cmpOut ((s.tile k).ctx n) f op)
    (tests : ∀ j, op (elem (((s.tile k).ctx n).readV f.a.toNat) (widthOf f.etype) j)
      (elem (((s.tile k).ctx n).readV f.b.toNat) (widthOf f.etype) j) = (p j, fl j))
    (part : f.imm.toNat % 4 < max 1 (32 / widthOf f.etype)) :
    VecRuns s k n e rest [] [f.d] []
      ((((s.tile k).ctx n).testedLanes f (widthOf f.etype)).foldl (fun x j => x ||| fl (laneElem f (widthOf f.etype) j)) 0) fun _ d =>
        ∃ r, ((s.tile k).ctx n).hasM d e f.d r ∧ ((s.tile k).ctx n).compares f (widthOf f.etype) p r := by
  have hw : widthOf f.etype = 8 ∨ widthOf f.etype = 16 ∨ widthOf f.etype = 32 ∨ widthOf f.etype = 64 := by
    rw [widthOf_eq]; exact etypeWidth_cases _
  rw [cmpOut_eq tests, flags_lanes hw part] at out
  exact runs_m hn group queue instr quiet cls out (compares_lanes hw part _ p fl)

end

/-! Reductions (R171, R172). -/

theorem widthOf_cases (e : BitVec 4) : widthOf e = 8 ∨ widthOf e = 16 ∨ widthOf e = 32 ∨ widthOf e = 64 := by
  rw [widthOf_eq]; exact etypeWidth_cases e

theorem widthOf_pos (e : BitVec 4) : 0 < widthOf e := by
  rcases widthOf_cases e with h | h | h | h <;> rw [h] <;> decide

theorem widthOf_le (e : BitVec 4) : widthOf e ≤ 512 := by
  rcases widthOf_cases e with h | h | h | h <;> rw [h] <;> decide

theorem elemTy_int {e : BitVec 4} (h : isInt e = true) : elemTy e = some (.int (isSigned e) (widthOf e)) := by revert e; decide

theorem elemTy_flt {e : BitVec 4} (h : isFlt e = true) : elemTy e = some (.flt (fmtOf e)) := by revert e; decide

theorem signBit_fmtOf {e : BitVec 4} (h : isFlt e = true) : (fmtOf e).signBit = 2 ^ (widthOf e - 1) := by revert e; decide

theorem activeElems_eq (c : Ctx) (f : VW) :
    activeElems c f = (c.actives f (widthOf f.etype)).map (elem (c.readV f.a.toNat) (widthOf f.etype)) :=
  congrArg (List.map _) (filter_isActive (widthOf_cases _) c f)

theorem intVal_elem (signed : Bool) (e : BitVec 4) (x : Line) (j : Nat) :
    intVal signed (widthOf e) (elem x (widthOf e) j) = elemInt signed (widthOf e) (elem x (widthOf e) j) :=
  intVal_eq signed (widthOf_pos e) (elem_lt ..)

/-- The active elements as integers. -/
theorem activeElems_int (c : Ctx) (f : VW) (signed : Bool) : (activeElems c f).map (intVal signed (widthOf f.etype)) =
    (c.actives f (widthOf f.etype)).map fun j => elemInt signed (widthOf f.etype) (elem (c.readV f.a.toNat) (widthOf f.etype) j) := by
  rw [activeElems_eq, List.map_map]
  exact List.map_congr_left fun j _ => intVal_elem ..

theorem redAddOut_eq (c : Ctx) (f : VW) : redAddOut c f = { v := some (f.d, lineOf (widthOf f.etype)
    [elemBits (isSigned f.etype) (f.sat == 1) (widthOf f.etype) (((c.actives f (widthOf f.etype)).map fun j =>
      elemInt (isSigned f.etype) (widthOf f.etype) (elem (c.readV f.a.toNat) (widthOf f.etype) j)).foldl (· + ·) 0)]) } := by
  rw [← wrapInt_elemBits, ← activeElems_int]; rfl

theorem redMaxOut_int {f : VW} (int : isInt f.etype = true) (c : Ctx) (e : VqEntry) (mx : Bool) : redMaxOut c e f mx =
    { v := some (f.d, lineOf (widthOf f.etype) [elemBits (isSigned f.etype) false (widthOf f.etype)
        (((c.actives f (widthOf f.etype)).map fun j =>
          elemInt (isSigned f.etype) (widthOf f.etype) (elem (c.readV f.a.toNat) (widthOf f.etype) j)).foldl (if mx then max else min)
          (if mx then intMin (isSigned f.etype) (widthOf f.etype) else intMax (isSigned f.etype) (widthOf f.etype)))]) } := by
  rw [← wrapInt_plain, ← activeElems_int, List.foldl_map]
  unfold redMaxOut
  rw [elemTy_int int]
  cases mx <;> rfl

/-- The greater, or the lesser, of two elements as numbers, the first where they are equal. -/
def choose (g : Fmt) (daz mx : Bool) (u v : Nat) : Nat :=
  if (if mx then FVal.lt true (g.decode daz u) (g.decode daz v) else FVal.lt true (g.decode daz v) (g.decode daz u)) then v else u

/-- The extreme of the elements that are numbers; where there is none, as given. -/
def extremeOf (g : Fmt) (daz mx : Bool) (absent : Nat) : List Nat → Nat
  | [] => absent
  | u :: us => g.asRead daz (us.foldl (choose g daz mx) u)

theorem redMaxOut_flt {f : VW} (flt : isFlt f.etype = true) (c : Ctx) (e : VqEntry) (mx : Bool) : redMaxOut c e f mx =
    let g := fmtOf f.etype
    let acts := c.actives f (widthOf f.etype)
    let a := elem (c.readV f.a.toNat) (widthOf f.etype)
    { v := some (f.d, lineOf (widthOf f.etype) [extremeOf g e.daz mx (if acts = [] then g.withSign mx g.infBits else g.nan)
        ((acts.map a).filter fun u => !(g.decode e.daz u).isNan)])
      flags := if ∃ j ∈ acts, (g.decode e.daz (a j)).isSnan = true then Flags.nv else 0 } := by
  have invalid : ((c.actives f (widthOf f.etype)).map (elem (c.readV f.a.toNat) (widthOf f.etype))).any
        (fun x => ((fmtOf f.etype).decode e.daz x).isSnan) = true ↔
      ∃ j ∈ c.actives f (widthOf f.etype), ((fmtOf f.etype).decode e.daz (elem (c.readV f.a.toNat) (widthOf f.etype) j)).isSnan = true := by
    rw [List.any_map, List.any_eq_true]; rfl
  have empty : ((c.actives f (widthOf f.etype)).map (elem (c.readV f.a.toNat) (widthOf f.etype))).isEmpty = true ↔
      c.actives f (widthOf f.etype) = [] := by
    rw [List.isEmpty_iff, List.map_eq_nil_iff]
  unfold redMaxOut
  rw [elemTy_flt flt, activeElems_eq]
  dsimp only
  rw [if_congr invalid rfl rfl, if_congr empty rfl rfl]
  cases ((c.actives f (widthOf f.etype)).map (elem (c.readV f.a.toNat) (widthOf f.etype))).filter
      fun u => !((fmtOf f.etype).decode e.daz u).isNan <;> rfl

/-- The tree sum rounded to the element's format (R172). -/
theorem redTreeOut_eq (c : Ctx) (e : VqEntry) (f : VW) : redTreeOut c e f =
    let g := fmtOf f.etype
    let tree := treeSum e (satBit f) (if widthOf f.etype = 32 then 4 else 5) ((List.range (512 / widthOf f.etype)).map fun j =>
      if c.activeAt f (widthOf f.etype) j then some (widen32 g e.daz (elem (c.readV f.a.toNat) (widthOf f.etype) j)) else none)
    let sum := Fmt.f32.decode false (tree.1.getD 0)
    let r := g.round (RMode.ofCode e.rm.toNat) (satBit f) e.ftz sum
    { v := some (f.d, lineOf (widthOf f.etype) [if sum.isSnan then g.nan else r.bits])
      flags := tree.2 ||| if sum.isSnan then Flags.nv else r.flags } := by
  have leaves : ((upto (512 / widthOf f.etype)).map fun i => if isActive (c.mask f) (widthOf f.etype) i then
        some (widen32 (fmtOf f.etype) e.daz (elem (c.readV f.a.toNat) (widthOf f.etype) i)) else none) =
      (List.range (512 / widthOf f.etype)).map fun j => if c.activeAt f (widthOf f.etype) j then
        some (widen32 (fmtOf f.etype) e.daz (elem (c.readV f.a.toNat) (widthOf f.etype) j)) else none := by
    refine List.map_congr_left fun j hj => ?_
    rw [isActive_elem (widthOf_cases _) c f (List.mem_range.mp hj)]
    exact if_congr (by rw [decide_eq_true_iff]) rfl rfl
  unfold redTreeOut
  dsimp only
  rw [leaves]
  rw [apply_ite Prod.fst, apply_ite Prod.snd]

/-! Moves and population counts. -/

theorem getD_setAt {l : List Nat} {i j : Nat} (v : Nat) (hj : j < l.length) : (setAt l i v).getD j 0 = if j = i then v else l.getD j 0 := by
  by_cases same : j = i
  · subst same
    rw [if_pos rfl, List.getD, setAt_getElem? l j v hj]; rfl
  · rw [if_neg same, List.getD, setAt_getElem?_other l v same]; rfl

theorem elem_setAt (x : Line) {w j : Nat} (i : Nat) {v : Nat} (small : v < 2 ^ w) (hj : j < 512 / w) :
    elem (lineOf w (setAt (elems x w) i v)) w j = if j = i then v else elem x w j := by
  have at_ : (elems x w).getD j 0 = elem x w j := getD_map_range (elem x w) hj 0
  rw [elem_lineOf (mul_succ_le_of_lt_div hj), getD_setAt v (by simpa [elems, upto] using hj), at_]
  split
  · exact Nat.mod_eq_of_lt small
  · exact Nat.mod_eq_of_lt (elem_lt ..)

theorem popc_mask (x : BitVec 16) : popc 16 x.toNat = ((List.range 16).filter fun j => x.getLsbD j).length := by
  rw [popc_eq_length]; rfl

/-- A compare of integers tests them as their type reads them (R175). -/
theorem icmp_elem (f : VW) (op : Int → Int → Bool) (x y : Line) (j : Nat) :
    icmp f op (elem x (widthOf f.etype) j) (elem y (widthOf f.etype) j) =
      (op (elemInt (isSigned f.etype) (widthOf f.etype) (elem x (widthOf f.etype) j))
        (elemInt (isSigned f.etype) (widthOf f.etype) (elem y (widthOf f.etype) j)), 0) := by
  rw [icmp, intVal_elem, intVal_elem]

theorem FVal.isNan_of_isSnan {v : FVal} (h : v.isSnan = true) : v.isNan = true := by
  cases v with
  | nan => rfl
  | inf | fin => exact absurd h Bool.false_ne_true

/-- A compare of floats: false on a NaN, with the invalid flag on a signalling one, or on any (R175). -/
theorem fcmp_eq (e : VqEntry) (f : VW) (anyNan : Bool) (op : FVal → FVal → Bool) (a b : Nat) :
    let x := (fmtOf f.etype).decode e.daz a
    let y := (fmtOf f.etype).decode e.daz b
    fcmp e f anyNan op a b =
      (!(x.isNan || y.isNan) && op x y, if (if anyNan then x.isNan || y.isNan else x.isSnan || y.isSnan) then Flags.nv else 0) := by
  unfold fcmp
  dsimp only
  generalize (fmtOf f.etype).decode e.daz a = x
  generalize (fmtOf f.etype).decode e.daz b = y
  cases nan : (x.isNan || y.isNan) with
  | true => cases anyNan <;> simp
  | false =>
    have quiet : (x.isSnan || y.isSnan) = false := by
      rw [Bool.or_eq_false_iff] at nan ⊢
      exact ⟨Bool.eq_false_iff.mpr fun h => by simp [FVal.isNan_of_isSnan h] at nan,
        Bool.eq_false_iff.mpr fun h => by simp [FVal.isNan_of_isSnan h] at nan⟩
    rw [quiet]
    cases anyNan <;> rfl

theorem VecEach.of_eq {s : State} {k n : Nat} {e : VqEntry} {rest : List VqEntry} {f : VW} {w : Nat} {v v' : Nat → Nat} {fl : Nat → Flags}
    (h : VecEach s k n e rest f w v fl) (same : ∀ j, v j = v' j) : VecEach s k n e rest f w v' fl := (funext same : v = v') ▸ h

/-! Sign operations and classes. -/

section
variable {g : Fmt} {top : Nat} (sign : g.signBit = top)
include sign

theorem fNegBits_eq (a : Nat) : fNegBits g a = if a < top then a + top else a - top := by
  rw [fNegBits, sign]
  by_cases low : a < top
  · rw [if_pos low, if_neg (Nat.not_le.mpr low)]
  · rw [if_neg low, if_pos (Nat.not_lt.mp low)]

theorem copySign_eq (a b : Nat) : g.withSign (decide (g.signBit ≤ b)) (a % g.signBit) = a % top + if top ≤ b then top else 0 := by
  rw [Fmt.withSign, sign]
  by_cases negative : top ≤ b
  · rw [decide_eq_true negative, if_pos rfl, if_pos negative, Nat.add_comm]
  · rw [decide_eq_false negative, if_neg Bool.false_ne_true, if_neg negative, Nat.add_zero]

end

theorem redTreeOut_instr {e : VqEntry} {i : Instr} (instr : e.instr = i) (c : Ctx) (f : VW) :
    redTreeOut c { e with instr := i } f = redTreeOut c e f := by
  rw [← instr]

/-- Settles O42: each instruction's output is read off `vecOut`, and its line or mask is taken element by element. -/
theorem vectorMovesAndMasks : Obligations.VectorMovesAndMasks := by
  unfold Obligations.VectorMovesAndMasks
  intro f k n s e rest g hn
  rw [← widthOf_eq, ← isSigned_eq]
  intro c w sg num a b z x y fm top each whole first toK compare masks slide acts value greater lesser extreme nan snan less group queue
  have small : w ≤ 512 := widthOf_le _
  refine ⟨fun i => ?_, fun i => ?_, fun i => ?_, fun i => ?_, fun flt => ⟨fun i => ?_, fun i => ?_, fun i => ?_, fun i => ?_, fun i => ?_,
      fun i => ?_, fun i part => ?_, fun i part => ?_, fun i part => ?_, fun i => ?_⟩,
    fun i => ?_, fun i => ?_, fun int => ⟨fun i => ?_, fun i => ?_, fun i => ?_⟩,
    fun _ i => ?_, fun i => ?_, fun i part => ?_, fun i part => ?_, fun i part => ?_, fun i part => ?_,
    fun i => ?_, fun i => ?_, fun i => ?_, fun i => ?_⟩
  · exact each_perm hn group queue i ⟨rfl, nofun⟩ rfl rfl
  · exact each_perm hn group queue i ⟨rfl, nofun⟩ rfl rfl
  · exact each_perm hn group queue i ⟨rfl, nofun⟩ rfl rfl
  · exact (each_perm hn group queue i ⟨rfl, nofun⟩ rfl rfl).of_eq fun j => wrapInt_eq ..
  · exact (each_float (op := fun g x _ _ => (x % g.signBit, 0)) hn group queue i ⟨rfl, nofun⟩ rfl rfl).of_eq
      fun j => congrArg (a j % ·) (signBit_fmtOf flt)
  · exact (each_float (op := fun g x _ _ => (fNegBits g x, 0)) hn group queue i ⟨rfl, nofun⟩ rfl rfl).of_eq
      fun j => fNegBits_eq (signBit_fmtOf flt) _
  · exact (each_float (op := fun g x y _ => (g.withSign (decide (g.signBit ≤ y)) (x % g.signBit), 0)) hn group queue i ⟨rfl, nofun⟩ rfl rfl).of_eq
      fun j => copySign_eq (signBit_fmtOf flt) ..
  · refine (each_float (op := fun g x _ _ => (classBit g x, 0)) hn group queue i ⟨rfl, nofun⟩ rfl rfl).of_eq fun j => ?_
    change classBit fm (a j) = _
    rw [classBit]
    cases fm.decode false (a j) with
    | nan | inf => rfl
    | fin =>
      dsimp only
      simp only [beq_iff_eq]
      rfl
  · obtain ⟨l, numbers⟩ : ∃ l, (acts.map a).filter (fun u => !(value u).isNan) = l := ⟨_, rfl⟩
    have out : vecOut { e with instr := .vredmax f } c =
        { v := some (f.d, lineOf w [extremeOf fm e.daz true (if acts = [] then fm.withSign true fm.infBits else fm.nan) l])
          flags := if ∃ j ∈ acts, (value (a j)).isSnan = true then Flags.nv else 0 } := by
      rw [← numbers]; exact redMaxOut_flt flt c _ true
    rw [numbers]
    cases l <;> exact runs_first hn group queue i ⟨rfl, nofun⟩ rfl small out
  · obtain ⟨l, numbers⟩ : ∃ l, (acts.map a).filter (fun u => !(value u).isNan) = l := ⟨_, rfl⟩
    have out : vecOut { e with instr := .vredmin f } c =
        { v := some (f.d, lineOf w [extremeOf fm e.daz false (if acts = [] then fm.withSign false fm.infBits else fm.nan) l])
          flags := if ∃ j ∈ acts, (value (a j)).isSnan = true then Flags.nv else 0 } := by
      rw [← numbers]; exact redMaxOut_flt flt c _ false
    rw [numbers]
    cases l <;> exact runs_first hn group queue i ⟨rfl, nofun⟩ rfl small out
  · refine runs_compare hn group queue i ⟨rfl, nofun⟩ rfl (fun j => !nan j && !less (a j) (b j) && !less (b j) (a j))
      (fun j => if snan j then Flags.nv else 0) rfl (fun j => (fcmp_eq ..).trans ?_) part
    rw [Bool.and_assoc]; rfl
  · exact runs_compare hn group queue i ⟨rfl, nofun⟩ rfl (fun j => !nan j && less (a j) (b j)) (fun j => if nan j then Flags.nv else 0) rfl
      (fun j => fcmp_eq ..) part
  · exact runs_compare hn group queue i ⟨rfl, nofun⟩ rfl (fun j => !nan j && !less (b j) (a j)) (fun j => if nan j then Flags.nv else 0) rfl
      (fun j => fcmp_eq ..) part
  · exact runs_first hn group queue i ⟨rfl, nofun⟩ rfl small ((redTreeOut_instr i c f).trans (redTreeOut_eq c e f))
  · refine runs_v (fl := 0) hn group queue i ⟨rfl, nofun⟩ rfl rfl fun j hj => ?_
    rw [elem_lineOf_map w _ hj, isActive_elem (widthOf_cases _) c f hj]
    refine ⟨fun active => ?_, fun inactive => ?_⟩
    · rw [decide_eq_true active]; exact Nat.mod_eq_of_lt (elem_lt ..)
    · rw [decide_eq_false inactive]; exact Nat.mod_eq_of_lt (elem_lt ..)
  · exact runs_v (fl := 0) hn group queue i ⟨rfl, nofun⟩ rfl rfl fun j hj => elem_setAt _ _ (Nat.mod_lt _ (Nat.two_pow_pos w)) hj
  · exact runs_first hn group queue i ⟨rfl, nofun⟩ rfl small (redAddOut_eq c f)
  · exact runs_first hn group queue i ⟨rfl, nofun⟩ rfl small (redMaxOut_int int c _ true)
  · exact runs_first hn group queue i ⟨rfl, nofun⟩ rfl small (redMaxOut_int int c _ false)
  · exact runs_k hn group queue i ⟨rfl, nofun⟩ rfl (congrArg (fun v => ({ k := some (f.d, BitVec.ofInt 64 v) } : VOut)) (intVal_elem ..))
  · exact runs_k hn group queue i ⟨rfl, nofun⟩ rfl (congrArg (fun v => ({ k := some (f.d, BitVec.ofNat 64 v) } : VOut)) (popc_mask _))
  · exact runs_compare hn group queue i ⟨rfl, nofun⟩ rfl _ (fun _ => 0) rfl (fun j => icmp_elem ..) part
  · exact runs_compare hn group queue i ⟨rfl, nofun⟩ rfl _ (fun _ => 0) rfl (fun j => icmp_elem ..) part
  · exact runs_compare hn group queue i ⟨rfl, nofun⟩ rfl _ (fun _ => 0) rfl (fun j => icmp_elem ..) part
  · exact runs_compare hn group queue i ⟨rfl, nofun⟩ rfl _ (fun _ => 0) rfl (fun j => icmp_elem ..) part
  · exact runs_mask hn group queue i ⟨rfl, nofun⟩ rfl rfl
  · exact runs_mask hn group queue i ⟨rfl, nofun⟩ rfl rfl
  · exact runs_mask hn group queue i ⟨rfl, nofun⟩ rfl rfl
  · exact runs_mask hn group queue i ⟨rfl, nofun⟩ rfl rfl

end Sys2Proof.Machine
end

section
/-!
Vector integer and float instructions, packs and the dequantisation of a block, element by element (06 R162 to R165, R168, R170).
-/

namespace Sys2Proof.Machine

theorem bit_eq {n : Nat} (x : BitVec n) (i : Nat) : (if x.getLsbD i then 1 else 0) = x.toNat / 2 ^ i % 2 := by
  have bit : x.getLsbD i = decide (x.toNat / 2 ^ i % 2 = 1) := (Nat.testBit_eq_decide_div_mod_eq ..)
  rw [bit]
  rcases Nat.mod_two_eq_zero_or_one (x.toNat / 2 ^ i) with even | odd
  · rw [even]; rfl
  · rw [odd]; rfl

section
variable {s : State} {k n g : Nat} {e : VqEntry} {rest : List VqEntry} {f : VW} (hn : n ≤ 10) (group : e.group = some g)
  (queue : ((s.tile k).ctx n).vq = e :: rest) {i : Instr} (instr : e.instr = i) (quiet : QuietInstr i) (cls : vecDest i = .v)
include hn group queue instr quiet cls

/-- An instruction that raises no flag, on its elements. -/
theorem each_quiet {v : Nat → Nat} (out : vecOut { e with instr := i } ((s.tile k).ctx n) = { v := some (f.d,
      (vmap (((s.tile k).ctx n).mask f) (widthOf f.etype) (((s.tile k).ctx n).readV f.d.toNat) fun j => (v j, 0)).1) }) :
    VecEach s k n e rest f (widthOf f.etype) v fun _ => 0 := by
  subst instr
  exact vecEach_quiet quiet.noVm hn group queue cls (.inr quiet.noToken) (widthOf_cases _) out

/-- An integer instruction on the values of its operands. -/
theorem each_int {clamp : Bool} {op : Int → Int → Int} (out : vecOut { e with instr := i } ((s.tile k).ctx n) = viOut ((s.tile k).ctx n) f clamp op) :
    let c := (s.tile k).ctx n
    let w := widthOf f.etype
    let sg := isSigned f.etype
    VecEach s k n e rest f w (fun j => elemBits sg clamp w
      (op (elemInt sg w (elem (c.readV f.a.toNat) w j)) (elemInt sg w (elem (c.readV f.b.toNat) w j)))) fun _ => 0 :=
  (each_quiet hn group queue instr quiet cls out).of_eq fun j => by rw [wrapInt_elemBits, intVal_elem, intVal_elem]

/-- An integer instruction on the bits of its operands. -/
theorem each_bits {op : Nat → Nat → Nat → Int} (out : vecOut { e with instr := i } ((s.tile k).ctx n) = viBits ((s.tile k).ctx n) f op) :
    let c := (s.tile k).ctx n
    let w := widthOf f.etype
    VecEach s k n e rest f w (fun j => elemBits (isSigned f.etype) false w
      (op w (elem (c.readV f.a.toNat) w j) (elem (c.readV f.b.toNat) w j))) fun _ => 0 :=
  (each_quiet hn group queue instr quiet cls out).of_eq fun _ => wrapInt_plain ..

end

/-! The instructions by their operations. -/

/-- The operation of each integer instruction, on the values and on the bits of its operands (R162). -/
def intOps (f : VW) : List (Instr × Bool × (Int → Int → Nat → Nat → Int)) :=
  let w := widthOf f.etype
  let sat := f.sat == 1
  [(.vadd f, sat, fun x y _ _ => x + y), (.vsub f, sat, fun x y _ _ => x - y), (.vmul f, sat, fun x y _ _ => x * y),
   (.vmulh f, false, fun x y _ _ => x * y / 2 ^ w), (.vmin f, false, fun x y _ _ => if x ≤ y then x else y),
   (.vmax f, false, fun x y _ _ => if x ≤ y then y else x), (.vminu f, false, fun x y _ _ => if x ≤ y then x else y),
   (.vmaxu f, false, fun x y _ _ => if x ≤ y then y else x), (.vand f, false, fun _ _ u v => ((u &&& v : Nat) : Int)),
   (.vor f, false, fun _ _ u v => ((u ||| v : Nat) : Int)), (.vxor f, false, fun _ _ u v => ((u ^^^ v : Nat) : Int)),
   (.vshl f, false, fun _ _ u v => (u : Int) * 2 ^ (v % w)), (.vshr f, false, fun _ _ u v => ((u / 2 ^ (v % w) : Nat) : Int)),
   (.vsra f, false, fun _ _ u v => (BitVec.ofNat w u).toInt / 2 ^ (v % w)), (.vabs f, sat, fun x _ _ _ => if 0 ≤ x then x else -x),
   (.vneg f, sat, fun x _ _ _ => -x), (.vadds f, true, fun x y _ _ => x + y), (.vsubs f, true, fun x y _ _ => x - y)]

/-- The operation of each float and seed instruction (R163 to R165). -/
def floatOps (e : VqEntry) (f : VW) : List (Instr × (Nat → Nat → Nat → Nat × Flags)) :=
  let fm := fmtOf f.etype
  let md := RMode.ofCode e.rm.toNat
  let sat := f.sat == 1
  [(.vfadd f, fun x y _ => fAdd fm md sat e.ftz e.daz x y), (.vfsub f, fun x y _ => fAdd fm md sat e.ftz e.daz x (fNegBits fm y)),
   (.vfmul f, fun x y _ => fMul fm md sat e.ftz e.daz x y), (.vfma f, fun x y v => fFma fm md sat e.ftz e.daz false false x y v),
   (.vfms f, fun x y v => fFma fm md sat e.ftz e.daz false true x y v), (.vfnma f, fun x y v => fFma fm md sat e.ftz e.daz true false x y v),
   (.vfmin f, fun x y _ => fMinMax fm e.daz false x y), (.vfmax f, fun x y _ => fMinMax fm e.daz true x y),
   (.vrsqrte f, fun x _ _ => seed .rsqrt fm e.ftz e.daz x), (.vrcpe f, fun x _ _ => seed .rcp fm e.ftz e.daz x),
   (.vexp2e f, fun x _ _ => seed .exp2 fm e.ftz e.daz x), (.vlog2e f, fun x _ _ => seed .log2 fm e.ftz e.daz x)]

section
variable {s : State} {k n g : Nat} {e : VqEntry} {rest : List VqEntry} {f : VW} (hn : n ≤ 10) (group : e.group = some g)
  (queue : ((s.tile k).ctx n).vq = e :: rest)
include hn group queue

theorem each_intOp : ∀ r ∈ intOps f, e.instr = r.1 →
    let c := (s.tile k).ctx n
    let w := widthOf f.etype
    let sg := isSigned f.etype
    let a := fun j => elem (c.readV f.a.toNat) w j
    let b := fun j => elem (c.readV f.b.toNat) w j
    VecEach s k n e rest f w (fun j => elemBits sg r.2.1 w (r.2.2 (elemInt sg w (a j)) (elemInt sg w (b j)) (a j) (b j))) fun _ => 0 := by
  simp only [intOps, List.forall_mem_cons]
  refine ⟨fun i => ?_, fun i => ?_, fun i => ?_, fun i => ?_, fun i => ?_, fun i => ?_, fun i => ?_, fun i => ?_, fun i => ?_, fun i => ?_,
    fun i => ?_, fun i => ?_, fun i => ?_, fun i => ?_, fun i => ?_, fun i => ?_, fun i => ?_, fun i => ?_, List.forall_mem_nil _⟩
  case refine_1 | refine_2 | refine_3 | refine_17 | refine_18 => exact each_int hn group queue i ⟨rfl, nofun⟩ rfl rfl
  case refine_4 => exact each_int (op := fun x y => x * y / 2 ^ widthOf f.etype) hn group queue i ⟨rfl, nofun⟩ rfl rfl
  case refine_16 => exact each_int (op := fun x _ => -x) hn group queue i ⟨rfl, nofun⟩ rfl rfl
  case refine_5 | refine_7 =>
    exact (each_int (op := min) hn group queue i ⟨rfl, nofun⟩ rfl rfl).of_eq
      fun j => congrArg (elemBits _ _ _) (Int.min_def ..)
  case refine_6 | refine_8 =>
    exact (each_int (op := max) hn group queue i ⟨rfl, nofun⟩ rfl rfl).of_eq
      fun j => congrArg (elemBits _ _ _) (Int.max_def ..)
  case refine_9 => exact each_bits (op := fun _ x y => (x &&& y : Nat)) hn group queue i ⟨rfl, nofun⟩ rfl rfl
  case refine_10 => exact each_bits (op := fun _ x y => (x ||| y : Nat)) hn group queue i ⟨rfl, nofun⟩ rfl rfl
  case refine_11 => exact each_bits (op := fun _ x y => (x ^^^ y : Nat)) hn group queue i ⟨rfl, nofun⟩ rfl rfl
  case refine_13 => exact each_bits (op := fun w x y => (x / 2 ^ (y % w) : Nat)) hn group queue i ⟨rfl, nofun⟩ rfl rfl
  case refine_12 =>
    exact (each_bits (op := fun w x y => (x * 2 ^ (y % w) : Nat)) hn group queue i ⟨rfl, nofun⟩ rfl rfl).of_eq
      fun j => congrArg (elemBits _ _ _) (by push_cast; rfl)
  case refine_14 =>
    exact (each_bits (op := fun w x y => intVal true w x / 2 ^ (y % w)) hn group queue i ⟨rfl, nofun⟩ rfl rfl).of_eq fun j =>
      congrArg (fun v => elemBits _ _ _ (v / _)) (intVal_elem ..)
  case refine_15 =>
    exact (each_int (op := fun x _ => x.natAbs) hn group queue i ⟨rfl, nofun⟩ rfl rfl).of_eq fun j =>
      congrArg (elemBits _ _ _) (by split <;> omega)

theorem each_floatOp : ∀ r ∈ floatOps e f, e.instr = r.1 →
    let c := (s.tile k).ctx n
    let v := fun j => r.2 (elem (c.readV f.a.toNat) (widthOf f.etype) j) (elem (c.readV f.b.toNat) (widthOf f.etype) j)
      (elem (c.readV f.vc.toNat) (widthOf f.etype) j)
    VecEach s k n e rest f (widthOf f.etype) (fun j => (v j).1) fun j => (v j).2 := by
  have float {i : Instr} {op : Fmt → Nat → Nat → Nat → Nat × Flags} (quiet : QuietInstr i) (cls : vecDest i = .v)
      (out : vecOut { e with instr := i } ((s.tile k).ctx n) = vfOut ((s.tile k).ctx n) f op) (instr : e.instr = i) :=
    each_float hn group queue instr quiet cls out
  simp only [floatOps, List.forall_mem_cons]
  exact ⟨float (op := fun g x y _ => fAdd g (RMode.ofCode e.rm.toNat) (satBit f) e.ftz e.daz x y) ⟨rfl, nofun⟩ rfl rfl,
    float (op := fun g x y _ => fSub g (RMode.ofCode e.rm.toNat) (satBit f) e.ftz e.daz x y) ⟨rfl, nofun⟩ rfl rfl,
    float (op := fun g x y _ => fMul g (RMode.ofCode e.rm.toNat) (satBit f) e.ftz e.daz x y) ⟨rfl, nofun⟩ rfl rfl,
    float (op := fun g x y z => fFma g (RMode.ofCode e.rm.toNat) (satBit f) e.ftz e.daz false false x y z) ⟨rfl, nofun⟩ rfl rfl,
    float (op := fun g x y z => fFma g (RMode.ofCode e.rm.toNat) (satBit f) e.ftz e.daz false true x y z) ⟨rfl, nofun⟩ rfl rfl,
    float (op := fun g x y z => fFma g (RMode.ofCode e.rm.toNat) (satBit f) e.ftz e.daz true false x y z) ⟨rfl, nofun⟩ rfl rfl,
    float (op := fun g x y _ => fMinMax g e.daz false x y) ⟨rfl, nofun⟩ rfl rfl,
    float (op := fun g x y _ => fMinMax g e.daz true x y) ⟨rfl, nofun⟩ rfl rfl,
    float (op := fun g x _ _ => seed .rsqrt g e.ftz e.daz x) ⟨rfl, nofun⟩ rfl rfl,
    float (op := fun g x _ _ => seed .rcp g e.ftz e.daz x) ⟨rfl, nofun⟩ rfl rfl,
    float (op := fun g x _ _ => seed .exp2 g e.ftz e.daz x) ⟨rfl, nofun⟩ rfl rfl,
    float (op := fun g x _ _ => seed .log2 g e.ftz e.daz x) ⟨rfl, nofun⟩ rfl rfl, List.forall_mem_nil _⟩

end

/-! Packs (R168) and the dequantisation of a block (R170). -/

/-- The source element of element j of a pack, w bits wide: the lower half comes from A, the upper from B. -/
def packSource (c : Ctx) (f : VW) (w j : Nat) : Nat :=
  if j < 256 / w then elem (c.readV f.a.toNat) (2 * w) j else elem (c.readV f.b.toNat) (2 * w) (j - 256 / w)

theorem packSource_lt (c : Ctx) (f : VW) (w j : Nat) : packSource c f w j < 2 ^ (2 * w) := by
  unfold packSource
  split <;> exact elem_lt ..

theorem packOut_eq (c : Ctx) (f : VW) : packOut c f = { v := some (f.d, (vmap (c.mask f) (widthOf f.etype) (c.readV f.d.toNat) fun j =>
    (elemBits (isSigned f.etype) (satBit f) (widthOf f.etype)
      (elemInt (isSigned (cvSrc f)) (2 * widthOf f.etype) (packSource c f (widthOf f.etype) j)), 0)).1) } := by
  have wide : 0 < 2 * widthOf f.etype := Nat.mul_pos Nat.two_pos (widthOf_pos _)
  have half : 512 / widthOf f.etype / 2 = 256 / widthOf f.etype := Nat.div_right_comm ..
  simp only [← wrapInt_elemBits, ← intVal_eq _ wide (packSource_lt ..)]
  unfold packOut packSource
  dsimp only
  rw [half]

section
variable {s : State} {k n g : Nat} {e : VqEntry} {rest : List VqEntry} {f : VW} (hn : n ≤ 10) (group : e.group = some g)
  (queue : ((s.tile k).ctx n).vq = e :: rest)
include hn group queue

/-- VPACK. -/
theorem each_pack (i : e.instr = .vpack f) :
    VecEach s k n e rest f (widthOf f.etype) (fun j => elemBits (isSigned f.etype) (satBit f) (widthOf f.etype)
      (elemInt (isSigned (cvSrc f)) (2 * widthOf f.etype) (packSource ((s.tile k).ctx n) f (widthOf f.etype) j))) fun _ => 0 :=
  each_quiet hn group queue i ⟨rfl, nofun⟩ rfl (packOut_eq ((s.tile k).ctx n) f)

/-- VUNPACK. -/
theorem each_unpack (i : e.instr = .vunpack f) :
    let c := (s.tile k).ctx n
    let w := widthOf f.etype
    VecEach s k n e rest f w (fun j => elemBits false false w (elemInt (isSigned (cvSrc f)) (w / 2)
      (elem (c.readV f.a.toNat) (w / 2) ((f.imm.toNat / 16 % 2) * (512 / w) + j)))) fun _ => 0 := by
  intro c w
  have runs := each_quiet (v := fun j => wrapInt w (intVal (isSigned (cvSrc f)) (w / 2)
    (elem (c.readV f.a.toNat) (w / 2) ((if f.imm.getLsbD 4 then 1 else 0) * (512 / w) + j)))) hn group queue i ⟨rfl, nofun⟩ rfl rfl
  refine runs.of_eq fun j => ?_
  have half : 0 < w / 2 := by
    rcases widthOf_cases f.etype with h | h | h | h <;> (simp only [w]; rw [h]; decide)
  rw [wrapInt_plain false, intVal_eq _ half (elem_lt ..), bit_eq]; rfl

end

/-- The code of an element of a block (R170). -/
def mxCode (f : VW) (a : Line) (w j : Nat) : Nat :=
  let at_ := (if w = 32 then 16 * (f.imm.toNat / 16 % 2) else 0) + j
  if cvSrc f == 12 then elem a 4 (32 * (f.imm.toNat / 32 % 2) + at_) else elem a 8 at_

/-- The format of a block's elements. -/
def mxFmt (f : VW) : Fmt := if cvSrc f == 12 then .e2m1 else .e4m3

/-- An element of a block at its scale (R170). -/
def mxValue (e : VqEntry) (f : VW) (a : Line) (w j : Nat) : Nat × Flags :=
  let scale := elem a 8 (32 + f.imm.toNat / 32 % 2)
  if ((mxFmt f).decode false (mxCode f a w j)).isNan ∨ scale = 255 then ((fmtOf f.etype).nan, 0)
  else
    let r := (fmtOf f.etype).round (RMode.ofCode e.rm.toNat) (f.sat == 1) e.ftz
      (((mxFmt f).decode false (mxCode f a w j)).scale ((scale : Int) - 127))
    (r.bits, r.flags)

theorem mxdOut_eq (c : Ctx) (e : VqEntry) (f : VW) : mxdOut c e f =
    let r := vmap (c.mask f) (widthOf f.etype) (c.readV f.d.toNat) (mxValue e f (c.readV f.a.toNat) (widthOf f.etype))
    { v := some (f.d, r.1), flags := r.2 } := by
  have part : (if f.imm.getLsbD 4 then 1 else 0) = f.imm.toNat / 16 % 2 := bit_eq ..
  have block : (if f.imm.getLsbD 5 then 1 else 0) = f.imm.toNat / 32 % 2 := bit_eq ..
  have code (w j : Nat) : (if cvSrc f == 12 then elem (c.readV f.a.toNat) 4 (32 * (f.imm.toNat / 32 % 2) +
        if w = 32 then 16 * (f.imm.toNat / 16 % 2) + j else j)
      else elem (c.readV f.a.toNat) 8 (if w = 32 then 16 * (f.imm.toNat / 16 % 2) + j else j)) = mxCode f (c.readV f.a.toNat) w j := by
    unfold mxCode
    by_cases full : w = 32
    · rw [if_pos full, if_pos full]
    · rw [if_neg full, if_neg full, Nat.zero_add]
  unfold mxdOut
  dsimp only
  rw [part, block]
  refine congrArg (fun op => ({ v := some (f.d, (vmap (c.mask f) (widthOf f.etype) (c.readV f.d.toNat) op).1)
                                flags := (vmap (c.mask f) (widthOf f.etype) (c.readV f.d.toNat) op).2 } : VOut)) (funext fun j => ?_)
  rw [code]
  unfold mxValue mxFmt
  dsimp only
  generalize Fmt.decode _ false (mxCode f (c.readV f.a.toNat) (widthOf f.etype) j) = v
  generalize elem (c.readV f.a.toNat) 8 (32 + f.imm.toNat / 32 % 2) = scale
  cases v with
  | nan => rw [if_pos (.inl rfl)]
  | inf | fin =>
    by_cases absent : scale = 255
    · rw [if_pos (.inr absent)]; exact if_pos absent
    · rw [if_neg fun h => h.elim Bool.false_ne_true absent]; exact if_neg absent

/-- VMXD. -/
theorem each_mxd {s : State} {k n g : Nat} {e : VqEntry} {rest : List VqEntry} {f : VW} (hn : n ≤ 10) (group : e.group = some g)
    (queue : ((s.tile k).ctx n).vq = e :: rest) (i : e.instr = .vmxd f) :
    let c := (s.tile k).ctx n
    let w := widthOf f.etype
    VecEach s k n e rest f w (fun j => (mxValue e f (c.readV f.a.toNat) w j).1) fun j => (mxValue e f (c.readV f.a.toNat) w j).2 := by
  intro c w
  have out : vecOut e c = _ := (show vecOut e c = mxdOut c e f by rw [vecOut, i]).trans (mxdOut_eq c e f)
  exact vecEach_of (by rw [i]; rfl) hn group queue (by rw [i]; rfl) (.inr (by rw [i]; exact nofun)) (widthOf_cases _) out

end Sys2Proof.Machine
end

section
/-!
The arithmetic operations on finite values, NaNs and infinities (04 R118, R121, 06 R163, R164): exact sums, products and fused product-sums,
rounded once.
-/

namespace Sys2Proof.Machine

/-! Values as numbers. -/

theorem FVal.isNan_finite {x : FVal} (h : x.finite) : x.isNan = false ∧ x.isSnan = false := by
  cases x with
  | fin => exact ⟨rfl, rfl⟩
  | nan | inf => exact h.elim

theorem dyInt_num (neg : Bool) (m : Nat) {e lo : Int} (h : lo ≤ e) : (dyInt neg m e lo : ℚ) * 2 ^ lo = (FVal.fin neg m e).num := by
  have split : (2 : ℚ) ^ e = 2 ^ (e - lo).toNat * 2 ^ lo := by
    rw [← zpow_natCast, ← zpow_add₀ two_ne_zero]
    congr 1
    omega
  unfold dyInt FVal.num
  dsimp only
  rw [split]
  cases neg
  · push_cast [if_neg]; simp; ring
  · push_cast [if_pos]; simp; ring

theorem FVal.num_fin (neg : Bool) (m : Nat) (e : Int) : (FVal.fin neg m e).num = (if neg then -1 else 1) * m * 2 ^ e := rfl

theorem num_natAbs (v e : Int) : (FVal.fin (decide (v < 0)) v.natAbs e).num = (v : ℚ) * 2 ^ e := by
  rw [FVal.num_fin]
  by_cases neg : v < 0
  · rw [decide_eq_true neg, if_pos rfl, Nat.cast_natAbs, abs_of_neg neg]; push_cast; ring
  · rw [decide_eq_false neg, if_neg Bool.false_ne_true, Nat.cast_natAbs, abs_of_nonneg (not_lt.mp neg)]; ring

/-- The sum of finite values is exact. -/
theorem FVal.add_finite (md : RMode) {x y : FVal} (hx : x.finite) (hy : y.finite) :
    (FVal.add md x y).1.finite ∧ (FVal.add md x y).1.num = x.num + y.num ∧ (FVal.add md x y).2 = false := by
  cases x with
  | nan | inf => exact hx.elim
  | fin a m e =>
    cases y with
    | nan | inf => exact hy.elim
    | fin b n g =>
      have left : (if e ≤ g then e else g) ≤ e := by split <;> omega
      have right : (if e ≤ g then e else g) ≤ g := by split <;> omega
      have sum : ((dyInt a m e (if e ≤ g then e else g) + dyInt b n g (if e ≤ g then e else g) : Int) : ℚ) * 2 ^ (if e ≤ g then e else g) =
          (FVal.fin a m e).num + (FVal.fin b n g).num := by
        rw [← dyInt_num a m left, ← dyInt_num b n right]; push_cast; ring
      rw [← sum]
      unfold FVal.add
      dsimp only
      generalize (if e ≤ g then e else g) = lo
      split
      case isTrue zero => exact ⟨trivial, by rw [zero]; simp [FVal.num], rfl⟩
      case isFalse => exact ⟨trivial, num_natAbs .., rfl⟩

/-- The product of finite values is exact. -/
theorem FVal.mul_finite {x y : FVal} (hx : x.finite) (hy : y.finite) :
    (FVal.mul x y).1.finite ∧ (FVal.mul x y).1.num = x.num * y.num ∧ (FVal.mul x y).2 = false := by
  cases x with
  | nan | inf => exact hx.elim
  | fin a m e =>
    cases y with
    | nan | inf => exact hy.elim
    | fin b n g =>
      refine ⟨trivial, ?_, rfl⟩
      unfold FVal.mul FVal.num
      dsimp only
      rw [zpow_add₀ two_ne_zero]
      push_cast
      cases a <;> cases b <;> simp <;> ring

theorem FVal.neg_finite {x : FVal} (hx : x.finite) : x.neg.finite ∧ x.neg.num = -x.num := by
  cases x with
  | nan | inf => exact hx.elim
  | fin a m e =>
    refine ⟨trivial, ?_⟩
    unfold FVal.neg FVal.num
    cases a <;> simp

theorem FVal.ite_neg_finite (b : Bool) {x : FVal} (hx : x.finite) :
    (if b then x.neg else x).finite ∧ (if b then x.neg else x).num = if b then -x.num else x.num := by
  cases b
  · exact ⟨hx, rfl⟩
  · exact FVal.neg_finite hx

/-! The operations. -/

section
variable {g : Fmt} {md : RMode} {sat ftz daz : Bool} {x y : Nat}

theorem fAdd_snan (h : (g.decode daz x).isSnan = true ∨ (g.decode daz y).isSnan = true) : fAdd g md sat ftz daz x y = (g.nan, Flags.nv) := by
  rw [fAdd, if_pos]
  rwa [Bool.or_eq_true]

theorem fMul_snan (h : (g.decode daz x).isSnan = true ∨ (g.decode daz y).isSnan = true) : fMul g md sat ftz daz x y = (g.nan, Flags.nv) := by
  rw [fMul, if_pos]
  rwa [Bool.or_eq_true]

theorem fFma_snan (h : (g.decode daz x).isSnan = true ∨ (g.decode daz y).isSnan = true) (np nz : Bool) (v : Nat) :
    fFma g md sat ftz daz np nz x y v = (g.nan, Flags.nv) := by
  rw [fFma, if_pos]
  rw [Bool.or_eq_true, Bool.or_eq_true]
  exact .inl h

section
variable (quietX : (g.decode daz x).isSnan = false) (quietY : (g.decode daz y).isSnan = false)
include quietX quietY

theorem fAdd_quiet : fAdd g md sat ftz daz x y = if ((g.decode daz x).isNan || (g.decode daz y).isNan) = true then (g.nan, 0)
    else finish g md sat ftz (FVal.add md (g.decode daz x) (g.decode daz y)).2 (FVal.add md (g.decode daz x) (g.decode daz y)).1 := by
  rw [fAdd, quietX, quietY]; rfl

theorem fMul_quiet : fMul g md sat ftz daz x y = if ((g.decode daz x).isNan || (g.decode daz y).isNan) = true then (g.nan, 0)
    else finish g md sat ftz (FVal.mul (g.decode daz x) (g.decode daz y)).2 (FVal.mul (g.decode daz x) (g.decode daz y)).1 := by
  rw [fMul, quietX, quietY]; rfl

end

section
variable (hx : (g.decode daz x).finite) (hy : (g.decode daz y).finite)
include hx hy

theorem fAdd_finite : fAdd g md sat ftz daz x y = finish g md sat ftz false (FVal.add md (g.decode daz x) (g.decode daz y)).1 := by
  rw [fAdd_quiet (FVal.isNan_finite hx).2 (FVal.isNan_finite hy).2, (FVal.isNan_finite hx).1, (FVal.isNan_finite hy).1,
    (FVal.add_finite md hx hy).2.2]
  rfl

theorem fMul_finite : fMul g md sat ftz daz x y = finish g md sat ftz false (FVal.mul (g.decode daz x) (g.decode daz y)).1 := by
  rw [fMul_quiet (FVal.isNan_finite hx).2 (FVal.isNan_finite hy).2, (FVal.isNan_finite hx).1, (FVal.isNan_finite hy).1,
    (FVal.mul_finite hx hy).2.2]
  rfl

theorem fFma_finite (np nz : Bool) {v : Nat} (hv : (g.decode daz v).finite) : fFma g md sat ftz daz np nz x y v =
    finish g md sat ftz false (FVal.add md
      (if np then (FVal.mul (g.decode daz x) (g.decode daz y)).1.neg else (FVal.mul (g.decode daz x) (g.decode daz y)).1)
      (if nz then (g.decode daz v).neg else g.decode daz v)).1 := by
  obtain ⟨product, -, valid⟩ := FVal.mul_finite hx hy
  obtain ⟨addend, -⟩ := FVal.ite_neg_finite nz hv
  obtain ⟨signed, -⟩ := FVal.ite_neg_finite np product
  rw [fFma]
  dsimp only
  rw [(FVal.isNan_finite hx).2, (FVal.isNan_finite hy).2, (FVal.isNan_finite addend).2, valid, (FVal.isNan_finite product).1,
    (FVal.isNan_finite addend).1, (FVal.add_finite md signed addend).2.2]
  rfl

end

end

/-- A result is an exact value rounded once. -/
def RoundedOnce (g : Fmt) (md : RMode) (sat ftz : Bool) (r : Nat × Flags) (q : ℚ) : Prop :=
  ∃ z : FVal, z.finite ∧ z.num = q ∧ r = ((g.round md sat ftz z).bits, (g.round md sat ftz z).flags)

/-- What the obligation says of sums, products and fused product-sums. -/
theorem arithmetic_exact (g : Fmt) (md : RMode) (sat ftz daz np nz : Bool) (x y v : Nat) :
    let X := g.decode daz x
    let Y := g.decode daz y
    let V := g.decode daz v
    let rounds := RoundedOnce g md sat ftz
    let invalid := fun (r : Nat × Flags) => r = (g.nan, Flags.nv)
    (X.isSnan = true ∨ Y.isSnan = true → invalid (fAdd g md sat ftz daz x y) ∧ invalid (fMul g md sat ftz daz x y) ∧
      invalid (fFma g md sat ftz daz np nz x y v)) ∧
    (X.isSnan = false → Y.isSnan = false → X.isNan = true ∨ Y.isNan = true →
      fAdd g md sat ftz daz x y = (g.nan, 0) ∧ fMul g md sat ftz daz x y = (g.nan, 0)) ∧
    (X.finite → Y.finite → rounds (fAdd g md sat ftz daz x y) (X.num + Y.num) ∧ rounds (fMul g md sat ftz daz x y) (X.num * Y.num)) ∧
    (X.finite → Y.finite → V.finite → rounds (fFma g md sat ftz daz np nz x y v)
      ((if np then -(X.num * Y.num) else X.num * Y.num) + if nz then -V.num else V.num)) ∧
    (∀ p q, X = .inf p → Y = .inf q → p ≠ q → invalid (fAdd g md sat ftz daz x y)) ∧
    (∀ p m e, X = .inf p → Y = .fin m 0 e → invalid (fMul g md sat ftz daz x y)) := by
  intro X Y V rounds invalid
  refine ⟨fun snan => ⟨fAdd_snan snan, fMul_snan snan, fFma_snan snan ..⟩, fun quietX quietY nan => ?_, fun hx hy => ⟨?_, ?_⟩, fun hx hy hv => ?_,
    fun p q hx hy opposite => ?_, fun p m e hx hy => ?_⟩
  · rw [← Bool.or_eq_true] at nan
    exact ⟨(fAdd_quiet quietX quietY).trans (if_pos nan), (fMul_quiet quietX quietY).trans (if_pos nan)⟩
  · obtain ⟨finite, num, -⟩ := FVal.add_finite md hx hy
    exact ⟨_, finite, num, fAdd_finite hx hy⟩
  · obtain ⟨finite, num, -⟩ := FVal.mul_finite hx hy
    exact ⟨_, finite, num, fMul_finite hx hy⟩
  · obtain ⟨product, times, -⟩ := FVal.mul_finite hx hy
    obtain ⟨addend, plus⟩ := FVal.ite_neg_finite nz hv
    obtain ⟨signed, minus⟩ := FVal.ite_neg_finite np product
    obtain ⟨finite, num, -⟩ := FVal.add_finite md signed addend
    exact ⟨_, finite, by rw [num, minus, plus, times], fFma_finite hx hy np nz hv⟩
  · have quietX : X.isSnan = false := by rw [hx]; rfl
    have quietY : Y.isSnan = false := by rw [hy]; rfl
    refine (fAdd_quiet quietX quietY).trans ?_
    rw [show g.decode daz x = _ from hx, show g.decode daz y = _ from hy, FVal.add, if_neg opposite]
    rfl
  · have quietX : X.isSnan = false := by rw [hx]; rfl
    have quietY : Y.isSnan = false := by rw [hy]; rfl
    refine (fMul_quiet quietX quietY).trans ?_
    rw [show g.decode daz x = _ from hx, show g.decode daz y = _ from hy]
    rfl

end Sys2Proof.Machine
end

section
/-!
The conversions (06 R166, R167): the elements of a part, their flags, the count of those out of range, and the token that names them.
-/

namespace Sys2Proof.Machine

/-! The source of each element. -/

/-- The source element of element j, where element j belongs to the part (R166). -/
def cvtSource (f : VW) (j : Nat) : Option Nat :=
  let w := widthOf f.etype
  let ws := widthOf (cvSrc f)
  let part := f.imm.toNat / 16 % 8
  if w < ws then (if part * (512 / ws) ≤ j ∧ j < part * (512 / ws) + 512 / ws then some (j - part * (512 / ws)) else none)
  else some (if ws < w then part * (512 / w) + j else j)

/-- The conversion of element j (R166). -/
def cvtElem (c : Ctx) (e : VqEntry) (f : VW) (dst src : ElemTy) (clamp : Bool) (j : Nat) : Option Rounded :=
  (cvtSource f j).map fun i => convert (RMode.ofCode e.rm.toNat) clamp e.ftz e.daz src dst (elem (c.readV f.a.toNat) (widthOf (cvSrc f)) i)

/-- Element j of the destination, with its flags and whether it left the range: one that is inactive or outside the part is kept. -/
def cvtKeep (c : Ctx) (f : VW) (r : Nat → Option Rounded) (j : Nat) : Rounded :=
  ((if c.activeAt f (widthOf f.etype) j then r j else none)).getD ⟨elem (c.readV f.d.toNat) (widthOf f.etype) j, 0, false⟩

theorem cvPart_eq (f : VW) : cvPart f = f.imm.toNat / 16 % 8 := by
  rw [cvPart, BitVec.extractLsb'_toNat, Nat.shiftRight_eq_div_pow]

theorem cvtOut_eq {f : VW} {src dst : ElemTy} (srcTy : elemTy (cvSrc f) = some src) (dstTy : elemTy f.etype = some dst)
    (c : Ctx) (e : VqEntry) (clamp : Bool) :
    cvtOut c e f clamp =
      let rs := (List.range (512 / widthOf f.etype)).map (cvtKeep c f (cvtElem c e f dst src clamp))
      (lineOf (widthOf f.etype) (rs.map (·.bits)), rs.foldl (fun fl r => fl ||| r.flags) 0, ofElems 1 (rs.map fun r => if r.ovr then 1 else 0)) := by
  unfold cvtOut
  rw [srcTy, dstTy, cvPart_eq]
  dsimp only
  refine congrArg (fun rs : List Rounded => (lineOf (widthOf f.etype) (rs.map (·.bits)), rs.foldl (fun fl r => fl ||| r.flags) 0,
    ofElems 1 (rs.map fun r => if r.ovr then 1 else 0))) (List.map_congr_left fun j hj => ?_)
  have hj : j < 512 / widthOf f.etype := List.mem_range.mp hj
  rw [isActive_elem (widthOf_cases _) c f hj]
  unfold cvtKeep cvtElem cvtSource
  dsimp only
  by_cases active : c.activeAt f (widthOf f.etype) j
  case neg => rw [decide_eq_false active, Bool.and_false, if_neg Bool.false_ne_true, if_neg active]; rfl
  rw [decide_eq_true active, Bool.and_true, if_pos active]
  by_cases narrow : widthOf f.etype < widthOf (cvSrc f)
  · have wide : ¬widthOf (cvSrc f) < widthOf f.etype := Nat.not_lt.mpr (Nat.le_of_lt narrow)
    rw [if_pos narrow, if_pos narrow, if_pos narrow, Nat.max_eq_left (Nat.le_of_lt narrow), ← Bool.decide_and, if_neg wide]
    by_cases inside : f.imm.toNat / 16 % 8 * (512 / widthOf (cvSrc f)) ≤ j ∧
        j < f.imm.toNat / 16 % 8 * (512 / widthOf (cvSrc f)) + 512 / widthOf (cvSrc f)
    · rw [decide_eq_true inside, if_pos rfl, if_pos inside]; rfl
    · rw [decide_eq_false inside, if_neg Bool.false_ne_true, if_neg inside]; rfl
  · rw [if_neg narrow, if_neg narrow, if_neg narrow, Nat.max_eq_right (Nat.not_lt.mp narrow), decide_eq_true hj, if_pos rfl]; rfl

/-! Lines, flags and counts of a conversion. -/

section
variable (c : Ctx) (f : VW) (r : Nat → Option Rounded)

/-- The line of a conversion: an element outside the part is kept (R166). -/
def Ctx.converts (x : Line) : Prop :=
  c.eachElem f (widthOf f.etype) x fun j => ((r j).map (·.bits)).getD (elem (c.readV f.d.toNat) (widthOf f.etype) j)

/-- The flags of a conversion. -/
def cvtFlags : Flags := (c.actives f (widthOf f.etype)).foldl (fun x j => x ||| ((r j).map (·.flags)).getD 0) 0

theorem converts_lineOf :
    c.converts f r (lineOf (widthOf f.etype) (((List.range (512 / widthOf f.etype)).map (cvtKeep c f r)).map (·.bits))) := by
  intro j hj
  rw [List.map_map]
  have line := elem_lineOf_map (widthOf f.etype) (Rounded.bits ∘ cvtKeep c f r) hj
  rw [upto] at line
  rw [line]
  refine ⟨fun active => ?_, fun inactive => ?_⟩
  · rw [Function.comp, cvtKeep, if_pos active]
    dsimp only
    cases r j <;> rfl
  · rw [Function.comp, cvtKeep, if_neg inactive]
    exact Nat.mod_eq_of_lt (elem_lt ..)

theorem flags_cvt : ((List.range (512 / widthOf f.etype)).map (cvtKeep c f r)).foldl (fun fl x => fl ||| x.flags) 0 =
    cvtFlags c f r := by
  rw [List.foldl_map, cvtFlags, Ctx.actives, ← foldl_or_ite]
  refine congrArg (fun step => (List.range (512 / widthOf f.etype)).foldl step 0) (funext fun x => funext fun j => ?_)
  by_cases active : c.activeAt f (widthOf f.etype) j
  · rw [cvtKeep, if_pos active, decide_eq_true active, if_pos rfl]
    cases r j <;> rfl
  · rw [cvtKeep, if_neg active, decide_eq_false active]; rfl

/-- Whether element j is active and left the range. -/
def cvtOver (j : Nat) : Bool := decide (c.activeAt f (widthOf f.etype) j) && ((r j).map (·.ovr)).getD false

theorem cvtKeep_ovr (j : Nat) : (cvtKeep c f r j).ovr = cvtOver c f r j := by
  unfold cvtKeep cvtOver
  by_cases active : c.activeAt f (widthOf f.etype) j
  · rw [if_pos active, decide_eq_true active]
    cases r j <;> rfl
  · rw [if_neg active, decide_eq_false active]; rfl

/-- The overflow bits as a number. -/
def cvtBits : Nat := ofElems 1 (((List.range (512 / widthOf f.etype)).map (cvtKeep c f r)).map fun x => if x.ovr then 1 else 0)

theorem testBit_cvtBits (j : Nat) : (cvtBits c f r).testBit j = (decide (j < 512 / widthOf f.etype) && cvtOver c f r j) := by
  have bits : ((List.range (512 / widthOf f.etype)).map (cvtKeep c f r)).map (fun x => if x.ovr then 1 else 0) =
      ((List.range (512 / widthOf f.etype)).map (cvtOver c f r)).map fun b => if b then 1 else 0 := by
    rw [List.map_map, List.map_map]
    exact List.map_congr_left fun j _ => by rw [Function.comp, Function.comp, cvtKeep_ovr]
  rw [cvtBits, bits, testBit_ofElems]
  by_cases inside : j < 512 / widthOf f.etype
  · rw [decide_eq_true inside, getD_map_range _ inside]; rfl
  · rw [decide_eq_false inside]
    simp [List.getD, Nat.not_lt.mp inside]

/-- How many elements left the range. -/
def cvtCount : Nat := ((List.range (512 / widthOf f.etype)).filter (cvtOver c f r)).length

theorem cvtCount_le : cvtCount c f r ≤ 64 := by
  refine (List.length_filter_le ..).trans ?_
  rw [List.length_range]
  rcases widthOf_cases f.etype with h | h | h | h <;> rw [h] <;> decide

theorem popc_cvtBits : popc 64 (cvtBits c f r) = cvtCount c f r := by
  have lanes : (List.range 64).filter (fun j => decide (j < 512 / widthOf f.etype)) = List.range (512 / widthOf f.etype) := by
    rcases widthOf_cases f.etype with h | h | h | h <;> rw [h] <;> rfl
  rw [popc_eq_length, cvtCount, ← lanes, List.filter_filter]
  refine congrArg List.length (List.filter_congr fun j _ => ?_)
  rw [testBit_cvtBits, Bool.and_comm]

theorem cvtBits_eq_zero : cvtBits c f r = 0 ↔ cvtCount c f r = 0 := by
  rw [cvtCount, List.length_eq_zero_iff, List.filter_eq_nil_iff]
  refine ⟨fun zero j hj over_ => ?_, fun none => Nat.eq_of_testBit_eq fun j => ?_⟩
  · have bit := testBit_cvtBits c f r j
    rw [zero, Nat.zero_testBit, decide_eq_true (List.mem_range.mp hj), over_] at bit
    exact Bool.false_ne_true bit
  · rw [testBit_cvtBits, Nat.zero_testBit]
    by_cases inside : j < 512 / widthOf f.etype
    · rw [Bool.eq_false_iff.mpr (none j (List.mem_range.mpr inside)), Bool.and_false]
    · rw [decide_eq_false inside]; rfl

end

end Sys2Proof.Machine
end

section
/-!
The completion of VCVT and of VCVTO, with the place that its token fills (06 R166, R167).
-/

namespace Sys2Proof.Machine

/-! A place of a tile's output is filled on that tile alone. -/

theorem State.tile_injectBooked {k q : Nat} (h : q ≠ k) (p m : Nat) (s : State) : (State.injectBooked k p m s).tile q = s.tile q := by
  induction m generalizing s with
  | zero => rfl
  | succ m ih =>
    unfold State.injectBooked
    split
    · refine (ih _).trans ((State.tile_setTile_other _ _ (Ne.symm h)).trans ?_)
      exact State.tile_setTile_other _ _ (Ne.symm h)
    · rfl

theorem State.tile_fillPort {k q : Nat} (h : q ≠ k) (s : State) (p seq : Nat) (kind : TokKind) (x : Line) :
    (s.fillPort k p seq kind x).tile q = s.tile q := by
  unfold State.fillPort
  dsimp only
  split
  · exact (State.tile_injectBooked h ..).trans (State.tile_setTile_other _ _ (Ne.symm h))
  · split
    · rfl
    · split <;> rfl

theorem State.port_vecWritten (s : State) (k n : Nat) (e : VqEntry) (rest : List VqEntry) (o : VOut) (p : Nat) :
    ((s.vecWritten k n e rest o).tile k).port p = (s.tile k).port p := by
  rw [State.vecWritten, State.tile_setTile]; rfl

/-- A k result beside a v result is written at once. -/
theorem Ctx.applyVOut_readK_count {e : VqEntry} (cls : vecDest e.instr = .v) (c : Ctx) {o : VOut} {r : BitVec 6} {x : Word} (k : o.k = some (r, x)) :
    (c.applyVOut e o).readK r = wroteK r ⟨false, x.setWidth 128⟩ := by
  obtain ⟨v, m, _, fl, ovr⟩ := o
  cases k
  rw [Ctx.applyVOut_eq]
  dsimp only [Option.elim]
  rw [Ctx.giveK, VqEntry.holds_other (by rw [cls]; decide), if_neg Bool.false_ne_true]
  exact Ctx.readK_writeK ..

section
variable (c : Ctx) (f : VW) (r : Nat → Option Rounded)

/-- The kind of VCVTO's token: NULL when no element left the range (R167). -/
def cvtKind : TokKind := if cvtBits c f r = 0 then .null else .data

/-- Its payload: one bit per element that left the range. -/
def cvtPayload : Line := if cvtBits c f r = 0 then 0 else BitVec.ofNat 512 (cvtBits c f r)

/-- The token that fills a place of VCVTO (R167). -/
theorem fillToken_cvt (ch : Chan) (q : Nat) :
    let tok := ch.fillToken q (cvtKind c f r) (cvtPayload c f r)
    tok.seq = q ∧ tok.resid = ch.resid ∧ (cvtCount c f r = 0 → tok.kind = .null) ∧
      (cvtCount c f r ≠ 0 → tok.kind = .data ∧ tok.round = BitVec.ofNat 16 (AMap.getD ch.reserved q ch.rounds) ∧
        ∀ j, j < 64 → tok.payload.getLsbD j = (decide (j < 512 / widthOf f.etype) && cvtOver c f r j)) := by
  refine ⟨rfl, rfl, fun none => if_pos ((cvtBits_eq_zero c f r).mpr none), fun some_ => ?_⟩
  have some_ : cvtBits c f r ≠ 0 := fun none => some_ ((cvtBits_eq_zero c f r).mp none)
  have kind : cvtKind c f r = .data := if_neg some_
  have payload : cvtPayload c f r = BitVec.ofNat 512 (cvtBits c f r) := if_neg some_
  rw [kind, payload]
  refine ⟨rfl, Chan.fillToken_round .., fun j hj => ?_⟩
  rw [Chan.fillToken_payload _ _ (by decide), BitVec.getLsbD_ofNat, testBit_cvtBits, decide_eq_true (by omega : j < 512), Bool.true_and]

end

/-- What VCVTO writes and sends. -/
def vcvtoOut (c : Ctx) (f : VW) (r : Nat → Option Rounded) : VOut where
  v := some (f.d, lineOf (widthOf f.etype) (((List.range (512 / widthOf f.etype)).map (cvtKeep c f r)).map (·.bits)))
  flags := cvtFlags c f r
  k := some (f.b, BitVec.ofNat 64 (cvtCount c f r))
  ovr := cvtBits c f r

theorem vecOut_vcvto {e : VqEntry} {f : VW} {src dst : ElemTy} (srcTy : elemTy (cvSrc f) = some src) (dstTy : elemTy f.etype = some dst)
    (i : e.instr = .vcvto f) (c : Ctx) : vecOut e c = vcvtoOut c f (cvtElem c e f dst src true) := by
  have out : vecOut e c = { v := some (f.d, (cvtOut c e f true).1), flags := (cvtOut c e f true).2.1
                            k := some (f.b, BitVec.ofNat 64 (popc 64 (cvtOut c e f true).2.2)), ovr := (cvtOut c e f true).2.2 } := by rw [vecOut, i]
  rw [out, cvtOut_eq srcTy dstTy, vcvtoOut]
  dsimp only
  rw [flags_cvt, ← popc_cvtBits]; rfl

theorem vcvtoOut_registers {e : VqEntry} (cls : vecDest e.instr = .v) (c : Ctx) (f : VW) (r : Nat → Option Rounded) (rest : List VqEntry) :
    let d := ({ c with vq := rest } : Ctx).applyVOut e (vcvtoOut c f r)
    d.readK f.b = wroteK f.b ⟨false, BitVec.ofNat 128 (cvtCount c f r)⟩ ∧ ∃ x, c.hasV d e f.d x ∧ c.converts f r x := by
  have small := cvtCount_le c f r
  have count : (BitVec.ofNat 64 (cvtCount c f r)).setWidth 128 = BitVec.ofNat 128 (cvtCount c f r) := by bv_omega
  refine ⟨?_, _, Ctx.applyVOut_hasV cls { c with vq := rest } rfl rfl, converts_lineOf c f r⟩
  rw [← count]
  exact Ctx.applyVOut_readK_count cls _ rfl

section
variable {s : State} {k n g : Nat} {e : VqEntry} {rest : List VqEntry} {f : VW} {src dst : ElemTy} (hn : n ≤ 10) (group : e.group = some g)
  (queue : ((s.tile k).ctx n).vq = e :: rest) (srcTy : elemTy (cvSrc f) = some src) (dstTy : elemTy f.etype = some dst)
include hn group queue srcTy dstTy

/-- VCVT. -/
theorem runs_vcvt (i : e.instr = .vcvt f) :
    let c := (s.tile k).ctx n
    let r := cvtElem c e f dst src (satBit f)
    VecRuns s k n e rest [f.d] [] [] (cvtFlags c f r) fun _ d => ∃ x, c.hasV d e f.d x ∧ c.converts f r x := by
  intro c r
  have out : vecOut e c = { v := some (f.d, (cvtOut c e f (satBit f)).1), flags := (cvtOut c e f (satBit f)).2.1 } := by rw [vecOut, i]
  rw [cvtOut_eq srcTy dstTy] at out
  dsimp only at out
  rw [flags_cvt] at out
  exact vecRuns_v (by rw [i]; rfl) hn group queue (by rw [i]; rfl) (.inr (by rw [i]; exact nofun)) out (converts_lineOf c f r)

/-- The registers of VCVTO, and the place that its token fills when it has one. -/
theorem runs_vcvto (i : e.instr = .vcvto f) :
    let c := (s.tile k).ctx n
    let r := cvtElem c e f dst src true
    VecRuns s k n e rest [f.d] [] [f.b] (cvtFlags c f r) fun t d =>
      d.readK f.b = wroteK f.b ⟨false, BitVec.ofNat 128 (cvtCount c f r)⟩ ∧ (∃ x, c.hasV d e f.d x ∧ c.converts f r x) ∧
      ∀ q id ch, e.seq = some q → ((s.tile k).port f.vc.toNat).ordered = false → ((s.tile k).port f.vc.toNat).chan = some id → s.chan? id = some ch →
        t.chan? id = some (ch.fill q (cvtKind c f r) (cvtPayload c f r)) := by
  intro c r
  have noVm : vmShape e.instr = none := by rw [i]; rfl
  have cls : vecDest e.instr = .v := by rw [i]; rfl
  have out : vecOut e c = vcvtoOut c f r := vecOut_vcvto srcTy dstTy i c
  obtain ⟨count, line⟩ := vcvtoOut_registers cls c f r rest
  cases place : e.seq with
  | none => exact vecRuns_written noVm hn group queue (.inl place) out fun t => ⟨count, line, nofun⟩
  | some q =>
    have retired : vecRetire (s.setTile k (s.tile k)) k n =
        (s.vecWritten k n e rest (vcvtoOut c f r)).fillPort k f.vc.toNat q (cvtKind c f r) (cvtPayload c f r) := by
      rw [vecRetire_token noVm hn queue i place, out]; rfl
    have steps := TokenStep.fillPort (s.vecWritten k n e rest (vcvtoOut c f r)) k f.vc.toNat q (cvtKind c f r) (cvtPayload c f r)
    have ctx := (steps.ctx k n).trans (s.ctx_vecWritten ..)
    refine ⟨_, (exec_vectorComplete_retires noVm hn group queue).trans (congrArg _ retired), ?_⟩
    rw [ctx]
    refine ⟨vecDone_written steps (fun j hj => ?_) (by rw [place]; exact nofun), Ctx.applyVOut_fpc .., count, line, ?_⟩
    · rw [State.tile_fillPort hj]; exact State.tile_setTile_other _ _ (Ne.symm hj)
    · rintro q' id ch ⟨⟩ plain chan here
      have port := s.port_vecWritten k n e rest (vcvtoOut c f r) f.vc.toNat
      have fills := State.fillPort_plain (s := s.vecWritten k n e rest (vcvtoOut c f r)) q (cvtKind c f r) (cvtPayload c f r)
        ((congrArg Port.ordered port).trans plain) ((congrArg Port.chan port).trans chan) here
      rw [fills, State.chan_setChan]

end

end Sys2Proof.Machine
end

section
/-!
VMXQ (06 R169): a block's values, its scale, its rounded elements and the bytes that hold them.
-/

namespace Sys2Proof.Machine

/-! The bytes and the nibbles of a line. -/

theorem leNat_ofElems (l : List Byte) : leNat l = ofElems 8 (l.map BitVec.toNat) := by
  induction l with
  | nil => rfl
  | cons b l ih => rw [leNat, ih, List.map_cons, ofElems, Nat.mod_eq_of_lt b.isLt]; rfl

theorem leBytes_elem (n x : Nat) : leBytes n x = (upto n).map fun i => BitVec.ofNat 8 (x / 2 ^ (8 * i)) := by
  induction n generalizing x with
  | zero => rfl
  | succ n ih =>
    rw [leBytes, ih, upto, upto, List.range_succ_eq_map, List.map_cons, List.map_map]
    refine congr (congrArg List.cons (by simp)) (List.map_congr_left fun i _ => ?_)
    rw [Function.comp, Nat.div_div_eq_div_mul, Nat.mul_succ, Nat.pow_add']

theorem lineBytes_elem (x : Line) : lineBytes x = (upto 64).map fun i => BitVec.ofNat 8 (elem x 8 i) := by
  rw [lineBytes, leBytes_elem]
  exact List.map_congr_left fun i _ => BitVec.eq_of_toNat_eq (by simp [elem])

/-- Byte i of a line that is made of 64 bytes. -/
theorem elem_bytesLine (f : Nat → Byte) {i : Nat} (h : i < 64) : elem (bytesLine ((upto 64).map f)) 8 i = (f i).toNat := by
  rw [bytesLine, leNat_ofElems, List.map_map, show BitVec.ofNat 512 (ofElems 8 _) = lineOf 8 _ from rfl]
  exact (elem_lineOf_map 8 (BitVec.toNat ∘ f) h).trans (Nat.mod_eq_of_lt (f i).isLt)

/-- A nibble is the lower or the upper half of its byte. -/
theorem elem_nibble (x : Line) (i : Nat) : elem x 4 i = elem x 8 (i / 2) / 16 ^ (i % 2) % 16 := by
  have bits : x.toNat / 2 ^ (4 * i) = x.toNat / 2 ^ (8 * (i / 2)) / 16 ^ (i % 2) := by
    rw [Nat.div_div_eq_div_mul, show 16 = 2 ^ 4 from rfl, ← Nat.pow_mul, ← Nat.pow_add]
    congr 2; omega
  rw [elem, elem, bits]
  rcases Nat.mod_two_eq_zero_or_one i with even | odd
  · rw [even]; omega
  · rw [odd]; omega

/-! An element of four bits is four bits. -/

theorem roundQ_le (mode : RMode) (neg : Bool) {mag k : Nat} {e u : Int} (h : (Nat.log2 mag : Int) + 1 + e ≤ u + k) :
    (roundQ mode neg mag e u).1 ≤ 2 ^ k := by
  have below : mag < 2 ^ (Nat.log2 mag + 1) := Nat.lt_log2_self
  unfold roundQ
  split
  case isTrue le =>
    calc mag * 2 ^ (e - u).toNat ≤ 2 ^ (Nat.log2 mag + 1) * 2 ^ (e - u).toNat := Nat.mul_le_mul_right _ below.le
      _ = 2 ^ (Nat.log2 mag + 1 + (e - u).toNat) := (Nat.pow_add ..).symm
      _ ≤ 2 ^ k := Nat.pow_le_pow_right Nat.two_pos (by omega)
  case isFalse gt =>
    have quotient : mag / 2 ^ (u - e).toNat < 2 ^ k := by
      refine Nat.div_lt_of_lt_mul (below.trans_le ?_)
      rw [← Nat.pow_add]
      exact Nat.pow_le_pow_right Nat.two_pos (by omega)
    have up (b : Bool) : (if b then mag / 2 ^ (u - e).toNat + 1 else mag / 2 ^ (u - e).toNat) ≤ 2 ^ k := by split <;> omega
    exact up _

theorem withSign_e2m1_lt (neg : Bool) {b : Nat} (h : b < 8) : Fmt.e2m1.withSign neg b < 16 := by
  have sign : Fmt.e2m1.signBit = 8 := rfl
  rw [Fmt.withSign, sign]
  split <;> omega

theorem round_e2m1_lt (mode : RMode) (sat ftz : Bool) (v : FVal) : (Fmt.e2m1.round mode sat ftz v).bits < 16 := by
  cases v with
  | nan => exact (by decide : 0 < 16)
  | inf neg => exact withSign_e2m1_lt neg (by decide : 7 < 8)
  | fin neg mag e =>
    unfold Fmt.round
    dsimp only
    split
    · exact withSign_e2m1_lt neg (by decide : 0 < 8)
    generalize rounded : (if (roundQ mode neg mag e ((Nat.log2 mag : Int) + e - Fmt.e2m1.fb)).1 = 2 ^ (Fmt.e2m1.fb + 1) then
      (Nat.log2 mag : Int) + e + 1 else (Nat.log2 mag : Int) + e) = top
    generalize (if (roundQ mode neg mag e _).1 = _ then _ else _) = frac
    have above : (Nat.log2 mag : Int) + e ≤ top := by rw [← rounded]; split <;> omega
    split
    case isTrue small =>
      split
      · exact withSign_e2m1_lt neg (by decide : 0 < 8)
      · refine withSign_e2m1_lt neg (Nat.lt_of_le_of_lt (roundQ_le (k := 1) mode neg ?_) (by decide : 2 ^ 1 < 8))
        have bias : (1 : Int) - (Fmt.e2m1.bias : Int) = 0 := rfl
        have fb : (Fmt.e2m1.fb : Int) = 1 := rfl
        rw [bias] at small ⊢
        rw [fb]
        omega
    case isFalse =>
      split
      · exact withSign_e2m1_lt neg (by decide : 7 < 8)
      case isFalse fits => exact withSign_e2m1_lt neg (Nat.lt_succ_of_le (Nat.le_of_not_lt fits))

/-! The line of a block of four-bit elements: two elements a byte, one half of the line for each block, then the two scales. -/

/-- Byte j of the line: block half with these elements and this scale, beside the other block as it was. -/
def packedByte (half : Nat) (q : Nat → Nat) (scale : Nat) (old : Nat → Byte) (j : Nat) : Byte :=
  if j / 16 = half then BitVec.ofNat 8 (q (2 * (j % 16)) + 16 * q (2 * (j % 16) + 1))
  else if j < 32 then old j
  else if j = 32 + half then BitVec.ofNat 8 scale
  else if j = 33 - half then old j
  else 0

/-- Byte j of the line of a block of eight-bit elements. -/
def plainByte (q : Nat → Nat) (scale j : Nat) : Byte :=
  if j < 32 then BitVec.ofNat 8 (q j) else if j = 32 then BitVec.ofNat 8 scale else 0

section
variable (q : Nat → Nat) (scale : Nat) (old : Nat → Byte)

theorem packedBytes_lower : (upto 16).map (fun i => BitVec.ofNat 8 (nthD ((upto 32).map q) (2 * i) 0 + 16 * nthD ((upto 32).map q) (2 * i + 1) 0)) ++
      (((upto 64).map old).drop 16).take 16 ++ [BitVec.ofNat 8 scale, nthD ((upto 64).map old) 33 0] ++ List.replicate 30 0 =
    (upto 64).map (packedByte 0 q scale old) := rfl

theorem packedBytes_upper : ((upto 64).map old).take 16 ++
      (upto 16).map (fun i => BitVec.ofNat 8 (nthD ((upto 32).map q) (2 * i) 0 + 16 * nthD ((upto 32).map q) (2 * i + 1) 0)) ++
      [nthD ((upto 64).map old) 32 0, BitVec.ofNat 8 scale] ++ List.replicate 30 0 =
    (upto 64).map (packedByte 1 q scale old) := rfl

theorem plainBytes : ((upto 32).map q).map (BitVec.ofNat 8) ++ [BitVec.ofNat 8 scale] ++ List.replicate 31 0 =
    (upto 64).map (plainByte q scale) := rfl

end

/-- The line of a block (R169): four-bit elements in half of the line, the other half kept, or eight-bit elements. -/
def MxLine (fp4 : Bool) (half : Nat) (d x : Line) (q : Nat → Nat) (sc : Nat) : Prop :=
  (fp4 = true → (∀ i, i < 32 → elem x 4 (32 * half + i) = q i % 16) ∧
    (∀ i, i < 32 → elem x 4 (32 * (1 - half) + i) = elem d 4 (32 * (1 - half) + i)) ∧
    elem x 8 (32 + half) = sc ∧ elem x 8 (33 - half) = elem d 8 (33 - half) ∧ ∀ i, 34 ≤ i → i < 64 → elem x 8 i = 0) ∧
  (fp4 = false → (∀ i, i < 32 → elem x 8 i = q i % 256) ∧ elem x 8 32 = sc ∧ ∀ i, 33 ≤ i → i < 64 → elem x 8 i = 0)

section
variable {scale : Nat} (byte : scale < 256) (q : Nat → Nat)
include byte

theorem mxLine_packed {half : Nat} (h : half < 2) (nibbles : ∀ i, q i < 16) (d : Line) :
    MxLine true half d (bytesLine ((upto 64).map (packedByte half q scale fun i => BitVec.ofNat 8 (elem d 8 i)))) q scale := by
  have old (i : Nat) : (BitVec.ofNat 8 (elem d 8 i)).toNat = elem d 8 i := Nat.mod_eq_of_lt (elem_lt d 8 i)
  refine ⟨fun _ => ⟨fun i hi => ?_, fun i hi => ?_, ?_, ?_, fun i low high => ?_⟩, nofun⟩
  · have place : (32 * half + i) / 2 = 16 * half + i / 2 := by omega
    have parity : (32 * half + i) % 2 = i % 2 := by omega
    have here : (16 * half + i / 2) / 16 = half := by omega
    have slot : (16 * half + i / 2) % 16 = i / 2 := by omega
    have lower := nibbles (2 * (i / 2))
    have upper := nibbles (2 * (i / 2) + 1)
    rw [elem_nibble, place, parity, elem_bytesLine _ (by omega), packedByte, if_pos here, slot, BitVec.toNat_ofNat]
    rcases Nat.mod_two_eq_zero_or_one i with even | odd
    · have index : i = 2 * (i / 2) := by omega
      rw [even, ← index] at *; omega
    · have index : i = 2 * (i / 2) + 1 := by omega
      rw [odd, ← index] at *; omega
  · rw [elem_nibble, elem_nibble d, elem_bytesLine _ (by omega), packedByte, if_neg (by omega), if_pos (by omega), old]
  · rw [elem_bytesLine _ (by omega), packedByte, if_neg (by omega), if_neg (by omega), if_pos rfl]
    exact Nat.mod_eq_of_lt byte
  · rw [elem_bytesLine _ (by omega), packedByte, if_neg (by omega), if_neg (by omega), if_neg (by omega), if_pos rfl, old]
  · rw [elem_bytesLine _ high, packedByte, if_neg (by omega), if_neg (by omega), if_neg (by omega), if_neg (by omega)]; rfl

theorem mxLine_plain (half : Nat) (d : Line) : MxLine false half d (bytesLine ((upto 64).map (plainByte q scale))) q scale := by
  refine ⟨nofun, fun _ => ⟨fun i hi => ?_, ?_, fun i low high => ?_⟩⟩
  · rw [elem_bytesLine _ (by omega), plainByte, if_pos hi]; rfl
  · rw [elem_bytesLine _ (by decide), plainByte, if_neg (by decide), if_pos rfl]
    exact Nat.mod_eq_of_lt byte
  · rw [elem_bytesLine _ high, plainByte, if_neg (by omega), if_neg (by omega)]; rfl

end

/-! The block. -/

/-- The values of a block: 16 elements of A then 16 of B, or 32 of A (R169). -/
def mxBlock (c : Ctx) (e : VqEntry) (f : VW) : List FVal :=
  let ws := widthOf (cvSrc f)
  ((List.range (if ws = 32 then 16 else 32)).map fun j => (fmtOf (cvSrc f)).decode e.daz (elem (c.readV f.a.toNat) ws j)) ++
    if ws = 32 then (List.range 16).map fun j => (fmtOf (cvSrc f)).decode e.daz (elem (c.readV f.b.toNat) 32 j) else []

theorem widthOf_flt {e : BitVec 4} (h : isFlt e = true) : widthOf e = 32 ∨ widthOf e = 16 := by revert e; decide

theorem mxqElems_eq {f : VW} (flt : isFlt (cvSrc f) = true) (c : Ctx) (e : VqEntry) : mxqElems c e f = mxBlock c e f := by
  unfold mxqElems mxBlock
  rcases widthOf_flt flt with w | w <;> rw [w] <;> rfl

theorem length_mxBlock (c : Ctx) (e : VqEntry) (f : VW) : (mxBlock c e f).length = 32 := by
  unfold mxBlock
  dsimp only
  split <;> simp

/-- The scale of a block, as its byte (R169). -/
def mxScale (f : VW) (block : List FVal) : Int :=
  match maxLog block with
  | none => 127
  | some l => max 0 (min 254 (l - (if f.etype == 12 then 2 else 8) + 127))

/-- An element at a scale (R169). -/
def mxQuant (e : VqEntry) (f : VW) (scale : Int) (v : FVal) : Rounded :=
  (if f.etype == 12 then Fmt.e2m1 else Fmt.e4m3).round (RMode.ofCode e.rm.toNat) true (e.ftz && !(f.etype == 12)) (v.scale (127 - scale))

theorem mxScale_lt (f : VW) (block : List FVal) : (mxScale f block).toNat < 256 := by
  unfold mxScale
  cases maxLog block with
  | none => exact (by decide : Int.toNat 127 < 256)
  | some l => dsimp only; omega

/-- The line of VMXQ. -/
def mxqLine (f : VW) (d : Line) (q : Nat → Nat) (scale : Nat) : Line :=
  bytesLine ((upto 64).map (if f.etype == 12 then packedByte (f.imm.toNat / 32 % 2) q scale fun i => BitVec.ofNat 8 (elem d 8 i)
    else plainByte q scale))

theorem mxLine_mxqLine {f : VW} {q : Nat → Nat} {scale : Nat} (byte : scale < 256) (nibbles : (f.etype == 12) = true → ∀ i, q i < 16) (d : Line) :
    MxLine (f.etype == 12) (f.imm.toNat / 32 % 2) d (mxqLine f d q scale) q scale := by
  unfold mxqLine
  cases fp4 : f.etype == 12 with
  | true => exact mxLine_packed byte q (Nat.mod_lt _ Nat.two_pos) (nibbles fp4) d
  | false => exact mxLine_plain byte q _ d

theorem map_eq_upto {α : Type} {l : List α} {n : Nat} (h : l.length = n) (g : α → Nat) :
    l.map g = (upto n).map fun i => ((l[i]?).map g).getD 0 := by
  refine List.ext_getElem (by simp [upto, h]) fun i hi hj => ?_
  rw [List.length_map] at hi
  simp [upto, hi]

/-- The line that VMXQ makes of its rounded elements. -/
def mxqBytes (f : VW) (d : Line) (rs : List Rounded) (scale : Nat) : Line :=
  let half := if f.imm.getLsbD 5 then 1 else 0
  let old := lineBytes d
  bytesLine (
    if f.etype == 12 then
      let pairs := (upto 16).map fun i => BitVec.ofNat 8 (nthD (rs.map (·.bits)) (2 * i) 0 + 16 * nthD (rs.map (·.bits)) (2 * i + 1) 0)
      (if half = 0 then pairs ++ (old.drop 16).take 16 else old.take 16 ++ pairs) ++
        (if half = 0 then [BitVec.ofNat 8 scale, nthD old 33 0] else [nthD old 32 0, BitVec.ofNat 8 scale]) ++ List.replicate 30 0
    else rs.map (fun r => BitVec.ofNat 8 r.bits) ++ [BitVec.ofNat 8 scale] ++ List.replicate 31 0)

theorem mxqBytes_eq {rs : List Rounded} {q : Nat → Nat} (bits : rs.map (·.bits) = (upto 32).map q) (f : VW) (d : Line) (scale : Nat) :
    mxqBytes f d rs scale = mxqLine f d q scale := by
  have half : (if f.imm.getLsbD 5 then 1 else 0) = f.imm.toNat / 32 % 2 := bit_eq ..
  have bytes : rs.map (fun r => BitVec.ofNat 8 r.bits) = ((upto 32).map q).map (BitVec.ofNat 8) := by rw [← bits, List.map_map]; rfl
  unfold mxqBytes mxqLine
  rw [half, bits, bytes, lineBytes_elem]
  cases f.etype == 12 with
  | false => exact congrArg bytesLine (plainBytes q scale)
  | true =>
    rcases Nat.mod_two_eq_zero_or_one (f.imm.toNat / 32) with lower | upper
    · rw [lower]; exact congrArg bytesLine (packedBytes_lower q scale _)
    · rw [upper]; exact congrArg bytesLine (packedBytes_upper q scale _)

/-- Whether a value is an infinity or a NaN. -/
def FVal.special : FVal → Bool
  | .fin .. => false
  | _ => true

/-- Whether a value is an infinity or a signalling NaN. -/
def FVal.invalid : FVal → Bool
  | .nan s => s
  | .inf _ => true
  | .fin .. => false

theorem FVal.special_eq_false {v : FVal} : v.special = false ↔ v.finite := by
  cases v <;> simp [FVal.special, FVal.finite]

theorem FVal.invalid_iff {v : FVal} : v.invalid = true ↔ v.isSnan = true ∨ ∃ m, v = .inf m := by
  cases v <;> simp [FVal.invalid, FVal.isSnan]

/-- The elements, their flags and the scale of VMXQ, each in terms of whether the block has a special value (R169). -/
theorem mxqOut_eq {f : VW} (flt : isFlt (cvSrc f) = true) (c : Ctx) (e : VqEntry) :
    let block := mxBlock c e f
    let special := block.any FVal.special
    let scale := mxScale f block
    let rs := block.map fun v => if special then ⟨0, 0, false⟩ else mxQuant e f scale v
    mxqOut c e f =
      { v := some (f.d, mxqBytes f (c.readV f.d.toNat) rs (if special then 255 else scale.toNat))
        flags := if special then (if block.any FVal.invalid then Flags.nv else 0)
          else rs.foldl (fun fl r => fl ||| (if r.ovr then Flags.nx else r.flags)) 0 } := by
  rw [← mxqElems_eq flt]
  rfl

section
variable {f : VW} (flt : isFlt (cvSrc f) = true) (c : Ctx) (e : VqEntry)
include flt

/-- A block without a special value. -/
theorem mxqOut_finite (finite : ∀ v ∈ mxBlock c e f, v.finite) :
    let block := mxBlock c e f
    let quant := mxQuant e f (mxScale f block)
    mxqOut c e f =
      { v := some (f.d, mxqLine f (c.readV f.d.toNat) (fun i => ((block[i]?).map fun v => (quant v).bits).getD 0) (mxScale f block).toNat)
        flags := block.foldl (fun fl v => fl ||| (if (quant v).ovr then Flags.nx else (quant v).flags)) 0 } := by
  intro block quant
  have plain : block.any FVal.special = false := List.any_eq_false.mpr fun v hv => by
    rw [FVal.special_eq_false.mpr (finite v hv)]; exact Bool.false_ne_true
  have bits : (block.map quant).map (·.bits) = (upto 32).map fun i => ((block[i]?).map fun v => (quant v).bits).getD 0 := by
    rw [List.map_map]; exact map_eq_upto (length_mxBlock c e f) _
  rw [mxqOut_eq flt]
  rw [plain]
  simp only [Bool.false_eq_true, if_false]
  rw [mxqBytes_eq bits, List.foldl_map]

/-- A block with a special value: every element 0 and the scale that says NaN. -/
theorem mxqOut_special (special : ∃ v ∈ mxBlock c e f, ¬v.finite) : mxqOut c e f =
    { v := some (f.d, mxqLine f (c.readV f.d.toNat) (fun _ => 0) 255)
      flags := if ∃ v ∈ mxBlock c e f, v.isSnan = true ∨ ∃ m, v = .inf m then Flags.nv else 0 } := by
  obtain ⟨v, hv, notFinite⟩ := special
  have special : (mxBlock c e f).any FVal.special = true :=
    List.any_eq_true.mpr ⟨v, hv, Bool.eq_true_of_not_eq_false fun h => notFinite (FVal.special_eq_false.mp h)⟩
  have invalid : ((mxBlock c e f).any FVal.invalid = true) = ∃ v ∈ mxBlock c e f, v.isSnan = true ∨ ∃ m, v = .inf m := by
    simp only [List.any_eq_true, FVal.invalid_iff]
  have bits : ((mxBlock c e f).map fun _ => (⟨0, 0, false⟩ : Rounded)).map (·.bits) = (upto 32).map fun _ => 0 := by
    rw [List.map_map]
    refine (map_eq_upto (length_mxBlock c e f) fun _ => 0).trans (List.map_congr_left fun i _ => ?_)
    cases (mxBlock c e f)[i]? <;> rfl
  rw [mxqOut_eq flt]
  rw [special]
  simp only [if_true, invalid]
  rw [mxqBytes_eq bits]

end

section
variable {s : State} {k n g : Nat} {e : VqEntry} {rest : List VqEntry} {f : VW} (hn : n ≤ 10) (group : e.group = some g)
  (queue : ((s.tile k).ctx n).vq = e :: rest) (i : e.instr = .vmxq f)
include hn group queue i

theorem runs_vmxq {q : Nat → Nat} {scale : Nat} {fl : Flags} (byte : scale < 256) (nibbles : (f.etype == 12) = true → ∀ i, q i < 16)
    (out : mxqOut ((s.tile k).ctx n) e f = { v := some (f.d, mxqLine f (((s.tile k).ctx n).readV f.d.toNat) q scale), flags := fl }) :
    let c := (s.tile k).ctx n
    VecRuns s k n e rest [f.d] [] [] fl fun _ d =>
      ∃ x, c.hasV d e f.d x ∧ MxLine (f.etype == 12) (f.imm.toNat / 32 % 2) (c.readV f.d.toNat) x q scale := by
  have same : vecOut e ((s.tile k).ctx n) = mxqOut ((s.tile k).ctx n) e f := by rw [vecOut, i]
  exact vecRuns_v (by rw [i]; rfl) hn group queue (by rw [i]; rfl) (.inr (by rw [i]; exact nofun)) (same.trans out)
    (P := fun x => MxLine _ _ _ x q scale) (mxLine_mxqLine byte nibbles _)

theorem runs_vmxq_special (flt : isFlt (cvSrc f) = true) (special : ∃ v ∈ mxBlock ((s.tile k).ctx n) e f, ¬v.finite) :
    let c := (s.tile k).ctx n
    VecRuns s k n e rest [f.d] [] [] (if ∃ v ∈ mxBlock c e f, v.isSnan = true ∨ ∃ m, v = .inf m then Flags.nv else 0) fun _ d =>
      ∃ x, c.hasV d e f.d x ∧ MxLine (f.etype == 12) (f.imm.toNat / 32 % 2) (c.readV f.d.toNat) x (fun _ => 0) 255 :=
  runs_vmxq hn group queue i (by decide) (fun _ _ => by decide) (mxqOut_special flt _ e special)

theorem runs_vmxq_finite (flt : isFlt (cvSrc f) = true) (finite : ∀ v ∈ mxBlock ((s.tile k).ctx n) e f, v.finite) :
    let c := (s.tile k).ctx n
    let block := mxBlock c e f
    let quant := mxQuant e f (mxScale f block)
    VecRuns s k n e rest [f.d] [] [] (block.foldl (fun fl v => fl ||| (if (quant v).ovr then Flags.nx else (quant v).flags)) 0) fun _ d =>
      ∃ x, c.hasV d e f.d x ∧ MxLine (f.etype == 12) (f.imm.toNat / 32 % 2) (c.readV f.d.toNat) x
        (fun i => ((block[i]?).map fun v => (quant v).bits).getD 0) (mxScale f block).toNat := by
  intro c block quant
  refine runs_vmxq hn group queue i (mxScale_lt f block) (fun fp4 j => ?_) (mxqOut_finite flt c e finite)
  cases block[j]? with
  | none => exact (by decide : 0 < 16)
  | some v =>
    change (mxQuant e f (mxScale f block) v).bits < 16
    rw [mxQuant, if_pos fp4]
    exact round_e2m1_lt ..

end

end Sys2Proof.Machine
end

section
/-!
VI, VF, VSF and VC (06 R155 to R170): the obligation.
-/

namespace Sys2Proof.Machine

/-- Settles O41: each instruction by the layer of its kind (integers, floats and seeds, conversions, packs, block formats), and the
arithmetic operations by `arithmetic_exact`. -/
theorem vectorIntegerResults : Obligations.VectorIntegerResults := by
  unfold Obligations.VectorIntegerResults
  refine ⟨fun k n s hn queue => ?_, fun k n s e rest queue group => ?_, ?_,
    fun g md sat ftz daz np nz x y v _ => arithmetic_exact g md sat ftz daz np nz x y v⟩
  · have run : exec (.vectorComplete k n) s = execVectorComplete k n s := rfl
    rw [run, execVectorComplete, queue]
  · have run : exec (.vectorComplete k n) s = execVectorComplete k n s := rfl
    rw [run, execVectorComplete, queue]
    dsimp only
    rw [group]; rfl
  intro f k n s e rest g hn
  rw [← widthOf_eq, ← isSigned_eq]
  simp only [← widthOf_eq, ← isSigned_eq]
  intro group queue
  refine ⟨each_intOp hn group queue, fun _ => each_floatOp hn group queue, fun src dst srcTy dstTy => ⟨fun i => ?_, fun i => ?_⟩,
    fun i => ?_, fun i => ?_, fun flt i => ⟨fun special => ?_, fun plain => ?_⟩, fun flt i => ?_⟩
  · exact runs_vcvt hn group queue srcTy dstTy i
  · obtain ⟨t, run, done, flags, count, line, fills⟩ := runs_vcvto hn group queue srcTy dstTy i
    exact ⟨t, run, done, flags, count, line, fun q id ch place plain chan here => ⟨_, fills q id ch place plain chan here,
      AMap.get?_erase_same .., Chan.fill_seq .., fun br one => ⟨_, Chan.fill_branches one .., fillToken_cvt ..⟩⟩⟩
  · exact each_pack hn group queue i
  · exact each_unpack hn group queue i
  · exact runs_vmxq_special hn group queue i flt special
  · exact runs_vmxq_finite hn group queue i flt fun v hv => Classical.byContradiction fun h => plain ⟨v, hv, h⟩
  · exact each_mxd hn group queue i

end Sys2Proof.Machine
end
